-- ==== Sys2Proof/Word.lean ====
section
/-!
DEFINITION. The word types of the hub and the numbers that name its ports, sessions, functions and partitions
(spec/00_scope.md R10 to R14, R18, R32).
-/

namespace Sys2Proof

/-- A byte of a record, a descriptor, an image or a memory. -/
abbrev Byte := BitVec 8
/-- A 16-bit field. -/
abbrev W16 := BitVec 16
/-- A 32-bit register or field. -/
abbrev W32 := BitVec 32
/-- A 64-bit field: a bus address, a timestamp, a counter word. -/
abbrev W64 := BitVec 64
/-- A host port B0 to B3 (R10). -/
abbrev HostPort := Fin 4
/-- A Nalsel port N0 to N7 (R11). -/
abbrev Port := Fin 8
/-- A session S0 to S63: 16 x host port + VF index (R12). -/
abbrev Sess := Fin 64
/-- A partition P0 to P63 (R13). -/
abbrev Part := Fin 64
/-- A function that has rings: 0 to 63 are the virtual functions (the sessions), 64 to 67 the physical functions of
B0 to B3 (R12, the session is not a PF; spec/05 Functions and sessions). -/
abbrev Fn := Fin 68
/-- An Osier core, 0 to 15, or a Stake core 16 to 19 that runs a scan adaptor. -/
abbrev CoreNo := Fin 20

end Sys2Proof
end

