-- ==== Sys2Proof/Syntax.lean ====
section
/-!
DEFINITION. The commands of the hub: one constructor of `Instr` for each row of spec/opcode_table.json, with the data
that comes with the command from outside (which function, port, partition; the bytes of a descriptor, a message, a
flit, an image). The rows themselves give no bits.
-/

namespace Sys2Proof

/-- Link number of a block, flit or link timer: 0 to 7 the Nalsel ports, 8 the Plait link (R952). -/
abbrev LinkNo := Fin 9
/-- A unit number (R14): bits 14:12 the port, bits 11:0 the index. -/
abbrev UnitNo := BitVec 15

/-- What caused a host port reset (R105). -/
inductive PortResetCause
  | perst | hotReset | linkDown
  deriving DecidableEq, Repr

/-- Where a register write goes: to a byte offset of BAR0, or to the first word of the function's MSI-X capability (R1019,
R1020). A request of several words goes to ascending offsets: its further words with their byte enables (R1025). -/
inductive RegAt
  | bar (offset : W16)
  | span (offset : W16) (more : List (W32 × BitVec 4))
  | msixControl
  deriving DecidableEq, Repr

/-- A clock fault: REFCLK is absent, else ROOT has lost lock; and the levels of the strap pins, which the reset samples again
(R94, R98, R113). -/
structure ClockLoss where
  refAbsent : Bool
  pairRank : Bool
  bootSrc : Bool
  mask : BitVec 4
  deriving DecidableEq, Repr

/-- A dip of VDD_AON: how long it lasts, and the levels of the strap pins, which the reset samples again where PORST_N stays
high (R98, R105, R113). -/
structure SupplyDip where
  belowNs : Nat
  pairRank : Bool
  bootSrc : Bool
  mask : BitVec 4
  deriving DecidableEq, Repr

/-- What a read of a memory under ECC meets: nothing, a correctable word, or an uncorrectable one (R994, R995). -/
inductive Ecc
  | good
  | corrected
  | bad
  deriving DecidableEq, Repr

/-- The 512-byte blocks of a splint in which the read meets a correctable word, and an uncorrectable one (R625, R995). -/
structure SplintEcc where
  corrected : Byte
  bad : Byte
  deriving DecidableEq, Repr

/-- What the reads behind a trace frame meet: of the tier whose turn it is, or of a partition's record in the DRAM write
queue, an uncorrectable word (R999). -/
inductive TraceEcc
  | tier (found : Ecc)
  | queue (part : Part)
  deriving DecidableEq, Repr

/-- What a word of the Creel is a part of (R996, R999). -/
inductive CreelPlace
  | nothing
  | record (unit : UnitNo)
  /-- A 512-byte block of the region part or the state part of a staged cut. -/
  | staged (part : Part) (cut : W32) (state : Bool) (block : Nat)
  /-- The record of that place in the tier. -/
  | tier (part : Part) (place : Nat)
  | queue (part : Part)
  | graph (part : Part)
  | report (part : Part) (id : W32)
  /-- A word of a run's Creel-data or input segment, by its address. -/
  | run (id : W32) (addr : Nat)
  | library (index : Byte) (offset : Nat)
  | coder (part : Part)
  deriving DecidableEq, Repr

/-- What the patrol scrubber finds (R996). -/
inductive ScrubFind
  | good
  | corrected
  | bad (place : CreelPlace)
  deriving DecidableEq, Repr

/-- The end of a channel proof: the partition, and the units whose held record failed SECDED as the Slath read it (R598), or
showed a correctable word (R995). -/
structure ProofEnd where
  part : Part
  poisoned : List UnitNo
  corrected : List UnitNo := []
  deriving DecidableEq, Repr

/-- A serdes PLL (R89, R97). -/
inductive Pll
  | border (n : HostPort) | nsl (n : Port) | wale | plait
  deriving DecidableEq, Repr

/-- One fuse bit, as a burn addresses it (R139, R141, R164). -/
inductive FuseBit
  | a (n : Fin 24) | b (n : Fin 24) | c (n : Fin 24)
  | journal (n : Fin 8)
  | imgKey (n : Fin 384) | tapKey (n : Fin 384)
  | imgLocked | tapLocked
  deriving DecidableEq, Repr

/-- The ACK and CREDITS fields that every link control flit carries (R402). -/
structure CtlHdr where
  ack : BitVec 12
  ackValid : Bool
  /-- Byte k: credits of channel k returned since training, modulo 256. -/
  credits : W32
  deriving DecidableEq, Repr

/-- The body of a CONFIG link control flit (R416). -/
structure ConfigBody where
  uid : W64
  unitCount : W16
  caps : W16
  tickFs : W32
  creditInit : W32
  lostEvents : W32
  deriving DecidableEq, Repr

/-- A message on a virtual channel (R392). -/
structure Msg where
  /-- Channel 0 to 3. -/
  ch : Nat
  op : Byte
  response : Bool
  error : Bool
  target : W16
  partition : Byte
  source : Byte
  tag : W32
  holder : W32
  data : List Byte
  deriving DecidableEq, Repr

/-- The twin's HELLO (R956). -/
structure Hello where
  role : Byte
  stepping : Byte
  lcy : Byte
  request : Bool
  ready : Bool
  leaseMs : W16
  uid : BitVec 128
  digest : BitVec 128
  deriving DecidableEq, Repr

/-- The commands, one constructor per row of the table, in the table's order. -/
inductive Instr
  /-- POWER_ON_RESET (R105). PORST_N driven low resets the whole hub and clears or keeps state as the survival table
  sets. -/
  | powerOnReset (lowNs : Nat)
  /-- PORST_N_RISE (R98). The rising edge of PORST_N samples the straps and starts the start-up sequence. -/
  | porstNRise (pairRank bootSrc : Bool) (mask : BitVec 4)
  /-- SUPPLY_DROP (R1049). VDD_AON below its falling threshold for 2 µs or longer causes a power-on reset with
  SUPPLY_DROP set. -/
  | supplyDrop (dip : SupplyDip)
  /-- CLOCK_FAULT (R94). REFCLK absent for 1 µs or ROOT loss of lock causes a clock-fault reset. -/
  | clockFault (fault : ClockLoss)
  /-- STAKE_WATCHDOG_EXPIRY (R107). The Stake watchdog, unserviced for 50 ms, starts a warm reset with WARM_WATCHDOG
  set. -/
  | stakeWatchdogExpiry
  /-- HOST_PORT_RESET (R321). PERST_N low, a hot reset or link-down of a host port resets that port, its port
  manager and its sessions and retrains the link. -/
  | hostPortReset (port : HostPort) (cause : PortResetCause)
  /-- SESSION_RESET (R317). A function-level reset of a VF, or the VF ceasing to exist, fences the session, ends its
  roles, exports and programs and clears its rings. -/
  | sessionReset (ses : Sess)
  /-- PF_FUNCTION_RESET (R320). A function-level reset of a PF resets its management rings and clears VF Enable,
  resetting every session of the port. -/
  | pfFunctionReset (port : HostPort)
  /-- SESSION_RESET_DRAIN_END (R319). Die commands and other sessions' exports left by a session reset end, the
  owned cuts are released and RESET_DRAIN clears. -/
  | sessionResetDrainEnd (ses : Sess)
  /-- D3HOT_ENTRY (R257). A function entering D3hot stops fetching descriptors while fetched commands run on. -/
  | d3hotEntry (fn : Fn)
  /-- D0_RETURN (R257). A function returning to D0 writes the completions held during D3hot and resumes fetching. -/
  | d0Return (fn : Fn)
  /-- ROOT_PLL_LOCK (R93). ROOT locks after a power-on or clock-fault reset, the timebase starts at zero and the hub
  enters the FUSE phase. -/
  | rootPllLock
  /-- FUSE_PHASE_END (R143). The three lifecycle copies and the journal have been sensed and the hub enters the
  JOURNAL phase. -/
  | fusePhaseEnd
  /-- JOURNAL_PHASE_END (R144). Pending transitions are resumed, the copies are voted and the lifecycle state in
  force is decided. -/
  | journalPhaseEnd (stuck : List FuseBit)
  /-- SCRUB_PHASE_END (R123). Memories are initialised with valid ECC and the hub enters AWAIT_WEAVE, BLANK or EOL. -/
  | scrubPhaseEnd
  /-- BOOT_FAIL (R134). Failure to reach AWAIT_WEAVE, BLANK or EOL within 50 ms sets FAIL and a FAIL_CODE and
  freezes the phase. -/
  | bootFail
  /-- WEA_LOAD_START (R215). A write of 1 to WEA_LOAD_CTRL.START starts fetching a full image from the PF's host
  memory, subject to R216. -/
  | weaLoadStart (port : HostPort)
  /-- WEA_LOAD_ABORT (R217). A write of 1 to WEA_LOAD_CTRL.ABORT rejects the PF's load in progress with ABORTED. -/
  | weaLoadAbort (port : HostPort)
  /-- IMAGE_CHECK_DONE (R210). The checks of a fetched full image end, and the image is accepted or rejected with a
  reason code and offset. -/
  | imageCheckDone
  /-- DRAM_TRAINING_DONE (R715). External memory training ends in LINK_TRAIN, setting DRAM_READY or DRAM_FAIL. -/
  | dramTrainingDone (ok : Bool)
  /-- ENUMERATION_DONE (R130). Enumeration of a port ends: units are assigned, the map is checked and stakes and
  watch defaults are written. -/
  | enumerationDone (port : Port)
  /-- READY_ENTRY (R136). The hub enters READY, signals MSI-X vector 0, starts bound models and sets the state of
  every block. -/
  | readyEntry
  /-- SERDES_PLL_LOSS (R96). A serdes PLL loses lock, taking down only its link and clearing its CLK_STATUS bit. -/
  | serdesPllLoss (pll : Pll)
  /-- SERDES_PLL_RELOCK (R96). A serdes PLL relocks and the links it serves resume training. -/
  | serdesPllRelock (pll : Pll)
  /-- DOORBELL (R267). A write to SES_CMD_TAIL submits descriptors, or raises a ring error for an invalid tail. -/
  | doorbell (fn : Fn) (value : W32)
  /-- CPL_HEAD_WRITE (R273). A write to SES_CPL_HEAD frees completion entries and may release a fetch stalled by a
  full completion ring. -/
  | cplHeadWrite (fn : Fn) (value : W32)
  /-- RING_ENABLE (R265). Writing 1 to SES_CTRL.ENABLE resets heads, tails and phase and enables the rings, or fails
  for a bad size. -/
  | ringEnable (fn : Fn)
  /-- RING_DISABLE (R275). Writing 0 to SES_CTRL.ENABLE stops fetching while fetched commands run to their end. -/
  | ringDisable (fn : Fn)
  /-- DESCRIPTOR_FETCH (R270). The hub fetches a descriptor in ring order after reserving a completion entry, and
  advances SES_CMD_HEAD. -/
  | descriptorFetch (fn : Fn) (desc : BitVec 512) (error : Bool)
  /-- COALESCE_TIMEOUT (R315). SES_INT_COAL.TIME_US passes since the first unsignalled completion and the completion
  vector is signalled. -/
  | coalesceTimeout (fn : Fn)
  /-- HOST_DMA_ERROR (R296). A PCIe error on a buffer-window access ends the command with BAD_ADDRESS, with PARTIAL
  if side effects happened. -/
  | hostDmaError (fn : Fn) (tag : W32)
  /-- NOP (R287). NOP completes with OK and zero result words, also before READY. -/
  | nop (fn : Fn) (tag : W32)
  /-- CLAIM (R331). CLAIM makes the session owner of an unowned partition after the claim-allow, stake and occupancy
  checks. -/
  | claim (fn : Fn) (tag : W32)
  /-- RELEASE (R330). RELEASE ends the session's ownership or observation of a partition. -/
  | release (fn : Fn) (tag : W32)
  /-- RELEASE_TAKES_EFFECT (R335). A RELEASE of ownership takes effect once the session's earlier commands naming
  the partition have completed. -/
  | releaseTakesEffect (fn : Fn) (tag : W32)
  /-- OBSERVE (R331). OBSERVE makes the session an observer of a partition if fewer than eight observe it. -/
  | observe (fn : Fn) (tag : W32)
  /-- GRANT (R339). GRANT performs the ownership, observation, claim-allow, GLOBAL_VIEW or open-lab consent action
  that its ACTION field selects. -/
  | grant (fn : Fn) (tag : W32)
  /-- HALT (R557). HALT enters the Hoop lattice as a host-command trigger and halts every unit of the partition. -/
  | halt (fn : Fn) (tag : W32)
  /-- RESUME (R570). RESUME sends resume requests to the named units, together or port by port in PORT_SEQ order. -/
  | resume (fn : Fn) (tag : W32)
  /-- STEP (R565). STEP makes each named unit execute one instruction or one engine command, lockstep for all units.
  -/
  | step (fn : Fn) (tag : W32)
  /-- SET_BREAK (R574). SET_BREAK writes a breakpoint in each named unit in two messages and reads its control word
  back. -/
  | setBreak (fn : Fn) (tag : W32)
  /-- CLEAR_BREAK (R577). CLEAR_BREAK writes the named breakpoint control words to 0. -/
  | clearBreak (fn : Fn) (tag : W32)
  /-- SET_WATCH (R576). SET_WATCH writes a comparator specification from the buffer into each named unit in three
  messages. -/
  | setWatch (fn : Fn) (tag : W32) (data : List Byte)
  /-- CLEAR_WATCH (R577). CLEAR_WATCH writes the named comparator control words to 0. -/
  | clearWatch (fn : Fn) (tag : W32)
  /-- READ_UNIT_REGS (R581). READ_UNIT_REGS reads debug-window words of each named unit into the buffer window. -/
  | readUnitRegs (fn : Fn) (tag : W32)
  /-- WRITE_UNIT_REGS (R582). WRITE_UNIT_REGS writes the same words from the buffer to each named unit. -/
  | writeUnitRegs (fn : Fn) (tag : W32) (data : List Byte)
  /-- READ_UNIT_MEM (R583). READ_UNIT_MEM transfers bytes of one region of one unit into the buffer window. -/
  | readUnitMem (fn : Fn) (tag : W32)
  /-- WRITE_UNIT_MEM (R583). WRITE_UNIT_MEM transfers bytes from the buffer into one region of one unit. -/
  | writeUnitMem (fn : Fn) (tag : W32) (data : List Byte)
  /-- CUT (R592). CUT halts a running partition with HALT_CUT, joins a cut in progress, or builds a new cut from
  held records. -/
  | cut (fn : Fn) (tag : W32)
  /-- DUMP_CUT (R629). DUMP_CUT opens an export of a staged cut part to a host buffer, the DRAM dump region or the
  trace port. -/
  | dumpCut (fn : Fn) (tag : W32)
  /-- DUMP_REGION (R639). DUMP_REGION exports one live memory range of one unit as region splints and a manifest. -/
  | dumpRegion (fn : Fn) (tag : W32)
  /-- RELEASE_CUT (R643). RELEASE_CUT stops new exports and capture of a cut, which is freed when its open exports
  end. -/
  | releaseCut (fn : Fn) (tag : W32)
  /-- CUT_FREED (R643). After the last open export of a released cut ends, its pages and stored exports are freed
  and a RELEASED record written. -/
  | cutFreed (part : Part) (cut : W32)
  /-- TRACE_CONFIG (R710). TRACE_CONFIG replaces routing, forces or restores encoding, or writes EVT_EN of named
  units. -/
  | traceConfig (fn : Fn) (tag : W32)
  /-- TRACE_FLUSH (R721). TRACE_FLUSH flushes, reads or discards DRAM trace blocks of the partition as MODE selects.
  -/
  | traceFlush (fn : Fn) (tag : W32) (found : Ecc)
  /-- TRACE_FLUSH_DRAINED (R723). The backlog of a MODE 0 TRACE_FLUSH has drained, the open block is committed and
  the command completes. -/
  | traceFlushDrained (fn : Fn) (tag : W32)
  /-- COUNTER_CONFIG (R766). COUNTER_CONFIG makes a reprogram of counter selections pending until a latch point. -/
  | counterConfig (fn : Fn) (tag : W32) (data : List Byte)
  /-- COUNTER_LATCH (R771). COUNTER_LATCH takes a HOST latch point or reads the always-on set and writes the block
  to the buffer. -/
  | counterLatch (fn : Fn) (tag : W32)
  /-- LOAD_MODEL (R813). LOAD_MODEL adds a checked MODEL or PROGRAM entry to the library, or UNLOADs one. -/
  | loadModel (fn : Fn) (tag : W32) (data : List Byte)
  /-- RUN_PROGRAM (R817). RUN_PROGRAM places and starts a program run on an Osier core. -/
  | runProgram (fn : Fn) (tag : W32)
  /-- STOP_PROGRAM (R822). STOP_PROGRAM stops, waits for or queries a run as MODE selects. -/
  | stopProgram (fn : Fn) (tag : W32)
  /-- REWEAVE (R224). REWEAVE fetches and checks a weft or warp image and loads it into the inactive plane or staged
  warp. -/
  | reweave (fn : Fn) (tag : W32) (data : List Byte)
  /-- REWEAVE_COMMIT (R230). REWEAVE_COMMIT starts waiting for the settle point to switch weft planes or install a
  staged warp. -/
  | reweaveCommit (fn : Fn) (tag : W32)
  /-- WEFT_SWITCH (R235). At the partition's settle point the inactive plane becomes active, arming resets and
  routing, counters and encoding change. -/
  | weftSwitch (part : Part)
  /-- COMMIT_SETTLE_TIMEOUT (R240). A commit that does not reach its settle point within SETTLE_MS fails with BUSY
  and a WEAVE record. -/
  | commitSettleTimeout (fn : Fn) (tag : W32)
  /-- WATCH_APPLY_END (R238). The watch-default writes of a WATCH_APPLY commit end, skipped units are counted and
  the commit completes. -/
  | watchApplyEnd (part : Part)
  /-- WARP_SETTLE (R248). All partitions of a warp commit have settled, the staged entries are installed and changed
  ports retrain. -/
  | warpSettle
  /-- WARP_COMMIT_DONE (R248). The ports of a warp commit are enumerated, stakes adjusted, the commit completes and
  WEAVE records are written. -/
  | warpCommitDone
  /-- HANG_REPORT (R686). HANG_REPORT reads a held hang report, or writes an ON_DEMAND report, into the buffer
  window. -/
  | hangReport (fn : Fn) (tag : W32) (found : Ecc)
  /-- METER_READ (R371). METER_READ writes current meters or metering-log entries to the buffer window. -/
  | meterRead (fn : Fn) (tag : W32)
  /-- EPOCH_CLOSE (R355). EPOCH_CLOSE closes the open billing epoch, opens the next and writes EPOCH_CLOSE and METER
  entries. -/
  | epochClose (fn : Fn) (tag : W32)
  /-- SET_WALLCLOCK (R363). SET_WALLCLOCK sets the wall clock or the automatic-close period, writing TIME_STEP
  entries and records. -/
  | setWallclock (fn : Fn) (tag : W32)
  /-- EPOCH_AUTO_CLOSE (R362). The wall clock reaches a boundary later than LAST_BOUNDARY and the epoch closes
  automatically. -/
  | epochAutoClose
  /-- TWIN_PAIR (R974). TWIN_PAIR pairs with the twin, hands stakes off, or takes stakes over as ACTION selects. -/
  | twinPair (fn : Fn) (tag : W32)
  /-- TAKEOVER_TIMEOUT (R978). A TAKEOVER with pairs still refused after 1.05 × LEASE_MS + 3 ms completes with
  STAKE_HELD_BY_TWIN. -/
  | takeoverTimeout (fn : Fn) (tag : W32)
  /-- TWIN_RELEASE (R979). TWIN_RELEASE sends UNPAIR and leaves the pair, keeping held stakes. -/
  | twinRelease (fn : Fn) (tag : W32)
  /-- LIFECYCLE_ADVANCE (R150). LIFECYCLE_ADVANCE checks a transition request and starts burning it. -/
  | lifecycleAdvance (fn : Fn) (tag : W32)
  /-- FUSE_BIT_ATTEMPT_END (R154). A program pulse on one fuse bit ends and is verified, and burning continues with
  a retry or the next bit. -/
  | fuseBitAttemptEnd (took : Bool)
  /-- HUB_CTRL_WARM_RESET (R106). A write of 0xA5 to HUB_CTRL.WARM_RESET by a permitted port manager starts a warm
  reset. -/
  | hubCtrlWarmReset (port : HostPort) (value : W32)
  /-- PARTITION_RESET (R115). A write of 1 to RUN_Pn_RESET.REQUEST by the owner requests a reset of the partition's
  hub-side state. -/
  | partitionReset (fn : Fn) (part : Part)
  /-- PARTITION_RESET_COMPLETE (R116). After any gathering ends, the partition reset clears its state, releases its
  cuts and aborts pending commands. -/
  | partitionResetComplete (part : Part)
  /-- RETRAIN (R424). A write of 1 to NSLn_LINK_CTRL.RETRAIN in ACTIVE starts a retrain. -/
  | retrain (by_ : HostPort) (port : Port)
  /-- FORCE_DOWN (R413). A write of 1 to NSLn_LINK_CTRL.FORCE_DOWN takes the link to DOWN with cause 0x7. -/
  | forceDown (by_ : HostPort) (port : Port)
  /-- SCAN_CTRL_WRITE (R841). A permitted write of NSL7_SCAN_CTRL sets TCK_DIV and the adaptor and, when
  ADAPTOR_VALID is set, calls the adaptor with INIT. -/
  | scanCtrlWrite (by_ : HostPort) (value : W32)
  /-- ERR_INJECT (R1014). A permitted write of ERR_INJECT in Test arms a one-shot ECC error on the next write. -/
  | errInject (by_ : HostPort) (value : W32)
  /-- REGISTER_WRITE (R39). A write to a register without a row of its own acts on its fields by their access codes.
  -/
  | registerWrite (fn : Fn) (offset : RegAt) (value : W32) (enables : BitVec 4)
  /-- REGISTER_READ_CLEAR (R41). A completed read of an RC field returns and clears it. A read of no words does not
  complete. -/
  | registerReadClear (fn : Fn) (offset : W16) (words : Nat)
  /-- LATCHING_READ (R1030). A read of the lowest word of a multi-word group takes the value at one edge and latches
  the other words for the function. -/
  | latchingRead (fn : Fn) (offset : W16)
  /-- MEM_WINDOW_READ (R1038). A read of HUB_MEM_DATA_LO reads a 64-bit memory word, latches the high word and
  advances the address. -/
  | memWindowRead (port : HostPort)
  /-- IDCODE (R177). The TAP IDCODE instruction returns the 32-bit identity. -/
  | idcode
  /-- EXTEST (R175). The TAP EXTEST instruction drives boundary-scan outputs. -/
  | extest (cells : List Bool)
  /-- SAMPLE_PRELOAD (R175). The TAP SAMPLE/PRELOAD instruction samples and preloads the boundary register. -/
  | samplePreload (pins cells : List Bool)
  /-- BYPASS (R176). BYPASS, an unlisted code or an unavailable instruction selects the 1-bit bypass register. -/
  | bypass (code : Byte) (tdi : List Bool)
  /-- LCY_QUERY (R178). LCY_QUERY returns LCY_STATE, the raw journal and LCY_STATUS bits. -/
  | lcyQuery
  /-- LCY_ADVANCE (R179). LCY_ADVANCE at Update-DR checks and starts a lifecycle transition from the TAP. -/
  | lcyAdvance (target : Byte) (confirm : W32)
  /-- FUSE_KEY_PROG (R165). FUSE_KEY_PROG burns a key-hash field and its LOCKED bit in Blank or Test. -/
  | fuseKeyProg (tapKey : Bool) (value : BitVec 384)
  /-- MEM_ACCESS (R1043). MEM_ACCESS at Update-DR reads or writes one 64-bit memory word as the lifecycle state
  permits. -/
  | memAccess (dr : BitVec 128)
  /-- REG_ACCESS (R1041). REG_ACCESS at Update-DR performs a register access as a named function with arbiter
  permissions. -/
  | regAccess (dr : BitVec 64)
  /-- WARM_RESET (R105). The TAP WARM_RESET instruction starts a warm reset with WARM_TAP set. -/
  | warmReset
  /-- UNLOCK_CHALLENGE (R180). UNLOCK_CHALLENGE shifts out a fresh nonce and the device identity. -/
  | unlockChallenge
  /-- UNLOCK_RESPONSE (R181). UNLOCK_RESPONSE takes a public key and signature and starts their verification. -/
  | unlockResponse (dr : List Byte)
  /-- UNLOCK_VERDICT (R182). Verification ends and the hub grants unlock or counts a rejection, locking out at the
  third. -/
  | unlockVerdict
  /-- NONCE_EXPIRY (R183). A challenge nonce becomes invalid 60 s to 61 s after it was issued. -/
  | nonceExpiry
  /-- BLOCK_LOCK (R1091). Valid sync headers arrive on every lane and the link leaves DETECT for SYNC. -/
  | blockLock (link : LinkNo) (lanes : BitVec 2)
  /-- TS_BLOCK_RECEIVE (R415). A TS1 or TS2 block is received and its role, lane and mode are checked during SYNC. -/
  | tsBlockReceive (link : LinkNo) (lane : Fin 2) (ts2 : Bool) (role laneNo mode version : Byte)
  /-- LOCK_LOSS (R424). Loss of block lock on a lane in use starts a retrain in ACTIVE. -/
  | lockLoss (link : LinkNo) (lane : Fin 2)
  /-- TRAIN_TIMEOUT (R414). A training state exceeding its time limit takes the link to DOWN and counts a training
  failure. -/
  | trainTimeout (link : LinkNo)
  /-- DOWN_PERIOD_END (R413). The DOWN period of 1 ms ends and the link enters DETECT. -/
  | downPeriodEnd (link : LinkNo)
  /-- FLIT_RECEIVE (R407). A sequenced flit is accepted, dropped as duplicate or discarded with a NAK by its CRC and
  number. -/
  | flitReceive (link : LinkNo) (flit : BitVec 288)
  /-- NAK (R409). A received NAK makes the sender send REPLAY_START and resend from NAK_SEQ + 1. -/
  | nak (link : LinkNo) (hdr : CtlHdr) (seq : BitVec 12)
  /-- REPLAY_START (R407). A received REPLAY_START ends discarding and renumbers the next sequenced flit. -/
  | replayStart (link : LinkNo) (hdr : CtlHdr) (first : BitVec 12)
  /-- ACK_TIMEOUT_REPLAY (R410). ACK_SEQ not advancing for 2 µs with flits unacknowledged starts a replay from the
  oldest. -/
  | ackTimeoutReplay (link : LinkNo)
  /-- LINK_CONTROL_IDLE (R404). An IDLE link control flit updates cumulative ACK and credits. -/
  | linkControlIdle (link : LinkNo) (hdr : CtlHdr)
  /-- CONFIG (R416). A CONFIG link control flit delivers the peer's identity, capabilities, tick and credits. -/
  | config (link : LinkNo) (hdr : CtlHdr) (peerSeen : Bool) (body : ConfigBody)
  /-- TIMESYNC_TIMER (R419). Every 100 µs in ACTIVE the hub starts a time exchange by sending TIMESYNC_REQ. -/
  | timesyncTimer (link : LinkNo)
  /-- TIMESYNC_RSP (R419). A TIMESYNC_RSP yields an exchange's offset and rtt and updates NSLn_OFFSET and NSLn_RTT. -/
  | timesyncRsp (link : LinkNo) (hdr : CtlHdr) (exch : Byte) (t1 t2 t3 : W64)
  /-- TIMESYNC_EXCHANGE_TIMEOUT (R420). An exchange without an answer within 4 µs is discarded. -/
  | timesyncExchangeTimeout (link : LinkNo)
  /-- LINK_RESUME_FLIT (R424). A RESUME link control flit in RETRAIN names the next sequence number expected and
  replay follows. -/
  | linkResumeFlit (link : LinkNo) (hdr : CtlHdr) (next : BitVec 12)
  /-- DETACH_REQ (R431). A DETACH_REQ stops new requests on the port until none is outstanding. -/
  | detachReq (port : Port) (hdr : CtlHdr)
  /-- DETACH_ACK_SEND (R431). With no request outstanding, or 1 ms after DETACH_REQ, the hub sends DETACH_ACK and
  takes the link DOWN. -/
  | detachAckSend (port : Port)
  /-- HALT_RECORD (R541). A halt record from a unit makes its view HALTED and is held for gatherings and cuts. -/
  | haltRecord (port : Port) (m : Msg)
  /-- EVENT_BATCH (R479). An EVENT_BATCH delivers event entries to trace, hang analysis, latch points and the
  HIT_INBAND source. -/
  | eventBatch (port : Port) (m : Msg)
  /-- COUNTER_DELTA (R750). A COUNTER_DELTA adds its entries to selected profiling counters and may take an END
  latch point. -/
  | counterDelta (port : Port) (m : Msg)
  /-- DIE_LOSS (R735). A DIE_LOSS produces LOSS records, makes the unit uncertain and may take an END latch point. -/
  | dieLoss (port : Port) (m : Msg)
  /-- DIE_RESPONSE (R1093). A response on VC0, VC1 or VC2 is matched to the oldest outstanding request and advances
  the command that sent it. -/
  | dieResponse (port : Port) (m : Msg)
  /-- RESPONSE_TIMEOUT (R553). No answer within the longer of HALT_TIMEOUT and R451 makes the unit UNRESPONSIVE and
  ends the command. -/
  | responseTimeout (port : Port) (ch : Fin 3)
  /-- HOOP_IN_ASSERT (R502). An assertion of HOOP_IN_n fires that source for every partition. -/
  | hoopInAssert (port : Port) (heldNs : Nat)
  /-- XTRIG_EDGE (R502). An active edge of an XTRIG input fires its source. -/
  | xtrigEdge (pin : Fin 8) (rising : Bool) (heldNs : Nat)
  /-- STAGE_TIMEOUT (R513). A stage that does not act within TIMEOUT_US returns the sequence to stage 0 with a
  DISARM record. -/
  | stageTimeout (part : Part)
  /-- PARTITION_WATCHDOG_EXPIRY (R505). The partition watchdog expires and fires the WATCHDOG source. -/
  | partitionWatchdogExpiry (part : Part)
  /-- HOOP_OUT_PULSE_END (R529). A HOOP_OUT_n assertion ends after 64 to 80 ns and its release gap begins. -/
  | hoopOutPulseEnd (port : Port)
  /-- HOOP_RELEASE_GAP_END (R529). The 32 ns release gap ends and a delayed assertion begins. -/
  | hoopReleaseGapEnd (port : Port)
  /-- XTRIG_PULSE_END (R530). An XTRIG output pulse ends after 20 to 40 ns. -/
  | xtrigPulseEnd (pin : Fin 8)
  /-- HALT_TIMEOUT_EXPIRY (R562). A unit without a halt record when HALT_TIMEOUT ends is declared UNRESPONSIVE. -/
  | haltTimeoutExpiry (unit : UnitNo)
  /-- STEP_TIMEOUT_EXPIRY (R567). A unit without its step acknowledgement after STEP_TIMEOUT_US is declared
  UNRESPONSIVE. -/
  | stepTimeoutExpiry (unit : UnitNo)
  /-- PROOF_DONE (R599). The channel proof ends, staging is reserved or the cut refused, and in-flight reads begin. -/
  | proofDone (proof : ProofEnd)
  /-- SPLINT_EMIT (R635). The Slath sends the next ready splint of an open export under deficit round robin, ending
  with the manifest and completion. -/
  | splintEmit (found : SplintEcc)
  /-- EXPORT_PORT_TIMEOUT (R1005). A DEST 2 export unable to send a splint for 100 ms while the port is down ends
  with LINK_DOWN. -/
  | exportPortTimeout (fn : Fn) (tag : W32)
  /-- HANG_EVENT_PROCESS (R655). A queued synchronisation event updates the channel registry and opens or closes
  waits in the graph. -/
  | hangEventProcess
  /-- HANG_SCAN (R659). Every HANG_SCAN_US the firmware starts a scan of a partition's wait-for graph. -/
  | hangScan (part : Part)
  /-- HANG_SCAN_END (R660). A scan ends, declaring cycles or stalls, writing reports and entering any declaration
  action into the lattice. -/
  | hangScanEnd (part : Part) (found : Ecc)
  /-- TRACE_FRAME_TIMEOUT (R728). A trace frame 10 µs after its first byte is sent, ending the current coded span. -/
  | traceFrameTimeout (part : Part)
  /-- KEEPALIVE_TIMER (R728). After 1 ms of idle port a KEEPALIVE frame is sent. -/
  | keepaliveTimer
  /-- TRACE_FRAME_SEND (R729). The trace port sends the next trace or dump frame, sharing by deficit round robin. -/
  | traceFrameSend (found : TraceEcc)
  /-- GAP_END (R733). Room returns at a destination, the LOSS record is placed and recording resumes. -/
  | gapEnd (part : Part) (dram : Bool)
  /-- SPILL_RETURN (R731). A spill block is moved back into the Creel tier as the tier empties. -/
  | spillReturn (part : Part)
  /-- TIMESYNC_RECORD_TIMER (R739). Every 10 ms a TIMESYNC record is written for each port and twin offset. -/
  | timesyncRecordTimer (link : LinkNo)
  /-- WALE_LINK_UP (R724). The trace-port link comes up and the next frame carries RESTART. -/
  | waleLinkUp
  /-- WALE_LINK_DOWN (R1004). The trace-port link goes down and trace backs up, spills and opens gaps. -/
  | waleLinkDown
  /-- DEFERRED_LATCH_POINT (R762). A HOST or FORCED latch point delayed by the 80 ns spacing is taken at the first
  allowed edge. -/
  | deferredLatchPoint (part : Part)
  /-- COUNTER_CONFIG_WAIT_EXPIRY (R766). WAIT_MS after a pending COUNTER_CONFIG a FORCED latch point applies the
  reprogram. -/
  | counterConfigWaitExpiry (part : Part)
  /-- OSIER_WORD (R785). An Osier or Stake core executes one instruction word, its fields acting in bit order and
  the control field last. -/
  | osierWord (core : CoreNo) (cycles : Nat) (poison : Fin 5) (tdo : List Bool)
  /-- SLICE_LIMIT (R830). A run holding its core 100 µs without a yield point is switched if a ready run waits. -/
  | sliceLimit (core : CoreNo)
  /-- SLEEP_WAKE (R828). NOW reaches a sleeping run's time and the run becomes ready. -/
  | sleepWake (run : W32)
  /-- HOST_WRITE_ERROR (R806). A host-window write ending in a PCIe error ends the run with HOST_WRITE at the next
  boundary. -/
  | hostWriteError (run : W32)
  /-- CODER_ANSWER_READ (R925). The coder reads an exchange answer once IN_TAIL covers it and codes the record's
  symbols. -/
  | coderAnswerRead (part : Part) (found : Ecc)
  /-- CODING_STALL (R926). After 1 ms without an answer the coding run is stalled and the stream turns raw at a
  reset point. -/
  | codingStall (part : Part)
  /-- PLAIT_LINK_DOWN (R980). The Plait link enters DOWN and a paired hub enters SPLIT or TWIN_LOST. -/
  | plaitLinkDown
  /-- HALT_FWD (R535). A received halt forward fires TWIN and halts named partitions whose stake this hub holds. -/
  | haltFwd (part : Part) (action : Byte) (abrupt : Bool) (decideTs : W64)
  /-- HOOP_EN (R958). A received HOOP_EN updates the fast sets and is answered with HOOP_EN_ACK. -/
  | hoopEn (part : Part) (ports : Byte) (value : Bool)
  /-- HOOP_EN_ACK (R958). A received HOOP_EN_ACK lets the hub write HOOP_HALT_EN = 1. -/
  | hoopEnAck (part : Part) (ports : Byte) (value : Bool)
  /-- STAKE_NOTE (R964). A received STAKE_NOTE marks pairs twin-held or no longer twin-held. -/
  | stakeNote (part : Part) (ports event : Byte) (gen : W16)
  /-- HELLO (R969). A received HELLO may start pairing, which checks LCY, map digest and lease and exchanges views. -/
  | hello (h : Hello)
  /-- STAKE_VIEW (R971). A received STAKE_VIEW marks the twin's held pairs as twin-held during pairing. -/
  | stakeView (view : List Byte)
  /-- FAST_VIEW (R971). A received FAST_VIEW records the twin's HOOP_HALT_EN values in the fast sets. -/
  | fastView (view : List Byte)
  /-- HANDOFF (R977). A received HANDOFF makes the hub claim the named partitions and answer HANDOFF_DONE. -/
  | handoff (mask : W64)
  /-- HANDOFF_DONE (R977). A received HANDOFF_DONE completes a HANDOFF command. -/
  | handoffDone (claimed refused : W64)
  /-- UNPAIR (R979). A received UNPAIR puts the hub in UNPAIRED. -/
  | unpair
  /-- IMAGE_REQ_TIMER (R973). A junior awaiting its image sends IMAGE_REQ every 10 ms, or 1 s after a rejection. -/
  | imageReqTimer
  /-- IMAGE_REQ (R973). A received IMAGE_REQ makes the senior send its retained copy or IMAGE_NONE. -/
  | imageReq (found : Ecc)
  /-- IMAGE_DATA (R973). A received IMAGE_DATA message delivers part of the senior's image to the junior. -/
  | imageData (offset total : W32) (bytes : List Byte)
  /-- IMAGE_NONE (R973). A received IMAGE_NONE leaves the junior in AWAIT_WEAVE. -/
  | imageNone
  /-- PLAIT_TIMESYNC_REQ (R959). A received Plait TIMESYNC_REQ is answered with TIMESYNC_RSP in own hub ticks. -/
  | plaitTimesyncReq (hdr : CtlHdr) (exch : Byte) (t1 : W64)
  /-- HEARTBEAT_PULSE (R960). Every 200 µs the Stake firmware pulls its heartbeat line low for 1 to 2 µs. -/
  | heartbeatPulse
  /-- HEARTBEAT_ASSERT (R961). An assertion of the twin's heartbeat line declares the heartbeat present. -/
  | heartbeatAssert
  /-- HEARTBEAT_LOST (R961). 1 ms without a twin assertion declares the heartbeat lost, setting HB_FAULT or entering
  TWIN_LOST. -/
  | heartbeatLost
  /-- TWIN_ABSENT_TIMEOUT (R983). 100 ms after READY with no Plait link or heartbeat ever seen, an unpaired hub
  enters TWIN_LOST. -/
  | twinAbsentTimeout
  /-- STAKE_RENEW_TIMER (R963). Every LEASE_MS ÷ 4 the hub renews every pair of its held set. -/
  | stakeRenewTimer
  /-- STAKE_CLAIM_RETRY (R984). REMAIN ms + 0.5 ms after a HELD answer the hub repeats the stake claim. -/
  | stakeClaimRetry (port : Port) (part : Part)
  /-- PATROL_SCRUB (R996). The patrol scrubber reads Creel words, corrects correctable ones and logs uncorrectable
  ones. -/
  | patrolScrub (word : Nat) (found : ScrubFind)
  /-- THERMAL_TRIP (R1084). The on-die sensor rising through the trip point raises a logged THERMAL fault without
  throttling. -/
  | thermalTrip
  /-- FIRMWARE_STOP (R1002). An uncorrectable Stake memory word stops the firmware and logs STAKE_UE. -/
  | firmwareStop
  /-- PERST_N_RELEASE (R125). The rising edge of Bn_PERST_N lets that enabled host port enter link training within
  20 ms of the later of it and the PORST_N rise. -/
  | perstNRelease (port : HostPort)
  /-- BORDER_LINK_UP (R125). A Border host port's PCIe link completes training, after which its PF answers
  configuration requests. -/
  | borderLinkUp (port : HostPort)
  /-- VF_ENABLE (R258). Setting VF Enable or raising NumVFs in a PF's SR-IOV capability brings VFs, and so sessions,
  into existence. -/
  | vfEnable (port : HostPort) (numVfs : Nat)
  /-- IMAGE_FETCH_END (R218). The last byte of a full image being loaded arrives from host memory and
  WEA_STATUS.STATE passes from fetching to checking. -/
  | imageFetchEnd (port : HostPort) (bytes : List Byte) (error : Bool)
  /-- REWEAVE_CHECK_END (R227). The checks of a fetched weft or warp image end and REWEAVE completes, loading the
  inactive plane or staged warp or rejecting the image. -/
  | reweaveCheckEnd (fn : Fn) (tag : W32)
  /-- ALIGN_BLOCK_RECEIVE (R413). ALIGN blocks received on both lanes deskew them and take the link from ALIGN to
  CONFIG. -/
  | alignBlockReceive (link : LinkNo) (lane : Fin 2)
  /-- SUPPLY_MONITOR_RELEASE (R1049). VDD_AON rising back above the monitor's release threshold ends the power-on
  reset that a supply drop caused. -/
  | supplyMonitorRelease
  /-- THERMAL_REARM (R1084). The on-die sensor reading falling 5 °C below the trip point re-arms the THERMAL fault. -/
  | thermalRearm
  /-- HEARTBEAT_PULSE_END (R960). The hub releases its own heartbeat line after holding it low for 1 µs to 2 µs. -/
  | heartbeatPulseEnd
  /-- ADAPTOR_OPERATION_TIMEOUT (R436). A scan-adaptor operation that has not ended within HALT_TIMEOUT completes
  its command with UNIT_UNRESPONSIVE. -/
  | adaptorOperationTimeout
  deriving DecidableEq, Repr

end Sys2Proof
end

