-- ==== Sys2Proof/Decode.lean ====
section
/-!
DEFINITION. The table of this hardware gives its rows no bits: the hub takes commands, register accesses, messages and
pin events from outside and has no instruction words of its own that a table row spells. No word spells a command.
-/

namespace Sys2Proof

/-- The command that a word spells by the table's bits: none, because the table gives no row any bits. DESIGN CHOICE, log entry 1. -/
def decodeTableWord (nbits w : Nat) : Option Instr :=
  let _ := nbits
  let _ := w
  none

end Sys2Proof
end

