-- ==== Sys2Proof/Config.lean ====
section
/-!
DEFINITION. What the spec leaves open (free values: constants with no body, applied to the counter `State.free`, of
which nothing can be proved), and the constants that the spec states for every hub.
-/

namespace Sys2Proof.Config

/-! ### Free values -/

/-- Whether a PORST_N pulse of 1 µs to 10 µs resets the hub (R1073). DESIGN CHOICE, log entry 8. -/
opaque freePorst : Nat → Bool
/-- Whether a VDD_AON dip of 0.5 µs to 2 µs resets the hub (R1049). DESIGN CHOICE, log entry 8. -/
opaque freeDip : Nat → Bool
/-- Whether an input assertion of 1 ns to 4 ns fires its source (R531). DESIGN CHOICE, log entry 9. -/
opaque freeShortPulse : Nat → Bool
/-- What a fuse bit whose program pulse was cut senses (R160). DESIGN CHOICE, log entry 10. -/
opaque freeCutFuse : Nat → Bool
/-- The on-chip random source: a nonce (R180). DESIGN CHOICE, log entry 11. -/
opaque freeNonce : Nat → BitVec 384
/-- The on-chip random source: the key of external memory (R173). DESIGN CHOICE, log entry 11. -/
opaque freeXtsKey : Nat → BitVec 512
/-- Whether a response between 60 s and 61 s after its challenge finds the nonce valid (R183). DESIGN CHOICE, log entry 11. -/
opaque freeLateNonce : Nat → Bool
/-- Whether an access of the TAP is still in progress at a time before its longest one is over (R1040 to R1043). DESIGN
CHOICE, log entry 89. -/
opaque freeAccessBusy : Nat → Bool
/-- A number that the spec leaves open: a word that nothing defines, an address or an offset that no rule states.
DESIGN CHOICE, log entry 11. -/
opaque freeBits : Nat → BitVec 64

/-- What IEEE 754-2019 leaves to the implementer (R866, log entry 23): tininess is detected before rounding. -/
opaque tinyBeforeRounding : Bool
/-- A fused multiply-add of infinity and zero with a quiet NaN addend raises INVALID. DESIGN CHOICE, log entry 23. -/
opaque fmaInvalidNan : Bool
/-- A conversion to an integer format that rounds raises INEXACT. DESIGN CHOICE, log entry 23. -/
opaque convertInexact : Bool

/-! ### Constants of the part -/

/-- Ticks of 0.625 ns in one microsecond (R32). -/
abbrev ticksPerUs : Nat := 1600
/-- Ticks in one millisecond. -/
abbrev ticksPerMs : Nat := 1600000
/-- Completions a duplicate window holds (R297). -/
abbrev windowSize : Nat := 1024
/-- Commands in flight of a VF and of a PF (R302). -/
abbrev inflightVf : Nat := 64
abbrev inflightPf : Nat := 16
/-- Observers of a partition (R71). -/
abbrev maxObservers : Nat := 8
/-- Creel bytes (R71) and the hang store reserved in it at READY (R654). -/
abbrev creelBytes : Nat := 67108864
abbrev hangStoreBytes : Nat := 6291456
/-- Staged cuts in the hub and for one partition (R610). -/
abbrev maxCuts : Nat := 256
abbrev maxPartCuts : Nat := 16
/-- Open exports of one session (R628). -/
abbrev maxExports : Nat := 16

end Sys2Proof.Config
end

