-- ==== Sys2Proof/Machine/Bytes.lean ====
section
/-!
DEFINITION. Bytes of records, little-endian fields (R19), sparse tables, and the sparse memories in canonical form.
-/

namespace Sys2Proof.Machine

/-! ### Little-endian fields -/

/-- The `n` bytes of `v`, lowest first (R19). -/
def leBytes : Nat → Nat → List Byte
  | 0, _ => []
  | n + 1, v => BitVec.ofNat 8 v :: leBytes n (v / 256)

/-- The value of bytes, lowest first (R19). -/
def leVal : List Byte → Nat
  | [] => 0
  | b :: bs => b.toNat + 256 * leVal bs

/-- The `n` bytes of `v`, highest first. -/
def beBytes (n v : Nat) : List Byte := (leBytes n v).reverse

/-- The value of bytes, highest first. -/
def beVal (l : List Byte) : Nat := leVal l.reverse

/-- `n` bytes of `l` from offset `off`; bytes beyond its end are zero. -/
def slice (l : List Byte) (off n : Nat) : List Byte :=
  let r := (l.drop off).take n
  r ++ List.replicate (n - r.length) 0

/-- The little-endian field of `n` bytes at offset `off`. -/
def field (l : List Byte) (off n : Nat) : Nat := leVal ((l.drop off).take n)

/-- Zero bytes. -/
def zeros (n : Nat) : List Byte := List.replicate n 0

/-- Zero bytes up to the next multiple of `k`. -/
def padTo (k : Nat) (l : List Byte) : List Byte := l ++ zeros ((k - l.length % k) % k)

/-- `a / b` rounded up. -/
def ceilDiv (a b : Nat) : Nat := (a + b - 1) / b

/-- A Boolean as a number. -/
def b2n (b : Bool) : Nat := if b then 1 else 0

/-- The least of a value and a bound: a saturating field. -/
def sat (bound v : Nat) : Nat := if v < bound then v else bound

/-- Bit `n` of a number. -/
def bit (v n : Nat) : Bool := v / 2 ^ n % 2 == 1

/-- The number whose bit `k` is `f k`, for `k` below `n`. -/
def bitsOf (n : Nat) (f : Nat → Bool) : Nat := ((List.range n).map fun k => if f k then 2 ^ k else 0).sum

/-- The bits of a number, lowest first. -/
def toBits (n v : Nat) : List Bool := (List.range n).map (bit v)

/-- The number of a bit list, lowest first. -/
def ofBits : List Bool → Nat
  | [] => 0
  | b :: bs => b2n b + 2 * ofBits bs

/-! ### Sparse tables: keys strictly rising -/

namespace Tab

variable {α : Type}

/-- The entry of a key. -/
def get? : List (Nat × α) → Nat → Option α
  | [], _ => none
  | (k, v) :: t, x => if x = k then some v else if x < k then none else get? t x

/-- The entry of a key, or a default. -/
def getD (t : List (Nat × α)) (x : Nat) (d : α) : α := (get? t x).getD d

/-- Put an entry, keeping the keys in order. -/
def set : List (Nat × α) → Nat → α → List (Nat × α)
  | [], x, v => [(x, v)]
  | (k, w) :: t, x, v => if x < k then (x, v) :: (k, w) :: t else if x = k then (k, v) :: t else (k, w) :: set t x v

/-- Remove an entry. -/
def erase (t : List (Nat × α)) (x : Nat) : List (Nat × α) := t.filter fun e => e.1 != x

end Tab

/-! ### Sparse memories -/

/-- A sparse memory: addresses strictly rising, no entry equal to zero, which an unlisted address reads as. -/
abbrev Mem := List Host.Cell

namespace Mem

/-- The byte at an address; one that nothing has written reads 0 (log entry 4). -/
def read : Mem → Nat → Byte
  | [], _ => 0
  | (k, v) :: t, a => if a = k then v else if a < k then 0 else read t a

/-- Write one byte, keeping the canonical form: a zero is not listed. -/
def write : Mem → Nat → Byte → Mem
  | [], a, b => if b = 0 then [] else [(a, b)]
  | (k, v) :: t, a, b =>
    if a < k then (if b = 0 then (k, v) :: t else (a, b) :: (k, v) :: t)
    else if a = k then (if b = 0 then t else (a, b) :: t)
    else (k, v) :: write t a b

/-- The canonical form: addresses above `lo`, strictly rising, no zero byte. -/
def wfAbove : Option Nat → Mem → Bool
  | _, [] => true
  | lo, (k, v) :: t => (match lo with | none => true | some l => decide (l < k)) && v != 0 && wfAbove (some k) t

/-- The canonical form of a memory. -/
def wf (m : Mem) : Bool := wfAbove none m

/-- `n` bytes from an address. -/
def readN (m : Mem) (a : Nat) : Nat → List Byte
  | 0 => []
  | n + 1 => read m a :: readN m (a + 1) n

/-- Write bytes from an address on. -/
def writeN (m : Mem) (a : Nat) : List Byte → Mem
  | [] => m
  | b :: bs => writeN (write m a b) (a + 1) bs

/-- The little-endian field of `n` bytes at an address. -/
def val (m : Mem) (a n : Nat) : Nat := leVal (readN m a n)

/-- The cells of bytes that stand from an address on. -/
def ofBytesAt : Nat → List Byte → Mem
  | _, [] => []
  | a, b :: bs => if b = 0 then ofBytesAt (a + 1) bs else (a, b) :: ofBytesAt (a + 1) bs

/-- A memory that holds bytes from address 0. -/
def ofBytes (l : List Byte) : Mem := ofBytesAt 0 l

end Mem

end Sys2Proof.Machine
end

