-- ==== Sys2Proof/Machine/State.lean ====
section
/-!
DEFINITION. The state of the hub, the reasons a command can stop, and the state right after a power-on reset.
Every field names the rule of spec/ that gives it.
-/

namespace Sys2Proof.Machine

/-- The bits of a W1C register that hardware has set in one CTL cycle (R40). -/
structure Fresh where
  cycle : Nat
  bits : W32
  deriving DecidableEq, Repr

/-! ### Clocks, straps, start-up (spec/02) -/

/-- Phase codes of R123. -/
inductive Phase
  | clock | fuse | journal | scrub | awaitWeave | linkTrain | enumerate | ready | blank | eol
  deriving DecidableEq, Repr

/-- The four lifecycle states of R137, in the order of R140. -/
inductive Lifecycle
  | blank | test | production | endOfLife
  deriving DecidableEq, Repr

/-- What identifies the part. Fixed for the life of a part: no command writes it. R2, R3, R177, R1036. -/
structure Ident where
  /-- 1: A1, 2: B0 (R177). -/
  stepping : BitVec 4
  /-- 0: the A1 suffix grade, 1: the E1 suffix grade. -/
  grade : BitVec 4
  /-- JEP106 manufacturer identity, bits 11:1 of IDCODE (R177). -/
  mfr : BitVec 11
  /-- HUB_UID, 128 bits. -/
  uid : BitVec 128
  /-- Mask-ROM firmware version, HUB_FW. -/
  romVersion : W16
  /-- SHA-384 of the patch key held in mask ROM (R209). -/
  patchKeyHash : BitVec 384
  deriving DecidableEq, Repr

/-- The sampled straps, HUB_STRAPS (R98 to R104). -/
structure Straps where
  pairRank : Bool
  bootSrc : Bool
  /-- Ports in effect, after R102. -/
  mask : BitVec 4
  maskZero : Bool
  bootSrcIgnored : Bool
  deriving DecidableEq, Repr

/-- Levels of the input pins that the hub samples or that gate an event. -/
structure Pins where
  /-- PORST_N: true when high. -/
  porst : Bool
  /-- Bn_PERST_N: bit n set when released. -/
  perst : BitVec 4
  /-- XTRIGn level: bit n set while high. -/
  xtrig : BitVec 8
  /-- VDD_AON at or above its threshold (R1049). -/
  supplyGood : Bool
  /-- DDRn_RESET_N: bit n set while released (R1055, R1056). -/
  ddrReset : BitVec 2
  deriving DecidableEq, Repr

/-- CLK_STATUS (R97). -/
structure ClkStatus where
  rootLock : Bool
  refPresent : Bool
  border : BitVec 4
  nsl : BitVec 8
  wale : Bool
  plait : Bool
  deriving DecidableEq, Repr

/-- Start-up: HUB_BOOT_STATUS (R135), HUB_RESET_CAUSE (R121) and what R324 and R1033 need to know of the reset. -/
structure Boot where
  phase : Phase
  journalResumed : Bool
  fail : Bool
  failCode : Byte
  /-- HUB_RESET_CAUSE bits 5:0: POWER_ON, SUPPLY_DROP, CLOCK_FAULT, WARM_HOST, WARM_TAP, WARM_WATCHDOG. -/
  resetCause : BitVec 6
  causeSet : Fresh
  /-- The start-up under way began with a warm reset (R324). -/
  warm : Bool
  /-- A warm reset asked for while a fuse pulse is in progress waits for the end of the pulse (R161): the
  HUB_RESET_CAUSE bit it will set. -/
  warmWaiting : Option (BitVec 6)
  /-- Enabled Border ports whose link is up. -/
  borderUp : BitVec 4
  /-- External memory training has ended (R715). -/
  dramTrained : Bool
  deriving DecidableEq, Repr

/-! ### Lifecycle and the TAP (spec/03) -/

/-- The one-time fuses (R139 to R141, R164). -/
structure Fuses where
  a : BitVec 24
  b : BitVec 24
  c : BitVec 24
  journal : BitVec 8
  imgKey : BitVec 384
  tapKey : BitVec 384
  imgLocked : Bool
  tapLocked : Bool
  deriving DecidableEq, Repr

/-- Who asked for the burn in progress. -/
inductive BurnFor
  | command (fn : Nat) (tag : W32)
  | tap
  deriving DecidableEq, Repr

/-- A burn in progress (R153 to R157, R165). -/
structure Burn where
  /-- None for a key-hash burn. -/
  target : Option Lifecycle
  /-- The field (the TAP key, else the image key) and the value of a key-hash burn (R165). -/
  key : Option (Bool × BitVec 384)
  /-- Bits still to burn, first one in progress. -/
  todo : List FuseBit
  /-- Attempts already made on the first bit (R154). -/
  attempts : Nat
  /-- Bits burned, retries not counted (RESULT1 of R152). -/
  burned : Nat
  escalated : Bool
  by_ : BurnFor
  deriving DecidableEq, Repr

/-- Lifecycle control: LCY_STATE, LCY_STATUS and what stands behind them (R187). -/
structure LcyCtl where
  state : Lifecycle
  fallback : Bool
  fuses : Fuses
  /-- The fuses as last sensed (R188). -/
  sensed : Fuses
  burn : Option Burn
  /-- Burns asked for while another one is in progress, oldest first. DESIGN CHOICE, log entry 75. -/
  waitingBurns : List Burn
  /-- The key of external memory that the latest reset in Production drew: no path reads it (R173). -/
  xtsKey : Option (BitVec 512)
  unlocked : Bool
  fails : BitVec 2
  lockout : Bool
  deriving DecidableEq, Repr

/-- The hub TAP (R175 to R185, R1040 to R1043). -/
structure TapCtl where
  /-- Instruction register. -/
  ir : Byte
  bypass : Bool
  /-- Boundary-scan cells as last loaded by SAMPLE/PRELOAD or EXTEST. -/
  boundary : List Bool
  /-- EXTEST drives the pins from `boundary`. -/
  extest : Bool
  /-- The nonce in force and the time it was issued (R183). -/
  nonce : Option (BitVec 384 × Nat)
  /-- A shifted-in response whose verdict is outstanding (R181, R182): key, signature, the nonce it answers. -/
  response : Option (List Byte × List Byte × Option (BitVec 384))
  /-- The result of the last LCY_ADVANCE, which LCY_QUERY reports: the status and result words 0 and 1 (R179). -/
  lcyResult : Byte × W32 × W32
  /-- Data register of MEM_ACCESS, as captured. -/
  memDr : BitVec 128
  /-- Data register of REG_ACCESS, as captured. -/
  regDr : BitVec 128
  /-- The tick by which the last access of MEM_ACCESS or REG_ACCESS has completed (R1041, R1043). -/
  accessBy : Nat
  deriving DecidableEq, Repr

/-! ### The weave (spec/04) -/

/-- A WARP_PORT entry in force (R200, R201). -/
structure WarpPort where
  enable : Bool
  laneMap : Byte
  unitCount : Nat
  /-- Byte i: the partition of unit index i, 0xFF for none. -/
  partMap : List Byte
  deriving DecidableEq, Repr

/-- One plane of a partition's weft: the 2,048 bytes of R202 as sparse memory, and its generation. -/
structure Plane where
  weft : List Host.Cell
  gen : W32
  imageId : W64
  deriving DecidableEq, Repr

/-- The staged entry of one port: what a warp image holds for it (R245). -/
structure StagedPort where
  entry : WarpPort
  gen : W32
  imageId : W64
  deriving DecidableEq, Repr

/-- A REWEAVE_COMMIT that passed its checks and is outstanding (R230 to R250). -/
structure Commit where
  fn : Nat
  tag : W32
  fetched : Nat
  deadline : Nat
  gen : W32
  watchApply : Bool
  /-- Zero for a weft commit. -/
  portMask : BitVec 8
  /-- The planes have switched, or the staged warp is installed. -/
  switched : Bool
  /-- The settle point, once it has been reached: its hub timestamp (R232). -/
  settled : Option Nat
  oldGen : W32
  imageId : W64
  /-- Units whose WATCH_APPLY writes have not ended. -/
  unitsLeft : List Nat
  skipped : Nat
  /-- Ports that a warp commit retrains and that have not trained yet (R249). -/
  portsLeft : List Nat
  /-- Entries that stood before, for R249. -/
  previous : List (Nat × WarpPort)
  /-- Ports that failed to train and have their previous entry again, and those of them that failed with it as well. -/
  failedPorts : List Nat
  failedAgain : List Nat
  /-- The partitions that a warp commit affects, as they stood when its entries were installed (R246). -/
  affected : List Nat
  deriving DecidableEq, Repr

/-- WEA registers of one PF (R253). -/
structure WeaPf where
  addr : W64
  len : W32
  /-- 0 idle; 1 fetching; 2 checking; 3 accepted; 4 rejected. -/
  state : BitVec 3
  reason : Byte
  errOffset : W32
  deriving DecidableEq, Repr

/-- The weave as a whole: WARP_GLOBAL in force and the shared WEA registers (R197, R253). -/
structure WeaveCtl where
  /-- The 64 bytes of WARP_GLOBAL in force (R197). -/
  warp : List Host.Cell
  /-- A full image has been accepted since the last whole-hub reset. -/
  loaded : Bool
  signed : Bool
  /-- The patch in force: PATCH_ID and the payload (R211, R212, R1045). -/
  patch : Option (W32 × List Byte)
  loadedBy : BitVec 2
  imageId : W64
  /-- The image being fetched or checked and the port whose PF loads it (none: the twin sent it). -/
  checking : Option (Option Nat × List Byte)
  /-- The staged warp, by port. -/
  staged : List (Nat × StagedPort)
  /-- Generation given to the last accepted warp image, and that of the warp in force (R228, R239). -/
  warpGen : W32
  warpActive : W32
  warpCommit : Option Commit
  deriving DecidableEq, Repr

/-! ### Functions, rings, sessions (spec/05, spec/06) -/

/-- A completion (R283) without its PHASE bit, which R298 sets for the entry it is written in. -/
structure Cpl where
  tag : W32
  status : Byte
  dup : Bool
  already : Bool
  partial_ : Bool
  opcode : Byte
  r0 : W32
  r1 : W32
  r2 : W32
  r3 : W32
  ts : W64
  deriving DecidableEq, Repr

/-- What a started command has done so far, and what it still waits for. One record serves every command; a
command's meaning says which fields it uses. -/
structure Work where
  /-- Stage of a command that proceeds in stages. -/
  stage : Nat
  /-- Requests sent or queued whose answer is outstanding. -/
  outst : Nat
  /-- A message of the command was executed (R553). -/
  executed : Bool
  /-- The first RESUME or STEP of the command has been sent (R573). -/
  runSent : Bool
  /-- The failing status that will end the command (R554). -/
  fail : Option Byte
  /-- First die status code that was not OK (RESULT3 7:0 of R553). -/
  dieCode : Byte
  /-- Units on ports not in ACTIVE were skipped (R551). -/
  skipped : Bool
  r0 : Nat
  r1 : Nat
  r2 : Nat
  r3 : Nat
  /-- Units whose acknowledgement is awaited. -/
  units : List Nat
  /-- Units already counted in a result word. -/
  done : List Nat
  deadline : Option Nat
  startedAt : Nat
  /-- The command completes with PARTIAL whatever was executed (R564). -/
  forcePart : Bool
  /-- The command's write of its buffer will end in a PCIe error (R296). -/
  dmaError : Bool
  /-- Bytes supplied from the host buffer. -/
  data : List Byte
  /-- Bytes of die answers by message number, until they can be written. -/
  chunks : List (Nat × List Byte)
  deriving DecidableEq, Repr

/-- A fetched command that is not completed. -/
structure Cmd where
  desc : BitVec 512
  tag : W32
  fetched : Nat
  /-- Held because an earlier command of the function carries the same tag (R299). -/
  heldDup : Bool
  started : Bool
  work : Work
  deriving DecidableEq, Repr

/-- One MSI-X vector: table entry and pending bit (R316, R1019). -/
structure Msix where
  addr : W64
  data : W32
  mask : Bool
  pend : Bool
  deriving DecidableEq, Repr

/-- One function with rings: its SES registers (R322), its fetched commands and its duplicate window. -/
structure FnSt where
  cmdBase : W64
  cplBase : W64
  ringSize : W32
  tail : BitVec 12
  head : BitVec 12
  cplHead : BitVec 12
  cplTail : BitVec 12
  enable : Bool
  fetching : Bool
  ringError : Bool
  resetDrain : Bool
  errorCode : BitVec 4
  /-- SES_INT_COAL. -/
  coal : W32
  /-- SES_EVENT bits 3:0. -/
  event : BitVec 4
  eventSet : Fresh
  /-- Completion phase (R272). -/
  phase : Bool
  d3hot : Bool
  /-- Fetched and not completed, in ring order. -/
  inflight : List Cmd
  /-- Completions whose write waits for D0 (R257), each with its IRQ_NOW. -/
  held : List (Cpl × Bool)
  /-- The last 1,024 completions, oldest first (R297). -/
  window : List Cpl
  /-- Completions written since the last signal, and the time of the first of them (R315). -/
  coalCount : Nat
  coalSince : Option Nat
  vectors : List Msix
  /-- Ring high-water word (R745). -/
  hwm : W32
  /-- Held high word of each register pair group of R1030, by group. -/
  latches : List (Nat × W32)
  /-- Selection registers of the function, by register offset class. -/
  unitSel : W32
  cutSel : W32
  cntSel : List (Nat × W32)
  aoSel : W32
  osrLibSel : W32
  osrRunSel : W32
  /-- MSI-X Enable and Function Mask of the function's MSI-X capability (R324, R1019). -/
  msixEnable : Bool
  msixMask : Bool
  /-- Descriptors of the turn under way that the hub has asked for and not received (R277, R308). -/
  asked : Nat
  deriving DecidableEq, Repr

/-- The five meters of R350. -/
structure Meters where
  own : W64
  halt : W64
  trace : W64
  dump : W64
  osier : W64
  deriving DecidableEq, Repr

/-- One session's tenancy state (R329, R349, R350). -/
structure SessSt where
  allow : BitVec 64
  globalView : Bool
  meters : Meters
  /-- The meters as they stood when the open epoch opened (R370). -/
  atOpen : Meters
  /-- What has accrued since the last CTL edge, at which the meters are updated (R354). -/
  due : Meters
  deriving DecidableEq, Repr

/-- One host port: SR-IOV control and its consent (R255, R258, R346). -/
structure HostSt where
  vfEnable : Bool
  numVfs : Nat
  consent : Bool
  wea : WeaPf
  /-- HUB_MEM window of the PF (R1037, R1038). -/
  memSel : W32
  memAddr : W64
  memStatus : W32
  /-- The function whose turn it was last to be fetched from: 0 the PF, 1 + i the VF of index i (R308). -/
  turn : Nat
  deriving DecidableEq, Repr

/-- A metering log entry (R368). -/
structure LogEntry where
  seq : W32
  kind : Byte
  subject : Byte
  epoch : W32
  ts : W64
  body : List Byte
  deriving DecidableEq, Repr

/-- Billing (R355 to R370, R376). -/
structure Billing where
  epoch : W32
  wallSet : Bool
  /-- Wall clock value at `wallAt`. -/
  wall : W64
  wallAt : W64
  periodS : W32
  originS : W32
  /-- LAST_BOUNDARY in µs, none before the first setting. -/
  lastBoundary : Option Nat
  wallAtOpen : W64
  wallSetAtOpen : Bool
  log : List LogEntry
  nextSeq : W32
  unattributed : Meters
  unattributedAtOpen : Meters
  unattributedDue : Meters
  /-- Open-lab mode in force, as last recorded (R348). -/
  openLab : Bool
  /-- The wall clock at the last CTL edge; 0 if unset then (R372). -/
  edgeUs : W64
  deriving DecidableEq, Repr

/-! ### The Nalsel ports (spec/07, spec/08) -/

/-- Link states of R413. -/
inductive LinkState
  | disabled | detect | sync | align | config | timesync | active | retrain | down | scan
  deriving DecidableEq, Repr

/-- A flit (R386), without its CRC, which the sender computes and the receiver checks. -/
structure Flit where
  ch : Nat
  som : Bool
  eom : Bool
  payload : List Byte
  deriving DecidableEq, Repr

/-- Who sent a request, and so who takes its answer (R444, R1093). -/
inductive ReqFor
  /-- A host command: function and tag; the unit the message serves, the split's position in it. -/
  | cmd (fn : Nat) (tag : W32) (unit : Nat) (k : Nat)
  /-- The halt of a halt action. -/
  | halt (part : Nat)
  | claim (part : Nat)
  | renew (part : Nat)
  | release (part : Nat)
  | enumRead (first : Nat)
  | classRead (cls : Nat)
  | assign (part : Nat)
  | runState (unit : Nat)
  | hoopCtrl (part : Nat)
  | evtEn (unit : Nat)
  | watch (part : Nat) (unit : Nat) (last : Bool)
  | watchApply (part : Nat) (unit : Nat) (last : Bool)
  /-- The reads of a synthesized record (R545): unit, step. -/
  | synth (unit : Nat) (k : Nat)
  /-- An in-flight read of the cut under construction: partition, message index. -/
  | inflight (part : Nat) (msg : Nat)
  /-- A region capture read: cut identifier, range index, byte offset. -/
  | capture (cut : Nat) (range : Nat) (off : Nat)
  /-- A halt of a CUT, or a read of a DUMP_REGION, whose session has been reset: the answer takes its effect and is then
  dropped (R317 step 4). -/
  | drain (fn : Nat)
  /-- A message to the twin, which has no answer (R955). -/
  | plait
  deriving DecidableEq, Repr

/-- A request of the hub: waiting to be sent, or sent and not answered. -/
structure OutReq where
  msg : Msg
  who : ReqFor
  /-- When it was handed to the link. -/
  at_ : Nat
  /-- It is sent again after a refusal for its stake (R553). -/
  again : Bool := false
  deriving DecidableEq, Repr

/-- One direction of one virtual channel in the hub-to-die direction. -/
structure TxChan where
  waiting : List OutReq
  /-- Flits of the message begun and not yet ended. -/
  cur : List Flit
  /-- Requests begun or sent, oldest first: the answers come in this order (R1093). -/
  outst : List OutReq
  credits : Nat
  /-- Last CREDITS byte received for the channel (R404). -/
  creditsSeen : Byte
  /-- Credits that the last link control flit returned (R1094). -/
  added : Nat
  /-- The function whose message was begun last (R311). -/
  lastFn : Nat
  deriving DecidableEq, Repr

/-- One direction of one virtual channel in the die-to-hub direction. -/
structure RxChan where
  /-- Payload bytes of the message being assembled, none between messages. -/
  asm_ : Option (List Byte)
  /-- CREDITS byte the hub returns: cumulative modulo 256. -/
  returned : Byte
  /-- Remainder of a grant above 256 not yet returned (R1094). -/
  grantLeft : Nat
  deriving DecidableEq, Repr

/-- A measured exchange (R419). -/
structure Exchange where
  offset : Int
  rtt : Int
  t1 : W64
  deriving DecidableEq, Repr

/-- What the hub knows of one partition's stake on one die (R489 to R495, R525, R527). -/
structure StakeView where
  /-- This hub holds the stake. -/
  held : Bool
  /-- The twin holds it, as a refusal or a STAKE_VIEW reported. -/
  twin : Bool
  gen : W16
  /-- Time at which this hub's lease was last claimed or renewed. -/
  since : Nat
  /-- Claim again at this time (R984). -/
  retryAt : Option Nat
  /-- HOOP_CTRL bits as the hub knows them: HALT_EN, ABRUPT (R525). -/
  hoopEn : Option Bool
  hoopAbrupt : Option Bool
  /-- The HOOP_HALT_EN that this hub last wrote (FAST_VIEW of R955). -/
  wrote : Bool := false
  deriving DecidableEq, Repr

/-- Enumeration of a port after ACTIVE (R429, spec/08). -/
structure EnumSt where
  /-- 0 reading units; 1 reading classes; 2 reading run states; 3 assigning; 4 claiming; 5 ended. -/
  stage : Nat
  outst : Nat
  startedAt : Nat
  deriving DecidableEq, Repr

/-- An open-drain or driven output pulse: released, asserted, or in its release gap (R529, R530). -/
inductive Pulse
  | idle
  | on (since : Nat)
  | gap (since : Nat) (again : Bool)
  deriving DecidableEq, Repr

/-- An XTRIG output: its pulse, and whether the pulse is low while active, as XTRIG_POL of the weft that began it says
(R507, R530). -/
structure XtrigPin where
  pulse : Pulse
  low : Bool
  deriving DecidableEq, Repr

/-- The link layer of one end: a Nalsel port (R381 to R424) or the Plait link (R952). -/
structure Lnk where
  link : LinkState
  /-- When the present link state was entered. -/
  since : Nat
  downCause : BitVec 4
  trainFails : Byte
  /-- ERR_STATUS bits 2:0: CRC, REPLAY, PROTOCOL. -/
  err : BitVec 3
  errSet : Fresh
  /-- Lanes with block lock; lanes with a valid TS seen in SYNC; lanes with a TS of a wrong role, lane or mode. -/
  lock : BitVec 2
  tsSeen : BitVec 2
  tsBad : BitVec 2
  /-- ALIGN blocks seen on a lane in ALIGN. -/
  alignSeen : BitVec 2
  /-- A good CONFIG has been received; one with PEER_SEEN has been received (R416). -/
  cfgSeen : Bool
  cfgPeerSeen : Bool
  tx0 : TxChan
  tx1 : TxChan
  tx2 : TxChan
  /-- VC1 had the last message of the alternation of R399. -/
  lastVc1 : Bool
  rx0 : RxChan
  rx1 : RxChan
  rx2 : RxChan
  rx3 : RxChan
  /-- Next transmit sequence number, and the flits not yet acknowledged, oldest first (R405, R406). -/
  txSeq : BitVec 12
  unacked : List (BitVec 12 × Flit)
  ackAt : Nat
  /-- First flit of the latest replay and how often it was replayed in a row (R411). -/
  replayFirst : BitVec 12
  replayCount : Nat
  /-- Receiver: LAST_ACCEPTED, discarding, and the number of the next sequenced flit (R405, R407). -/
  lastAccepted : BitVec 12
  discarding : Bool
  rxSeq : BitVec 12
  /-- Sequenced flits sent since the last link control flit (R401). -/
  sinceCtl : Nat
  /-- Both ends have exchanged RESUME after a retrain (R424): sent, received. -/
  resumed : Bool
  -- time exchanges (R418 to R420)
  exchanges : List Exchange
  exchNo : Byte
  /-- The exchange outstanding: its number and T1. -/
  exchOut : Option (Byte × W64)
  lastExchange : Nat
  /-- Exchanges completed in this TIMESYNC state. -/
  exchDone : Nat
  offset : W64
  rtt : W32
  /-- T1 of the exchange that gave `offset` (R739). -/
  offsetT1 : W64
  /-- Last offset a TIMESYNC record carried and when; the next one is the first after ACTIVE (R739). -/
  recOffset : W64
  recAt : Nat
  recResumed : Bool
  deriving DecidableEq, Repr

/-- One Nalsel port. -/
structure PortSt where
  lk : Lnk
  lanes : BitVec 2
  peerRole : BitVec 2
  newDie : Bool
  newDieSet : Fresh
  /-- The UID of the CONFIG of the present training differed from the last one seen (R430, R702). -/
  uidNew : Bool
  peerUnits : BitVec 13
  peerCaps : BitVec 3
  uid : W64
  /-- The last UID seen since the last whole-hub reset (R430). -/
  lastUid : Option W64
  tickFs : W32
  lostEvents : W32
  detachAt : Option Nat
  enum : Option EnumSt
  enumerated : Bool
  warp : WarpPort
  stakes : List (Nat × StakeView)
  /-- Requests refused for their stake that wait for a new claim (R553): partition, request. -/
  resend : List (Nat × OutReq)
  /-- Class descriptors read from the die, by CLASS_ID (R452). -/
  classes : List (Nat × List Byte)
  hoopOut : Pulse
  /-- HOOP_IN_n is asserted until this time (HOP_PINS, R504, R531). -/
  hoopInUntil : Nat
  deriving DecidableEq, Repr

/-! ### Units and halts (spec/10) -/

/-- The hub's view of a unit's run state (R541). -/
inductive View
  | running | draining | halted | stepping | unresponsive
  deriving DecidableEq, Repr

/-- A held halt record (R543, R476): its data as received or synthesized, and its hub times. -/
structure HaltRec where
  data : List Byte
  synthesized : Bool
  poisoned : Bool
  stopHub : W64
  haltedHub : W64
  deriving DecidableEq, Repr

/-- An open wait of a unit (R655). -/
structure OpenWait where
  chan : W32
  count : W32
  begin_ : W64
  deriving DecidableEq, Repr

/-- A CMD_END whose COUNTER_DELTA has not arrived (R754). -/
structure AwaitEnd where
  engine : Byte
  cmdSeq : W32
  layer : W16
  operator : W16
  markerTs : W64
  dieTs : W64
  deriving DecidableEq, Repr

/-- What the hub keeps of one unit. -/
structure UnitSt where
  view : View
  /-- Enumeration found the unit (R131). -/
  found : Bool
  classId : W16
  record : Option HaltRec
  /-- Halt timeout of the gathering the unit is in (R561, R562). -/
  haltDeadline : Option Nat
  /-- When the timeout of the gathering it is in ends, kept when its record ends the wait (R561). -/
  gatherBy : Option Nat
  /-- The unit has been declared UNRESPONSIVE since the latest halt or HALT request: no gathering waits for it (R562). -/
  declared : Bool
  /-- Its latest halt record or declaration (R559). -/
  settledAt : Nat
  /-- Step timeout (R567). -/
  stepDeadline : Option Nat
  /-- EVT_EN as last written or read; none before either (R754). -/
  evtEn : Option Byte
  runningSince : Nat
  uncertain : Bool
  waits : List OpenWait
  awaitEnds : List AwaitEnd
  /-- Registers gathered for a synthesized record (R545). -/
  synth : List (Nat × W32)
  deriving DecidableEq, Repr
/-! ### Hoop, run control, cuts (spec/09, spec/10, spec/11) -/

/-- A gathering: a halt of the partition collecting halt records (R549, R561). -/
structure Gather where
  /-- The halt action it belongs to (R559). -/
  actionTs : W64
  /-- HALT_TIMEOUT in ticks, fixed at the halt action. -/
  timeout : Nat
  hoopPorts : Byte
  downPorts : Byte
  deriving DecidableEq, Repr

/-- One unit of a cut (R596, R621). -/
structure CutUnit where
  unit : Nat
  /-- 0 RECORD; 1 SYNTHESIZED; 2 GAP; 3 POISONED_RECORD. -/
  ustatus : Nat
  rec_ : Option HaltRec
  deriving DecidableEq, Repr

/-- One row of the channel table (R599, R622). -/
structure ChanRow where
  chan : W32
  status : Nat
  truncated : Bool
  sendUnit : Option Nat
  recvUnit : Option Nat
  sent : W32
  received : W32
  /-- The receive slot has BYTES_HELD (R603). -/
  held : Bool
  firstMsg : Option Nat
  deriving DecidableEq, Repr

/-- One listed in-flight message (R601, R623). -/
structure CutMsg where
  chan : W32
  seq : W32
  recvUnit : Nat
  total : Nat
  bytes : List Byte
  /-- MSTATUS of R605; none while its read is outstanding or not begun. -/
  status : Option Nat
  deriving DecidableEq, Repr

/-- One captured range of one unit (R613 to R616). -/
structure CapRange where
  unit : Nat
  region : Byte
  offset : Nat
  len : Nat
  firstSplint : Nat
  bytes : List Byte
  /-- First byte of the range that could not be read. -/
  missingFrom : Option Nat
  ended : Bool
  deriving DecidableEq, Repr

/-- A cut: under construction (identifier 0), or staged. -/
structure Cut where
  id : W32
  partition : Nat
  label : Nat
  /-- 0 trigger; 1 CUT command. -/
  origin : Nat
  hostTag : W32
  /-- The CUT command that started it, and those that joined it (R592 step 2). -/
  owners : List (Nat × W32)
  /-- The CUT command that started it: it alone completes without ALREADY (R592). -/
  starter : Option (Nat × W32)
  /-- The hold ended before its proof: its units stand as they were then. -/
  frozen : Bool
  /-- The cut's halt action halted units (PARTIAL of R595). -/
  halted : Bool
  serial : W32
  /-- Hang report whose action started it (R683). -/
  report : Option W32
  actionTs : W64
  assignTs : W64
  instant : W64
  weftGen : W32
  /-- 0 gathering; 1 proving; 2 in-flight reads; 3 assigned and capturing; 4 captured. -/
  stage : Nat
  units : List CutUnit
  chans : List ChanRow
  msgs : List CutMsg
  ranges : List CapRange
  skippedEntries : Nat
  /-- Staging pages of the region part and of the state part: in the Creel, in the overflow area (R609). -/
  regionPages : Nat × Nat
  statePages : Nat × Nat
  /-- RELEASE_CUT commands that wait for its end, or a reset that releases it (R643, R644). -/
  releasing : Bool
  /-- A RELEASE_CUT of it has been taken up (R646). -/
  asked : Bool
  releasedBy : Option (Nat × W32)
  /-- Offset in the dump region of a stored region part and state part, in 4 KiB units (R632, R633). -/
  regionStored : Option Nat
  stateStored : Option Nat
  /-- Uncorrectable words found: 512-byte blocks of the region part, and of the state part (R625). -/
  poison : List Nat × List Nat
  /-- 512-byte blocks of the region part, and of the state part, that hold an uncorrectable word where they now stand (R999,
  R1014). -/
  bad : List Nat × List Nat
  deriving DecidableEq, Repr

/-- A manifest entry of a splint already sent (R626). -/
structure SentSplint where
  index : Nat
  crc : W32
  poisoned : Bool
  missing : Bool
  deriving DecidableEq, Repr

/-- An open export (R629, R641). -/
structure Export where
  fn : Nat
  tag : W32
  partition : Nat
  /-- Cut identifier, 0 for DUMP_REGION. -/
  cut : W32
  /-- 0 REGION; 1 STATE. -/
  part : Nat
  dest : Nat
  first : Nat
  count : Nat
  /-- Splints of the whole part. -/
  total : Nat
  sent : List SentSplint
  manifestSent : Nat
  endedEarly : Bool
  discard : Bool
  bufAddr : W64
  /-- Destination offset in the dump region, 4 KiB units. -/
  dumpOff : Nat
  /-- When it was opened or last sent a splint (R1005). -/
  since : Nat
  /-- DUMP_REGION: the range read, and the splints captured so far. -/
  region : Option CapRange
  /-- Blocks of its part that its stored copy holds with an uncorrectable word (R1014). -/
  bad : List Nat := []
  deriving DecidableEq, Repr

/-! ### Hang analysis (spec/12) -/

/-- A registry entry (R651, R674). -/
structure ChanEntry where
  chan : W32
  sender : Option Nat
  lastSent : W32
  receiver : Option Nat
  lastReceived : W32
  ambiguous : Bool
  stale : Bool
  sendFresh : Bool
  recvFresh : Bool
  deriving DecidableEq, Repr

/-- An event in the ingest queue of hang analysis (R650). -/
structure HangEv where
  kind : Byte
  unit : Nat
  partition : Nat
  chan : W32
  count : W32
  ts : W64
  /-- It waited in the queue as its unit, or a unit of its channel, became uncertain. -/
  old : Bool := false
  deriving DecidableEq, Repr

/-- A hang report (R675, R682, R683): its stream as written, and the fields that binding changes. -/
structure HangReport where
  id : W32
  kind : Byte
  hflags : Byte
  cutId : W32
  binding : Bool
  action : Byte
  comps : W16
  members : W16
  snapshot : W64
  oldest : W64
  bytes : List Byte
  /-- It holds an uncorrectable word (R999). -/
  bad : Bool := false
  deriving DecidableEq, Repr

/-- A scan in progress: its start, and MIN_AGE_US and STALL_US as they apply to it (R659, R672). -/
structure Scan where
  start : Nat
  minAge : Nat
  stall : Nat
  deriving DecidableEq, Repr

/-! ### Wale (spec/13) -/

/-- A trace record (R697). -/
structure TraceRec where
  cls : Nat
  dieTime : Bool
  partition : Nat
  ts : W64
  payload : List Byte
  /-- The record has passed through the spill tier (SPILLED of R726). -/
  spilled : Bool
  /-- A LOSS record accounts for it at one of its destinations: it is not metered (R352). -/
  lost : Bool := false
  /-- It holds an uncorrectable word (R999). -/
  bad : Bool := false
  deriving DecidableEq, Repr

/-- An open gap at a destination (R733). -/
structure Gap where
  count : Nat
  bytes : Nat
  firstTs : W64
  lastTs : W64
  cause : Byte
  deriving DecidableEq, Repr

/-- A 64 KiB block of the trace region (R717). -/
structure Block where
  seq : W32
  bkind : Byte
  partition : Nat
  lossOpen : Bool
  /-- When the block was committed to the region. -/
  committed : W64
  recs : List TraceRec
  /-- An injected uncorrectable word lies in the committed block (R1014). -/
  bad : Bool := false
  deriving DecidableEq, Repr

/-- A trace frame (R726, R728, R935). -/
structure Frame where
  /-- TRACE_CODED. -/
  coded : Bool
  /-- RECORDS of a raw frame; RECORDS_BEGUN of a coded one. -/
  recs : Nat
  /-- A raw frame's body; a coded frame's body after its 8-byte prefix. -/
  body : List Byte
  /-- When the first byte entered. -/
  since : Nat
  spilled : Bool
  firstTs : W64
  spanOff : Option Nat
  spansEnded : Nat
  deriving DecidableEq, Repr

/-- A weft switch that changes the coding of a port stream, whose state-reset point the stream has not come to (R939, R940).
-/
structure SwitchPt where
  /-- The point stands behind this many records of the port stream. -/
  pos : Nat
  /-- The model that the new weft binds for coding; none for a raw stream (R833). -/
  binding : Option Nat
  /-- FORCE_RAW as the next weft switch found it (R711). -/
  forced : Bool
  /-- Its MODEL_SWITCH goes to DRAM behind the WEAVE record (R244). -/
  dram : Bool
  /-- Records for DRAM that wait behind that MODEL_SWITCH, and whether the port keeps them too. -/
  behind : List (TraceRec × Bool)
  deriving DecidableEq, Repr

/-- The coder of one partition (spec/18). -/
structure Coder where
  /-- Probability contexts, 12 bits; an unlisted one holds 2,048. Residual contexts by their number of R930, then the
  hit context and the 15 index contexts. -/
  probs : List (Nat × BitVec 12)
  /-- The 16 keys of the move-to-front list, most recent first. -/
  mtf : List W16
  /-- Last timestamp coded for each key since the reset point. -/
  keyTs : List (Nat × W64)
  low : BitVec 33
  range : W32
  cache : Byte
  pending : Nat
  /-- A span has started and not ended. -/
  inSpan : Bool
  /-- Number of the exchange of the record to be coded next (R923). -/
  exch : W32
  /-- When that exchange was posted. -/
  posted : Option Nat
  /-- Record n - 1 with its event symbol, its bucket and its delta. -/
  prev : Option (TraceRec × Nat × Nat × W64)
  /-- The port stream is coded (R916). -/
  coded : Bool
  stalled : Bool
  /-- Library index in force. -/
  model : Nat
  resets : W32
  codeBad : W32
  inBytes : W64
  outBytes : W64
  /-- TRACE_CODED frames since the last reset point. -/
  frames : Nat
  /-- The coding run. -/
  run : Option W32
  /-- The coding model that the stream is under, and FORCE_RAW, while later weft switches are still to come to it (R940). -/
  binding : Option Nat
  forced : Bool
  /-- Weft switches that the stream has not come to, oldest first. -/
  pendSwitch : List SwitchPt
  /-- Its state holds an uncorrectable word (R999). -/
  bad : Bool := false
  deriving DecidableEq, Repr

/-! ### Counters (spec/14) -/

/-- A pending COUNTER_CONFIG (R766). -/
structure PendingCfg where
  fn : Nat
  tag : W32
  /-- Counter index and its new selection. -/
  sels : List (Nat × W64)
  latchNow : Bool
  deadline : Nat
  deriving DecidableEq, Repr

/-- A HOST or FORCED latch point that waits for the spacing of R762. -/
structure DeferredLatch where
  due : Nat
  /-- 2 HOST; 4 FORCED. -/
  lkind : Nat
  fn : Nat
  tag : W32
  mask : W64
  record : Bool
  /-- Taken for a COUNTER_CONFIG with LATCH_NOW. -/
  forConfig : Bool
  deriving DecidableEq, Repr

/-! ### One partition -/

/-- What a partition's lattice stood on before its latest weft switch: it governs the ENG edge that coincides with the
switch (R237). -/
structure Before where
  at_ : W64
  active : Plane
  stage : Nat
  occDirect : Nat
  occStage : Nat
  firesDirect : List (Nat × Nat)
  firesStage : List (Nat × Nat)
  stageAt : Nat
  occAt : Nat
  watchdogAt : Nat
  deriving DecidableEq, Repr

/-- The latest halt action of a partition, and its lattice as the edge of the action found it: what else acts at that edge
is the same action (R514, R537). -/
structure AtHalt where
  at_ : W64
  stage : Nat
  occDirect : Nat
  occStage : Nat
  firesDirect : List (Nat × Nat)
  firesStage : List (Nat × Nat)
  stageAt : Nat
  /-- 2 HALT; 3 HALT_CUT. -/
  action : Nat
  abrupt : Bool
  host : Option (Nat × W32)
  forward : Bool
  serial : W32
  deriving DecidableEq, Repr

/-- One partition: roles, weft planes, lattice, halt, cuts, hang graph, trace, counters. -/
structure PartSt where
  owner : Option Nat
  observers : List Nat
  active : Plane
  activeB : Bool
  inactive : Option Plane
  /-- Generation given to the partition's last accepted weft (R224). -/
  lastGen : W32
  commit : Option Commit
  /-- A partition reset was requested and has not completed (R116, R120). -/
  resetPending : Bool
  -- lattice
  stage : Nat
  occDirect : Nat
  occStage : Nat
  /-- Latest firing of each source as the direct term and the current stage see it. -/
  firesDirect : List (Nat × Nat)
  firesStage : List (Nat × Nat)
  stageAt : Nat
  /-- The latest occurrence of the current stage (R537). -/
  occAt : Nat
  before : Option Before
  held : Bool
  /-- HOP_Pn_SUPPRESSED, which a read clears, and the same count of the present or latest hold as records take it (R539,
  R540). -/
  suppressed : W32
  holdCount : W32
  serial : W32
  watchdogAt : Nat
  /-- End of the latest hold (R657). -/
  holdEnd : Nat
  lastActionTs : W64
  atHalt : Option AtHalt
  -- halts and cuts
  gather : Option Gather
  build : Option Cut
  /-- Cuts begun after the one under construction, oldest first: each goes on once the one before is assigned or refused. -/
  later : List Cut
  cuts : List Cut
  lastCut : W32
  -- hang analysis
  graphOn : Bool
  /-- The partition's hang store holds an uncorrectable word (R999). -/
  graphBad : Bool := false
  /-- The latest instant of the scan schedule that a scan has answered; the start of the graph before the first (R659). -/
  lastScan : Nat
  scanning : Option Scan
  /-- A scan has fallen due while one runs (R663). -/
  scanWaits : Bool
  lastCycle : List Nat
  lastStall : Option (Nat × W32 × W64)
  reports : List HangReport
  /-- The content of a report on demand as the present or latest hold began, with no REPORT_ID of its own (R689). -/
  frozen : Option HangReport
  overrun : W32
  -- trace
  /-- DEST byte of class 1 to 16 in force and before the latest switch (R706, R710). -/
  routes : List Byte
  oldRoutes : List Byte
  switchTs : W64
  routeOverride : Bool
  forcedRaw : Bool
  openBlock : Option Block
  blocks : List Block
  blockSeq : W32
  spillSeq : W32
  tier : List TraceRec
  spill : List Block
  gapPort : Option Gap
  gapDram : Option Gap
  carryPort : Nat
  carryDram : Nat
  frame : Option Frame
  /-- Frames closed and not yet sent, oldest first. -/
  frames : List Frame
  partSeq : W32
  portDeficit : Nat
  /-- Records that have entered the tiers of the port stream (R721); a MODEL_SWITCH enters a frame. -/
  portIn : Nat
  /-- The reserve block, whose first record is the open LOSS record of R719. -/
  reserve : Option Block
  coder : Coder
  -- counters
  counters : List (Nat × W64)
  sels : List (Nat × W64)
  selOverride : Bool
  cfg : Option PendingCfg
  deferred : List DeferredLatch
  skipped : Nat
  lastLatch : Option Nat
  deriving DecidableEq, Repr

/-- Hub-wide state of hang analysis. -/
structure HangCtl where
  registry : List ChanEntry
  queue : List HangEv
  drops : W32
  evict : W32
  nextReport : W32
  deriving DecidableEq, Repr

/-- Hub-wide state of the cut and dump engine. -/
structure SlathCtl where
  /-- Next cut identifier; 2^32 once 0xFFFF_FFFF has been assigned (R589). -/
  nextId : Nat
  exports : List Export
  /-- Deficit of each session, the session whose turn the round has come to, and the tag of the export that each session
  served last (R635). -/
  deficits : List (Nat × Nat)
  turn : Nat
  served : List (Nat × W32)
  /-- Extents in use in the dump region: first 4 KiB page, pages, cut. -/
  dumpUsed : List (Nat × Nat × W32)
  deriving DecidableEq, Repr

/-- No round of R635 is in progress: a number above those of all sessions. -/
abbrev noSession : Nat := 68

/-- Hub-wide state of the trace pipeline. -/
structure WaleCtl where
  portUp : Bool
  dramReady : Bool
  dramFail : Bool
  macDst : BitVec 48
  macSrc : BitVec 48
  portSeq : W32
  /-- The next frame is the first since the port link came up (R726). -/
  restart : Bool
  /-- When the trace port last sent a frame, and when its link went down (R728, R1005). -/
  lastFrame : Nat
  downAt : Nat
  /-- Dump frames that wait for the port. -/
  dumpQueue : List (Nat × List Byte)
  /-- A dump frame went last (alternation of R729). -/
  lastDump : Bool
  /-- The partition whose turn it is (R729). -/
  turn : Nat
  /-- Bytes in the DRAM write queue of 1 MiB as of a tick (R716, R733). -/
  queued : Nat := 0
  queuedAt : Nat := 0
  deriving DecidableEq, Repr

/-! ### Osier and Stake cores (spec/15 to spec/17) -/

/-- A library entry (R807 to R811). -/
structure LibEntry where
  index : Nat
  payload : List Byte
  /-- MODEL_HASH (R808). -/
  hash : BitVec 128
  fromImage : Bool
  addedBy : Option Nat
  /-- Payload offsets of its uncorrectable words (R999). -/
  bad : List Nat := []
  deriving DecidableEq, Repr

/-- Why a run is not ready (R828). -/
inductive RunWait
  | none
  | input
  | sleep (until_ : W64)
  deriving DecidableEq, Repr

/-- A live run: identity, registers, segments (R787, R791, R816 to R820). A register absent from a list is zero. -/
structure Run where
  id : W32
  index : Nat
  core : Nat
  /-- 0 program; 1 coding; 2 prediction (R818). -/
  role : Nat
  partition : Nat
  /-- The session that started a program run. -/
  session : Option Nat
  hostOut : Bool
  pred : Bool
  limit : W64
  bufAddr : W64
  bufWindow : W32
  pc : W64
  x : List (Nat × W64)
  p : List (Nat × BitVec 256)
  v : List (Nat × BitVec 2048)
  /-- Tile rows: key 64 x tile + row, element c in bits 32c+31:32c. -/
  t : List (Nat × BitVec 2048)
  m : List (Nat × W64)
  /-- Weight rows: key 64 x buffer + row, element c in bits 16c+15:16c. -/
  w : List (Nat × BitVec 1024)
  flags : W64
  cycle : W64
  inHead : W64
  inTail : W64
  inLost : W64
  local_ : List Host.Cell
  creel : List Host.Cell
  input : List Host.Cell
  wait : RunWait
  /-- ENG cycles held since the last yield point or switch (R830). -/
  heldFor : Nat
  /-- Since when the run is ready. -/
  readyAt : Nat := 0
  /-- Addresses of the uncorrectable words of its segments in the Creel (R999). -/
  bad : List Nat := []
  deriving DecidableEq, Repr

/-- A run that has ended (R823, R826). -/
structure EndedRun where
  id : W32
  index : Nat
  core : Nat
  role : Nat
  partition : Nat
  session : Option Nat
  status : Byte
  cause : Byte
  exit : W32
  epc : W32
  cycles : W64
  deriving DecidableEq, Repr

/-- The scan adaptor of N7 (R434, R841 to R844). -/
structure AdaptorCall where
  op : Nat
  unit : Nat
  region : Nat
  offset : W64
  len : Nat
  abrupt : Bool
  /-- Command the call serves; none for INIT and for the halt of a halt action. -/
  cmd : Option (Nat × W32)
  /-- When the call started. -/
  startedAt : Nat
  data : List Byte
  deriving DecidableEq, Repr

/-- The analysis cores, the library, the runs (R845). -/
structure OsierCtl where
  lib : List LibEntry
  runs : List Run
  ended : List EndedRun
  nextRun : Nat
  /-- The run that holds each core, by core number. -/
  holders : List (Nat × W32)
  /-- The run that each core last took of each class, by 3 times the core plus the class: the turns of R828. -/
  turns : List (Nat × W32)
  codingFailed : BitVec 64
  predFailed : BitVec 64
  /-- Bindings that could not be placed and that every end of a run tries again, by partition (R834). -/
  codingUnplaced : BitVec 64
  predUnplaced : BitVec 64
  /-- NSL7_SCAN_CTRL (R437). -/
  scanCtrl : W32
  /-- INIT has returned OK since ADAPTOR_VALID was last set (R844). -/
  adaptorReady : Bool
  adaptor : Option Run
  call : Option AdaptorCall
  calls : List AdaptorCall
  /-- The function whose operation was started last (R311). -/
  callFn : Nat
  /-- N7 scan TAP controller is in Test-Logic-Reset (else Run-Test/Idle) (R843). -/
  scanReset : Bool
  deriving DecidableEq, Repr

/-! ### The twin (spec/19) -/

/-- PLT_STATUS.PAIR (R968). -/
inductive PairState
  | standalone | unpaired | pairing | paired | split | twinLost
  deriving DecidableEq, Repr

/-- A HANDOFF under way on the issuing hub (R977). -/
structure Handoff where
  fn : Nat
  tag : W32
  mask : W64
  sent : Bool
  deriving DecidableEq, Repr

/-- A hand-off received from the twin: what is still to be claimed (R977 step 3). -/
structure HandoffIn where
  mask : W64
  deriving DecidableEq, Repr

/-- The Plait link and the pair (R947 to R991). -/
structure PlaitCtl where
  lk : Lnk
  role : BitVec 2
  pair : PairState
  mismatch : BitVec 4
  /-- PLT_EVENT bits 7:0. -/
  event : Byte
  eventSet : Fresh
  /-- The retained copy of the full image (R972). -/
  retained : Option (List Byte)
  /-- The copy holds an uncorrectable word (R999). -/
  retainedBad : Bool := false
  hbPresent : Bool
  hbEver : Bool
  lastHb : Nat
  hbOut : Pulse
  lastPulse : Nat
  hello : Option Hello
  sentView : Bool
  /-- The twin's STAKE_VIEW and whether its FAST_VIEW has come, in the pairing under way (R971). -/
  gotView : Option (List Byte)
  gotFast : Bool
  /-- Pairs that both views showed and that are being renewed, and claims of step 3 outstanding (R971). -/
  settling : Nat
  everPaired : Bool
  everReleased : Bool
  everActive : Bool
  readyAt : Nat
  lastRenew : Nat
  /-- HOOP_EN sent and not acknowledged: partition, port mask (R528, R958). -/
  enWait : List (Nat × Byte)
  /-- The image being received, and the times of R973. -/
  imageBuf : List Byte
  lastReq : Nat
  retryAt : Nat
  /-- The hand-offs under way, and those received from the twin that are not answered, oldest first (R977). -/
  handoff : List Handoff
  handoffIn : List HandoffIn
  /-- The pair was released: the time exchanges go on (R979). -/
  keepsTime : Bool
  deriving DecidableEq, Repr

/-! ### Faults (spec/20) -/

/-- An error-log entry (R1013). -/
structure ErrEntry where
  seq : W32
  cls : Byte
  scope : Byte
  inst : W16
  ts : W64
  addr : W64
  detail : W32
  action : Byte
  deriving DecidableEq, Repr

/-- ERR registers and what stands behind them (R1012 to R1014, R1002, R1084). -/
structure ErrCtl where
  status : BitVec 14
  statusSet : Fresh
  /-- The 64 newest entries, newest first. -/
  log : List ErrEntry
  nextSeq : W32
  sel : BitVec 6
  injMode : BitVec 2
  injBank : BitVec 6
  armed : Bool
  /-- A rising crossing of the trip point would raise THERMAL (R1084). -/
  thermalArmed : Bool
  /-- The Stake firmware has stopped (R1002, R1003). -/
  stopped : Bool
  deriving DecidableEq, Repr

/-- The memories that the window and MEM_ACCESS read (R1037), as sparse bytes, and their bad words. -/
structure MemCtl where
  creel : List Host.Cell
  osier : List (Nat × List Host.Cell)
  stake : List (Nat × List Host.Cell)
  /-- Word addresses with a correctable or an uncorrectable error: space, index, word. -/
  ce : List (Nat × Nat × Nat)
  ue : List (Nat × Nat × Nat)
  /-- Words whose contents the model holds: MEM_ACCESS has written them, or a stored export lies in them (R1043, R632). -/
  known : List (Nat × Nat × Nat)
  /-- The stored exports, by byte address of the DRAM regions (R632, R1037). -/
  dram : List Host.Cell
  /-- The hub has put contents of its own into the Creel since the Creel was last zeroed (R113). -/
  creelUsed : Bool
  deriving DecidableEq, Repr

/-! ### What the hub drives -/

/-- What leaves the hub, oldest first: writes to host memory, interrupts, flits, frames, pulses, answers to reads. -/
inductive Out
  | hostWrite (port : Nat) (addr : W64) (data : List Byte)
  | msix (fn : Nat) (vector : Nat)
  | readData (fn : Nat) (value : W32)
  | completerAbort (fn : Nat)
  | flit (link : Nat) (f : Flit)
  /-- A link control flit: link, TYPE, SUB, BODY bytes. -/
  | control (link : Nat) (type sub : Byte) (body : List Byte)
  | frame (bytes : List Byte)
  | hoop (port : Nat) (level : Bool)
  /-- An XTRIG output turns active or inactive, and the level that this is (R530). -/
  | xtrig (pin : Nat) (active high : Bool)
  | heartbeat (low : Bool)
  /-- Bits a TAP data register shifts out, least significant bit first. -/
  | tdo (bits : List Bool)
  | boundary (cells : List Bool)
  /-- Operation of the N7 scan controller: reset, or a shift into the instruction or data register, or idle cycles. -/
  | scan (op : Nat) (bits : List Bool)
  | ddrReset (released : Bool)
  | imageRead (port : Nat) (addr : W64) (len : Nat)
  deriving DecidableEq, Repr

/-! ### The whole machine -/

/-- The hub: everything the spec gives it, what it has driven (`out`), the commands that wait (`pending`) and the
model's own counter of free values (`free`). -/
structure State where
  pending : List Instr
  /-- The timebase (R32, R93). -/
  now : W64
  id : Ident
  pins : Pins
  clk : ClkStatus
  straps : Straps
  boot : Boot
  lcy : LcyCtl
  tap : TapCtl
  tapLatches : List (Nat × W32)
  weave : WeaveCtl
  hosts : Vector HostSt 4
  /-- 0 to 63 the sessions, 64 to 67 the PFs; 68 + f holds the commands that a reset of function f left running on a die
  (R317 step 4). -/
  fns : Vector FnSt 136
  sess : Vector SessSt 64
  billing : Billing
  ports : Vector PortSt 8
  units : List (Nat × UnitSt)
  parts : Vector PartSt 64
  xtrigOut : Vector XtrigPin 8
  slath : SlathCtl
  hang : HangCtl
  wale : WaleCtl
  /-- Always-on counters by index (R744). -/
  always : List (Nat × W64)
  osier : OsierCtl
  plait : PlaitCtl
  err : ErrCtl
  mem : MemCtl
  out : List Out
  /-- Sources that have fired and that the lattice has not evaluated yet: partition, source (R502). -/
  fires : List (Nat × Nat)
  /-- How many free values have been taken: the model's own field. -/
  free : Nat
  deriving DecidableEq, Repr

/-! ### The reasons a command can stop -/

/-- Faults. No command of the hub stops with a fault: an error of the outside is one of the spec's own effects. -/
inductive Fault
  deriving DecidableEq, Repr

/-- Refusals. -/
inductive Refusal
  /-- A command that has no meaning yet, by the mnemonic of the table. Raised by the dispatch only. Safe: the model
  says nothing of the command. -/
  | notModelled (mnemonic : String)
  deriving DecidableEq, Repr

/-! ### The state after a power-on reset -/

/-- No bit set. -/
def Fresh.none : Fresh := { cycle := 0, bits := 0 }

/-- No progress made. -/
def Work.init : Work :=
  { stage := 0, outst := 0, executed := false, runSent := false, fail := none, dieCode := 0, skipped := false,
    r0 := 0,
    r1 := 0, r2 := 0, r3 := 0, units := [], done := [], deadline := none, startedAt := 0, forcePart := false,
    dmaError := false, data := [], chunks := [] }

/-- An MSI-X vector after reset: masked, as PCI Express sets the mask bit of a table entry. DESIGN CHOICE, log entry 7. -/
def Msix.init : Msix := { addr := 0, data := 0, mask := true, pend := false }

/-- A function after reset: R322 (QUIESCED reads 1 because no command is fetched; INT_COAL.COUNT 1). DESIGN CHOICE, log
entry 7. -/
def FnSt.init (vectors : Nat) : FnSt :=
  { cmdBase := 0, cplBase := 0, ringSize := 0, tail := 0, head := 0, cplHead := 0, cplTail := 0, enable := false,
    fetching := false, ringError := false, resetDrain := false, errorCode := 0, coal := 1, event := 0,
    eventSet := Fresh.none, phase := false,
    d3hot := false, inflight := [], held := [], window := [], coalCount := 0, coalSince := none,
    vectors := List.replicate vectors Msix.init, hwm := 0, latches := [], unitSel := 0, cutSel := 0, cntSel := [],
    aoSel := 0, osrLibSel := 0, osrRunSel := 0, msixEnable := false, msixMask := false, asked := 0 }

/-- Meters at zero (R350). -/
def Meters.zero : Meters := { own := 0, halt := 0, trace := 0, dump := 0, osier := 0 }

/-- A session after reset: claim-allow mask all ones (R329, R376). -/
def SessSt.init : SessSt :=
  { allow := BitVec.allOnes 64, globalView := false, meters := Meters.zero, atOpen := Meters.zero,
    due := Meters.zero }

/-- WEA registers of a PF after reset (R253). -/
def WeaPf.init : WeaPf := { addr := 0, len := 0, state := 0, reason := 0, errOffset := 0 }

/-- A host port after reset. DESIGN CHOICE, log entry 7. -/
def HostSt.init : HostSt :=
  { vfEnable := false, numVfs := 0, consent := false, wea := WeaPf.init, memSel := 0, memAddr := 0,
    memStatus := 0, turn := 16 }

/-- Billing after a reset that zeroes the meters: epoch 1, wall clock unset, log empty (R355, R357, R367). -/
def Billing.init : Billing :=
  { epoch := 1, wallSet := false, wall := 0, wallAt := 0, periodS := 0, originS := 0, lastBoundary := none,
    wallAtOpen := 0, wallSetAtOpen := false, log := [], nextSeq := 1, unattributed := Meters.zero,
    unattributedAtOpen := Meters.zero, unattributedDue := Meters.zero, openLab := false, edgeUs := 0 }

/-- A transmit channel before training. -/
def TxChan.init : TxChan :=
  { waiting := [], cur := [], outst := [], credits := 0, creditsSeen := 0, added := 0, lastFn := 67 }

/-- A receive channel before training. -/
def RxChan.init : RxChan := { asm_ := none, returned := 0, grantLeft := 0 }

/-- A link end at reset: DISABLED, code 0 (R413, R437); sequence numbers as R405 starts them. -/
def Lnk.init : Lnk :=
  { link := .disabled, since := 0, downCause := 0, trainFails := 0, err := 0, errSet := Fresh.none, lock := 0,
    tsSeen := 0, tsBad := 0,
    alignSeen := 0, cfgSeen := false, cfgPeerSeen := false, tx0 := TxChan.init, tx1 := TxChan.init,
    tx2 := TxChan.init, lastVc1 := false, rx0 := RxChan.init, rx1 := RxChan.init, rx2 := RxChan.init,
    rx3 := RxChan.init, txSeq := 0, unacked := [], ackAt := 0, replayFirst := 0, replayCount := 0,
    lastAccepted := 0xFFF, discarding := false, rxSeq := 0, sinceCtl := 0, resumed := false, exchanges := [],
    exchNo := 0, exchOut := none, lastExchange := 0, exchDone := 0, offset := 0, rtt := 0, offsetT1 := 0,
    recOffset := 0, recAt := 0, recResumed := false }

/-- A port without a WARP_PORT section (R201). -/
def WarpPort.none : WarpPort := { enable := false, laneMap := 0, unitCount := 0, partMap := [] }

/-- A Nalsel port at reset (R437). -/
def PortSt.init : PortSt :=
  { lk := Lnk.init, lanes := 0, peerRole := 0, newDie := false, newDieSet := Fresh.none, uidNew := false,
    peerUnits := 0, peerCaps := 0, uid := 0,
    lastUid := Option.none, tickFs := 0, lostEvents := 0, detachAt := Option.none, enum := Option.none,
    enumerated := false, warp := WarpPort.none, stakes := [], resend := [], classes := [], hoopOut := .idle,
    hoopInUntil := 0 }

/-- No weft loaded: the planes before a full image is accepted (R254). -/
def Plane.none : Plane := { weft := [], gen := 0, imageId := 0 }

/-- A coder before its first reset point: contexts at 2,048 and keys 0xFFFF (R929, R931). -/
def Coder.init : Coder :=
  { probs := [], mtf := List.replicate 16 0xFFFF, keyTs := [], low := 0, range := 0, cache := 0, pending := 0,
    inSpan := false, exch := 1, posted := Option.none, prev := Option.none, coded := false, stalled := false,
    model := 0xFF, resets := 0, codeBad := 0, inBytes := 0, outBytes := 0, frames := 0, run := Option.none,
    binding := Option.none, forced := false, pendSwitch := [] }

/-- A partition after a whole-hub reset: unowned, stage 0, not held, no cut, no trace, counters zero (R113, R136). -/
def PartSt.init : PartSt :=
  { owner := Option.none, observers := [], active := Plane.none, activeB := false, inactive := Option.none,
    lastGen := 0, commit := Option.none, resetPending := false, stage := 0, occDirect := 0, occStage := 0,
    firesDirect := [],
    firesStage := [], stageAt := 0, occAt := 0, before := Option.none, held := false, suppressed := 0,
    holdCount := 0, serial := 0, watchdogAt := 0, holdEnd := 0,
    lastActionTs := 0, atHalt := Option.none, gather := Option.none, build := Option.none, later := [], cuts := [], lastCut := 0,
    graphOn := false,
    lastScan := 0, scanning := Option.none, scanWaits := false, frozen := Option.none, lastCycle := [], lastStall := Option.none,
    reports := [], overrun := 0, routes := List.replicate 16 0, oldRoutes := List.replicate 16 0, switchTs := 0,
    routeOverride := false, forcedRaw := false, openBlock := Option.none, blocks := [], blockSeq := 1,
    spillSeq := 1, tier := [], spill := [], gapPort := Option.none, gapDram := Option.none, carryPort := 0,
    carryDram := 0, frame := Option.none, frames := [], partSeq := 0, portDeficit := 0, portIn := 0,
    reserve := Option.none, coder := Coder.init, counters := [],
    sels := [], selOverride := false, cfg := Option.none, deferred := [], skipped := 0, lastLatch := Option.none }

/-- Fuses of a part that nothing has been burned into (R139). -/
def Fuses.blank : Fuses :=
  { a := 0, b := 0, c := 0, journal := 0, imgKey := 0, tapKey := 0, imgLocked := false, tapLocked := false }

/-- The identity of the modelled part: fixed fields that no command writes (DESIGN CHOICE, log entry 2). -/
def Ident.part : Ident :=
  { stepping := 2, grade := 0, mfr := 0, uid := 0, romVersion := 0, patchKeyHash := 0 }

/-- HUB_UID's contribution to the reset value of WAL_MAC_SRC (R743): byte 0 is 0x02, bytes 1 to 5 are bits 39:0. DESIGN
CHOICE, log entry 2. -/
def macSrcReset (uid : BitVec 128) : BitVec 48 :=
  uid.extractLsb' 0 8 ++ uid.extractLsb' 8 8 ++ uid.extractLsb' 16 8 ++ uid.extractLsb' 24 8 ++
    uid.extractLsb' 32 8 ++ (0x02 : BitVec 8)

/-- The machine right after a power-on reset, with PORST_N still low (R105, R113, R121, R136 and the Reset columns). -/
def State.reset : State :=
  { pending := []
    now := 0
    id := Ident.part
    pins := { porst := false, perst := 0, xtrig := 0, supplyGood := true, ddrReset := 0 }
    clk := { rootLock := false, refPresent := false, border := 0, nsl := 0, wale := false, plait := false }
    straps := { pairRank := false, bootSrc := false, mask := 0, maskZero := false, bootSrcIgnored := false }
    boot := { phase := .clock, journalResumed := false, fail := false, failCode := 0, resetCause := 1, causeSet := Fresh.none,
              warm := false, warmWaiting := none, borderUp := 0, dramTrained := false }
    lcy := { state := .blank, fallback := false, fuses := Fuses.blank, sensed := Fuses.blank, burn := none,
             waitingBurns := [], xtsKey := none,
             unlocked := false, fails := 0, lockout := false }
    tap := { ir := 0xFF, bypass := false, boundary := [], extest := false, nonce := none, response := none,
             lcyResult := (0, 0, 0), memDr := 0, regDr := 0, accessBy := 0 }
    tapLatches := []
    weave := { warp := [], loaded := false, signed := false, patch := none, loadedBy := 0, imageId := 0,
               checking := none, staged := [], warpGen := 0, warpActive := 0, warpCommit := none }
    hosts := Vector.replicate 4 HostSt.init
    fns := Vector.replicate 64 (FnSt.init 2) ++ Vector.replicate 4 (FnSt.init 3) ++ Vector.replicate 68 (FnSt.init 0)
    sess := Vector.replicate 64 SessSt.init
    billing := Billing.init
    ports := Vector.replicate 8 PortSt.init
    units := []
    parts := Vector.replicate 64 PartSt.init
    xtrigOut := Vector.replicate 8 { pulse := .idle, low := false }
    slath := { nextId := 1, exports := [], deficits := [], turn := noSession, served := [], dumpUsed := [] }
    hang := { registry := [], queue := [], drops := 0, evict := 0, nextReport := 1 }
    wale := { portUp := false, dramReady := false, dramFail := false, macDst := BitVec.allOnes 48,
              macSrc := macSrcReset Ident.part.uid, portSeq := 0, restart := true, lastFrame := 0, downAt := 0,
              dumpQueue := [],
              lastDump := false, turn := 0 }
    always := []
    osier := { lib := [], runs := [], ended := [], nextRun := 1, holders := [], turns := [], codingFailed := 0, predFailed := 0,
               codingUnplaced := 0, predUnplaced := 0,
               scanCtrl := 0x10, adaptorReady := false, adaptor := none, call := none, calls := [], callFn := 67,
               scanReset := false }
    plait := { lk := Lnk.init, role := 0, pair := .standalone, mismatch := 0, event := 0, eventSet := Fresh.none,
               retained := none,
               hbPresent := false, hbEver := false, lastHb := 0, hbOut := .idle, lastPulse := 0,
               hello := none, sentView := false, gotView := Option.none, gotFast := false, settling := 0,
               everPaired := false, everReleased := false, everActive := false, readyAt := 0, lastRenew := 0,
               enWait := [], imageBuf := [], lastReq := 0, retryAt := 0, handoff := [],
               handoffIn := [], keepsTime := false }
    err := { status := 0, statusSet := Fresh.none, log := [], nextSeq := 1, sel := 0, injMode := 0, injBank := 0,
             armed := false,
             thermalArmed := true, stopped := false }
    mem := { creel := [], osier := [], stake := [], ce := [], ue := [], known := [], dram := [], creelUsed := false }
    out := []
    fires := []
    free := 0 }

end Sys2Proof.Machine
end

