-- ==== Sys2Proof/Machine/Ops.lean ====
section
/-!
DEFINITION. The named operations that every command is built from: reading and changing one function, session, port,
partition, unit or link; free values; what the hub drives; MSI-X; the always-on counters; the error log.
-/

namespace Sys2Proof.Machine

open Sys2Proof

/-! ### Access to the numbered pieces of state -/

/-- The rings of a function (R12, R322). -/
def State.fn (s : State) (f : Nat) : FnSt := if h : f < 136 then s.fns[f] else FnSt.init 2

/-- Change the rings of a function. -/
def modFn (f : Nat) (g : FnSt → FnSt) (s : State) : State :=
  if h : f < 136 then { s with fns := s.fns.set f (g s.fns[f]) } else s

/-- The cuts of a partition that have begun and have no identifier, oldest first. -/
def PartSt.begun (x : PartSt) : List Cut := x.build.toList ++ x.later

/-- Change every one of them, and the newest one. -/
def PartSt.mapBegun (g : Cut → Cut) (x : PartSt) : PartSt := { x with build := x.build.map g, later := x.later.map g }
def PartSt.mapNewest (g : Cut → Cut) (x : PartSt) : PartSt :=
  match x.later.getLast? with
  | some c => { x with later := x.later.dropLast ++ [g c] }
  | none => { x with build := x.build.map g }

/-- Begin a cut behind those that have begun, and go on to the next one. -/
def PartSt.addCut (c : Cut) (x : PartSt) : PartSt :=
  if x.build.isNone then { x with build := some c } else { x with later := x.later ++ [c] }
def PartSt.nextCut (x : PartSt) : PartSt := { x with build := x.later.head?, later := x.later.drop 1 }

/-- One session's tenancy state. -/
def State.ses (s : State) (n : Nat) : SessSt := if h : n < 64 then s.sess[n] else SessSt.init

/-- Change one session's tenancy state. -/
def modSess (n : Nat) (g : SessSt → SessSt) (s : State) : State :=
  if h : n < 64 then { s with sess := s.sess.set n (g s.sess[n]) } else s

/-- One host port. -/
def State.host (s : State) (n : Nat) : HostSt := if h : n < 4 then s.hosts[n] else HostSt.init

/-- Change one host port. -/
def modHost (n : Nat) (g : HostSt → HostSt) (s : State) : State :=
  if h : n < 4 then { s with hosts := s.hosts.set n (g s.hosts[n]) } else s

/-- One Nalsel port. -/
def State.port (s : State) (n : Nat) : PortSt := if h : n < 8 then s.ports[n] else PortSt.init

/-- Change one Nalsel port. -/
def modPort (n : Nat) (g : PortSt → PortSt) (s : State) : State :=
  if h : n < 8 then { s with ports := s.ports.set n (g s.ports[n]) } else s

/-- One partition. -/
def State.part (s : State) (p : Nat) : PartSt := if h : p < 64 then s.parts[p] else PartSt.init

/-- Change one partition. -/
def modPart (p : Nat) (g : PartSt → PartSt) (s : State) : State :=
  if h : p < 64 then { s with parts := s.parts.set p (g s.parts[p]) } else s

/-- The link layer of a Nalsel port, or of the Plait link, number 8 (R952). -/
def State.lnk (s : State) (l : Nat) : Lnk := if l = 8 then s.plait.lk else (s.port l).lk

/-- Change one link layer. -/
def modLnk (l : Nat) (g : Lnk → Lnk) (s : State) : State :=
  if l = 8 then { s with plait := { s.plait with lk := g s.plait.lk } }
  else modPort l (fun p => { p with lk := g p.lk }) s

/-- A unit of which nothing is known: RUNNING, no record, no waits (R541). -/
def UnitSt.init : UnitSt :=
  { view := .running, found := false, classId := 0, record := none, haltDeadline := none, gatherBy := none, declared := false,
    settledAt := 0, stepDeadline := none,
    evtEn := none, runningSince := 0, uncertain := false, waits := [], awaitEnds := [], synth := [] }

/-- What the hub keeps of a unit. -/
def State.unit (s : State) (u : Nat) : UnitSt := Tab.getD s.units u UnitSt.init

/-- Change what the hub keeps of a unit. -/
def modUnit (u : Nat) (g : UnitSt → UnitSt) (s : State) : State :=
  { s with units := Tab.set s.units u (g (s.unit u)) }

/-- Do `g` for each element in turn. -/
def each {α : Type} (l : List α) (g : α → State → State) (s : State) : State := l.foldl (fun t a => g a t) s

/-- The Slath's place among those that take turns: behind every function. -/
def slathTurn : Nat := 136

/-- Which of several waiting operations goes next, oldest first in the list: round robin among functions and the Slath, `last`
having been served (R311, R617). Another one of the hub's own stands in its place: those behind it wait. DEDUCED, log entry
56. -/
def nextTurn (last : Nat) (owners : List (Option Nat)) : Nat :=
  let dist (o : Option Nat) : Nat := (o.getD 0 + slathTurn - last) % (slathTurn + 1)
  let own := owners.takeWhile (·.isSome)
  own.findIdx fun o => dist o == own.foldl (fun m x => min m (dist x)) (slathTurn + 1)

/-! ### Free values -/

/-- Move on to the next free value. -/
def nextFree (s : State) : State := { s with free := s.free + 1 }

/-! ### Time -/

/-- The hub timestamp as a number. -/
def State.t (s : State) : Nat := s.now.toNat

/-- A time of `us` microseconds after `since` has passed. DESIGN CHOICE, log entry 3. -/
def State.after (s : State) (since us : Nat) : Bool := decide (since + us * Config.ticksPerUs ≤ s.t)

/-- The CTL cycle that the hub is in (R88, R90). -/
def State.ctlCycle (s : State) : Nat := s.t / 4

/-- The hub timestamp of the last CTL edge: every fourth tick is one (R88, R90, R354). -/
def State.lastEdge (s : State) : Nat := s.t - s.t % 4

/-- Bits that hardware sets in a CTL cycle, and those set in that cycle: a clear in the cycle leaves them (R40). -/
def Fresh.add (x : Fresh) (cycle : Nat) (bits : W32) : Fresh :=
  { cycle := cycle, bits := if x.cycle = cycle then x.bits ||| bits else bits }
def Fresh.inCycle (x : Fresh) (cycle : Nat) : W32 := if x.cycle = cycle then x.bits else 0

/-! ### What the hub drives -/

/-- Drive something out. -/
def emit (o : Out) (s : State) : State := { s with out := s.out ++ [o] }

/-- Add to an always-on counter; it saturates (R744). -/
def bumpAlways (i n : Nat) (s : State) : State :=
  let v := BitVec.ofNat 64 (sat (2 ^ 64 - 1) ((Tab.getD s.always i (0 : W64)).toNat + n))
  { s with always := Tab.set s.always i v }

/-- The host port of a function (R12). -/
def fnPort (f : Nat) : Nat := if f < 64 then f / 16 else f - 64

/-- The function is a PF. -/
def isPf (f : Nat) : Bool := decide (64 ≤ f)

/-- Where the commands stand that a reset of function f left running on a die, and whether a number is such a place: they
run to their end there, and what they give is discarded (R317 step 4). -/
def afterReset (f : Nat) : Nat := 68 + f
def discards (f : Nat) : Bool := decide (68 ≤ f)

/-- The port is enabled by the straps (R99). -/
def State.enabledPort (s : State) (n : Nat) : Bool := s.straps.mask.getLsbD n

/-- The VF of a session exists (R258). -/
def State.vfExists (s : State) (n : Nat) : Bool :=
  (s.host (n / 16)).vfEnable && decide (n % 16 < (s.host (n / 16)).numVfs)

/-- A write to host memory from a host port; its payload bytes count in BORDER_TX_BYTES (R744). -/
def hostWrite (port : Nat) (addr : Nat) (data : List Byte) (s : State) : State :=
  s |> emit (.hostWrite port (BitVec.ofNat 64 addr) data) |> bumpAlways (40 + port) data.length

/-- A vector of the function may send: MSI-X is enabled, and neither the function nor the vector is masked (R316, R324).
PRESUMED, log entry 72. -/
def FnSt.mayInterrupt (x : FnSt) (e : Msix) : Bool := x.msixEnable && !x.msixMask && !e.mask

/-- Signal an MSI-X vector: one that may not send records a pending message (R316). The message is a write of 4 bytes
(R744). DESIGN CHOICE, log entry 83. -/
def signal (f v : Nat) (s : State) : State :=
  match (s.fn f).vectors[v]? with
  | none => s
  | some e =>
    if !(s.fn f).mayInterrupt e then modFn f (fun x => { x with vectors := x.vectors.set v { e with pend := true } }) s
    else s |> emit (.msix f v) |> bumpAlways (40 + fnPort f) 4

/-- The PFs of the enabled host ports. -/
def State.pfs (s : State) : List Nat := ((List.range 4).filter s.enabledPort).map (· + 64)

/-- Signal one vector of every enabled PF. -/
def signalPfs (v : Nat) (s : State) : State := each s.pfs (fun f => signal f v) s

/-- Set a SES_EVENT bit and signal it: vector 1 of a VF, vector 2 of a PF (R323). -/
def setEvent (f bit : Nat) (s : State) : State :=
  s |> modFn f (fun x => { x with event := x.event ||| (1#4 <<< bit), eventSet := x.eventSet.add s.ctlCycle (1#32 <<< bit) })
    |> signal f (if isPf f then 2 else 1)

/-- Set bits of a link's ERR_STATUS: 1 CRC, 2 REPLAY, 4 PROTOCOL (R437). -/
def setLinkErr (l : Nat) (bits : BitVec 3) (s : State) : State :=
  modLnk l (fun x => { x with err := x.err ||| bits, errSet := x.errSet.add s.ctlCycle (bits.setWidth 32) }) s

/-! ### Faults (spec/20) -/

/-- Set a class bit of ERR_STATUS and signal vector 2 of every PF (R1011). -/
def errBit (cls : Nat) (s : State) : State :=
  { s with err := { s.err with status := s.err.status ||| (1#14 <<< (cls - 1)),
                               statusSet := s.err.statusSet.add s.ctlCycle (1#32 <<< (cls - 1)) } } |> signalPfs 2

/-- Write an entry to the error log, which holds the 64 newest (R1013). -/
def errLog (cls scope inst addr detail action : Nat) (s : State) : State :=
  let e : ErrEntry :=
    { seq := s.err.nextSeq, cls := BitVec.ofNat 8 cls, scope := BitVec.ofNat 8 scope, inst := BitVec.ofNat 16 inst,
      ts := s.now, addr := BitVec.ofNat 64 addr, detail := BitVec.ofNat 32 detail, action := BitVec.ofNat 8 action }
  { s with err := { s.err with log := (e :: s.err.log).take 64, nextSeq := s.err.nextSeq + 1 } }

/-- A fault: its class bit and its log entry (R992, R1013). DEDUCED, log entry 48. -/
def raiseErr (cls scope inst addr detail action : Nat) (s : State) : State :=
  s |> errLog cls scope inst addr detail action |> errBit cls

/-- A corrected memory word: the counter and the class bit, no log entry (R995). Creel 53, DRAM 55. -/
def correctedWord (dram : Bool) (s : State) : State :=
  s |> bumpAlways (if dram then 55 else 53) 1 |> errBit (if dram then 5 else 1)

/-- An uncorrectable memory word (R999): Creel 54, DRAM 56. -/
def uncorrectableWord (dram : Bool) (scope inst addr detail action : Nat) (s : State) : State :=
  s |> bumpAlways (if dram then 56 else 54) 1 |> raiseErr (if dram then 6 else 2) scope inst addr detail action

/-- An uncorrectable word of an item whose place in the memory the model does not hold: ADDR is a free value. DEDUCED, log
entry 67. -/
def uncorrectableItem (dram : Bool) (scope inst detail action : Nat) (s : State) : State :=
  s |> uncorrectableWord dram scope inst (Config.freeBits s.free).toNat detail action |> nextFree

/-! ### Statuses (R286) -/

abbrev stOk : Byte := 0x00
abbrev stBadOpcode : Byte := 0x10
abbrev stBadLen : Byte := 0x11
abbrev stLenExceedsBuf : Byte := 0x12
abbrev stBadAddress : Byte := 0x13
abbrev stBadUnit : Byte := 0x14
abbrev stNotOwner : Byte := 0x20
abbrev stNotPermitted : Byte := 0x21
abbrev stLifecycleForbids : Byte := 0x22
abbrev stStakeHeldByTwin : Byte := 0x23
abbrev stPartitionReweaving : Byte := 0x30
abbrev stUnitUnresponsive : Byte := 0x31
abbrev stLinkDown : Byte := 0x32
abbrev stBusy : Byte := 0x40
abbrev stCreelFull : Byte := 0x41
abbrev stDramRegionFull : Byte := 0x42
abbrev stModelRejected : Byte := 0x50
abbrev stImageRejected : Byte := 0x51
abbrev stPoisoned : Byte := 0xE0
abbrev stAbortedByReset : Byte := 0xF0

end Sys2Proof.Machine
end

