-- ==== Sys2Proof/Machine/Weft.lean ====
section
/-!
DEFINITION. What the warp and a weft say: the fields of WARP_GLOBAL, WARP_PORT and WEFT (spec/04), of the trigger
block (spec/09), the counter selections (spec/14) and the routing (spec/13), and the map of units to partitions.
-/

namespace Sys2Proof.Machine

open Sys2Proof

/-! ### WARP_GLOBAL (R197, R713) -/

/-- A field of WARP_GLOBAL in force. -/
def State.warpField (s : State) (off n : Nat) : Nat := Mem.val s.weave.warp off n

/-- Host port Bn is an arbiter port; a disabled port is none (R197, R199). -/
def State.arbiter (s : State) (n : Nat) : Bool := bit (s.warpField 0 1) n && s.enabledPort n

/-- XTRIG_DIR: bit n set, XTRIGn is an output (R197). -/
def State.xtrigDir (s : State) : Nat := s.warpField 1 1

/-- EtherType of trace-port frames; 0 selects 0x88B5 (R197). -/
def State.etherType (s : State) : Nat := let v := s.warpField 2 2; if v = 0 then 0x88B5 else v

/-- WARP_GLOBAL.FLAGS.OPEN_LAB (R197). -/
def State.openLabFlag (s : State) : Bool := bit (s.warpField 4 1) 0

/-- PAIR_POLICY (R197). -/
def State.pairPolicy (s : State) : Nat := s.warpField 5 1

/-- LEASE_MS; 0 selects 20 (R197). -/
def State.leaseMs (s : State) : Nat := let v := s.warpField 6 2; if v = 0 then 20 else v

/-- Blocks of 64 KiB in the trace region (R197, R717). -/
def State.traceBlocks (s : State) : Nat := s.warpField 8 1 * 16384

/-- Pages of 4 KiB in the dump region (R197). -/
def State.dumpPages (s : State) : Nat := s.warpField 9 1 * 262144

/-- Pages of 4 KiB of overflow staging (R197). -/
def State.overflowPages (s : State) : Nat := s.warpField 10 1 * 262144

/-- TRACE_MODE 1: stop-when-full (R197). -/
def State.stopWhenFull (s : State) : Bool := s.warpField 11 1 == 1

/-- Enabled DRAM interfaces, and their transfers in MT/s (R713). -/
def State.dramInterfaces (s : State) : Nat := b2n (bit (s.warpField 16 1) 0) + b2n (bit (s.warpField 16 1) 1)
def State.dramRate (s : State) : Nat :=
  let r := s.warpField 21 1
  if r = 1 then 7500 else if r = 2 then 6400 else 8533

/-- DRAM_CONFIG.DFLAGS.INLINE_ECC (R713). -/
def State.inlineEcc (s : State) : Bool := bit (s.warpField 22 1) 0

/-! ### Which units stand in which partition (R200, R201) -/

/-- The unit number of a port and an index (R14). -/
def unitNo (port idx : Nat) : Nat := port * 4096 + idx

/-- The partition of a unit index under a port entry: none at or above UNIT_COUNT, none for 0xFF. -/
def WarpPort.part (w : WarpPort) (idx : Nat) : Option Nat :=
  match w.partMap[idx]? with
  | .some b => if b.toNat < 64 then .some b.toNat else .none
  | .none => .none

/-- The unit indices of a partition under a port entry. -/
def WarpPort.idxOf (w : WarpPort) (p : Nat) : List Nat :=
  (List.range w.partMap.length).filter fun i => w.part i == .some p

/-- The partition of a unit. -/
def State.unitPart (s : State) (u : Nat) : Option Nat := (s.port (u / 4096)).warp.part (u % 4096)

/-- The units of a partition on one port, by number. -/
def State.unitsOn (s : State) (n p : Nat) : List Nat := ((s.port n).warp.idxOf p).map (unitNo n)

/-- The units of a partition, by number. -/
def State.unitsOf (s : State) (p : Nat) : List Nat := (List.range 8).flatMap fun n => s.unitsOn n p

/-- The port carries units of the partition. -/
def State.carries (s : State) (n p : Nat) : Bool := (s.port n).warp.partMap.any fun b => b.toNat == p

/-- The ports that carry units of the partition. -/
def State.portsOf (s : State) (p : Nat) : List Nat := (List.range 8).filter fun n => s.carries n p

/-- The partitions with units on a port. -/
def State.partsOn (s : State) (n : Nat) : List Nat := (List.range 64).filter fun p => s.carries n p

/-! ### The weft (R202) -/

/-- A field of the active weft of a partition. -/
def State.weftField (s : State) (p off n : Nat) : Nat := Mem.val (s.part p).active.weft off n

/-- A value with a default for zero. -/
def orDefault (v d : Nat) : Nat := if v = 0 then d else v

/-- HALT_TIMEOUT in ticks; 0 selects 100 µs. -/
def State.haltTimeout (s : State) (p : Nat) : Nat := orDefault (s.weftField p 0 4) 100 * Config.ticksPerUs

/-- HANG_SCAN_US; 0 selects 1,000. -/
def State.hangScanUs (s : State) (p : Nat) : Nat := orDefault (s.weftField p 4 4) 1000

/-- Export weights of the owner and of each observer; 0 selects 4 (R205). -/
def State.ownerWeight (s : State) (p : Nat) : Nat := orDefault (s.weftField p 8 1) 4
def State.observerWeight (s : State) (p : Nat) : Nat := orDefault (s.weftField p 9 1) 4

/-- ENCODING of a weft: coded (R202). -/
def weftCoded (w : Mem) : Bool := Mem.val w 10 1 == 1
/-- CODING_MODEL of a weft (R202). -/
def weftModel (w : Mem) : Nat := Mem.val w 11 1

/-! ### The trigger block (R507 to R509) -/

/-- A field of the trigger block. -/
def trigField (w : Mem) (off n : Nat) : Nat := Mem.val w (64 + off) n

/-- WATCHDOG_US; 0 disables the watchdog. -/
def watchdogUs (w : Mem) : Nat := trigField w 0 4
/-- HOOP_FAST and HOOP_ABRUPT. -/
def hoopFast (w : Mem) : Bool := bit (trigField w 4 1) 0
def hoopAbrupt (w : Mem) : Bool := bit (trigField w 4 1) 1
/-- XTRIG_OUT and XTRIG_POL. -/
def xtrigOut (w : Mem) : Nat := trigField w 5 1
def xtrigPol (w : Mem) : Nat := trigField w 6 1
/-- The partition of PEER_k, 0xFF for none. -/
def peerOf (w : Mem) (k : Nat) : Nat := trigField w (8 + k) 1
/-- EXPORT_HALT: bit m set, Pm may name this partition. -/
def exportHalt (w : Mem) : Nat := trigField w 16 8
/-- Threshold slot k: counter index (0xFF unused) and value. -/
def threshCounter (w : Mem) (k : Nat) : Nat := trigField w (64 + 16 * k) 1
def threshValue (w : Mem) (k : Nat) : Nat := trigField w (64 + 16 * k + 8) 8

/-- A term (R508). -/
structure Term where
  orMask : Nat
  andMask : Nat
  /-- Ticks, WINDOW_NS rounded up. -/
  window : Nat
  count : Nat
  action : Nat
  abrupt : Bool
  timeoutUs : Nat

/-- The term at an offset of the trigger block. -/
def termAt (w : Mem) (off : Nat) : Term :=
  { orMask := trigField w off 4, andMask := trigField w (off + 4) 4, window := ceilDiv (trigField w (off + 8) 4 * 8) 5,
    count := orDefault (trigField w (off + 12) 2) 1, action := trigField w (off + 14) 1,
    abrupt := bit (trigField w (off + 15) 1) 0, timeoutUs := trigField w (off + 16) 4 }

/-- The direct term. -/
def directTerm (w : Mem) : Term := termAt w 192
/-- Stage k of the arming sequence. -/
def stageTerm (w : Mem) (k : Nat) : Term := termAt w (256 + 64 * k)

/-! ### The HANG block (R670) and the watch defaults (R578) -/

/-- HANG_FLAGS: GRAPH_ENABLE, STALL_ENABLE, REPORT_ON_WATCHDOG, REPORT_ON_PRED. -/
def hangFlag (w : Mem) (k : Nat) : Bool := bit (Mem.val w 1728 1) k
/-- DETECT_ACTION and STALL_ACTION. -/
def detectAction (w : Mem) : Nat := Mem.val w 1729 1
def stallAction (w : Mem) : Nat := Mem.val w 1730 1
/-- PRED_MODEL, 0xFF for none. -/
def predModel (w : Mem) : Nat := Mem.val w 1731 1
/-- MIN_AGE_US and STALL_US, with their defaults. -/
def minAgeUs (w : Mem) : Nat := orDefault (Mem.val w 1732 4) 1000
def stallUs (w : Mem) : Nat := orDefault (Mem.val w 1736 4) 100000

/-- Watch default k: the 40 bytes of a comparator specification. -/
def watchSpec (w : Mem) (k : Nat) : List Byte := Mem.readN w (1088 + 40 * k) 40
/-- Breakpoint default n: its address and its flags. -/
def bpDefault (w : Mem) (n : Nat) : Nat × Nat := (Mem.val w (1088 + 160 + 8 * n) 8, Mem.val w (1088 + 224 + n) 1)

/-! ### Counter selections (R748) -/

/-- The selection of counter k in a weft, as a 64-bit value. -/
def weftSel (w : Mem) (k : Nat) : W64 := BitVec.ofNat 64 (Mem.val w (576 + 8 * k) 8)

/-- Byte fields of a selection. -/
def selSrc (v : W64) : Nat := v.toNat % 256
def selWhat (v : W64) : Nat := v.toNat / 2 ^ 8 % 256
def selFormats (v : W64) : Nat := v.toNat / 2 ^ 16 % 256
def selLatch (v : W64) : Bool := v.getLsbD 24
def selUnit (v : W64) : Nat := v.toNat / 2 ^ 32 % 65536
def selLayer (v : W64) : Nat := v.toNat / 2 ^ 48

/-- The selection of a counter in force: COUNTER_CONFIG's until the next weft switch, else the weft's (R768). -/
def State.sel (s : State) (p k : Nat) : W64 := Tab.getD (s.part p).sels k 0

/-! ### Routing (R703) -/

/-- PORT_SHARE; 0 selects 4. -/
def State.portShare (s : State) (p : Nat) : Nat := orDefault (s.weftField p 1344 1) 4
/-- RT_FLAGS.SPILL. -/
def State.spillOn (s : State) (p : Nat) : Bool := bit (s.weftField p 1345 1) 0
/-- The DEST bytes of classes 1 to 16 in a weft. -/
def weftRoutes (w : Mem) : List Byte := (List.range 16).map fun k => Mem.read w (1344 + 16 + 4 * k)

/-! ### Roles, modes and the readers of global information -/

/-- The session owns the partition. -/
def State.owns (s : State) (f p : Nat) : Bool := (s.part p).owner == some f
/-- The session observes the partition. -/
def State.observes (s : State) (f p : Nat) : Bool := (s.part p).observers.contains f
/-- The session owns or observes it (R326). -/
def State.reads (s : State) (f p : Nat) : Bool := s.owns f p || s.observes f p

/-- The lifecycle state in force is Test. -/
def State.inTest (s : State) : Bool := s.lcy.state == .test

/-- The function is the port manager of an arbiter port; in Test, of any enabled port (R106, R359, R1024). -/
def State.isArbiterPm (s : State) (f : Nat) : Bool :=
  isPf f && (s.arbiter (f - 64) || (s.inTest && s.enabledPort (f - 64)))

/-- Open-lab mode is in force (R346, R347). -/
def State.openLab (s : State) : Bool :=
  s.openLabFlag && (s.inTest || (List.range 4).all fun n => s.enabledPort n && (s.host n).consent)

/-- The function may read global information (the last columns of R349). -/
def State.seesGlobal (s : State) (f : Nat) : Bool := s.openLab || isPf f || (s.ses f).globalView

/-! ### Which functions answer -/

/-- The function exists: an enabled port's PF, or a VF that VF Enable and NumVFs give (R99, R258). -/
def State.fnExists (s : State) (f : Nat) : Bool := s.enabledPort (fnPort f) && (isPf f || s.vfExists f)

/-- The hub takes the register writes that rings need: from AWAIT_WEAVE on, and not in Blank or End of life (R126,
R1034, R1035). -/
def State.serving (s : State) : Bool :=
  match s.boot.phase with
  | .awaitWeave | .linkTrain | .enumerate | .ready => true
  | .clock | .fuse | .journal | .scrub | .blank | .eol => false

/-- PFs answer configuration requests: not before SCRUB has ended (R126, R170). DEDUCED, log entry 28. -/
def State.configOpen (s : State) : Bool := s.serving || s.boot.phase == .eol

/-- The statuses that no side effect of the command may precede: "None" in the table of R286. -/
def onlyBefore (st : Byte) : Bool :=
  [stBadOpcode, stBadLen, stLenExceedsBuf, stBadAddress, stBadUnit, stNotOwner, stNotPermitted, stLifecycleForbids,
   stStakeHeldByTwin, stPartitionReweaving, stModelRejected, stImageRejected].contains st

/-- The status of the command's first failure. Where side effects have happened, also of messages sent before it, one that
allows none is BUSY (R286, R553). -/
def Work.failed (w : Work) (acted : Bool) : Option Byte :=
  w.fail.map fun st => if acted && onlyBefore st then stBusy else st

/-- A function's BAR takes writes: the link of its port is up (R125). DEDUCED, log entry 28. -/
def State.barOpen (s : State) (f : Nat) : Bool :=
  s.serving && s.fnExists f && s.boot.borderUp.getLsbD (fnPort f)

/-- What a host's write of one word of a function does where the function takes it. Its payload counts as 4 bytes received
(R744). DESIGN CHOICE, log entry 83. -/
def hostPut (f : Nat) (g : State → State) (s : State) : State :=
  if s.barOpen f then s |> bumpAlways (44 + fnPort f) 4 |> g else s

end Sys2Proof.Machine
end

