-- ==== Sys2Proof/Machine/Rings.lean ====
section
/-!
DEFINITION. Descriptors, the commands a function has fetched, and completing a command: the completion entry, the
duplicate window, the copies for held duplicates, and the completion interrupt (spec/05).
-/

namespace Sys2Proof.Machine

open Sys2Proof

/-! ### Descriptor fields (R280) -/

/-- The little-endian field of `n` bytes at byte offset `off` of a descriptor. -/
def dfield (d : BitVec 512) (off n : Nat) : Nat := d.toNat / 256 ^ off % 256 ^ n

/-- A field of a fetched command's descriptor. -/
def Cmd.f (c : Cmd) (off n : Nat) : Nat := dfield c.desc off n

def Cmd.op (c : Cmd) : Nat := c.f 0 1
def Cmd.fence (c : Cmd) : Bool := bit (c.f 1 1) 0
def Cmd.irqNow (c : Cmd) : Bool := bit (c.f 1 1) 1
def Cmd.partition (c : Cmd) : Nat := c.f 2 1
/-- SCOPE and PORT_MASK of REWEAVE and REWEAVE_COMMIT (R220, R230). -/
def Cmd.scope (c : Cmd) : Nat := c.f 52 1
def Cmd.ports (c : Cmd) : Nat := c.f 53 1
def Cmd.unitFirst (c : Cmd) : Nat := c.f 16 2 % 32768
def Cmd.unitCount (c : Cmd) : Nat := c.f 18 2
def Cmd.param0 (c : Cmd) : Nat := c.f 20 4
def Cmd.param1 (c : Cmd) : Nat := c.f 24 4
def Cmd.param2 (c : Cmd) : Nat := c.f 28 4
def Cmd.bufAddr (c : Cmd) : Nat := c.f 32 8
def Cmd.bufWindow (c : Cmd) : Nat := c.f 40 4
def Cmd.length (c : Cmd) : Nat := c.f 48 4

/-- The units that a unit range names: UNIT_COUNT 0xFFFF is every unit of the partition (R290, R291). -/
def State.cmdUnits (s : State) (c : Cmd) : List Nat :=
  if c.unitCount = 0xFFFF then s.unitsOf c.partition
  else (List.range c.unitCount).map (c.unitFirst + ·)

/-! ### Fetched commands -/

/-- The command of a tag that is fetched, not completed and not a held duplicate. -/
def State.cmd (s : State) (f : Nat) (tag : W32) : Option Cmd :=
  (s.fn f).inflight.find? fun c => c.tag == tag && !c.heldDup

/-- Change that command. -/
def modCmd (f : Nat) (tag : W32) (g : Cmd → Cmd) (s : State) : State :=
  modFn f (fun x => { x with inflight := x.inflight.map fun c => if c.tag == tag && !c.heldDup then g c else c }) s

/-- Change what that command has done so far. -/
def modWork (f : Nat) (tag : W32) (g : Work → Work) (s : State) : State :=
  modCmd f tag (fun c => { c with work := g c.work }) s

/-- Commands fetched before the one of a tag. -/
def earlier (l : List Cmd) (tag : W32) : List Cmd := l.takeWhile fun c => !(c.tag == tag && !c.heldDup)

/-- A command that does not wait behind queued commands: a HALT, and a CUT of a running partition (R310). -/
def State.urgent (s : State) (c : Cmd) : Bool := c.op == 0x10 || (c.op == 0x30 && !(s.part c.partition).held)

/-- A fetched command of function f may start: ring order (R303) and FENCE (R304). An urgent one does not wait behind
commands that have not started, unless one of them is fenced. DEDUCED, log entry 15. -/
def State.mayStart (s : State) (f : Nat) (c : Cmd) : Bool :=
  let before := (earlier (s.fn f).inflight c.tag).filter fun x => !x.heldDup
  !c.started && (if c.fence then before.isEmpty else true) && before.all fun x => x.started || (s.urgent c && !x.fence)

/-- Start the fetched command of a tag if its opcode is `op` and it may start; else nothing happens. DEDUCED, log entry 15. -/
def startCmd (op f : Nat) (tag : W32) (k : Cmd → State → State) (s : State) : State :=
  match s.cmd f tag with
  | none => s
  | some c =>
    if c.op == op && s.mayStart f c then
      k { c with started := true }
        (modCmd f tag (fun x => { x with started := true, work := { x.work with startedAt := s.t } }) s)
    else s

/-! ### Completions -/

/-- How a command ends. DEDUCED, log entry 71. -/
structure Res where
  status : Byte := stOk
  already : Bool := false
  part : Bool := false
  r0 : Nat := 0
  r1 : Nat := 0
  r2 : Nat := 0
  r3 : Nat := 0

/-- The 32 bytes of a completion (R283). -/
def cplBytes (c : Cpl) (phase : Bool) : List Byte :=
  leBytes 4 c.tag.toNat ++ [c.status, BitVec.ofNat 8 (b2n c.dup + 2 * b2n c.already + 4 * b2n c.partial_), c.opcode,
    BitVec.ofNat 8 (b2n phase)] ++ leBytes 4 c.r0.toNat ++ leBytes 4 c.r1.toNat ++ leBytes 4 c.r2.toNat ++
    leBytes 4 c.r3.toNat ++ leBytes 8 c.ts.toNat

/-- Entries of the two rings (R322); a size outside 4 to 12 is never enabled. -/
def FnSt.cmdSize (x : FnSt) : Nat := 2 ^ (x.ringSize.toNat % 16)
def FnSt.cplSize (x : FnSt) : Nat := 2 ^ (x.ringSize.toNat / 256 % 16)

/-- Completions written and not yet consumed (R273). An index at or above the ring's size is read modulo the size. DESIGN
CHOICE, log entry 73. -/
def FnSt.unconsumed (x : FnSt) : Nat := (x.cplTail.toNat + x.cplSize - x.cplHead.toNat % x.cplSize) % x.cplSize

/-- The ring high-water word with the completion half raised (R745). -/
def hwmCpl (w : W32) (n : Nat) : W32 := if w.toNat / 65536 < n then BitVec.ofNat 32 (n * 65536 + w.toNat % 65536) else w
/-- The ring high-water word with the command half raised (R745). -/
def hwmCmd (w : W32) (n : Nat) : W32 :=
  if w.toNat % 65536 < n then BitVec.ofNat 32 (w.toNat / 65536 * 65536 + n) else w

/-- The completion vector of a function: 0 of a VF, 1 of a PF (R313, R314). -/
def cplVector (f : Nat) : Nat := if isPf f then 1 else 0

/-- Count a written completion towards the interrupt (R315). -/
def coalesce (f : Nat) (irqNow : Bool) (s : State) : State :=
  let x := s.fn f
  if irqNow || decide (orDefault (x.coal.toNat % 256) 1 ≤ x.coalCount + 1) then
    s |> modFn f (fun y => { y with coalCount := 0, coalSince := none }) |> signal f (cplVector f)
  else modFn f (fun y => { y with coalCount := y.coalCount + 1, coalSince := y.coalSince <|> some s.t }) s

/-- Write a completion at SES_CPL_TAIL (R272, R274), then count it towards the interrupt (R316). -/
def writeCpl (f : Nat) (c : Cpl) (irqNow : Bool) (s : State) : State :=
  let x := s.fn f
  let next := (x.cplTail.toNat + 1) % x.cplSize
  let adv (y : FnSt) : FnSt :=
    let z := { y with cplTail := BitVec.ofNat 12 next, phase := y.phase != (next == 0) }
    { z with hwm := hwmCpl z.hwm z.unconsumed }
  s |> hostWrite (fnPort f) (x.cplBase.toNat + 32 * x.cplTail.toNat) (cplBytes c x.phase) |> modFn f adv
    |> coalesce f irqNow

/-- Write a completion, or hold it while the function is in D3hot (R257). -/
def deliverCpl (f : Nat) (c : Cpl) (irqNow : Bool) (s : State) : State :=
  if (s.fn f).d3hot then modFn f (fun x => { x with held := x.held ++ [(c, irqNow)] }) s else writeCpl f c irqNow s

/-- The newest `windowSize` completions (R297). -/
def pushWindow (w : List Cpl) (c : Cpl) : List Cpl := (w ++ [c]).drop (w.length + 1 - Config.windowSize)

/-- The completion of a command. -/
def mkCpl (c : Cmd) (r : Res) (ts : W64) : Cpl :=
  { tag := c.tag, status := r.status, dup := false, already := r.already, partial_ := r.part,
    opcode := BitVec.ofNat 8 c.op, r0 := BitVec.ofNat 32 r.r0, r1 := BitVec.ofNat 32 r.r1,
    r2 := BitVec.ofNat 32 r.r2, r3 := BitVec.ofNat 32 r.r3, ts := ts }

/-- End a fetched command: it leaves the commands in flight, its completion enters the duplicate window and is
written, and every duplicate held for it receives a copy with DUP set (R297 to R299). What is left of a reset function's
commands completes nowhere (R317 step 4). -/
def completeOne (f : Nat) (tag : W32) (r : Res) (s : State) : State :=
  match s.cmd f tag with
  | none => s
  | some c =>
    let cpl := mkCpl c r s.now
    let dups := (s.fn f).inflight.filter fun x => x.tag == tag && x.heldDup
    let rest := (s.fn f).inflight.filter fun x => x.tag != tag
    if discards f then modFn f (fun x => { x with inflight := rest }) s
    else s |> modFn f (fun x => { x with inflight := rest, window := pushWindow x.window cpl })
      |> deliverCpl f cpl c.irqNow
      |> each dups (fun d => deliverCpl f { cpl with dup := true } d.irqNow)

/-- End a fetched command. -/
def complete (f : Nat) (tag : W32) (r : Res) (s : State) : State := completeOne f tag r s

/-- The generation that the inactive plane, or the staged warp of the ports, holds. -/
def State.heldGen (s : State) (c : Cmd) : Nat :=
  if c.scope = 1 then (((s.part c.partition).inactive).map fun x => x.gen.toNat).getD 0
  else ((s.weave.staged.find? fun e => bit c.ports e.1).map fun e => e.2.gen.toNat).getD 0

/-- The generation active in the scope of a commit. -/
def State.activeGen (s : State) (c : Cmd) : Nat :=
  if c.scope = 1 then (s.part c.partition).active.gen.toNat else s.weave.warpActive.toNat

/-- A command that does nothing ends: a REWEAVE says which generation is held and how many bytes it has fetched (R228), a
commit which generation is active (R239). DEDUCED, log entry 71. -/
def State.refusal (s : State) (c : Cmd) (st : Byte) : Res :=
  { status := st, r0 := if c.op = 0x70 then s.heldGen c else if c.op = 0x71 then s.activeGen c else 0,
    r1 := if c.op = 0x70 then c.work.data.length else 0 }

/-- End a command with a status and what its refusal says. -/
def fail (f : Nat) (tag : W32) (st : Byte) (s : State) : State :=
  match s.cmd f tag with
  | none => s
  | some c => complete f tag (s.refusal c st) s

/-- Every command in flight of every function that `sel` selects, with its function. -/
def State.cmdsWhere (s : State) (sel : Nat → Cmd → Bool) : List (Nat × Cmd) :=
  (List.range 136).flatMap fun f => ((s.fn f).inflight.filter fun c => sel f c && !c.heldDup).map fun c => (f, c)

end Sys2Proof.Machine
end

