-- ==== Sys2Proof/Machine/Meters.lean ====
section
/-!
DEFINITION. Meters, the wall clock, billing epochs and the metering log (spec/06).
-/

namespace Sys2Proof.Machine

open Sys2Proof

/-- A meter with an amount added. It never wraps (R350): a full one stays at its largest value. DESIGN CHOICE, log entry
43. -/
def satAdd (m : W64) (n : Nat) : W64 := BitVec.ofNat 64 (sat (2 ^ 64 - 1) (m.toNat + n))

/-- Add amounts to a set of meters. -/
def Meters.add (m : Meters) (own halt trace dump osier : Nat) : Meters :=
  { own := satAdd m.own own, halt := satAdd m.halt halt, trace := satAdd m.trace trace, dump := satAdd m.dump dump,
    osier := satAdd m.osier osier }

/-- Add the amounts of one set to another. -/
def Meters.plus (m d : Meters) : Meters :=
  m.add d.own.toNat d.halt.toNat d.trace.toNat d.dump.toNat d.osier.toNat

/-- Let an amount accrue to a session, or to the unattributed set where there is none (R351): it enters the meters at the
next CTL edge (R354). -/
def modMeters (who : Option Nat) (g : Meters → Meters) (s : State) : State :=
  match who with
  | some n => modSess n (fun x => { x with due := g x.due }) s
  | none => { s with billing := { s.billing with unattributedDue := g s.billing.unattributedDue } }


/-- Any unit of the partition is DRAINING, HALTED, STEPPING or UNRESPONSIVE (R350). -/
def State.anyHalted (s : State) (p : Nat) : Bool :=
  s.units.any fun (u, x) => x.view != .running && s.unitPart u == some p

/-- Let one tick accrue to the owners (R350). DESIGN CHOICE, log entry 43. -/
def accrue (s : State) : State :=
  each (List.range 64)
    (fun p t =>
      match (t.part p).owner with
      | some o => modMeters (some o) (fun m => m.add 1 (b2n (t.anyHalted p)) 0 0 0) t
      | none => if t.anyHalted p then modMeters none (fun m => m.add 0 1 0 0 0) t else t) s

/-- The five meters as bytes, in the order of R350. -/
def Meters.bytes (m : Meters) : List Byte :=
  leBytes 8 m.own.toNat ++ leBytes 8 m.halt.toNat ++ leBytes 8 m.trace.toNat ++ leBytes 8 m.dump.toNat ++
    leBytes 8 m.osier.toNat

/-! ### The wall clock (R357) -/

/-- The wall clock in µs at a time of the timebase; 0 while unset. -/
def State.wallAt (s : State) (t : W64) : Nat :=
  if s.billing.wallSet then
    (s.billing.wall.toNat + (t - s.billing.wallAt).toNat / Config.ticksPerUs) % 2 ^ 64
  else 0

/-- The wall clock in µs now. -/
def State.wallNow (s : State) : Nat := s.wallAt s.now

/-- A CTL edge: every meter takes what has accrued since the edge before (R354), and the wall clock at the edge is kept for
the block of R372. -/
def updateMeters (s : State) : State :=
  { s with sess := s.sess.map fun x => { x with meters := x.meters.plus x.due, due := Meters.zero },
           billing := { s.billing with unattributed := s.billing.unattributed.plus s.billing.unattributedDue,
                                       unattributedDue := Meters.zero, edgeUs := BitVec.ofNat 64 s.wallNow } }

/-- The latest boundary not above a wall-clock value (R361); none below the first. -/
def boundaryAt (periodS originS w : Nat) : Option Nat :=
  let p := periodS * 1000000
  let o := originS * 1000000
  if p = 0 ∨ w < o then none else some (o + (w - o) / p * p)

/-- The latest boundary not above the wall clock. -/
def State.boundary (s : State) : Option Nat :=
  boundaryAt s.billing.periodS.toNat s.billing.originS.toNat s.wallNow

/-- The wall clock stands at or above a boundary later than LAST_BOUNDARY (R362). -/
def State.boundaryDue (s : State) : Bool :=
  s.billing.wallSet &&
    match s.boundary, s.billing.lastBoundary with
    | some b, some l => decide (l < b)
    | some _, none => true
    | none, _ => false

/-- Record LAST_BOUNDARY (R361, R362). -/
def setBoundary (s : State) : State := { s with billing := { s.billing with lastBoundary := s.boundary } }

/-! ### The metering log (R367 to R370) -/

/-- Write an entry; the log holds the newest 1,024. -/
def mlog (kind subject : Nat) (epoch : W32) (body : List Byte) (s : State) : State :=
  let b := s.billing
  let e : LogEntry :=
    { seq := b.nextSeq, kind := BitVec.ofNat 8 kind, subject := BitVec.ofNat 8 subject, epoch := epoch, ts := s.now,
      body := slice body 0 40 }
  { s with billing := { b with log := (b.log ++ [e]).drop (b.log.length + 1 - 1024), nextSeq := b.nextSeq + 1 } }

/-- The 64 bytes of an entry (R368). -/
def LogEntry.bytes (e : LogEntry) : List Byte :=
  leBytes 4 e.seq.toNat ++ [e.kind, e.subject, 0, 0] ++ leBytes 4 e.epoch.toNat ++ zeros 4 ++
    leBytes 8 e.ts.toNat ++ slice e.body 0 40

/-- Snapshot every meter as the new epoch opens (R355). -/
def snapshotMeters (s : State) : State :=
  { s with sess := s.sess.map fun x => { x with atOpen := x.meters },
           billing := { s.billing with unattributedAtOpen := s.billing.unattributed } }

/-- Sessions whose meters changed in the open epoch. -/
def State.meterSubjects (s : State) : List Nat :=
  (List.range 64).filter fun n => (s.ses n).meters != (s.ses n).atOpen

/-- METER entries that closing the open epoch writes. -/
def State.meterEntries (s : State) : Nat :=
  s.meterSubjects.length + b2n (s.billing.unattributed != s.billing.unattributedAtOpen)

/-- Close the open epoch and open the next (R355, R370). Cause 0: EPOCH_CLOSE; 1: automatic. -/
def closeEpoch (cause : Nat) (s : State) : State :=
  let b := s.billing
  let e := b.epoch
  let body := leBytes 8 s.wallNow ++ leBytes 8 (if b.wallSetAtOpen then b.wallAtOpen.toNat else 0) ++
    [BitVec.ofNat 8 cause, BitVec.ofNat 8 (b2n b.wallSet + 2 * b2n b.wallSetAtOpen), 0, 0] ++
    leBytes 4 s.meterEntries
  let s1 := s |> mlog 1 0xFF e body |> each s.meterSubjects (fun n => mlog 2 n e (s.ses n).meters.bytes)
  let s2 := if b.unattributed != b.unattributedAtOpen then mlog 2 0xFF e b.unattributed.bytes s1 else s1
  let s3 := snapshotMeters s2
  { s3 with billing := { s3.billing with epoch := e + 1, wallAtOpen := BitVec.ofNat 64 s.wallNow,
                                         wallSetAtOpen := b.wallSet } }

/-- CAUSE of an EPOCH_CLOSE entry (R369). -/
def LogEntry.cause (e : LogEntry) : Nat := field e.body 16 1

/-- The EPOCH_CLOSE entry of a cause that the present CTL cycle has written: a close of the other cause at this edge is the
same close (R365). DESIGN CHOICE, log entry 43. -/
def State.closedNow (s : State) (cause : Nat) : Option LogEntry :=
  s.billing.log.reverse.find? fun e => e.kind == 1 && e.cause == cause && e.ts.toNat / 4 == s.ctlCycle

/-- An automatic close at an edge joins the EPOCH_CLOSE that the edge has made (R365). -/
def closeByClock (s : State) : State := if (s.closedNow 0).isSome then setBoundary s else s |> closeEpoch 1 |> setBoundary

/-- An EPOCH_CLOSE joins the automatic close that its edge has made: that one's CAUSE becomes 0 (R365). -/
def joinClose (e : LogEntry) (s : State) : State :=
  { s with billing := { s.billing with
      log := s.billing.log.map fun x => if x.seq == e.seq then { x with body := x.body.set 16 0 } else x } }

/-- An automatic close, if a boundary is due and the epoch is not the last (R356, R362). -/
def autoClose (s : State) : State :=
  if s.boundaryDue then
    if s.billing.epoch == 0xFFFFFFFF && (s.closedNow 0).isNone then s else closeByClock s
  else s

/-- Record open-lab mode beginning or ending: one VISIBILITY entry for each change (R348). -/
def noteOpenLab (s : State) : State :=
  if s.openLab == s.billing.openLab then s
  else
    let v := b2n s.openLab + 2 * bitsOf 4 (fun n => (s.host n).consent)
    { s with billing := { s.billing with openLab := s.openLab } } |> mlog 5 0xFF s.billing.epoch [BitVec.ofNat 8 v]

end Sys2Proof.Machine
end

