-- ==== Sys2Proof/Machine/Counters.lean ====
section
/-!
DEFINITION. Sources that fire (spec/09), and the additions to the profiling counters (spec/14).
-/

namespace Sys2Proof.Machine

open Sys2Proof

/-- A source of a partition fires; none fires before READY (R502, R504). The lattice evaluates it at the end of the
command. -/
def fire (p src : Nat) (s : State) : State :=
  if s.boot.phase == .ready then { s with fires := s.fires ++ [(p, src)] } else s

/-- A source fires for every partition. -/
def fireAll (src : Nat) (s : State) : State := each (List.range 64) (fun p => fire p src) s

/-- A counter word after an addition: VALUE modulo 2^56, WRAP modulo 256 (R747). -/
def counterAdd (w : W64) (n : Nat) : W64 := BitVec.ofNat 64 ((w.toNat % 2 ^ 56 + n) / 2 ^ 56 * 2 ^ 56 +
  w.toNat / 2 ^ 56 * 2 ^ 56 + (w.toNat % 2 ^ 56 + n) % 2 ^ 56)

/-- The counter word of Ck. -/
def State.ctr (s : State) (p k : Nat) : W64 := Tab.getD (s.part p).counters k 0

/-- Add to one counter. -/
def addCounter (p k n : Nat) (s : State) : State :=
  modPart p (fun x => { x with counters := Tab.set x.counters k (counterAdd (s.ctr p k) n) }) s

/-- The threshold slots of a partition that the additions of one edge cross, from a state before them to one after them
(R509, R776). -/
def State.crossed (after before : State) (p : Nat) : List Nat :=
  let w := (before.part p).active.weft
  (List.range 8).filter fun j =>
    let k := threshCounter w j
    decide (k < 64) && decide ((before.ctr p k).toNat < threshValue w j) && decide (threshValue w j ≤ (after.ctr p k).toNat)

/-- Make the additions of one edge; then each slot that they cross fires once (R776). -/
def atEdge (p : Nat) (g : State → State) (s : State) : State := each ((g s).crossed s p) (fun j => fire p (16 + j)) (g s)

/-- A hub event of a partition adds `n` to every counter that selects it (R752). -/
def hubEvent (p code n : Nat) (s : State) : State :=
  atEdge p (each ((List.range 64).filter fun k => selSrc (s.sel p k) == 2 && selWhat (s.sel p k) == code)
    (fun k => addCounter p k n)) s

/-- The bit of FORMAT_MASK that selects a FORMAT: bit 7 is NONE (R483, R748). None selects a code that R483 does not list. -/
def formatBit (fmt : Nat) : Option Nat := if fmt = 0x0F then some 7 else if fmt < 7 then some fmt else none

/-- One entry of a COUNTER_DELTA adds to every counter that R750 names. -/
def deltaEvent (p unit layer type fmt n : Nat) (s : State) : State :=
  let picks (v : W64) : Bool :=
    selSrc v == 1 && decide (type < 7) && bit (selWhat v) type && ((formatBit fmt).map (bit (selFormats v))).getD false &&
      (selUnit v == 0xFFFF || selUnit v == unit) && (selLayer v == 0xFFFF || selLayer v == layer)
  each ((List.range 64).filter fun k => picks (s.sel p k)) (fun k => addCounter p k n) s

end Sys2Proof.Machine
end

