-- ==== Sys2Proof/Machine/Creel.lean ====
section
/-!
DEFINITION. Space in the Creel: what the model library, the runs and the staged cuts occupy (R609, R654, R810, R820,
R922), and the header of a library entry (R807).
-/

namespace Sys2Proof.Machine

open Sys2Proof

/-! ### The header of an entry (R807) -/

/-- A header field of an entry payload. -/
def LibEntry.f (e : LibEntry) (off n : Nat) : Nat := field e.payload off n

def LibEntry.profile (e : LibEntry) : Nat := e.f 5 1
def LibEntry.pkind (e : LibEntry) : Nat := e.f 6 1
def LibEntry.codeOff (e : LibEntry) : Nat := e.f 8 4
def LibEntry.codeLen (e : LibEntry) : Nat := e.f 12 4
def LibEntry.entry (e : LibEntry) : Nat := e.f 16 4
def LibEntry.localKib (e : LibEntry) : Nat := e.f 20 4
def LibEntry.creelKib (e : LibEntry) : Nat := e.f 24 4
def LibEntry.inputKib (e : LibEntry) : Nat := e.f 28 4

def LibEntry.inputClasses (e : LibEntry) : Nat := e.f 32 4
def LibEntry.tUsed (e : LibEntry) : Nat := e.f 36 1
def LibEntry.wUsed (e : LibEntry) : Nat := e.f 37 1

/-- The library entry of an index. -/
def State.lib (s : State) (i : Nat) : Option LibEntry := s.osier.lib.find? fun e => e.index == i

/-- Bytes rounded up to a multiple of `k`. -/
def roundUp (k n : Nat) : Nat := ceilDiv n k * k

/-- Library bytes of an entry (R810). -/
def LibEntry.space (e : LibEntry) : Nat := roundUp 4096 e.payload.length

/-- Library bytes in use. -/
def State.libBytes (s : State) : Nat := (s.osier.lib.map LibEntry.space).sum

/-! ### Space in the Creel -/

/-- Creel bytes of a run of an entry: the context area, its Creel data and its input ring (R820), and the coder of a
coding run (R922). -/
def LibEntry.runSpace (e : LibEntry) (role : Nat) : Nat :=
  if e.profile = 1 then 0
  else roundUp 4096 (8832 + 16384 * e.tUsed + 8192 * e.wUsed) + 1024 * e.creelKib + 1024 * e.inputKib +
    (if role = 1 then 786432 else 0)

/-- Creel bytes of every live run. -/
def State.runBytes (s : State) : Nat :=
  (s.osier.runs.map fun r => ((s.lib r.index).map fun e => e.runSpace r.role).getD 0).sum

/-- Every cut that holds staging pages. -/
def State.staged (s : State) : List Cut := (List.range 64).flatMap fun p => (s.part p).cuts ++ (s.part p).begun

/-- Creel pages of 64 KiB that staging uses, and overflow pages. -/
def State.creelPages (s : State) : Nat := (s.staged.map fun c => c.regionPages.1 + c.statePages.1).sum
def State.dramPages (s : State) : Nat := (s.staged.map fun c => c.regionPages.2 + c.statePages.2).sum

/-- Creel bytes for staging, the library and parked streams: all but the hang store (R654), the 4 MiB pool of the tiers
(R731) and the 64 open trace blocks (R717). Log entry 21. -/
def creelShare : Nat := Config.creelBytes - Config.hangStoreBytes - 4 * 2 ^ 20 - 64 * 65536

/-- Free Creel bytes. DEDUCED, log entry 21. -/
def State.creelFree (s : State) : Nat := creelShare - s.libBytes - s.runBytes - 65536 * s.creelPages

/-- Bases of the segments. -/
abbrev imageBase : Nat := 0x01000000
abbrev creelBase : Nat := 0x02000000
abbrev inputBase : Nat := 0x03000000
abbrev hostBase : Nat := 0x04000000

/-! ### Injected errors (R1014) -/

/-- Spend the injection. DEDUCED, log entry 22. -/
def spendInjection (s : State) : State := { s with err := { s.err with armed := false, injMode := 0 } }

/-- The armed DRAM injection hits the DRAM write being made (R1014): with inline ECC only. DEDUCED, log entry 22. -/
def State.dramHit (s : State) : Bool := s.err.armed && s.err.injMode == 3 && s.inlineEcc

/-- The DRAM write being made takes the injection that hits it. -/
def spendDram (s : State) : State := if s.dramHit then spendInjection s else s

/-- The item being written lies in the bank of ERR_INJECT: no rule places an item in the Creel, and a free value decides
(R1014). DESIGN CHOICE, log entry 22. -/
def State.bankHit (s : State) : Bool := (Config.freeBits s.free).toNat % 64 == s.err.injBank.toNat

/-- The armed injection of an uncorrectable Creel error hits the item being written (R1014). DEDUCED, log entry 22. -/
def State.injectHit (s : State) : Bool := s.err.armed && s.err.injMode == 2 && s.bankHit

/-- The Creel write being made takes the injection that hits it; a correctable error is corrected and counted. -/
def spendCreel (s : State) : State :=
  if !(s.err.armed && (s.err.injMode == 1 || s.err.injMode == 2)) then s
  else
    let s1 := nextFree s
    if !s.bankHit then s1
    else if s.err.injMode == 1 then correctedWord false (spendInjection s1)
    else spendInjection s1

/-! ### External memory -/

/-- Store bytes in external memory, from address `a` of the DRAM regions on (R1037). An injected error hits the first word. -/
def storeExternal (a : Nat) (bytes : List Byte) (s : State) : State :=
  let words := (List.range (ceilDiv bytes.length 8)).map fun k => (3, 0, a / 8 + k)
  let fresh (l : List (Nat × Nat × Nat)) : List (Nat × Nat × Nat) := l.filter fun w => !words.contains w
  let m := { s.mem with dram := Mem.writeN s.mem.dram a bytes, known := fresh s.mem.known ++ words,
                        ue := fresh s.mem.ue ++ if s.dramHit then words.take 1 else [] }
  { spendDram s with mem := m }

/-- Free overflow pages: the region is absent while external memory is not trained (R715), and the retained copy of the
image takes its first pages (R972). DEDUCED, log entry 21. -/
def State.overflowFree (s : State) : Nat :=
  let kept := (s.plait.retained.map fun l => ceilDiv l.length 65536).getD 0
  if s.wale.dramReady then s.overflowPages / 16 - kept - s.dramPages else 0

/-- Reserve staging pages: the Creel first, then the overflow area (R57, R609). -/
def State.reserve (s : State) (n : Nat) : Option (Nat × Nat) :=
  let c := min n (s.creelFree / 65536)
  if n - c ≤ s.overflowFree then some (c, n - c) else none

end Sys2Proof.Machine
end

