-- ==== Sys2Proof/Machine/OsierNum.lean ====
section
/-!
DEFINITION. The numbers of the Osier cores: signed integers, rounding shifts, and the floating-point formats, exact until
one rounding (spec/15 R799 to R804, spec/17 R899).
-/

namespace Sys2Proof.Machine

open Sys2Proof

/-! ### Integers (R802) -/

/-- A two's-complement value of `w` bits. -/
def sint (w n : Nat) : Int := let v := n % 2 ^ w; if 2 * v < 2 ^ w then v else (v : Int) - 2 ^ w

/-- An integer modulo 2 to the power of a width. -/
def uint (w : Nat) (i : Int) : Nat := (i % (2 ^ w : Int)).toNat

/-- v / 2^s, rounded half to even (R899). -/
def rhe (v : Int) (s : Nat) : Int :=
  let q := v / (2 ^ s : Int)
  let r := v % (2 ^ s : Int)
  if 2 * r < 2 ^ s then q else if 2 ^ s < 2 * r then q + 1 else if q % 2 = 0 then q else q + 1

/-- FLAGS bits (R804). -/
abbrev fInvalid : Nat := 1
abbrev fOverflow : Nat := 2
abbrev fUnderflow : Nat := 4
abbrev fInexact : Nat := 8
abbrev fIntWrap : Nat := 16
abbrev fSaturated : Nat := 32

/-- Clamp to a signed width; a change sets SATURATED. -/
def satInt (w : Nat) (v : Int) : Int × Nat :=
  if (2 ^ (w - 1) : Int) ≤ v then ((2 ^ (w - 1) : Int) - 1, fSaturated)
  else if v < -(2 ^ (w - 1) : Int) then (-(2 ^ (w - 1) : Int), fSaturated) else (v, 0)

/-! ### Floating-point values -/

/-- A floating-point value: a NaN (true: one that raises INVALID), an infinity or a signed zero (true: negative), or
± m × 2^e. -/
inductive FV
  | nan (invalid : Bool)
  | inf (neg : Bool)
  | fin (neg : Bool) (m : Nat) (e : Int)
  deriving DecidableEq, Repr

/-- A format: its bits, exponent bits, mantissa bits; `fn`: no infinities, one NaN (FP8-E4M3). -/
structure FFmt where
  bits : Nat
  ew : Nat
  mw : Nat
  fn : Bool
  deriving DecidableEq, Repr

def fpE4M3 : FFmt := { bits := 8, ew := 4, mw := 3, fn := true }
def fpE5M2 : FFmt := { bits := 8, ew := 5, mw := 2, fn := false }
def fp16 : FFmt := { bits := 16, ew := 5, mw := 10, fn := false }
def fpB16 : FFmt := { bits := 16, ew := 8, mw := 7, fn := false }
def fp32 : FFmt := { bits := 32, ew := 8, mw := 23, fn := false }

/-- The float format of an FMT code (R861). -/
def floatFmt (fmt : Nat) : Option FFmt :=
  if fmt = 4 then some fpE4M3 else if fmt = 5 then some fpE5M2 else if fmt = 6 then some fp16
  else if fmt = 7 then some fpB16 else if fmt = 8 then some fp32 else none

def FFmt.bias (f : FFmt) : Nat := 2 ^ (f.ew - 1) - 1

/-- The value of a bit pattern. -/
def FFmt.decode (f : FFmt) (b : Nat) : FV :=
  let man := b % 2 ^ f.mw
  let ex := b / 2 ^ f.mw % 2 ^ f.ew
  let neg := bit b (f.bits - 1)
  if f.fn && ex == 2 ^ f.ew - 1 && man == 2 ^ f.mw - 1 then .nan false
  else if !f.fn && ex == 2 ^ f.ew - 1 then (if man = 0 then .inf neg else .nan (!bit man (f.mw - 1)))
  else if ex = 0 then .fin neg man (1 - (f.bias : Int) - f.mw)
  else .fin neg (man + 2 ^ f.mw) ((ex : Int) - f.bias - f.mw)

/-- The canonical quiet NaN of a format (R800). -/
def FFmt.canonical (f : FFmt) : Nat :=
  if f.fn then 2 ^ (f.bits - 1) - 1 else (2 ^ f.ew - 1) * 2 ^ f.mw + 2 ^ (f.mw - 1)

/-- The sign bit of a pattern. -/
def FFmt.sign (f : FFmt) (neg : Bool) : Nat := if neg then 2 ^ (f.bits - 1) else 0

/-- The largest finite pattern without its sign. -/
def FFmt.largest (f : FFmt) : Nat := if f.fn then 2 ^ (f.bits - 1) - 2 else (2 ^ f.ew - 1) * 2 ^ f.mw - 1

/-- A value beyond the largest finite one: saturated in an FP8 format, which sets SATURATED (R801, R804), else infinity. -/
def FFmt.beyond (f : FFmt) (neg : Bool) : Nat :=
  f.sign neg + if f.bits = 8 then f.largest else (2 ^ f.ew - 1) * 2 ^ f.mw

/-- m × 2^e with `m` shifted to an exponent `q`: the rounded integer, and whether it was inexact. -/
def shiftTo (m : Nat) (e q : Int) : Nat × Bool :=
  if q ≤ e then (m * 2 ^ (e - q).toNat, false)
  else
    let s := (q - e).toNat
    ((rhe m s).toNat, m % 2 ^ s != 0)

/-- Round ± m × 2^e, m above 0, to nearest, ties to even: the pattern and the FLAGS bits (R800, R866). -/
def FFmt.roundPos (f : FFmt) (neg : Bool) (m : Nat) (e : Int) : Nat × Nat :=
  let emin : Int := 1 - (f.bias : Int)
  let top : Int := e + (Nat.log2 m : Int)
  let q : Int := max (top - f.mw) (emin - f.mw)
  let (r, inexact) := shiftTo m e q
  let (r1, q1) := if 2 ^ (f.mw + 1) ≤ r then (r / 2, q + 1) else (r, q)
  let pat := if r1 < 2 ^ f.mw then r1 else ((q1 + f.mw + f.bias).toNat) * 2 ^ f.mw + (r1 - 2 ^ f.mw)
  if f.largest < pat then (f.beyond neg, fOverflow + fInexact + if f.bits = 8 then fSaturated else 0)
  else
    let before := decide (top < emin)
    let (ru, _) := shiftTo m e (top - f.mw)
    let after := before && !(top + 1 == emin && decide (2 ^ (f.mw + 1) ≤ ru))
    let tiny := if after then true else if before then Config.tinyBeforeRounding else false
    (f.sign neg + pat, if inexact then fInexact + (if tiny then fUnderflow else 0) else 0)

/-- A value in a format: its pattern and the FLAGS bits it sets. -/
def FFmt.encode (f : FFmt) (v : FV) : Nat × Nat :=
  match v with
  | .nan i => (f.canonical, if i then fInvalid else 0)
  | .inf neg => if f.fn then (f.sign neg + f.largest, fSaturated) else (f.sign neg + (2 ^ f.ew - 1) * 2 ^ f.mw, 0)
  | .fin neg m e => if m = 0 then (f.sign neg, 0) else f.roundPos neg m e

/-! ### Exact operations -/

/-- The opposite sign. -/
def FV.neg : FV → FV
  | .nan i => .nan i
  | .inf n => .inf (!n)
  | .fin n m e => .fin (!n) m e

/-- The exact product. -/
def FV.mul : FV → FV → FV
  | .nan i, .nan j => .nan (i || j)
  | .nan i, _ => .nan i
  | _, .nan j => .nan j
  | .inf a, .inf b => .inf (a != b)
  | .inf a, .fin b m _ => if m = 0 then .nan true else .inf (a != b)
  | .fin a m _, .inf b => if m = 0 then .nan true else .inf (a != b)
  | .fin a m e, .fin b n g => .fin (a != b) (m * n) (e + g)

def FV.isNan : FV → Bool
  | .nan _ => true
  | _ => false

def FV.invalid : FV → Bool
  | .nan i => i
  | _ => false

/-- The exponent that a finite value needs; zero needs none. -/
def FV.exp? : FV → Option Int
  | .fin _ m e => if m = 0 then none else some e
  | _ => none

/-- The least exponent of a list of values, 0 for none. -/
def minExp (l : List FV) : Int :=
  match l.filterMap FV.exp? with
  | [] => 0
  | e :: es => es.foldl min e

/-- A finite value as a multiple of 2^q. -/
def FV.scaled (q : Int) : FV → Int
  | .fin neg m e => let k : Int := if m = 0 then 0 else m * 2 ^ (e - q).toNat; if neg then -k else k
  | _ => 0

/-- An exact integer times 2^e; `negZero`: the sign of a zero. -/
def FV.ofInt (i : Int) (e : Int) (negZero : Bool) : FV :=
  if i = 0 then .fin negZero 0 0 else .fin (decide (i < 0)) i.natAbs e

/-- The exact sum of a list (R803). A zero sum is negative only if every term is a negative zero. -/
def FV.sum (l : List FV) : FV :=
  let pos := l.any fun v => v == .inf false
  let neg := l.any fun v => v == .inf true
  if l.any FV.isNan then .nan (l.any FV.invalid)
  else if pos && neg then .nan true
  else if pos then .inf false
  else if neg then .inf true
  else
    let q := minExp l
    let allNeg := !l.isEmpty && l.all fun v => match v with | .fin n m _ => n && m == 0 | _ => false
    FV.ofInt ((l.map (FV.scaled q)).sum) q allNeg

/-- a × b + c, exact. -/
def FV.fma (a b c : FV) : FV :=
  let p := FV.mul a b
  match a, b, c with
  | .inf _, .fin _ 0 _, .nan false => .nan Config.fmaInvalidNan
  | .fin _ 0 _, .inf _, .nan false => .nan Config.fmaInvalidNan
  | _, _, _ => FV.sum [p, c]

/-- a is below b, for values that are not NaN. -/
def FV.lt : FV → FV → Bool
  | .inf a, .inf b => a && !b
  | .inf a, .fin _ _ _ => a
  | .fin _ _ _, .inf b => !b
  | .fin a m e, .fin b n g =>
    let q := minExp [.fin a m e, .fin b n g]
    decide (FV.scaled q (.fin a m e) < FV.scaled q (.fin b n g))
  | _, _ => false

/-- Equal values, for values that are not NaN; both zeros are equal. -/
def FV.eq (a b : FV) : Bool := !a.isNan && !b.isNan && !FV.lt a b && !FV.lt b a

/-- a is below b with -0 below +0 (R866). -/
def FV.below (a b : FV) : Bool :=
  match a, b with
  | .fin true 0 _, .fin false 0 _ => true
  | _, _ => FV.lt a b

/-- VMIN and VMAX of two values (R866). -/
def FV.minMax (isMax : Bool) (a b : FV) : FV :=
  if a.isNan || b.isNan then .nan (a.invalid || b.invalid)
  else if isMax then (if FV.below a b then b else a) else (if FV.below b a then b else a)

/-- A value times a power of two, rounded to the nearest integer, ties to even, and whether that changed it. -/
def FV.toInt (v : FV) (shift : Int) : Int × Bool :=
  match v with
  | .fin neg m e =>
    let (r, inexact) := shiftTo m (e + shift) 0
    (if neg then -(r : Int) else r, inexact)
  | _ => (0, false)

end Sys2Proof.Machine
end

