-- ==== Sys2Proof/Machine/OsierWord.lean ====
section
/-!
DEFINITION. The fields of the 512-bit instruction word and which encodings are reserved (spec/15 R783, spec/16 R846 to
R878, R881, spec/17 R890).
-/

namespace Sys2Proof.Machine

open Sys2Proof

/-- `n` bits of a number from bit `lo`. -/
def bitsAt (v lo n : Nat) : Nat := v / 2 ^ lo % 2 ^ n

/-! ### The seven fields (R783) -/

def wordScalarA (w : Nat) : Nat := bitsAt w 0 64
def wordScalarB (w : Nat) : Nat := bitsAt w 64 64
def wordAddress (w : Nat) : Nat := bitsAt w 128 64
def wordVector (w : Nat) : Nat := bitsAt w 192 96
def wordMatrix (w : Nat) : Nat := bitsAt w 288 96
def wordMove (w : Nat) : Nat := bitsAt w 384 64
def wordControl (w : Nat) : Nat := bitsAt w 448 64

/-- OPC of a field (R846). -/
def opc (f : Nat) : Nat := bitsAt f 0 8

/-- The signed 32-bit immediate in bits 63:32 of a 64-bit field. -/
def imm32 (f : Nat) : Nat := bitsAt f 32 32

/-- Every field of a list, given as its lowest bit and its width, is zero. -/
def zeroAt (f : Nat) (l : List (Nat × Nat)) : Bool := l.all fun (lo, n) => bitsAt f lo n == 0

/-! ### Scalar fields (R850, R851) -/

-- RD 12:8, RA 17:13, RB 22:18, PD 25:23, PS 28:26, reserved 31:29.

/-- A scalar field is legal; `full`: the full profile. -/
def scalarOk (full : Bool) (f : Nat) : Bool :=
  let o := opc f
  let imm := imm32 f
  let z := zeroAt f
  let pRa := bitsAt f 16 2 == 0
  let pRb := bitsAt f 21 2 == 0
  if o = 0 then f == 0
  else z [(29, 3)] &&
    if 0x01 ≤ o ∧ o ≤ 0x0E then z [(23, 3), (26, 3)]
    else if 0x10 ≤ o ∧ o ≤ 0x13 then z [(18, 5), (23, 3), (26, 3)]
    else if 0x14 ≤ o ∧ o ≤ 0x16 then z [(18, 5), (23, 3), (26, 3)] && decide (imm < 64)
    else if o = 0x17 then z [(13, 5), (18, 5), (23, 3), (26, 3)]
    else if o = 0x18 then z [(18, 5), (23, 3), (26, 3)]
    else if 0x20 ≤ o ∧ o ≤ 0x25 then z [(8, 5), (26, 3)]
    else if 0x28 ≤ o ∧ o ≤ 0x2D then z [(8, 5), (18, 5), (26, 3)]
    else if o = 0x30 then z [(23, 3)]
    else if 0x31 ≤ o ∧ o ≤ 0x33 then z [(8, 5), (26, 3)] && pRa && pRb
    else if o = 0x34 then z [(8, 5), (18, 5), (26, 3)] && pRa
    else if o = 0x35 then z [(8, 5), (18, 5), (26, 3)]
    else if o = 0x38 then z [(13, 5), (18, 5), (23, 3), (26, 3)] && decide (imm ≤ 6) && (full || !(2 ≤ imm && imm ≤ 4))
    else if o = 0x39 then z [(8, 5), (18, 5), (23, 3), (26, 3)] && (imm == 6 || (full && imm == 3))
    else false

/-! ### Address field (R856, R857) -/

/-- An address field is legal. -/
def addressOk (full : Bool) (f : Nat) : Bool :=
  let o := opc f
  if o = 0 then f == 0
  else zeroAt f [(21, 11)] &&
    ((0x01 ≤ o && o ≤ 0x07) || (0x09 ≤ o && o ≤ 0x0C) || (full && (o == 0x10 || o == 0x11)))

/-! ### Vector field (R860 to R864) -/

/-- Lane bits of a format (R861). -/
def laneBits (fmt : Nat) : Nat :=
  if fmt = 0 ∨ fmt = 4 ∨ fmt = 5 then 8 else if fmt = 1 ∨ fmt = 6 ∨ fmt = 7 then 16 else 32

/-- Formats of an operation: Int, Float. -/
def isIntFmt (fmt : Nat) : Bool := decide (fmt ≤ 3)
def isFloatFmt (fmt : Nat) : Bool := decide (6 ≤ fmt) && decide (fmt ≤ 8)

/-- Width ratio of a conversion; PART must be below it. -/
def cvtRatio (a b : Nat) : Nat := max (laneBits a / laneBits b) (laneBits b / laneBits a)

-- VD 12:8, VA 17:13, VB 22:18, VC 27:23, PG 30:28, PD 33:31, FMT 37:34, reserved 63:38, IMM 95:64.

/-- A vector field is legal. -/
def vectorOk (f : Nat) : Bool :=
  let o := opc f
  let fmt := bitsAt f 34 4
  let imm := bitsAt f 64 32
  let z := zeroAt f
  let int := isIntFmt fmt
  let any := int || isFloatFmt fmt
  if o = 0 then f == 0
  else z [(38, 26)] && decide (fmt ≤ 8) &&
    if 0x01 ≤ o ∧ o ≤ 0x03 ∨ o = 0x05 ∨ o = 0x06 then any && imm == 0 && z [(23, 5), (31, 3)]
    else if o = 0x04 then isFloatFmt fmt && imm == 0 && z [(31, 3)]
    else if 0x08 ≤ o ∧ o ≤ 0x0E then int && imm == 0 && z [(23, 5), (31, 3)]
    else if 0x10 ≤ o ∧ o ≤ 0x13 then any && imm == 0 && z [(8, 5), (23, 5)]
    else if o = 0x18 then imm == 0 && z [(23, 5), (31, 3)]
    else if o = 0x19 then imm == 0 && z [(18, 5), (23, 5), (31, 3)]
    else if o = 0x1A then z [(13, 5), (18, 5), (23, 5), (31, 3)]
    else if o = 0x1B then fmt == 0 && imm == 0 && z [(23, 5), (31, 3)]
    else if o = 0x20 then
      let d := imm % 16
      z [(18, 5), (23, 5), (31, 3)] && decide (imm < 64) && decide (d ≤ 8) && d != fmt && decide (imm / 16 < cvtRatio fmt d)
    else if o = 0x28 ∨ o = 0x29 then (fmt == 2 || fmt == 3 || fmt == 8) && z [(18, 5), (23, 5), (31, 3)]
    else false

/-! ### Matrix field (R867, R868, R890) -/

-- TD 10:8, TS 13:11, WS 15:14, VA 20:16, MR 23:21, FMT 27:24, XA 32:28, ROW 38:33, COUNT 45:39, reserved 63:46, IMM.

/-- Input formats of the matrix operations. -/
def matrixFmt (fmt : Nat) : Bool := fmt == 0 || fmt == 1 || (4 ≤ fmt && fmt ≤ 7)
/-- Formats of the recurrent operators (R891). -/
def stepFmt (fmt : Nat) : Bool := fmt == 0 || (4 ≤ fmt && fmt ≤ 7)

/-- A matrix field is legal in an entry that uses `tUsed` tiles and `wUsed` weight buffers (R790). -/
def matrixOk (tUsed wUsed f : Nat) : Bool :=
  let o := opc f
  let td := bitsAt f 8 3
  let ts := bitsAt f 11 3
  let ws := bitsAt f 14 2
  let va := bitsAt f 16 5
  let mr := bitsAt f 21 3
  let fmt := bitsAt f 24 4
  let count := bitsAt f 39 7
  let rows := decide (1 ≤ count) && decide (bitsAt f 33 6 + count ≤ 64)
  let z := zeroAt f
  let even := va % 2 == 0 && mr % 2 == 0
  let okT (t : Nat) : Bool := decide (t < tUsed)
  if o = 0 then f == 0
  else z [(46, 18)] &&
    if o = 0x01 then decide (ws < wUsed) && matrixFmt fmt && rows && z [(8, 3), (11, 3), (16, 5), (21, 3)]
    else if o = 0x08 then okT td && decide (ws < wUsed) && matrixFmt fmt && rows && z [(11, 3), (16, 5)]
    else if o = 0x09 then okT td && decide (ws < wUsed) && matrixFmt fmt && count == 0 && z [(11, 3), (28, 5)]
    else if o = 0x10 then okT td && z [(11, 3), (14, 2), (16, 5), (28, 5)]
    else if o = 0x11 ∨ o = 0x12 then okT td && rows && z [(11, 3), (14, 2), (16, 5)]
    else if o = 0x13 then okT td && okT ts && z [(14, 2), (16, 5), (28, 5)]
    else if o = 0x20 then okT td && ts == 0 && (ws == 0 || ws == 2) && decide (ws + 1 < wUsed) && even && stepFmt fmt && rows
    else if o = 0x21 then okT td && ts == 0 && ws == 0 && even && stepFmt fmt && rows
    else if o = 0x22 then okT td && okT ts && ts != td && decide (ws < wUsed) && even && stepFmt fmt && rows
    else if o = 0x28 ∨ o = 0x29 then okT td && ts == 0 && ws == 0 && fmt == 0 && rows
    else false

/-! ### Move field (R871, R872) -/

-- D 12:8, S 17:13, IDX 25:18, W 27:26, T 30:28, reserved 35:31, LEN64 41:36, reserved 63:42.

/-- Lanes of a width code. -/
def laneCount (w : Nat) : Nat := if w = 0 then 256 else if w = 1 then 128 else if w = 2 then 64 else 0

/-- A move field is legal. -/
def moveOk (full : Bool) (tUsed wUsed f : Nat) : Bool :=
  let o := opc f
  let idx := bitsAt f 18 8
  let w := bitsAt f 26 2
  let t := bitsAt f 28 3
  let z := zeroAt f
  let noD := (8, 5)
  let noS := (13, 5)
  let noIdx := (18, 8)
  let noW := (26, 2)
  let noT := (28, 3)
  let noLen := (36, 6)
  if o = 0 then f == 0
  else z [(31, 5), (42, 22)] &&
    if o = 0x01 then z [noIdx, noW, noT, noLen]
    else if o = 0x02 then z [noIdx, noW, noT, noLen, (11, 2), (16, 2)]
    else if o = 0x03 then full && z [noIdx, noW, noT, noLen]
    else if o = 0x08 ∨ o = 0x09 ∨ o = 0x0A then full && decide (idx < laneCount w) && z [noT, noLen]
    else if o = 0x10 then full && decide (idx < 64) && decide (t < tUsed) && z [noS, noW, noLen]
    else if o = 0x11 then full && decide (idx < 64) && decide (t < tUsed) && z [noD, noW, noLen]
    else if o = 0x12 then full && decide (idx < 64) && decide (t < wUsed) && decide (t < 4) && decide (w < 2) && z [noD, noLen]
    else if o = 0x18 then full && z [noS, noIdx, noW, noLen]
    else if o = 0x19 then full && z [noD, noIdx, noW, noLen]
    else if o = 0x20 then z [noIdx, noW, noT]
    else false

/-! ### Control field (R874, R876) -/

-- CP 10:8, NEG 11, XA 16:12, XB 21:17, reserved 31:22, IMM 63:32.

/-- A control field is legal. -/
def controlOk (full : Bool) (f : Nat) : Bool :=
  let o := opc f
  let imm := imm32 f
  let z := zeroAt f
  let noA := (12, 5)
  let noB := (17, 5)
  let noImm := imm == 0
  if o = 0 then f == 0
  else z [(22, 10)] &&
    if o = 0x01 then z [noA, noB]
    else if o = 0x02 then z [noB] && noImm
    else if o = 0x03 then z [noA]
    else if o = 0x08 ∨ o = 0x09 then full && z [noA, noB] && noImm
    else if o = 0x0A then full && z [noB] && noImm
    else if o = 0x0B ∨ o = 0x0C then z [noA, noB] && noImm
    else if o = 0x10 then full && z [noB] && decide (imm % 8 = 0) && decide (imm ≤ 1000)
    else if o = 0x11 then full && z [noB] && noImm
    else if o = 0x20 then !full && z [noA, noB] && noImm
    else if o = 0x21 ∨ o = 0x22 then !full && noImm
    else if o = 0x23 then !full && z [noA, noB] && decide (1 ≤ imm) && decide (imm ≤ 65535)
    else false

/-! ### Words and entries (R809) -/

/-- A word of an entry is legal (R846, R881). -/
def wordOk (full : Bool) (tUsed wUsed w : Nat) : Bool :=
  scalarOk full (wordScalarA w) && scalarOk full (wordScalarB w) && addressOk full (wordAddress w) &&
    (if full then vectorOk (wordVector w) && matrixOk tUsed wUsed (wordMatrix w)
     else wordVector w == 0 && wordMatrix w == 0) &&
    moveOk full tUsed wUsed (wordMove w) && controlOk full (wordControl w)

/-- A header size in KiB is 0 or a power of two from 16 to 4,096. -/
def inputSizeOk (k : Nat) : Bool := k == 0 || [16, 32, 64, 128, 256, 512, 1024, 2048, 4096].contains k

/-- NAME is ASCII, zero-padded (R807). -/
def LibEntry.nameOk (e : LibEntry) : Bool :=
  let l := slice e.payload 48 16
  l.all (fun b => decide (b.toNat < 128)) && (l.dropWhile (· != 0)).all (· == 0)

/-- The header of an entry obeys R807; `model`: the section TYPE is MODEL. DEDUCED, log entry 55. -/
def headerOk (model : Bool) (e : LibEntry) : Bool :=
  let full := e.profile == 0
  let zero (off n : Nat) : Bool := e.f off n == 0
  decide (128 ≤ e.payload.length) && e.f 0 4 == 0x5052534F && e.f 4 1 == 1 && decide (e.profile ≤ 1) &&
    e.pkind == b2n model && decide (e.f 7 1 ≤ 1) && e.codeOff % 64 == 0 && e.codeLen % 64 == 0 &&
    decide (64 ≤ e.codeLen) && decide (e.localKib ≤ if full then 512 else 16) &&
    decide (e.creelKib ≤ if full then 16384 else 0) && inputSizeOk e.inputKib && (full || e.inputKib == 0) &&
    e.inputClasses % 2 == 0 && decide (e.inputClasses < 65536) && decide (e.tUsed ≤ if full then 8 else 0) &&
    decide (e.wUsed ≤ if full then 4 else 0) && zero 38 10 && e.nameOk && zero 64 64

/-- The code area and the word at ENTRY lie inside the payload, ENTRY in the code (R807, R809). -/
def codeOk (e : LibEntry) : Bool :=
  decide (e.codeOff + e.codeLen ≤ e.payload.length) && decide (e.codeOff ≤ e.entry) &&
    decide (e.entry + 64 ≤ e.codeOff + e.codeLen) && e.entry % 64 == 0

/-- The instruction word at a payload offset. -/
def LibEntry.word (e : LibEntry) (off : Nat) : Nat := e.f off 64

/-- The load check of R809. -/
def entryOk (model : Bool) (e : LibEntry) : Bool :=
  headerOk model e && codeOk e &&
    (List.range (e.codeLen / 64)).all fun k => wordOk (e.profile == 0) e.tUsed e.wUsed (e.word (e.codeOff + 64 * k))

end Sys2Proof.Machine
end

