-- ==== Sys2Proof/Machine/OsierRegs.lean ====
section
/-!
DEFINITION. The registers, the address space and the memory of a run (spec/15 R787 to R797), and the effect of one field
of an instruction word.
-/

namespace Sys2Proof.Machine

open Sys2Proof

/-! ### Registers (R787) -/

/-- x[k]; x0 reads 0. -/
def Run.rx (q : Run) (k : Nat) : Nat := if k = 0 then 0 else (Tab.getD q.x k (0 : W64)).toNat
/-- x[k] ← v; x0 ignores it. -/
def Run.setX (k v : Nat) (q : Run) : Run := if k = 0 then q else { q with x := Tab.set q.x k (BitVec.ofNat 64 v) }

/-- p[k]; p0 reads all ones. -/
def Run.rp (q : Run) (k : Nat) : BitVec 256 := if k = 0 then BitVec.allOnes 256 else Tab.getD q.p k 0
/-- p[k] ← v. -/
def Run.setP (k : Nat) (v : BitVec 256) (q : Run) : Run := if k = 0 then q else { q with p := Tab.set q.p k v }

/-- v[k]. -/
def Run.rv (q : Run) (k : Nat) : BitVec 2048 := Tab.getD q.v k 0
def Run.setV (k : Nat) (v : BitVec 2048) (q : Run) : Run := { q with v := Tab.set q.v k v }

/-- m[k]. -/
def Run.rm (q : Run) (k : Nat) : Nat := (Tab.getD q.m k (0 : W64)).toNat
def Run.setM (k v : Nat) (q : Run) : Run := { q with m := Tab.set q.m k (BitVec.ofNat 64 v) }

/-- Row `r` of t[k]. -/
def Run.rt (q : Run) (k r : Nat) : BitVec 2048 := Tab.getD q.t (64 * k + r) 0
def Run.setT (k r : Nat) (v : BitVec 2048) (q : Run) : Run := { q with t := Tab.set q.t (64 * k + r) v }

/-- Row `r` of w[k]: element c in bits 16c+15:16c. -/
def Run.rw (q : Run) (k r : Nat) : BitVec 1024 := Tab.getD q.w (64 * k + r) 0
def Run.setW (k r : Nat) (v : BitVec 1024) (q : Run) : Run := { q with w := Tab.set q.w (64 * k + r) v }

/-! ### Lanes -/

/-- Lane `i` of `w` bits. -/
def lane (w : Nat) {n : Nat} (v : BitVec n) (i : Nat) : Nat := (v >>> (w * i)).toNat % 2 ^ w

/-- The number of a list of lanes of `w` bits, lane 0 first. -/
def packLanes (w : Nat) : List Nat → Nat
  | [] => 0
  | a :: l => a % 2 ^ w + 2 ^ w * packLanes w l

/-- A value whose lane `i` is `f i`. -/
def mkLanes (n w : Nat) (f : Nat → Nat) : BitVec n := BitVec.ofNat n (packLanes w ((List.range (n / w)).map f))

/-- The guard p[k] governs lane `i` of `w` bits by its bit for the lowest byte (R788). -/
def governs (p : BitVec 256) (w i : Nat) : Bool := p.getLsbD (w / 8 * i)

/-- Write lanes of v[k] alone: those that `act` names take the value `g`, the others keep theirs (R849). -/
def Run.setLanes (k w : Nat) (act : Nat → Bool) (g : Nat → Nat) (q : Run) : Run :=
  Run.setV k (mkLanes 2048 w fun i => if act i then g i else lane w (q.rv k) i) q

/-- A predicate whose bits of lane `i` are `f i` where the guard is set, and the old ones elsewhere. -/
def mkPred (w : Nat) (guard old : BitVec 256) (f : Nat → Bool) : BitVec 256 :=
  BitVec.ofNat 256 (bitsOf 256 fun b => let i := b / (w / 8); if governs guard w i then f i else old.getLsbD b)

/-! ### The address space (R791) -/

/-- A segment. -/
inductive Seg
  | local_ | image | creel | input | host
  deriving DecidableEq, Repr

/-- What a run's addresses reach: the entry gives the sizes. -/
structure Space where
  localBytes : Nat
  imageBytes : Nat
  creelBytes : Nat
  inputBytes : Nat
  hostBytes : Nat
  hostOut : Bool

/-- The address space of a run of an entry. -/
def Run.space (q : Run) (e : LibEntry) : Space :=
  { localBytes := 1024 * e.localKib, imageBytes := e.payload.length, creelBytes := 1024 * e.creelKib,
    inputBytes := 1024 * e.inputKib, hostBytes := if q.hostOut then q.bufWindow.toNat else 0, hostOut := q.hostOut }

/-- The segment and the offset of an address; none where it is unmapped. The host window of a run with HOST_OUT ends at
BUF_WINDOW. -/
def Space.seg (m : Space) (a : Nat) : Option (Seg × Nat) :=
  if a < m.localBytes then some (.local_, a)
  else if imageBase ≤ a ∧ a < imageBase + m.imageBytes then some (.image, a - imageBase)
  else if creelBase ≤ a ∧ a < creelBase + m.creelBytes then some (.creel, a - creelBase)
  else if inputBase ≤ a ∧ a < inputBase + m.inputBytes then some (.input, a - inputBase)
  else if hostBase ≤ a ∧ a < hostBase + m.hostBytes then some (.host, a - hostBase)
  else none

/-- A byte may be read. -/
def Space.readable (m : Space) (a : Nat) : Bool :=
  match m.seg a with
  | some (.host, _) => false
  | some _ => true
  | none => false

/-- A byte may be written: local, Creel, or the host window with HOST_OUT (R797, R859). -/
def Space.writable (m : Space) (a : Nat) : Bool :=
  match m.seg a with
  | some (.local_, _) => true
  | some (.creel, _) => true
  | some (.host, _) => m.hostOut
  | _ => false

/-- Every byte of a range satisfies a test; addresses are modulo 2^64. -/
def rangeAll (test : Nat → Bool) (a n : Nat) : Bool := (List.range n).all fun i => test ((a + i) % 2 ^ 64)

/-- The byte at an address of a run. -/
def Run.byteAt (q : Run) (e : LibEntry) (a : Nat) : Byte :=
  match (q.space e).seg (a % 2 ^ 64) with
  | some (.local_, o) => Mem.read q.local_ o
  | some (.image, o) => e.payload.getD o 0
  | some (.creel, o) => Mem.read q.creel o
  | some (.input, o) => Mem.read q.input o
  | _ => 0

/-- `n` bytes from an address. -/
def Run.bytesAt (q : Run) (e : LibEntry) (a n : Nat) : List Byte := (List.range n).map fun i => q.byteAt e (a + i)

/-- One byte stored: in a segment of the run, or for host memory. -/
def Run.storeByte (e : LibEntry) (a : Nat) (b : Byte) (q : Run) : Run :=
  match (q.space e).seg (a % 2 ^ 64) with
  | some (.local_, o) => { q with local_ := Mem.write q.local_ o b }
  | some (.creel, o) => { q with creel := Mem.write q.creel o b }
  | _ => q

/-! ### The effect of a field -/

/-- The exception causes of R805. -/
abbrev exAccess : Nat := 1
abbrev exMisaligned : Nat := 2
abbrev exPoison : Nat := 3
abbrev exBreak : Nat := 4
abbrev exFetch : Nat := 5
abbrev exHostWrite : Nat := 6

/-- What one field does: the causes it raises, its register and run-state writes, the bytes it stores, the FLAGS bits it
sets, and whether it reads memory. -/
structure FieldEff where
  faults : List Nat := []
  regs : Run → Run := fun q => q
  stores : List (Nat × List Byte) := []
  flags : Nat := 0
  reads : List (Nat × Nat) := []

/-- A field that does nothing. -/
def FieldEff.idle : FieldEff := {}

/-- A field that raises. -/
def FieldEff.raise (l : List Nat) : FieldEff := { faults := l }

/-- Misaligned for an access of `n` bytes (R793). -/
def misaligned (a n : Nat) : Bool := a % (if n ≤ 64 then n else 64) != 0

/-- The causes of an access of `n` bytes: ACCESS where a byte fails the test, MISALIGNED. -/
def accessFaults (test : Nat → Bool) (a n align : Nat) : List Nat :=
  (if rangeAll test a n then [] else [exAccess]) ++ (if a % align = 0 then [] else [exMisaligned])

/-- x[RB] + sext(IMM), modulo 2^64. -/
def effAddr (base imm : Nat) : Nat := uint 64 ((base : Int) + sint 32 imm)

end Sys2Proof.Machine
end

