-- ==== Sys2Proof/Machine/OsierVector.lean ====
section
/-!
DEFINITION. The vector field of an instruction word (spec/16 R860 to R866).
-/

namespace Sys2Proof.Machine

open Sys2Proof

/-! ### One lane -/

/-- A float result in a format. -/
def fpOut (f : FFmt) (v : FV) : Nat × Nat := f.encode v

/-- VADD, VSUB, VMUL of float lanes. -/
def floatAlu (o : Nat) (f : FFmt) (a b : Nat) : Nat × Nat :=
  let x := f.decode a
  let y := f.decode b
  if o = 1 then fpOut f (FV.sum [x, y]) else if o = 2 then fpOut f (FV.sum [x, y.neg])
  else if o = 3 then fpOut f (FV.mul x y)
  else fpOut f (FV.minMax (o == 6) x y)

/-- VMUL of Q16.16 lanes (R863). -/
def mulQ16 (a b : Nat) : Nat × Nat :=
  let (v, fl) := satInt 32 (rhe (sint 32 a * sint 32 b) 16)
  (uint 32 v, fl)

/-- The integer operations on lanes of `w` bits (R862, R863). -/
def intAlu (o fmt w a b : Nat) : Nat × Nat :=
  let sa := sint w a
  let sb := sint w b
  let k := b % w
  if o = 0x01 then (uint w (sa + sb), 0)
  else if o = 0x02 then (uint w (sa - sb), 0)
  else if o = 0x03 then (if fmt = 3 then mulQ16 a b else (uint w (sa * sb), 0))
  else if o = 0x05 then (if sa ≤ sb then a else b, 0)
  else if o = 0x06 then (if sa ≤ sb then b else a, 0)
  else if o = 0x08 then (Nat.land a b, 0)
  else if o = 0x09 then (Nat.lor a b, 0)
  else if o = 0x0A then (Nat.xor a b, 0)
  else if o = 0x0B then (a * 2 ^ k % 2 ^ w, 0)
  else if o = 0x0C then (a / 2 ^ k, 0)
  else if o = 0x0D then (uint w (sa / (2 ^ k : Int)), 0)
  else (uint w (rhe sa k), 0)

/-- The two-operand operations by format. -/
def vecAlu (o fmt a b : Nat) : Nat × Nat :=
  match floatFmt fmt with
  | some f => floatAlu o f a b
  | none => intAlu o fmt (laneBits fmt) a b

/-- The comparisons 0 EQ, 1 NE, 2 LT, 3 LE: a NaN input makes all but NE false (R866). LT and LE of a quiet NaN, and
every comparison with a signalling one, raise INVALID. -/
def vecCmp (k fmt a b : Nat) : Bool × Nat :=
  match floatFmt fmt with
  | some f =>
    let x := f.decode a
    let y := f.decode b
    let nan := x.isNan || y.isNan
    let fl := if x.invalid || y.invalid || (nan && decide (2 ≤ k)) then fInvalid else 0
    (if nan then k == 1
     else if k = 0 then FV.eq x y else if k = 1 then !FV.eq x y else if k = 2 then FV.lt x y else !FV.lt y x, fl)
  | none =>
    let w := laneBits fmt
    (if k = 0 then a == b else if k = 1 then a != b
     else if k = 2 then decide (sint w a < sint w b) else decide (sint w a ≤ sint w b), 0)

/-! ### Conversions (R801, R864) -/

/-- The value of a lane as a float value; an integer or a Q16.16 number is exact. -/
def laneValue (fmt a : Nat) : FV :=
  match floatFmt fmt with
  | some f => f.decode a
  | none =>
    let i := sint (laneBits fmt) a
    .fin (decide (i < 0)) i.natAbs (if fmt = 3 then -16 else 0)

/-- Convert one lane from a format to another. -/
def cvtLane (src dst a : Nat) : Nat × Nat :=
  match floatFmt dst with
  | some f => f.encode (laneValue src a)
  | none =>
    let w := laneBits dst
    match laneValue src a with
    | .nan _ => (0, fInvalid)
    | .inf neg => (uint w (satInt w (if neg then -(2 ^ 64 : Int) else 2 ^ 64)).1, fSaturated + fInvalid)
    | .fin neg m e =>
      let (v, inexact) := FV.toInt (.fin neg m e) (if dst = 3 then 16 else 0)
      let (r, sat) := satInt w v
      let float := (floatFmt src).isSome
      (uint w r, sat + if !float then 0 else if sat != 0 then fInvalid
        else if inexact && Config.convertInexact then fInexact else 0)

/-! ### Reductions (R865) -/

/-- VREDADD over the active lanes. -/
def redAdd (fmt : Nat) (l : List Nat) : Nat × Nat :=
  if fmt = 8 then (if l.isEmpty then (0, 0) else fp32.encode (FV.sum (l.map fp32.decode)))
  else (l.sum % 2 ^ 32, 0)

/-- VREDMAX over the active lanes. -/
def redMax (fmt : Nat) (l : List Nat) : Nat × Nat :=
  if fmt = 8 then fp32.encode ((l.map fp32.decode).foldl (FV.minMax true) (.inf true))
  else (l.foldl (fun a b => if sint 32 a ≤ sint 32 b then b else a) 0x80000000, 0)

/-! ### The field -/

/-- The union of FLAGS bits. -/
def orFlags (l : List Nat) : Nat := l.foldl Nat.lor 0

/-- A vector field, reading the run as it stood before the word. -/
def vectorField (q : Run) (f : Nat) : FieldEff :=
  let o := opc f
  let vd := bitsAt f 8 5
  let a := q.rv (bitsAt f 13 5)
  let b := q.rv (bitsAt f 18 5)
  let c := q.rv (bitsAt f 23 5)
  let pg := q.rp (bitsAt f 28 3)
  let fmt := bitsAt f 34 4
  let imm := bitsAt f 64 32
  let w := laneBits fmt
  let act := (List.range (2048 / w)).filter (governs pg w)
  let perLane (g : Nat → Nat × Nat) : FieldEff :=
    { regs := Run.setLanes vd w (governs pg w) (fun i => (g i).1), flags := orFlags (act.map fun i => (g i).2) }
  let lane0 (r : Nat × Nat) : FieldEff :=
    { regs := Run.setLanes vd w (· == 0) (fun _ => r.1), flags := r.2 }
  if o = 0 then .idle
  else if o = 0x04 then
    match floatFmt fmt with
    | some x => perLane fun i => x.encode (FV.fma (x.decode (lane w a i)) (x.decode (lane w b i)) (x.decode (lane w c i)))
    | none => .idle
  else if o ≤ 0x0E then perLane fun i => vecAlu o fmt (lane w a i) (lane w b i)
  else if o ≤ 0x13 then
    let pd := bitsAt f 31 3
    let r (i : Nat) := vecCmp (o - 0x10) fmt (lane w a i) (lane w b i)
    { regs := fun x => Run.setP pd (mkPred w pg (x.rp pd) fun i => (r i).1) x, flags := orFlags (act.map fun i => (r i).2) }
  else if o = 0x18 then
    { regs := Run.setV vd (mkLanes 2048 w fun i => if governs pg w i then lane w a i else lane w b i) }
  else if o = 0x19 then perLane fun _ => (q.rx (bitsAt f 13 5) % 2 ^ w, 0)
  else if o = 0x1A then perLane fun _ => (imm % 2 ^ w, 0)
  else if o = 0x1B then perLane fun i => (lane 8 a (lane 8 b i), 0)
  else if o = 0x20 then
    let dst := imm % 16
    let part := imm / 16 % 4
    let wd := laneBits dst
    let n := 2048 / w
    -- the source lane of destination lane j, if there is one
    let src (j : Nat) : Option Nat :=
      if wd < w then (if part * n ≤ j ∧ j < (part + 1) * n then some (j - part * n) else none)
      else some (part * (2048 / wd) + j)
    let hit (j : Nat) : Option (Nat × Nat) := if governs pg wd j then (src j).map fun i => cvtLane fmt dst (lane w a i) else none
    let js := List.range (2048 / wd)
    { regs := Run.setLanes vd wd (fun j => (hit j).isSome) (fun j => ((hit j).map (·.1)).getD 0),
      flags := orFlags (js.map fun j => ((hit j).map (·.2)).getD 0) }
  else if o = 0x28 then lane0 (redAdd fmt (act.map (lane w a)))
  else if o = 0x29 then lane0 (redMax fmt (act.map (lane w a)))
  else .idle

end Sys2Proof.Machine
end

