-- ==== Sys2Proof/Machine/OsierMatrix.lean ====
section
/-!
DEFINITION. The matrix field of an instruction word: loads, products and copies of tiles (spec/16 R867 to R869), and the
recurrent stream operators (spec/17).
-/

namespace Sys2Proof.Machine

open Sys2Proof

/-! ### Operands -/

/-- Element bits of an input format. -/
def elemBits (fmt : Nat) : Nat := laneBits fmt

/-- The element `c` of a row of a weight buffer, read as a format (R869). -/
def Run.weight (q : Run) (ws fmt k c : Nat) : Nat := lane 16 (q.rw ws k) c % 2 ^ elemBits fmt

/-- The elements of a row of 64 inputs in memory. -/
def rowOf (fmt : Nat) (bytes : List Byte) : List Nat :=
  let n := elemBits fmt / 8
  (List.range 64).map fun k => field bytes (n * k) n

/-- The rows of inputs of a matrix field: `count` rows from an address. -/
def Run.inputRows (q : Run) (e : LibEntry) (fmt addr count : Nat) : List (List Nat) :=
  let n := 8 * elemBits fmt
  (List.range count).map fun i => rowOf fmt (q.bytesAt e (addr + n * i) n)

/-- The input rows of MMAV: 4 rows for 8-bit formats, 2 otherwise (R868). -/
def vecRows (fmt : Nat) (v : BitVec 2048) : List (List Nat) :=
  let w := elemBits fmt
  (List.range (32 / w)).map fun i => (List.range 64).map fun k => lane w v (64 * i + k)

/-- A format whose products are integers. -/
def intInput (fmt : Nat) : Bool := fmt ≤ 1

/-! ### MMA (R803, R869) -/

/-- The float format of an input format. -/
def inFloat (fmt : Nat) : FFmt := (floatFmt fmt).getD fp32

/-- The exact integer sum of 64 products. -/
def intDot (w : Nat) (x y : List Nat) : Int := ((x.zip y).map fun (a, b) => sint w a * sint w b).sum

/-- One accumulator element: an exact sum added modulo 2^32, or with one rounding. -/
def accumulate (fmt acc : Nat) (x y : List Nat) : Nat × Nat :=
  if intInput fmt then
    let v := sint 32 acc + intDot (elemBits fmt) x y
    (uint 32 v, if (satInt 32 v).2 != 0 then fIntWrap else 0)
  else
    let f := inFloat fmt
    fp32.encode (FV.sum (fp32.decode acc :: (x.zip y).map fun (a, b) => FV.mul (f.decode a) (f.decode b)))

/-- The column `c` of a weight buffer. -/
def Run.column (q : Run) (ws fmt c : Nat) : List Nat := (List.range 64).map fun k => q.weight ws fmt k c

/-- Row `r` of a tile from the values and flags of its 64 elements. -/
def tileRow (f : Nat → Nat × Nat) : BitVec 2048 × Nat :=
  let l := (List.range 64).map f
  (BitVec.ofNat 2048 (packLanes 32 (l.map (·.1))), orFlags (l.map (·.2)))

/-- Write rows of a tile. -/
def setRows (k : Nat) (rows : List (Nat × BitVec 2048)) (q : Run) : Run := rows.foldl (fun a r => Run.setT k r.1 r.2 a) q

/-- The products of input rows, for the rows that the mask selects. -/
def mmaRows (q : Run) (td ws mr fmt row : Nat) (input : List (List Nat)) : List (Nat × BitVec 2048 × Nat) :=
  ((input.zipIdx row).filter fun (_, r) => decide (r < 64) && bit (q.rm mr) r).map fun (x, r) =>
    (r, tileRow fun c => accumulate fmt (lane 32 (q.rt td r) c) x (q.column ws fmt c))

/-! ### Recurrent operators: parameters and masks (R894 to R898) -/

/-- The parameters of a step. -/
structure StepParams where
  coef : Nat → Nat
  resetLoad : Bool
  ush : Nat
  gsh : Nat
  xsh : Nat
  csh : Nat
  taps : Nat
  chans : Nat

/-- The parameters in v[VA]. -/
def stepParams (v : BitVec 2048) : StepParams :=
  let word (k : Nat) : Nat := lane 32 v k
  let t := word 37 % 32
  let taps := if t = 0 then 1 else min t 16
  let c := word 38 % 128
  { coef := fun k => lane 16 v k, resetLoad := bit (word 32) 0, ush := word 33 % 32, gsh := word 34 % 32,
    xsh := word 35 % 32, csh := word 36 % 16, taps := taps, chans := if c = 0 ∨ 64 / taps < c then 64 / taps else c }

/-- The state row that a step advances, after any reset (R896). -/
def stepState (q : Run) (td va mr : Nat) (r : Nat) : BitVec 2048 :=
  if bit (q.rm (mr + 1)) r then (if (stepParams (q.rv va)).resetLoad then q.rv (va + 1) else 0) else q.rt td r

/-- scale (R899). -/
def scaleQ (v : Int) (s : Nat) : Int × Nat := satInt 32 (rhe (v * 65536) s)

/-- A signed result in 32 bits with its flags. -/
def out32 (r : Int × Nat) (more : Nat) : Nat × Nat := (uint 32 r.1, Nat.lor r.2 more)

/-- One channel of STEP.LIN (R900, R903). `xu`, `xg`: the columns of W and Wg. -/
def stepLin (p : StepParams) (fmt : Nat) (x xu xg : List Nat) (h : Nat) : Nat × Nat :=
  if intInput fmt then
    let u := scaleQ (intDot 8 x xu) p.ush
    let g := scaleQ (intDot 8 x xg) p.gsh
    let a := min (max (32768 + rhe g.1 2) 0) 65536
    out32 (satInt 32 (rhe (a * sint 32 h + (65536 - a) * u.1) 16)) (Nat.lor u.2 g.2)
  else
    let f := inFloat fmt
    let dot (w : List Nat) : Nat × Nat :=
      fp32.encode (FV.sum ((x.zip w).map fun (a, b) => FV.mul (f.decode a) (f.decode b)))
    let u := dot xu
    let g := dot xg
    let q1 := fp32.encode (FV.mul (.fin false 1 (-2)) (fp32.decode g.1))
    let q2 := fp32.encode (FV.sum [.fin false 1 (-1), fp32.decode q1.1])
    let a := fp32.encode (FV.minMax false (FV.minMax true (fp32.decode q2.1) (.fin false 0 0)) (.fin false 1 0))
    let b := fp32.encode (FV.sum [.fin false 1 0, (fp32.decode a.1).neg])
    let bu := fp32.encode (FV.mul (fp32.decode b.1) (fp32.decode u.1))
    let r := fp32.encode (FV.fma (fp32.decode a.1) (fp32.decode h) (fp32.decode bu.1))
    (r.1, orFlags [u.2, g.2, q1.2, q2.2, a.2, b.2, bu.2, r.2])

/-- One channel of STEP.EMA (R901, R903). -/
def stepEma (p : StepParams) (fmt c x h : Nat) : Nat × Nat :=
  let k := p.coef c
  if intInput fmt then
    let xq := scaleQ (sint 8 x) p.xsh
    out32 (satInt 32 (rhe ((k : Int) * sint 32 h + (65536 - (k : Int)) * xq.1) 16)) xq.2
  else
    let bx := fp32.encode (FV.mul (.fin false (65536 - k) (-16)) ((inFloat fmt).decode x))
    let r := fp32.encode (FV.fma (.fin false k (-16)) (fp32.decode h) (fp32.decode bx.1))
    (r.1, Nat.lor bx.2 r.2)

/-- STEP.FIR of one row (R902, R903): the new state row and the new output row, and the flags. -/
def stepFir (p : StepParams) (fmt : Nat) (q : Run) (ws : Nat) (x : List Nat) (h o : BitVec 2048) :
    BitVec 2048 × BitVec 2048 × Nat :=
  let conv (j : Nat) : Nat × Nat :=
    if intInput fmt then out32 (scaleQ (sint 8 (x.getD j 0)) p.xsh) 0
    else fp32.encode ((inFloat fmt).decode (x.getD j 0))
  let used := p.chans * p.taps
  let state (c : Nat) : Nat :=
    if used ≤ c then lane 32 h c else if c % p.taps = 0 then (conv (c / p.taps)).1 else lane 32 h (c - 1)
  let y (j : Nat) : Nat × Nat :=
    let ks := List.range p.taps
    if intInput fmt then
      let s := (ks.map fun k => sint 8 (q.weight ws fmt j k) * sint 32 (state (j * p.taps + k))).sum
      out32 (satInt 32 (rhe s p.csh)) 0
    else
      fp32.encode (FV.sum (ks.map fun k =>
        FV.mul ((inFloat fmt).decode (q.weight ws fmt j k)) (fp32.decode (state (j * p.taps + k)))))
  let js := List.range p.chans
  (mkLanes 2048 32 state, mkLanes 2048 32 fun j => if j < p.chans then (y j).1 else lane 32 o j,
   orFlags (js.map fun j => Nat.lor (conv j).2 (y j).2))

/-- The rows of a step that the update mask selects, with their inputs. -/
def stepRows (q : Run) (mr row : Nat) (input : List (List Nat)) : List (List Nat × Nat) :=
  (input.zipIdx row).filter fun (_, r) => decide (r < 64) && bit (q.rm mr) r

/-- The reset mask after a step (R897). -/
def clearResets (q : Run) (mr : Nat) (rows : List Nat) : Nat :=
  bitsOf 64 fun r => bit (q.rm (mr + 1)) r && !rows.contains r

/-- A STEP operation with its input rows. -/
def stepField (q : Run) (o td ts ws va mr fmt row : Nat) (input : List (List Nat)) : FieldEff :=
  let p := stepParams (q.rv va)
  let rows := stepRows q mr row input
  let masks := clearResets q mr (rows.map (·.2))
  if o = 0x22 then
    let out := rows.map fun (x, r) => (r, stepFir p fmt q ws x (stepState q td va mr r) (q.rt ts r))
    { regs := fun a => (setRows ts (out.map fun e => (e.1, e.2.2.1)) (setRows td (out.map fun e => (e.1, e.2.1)) a)).setM
        (mr + 1) masks,
      flags := orFlags (out.map fun e => e.2.2.2) }
  else
    let one (x : List Nat) (h : BitVec 2048) (c : Nat) : Nat × Nat :=
      if o = 0x20 then stepLin p fmt x (q.column ws fmt c) (q.column (ws + 1) fmt c) (lane 32 h c)
      else stepEma p fmt c (x.getD c 0) (lane 32 h c)
    let out := rows.map fun (x, r) => (r, tileRow (one x (stepState q td va mr r)))
    { regs := fun a => (setRows td (out.map fun e => (e.1, e.2.1)) a).setM (mr + 1) masks,
      flags := orFlags (out.map fun e => e.2.2) }

/-! ### Parking (R904 to R907) -/

/-- A slot's address faults: its 256 bytes must lie in the local or the Creel data segment, and be aligned. -/
def slotFaults (m : Space) (a : Nat) : List Nat :=
  let ok := match m.seg a, m.seg (a + 255) with
    | some (.local_, _), some (.local_, _) => true
    | some (.creel, _), some (.creel, _) => true
    | _, _ => false
  (if ok then [] else [exAccess]) ++ (if a % 256 = 0 then [] else [exMisaligned])

/-- PARK and UNPARK. -/
def parkField (q : Run) (e : LibEntry) (o td va mr row count addr : Nat) : FieldEff :=
  let rows := (List.range count).map (row + ·) |>.filter fun r => decide (r < 64) && bit (q.rm mr) r
  let slot (r : Nat) : Nat := (addr + 256 * lane 32 (q.rv va) r) % 2 ^ 64
  let fl := rows.flatMap fun r => slotFaults (q.space e) (slot r)
  if !fl.isEmpty then .raise fl
  else if o = 0x28 then { stores := rows.map fun r => (slot r, leBytes 256 (q.rt td r).toNat) }
  else
    { regs := setRows td (rows.map fun r => (r, BitVec.ofNat 2048 (leVal (q.bytesAt e (slot r) 256)))),
      reads := rows.map fun r => (slot r, 256) }

/-! ### The field -/

/-- A matrix field, reading the run as it stood before the word. -/
def matrixField (q : Run) (e : LibEntry) (f : Nat) : FieldEff :=
  let o := opc f
  let td := bitsAt f 8 3
  let ts := bitsAt f 11 3
  let ws := bitsAt f 14 2
  let va := bitsAt f 16 5
  let mr := bitsAt f 21 3
  let fmt := bitsAt f 24 4
  let addr := effAddr (q.rx (bitsAt f 28 5)) (bitsAt f 64 32)
  let row := bitsAt f 33 6
  let count := bitsAt f 39 7
  let m := q.space e
  let size := 8 * elemBits fmt * count
  let inFaults := accessFaults m.readable addr size 64
  let rows := (List.range count).map (row + ·) |>.filter fun r => bit (q.rm mr) r
  let rowAddr (r : Nat) : Nat := (addr + 256 * (r - row)) % 2 ^ 64
  if o = 0 then .idle
  else if o = 0x01 then
    if !inFaults.isEmpty then .raise inFaults
    else
      let l := (q.inputRows e fmt addr count).zipIdx row
      { regs := fun a => l.foldl (fun b (x, r) => Run.setW ws r (BitVec.ofNat 1024 (packLanes 16 x)) b) a, reads := [(addr, size)] }
  else if o = 0x08 then
    if !inFaults.isEmpty then .raise inFaults
    else
      let out := mmaRows q td ws mr fmt row (q.inputRows e fmt addr count)
      { regs := setRows td (out.map fun x => (x.1, x.2.1)), flags := orFlags (out.map fun x => x.2.2), reads := [(addr, size)] }
  else if o = 0x09 then
    let out := mmaRows q td ws mr fmt row (vecRows fmt (q.rv va))
    { regs := setRows td (out.map fun x => (x.1, x.2.1)), flags := orFlags (out.map fun x => x.2.2) }
  else if o = 0x10 then
    { regs := setRows td (((List.range 64).filter (bit (q.rm mr))).map fun r => (r, 0)) }
  else if o = 0x11 then
    let fl := (if addr % 64 = 0 then [] else [exMisaligned]) ++ rows.flatMap fun r => accessFaults m.readable (rowAddr r) 256 64
    if !fl.isEmpty then .raise fl
    else
      { regs := setRows td (rows.map fun r => (r, BitVec.ofNat 2048 (leVal (q.bytesAt e (rowAddr r) 256)))),
        reads := rows.map fun r => (rowAddr r, 256) }
  else if o = 0x12 then
    let fl := (if addr % 64 = 0 then [] else [exMisaligned]) ++ rows.flatMap fun r => accessFaults m.writable (rowAddr r) 256 64
    if !fl.isEmpty then .raise fl else { stores := rows.map fun r => (rowAddr r, leBytes 256 (q.rt td r).toNat) }
  else if o = 0x13 then
    { regs := setRows td (((List.range 64).filter (bit (q.rm mr))).map fun r => (r, q.rt ts r)) }
  else if o = 0x28 ∨ o = 0x29 then parkField q e o td va mr row count addr
  else
    if !inFaults.isEmpty then .raise inFaults
    else { stepField q o td ts ws va mr fmt row (q.inputRows e fmt addr count) with reads := [(addr, size)] }

end Sys2Proof.Machine
end

