-- ==== Sys2Proof/Machine/OsierScalar.lean ====
section
/-!
DEFINITION. The scalar and address fields of an instruction word (spec/16 R850 to R859), and the run-state items.
-/

namespace Sys2Proof.Machine

open Sys2Proof

/-! ### Scalar operations (R851) -/

/-- What a run can read of itself beyond its registers: NOW. -/
structure RunEnv where
  now : Nat

/-- The result of the two-operand operations 0x01 to 0x0E, and of their immediate forms by the same number. -/
def scalarAlu (o a b : Nat) : Nat :=
  if o = 0x01 then a + b
  else if o = 0x02 then uint 64 ((a : Int) - b)
  else if o = 0x03 then Nat.land a b
  else if o = 0x04 then Nat.lor a b
  else if o = 0x05 then Nat.xor a b
  else if o = 0x06 then a * 2 ^ (b % 64)
  else if o = 0x07 then a / 2 ^ (b % 64)
  else if o = 0x08 then uint 64 (sint 64 a / (2 ^ (b % 64) : Int))
  else if o = 0x09 then a * b
  else if o = 0x0A then a * b / 2 ^ 64
  else if o = 0x0B then (if sint 64 a ≤ sint 64 b then a else b)
  else if o = 0x0C then (if sint 64 a ≤ sint 64 b then b else a)
  else if o = 0x0D then min a b
  else max a b

/-- The immediate operations by the number of their two-operand form. -/
def immAlu (o : Nat) : Nat :=
  if o = 0x10 then 0x01 else if o = 0x11 then 0x03 else if o = 0x12 then 0x04 else if o = 0x13 then 0x05
  else if o = 0x14 then 0x06 else if o = 0x15 then 0x07 else 0x08

/-- The comparison of number k: EQ, NE, LT, LTU, GE, GEU. -/
def scalarCmp (k a b : Nat) : Bool :=
  if k = 0 then a == b else if k = 1 then a != b
  else if k = 2 then decide (sint 64 a < sint 64 b) else if k = 3 then decide (a < b)
  else if k = 4 then decide (sint 64 b ≤ sint 64 a) else decide (b ≤ a)

/-- A predicate of one value (R852). -/
def predAll (b : Bool) : BitVec 256 := if b then BitVec.allOnes 256 else 0

/-- A run-state item (R853); a coding run reads 0 for CYCLE, NOW, IN_LOST and RUN_ID (R921). -/
def Run.item (q : Run) (env : RunEnv) (k : Nat) : Nat :=
  if q.role = 1 ∧ (k = 0 ∨ k = 1 ∨ k = 4 ∨ k = 5) then 0
  else if k = 0 then q.cycle.toNat else if k = 1 then env.now else if k = 2 then q.inHead.toNat
  else if k = 3 then q.inTail.toNat else if k = 4 then q.inLost.toNat else if k = 5 then q.id.toNat
  else q.flags.toNat

/-- WRS (R854): FLAGS, or IN_TAIL clamped between its present value and IN_HEAD. -/
def Run.setItem (k v : Nat) (old : Run) (q : Run) : Run :=
  if k = 6 then { q with flags := BitVec.ofNat 64 (v % 64) }
  else
    let t := if old.inHead.toNat < v then old.inHead else if v < old.inTail.toNat then old.inTail else BitVec.ofNat 64 v
    { q with inTail := t }

/-- A scalar field, reading the run as it stood before the word. -/
def scalarField (q : Run) (env : RunEnv) (f : Nat) : FieldEff :=
  let o := opc f
  let rd := bitsAt f 8 5
  let a := q.rx (bitsAt f 13 5)
  let b := q.rx (bitsAt f 18 5)
  let pd := bitsAt f 23 3
  let pa := q.rp (bitsAt f 13 3)
  let pb := q.rp (bitsAt f 18 3)
  let imm := imm32 f
  let sx := uint 64 (sint 32 imm)
  let wx (v : Nat) : FieldEff := { regs := Run.setX rd v }
  let wp (v : BitVec 256) : FieldEff := { regs := Run.setP pd v }
  if 0x01 ≤ o ∧ o ≤ 0x0E then wx (scalarAlu o a b)
  else if 0x10 ≤ o ∧ o ≤ 0x16 then wx (scalarAlu (immAlu o) a sx)
  else if o = 0x17 then wx sx
  else if o = 0x18 then wx (imm * 2 ^ 32 + a % 2 ^ 32)
  else if 0x20 ≤ o ∧ o ≤ 0x25 then wp (predAll (scalarCmp (o - 0x20) a b))
  else if 0x28 ≤ o ∧ o ≤ 0x2D then wp (predAll (scalarCmp (o - 0x28) a sx))
  else if o = 0x30 then wx (if (q.rp (bitsAt f 26 3)).getLsbD 0 then a else b)
  else if o = 0x31 then wp (pa &&& pb)
  else if o = 0x32 then wp (pa ||| pb)
  else if o = 0x33 then wp (pa ^^^ pb)
  else if o = 0x34 then wp (~~~pa)
  else if o = 0x35 then wp (BitVec.ofNat 256 (2 ^ (min a 256) - 1))
  else if o = 0x38 then wx (q.item env imm)
  else if o = 0x39 then { regs := Run.setItem imm a q }
  else .idle

/-! ### Address operations (R856 to R859) -/

/-- Bytes of a scalar access: LD.B to LD.D, LDS.B to LDS.W, ST.B to ST.D. -/
def accessBytes (o : Nat) : Nat :=
  if o ≤ 4 then 2 ^ (o - 1) else if o ≤ 7 then 2 ^ (o - 5) else 2 ^ (o - 9)

/-- An address field. -/
def addressField (q : Run) (e : LibEntry) (f : Nat) : FieldEff :=
  let o := opc f
  let rd := bitsAt f 8 5
  let ea := effAddr (q.rx (bitsAt f 13 5)) (imm32 f)
  let pg := q.rp (bitsAt f 18 3)
  let m := q.space e
  if o = 0 then .idle
  else if o = 0x10 ∨ o = 0x11 then
    let active := (List.range 256).filter fun i => pg.getLsbD i
    if active.isEmpty then .idle
    else
      let fl := accessFaults (if o = 0x10 then m.readable else m.writable) ea 256 64
      if !fl.isEmpty then .raise fl
      else if o = 0x10 then
        { regs := Run.setLanes rd 8 pg.getLsbD (fun i => (q.byteAt e (ea + i)).toNat), reads := [(ea, 256)] }
      else { stores := active.map fun i => ((ea + i) % 2 ^ 64, [BitVec.ofNat 8 (lane 8 (q.rv rd) i)]) }
  else if !pg.getLsbD 0 then .idle
  else
    let n := accessBytes o
    if o ≤ 7 then
      let fl := accessFaults m.readable ea n n
      if !fl.isEmpty then .raise fl
      else
        let v := leVal (q.bytesAt e ea n)
        { regs := Run.setX rd (if 5 ≤ o then uint 64 (sint (8 * n) v) else v), reads := [(ea, n)] }
    else
      let fl := accessFaults m.writable ea n n
      if !fl.isEmpty then .raise fl else { stores := [(ea, leBytes n (q.rx rd))] }

end Sys2Proof.Machine
end

