-- ==== Sys2Proof/Machine/OsierMove.lean ====
section
/-!
DEFINITION. The move and control fields of an instruction word, and the whole word (spec/15 R785, R804 to R806, spec/16
R871 to R882).
-/

namespace Sys2Proof.Machine

open Sys2Proof

/-! ### Move field (R872, R873) -/

/-- A move field. -/
def moveField (q : Run) (e : LibEntry) (f : Nat) : FieldEff :=
  let o := opc f
  let d := bitsAt f 8 5
  let k := bitsAt f 13 5
  let idx := bitsAt f 18 8
  let wc := bitsAt f 26 2
  let w := 8 * 2 ^ wc
  let t := bitsAt f 28 3
  let n := 64 * (bitsAt f 36 6 + 1)
  if o = 0x01 then { regs := Run.setX d (q.rx k) }
  else if o = 0x02 then { regs := Run.setP (d % 8) (q.rp (k % 8)) }
  else if o = 0x03 then { regs := Run.setV d (q.rv k) }
  else if o = 0x08 then { regs := Run.setX d (lane w (q.rv k) idx) }
  else if o = 0x09 then { regs := Run.setX d (uint 64 (sint w (lane w (q.rv k) idx))) }
  else if o = 0x0A then
    { regs := Run.setLanes d w (· == idx) (fun _ => q.rx k % 2 ^ w) }
  else if o = 0x10 then { regs := Run.setV d (q.rt t idx) }
  else if o = 0x11 then { regs := Run.setT t idx (q.rv k) }
  else if o = 0x12 then { regs := Run.setW t idx (mkLanes 1024 16 fun c => lane w (q.rv k) c) }
  else if o = 0x18 then { regs := Run.setX d (q.rm t) }
  else if o = 0x19 then { regs := Run.setM t (q.rx k) }
  else if o = 0x20 then
    let src := q.rx k
    let dst := q.rx d
    let m := q.space e
    let fl := accessFaults m.readable src n 64 ++ accessFaults m.writable dst n 64
    if !fl.isEmpty then .raise fl else { stores := [(dst, q.bytesAt e src n)], reads := [(src, n)] }
  else .idle

/-! ### Control field (R874 to R880) -/

/-- What the control field asks for beyond its registers. -/
inductive CtlAct
  | next
  | jump (pc : Nat)
  | yield
  | waitInput
  | sleep (until_ : Nat)
  | finish
  | brk
  | post (bytes : List Byte)
  | postPred (score : Nat)
  | scanReset
  /-- A shift: into the instruction register or the data register; buffer address and bit count. -/
  | scan (ir : Bool) (addr bits : Nat)
  | scanIdle (cycles : Nat)

/-- The condition of a control field (R849). -/
def ctlCond (q : Run) (f : Nat) : Bool := (q.rp (bitsAt f 8 3)).getLsbD 0 != bit f 11

/-- The bytes of a bit count. -/
def scanBytes (bits : Nat) : Nat := ceilDiv bits 8

/-- Every byte of a range lies in the local segment; a range of none does. -/
def inLocal (e : LibEntry) (a n : Nat) : Bool := n == 0 || decide (a + n ≤ 1024 * e.localKib)

/-- A control field: what it asks for, and its effect on registers. -/
def controlField (q : Run) (e : LibEntry) (f : Nat) : CtlAct × FieldEff :=
  let o := opc f
  let xa := q.rx (bitsAt f 12 5)
  let xb := q.rx (bitsAt f 17 5)
  let imm := imm32 f
  let pc := q.pc.toNat
  let target := uint 64 ((pc : Int) + 64 * sint 32 imm)
  if o = 0 ∨ !ctlCond q f then (.next, .idle)
  else if o = 0x01 then (.jump target, .idle)
  else if o = 0x02 then (.jump xa, .idle)
  else if o = 0x03 then (.jump target, { regs := Run.setX (bitsAt f 17 5) (pc + 64) })
  else if o = 0x08 then (.yield, .idle)
  else if o = 0x09 then (.waitInput, .idle)
  else if o = 0x0A then (.sleep xa, .idle)
  else if o = 0x0B then (.finish, .idle)
  else if o = 0x0C then (.brk, .raise [exBreak])
  else if o = 0x10 then
    let fl := (if inLocal e xa imm then [] else [exAccess]) ++ (if xa % 8 = 0 then [] else [exMisaligned])
    if fl.isEmpty then (.post (q.bytesAt e xa imm), { reads := [(xa, imm)] }) else (.next, .raise fl)
  else if o = 0x11 then (.postPred (xa % 65536), .idle)
  else if o = 0x20 then (.scanReset, .idle)
  else if o = 0x21 ∨ o = 0x22 then
    if 1 ≤ xb ∧ xb ≤ 32768 ∧ inLocal e xa (scanBytes xb) then (.scan (o == 0x21) xa xb, { reads := [(xa, scanBytes xb)] })
    else (.next, .raise [exAccess])
  else if o = 0x23 then (.scanIdle imm, .idle)
  else (.next, .idle)

/-- The next program counter, and FETCH where it is no word of the code area (R880). END and BRK end the run: no word
follows them. -/
def nextPc (q : Run) (e : LibEntry) (a : CtlAct) : Nat × List Nat :=
  let lo := imageBase + e.codeOff
  let hi := lo + e.codeLen
  let check (pc : Nat) : Nat × List Nat :=
    (pc, if lo ≤ pc ∧ pc < hi ∧ pc % 64 = 0 then [] else [exFetch])
  match a with
  | .jump pc => check pc
  | .finish => (q.pc.toNat + 64, [])
  | .brk => (q.pc.toNat + 64, [])
  | _ => check (q.pc.toNat + 64)

/-! ### The whole word -/

/-- What a word does: the lowest cause it raises, or the run after it, the bytes for host memory by offset in the
window, and what its control field asks for. -/
inductive WordEff
  | raised (cause : Nat)
  | ran (q : Run) (host : List (Nat × List Byte)) (act : CtlAct)

/-- Contiguous stores joined: a list of address and bytes in order. -/
def joinStores : List (Nat × List Byte) → List (Nat × List Byte)
  | [] => []
  | (a, b) :: rest =>
    match joinStores rest with
    | (c, d) :: more => if a + b.length = c then (a, b ++ d) :: more else (a, b) :: (c, d) :: more
    | [] => [(a, b)]

/-- The fields of a word but the control field, each on the state before the word. -/
def wordFields (q : Run) (e : LibEntry) (env : RunEnv) (w : Nat) : List FieldEff :=
  [scalarField q env (wordScalarA w), scalarField q env (wordScalarB w), addressField q e (wordAddress w),
    vectorField q (wordVector w), matrixField q e (wordMatrix w), moveField q e (wordMove w)]

/-- A word reads an address that `at_` selects. -/
def readsAt (at_ : Nat → Bool) (q : Run) (e : LibEntry) (env : RunEnv) (w : Nat) : Bool :=
  (wordFields q e env w ++ [(controlField q e (wordControl w)).2]).any fun x => x.reads.any fun r => r.2 != 0 && at_ r.1

/-- A word reads its run's local segment. -/
def readsLocal (q : Run) (e : LibEntry) : RunEnv → Nat → Bool := readsAt (fun a => decide (a < 1024 * e.localKib)) q e

/-- A word reads its run's image, Creel-data or input segment, which lie in the Creel. -/
def readsCreel : Run → LibEntry → RunEnv → Nat → Bool := readsAt fun a => decide (imageBase ≤ a) && decide (a < hostBase)

/-- The addresses of the uncorrectable words of what a run reads in the Creel: of its library entry, and of its own
segments. -/
def Run.badWords (q : Run) (e : LibEntry) : List Nat := e.bad.map (imageBase + ·) ++ q.bad

/-- A word reads one of those words. -/
def readsBad (q : Run) (e : LibEntry) (env : RunEnv) (w : Nat) : Bool :=
  (wordFields q e env w ++ [(controlField q e (wordControl w)).2]).any fun x => x.reads.any fun r =>
    (q.badWords e).any fun b => decide (r.1 < b + 8) && decide (b < r.1 + r.2)

/-- The instruction word at the program counter holds one of those words. -/
def fetchesBad (q : Run) (e : LibEntry) : Bool :=
  (q.badWords e).any fun b => decide (q.pc.toNat < b + 8) && decide (b < q.pc.toNat + 64)

/-- What a word stores to its run's Creel-data segment: address and length. -/
def creelStores (q : Run) (e : LibEntry) (env : RunEnv) (w : Nat) : List (Nat × Nat) :=
  (((wordFields q e env w).flatMap (·.stores)).filter fun s => decide (creelBase ≤ s.1) && decide (s.1 < inputBase)).map
    fun s => (s.1, s.2.length)

/-- Execute the fields of a word: every field reads the state before it; effects in bit order, the control field last
(R785, R855, R882). `poison`: a word that a field reads fails SECDED. `tdo`: the bits
captured by a scan shift. -/
def runWord (q : Run) (e : LibEntry) (env : RunEnv) (w : Nat) (poison : Bool) (tdo : List Bool) : WordEff :=
  let fields := wordFields q e env w
  let (act, ctl) := controlField q e (wordControl w)
  let (pc, fetch) := nextPc q e act
  let all := fields ++ [ctl]
  let causes := all.flatMap (·.faults) ++ fetch ++ (if poison then [exPoison] else [])
  match causes with
  | c :: cs => .raised (cs.foldl min c)
  | [] =>
    let shift : List (Nat × List Byte) := match act with
      | .scan _ a n => [(a, (List.range (scanBytes n)).map fun i =>
          BitVec.ofNat 8 (bitsOf 8 fun k =>
            if 8 * i + k < n then tdo.getD (8 * i + k) false else (q.byteAt e (a + i)).getLsbD k))]
      | _ => []
    let stores := (all.flatMap (·.stores)) ++ shift
    let q1 := all.foldl (fun a x => x.regs a) q
    let q2 := stores.foldl (fun a (s : Nat × List Byte) =>
      (s.2.zipIdx).foldl (fun b (x, i) => Run.storeByte e (s.1 + i) x b) a) q1
    let fl := orFlags (all.map (·.flags))
    let host := (joinStores (stores.filter fun s => decide (hostBase ≤ s.1) && (q.space e).writable s.1)).map fun s =>
      (s.1 - hostBase, s.2)
    .ran { q2 with pc := BitVec.ofNat 64 pc, flags := q2.flags ||| BitVec.ofNat 64 fl } host act

end Sys2Proof.Machine
end

