-- ==== Sys2Proof/Machine/Crypto.lean ====
section
/-!
DEFINITION. The check codes and the cryptography that the spec names: CRC-32C (R190), CRC-16 (R387), SHA-384 and ECDSA
over P-384 (R181, R182, R206, R207; FIPS 180-4 and FIPS 186-5 are cited by the spec, log entry 5).
-/

namespace Sys2Proof.Machine

/-! ### CRC -/

/-- One bit of the reflected Castagnoli CRC (R190): 0x82F6_3B78 is 0x1EDC_6F41 reflected. -/
def crc32Bit (c : BitVec 32) : BitVec 32 :=
  if c.getLsbD 0 then (c >>> 1) ^^^ 0x82F63B78 else c >>> 1

/-- One byte of the CRC. -/
def crc32Byte (c : BitVec 32) (b : Byte) : BitVec 32 :=
  crc32Bit (crc32Bit (crc32Bit (crc32Bit (crc32Bit (crc32Bit (crc32Bit (crc32Bit (c ^^^ b.setWidth 32))))))))

/-- CRC-32C of a byte string (R190). -/
def crc32c (l : List Byte) : BitVec 32 := (l.foldl crc32Byte 0xFFFFFFFF) ^^^ 0xFFFFFFFF

/-- One bit of the CRC-16 of R387, unreflected. -/
def crc16Bit (c : BitVec 16) : BitVec 16 :=
  if c.getLsbD 15 then (c <<< 1) ^^^ 0x1021 else c <<< 1

/-- One byte of the CRC-16, most significant bit first. -/
def crc16Byte (c : BitVec 16) (b : Byte) : BitVec 16 :=
  crc16Bit (crc16Bit (crc16Bit (crc16Bit (crc16Bit (crc16Bit (crc16Bit (crc16Bit
    (c ^^^ (b.setWidth 16 <<< 8)))))))))

/-- CRC-16 of a byte string: initial value 0xFFFF, no final exclusive-OR (R387). -/
def crc16 (l : List Byte) : BitVec 16 := l.foldl crc16Byte 0xFFFF

/-! ### SHA-384 -/

/-- The largest number below `r + 2 ^ b` that starts from `r` and whose `k`-th power is at most `n`, for `b` bits to find. -/
def rootBits (k n : Nat) : Nat → Nat → Nat
  | 0, r => r
  | b + 1, r => rootBits k n b (if (r + 2 ^ b) ^ k ≤ n then r + 2 ^ b else r)

/-- The first 64 bits of the fractional part of the `k`-th root of a number below 512. -/
def rootFraction (k p : Nat) : W64 := BitVec.ofNat 64 (rootBits k (p * 2 ^ (64 * k)) 69 0)

/-- The first 80 primes, 2 to 409. -/
def shaPrimes : List Nat :=
  (List.range 410).filter fun n => decide (2 ≤ n) && ((List.range 21).all fun d => d < 2 || n ≤ d || n % d != 0)

/-- The 80 round constants: the fractions of the cube roots of the first 80 primes. PRESUMED, log entry 5. -/
def shaK : List W64 := shaPrimes.map (rootFraction 3)

/-- The eight working words. -/
structure Sha where
  a : W64
  b : W64
  c : W64
  d : W64
  e : W64
  f : W64
  g : W64
  h : W64

/-- Initial value of SHA-384: the fractions of the square roots of the ninth to the sixteenth prime. PRESUMED, log entry
5. -/
def Sha.init : Sha :=
  let r i := rootFraction 2 (shaPrimes.getD i 0)
  { a := r 8, b := r 9, c := r 10, d := r 11, e := r 12, f := r 13, g := r 14, h := r 15 }

/-- One round. -/
def Sha.round (s : Sha) (k w : W64) : Sha :=
  let s1 := s.e.rotateRight 14 ^^^ s.e.rotateRight 18 ^^^ s.e.rotateRight 41
  let ch := (s.e &&& s.f) ^^^ (~~~s.e &&& s.g)
  let t1 := s.h + s1 + ch + k + w
  let s0 := s.a.rotateRight 28 ^^^ s.a.rotateRight 34 ^^^ s.a.rotateRight 39
  let mj := (s.a &&& s.b) ^^^ (s.a &&& s.c) ^^^ (s.b &&& s.c)
  ⟨t1 + s0 + mj, s.a, s.b, s.c, s.d + t1, s.e, s.f, s.g⟩

/-- The next schedule word from the last 16, newest first. -/
def shaNext (l : List W64) : W64 :=
  let x := l.getD 1 0
  let y := l.getD 14 0
  (x.rotateRight 19 ^^^ x.rotateRight 61 ^^^ (x >>> 6)) + l.getD 6 0 +
    (y.rotateRight 1 ^^^ y.rotateRight 8 ^^^ (y >>> 7)) + l.getD 15 0

/-- The rounds over the constants left; `l` holds the last 16 schedule words, newest first, `w` those not yet used. -/
def shaRounds : List W64 → List W64 → List W64 → Sha → Sha
  | [], _, _, s => s
  | k :: ks, w :: ws, l, s => shaRounds ks ws l (s.round k w)
  | k :: ks, [], l, s =>
    let n := shaNext l
    shaRounds ks [] (n :: l.take 15) (s.round k n)

/-- One block of 16 words. -/
def Sha.block (s : Sha) (w : List W64) : Sha :=
  let r := shaRounds shaK w w.reverse s
  ⟨s.a + r.a, s.b + r.b, s.c + r.c, s.d + r.d, s.e + r.e, s.f + r.f, s.g + r.g, s.h + r.h⟩

/-- The big-endian words of a block of 128 bytes. -/
def shaWords (l : List Byte) : List W64 :=
  (List.range 16).map fun i => BitVec.ofNat 64 (beVal (slice l (8 * i) 8))

/-- The blocks of a padded message. -/
def shaBlocks : Nat → List Byte → Sha → Sha
  | 0, _, s => s
  | n + 1, l, s => shaBlocks n (l.drop 128) (s.block (shaWords (l.take 128)))

/-- SHA-384 of a byte string: 48 bytes. PRESUMED, log entry 5. -/
def sha384 (l : List Byte) : List Byte :=
  let z := (239 - l.length % 128) % 128
  let m := l ++ (0x80 : Byte) :: zeros z ++ beBytes 16 (8 * l.length)
  let s := shaBlocks (m.length / 128) m Sha.init
  beBytes 8 s.a.toNat ++ beBytes 8 s.b.toNat ++ beBytes 8 s.c.toNat ++ beBytes 8 s.d.toNat ++
    beBytes 8 s.e.toNat ++ beBytes 8 s.f.toNat

/-! ### ECDSA over P-384 -/

/-- The prime of P-384. PRESUMED, log entry 5. -/
def ecP : Nat := 2 ^ 384 - 2 ^ 128 - 2 ^ 96 + 2 ^ 32 - 1
/-- The order of the base point. -/
def ecN : Nat :=
  0xffffffffffffffffffffffffffffffffffffffffffffffffc7634d81f4372ddf581a0db248b0a77aecec196accc52973
/-- The coefficient b of the curve; the coefficient a is -3. -/
def ecB : Nat :=
  0xb3312fa7e23ee7e4988e056be3f82d19181d9c6efe8141120314088f5013875ac656398d8a2ed19d2a85c8edd3ec2aef
/-- The base point. -/
def ecG : Option (Nat × Nat) := some
  (0xaa87ca22be8b05378eb1c71ef320ad746e1d3b628ba79b9859f741e082542a385502f25dbf55296c3a545e3872760ab7,
   0x3617de4a96262c6f5d9e98bf9292dc29f8f41dbd289a147ce9da3113b5f0b8c00a60b1ce1d7e819d7a431d7c90ea0e5f)

/-- `b` to the power of an exponent of `n` bits, modulo `m`. -/
def powMod (m : Nat) : Nat → Nat → Nat → Nat
  | 0, _, _ => 1 % m
  | n + 1, b, e =>
    let r := powMod m n (b * b % m) (e / 2)
    if e % 2 = 1 then r * b % m else r

/-- The inverse modulo a prime below 2^384. -/
def invMod (m a : Nat) : Nat := powMod m 384 (a % m) (m - 2)

/-- The sum of two points; none is the point at infinity. -/
def ecAdd (p q : Option (Nat × Nat)) : Option (Nat × Nat) :=
  match p, q with
  | none, q => q
  | p, none => p
  | some (x1, y1), some (x2, y2) =>
    if x1 = x2 ∧ (y1 + y2) % ecP = 0 then none
    else
      let l := if x1 = x2 then (3 * x1 * x1 + ecP - 3) * invMod ecP (2 * y1) % ecP
               else (y2 + ecP - y1) * invMod ecP (x2 + ecP - x1) % ecP
      let x3 := (l * l + 2 * ecP - x1 - x2) % ecP
      some (x3, (l * (x1 + ecP - x3) + ecP - y1) % ecP)

/-- A multiple of a point, for a factor of `n` bits. -/
def ecMul : Nat → Nat → Option (Nat × Nat) → Option (Nat × Nat)
  | 0, _, _ => none
  | n + 1, k, p =>
    let r := ecMul n (k / 2) (ecAdd p p)
    if k % 2 = 1 then ecAdd p r else r

/-- ECDSA P-384 verification (FIPS 186-5): `key` is 0x04, X, Y (97 bytes), `sig` is r, s (96 bytes), all big-endian
(R181, R206); `hash` is the SHA-384 hash. -/
def ecdsaVerify (key sig hash : List Byte) : Bool :=
  let x := beVal (slice key 1 48)
  let y := beVal (slice key 49 48)
  let r := beVal (slice sig 0 48)
  let s := beVal (slice sig 48 48)
  let e := beVal hash
  if field key 0 1 = 4 ∧ x < ecP ∧ y < ecP ∧ y * y % ecP = (x * x * x + (ecP - 3) * x + ecB) % ecP ∧
      1 ≤ r ∧ r < ecN ∧ 1 ≤ s ∧ s < ecN then
    let w := invMod ecN s
    match ecAdd (ecMul 384 (e * w % ecN) ecG) (ecMul 384 (r * w % ecN) (some (x, y))) with
    | none => false
    | some (x1, _) => x1 % ecN == r
  else false

end Sys2Proof.Machine
end

