-- ==== Sys2Proof/Machine/Trace.lean ====
section
/-!
DEFINITION. The trace pipeline: records, routing, DRAM blocks, the port stream with its tiers, gaps and frames
(spec/13), and the exchange that the coder posts (spec/18).
-/

namespace Sys2Proof.Machine

open Sys2Proof

/-! ### Records (R697) -/

/-- A record that a hub block writes now. -/
def hubRec (cls p : Nat) (payload : List Byte) (s : State) : TraceRec :=
  { cls := cls, dieTime := false, partition := p, ts := s.now, payload := padTo 8 payload, spilled := false }

/-- LENGTH of a record. -/
def TraceRec.len (r : TraceRec) : Nat := 16 + r.payload.length

/-- The bytes of a record. -/
def TraceRec.bytes (r : TraceRec) : List Byte :=
  [BitVec.ofNat 8 r.cls, BitVec.ofNat 8 (b2n r.dieTime)] ++ leBytes 2 r.len ++ [BitVec.ofNat 8 r.partition, 0, 0, 0] ++
    leBytes 8 r.ts.toNat ++ r.payload

/-- DEST of a class in a routing: bit 0 the port, bit 1 DRAM (R703). -/
def destIn (routes : List Byte) (cls : Nat) : Nat := (routes.getD (cls - 1) 0).toNat % 4

/-- DEST of a record: by its TIMESTAMP under the routing before or after the latest switch (R704, R706). -/
def State.dest (s : State) (r : TraceRec) : Nat :=
  let x := s.part r.partition
  destIn (if r.ts.toNat ≤ x.switchTs.toNat then x.oldRoutes else x.routes) r.cls

/-- The partition routes some class to the port. ROUTE_14 is ignored (R704). -/
def State.hasPortStream (s : State) (p : Nat) : Bool :=
  (s.part p).routes.zipIdx.any fun (b, k) => k != 13 && b.getLsbD 0

/-- The payload of a LOSS record; `opened`: still counting (R734). -/
def lossPayload (count cause dest port : Nat) (first last : W64) (bytes unit : Nat) (opened : Bool) : List Byte :=
  leBytes 4 (sat 0xFFFFFFFF count) ++
    [BitVec.ofNat 8 cause, BitVec.ofNat 8 dest, BitVec.ofNat 8 port, BitVec.ofNat 8 (b2n opened)] ++
    leBytes 8 first.toNat ++ leBytes 8 last.toNat ++ leBytes 4 (sat 0xFFFFFFFF bytes) ++ leBytes 2 unit ++ [0, 0]

/-- A LOSS record that no longer counts. -/
def lossRec (p count cause dest port : Nat) (first last : W64) (bytes unit : Nat) (s : State) : TraceRec :=
  hubRec 0x0E p (lossPayload count cause dest port first last bytes unit false) s

/-! ### Blocks of the DRAM region (R717) -/

/-- Bytes of records in a block. -/
def Block.used (b : Block) : Nat := (b.recs.map TraceRec.len).sum

/-- Body bytes a block holds. -/
def blockBody : Nat := 65536 - 64

/-- The 65,536 bytes of a block (R717). -/
def Block.bytes (b : Block) : List Byte :=
  let body := b.recs.flatMap TraceRec.bytes
  let last := b.recs.foldl (fun m r => max m r.ts.toNat) 0
  slice (leBytes 4 0x4B4C4254 ++ [1, b.bkind, BitVec.ofNat 8 b.partition, BitVec.ofNat 8 (b2n b.lossOpen)] ++
    leBytes 4 b.seq.toNat ++ leBytes 4 body.length ++ leBytes 8 ((b.recs.head?.map fun r => r.ts.toNat).getD 0) ++
    leBytes 8 last ++ leBytes 4 b.recs.length ++ leBytes 4 (crc32c body).toNat ++ zeros 24 ++ body) 0 65536

/-- Reserve blocks that hold an open LOSS record (R719). -/
def State.reservesUsed (s : State) : Nat := ((List.range 64).map fun p => b2n (s.part p).reserve.isSome).sum

/-- Blocks of the region that hold something. -/
def State.blocksUsed (s : State) : Nat :=
  ((List.range 64).map fun p => (s.part p).blocks.length + (s.part p).spill.length).sum + s.reservesUsed

/-- The trace region is present: external memory is trained (R715) and the warp gives the region a size. -/
def State.traceRegion (s : State) : Bool := s.wale.dramReady && decide (0 < s.traceBlocks)

/-- Free blocks of the region. -/
def State.blocksFree (s : State) : Nat := s.traceBlocks - s.blocksUsed

/-- Spill blocks in use. -/
def State.spillBlocks (s : State) : Nat := ((List.range 64).map fun p => (s.part p).spill.length).sum

/-- The partition that holds the oldest committed DRAM-destination block, and its commit time (R718). -/
def State.oldestBlock (s : State) : Option (Nat × Nat) :=
  (List.range 64).foldl
    (fun acc p =>
      match (s.part p).blocks.head?, acc with
      | some b, some (q, t) => if b.committed.toNat < t then some (p, b.committed.toNat) else some (q, t)
      | some b, none => some (p, b.committed.toNat)
      | none, a => a) none

/-- Make room for one block: a free one beyond the reserve, of which blocks with an open LOSS record are a part (R719), or
in circular mode the oldest committed one (R718). None when there is none. -/
def takeBlock (s : State) : Option State :=
  if (if s.stopWhenFull then 64 - s.reservesUsed else 0) < s.blocksFree then some s
  else if s.stopWhenFull then none
  else s.oldestBlock.map fun (p, _) => modPart p (fun x => { x with blocks := x.blocks.drop 1 }) s

/-- Bytes in the DRAM write queue now. The interfaces take 40 GB/s, 25 bytes a tick, both at 8,533 MT/s, and in proportion
to rate and number (R716). DESIGN CHOICE, log entry 60. -/
def State.dramQueued (s : State) : Nat :=
  s.wale.queued - (s.t - s.wale.queuedAt) * 25 * s.dramRate * s.dramInterfaces / (2 * 8533)

/-- The DRAM write queue of 1 MiB takes `n` more bytes (R733). -/
def State.queueTakes (s : State) (n : Nat) : Bool := decide (s.dramQueued + n ≤ 2 ^ 20)

/-- Hand a block to the DRAM write queue. -/
def queueBlock (s : State) : State :=
  { s with wale := { s.wale with queued := s.dramQueued + 65536, queuedAt := s.t } }

/-- Write the open block of a partition to the region. -/
def putOpen (p : Nat) (s : State) : State :=
  match (s.part p).openBlock with
  | none => s
  | some b =>
    spendDram s |> queueBlock |> modPart p (fun x =>
      { x with blocks := x.blocks ++ [{ b with committed := s.now, bad := s.dramHit }], openBlock := none })

/-- Commit the open block of a partition (R717). None when the region, or the write queue, does not take it. -/
def commitBlock (p : Nat) (s : State) : Option State :=
  if (s.part p).openBlock.isNone then some s
  else if s.queueTakes 65536 then (takeBlock s).map (putOpen p)
  else none

/-- Put a record into the open block, which starts if there is none. -/
def intoBlock (r : TraceRec) (s : State) : State :=
  modPart r.partition
    (fun x =>
      match x.openBlock with
      | some b => { x with openBlock := some { b with recs := b.recs ++ [r] } }
      | none =>
        { x with blockSeq := x.blockSeq + 1,
                 openBlock := some { seq := x.blockSeq, bkind := 0, partition := r.partition, lossOpen := false,
                                     committed := 0, recs := [r] } }) s

/-- Store a record in the DRAM region, if the region takes it. DESIGN CHOICE, log entry 60. -/
def storeDram (r : TraceRec) (s : State) : Option State :=
  if !s.traceRegion then none
  else
    match (s.part r.partition).openBlock with
    | some b => if b.used + r.len ≤ blockBody then some (intoBlock r s)
                else (commitBlock r.partition s).map (intoBlock r)
    | none => some (intoBlock r s)

/-! ### Gaps (R733) -/

/-- One more record lost in a gap. -/
def Gap.more (g : Gap) (r : TraceRec) : Gap :=
  { g with count := g.count + 1, bytes := g.bytes + r.len, lastTs := r.ts }

/-- A gap that starts with a record. -/
def Gap.start (cause : Nat) (r : TraceRec) : Gap :=
  { count := 1, bytes := r.len, firstTs := r.ts, lastTs := r.ts, cause := BitVec.ofNat 8 cause }

/-- Drop a record at the port: it starts or joins the gap and counts in TRACE_LOST_PORT (R733, R735). -/
def dropPort (cause : Nat) (r : TraceRec) (s : State) : State :=
  s |> modPart r.partition (fun x => { x with gapPort := some ((x.gapPort.map (·.more r)).getD (Gap.start cause r)) })
    |> bumpAlways 57 1

/-- The payload of the LOSS record of a gap at DRAM. -/
def Gap.payload (g : Gap) (opened : Bool) : List Byte :=
  lossPayload g.count g.cause.toNat 2 0xFF g.firstTs g.lastTs g.bytes 0xFFFF opened

/-- The reserve block shows what its gap has counted (R719). -/
def Block.shows (g : Gap) (opened : Bool) (b : Block) : Block :=
  { b with lossOpen := opened, recs := b.recs.modifyHead fun r => { r with payload := g.payload opened } }

/-- A gap at DRAM starts in stop-when-full mode: the partition's reserve block receives the open LOSS record, which takes over
what was carried (R719, R736). -/
def openReserve (p : Nat) (g : Gap) (s : State) : State :=
  let g1 := { g with count := g.count + (s.part p).carryDram }
  modPart p (fun x =>
    { x with gapDram := some g1, carryDram := 0, blockSeq := x.blockSeq + 1,
             reserve := some { seq := x.blockSeq, bkind := 0, partition := p, lossOpen := true, committed := 0,
                               recs := [hubRec 0x0E p (g1.payload true) s] } }) s

/-- Drop a record at DRAM: TRACE_LOST_DRAM. Without a free block the LOSS record waits for the end of the gap. DESIGN CHOICE,
log entry 61. -/
def dropDram (cause : Nat) (r : TraceRec) (s : State) : State :=
  let p := r.partition
  let s1 := match (s.part p).gapDram with
    | some g => modPart p (fun x => { x with gapDram := some (g.more r), reserve := x.reserve.map (·.shows (g.more r) true) }) s
    | none =>
      if s.stopWhenFull && cause != 2 && decide (0 < s.blocksFree) then openReserve p (Gap.start cause r) s
      else modPart p (fun x => { x with gapDram := some (Gap.start cause r) }) s
  bumpAlways 58 1 s1

/-! ### The port stream -/

/-- Bytes of a tier. -/
def tierBytes (l : List TraceRec) : Nat := (l.map TraceRec.len).sum

/-- Bytes of records that count in TRACE_BYTES: those that no LOSS record accounts for (R352). -/
def meterBytes (l : List TraceRec) : Nat := tierBytes (l.filter fun r => !r.lost)

/-- Bytes of all Creel tiers. -/
def State.poolBytes (s : State) : Nat := ((List.range 64).map fun p => tierBytes (s.part p).tier).sum

/-- The Creel tier of a partition, and the pool of all tiers, have room (R731). -/
def State.tierRoom (s : State) (p n : Nat) : Bool :=
  decide (tierBytes (s.part p).tier + n ≤ 2 ^ 20) && decide (s.poolBytes + n ≤ 4 * 2 ^ 20)

/-- Put a record into the spill tier, if its last block, or a new one within the limit, takes it (R731, R732). -/
def intoSpill (r : TraceRec) (s0 : State) : Option State :=
  let s := spendDram s0
  let x := s.part r.partition
  let r1 := { r with spilled := true, bad := s0.dramHit }
  match x.spill.getLast? with
  | some b =>
    if b.used + r.len ≤ blockBody then
      some (modPart r.partition (fun y => { y with spill := y.spill.dropLast ++ [{ b with recs := b.recs ++ [r1] }] }) s)
    else if decide (s.spillBlocks < s.traceBlocks / 4) && decide (0 < s.blocksFree) then
      some (modPart r.partition (fun y => { y with spillSeq := y.spillSeq + 1, spill := y.spill ++
        [{ seq := y.spillSeq, bkind := 1, partition := r.partition, lossOpen := false, committed := s.now,
           recs := [r1] }] }) s)
    else none
  | none =>
    if decide (s.spillBlocks < s.traceBlocks / 4) && decide (0 < s.blocksFree) then
      some (modPart r.partition (fun y => { y with spillSeq := y.spillSeq + 1, spill :=
        [{ seq := y.spillSeq, bkind := 1, partition := r.partition, lossOpen := false, committed := s.now,
           recs := [r1] }] }) s)
    else none

/-- Where a port-bound record waits: the Creel tier, or the spill tier while it holds records or the tier is full
(R731). None: neither takes it. -/
def storePort (r : TraceRec) (s0 : State) : Option State :=
  let x := s0.part r.partition
  let s := modPart r.partition (fun y => { y with portIn := y.portIn + 1 }) s0
  if x.spill.isEmpty && s.tierRoom r.partition r.len then
    some (s |> modPart r.partition (fun y => { y with tier := y.tier ++ [{ r with bad := s.injectHit }] }) |> spendCreel)
  else if s.traceRegion && (!x.spill.isEmpty || s.spillOn r.partition) then intoSpill r s
  else none

/-- The partition's backlog in bytes. -/
def PartSt.backlog (x : PartSt) : Nat :=
  tierBytes x.tier + (x.spill.map Block.used).sum + (x.frames.map fun f => f.body.length).sum +
    ((x.frame.map fun f => f.body.length).getD 0)

/-! ### Frames (R725 to R728) -/

/-- Body bytes a frame holds. -/
def frameBody : Nat := 4160

/-- Put records from the front of a tier into the open raw frame; a frame that takes no more is closed and the rest
stays (R728). -/
def fillRaw (now : Nat) : Option Frame → List TraceRec → Option Frame × Option Frame × List TraceRec
  | fr, [] => (none, fr, [])
  | some f, r :: rs =>
    if f.body.length + r.len ≤ frameBody then
      fillRaw now (some { f with body := f.body ++ r.bytes, recs := f.recs + 1, spilled := f.spilled || r.spilled }) rs
    else (some f, none, r :: rs)
  | none, r :: rs =>
    fillRaw now (some { coded := false, recs := 1, body := r.bytes, since := now, spilled := r.spilled,
                        firstTs := r.ts, spanOff := none, spansEnded := 0 }) rs

/-- The coding run of a partition: its input IN_HEAD and IN_TAIL and segments live in the run. -/
def modRun (id : W32) (g : Run → Run) (s : State) : State :=
  { s with osier := { s.osier with runs := s.osier.runs.map fun r => if r.id == id then g r else r } }

/-- A live run. -/
def State.run (s : State) (id : W32) : Option Run := s.osier.runs.find? fun r => r.id == id

/-- A run becomes ready (R828). -/
def Run.wake (now : Nat) (q : Run) : Run := { q with wait := .none, readyAt := now }

/-- Bytes of the run's segments in the Creel are written anew: whole words get fresh ECC, and an error that hits the write
spoils its first word (R994, R1014). -/
def Run.rewritten (q : Run) (a n : Nat) (hit : Bool) : Run :=
  { q with bad := q.bad.filter (fun b => !(decide (a ≤ b) && decide (b + 8 ≤ a + n))) ++ if hit then [a / 8 * 8] else [] }

/-- Write a record into a run's input ring of `n` bytes (R796): one that would cross the end starts at offset 0 behind
zero bytes; one that does not fit is counted in IN_LOST. -/
def Run.deliver (q : Run) (n : Nat) (r : TraceRec) (now : Nat) (hit : Bool) : Run :=
  let pos := q.inHead.toNat % n
  let skip := if n < pos + r.len then n - pos else 0
  if n < q.inHead.toNat + skip + r.len - q.inTail.toNat then { q with inLost := q.inLost + 1 }
  else
    let at_ := if skip = 0 then pos else 0
    let ring := Mem.writeN (Mem.writeN q.input pos (zeros skip)) at_ r.bytes
    let y := { (if skip = 0 then q else q.rewritten (inputBase + pos) skip false).rewritten (inputBase + at_) r.len hit with
                 input := ring, inHead := q.inHead + BitVec.ofNat 64 (skip + r.len) }
    if q.wait == .input then y.wake now else y

/-- The live runs as they become. -/
def setRuns (l : List Run) (s : State) : State := { s with osier := { s.osier with runs := l } }

/-- Deliver a record to the input rings of its partition's runs that select its class, as it enters the Wale (R795). A
coding run takes its records as exchanges; PROGRAM records are never delivered. -/
def deliverInput (r : TraceRec) (s : State) : State :=
  let takes (q : Run) : Option Nat :=
    (s.lib q.index).bind fun e =>
      if q.partition == r.partition && q.role != 1 && r.cls != 16 && bit e.inputClasses r.cls && e.inputKib != 0 then
        some (1024 * e.inputKib)
      else none
  let first := (s.osier.runs.find? fun q => (takes q).isSome).map Run.id
  let runs := s.osier.runs.map fun q =>
    match takes q with
    | some n => q.deliver n r s.t (s.injectHit && first == some q.id)
    | none => q
  (if first.isSome then spendCreel s else s) |> setRuns runs

/-- The stream key of a record (R927): UNIT for classes 1 to 5, else 0xFFFF. -/
def TraceRec.key (r : TraceRec) : Nat := if 1 ≤ r.cls ∧ r.cls ≤ 5 then field r.payload 0 2 else 0xFFFF

/-- The event symbol of a record (R927): 16 + KIND for classes 1 to 3, else the class. -/
def TraceRec.esym (r : TraceRec) : Nat := if 1 ≤ r.cls ∧ r.cls ≤ 3 then 16 + field r.payload 2 1 else r.cls

/-- The 2,048 bytes of exchange n for a record (R923). -/
def exchangeBytes (c : Coder) (r : TraceRec) : List Byte :=
  match c.prev with
  | none => slice (leBytes 4 c.exch.toNat ++ leBytes 2 r.key) 0 2048
  | some (q, e, b, d) =>
    let age := match Tab.get? c.keyTs r.key with
      | some t => (q.ts - t).toNat
      | none => 0
    slice (leBytes 4 c.exch.toNat ++ leBytes 2 r.key ++ leBytes 2 1 ++ leBytes 2 q.key ++
      [BitVec.ofNat 8 e, BitVec.ofNat 8 b] ++ leBytes 2 q.len ++ [0, 0] ++ leBytes 8 d.toNat ++ leBytes 8 age ++ q.bytes)
      0 2048

/-- Records of the port stream that still wait in the tiers. -/
def PartSt.waiting (x : PartSt) : Nat := x.tier.length + (x.spill.map fun b => b.recs.length).sum

/-- Records that the frame builder may take before the next state-reset point (R940). -/
def PartSt.mayTake (x : PartSt) : Nat :=
  match x.coder.pendSwitch with
  | e :: _ => e.pos - (x.portIn - x.waiting)
  | [] => x.tier.length

/-- The record at the head of the tier that the frame builder reads next: behind the one whose exchange is posted. -/
def PartSt.nextRead (x : PartSt) : Nat := if x.coder.posted.isSome then 1 else 0

/-- Records with an uncorrectable word, among those that may be read now, are dropped, and a gap opens at the port (R733,
R999). -/
def shedTier (p : Nat) (s : State) : State :=
  let x := s.part p
  let due := (x.tier.drop x.nextRead).take (x.mayTake - x.nextRead)
  let bad := due.filter (·.bad)
  if bad.isEmpty then s
  else
    s |> modPart p (fun y => { y with tier := y.tier.take x.nextRead ++ due.filter (!·.bad) ++
                                        y.tier.drop (x.nextRead + due.length) })
      |> each bad (fun r t => t |> dropPort 0 r |> uncorrectableItem (r.spilled && t.inlineEcc) 1 p 0 3)

/-- Post the exchange of the record at the head of the tier, if none is posted (R923); one at a time. -/
def postExchange (p : Nat) (s : State) : State :=
  let x := s.part p
  if x.mayTake = 0 then s else
  match x.tier, x.coder.posted, x.coder.run with
  | r :: _, none, some id =>
    let n := x.coder.exch.toNat
    let at_ := 2048 * ((n - 1) % 16)
    spendCreel s |> modRun id (fun q => { (q.rewritten (inputBase + at_) 2048 s.injectHit) with
                                            input := Mem.writeN q.input at_ (exchangeBytes x.coder r),
                                            inHead := BitVec.ofNat 64 n })
      |> modRun id (fun q => if q.wait == .input then q.wake s.t else q)
      |> modPart p (fun y => { y with coder := { y.coder with posted := some s.t } })
  | _, _, _ => s

/-- The frame builder takes what it can from the tier: nothing while a closed frame waits; raw records fill the open
frame, and are metered as they leave the tier (R350, R352); a coded stream posts the exchange of its next record. -/
def pumpPort (p : Nat) (s0 : State) : State :=
  if !(s0.part p).frames.isEmpty then s0 else
  let s := shedTier p s0
  let x := s.part p
  if x.coder.coded then postExchange p s
  else
    let (closed, fr, rest) := fillRaw s.t x.frame (x.tier.take x.mayTake)
    let taken := (x.tier.take x.mayTake).take ((x.tier.take x.mayTake).length - rest.length)
    s |> modPart p (fun y => { y with frame := fr, tier := rest ++ x.tier.drop x.mayTake,
                                      frames := y.frames ++ closed.toList })
      |> modMeters x.owner (fun m => m.add 0 0 (meterBytes taken) 0 0)

/-- A port-bound record arrives: in a gap it is dropped, else it waits, else it starts a gap (R731, R733). -/
def portArrive (r : TraceRec) (s : State) : State :=
  if (s.part r.partition).gapPort.isSome then dropPort 0 r s
  else
    match storePort r s with
    | some s1 => pumpPort r.partition s1
    | none => dropPort 0 r s

/-- Why a record is dropped at DRAM: 2 with the region absent, 3 with its write queue full, 1 with the region full (R734). -/
def State.dramCause (s : State) : Nat := if !s.traceRegion then 2 else if s.queueTakes 65536 then 1 else 3

/-- Records of the DRAM write queue that hold an uncorrectable word are dropped with CAUSE 3 as the queue is read (R999). -/
def shedQueue (p : Nat) (s : State) : State :=
  let bad := (((s.part p).openBlock.map Block.recs).getD []).filter (·.bad)
  if bad.isEmpty then s
  else
    s |> modPart p (fun x => { x with openBlock := x.openBlock.map fun b => { b with recs := b.recs.filter (!·.bad) } })
      |> each bad (fun r t => t |> dropDram 3 r |> uncorrectableItem false 1 p 0 3)

/-- A DRAM-bound record arrives: in a gap it is dropped, else it is stored, else it starts a gap (R715, R719, R733). One
that an injected uncorrectable error hits on its way is dropped with CAUSE 3 (R999). -/
def dramArrive (r : TraceRec) (s0 : State) : State :=
  let s := shedQueue r.partition s0
  if (s.part r.partition).gapDram.isSome then dropDram 1 r s
  else if s.traceRegion && s.injectHit then
    s |> spendCreel |> dropDram 3 r |> uncorrectableItem false 1 r.partition 0 3
  else
    match storeDram r s with
    | some s1 => spendCreel s1
    | none => dropDram s.dramCause r s

/-- Whether a record would be kept at a destination now. -/
def portKeeps (r : TraceRec) (s : State) : Bool :=
  (s.part r.partition).gapPort.isNone && (storePort r s).isSome
def dramKeeps (r : TraceRec) (s : State) : Bool :=
  (s.part r.partition).gapDram.isNone && !s.injectHit && (storeDram r s).isSome

/-- A record for DRAM that the port does not keep: counted by hub event 0x05 as DRAM keeps it, and metered where no LOSS
record accounts for it (R350, R352, R707). -/
def dramOnly (r : TraceRec) (s : State) : State :=
  let s1 := dramArrive r s
  if dramKeeps r s then
    s1 |> modMeters (s1.part r.partition).owner (fun m => m.add 0 0 (meterBytes [r]) 0 0) |> hubEvent r.partition 5 1
  else s1

/-- A MODEL_SWITCH of the partition is to come in DRAM behind the WEAVE record: other records wait (R244). -/
def State.dramWaits (s : State) (p : Nat) : Bool := (s.part p).coder.pendSwitch.any fun e => e.dram

/-- A record joins those that wait behind the last MODEL_SWITCH that is to come in DRAM. -/
def holdBehind (e : TraceRec × Bool) : List SwitchPt → List SwitchPt
  | [] => []
  | x :: l => if x.dram && !(l.any fun y => y.dram) then { x with behind := x.behind ++ [e] } :: l else x :: holdBehind e l

/-- Let a record for DRAM wait; `kept`: the port keeps it too. -/
def holdDram (kept : Bool) (r : TraceRec) (s : State) : State :=
  modPart r.partition (fun x => { x with coder := { x.coder with pendSwitch := holdBehind (r, kept) x.coder.pendSwitch } }) s

/-- A record as its destinations receive it, knowing whether one of them drops it. -/
def State.marked (s : State) (dest : Nat) (r : TraceRec) : TraceRec :=
  let seen := if bit dest 0 then portArrive r s else s
  { r with lost := (bit dest 0 && !portKeeps r s) || (bit dest 1 && !s.dramWaits r.partition && !dramKeeps r seen) }

/-- Send a record to destinations and count hub event 0x05. It is metered once, if no destination drops it (R350, R352, R707):
in the port stream when it leaves its tier, raw or coded, and else, where DRAM alone keeps it, at once. -/
def placeRec (dest : Nat) (r0 : TraceRec) (s : State) : State :=
  let r := s.marked dest r0
  let toPort := bit dest 0 && portKeeps r s
  let s1 := if bit dest 0 then portArrive r s else s
  let s2 := if toPort then hubEvent r.partition 5 1 s1 else s1
  if !bit dest 1 then s2
  else if s.dramWaits r.partition then holdDram toPort r s2
  else if toPort then dramArrive r s2
  else dramOnly r s2

/-- Write a record into its partition's trace: to the input rings (R795), then routed by its class and TIMESTAMP (R704,
R706). -/
def traceWrite (r : TraceRec) (s : State) : State := placeRec (s.dest r) r (deliverInput r s)

/-- Write a record that a hub block makes now. -/
def writeRec (cls p : Nat) (payload : List Byte) (s : State) : State := traceWrite (hubRec cls p payload s) s

/-- A LOSS record of `n` losses has been placed: hub events 0x05 and 0x06. -/
def lossPlaced (p n : Nat) (s : State) : State := s |> hubEvent p 5 1 |> hubEvent p 6 (sat 0xFFFFFFFF n)

/-- Place a LOSS record in the port stream, even in a gap; what cannot be placed is carried (R736). -/
def lossToPort (p count : Nat) (mk : Nat → State → TraceRec) (s : State) : State :=
  let n := count + (s.part p).carryPort
  match storePort (mk n s) s with
  | some s1 => s1 |> modPart p (fun x => { x with carryPort := 0 }) |> pumpPort p |> lossPlaced p n
  | none => modPart p (fun x => { x with carryPort := n }) s

/-- Place a LOSS record of the destination DRAM in the port stream (R735): what was carried is DRAM's. -/
def dramLossToPort (p count : Nat) (mk : Nat → State → TraceRec) (s : State) : State :=
  let n := count + (s.part p).carryDram
  match storePort (mk n s) s with
  | some s1 => s1 |> modPart p (fun x => { x with carryDram := 0 }) |> pumpPort p |> lossPlaced p n
  | none => modPart p (fun x => { x with carryDram := n }) s

/-- Where a LOSS record stands in the DRAM stream: behind the open LOSS record of the reserve block (R719), else in the open
block. -/
def placeLoss (r : TraceRec) (s : State) : Option State :=
  match (s.part r.partition).reserve with
  | some b =>
    if b.used + r.len ≤ blockBody then
      some (modPart r.partition (fun x => { x with reserve := some { b with recs := b.recs ++ [r] } }) s)
    else none
  | none => storeDram r s

/-- Place a LOSS record in the DRAM stream. -/
def putDramLoss (p count : Nat) (mk : Nat → State → TraceRec) (s : State) : State :=
  let n := count + (s.part p).carryDram
  let r := mk n s
  match placeLoss r s with
  | some s1 =>
    s1 |> modPart p (fun x => { x with carryDram := 0 })
       |> modMeters (s1.part p).owner (fun m => m.add 0 0 r.len 0 0) |> lossPlaced p n
  | none => modPart p (fun x => { x with carryDram := n }) s

/-- Place a LOSS record of losses elsewhere in the DRAM stream; while records wait for a MODEL_SWITCH they are carried. -/
def lossToDram (p count : Nat) (mk : Nat → State → TraceRec) (s : State) : State :=
  if s.dramWaits p then modPart p (fun x => { x with carryDram := count + x.carryDram }) s else putDramLoss p count mk s

/-- A LOSS record of cause 4 or 5 in every destination of `dest` (R735); its COUNT goes to the always-on counters. -/
def lossBoth (p dest count cause port : Nat) (first last : W64) (unit : Nat) (s : State) : State :=
  let s1 := if bit dest 0 then
      s |> bumpAlways 57 count |> lossToPort p count (fun n => lossRec p n cause 1 port first last 0 unit) else s
  if bit dest 1 then
    s1 |> bumpAlways 58 count |> lossToDram p count (fun n => lossRec p n cause 2 port first last 0 unit) else s1

/-- DRAM has dropped a record that still waits for the port: a LOSS record accounts for it (R352). -/
def markLost (r : TraceRec) (s : State) : State :=
  let mark (q : TraceRec) : TraceRec := if q.ts == r.ts && q.cls == r.cls && q.payload == r.payload then { q with lost := true } else q
  modPart r.partition (fun x =>
    { x with tier := x.tier.map mark, spill := x.spill.map fun b => { b with recs := b.recs.map mark } }) s

/-- The records that waited behind a MODEL_SWITCH go to DRAM (R244), before the port takes them (R352). -/
def flushDram (l : List (TraceRec × Bool)) (s : State) : State :=
  each l (fun (r, kept) t =>
    if !kept then dramOnly r t else if dramKeeps r t then dramArrive r t else t |> dramArrive r |> markLost r) s

/-! ### Sending frames -/

/-- One step of the IEEE 802.3 CRC-32. -/
def fcsBit (c : BitVec 32) : BitVec 32 := if c.getLsbD 0 then (c >>> 1) ^^^ 0xEDB88320 else c >>> 1

/-- The frame check sequence of IEEE 802.3. -/
def fcs (l : List Byte) : BitVec 32 :=
  (l.foldl (fun c b => Nat.repeat fcsBit 8 (c ^^^ b.setWidth 32)) 0xFFFFFFFF) ^^^ 0xFFFFFFFF

/-- A whole Ethernet frame: addresses, EtherType, header, body, padding and FCS (R725). -/
def State.etherFrame (s : State) (header body : List Byte) : List Byte :=
  let l := leBytes 6 s.wale.macDst.toNat ++ leBytes 6 s.wale.macSrc.toNat ++ beBytes 2 s.etherType ++ header ++ body
  let l := l ++ zeros (60 - l.length)
  l ++ leBytes 4 (fcs l).toNat

/-- The 32-byte frame header (R726). -/
def State.frameHeader (s : State) (kind part : Nat) (spilled : Bool) (partSeq bodyLen recs first : Nat) : List Byte :=
  [1, BitVec.ofNat 8 kind, BitVec.ofNat 8 part, BitVec.ofNat 8 (b2n spilled + 2 * b2n s.wale.restart)] ++
    leBytes 4 s.wale.portSeq.toNat ++ leBytes 4 partSeq ++ leBytes 2 bodyLen ++ leBytes 2 recs ++ leBytes 8 first ++
    [BitVec.ofNat 8 s.plait.role.toNat] ++ zeros 7

/-- Hand a frame to the port's MAC: PORT_SEQ advances, RESTART is spent, the bytes count in WALE_TX_BYTES. -/
def sendEther (kind part : Nat) (spilled : Bool) (partSeq recs first : Nat) (body : List Byte) (s : State) : State :=
  let b := s.etherFrame (s.frameHeader kind part spilled partSeq body.length recs first) body
  { s with wale := { s.wale with portSeq := s.wale.portSeq + 1, restart := false, lastFrame := s.t } }
    |> emit (.frame b) |> bumpAlways 48 b.length

/-- The body of a frame: a coded one begins with the 8 bytes of R935. -/
def Frame.bodyBytes (f : Frame) : List Byte :=
  if f.coded then leBytes 2 (f.spanOff.getD 0xFFFF) ++ leBytes 2 f.recs ++ [BitVec.ofNat 8 f.spansEnded, 0, 0, 0] ++ f.body
  else f.body

/-- Send the oldest closed frame of a partition. -/
def sendTrace (p : Nat) (s : State) : State :=
  match (s.part p).frames with
  | [] => s
  | f :: rest =>
    let body := f.bodyBytes
    s |> sendEther (b2n f.coded) p f.spilled (s.part p).partSeq.toNat (if f.coded then 0 else f.recs) f.firstTs.toNat body
      |> modPart p (fun x =>
          { x with frames := rest, partSeq := x.partSeq + 1,
                   coder := if f.coded then
                     { x.coder with outBytes := x.coder.outBytes + BitVec.ofNat 64 body.length } else x.coder })
      |> pumpPort p

/-- Close the open frame of a partition. -/
def closeFrame (p : Nat) (s : State) : State :=
  modPart p (fun x => { x with frames := x.frames ++ x.frame.toList, frame := none }) s

end Sys2Proof.Machine
end

