-- ==== Sys2Proof/Machine/Latch.lean ====
section
/-!
DEFINITION. Latch points, latch records and reprograms (spec/14).
-/

namespace Sys2Proof.Machine

open Sys2Proof

/-- The command marker that a BEGIN or END latch point carries (R756). -/
structure Marker where
  unit : Nat
  engine : Nat
  layer : Nat
  operator : Nat
  cmdSeq : Nat
  /-- Converted die timestamp. -/
  ts : Nat

/-- The counters of a mask, in ascending order. -/
def maskList (m : Nat) : List Nat := (List.range 64).filter (bit m)

/-- Payload of a LATCH record (R756): LKIND, NO_DELTA, REPROGRAM, the marker, SKIPPED, HOST_TAG, INCLUDED, words. -/
def latchPayload (lkind : Nat) (noDelta reprogram : Bool) (m : Option Marker) (skipped hostTag included : Nat)
    (words : List W64) : List Byte :=
  let g (f : Marker → Nat) : Nat := (m.map f).getD 0
  [BitVec.ofNat 8 lkind, BitVec.ofNat 8 (b2n m.isSome + 2 * b2n noDelta + 4 * b2n reprogram)] ++
    leBytes 2 ((m.map (·.unit)).getD 0xFFFF) ++ [BitVec.ofNat 8 (g (·.engine)), 0] ++ leBytes 2 (g (·.layer)) ++
    leBytes 2 (g (·.operator)) ++ zeros 2 ++ leBytes 4 (g (·.cmdSeq)) ++ leBytes 4 (sat 0xFFFFFFFF skipped) ++
    leBytes 4 hostTag ++ leBytes 8 (g (·.ts)) ++ leBytes 8 included ++ zeros 16 ++
    words.flatMap (fun w => leBytes 8 w.toNat)

/-- Counters whose selection has LATCH set (R757). -/
def State.latchMask (s : State) (p : Nat) : Nat := bitsOf 64 fun k => selLatch (s.sel p k)

/-- What one latch point asks for. -/
structure LatchReq where
  lkind : Nat
  marker : Option Marker := none
  noDelta : Bool := false
  hostTag : Nat := 0
  /-- INCLUDED; none: the counters with LATCH set. -/
  mask : Option Nat := none
  record : Bool := true
  /-- Taken for a pending COUNTER_CONFIG: one with LATCH_NOW takes effect at no other latch point (R766). -/
  own : Bool := false
  /-- A weft switch: the selections of the new plane. -/
  switch : Option (List (Nat × W64)) := none

/-- Close the counters whose selection changes: they restart at zero under the new one (R759). -/
def closeCounters (p : Nat) (new : List (Nat × W64)) (s : State) : State :=
  each new
    (fun (k, v) t =>
      if t.sel p k == v then t
      else modPart p (fun x => { x with counters := Tab.set x.counters k 0, sels := Tab.set x.sels k v }) t) s

/-- The mask of the counters that a reprogram closes. -/
def State.closedMask (s : State) (p : Nat) (new : List (Nat × W64)) : Nat :=
  bitsOf 64 fun k => new.any fun (j, v) => j == k && s.sel p k != v

/-- Take a latch point (R755): the words, then the reprogram of a weft switch or of a pending COUNTER_CONFIG, with its
completion (R758 to R761, R767). SKIPPED counts on where ROUTE_6 names no destination, so that no record is written. The
LATCH and CLOSE records hold the words of the edge; what their being written adds counts after it, under the new selections
(R752, R760). -/
def takeLatch (p : Nat) (q : LatchReq) (s : State) : State :=
  let x := s.part p
  let included := q.mask.getD (s.latchMask p)
  let words := (maskList included).map (s.ctr p)
  let cfg := if q.switch.isSome then none else x.cfg.filter fun c => !c.latchNow || q.own
  let new := (q.switch <|> cfg.map (·.sels)).getD []
  let reprogram := q.switch.isSome || cfg.isSome
  let closed := s.closedMask p new
  let closeWords := (maskList closed).map (s.ctr p)
  let s1 := modPart p (fun y => { y with lastLatch := some s.t }) s
  let s2 := if reprogram then
      s1 |> closeCounters p new
         |> modPart p (fun y =>
              { y with selOverride := q.switch.isNone, cfg := if cfg.isSome then none else y.cfg,
                       deferred := if cfg.isSome then y.deferred.filter fun d => !d.forConfig else y.deferred })
    else s1
  let latch := latchPayload q.lkind q.noDelta reprogram q.marker x.skipped q.hostTag included words
  let close := latchPayload 3 false true q.marker (if q.record then 0 else x.skipped)
    ((cfg.map fun c => c.tag.toNat).getD 0) closed closeWords
  let s3 := s2 |> (fun t => if q.record then writeRec 6 p latch t else t)
    |> (fun t => if reprogram then writeRec 6 p close t else t)
    |> (fun t => if (q.record || reprogram) && s2.dest (hubRec 6 p latch s2) != 0 then modPart p (fun y => { y with skipped := 0 }) t
        else t)
  let s4 := match cfg with
    | some c => complete c.fn c.tag
        { r0 := (maskList closed).length, r1 := s.t % 2 ^ 32, r2 := q.lkind } s3
    | none => s3
  hubEvent p 8 1 s4

/-- Ticks between latch points: 64 FAB cycles (R762). -/
def latchSpacing : Nat := 128

/-- The spacing of R762 allows a latch point now. -/
def State.latchAllowed (s : State) (p : Nat) : Bool :=
  match (s.part p).lastLatch with
  | some t => decide (t + latchSpacing ≤ s.t)
  | none => true

/-- A BEGIN or END latch point: taken, or merged (R762). -/
def markerLatch (p : Nat) (q : LatchReq) (s : State) : State :=
  if s.latchAllowed p then takeLatch p q s
  else
    s |> modPart p (fun x => { x with skipped := x.skipped + 1 }) |> bumpAlways 59 1 |> hubEvent p 9 1

/-- The first FAB edge that the spacing allows after the latch points already waiting. -/
def State.latchDue (s : State) (p : Nat) : Nat :=
  let last := match (s.part p).deferred.getLast? with
    | some d => some d.due
    | none => (s.part p).lastLatch
  match last with
  | some t => (max (t + latchSpacing) s.t + 1) / 2 * 2
  | none => s.t

/-- The block that COUNTER_LATCH with MODE 0 writes (R771): REPROGRAM where a pending COUNTER_CONFIG takes effect at this
latch point, which one with a latch point of its own does not. -/
def latchBlock (s : State) (p mask : Nat) : List Byte :=
  leBytes 8 s.t ++ leBytes 8 mask ++ leBytes 4 (sat 0xFFFFFFFF (s.part p).skipped) ++
    [BitVec.ofNat 8 (b2n ((s.part p).cfg.any fun c => !c.latchNow))] ++ zeros 11 ++
    (maskList mask).flatMap fun k => leBytes 8 (s.ctr p k).toNat ++ leBytes 8 (s.sel p k).toNat

/-- Write to the buffer window of a command in flight, from an offset, and nothing beyond it; a reset session's is fenced
(R281, R317). -/
def bufWrite (f : Nat) (tag : W32) (off : Nat) (data : List Byte) (s : State) : State :=
  match s.cmd f tag with
  | some c => if discards f then s else hostWrite (fnPort f) (c.bufAddr + off) (data.take (c.bufWindow - off)) s
  | none => s

/-- The buffer write of a command in flight will end in a PCIe error (R296). -/
def State.writeFails (s : State) (f : Nat) (tag : W32) : Bool := ((s.cmd f tag).map fun c => c.work.dmaError).getD false

/-- Take a HOST latch point for a COUNTER_LATCH and complete it (R771, R773); where the write of the block ends in a PCIe
error, the latch point has been taken (R296). -/
def hostLatch (f : Nat) (tag : W32) (p mask : Nat) (record : Bool) (s : State) : State :=
  let n := (maskList mask).length
  let block := latchBlock s p mask
  let s1 := takeLatch p { lkind := 2, hostTag := tag.toNat, mask := some mask, record := record } s
  if s.writeFails f tag then complete f tag { status := stBadAddress, part := true, r1 := s.t % 2 ^ 32 } s1
  else s1 |> bufWrite f tag 0 block |> complete f tag { r0 := n, r1 := s.t % 2 ^ 32 }

/-- Take a deferred latch point. -/
def deferredTake (p : Nat) (d : DeferredLatch) (s : State) : State :=
  if d.forConfig then
    if (s.part p).cfg.isSome then
      takeLatch p { lkind := d.lkind, hostTag := if d.lkind = 2 then d.tag.toNat else 0, own := true } s
    else s
  else hostLatch d.fn d.tag p d.mask.toNat d.record s

/-- A HOST or FORCED latch point: taken now if the spacing allows, else at the first edge it allows (R762). -/
def requestLatch (p : Nat) (d : DeferredLatch) (s : State) : State :=
  if s.latchAllowed p && (s.part p).deferred.isEmpty then deferredTake p d s
  else modPart p (fun x => { x with deferred := x.deferred ++ [{ d with due := s.latchDue p }] }) s

end Sys2Proof.Machine
end

