-- ==== Sys2Proof/Machine/Link.lean ====
section
/-!
DEFINITION. The sending half of a Nalsel link or of the Plait link: messages, flits, the three hub-to-die channels with
their credits, the replay window and the order of flits (spec/07).
-/

namespace Sys2Proof.Machine

open Sys2Proof

/-! ### Messages and flits -/

/-- The bytes of a message: the 16-byte header and the data (R392). -/
def msgBytes (m : Msg) : List Byte :=
  [m.op, BitVec.ofNat 8 (b2n m.response + 2 * b2n m.error)] ++ leBytes 2 m.target.toNat ++ [m.partition, m.source] ++
    leBytes 2 m.data.length ++ leBytes 4 m.tag.toNat ++ leBytes 4 m.holder.toNat ++ m.data

/-- A message of its bytes on a channel (R392, R393); none when the header and the length do not fit. -/
def parseMsg (ch : Nat) (l : List Byte) : Option Msg :=
  let len := field l 6 2
  if l.length < 16 ∨ 4096 < len ∨ l.length < 16 + len ∨ 16 + len + 32 ≤ l.length then none
  else some
    { ch := ch, op := l.getD 0 0, response := (l.getD 1 0).getLsbD 0, error := (l.getD 1 0).getLsbD 1,
      target := BitVec.ofNat 16 (field l 2 2), partition := l.getD 4 0, source := l.getD 5 0,
      tag := BitVec.ofNat 32 (field l 8 4), holder := BitVec.ofNat 32 (field l 12 4), data := (l.drop 16).take len }

/-- The flits of a message: 32 payload bytes each, the last one padded with zeros (R386, R393). -/
def msgFlits (m : Msg) : List Flit :=
  let l := msgBytes m
  let n := ceilDiv l.length 32
  (List.range n).map fun k => { ch := m.ch, som := k == 0, eom := k + 1 == n, payload := slice l (32 * k) 32 }

/-- Bytes 0 to 33 of a flit. -/
def flitHead (f : Flit) : List Byte :=
  [BitVec.ofNat 8 (f.ch + 8 * b2n f.som + 16 * b2n f.eom), 0] ++ slice f.payload 0 32

/-- The 36 bytes of a flit with its CRC (R386, R387). -/
def flitBytes (f : Flit) : List Byte := flitHead f ++ leBytes 2 (crc16 (flitHead f)).toNat

/-! ### Channels -/

/-- A hub-to-die channel. -/
def Lnk.tx (l : Lnk) (ch : Nat) : TxChan := if ch = 0 then l.tx0 else if ch = 1 then l.tx1 else l.tx2

/-- Change a hub-to-die channel. -/
def Lnk.setTx (l : Lnk) (ch : Nat) (c : TxChan) : Lnk :=
  if ch = 0 then { l with tx0 := c } else if ch = 1 then { l with tx1 := c } else { l with tx2 := c }

/-- A die-to-hub channel. -/
def Lnk.rx (l : Lnk) (ch : Nat) : RxChan :=
  if ch = 0 then l.rx0 else if ch = 1 then l.rx1 else if ch = 2 then l.rx2 else l.rx3

/-- Change a die-to-hub channel. -/
def Lnk.setRx (l : Lnk) (ch : Nat) (c : RxChan) : Lnk :=
  if ch = 0 then { l with rx0 := c } else if ch = 1 then { l with rx1 := c }
  else if ch = 2 then { l with rx2 := c } else { l with rx3 := c }

/-! ### Link control flits (R402, R403) -/

/-- The 32 payload bytes of a link control flit: TYPE, SUB, ACK, CREDITS and BODY (R402). ACK_VALID is always set. DESIGN
CHOICE, log entry 84. -/
def Lnk.ctlPayload (l : Lnk) (type sub : Nat) (body : List Byte) : List Byte :=
  slice ([BitVec.ofNat 8 type, BitVec.ofNat 8 sub] ++ leBytes 2 (l.lastAccepted.toNat + 0x8000) ++
    [l.rx0.returned, l.rx1.returned, l.rx2.returned, l.rx3.returned] ++ body) 0 32

/-- Send a link control flit. DESIGN CHOICE, log entry 27. -/
def sendCtl (l type sub : Nat) (body : List Byte) (s : State) : State :=
  s |> emit (.control l (BitVec.ofNat 8 type) (BitVec.ofNat 8 sub) ((s.lnk l).ctlPayload type sub body))
    |> modLnk l (fun x => { x with sinceCtl := 0 })

/-! ### Sending sequenced flits -/

/-- Sequenced flits flow on the link: in ACTIVE, in TIMESYNC, where the peer may be in ACTIVE before this end, and once a
retrain has sent RESUME (R407, R413, R424). DEDUCED, log entry 26. -/
def Lnk.sequenced (x : Lnk) : Bool := x.link == .active || x.link == .timesync || (x.link == .retrain && x.resumed)

/-- A link after a sequenced flit has gone out: the flit takes the next sequence number, spends a credit of its channel and
stays in the replay buffer (R394, R401, R406). -/
def Lnk.sent (x : Lnk) (f : Flit) (now : Nat) : Lnk :=
  let c := x.tx f.ch
  Lnk.setTx
    { x with unacked := x.unacked ++ [(x.txSeq, f)], txSeq := x.txSeq + 1, sinceCtl := x.sinceCtl + 1,
             ackAt := if x.unacked.isEmpty then now else x.ackAt }
    f.ch { c with cur := c.cur.drop 1, credits := c.credits - 1 }

/-- Every 16th flit slot carries a link control flit, whatever the 15 flits before it are (R401). -/
def controlSlot (l : Nat) (s : State) : State := if 15 ≤ (s.lnk l).sinceCtl then sendCtl l 0 0 [] s else s

/-- A sequenced flit goes out: NSL_TX_FLITS_n counts it, a first transmission or a replay (R744). -/
def putFlit (l : Nat) (f : Flit) (s : State) : State :=
  s |> emit (.flit l f) |> (fun t => if l < 8 then bumpAlways l 1 t else t)

/-- Put one sequenced flit on the link; the slot after 15 of them carries a link control flit (R401). -/
def sendFlit (l : Nat) (f : Flit) (s : State) : State :=
  s |> modLnk l (fun _ => (s.lnk l).sent f s.t) |> putFlit l f |> controlSlot l

/-- Send a flit of the replay buffer again (R401, R409). -/
def sendAgain (l : Nat) (f : Flit) (s : State) : State :=
  s |> modLnk l (fun x => { x with sinceCtl := x.sinceCtl + 1 }) |> putFlit l f |> controlSlot l

/-- The function whose command a request serves; the Slath's reads of a die have a turn of their own (R617). -/
def ReqFor.owner : ReqFor → Option Nat
  | .cmd f _ _ _ => some f
  | .drain f => some f
  | .inflight _ _ => some slathTurn
  | .capture _ _ _ => some slathTurn
  | _ => none

/-- Begin the next waiting message of a channel, in turn among functions (R311): a request becomes outstanding as its first
flit goes out (R1093); a message to the twin has no answer. -/
def beginMsg (answered : Bool) (now : Nat) (c : TxChan) : TxChan :=
  let i := nextTurn c.lastFn (c.waiting.map fun r => r.who.owner)
  match c.cur, c.waiting[i]? with
  | [], some r =>
    { c with waiting := c.waiting.eraseIdx i, cur := msgFlits r.msg, lastFn := r.who.owner.getD c.lastFn,
             outst := if answered then c.outst ++ [{ r with at_ := now }] else c.outst }
  | _, _ => c

/-- The channel has a flit to send: one of a message begun, or a message waiting that may be begun. -/
def chanReady (fresh : Bool) (c : TxChan) : Bool :=
  decide (0 < c.credits) && (!c.cur.isEmpty || (fresh && !c.waiting.isEmpty))

/-- The channel of the next sequenced flit: VC0 first (R398); a message begun goes on; at a message boundary VC1 and
VC2 alternate, VC1 first (R399). DESIGN CHOICE, log entry 84. -/
def nextChan (fresh : Bool) (x : Lnk) : Option Nat :=
  if chanReady fresh x.tx0 then some 0
  else
    let r1 := chanReady fresh x.tx1
    let r2 := chanReady fresh x.tx2
    if r1 && !x.tx1.cur.isEmpty then some 1
    else if r2 && !x.tx2.cur.isEmpty then some 2
    else if r1 && r2 then some (if x.lastVc1 then 2 else 1)
    else if r1 then some 1
    else if r2 then some 2
    else none

/-- Send flits while credits, the window of 256 unacknowledged flits and the waiting messages allow (R394, R406). After
DETACH_REQ no new request is begun (R431). -/
def pumpLoop (l : Nat) : Nat → State → State
  | 0, s => s
  | k + 1, s =>
    let x := s.lnk l
    let fresh := !(decide (l < 8) && (s.port l).detachAt.isSome)
    if x.link == .active && decide (x.unacked.length < 256) then
      match nextChan fresh x with
      | none => s
      | some ch =>
        let c := beginMsg (decide (l < 8)) s.t (x.tx ch)
        match c.cur with
        | [] => s
        | f :: _ =>
          let x1 := { x.setTx ch c with lastVc1 := if ch = 0 then x.lastVc1 else ch == 1 }
          pumpLoop l k (s |> modLnk l (fun _ => x1) |> sendFlit l f)
    else s

/-- Send what a link may send now: at most the window's 256 flits. -/
def pump (l : Nat) (s : State) : State := pumpLoop l 256 s

/-- Hand a request to a link's channel and send what may go. -/
def sendReq (l : Nat) (r : OutReq) (s : State) : State :=
  s |> modLnk l (fun x => x.setTx r.msg.ch { x.tx r.msg.ch with waiting := (x.tx r.msg.ch).waiting ++ [r] }) |> pump l

/-- Every request handed to a link and not answered, begun ones first, channel by channel. -/
def Lnk.open_ (x : Lnk) : List OutReq :=
  [x.tx0, x.tx1, x.tx2].flatMap fun c => c.outst ++ c.waiting

/-! ### Stakes and requests to a die -/

/-- What this hub knows of a partition's stake on a port's die. -/
def StakeView.init : StakeView :=
  { held := false, twin := false, gen := 0, since := 0, retryAt := none, hoopEn := none, hoopAbrupt := none }

def State.stake (s : State) (n p : Nat) : StakeView := Tab.getD (s.port n).stakes p StakeView.init

/-- Change it. -/
def modStake (n p : Nat) (g : StakeView → StakeView) (s : State) : State :=
  modPort n (fun x => { x with stakes := Tab.set x.stakes p (g (Tab.getD x.stakes p StakeView.init)) }) s

/-- The role that the hub uses as SOURCE (R948): standalone until a role is set. -/
def State.roleCode (s : State) : Nat := if s.plait.role == 0 then 1 else s.plait.role.toNat

/-- The HOLDER word of a partition on a port (R489): the role and the generation of the last accepted claim. -/
def State.holderWord (s : State) (n p : Nat) : W32 :=
  BitVec.ofNat 32 (s.roleCode + 65536 * (s.stake n p).gen.toNat)

/-- A request of this hub to the die of port n. TARGET: a unit index, or every unit of the partition, where the index is 0.
DESIGN CHOICE, log entry 91. -/
def State.mkReq (s : State) (n ch op : Nat) (target : Nat) (wide : Bool) (p : Nat) (tag : W32) (data : List Byte) : Msg :=
  { ch := ch, op := BitVec.ofNat 8 op, response := false, error := false,
    target := BitVec.ofNat 16 (target + 32768 * b2n wide), partition := BitVec.ofNat 8 p,
    source := BitVec.ofNat 8 s.roleCode, tag := tag, holder := s.holderWord n p, data := data }

/-- Send a request to the die of port n. -/
def ask (n ch op target : Nat) (wide : Bool) (p : Nat) (tag : W32) (who : ReqFor) (data : List Byte) (s : State) : State :=
  sendReq n { msg := s.mkReq n ch op target wide p tag data, who := who, at_ := s.t } s

/-- REG_WRITE of words from a window offset (R447). -/
def askRegWrite (n target : Nat) (wide : Bool) (p : Nat) (tag : W32) (subseq : Nat) (who : ReqFor) (off : Nat)
    (words : List Byte) (s : State) : State :=
  ask n 1 2 target wide p tag who (leBytes 4 subseq ++ leBytes 2 off ++ leBytes 2 (words.length / 4) ++ words) s

/-- REG_READ of `count` words from a window offset. -/
def askRegRead (n target p : Nat) (tag : W32) (who : ReqFor) (off count : Nat) (s : State) : State :=
  ask n 1 1 target false p tag who (leBytes 2 off ++ leBytes 2 count) s

/-- STAKE_CLAIM (R447): LEASE_MS of the warp. TARGET carries unit 0, since the request names no unit. DESIGN CHOICE, log entry
91. -/
def askClaim (n p : Nat) (s : State) : State :=
  ask n 0 0x10 0 false p 0 (.claim p) (leBytes 2 s.leaseMs) s

/-- STAKE_RENEW. -/
def askRenew (n p : Nat) (s : State) : State := ask n 0 0x11 0 false p 0 (.renew p) (leBytes 4 0) s

/-- STAKE_RELEASE. -/
def askRelease (n p : Nat) (s : State) : State := ask n 0 0x12 0 false p 0 (.release p) (leBytes 4 0) s

/-- Send a message to the twin (R955). While the Plait link is down nothing is sent (R536); a retrain leaves it up
(R953). -/
def plaitSend (ch op part : Nat) (data : List Byte) (s : State) : State :=
  if s.plait.lk.link == .active || s.plait.lk.link == .retrain then
    sendReq 8 { msg := { ch := ch, op := BitVec.ofNat 8 op, response := false, error := false, target := 0,
                         partition := BitVec.ofNat 8 part, source := BitVec.ofNat 8 s.roleCode, tag := 0, holder := 0,
                         data := data },
                who := .plait, at_ := s.t } s
  else s

/-! ### Ports as commands see them -/

/-- N7 in scan fallback (R432). -/
def State.fallback (s : State) (n : Nat) : Bool := n == 7 && (s.port 7).lk.link == .scan

/-- The link is in ACTIVE and its enumeration has ended (R425, R429). -/
def State.up (s : State) (n : Nat) : Bool := (s.port n).lk.link == .active && (s.port n).enumerated

/-- The twin holds the stake of the partition on some die (R331, R340). -/
def State.twinHolds (s : State) (p : Nat) : Bool := (List.range 8).any fun n => (s.stake n p).twin

/-- The twin holds the stake of the partition on the die of a unit (R548). -/
def State.twinHoldsUnit (s : State) (p u : Nat) : Bool := (s.stake (u / 4096) p).twin

/-- The class descriptor of a unit, read from the die (R452). -/
def State.classOf (s : State) (u : Nat) : List Byte :=
  Tab.getD (s.port (u / 4096)).classes (s.unit u).classId.toNat []

/-- CFLAGS of a class descriptor: ENGINE_STEP, IN_FLIGHT_CAPTURE; and ENGINES. -/
def classEngineStep (d : List Byte) : Bool := bit (field d 5 1) 1
def classInFlight (d : List Byte) : Bool := bit (field d 5 1) 2
def classEngines (d : List Byte) : Nat := field d 3 1

/-- A region entry of a class descriptor (R452): RFLAGS and SIZE. -/
def classRegion (d : List Byte) (region : Nat) : Option (Nat × Nat) :=
  ((List.range (field d 7 1)).find? fun k => field d (32 + 16 * k) 1 == region).map fun k =>
    (field d (32 + 16 * k + 1) 1, field d (32 + 16 * k + 4) 4)

end Sys2Proof.Machine
end

