-- ==== Sys2Proof/Machine/Settle.lean ====
section
/-!
DEFINITION. Which partitions a REWEAVE_COMMIT concerns, and its settle point (spec/04 R232, R233, R246).
-/

namespace Sys2Proof.Machine

open Sys2Proof

/-! ### Which commits are outstanding (R234, R246) -/


/-- A warp commit of the ports of a mask affects the partition: units on a port of the mask under the map in force or the
staged one (R246). -/
def State.warpTouches (s : State) (mask : Byte) (p : Nat) : Bool :=
  let has (w : WarpPort) : Bool := w.partMap.any fun b => b.toNat == p
  (List.range 8).any fun n =>
    mask.getLsbD n && (s.carries n p || s.weave.staged.any fun e => e.1 == n && has e.2.entry)

/-- A warp commit affects the partition; one that has installed its entries affects what it affected then. -/
def State.warpAffects (s : State) (c : Commit) (p : Nat) : Bool :=
  if c.switched then c.affected.contains p else s.warpTouches c.portMask p

/-- Partitions that a warp commit affects (R246). -/
def State.warpParts (s : State) (c : Commit) : List Nat := (List.range 64).filter (s.warpAffects c)

/-- The warp commit in force affects the partition. -/
def State.inWarpCommit (s : State) (p : Nat) : Bool := s.weave.warpCommit.any fun c => s.warpAffects c p

/-- A commit of the partition is in force, and its fetch lies before a time (R234, R248 step 1). -/
def State.reweaving (s : State) (p fetched : Nat) : Bool :=
  (s.part p).commit.any (fun c => decide (c.fetched < fetched)) ||
    s.weave.warpCommit.any fun c => s.warpAffects c p && decide (c.fetched < fetched)

/-- A weft commit, or a warp commit, of the partition that is fetched and has not started: it is outstanding (R234). -/
def Cmd.waitingWeft (c : Cmd) (p : Nat) : Bool :=
  c.op == 0x71 && !c.started && c.scope == 1 && c.partition == p
def State.waitingWarp (s : State) (p : Nat) (c : Cmd) : Bool :=
  c.op == 0x71 && !c.started && c.scope == 2 && s.warpTouches (BitVec.ofNat 8 c.ports) p

/-! ### The settle point (R232, R233) -/

/-- The DUT commands of R233. -/
def isDut (op : Nat) : Bool :=
  (decide (0x11 ≤ op) && decide (op ≤ 0x16)) || (decide (0x20 ≤ op) && decide (op ≤ 0x23)) || op == 0x32

/-- The partition has a capture: the Slath reads its units into staging (R549, R618). -/
def State.capturing (s : State) (p : Nat) : Bool :=
  (match (s.part p).build with | some c => c.stage == 2 | none => false) ||
    (s.part p).cuts.any fun c => c.stage == 3

/-- A partition is settled for a commit fetched at a time: no DUT command that may still run is outstanding, no halt is
gathering, no capture reads units, and no cut export is open. -/
def State.settledFor (s : State) (p fetched : Nat) : Bool :=
  (s.cmdsWhere fun _ c => isDut c.op && c.partition == p && (c.started || decide (c.fetched ≤ fetched))).isEmpty &&
    (s.part p).gather.isNone && !s.capturing p && !(s.slath.exports.any fun e => e.partition == p)

/-- A commit waits for its settle point, and SETTLE_MS has not passed (R240). -/
def Commit.waits (c : Commit) (now : Nat) : Bool := !c.switched && c.settled.isNone && decide (now ≤ c.deadline)

/-- The settle point of a partition's commit, if this is the first moment at which it is settled (R232). -/
def noteWeft (p : Nat) (s : State) : State :=
  if (s.part p).commit.any fun c => c.waits s.t && s.settledFor p c.fetched then
    modPart p (fun x => { x with commit := x.commit.map fun c => { c with settled := some s.t } }) s
  else s

/-- The settle point of the warp commit: the first moment at which every partition that it affects is settled (R248). -/
def noteWarp (s : State) : State :=
  if s.weave.warpCommit.any fun c => c.waits s.t && (s.warpParts c).all fun p => s.settledFor p c.fetched then
    { s with weave := { s.weave with warpCommit := s.weave.warpCommit.map fun c => { c with settled := some s.t } } }
  else s

/-- Every commit looks at its settle point as a tick of the timebase ends. DESIGN CHOICE, log entry 78. -/
def noteSettled (s : State) : State := s |> each (List.range 64) noteWeft |> noteWarp

/-- Word 3 of a commit's completion: its fetch to its settle point in µs (R239). -/
def Commit.settleUs (c : Commit) : Nat := (c.settled.getD c.fetched - c.fetched) / Config.ticksPerUs

/-- The timebase is at a CTL edge, which every fourth tick is: ENG, FAB and CTL coincide (R88, R90). DESIGN CHOICE, log
entry 3. DESIGN CHOICE, log entry 43. -/
def State.ctlEdge (s : State) : Bool := s.now.toNat % 4 == 0

/-- The ownership of a partition is being revoked by a GRANT that has not completed (R342, R343). -/
def State.revoking (s : State) (p : Nat) : Bool :=
  !(s.cmdsWhere fun _ c => c.op == 0x05 && c.work.stage != 0 && c.partition == p && c.work.r2 % 4 == 1).isEmpty

end Sys2Proof.Machine
end

