-- ==== Sys2Proof/Machine/Cuts.lean ====
section
/-!
DEFINITION. How a cut is made from halt records (spec/11): its units, the channel proof, the listed messages, the
dump set, the state part, the label, the CUT record, the binding of reports, the end of the proof and the assignment.
-/

namespace Sys2Proof.Machine

open Sys2Proof

/-! ### Sorting -/

/-- Insert into a list sorted by a key. -/
def insertBy {α : Type} (key : α → Nat) (x : α) : List α → List α
  | [] => [x]
  | y :: t => if key x < key y then x :: y :: t else y :: insertBy key x t

/-- Sort by a key; equal keys keep their order. -/
def sortBy {α : Type} (key : α → Nat) (l : List α) : List α := l.foldl (fun acc x => insertBy key x acc) []

/-! ### The dump set (R612) -/

/-- A field of the DUMP_SET of a weft. -/
def dumpField (w : Mem) (off n : Nat) : Nat := Mem.val w (1472 + off) n

/-- DS_FLAGS: CLASS_DEFAULT, NO_IN_FLIGHT. -/
def classDefault (w : Mem) : Bool := bit (dumpField w 0 1) 0
def noInFlight (w : Mem) : Bool := bit (dumpField w 0 1) 1
/-- In-flight bytes and messages of a cut, with their defaults. -/
def ifLimit (w : Mem) : Nat := 1024 * orDefault (dumpField w 4 4) 1024
def ifMessages (w : Mem) : Nat := orDefault (dumpField w 8 4) 4096

/-- A range that a dump-set entry asks for: region, offset, length. -/
abbrev WantRange := Nat × Nat × Nat

/-- The entries of a class, in entry order. -/
def dumpEntries (w : Mem) (cls : Nat) : List WantRange :=
  (List.range 15).filterMap fun k =>
    let o := 16 + 16 * k
    if cls != 0 && dumpField w o 2 == cls then some (dumpField w (o + 2) 1, dumpField w (o + 4) 4, dumpField w (o + 8) 4)
    else none

/-- SIZE of a region of a class; the debug window has 64 KiB (R613). -/
def regionSize (desc : List Byte) (region : Nat) : Option Nat :=
  if region = 0xFF then some 0x10000 else (classRegion desc region).map (·.2)

/-- Regions of a class with DUMP, whole, in descriptor order. -/
def dumpRegions (desc : List Byte) : List WantRange :=
  (List.range (field desc 7 1)).filterMap fun k =>
    if bit (field desc (32 + 16 * k + 1) 1) 2 then
      some (field desc (32 + 16 * k) 1, 0, field desc (32 + 16 * k + 4) 4)
    else none

/-- A wanted range cut at its region's end; none when it is skipped (R613). -/
def clipRange (desc : List Byte) (r : WantRange) : Option WantRange :=
  match regionSize desc r.1 with
  | some size =>
    if size ≤ r.2.1 then none
    else some (r.1, r.2.1, if r.2.2 = 0xFFFFFFFF then size - r.2.1 else min r.2.2 (size - r.2.1))
  | none => none

/-- An entry is skipped or shortened. -/
def clipped (desc : List Byte) (r : WantRange) : Bool :=
  match clipRange desc r with
  | some (_, _, n) => r.2.2 != 0xFFFFFFFF && n != r.2.2
  | none => true

/-- What the dump set wants of a unit of a class (R613). -/
def wantedOf (w : Mem) (desc : List Byte) (cls : Nat) : List WantRange :=
  let es := dumpEntries w cls
  if es.isEmpty then (if classDefault w then dumpRegions desc else []) else es

/-- Region splints of a range. -/
def CapRange.splints (r : CapRange) : Nat := ceilDiv r.len 4096

/-- Number the region splints of ranges, in order. -/
def numberRanges : Nat → List (Nat × WantRange) → List CapRange
  | _, [] => []
  | k, (u, r) :: rest =>
    { unit := u, region := BitVec.ofNat 8 r.1, offset := r.2.1, len := r.2.2, firstSplint := k, bytes := [],
      missingFrom := none, ended := false } :: numberRanges (k + ceilDiv r.2.2 4096) rest

/-! ### Units and channels (R596 to R601) -/

/-- The unit table: a fallback unit, an UNRESPONSIVE one and a HALTED one without a record are gaps (R435, R596, R598).
DEDUCED, log entry 53. -/
def State.cutUnits_ (s : State) (p : Nat) : List CutUnit :=
  (s.unitsOf p).map fun u =>
    let x := s.unit u
    match x.view == .halted && !s.fallback (u / 4096), x.record with
    | true, some r =>
      if r.poisoned then { unit := u, ustatus := 3, rec_ := none }
      else { unit := u, ustatus := b2n r.synthesized, rec_ := some r }
    | _, _ => { unit := u, ustatus := 2, rec_ := none }

/-- A unit of a cut without a stored record. -/
def CutUnit.gap (u : CutUnit) : Bool := u.rec_.isNone

/-- Gap units of a cut. -/
def Cut.gaps (c : Cut) : Nat := (c.units.filter CutUnit.gap).length

/-- A channel slot of a record. -/
structure Slot where
  chan : Nat
  unit : Nat
  recv : Bool
  held : Bool
  count : Nat

/-- The channel slots of a unit's record (R476). -/
def CutUnit.slots (u : CutUnit) : List Slot :=
  match u.rec_ with
  | some r =>
    (List.range (field r.data 7 1)).map fun k =>
      { chan := field r.data (40 + 12 * k) 4, unit := u.unit, recv := bit (field r.data (44 + 12 * k) 4) 0,
        held := bit (field r.data (44 + 12 * k) 4) 1, count := field r.data (48 + 12 * k) 4 }
  | none => []

/-- A channel row of at most one send slot and one receive slot. -/
def chanRow (chan status : Nat) (a b : Option Slot) : ChanRow :=
  { chan := BitVec.ofNat 32 chan, status := status, truncated := false, sendUnit := a.map (·.unit),
    recvUnit := b.map (·.unit), sent := BitVec.ofNat 32 ((a.map (·.count)).getD 0),
    received := BitVec.ofNat 32 ((b.map (·.count)).getD 0), held := (b.map (·.held)).getD false, firstMsg := none }

/-- The rows of one CHANNEL_ID (R599). -/
def chanRows (chan : Nat) (slots : List Slot) : List ChanRow :=
  let mine := slots.filter fun x => x.chan == chan
  let a := mine.filter fun x => !x.recv
  let b := mine.filter fun x => x.recv
  if 1 < a.length ∨ 1 < b.length then
    mine.map fun x => chanRow chan 3 (if x.recv then none else some x) (if x.recv then some x else none)
  else
    match a.head?, b.head? with
    | some x, some y => [chanRow chan (if (x.count + 2 ^ 32 - y.count) % 2 ^ 32 < 2 ^ 31 then 0 else 4) (some x) (some y)]
    | some x, none => [chanRow chan 1 (some x) none]
    | none, y => [chanRow chan 2 none y]

/-- The channel table: in ascending CHANNEL_ID. -/
def channelTable (units : List CutUnit) : List ChanRow :=
  let slots := units.flatMap CutUnit.slots
  (sortBy id (slots.map (·.chan)).eraseDups).flatMap fun c => chanRows c slots

/-- IN_FLIGHT of a row (R600). -/
def ChanRow.inFlight (r : ChanRow) : Nat := if r.status = 0 then (r.sent - r.received).toNat else 0

/-- List in-flight messages: at most `limit` in all, from message index `k` on (R601). -/
def listMessages : Nat → Nat → List ChanRow → List ChanRow × List CutMsg
  | _, _, [] => ([], [])
  | limit, k, r :: rest =>
    let n := min r.inFlight limit
    let ms : List CutMsg := (List.range n).map fun j =>
      { chan := r.chan, seq := r.received + BitVec.ofNat 32 (j + 1), recvUnit := r.recvUnit.getD 0, total := 0,
        bytes := [], status := if r.held then none else some 1 }
    let r1 := { r with truncated := decide (n < r.inFlight), firstMsg := if n = 0 then none else some k }
    let (rs, more) := listMessages (limit - n) (k + n) rest
    (r1 :: rs, ms ++ more)

/-! ### The state part (R619 to R623) -/

/-- Splints of the region part, and bytes of the state part. -/
def Cut.regionSplints (c : Cut) : Nat := (c.ranges.map CapRange.splints).sum

/-- A stored halt record: RFLAGS bit 7 says whether it was synthesized (R597). -/
def HaltRec.stored (r : HaltRec) : List Byte :=
  let f := field r.data 6 1 % 128 + 128 * b2n r.synthesized
  r.data.take 6 ++ [BitVec.ofNat 8 f] ++ r.data.drop 7

/-- The record area: each record padded to a multiple of 8. -/
def recordArea (units : List CutUnit) : List Byte :=
  units.flatMap fun u =>
    match u.rec_ with
    | some r => padTo 8 r.stored
    | none => []

/-- The data area. -/
def dataArea (msgs : List CutMsg) : List Byte := msgs.flatMap fun m => padTo 8 m.bytes

/-- Offset of the unit table, the record area, the channel table, the message table and the data area. -/
def Cut.offUnits (_ : Cut) : Nat := 256
def Cut.offRecords (c : Cut) : Nat := 256 + 32 * c.units.length
def Cut.offChannels (c : Cut) : Nat := c.offRecords + (recordArea c.units).length
def Cut.offMessages (c : Cut) : Nat := c.offChannels + 32 * c.chans.length
def Cut.offData (c : Cut) : Nat := c.offMessages + 24 * c.msgs.length

/-- A 512-byte block of the region part, or of the state part, holds an uncorrectable word. -/
def Cut.spoil (c : Cut) (state : Bool) (b : Nat) : Cut :=
  let add (l : List Nat) : List Nat := if l.contains b then l else l ++ [b]
  { c with bad := if state then (c.bad.1, add c.bad.2) else (add c.bad.1, c.bad.2) }

/-- A block has been delivered and flagged (R625). -/
def Cut.knows (c : Cut) (state : Bool) (b : Nat) : Cut :=
  let add (l : List Nat) : List Nat := if l.contains b then l else l ++ [b]
  { c with poison := if state then (c.poison.1, add c.poison.2) else (add c.poison.1, c.poison.2) }

/-- Bytes of the state part. -/
def Cut.streamLen (c : Cut) : Nat := c.offData + (dataArea c.msgs).length

/-- Splints of the state part. -/
def Cut.stateSplints (c : Cut) : Nat := ceilDiv c.streamLen 4096

/-- A row of the unit table (R621); `off`: offset of its record in the stream. -/
def unitRow (c : Cut) (u : CutUnit) (off : Nat) : List Byte :=
  let d := (u.rec_.map HaltRec.stored).getD []
  let first := (c.ranges.find? fun r => r.unit == u.unit).map (·.firstSplint)
  leBytes 2 u.unit ++ [BitVec.ofNat 8 u.ustatus, BitVec.ofNat 8 (field d 6 1), BitVec.ofNat 8 (field d 4 1),
    BitVec.ofNat 8 (field d 5 1), 0, 0] ++ leBytes 4 (field d 0 4) ++ leBytes 4 (first.getD 0xFFFFFFFF) ++
    leBytes 8 ((u.rec_.map fun r => r.stopHub.toNat).getD 0) ++ leBytes 4 (if u.gap then 0 else off) ++
    leBytes 4 d.length

/-- The unit table. -/
def unitTable (c : Cut) : Nat → List CutUnit → List Byte
  | _, [] => []
  | off, u :: rest =>
    unitRow c u off ++ unitTable c (off + ((u.rec_.map fun r => (padTo 8 r.stored).length).getD 0)) rest

/-- A row of the channel table (R622). -/
def channelRow (c : Cut) (r : ChanRow) : List Byte :=
  let cap := match r.firstMsg with
    | some k => (((c.msgs.drop k).take r.inFlight).filter fun m => m.chan == r.chan && m.status == some 0).length
    | none => 0
  leBytes 4 r.chan.toNat ++ [BitVec.ofNat 8 r.status, BitVec.ofNat 8 (b2n r.truncated), 0, 0] ++
    leBytes 2 (r.sendUnit.getD 0xFFFF) ++ leBytes 2 (r.recvUnit.getD 0xFFFF) ++ leBytes 4 r.sent.toNat ++
    leBytes 4 r.received.toNat ++ leBytes 4 r.inFlight ++ leBytes 4 cap ++ leBytes 4 (r.firstMsg.getD 0xFFFFFFFF)

/-- The message table (R623); `off`: offset of the next message's bytes in the data area. -/
def messageTable : Nat → List CutMsg → List Byte
  | _, [] => []
  | off, m :: rest =>
    leBytes 4 m.chan.toNat ++ leBytes 4 m.seq.toNat ++ leBytes 4 m.total ++ leBytes 4 m.bytes.length ++
      [BitVec.ofNat 8 (m.status.getD 0), 0, 0, 0] ++ leBytes 4 (if m.bytes.isEmpty then 0xFFFFFFFF else off) ++
      messageTable (off + (padTo 8 m.bytes).length) rest

/-- The cut header (R620). -/
def Cut.header (c : Cut) : List Byte :=
  leBytes 4 0x53545543 ++ [1, BitVec.ofNat 8 c.label, BitVec.ofNat 8 c.partition, BitVec.ofNat 8 c.origin] ++
    leBytes 4 c.id.toNat ++ leBytes 4 c.hostTag.toNat ++ leBytes 8 c.instant.toNat ++ leBytes 8 c.actionTs.toNat ++
    leBytes 8 c.assignTs.toNat ++ leBytes 4 c.weftGen.toNat ++ leBytes 4 c.units.length ++ leBytes 4 c.gaps ++
    leBytes 4 c.chans.length ++ leBytes 4 c.msgs.length ++
    leBytes 4 (sat 0xFFFFFFFF (c.chans.map ChanRow.inFlight).sum) ++ leBytes 4 c.skippedEntries ++
    leBytes 4 c.regionSplints ++ leBytes 4 c.offUnits ++ leBytes 4 c.offRecords ++ leBytes 4 c.offChannels ++
    leBytes 4 c.offMessages ++ leBytes 4 c.offData ++ leBytes 4 c.streamLen ++ zeros 160

/-- The state part as one stream (R619). -/
def Cut.stream (c : Cut) : List Byte :=
  c.header ++ unitTable c c.offRecords c.units ++ recordArea c.units ++ c.chans.flatMap (channelRow c) ++
    messageTable 0 c.msgs ++ dataArea c.msgs

/-! ### Label, instant, record -/

/-- The label of a cut (R606). -/
def Cut.labelOf (c : Cut) : Nat :=
  if 0 < c.gaps then 2
  else if c.msgs.any (fun m => m.status != some 0) || c.chans.any (fun r => r.truncated || r.status == 3 || r.status == 4)
  then 1 else 0

/-- The cut instant (R590): the latest HALTED_TS of its non-gap units, or the assignment. -/
def Cut.instantOf (c : Cut) (now : W64) : W64 :=
  let l := c.units.filterMap fun u => u.rec_.map fun r => r.haltedHub.toNat
  if l.isEmpty then now else BitVec.ofNat 64 (l.foldl max 0)

/-- Region splints of a cut that are marked MISSING. -/
def CapRange.missing (r : CapRange) : Nat :=
  match r.missingFrom with
  | some m => r.splints - m / 4096
  | none => 0

/-- Write a CUT record (R645): 0 ASSIGNED, 1 REFUSED, 2 CAPTURED, 3 RELEASED. -/
def cutRec (event : Nat) (c : Cut) (s : State) : State :=
  let refused := event == 1
  writeRec 8 c.partition (leBytes 4 (if refused then 0 else c.id.toNat) ++
    [BitVec.ofNat 8 event, BitVec.ofNat 8 (if refused then 0xFF else c.label), BitVec.ofNat 8 c.origin,
     BitVec.ofNat 8 (if refused then 0x41 else 0)] ++ leBytes 4 c.hostTag.toNat ++ leBytes 4 c.gaps ++
    leBytes 8 (if refused then 0 else c.instant.toNat) ++ leBytes 4 c.regionSplints ++ leBytes 4 c.stateSplints ++
    leBytes 4 c.msgs.length ++ leBytes 4 (c.msgs.filter fun m => m.status != some 0).length ++
    leBytes 4 (if event = 2 then (c.ranges.map CapRange.missing).sum else 0) ++
    leBytes 4 (if c.origin = 0 then c.serial.toNat else 0)) s

/-- The completion of a CUT (R594). -/
def Cut.result (c : Cut) (already : Bool) : Res :=
  { already := already, r0 := c.id.toNat, r1 := c.label + 65536 * sat 0xFFFF c.gaps, r2 := c.regionSplints,
    r3 := c.stateSplints }

/-- Complete the CUT commands of a cut: the one that began it, and those that joined it, with ALREADY (R592, R595). -/
def finishOwners (c : Cut) (r : Bool → Res) (s : State) : State :=
  each c.owners (fun o => complete o.1 o.2 (r (c.starter != some o)))  s

/-! ### Hang reports and the cuts they bind to (R682, R683) -/

/-- Write a HANG record: 0 DECLARED, 1 BOUND, 2 BIND_CLOSED (R685). -/
def hangRec (p event : Nat) (r : HangReport) (s : State) : State :=
  writeRec 9 p (leBytes 4 r.id.toNat ++ [BitVec.ofNat 8 event, r.kind, r.hflags, r.action] ++ leBytes 4 r.cutId.toNat ++
    leBytes 2 r.comps.toNat ++ leBytes 2 r.members.toNat ++ leBytes 8 r.snapshot.toNat ++ leBytes 8 r.oldest.toNat) s

/-- Change every report of a partition that is open for binding, with a HANG record for each. -/
def endBinding (p event : Nat) (g : HangReport → HangReport) (s : State) : State :=
  let open_ := (s.part p).reports.filter (·.binding)
  s |> modPart p (fun x => { x with reports := x.reports.map fun r => if r.binding then { g r with binding := false } else r })
    |> each open_ (fun r => hangRec p event { g r with binding := false })

/-- Binding ends without a cut: at a RESUME or STEP, and at a partition reset (R683). -/
def closeBinding (p : Nat) (s : State) : State := endBinding p 2 (fun r => { r with hflags := r.hflags ||| 0x10 }) s

/-- Open reports bind to a cut at its assignment (R682). -/
def bindReports (p : Nat) (cut : W32) (s : State) : State := endBinding p 1 (fun r => { r with cutId := cut }) s

/-- The cut that a report's own action started is refused: CUT_REFUSED, and it stays open (R683). -/
def reportRefused (p : Nat) (id : Option W32) (s : State) : State :=
  let mark (r : HangReport) : HangReport := if some r.id == id then { r with hflags := r.hflags ||| 0x08 } else r
  modPart p (fun x => { x with reports := x.reports.map mark }) s

/-! ### The end of the proof (R596 to R610) -/

/-- Change the cut under construction of a partition. -/
def modBuild (p : Nat) (g : Cut → Cut) (s : State) : State := modPart p (fun x => { x with build := x.build.map g }) s

/-- Change a staged cut. -/
def modCut (p : Nat) (id : W32) (g : Cut → Cut) (s : State) : State :=
  modPart p (fun x => { x with cuts := x.cuts.map fun c => if c.id == id then g c else c }) s

/-- A RELEASE_CUT of a staged cut has been fetched (R628, R643, R646): one of the partition's owner that names it is in
flight and has not started, or one has been taken up. DEDUCED, log entry 53. -/
def State.releaseFetched (s : State) (p : Nat) (c : Cut) : Bool :=
  let names (x : Cmd) : Bool := x.f 56 4 == 0xFFFFFFFF || x.f 56 4 == c.id.toNat
  c.asked || !(s.cmdsWhere fun f x => x.op == 0x33 && !x.started && x.partition == p && names x && s.owns f p).isEmpty

/-- A staged cut of a partition. -/
def State.cut (s : State) (p : Nat) (id : W32) : Option Cut := (s.part p).cuts.find? fun c => c.id == id

/-- Replace element `i` of a list. -/
def modAt {α : Type} (l : List α) (i : Nat) (g : α → α) : List α :=
  match l[i]? with
  | some x => l.set i (g x)
  | none => l

/-- The die of the receiving unit, and its class, offer in-flight capture (R603). -/
def State.offersInFlight (s : State) (u : Nat) : Bool :=
  (s.port (u / 4096)).peerCaps.getLsbD 0 && classInFlight (s.classOf u)

/-- The cut with its proof: units, channels, messages, ranges (R596 to R603, R613). -/
def State.proven (s : State) (p : Nat) (c : Cut) : Cut :=
  let w := (s.part p).active.weft
  let units := if c.frozen then c.units else s.cutUnits_ p
  let (chans, msgs) := listMessages (ifMessages w) 0 (channelTable units)
  let offer (m : CutMsg) : CutMsg :=
    if noInFlight w || !s.offersInFlight m.recvUnit then { m with status := some 1 } else m
  let want := (units.filter fun u => !u.gap).map fun u =>
    (u.unit, s.classOf u.unit, wantedOf w (s.classOf u.unit) (s.unit u.unit).classId.toNat)
  let clip := want.flatMap fun (u, d, l) => (l.filterMap (clipRange d)).map fun r => (u, r)
  { c with units := units, chans := chans, msgs := msgs.map offer, ranges := numberRanges 0 clip,
           skippedEntries := (want.map fun (_, d, l) => (l.filter (clipped d)).length).sum }

/-- Log the poisoned halt records of a cut (R598, R999). -/
def logPoisoned (c : Cut) (s : State) : State :=
  each (c.units.filter fun u => u.ustatus == 3) (fun u => uncorrectableItem false 0 u.unit 0 3) s

/-- Held records that fail SECDED as the Slath reads them (R598). -/
def poisonHeld (p : Nat) (l : List Nat) (s : State) : State :=
  let bad (u : CutUnit) : CutUnit := if l.contains u.unit && u.rec_.isSome then { u with ustatus := 3, rec_ := none } else u
  s |> each (l.filter fun u => s.unitPart u == some p)
        (fun u => modUnit u fun x => { x with record := x.record.map fun r => { r with poisoned := true } })
    |> modBuild p (fun c => { c with units := c.units.map bad })

/-- The cut is refused for lack of staging space or of identifiers (R58, R589, R595, R610, R683). DEDUCED, log entry 53. -/
def refuseCut (p : Nat) (c : Cut) (s : State) : State :=
  s |> modPart p PartSt.nextCut |> cutRec 1 c |> bumpAlways 51 1 |> reportRefused p c.report
    |> finishOwners c (fun already =>
        { status := stCreelFull, already := already, part := c.halted && !already })

/-- Assign the identifier: the label, the record, the reports, the commands (R594, R606, R607, R682). Once identifiers have
run out, the cut is refused (R589). -/
def assignCut (p : Nat) (s : State) : State :=
  match (s.part p).build with
  | none => s
  | some c =>
    if 0xFFFFFFFF < s.slath.nextId then refuseCut p c s
    else
    let id := BitVec.ofNat 32 s.slath.nextId
    let c1 := { c with id := id, label := c.labelOf, assignTs := s.now, instant := c.instantOf s.now,
                       weftGen := (s.part p).active.gen, stage := 3 }
    { s with slath := { s.slath with nextId := s.slath.nextId + 1 } }
      |> modPart p (fun x => { x.nextCut with cuts := x.cuts ++ [c1], lastCut := id })
      |> cutRec 0 c1 |> bumpAlways 50 1 |> hubEvent p 3 1 |> bindReports p id |> finishOwners c1 c1.result

/-- The cuts that occupy staging, from their reservation on (R610, R611). -/
def State.stagedCuts (s : State) : Nat :=
  ((List.range 64).map fun q => (s.part q).cuts.length + b2n ((s.part q).build.any fun c => c.stage == 2)).sum

/-- The proof ends: staging is reserved, or the cut is refused (R589, R610). -/
def endProof (p : Nat) (s : State) : State :=
  match (s.part p).build with
  | none => s
  | some c =>
    let c1 := s.proven p c
    let s1 := logPoisoned c1 s
    let pages := ceilDiv (c1.regionSplints * 4096) 65536
    let need := ceilDiv c1.streamLen 65536
    let full := decide (Config.maxCuts ≤ s.stagedCuts) ||
      decide (Config.maxPartCuts ≤ (s.part p).cuts.length) || decide (0xFFFFFFFF < s.slath.nextId)
    match full, s.reserve (pages + need) with
    | false, some (a, b) =>
      let ra := min a pages
      let c2 := { c1 with stage := 2, regionPages := (ra, pages - ra), statePages := (a - ra, b - (pages - ra)) }
      let c3 := if if a = ra then s1.dramHit else s1.injectHit then c2.spoil true 0 else c2
      (if a = ra then spendDram s1 else spendCreel s1) |> modBuild p (fun _ => c3)
    | _, _ => refuseCut p c1 s1

/-- The capture of an assigned cut has ended: the CUT record says so, unless the cut is released (R615, R643). -/
def captured (p : Nat) (c : Cut) (s : State) : State :=
  s |> modCut p c.id (fun x => { x with stage := 4 }) |> (fun t => if c.releasing then t else cutRec 2 c t)

/-- A cut of a partition without units is assigned as soon as its halt action ends, and has nothing to capture (R608). -/
def assignEmpty (p : Nat) (s : State) : State :=
  let s1 := endProof p s
  if (s1.part p).build.any fun c => c.stage == 2 then
    let s2 := assignCut p s1
    match (s2.part p).cuts.find? fun c => c.stage == 3 with
    | some c => captured p c s2
    | none => s2
  else s1

end Sys2Proof.Machine
end

