-- ==== Sys2Proof/Machine/Graph.lean ====
section
/-!
DEFINITION. The channel registry and the wait-for graph of hang analysis, and the reports built from them (spec/12).
-/

namespace Sys2Proof.Machine

open Sys2Proof

/-! ### The registry (R651 to R653) -/

/-- An entry of which nothing is known. -/
def ChanEntry.init (c : W32) : ChanEntry :=
  { chan := c, sender := none, lastSent := 0, receiver := none, lastReceived := 0, ambiguous := false, stale := false,
    sendFresh := false, recvFresh := false }

/-- The registry entry of a channel. -/
def State.chan (s : State) (c : W32) : Option ChanEntry := s.hang.registry.find? fun e => e.chan == c

/-- Saturating 32-bit increment. -/
def satInc (w : W32) : W32 := if w == 0xFFFFFFFF then w else w + 1

/-- Change a channel's entry; it becomes the most recently updated one. A new channel that finds the registry full
evicts the entry updated least recently (R653). -/
def modChan (c : W32) (g : ChanEntry → ChanEntry) (s : State) : State :=
  let e := g ((s.chan c).getD (ChanEntry.init c))
  let rest := s.hang.registry.filter fun x => x.chan != c
  let full := (s.chan c).isNone && decide (65536 ≤ rest.length)
  { s with hang := { s.hang with registry := (if full then rest.drop 1 else rest) ++ [e],
                                 evict := if full then satInc s.hang.evict else s.hang.evict } }

/-- A STALE entry is refreshed once both its next SYNC_SEND and its next SYNC_RECV have arrived (R674). -/
def ChanEntry.refresh (e : ChanEntry) : ChanEntry :=
  if e.stale && e.sendFresh && e.recvFresh then { e with stale := false } else e

/-- An event sets the sender or the receiver of a channel; one that differs from the one recorded makes it AMBIGUOUS (R652).
-/
def ChanEntry.named (e : ChanEntry) (send : Bool) (u : Nat) : ChanEntry :=
  if send then { e with sender := some u, ambiguous := e.ambiguous || (e.sender.getD u != u) }
  else { e with receiver := some u, ambiguous := e.ambiguous || (e.receiver.getD u != u) }

/-- A SYNC_SEND, and a SYNC_RECV, of a channel. -/
def ChanEntry.sent (e : ChanEntry) (u : Nat) (n : W32) : ChanEntry :=
  let x := e.named true u
  ChanEntry.refresh { x with lastSent := n, sendFresh := true }
def ChanEntry.received (e : ChanEntry) (u : Nat) (n : W32) : ChanEntry :=
  let x := e.named false u
  ChanEntry.refresh { x with lastReceived := n, recvFresh := true }

/-- A channel's entry after an event; one that arrived before the loss that made it STALE refreshes nothing (R674). -/
def ChanEntry.aged (old : Bool) (e : ChanEntry) : ChanEntry :=
  if old then { e with stale := true, sendFresh := false, recvFresh := false } else e

/-- The events that have arrived when a unit becomes uncertain are not its next ones, nor those of its channels (R674). -/
def ageEvents (u : Nat) (s : State) : State :=
  let chans := (s.hang.registry.filter fun e => e.sender == some u || e.receiver == some u).map (·.chan) ++
    (s.hang.queue.filter fun e => e.unit == u).map (·.chan)
  let mark (e : HangEv) : HangEv :=
    if e.unit == u || ((e.kind == 1 || e.kind == 2) && chans.contains e.chan) then { e with old := true } else e
  { s with hang := { s.hang with queue := s.hang.queue.map mark } }

/-- A unit becomes uncertain: its open waits are discarded and its channels are STALE (R673), from the events on that arrive
later (R674). -/
def uncertain (u : Nat) (s0 : State) : State :=
  let s := ageEvents u s0
  let s1 := modUnit u (fun x => { x with uncertain := true, waits := [] }) s
  let mark (e : ChanEntry) : ChanEntry :=
    if e.sender == some u || e.receiver == some u then { e with stale := true, sendFresh := false, recvFresh := false }
    else e
  { s1 with hang := { s1.hang with registry := s1.hang.registry.map mark } }

/-- Process one synchronisation event (R652, R655, R674). -/
def hangEvent (e : HangEv) (s : State) : State :=
  if e.kind == 1 then
    modChan e.chan (fun x => (x.sent e.unit e.count).aged e.old) s
  else if e.kind == 2 then
    modChan e.chan (fun x => (x.received e.unit e.count).aged e.old) s
  else
    let s0 := if e.kind == 3 then modChan e.chan (fun x => (x.named false e.unit).aged e.old) s else s
    let s1 := if e.old then s0 else modUnit e.unit (fun x => { x with uncertain := false }) s0
    if !e.old && (s.part e.partition).graphOn && s.unitPart e.unit == some e.partition then
      modUnit e.unit
        (fun x =>
          let rest := x.waits.filter fun w => w.chan != e.chan
          let new : OpenWait := { chan := e.chan, count := e.count, begin_ := e.ts }
          { x with waits := if e.kind == 3 then (rest ++ [new]).drop (rest.length + 1 - 16) else rest }) s1
    else s1

/-! ### The wait-for graph (R656 to R660) -/

/-- x is at or above y modulo 2^32. -/
def atOrAbove (x y : W32) : Bool := decide ((x - y).toNat < 2 ^ 31)

/-- WSTATUS of an open wait (R656). -/
def State.wstatus (s : State) (p : Nat) (w : OpenWait) : Nat :=
  match s.chan w.chan with
  | none => 3
  | some e =>
    if e.ambiguous then 5 else if e.stale then 6 else if atOrAbove e.lastReceived w.count then 2
    else match e.sender with
      | none => 3
      | some u => if atOrAbove e.lastSent w.count then 1 else if s.unitPart u != some p then 4 else 0

/-- The open waits of a partition, with their units. -/
def State.openWaits (s : State) (p : Nat) : List (Nat × OpenWait) :=
  (s.unitsOf p).flatMap fun u => (s.unit u).waits.map fun w => (u, w)

/-- The age of a wait in ticks (R657). -/
def State.waitAge (s : State) (p u now : Nat) (w : OpenWait) : Nat :=
  now - max w.begin_.toNat (max (s.part p).holdEnd (s.unit u).runningSince)

/-- An edge of the graph: waiter, sender, BEGIN_TS. -/
structure WaitEdge where
  src : Nat
  dst : Nat
  begin_ : Nat

/-- The BLOCKED edges of a partition that `keep` keeps. -/
def State.blockedEdges (s : State) (p : Nat) (keep : Nat → OpenWait → Bool) : List WaitEdge :=
  (s.openWaits p).filterMap fun (u, w) =>
    if s.wstatus p w = 0 && keep u w then
      ((s.chan w.chan).bind (·.sender)).map fun v => { src := u, dst := v, begin_ := w.begin_.toNat }
    else none

/-- The units reachable from `found` along edges: one more hop each round. -/
def reachLoop (es : List WaitEdge) : Nat → List Nat → List Nat
  | 0, found => found
  | k + 1, found =>
    let more := (es.filter fun e => found.contains e.src && !found.contains e.dst).map (·.dst)
    if more.isEmpty then found else reachLoop es k (found ++ more.eraseDups)

/-- The units reachable from a unit in one hop or more. -/
def reach (es : List WaitEdge) (u : Nat) : List Nat :=
  reachLoop es es.length ((es.filter fun e => e.src == u).map (·.dst)).eraseDups

/-- A strongly connected component: units in ascending order, and the earliest BEGIN_TS of its edges. -/
structure Comp where
  units : List Nat
  selfLoop : Bool
  oldest : Nat
  deriving DecidableEq

/-- The components of at least two units, or of one unit with an edge to itself (R660, R676). -/
def components (es : List WaitEdge) (units : List Nat) : List Comp :=
  let own := units.filterMap fun u =>
    let c := units.filter fun v => (reach es u).contains v && (reach es v).contains u
    if (reach es u).contains u && c.head? == some u then some c else none
  own.map fun c =>
    let inner := es.filter fun e => c.contains e.src && c.contains e.dst
    { units := c, selfLoop := inner.any (fun e => e.src == e.dst),
      oldest := inner.foldl (fun m e => min m e.begin_) (2 ^ 64 - 1) }

/-! ### Reports (R675 to R685) -/

/-- A row of the wait table (R678): `rows` is the component table, `minAge` MIN_AGE_US. -/
def State.waitRow (s : State) (p now minAge : Nat) (rows : List Comp) (u : Nat) (w : OpenWait) : List Byte :=
  let e := s.chan w.chan
  let target := e.bind (·.sender)
  let aged := decide (minAge * Config.ticksPerUs ≤ s.waitAge p u now w)
  leBytes 2 u ++ leBytes 2 (target.getD 0xFFFF) ++ leBytes 4 w.chan.toNat ++ leBytes 4 w.count.toNat ++
    leBytes 4 ((e.map fun x => x.lastSent.toNat).getD 0) ++ leBytes 4 ((e.map fun x => x.lastReceived.toNat).getD 0) ++
    [BitVec.ofNat 8 (s.wstatus p w), BitVec.ofNat 8 ((target.bind s.unitPart).getD 0xFF),
     BitVec.ofNat 8 ((rows.findIdx? fun c => c.units.contains u).getD 0xFF),
     BitVec.ofNat 8 (b2n aged + 2 * b2n ((s.unit u).view != .running))] ++ leBytes 8 w.begin_.toNat

/-- The oldest open wait of a unit. -/
def State.oldestWait (s : State) (u : Nat) : Option OpenWait := (sortBy (fun w => w.begin_.toNat) (s.unit u).waits).head?

/-- Uncertain units of a partition. -/
def State.uncertainUnits (s : State) (p : Nat) : Nat := ((s.unitsOf p).filter fun u => (s.unit u).uncertain).length

/-- What a report's kind, action and prediction are. -/
structure ReportReq where
  kind : Nat
  declared : List Comp := []
  action : Nat := 0
  taken : Bool := false
  predModel : Nat := 0xFF
  score : Nat := 0
  /-- MIN_AGE_US of the scan that declares; none: that of the active weft. -/
  minAge : Option Nat := none

/-- Build a report from the graph as it stands (R675 to R679): a component of the BLOCKED graph that holds a declared one is
shown as declared, and one whose row is left out has no members in the table. DEDUCED, log entry 87. -/
def State.mkReport (s : State) (p : Nat) (q : ReportReq) : HangReport :=
  let now := s.t
  let all := components (s.blockedEdges p fun _ _ => true) (s.unitsOf p)
  let isDecl (c : Comp) : Bool := q.declared.any fun d => d.units.any c.units.contains
  let decl := sortBy (·.oldest) (all.filter isDecl)
  let comps := decl ++ sortBy (·.oldest) (all.filter fun c => !isDecl c)
  let shown := comps.take 64
  let members := (shown.zipIdx.flatMap fun (c, i) => c.units.map fun u => (u, i))
  let memRows := members.take 256
  let starts := comps.zipIdx.map fun (_, i) => ((comps.take i).map fun x => x.units.length).sum
  let compBytes := (shown.zip starts).zipIdx.flatMap fun ((c, st), i) =>
    leBytes 4 st ++ leBytes 2 c.units.length ++
      [BitVec.ofNat 8 (b2n (decide (i < decl.length)) + 2 * b2n c.selfLoop), 0] ++ leBytes 8 c.oldest
  let memBytes := padTo 8 (memRows.flatMap fun (u, i) => leBytes 2 u ++ [BitVec.ofNat 8 i, 0])
  let memberUnits := comps.flatMap (·.units)
  let waits := s.openWaits p
  let waiters := (s.unitsOf p).filter fun u => !(s.unit u).waits.isEmpty
  let first := memberUnits.filter fun u => waiters.contains u
  let rest := sortBy (fun u => ((s.oldestWait u).map fun w => w.begin_.toNat).getD 0)
    (waiters.filter fun u => !memberUnits.contains u)
  let rows := (first ++ rest).filterMap fun u => (s.oldestWait u).map (s.waitRow p now (q.minAge.getD (minAgeUs (s.part p).active.weft)) shown u)
  let shownRows := rows.take 446
  let oldest := if waits.isEmpty then 0 else waits.foldl (fun m (_, w) => min m w.begin_.toNat) (2 ^ 64 - 1)
  let offC := 64
  let offM := offC + compBytes.length
  let offW := offM + memBytes.length
  let len := offW + 32 * shownRows.length
  let un := s.uncertainUnits p
  let trunc := decide (64 < comps.length) || decide (256 < members.length) || decide (446 < rows.length)
  let flags := b2n (decide (0 < un)) + 2 * b2n trunc + 4 * b2n q.taken
  let header := leBytes 4 0x474E4148 ++ [1, BitVec.ofNat 8 q.kind, BitVec.ofNat 8 p, BitVec.ofNat 8 flags] ++
    leBytes 4 s.hang.nextReport.toNat ++ zeros 4 ++ leBytes 8 now ++ leBytes 8 oldest ++
    leBytes 4 (s.part p).active.gen.toNat ++ leBytes 2 shown.length ++ leBytes 2 memRows.length ++
    leBytes 2 shownRows.length ++ leBytes 2 (sat 0xFFFF waits.length) ++ leBytes 2 (sat 0xFFFF un) ++
    [BitVec.ofNat 8 q.action, BitVec.ofNat 8 q.predModel] ++ leBytes 2 q.score ++ leBytes 2 len ++
    leBytes 4 offC ++ leBytes 4 offM ++ leBytes 4 offW
  { id := s.hang.nextReport, kind := BitVec.ofNat 8 q.kind, hflags := BitVec.ofNat 8 flags, cutId := 0,
    binding := q.kind != 4, action := BitVec.ofNat 8 q.action, comps := BitVec.ofNat 16 q.declared.length,
    members := BitVec.ofNat 16 ((q.declared.map fun c => c.units.length).sum), snapshot := s.now,
    oldest := BitVec.ofNat 64 oldest, bytes := header ++ compBytes ++ memBytes ++ shownRows.flatten }

/-- A report's stream as it stands: HFLAGS and CUT_ID as binding has left them (R682, R683). -/
def HangReport.stream (r : HangReport) : List Byte :=
  r.bytes.take 7 ++ [r.hflags] ++ (r.bytes.drop 8).take 4 ++ leBytes 4 r.cutId.toNat ++ r.bytes.drop 16

/-- The same content under another REPORT_ID. -/
def HangReport.numbered (r : HangReport) (id : W32) : HangReport :=
  { r with id := id, bytes := r.bytes.take 8 ++ leBytes 4 id.toNat ++ r.bytes.drop 12 }

/-- Keep the content of a report on demand as a hold begins: the graph is frozen at the hold (R689). -/
def freezeGraph (p : Nat) (s : State) : State :=
  let r := if (s.part p).graphOn then some (s.mkReport p { kind := 4 }) else none
  modPart p (fun x => { x with frozen := r }) s

/-- The report that is written now: on demand, and while the partition is held, the graph as it was frozen. -/
def State.reportNow (s : State) (p : Nat) (q : ReportReq) : HangReport :=
  match (s.part p).frozen with
  | some r => if q.kind = 4 && (s.part p).held then r.numbered s.hang.nextReport else s.mkReport p q
  | none => s.mkReport p q

/-- Write a report: the four newest are kept (R681), REPORT_ID advances (R680), hub event 0x0A counts. -/
def addReport (p : Nat) (q : ReportReq) (s : State) : State :=
  let r := { s.reportNow p q with bad := s.injectHit }
  let s1 := modPart p (fun x => { x with reports := (x.reports ++ [r]).drop (x.reports.length + 1 - 4) }) s
  let s2 := spendCreel { s1 with hang := { s1.hang with nextReport := s1.hang.nextReport + 1 } } |> hubEvent p 0x0A 1
  if q.kind = 4 then s2 else hangRec p 0 r s2

/-- The graph starts empty, every unit uncertain, and its scans are counted from now (R659, R672). The set of the previous
CYCLE report stays (R661). -/
def startGraph (p : Nat) (s : State) : State :=
  s |> modPart p (fun x => { x with graphOn := true, graphBad := false, lastScan := s.t, scanning := none, scanWaits := false })
    |> each (s.unitsOf p) uncertain

/-- The graph is discarded. -/
def stopGraph (p : Nat) (s : State) : State :=
  s |> modPart p (fun x => { x with graphOn := false, scanning := none, scanWaits := false })
    |> each (s.unitsOf p) (fun u => modUnit u (fun x => { x with waits := [] }))

end Sys2Proof.Machine
end

