-- ==== Sys2Proof/Machine/Scan.lean ====
section
/-!
DEFINITION. The scan adaptor of N7 as the rest of the hub sees it: the program that runs it, the calls that wait for it, and
the start of the next one (spec/07 R434, spec/15 R840 to R842).
-/

namespace Sys2Proof.Machine

open Sys2Proof

/-- ADAPTOR of NSL7_SCAN_CTRL. -/
def State.adaptorIndex (s : State) : Nat := s.osier.scanCtrl.toNat / 256 % 256

/-- The library entry that NSL7_SCAN_CTRL.ADAPTOR names, if it is a scalar-only program (R434, R840). -/
def State.adaptorEntry (s : State) : Option LibEntry :=
  match s.lib s.adaptorIndex with
  | some e => if e.profile = 1 ∧ e.pkind = 0 then some e else none
  | none => none

/-- The Stake core that runs the adaptor: the first of the four. -/
abbrev adaptorCore : Nat := 16

/-- A call moves bytes through the data buffer. -/
def AdaptorCall.moves (c : AdaptorCall) : Bool := c.op == 4 || c.op == 5

/-- The run of one call at its first instruction (R841). The local segment keeps what earlier calls left; INIT finds it
zeroed. A write's bytes stand in the data buffer. -/
def adaptorRun (e : LibEntry) (index : Nat) (c : AdaptorCall) (old : Option Run) : Run :=
  let kept := if c.op = 6 then [] else (old.map (·.local_)).getD []
  let q : Run :=
    { id := 0, index := index, core := adaptorCore, role := 0, partition := 0, session := none, hostOut := false,
      pred := false, limit := 0, bufAddr := 0, bufWindow := 0, pc := BitVec.ofNat 64 (imageBase + e.entry), x := [],
      p := [], v := [], t := [], m := [], w := [], flags := 0, cycle := 0, inHead := 0, inTail := 0, inLost := 0,
      local_ := if c.op = 5 then Mem.writeN kept 0 c.data else kept, creel := [], input := [], wait := .none,
      heldFor := 0 }
  q |> Run.setX 1 c.op |> Run.setX 2 (c.unit % 4096) |> Run.setX 3 c.region |> Run.setX 4 c.offset.toNat
    |> Run.setX 5 c.len |> Run.setX 6 0 |> Run.setX 7 (b2n c.abrupt)

/-- The first part of a call of more than 4,096 bytes, and what is left of it (R842). DEDUCED, log entry 56. -/
def AdaptorCall.split (c : AdaptorCall) : AdaptorCall × List AdaptorCall :=
  if c.moves && decide (4096 < c.len) then
    ({ c with len := 4096, data := c.data.take 4096 },
     [{ c with offset := c.offset + 4096, len := c.len - 4096, data := c.data.drop 4096 }])
  else (c, [])

/-- The function that a call serves. -/
def AdaptorCall.owner (c : AdaptorCall) : Option Nat := c.cmd.map (·.1)

/-- Start the next call, one at a time (R841), in turn among functions (R311). DEDUCED, log entry 56. -/
def pumpAdaptor (s : State) : State :=
  let o := s.osier
  let i := nextTurn o.callFn (o.calls.map AdaptorCall.owner)
  match o.call, o.calls[i]?, s.adaptorEntry with
  | none, some c, some e =>
    let c1 := c.split.1
    { s with osier := { o with call := some { c1 with startedAt := s.t },
                               calls := o.calls.take i ++ c.split.2 ++ o.calls.drop (i + 1), callFn := c.owner.getD o.callFn,
                               adaptor := some (adaptorRun e s.adaptorIndex c1 o.adaptor) } }
  | _, _, _ => s

/-- Hand an operation to the scan adaptor, which starts it at once when it has none (R72, R434). -/
def pushCall (c : AdaptorCall) (s : State) : State :=
  pumpAdaptor { s with osier := { s.osier with calls := s.osier.calls ++ [c] } }

end Sys2Proof.Machine
end

