-- ==== Sys2Proof/Machine/Hoop.lean ====
section
/-!
DEFINITION. The Hoop lattice: terms, arming sequences, halt sets, the halt action and what follows from it at once
(spec/09), and the end of a gathering (spec/10, spec/11).
-/

namespace Sys2Proof.Machine

open Sys2Proof

/-! ### Pins (R529, R530) -/

/-- Assert HOOP_OUT_n: a pulse in progress merges, the release gap delays it. -/
def assertHoop (n : Nat) (s : State) : State :=
  match (s.port n).hoopOut with
  | .idle => s |> modPort n (fun x => { x with hoopOut := .on s.t }) |> emit (.hoop n true)
  | .on _ => s
  | .gap since _ => modPort n (fun x => { x with hoopOut := .gap since true }) s

/-- Change the pulse of an XTRIG output. -/
def setXtrig (j : Nat) (v : Pulse) (s : State) : State :=
  if h : j < 8 then { s with xtrigOut := s.xtrigOut.set j { s.xtrigOut[j] with pulse := v } } else s

/-- The pulse of an XTRIG output, and whether its pulses are low. -/
def State.xtrig (s : State) (j : Nat) : Pulse := if h : j < 8 then s.xtrigOut[j].pulse else .idle
def State.xtrigLow (s : State) (j : Nat) : Bool := if h : j < 8 then s.xtrigOut[j].low else false

/-- Drive an XTRIG output to its active level, or to the other one (R530). -/
def driveXtrig (j : Nat) (active : Bool) (s : State) : State := emit (.xtrig j active (active != s.xtrigLow j)) s

/-- Give an XTRIG output the level of the weft that asks for its pulse (R507, R530). -/
def setXtrigLow (j : Nat) (low : Bool) (s : State) : State :=
  if h : j < 8 then { s with xtrigOut := s.xtrigOut.set j { s.xtrigOut[j] with low := low } } else s

/-- Begin a pulse of an XTRIG output. -/
def startXtrig (j : Nat) (s : State) : State := s |> setXtrig j (.on s.t) |> driveXtrig j true

/-- Pulse an XTRIG output at the level that the acting weft's XTRIG_POL makes active: a pulse in progress or delayed merges,
and keeps its own level; 20 ns released stand before the next one (R530). DESIGN CHOICE, log entry 40. -/
def pulseXtrig (j : Nat) (low : Bool) (s : State) : State :=
  match s.xtrig j with
  | .idle => s |> setXtrigLow j low |> startXtrig j
  | .on _ => s
  | .gap since again =>
    let s1 := if again then s else setXtrigLow j low s
    if since + 32 ≤ s.t then startXtrig j s1 else setXtrig j (.gap since true) s1

/-! ### Terms (R508 to R514) -/

/-- The latest firings of sources after the sources of a mask fire now. -/
def noteFires (l : List (Nat × Nat)) (mask now : Nat) : List (Nat × Nat) :=
  ((List.range 32).filter (bit mask)).foldl (fun t k => Tab.set t k now) l

/-- Source k has fired within the window that ends now. -/
def inWindow (l : List (Nat × Nat)) (now window k : Nat) : Bool :=
  match Tab.get? l k with
  | some t => decide (now ≤ t + window)
  | none => false

/-- An occurrence of a term at this edge (R511): `mask` holds the sources that fire now, `l` the latest firings. -/
def occurs (t : Term) (l : List (Nat × Nat)) (mask now : Nat) : Bool :=
  let src := (List.range 32).filter
  let any := (src (bit (t.orMask ||| t.andMask))).any (bit mask)
  let orOk := t.orMask == 0 || (src (bit t.orMask)).any (inWindow l now t.window)
  let andOk := (src (bit t.andMask)).all (inWindow l now t.window)
  t.action != 0 && any && orOk && andOk

/-- What one edge does to one partition's terms: the occurrences and which terms act. -/
structure Edge where
  direct : Bool
  stage : Bool
  occDirect : Nat
  occStage : Nat
  firesDirect : List (Nat × Nat)
  firesStage : List (Nat × Nat)

/-- Evaluate the direct term and the current stage of a partition for the sources of `mask` (R511). What fires at the edge
that advances the sequence counts for the old stage only (R512). -/
def State.edge (s : State) (p mask : Nat) : Edge :=
  let x := s.part p
  let fd := noteFires x.firesDirect mask s.t
  let entered := decide (x.stageAt ≤ s.t)
  let fs := if entered then noteFires x.firesStage mask s.t else x.firesStage
  let d := directTerm x.active.weft
  let g := stageTerm x.active.weft x.stage
  let od := x.occDirect + b2n (occurs d fd mask s.t)
  let gs := entered && occurs g fs mask s.t
  let os := x.occStage + b2n gs
  { direct := occurs d fd mask s.t && od == d.count, stage := gs && os == g.count,
    occDirect := od, occStage := os, firesDirect := fd, firesStage := fs }

/-- A halt that enters the lattice (R516): its partition, action 2 HALT or 3 HALT_CUT, abruptness, TERM code, deciding
sources, and for a host command its function and tag. -/
structure HaltReq where
  p : Nat
  action : Nat
  abrupt : Bool
  term : Nat
  sources : Nat := 0
  host : Option (Nat × W32) := none
  /-- A forward from the twin is not forwarded back (R535). -/
  forward : Bool := true

/-- The CUT command whose cut a halt begins: its tag is the cut's HOST_TAG, which is 0 for a trigger's cut, also where a HALT
command acts at the same edge (R537, R620). -/
def HaltReq.cutHost (r : HaltReq) : Option (Nat × W32) := if r.term = 0x21 then r.host else none

/-- The halt that a partition's terms ask for at this edge (R514). Where both act, the record shows the direct term (R539).
DESIGN CHOICE, log entry 85. -/
def State.termHalt (s : State) (p mask : Nat) : Option HaltReq :=
  let x := s.part p
  let e := s.edge p mask
  let d := directTerm x.active.weft
  let g := stageTerm x.active.weft x.stage
  let hd := e.direct && decide (2 ≤ d.action)
  let hs := e.stage && decide (2 ≤ g.action)
  if x.held || (!hd && !hs) then none
  else some
    { p := p, action := if (hd && d.action == 3) || (hs && g.action == 3) then 3 else 2,
      abrupt := (hd && d.abrupt) || (hs && g.abrupt),
      term := if hd then 0 else 0x10 + x.stage, sources := mask }

/-- The sources of the fires not yet evaluated, for one partition. -/
def State.fireMask (s : State) (p : Nat) : Nat := bitsOf 32 fun k => s.fires.contains (p, k)

/-- The PEER sources of a partition that fire because the partitions of `set` take halt actions (R502, R516). -/
def State.peerMask (s : State) (q : Nat) (set : List Nat) : Nat :=
  bitsOf 32 fun k => decide (28 ≤ k) &&
    set.contains (peerOf (s.part q).active.weft (k - 28)) &&
    bit (exportHalt (s.part (peerOf (s.part q).active.weft (k - 28))).active.weft) q

/-- The sources of a partition at this edge, PEER sources included. -/
def State.edgeMask (s : State) (p : Nat) (set : List Nat) : Nat := s.fireMask p ||| s.peerMask p set

/-- The halt set: the partitions of `set` and those that halts by terms, and by PEER sources, add until nothing is added
(R516). DEDUCED, log entry 52. -/
def State.haltSet (s : State) : Nat → List Nat → List Nat
  | 0, set => set
  | k + 1, set =>
    let more := (List.range 64).filter fun q => !set.contains q && (s.termHalt q (s.edgeMask q set)).isSome
    if more.isEmpty then set else s.haltSet k (set ++ more)

/-- The action of one member of the halt set, by every source that fires at the edge: a host's halt and the halt of its own
terms are one action, HALT_CUT and ABRUPT as either asks, and its record shows the host's TERM code (R514, R516, R537,
R539). A term that acts by a PEER source alone counts as PEER. DEDUCED, log entry 52. DESIGN CHOICE, log entry 85. -/
def State.member (s : State) (host : List HaltReq) (set : List Nat) (q : Nat) : HaltReq :=
  let mask := s.edgeMask q set
  let own := s.termHalt q mask
  match host.find? fun r => r.p == q with
  | some r =>
    { r with action := max r.action ((own.map (·.action)).getD 2), abrupt := r.abrupt || own.any (·.abrupt), sources := mask }
  | none =>
    match own with
    | some r => if (s.termHalt q (s.fireMask q)).isSome then r else { r with term := 0x40 }
    | none => { p := q, action := 2, abrupt := false, term := 0x40, sources := mask }

/-! ### The TRIGGER record (R539) -/

/-- Write a TRIGGER record. -/
def triggerRec (p serial sources term action : Nat) (abrupt : Bool) (hoop vc0 fwd hostTag suppressed : Nat)
    (s : State) : State :=
  writeRec 7 p (leBytes 4 serial ++ leBytes 4 sources ++
    [BitVec.ofNat 8 term, BitVec.ofNat 8 action, BitVec.ofNat 8 (b2n abrupt), 0, BitVec.ofNat 8 hoop,
     BitVec.ofNat 8 vc0, BitVec.ofNat 8 fwd, 0] ++ leBytes 8 s.t ++ leBytes 4 hostTag ++ leBytes 4 suppressed) s

/-- A mask of ports. -/
def portMask (l : List Nat) : Nat := bitsOf 8 fun n => l.contains n

/-! ### Units at a halt (R541, R561, R562) -/

/-- The unit is on a port that is not in ACTIVE, or whose enumeration after ACTIVE has not ended, was not found by
enumeration, or is a fallback unit without an adaptor: R56, R131, R425, R434, R548, R551, R562 apply to it. -/
def State.unitDown (s : State) (u : Nat) : Bool :=
  let n := u / 4096
  if s.fallback n then !s.osier.adaptorReady else !(s.up n && (s.unit u).found)

/-- The unit no longer holds up a gathering: HALTED, or UNRESPONSIVE with no fresh timeout running (R558, R596). -/
def UnitSt.settled (x : UnitSt) : Bool := x.view == .halted || (x.declared && x.haltDeadline.isNone)

/-- Declare a unit UNRESPONSIVE: no gathering waits for it any more, whatever a read shows of it (R75, R562). -/
def UnitSt.declare (now : Nat) (x : UnitSt) : UnitSt :=
  { x with view := .unresponsive, haltDeadline := none, stepDeadline := none, declared := true, settledAt := now }

/-- A unit whose request is out: its timeout runs again. -/
def UnitSt.await (deadline : Nat) (x : UnitSt) : UnitSt :=
  { x with haltDeadline := some deadline, gatherBy := some deadline, declared := false }

/-- A RESUME or STEP of the unit is sent and not answered. DEDUCED, log entry 45. -/
def State.runUnanswered (s : State) (u : Nat) : Bool :=
  let x := (s.port (u / 4096)).lk.tx0
  (x.outst ++ x.waiting).any fun r =>
    (r.msg.op == 2 || r.msg.op == 3) && s.unitPart u == some r.msg.partition.toNat &&
      (r.msg.target.getLsbD 15 || r.msg.target.toNat % 4096 == u % 4096)

/-- A halt action meets a unit: UNRESPONSIVE at once on a link that is down, DRAINING if it runs or a RESUME or STEP of it
is under way (R586), and its HALT_TIMEOUT starts while it has no record. DEDUCED, log entry 44. DEDUCED, log entry 45. -/
def haltUnit (timeout u : Nat) (s : State) : State :=
  let runs := s.runUnanswered u
  if s.unitDown u then modUnit u (UnitSt.declare s.t) s
  else
    modUnit u
      (fun x =>
        let v : View := if x.view == .running || (x.view == .halted && runs) then .draining else x.view
        if v == .halted then { x with view := v, haltDeadline := none, gatherBy := some (s.t + timeout) }
        else UnitSt.await (s.t + timeout) { x with view := v }) s

/-- The unit's partition has a gathering. -/
def State.unitGathers (s : State) (u : Nat) : Bool := (s.unitPart u).any fun p => (s.part p).gather.isSome

/-- A halt of a held partition gives a fresh HALT_TIMEOUT to a unit that is UNRESPONSIVE or DRAINING, or that the request
takes from RUNNING to DRAINING; a HALTED one serves by its record (R53, R541, R560, R592 step 3). -/
def freshTimeout (timeout u : Nat) (s : State) : State :=
  let gathers := s.unitGathers u
  let fresh (x : UnitSt) : UnitSt :=
    if x.view == .halted || x.view == .stepping then if gathers then x else { x with gatherBy := some (s.t + timeout) }
    else UnitSt.await (s.t + timeout) { x with view := if x.view == .running then .draining else x.view }
  if s.unitDown u && (s.unit u).view != .halted then modUnit u (UnitSt.declare s.t) s else modUnit u fresh s

/-! ### Cuts that begin (R592, R593) -/

/-- A cut of a partition that begins now; `gathering` at its halt action. -/
def newCut (s : State) (p origin : Nat) (host : Option (Nat × W32)) (halted : Bool) (actionTs : Nat) : Cut :=
  { id := 0, partition := p, label := 0, origin := origin, hostTag := (host.map (·.2)).getD 0, owners := host.toList,
    starter := host, frozen := false, halted := halted, serial := 0, report := none,
    actionTs := BitVec.ofNat 64 actionTs, assignTs := 0, instant := 0,
    weftGen := (s.part p).active.gen, stage := 0, units := [], chans := [], msgs := [], ranges := [],
    skippedEntries := 0, regionPages := (0, 0), statePages := (0, 0), releasing := false, asked := false, releasedBy := none,
    regionStored := none, stateStored := none, poison := ([], []), bad := ([], []) }

/-! ### The halt action (R517) -/

/-- The port takes a VC0 HALT of the partition: its link is in ACTIVE, or retrains (R537), it carries units and this
hub holds the stake. -/
def State.vc0Port (s : State) (p n : Nat) : Bool :=
  s.carries n p && (s.stake n p).held && (s.up n || ((s.port n).lk.link == .retrain && (s.port n).enumerated))

/-- A VC0 HALT request to every unit of the partition on a port. DEDUCED, log entry 44. -/
def askHalt (n p : Nat) (tag : W32) (subseq : Nat) (abrupt : Bool) (who : ReqFor) (s : State) : State :=
  ask n 0 1 0 true p tag who (leBytes 4 subseq ++ [BitVec.ofNat 8 (b2n abrupt)]) s

/-- Send the VC0 HALT requests of a halt: with the host command's tag and SUBSEQ from 0, or with TAG 0 and the trigger
serial, which each request advances (R518, R521, R552). The SUBSEQ of a port is its place among the ports that carry units of
the partition, whatever their links and stakes (R443). DEDUCED, log entry 44. -/
def sendHalts (p : Nat) (abrupt : Bool) (host : Option (Nat × W32)) (ports : List Nat) (s : State) : State :=
  match host with
  | some (f, tag) =>
    s |> modWork f tag (fun w => { w with outst := w.outst + ports.length })
      |> each ((s.portsOf p).zipIdx.filter fun e => ports.contains e.1)
          (fun (n, k) => askHalt n p tag k abrupt (.cmd f tag (unitNo n 0) k))
  | none =>
    each ports
      (fun n t =>
        let sr : W32 := if (t.part p).serial == 0xFFFFFFFF then 1 else (t.part p).serial + 1
        t |> modPart p (fun x => { x with serial := sr }) |> askHalt n p 0 sr.toNat abrupt (.halt p)) s

/-- Queue the halts of a partition's fallback units (R435, R520). -/
def fallbackHalts (p : Nat) (abrupt : Bool) (host : Option (Nat × W32)) (s : State) : State :=
  if s.fallback 7 && s.osier.adaptorReady then
    each (s.unitsOn 7 p)
      (fun u => pushCall { op := 1, unit := u, region := 0, offset := 0, len := 0, abrupt := abrupt,
                           cmd := host, startedAt := s.t, data := [] }) s
  else s

/-- The partition enters its hold: its sequence returns to stage 0 and its terms start afresh, the direct term's occurrence
count with them (R515, R517 step 1). DESIGN CHOICE, log entry 85. -/
def enterHold (p : Nat) (s : State) : State :=
  let found (x : PartSt) : AtHalt :=
    { at_ := s.now, stage := x.stage, occDirect := x.occDirect, occStage := x.occStage, firesDirect := x.firesDirect,
      firesStage := x.firesStage, stageAt := x.stageAt, action := 2, abrupt := false, host := none, forward := true,
      serial := 0 }
  modPart p (fun x => { x with held := true, stage := 0, stageAt := s.t, occDirect := 0, occStage := 0,
                               firesDirect := [], firesStage := [], suppressed := 0, holdCount := 0,
                               lastActionTs := s.now, atHalt := some (found x) }) s

/-- Keep what a halt action was, for what else acts at its edge. -/
def noteAction (r : HaltReq) (abrupt : Bool) (serial : Nat) (s : State) : State :=
  modPart r.p (fun x =>
    { x with atHalt := x.atHalt.map fun h =>
        { h with action := r.action, abrupt := abrupt, host := r.host, forward := r.forward,
                 serial := BitVec.ofNat 32 serial } }) s

/-- One member of a halt set takes its halt action (R517): `fast` holds the ports whose HOOP_OUT was asserted, and
`suppressed` what its previous hold counted. -/
def haltAction (r : HaltReq) (fast : List Nat) (suppressed : Nat) (s : State) : State :=
  let p := r.p
  let w := (s.part p).active.weft
  let abrupt := r.abrupt || hoopAbrupt w
  let ports := (List.range 8).filter (s.vc0Port p)
  let fwd := (s.portsOf p).filter fun n => (s.stake n p).twin
  let hoop := fast
  let timeout := s.haltTimeout p
  let down := (s.portsOf p).filter fun n => (s.port n).lk.link != .active
  let gather : Gather :=
    { actionTs := s.now, timeout := timeout, hoopPorts := BitVec.ofNat 8 (portMask hoop),
      downPorts := BitVec.ofNat 8 (portMask down) }
  let s1 := s |> sendHalts p abrupt r.host ports |> fallbackHalts p abrupt r.host
  let s2 := if r.forward then
      plaitSend 0 1 p ([BitVec.ofNat 8 r.action, BitVec.ofNat 8 (b2n abrupt)] ++ zeros 6 ++ leBytes 8 s.t) s1 else s1
  let s3 := s2 |> each ((List.range 8).filter fun j => bit (xtrigOut w) j && bit s.xtrigDir j)
        (fun j => pulseXtrig j (bit (xtrigPol w) j))
    |> each (s.unitsOf p) (haltUnit timeout)
    |> modPart p (fun x => { x with gather := some gather })
  let serial := if r.host.isSome || ports.isEmpty then 0 else (s3.part p).serial.toNat
  let s4 := if r.action = 3 then
      let c := newCut s p (if r.term = 0x21 then 1 else 0) r.cutHost true s.t
      modPart p (PartSt.addCut { c with serial := BitVec.ofNat 32 serial }) s3
    else s3
  s4 |> noteAction r abrupt serial |> bumpAlways 49 1 |> hubEvent p 1 1
     |> triggerRec p serial r.sources r.term r.action abrupt (portMask hoop) (portMask ports) (portMask fwd)
          ((r.host.map fun h => h.2.toNat).getD 0) suppressed

/-! ### The pin path (R525, R526) -/

/-- The partition is in the fast set of the port. -/
def State.inFast (s : State) (n p : Nat) : Bool := s.carries n p && (s.stake n p).hoopEn == some true

/-- The ports that are fast-eligible for a halt set. -/
def State.fastPorts (s : State) (set : List Nat) : List Nat :=
  (List.range 8).filter fun n =>
    let f := (List.range 64).filter (s.inFast n)
    f.any set.contains && f.all fun p => set.contains p || (s.part p).held

/-- Every partition of a halt set takes its action at the same edge (R516). DEDUCED, log entry 52. -/
def performHalts (l : List HaltReq) (s : State) : State :=
  let fast := s.fastPorts (l.map (·.p))
  let sup := fun p => (s.part p).holdCount.toNat
  s |> each l (fun r t => t |> freezeGraph r.p |> enterHold r.p) |> each fast assertHoop
    |> each l (fun r => haltAction r fast (sup r.p))

/-! ### The end of a gathering -/

/-- Every unit of the partition has a record or a declaration. -/
def State.gathered (s : State) (p : Nat) : Bool := (s.unitsOf p).all fun u => (s.unit u).settled

/-- Units of the partition in a view state. -/
def State.countView (s : State) (p : Nat) (v : View) : Nat :=
  ((s.unitsOf p).filter fun u => (s.unit u).view == v).length

/-- The latest halt record or declaration of a partition's units (R559). -/
def State.lastSettled (s : State) (p : Nat) : Nat := (s.unitsOf p).foldl (fun m u => max m (s.unit u).settledAt) 0

/-- The result words of a HALT (R559): RESULT2 from the halt action of its gathering `g` to the last record or declaration. -/
def State.haltRes (s : State) (c : Cmd) (g : Option Gather) (status : Byte) (part : Bool) : Res :=
  { status := status, part := part, r0 := s.countView c.partition .halted, r1 := s.countView c.partition .unresponsive,
    r2 := ((g.map fun x => (s.lastSettled c.partition - x.actionTs.toNat) / Config.ticksPerUs).getD 0),
    r3 := c.work.dieCode.toNat + 256 * ((g.map fun x => x.hoopPorts.toNat).getD 0) +
      65536 * ((g.map fun x => x.downPorts.toNat).getD 0) }

/-- The latest halt action of the partition is a host command's. -/
def PartSt.tookHalt (x : PartSt) (f : Nat) (tag : W32) : Bool := x.atHalt.any fun h => h.host == some (f, tag)

/-- Complete a HALT command (R559): a failing die answer gives its status (R553); its own halt action is a side effect that
PARTIAL shows where a link went down (R425). -/
def completeHalt (f : Nat) (c : Cmd) (g : Option Gather) (s : State) : State :=
  let un := s.countView c.partition .unresponsive
  let st := match c.work.failed c.work.executed with
    | some x => x
    | none => if un = 0 then stOk else stUnitUnresponsive
  let part := c.work.executed || c.work.fail.isNone || st == stUnitUnresponsive ||
    (st == stLinkDown && (s.part c.partition).tookHalt f c.tag)
  complete f c.tag (s.haltRes c g st (st != stOk && part)) s

/-- The registers of a unit that a synthesized record needs: window offset and word count, by step (R545). -/
def synthStep (k : Nat) : Nat × Nat :=
  if k = 0 then (0x0004, 1) else if k = 1 then (0x0010, 3) else if k = 2 then (0x0400, 64) else if k = 3 then (0x0D04, 2)
  else (0x0E08, 1)

/-- Read what a synthesized record needs, for a HALTED unit without a record. -/
def askSynth (u p : Nat) (s : State) : State :=
  each (List.range 5)
    (fun k => askRegRead (u / 4096) (u % 4096) p 0 (.synth u k) (synthStep k).1 (synthStep k).2) s

/-- HALTED units of a partition for which the hub holds no record. -/
def State.recordless (s : State) (p : Nat) : List Nat :=
  (s.unitsOf p).filter fun u => (s.unit u).view == .halted && (s.unit u).record.isNone

/-- The cut whose gathering has ended, the newest one, goes on to its proof; recordless units are read first. Without units
it is assigned at once (R608). -/
def cutGathered (p : Nat) (s : State) : State :=
  if (s.part p).begun.getLast?.any fun c => c.stage == 0 then
    let s1 := modPart p (PartSt.mapNewest fun c => { c with stage := 1 }) s
    if (s.unitsOf p).isEmpty then assignEmpty p s1
    else each ((s.recordless p).filter fun u => s.up (u / 4096)) (fun u => askSynth u p) s1
  else s

/-- When every unit of a gathering is settled, the gathering ends: the HALT commands of the partition complete and its
cut goes on (R558, R596). -/
def checkGather (p : Nat) (s : State) : State :=
  if s.gathered p then
    let g := (s.part p).gather
    let halts := s.cmdsWhere fun _ c => c.op == 0x10 && c.started && c.partition == p
    s |> modPart p (fun x => { x with gather := none })
      |> each halts (fun (f, c) => completeHalt f c g) |> cutGathered p
  else s

/-- Look at the gathering of a partition, if it has one. -/
def checkGathering (p : Nat) (s : State) : State := if (s.part p).gather.isSome then checkGather p s else s

/-! ### One edge of the lattice, and settling -/

/-- The terms of a weft that can act: the direct term and the stages up to the first that does not ARM, those whose ACTION is
not 0 (R510). -/
def usedTerms (w : Mem) : List Term :=
  let armed := ((List.range 4).takeWhile fun k => (stageTerm w k).action == 1).length
  (directTerm w :: (List.range (armed + 1)).map (stageTerm w)).filter fun t => t.action != 0

/-- How many sources of a mask a partition's terms use (R515). -/
def usedSources (w : Mem) (mask : Nat) : Nat :=
  let all := (usedTerms w).foldl (fun m t => m ||| t.orMask ||| t.andMask) 0
  ((List.range 32).filter fun k => bit mask k && bit all k).length

/-- The lattice of a partition as the edge of its halt action found it. -/
def AtHalt.lattice (h : AtHalt) (x : PartSt) : PartSt :=
  { x with held := false, stage := h.stage, occDirect := h.occDirect, occStage := h.occStage, firesDirect := h.firesDirect,
           firesStage := h.firesStage, stageAt := h.stageAt }

/-- What else acts at the edge of a halt action makes it HALT_CUT and abrupt as it asks (R514, R537). A cut then begins with
it, and an abrupt HALT, or that of a host command, follows on the ports. A CUT that meets the action's own cut owns it with
the action. DESIGN CHOICE, log entry 85. -/
def raiseAction (r : HaltReq) (h : AtHalt) (s : State) : State :=
  let p := r.p
  let cut := h.action != 3 && r.action == 3
  let abrupt := !h.abrupt && r.abrupt
  let h1 := { h with action := if cut then 3 else h.action, abrupt := h.abrupt || abrupt, host := h.host <|> r.host }
  let c := newCut s p (if r.term = 0x21 then 1 else 0) r.cutHost true s.t
  let joins := r.action == 3 && h.action == 3 && r.cutHost.isSome
  let own (x : Cut) : Cut := { x with owners := x.owners ++ r.cutHost.toList, starter := x.starter <|> r.cutHost }
  s |> modPart p (fun x => { x with atHalt := some h1 })
    |> (fun t => if abrupt || r.host.isSome then
          t |> sendHalts p h1.abrupt r.host ((List.range 8).filter (t.vc0Port p)) |> fallbackHalts p h1.abrupt r.host
        else t)
    |> (fun t => if cut then modPart p (PartSt.addCut { c with serial := h.serial }) t
        else if joins then modPart p (PartSt.mapNewest own) t else t)
    |> (fun t => if (cut || abrupt) && h.forward then
          plaitSend 0 1 p ([BitVec.ofNat 8 h1.action, BitVec.ofNat 8 (b2n h1.abrupt)] ++ zeros 6 ++ leBytes 8 t.t) t
        else t)

/-- Sources fire at the edge of a halt action that the partition has taken: a term that acts joins it (R514, R537). -/
def joinAction (p mask : Nat) (h : AtHalt) (s : State) : State :=
  let t := modPart p h.lattice s
  let e := t.edge p mask
  let h1 := { h with occDirect := e.occDirect, occStage := e.occStage, firesDirect := e.firesDirect, firesStage := e.firesStage }
  match t.termHalt p mask with
  | some r => s |> raiseAction r h1 |> checkGathering p
  | none => modPart p (fun x => { x with atHalt := some h1 }) s

/-- The halt action that a held partition has taken at the edge of now. -/
def State.actedNow (s : State) (p : Nat) : Option AtHalt := (s.part p).atHalt.filter fun h => h.at_ == s.now

/-- What an edge leaves in a partition that takes no halt action: suppressed firings while held, but for those at the edge of
the action itself, else the occurrences, the latest firings and a stage advance, which takes effect at the next edge (R511,
R512, R515). -/
def edgeEffect (p mask : Nat) (s : State) : State :=
  let x := s.part p
  if x.held then
    match s.actedNow p with
    | some h => joinAction p mask h s
    | none =>
    let more (v : W32) : W32 := BitVec.ofNat 32 (sat 0xFFFFFFFF (v.toNat + usedSources x.active.weft mask))
    modPart p (fun y => { y with suppressed := more y.suppressed, holdCount := more y.holdCount }) s
  else
    let e := s.edge p mask
    let s1 := modPart p (fun y => { y with occDirect := e.occDirect, occStage := e.occStage,
                                           firesDirect := e.firesDirect, firesStage := e.firesStage,
                                           occAt := if x.occStage < e.occStage then s.t else y.occAt }) s
    if e.stage && (stageTerm x.active.weft x.stage).action == 1 then
      s1 |> modPart p (fun y => { y with stage := y.stage + 1, stageAt := s.t + 1, occStage := 0, firesStage := [] })
         |> triggerRec p 0 mask (0x10 + x.stage) 1 (stageTerm x.active.weft x.stage).abrupt 0 0 0 0 x.holdCount.toNat
    else s1

/-- What one ENG edge does: the fires that wait are evaluated together with the halts that enter (R511, R516). -/
def edgeOnce (host : List HaltReq) (s : State) : State :=
  let host := host.filter fun r => !(s.part r.p).held
  let set := s.haltSet 65 (host.map (·.p))
  let masks := (List.range 64).map fun p => (p, s.edgeMask p set)
  let s1 := { s with fires := [] }
  s1 |> each (masks.filter fun (p, m) => m != 0 && !set.contains p) (fun (p, m) => edgeEffect p m)
     |> performHalts (set.map (s.member host set))
     |> each set checkGather

/-- The partitions whose weft switch is at the ENG edge of now. -/
def State.switching (s : State) : List Nat := (List.range 64).filter fun p => (s.part p).before.any fun b => b.at_ == s.now

/-- The lattice of a partition as it stood before its latest switch and as it stands change places. -/
def PartSt.trade (x : PartSt) : PartSt :=
  match x.before with
  | some b =>
    { x with active := b.active, stage := b.stage, occDirect := b.occDirect, occStage := b.occStage,
             firesDirect := b.firesDirect, firesStage := b.firesStage, stageAt := b.stageAt, occAt := b.occAt,
             watchdogAt := b.watchdogAt,
             before := some { at_ := b.at_, active := x.active, stage := x.stage, occDirect := x.occDirect,
                              occStage := x.occStage, firesDirect := x.firesDirect, firesStage := x.firesStage,
                              stageAt := x.stageAt, occAt := x.occAt, watchdogAt := x.watchdogAt } }
  | none => x

/-- A partition as the ENG edge of now sees it: under its old plane at the edge of its switch (R237). -/
def State.atEdge (s : State) (p : Nat) : PartSt :=
  if (s.part p).before.any fun b => b.at_ == s.now then (s.part p).trade else s.part p

/-- One ENG edge. A trigger at the edge that coincides with a weft switch acts under the old plane (R237). -/
def latticeEdge (host : List HaltReq) (s : State) : State :=
  let old := s.switching
  s |> each old (fun p => modPart p PartSt.trade) |> edgeOnce host |> each old (fun p => modPart p PartSt.trade)

/-- Evaluate edges until no source waits. Each edge halts partitions, advances stages or spends its fires. -/
def settleLoop : Nat → State → State
  | 0, s => s
  | k + 1, s => if s.fires.isEmpty then s else settleLoop k (latticeEdge [] s)

/-- Evaluate every source that has fired. Only a halt action or a stage advance makes a source fire in turn, at most 64
times 5 rounds, so that nothing is left to clear. -/
def settle (s : State) : State := { settleLoop 512 s with fires := [] }

/-- Let halts enter the lattice, then evaluate what follows. -/
def enterHalts (l : List HaltReq) (s : State) : State := settle (latticeEdge l s)

/-- A host's HALT or CUT: it enters the lattice; at the edge of an action that the partition has taken it is the same one
(R537); of a partition held before, `held` is what it does (R519). -/
def enterHost (r : HaltReq) (held : State → State) (s : State) : State :=
  if !(s.part r.p).held then enterHalts [r] s
  else
    match s.actedNow r.p with
    | some h =>
      if r.action == 3 && h.action == 3 && (s.part r.p).begun.isEmpty then held s else s |> raiseAction r h |> checkGather r.p
    | none => held s

/-- The hold of a partition ends: every latest firing is cleared and the watchdog restarts (R515). A cut whose proof has not
ended keeps its units as they stand now. -/
def endHold (p : Nat) (s : State) : State :=
  let freeze (c : Cut) : Cut := if c.stage = 1 && !c.frozen then { c with frozen := true, units := s.cutUnits_ p } else c
  modPart p
    (fun x =>
      if x.held then
        { x.mapBegun freeze with
            held := false, firesDirect := [], firesStage := [], occDirect := 0, occStage := 0, watchdogAt := s.t,
            holdEnd := s.t }
      else x) s

/-- What the first RESUME or STEP sent for a partition ends: its hold, and, where a die is sent it, the binding of its reports
(R573, R683). -/
def runSent (p : Nat) (toDie : Bool) (s : State) : State :=
  s |> endHold p |> (fun t => if toDie then closeBinding p t else t)

/-- How a command's meaning ends: the next state, with every source that fired evaluated. -/
def done (s : State) : Host.Outcome State Fault Refusal := .next (settle s)

end Sys2Proof.Machine
end

