-- ==== Sys2Proof/Machine/Stake.lean ====
section
/-!
DEFINITION. Stakes: claims, renewals, releases and their answers, HOOP_CTRL, STAKE_NOTE, the twin events (spec/19,
spec/08, spec/09).
-/

namespace Sys2Proof.Machine

open Sys2Proof

/-- Set PLT_EVENT bits and signal vector 2 of every PF (R991). -/
def plaitEvent (bit : Nat) (s : State) : State :=
  { s with plait := { s.plait with event := s.plait.event ||| (1#8 <<< bit),
                                   eventSet := s.plait.eventSet.add s.ctlCycle (1#32 <<< bit) } } |> signalPfs 2

/-- The Plait link is up: in ACTIVE, or in a retrain (R953). -/
def State.plaitUp (s : State) : Bool := s.plait.lk.link == .active || s.plait.lk.link == .retrain

/-- The hub is in a pair: HOOP_HALT_EN goes from 0 to 1 only with the twin's acknowledgement (R528). -/
def State.twinned (s : State) : Bool :=
  s.plait.pair == .pairing || s.plait.pair == .paired || s.plait.pair == .split || s.plait.pair == .twinLost

/-- The PAIR commands that wait. -/
def State.pairCmds (s : State) : List (Nat × Cmd) := s.cmdsWhere fun _ c => c.op == 0xA0 && c.started && c.f 52 1 == 0

/-- STAKE_NOTE to the twin: 0 gained, 1 released, 2 lost (R955). -/
def stakeNote (n p event : Nat) (s : State) : State :=
  if 2 ≤ s.roleCode then
    plaitSend 0 4 p ([BitVec.ofNat 8 (2 ^ n), BitVec.ofNat 8 event] ++ leBytes 2 (s.stake n p).gen.toNat) s
  else s

/-- HOOP_EN to the twin (R955, R958). -/
def sendHoopEn (n p : Nat) (v : Bool) (s : State) : State :=
  plaitSend 0 2 p [BitVec.ofNat 8 (2 ^ n), BitVec.ofNat 8 (b2n v)] s

/-- Write a partition's HOOP_CTRL on a die: HOOP_HALT_EN and HOOP_ABRUPT (R500, R527). The word stands in the
partition's block, so the request is PARTITION_WIDE (R445). Log entry 31. -/
def askHoopCtrl (n p : Nat) (en abrupt : Bool) (s : State) : State :=
  askRegWrite n 0 true p 0 0 (.hoopCtrl p) 0x0E0C
    (leBytes 4 (b2n en + 2 * b2n abrupt)) s

/-- A request for the die of a port can be handed to its link: in ACTIVE, or in a retrain, after which it goes out (R424). -/
def State.takesReq (s : State) (n : Nat) : Bool := (s.port n).lk.link == .active || (s.port n).lk.link == .retrain

/-- Write HOOP_CTRL as the active weft asks (R527). In a pair a change to 1 first waits for the twin's acknowledgement;
a change to 0 is sent to the twin and made at once (R528, R958). DEDUCED, log entry 31. -/
def writeHoopCtrl (n p : Nat) (s : State) : State :=
  let w := (s.part p).active.weft
  let want := hoopFast w
  let rises := want && (s.stake n p).hoopEn != some true
  if !(s.stake n p).held || !s.takesReq n then s
  else if rises && s.twinned then
    let s1 := askHoopCtrl n p false (hoopAbrupt w) s
    if s.plaitUp then
      let m := Tab.getD s1.plait.enWait p (0 : Byte) ||| (1#8 <<< n)
      { s1 with plait := { s1.plait with enWait := Tab.set s1.plait.enWait p m } } |> sendHoopEn n p true
    else s1
  else
    let s1 := if s.twinned && !want && (s.stake n p).hoopEn != some false then sendHoopEn n p false s else s
    askHoopCtrl n p want (hoopAbrupt w) s1

/-- Keep the SYNC and WAIT bits of EVT_EN set in every unit of a partition on a port while GRAPH_ENABLE is 1 (R649). -/
def keepEvtEn (n p : Nat) (s : State) : State :=
  if hangFlag (s.part p).active.weft 0 && (s.stake n p).held && s.takesReq n then
    each (s.unitsOn n p)
      (fun u t => askRegWrite n (u % 4096) false p 0 0 (.evtEn u) 0x000C
        (leBytes 4 (((t.unit u).evtEn.getD 0) ||| 3).toNat) t) s
  else s

/-- Take a request out of the ones that wait for a new claim of the partition. -/
def State.resends (s : State) (n p : Nat) : List OutReq := ((s.port n).resend.filter fun e => e.1 == p).map (·.2)

/-- Drop the requests that wait for a new claim. -/
def clearResends (n p : Nat) (s : State) : State :=
  modPort n (fun x => { x with resend := x.resend.filter fun e => e.1 != p }) s

/-- Send again the requests that waited for a new claim, under the new generation (R553). -/
def flushResends (n p : Nat) (s : State) : State :=
  s |> clearResends n p
    |> each (s.resends n p) (fun r t => sendReq n { r with msg := { r.msg with holder := t.holderWord n p } } t)

/-- An accepted claim: the pair enters the held set (R965); outside ENUMERATE that is an event (R991). While a PAIR runs it
is a side effect of it (R284). -/
def stakeGained (n p : Nat) (gen : Nat) (s : State) : State :=
  let fresh := !(s.stake n p).held && s.boot.phase == .ready
  let s1 := if fresh then plaitEvent 4 s else s
  s1 |> modStake n p (fun x => { x with held := true, twin := false, gen := BitVec.ofNat 16 gen, since := s.t,
                                        retryAt := none })
     |> (fun t => if t.plait.pair == .pairing then each t.pairCmds (fun (f, c) => modWork f c.tag fun w => { w with executed := true }) t
        else t)
     |> stakeNote n p 0 |> writeHoopCtrl n p |> keepEvtEn n p |> flushResends n p

/-- A refused claim or renewal: the pair leaves the held set and is twin-held, and STAKE_LOST is set (R965). -/
def stakeLost (n p : Nat) (s : State) : State :=
  s |> modStake n p (fun x => { x with held := false, twin := true }) |> stakeNote n p 2 |> plaitEvent 5

/-- The pairs of this hub's held set, port and partition. -/
def State.heldSet (s : State) : List (Nat × Nat) :=
  (List.range 8).flatMap fun n => ((s.port n).stakes.filter fun e => e.2.held).map fun e => (n, e.1)

/-- The pairs that are twin-held. -/
def State.twinSet (s : State) : List (Nat × Nat) :=
  (List.range 8).flatMap fun n => ((s.port n).stakes.filter fun e => e.2.twin).map fun e => (n, e.1)

/-- Claims, with or without an answer yet: the pair has a claim outstanding. -/
def State.claiming (s : State) (n p : Nat) : Bool := (s.port n).lk.open_.any fun r => r.who == .claim p

/-- Claim a pair, unless a claim of it is outstanding. -/
def claim (n p : Nat) (s : State) : State := if s.claiming n p then s else askClaim n p s

/-- The hub claims pairs that are refused again and again: in TWIN_LOST, and for a TAKEOVER in progress (R978, R984). -/
def State.retries (s : State) (p : Nat) : Bool :=
  s.plait.pair == .twinLost ||
    !(s.cmdsWhere fun _ c => c.op == 0xA0 && c.started && c.f 52 1 == 2 && bit (c.f 20 8) p).isEmpty

end Sys2Proof.Machine
end

