-- ==== Sys2Proof/Machine/UnitOps.lean ====
section
/-!
DEFINITION. What the run-control and access commands share: their checks (R548, R549), how a command is split into
messages (R551, R552), what each die answer does to it (R553, R554), and how it ends (spec/10).
-/

namespace Sys2Proof.Machine

open Sys2Proof

/-! ### Checks -/

/-- The commands that R234 refuses find a commit outstanding that was fetched before them: one in force, or one not yet
started. -/
def State.barred (s : State) (c : Cmd) : Bool :=
  s.reweaving c.partition c.fetched ||
    !(s.cmdsWhere fun _ x =>
        (x.waitingWeft c.partition || s.waitingWarp c.partition x) && decide (x.fetched < c.fetched)).isEmpty

/-- First check that fails. -/
def firstFail (l : List (Bool × Byte)) : Option Byte := (l.find? (·.1)).map (·.2)

/-- The region of a READ_UNIT_MEM or WRITE_UNIT_MEM and its OFFSET (R546). -/
def Cmd.region (c : Cmd) : Nat := c.param0 % 256
def Cmd.memOffset (c : Cmd) : Nat := c.param1 + 2 ^ 32 * c.param2

/-- Bytes of a memory command: SIZE takes the place of LENGTH 0xFFFF_FFFF (R556). -/
def State.memLength (s : State) (c : Cmd) : Nat :=
  if c.length = 0xFFFFFFFF then ((classRegion (s.classOf c.unitFirst) c.region).map (·.2)).getD 0 else c.length

/-- The class of a unit is known: it is in reach, or its descriptor is held from the enumeration that found it, whatever its
link does (R452); a fallback unit has none. -/
def State.classed (s : State) (u : Nat) : Bool :=
  !s.fallback (u / 4096) && (!s.unitDown u ||
    ((s.unit u).found && (Tab.get? (s.port (u / 4096)).classes (s.unit u).classId.toNat).isSome))

/-- A memory command contradicts the class descriptor: region absent, READ or WRITE flag lacking (R548 row 4). -/
def State.badRegion (s : State) (c : Cmd) (write : Bool) : Bool :=
  s.classed c.unitFirst &&
    match classRegion (s.classOf c.unitFirst) c.region with
    | some (fl, _) => !bit fl (b2n write)
    | none => true

/-- A memory command's extent fails R556. -/
def State.badExtent (s : State) (c : Cmd) : Bool :=
  let size := ((classRegion (s.classOf c.unitFirst) c.region).map (·.2)).getD 0
  c.memOffset % 4 != 0 || (c.length != 0xFFFFFFFF && c.length % 4 != 0) ||
    (c.length == 0xFFFFFFFF && c.memOffset != 0) ||
    (s.classed c.unitFirst && decide (size < c.memOffset + s.memLength c))

/-- The unit is not HALTED and the region lacks RUNNING_ACCESS (R549). -/
def State.memBusy (s : State) (c : Cmd) : Bool :=
  (s.unit c.unitFirst).view != .halted &&
    match classRegion (s.classOf c.unitFirst) c.region with
    | some (fl, _) => !bit fl 3
    | none => true

/-- Some named unit is in one of the view states. -/
def State.anyView (s : State) (c : Cmd) (vs : List View) : Bool := (s.cmdUnits c).any fun u => vs.contains (s.unit u).view

/-- STEP contradicts a class: MODE 1 without ENGINE_STEP, or ENGINE at or above ENGINES (R548 row 4). A fallback unit, which
has no class, steps in either MODE. DESIGN CHOICE, log entry 91. -/
def State.badStep (s : State) (c : Cmd) : Bool :=
  c.f 52 1 == 1 && (s.cmdUnits c).any fun u =>
    s.classed u && (!classEngineStep (s.classOf u) || decide (classEngines (s.classOf u) ≤ c.f 53 1))

/-- The checks of R548 and R549 for a command of spec/10. -/
def State.unitCheck (s : State) (f : Nat) (c : Cmd) : Option Byte :=
  let p := c.partition
  let op := c.op
  let read := op == 0x20 || op == 0x22 || op == 0x32
  let mem := op == 0x22 || op == 0x23 || op == 0x32
  let write := op == 0x23
  let regs := op == 0x20 || op == 0x21
  firstFail
    [(!(if read then s.reads f p else s.owns f p), stNotOwner),
     (op != 0x10 && s.barred c, stPartitionReweaving),
     (!read && (if op == 0x10 then s.unitsOf p else s.cmdUnits c).any (s.twinHoldsUnit p), stStakeHeldByTwin),
     (mem && s.badRegion c write, stBadAddress),
     (op == 0x12 && s.badStep c, stBadOpcode),
     (mem && s.badExtent c, stBadAddress),
     (regs && (c.param0 % 65536 % 4 != 0 || c.length % 4 != 0 || decide (0x10000 < c.param0 % 65536 + c.length)),
       stBadAddress),
     (op != 0x10 && c.unitCount != 0xFFFF && (s.cmdUnits c).any s.unitDown, stLinkDown),
     ((op == 0x11 || op == 0x12) && ((s.part p).gather.isSome || s.capturing p), stBusy),
     (op == 0x11 && s.anyView c [.draining, .stepping], stBusy),
     (op == 0x12 && s.anyView c [.running, .draining, .stepping], stBusy),
     ((op == 0x21 || op == 0x23) && s.capturing p, stBusy),
     (mem && !s.fallback (c.unitFirst / 4096) && s.memBusy c, stBusy)]

/-! ### Splitting into messages (R551, R552) -/

/-- One message of a command: port, channel, operation, TARGET, wide, window or region data, the unit it serves. -/
structure CmdMsg where
  n : Nat
  ch : Nat
  op : Nat
  target : Nat
  wide : Bool
  unit : Nat
  /-- The data after SUBSEQ of a state-changing request, or all the data of one that changes nothing. -/
  body : List Byte
  changes : Bool
  deriving DecidableEq, Repr

/-- A message can be sent: its port, or its unit, is in reach, and the adaptor does not serve it (R434, R551). -/
def State.reachable (s : State) (m : CmdMsg) : Bool :=
  !s.fallback m.n && (if m.wide then s.up m.n else !s.unitDown m.unit)

/-- Of the messages of a command, send those on ports that `sel` selects and in reach. SUBSEQ is the message's number among
all messages of the command, which its descriptor alone gives (R443, R552). -/
def sendParts (f : Nat) (tag : W32) (p : Nat) (sel : Nat → Bool) (l : List CmdMsg) (s : State) : State :=
  let go := l.zipIdx.filter fun e => sel e.1.n && s.reachable e.1
  s |> modWork f tag (fun w => { w with outst := w.outst + go.length })
    |> each go (fun (m, k) =>
        ask m.n m.ch m.op m.target m.wide p tag (.cmd f tag m.unit k)
          ((if m.changes then leBytes 4 k else []) ++ m.body))

/-- Send every message of a command. -/
def sendAll (f : Nat) (c : Cmd) (l : List CmdMsg) (s : State) : State := sendParts f c.tag c.partition (fun _ => true) l s

/-- The targets of a command's requests, in reach or not; those that go wide with UNIT_COUNT 0xFFFF name a port: port, index,
wide, unit (R551). -/
def State.targets (s : State) (c : Cmd) (wide : Bool) : List (Nat × Nat × Bool × Nat) :=
  if c.unitCount = 0xFFFF && wide then
    (s.portsOf c.partition).map fun n => (n, 0, true, unitNo n (((s.port n).warp.idxOf c.partition).headD 0))
  else (s.cmdUnits c).map fun u => (u / 4096, u % 4096, false, u)

/-- With UNIT_COUNT 0xFFFF, units out of reach are skipped (R551). -/
def State.skips (s : State) (c : Cmd) : Bool :=
  c.unitCount == 0xFFFF && (s.unitsOf c.partition).any s.unitDown

/-- Offsets and lengths of a transfer of `len` bytes in steps of at most `step`. -/
def chunksOf (len step : Nat) : List (Nat × Nat) :=
  (List.range (ceilDiv len step)).map fun k => (k * step, min step (len - k * step))

/-- REG_WRITE as a message. -/
def regWrite (t : Nat × Nat × Bool × Nat) (off : Nat) (words : List Byte) : CmdMsg :=
  { n := t.1, ch := 1, op := 2, target := t.2.1, wide := t.2.2.1, unit := t.2.2.2,
    body := leBytes 2 off ++ leBytes 2 (words.length / 4) ++ words, changes := true }

/-- REG_READ as a message. -/
def regRead (t : Nat × Nat × Bool × Nat) (off count : Nat) : CmdMsg :=
  { n := t.1, ch := 1, op := 1, target := t.2.1, wide := false, unit := t.2.2.2,
    body := leBytes 2 off ++ leBytes 2 count, changes := false }

/-- A message on VC0: RESUME, or STEP with MODE and ENGINE. -/
def runMsg (t : Nat × Nat × Bool × Nat) (op : Nat) (body : List Byte) : CmdMsg :=
  { n := t.1, ch := 0, op := op, target := t.2.1, wide := t.2.2.1, unit := t.2.2.2, body := body, changes := true }

/-! ### How a command ends -/

/-- The units that one request of a command serves: every unit of the partition that was found on the port of a wide one. -/
def State.servedBy (s : State) (p unit : Nat) (wide : Bool) : List Nat :=
  if wide then (s.unitsOn (unit / 4096) p).filter (fun u => (s.unit u).found) else [unit]

/-- Requests of a command that wait in a channel and have not begun. -/
def isCmdReq (f : Nat) (tag : W32) (r : OutReq) : Bool :=
  match r.who with
  | .cmd g t _ _ => g == f && t == tag
  | _ => false

/-- The requests of a command that have not begun. -/
def State.unsent (s : State) (f : Nat) (tag : W32) : List OutReq :=
  (List.range 8).flatMap fun n =>
    let x := (s.port n).lk
    (([x.tx0, x.tx1, x.tx2].flatMap fun c => c.waiting) ++ (s.port n).resend.map (·.2)).filter (isCmdReq f tag)

/-- The unit whose request a command makes with a message. -/
def ReqFor.unit : ReqFor → Nat
  | .cmd _ _ u _ => u
  | _ => 0

/-- An operation of the adaptor that has not begun, for a command: not the rest of one under way, and not a halt. -/
def State.unbegun (s : State) (f : Nat) (tag : W32) (c : AdaptorCall) : Bool :=
  c.cmd == some (f, tag) && c.op != 1 && !(s.osier.call.any fun d => d.cmd == c.cmd && d.unit == c.unit)

/-- Take the requests of a command that have not begun out of every channel, and its operations out of the adaptor's queue: no
further message of it is sent, and no step of their units is awaited (R554, R567). -/
def purgeCmd (f : Nat) (tag : W32) (s : State) : State :=
  let drop (l : List OutReq) : List OutReq := l.filter fun r => !isCmdReq f tag r
  let reqs := s.unsent f tag
  let calls := ((s.osier.calls.filter (s.unbegun f tag)).map (·.unit)).eraseDups
  let steps := calls ++ (reqs.filter fun r => r.msg.ch == 0).flatMap fun r =>
    s.servedBy r.msg.partition.toNat r.who.unit (r.msg.target.getLsbD 15)
  let count := reqs.length + calls.length
  { s with osier := { s.osier with calls := s.osier.calls.filter fun c => !s.unbegun f tag c } }
    |> each (List.range 8) (fun n => modPort n (fun x =>
        { x with resend := x.resend.filter (fun e => !isCmdReq f tag e.2),
                 lk := { x.lk with tx0 := { x.lk.tx0 with waiting := drop x.lk.tx0.waiting },
                                   tx1 := { x.lk.tx1 with waiting := drop x.lk.tx1.waiting },
                                   tx2 := { x.lk.tx2 with waiting := drop x.lk.tx2.waiting } } }))
    |> modWork f tag (fun w => { w with outst := w.outst - count, units := w.units.filter fun u => !steps.contains u })

/-- A failing answer: the first one decides the status, and no further message of the command is sent (R553, R554). -/
def failCmd (f : Nat) (tag : W32) (st : Byte) (s : State) : State :=
  s |> modWork f tag (fun w => { w with fail := w.fail <|> some st }) |> purgeCmd f tag

/-- The completion of a command of spec/10, or of TRACE_CONFIG, whose messages are all answered. -/
def unitRes (c : Cmd) : Res :=
  let w := c.work
  let part := w.executed || w.forcePart
  let st := match w.failed part with
    | some x => x
    | none =>
      if w.skipped then stLinkDown else if c.op == 0x12 && decide (0 < w.r1) then stUnitUnresponsive else stOk
  { status := st, part := st != stOk && part,
    r0 := w.r0, r1 := w.r1, r3 := w.dieCode.toNat }

/-- The order of ports of a staged RESUME: nibbles of PORT_SEQ up to the first 0xF (R570). -/
def portSeq (v : Nat) : List Nat := ((List.range 8).map fun k => v / 16 ^ k % 16).takeWhile (· != 15)

/-- Hand the operations of a command for the fallback units it names to the adaptor (R435), whatever the MODE of a STEP.
DESIGN CHOICE, log entry 91. -/
def fallbackCalls (f : Nat) (c : Cmd) (op : Nat) (data : List Byte) (s : State) : State :=
  let units := (s.cmdUnits c).filter fun u => s.fallback (u / 4096) && s.osier.adaptorReady
  s |> modWork f c.tag (fun w => { w with outst := w.outst + units.length })
    |> each units (fun u => pushCall { op := op, unit := u, region := c.region, offset := BitVec.ofNat 64 c.memOffset,
                                       len := c.length, abrupt := false, cmd := some (f, c.tag), startedAt := s.t,
                                       data := data })

/-- A RESUME or STEP is sent: its first request has begun, on a link or, for a fallback unit, at the adaptor. -/
def State.runOnLink (s : State) (f : Nat) (tag : W32) : Bool :=
  (List.range 8).any fun n => (s.port n).lk.tx0.outst.any (isCmdReq f tag)
def State.runBegun (s : State) (f : Nat) (tag : W32) : Bool :=
  s.runOnLink f tag || s.osier.call.any fun d => d.cmd == some (f, tag)

/-- Every RESUME and STEP whose first request has now been sent ends the hold of its partition (R515, R573, R586). DEDUCED,
log entry 45. -/
def noteRuns (s : State) : State :=
  let sent (f : Nat) (c : Cmd) : Bool :=
    (c.op == 0x11 || c.op == 0x12) && c.started && !c.work.runSent && s.runBegun f c.tag
  each (s.cmdsWhere sent)
    (fun (f, c) t => t |> modWork f c.tag (fun w => { w with runSent := true }) |> runSent c.partition (s.runOnLink f c.tag)) s

/-- Send the requests of a RESUME or STEP, `op` 2 or 3, on the ports that `sel` selects; the adaptor serves fallback units.
The first one sent ends the hold (R515, R573). -/
def sendRun (f : Nat) (c : Cmd) (op : Nat) (body : List Byte) (sel : Nat → Bool) (s : State) : State :=
  let ms := (s.targets c true).map fun t => runMsg t op body
  let calls := sel 7 && s.osier.adaptorReady && (s.cmdUnits c).any fun u => s.fallback (u / 4096)
  s |> sendParts f c.tag c.partition sel ms |> (fun t => if calls then fallbackCalls f c op [] t else t) |> noteRuns

/-- The next step of a command with no message outstanding: a staged RESUME goes to its next port, and to none once a halt
has taken the partition again (R570, R586: the remaining units stay HALTED, and the command ends BUSY, DESIGN CHOICE, log
entry 45); a STEP waits for its acknowledgements and declarations alone (R567); HALT and CUT end with their gathering or
their cut; every other command completes. -/
def advanceLoop (f : Nat) (tag : W32) : Nat → State → State
  | 0, s => s
  | k + 1, s =>
    match s.cmd f tag with
    | none => s
    | some c =>
      let w := c.work
      if c.op == 0x12 && w.units.isEmpty then complete f tag (unitRes c) s
      else if w.outst != 0 then s
      else if c.op == 0x11 && c.f 52 1 == 1 && w.fail.isNone then
        match (portSeq c.param0)[w.stage]? with
        | some n =>
          if w.runSent && (s.part c.partition).held then
            s |> modWork f tag (fun x => { x with fail := some stBusy }) |> advanceLoop f tag k
          else
            s |> modWork f tag (fun x => { x with stage := x.stage + 1 }) |> sendRun f c 2 [] (· == n) |> advanceLoop f tag k
        | none => complete f tag (unitRes c) s
      else if c.op == 0x10 || c.op == 0x30 || c.op == 0x12 then s
      else complete f tag (unitRes c) s

/-- Go on with a command after an answer. -/
def advanceCmd (f : Nat) (tag : W32) (s : State) : State := advanceLoop f tag 9 s

/-! ### Answers (R553) -/

/-- The completion status of a die status code before any message was executed. -/
def dieStatus (code : Nat) : Byte :=
  if code = 2 then stBadUnit else if code = 3 then stBadAddress else if code = 0x0B then stBadLen
  else if code = 4 ∨ code = 5 then stStakeHeldByTwin else stBusy

/-- The refused request can be sent again under a new claim: once, before any message of the command was executed. -/
def mayResend (w : Work) (r : OutReq) (code : Nat) : Bool :=
  (code == 4 || code == 5) && !w.executed && !r.again && w.fail.isNone

/-- What an OK answer adds to a command's results and buffer. `units`: how many units the request served; `d`: the data
after RSTATUS. -/
def okResult (f : Nat) (tag : W32) (c : Cmd) (k units : Nat) (served : List Nat) (d : List Byte) (s : State) : State :=
  let op := c.op
  if op == 0x11 then modWork f tag (fun w => { w with r0 := w.r0 + field d 0 4 }) s
  else if op == 0x13 then
    if k % 3 = 2 then
      let on := bit (field d 0 4) 0
      modWork f tag (fun w => { w with r0 := w.r0 + b2n on, r1 := w.r1 + b2n (!on) }) s
    else s
  else if op == 0x20 then
    let per := ceilDiv c.length 4092
    let i := k / per
    let got := Tab.set c.work.chunks k (d.take (c.length - 4092 * (k % per)))
    let all := (List.range per).filterMap fun j => Tab.get? got (i * per + j)
    if all.length = per then
      s |> bufWrite f tag (c.length * i) (all.flatMap id)
        |> modWork f tag (fun w => { w with chunks := got.filter (fun e => e.1 / per != i), r0 := w.r0 + c.length })
    else modWork f tag (fun w => { w with chunks := got }) s
  else if op == 0x21 then
    let per := ceilDiv c.length 4088
    let i := k / per
    let got := Tab.set c.work.chunks k []
    let whole := (got.filter fun e => e.1 / per == i).length == per
    modWork f tag (fun w => { w with chunks := got, r0 := if whole then w.r0 + c.length * units else w.r0 }) s
  else if op == 0x22 then
    let x := d.take (min 4092 (s.memLength c - 4092 * k))
    s |> bufWrite f tag (4092 * k) x |> modWork f tag (fun w => { w with r0 := w.r0 + x.length })
  else if op == 0x23 then
    let n := min 4080 (c.length - 4080 * k)
    modWork f tag (fun w => { w with r0 := w.r0 + n }) s
  else if op == 0x40 then modWork f tag (fun w => { w with r0 := w.r0 + served.length }) s
  else s

/-- A request of a command has failed for its units: it is refused, or lost with their link or its claim, and `silent` says
that they have not answered (R553, R572, R712). An UNRESPONSIVE unit of a RESUME or STEP decides the status (R564), and no
step of the units is awaited: a STEP counts each unit once (R567). -/
def requestFails (f : Nat) (tag : W32) (served : List Nat) (silent : Bool) (st : Byte) (s : State) : State :=
  match s.cmd f tag with
  | none => s
  | some c =>
    let run := c.op == 0x11 || c.op == 0x12
    let unresp := run && served.any fun u => (s.unit u).view == .unresponsive
    s |> modWork f tag (fun w =>
          { w with outst := w.outst - 1, forcePart := w.forcePart || unresp,
                   r1 := if silent && c.op == 0x12 then w.r1 + (served.filter w.units.contains).length
                         else if silent && (run || c.op == 0x40) then w.r1 + served.length else w.r1,
                   units := w.units.filter (fun u => !served.contains u) })
      |> failCmd f tag (if unresp then stUnitUnresponsive else st) |> advanceCmd f tag

/-- When the step of a unit is overdue: STEP_TIMEOUT_US from its request (R567). -/
def State.stepTimeout (s : State) (c : Cmd) : Nat :=
  if c.param0 = 0 then s.haltTimeout c.partition else c.param0 * Config.ticksPerUs

/-- An answer to a request of a command: `code` its die status code. -/
def cmdAnswer (f : Nat) (tag : W32) (r : OutReq) (n unit k code : Nat) (replayed : Bool) (d : List Byte)
    (s : State) : State :=
  match s.cmd f tag with
  | none => s
  | some c =>
    let p := c.partition
    let served := s.servedBy p unit (r.msg.target.getLsbD 15)
    if code = 0 then
      s |> modWork f tag (fun w => { w with outst := w.outst - 1, executed := w.executed || !replayed })
        |> each (if c.op == 0x12 then served.filter fun u => c.work.units.contains u else [])
            (fun u => modUnit u fun x => { x with stepDeadline := some (r.at_ + s.stepTimeout c) })
        |> okResult f tag c k served.length served d |> advanceCmd f tag
    else if mayResend c.work r code then
      s |> modWork f tag (fun w => { w with dieCode := if w.dieCode == 0 then BitVec.ofNat 8 code else w.dieCode })
        |> modPort n (fun x => { x with resend := x.resend ++ [(p, { r with again := true })] }) |> claim n p
    else
      s |> modWork f tag (fun w => { w with dieCode := if w.dieCode == 0 then BitVec.ofNat 8 code else w.dieCode })
        |> requestFails f tag served false (if c.work.executed then stBusy else dieStatus code)

/-- No answer to a command's request came in time: UNIT_UNRESPONSIVE (R553, R564). -/
def cmdNoAnswer (f : Nat) (tag : W32) (r : OutReq) (unit : Nat) (s : State) : State :=
  let served := ((s.cmd f tag).map fun c => s.servedBy c.partition unit (r.msg.target.getLsbD 15)).getD []
  requestFails f tag served true stUnitUnresponsive s

/-- A request of a command for some units is lost with their link: LINK_DOWN (R425, R553). -/
def cmdLinkLost (f : Nat) (tag : W32) (served : List Nat) (s : State) : State := requestFails f tag served true stLinkDown s

/-- A request that waited for a new claim ends with the claim (R553): its units have neither answered nor been asked again. -/
def endResend (f : Nat) (tag : W32) (unit : Nat) (r : OutReq) (st : Byte) (s : State) : State :=
  let served := ((s.cmd f tag).map fun c => s.servedBy c.partition unit (r.msg.target.getLsbD 15)).getD []
  requestFails f tag served false st s

/-! ### What an answer shows of the die -/

/-- Run-state codes of R455 as view states. -/
def viewOf (code : Nat) : View :=
  if code = 0 then .running else if code = 1 then .draining else if code = 2 then .halted else .stepping

/-- The time at which a unit enters RUNNING (R657). -/
def UnitSt.runsFrom (x : UnitSt) (v : View) (now : Nat) : UnitSt :=
  { x with runningSince := if v == .running && x.view != .running then now else x.runningSince }

/-- A RESUME or STEP of a unit is answered OK: RUNNING or STEPPING (R541), and the record is discarded if the die executed
it (R543). In a gathering the halt that follows takes a resumed unit back to HALTED: it is DRAINING, and a step goes on;
either waits until the timeout of the gathering ends (R561, R562, R586). A declaration stands for the gathering that it was
made in (R75). -/
def UnitSt.run (x : UnitSt) (v : View) (executed gathers : Bool) (now : Nat) : UnitSt :=
  let y := { x with record := if executed then none else x.record }
  if gathers && !x.declared then
    { y with view := if v == .running then .draining else v, haltDeadline := x.haltDeadline <|> x.gatherBy }
  else { y.runsFrom v now with view := v, haltDeadline := none, stepDeadline := if v == .running then none else x.stepDeadline }

/-- A RESUME or STEP that the die refuses leaves a halted unit as it was. -/
def UnitSt.notRun (x : UnitSt) : UnitSt :=
  if x.view == .draining && x.record.isSome then { x with view := .halted, haltDeadline := none } else x

/-- RUN_STATE of a unit has been read: its view; a HALTED one needs no timeout, and its gathering may end (R542, R558,
R596); another one is waited for until the timeout of its gathering ends (R562). -/
def UnitSt.saw (v : View) (gathers : Bool) (now : Nat) (x : UnitSt) : UnitSt :=
  if v == .halted then { x with view := v, haltDeadline := none, settledAt := if x.view == .halted then x.settledAt else now }
  else { x.runsFrom v now with view := v, haltDeadline := if gathers && !x.declared then x.haltDeadline <|> x.gatherBy
                                                            else x.haltDeadline }

/-- Words of the debug window that the hub has read, or whose write was answered: RUN_STATE of an UNRESPONSIVE unit
(R542), EVT_EN (R754), HOOP_CTRL (R525). -/
def sawWords (n p unit off : Nat) (words : List Byte) (read : Bool) (s : State) : State :=
  let at_ (o : Nat) : Option Nat :=
    if off ≤ o ∧ o + 4 ≤ off + words.length then some (field words (o - off) 4) else none
  let s1 := match at_ 0x0004, read with
    | some v, true =>
      if (s.unit unit).view == .unresponsive then s |> modUnit unit (UnitSt.saw (viewOf (v % 4)) (s.unitGathers unit) s.t) |> checkGathering p else s
    | _, _ => s
  let s2 := match at_ 0x000C with
    | some v => modUnit unit (fun x => { x with evtEn := some (BitVec.ofNat 8 (v % 32)) }) s1
    | none => s1
  match at_ 0x0E0C with
  | some v => modStake n p (fun x =>
      { x with hoopEn := some (bit v 0), hoopAbrupt := some (bit v 1), wrote := if read then x.wrote else bit v 0 }) s2
  | none => s2

/-- The effect of an OK answer on the hub's views, whatever asked for it (R541, R543). -/
def answerEffect (n : Nat) (m : Msg) (replayed : Bool) (d : List Byte) (s : State) : State :=
  let p := m.partition.toNat
  let units := s.servedBy p (unitNo n (m.target.toNat % 4096)) (m.target.getLsbD 15)
  if m.ch = 0 ∧ (m.op = 2 ∨ m.op = 3) then
    each units (fun u => modUnit u (fun x => x.run (if m.op = 2 then .running else .stepping) (!replayed) (s.unitGathers u) s.t)) s
  else if m.ch = 1 ∧ m.op = 1 then
    each units (fun u => sawWords n p u (field m.data 0 2) d true) s
  else if m.ch = 1 ∧ m.op = 2 then
    each units (fun u => sawWords n p u (field m.data 4 2) (m.data.drop 8) false) s
  else s

/-- What a refused RESUME or STEP leaves (R586). -/
def refusalEffect (n : Nat) (m : Msg) (s : State) : State :=
  let p := m.partition.toNat
  if m.ch = 0 ∧ (m.op = 2 ∨ m.op = 3) then
    s |> each (s.servedBy p (unitNo n (m.target.toNat % 4096)) (m.target.getLsbD 15)) (fun u => modUnit u UnitSt.notRun)
      |> checkGathering p
  else s

end Sys2Proof.Machine
end

