-- ==== Sys2Proof/Machine/Hang.lean ====
section
/-!
DEFINITION. Hang analysis at work (spec/12): declarations, and the commands HANG_EVENT_PROCESS, HANG_SCAN, HANG_SCAN_END and
HANG_REPORT.
-/

namespace Sys2Proof.Machine

open Sys2Proof

/-! ### Reports that the lattice and predictions cause -/

/-- A report of a watchdog expiry or of a prediction (R665); the firmware writes it. -/
def firedReport (p kind model score : Nat) (s : State) : State :=
  let on := hangFlag (s.part p).active.weft (if kind = 2 then 2 else 3)
  if on && !s.err.stopped then addReport p { kind := kind, predModel := model, score := score } s else s

/-! ### Commands -/

/-- HANG_EVENT_PROCESS: the oldest queued event updates the registry and the graph (R650, R655). DEDUCED, log entry 64. -/
def execHangEventProcess (s : State) : Host.Outcome State Fault Refusal :=
  match s.hang.queue with
  | [] => done s
  | e :: rest =>
    let s1 := hangEvent e { s with hang := { s.hang with queue := rest } }
    done (spendCreel (if s.injectHit then modPart e.partition (fun x => { x with graphBad := true }) s1 else s1))

/-- A scan starts: MIN_AGE_US and STALL_US of now apply to it (R672). -/
def startScan (p : Nat) (s : State) : State :=
  let w := (s.part p).active.weft
  modPart p (fun x => { x with scanWaits := false, scanning := some { start := s.t, minAge := minAgeUs w, stall := stallUs w } }) s

/-- HANG_SCAN: a scan of a partition's graph starts every HANG_SCAN_US, counted from the start of the graph, while it is not
held; one that falls due in a hold is not made up for, and one that falls due while the previous one runs is delayed until
that one ends, and counted (R659, R663). DEDUCED, log entry 87. -/
def execHangScan (part : Part) (s : State) : Host.Outcome State Fault Refusal :=
  let p := part.val
  let x := s.part p
  let period := s.hangScanUs p * Config.ticksPerUs
  let due := x.lastScan + (s.t - x.lastScan) / period * period
  if !x.graphOn || x.held || s.err.stopped || due ≤ x.lastScan || due < x.holdEnd then done s
  else if x.scanning.isSome then
    done (modPart p (fun y => { y with overrun := satInc y.overrun, lastScan := due, scanWaits := true }) s)
  else done (s |> modPart p (fun y => { y with lastScan := due }) |> startScan p)

/-- The oldest wait that a scan finds stalled (R662). -/
def State.stalled (s : State) (p now us : Nat) : Option (Nat × OpenWait) :=
  let ok := (s.openWaits p).filter fun (u, o) =>
    let st := s.wstatus p o
    let sender := (s.chan o.chan).bind (·.sender)
    decide (us * Config.ticksPerUs ≤ s.waitAge p u now o) && [0, 1, 3, 4].contains st &&
      (s.unit u).view == .running &&
      match sender with
      | some v => s.unitPart v != some p || (s.unit v).view == .running
      | none => true
  (sortBy (fun e => e.2.begin_.toNat) ok).head?

/-- Write a declaration's report and let its action enter the lattice as a halt that no host command causes (R667, R668). At
the edge of another action of the partition it is the same one (R514, R690). -/
def declareHang (p kind action minAge : Nat) (comps : List Comp) (s : State) : State :=
  let joins := s.actedNow p
  let acts := action != 0 && (!(s.part p).held || joins.isSome)
  let s1 := addReport p { kind := kind, declared := comps, action := if acts then action else 0, taken := acts,
                          minAge := some minAge } s
  let id := s.hang.nextReport
  let r : HaltReq := { p := p, action := action + 1, abrupt := false, term := if action = 1 then 0x20 else 0x21 }
  let mine (x : PartSt) : PartSt := x.mapNewest fun c => { c with origin := 0, report := some id }
  if !acts then s1
  else
    match (if (s.part p).held then joins else none) with
    | some h =>
      if action = 2 ∧ h.action ≠ 3 then s1 |> raiseAction r h |> modPart p mine |> checkGather p else s1
    | none => s1 |> enterHalts [r] |> modPart p (fun x => if action = 2 then mine x else x)

/-- HANG_SCAN_END: the scan declares cycles, or a stall (R660 to R662, R667), unless the partition is held by now (R659); one
that has waited for it starts. One that reads an uncorrectable word
discards the partition's graph and starts it again (R672, R999). -/
def execHangScanEnd (part : Part) (found : Ecc) (s0 : State) : Host.Outcome State Fault Refusal :=
  let p := part.val
  let x := s0.part p
  let s := if found == .corrected && x.scanning.isSome then correctedWord false s0 else s0
  match x.scanning with
  | none => done s
  | some scan =>
    let next (t : State) : State := if x.scanWaits && !x.held then startScan p t else t
    let s1 := modPart p (fun y => { y with scanning := none, scanWaits := false }) s
    if s.err.stopped then done s
    else if x.held && (s.actedNow p).isNone then done s1
    else if found == .bad || x.graphBad then done (s |> uncorrectableItem false 1 p 0 3 |> stopGraph p |> startGraph p)
    else
      let w := x.active.weft
      let running (u : Nat) : Bool := (s.unit u).view == .running
      let es := (s.blockedEdges p fun u o =>
        decide (scan.minAge * Config.ticksPerUs ≤ s.waitAge p u scan.start o) && running u).filter fun e => running e.dst
      let comps := components es (s.unitsOf p)
      let units := comps.flatMap (·.units)
      if !comps.isEmpty then
        if sortBy id units == x.lastCycle then done (next s1)
        else done (s1 |> next |> modPart p (fun y => { y with lastCycle := sortBy id units })
                      |> declareHang p 0 (detectAction w) scan.minAge comps)
      else
        let s2 := s1 |> next |> modPart p (fun y => { y with lastCycle := [] })
        match (if hangFlag w 1 then s.stalled p scan.start scan.stall else none) with
        | some (u, o) =>
          if x.lastStall == some (u, o.chan, o.begin_) then done s2
          else done (s2 |> modPart p (fun y => { y with lastStall := some (u, o.chan, o.begin_) })
                        |> declareHang p 1 (stallAction w) scan.minAge [])
        | none => done s2

/-- HANG_REPORT: read a report, or write one on demand and read it (R686 to R688). One that holds an uncorrectable word is
written as read and completes with POISONED and PARTIAL (R999); an error of the write comes after the report is made (R296).
DEDUCED, log entry 67. -/
def execHangReport (fn : Fn) (tag : W32) (found : Ecc) (s : State) : Host.Outcome State Fault Refusal :=
  done (startCmd 0x80 fn tag (fun c t =>
    let p := c.partition
    let mode := c.f 52 1
    let held := (t.part p).reports
    let asked := if c.param0 = 0 then held.getLast? else held.find? fun r => r.id.toNat == c.param0
    match firstFail [(t.err.stopped, stBusy), (!t.reads fn p, stNotOwner), (decide (c.length < 64), stBadLen),
        (mode == 0 && asked.isNone, stBadUnit), (mode == 1 && !hangFlag (t.part p).active.weft 0, stBusy)] with
    | some st => fail fn tag st t
    | none =>
      let t1 := if mode = 1 then addReport p { kind := 4 } t else t
      match (if mode = 1 then (t1.part p).reports.getLast? else asked) with
      | none => fail fn tag stBadUnit t
      | some r =>
        let out := r.stream.take c.length
        let poison := found == .bad || r.bad
        let t2 := if poison then uncorrectableItem false 1 p r.id.toNat 3 t1
          else if found == .corrected then correctedWord false t1 else t1
        if t.writeFails fn tag then
          complete fn tag { status := stBadAddress, part := mode == 1, r0 := r.id.toNat, r2 := r.cutId.toNat,
                            r3 := r.bytes.length } t2
        else t2 |> bufWrite fn tag 0 out
           |> complete fn tag { status := if poison then stPoisoned else stOk, part := poison, r0 := r.id.toNat,
                                  r1 := out.length, r2 := r.cutId.toNat, r3 := r.bytes.length }) s)

end Sys2Proof.Machine
end

