-- ==== Sys2Proof/Machine/RunCtl.lean ====
section
/-!
DEFINITION. Run control and access: HALT, RESUME, STEP, SET_BREAK, CLEAR_BREAK, SET_WATCH, CLEAR_WATCH,
READ_UNIT_REGS, WRITE_UNIT_REGS, READ_UNIT_MEM, WRITE_UNIT_MEM and the timeouts of halts and steps (spec/10).
-/

namespace Sys2Proof.Machine

open Sys2Proof

/-- Run a command of this chapter that passes its checks. -/
def checked (f : Nat) (tag : W32) (k : Cmd → State → State) (c : Cmd) (s : State) : State :=
  match s.unitCheck f c with
  | some st => fail f tag st s
  | none => k c s

/-! ### HALT -/

/-- A HALT of a held partition: its VC0 requests go out, and units that are UNRESPONSIVE or DRAINING get a fresh timeout
(R519, R560), of the weft active now. DESIGN CHOICE, log entry 92. -/
def haltHeld (f : Nat) (c : Cmd) (s : State) : State :=
  let p := c.partition
  let abrupt := bit (c.f 52 1) 0 || hoopAbrupt (s.part p).active.weft
  let ports := (List.range 8).filter (s.vc0Port p)
  let g : Gather := { actionTs := (s.part p).lastActionTs, timeout := s.haltTimeout p, hoopPorts := 0,
                      downPorts := BitVec.ofNat 8 (portMask ((s.portsOf p).filter fun n => (s.port n).lk.link != .active)) }
  s |> sendHalts p abrupt (some (f, c.tag)) ports |> fallbackHalts p abrupt (some (f, c.tag))
    |> each (s.unitsOf p) (freshTimeout (s.haltTimeout p))
    |> modPart p (fun x => { x with gather := x.gather <|> some g }) |> checkGather p

/-- HALT: every unit of the partition halts, as a host-command trigger (R557 to R560). At the edge of another action of the
partition it is the same one (R537). -/
def execHalt (fn : Fn) (tag : W32) (s : State) : Host.Outcome State Fault Refusal :=
  done (startCmd 0x10 fn tag (checked fn tag fun c t =>
    enterHost { p := c.partition, action := 2, abrupt := bit (c.f 52 1) 0, term := 0x20, host := some (fn.val, tag) }
      (haltHeld fn c) t) s)

/-! ### RESUME and STEP -/

/-- An earlier HALT, RESUME or STEP of the partition is not completed (R550). -/
def State.runBlocked (s : State) (f : Nat) (tag : W32) : Bool :=
  match s.cmd f tag with
  | none => false
  | some c =>
    let before := (earlier (s.fn f).inflight tag).map (·.tag)
    !(s.cmdsWhere fun g x => (x.op == 0x10 || x.op == 0x11 || x.op == 0x12) && x.partition == c.partition &&
        (decide (x.fetched < c.fetched) || (g == f && before.contains x.tag))).isEmpty

/-- RESUME: together, or staged port by port (R570 to R573). -/
def execResume (fn : Fn) (tag : W32) (s : State) : Host.Outcome State Fault Refusal :=
  if s.runBlocked fn tag then done s
  else done (startCmd 0x11 fn tag (checked fn tag fun c t =>
    t |> modWork fn tag (fun w => { w with skipped := t.skips c })
      |> (fun u => if c.f 52 1 = 1 then u else sendRun fn c 2 [] (fun _ => true) u) |> advanceCmd fn tag) s)

/-- When a unit is declared UNRESPONSIVE for want of its step acknowledgement: STEP_TIMEOUT_US from its request, answered or
not (R567). -/
def State.stepDue (s : State) (u : Nat) : Option Nat :=
  let due (at_ : Nat) : Option (Nat × W32) → Option Nat
    | some (f, tag) => match s.cmd f tag with
      | some c => if c.op == 0x12 && c.work.units.contains u then some (at_ + s.stepTimeout c) else none
      | none => none
    | none => none
  (s.unit u).stepDeadline
    <|> ((s.port (u / 4096)).lk.tx0.outst.findSome? fun r => match r.who with
          | .cmd f tag unit _ =>
            if (s.servedBy r.msg.partition.toNat unit (r.msg.target.getLsbD 15)).contains u then due r.at_ (some (f, tag)) else none
          | _ => none)
    <|> (s.osier.call.bind fun d => if d.unit == u then due d.startedAt d.cmd else none)

/-- STEP: one instruction or one engine command in each named unit, which acknowledges by a halt record (R565 to R569). The
ENGINE byte is the descriptor's, in MODE 0 too. DESIGN CHOICE, log entry 91. -/
def execStep (fn : Fn) (tag : W32) (s : State) : Host.Outcome State Fault Refusal :=
  if s.runBlocked fn tag then done s
  else done (startCmd 0x12 fn tag (checked fn tag fun c t =>
    let units := (t.cmdUnits c).filter fun u => !t.unitDown u
    t |> modWork fn tag (fun w => { w with skipped := t.skips c, units := units })
      |> sendRun fn c 3 [BitVec.ofNat 8 (c.f 52 1), BitVec.ofNat 8 (c.f 53 1)] (fun _ => true) |> advanceCmd fn tag) s)

/-- A unit's step ends for the STEP commands that wait for it: an acknowledgement, or a declaration (R567). One declared while
it is still UNRESPONSIVE makes the STEP PARTIAL (R564). -/
def stepEnds (u : Nat) (ack : Bool) (s : State) : State :=
  each (s.cmdsWhere fun _ c => c.op == 0x12 && c.started && c.work.units.contains u)
    (fun (f, c) t =>
      t |> modWork f c.tag (fun w => { w with units := w.units.filter (· != u), r0 := w.r0 + b2n ack,
                                              r1 := w.r1 + b2n (!ack),
                                              forcePart := w.forcePart || (!ack && (s.unit u).view == .unresponsive) })
        |> advanceCmd f c.tag) s

/-- Declare a unit UNRESPONSIVE, for its gathering and for its step. -/
def declareUnit (u : Nat) (s : State) : State :=
  let s1 := s |> stepEnds u false |> modUnit u (UnitSt.declare s.t)
  match s.unitPart u with
  | some p => checkGather p s1
  | none => s1

/-- HALT_TIMEOUT_EXPIRY: a unit without a halt record is declared UNRESPONSIVE (R562). -/
def execHaltTimeoutExpiry (unit : UnitNo) (s : State) : Host.Outcome State Fault Refusal :=
  match (s.unit unit.toNat).haltDeadline with
  | some d => if d ≤ s.t then done (declareUnit unit.toNat s) else done s
  | none => done s

/-- STEP_TIMEOUT_EXPIRY: a unit without its step acknowledgement is declared UNRESPONSIVE (R567). -/
def execStepTimeoutExpiry (unit : UnitNo) (s : State) : Host.Outcome State Fault Refusal :=
  match s.stepDue unit.toNat with
  | some d => if d ≤ s.t then done (declareUnit unit.toNat s) else done s
  | none => done s

/-! ### Breakpoints and watch comparators -/

/-- The three messages that set breakpoint n (R574). -/
def breakParts (t : Nat × Nat × Bool × Nat) (n addr flags : Nat) : List CmdMsg :=
  let off := 0x0100 + 0x10 * n
  [regWrite t (off + 8) (leBytes 4 0),
   regWrite t off (leBytes 8 addr ++ leBytes 4 (1 + 512 * (flags % 2) + 1024 * (flags / 2 % 2))),
   regRead t (off + 8) 1]

/-- The three messages that set comparator n from its specification: CTRL 0, the ranges, data and mask with CTRL still
0, then CTRL (R576). -/
def watchParts (t : Nat × Nat × Bool × Nat) (n : Nat) (spec : List Byte) : List CmdMsg :=
  let off := 0x0200 + 0x40 * n
  [regWrite t (off + 0x10) (leBytes 4 0),
   regWrite t off (slice spec 0 16 ++ zeros 8 ++ slice spec 16 16),
   regWrite t (off + 0x10) (slice spec 32 4)]

/-- SET_BREAK (R574). -/
def execSetBreak (fn : Fn) (tag : W32) (s : State) : Host.Outcome State Fault Refusal :=
  done (startCmd 0x13 fn tag (checked fn tag fun c t =>
    t |> modWork fn tag (fun w => { w with skipped := t.skips c })
      |> sendAll fn c ((t.targets c false).flatMap fun x => breakParts x (c.f 52 1) (c.f 56 8) (c.f 53 1))
      |> advanceCmd fn tag) s)

/-- CLEAR_BREAK: the control word to 0, or those of every breakpoint, in one message for each unit, which writes 0 to the
words between them as well (R577). DESIGN CHOICE, log entry 91. -/
def execClearBreak (fn : Fn) (tag : W32) (s : State) : Host.Outcome State Fault Refusal :=
  done (startCmd 0x14 fn tag (checked fn tag fun c t =>
    let i := c.f 52 1
    let msg (x : Nat × Nat × Bool × Nat) : CmdMsg :=
      if i = 0xFF then regWrite x 0x0108 (zeros (4 * 29)) else regWrite x (0x0108 + 0x10 * i) (zeros 4)
    t |> modWork fn tag (fun w => { w with skipped := t.skips c })
      |> sendAll fn c ((t.targets c false).map msg) |> advanceCmd fn tag) s)

/-- SET_WATCH: `data` is the comparator specification read from the buffer window (R575, R576). -/
def execSetWatch (fn : Fn) (tag : W32) (data : List Byte) (s : State) : Host.Outcome State Fault Refusal :=
  done (startCmd 0x15 fn tag (checked fn tag fun c t =>
    t |> bumpAlways (44 + fnPort fn) 40 |> modWork fn tag (fun w => { w with skipped := t.skips c })
      |> sendAll fn c ((t.targets c false).flatMap fun x => watchParts x (c.f 52 1) (slice data 0 40))
      |> advanceCmd fn tag) s)

/-- CLEAR_WATCH (R577), as CLEAR_BREAK. DESIGN CHOICE, log entry 91. -/
def execClearWatch (fn : Fn) (tag : W32) (s : State) : Host.Outcome State Fault Refusal :=
  done (startCmd 0x16 fn tag (checked fn tag fun c t =>
    let i := c.f 52 1
    let msg (x : Nat × Nat × Bool × Nat) : CmdMsg :=
      if i = 0xFF then regWrite x 0x0210 (zeros (4 * 49)) else regWrite x (0x0210 + 0x40 * i) (zeros 4)
    t |> modWork fn tag (fun w => { w with skipped := t.skips c })
      |> sendAll fn c ((t.targets c false).map msg) |> advanceCmd fn tag) s)

/-! ### Registers and memory of units -/

/-- READ_UNIT_REGS: LENGTH bytes of each named unit's window, in reads of at most 1,023 words (R447, R581). -/
def execReadUnitRegs (fn : Fn) (tag : W32) (s : State) : Host.Outcome State Fault Refusal :=
  done (startCmd 0x20 fn tag (checked fn tag fun c t =>
    let ms := (t.targets c false).flatMap fun x =>
      (chunksOf c.length 4092).map fun (o, n) => regRead x (c.param0 % 65536 + o) (n / 4)
    t |> modWork fn tag (fun w => { w with skipped := t.skips c }) |> sendAll fn c ms
      |> advanceCmd fn tag) s)

/-- WRITE_UNIT_REGS: the same LENGTH bytes to each named unit, in writes of at most 1,022 words (R447, R582). -/
def execWriteUnitRegs (fn : Fn) (tag : W32) (data : List Byte) (s : State) : Host.Outcome State Fault Refusal :=
  done (startCmd 0x21 fn tag (checked fn tag fun c t =>
    let ms := (t.targets c true).flatMap fun x =>
      (chunksOf c.length 4088).map fun (o, n) => regWrite x (c.param0 % 65536 + o) (slice data o n)
    t |> bumpAlways (44 + fnPort fn) c.length |> modWork fn tag (fun w => { w with skipped := t.skips c })
      |> sendAll fn c ms |> advanceCmd fn tag) s)

/-- A MEM_READ request's data (R447). -/
def memReadBody (region off len : Nat) : List Byte := [BitVec.ofNat 8 region, 0, 0, 0] ++ leBytes 4 len ++ leBytes 8 off

/-- READ_UNIT_MEM: reads of at most 4,092 bytes (R583); the adaptor reads a fallback unit (R435). -/
def execReadUnitMem (fn : Fn) (tag : W32) (s : State) : Host.Outcome State Fault Refusal :=
  done (startCmd 0x22 fn tag (checked fn tag fun c t =>
    let ms := (t.targets c false).flatMap fun x =>
      (chunksOf (t.memLength c) 4092).map fun (o, n) =>
        { n := x.1, ch := 2, op := 1, target := x.2.1, wide := false, unit := x.2.2.2,
          body := memReadBody c.region (c.memOffset + o) n, changes := false : CmdMsg }
    t |> sendAll fn c ms |> fallbackCalls fn c 4 [] |> advanceCmd fn tag) s)

/-- WRITE_UNIT_MEM: writes of at most 4,080 bytes (R583). -/
def execWriteUnitMem (fn : Fn) (tag : W32) (data : List Byte) (s : State) : Host.Outcome State Fault Refusal :=
  done (startCmd 0x23 fn tag (checked fn tag fun c t =>
    let ms := (t.targets c false).flatMap fun x =>
      (chunksOf c.length 4080).map fun (o, n) =>
        { n := x.1, ch := 2, op := 2, target := x.2.1, wide := false, unit := x.2.2.2,
          body := [BitVec.ofNat 8 c.region, 0, 0, 0] ++ leBytes 8 (c.memOffset + o) ++ slice data o n,
          changes := true : CmdMsg }
    t |> bumpAlways (44 + fnPort fn) c.length |> sendAll fn c ms |> fallbackCalls fn c 5 (slice data 0 c.length)
      |> advanceCmd fn tag) s)

end Sys2Proof.Machine
end

