-- ==== Sys2Proof/Machine/OsierRun.lean ====
section
/-!
DEFINITION. Runs: their registers at the first instruction, their placement on cores, which run a core executes, and
the records they produce (spec/15 R816 to R838).
-/

namespace Sys2Proof.Machine

open Sys2Proof

/-- The role of a coding and of a prediction run, and of a program (R818). -/
abbrev roleProgram : Nat := 0
abbrev roleCoding : Nat := 1
abbrev rolePred : Nat := 2

/-- A run as it stands at its first instruction: registers and writable segments zero, but x1 to x7 and PC (R792, R818);
a coding run finds 0 in x4 and x7 (R921). -/
def Run.begin_ (q : Run) (e : LibEntry) (params : List Nat) : Run :=
  let coding := q.role == roleCoding
  let q0 := { q with pc := BitVec.ofNat 64 (imageBase + e.entry), x := [], p := [], v := [], t := [], m := [], w := [],
                     flags := 0, cycle := 0, inHead := 0, inTail := 0, inLost := 0, local_ := [], creel := [],
                     input := [], wait := .none }
  q0 |> Run.setX 1 (params.getD 0 0) |> Run.setX 2 (params.getD 1 0) |> Run.setX 3 (params.getD 2 0)
     |> Run.setX 4 (if coding then 0 else q.id.toNat) |> Run.setX 5 q.partition |> Run.setX 6 q.role
     |> Run.setX 7 (if coding then 0 else q.core)

/-! ### Placement (R827) -/

/-- The runs placed on a core. -/
def State.placedOn (s : State) (c : Nat) : List Run := s.osier.runs.filter fun r => r.core == c

/-- KiB of a core's local memory that runs hold (R820). -/
def State.localUsed (s : State) (c : Nat) : Nat :=
  ((s.placedOn c).map fun r => ((s.lib r.index).map LibEntry.localKib).getD 0).sum

/-- The core that takes a run: the one with the fewest placed runs among those with room, the lowest number deciding a
tie. Each of the 16 cores has 512 KiB. -/
def State.pickCore (s : State) (kib : Nat) : Option Nat :=
  ((List.range 16).filter fun c => decide (s.localUsed c + kib ≤ 512)).foldl
    (fun best c =>
      match best with
      | some b => if (s.placedOn c).length < (s.placedOn b).length then some c else some b
      | none => some c) none

/-- Live program runs, of the hub and of one session (R816). -/
def State.programRuns (s : State) (who : Option Nat) : Nat :=
  (s.osier.runs.filter fun r => r.role == roleProgram && (who.isNone || r.session == who)).length

/-- The run of a role that a partition's binding has. -/
def State.boundRun (s : State) (p role : Nat) : Option Run :=
  s.osier.runs.find? fun r => r.role == role && r.partition == p

/-! ### Which run a core executes (R828 to R830) -/

/-- The class of a run: coding first, prediction second, program third. -/
def Run.rank (q : Run) : Nat := if q.role = roleCoding then 0 else if q.role = rolePred then 1 else 2

/-- A run that is ready. -/
def Run.ready (q : Run) : Bool := q.wait == .none

/-- Of a list of runs the next of the highest class in round robin: the lowest RUN_ID above that of the run which the core
last took of the class, else the lowest. DEDUCED, log entry 55. -/
def State.nextRun (s : State) (core : Nat) (l : List Run) : Option Run :=
  let best := l.foldl (fun m r => min m r.rank) 3
  let after := (Tab.getD s.osier.turns (3 * core + best) (0 : W32)).toNat
  let l1 := l.filter fun r => r.rank == best
  let least (k : List Run) : Option Run :=
    k.foldl (fun a r => match a with | some b => if r.id.toNat < b.id.toNat then some r else some b | none => some r) none
  (least (l1.filter fun r => decide (after < r.id.toNat))) <|> least l1

/-- The run that a core executes: its holder while ready; of an idle core, the run that became ready first (R829). -/
def State.running (s : State) (c : Nat) : Option Run :=
  let ready := (s.placedOn c).filter Run.ready
  let first := ready.foldl (fun m r => min m r.readyAt) s.t
  ((Tab.get? s.osier.holders c).bind fun id => ready.find? fun r => r.id == id) <|>
    s.nextRun c (ready.filter fun r => r.readyAt == first)

/-- Let a run hold its core from now on: its slice starts (R830). -/
def takeCore (c : Nat) (id : W32) (s : State) : State :=
  if Tab.get? s.osier.holders c == some id then s
  else
    let rank := ((s.run id).map Run.rank).getD 2
    { s with osier := { s.osier with holders := Tab.set s.osier.holders c id,
                                     turns := Tab.set s.osier.turns (3 * c + rank) id } }
      |> modRun id (fun q => { q with heldFor := 0 })

/-- The core of a run that has ended goes to the first ready run of the highest class, if there is one (R829). -/
def handOver (c : Nat) (s : State) : State :=
  match s.nextRun c ((s.placedOn c).filter Run.ready) with
  | some r => takeCore c r.id s
  | none => s

/-- A core that waits for a run to become ready is held by none (R829, R832). -/
def freeCore (c : Nat) (s : State) : State :=
  { s with osier := { s.osier with holders := Tab.erase s.osier.holders c } }

/-- A run that reaches a yield point or the slice limit: the core goes to the first other ready run of the highest
class, in round robin; with none the run continues, or the core idles (R829). -/
def switchFrom (q : Run) (sameOrHigher : Bool) (s : State) : State :=
  let others := (s.placedOn q.core).filter fun r => r.ready && r.id != q.id && (!sameOrHigher || decide (r.rank ≤ q.rank))
  match s.nextRun q.core others with
  | some r => takeCore q.core r.id s
  | none => if (s.run q.id).any Run.ready then s else freeCore q.core s

/-! ### PROGRAM records (R836) -/

/-- Write a PROGRAM record of a run: EVENT 0 POSTED, 1 STARTED, 2 ENDED. -/
def programRec (q : Run) (event : Nat) (data : List Byte) (s : State) : State :=
  writeRec 0x10 q.partition (leBytes 4 q.id.toNat ++ [BitVec.ofNat 8 q.index, BitVec.ofNat 8 q.core,
    BitVec.ofNat 8 event, BitVec.ofNat 8 q.role] ++ data) s

/-! ### Starting a run -/

/-- What a start asks for. -/
structure RunReq where
  index : Nat
  role : Nat
  p : Nat
  session : Option Nat := none
  hostOut : Bool := false
  pred : Bool := false
  limit : Nat := 0
  bufAddr : Nat := 0
  bufWindow : Nat := 0
  params : List Nat := []

/-- Place a run and make it ready, with its STARTED record; none where no core or no Creel space takes it (R820, R827,
R834). -/
def startRun (a : RunReq) (s : State) : Option (Run × State) :=
  match s.lib a.index with
  | none => none
  | some e =>
    match s.pickCore e.localKib with
    | none => none
    | some c =>
      if s.creelFree < e.runSpace a.role ∨ e.profile ≠ 0 then none
      else
        let q : Run :=
          { id := BitVec.ofNat 32 s.osier.nextRun, index := a.index, core := c, role := a.role, partition := a.p,
            session := a.session, hostOut := a.hostOut, pred := a.pred, limit := BitVec.ofNat 64 a.limit,
            bufAddr := BitVec.ofNat 64 a.bufAddr, bufWindow := BitVec.ofNat 32 a.bufWindow, pc := 0, x := [], p := [],
            v := [], t := [], m := [], w := [], flags := 0, cycle := 0, inHead := 0, inTail := 0, inLost := 0,
            local_ := [], creel := [], input := [], wait := .none, heldFor := 0, readyAt := s.t }
        let r := q.begin_ e a.params
        let s1 := { s with osier := { s.osier with runs := s.osier.runs ++ [r], nextRun := s.osier.nextRun + 1 } }
        some (r, programRec r 1 [] s1)

/-- Restart a run in place: RUN_ID, core and session stay (R938). -/
def restartRun (id : W32) (s : State) : State :=
  modRun id (fun q => match s.lib q.index with
    | some e => { q.begin_ e [] with readyAt := if q.ready then q.readyAt else s.t }
    | none => q) s

end Sys2Proof.Machine
end

