-- ==== Sys2Proof/Machine/Coder.lean ====
section
/-!
DEFINITION. The coder of a coded partition: range coder, symbols, spans and frames, state-reset points (spec/18).
-/

namespace Sys2Proof.Machine

open Sys2Proof

/-! ### The range coder (R931, R932) -/

/-- The encoder while it codes one record or END: the bytes it emits and the renorm shifts it makes. -/
structure Enc where
  probs : List (Nat × BitVec 12)
  low : Nat
  range : Nat
  cache : Nat
  pending : Nat
  out : List Byte
  shifts : Nat

/-- The encoder of a partition as it stands. -/
def Coder.enc (c : Coder) : Enc :=
  { probs := c.probs, low := c.low.toNat, range := c.range.toNat, cache := c.cache.toNat, pending := c.pending, out := [],
    shifts := 0 }

/-- Keep what the encoder leaves behind. -/
def Coder.keep (c : Coder) (e : Enc) : Coder :=
  { c with probs := e.probs, low := BitVec.ofNat 33 e.low, range := BitVec.ofNat 32 e.range,
           cache := BitVec.ofNat 8 e.cache, pending := e.pending }

/-- The start of a span (R932). -/
def Enc.start (e : Enc) : Enc := { e with low := 0, range := 0xFFFFFFFF, cache := 0, pending := 1 }

/-- shift_low of R932. -/
def Enc.shiftLow (e : Enc) : Enc :=
  let e1 :=
    if e.low < 0xFF000000 ∨ 2 ^ 32 ≤ e.low then
      let c := e.low / 2 ^ 32
      let bytes := if e.pending = 0 then [] else
        BitVec.ofNat 8 (e.cache + c) :: List.replicate (e.pending - 1) (BitVec.ofNat 8 (0xFF + c))
      { e with out := e.out ++ bytes, pending := 0, cache := e.low / 2 ^ 24 % 256 }
    else e
  { e1 with pending := e1.pending + 1, low := e1.low % 2 ^ 24 * 256 }

/-- One turn of renorm. -/
def Enc.renorm1 (e : Enc) : Enc :=
  if e.range < 2 ^ 24 then { ({ e with range := e.range * 256 } : Enc).shiftLow with shifts := e.shifts + 1 } else e

/-- renorm of R932: no range that the coder reaches needs more than three shifts. -/
def Enc.renorm (e : Enc) : Enc := e.renorm1.renorm1.renorm1.renorm1

/-- The probability of a 0 bit of a context (R931). -/
def Enc.prob (e : Enc) (ctx : Nat) : Nat := (Tab.getD e.probs ctx (2048 : BitVec 12)).toNat

/-- binary(ctx, bit) of R932, with the update of R931. -/
def Enc.binary (ctx : Nat) (b : Bool) (e : Enc) : Enc :=
  let p := e.prob ctx
  let bound := e.range / 4096 * p
  let p1 := if b then p - p / 32 else p + (4096 - p) / 32
  let e1 := if b then { e with low := e.low + bound, range := e.range - bound } else { e with range := bound }
  { e1 with probs := Tab.set e1.probs ctx (BitVec.ofNat 12 p1) }.renorm

/-- symbol(f, s) of R932. -/
def Enc.symbol (f : List Nat) (k : Nat) (e : Enc) : Enc :=
  let r := e.range / 4096
  { e with low := e.low + r * (f.take k).sum, range := r * f.getD k 0 }.renorm

/-- bypass(bit) of R932. -/
def Enc.bypass (b : Bool) (e : Enc) : Enc :=
  let h := e.range / 2
  { e with range := h, low := if b then e.low + h else e.low }.renorm

/-- The `n` lowest bits of a value as bypass bits, most significant first. -/
def Enc.bypassBits (n v : Nat) (e : Enc) : Enc := (List.range n).foldl (fun a k => a.bypass (bit v (n - 1 - k))) e

/-! ### Symbols (R927 to R930) -/

/-- The hit context and the first of the 15 index contexts, after the residual contexts of R930. -/
abbrev hitCtx : Nat := 261120
abbrev indexCtx : Nat := 261121

/-- A tree of binary decisions, `n` bits, most significant first: node 1 at the root. -/
def Enc.tree (base n v : Nat) (e : Enc) : Enc :=
  ((List.range n).foldl
    (fun (a : Enc × Nat) k =>
      let b := bit v (n - 1 - k)
      (a.1.binary (base + a.2 - 1) b, 2 * a.2 + b2n b)) (e, 1)).1

/-- The key, against the move-to-front list (R929). -/
def Enc.key (mtf : List W16) (k : W16) (e : Enc) : Enc :=
  match mtf.findIdx? (· == k) with
  | some i => (e.binary hitCtx false).tree indexCtx 4 i
  | none => (e.binary hitCtx true).bypassBits 16 k.toNat

/-- The key moves to the front (R929). -/
def moveFront (mtf : List W16) (k : W16) : List W16 :=
  match mtf.findIdx? (· == k) with
  | some i => k :: mtf.eraseIdx i
  | none => k :: mtf.take 15

/-- The delta of a record and its bucket (R928). -/
def Coder.delta (c : Coder) (r : TraceRec) : W64 := r.ts - Tab.getD c.keyTs r.key 0

def deltaBucket (d : W64) : Nat := if d = 0 then 0 else if d.toNat < 2 ^ 30 then 1 + d.toNat.log2 else 31

/-- The residual bytes of a record: header bytes 1 to 7, then the payload (R927). -/
def TraceRec.residual (r : TraceRec) : List Byte := (r.bytes.drop 1).take 7 ++ r.payload

/-- Code one record (R927 to R930). -/
def Enc.record (c : Coder) (te td : List Nat) (r : TraceRec) (e : Enc) : Enc :=
  let d := c.delta r
  let b := deltaBucket d
  let e1 := ((e.key c.mtf (BitVec.ofNat 16 r.key)).symbol te r.esym).symbol td b
  let e2 := if b = 31 then e1.bypassBits 64 r.ts.toNat else if b = 0 then e1 else e1.bypassBits (b - 1) d.toNat
  (r.residual.zipIdx).foldl (fun a (x, p) => a.tree ((r.esym * 32 + min p 31) * 255) 8 x.toNat) e2

/-- The end of a span: key END as a miss, five shifts (R929, R932). -/
def Enc.finish (e : Enc) : Enc :=
  let f := (e.binary hitCtx true).bypassBits 16 0xFFFE
  Nat.repeat Enc.shiftLow 5 f

/-! ### Coded bytes into frames (R935, R936) -/

/-- Coded bytes a frame holds behind its 8 bytes. -/
def codedBody : Nat := frameBody - 8

/-- A coded frame that nothing has entered. -/
def Frame.emptyCoded (now : Nat) : Frame :=
  { coded := true, recs := 0, body := [], since := now, spilled := false, firstTs := 0, spanOff := none, spansEnded := 0 }

/-- The open coded frame, or a new one. -/
def State.codedFrame (s : State) (p : Nat) : Frame := ((s.part p).frame).getD (Frame.emptyCoded s.t)

/-- A closed coded frame counts since the reset point. -/
def countFrame (f : Frame) (c : Coder) : Coder := if f.coded then { c with frames := c.frames + 1 } else c

/-- Change the open coded frame; one that is full is closed. -/
def modCoded (p : Nat) (g : Frame → Frame) (s : State) : State :=
  let f := g (s.codedFrame p)
  if f.body.length < codedBody then modPart p (fun x => { x with frame := some f }) s
  else modPart p (fun x => { x with frame := none, frames := x.frames ++ [f], coder := countFrame f x.coder }) s

/-- Put coded bytes into frames; `ends`: the last of them ends a span. -/
def putCoded (p : Nat) (ends : Bool) : List Byte → State → State
  | [], s => s
  | [b], s => modCoded p (fun f => { f with body := f.body ++ [b], spansEnded := f.spansEnded + b2n ends }) s
  | b :: bs, s => putCoded p ends bs (modCoded p (fun f => { f with body := f.body ++ [b] }) s)

/-- Close the open frame of a stream. -/
def closeCoded (p : Nat) (s : State) : State :=
  match (s.part p).frame with
  | some f => modPart p (fun x => { x with frame := none, frames := x.frames ++ [f], coder := countFrame f x.coder }) s
  | none => s

/-- End the span that is under way (R932); its bytes count to its last record (R937). -/
def endSpan (p : Nat) (s : State) : State :=
  let c := (s.part p).coder
  if !c.inSpan then s
  else
    let e := c.enc.finish
    let bytes := e.shifts + 5
    s |> modPart p (fun x => { x with coder := { x.coder.keep e with inSpan := false } })
      |> putCoded p true e.out
      |> modMeters (s.part p).owner (fun m => m.add 0 0 (if c.prev.any fun x => x.1.lost then 0 else bytes) 0 0)

/-! ### State-reset points (R938 to R943) -/

/-- The payload of a MODEL_SWITCH record (R941). -/
def switchPayload (s : State) (p : Nat) (oldEnc newEnc : Bool) (reason oldIndex newIndex nextSeq resets : Nat) :
    List Byte :=
  let hash := if newEnc then ((s.lib newIndex).map fun e => e.hash.toNat).getD 0 else 0
  [BitVec.ofNat 8 (b2n oldEnc), BitVec.ofNat 8 (b2n newEnc), BitVec.ofNat 8 reason, BitVec.ofNat 8 newIndex,
    BitVec.ofNat 8 oldIndex, 0, 0, 0] ++ leBytes 4 nextSeq ++ leBytes 4 resets ++ leBytes 16 hash ++
    leBytes 4 (s.part p).active.gen.toNat ++ [1] ++ zeros 11

/-- The MODEL_SWITCH record: alone in a raw frame of the port stream whenever the partition has one; to DRAM as routed
(R938, R941); metered by its LENGTH, unless DRAM drops it (R352, R937). `dram`: that of a weft switch, whose place in DRAM is
behind the WEAVE record; any other one waits there for those (R244). -/
def putSwitch (p : Nat) (payload : List Byte) (ofSwitch : Option Bool) (s : State) : State :=
  let r := hubRec 0x0B p payload s
  let dram := ofSwitch.getD (bit (s.dest r) 1)
  let waits := dram && ofSwitch.isNone && s.dramWaits p
  let kept := dram && !waits && dramKeeps r s
  let f : Frame :=
    { coded := false, recs := 1, body := r.bytes, since := s.t, spilled := false, firstTs := r.ts, spanOff := none,
      spansEnded := 0 }
  let s1 := deliverInput r s
  let s2 := if s.hasPortStream p then modPart p (fun x => { x with frames := x.frames ++ [f] }) s1
    else s1
  if waits then holdDram false r s2
  else
    let s3 := if dram then dramArrive r s2 else s2
    let s4 := if if dram then kept else s.hasPortStream p then modMeters (s.part p).owner (fun m => m.add 0 0 r.len 0 0) s3 else s3
    if s.hasPortStream p || kept then hubEvent p 5 1 s4 else s4

/-- A state-reset point up to its step 4: the span and the frame end, MODEL_SWITCH goes out, contexts, keys and timestamps are
reset, and the coding run restarts where the new stream is coded, for exchange 1 (R938). A raw stream keeps the number of the
last exchange posted, which ends a stall (R926). -/
def resetCoder (p reason : Nat) (newEnc : Bool) (newIndex : Nat) (ofSwitch : Option Bool) (s : State) : State :=
  let s1 := s |> endSpan p |> closeCoded p
  let c := (s1.part p).coder
  let next := (s1.part p).partSeq.toNat + (s1.part p).frames.length + 1
  let s2 := putSwitch p
    (switchPayload s1 p c.coded newEnc reason c.model newIndex next (c.resets.toNat + 1)) ofSwitch s1
  let s3 := modPart p (fun x =>
    { x with coder := { x.coder with probs := [], mtf := List.replicate 16 0xFFFF, keyTs := [], prev := none,
                                     posted := none, bad := false,
                                     exch := if newEnc then 1 else x.coder.exch, coded := newEnc,
                                     model := if newEnc then newIndex else 0xFF, resets := x.coder.resets + 1,
                                     frames := 0 } }) s2
  match newEnc, c.run with
  | true, some id => restartRun id s3
  | _, _ => s3

/-- A state-reset point, behind which the stream goes on (R938). -/
def resetPoint (p reason : Nat) (newEnc : Bool) (newIndex : Nat) (s : State) : State :=
  s |> resetCoder p reason newEnc newIndex none |> pumpPort p

/-- The port stream of a partition is to be coded (R916), under the weft that the stream has come to (R940). -/
def State.wantCoded (s : State) (p : Nat) : Bool :=
  let x := s.part p
  let forced := if x.coder.pendSwitch.isEmpty then x.forcedRaw else x.coder.forced
  x.coder.binding.isSome && !forced && !x.coder.stalled && (x.coder.run.bind s.run).isSome

/-- The library index of the coding run. -/
def State.codingIndex (s : State) (p : Nat) : Nat :=
  (((s.part p).coder.run.bind s.run).map fun r => r.index).getD 0xFF

/-- Make a reset point if the stream changes between raw and coded (R939). -/
def syncCoder (p reason : Nat) (s : State) : State :=
  let want := s.wantCoded p
  if want == (s.part p).coder.coded then s else resetPoint p reason want (if want then s.codingIndex p else 0xFF) s

/-- Make a reset point whatever changes. -/
def forceReset (p reason : Nat) (s : State) : State :=
  let want := s.wantCoded p
  resetPoint p reason want (if want then s.codingIndex p else 0xFF) s

/-! ### Coding a record -/

/-- The uniform table (R925). -/
def uniformTable : List Nat := List.replicate 32 128

/-- The tables of an answer, or none where it is not valid (R924, R925). -/
def answerTables (q : Run) (n : Nat) : Option (List Nat × List Nat) :=
  let base := 256 * ((n - 1) % 16)
  let table (off : Nat) : List Nat := (List.range 32).map fun k => Mem.val q.local_ (base + off + 2 * k) 2
  let ok (t : List Nat) : Bool := t.all (1 ≤ ·) && t.sum == 4096
  if Mem.val q.local_ base 4 = n ∧ ok (table 16) ∧ ok (table 80) then some (table 16, table 80) else none

/-- The coder's state in the Creel is written; an injected error spoils it (R999, R1014). -/
def spoilCoder (hit : Bool) (p : Nat) (s : State) : State :=
  if hit then modPart p (fun x => { x with coder := { x.coder with bad := true } }) s else s

/-- Code the record at the head of the tier with its tables: a span starts if none is under way; the record's coded bytes
are its renorm shifts (R934, R937). -/
def codeRecord (p : Nat) (te td : List Nat) (r : TraceRec) (s : State) : State :=
  let c := (s.part p).coder
  let starts := !c.inSpan
  let e := Enc.record c te td r (if starts then c.enc.start else c.enc)
  let d := c.delta r
  let begins (f : Frame) : Frame :=
    { f with recs := f.recs + 1, spilled := f.spilled || r.spilled, firstTs := if f.recs = 0 then r.ts else f.firstTs,
             spanOff := if starts && f.spanOff.isNone then some f.body.length else f.spanOff }
  let next (y : Coder) : Coder :=
    { y.keep e with inSpan := true, mtf := moveFront y.mtf (BitVec.ofNat 16 r.key), keyTs := Tab.set y.keyTs r.key r.ts,
                    exch := y.exch + 1, posted := none, prev := some (r, r.esym, deltaBucket d, d),
                    inBytes := y.inBytes + BitVec.ofNat 64 r.len }
  s |> modCoded p begins
    |> modPart p (fun x => { x with tier := x.tier.drop 1, coder := next x.coder })
    |> putCoded p false e.out
    |> modMeters (s.part p).owner (fun m => m.add 0 0 (if r.lost then 0 else e.shifts) 0 0)

/-- Frames of a coded stream between periodic reset points (R939). -/
def periodicFrames : Nat := 4096

end Sys2Proof.Machine
end

