-- ==== Sys2Proof/Machine/Runs.lean ====
section
/-!
DEFINITION. The end of a run and what follows from it, and the runs that a weft binds (spec/15 R822 to R839).
-/

namespace Sys2Proof.Machine

open Sys2Proof

/-! ### Status codes (R825) -/

abbrev runDone : Nat := 2
abbrev runStopped : Nat := 3
abbrev runException : Nat := 4
abbrev runLimit : Nat := 5
abbrev runReset : Nat := 6

/-- EPC of a run as it stands: the byte offset of its program counter within the code (R826). -/
def State.epc (s : State) (q : Run) : Nat :=
  q.pc.toNat - imageBase - ((s.lib q.index).map LibEntry.codeOff).getD 0

/-- The result words of STOP_PROGRAM for a run that has ended (R826). -/
def EndedRun.res (x : EndedRun) : Res :=
  { r0 := x.status.toNat,
    r1 := if x.status == 2 then x.exit.toNat else if x.status == 5 then 0 else x.cause.toNat,
    r2 := x.epc.toNat, r3 := sat 0xFFFFFFFF (x.cycles.toNat / 1024) }

/-- The result words for a live run. -/
def State.liveRes (s : State) (q : Run) : Res :=
  { r0 := 1, r1 := 0, r2 := s.epc q, r3 := sat 0xFFFFFFFF (q.cycle.toNat / 1024) }

/-- How a live run ends. -/
def State.ending (s : State) (q : Run) (status cause : Nat) : EndedRun :=
  { id := q.id, index := q.index, core := q.core, role := q.role, partition := q.partition, session := q.session,
    status := BitVec.ofNat 8 status, cause := BitVec.ofNat 8 cause,
    exit := if status = runDone then BitVec.ofNat 32 (q.rx 1) else 0, epc := BitVec.ofNat 32 (s.epc q),
    cycles := q.cycle }

/-- DATA of an ENDED record (R836). -/
def EndedRun.data (x : EndedRun) : List Byte :=
  [x.status, x.cause, 0, 0] ++ leBytes 4 x.exit.toNat ++ leBytes 4 x.epc.toNat ++ zeros 4 ++ leBytes 8 x.cycles.toNat

/-! ### Bindings (R833, R834) -/

/-- The models that a weft binds: the coding model and the prediction model. -/
def weftBinding (w : Mem) (role : Nat) : Option Nat :=
  if role = roleCoding then (if weftCoded w then some (weftModel w) else none)
  else if predModel w = 0xFF then none else some (predModel w)

/-- A bit of a set of partitions. -/
def setBit (m : BitVec 64) (p : Nat) (b : Bool) : BitVec 64 := if b then m ||| (1#64 <<< p) else m &&& ~~~(1#64 <<< p)

/-- Mark a binding unplaced or not, and failed or not. -/
def markBinding (p role : Nat) (unplaced failed : Bool) (s : State) : State :=
  let o := s.osier
  if role = roleCoding then
    { s with osier := { o with codingUnplaced := setBit o.codingUnplaced p unplaced,
                               codingFailed := setBit o.codingFailed p failed } }
  else
    { s with osier := { o with predUnplaced := setBit o.predUnplaced p unplaced,
                               predFailed := setBit o.predFailed p failed } }

/-- Start the run of a binding, or leave the binding unplaced (R833, R834). -/
def startBound (p role index : Nat) (s : State) : State :=
  match startRun { index := index, role := role, p := p } s with
  | some (q, t) =>
    let t1 := markBinding p role false false t
    if role = roleCoding then modPart p (fun x => { x with coder := { x.coder with run := some q.id } }) t1 else t1
  | none => markBinding p role true false s

/-- The model bound for a role: for coding, by the weft that the port stream has come to (R833, R940). -/
def State.binding (s : State) (p role : Nat) : Option Nat :=
  if role = roleCoding then (s.part p).coder.binding else weftBinding (s.part p).active.weft role

/-- The binding of a partition is unplaced. -/
def State.unplaced (s : State) (p role : Nat) : Bool :=
  if role = roleCoding then s.osier.codingUnplaced.getLsbD p else s.osier.predUnplaced.getLsbD p

/-- Try one unplaced binding again; the stream of a placed coding run is coded again (R834, R943). -/
def retryBound (p role : Nat) (s : State) : State :=
  match s.binding p role with
  | some i =>
    if s.unplaced p role then
      let s1 := startBound p role i s
      if role = roleCoding then syncCoder p 4 s1 else s1
    else s
  | none => s

/-- Try every unplaced binding again (R834). -/
def retryAll (s : State) : State :=
  each (List.range 64) (fun p t => t |> retryBound p roleCoding |> retryBound p rolePred) s

/-! ### The end of a run -/

/-- Complete the WAIT commands of a run that has ended (R824). -/
def completeWaits (x : EndedRun) (s : State) : State :=
  each (s.cmdsWhere fun _ c => c.op == 0x62 && c.started && c.f 52 1 == 1 && c.f 56 4 == x.id.toNat)
    (fun (f, c) => complete f c.tag x.res) s

/-- Take a run away: it joins the last 64 that ended, with its ENDED record; a bound run's binding is not placed; the
WAIT commands complete (R823, R834, R837). -/
def takeRun (q : Run) (status cause : Nat) (s : State) : State :=
  let x := s.ending q status cause
  let o := s.osier
  let holders := if Tab.get? o.holders q.core == some q.id then Tab.erase o.holders q.core else o.holders
  let s1 := { s with osier := { o with runs := o.runs.filter (fun r => r.id != q.id), holders := holders,
                                       ended := (o.ended ++ [x]).drop (o.ended.length + 1 - 64) } }
  let s2 := programRec q 2 x.data s1
  let s2 := if (s.running q.core).any fun r => r.id == q.id then handOver q.core s2 else s2
  let s3 := if q.role = roleCoding then
      modPart q.partition (fun y => { y with coder := { y.coder with run := none, stalled := false } }) s2 else s2
  let s4 := if q.role = roleProgram then s3 else markBinding q.partition q.role false (status == runException) s3
  completeWaits x s4

/-- End a run: the stream of a coding run turns raw, and every unplaced binding is tried again (R834, R942). -/
def endRun (q : Run) (status cause : Nat) (s : State) : State :=
  let s1 := takeRun q status cause s
  retryAll (if q.role = roleCoding then syncCoder q.partition 5 s1 else s1)

/-- End every run that `sel` selects. -/
def endRuns (sel : Run → Bool) (status cause : Nat) (s : State) : State :=
  each ((s.osier.runs.filter sel).map fun q => q.id)
    (fun id t => match t.run id with | some q => endRun q status cause t | none => t) s

/-- End the program runs that a session started on a partition, when it has lost its last role there (R839). -/
def endRoleRuns (n p : Nat) (s : State) : State :=
  if s.reads n p then s
  else endRuns (fun q => q.role == roleProgram && q.session == some n && q.partition == p) runStopped 0x11 s

/-- The prediction binding of a partition changes from one weft to another: the run of a removed binding ends, that of
an added one starts, an unchanged one keeps its run (R833). -/
def rebindPred (p : Nat) (old new : Mem) (s : State) : State :=
  if weftBinding old rolePred == weftBinding new rolePred then s
  else
    let s1 := match s.boundRun p rolePred with
      | some q => takeRun q runStopped 0x12 s
      | none => s
    let s2 := markBinding p rolePred false false s1
    retryAll (match weftBinding new rolePred with
      | some i => startBound p rolePred i s2
      | none => s2)

/-- The coding binding of a partition's stream changes: the run of a removed binding ends, that of an added one starts, an
unchanged one keeps its run (R833). -/
def rebindCoding (p : Nat) (want : Option Nat) (s : State) : State :=
  if (s.part p).coder.binding == want then s
  else
    let s1 := match s.boundRun p roleCoding with
      | some q => takeRun q runStopped 0x12 s
      | none => s
    let s2 := s1 |> modPart p (fun x => { x with coder := { x.coder with binding := want } })
      |> markBinding p roleCoding false false
    match want with
    | some i => startBound p roleCoding i s2
    | none => s2

/-- Once every record that the oldest waiting weft switch found in the port stream has been taken, the coding binding changes
and the state-reset point is made, where the stream or its model changes (R939, R940). The records of the runs that end and
start wait behind its MODEL_SWITCH in DRAM, and go there with what else waits (R244). -/
def switchPoint (p : Nat) (s : State) : State :=
  let x := s.part p
  match x.coder.pendSwitch with
  | [] => s
  | e :: _ =>
    if e.pos ≤ x.portIn - x.waiting then
      let s1 := rebindCoding p e.binding s
      let held := ((s1.part p).coder.pendSwitch.take 1).flatMap fun y => y.behind
      let s2 := modPart p (fun y => { y with coder := { y.coder with forced := e.forced, pendSwitch := y.coder.pendSwitch.drop 1 } }) s1
      let want := s2.wantCoded p
      let c := (s2.part p).coder
      let s3 := if want != c.coded || (want && c.model != s2.codingIndex p) then
          resetCoder p 1 want (if want then s2.codingIndex p else 0xFF) (some e.dram) s2
        else s2
      s3 |> flushDram held |> pumpPort p |> retryAll
    else s

/-- The port stream comes to the weft switches that wait for it. -/
def checkSwitch (p : Nat) (s : State) : State := each (s.part p).coder.pendSwitch (fun _ => switchPoint p) s

/-- Start the runs of a partition's bindings at READY (R136, R833). -/
def bindAtReady (p : Nat) (s : State) : State :=
  let one (role : Nat) (t : State) : State :=
    match weftBinding (t.part p).active.weft role with
    | some i => startBound p role i t
    | none => t
  s |> modPart p (fun x => { x with coder := { x.coder with binding := weftBinding x.active.weft roleCoding } })
    |> one roleCoding |> one rolePred

end Sys2Proof.Machine
end

