-- ==== Sys2Proof/Machine/Adaptor.lean ====
section
/-!
DEFINITION. The scan adaptor of N7: its calls, their results, and the commands that concern it (spec/07 R434 to R437,
spec/15 R840 to R844).
-/

namespace Sys2Proof.Machine

open Sys2Proof

/-- The completion status of a call's result (R841). -/
def adaptorStatus (r : Nat) : Byte := if r = 1 then stBadAddress else if r = 2 then stBusy else stUnitUnresponsive

/-- A call for a command ends well. -/
def callOk (c : AdaptorCall) (last : Bool) (data : List Byte) (s : State) : State :=
  match c.cmd with
  | none => s
  | some (f, tag) =>
    let off := match s.cmd f tag with | some d => c.offset.toNat - d.memOffset | none => 0
    let n := if c.op = 2 then 1 else if c.moves then c.len else 0
    (if c.op = 4 then bufWrite f tag off (data.take c.len) s else s)
      |> modWork f tag (fun w => { w with executed := true, r0 := w.r0 + n, outst := if last then w.outst - 1 else w.outst })

/-- Look at the gathering of a unit's partition. -/
def unitGathering (u : Nat) (s : State) : State :=
  match s.unitPart u with
  | some p => checkGather p s
  | none => s

/-- What an operation that has succeeded does to its unit, and to those who wait for it (R435). -/
def callEffect (c : AdaptorCall) (s : State) : State :=
  if c.op = 1 then
    s |> modUnit c.unit (UnitSt.saw .halted false s.t) |> unitGathering c.unit
  else if c.op = 2 then modUnit c.unit (fun x => x.run .running true (s.unitGathers c.unit) s.t) s
  else if c.op = 3 then s |> stepEnds c.unit true |> modUnit c.unit (UnitSt.saw .halted false s.t) |> unitGathering c.unit
  else s

/-- What an operation that has failed does: a HALT leaves its unit to its HALT_TIMEOUT; any other ends its command, and its
unit has not answered where there is no result or result 3 (R435, R554, R564, R572, R841). -/
def callFailed (c : AdaptorCall) (result : Option Nat) (s : State) : State :=
  let st := adaptorStatus (result.getD 3)
  match c.cmd with
  | none => s
  | some (f, tag) =>
    if c.op = 1 then s
    else
      let run := c.op == 2 || c.op == 3
      let unresp := run && ((s.unit c.unit).view == .unresponsive || st == stUnitUnresponsive)
      { s with osier := { s.osier with calls := s.osier.calls.filter fun d => d.cmd != c.cmd || d.unit != c.unit } }
        |> modWork f tag (fun w =>
            { w with outst := w.outst - 1, units := w.units.filter (· != c.unit), forcePart := w.forcePart || unresp,
                     r1 := if run && st == stUnitUnresponsive then w.r1 + 1 else w.r1 })
        |> failCmd f tag (if unresp then stUnitUnresponsive else st) |> advanceCmd f tag

/-- Go on with the command of a call. DEDUCED, log entry 56. -/
def callAdvance (c : AdaptorCall) (s : State) : State :=
  match c.cmd with
  | some (f, tag) => advanceCmd f tag s
  | none => s

/-- The call in progress ends with a result, or with none: an exception or its time (R436, R842 to R844). -/
def callEnds (result : Option Nat) (s : State) : State :=
  match s.osier.call with
  | none => s
  | some c =>
    let data := (s.osier.adaptor.map fun q => Mem.readN q.local_ 0 4096).getD []
    let s1 := { s with osier := { s.osier with call := none } }
    let s2 :=
      if c.op = 6 then
        let ok := result == some 0
        { s1 with osier := { s1.osier with adaptorReady := ok,
                                           scanCtrl := if ok then s1.osier.scanCtrl ||| 0x10000
                                                       else s1.osier.scanCtrl &&& ~~~0x10000 } }
      else if result = some 0 then
        let more := s1.osier.calls.any fun d => d.cmd == c.cmd && d.unit == c.unit && c.moves
        s1 |> callOk c (!more) data |> callEffect c |> callAdvance c
      else callFailed c result s1
    s2 |> pumpAdaptor |> noteRuns

/-- The operations that a change of the adaptor drops: without an adaptor N7 is a link that is down. A unit that was to halt
is UNRESPONSIVE (R56), and the command of any other operation ends with LINK_DOWN (R425, R434). DEDUCED, log entry 56. -/
def callsDropped (l : List AdaptorCall) (s : State) : State :=
  let lost := ((l.filter fun c => c.op != 1).filterMap fun c => c.cmd.map fun d => (d, c.unit)).eraseDups
  s |> each ((l.filter fun c => c.op == 1).map (·.unit)) declareUnit
    |> each lost (fun ((f, tag), u) => cmdLinkLost f tag [u])

/-- NSL7_SCAN_CTRL is written: TCK_DIV and the adaptor (R437). ADAPTOR_VALID written 1 for an adaptor not in force calls it
with INIT, and reads 1 once INIT has returned OK (R841, R844). -/
def scanWrite (value : W32) (s : State) : State :=
  let o := s.osier
  let same := o.scanCtrl.getLsbD 16 && value.toNat / 256 % 256 == s.adaptorIndex
  let base := value &&& 0xFFFF
  if value.getLsbD 16 && same then { s with osier := { o with scanCtrl := base ||| 0x10000 } }
  else
    let s1 := callsDropped (o.call.toList ++ o.calls)
      { s with osier := { o with scanCtrl := base, adaptorReady := false, calls := [], call := none, adaptor := none } }
    if value.getLsbD 16 && s1.adaptorEntry.isSome then
      pushCall { op := 6, unit := 0, region := 0, offset := 0, len := 0, abrupt := false, cmd := none, startedAt := s.t,
                 data := [] } s1
    else s1

/-- SCAN_CTRL_WRITE. -/
def execScanCtrlWrite (by_ : HostPort) (value : W32) (s : State) : Host.Outcome State Fault Refusal :=
  let f := 64 + by_.val
  done (hostPut f (fun t => if t.isArbiterPm f then scanWrite value t else t) s)

/-- ADAPTOR_OPERATION_TIMEOUT: an operation that has not ended within HALT_TIMEOUT (R436). -/
def execAdaptorOperationTimeout (s : State) : Host.Outcome State Fault Refusal :=
  match s.osier.call with
  | some c =>
    match s.unitPart c.unit with
    | some p => if c.op ≠ 6 ∧ c.startedAt + s.haltTimeout p ≤ s.t then done (callEnds none s) else done s
    | none => done s
  | none => done s

/-- Drive the SCAN pins: they are in high impedance unless N7 is in scan fallback (R1067). -/
def scanOut (op : Nat) (bits : List Bool) (s : State) : State := if s.fallback 7 then emit (.scan op bits) s else s

/-- What the scan primitives drive on the N7 TAP controller (R843). -/
def scanAct (q : Run) (e : LibEntry) (act : CtlAct) (s : State) : State :=
  let idle (t : State) : State := { t with osier := { t.osier with scanReset := false } }
  match act with
  | .scanReset => { s with osier := { s.osier with scanReset := true } } |> scanOut 0 []
  | .scan ir a n =>
    let bits := toBits (8 * scanBytes n) (leVal (q.bytesAt e a (scanBytes n)))
    idle s |> scanOut (if ir then 1 else 2) (bits.take n)
  | .scanIdle n => idle s |> scanOut 3 (toBits 16 n)
  | _ => s

/-- What a word of the adaptor's call does once it has run. `hit`: it read a bad word of the Stake core's memory. -/
def adaptorRan (stopFirmware : State → State) (cycles : Nat) (q : Run) (e : LibEntry) (hit : Bool) (o : WordEff) (s : State) :
    State :=
  if hit then callEnds none (stopFirmware s)
  else
    match o with
    | .raised c => callEnds none (if c = exPoison then uncorrectableItem false 5 adaptorCore 0 2 s else s)
    | .ran r _ act =>
      let r1 := { r with cycle := r.cycle + BitVec.ofNat 64 cycles }
      let s1 := scanAct q e act { s with osier := { s.osier with adaptor := some r1 } }
      match act with
      | .finish => callEnds (some (r1.rx 1)) s1
      | _ => s1

/-- One word of the adaptor's call on its Stake core. A word that fails SECDED in the Stake core's memory stops the
firmware (R999, R1002); one in the Creel, where the image lies, ends the call. -/
def adaptorWord (stopFirmware : State → State) (cycles : Nat) (poison : Nat) (tdo : List Bool) (s : State) : State :=
  match s.osier.call, s.osier.adaptor, s.adaptorEntry with
  | some _, some q, some e =>
    let w := e.word (q.pc.toNat - imageBase)
    let env : RunEnv := { now := s.t }
    let bad := (poison == 2 && readsCreel q e env w) || readsBad q e env w
    adaptorRan stopFirmware cycles q e (poison == 1 && readsLocal q e env w)
      (if poison == 3 || fetchesBad q e then .raised exPoison else runWord q e env w bad tdo)
      (if poison == 4 then correctedWord false s else s)
  | _, _, _ => s

end Sys2Proof.Machine
end

