-- ==== Sys2Proof/Machine/Slath.lean ====
section
/-!
DEFINITION. The Slath at work (spec/11): staging, in-flight reads, assignment, region capture, and the commands CUT,
PROOF_DONE, RELEASE_CUT and CUT_FREED.
-/

namespace Sys2Proof.Machine

open Sys2Proof

/-! ### In-flight reads (R603 to R605) -/

/-- In-flight bytes held by a cut. -/
def Cut.heldBytes (c : Cut) : Nat := (c.msgs.map fun m => m.bytes.length).sum

/-- An in-flight read of a partition's cut is outstanding on a port. -/
def State.readingOn (s : State) (n p : Nat) : Bool :=
  (s.port n).lk.open_.any fun r => match r.who with | .inflight q _ => q == p | _ => false

/-- Once LIMIT or NO_SPACE applies, no further message of the cut is read: the rest takes the same code. -/
def Cut.stopReads (c : Cut) (code : Nat) : Cut :=
  { c with msgs := c.msgs.map fun m => if m.status.isNone then { m with status := some code } else m }

/-- End a message: the first row of R605 that applies gives its MSTATUS. -/
def Cut.endMsg (c : Cut) (i code : Nat) : Cut :=
  { c with msgs := modAt c.msgs i fun m => { m with status := some (min code (m.status.getD code)) } }

/-- The link of an enumerated port is not lost: in ACTIVE, or in a retrain, after which what is asked for goes out (R424). -/
def State.linked (s : State) (n : Nat) : Bool := s.takesReq n && (s.port n).enumerated

/-- Send the next in-flight read of a port, if none is outstanding there. -/
def readPort (p n : Nat) : Nat → State → State
  | 0, s => s
  | k + 1, s =>
    match (s.part p).build with
    | none => s
    | some c =>
      let limit := ifLimit (s.part p).active.weft
      match c.msgs.findIdx? fun m => m.status.isNone && m.recvUnit / 4096 == n with
      | none => s
      | some i =>
        if s.readingOn n p then s
        else if limit ≤ c.heldBytes then modBuild p (fun x => x.stopReads 3) s
        else if !s.linked n then s |> modBuild p (fun x => x.endMsg i 5) |> readPort p n k
        else
          match c.msgs[i]? with
          | none => s
          | some m =>
            let left := if m.bytes.isEmpty then 4088 else m.total - m.bytes.length
            let len := min 4088 (min left (limit - c.heldBytes))
            ask n 2 3 (m.recvUnit % 4096) false p 0 (.inflight p i)
              (leBytes 4 m.chan.toNat ++ leBytes 4 m.seq.toNat ++ leBytes 4 m.bytes.length ++ leBytes 4 len) s

/-- Pages that the state part of a cut takes beyond those it holds. -/
def Cut.morePages (c : Cut) : Nat := ceilDiv c.streamLen 65536 - (c.statePages.1 + c.statePages.2)

/-- A block of a part is written to staging, in the Creel or in the overflow area; an injected error that hits it stays there
(R1014). -/
def stageWrite (dram : Bool) (spoil : State → State) (s : State) : State :=
  let hit := if dram then s.dramHit else s.injectHit
  let t := if dram then spendDram s else spendCreel s
  if hit then spoil t else t

/-- Put the bytes of an in-flight answer into its message, page by page (R610); NO_SPACE where staging ends. -/
def takeInFlight (p i total : Nat) (d : List Byte) (s : State) : State :=
  match (s.part p).build with
  | none => s
  | some c =>
    let room := ifLimit (s.part p).active.weft - c.heldBytes
    let put (m : CutMsg) : CutMsg :=
      let b := m.bytes ++ d.take room
      { m with total := total, bytes := b, status := if total ≤ b.length then some 0 else m.status }
    let c1 := { c with msgs := modAt c.msgs i put }
    match s.reserve c1.morePages with
    | some (a, b) =>
      let held := ((c.msgs[i]?).map fun m => m.bytes.length).getD 0
      let block := (c.offData + (dataArea (c.msgs.take i)).length + held) / 512
      s |> modBuild p (fun _ => { c1 with statePages := (c1.statePages.1 + a, c1.statePages.2 + b) })
        |> (fun t => if d.isEmpty then t
             else stageWrite (decide (c1.statePages.1 + a ≤ block / 128)) (modBuild p fun x => x.spoil true block) t)
    | none => modBuild p (fun x => ({ x with msgs := modAt x.msgs i fun m => { m with total := total } }).stopReads 4) s

/-! ### Region capture (R615 to R618) -/

/-- The range can be read no further: its rest is MISSING (R616). -/
def CapRange.miss (r : CapRange) : CapRange := { r with missingFrom := some r.bytes.length, ended := true }

/-- A capture read of a cut is outstanding on a port. -/
def State.capturingOn (s : State) (n : Nat) (id : W32) : Bool :=
  (s.port n).lk.open_.any fun r => match r.who with | .capture c _ _ => BitVec.ofNat 32 c == id | _ => false

/-- The range cannot be read now: the link is not up, or the unit runs and the region lacks RUNNING_ACCESS (R616). -/
def State.cannotRead (s : State) (r : CapRange) : Bool :=
  !s.up (r.unit / 4096) ||
    (r.region != 0xFF && (s.unit r.unit).view != .halted &&
      match classRegion (s.classOf r.unit) r.region.toNat with
      | some (fl, _) => !bit fl 3
      | none => true)

/-- Read the next part of a range: MEM_READ, or REG_READ for the debug window, as much as a message takes (R447, R615). -/
def readRange (p : Nat) (who : ReqFor) (r : CapRange) (s : State) : State :=
  let off := r.offset + r.bytes.length
  let len := min 4092 (r.len - r.bytes.length)
  if r.region = 0xFF then askRegRead (r.unit / 4096) (r.unit % 4096) p 0 who off (len / 4) s
  else ask (r.unit / 4096) 2 1 (r.unit % 4096) false p 0 who (memReadBody r.region.toNat off len) s

/-- Send the next capture read of a port, if none is outstanding there. -/
def capturePort (p : Nat) (id : W32) (n : Nat) : Nat → State → State
  | 0, s => s
  | k + 1, s =>
    match s.cut p id with
    | none => s
    | some c =>
      match c.ranges.findIdx? fun r => !r.ended && r.unit / 4096 == n with
      | none => s
      | some i =>
        match c.ranges[i]? with
        | none => s
        | some r =>
          if s.capturingOn n id then s
          else if s.cannotRead r then
            s |> modCut p id (fun x => { x with ranges := modAt x.ranges i CapRange.miss }) |> capturePort p id n k
          else readRange p (.capture id.toNat i r.bytes.length) r s

/-- The bytes of a capture answer; the range ends when all of it is held. -/
def CapRange.take (r : CapRange) (d : List Byte) : CapRange :=
  let b := r.bytes ++ d
  if d.isEmpty then r.miss else { r with bytes := b, ended := decide (r.len ≤ b.length) }

/-! ### The engine of one partition -/

/-- The Slath goes on with a partition: the capture of its oldest unfinished cut (R618), then the in-flight reads of
the cut under construction, whose end assigns it. -/
def slathRun (p : Nat) : Nat → State → State
  | 0, s => s
  | k + 1, s =>
    match (s.part p).cuts.find? fun c => c.stage == 3 with
    | some c =>
      let s1 := if c.releasing then s else each (List.range 8) (fun n => capturePort p c.id n (c.ranges.length + 1)) s
      let busy := (List.range 8).any fun n => s1.capturingOn n c.id
      match s1.cut p c.id with
      | none => s1
      | some c1 =>
        if busy then s1
        else if c1.releasing then
          s1 |> modCut p c.id (fun x =>
                { x with stage := 4, ranges := x.ranges.map fun r => if r.ended then r else r.miss })
             |> slathRun p k
        else s1 |> captured p c1 |> slathRun p k
    | none =>
      match (s.part p).build with
      | some c =>
        if c.stage = 2 then
          let s1 := each (List.range 8) (fun n => readPort p n (c.msgs.length + 1)) s
          let open_ := (List.range 8).any (fun n => s1.readingOn n p) ||
            match (s1.part p).build with
            | some c1 => c1.msgs.any fun m => m.status.isNone
            | none => false
          if open_ then s1 else s1 |> assignCut p |> slathRun p k
        else s
      | none => s

/-- Go on with a partition's cuts. -/
def slath (p : Nat) (s : State) : State := slathRun p 64 s

/-- The answer of an in-flight read: MSTATUS by the die's code (R605). -/
def inflightAnswer (p i code : Nat) (d : List Byte) (s : State) : State :=
  let s1 := if code = 0 then takeInFlight p i (field d 0 4) (d.drop 4) s
    else modBuild p (fun c => c.endMsg i (if code = 9 then 2 else 5)) s
  slath p s1

/-- The answer of a capture read; any code but OK, no answer or a lost link ends the range (R616). -/
def captureAnswer (p id i code : Nat) (d : List Byte) (s : State) : State :=
  let put (c : Cut) : Cut := { c with ranges := modAt c.ranges i fun r => if code = 0 then r.take d else r.miss }
  let writes := code == 0 && !d.isEmpty
  let next (c : Cut) : Nat := 8 * ((c.ranges.take i).map fun r => ceilDiv r.len 4096).sum +
    ((c.ranges[i]?).map fun r => r.bytes.length / 512).getD 0
  match s.cut p (BitVec.ofNat 32 id) with
  | some c =>
    s |> modCut p (BitVec.ofNat 32 id) put
      |> (fun t => if writes then stageWrite (decide (c.regionPages.1 ≤ next c / 128))
            (modCut p c.id fun x => x.spoil false (next c)) t else t)
      |> slath p
  | none => slath p s

/-! ### CUT -/

/-- A CUT of a held partition: it joins the cut in progress, or a new cut gathers from the held records (R592). Its VC0
HALT requests go out (R519). -/
def cutHeld (f : Nat) (c : Cmd) (s : State) : State :=
  let p := c.partition
  let abrupt := bit (c.f 52 1) 0 || hoopAbrupt (s.part p).active.weft
  let ports := (List.range 8).filter (s.vc0Port p)
  let s1 := s |> sendHalts p abrupt (some (f, c.tag)) ports |> fallbackHalts p abrupt (some (f, c.tag))
  if (s.part p).build.isSome then modPart p (PartSt.mapNewest fun x => { x with owners := x.owners ++ [(f, c.tag)] }) s1
  else
    let g : Gather := { actionTs := (s.part p).lastActionTs, timeout := s.haltTimeout p, hoopPorts := 0,
                        downPorts := BitVec.ofNat 8 (portMask ((s.portsOf p).filter fun n => (s.port n).lk.link != .active)) }
    let new := newCut s p 1 (some (f, c.tag)) false 0
    s1 |> each (s.unitsOf p) (freshTimeout (s.haltTimeout p))
       |> modPart p (fun x => { x.addCut new with gather := x.gather <|> some g }) |> checkGather p

/-- CUT (R591, R592). At the edge of another action of the partition it is the same one (R537). -/
def execCut (fn : Fn) (tag : W32) (s : State) : Host.Outcome State Fault Refusal :=
  done (startCmd 0x30 fn tag (fun c t =>
    if !t.owns fn c.partition then fail fn tag stNotOwner t
    else
      enterHost { p := c.partition, action := 3, abrupt := bit (c.f 52 1) 0, term := 0x21, host := some (fn.val, tag) }
        (cutHeld fn c) t) s)

/-! ### PROOF_DONE -/

/-- Register reads for a synthesized record of a unit of the partition are outstanding (R545). -/
def State.synthOpen (s : State) (p : Nat) : Bool :=
  (List.range 8).any fun n => (s.port n).lk.open_.any fun r =>
    match r.who with | .synth u _ => s.unitPart u == some p | _ => false

/-- PROOF_DONE: the proof ends, and the in-flight reads begin (R602, R610). `poisoned`: the units whose held record failed
SECDED as the Slath read it (R598). -/
def execProofDone (proof : ProofEnd) (s : State) : Host.Outcome State Fault Refusal :=
  let p := proof.part.val
  if (s.part p).build.any (fun c => c.stage == 1) && !s.synthOpen p then
    done (s |> each (proof.corrected.filter fun u => (s.unit u.toNat).record.isSome) (fun _ => correctedWord false)
            |> poisonHeld p (proof.poisoned.map fun u => u.toNat) |> endProof p |> slath p)
  else done s

/-! ### Releasing (R642, R643) -/

/-- A cut is to be released: no new export, no further capture. -/
def releaseCut (p : Nat) (by_ : Option (Nat × W32)) (id : W32) (s : State) : State :=
  let idle := !(List.range 8).any fun n => s.capturingOn n id
  let stop (c : Cut) : Cut :=
    if idle && c.stage == 3 then { c with stage := 4, ranges := c.ranges.map fun r => if r.ended then r else r.miss } else c
  s |> modCut p id (fun c => stop { c with releasing := true, releasedBy := by_ }) |> slath p

/-- RELEASE_CUT: one staged cut, or every staged cut of the partition. DEDUCED, log entry 53. -/
def execReleaseCut (fn : Fn) (tag : W32) (s : State) : Host.Outcome State Fault Refusal :=
  done (startCmd 0x33 fn tag (fun c t =>
    let p := c.partition
    let id := BitVec.ofNat 32 (c.f 56 4)
    let named := (t.part p).cuts.filter fun x => id == 0xFFFFFFFF || x.id == id
    let fresh := (named.filter fun x => !x.releasing).map (·.id)
    match firstFail [(!t.owns fn p, stNotOwner), (id != 0xFFFFFFFF && named.isEmpty, stBadUnit)] with
    | some st => fail fn tag st t
    | none =>
      if fresh.isEmpty then
        t |> each (named.map (·.id)) (fun x => modCut p x fun y => { y with asked := true })
          |> complete fn tag { already := !named.isEmpty }
      else
        t |> modWork fn tag (fun w => { w with units := fresh.map (·.toNat), r0 := fresh.length })
          |> each fresh (fun x u => u |> modCut p x (fun y => { y with asked := true })
               |> releaseCut p (some (fn.val, tag)) x)) s)

/-- The extents of a cut in the dump region are free again; what they hold is no longer stated (R632). -/
def freeDump (cut : W32) (s : State) : State :=
  let base := s.warpField 8 1 * 2 ^ 27
  let gone := s.slath.dumpUsed.filter fun e => e.2.2 == cut
  let inGone (w : Nat) : Bool := gone.any fun e => decide (base + 512 * e.1 ≤ w) && decide (w < base + 512 * (e.1 + e.2.1))
  { s with slath := { s.slath with dumpUsed := s.slath.dumpUsed.filter fun e => e.2.2 != cut },
           mem := { s.mem with known := s.mem.known.filter fun w => w.1 != 3 || !inGone w.2.2 } }

/-- CUT_FREED: the released cut's last export has ended and its capture has stopped; its pages and stored exports are
freed, the record is written, and the RELEASE_CUT completes with its last cut. -/
def execCutFreed (part : Part) (cut : W32) (s : State) : Host.Outcome State Fault Refusal :=
  let p := part.val
  match s.cut p cut with
  | none => done s
  | some c =>
    let exporting := s.slath.exports.any fun e => e.partition == p && e.cut == cut
    if !c.releasing || exporting || c.stage != 4 then done s
    else
      let s1 := s |> freeDump cut
        |> modPart p (fun x => { x with cuts := x.cuts.filter fun y => y.id != cut }) |> cutRec 3 c
      match c.releasedBy with
      | none => done s1
      | some (f, tag) =>
        let s2 := modWork f tag (fun w => { w with units := w.units.filter (· != cut.toNat) }) s1
        match s2.cmd f tag with
        | some x => done (if x.work.units.isEmpty then complete f tag { r0 := x.work.r0 } s2 else s2)
        | none => done s2

end Sys2Proof.Machine
end

