-- ==== Sys2Proof/Machine/Exports.lean ====
section
/-!
DEFINITION. Splints, manifests and exports (spec/11): DUMP_CUT, DUMP_REGION, SPLINT_EMIT and EXPORT_PORT_TIMEOUT.
-/

namespace Sys2Proof.Machine

open Sys2Proof

/-! ### Splints (R624) -/

/-- What a splint of a part carries, before its header. -/
structure Splint where
  unit : Nat
  region : Nat
  offset : Nat
  valid : Nat
  missing : Bool
  /-- Its bytes are captured, or known to be missing. -/
  ready : Bool
  bytes : List Byte

/-- Splint k of one range. -/
def CapRange.splint (r : CapRange) (k : Nat) : Splint :=
  let stop := min r.len (4096 * (k + 1))
  let missing := match r.missingFrom with
    | some m => decide (m < stop)
    | none => false
  { unit := r.unit, region := r.region.toNat, offset := r.offset + 4096 * k, valid := stop - 4096 * k,
    missing := missing, ready := r.ended || decide (stop ≤ r.bytes.length),
    bytes := if missing then [] else (r.bytes.drop (4096 * k)).take (stop - 4096 * k) }

/-- Splint i of the region part of a cut. -/
def Cut.regionSplint (c : Cut) (i : Nat) : Option Splint :=
  (c.ranges.find? fun r => decide (r.firstSplint ≤ i) && decide (i < r.firstSplint + r.splints)).map fun r =>
    r.splint (i - r.firstSplint)

/-- Splint i of the state part of a cut. -/
def Cut.stateSplint (c : Cut) (i : Nat) : Option Splint :=
  if i < c.stateSplints then
    some { unit := 0xFFFF, region := 0xFE, offset := 4096 * i, valid := min 4096 (c.streamLen - 4096 * i),
           missing := false, ready := true, bytes := (c.stream.drop (4096 * i)).take 4096 }
  else none

/-- The cut that an export reads. -/
def State.exportCut (s : State) (e : Export) : Option Cut := s.cut e.partition e.cut

/-- Splint i of the part that an export sends. -/
def State.exportSplint (s : State) (e : Export) (i : Nat) : Option Splint :=
  match e.region with
  | some r => some (r.splint i)
  | none => (s.exportCut e).bind fun c => if e.part = 0 then c.regionSplint i else c.stateSplint i

/-- The 512-byte blocks of a splint that are known to hold an uncorrectable word (POISON_MAP). -/
def State.knownPoison (s : State) (e : Export) (i : Nat) : Nat :=
  match s.exportCut e with
  | some c => bitsOf 8 fun b => (if e.part = 0 then c.poison.1 else c.poison.2).contains (8 * i + b)
  | none => 0

/-- A splint's 4,160 bytes (R624). -/
def splintBytes (kind flags cut tag index count unit region partition valid session offset ts map : Nat)
    (payload : List Byte) : List Byte :=
  let head := leBytes 4 0x544C5053 ++ [1, BitVec.ofNat 8 kind] ++ leBytes 2 flags ++ leBytes 4 cut ++ leBytes 4 tag ++
    leBytes 4 index ++ leBytes 4 count ++ leBytes 2 unit ++ [BitVec.ofNat 8 region, BitVec.ofNat 8 partition] ++
    leBytes 2 valid ++ [BitVec.ofNat 8 session, 0] ++ leBytes 8 offset ++ leBytes 8 ts ++ [BitVec.ofNat 8 map] ++ zeros 11
  let body := slice payload 0 4096
  head ++ leBytes 4 (crc32c (head ++ body)).toNat ++ body

/-! ### Manifests (R626) -/

/-- Manifest splints of an export of a part with `n` splints. -/
def manifestSplints (n : Nat) : Nat := ceilDiv (64 + 16 * n) 4096

/-- One manifest entry. -/
def State.manifestEntry (s : State) (e : Export) (i : Nat) : List Byte :=
  let sent := e.sent.find? fun x => x.index == i
  let sp := s.exportSplint e i
  let g (f : Splint → Nat) : Nat := (sp.map f).getD 0
  leBytes 4 i ++ leBytes 4 ((sent.map fun x => x.crc.toNat).getD 0) ++ leBytes 2 (g (·.unit)) ++
    [BitVec.ofNat 8 (g (·.region)),
     BitVec.ofNat 8 (match sent with | some x => b2n x.poisoned + 2 * b2n x.missing | none => 4)] ++
    leBytes 2 (g (·.valid)) ++ [0, 0]

/-- POISONED and MISSING splints sent by an export. -/
def Export.poisonedSent (e : Export) : Nat := (e.sent.filter (·.poisoned)).length
def Export.missingSent (e : Export) : Nat := (e.sent.filter (·.missing)).length

/-- The manifest stream. -/
def State.manifest (s : State) (e : Export) : List Byte :=
  let c := s.exportCut e
  leBytes 4 0x464E414D ++ [1, BitVec.ofNat 8 e.part, BitVec.ofNat 8 ((c.map (·.label)).getD 0xFF),
    BitVec.ofNat 8 (b2n e.endedEarly + 2 * b2n e.region.isSome)] ++ leBytes 4 e.cut.toNat ++ leBytes 4 e.tag.toNat ++
    [BitVec.ofNat 8 e.partition, BitVec.ofNat 8 e.fn, 0, 0] ++ leBytes 4 e.total ++ leBytes 4 e.sent.length ++
    leBytes 4 e.poisonedSent ++ leBytes 4 e.missingSent ++ zeros 4 ++
    leBytes 8 ((c.map fun x => x.instant.toNat).getD 0) ++ zeros 16 ++
    (List.range e.total).flatMap (s.manifestEntry e)

/-! ### Sending -/

/-- Every splint of an export is sent; its manifest follows (R629, R638). -/
def Export.dataDone (e : Export) : Bool := e.endedEarly || decide (e.count ≤ e.sent.length)

/-- The next splint of an export can be sent now: it is captured, and the destination takes it; a dump frame waits while
the port is down or an earlier one waits (R629, R634). -/
def State.exportReady (s : State) (e : Export) : Bool :=
  (e.dataDone || ((s.exportSplint e (e.first + e.sent.length)).map (·.ready)).getD false) &&
    (e.dest != 2 || (s.wale.portUp && s.wale.dumpQueue.isEmpty))

/-- Open an export, or replace it. -/
def putExport (e : Export) (s : State) : State :=
  let mine (x : Export) : Bool := x.fn == e.fn && x.tag == e.tag
  let l := s.slath.exports
  { s with slath := { s.slath with exports := if l.any mine then l.map fun x => if mine x then e else x else l ++ [e] } }

/-- The open exports of a session, in order of fetch. -/
def State.exportsOf (s : State) (f : Nat) : List Export :=
  (s.fn f).inflight.filterMap fun c => s.slath.exports.find? fun e => e.fn == f && e.tag == c.tag

/-- They take turns: the one after the export served last comes next (R635). -/
def State.exportTurn (s : State) (f : Nat) : List Export :=
  let l := s.exportsOf f
  let k := match Tab.get? s.slath.served f with
    | some tag => l.findIdx (fun e => e.tag == tag) + 1
    | none => 0
  l.drop k ++ l.take k

/-- Remove an export. Where it was the one served last, the one fetched before it takes that place. -/
def dropExport (f : Nat) (tag : W32) (s : State) : State :=
  let before := ((s.exportsOf f).takeWhile fun e => e.tag != tag).getLast?
  let rest := s.slath.served.filter fun e => e.1 != f
  let served := if Tab.get? s.slath.served f == some tag then (before.map fun e => (f, e.tag)).toList ++ rest
    else s.slath.served
  { s with slath := { s.slath with exports := s.slath.exports.filter fun x => !(x.fn == f && x.tag == tag),
                                   served := served } }

/-- Store bytes in the DRAM dump region, `off` bytes from its start; the trace region lies before it (R632, R1037). -/
def storeDump (off : Nat) (bytes : List Byte) (s : State) : State :=
  storeExternal (s.warpField 8 1 * 2 ^ 30 + off) bytes s

/-- Write one splint to its destination, counted and metered (R350, R631 to R634, R744, R752). -/
def writeSplint (e : Export) (bytes : List Byte) (s : State) : State :=
  let k := e.sent.length + e.manifestSent
  let s1 := if e.dest = 0 then hostWrite (fnPort e.fn) (e.bufAddr.toNat + 4160 * k) bytes s
    else if e.dest = 2 then
      { s with wale := { s.wale with dumpQueue := s.wale.dumpQueue ++ [(e.partition, bytes)] } }
    else storeDump (4096 * e.dumpOff + 4160 * k) bytes s
  s1 |> bumpAlways 52 1 |> hubEvent e.partition 4 1 |> modMeters (some e.fn) (fun m => m.add 0 0 0 4160 0)

/-- Send the next data splint of an export. `ecc`: the blocks in which the read from staging meets a bad word (R625, R995);
overflow staging and stored exports are checked only with inline ECC (R997). Each block with an uncorrectable word is an
occurrence of its own (R999), and in staging it is met again at every read; a stored copy carries the flag of what it was
made from. -/
def sendData (e : Export) (ecc : SplintEcc) (s : State) : State :=
  let i := e.first + e.sent.length
  match s.exportSplint e i with
  | none => s
  | some sp =>
    let c := s.exportCut e
    let stored := match c with
      | some x => (if e.part = 0 then x.regionStored else x.stateStored).isSome
      | none => false
    let pages := match c with
      | some x => if e.part = 0 then x.regionPages else x.statePages
      | none => (0, 0)
    let dram := stored || decide (pages.1 ≤ i / 16)
    let blocks (l : List Nat × List Nat) : Nat := bitsOf 8 fun b => (if e.part = 0 then l.1 else l.2).contains (8 * i + b)
    let checked := !(e.region.isSome || sp.missing || (dram && !s.inlineEcc))
    let standing := (c.map fun x => blocks x.bad).getD 0
    let found := if checked then ecc.bad.toNat ||| standing else 0
    let map := found ||| s.knownPoison e i
    let last := decide (e.sent.length + 1 = e.count)
    let b := splintBytes e.part (b2n (map != 0) + 2 * b2n sp.missing + 4 * b2n last) e.cut.toNat e.tag.toNat i e.total
      sp.unit sp.region e.partition sp.valid e.fn sp.offset s.t map sp.bytes
    let e1 := { e with sent := e.sent ++ [{ index := i, crc := BitVec.ofNat 32 (field b 60 4), poisoned := map != 0,
                                            missing := sp.missing }], since := s.t,
                       bad := if e.dest = 1 && s.dramHit then e.bad ++ [8 * i] else e.bad }
    let at_ (m : Nat) : List Nat := ((List.range 8).filter (bit m)).map (8 * i + ·)
    s |> each (if checked then at_ ecc.corrected.toNat else []) (fun _ => correctedWord dram)
      |> each (at_ found) (fun b t => t |> uncorrectableItem dram 1 e.partition e.cut.toNat 1
           |> modCut e.partition e.cut (fun x => (x.spoil (e.part != 0) b).knows (e.part != 0) b))
      |> writeSplint e b |> putExport e1

/-- The completion of an export (R630, R638). -/
def Export.result (e : Export) : Res :=
  let st := if e.endedEarly then stNotOwner else if 0 < e.poisonedSent then stPoisoned
    else if 0 < e.missingSent then stUnitUnresponsive else stOk
  { status := st, part := st != stOk, r0 := e.sent.length, r1 := e.manifestSent, r2 := e.poisonedSent,
    r3 := if e.dest = 1 && e.poisonedSent == 0 && e.missingSent == 0 then e.dumpOff else e.missingSent }

/-- A whole part stored in the dump region with no MISSING splint gives up its staging pages (R633). -/
def storePart (e : Export) (s : State) : State :=
  if e.dest = 1 && !e.endedEarly && e.sent.length == e.total && e.missingSent == 0 then
    modCut e.partition e.cut (fun c =>
      if e.part = 0 then { c with regionStored := some e.dumpOff, regionPages := (0, 0), bad := (e.bad, c.bad.2) }
      else { c with stateStored := some e.dumpOff, statePages := (0, 0), bad := (c.bad.1, e.bad) }) s
  else s

/-- Send the next manifest splint; the last one ends the export. -/
def sendManifest (e : Export) (s : State) : State :=
  let l := s.manifest e
  let k := e.manifestSent
  let n := manifestSplints e.total
  let b := splintBytes 2 (4 * b2n (k + 1 == n)) e.cut.toNat e.tag.toNat k n 0xFFFF 0xFE e.partition
    (min 4096 (l.length - 4096 * k)) e.fn (4096 * k) s.t 0 ((l.drop (4096 * k)).take 4096)
  let e1 := { e with manifestSent := k + 1, since := s.t }
  let s1 := writeSplint e b s
  if k + 1 = n then s1 |> storePart e1 |> dropExport e.fn e.tag |> complete e.fn e.tag e1.result
  else putExport e1 s1

/-! ### Deficit round robin (R635) -/

/-- The weight of a session's export: its role decides (R205). -/
def State.exportWeight (s : State) (e : Export) : Nat :=
  if s.owns e.fn e.partition then s.ownerWeight e.partition else s.observerWeight e.partition

/-- Deficit of a session. -/
def State.deficit (s : State) (n : Nat) : Nat := Tab.getD s.slath.deficits n 0

/-- Set it. -/
def setDeficit (n v : Nat) (s : State) : State :=
  { s with slath := { s.slath with deficits := Tab.set s.slath.deficits n v } }

/-- Sessions with an open export. -/
def State.exporters (s : State) : List Nat := (List.range 64).filter fun n => s.slath.exports.any fun e => e.fn == n

/-- The next session in ascending order after `n`, around. DESIGN CHOICE, log entry 70. -/
def nextSession (l : List Nat) (n : Nat) : Nat :=
  match l.find? fun x => decide (n < x) with
  | some x => x
  | none => l.headD 0

/-- Pass the turn on: the next session with an open export receives its weight. DESIGN CHOICE, log entry 70. -/
def passTurn (s : State) : State :=
  let n := nextSession s.exporters s.slath.turn
  match (s.exportTurn n).head? with
  | some e => setDeficit n (s.deficit n + s.exportWeight e) { s with slath := { s.slath with turn := n } }
  | none => s

/-- Find the session that sends: it has a deficit and a ready splint. A session that cannot send passes the turn on. -/
def findTurn : Nat → State → Option (Export × State)
  | 0, _ => none
  | k + 1, s =>
    match (s.exportTurn s.slath.turn).find? s.exportReady with
    | some e => if 1 ≤ s.deficit s.slath.turn then some (e, s) else findTurn k (passTurn s)
    | none => findTurn k (passTurn s)

/-- A session without an open export has no deficit; with no export open the round is over. -/
def clearDeficits (s : State) : State :=
  let keep (n : Nat) : Bool := s.exporters.contains n
  { s with slath := { s.slath with deficits := s.slath.deficits.filter (fun e => keep e.1),
                                   served := s.slath.served.filter (fun e => keep e.1),
                                   turn := if s.exporters.isEmpty then noSession else s.slath.turn } }

/-- The export has its turn. -/
def noteServed (e : Export) (s : State) : State :=
  { s with slath := { s.slath with served := Tab.set s.slath.served e.fn e.tag } }

/-- SPLINT_EMIT: the Slath sends the next ready splint (R629, R635); with none ready nothing happens. DESIGN CHOICE, log
entry 12. -/
def execSplintEmit (found : SplintEcc) (s : State) : Host.Outcome State Fault Refusal :=
  if !s.slath.exports.any s.exportReady then done s
  else
    match findTurn 130 s with
    | none => done s
    | some (e, s1) =>
      let s2 := noteServed e (setDeficit e.fn (s1.deficit e.fn - 1) s1)
      done ((if e.dataDone then sendManifest e s2 else sendData e found s2) |> clearDeficits)

/-! ### DUMP_CUT -/

/-- Find free pages in the dump region: the lowest place that takes `n` pages. -/
def State.dumpFit (s : State) (n : Nat) : Option Nat :=
  let used := s.slath.dumpUsed
  let cap := if s.wale.dramReady then s.dumpPages else 0
  let starts := sortBy (fun v => v) (0 :: used.map fun e => e.1 + e.2.1)
  starts.find? fun a => decide (a + n ≤ cap) && used.all fun e => decide (a + n ≤ e.1) || decide (e.1 + e.2.1 ≤ a)

/-- 4 KiB pages of an export of `n` splints with `m` manifest splints. -/
def exportPages (n m : Nat) : Nat := ceilDiv (4160 * (n + m)) 4096

/-- Open exports of a session. -/
def State.openExports (s : State) (f : Nat) : Nat := (s.slath.exports.filter fun e => e.fn == f).length

/-- A buffer that R295 rejects. -/
def Cmd.badBuffer (c : Cmd) : Bool :=
  c.bufAddr % 64 != 0 || c.bufWindow == 0 || decide (2 ^ 64 < c.bufAddr + c.bufWindow)

/-- The export that a DUMP_CUT opens. -/
def newExport (s : State) (f : Nat) (c : Cmd) (cut : W32) (part count total off : Nat) : Export :=
  { fn := f, tag := c.tag, partition := c.partition, cut := cut, part := part, dest := c.f 53 1, first := c.param0,
    count := count, total := total, sent := [], manifestSent := 0, endedEarly := false, discard := false,
    bufAddr := BitVec.ofNat 64 c.bufAddr, dumpOff := off, since := s.t, region := none }

/-- DUMP_CUT: check and open the export of one part of a staged cut (R627, R628). -/
def execDumpCut (fn : Fn) (tag : W32) (s : State) : Host.Outcome State Fault Refusal :=
  done (startCmd 0x31 fn tag (fun c t =>
    let p := c.partition
    let part := c.f 52 1
    let dest := c.f 53 1
    let cut := (t.cut p (BitVec.ofNat 32 (c.f 56 4))).filter fun x => !x.releasing && !t.releaseFetched p x
    let total := (cut.map fun x => if part = 0 then x.regionSplints else x.stateSplints).getD 0
    let count := if c.param1 = 0xFFFFFFFF then total - c.param0 else c.param1
    let m := manifestSplints total
    let fit := t.dumpFit (exportPages count m)
    match firstFail
      [(!t.reads fn p, stNotOwner), (t.barred c, stPartitionReweaving), (cut.isNone, stBadUnit),
       (c.param1 == 0 || decide (total ≤ c.param0) || decide (total < c.param0 + count), stBadLen),
       (dest == 0 && decide (c.bufWindow < 4160 * (count + m)), stLenExceedsBuf),
       (dest == 0 && c.badBuffer, stBadAddress),
       (decide (Config.maxExports ≤ t.openExports fn), stBusy),
       (dest == 1 && fit.isNone, stDramRegionFull)] with
    | some st => fail fn tag st t
    | none =>
      let id := BitVec.ofNat 32 (c.f 56 4)
      let off := fit.getD 0
      let t1 := if dest = 1 then
          { t with slath := { t.slath with dumpUsed := t.slath.dumpUsed ++ [(off, exportPages count m, id)] } }
        else t
      putExport (newExport t fn c id part count total off) t1) s)

/-! ### DUMP_REGION (R639 to R641) -/

/-- Change the range of an open DUMP_REGION. -/
def modRegion (f : Nat) (tag : W32) (g : CapRange → CapRange) (s : State) : State :=
  { s with slath := { s.slath with exports := s.slath.exports.map fun e =>
      if e.fn == f && e.tag == tag then { e with region := e.region.map g } else e } }

/-- Every read of a DUMP_REGION's range goes out at its start, so that later commands stay behind it (R305). -/
def regionReads (f : Nat) (c : Cmd) (r : CapRange) (s : State) : State :=
  let msg (o : Nat × Nat) : CmdMsg :=
    { n := r.unit / 4096, ch := 2, op := 1, target := r.unit % 4096, wide := false, unit := r.unit,
      body := memReadBody r.region.toNat (r.offset + o.1) o.2, changes := false }
  let ms := (chunksOf r.len 4092).map msg
  if ms.all s.reachable then sendAll f c ms s else modRegion f c.tag CapRange.miss s

/-- The rest of a DUMP_REGION's range cannot be read any more (R616, R641). -/
def State.regionStops (s : State) (f : Nat) (tag : W32) : Bool :=
  s.slath.exports.any fun e => e.fn == f && e.tag == tag && e.region.any fun r => !r.ended && s.cannotRead r

/-- The answer of a read of a DUMP_REGION (R641): any code but OK ends the range, as what stops its further reads does, and no
further part of it is read. -/
def regionAnswer (f : Nat) (tag : W32) (code : Nat) (d : List Byte) (s : State) : State :=
  let ok := code == 0 && !d.isEmpty
  let put (r : CapRange) : CapRange := if r.ended then r else if ok then r.take d else r.miss
  let s1 := s |> modWork f tag (fun w => { w with outst := w.outst - 1 }) |> modRegion f tag put
  if ok && !s1.regionStops f tag then s1
  else s1 |> modRegion f tag (fun r => if r.ended then r else r.miss) |> purgeCmd f tag

/-- DUMP_REGION: one range of one unit, read live. -/
def execDumpRegion (fn : Fn) (tag : W32) (s : State) : Host.Outcome State Fault Refusal :=
  done (startCmd 0x32 fn tag (fun c t =>
    let len := t.memLength c
    let total := ceilDiv len 4096
    match t.unitCheck fn c with
    | some st => fail fn tag st t
    | none =>
      let r : CapRange := { unit := c.unitFirst, region := BitVec.ofNat 8 c.region, offset := c.memOffset, len := len,
                            firstSplint := 0, bytes := [], missingFrom := none, ended := false }
      let e := newExport t fn c 0 0 total total 0
      t |> putExport { e with first := 0, region := some r } |> regionReads fn c r) s)

/-! ### Ends without a manifest -/

/-- EXPORT_PORT_TIMEOUT: an export to the trace port that could send nothing for 100 ms while the port is down ends with
LINK_DOWN (R1005); a session without another one has no deficit (R635). -/
def execExportPortTimeout (fn : Fn) (tag : W32) (s : State) : Host.Outcome State Fault Refusal :=
  match s.slath.exports.find? fun e => e.fn == fn.val && e.tag == tag with
  | none => done s
  | some e =>
    if e.dest == 2 && !s.wale.portUp && s.after (max e.since s.wale.downAt) 100000 then
      done (s |> dropExport fn tag |> clearDeficits |> complete fn tag { e.result with status := stLinkDown, part := true })
    else done s

end Sys2Proof.Machine
end

