-- ==== Sys2Proof/Machine/DieMsgs.lean ====
section
/-!
DEFINITION. What a die sends on its own account on VC3 (spec/08, spec/12 to spec/14): HALT_RECORD, EVENT_BATCH,
COUNTER_DELTA and DIE_LOSS.
-/

namespace Sys2Proof.Machine

open Sys2Proof

/-- A die timestamp in hub ticks, by the offset of its port in force (R738). -/
def State.hubTime (s : State) (n : Nat) (d : Nat) : W64 :=
  BitVec.ofNat 64 ((d * (s.port n).tickFs.toNat + 312500) / 625000) - (s.port n).lk.offset

/-- A record made of a die's data: its TIMESTAMP is converted (R699, R700). -/
def dieRec (cls p : Nat) (ts : W64) (payload : List Byte) : TraceRec :=
  { cls := cls, dieTime := true, partition := p, ts := ts, payload := padTo 8 payload, spilled := false }

/-- A VC3 message carries a partition: its watchdog restarts and its bytes count (R505, R752). -/
def heard (p bytes : Nat) (s : State) : State :=
  s |> modPart p (fun x => { x with watchdogAt := s.t }) |> hubEvent p 0x0B bytes

/-- The unit that a VC3 message names. -/
def msgUnit (n : Nat) (m : Msg) : Nat := unitNo n (m.target.toNat % 4096)

/-- The dies of a warp commit have not been told their units' partitions yet. -/
def State.reassigning (s : State) (n : Nat) : Bool :=
  s.weave.warpCommit.any (fun c => c.switched && c.portMask.getLsbD n) && !(s.port n).enumerated

/-- The partition of what a die sends of a unit: the one that it names, and from a warp commit's step 3 until the die has
its new ASSIGNs the one of the map in force (R252). -/
def State.msgPart (s : State) (n u p : Nat) : Nat := if s.reassigning n then (s.unitPart u).getD 0xFF else p

/-- A message that names no partition is discarded (R694), and so is one on a link on which no sequenced flit flows. -/
def State.takesVc3 (s : State) (n : Nat) (m : Msg) : Bool :=
  (s.port n).lk.sequenced && decide (s.msgPart n (msgUnit n m) m.partition.toNat < 64)

/-! ### Halt records -/

/-- Hold a unit's halt record: the unit is HALTED in the view, whatever it was (R541 to R543, R563). Only a record with CAUSE
0x05 acknowledges a step (R567). -/
def holdRecord (u : Nat) (r : HaltRec) (s : State) : State :=
  let r1 := { r with poisoned := s.injectHit }
  modUnit u
    (fun x => { x with view := .halted, record := some r1, haltDeadline := none, settledAt := s.t,
                       stepDeadline := if field r.data 4 1 = 5 then none else x.stepDeadline })
    (spendCreel s)

/-- A HALT_RECORD: held, a step acknowledged by CAUSE 0x05, traced, and the gathering goes on (R476, R558, R567, R693,
R700). -/
def takeHaltRecord (n : Nat) (m : Msg) (s : State) : State :=
  let u := msgUnit n m
  let p := s.msgPart n u m.partition.toNat
  if !s.takesVc3 n m || decide (m.data.length < 40) then s
  else
    let stop := s.hubTime n (field m.data 8 8)
    let halted := s.hubTime n (field m.data 16 8)
    let r : HaltRec := { data := m.data, synthesized := false, poisoned := false, stopHub := stop, haltedHub := halted }
    let s1 := s |> heard p (m.data.length + 16) |> holdRecord u r
    let s2 := if field m.data 4 1 = 5 then stepEnds u true s1 else s1
    s2 |> hubEvent p 2 1 |> traceWrite (dieRec 5 p halted (leBytes 2 u ++ zeros 6 ++ m.data)) |> checkGather p

/-- HALT_RECORD (R541). -/
def execHaltRecord (port : Port) (m : Msg) (s : State) : Host.Outcome State Fault Refusal :=
  done (takeHaltRecord port.val m s)

/-! ### Markers and END latch points (R753, R754) -/

/-- The END latch point of a CMD_END. -/
def endLatch (p u : Nat) (e : AwaitEnd) (noDelta : Bool) (s : State) : State :=
  markerLatch p
    { lkind := 1, noDelta := noDelta,
      marker := some { unit := u, engine := e.engine.toNat, layer := e.layer.toNat, operator := e.operator.toNat,
                       cmdSeq := e.cmdSeq.toNat, ts := e.markerTs.toNat } } s

/-- Take the END latch points of a unit that still wait for their delta and that `sel` selects, with NO_DELTA. -/
def endsWithoutDelta (p u : Nat) (sel : AwaitEnd → Bool) (s : State) : State :=
  let due := (s.unit u).awaitEnds.filter sel
  s |> modUnit u (fun x => { x with awaitEnds := x.awaitEnds.filter fun e => !sel e })
    |> each due (fun e => endLatch p u e true)

/-- One entry of an EVENT_BATCH (R479). -/
structure Event where
  kind : Nat
  index : Nat
  unit : Nat
  partition : Nat
  ts : Nat
  detail : List Byte

/-- The CMD_BEGIN or CMD_END fields of an entry. -/
def Event.await (e : Event) (ts : W64) : AwaitEnd :=
  { engine := BitVec.ofNat 8 e.index, cmdSeq := BitVec.ofNat 32 (field e.detail 4 4),
    layer := BitVec.ofNat 16 (field e.detail 0 2), operator := BitVec.ofNat 16 (field e.detail 2 2),
    markerTs := ts, dieTs := BitVec.ofNat 64 e.ts }

/-- A synchronisation event enters the ingest queue of hang analysis; a full queue drops it, and its unit becomes
uncertain (R650, R673). DEDUCED, log entry 64. -/
def ingest (e : Event) (ts : W64) (s : State) : State :=
  if s.hang.queue.length < 65536 then
    let h : HangEv := { kind := BitVec.ofNat 8 e.kind, unit := e.unit, partition := e.partition,
                        chan := BitVec.ofNat 32 (field e.detail 0 4), count := BitVec.ofNat 32 (field e.detail 4 4),
                        ts := ts }
    { s with hang := { s.hang with queue := s.hang.queue ++ [h] } }
  else { s with hang := { s.hang with drops := satInc s.hang.drops } } |> uncertain e.unit

/-- The class of an event's record: SYNC, MARKER or HIT (R698). -/
def eventClass (kind : Nat) : Nat := if kind ≤ 4 then 1 else if kind ≤ 6 then 2 else 3

/-- What an event does beyond its record: hang analysis, latch points, the HIT_INBAND source. -/
def eventEffect (e : Event) (ts : W64) (s : State) : State :=
  let p := e.partition
  let a := e.await ts
  if e.kind ≤ 4 then s |> hubEvent p 7 1 |> ingest e ts
  else if e.kind = 5 then
    s |> endsWithoutDelta p e.unit (fun x => x.engine == a.engine)
      |> markerLatch p { lkind := 0, marker := some { unit := e.unit, engine := e.index, layer := a.layer.toNat,
                                                       operator := a.operator.toNat, cmdSeq := a.cmdSeq.toNat,
                                                       ts := ts.toNat } }
  else if e.kind = 6 then
    if ((s.unit e.unit).evtEn.getD 0).getLsbD 3 then modUnit e.unit (fun x => { x with awaitEnds := x.awaitEnds ++ [a] }) s
    else endLatch p e.unit a false s
  else fire p 26 s

/-- The payload of a SYNC, MARKER or HIT record (R699). -/
def Event.payload (e : Event) : List Byte :=
  leBytes 2 e.unit ++ [BitVec.ofNat 8 e.kind, BitVec.ofNat 8 e.index] ++ zeros 4 ++ leBytes 8 e.ts ++ slice e.detail 0 8

/-- Process one entry: hang analysis first, then the record (R693). A reserved KIND, and an entry without a partition,
is discarded (R694). -/
def takeEvent (n : Nat) (e0 : Event) (s : State) : State :=
  let e := { e0 with partition := s.msgPart n e0.unit e0.partition }
  if 64 ≤ e.partition ∨ e.kind = 0 ∨ 8 < e.kind then s
  else
    let ts := s.hubTime n e.ts
    let r := dieRec (eventClass e.kind) e.partition ts e.payload
    let s1 := heard e.partition 24 s
    if e.kind ≤ 4 then s1 |> eventEffect e ts |> traceWrite r else s1 |> traceWrite r |> eventEffect e ts

/-- The entries of an EVENT_BATCH, in order. -/
def events (n : Nat) (d : List Byte) : List Event :=
  (List.range (min (field d 0 2) ((d.length - 8) / 24))).map fun k =>
    let o := 8 + 24 * k
    { kind := field d o 1, index := field d (o + 1) 1, unit := unitNo n (field d (o + 2) 2 % 4096),
      partition := field d (o + 4) 1, ts := field d (o + 8) 8, detail := slice d (o + 16) 8 }

/-- EVENT_BATCH on a port: each hit entry is one firing, evaluated before the next (R502). -/
def takeEventBatch (n : Nat) (m : Msg) (s : State) : State :=
  if (s.port n).lk.sequenced then each (events n m.data) (fun e t => settle (takeEvent n e t)) s else s

/-- EVENT_BATCH (R479). -/
def execEventBatch (port : Port) (m : Msg) (s : State) : Host.Outcome State Fault Refusal :=
  done (takeEventBatch port.val m s)

/-! ### Counter deltas -/

/-- The entries of a COUNTER_DELTA: TYPE, FORMAT, COUNT (R483). -/
def deltas (d : List Byte) : List (Nat × Nat × Nat) :=
  (List.range (min (field d 9 1) ((d.length - 24) / 8))).map fun j =>
    (field d (24 + 8 * j) 1, field d (25 + 8 * j) 1, field d (26 + 8 * j) 6)

/-- COUNTER_DELTA: its additions, its record, then the END latch point that waits for it (R750, R754, R755). DEDUCED, log
entry 64. -/
def takeDelta (n : Nat) (m : Msg) (s : State) : State :=
  let u := msgUnit n m
  let p := s.msgPart n u m.partition.toNat
  let d := m.data
  if !s.takesVc3 n m || decide (d.length < 24) then s
  else
    let mine (e : AwaitEnd) : Bool := e.engine.toNat == field d 8 1 && e.cmdSeq.toNat == field d 0 4
    let due := (s.unit u).awaitEnds.filter mine
    s |> heard p (d.length + 16)
      |> atEdge p (each (deltas d) (fun (ty, fm, c) => deltaEvent p u (field d 4 2) ty fm c))
      |> traceWrite (dieRec 4 p (s.hubTime n (field d 16 8)) (leBytes 2 u ++ zeros 6 ++ d))
      |> modUnit u (fun x => { x with awaitEnds := x.awaitEnds.filter fun e => !mine e })
      |> each due (fun e => endLatch p u e false)

/-- COUNTER_DELTA (R750). -/
def execCounterDelta (port : Port) (m : Msg) (s : State) : Host.Outcome State Fault Refusal :=
  done (takeDelta port.val m s)

/-! ### Losses on the die -/

/-- Destinations that route any of the classes that a die may drop, SYNC, MARKER, HIT and DELTA (R486, R735). DEDUCED, log
entry 54. -/
def State.dieDests (s : State) (p : Nat) : Nat :=
  [1, 2, 3, 4].foldl (fun d c => d ||| destIn (s.part p).routes c) 0

/-- DIE_LOSS: LOSS records of CAUSE 4, END latch points whose delta may be lost, and the unit is uncertain. DEDUCED, log
entry 54. -/
def takeDieLoss (n : Nat) (m : Msg) (s : State) : State :=
  let u := msgUnit n m
  let p := s.msgPart n u m.partition.toNat
  let d := m.data
  if !s.takesVc3 n m || decide (d.length < 24) then s
  else
    let first := field d 8 8
    let last := field d 16 8
    s |> heard p (d.length + 16) |> uncertain u
      |> lossBoth p (s.dieDests p) (field d 0 4) 4 n (s.hubTime n first) (s.hubTime n last) u
      |> endsWithoutDelta p u (fun e => decide (first ≤ e.dieTs.toNat) && decide (e.dieTs.toNat ≤ last))

/-- DIE_LOSS (R735). -/
def execDieLoss (port : Port) (m : Msg) (s : State) : Host.Outcome State Fault Refusal :=
  done (takeDieLoss port.val m s)

/-- A VC3 message by its operation (R442). -/
def takeVc3 (n : Nat) (m : Msg) (s : State) : State :=
  if m.op = 1 then takeHaltRecord n m s
  else if m.op = 2 then takeEventBatch n m s
  else if m.op = 3 then takeDelta n m s
  else if m.op = 4 then takeDieLoss n m s
  else s

end Sys2Proof.Machine
end

