-- ==== Sys2Proof/Machine/Commit.lean ====
section
/-!
DEFINITION. What ends a weft commit other than its switch (R240), the WEAVE record (R243), and what the answers to
stake requests do to the pair: TAKEOVER, HANDOFF and the end of pairing (spec/04, spec/19).
-/

namespace Sys2Proof.Machine

open Sys2Proof

/-! ### WEAVE records and failed commits -/

/-- The payload of a WEAVE record (R243). -/
def weavePayload (old new : W32) (imageId : W64) (outcome scope portMask : Nat) (status : Byte) : List Byte :=
  leBytes 4 old.toNat ++ leBytes 4 new.toNat ++ leBytes 8 imageId.toNat ++
    [BitVec.ofNat 8 outcome, BitVec.ofNat 8 scope, BitVec.ofNat 8 portMask, status] ++ zeros 12

/-- The WEAVE records of a warp commit. -/
def warpRecords (ps : List Nat) (c : Commit) (outcome : Nat) (new : W32) (status : Byte) (s : State) : State :=
  each ps (fun p => writeRec 10 p (weavePayload c.oldGen new c.imageId outcome 2 c.portMask.toNat status)) s

/-- The outstanding weft commit of a partition fails before its switch: its record, its completion (R239, R240). Once a
reset of the partition has been asked for, that reset is what ends it (R117). -/
def failCommit (p : Nat) (status : Byte) (s : State) : State :=
  match (s.part p).commit with
  | none => s
  | some c =>
    if c.switched then s
    else
      let g := (s.part p).active.gen
      let st := if (s.part p).resetPending then stAbortedByReset else status
      s |> modPart p (fun x => { x with commit := none }) |> writeRec 10 p (weavePayload g g c.imageId 1 1 0 st)
        |> complete c.fn c.tag { status := st, r0 := g.toNat, r3 := c.settleUs }

/-- The outstanding warp commit fails before its entries are installed: its records, its completion (R240, R243). -/
def failWarp (status : Byte) (s : State) : State :=
  match s.weave.warpCommit with
  | none => s
  | some c =>
    if c.switched then s
    else
      { s with weave := { s.weave with warpCommit := none } } |> warpRecords (s.warpParts c) c 1 c.oldGen status
        |> complete c.fn c.tag { status := status, r0 := c.oldGen.toNat, r3 := c.settleUs }

/-- The twin has taken the stake of a partition: a commit that has not switched fails, the partition's own and the warp commit
that affects it (R240). -/
def stakeTaken (p : Nat) (s : State) : State :=
  s |> failCommit p stStakeHeldByTwin |> (fun t => if t.inWarpCommit p then failWarp stStakeHeldByTwin t else t)

/-! ### The pair -/

/-- A claim or a renewal of some pair is outstanding. -/
def State.stakesOpen (s : State) (sel : Nat → Nat → Bool) : Bool :=
  (List.range 8).any fun n => (s.port n).lk.open_.any fun r =>
    match r.who with
    | .claim p => sel n p
    | .renew p => sel n p
    | _ => false

/-- The pairs of a partition mask on dies in ACTIVE that carry its units. -/
def State.maskPairs (s : State) (mask : Nat) : List (Nat × Nat) :=
  (List.range 8).flatMap fun n =>
    if (s.port n).lk.link == .active then
      ((List.range 64).filter fun p => bit mask p && s.carries n p).map fun p => (n, p)
    else []

/-- PART_MASK of a TWIN_PAIR. -/
def Cmd.partMask (c : Cmd) : Nat := c.f 20 8

/-- What a TAKEOVER has come to: the pairs gained, and those that it does not hold on dies in ACTIVE (R978). `done` of its
work: the pairs that it did not hold at its start. -/
def State.takeover (s : State) (c : Cmd) : Nat × Nat :=
  ((c.work.done.filter fun k => (s.stake (k / 64) (k % 64)).held).length,
   ((s.maskPairs c.partMask).filter fun (n, p) => !(s.stake n p).held).length)

/-- A TAKEOVER completes once its claims are answered and it holds every pair (R978). -/
def checkTakeover (s : State) : State :=
  each (s.cmdsWhere fun _ c => c.op == 0xA0 && c.started && c.f 52 1 == 2)
    (fun (f, c) t =>
      if (t.maskPairs c.partMask).all fun (n, p) => (t.stake n p).held && !t.claiming n p then
        complete f c.tag { r0 := (t.takeover c).1 } t
      else t) s

/-- The partitions of a mask that this hub holds on every die that carries them. -/
def State.heldMask (s : State) (mask : Nat) : Nat :=
  bitsOf 64 fun p => bit mask p && (s.portsOf p).all fun n => (s.stake n p).held

/-- Each hand-off received from the twin is answered once every claim of it is answered (R977 step 3). -/
def checkHandoffIn (s : State) : State :=
  each s.plait.handoffIn (fun h t =>
    if t.stakesOpen fun _ p => h.mask.getLsbD p then t
    else
      let ok := t.heldMask h.mask.toNat
      { t with plait := { t.plait with handoffIn := t.plait.handoffIn.erase h } }
        |> plaitSend 1 0x14 0xFF (leBytes 8 ok ++ leBytes 8 (h.mask.toNat - ok))) s

/-- A HANDOFF sends its message once every release of it is answered (R977 step 2). -/
def checkHandoff (s : State) : State :=
  each s.plait.handoff (fun h t =>
    let open_ := (List.range 8).any fun n => (t.port n).lk.open_.any fun r =>
      match r.who with | .release p => h.mask.getLsbD p | _ => false
    if h.sent || open_ then t
    else
      { t with plait := { t.plait with handoff := t.plait.handoff.map fun x => if x == h then { x with sent := true } else x } }
        |> plaitSend 1 0x13 0xFF (leBytes 8 h.mask.toNat)) s

/-- A hub in the pair sends the HOOP_HALT_EN changes that it withheld (R989). -/
def sendWithheld (s : State) : State :=
  each s.heldSet
    (fun (n, p) t =>
      if hoopFast (t.part p).active.weft && (t.stake n p).hoopEn != some true then writeHoopCtrl n p t else t) s

/-- The hub enters PAIRED, and the PAIR commands complete (R971 step 4, R976). -/
def enterPaired (s : State) : State :=
  let lk := { s.plait.lk with recResumed := true }
  { s with plait := { s.plait with pair := .paired, everPaired := true, settling := 0, gotView := none, gotFast := false, lk := lk } }
    |> plaitEvent 0 |> sendWithheld
    |> (fun t => each t.pairCmds (fun (f, c) => complete f c.tag { r0 := t.heldSet.length, r1 := t.twinSet.length }) t)

/-- Pairing ends once the renewals and claims of R971 are answered. -/
def checkPairing (s : State) : State :=
  if s.plait.pair == .pairing && s.plait.settling == 1 && !s.stakesOpen (fun _ _ => true) then enterPaired s else s

/-- What follows from an answer to a stake request, or from its loss. -/
def twinChecks (s : State) : State := s |> checkTakeover |> checkHandoffIn |> checkHandoff |> checkPairing

/-! ### Answers to stake requests (R495, R965) -/

/-- The status of a command whose stake is refused again: STAKE_HELD_BY_TWIN, or BUSY once a message of it was executed
(R553). -/
def State.refusedAgain (s : State) (f : Nat) (tag : W32) : Byte :=
  if (s.cmd f tag).any fun c => c.work.executed then stBusy else stStakeHeldByTwin

/-- The stake is refused: the pair is twin-held; commands that waited for it end; a commit that has not switched fails
(R240, R553, R965). REMAIN decides when a claim is repeated, and in TWIN_LOST a pair that a renewal lost is claimed (R978,
R984). -/
def stakeRefused (n p remain : Nat) (claimed : Bool) (s : State) : State :=
  let waiting := s.resends n p
  let at_ := s.t + remain * Config.ticksPerMs + Config.ticksPerMs / 2
  s |> stakeLost n p |> clearResends n p
    |> each waiting (fun r t =>
        match r.who with
        | .cmd f tag u _ => endResend f tag u r (t.refusedAgain f tag) t
        | _ => t)
    |> (fun t => if claimed && t.retries p then modStake n p (fun x => { x with retryAt := some at_ }) t
        else if t.plait.pair == .twinLost then claim n p t else t)
    |> stakeTaken p

/-- The twin's role. -/
def State.twinRole (s : State) : Nat := if s.roleCode = 2 then 3 else if s.roleCode = 3 then 2 else 0

/-- A claim is answered. `d`: the stake words (R495). -/
def claimAnswer (n p code : Nat) (d : List Byte) (s : State) : State :=
  twinChecks (if code = 0 then stakeGained n p (field d 2 2) s
    else if code = 6 then stakeRefused n p (field d 6 2) true s
    else clearResends n p s)

/-- A renewal is answered: an expired pair has left the held set, and is claimed at once (R963, R965). -/
def renewAnswer (n p code : Nat) (d : List Byte) (s : State) : State :=
  twinChecks (if code = 0 then modStake n p (fun x => { x with since := s.t }) s
    else if code = 7 then s |> modStake n p (fun x => { x with held := false }) |> claim n p
    else if code = 4 ∨ code = 5 then stakeRefused n p (field d 6 2) false s
    else s)

/-- A release is answered: the pair leaves the held set, and the twin is told (R955, R977). -/
def releaseAnswer (n p code : Nat) (s : State) : State :=
  twinChecks (if code = 0 then s |> modStake n p (fun x => { x with held := false }) |> stakeNote n p 1 else s)

/-- The HOLDER word of an answer names the twin's role: the pair is twin-held (R964). -/
def sawHolder (n p : Nat) (d : List Byte) (s : State) : State :=
  if s.twinRole != 0 && field d 0 1 % 4 == s.twinRole then
    s |> modStake n p (fun x => { x with twin := true }) |> stakeTaken p
  else s

end Sys2Proof.Machine
end

