-- ==== Sys2Proof/Machine/Pairing.lean ====
section
/-!
DEFINITION. The pairing of two hubs: HELLO, the checks, the views and the stakes that they settle (R956, R969 to R971).
-/

namespace Sys2Proof.Machine

open Sys2Proof

/-- The hub has a twin role (R947). -/
def State.twinRoled (s : State) : Bool := s.plait.role == 2 || s.plait.role == 3

/-- What the hub sends in its HELLO (R956). -/
def State.mapDigest (s : State) : List Byte :=
  (sha384 ((List.range 8).flatMap fun n =>
    let w := (s.port n).warp
    [BitVec.ofNat 8 (b2n w.enable)] ++ leBytes 2 w.unitCount ++ w.partMap)).take 16

/-- LCY_STATE.STATE as a code (R137, R140). -/
def Lifecycle.code : Lifecycle → Nat
  | .blank => 0 | .test => 1 | .production => 2 | .endOfLife => 3

/-- Send HELLO to the twin. DEDUCED, log entry 51. -/
def sendHello (request : Bool) (s : State) : State :=
  plaitSend 1 0x10 0xFF
    ([BitVec.ofNat 8 s.roleCode, s.id.stepping.setWidth 8, BitVec.ofNat 8 s.lcy.state.code,
      BitVec.ofNat 8 (b2n request + 2 * b2n (s.boot.phase == .ready))] ++ leBytes 2 s.leaseMs ++ zeros 2 ++
      leBytes 16 s.id.uid.toNat ++ s.mapDigest) s

/-! ### Pairing (R969 to R971) -/

/-- The code of R970 that fails; 0 for none. -/
def State.mismatchCode (s : State) (h : Hello) : Nat :=
  if h.lcy.toNat != s.lcy.state.code then 1
  else if leBytes 16 h.digest.toNat != s.mapDigest then 2
  else if h.leaseMs.toNat != s.leaseMs then 3
  else 0

/-- Pairing fails its checks: UNPAIRED, with the code, and HOOP_HALT_EN changes that waited for the twin are written (R528,
R970, R975 row 5). -/
def pairFails (code : Nat) (s : State) : State :=
  { s with plait := { s.plait with pair := .unpaired, mismatch := BitVec.ofNat 4 code, gotView := none, gotFast := false,
                                   enWait := [] } }
    |> plaitEvent 6 |> sendWithheld
    |> (fun t => each t.pairCmds (fun (f, c) => complete f c.tag { status := stBusy, r2 := code }) t)

/-- STAKE_VIEW: bit n of byte p for a pair that this hub holds. -/
def State.stakeBytes (s : State) : List Byte :=
  (List.range 64).map fun p => BitVec.ofNat 8 (bitsOf 8 fun n => (s.stake n p).held)

/-- FAST_VIEW: the HOOP_HALT_EN that this hub last wrote (R955). -/
def State.fastBytes (s : State) : List Byte :=
  (List.range 64).map fun p => BitVec.ofNat 8 (bitsOf 8 fun n => (s.stake n p).wrote)

/-- Steps 2 and 3 of R971, once both views have come: the pairs in both views are renewed where their die can be asked and the
firmware runs (R965, R1003); a senior claims those in neither. -/
def settlePairing (s : State) : State :=
  match s.plait.gotView with
  | none => s
  | some view =>
    if s.plait.pair == .pairing && s.plait.gotFast && s.plait.settling == 0 then
      let shown (n p : Nat) : Bool := (view.getD p 0).getLsbD n
      let both := s.heldSet.filter fun (n, p) => shown n p && s.takesReq n && !s.err.stopped
      let free := if s.plait.role == 2 then
          (List.range 8).flatMap fun n =>
            if (s.port n).lk.link == .active then
              ((s.partsOn n).filter fun p => !(s.stake n p).held && !shown n p).map fun p => (n, p)
            else []
        else []
      { s with plait := { s.plait with settling := 1 } }
        |> each both (fun (n, p) => askRenew n p) |> each free (fun (n, p) => claim n p) |> checkPairing
    else s

/-- The checks have passed: the views go out (R971 step 1). -/
def startPairing (s : State) : State :=
  { s with plait := { s.plait with pair := .pairing, settling := 0, sentView := true } }
    |> plaitSend 1 0x11 0xFF s.stakeBytes |> plaitSend 1 0x12 0xFF s.fastBytes |> settlePairing

/-- Pairing starts when both hubs are in READY and one of the reasons of R969 holds. -/
def tryPairing (s : State) : State :=
  match s.plait.hello with
  | none => s
  | some h =>
    let reason := s.pairPolicy == 2 || h.request || s.plait.pair == .split || s.plait.pair == .twinLost ||
      !s.pairCmds.isEmpty
    let free := s.plait.pair == .unpaired || s.plait.pair == .split || s.plait.pair == .twinLost
    if s.twinRoled && s.plaitUp && s.boot.phase == .ready && h.ready && reason && free then
      (if s.mismatchCode h = 0 then startPairing s else pairFails (s.mismatchCode h) s)
    else s

end Sys2Proof.Machine
end

