-- ==== Sys2Proof/Machine/Enumerate.lean ====
section
/-!
DEFINITION. Enumeration of a port (R429, R452 to R454, R527, R579, R966): the units and their classes are read, units are
assigned, run states are read, stakes are claimed, and the watch defaults are written.
-/

namespace Sys2Proof.Machine

open Sys2Proof

/-- Change a port's enumeration. -/
def modEnum (n : Nat) (g : EnumSt → EnumSt) (s : State) : State := modPort n (fun x => { x with enum := x.enum.map g }) s

/-- Send requests of a stage of the enumeration. -/
def enumSend (n : Nat) (stage : Nat) (l : List (State → State)) (s : State) : State :=
  s |> modEnum n (fun e => { e with stage := stage, outst := l.length }) |> each l (fun f t => f t)

/-- ENUM_READ of every unit index, 1,023 at a time (R447). -/
def enumReads (n units : Nat) : List (State → State) :=
  (chunksOf units 1023).map fun (o, k) => ask n 1 3 0 false 0xFF 0 (.enumRead o) (leBytes 2 o ++ leBytes 2 k)

/-- CLASS_READ of each class that the units name. -/
def classReads (n : Nat) (classes : List Nat) : List (State → State) :=
  classes.map fun c => ask n 1 4 0 false 0xFF 0 (.classRead c) (leBytes 2 c)

/-- Units of a port that enumeration found. -/
def State.foundOn (s : State) (n : Nat) : List Nat :=
  (s.units.filter fun e => e.1 / 4096 == n && e.2.found).map (·.1)

/-- Runs of equal bytes: first index, length, byte. -/
def byteRuns : Nat → List Byte → List (Nat × Nat × Byte)
  | _, [] => []
  | i, b :: rest =>
    match byteRuns (i + 1) rest with
    | (j, k, c) :: more => if b = c then (i, k + 1, b) :: more else (i, 1, b) :: (j, k, c) :: more
    | [] => [(i, 1, b)]

/-- ASSIGN of each run of units of one partition, from the map in force; a unit of the die at or above UNIT_COUNT is in no
partition (R201, R454). One request for each run of equal bytes of the map. DESIGN CHOICE, log entry 91. -/
def State.assigns (s : State) (n : Nat) : List (State → State) :=
  let w := (s.port n).warp
  let units := (s.port n).peerUnits.toNat
  (byteRuns 0 ((w.partMap ++ List.replicate (units - w.partMap.length) 0xFF).take units)).map fun (i, k, b) =>
    ask n 1 5 0 false (if b.toNat < 64 then b.toNat else 0xFF) 0 (.assign b.toNat) (leBytes 4 0 ++ leBytes 2 i ++ leBytes 2 k)

/-- Read RUN_STATE of each unit that is found and in a partition. DEDUCED, log entry 63. -/
def State.runStates (s : State) (n : Nat) : List (State → State) :=
  (s.foundOn n).filterMap fun u =>
    (s.unitPart u).map fun p => askRegRead n (u % 4096) p 0 (.runState u) 0x0004 1

/-- The warp commit under way gives the partition its first units on the port (R248 step 4). -/
def State.gains (s : State) (n p : Nat) : Bool :=
  s.weave.warpCommit.any fun c =>
    (c.previous.find? fun e => e.1 == n).any fun e => s.carries n p && !e.2.partMap.any fun b => b.toNat == p

/-- This hub claims the pair at the port's entry to ACTIVE (R130, R966, R984), or as a warp commit enumerates the port
(R248). -/
def State.claimsAt (s : State) (n p : Nat) : Bool :=
  if s.plait.pair == .twinLost || s.gains n p then true
  else if s.roleCode = 3 then s.boot.phase == .ready && (s.stake n p).held
  else if s.boot.phase == .ready then (s.stake n p).held || !(s.stake n p).twin
  else true

/-- Go on when every request of the present stage is answered. -/
def enumLoop (n : Nat) : Nat → State → State
  | 0, s => s
  | k + 1, s =>
    match (s.port n).enum with
    | none => s
    | some e =>
      if e.outst != 0 then s
      else
        match e.stage with
        | 0 =>
          let classes := ((s.foundOn n).map fun u => (s.unit u).classId.toNat).eraseDups
          s |> enumSend n 1 (classReads n classes) |> enumLoop n k
        | 1 => s |> enumSend n 2 (s.assigns n) |> enumLoop n k
        | 2 => s |> enumSend n 3 (s.runStates n) |> enumLoop n k
        | 3 =>
          s |> modEnum n (fun x => { x with stage := 4 })
            |> each ((s.partsOn n).filter (s.claimsAt n)) (fun p => claim n p)
        | _ => s

/-- Go on with a port's enumeration. -/
def enumGo (n : Nat) (s : State) : State := enumLoop n 8 s

/-- Begin to enumerate a port that has entered ACTIVE: what was known of its units is read afresh. -/
def enumStart (n : Nat) (s : State) : State :=
  let forget (u : Nat) : State → State := modUnit u fun x => { x with found := false }
  s |> each (s.foundOn n) forget
    |> modPort n (fun x => { x with enumerated := false, classes := [],
                                    enum := some { stage := 0, outst := 0, startedAt := s.t } })
    |> enumSend n 0 (enumReads n (s.port n).peerUnits.toNat) |> enumGo n

/-- One request of the enumeration is answered. Where the die refuses it the enumeration goes on (R449, R454). DESIGN CHOICE,
log entry 86. -/
def enumAnswered (n : Nat) (s : State) : State := s |> modEnum n (fun e => { e with outst := e.outst - 1 }) |> enumGo n

/-- ENUM_READ is answered: the units with a class are found (R450). -/
def enumReadAnswer (n first code : Nat) (d : List Byte) (s : State) : State :=
  let count := if code = 0 then d.length / 4 else 0
  let found := (List.range count).filter fun k => field d (4 * k) 2 != 0
  s |> each found (fun k => modUnit (unitNo n (first + k)) fun x =>
        { x with found := true, classId := BitVec.ofNat 16 (field d (4 * k) 2) })
    |> enumAnswered n

/-- CLASS_READ is answered. -/
def classReadAnswer (n cls code : Nat) (d : List Byte) (s : State) : State :=
  s |> (fun t => if code = 0 then modPort n (fun x => { x with classes := Tab.set x.classes cls d }) t else t)
    |> enumAnswered n

/-- RUN_STATE of a unit is read: its view, and the record of a unit that is not HALTED is gone (R541, R543); a gathering
that waited for a HALTED one goes on (R558). DEDUCED, log entry 63. -/
def runStateAnswer (n u code : Nat) (d : List Byte) (s : State) : State :=
  let v := viewOf (field d 0 4 % 4)
  s |> (fun t => if code = 0 then
          t |> modUnit u (fun x =>
                { x.saw v (s.unitGathers u) s.t with record := if v == .halted then x.record else none })
            |> (fun w => match w.unitPart u with | some p => checkGathering p w | none => w)
        else t)
    |> enumAnswered n

/-! ### Watch defaults (R579) -/

/-- The messages that write one breakpoint default: cleared, or the two writes of R574. -/
def breakDefault (t : Nat × Nat × Bool × Nat) (n : Nat) (addr flags : Nat) : List CmdMsg :=
  if bit flags 0 then (breakParts t n addr (flags / 2)).take 2 else [regWrite t (0x0108 + 0x10 * n) (leBytes 4 0)]

/-- The messages that write one comparator default: cleared, or the three writes of R576. -/
def watchDefault (t : Nat × Nat × Bool × Nat) (n : Nat) (spec : List Byte) : List CmdMsg :=
  if bit (field spec 32 4) 0 then watchParts t n spec else [regWrite t (0x0210 + 0x40 * n) (leBytes 4 0)]

/-- All the writes of a unit's defaults. -/
def defaultWrites (w : Mem) (u : Nat) : List CmdMsg :=
  let t := (u / 4096, u % 4096, false, u)
  (List.range 8).flatMap (fun n => breakDefault t n (bpDefault w n).1 (bpDefault w n).2) ++
    (List.range 4).flatMap fun n => watchDefault t n (watchSpec w n)

/-- Write a unit's watch and breakpoint defaults. -/
def writeDefaults (u p : Nat) (who : Bool → ReqFor) (s : State) : State :=
  let ms := defaultWrites (s.part p).active.weft u
  each ms.zipIdx (fun (m, k) => ask m.n m.ch m.op m.target false p 0 (who (k + 1 == ms.length)) (leBytes 4 0 ++ m.body)) s

/-- A claim of the enumeration is accepted: the defaults go to the partition's units on the port (R579). -/
def enumClaimed (n p : Nat) (s : State) : State :=
  if (s.port n).enum.isSome then
    each ((s.unitsOn n p).filter fun u => (s.unit u).found) (fun u => writeDefaults u p (.watch p u)) s
  else s

/-- Requests that an enumeration still waits for. -/
def enumWaits (r : OutReq) : Bool :=
  match r.who with
  | .claim _ => true
  | .watch _ _ _ => true
  | .hoopCtrl _ => true
  | .evtEn _ => true
  | _ => false

/-- ENUMERATION_DONE: every request of a port's enumeration is answered; its units can be reached (R429). -/
def execEnumerationDone (port : Port) (s : State) : Host.Outcome State Fault Refusal :=
  let n := port.val
  match (s.port n).enum with
  | none => done s
  | some e =>
    if e.stage = 4 && !((s.port n).lk.open_.any enumWaits) then
      done (modPort n (fun x => { x with enum := none, enumerated := true }) s)
    else done s

end Sys2Proof.Machine
end

