-- ==== Sys2Proof/Machine/Responses.lean ====
section
/-!
DEFINITION. Answers of a die to the hub's requests, requests that no answer reaches, and requests lost with their link
(R1093, R553, R605, R616, R965).
-/

namespace Sys2Proof.Machine

open Sys2Proof

/-! ### Synthesized records (R545) -/

/-- A word read for a synthesized record. -/
def UnitSt.word (x : UnitSt) (off : Nat) : Nat := (Tab.getD x.synth off (0 : W32)).toNat

/-- The enabled channel slots that were read: CHANNEL_ID, CFLAGS, COUNT. -/
def UnitSt.synthSlots (x : UnitSt) : List (Nat × Nat × Nat) :=
  (List.range 16).filterMap fun k =>
    let o := 0x0400 + 0x10 * k
    if bit (x.word (o + 4)) 0 then some (x.word o, b2n (bit (x.word (o + 4)) 1), x.word (o + 8)) else none

/-- The data of a synthesized record: CAUSE and ABRUPT from RUN_STATE, both times the die time of the read. -/
def UnitSt.synthData (x : UnitSt) : List Byte :=
  let rs := x.word 0x0004
  let time := x.word 0x0D04 + 2 ^ 32 * x.word 0x0D08
  let mid := x.word 0x0018
  leBytes 4 (x.word 0x0E08) ++ [BitVec.ofNat 8 (rs / 16 % 16), 0, BitVec.ofNat 8 (b2n (bit rs 2) + 2 * b2n (mid != 0)),
    BitVec.ofNat 8 x.synthSlots.length] ++ leBytes 8 time ++ leBytes 8 time ++
    leBytes 8 (x.word 0x0010 + 2 ^ 32 * x.word 0x0014) ++ leBytes 2 mid ++ zeros 6 ++
    x.synthSlots.flatMap fun (c, f, n) => leBytes 4 c ++ leBytes 4 f ++ leBytes 4 n

/-- Reads for the synthesized record of a unit are still open. -/
def State.synthPending (s : State) (u : Nat) : Bool :=
  (s.port (u / 4096)).lk.open_.any fun r => match r.who with | .synth v _ => v == u | _ => false

/-- A read of a synthesized record is answered; the last one builds the record, unless one has arrived. -/
def synthAnswer (u k code : Nat) (d : List Byte) (s : State) : State :=
  let (off, n) := synthStep k
  let put (x : UnitSt) : UnitSt :=
    { x with synth := (List.range n).foldl (fun t i => Tab.set t (off + 4 * i) (BitVec.ofNat 32 (field d (4 * i) 4))) x.synth }
  let s1 := if code = 0 then modUnit u put s else s
  let x := s1.unit u
  if s1.synthPending u || x.view != .halted || x.record.isSome then s1
  else
    let complete_ := (List.range 5).all fun j => (Tab.get? x.synth (synthStep j).1).isSome
    if complete_ then
      let t := s1.hubTime (u / 4096) (x.word 0x0D04 + 2 ^ 32 * x.word 0x0D08)
      let r : HaltRec := { data := x.synthData, synthesized := true, poisoned := false, stopHub := t, haltedHub := t }
      modUnit u (fun y => { y with synth := [], record := some r }) s1
    else modUnit u (fun y => { y with synth := [] }) s1

/-! ### Watch defaults of a commit (R238) -/

/-- The commit that writes the defaults of a partition's units: the weft commit. -/
def modCommit (p : Nat) (g : Commit → Commit) (s : State) : State :=
  modPart p (fun x => { x with commit := x.commit.map g }) s

/-- A write of the watch defaults is answered: a failing one skips the unit, the last one ends it. -/
def watchApplyAnswer (p u : Nat) (last : Bool) (ok : Bool) (s : State) : State :=
  modCommit p (fun c =>
    if !c.unitsLeft.contains u then c
    else if !ok then { c with unitsLeft := c.unitsLeft.filter (· != u), skipped := c.skipped + 1 }
    else if last then { c with unitsLeft := c.unitsLeft.filter (· != u) } else c) s

/-! ### Answers -/

/-- What an answer does, by who asked. `n`: the port; `code`: the die status code; `d`: the data after RSTATUS. -/
def answered (n : Nat) (r : OutReq) (code : Nat) (replayed : Bool) (d : List Byte) (s : State) : State :=
  match r.who with
  | .cmd f tag unit k =>
    match s.cmd f tag with
    | some c => if c.op == 0x32 then regionAnswer f tag code d s else cmdAnswer f tag r n unit k code replayed d s
    | none => s
  | .claim p =>
    let s1 := s |> sawHolder n p d |> claimAnswer n p code d
    if code = 0 then enumClaimed n p s1 else s1
  | .renew p => s |> sawHolder n p d |> renewAnswer n p code d
  | .release p => s |> sawHolder n p d |> releaseAnswer n p code
  | .enumRead first => enumReadAnswer n first code d s
  | .classRead c => classReadAnswer n c code d s
  | .assign _ => enumAnswered n s
  | .runState u => runStateAnswer n u code d s
  | .watchApply p u last => watchApplyAnswer p u last (code == 0) s
  | .synth u k => synthAnswer u k code d s
  | .inflight p i => inflightAnswer p i code d s
  | .capture id i _ => captureAnswer r.msg.partition.toNat id i code d s
  | .halt _ => s
  | .hoopCtrl _ => s
  | .evtEn _ => s
  | .watch _ _ _ => s
  | .drain _ => s
  | .plait => s

/-- Set the PROTOCOL bit of a link's error status (R393, R1093). DEDUCED, log entry 26. -/
def protocolError (l : Nat) (s : State) : State := setLinkErr l 4 s

/-- A response on VC0 to VC2: matched to the oldest outstanding request of its channel (R1093). -/
def takeResponse (n : Nat) (m : Msg) (s : State) : State :=
  if !(s.port n).lk.sequenced then s
  else
    let c := (s.lnk n).tx m.ch
    match c.outst with
    | [] => protocolError n s
    | r :: rest =>
      if !m.response || m.op != r.msg.op || m.target != r.msg.target || m.tag != r.msg.tag then protocolError n s
      else
        let code := field m.data 0 1
        let replayed := bit (field m.data 0 4) 8
        let d := m.data.drop 4
        let s1 := modLnk n (fun x => x.setTx m.ch { c with outst := rest }) s
        let s2 := if code = 0 then answerEffect n r.msg replayed d s1 else refusalEffect n r.msg s1
        answered n r code replayed d s2

/-- DIE_RESPONSE (R1093). -/
def execDieResponse (port : Port) (m : Msg) (s : State) : Host.Outcome State Fault Refusal :=
  done (if m.ch < 3 then takeResponse port.val m s else s)

/-! ### No answer, and a lost link -/

/-- The commands of requests that waited for a claim of a pair end with a status. -/
def failResends (n p : Nat) (st : Byte) (s : State) : State :=
  let waiting := s.resends n p
  s |> clearResends n p
    |> each waiting (fun r t =>
        match r.who with
        | .cmd f tag u _ => endResend f tag u r st t
        | _ => t)

/-- A request ends without an answer, other than a command's: the read, the default or the stage of the enumeration
that it served ends as after a failing answer. -/
def unanswered (n : Nat) (r : OutReq) (st : Byte) (s : State) : State :=
  match r.who with
  | .claim p => s |> failResends n p st |> twinChecks
  | .renew _ => twinChecks s
  | .release _ => twinChecks s
  | .enumRead _ => enumAnswered n s
  | .classRead _ => enumAnswered n s
  | .assign _ => enumAnswered n s
  | .runState _ => enumAnswered n s
  | .watchApply p u last => watchApplyAnswer p u last false s
  | .synth u k => synthAnswer u k 0xFF [] s
  | .inflight p i => inflightAnswer p i 0xFF [] s
  | .capture id i _ => captureAnswer r.msg.partition.toNat id i 0xFF [] s
  | _ => s

/-- The bound of R451 in µs. -/
def answerBound (ch : Nat) : Nat := if ch = 0 then 1 else if ch = 1 then 20 else 100

/-- How long the hub waits for an answer: a capture or in-flight read by R451 alone, a DUMP_REGION read too (R605, R616,
R641), else the longer of that and HALT_TIMEOUT (R553). -/
def State.answerWait (s : State) (ch : Nat) (r : OutReq) : Nat :=
  let b := answerBound ch * Config.ticksPerUs
  match r.who with
  | .inflight _ _ => b
  | .capture _ _ _ => b
  | .cmd f tag _ _ =>
    if (s.cmd f tag).any fun c => c.op == 0x32 then b else max b (s.haltTimeout r.msg.partition.toNat)
  | _ => max b (s.haltTimeout r.msg.partition.toNat)

/-- RESPONSE_TIMEOUT: the oldest request of a channel has had no answer in time; the units it served are UNRESPONSIVE, of a
HALT those that have not halted, and its command ends (R553, R564). DEDUCED, log entry 14. -/
def execResponseTimeout (port : Port) (ch : Fin 3) (s : State) : Host.Outcome State Fault Refusal :=
  let n := port.val
  let c := (s.lnk n).tx ch.val
  match c.outst with
  | [] => done s
  | r :: rest =>
    if s.t < r.at_ + s.answerWait ch.val r then done s
    else
      let s1 := modLnk n (fun x => x.setTx ch.val { c with outst := rest }) s
      match r.who with
      | .cmd f tag unit _ =>
        match s.cmd f tag with
        | some x =>
          if x.op == 0x32 then done (regionAnswer f tag 0xFF [] s1)
          else
            let halt := r.msg.ch == 0 && r.msg.op == 1
            let served := (s.servedBy x.partition unit (r.msg.target.getLsbD 15)).filter fun u =>
              !halt || (s.unit u).view != .halted
            done (s1 |> cmdNoAnswer f tag r unit |> each served (fun u => stepEnds u false)
                     |> each served (fun u => modUnit u (UnitSt.declare s.t)) |> checkGather x.partition)
        | none => done s1
      | _ => done (unanswered n r stUnitUnresponsive s1)

/-- A request lost with its link (R425, R553). -/
def requestLost (n : Nat) (r : OutReq) (s : State) : State :=
  match r.who with
  | .cmd f tag unit _ =>
    match s.cmd f tag with
    | some x =>
      if x.op == 0x32 then regionAnswer f tag 0xFF [] s
      else if x.op == 0x30 then modWork f tag (fun w => { w with outst := w.outst - 1 }) s
      else cmdLinkLost f tag (s.servedBy x.partition unit (r.msg.target.getLsbD 15)) s
    | none => s
  | _ => unanswered n r stLinkDown s

end Sys2Proof.Machine
end

