-- ==== Sys2Proof/Machine/Links.lean ====
section
/-!
DEFINITION. The states of a Nalsel link and of the Plait link: training, entry to ACTIVE, retrain, DOWN and what DOWN
does to the commands, the units, the trace and the pair (spec/07, spec/19).
-/

namespace Sys2Proof.Machine

open Sys2Proof

/-! ### Lanes and roles (R200, R415, R949, R952) -/

/-- LANE_MODE that a link trains in: both lanes on the Plait link; lane 0 for a senior and lane 1 for a junior. -/
def State.laneMode (s : State) (l : Nat) : Nat :=
  if l = 8 then 0
  else if s.roleCode = 2 then 1
  else if s.roleCode = 3 then 2
  else (s.port l).warp.laneMap.toNat / 16 % 4

/-- The lanes in use of a mode, one bit for each die lane. -/
def lanesOf (mode : Nat) : BitVec 2 := if mode = 1 then 1 else if mode = 2 then 2 else 3

/-- The ROLE that a peer must send: a die 0, the twin its own. -/
def State.peerRole (s : State) (l : Nat) : Nat := if l = 8 then s.twinRole else 0

/-- N7 is configured for scan fallback: SCAN_FALLBACK, except on a junior (R432, R950). -/
def State.wantsScan (s : State) (n : Nat) : Bool :=
  n == 7 && bit (s.port 7).warp.laneMap.toNat 6 && s.roleCode != 3

/-- SCAN_FALLBACK on a junior acts as a disabled port (R950). -/
def State.portDisabled (s : State) (n : Nat) : Bool :=
  !(s.port n).warp.enable || (n == 7 && bit (s.port 7).warp.laneMap.toNat 6 && s.roleCode == 3)

/-- The serdes PLL of a link is locked (R97). -/
def State.pllLocked (s : State) (l : Nat) : Bool := if l = 8 then s.clk.plait else s.clk.nsl.getLsbD l

/-- A link enters DETECT: sequence numbers start afresh (R405), its lanes and role are set (R437). -/
def enterDetect (l : Nat) (s : State) : State :=
  let fresh (x : Lnk) : Lnk :=
    { Lnk.init with link := .detect, since := s.t, downCause := x.downCause, trainFails := x.trainFails, err := x.err,
                    errSet := x.errSet,
                    exchNo := x.exchNo, offset := x.offset, rtt := x.rtt, offsetT1 := x.offsetT1,
                    recOffset := x.recOffset, recAt := x.recAt, recResumed := x.recResumed,
                    tx0 := { TxChan.init with waiting := x.tx0.waiting },
                    tx1 := { TxChan.init with waiting := x.tx1.waiting },
                    tx2 := { TxChan.init with waiting := x.tx2.waiting } }
  let s1 := modLnk l fresh s
  if l = 8 then s1
  else modPort l (fun x => { x with lanes := lanesOf (s.laneMode l), peerRole := BitVec.ofNat 2 s.roleCode }) s1

/-- Where a port's link stands when nothing keeps it down: SCAN, DISABLED, or DETECT. DEDUCED, log entry 62. -/
def startLink (n : Nat) (s : State) : State :=
  let rest (k : LinkState) : State :=
    modPort n (fun x => { x with lk := { x.lk with link := k, since := s.t }, lanes := 0, peerRole := 0 }) s
  if s.portDisabled n then rest .disabled
  else if s.wantsScan n then rest .scan
  else enterDetect n s

/-! ### TIMESYNC records (R739, R742) -/

/-- The payload of a TIMESYNC record. -/
def State.timesyncPayload (s : State) (l : Nat) (resumed : Bool) : List Byte :=
  let x := s.lnk l
  [BitVec.ofNat 8 (b2n (l == 8)), BitVec.ofNat 8 (if l = 8 then 0xFF else l), BitVec.ofNat 8 (b2n resumed), 0] ++
    leBytes 4 (if l = 8 then 625000 else (s.port l).tickFs.toNat) ++ leBytes 8 x.offset.toNat ++
    leBytes 8 x.offsetT1.toNat ++ leBytes 4 x.rtt.toNat ++ zeros 4

/-- Write a TIMESYNC record: for a port into every partition with units on it, for the twin into every partition. -/
def timesyncRec (l : Nat) (resumed : Bool) (s : State) : State :=
  let ps := if l = 8 then List.range 64 else s.partsOn l
  s |> modLnk l (fun x => { x with recOffset := x.offset, recAt := s.t })
    |> each ps (fun p t => writeRec 15 p (s.timesyncPayload l resumed) t)

/-! ### LINK records (R702, R735) -/

/-- Write a LINK record into every partition with units on a port. Class 13. Its NEW_DIE says that the CONFIG of this
training named a UID other than the last one (R430); a DOWN record has none. Log entry 32. -/
def linkRec (n event : Nat) (s : State) : State :=
  let x := s.port n
  each (s.partsOn n)
    (fun p => writeRec 13 p
      ([BitVec.ofNat 8 n, BitVec.ofNat 8 event, if event = 1 then 0 else x.lk.downCause.setWidth 8,
        BitVec.ofNat 8 (b2n (event == 1 && x.uidNew))] ++ leBytes 4 (if event = 1 then x.lostEvents.toNat else 0) ++
        leBytes 8 (if event = 1 then x.uid else x.lastUid.getD 0).toNat)) s

/-- Where the LOSS record of a link's return stands: behind its LINK record, and in every stream that a lost message was
for (R427, R704, R735). DEDUCED, log entry 54. -/
def State.returnDests (s : State) (p : Nat) : Nat := s.dest (hubRec 13 p [] s) ||| s.dieDests p

/-- The LOSS records of a link's return: CAUSE 5, LOST_EVENTS (R427, R735). -/
def linkLoss (n : Nat) (s : State) : State :=
  let k := (s.port n).lostEvents.toNat
  if k = 0 then s else each (s.partsOn n) (fun p t => lossBoth p (t.returnDests p) k 5 n t.now t.now 0xFFFF t) s

/-! ### DOWN -/

/-- A training state counts a failure when it ends in DOWN (R414). -/
def LinkState.trains (x : LinkState) : Bool :=
  x == .sync || x == .align || x == .config || x == .timesync || x == .retrain

/-- The link layer in DOWN: replay buffer, channels and partial messages discarded (R425, R426). -/
def Lnk.toDown (x : Lnk) (cause now : Nat) (count : Bool) : Lnk :=
  { Lnk.init with link := .down, since := now, downCause := BitVec.ofNat 4 cause, err := x.err, errSet := x.errSet,
                  trainFails := if count && x.trainFails != 0xFF then x.trainFails + 1 else x.trainFails,
                  exchNo := x.exchNo, offset := x.offset, rtt := x.rtt, offsetT1 := x.offsetT1,
                  recOffset := x.recOffset, recAt := x.recAt, recResumed := x.recResumed }

/-- The started HALT and STEP commands that still wait for a unit of the port, and staged RESUMEs that have not come to
it, end with LINK_DOWN (R425). DEDUCED, log entry 45. -/
def linkDownCmds (n : Nat) (s : State) : State :=
  let waits (c : Cmd) : Bool :=
    (c.op == 0x10 && (s.unitsOn n c.partition).any fun u => !(s.unit u).settled) ||
      (c.op == 0x12 && c.work.units.any fun u => u / 4096 == n) ||
      (c.op == 0x11 && c.f 52 1 == 1 && ((portSeq c.param0).drop c.work.stage).contains n &&
        (s.cmdUnits c).any fun u => u / 4096 == n)
  each (s.cmdsWhere fun _ c => c.started && waits c)
    (fun (f, c) => modWork f c.tag (fun w => { w with fail := w.fail <|> some stLinkDown })) s

/-- A port that a warp commit retrains fails to train: it gets its previous entry back and retrains with it; one that fails
with that as well is given up (R249). -/
def reinstall (n : Nat) (s : State) : State :=
  match s.weave.warpCommit with
  | none => s
  | some c =>
    let put (c1 : Commit) : State := { s with weave := { s.weave with warpCommit := some c1 } }
    match c.previous.find? fun e => e.1 == n with
    | some (_, w) =>
      if c.portsLeft.contains n then
        put { c with failedPorts := c.failedPorts ++ [n], portsLeft := c.portsLeft.filter (· != n) }
          |> modPort n (fun x => { x with warp := w })
      else if c.failedPorts.contains n then put { c with failedAgain := c.failedAgain ++ [n] }
      else s
    | none => s

/-- A port has trained: a later failure is none of the warp commit that retrained it. -/
def warpTrained (n : Nat) (s : State) : State :=
  { s with weave := { s.weave with warpCommit := s.weave.warpCommit.map fun c =>
      { c with portsLeft := c.portsLeft.filter (· != n) } } }

/-- LINK_TRAIN ends once the training of external memory has ended and every enabled port is in ACTIVE or SCAN, has failed
to train, or waits in DETECT, where it may wait for ever for a die (R123, R132, R715, R1091; log entry 30). ENUMERATE then
enumerates the ports in ACTIVE. -/
def bootAdvance (s : State) : State :=
  let ended (n : Nat) : Bool :=
    s.portDisabled n || (s.port n).lk.link == .detect || (s.port n).lk.link == .active || (s.port n).lk.link == .scan ||
      (s.port n).lk.trainFails != 0
  if s.boot.phase == .linkTrain && s.boot.dramTrained && (List.range 8).all ended then
    { s with boot := { s.boot with phase := .enumerate } }
      |> each ((List.range 8).filter fun n => (s.port n).lk.link == .active) enumStart
  else s

/-- The END latch points of a port's units that await their delta as the port goes DOWN (R754). -/
def endsAtDown (n : Nat) (s : State) : State :=
  each ((s.units.filter fun e => e.1 / 4096 == n).map (·.1))
    (fun u t => match t.unitPart u with
      | some p => endsWithoutDelta p u (fun _ => true) t
      | none => t) s

/-- A Nalsel link enters DOWN (R425). `count`: a training failure (R414). -/
def portDown (n cause : Nat) (count : Bool) (s : State) : State :=
  let x := s.port n
  let fails := count && x.lk.link.trains
  let lost := x.lk.open_
  let units := (s.units.filter fun e => e.1 / 4096 == n).map (·.1)
  let waiting := (s.units.filter fun e => e.1 / 4096 == n && (e.2.haltDeadline.isSome || (s.stepDue e.1).isSome)).map (·.1)
  let parts := s.partsOn n
  s |> modPort n (fun y => { y with lk := y.lk.toDown cause s.t fails, enum := none, enumerated := false, detachAt := none })
    |> each lost (requestLost n)
    |> linkDownCmds n
    |> each waiting declareUnit
    |> each units uncertain |> endsAtDown n
    |> linkRec n 0
    |> raiseErr 8 2 n 0 cause 0
    |> each parts checkGather
    |> each parts slath
    |> (fun t => if fails then reinstall n t else t)
    |> twinChecks |> bootAdvance

/-- The hub claims every pair of the dies in ACTIVE that is not in its held set (R984); the claims of a port in a retrain go
out as it is in ACTIVE again. -/
def claimAll (s : State) : State :=
  each (List.range 8)
    (fun n t =>
      if t.takesReq n then each ((t.partsOn n).filter fun p => !(t.stake n p).held) (claim n) t else t) s

/-- The hub enters TWIN_LOST (R983, R984). -/
def enterTwinLost (s : State) : State :=
  { s with plait := { s.plait with pair := .twinLost } } |> plaitEvent 3 |> claimAll

/-- The HANDOFFs under way end with the Plait link (R977). -/
def handoffLost (s : State) : State :=
  { s with plait := { s.plait with handoff := [] } }
    |> each s.plait.handoff (fun h => complete h.fn h.tag { status := stLinkDown, part := true })

/-- The PAIR commands end with a status, PARTIAL where the pairing has gained a pair (R284). -/
def pairEnds (st : Byte) (s : State) : State :=
  each s.pairCmds (fun (f, c) => complete f c.tag { status := st, part := c.work.executed }) s

/-- The Plait link enters DOWN: a paired hub enters SPLIT or TWIN_LOST, pairing ends (R980, R983). -/
def plaitDown (cause : Nat) (count : Bool) (s : State) : State :=
  let x := s.plait
  let split := x.pair == .paired || (x.pair == .pairing && x.everPaired)
  let pair : PairState := if split then .split else if x.pair == .pairing then .unpaired else x.pair
  let y := { x with lk := x.lk.toDown cause s.t (count && x.lk.link.trains), pair := pair, hello := none,
                    sentView := false, gotView := none, gotFast := false, settling := 0, enWait := [],
                    imageBuf := [], handoffIn := [] }
  let s1 := { s with plait := y } |> raiseErr 0x0C 4 0xFFFF 0 cause 0 |> handoffLost |> pairEnds stLinkDown
  if split then (if x.hbPresent then plaitEvent 2 s1 else enterTwinLost s1)
  else if x.pair == .split && !x.hbPresent then enterTwinLost s1 else s1

/-- A link enters DOWN. -/
def linkDown (l cause : Nat) (count : Bool) (s : State) : State :=
  if l = 8 then plaitDown cause count s else portDown l cause count s

/-- The link is up or trains: it can enter DOWN. -/
def LinkState.live (x : LinkState) : Bool := x == .detect || x == .active || x.trains

/-! ### Retrain (R411, R424) -/

/-- A link in ACTIVE starts a retrain; NSL_RETRAIN_n counts (R744). -/
def startRetrain (l : Nat) (s : State) : State :=
  let go (x : Lnk) : Lnk :=
    { x with link := .retrain, since := s.t, tsSeen := 0, tsBad := 0, alignSeen := 0, resumed := false, exchOut := none }
  if (s.lnk l).link == .active then
    s |> modLnk l go |> (fun t => if l < 8 then bumpAlways (32 + l) 1 t else t)
  else s

/-- Send again the unacknowledged flits from a sequence number on, in order; they count as sent flits. -/
def resend (l : Nat) (first : BitVec 12) (s : State) : State :=
  let again := (s.lnk l).unacked.dropWhile fun e => e.1 != first
  s |> each again (fun e => sendAgain l e.2)
    |> (fun t => if again.isEmpty then t else setLinkErr l 2 t)

/-- A replay by NAK or timeout: REPLAY_START, the flits, then new ones. The fourth replay of one first flit in a row
starts a retrain (R409 to R411). A NAK that names the last flit sent asks for no flit again, and REPLAY_START alone ends the
peer's discarding; one that names no flit of the window has no effect. DEDUCED, log entry 26. -/
def replay (l : Nat) (first : BitVec 12) (s : State) : State :=
  let x := s.lnk l
  if !(x.unacked.any fun e => e.1 == first) then
    if first == x.txSeq then s |> sendCtl l 2 0 (leBytes 2 first.toNat) |> pump l |> noteRuns else s
  else
    let k := if x.replayCount != 0 && x.replayFirst == first then x.replayCount + 1 else 1
    let s1 := s |> modLnk l (fun y => { y with replayFirst := first, replayCount := k, ackAt := s.t })
                |> (fun t => if l < 8 then bumpAlways (24 + l) 1 t else t)
                |> sendCtl l 2 0 (leBytes 2 first.toNat) |> resend l first
    if 4 ≤ k then startRetrain l (modLnk l (fun y => { y with replayCount := 0 }) s1) else s1 |> pump l |> noteRuns

/-! ### Acknowledgements and credits (R404) -/

/-- ACK_SEQ covers a prefix of the unacknowledged flits; one that covers none is old. -/
def Lnk.acked (x : Lnk) (ack : BitVec 12) (now : Nat) : Lnk :=
  if x.unacked.any fun e => e.1 == ack then
    let rest := (x.unacked.dropWhile fun e => e.1 != ack).drop 1
    let passed := (x.unacked.takeWhile fun e => e.1 != ack).any (fun e => e.1 == x.replayFirst) || ack == x.replayFirst
    { x with unacked := rest, ackAt := now, replayCount := if passed then 0 else x.replayCount }
  else x

/-- Credits returned for a channel since the last value seen. -/
def TxChan.credit (c : TxChan) (v : Byte) : TxChan :=
  { c with credits := c.credits + (v - c.creditsSeen).toNat, creditsSeen := v, added := (v - c.creditsSeen).toNat }

/-- The peer has returned the whole remainder of every grant: its latest link control flit returned nothing more. DEDUCED, log
entry 77. -/
def Lnk.wholeGrants (x : Lnk) : Bool := x.tx0.added == 0 && x.tx1.added == 0 && x.tx2.added == 0

/-- Take the ACK and CREDITS fields of a link control flit. -/
def readHdr (l : Nat) (h : CtlHdr) (s : State) : State :=
  let b (k : Nat) : Byte := h.credits.extractLsb' (8 * k) 8
  let x := s.lnk l
  let x1 := if h.ackValid then x.acked h.ack s.t else x
  let x2 := { x1 with tx0 := x1.tx0.credit (b 0), tx1 := x1.tx1.credit (b 1), tx2 := x1.tx2.credit (b 2) }
  if x.link == .timesync || x.link == .active || x.link == .retrain then modLnk l (fun _ => x2) s else s

/-- Take the ACK and CREDITS fields of a link control flit, then send what may go. -/
def takeHdr (l : Nat) (h : CtlHdr) (s : State) : State := s |> readHdr l h |> pump l |> noteRuns

/-! ### Time exchanges (R418 to R420) -/

/-- `num / den` rounded to the nearest integer, ties to even. -/
def roundDiv (num : Int) (den : Nat) : Int :=
  let q := num / (den : Int)
  let r := num % (den : Int)
  if 2 * r < den then q else if den < 2 * r then q + 1 else if q % 2 = 0 then q else q + 1

/-- An exchange's offset and rtt, exact until the rounding (R419). -/
def mkExchange (tick t1 t2 t3 t4 : Nat) : Exchange :=
  { offset := roundDiv (((t2 + t3) * tick : Nat) - ((t1 + t4) * 625000 : Nat) : Int) 1250000,
    rtt := roundDiv ((((t4 : Int) - t1) * 625000) - ((t3 : Int) - t2) * tick) 625000, t1 := BitVec.ofNat 64 t1 }

/-- The exchange with the smallest rtt, the newest of several; the list is oldest first. -/
def bestExchange : List Exchange → Option Exchange
  | [] => none
  | e :: rest =>
    match bestExchange rest with
    | some b => if e.rtt < b.rtt then some e else some b
    | none => some e

/-- Grow the cumulative credits of a grant above 256, at most 255 in a flit (R1094). -/
def RxChan.growGrant (c : RxChan) : RxChan :=
  let k := min 255 c.grantLeft
  { c with returned := c.returned + BitVec.ofNat 8 k, grantLeft := c.grantLeft - k }

/-- Start an exchange: TIMESYNC_REQ with T1. -/
def startExchange (l : Nat) (s : State) : State :=
  let grow (x : Lnk) : Lnk :=
    { x with rx0 := x.rx0.growGrant, rx1 := x.rx1.growGrant, rx2 := x.rx2.growGrant, rx3 := x.rx3.growGrant }
  let no := (s.lnk l).exchNo + 1
  s |> modLnk l (fun x => { grow x with exchNo := no, exchOut := some (no, s.now), lastExchange := s.t })
    |> sendCtl l 4 no.toNat (leBytes 8 s.t)

/-! ### ACTIVE -/

/-- A link leaves TIMESYNC for ACTIVE. A port: its LINK, LOSS and TIMESYNC records, and its enumeration (R427, R429,
R702, R739). The Plait link: HELLO, which asks to pair where PAIR_POLICY is 2 or the hub was paired (R969). -/
def enterActive (l : Nat) (s : State) : State :=
  let s1 := modLnk l (fun x => { x with link := .active, since := s.t, trainFails := 0, ackAt := s.t }) s
  if l = 8 then
    let again := s.plait.pair == .split || s.plait.pair == .twinLost || s.pairPolicy == 2
    { s1 with plait := { s1.plait with everActive := true } } |> pump 8 |> sendHello again |> tryPairing
  else s1 |> warpTrained l |> linkRec l 1 |> modPort l (fun x => { x with uidNew := false }) |> linkLoss l |> timesyncRec l true
    |> (fun t => if t.boot.phase == .linkTrain then t else enumStart l t) |> bootAdvance

/-- An exchange ends: the best of the last 16 gives the offset, that of the twin only once its link is up, until when the
last one stays (R742, R953). In TIMESYNC the next one starts, or the link enters
ACTIVE after 16, the peer's grants whole (R1094); in ACTIVE a change of 4 ticks is recorded (R419, R739, R742). DEDUCED, log
entry 62. -/
def exchangeDone (l : Nat) (e : Exchange) (s : State) : State :=
  let x := s.lnk l
  let ex := (x.exchanges ++ [e]).drop (x.exchanges.length + 1 - 16)
  let b := (bestExchange ex).getD e
  let n := x.exchDone + 1
  let enters := decide (16 ≤ n) && x.wholeGrants
  let inForce := l != 8 || x.link != .timesync || enters
  let s1 := s |> modLnk l (fun y => { y with exchanges := ex, exchOut := none, exchDone := n })
    |> (fun t => if inForce then modLnk l (fun y =>
          { y with offset := BitVec.ofInt 64 b.offset, rtt := BitVec.ofInt 32 b.rtt, offsetT1 := b.t1 }) t else t)
  if x.link == .timesync then (if enters then enterActive l s1 else startExchange l s1)
  else
    let y := s1.lnk l
    let moved := decide (4 ≤ (y.offset - y.recOffset).toInt.natAbs)
    let may := l != 8 || s.plait.pair == .paired
    if may && (moved || y.recResumed) then
      s1 |> timesyncRec l y.recResumed |> modLnk l (fun z => { z with recResumed := false })
    else s1

/-! ### CONFIG (R416, R417) -/

/-- The initial grant of a byte of CREDIT_INIT: 0 means 256. -/
def creditInit (w : W32) (k : Nat) : Nat := orDefault (w.toNat / 256 ^ k % 256) 256

/-- Send this hub's CONFIG: HUB_UID, tick 625,000 fs, credits 32, 64, 512 and 1,024, and
CAPS 0, which the spec states for the Plait link only (R395, R416, R952). DESIGN CHOICE, log entry 84. -/
def sendConfig (l : Nat) (s : State) : State :=
  sendCtl l 3 (b2n (s.lnk l).cfgSeen)
    (leBytes 8 (s.id.uid.toNat % 2 ^ 64) ++ leBytes 2 0 ++ leBytes 2 0 ++ leBytes 4 625000 ++ [32, 64, 0, 0] ++
      leBytes 4 0) s

/-- A link enters CONFIG. -/
def enterConfig (l : Nat) (s : State) : State :=
  s |> modLnk l (fun x => { x with link := .config, since := s.t, cfgSeen := false, cfgPeerSeen := false }) |> sendConfig l

/-- A link enters TIMESYNC with the peer's credits; grants above 256 go on in TIMESYNC (R395, R1094). -/
def enterTimesync (l : Nat) (body : ConfigBody) (s : State) : State :=
  let tx (c : TxChan) (k : Nat) : TxChan := { c with credits := creditInit body.creditInit k, creditsSeen := 0 }
  let rx (k : Nat) : RxChan := { RxChan.init with grantLeft := k }
  s |> modLnk l (fun x =>
        { x with link := .timesync, since := s.t, exchDone := 0, exchanges := [], tx0 := tx x.tx0 0, tx1 := tx x.tx1 1,
                 tx2 := tx x.tx2 2, rx0 := rx 0, rx1 := rx 0, rx2 := rx 256, rx3 := rx (if l = 8 then 0 else 768) })
    |> startExchange l

/-- A die's CONFIG is bad (R417). -/
def badConfig (b : ConfigBody) : Bool :=
  decide (b.tickFs.toNat < 250) || decide (10000000 < b.tickFs.toNat) || decide (creditInit b.creditInit 0 < 8) ||
    decide (creditInit b.creditInit 1 < 16) || decide (creditInit b.creditInit 2 < 129) || !b.caps.getLsbD 1

/-- A die's CONFIG, good or bad, with another UID than the last one seen sets NEW_DIE (R430), and nothing is known of the
new die's HOOP_CTRL (R525). -/
def noteUid (n : Nat) (uid : W64) (s : State) : State :=
  modPort n (fun x =>
    if x.lastUid == some uid then x
    else { x with newDie := true, newDieSet := x.newDieSet.add s.ctlCycle 0x100, uidNew := true, lastUid := some uid,
                  stakes := x.stakes.map fun e => (e.1, { e.2 with hoopEn := none, hoopAbrupt := none, wrote := false }) }) s

/-- Record what a die's CONFIG says (R437). One that R417 rejects leaves these registers as they were, and a UNIT_COUNT above
4,096 counts as 4,096. DESIGN CHOICE, log entry 84. -/
def notePeer (n : Nat) (b : ConfigBody) (s : State) : State :=
  modPort n (fun x =>
    { x with peerUnits := BitVec.ofNat 13 (min 4096 b.unitCount.toNat), peerCaps := b.caps.setWidth 3, uid := b.uid,
             tickFs := b.tickFs, lostEvents := b.lostEvents }) s

/-- A CONFIG arrives. In CONFIG each end sends one in every slot (R416): this hub answers every one that it takes, the last
one with PEER_SEEN. DEDUCED, log entry 27. -/
def takeConfig (l : Nat) (peerSeen : Bool) (b : ConfigBody) (s : State) : State :=
  if !((s.lnk l).link == .config) then s
  else if l < 8 && badConfig b then s |> noteUid l b.uid |> linkDown l 3 true
  else
    let s1 := if l < 8 then s |> noteUid l b.uid |> notePeer l b else s
    let s2 := s1 |> modLnk l (fun x => { x with cfgSeen := true, cfgPeerSeen := x.cfgPeerSeen || peerSeen }) |> sendConfig l
    if peerSeen then enterTimesync l b s2 else s2

/-! ### SYNC and ALIGN -/

/-- The lanes are aligned: a training link enters CONFIG; a retraining one sends RESUME, and the next sequenced flit has the
number that it names (R413, R424). -/
def aligned (l : Nat) (s : State) : State :=
  if (s.lnk l).link == .retrain then
    s |> modLnk l (fun x => { x with resumed := true, rxSeq := x.lastAccepted + 1, discarding := false })
      |> sendCtl l 6 0 (leBytes 2 ((s.lnk l).lastAccepted + 1).toNat)
  else enterConfig l s

/-- Every lane in use has answered TS2: both lanes are aligned next, one lane needs no ALIGN (R413). -/
def synced (l : Nat) (s : State) : State :=
  if s.laneMode l = 0 then
    (if (s.lnk l).link == .retrain then s else modLnk l (fun x => { x with link := .align, since := s.t, alignSeen := 0 }) s)
  else aligned l s

/-- A TS1 or TS2 arrives on a lane (R415, R952): a valid one has VERSION 1 and agrees in ROLE, LANE and LANE_MODE. -/
def takeTs (l lane : Nat) (ts2 : Bool) (role laneNo mode version : Byte) (s : State) : State :=
  let x := s.lnk l
  let use := lanesOf (s.laneMode l)
  if !(x.link == .sync || (x.link == .retrain && !x.resumed && x.tsSeen != use)) || version != 1 || !use.getLsbD lane then s
  else if role.toNat = s.peerRole l ∧ laneNo.toNat = lane ∧ mode.toNat = s.laneMode l then
    if ts2 then
      let seen := x.tsSeen ||| (1#2 <<< lane)
      let s1 := modLnk l (fun y => { y with tsSeen := seen }) s
      if seen == use then synced l s1 else s1
    else s
  else modLnk l (fun y => { y with tsBad := y.tsBad ||| (1#2 <<< lane) }) s

/-- An ALIGN block arrives on a lane; one on each lane deskews them. -/
def takeAlign (l lane : Nat) (s : State) : State :=
  let x := s.lnk l
  if x.link == .align || (x.link == .retrain && s.laneMode l == 0 && !x.resumed && x.tsSeen == 3) then
    let seen := x.alignSeen ||| (1#2 <<< lane)
    let s1 := modLnk l (fun y => { y with alignSeen := seen }) s
    if seen == 3 then aligned l s1 else s1
  else s

/-! ### The rows of training -/

/-- BLOCK_LOCK (R1091): every lane of the mode has block lock, DETECT ends. -/
def execBlockLock (link : LinkNo) (lanes : BitVec 2) (s : State) : Host.Outcome State Fault Refusal :=
  let l := link.val
  let x := s.lnk l
  let lock := x.lock ||| lanes
  let use := lanesOf (s.laneMode l)
  if x.link == .detect && (lock &&& use) == use then
    done (modLnk l (fun y => { y with lock := lock, link := .sync, since := s.t, tsSeen := 0, tsBad := 0 }) s)
  else if x.link == .detect || x.link.trains then done (modLnk l (fun y => { y with lock := lock }) s)
  else done s

/-- TS_BLOCK_RECEIVE (R415). -/
def execTsBlockReceive (link : LinkNo) (lane : Fin 2) (ts2 : Bool) (role laneNo mode version : Byte) (s : State) :
    Host.Outcome State Fault Refusal :=
  done (takeTs link.val lane.val ts2 role laneNo mode version s)

/-- ALIGN_BLOCK_RECEIVE (R413). -/
def execAlignBlockReceive (link : LinkNo) (lane : Fin 2) (s : State) : Host.Outcome State Fault Refusal :=
  done (takeAlign link.val lane.val s)

/-- LOCK_LOSS (R424): a lane in use loses block lock; a link in ACTIVE retrains. -/
def execLockLoss (link : LinkNo) (lane : Fin 2) (s : State) : Host.Outcome State Fault Refusal :=
  let l := link.val
  let s1 := modLnk l (fun x => { x with lock := x.lock &&& ~~~(1#2 <<< lane.val) }) s
  done (if (lanesOf (s.laneMode l)).getLsbD lane.val then startRetrain l s1 else s1)

/-- Time limits of the training states in µs (R413). -/
def LinkState.limitUs : LinkState → Option Nat
  | .sync => some 100
  | .align => some 20
  | .config => some 50
  | .timesync => some 50
  | .retrain => some 125
  | _ => none

/-- DOWN_CAUSE of a training state that exceeds its limit (R414, R437). -/
def Lnk.timeoutCause (x : Lnk) : Nat :=
  if x.link == .retrain then 1 else if x.link == .sync && x.tsBad != 0 then 2 else 4

/-- TRAIN_TIMEOUT (R414). -/
def execTrainTimeout (link : LinkNo) (s : State) : Host.Outcome State Fault Refusal :=
  let x := s.lnk link.val
  match x.link.limitUs with
  | some us => if s.after x.since us then done (linkDown link.val x.timeoutCause true s) else done s
  | none => done s

/-- DOWN_PERIOD_END (R413): after 1 ms, and once the PLL is locked (R96), the link starts again. -/
def execDownPeriodEnd (link : LinkNo) (s : State) : Host.Outcome State Fault Refusal :=
  let l := link.val
  let x := s.lnk l
  if x.link == .down && s.after x.since 1000 && s.pllLocked l then
    done (if l = 8 then enterDetect 8 s else s |> startLink l |> bootAdvance)
  else done s

/-- CONFIG (R416). -/
def execConfig (link : LinkNo) (hdr : CtlHdr) (peerSeen : Bool) (body : ConfigBody) (s : State) :
    Host.Outcome State Fault Refusal :=
  done (s |> takeHdr link.val hdr |> takeConfig link.val peerSeen body)

/-- RETRAIN (R424, R437): written by a permitted port manager in ACTIVE. -/
def execRetrain (by_ : HostPort) (port : Port) (s : State) : Host.Outcome State Fault Refusal :=
  let f := 64 + by_.val
  done (hostPut f (fun t => if t.isArbiterPm f then startRetrain port.val t else t) s)

/-- FORCE_DOWN is written with 1 (R413, R437). -/
def forceDown (n : Nat) (s : State) : State := if (s.port n).lk.link.live then portDown n 7 false s else s

/-- FORCE_DOWN. -/
def execForceDown (by_ : HostPort) (port : Port) (s : State) : Host.Outcome State Fault Refusal :=
  let f := 64 + by_.val
  done (hostPut f (fun t => if t.isArbiterPm f then forceDown port.val t else t) s)

/-! ### Time exchanges -/

/-- Exchanges run on the link: on a port in ACTIVE; on the Plait link while paired, and after a release (R741, R979). -/
def State.exchanges (s : State) (l : Nat) : Bool :=
  (s.lnk l).link == .active && (l != 8 || s.plait.pair == .paired || (s.plait.pair == .unpaired && s.plait.keepsTime))

/-- TIMESYNC_TIMER (R419): every 100 µs in ACTIVE. -/
def execTimesyncTimer (link : LinkNo) (s : State) : Host.Outcome State Fault Refusal :=
  let l := link.val
  if s.exchanges l && s.after (s.lnk l).lastExchange 100 then done (startExchange l s) else done s

/-- TIMESYNC_RSP: the answer to the exchange outstanding; T4 is now (R418, R419). -/
def takeTimesyncRsp (l : Nat) (exch : Byte) (t1 t2 t3 : W64) (s : State) : State :=
  let x := s.lnk l
  match x.exchOut with
  | some (no, a) =>
    if (x.link == .timesync || x.link == .active) && no == exch && a == t1 then
      let tick := if l = 8 then 625000 else (s.port l).tickFs.toNat
      exchangeDone l (mkExchange tick t1.toNat t2.toNat t3.toNat s.t) s
    else s
  | none => s

/-- TIMESYNC_RSP (R419). -/
def execTimesyncRsp (link : LinkNo) (hdr : CtlHdr) (exch : Byte) (t1 t2 t3 : W64) (s : State) :
    Host.Outcome State Fault Refusal :=
  done (s |> takeHdr link.val hdr |> takeTimesyncRsp link.val exch t1 t2 t3)

/-- TIMESYNC_EXCHANGE_TIMEOUT (R420): an exchange without an answer for 4 µs is discarded; TIMESYNC starts another. -/
def execTimesyncExchangeTimeout (link : LinkNo) (s : State) : Host.Outcome State Fault Refusal :=
  let l := link.val
  let x := s.lnk l
  if x.exchOut.isSome && s.after x.lastExchange 4 then
    let s1 := modLnk l (fun y => { y with exchOut := none }) s
    done (if x.link == .timesync then startExchange l s1 else s1)
  else done s

/-- PLAIT_TIMESYNC_REQ (R959): answered in own hub ticks. -/
def execPlaitTimesyncReq (hdr : CtlHdr) (exch : Byte) (t1 : W64) (s : State) : Host.Outcome State Fault Refusal :=
  let s1 := takeHdr 8 hdr s
  let x := s1.plait.lk.link
  if x == .timesync || x == .active then
    done (sendCtl 8 5 exch.toNat (leBytes 8 t1.toNat ++ leBytes 8 s.t ++ leBytes 8 s.t) s1)
  else done s1

/-! ### Link control flits of the replay -/

/-- A NAK arrives: it acknowledges what it names, and everything after is sent again (R409). -/
def takeNak (l : Nat) (seq : BitVec 12) (s : State) : State :=
  if (s.lnk l).sequenced then
    s |> modLnk l (fun x => x.acked seq s.t) |> replay l (seq + 1)
  else s

/-- NAK (R409): what it asks for goes out before any new flit. -/
def execNak (link : LinkNo) (hdr : CtlHdr) (seq : BitVec 12) (s : State) : Host.Outcome State Fault Refusal :=
  done (s |> readHdr link.val hdr |> takeNak link.val seq |> pump link.val |> noteRuns)

/-- REPLAY_START arrives: discarding ends, the next sequenced flit has the number it names (R407). -/
def takeReplayStart (l : Nat) (first : BitVec 12) (s : State) : State :=
  modLnk l (fun x => { x with discarding := false, rxSeq := first }) s

/-- REPLAY_START (R407). -/
def execReplayStart (link : LinkNo) (hdr : CtlHdr) (first : BitVec 12) (s : State) : Host.Outcome State Fault Refusal :=
  done (s |> takeHdr link.val hdr |> takeReplayStart link.val first)

/-- ACK_TIMEOUT_REPLAY (R410): ACK_SEQ has stood for 2 µs with flits unacknowledged. -/
def execAckTimeoutReplay (link : LinkNo) (s : State) : Host.Outcome State Fault Refusal :=
  let l := link.val
  let x := s.lnk l
  match x.unacked with
  | e :: _ => if x.link == .active && s.after x.ackAt 2 then done (replay l e.1 s) else done s
  | [] => done s

/-- LINK_CONTROL_IDLE (R404). -/
def execLinkControlIdle (link : LinkNo) (hdr : CtlHdr) (s : State) : Host.Outcome State Fault Refusal :=
  done (takeHdr link.val hdr s)

/-- RESUME arrives in a retrain that has sent its own: the link is ACTIVE again, and every flit from the number that
RESUME names is sent again; entering ACTIVE writes a TIMESYNC record (R424, R739). DEDUCED, log entry 62. -/
def takeResume (l : Nat) (next : BitVec 12) (s : State) : State :=
  let x := s.lnk l
  if x.link == .retrain && x.resumed then
    let back (y : Lnk) : Lnk :=
      { y.acked (next - 1) s.t with link := .active, since := s.t, ackAt := s.t, replayCount := 0 }
    let rec_ := l != 8 || (s.plait.pair == .paired && !x.recResumed)
    s |> modLnk l back |> (fun t => if rec_ then timesyncRec l true t else t) |> resend l next |> pump l |> noteRuns
  else s

/-- LINK_RESUME_FLIT (R424). -/
def execLinkResumeFlit (link : LinkNo) (hdr : CtlHdr) (next : BitVec 12) (s : State) : Host.Outcome State Fault Refusal :=
  done (s |> takeHdr link.val hdr |> takeResume link.val next)

/-! ### Detach (R431) -/

/-- DETACH_REQ arrives on a port in ACTIVE. -/
def takeDetach (n : Nat) (s : State) : State :=
  if (s.port n).lk.link == .active then modPort n (fun x => { x with detachAt := x.detachAt <|> some s.t }) s else s

/-- DETACH_REQ (R431). -/
def execDetachReq (port : Port) (hdr : CtlHdr) (s : State) : Host.Outcome State Fault Refusal :=
  done (s |> takeHdr port.val hdr |> takeDetach port.val)

/-- No request of the port is outstanding. -/
def Lnk.quiet (x : Lnk) : Bool := [x.tx0, x.tx1, x.tx2].all fun c => c.outst.isEmpty && c.cur.isEmpty

/-- DETACH_ACK_SEND (R431): nothing is outstanding, or 1 ms has passed since DETACH_REQ. -/
def execDetachAckSend (port : Port) (s : State) : Host.Outcome State Fault Refusal :=
  let n := port.val
  match (s.port n).detachAt with
  | some t =>
    if (s.port n).lk.quiet || s.after t 1000 then done (s |> sendCtl n 8 0 [] |> portDown n 5 false) else done s
  | none => done s

/-! ### The Plait link -/

/-- PLAIT_LINK_DOWN (R980): the Plait link enters DOWN, after a retrain that failed. -/
def execPlaitLinkDown (s : State) : Host.Outcome State Fault Refusal :=
  if s.plait.lk.link == .active || s.plait.lk.link == .retrain then done (plaitDown 1 true s) else done s

end Sys2Proof.Machine
end

