-- ==== Sys2Proof/Machine/CounterCmds.lean ====
section
/-!
DEFINITION. COUNTER_CONFIG, COUNTER_LATCH and the latch points that time brings (spec/14).
-/

namespace Sys2Proof.Machine

open Sys2Proof

/-! ### COUNTER_CONFIG (R764 to R768) -/

/-- A hub event code of R752. -/
def hubCode (v : Nat) : Bool := decide (1 ≤ v) && decide (v ≤ 0x0D)

/-- A selection is rejected (R749). -/
def badSel (v : W64) : Bool :=
  decide (2 < selSrc v) || (selSrc v == 2 && !hubCode (selWhat v)) ||
    (selSrc v == 1 && (selWhat v % 128 == 0 || selFormats v == 0)) ||
    (decide (0x8000 ≤ selUnit v) && selUnit v != 0xFFFF)

/-- The selections of a COUNTER_CONFIG: from the buffer, or of the active weft with WEFT_RESTORE. -/
def State.newSels (s : State) (c : Cmd) (data : List Byte) : List (Nat × W64) :=
  (List.range (c.length / 8)).map fun j =>
    let k := c.param0 % 64 + j
    (k, if bit (c.f 52 1) 1 then weftSel (s.part c.partition).active.weft k else BitVec.ofNat 64 (field data (8 * j) 8))

/-- COUNTER_CONFIG (R766): the reprogram becomes pending; with LATCH_NOW a HOST latch point is asked for. -/
def execCounterConfig (fn : Fn) (tag : W32) (data : List Byte) (s : State) : Host.Outcome State Fault Refusal :=
  let f := fn.val
  done (startCmd 0x50 f tag (fun c t =>
    let p := c.partition
    let sels := t.newSels c data
    match firstFail
        [(!t.owns f p, stNotOwner), (t.barred c, stPartitionReweaving), ((t.part p).cfg.isSome, stBusy)] with
    | some st => fail f tag st t
    | none =>
      let restore := bit (c.f 52 1) 1
      let t := if restore then t else bumpAlways (44 + fnPort f) c.length t
      if !restore && sels.any (fun e => badSel e.2) then fail f tag stBadOpcode t
      else
      let wait := orDefault (c.f 54 2) 100 * Config.ticksPerMs
      let cfg : PendingCfg := { fn := f, tag := tag, sels := sels, latchNow := bit (c.f 52 1) 0, deadline := c.fetched + wait }
      let t1 := modPart p (fun x => { x with cfg := some cfg }) t
      if bit (c.f 52 1) 0 then
        requestLatch p { due := 0, lkind := 2, fn := f, tag := tag, mask := 0, record := true, forConfig := true } t1
      else t1) s)

/-- COUNTER_CONFIG_WAIT_EXPIRY (R766): WAIT_MS after the fetch a FORCED latch point applies the reprogram. -/
def execCounterConfigWaitExpiry (part : Part) (s : State) : Host.Outcome State Fault Refusal :=
  let p := part.val
  match (s.part p).cfg with
  | some c =>
    let asked := (s.part p).deferred.any fun d => d.forConfig
    if !c.latchNow && decide (c.deadline ≤ s.t) && !asked then
      done (requestLatch p { due := 0, lkind := 4, fn := c.fn, tag := c.tag, mask := 0, record := true, forConfig := true } s)
    else done s
  | none => done s

/-- DEFERRED_LATCH_POINT (R762): the first waiting HOST or FORCED latch point is taken once the spacing allows it. -/
def execDeferredLatchPoint (part : Part) (s : State) : Host.Outcome State Fault Refusal :=
  let p := part.val
  match (s.part p).deferred with
  | d :: rest =>
    if decide (d.due ≤ s.t) && s.latchAllowed p then
      done (s |> modPart p (fun x => { x with deferred := rest }) |> deferredTake p d)
    else done s
  | [] => done s

/-! ### COUNTER_LATCH (R769 to R775) -/

/-- A function may read a partition's profiling counters (R775). -/
def State.readsCounters (s : State) (f p : Nat) : Bool :=
  s.openLab || (if isPf f then s.inTest else s.reads f p)

/-- A function may read the always-on light set (R775). -/
def State.readsAlways (s : State) (f : Nat) : Bool := s.seesGlobal f

/-- A function may read the ring high-water word of another (R746, R775). -/
def State.readsHwm (s : State) (f g : Nat) : Bool :=
  f == g || s.openLab || (s.seesGlobal f && fnPort f == fnPort g)

/-- The always-on block of MODE 1 (R772). -/
def State.alwaysBlock (s : State) (f : Nat) : List Byte :=
  leBytes 8 s.t ++ zeros 24 ++
    (List.range 64).flatMap (fun i => leBytes 8 (if s.readsAlways f then (Tab.getD s.always i (0 : W64)).toNat else 0)) ++
    (List.range 68).flatMap fun g => leBytes 8 (if s.readsHwm f g then (s.fn g).hwm.toNat else 0)

/-- COUNTER_LATCH (R771, R772). -/
def execCounterLatch (fn : Fn) (tag : W32) (s : State) : Host.Outcome State Fault Refusal :=
  let f := fn.val
  done (startCmd 0x51 f tag (fun c t =>
    let p := c.partition
    if c.f 52 1 = 1 then
      if !t.readsAlways f then fail f tag stNotPermitted t
      else if c.work.dmaError then fail f tag stBadAddress t
      else t |> bufWrite f tag 0 (t.alwaysBlock f) |> complete f tag { r0 := 132, r1 := t.t % 2 ^ 32 }
    else if !t.readsCounters f p then fail f tag (if isPf f then stNotPermitted else stNotOwner) t
    else
      requestLatch p { due := 0, lkind := 2, fn := f, tag := tag, mask := BitVec.ofNat 64 (c.f 20 8),
                       record := bit (c.f 53 1) 0, forConfig := false } t) s)

end Sys2Proof.Machine
end

