-- ==== Sys2Proof/Machine/Lifecycle.lean ====
section
/-!
DEFINITION. The lifecycle: fuse codes, the vote, the burning of a transition or of a key hash, LIFECYCLE_ADVANCE and the
end of one burn attempt (spec/03).
-/

namespace Sys2Proof.Machine

open Sys2Proof

/-! ### Fuses (R139 to R142, R164) -/

/-- One fuse bit, as it senses. -/
def Fuses.bit (f : Fuses) : FuseBit → Bool
  | .a n => f.a.getLsbD n
  | .b n => f.b.getLsbD n
  | .c n => f.c.getLsbD n
  | .journal n => f.journal.getLsbD n
  | .imgKey n => f.imgKey.getLsbD n
  | .tapKey n => f.tapKey.getLsbD n
  | .imgLocked => f.imgLocked
  | .tapLocked => f.tapLocked

/-- Burn one fuse bit: it reads 1 from now on. -/
def Fuses.burn (f : Fuses) : FuseBit → Fuses
  | .a n => { f with a := f.a ||| (1#24 <<< n.val) }
  | .b n => { f with b := f.b ||| (1#24 <<< n.val) }
  | .c n => { f with c := f.c ||| (1#24 <<< n.val) }
  | .journal n => { f with journal := f.journal ||| (1#8 <<< n.val) }
  | .imgKey n => { f with imgKey := f.imgKey ||| (1#384 <<< n.val) }
  | .tapKey n => { f with tapKey := f.tapKey ||| (1#384 <<< n.val) }
  | .imgLocked => { f with imgLocked := true }
  | .tapLocked => { f with tapLocked := true }

/-- The 24-bit fuse code of a state (R140). -/
def Lifecycle.fuse : Lifecycle → BitVec 24
  | .blank => 0x000000
  | .test => 0x0000FF
  | .production => 0x00FFFF
  | .endOfLife => 0xFFFFFF

/-- The state whose code is given. -/
def lifecycleOf (v : BitVec 24) : Option Lifecycle :=
  [Lifecycle.blank, .test, .production, .endOfLife].find? fun l => l.fuse == v

/-- The targets of a transition, in ascending order. -/
def targets : List Lifecycle := [.test, .production, .endOfLife]

/-- The journal's INTENT and DONE bit of a target (R141). -/
def Lifecycle.intent (l : Lifecycle) : Fin 8 := match l with | .blank | .test => 0 | .production => 2 | .endOfLife => 4
def Lifecycle.doneBit (l : Lifecycle) : Fin 8 := match l with | .blank | .test => 1 | .production => 3 | .endOfLife => 5

/-- The journal is inconsistent (R142). -/
def Fuses.inconsistent (f : Fuses) : Bool :=
  f.bit (.journal 6) || f.bit (.journal 7) ||
    targets.any (fun t => f.bit (.journal t.doneBit) && !f.bit (.journal t.intent)) ||
    (f.bit (.journal 2) && !f.bit (.journal 1))

/-- A transition is pending: INTENT reads 1 and DONE 0. -/
def Fuses.pendingTo (f : Fuses) (t : Lifecycle) : Bool := f.bit (.journal t.intent) && !f.bit (.journal t.doneBit)

/-- The JOURNAL phase resumes a transition (R144). -/
def Fuses.resumes (f : Fuses) : Bool := !f.inconsistent && targets.any f.pendingTo

/-- The bits that a transition still burns, in the order of R153. -/
def Fuses.burnList (f : Fuses) (t : Lifecycle) : List FuseBit :=
  let code : List (Fin 24) := (List.finRange 24).filter fun n => t.fuse.getLsbD n.val
  ([FuseBit.journal t.intent] ++ code.map FuseBit.a ++ code.map FuseBit.b ++ code.map FuseBit.c ++
    [FuseBit.journal t.doneBit]).filter fun b => !f.bit b

/-- Fewer than two copies read the code of a target. -/
def Fuses.fewCopies (f : Fuses) (t : Lifecycle) : Bool :=
  decide (b2n (f.a == t.fuse) + b2n (f.b == t.fuse) + b2n (f.c == t.fuse) < 2)

/-- The vote of R144 on the copies: the state and FALLBACK. -/
def Fuses.vote (f : Fuses) : Lifecycle × Bool :=
  let v := if f.a == f.b || f.a == f.c then some f.a else if f.b == f.c then some f.b else none
  match v.bind lifecycleOf with
  | none => (.endOfLife, true)
  | some l =>
    if targets.any fun t => f.bit (.journal t.doneBit) && decide (l.code < t.code) then (.endOfLife, true) else (l, false)

/-- Burn a list of bits, but for those that do not take. -/
def Fuses.burnAll (f : Fuses) (stuck : List FuseBit) (l : List FuseBit) : Fuses :=
  l.foldl (fun g b => if stuck.contains b then g else g.burn b) f

/-- A transition burned to its end in one go, with its escalation (R153, R155). -/
def Fuses.transition (f : Fuses) (stuck : List FuseBit) (t : Lifecycle) : Fuses :=
  let g := f.burnAll stuck (f.burnList t)
  if g.fewCopies t && t != .endOfLife then g.burnAll stuck (g.burnList .endOfLife) else g

/-- The JOURNAL phase resumes every pending transition, in ascending order. -/
def Fuses.resume (f : Fuses) (stuck : List FuseBit) : Fuses :=
  if f.inconsistent then f
  else targets.foldl (fun g t => if g.pendingTo t then g.transition stuck t else g) f

/-- The decision at start-up: the state and FALLBACK. The journal is tested as first sensed; the copies are voted after the
pending transitions (R144). -/
def Fuses.stateAtStart (f : Fuses) (stuck : List FuseBit) : Lifecycle × Bool :=
  if f.inconsistent then (.endOfLife, true) else (f.resume stuck).vote

/-- The state that the fuses vote now: a pending transition counts as completed, an escalated one as End of life
(R159). -/
def State.voted (s : State) : Lifecycle :=
  if (s.lcy.burn.map fun b => b.escalated).getD false then .endOfLife else (s.lcy.fuses.stateAtStart []).1

/-! ### Burning -/

/-- The bits that a key-hash burn takes: those still 0, then LOCKED (R165). -/
def Fuses.keyBurn (f : Fuses) (tapKey : Bool) (value : BitVec 384) : List FuseBit :=
  let bits : List (Fin 384) := (List.finRange 384).filter fun n =>
    value.getLsbD n.val && !(if tapKey then f.tapKey else f.imgKey).getLsbD n.val
  if tapKey then bits.map FuseBit.tapKey ++ [FuseBit.tapLocked] else bits.map FuseBit.imgKey ++ [FuseBit.imgLocked]

/-- A key-hash burn is refused: LOCKED, or a bit that would have to go back to 0 (R165). -/
def Fuses.keyRefused (f : Fuses) (tapKey : Bool) (value : BitVec 384) : Bool :=
  (if tapKey then f.tapLocked else f.imgLocked) || (if tapKey then f.tapKey else f.imgKey) &&& ~~~value != 0

/-- Begin a burn. -/
def startBurn (b : Burn) (s : State) : State := { s with lcy := { s.lcy with burn := some b } }

/-- A burn that is asked for starts, or waits for the end of the one in progress; a key-hash burn that R165 refuses when its
turn comes burns nothing. DESIGN CHOICE, log entry 75. -/
def askBurn (b : Burn) (s : State) : State :=
  if s.lcy.burn.isSome then { s with lcy := { s.lcy with waitingBurns := s.lcy.waitingBurns ++ [b] } }
  else
    match b.target, b.key with
    | some t, _ => startBurn { b with todo := s.lcy.fuses.burnList t } s
    | none, some (k, v) =>
      if s.lcy.fuses.keyRefused k v then s else startBurn { b with todo := s.lcy.fuses.keyBurn k v } s
    | none, none => s

/-- A burn as it is asked for. -/
def Burn.ask (target : Option Lifecycle) (key : Option (Bool × BitVec 384)) (by_ : BurnFor) : Burn :=
  { target := target, key := key, todo := [], attempts := 0, burned := 0, escalated := false, by_ := by_ }

/-- Result word 0 of R152. -/
def State.lcyWord (s : State) (t : Lifecycle) (escalated already : Bool) : Nat :=
  s.voted.code + 4 * b2n (s.lcy.fuses.a == t.fuse) + 8 * b2n (s.lcy.fuses.b == t.fuse) +
    16 * b2n (s.lcy.fuses.c == t.fuse) + 32 * b2n escalated + 64 * b2n already

/-- A burn has ended: the command that asked for it completes, or the TAP holds its result (R152, R179), in place of that of
a refused LCY_ADVANCE that came meanwhile. DESIGN CHOICE, log entry 74. -/
def burnResult (b : Burn) (s : State) : State :=
  let s1 := { s with lcy := { s.lcy with burn := none } }
  match b.target, b.by_ with
  | some t, .command f tag => complete f tag { r0 := s1.lcyWord t b.escalated false, r1 := b.burned } s1
  | some t, .tap =>
    { s1 with tap := { s1.tap with lcyResult := (stOk, BitVec.ofNat 32 (s1.lcyWord t b.escalated false),
                                                 BitVec.ofNat 32 b.burned) } }
  | none, _ => s1

/-- A burn has ended; the next one that waits starts. -/
def burnDone (b : Burn) (s : State) : State :=
  let s1 := burnResult b s
  each s1.lcy.waitingBurns askBurn { s1 with lcy := { s1.lcy with waitingBurns := [] } }

/-- Go on to the next bit of a burn. Before DONE the copies are verified, and a transition that reached fewer than two
goes on to End of life (R155); LOCKED is burned only behind a field that took every bit (R165). -/
def nextBit (b : Burn) (left : Bool) (s : State) : State :=
  match b.todo with
  | [] => s
  | x :: rest =>
    let isKey := match x with | .imgKey _ | .tapKey _ => true | _ => false
    let rest := if left && isKey then rest.filter fun y => y != .imgLocked && y != .tapLocked else rest
    let atDone : Bool := match rest, b.target with
      | [y], some t => y == FuseBit.journal t.doneBit && t != .endOfLife && !b.escalated && s.lcy.fuses.fewCopies t
      | _, _ => false
    let todo := if atDone then rest ++ s.lcy.fuses.burnList .endOfLife else rest
    let b1 := { b with todo := todo, attempts := 0, burned := b.burned + b2n (!left), escalated := b.escalated || atDone }
    if todo.isEmpty then burnDone b1 s else startBurn b1 s

/-- One program pulse ends and is verified: the bit took, or it is tried again, up to three times (R154, R188). -/
def burnAttempt (b : Burn) (took : Bool) (s : State) : State :=
  match b.todo with
  | [] => burnDone b s
  | x :: _ =>
    if took then
      let fuses := s.lcy.fuses.burn x
      nextBit b false { s with lcy := { s.lcy with fuses := fuses, sensed := fuses } }
    else if b.attempts + 1 < 3 then startBurn { b with attempts := b.attempts + 1 } s
    else nextBit b true s

/-! ### Requests (R146 to R152) -/

/-- The TARGET codes of R149. -/
def targetOf (v : Nat) : Option Lifecycle :=
  if v = 1 then some .test else if v = 2 then some .production else if v = 3 then some .endOfLife else none

/-- A transition exists (R146). -/
def transitionExists (a b : Lifecycle) : Bool := b == .endOfLife && a != .endOfLife || b.code == a.code + 1

/-- A port manager may not ask for a transition (R147): no function may from Blank, only an arbiter port's from
Production. -/
def State.lcyDenied (s : State) (f : Nat) (t : Lifecycle) : Bool :=
  !isPf f || (transitionExists s.voted t &&
    (s.voted == .blank || (s.voted == .production && !s.arbiter (f - 64))))

/-- A transition is being burned, or waits for a key-hash burn to end (R150). -/
def State.transiting (s : State) : Bool := (s.lcy.burn.toList ++ s.lcy.waitingBurns).any fun b => b.target.isSome

/-- The checks of R150 on the target, from the BUSY row on; none where the transition may be burned. A target already
voted passes (R151). -/
def State.targetCheck (s : State) (t : Lifecycle) : Option Byte :=
  let noKeys := !(s.lcy.fuses.imgLocked && s.lcy.fuses.tapLocked)
  if s.transiting then some stBusy
  else if decide (t.code < s.voted.code) then some stLifecycleForbids
  else if t == s.voted then none
  else if !transitionExists s.voted t then some stLifecycleForbids
  else if t == .production && noKeys then some stLifecycleForbids
  else none

/-- CONFIRM of R149. -/
abbrev lcyConfirm : Nat := 0x4C435941

/-- The checks of R150 for a LIFECYCLE_ADVANCE, up to READY. -/
def State.lcyFirst (s : State) (f : Nat) (c : Cmd) : Option Byte :=
  match targetOf (c.f 52 1) with
  | none => if !isPf f then some stNotPermitted else some stBadOpcode
  | some t =>
    if s.lcyDenied f t then some stNotPermitted
    else if c.tag == 0 then some stBadOpcode
    else if c.f 56 4 != lcyConfirm then some stNotPermitted
    else if s.boot.phase != .ready then some stBusy
    else none

/-- LIFECYCLE_ADVANCE: the checks, then the burn (R150 to R153, R157). -/
def execLifecycleAdvance (fn : Fn) (tag : W32) (s : State) : Host.Outcome State Fault Refusal :=
  done (startCmd 0xB0 fn tag (fun c t =>
    match (if t.err.stopped then some stBusy else none) <|> t.lcyFirst fn c with
    | some st => fail fn tag st t
    | none =>
      let l := (targetOf (c.f 52 1)).getD .endOfLife
      match t.targetCheck l with
      | some st => fail fn tag st t
      | none =>
        if l == t.voted then complete fn tag { already := true, r0 := t.lcyWord l false true } t
        else
          askBurn (Burn.ask (some l) none (.command fn tag)) t) s)

end Sys2Proof.Machine
end

