-- ==== Sys2Proof/Machine/Osier.lean ====
section
/-!
DEFINITION. The commands of the Osier cores: an instruction word, the slice limit, waking, a failed host write, starting
and stopping runs (spec/15), and what the coder does with an answer (spec/18).
-/

namespace Sys2Proof.Machine

open Sys2Proof

/-- ENG cycles in the 100 µs of the slice limit, at 1.6 GHz (R82, R830). -/
abbrev sliceCycles : Nat := 160000

/-- Who a run's cycles count to (R350, R835). -/
def State.runPayer (s : State) (q : Run) : Option Nat :=
  if q.role = roleProgram then q.session else (s.part q.partition).owner

/-- Count the cycles of a word: the meter, and hub event 0x0D for a coding run (R350, R752, R835). -/
def countCycles (q : Run) (n : Nat) (s : State) : State :=
  let s1 := modMeters (s.runPayer q) (fun m => m.add 0 0 0 0 n) s
  if q.role = roleCoding then hubEvent q.partition 0x0D n s1 else s1

/-- Whether a run's posted predictions count (R838). -/
def Run.mayPredict (q : Run) : Bool := q.role == rolePred || (q.role == roleProgram && q.pred)

/-- A yield point that a run passes: its slice restarts, and the core goes to another ready run (R829, R830). DEDUCED, log
entry 55. -/
def yieldRun (q : Run) (wait : RunWait) (s : State) : State :=
  s |> modRun q.id (fun r => { r with heldFor := 0, wait := wait }) |> switchFrom q false

/-- What the control field of an executed word does: `q` is the run after the word. -/
def ctlEffect (q : Run) (e : LibEntry) (act : CtlAct) (s : State) : State :=
  match act with
  | .yield => yieldRun q .none s
  | .waitInput => yieldRun q (if e.inputKib ≠ 0 ∧ q.inHead = q.inTail then .input else .none) s
  | .sleep t => yieldRun q (if q.role = roleCoding ∨ t ≤ s.t then .none else .sleep (BitVec.ofNat 64 t)) s
  | .finish => endRun q runDone 0 s
  | .post bytes => programRec q 0 bytes s
  | .postPred score =>
    if q.mayPredict then s |> firedReport q.partition 3 q.index score |> fire q.partition 24 else s
  | _ => s

/-- A stalled coding run that has answered the last exchange posted ends the stall (R926). -/
def checkStall (p : Nat) (s : State) : State :=
  let c := (s.part p).coder
  match c.run.bind s.run with
  | some q =>
    if c.stalled && decide (c.exch.toNat ≤ q.inTail.toNat) then
      s |> modPart p (fun x => { x with coder := { x.coder with stalled := false } }) |> syncCoder p 7
    else s
  | none => s

/-- CYCLE has reached CYCLE_LIMIT (R825). -/
def checkLimit (id : W32) (s : State) : State :=
  match s.run id with
  | some q => if q.limit ≠ 0 ∧ q.limit.toNat ≤ q.cycle.toNat then endRun q runLimit 0 s else s
  | none => s

/-- The bytes that a word stored to the host window, as writes of the host port (R797). -/
def hostStores (q : Run) (l : List (Nat × List Byte)) (s : State) : State :=
  each l (fun x => hostWrite (((q.session.map (· / 16)).getD 0)) (q.bufAddr.toNat + x.1) x.2) s

/-- Put a run back after a word. -/
def putRun (q : Run) (s : State) : State := modRun q.id (fun _ => q) s

/-- What a word of run `q` does on its core once it has run. `hit`: it read a bad word of the core's own memory. -/
def coreRan (core cycles : Nat) (q : Run) (e : LibEntry) (hit : Bool) (o : WordEff) (s : State) : State :=
  let count (x : Run) : Run :=
    { x with cycle := x.cycle + BitVec.ofNat 64 cycles, heldFor := x.heldFor + cycles }
  let s2 := countCycles q cycles s
  match o with
  | .raised c =>
    let s3 :=
      if c ≠ exPoison then s2
      else if hit then raiseErr 3 5 core 0 q.id.toNat 2 s2
      else uncorrectableItem false 5 core q.id.toNat 2 s2
    endRun (count q) runException c s3
  | .ran x host act =>
    let y := count x
    s2 |> putRun y |> hostStores y host |> ctlEffect y e act |> checkLimit y.id |> checkStall y.partition

/-- The run after stores to its Creel-data segment: whole words get fresh ECC, and an injected error spoils the first of them
(R994, R1014). -/
def Run.stored (l : List (Nat × Nat)) (hit : Bool) (q : Run) : Run :=
  (l.foldl (fun x w => x.rewritten w.1 w.2 false) q).rewritten ((l.map Prod.fst).headD 0) 0 (hit && !l.isEmpty)

/-- What the word of run `q` does: a bad word of the Creel is met where the run fetches or reads it (R999). -/
def wordEff (poison : Nat) (q : Run) (e : LibEntry) (s : State) : WordEff :=
  let env : RunEnv := { now := s.t }
  let w := e.word (q.pc.toNat - imageBase)
  let bad := (poison == 1 && readsLocal q e env w) || (poison == 2 && readsCreel q e env w) || readsBad q e env w
  if poison == 3 || fetchesBad q e then .raised exPoison
  else
    match runWord q e env w bad [] with
    | .ran x host act => .ran (x.stored (creelStores q e env w) s.injectHit) host act
    | .raised c => .raised c

/-- The word has written to the Creel. -/
def creelWritten (o : WordEff) (q : Run) (e : LibEntry) (s : State) : State :=
  match o with
  | .ran .. => if (creelStores q e { now := s.t } (e.word (q.pc.toNat - imageBase))).isEmpty then s else spendCreel s
  | .raised _ => s

/-- A word of run `q`. -/
def runStep (core cycles poison : Nat) (q : Run) (e : LibEntry) (s : State) : State :=
  let hit := poison == 1 && readsLocal q e { now := s.t } (e.word (q.pc.toNat - imageBase))
  let o := wordEff poison q e s
  s |> creelWritten o q e |> (fun t => if poison == 4 then correctedWord false t else t) |> coreRan core cycles q e hit o

/-- One instruction word of an Osier core: of the run that holds it, else of the run that takes it. -/
def coreWord (core cycles poison : Nat) (s : State) : State :=
  match s.running core with
  | none => s
  | some r =>
    let s1 := takeCore core r.id s
    match s1.run r.id, s1.lib r.index with
    | some q, some e => runStep core cycles poison q e s1
    | _, _ => s1

/-- The Stake firmware stops at an uncorrectable word of its memory (R1002). -/
def stopFirmware (s : State) : State :=
  { s with err := { s.err with stopped := true } } |> raiseErr 4 4 0xFFFF 0 0 4

/-- OSIER_WORD: cores 0 to 15 are the Osier cores, 16 to 19 the Stake cores, of which the first runs the adaptor.
`poison`: 1, a word of the core's own memory that the instruction reads fails SECDED; 2, one of the Creel does; 3, the
instruction word itself does, which is then not executed (R882); 4, a word of the Creel that it reads or that holds it is
corrected (R995). `tdo`: the
bits that a scan shift captures. -/
def execOsierWord (core : CoreNo) (cycles : Nat) (poison : Fin 5) (tdo : List Bool) (s : State) :
    Host.Outcome State Fault Refusal :=
  if core.val < 16 then done (coreWord core cycles poison s)
  else if core.val = adaptorCore then done (adaptorWord stopFirmware cycles poison tdo s)
  else done s

/-- SLICE_LIMIT: a run that has held its core for 100 µs is switched if a ready run of the same or a higher class waits
(R830). -/
def execSliceLimit (core : CoreNo) (s : State) : Host.Outcome State Fault Refusal :=
  match (Tab.get? s.osier.holders core).bind s.run with
  | some q => if q.ready && decide (sliceCycles ≤ q.heldFor) then done (switchFrom q true s) else done s
  | none => done s

/-- SLEEP_WAKE: NOW has reached a sleeping run's time (R828). -/
def execSleepWake (run : W32) (s : State) : Host.Outcome State Fault Refusal :=
  done (modRun run (fun q => match q.wait with
    | .sleep t => if t.toNat ≤ s.t then q.wake s.t else q
    | _ => q) s)

/-- HOST_WRITE_ERROR: a host-window write ended in a PCIe error; the run ends at its next instruction boundary (R806). -/
def execHostWriteError (run : W32) (s : State) : Host.Outcome State Fault Refusal :=
  match s.run run with
  | some q => if q.hostOut then done (endRun q runException exHostWrite s) else done s
  | none => done s

/-! ### RUN_PROGRAM and STOP_PROGRAM -/

/-- The checks of R819. -/
def State.runCheck (s : State) (f : Nat) (c : Cmd) : Option Byte :=
  let p := c.partition
  let pred := bit (c.f 53 1) 1
  let e := s.lib (c.f 52 1)
  let kib := (e.map LibEntry.localKib).getD 0
  let space := (e.map fun x => x.runSpace roleProgram).getD 0
  firstFail
    [(!s.reads f p || (pred && !s.owns f p), stNotOwner),
     (match e with | some x => x.pkind != 0 || x.profile != 0 | none => true, stBadUnit),
     (decide (4 ≤ s.programRuns (some f)) || decide (64 ≤ s.programRuns none), stBusy),
     ((s.pickCore kib).isNone, stBusy),
     (decide (s.creelFree < space), stCreelFull)]

/-- RUN_PROGRAM (R817 to R821). -/
def execRunProgram (fn : Fn) (tag : W32) (s : State) : Host.Outcome State Fault Refusal :=
  done (startCmd 0x61 fn tag (fun c t =>
    match t.runCheck fn c with
    | some st => fail fn tag st t
    | none =>
      let a : RunReq :=
        { index := c.f 52 1, role := roleProgram, p := c.partition, session := some fn.val, hostOut := bit (c.f 53 1) 0,
          pred := bit (c.f 53 1) 1, limit := c.f 56 8, bufAddr := c.bufAddr, bufWindow := c.bufWindow,
          params := [c.param0, c.param1, c.param2] }
      match startRun a t with
      | some (q, t1) => complete fn tag { r0 := q.id.toNat, r1 := q.core } t1
      | none => fail fn tag stCreelFull t) s)

/-- STOP_PROGRAM: MODE 0 STOP, 1 WAIT, 2 QUERY (R822 to R826). -/
def execStopProgram (fn : Fn) (tag : W32) (s : State) : Host.Outcome State Fault Refusal :=
  done (startCmd 0x62 fn tag (fun c t =>
    let id : W32 := BitVec.ofNat 32 (c.f 56 4)
    let mode := c.f 52 1
    let live := t.run id
    let past := t.osier.ended.find? fun x => x.id == id
    let who := (live.map fun q => q.session) <|> (past.map fun x => x.session)
    let p := ((live.map fun q => q.partition) <|> (past.map fun x => x.partition)).getD 64
    let bound := match live with | some q => q.role != roleProgram | none => (past.map fun x => x.role != 0).getD false
    let started := who == some (some fn.val)
    match firstFail [(live.isNone && past.isNone, stBadUnit), (mode == 0 && !started && !t.owns fn p, stNotOwner),
        (mode != 0 && !started && !t.reads fn p, stNotOwner), (mode == 0 && bound, stNotPermitted)] with
    | some st => fail fn tag st t
    | none =>
      match live, past with
      | some q, _ =>
        if mode = 0 then
          let x := t.ending q runStopped 0x10
          t |> endRun q runStopped 0x10 |> complete fn tag x.res
        else if mode = 1 then t
        else complete fn tag (t.liveRes q) t
      | none, some x => complete fn tag { x.res with already := mode == 0 } t
      | none, none => t) s)

/-! ### The coder's side of an exchange -/

/-- CODER_ANSWER_READ: once IN_TAIL covers the exchange, the record at the head of the tier is coded with the answer's
tables, or with uniform ones (R925); after 4,096 coded frames a periodic reset point follows (R939). An uncorrectable word
of the coder's state ends the coding run (R999). DESIGN CHOICE, log entry 12. -/
def execCoderAnswerRead (part : Part) (found : Ecc) (s0 : State) : Host.Outcome State Fault Refusal :=
  let p := part.val
  let c := (s0.part p).coder
  let s := if found == .corrected && c.posted.isSome then correctedWord false s0 else s0
  match c.posted, c.run.bind s.run, (s.part p).tier with
  | some _, some q, r :: _ =>
    if !c.coded || decide (q.inTail.toNat < c.exch.toNat) then done s
    else if found == .bad || c.bad then
      done (s |> uncorrectableItem false 5 q.core q.id.toNat 2 |> endRun q runException exPoison)
    else
      let tables := answerTables q c.exch.toNat
      let s1 := if tables.isNone then
          modPart p (fun x => { x with coder := { x.coder with codeBad := satInc x.coder.codeBad } }) s else s
      let (te, td) := tables.getD (uniformTable, uniformTable)
      let s2 := s1 |> codeRecord p te td r |> spoilCoder s.injectHit p |> spendCreel
      if periodicFrames ≤ (s2.part p).coder.frames then done (checkSwitch p (forceReset p 9 s2))
      else done (checkSwitch p (pumpPort p s2))
  | _, _, _ => done s

/-- CODING_STALL: 1 ms without an answer, and the stream turns raw (R926). -/
def execCodingStall (part : Part) (s : State) : Host.Outcome State Fault Refusal :=
  let p := part.val
  let c := (s.part p).coder
  let answered := match c.run.bind s.run with | some q => decide (c.exch.toNat ≤ q.inTail.toNat) | none => true
  match c.posted with
  | some t =>
    if c.coded && s.after t 1000 && !answered then
      done (s |> modPart p (fun x => { x with coder := { x.coder with stalled := true } }) |> syncCoder p 6 |> checkSwitch p)
    else done s
  | none => done s

end Sys2Proof.Machine
end

