-- ==== Sys2Proof/Machine/Image.lean ====
section
/-!
DEFINITION. The weave image: its sections and the checks of R210 (spec/04 R189 to R214), with the value checks that the
chapters named in R202 state.
-/

namespace Sys2Proof.Machine

open Sys2Proof

/-! ### Reasons (R214) -/

abbrev rsBadHeader : Nat := 0x01
abbrev rsWrongStepping : Nat := 0x02
abbrev rsLength : Nat := 0x03
abbrev rsSectionCrc : Nat := 0x04
abbrev rsSectionOrder : Nat := 0x05
abbrev rsUnknownSection : Nat := 0x06
abbrev rsScope : Nat := 0x07
abbrev rsSignatureMissing : Nat := 0x08
abbrev rsSignatureBad : Nat := 0x09
abbrev rsKeyMismatch : Nat := 0x0A
abbrev rsPatchBad : Nat := 0x0B
abbrev rsPatchConflict : Nat := 0x0C
abbrev rsValueOutOfRange : Nat := 0x0D
abbrev rsModelRef : Nat := 0x0E
abbrev rsNoPlane : Nat := 0x0F
abbrev rsGenerationMismatch : Nat := 0x10
abbrev rsNotAwaiting : Nat := 0x11
abbrev rsLoadInProgress : Nat := 0x12
abbrev rsFetchError : Nat := 0x13
abbrev rsModelBad : Nat := 0x14
abbrev rsLibraryFull : Nat := 0x15
abbrev rsModelConflict : Nat := 0x16
abbrev rsAborted : Nat := 0x17

/-- A rejection: reason code and offset. -/
structure Reject where
  reason : Nat
  offset : Nat
  deriving DecidableEq, Repr

/-- First check that fails. DEDUCED, log entry 24. -/
def firstReject (l : List (Bool × Nat)) (off : Nat) : Option Reject :=
  (l.find? (·.1)).map fun x => { reason := x.2, offset := off }

/-! ### The load or command that an image serves -/

/-- What may be in the image. -/
structure ImageScope where
  /-- 0 full; 1 weft; 2 warp. -/
  kind : Nat
  /-- The partition of a weft image. -/
  p : Nat
  /-- PORT_MASK of a warp image. -/
  ports : Nat

/-- A section (R192). -/
structure Section_ where
  off : Nat
  type : Nat
  inst : Nat
  payload : List Byte

/-- Largest image of a kind (R191). -/
def imageMax (kind : Nat) : Nat := if kind = 0 then 48 * 2 ^ 20 else 34 * 2 ^ 20

/-- Step 1: the header, against a given length (R189, R210). -/
def headerReject (img : List Byte) (given stepping : Nat) : Option Reject :=
  firstReject
    [(decide (given < 64), rsLength),
     (field img 0 4 != 0x56414557 || field img 4 2 != 1 || decide (2 < field img 6 2) || field img 14 2 != 0x8064 ||
       field img 60 4 != (crc32c (img.take 60)).toNat, rsBadHeader),
     (field img 16 1 == 0, rsBadHeader),
     (decide (stepping < field img 16 1), rsWrongStepping),
     (field img 8 4 != given || decide (imageMax (field img 6 2) < given), rsLength)] 0

/-! ### Step 2: the section walk -/

/-- A key that orders sections (R193). -/
def sectionKey (type inst : Nat) : Nat := type * 65536 + inst

/-- The types of R195. -/
def knownType (t : Nat) : Bool := [0x01, 0x10, 0x11, 0x20, 0x30, 0x31, 0xF0, 0xFF].contains t

/-- A section of a known type may stand in the image (R195). -/
def inScope (a : ImageScope) (type inst : Nat) : Bool :=
  if type = 0x01 then a.kind == 0 && inst == 0
  else if type = 0x10 then a.kind == 0 && inst == 0
  else if type = 0x11 then decide (inst < 8) && (a.kind == 0 || (a.kind == 2 && bit a.ports inst))
  else if type = 0x20 then decide (inst < 64) && (a.kind == 0 || (a.kind == 1 && inst == a.p))
  else if type = 0x30 ∨ type = 0x31 then decide (inst < 256) && a.kind != 2
  else if type = 0xF0 then true
  else inst == 0

/-- The sections that must stand in the image, in order (R195). -/
def requiredKeys (a : ImageScope) : List Nat :=
  if a.kind = 0 then [sectionKey 0x10 0]
  else if a.kind = 1 then [sectionKey 0x20 a.p]
  else ((List.range 8).filter (bit a.ports)).map (sectionKey 0x11)

/-- A payload length that R195 does not allow; that of WARP_PORT is 8 bytes and its UNIT_COUNT, which the range of UNIT_COUNT
bounds. -/
def badLength (type : Nat) (payload : List Byte) (len : Nat) : Bool :=
  if type = 0x01 then decide (131072 < len)
  else if type = 0x10 then len != 64
  else if type = 0x11 then decide (len < 8) || len != 8 + field payload 2 2
  else if type = 0x20 then len != 2048
  else if type = 0x30 ∨ type = 0x31 then decide (1048576 < len)
  else if type = 0xF0 then decide (4096 < len)
  else if type = 0xFF then len != 193
  else false

/-- Walk the sections from an offset: `n` are left, `prev` is the key before, `req` the required keys not yet met. The value
of padding bytes is not looked at: step 2 of R210 names no check of it. DEDUCED, log entry 24. DESIGN CHOICE, log entry 79.
-/
def walkSections (a : ImageScope) (img : List Byte) (total : Nat) :
    Nat → Nat → Option Nat → List Nat → Except Reject (List Section_)
  | 0, o, _, req =>
    if o < total then .error { reason := rsLength, offset := o }
    else if req.isEmpty then .ok [] else .error { reason := rsSectionOrder, offset := total }
  | n + 1, o, prev, req =>
    let type := field img o 2
    let inst := field img (o + 2) 2
    let len := field img (o + 8) 4
    let key := sectionKey type inst
    let payload := (img.drop (o + 16)).take len
    let next := o + 16 + ceilDiv len 8 * 8
    let missing := match req with | r :: _ => decide (r < key) | [] => false
    match firstReject
      [(decide (total < o + 16), rsLength),
       (match prev with | some k => decide (key ≤ k) | none => false, rsSectionOrder),
       (!knownType type && !bit (field img (o + 4) 2) 0, rsUnknownSection),
       (knownType type && !inScope a type inst, rsScope),
       (missing, rsSectionOrder),
       (knownType type && badLength type payload len, rsLength),
       (decide (total < next), rsLength),
       ((crc32c payload).toNat != field img (o + 12) 4, rsSectionCrc)] o with
    | some r => .error r
    | none =>
      match walkSections a img total n next (some key) (req.filter (· != key)) with
      | .ok l => .ok ({ off := o, type := type, inst := inst, payload := payload } :: l)
      | .error r => .error r

/-- The section of a type. -/
def sectionOf (l : List Section_) (type : Nat) : Option Section_ := l.find? fun x => x.type == type

/-! ### Step 3: the signature (R206 to R208) -/

/-- The lifecycle state wants a verified signature: Production, or Test with the key hash locked. -/
def State.verifies (s : State) : Bool := s.lcy.state == .production || s.lcy.sensed.imgLocked

/-- A signature over `signed`: the key hash first, then the signature (R207). Byte 0 of a hash is the lowest byte of its
field (R187). -/
def signatureReject (keyHash : BitVec 384) (sig signed : List Byte) : Option Nat :=
  if sha384 (sig.take 97) ≠ leBytes 48 keyHash.toNat then some rsKeyMismatch
  else if !ecdsaVerify (sig.take 97) ((sig.drop 97).take 96) (sha384 signed) then some rsSignatureBad
  else none

/-- Step 3. `open_` is the offset reported with SIGNATURE_MISSING, for which the spec names none. -/
def State.signStep (s : State) (open_ : Nat) (img : List Byte) (l : List Section_) : Option Reject :=
  match sectionOf l 0xFF with
  | none => if s.lcy.state == .production then some { reason := rsSignatureMissing, offset := open_ } else none
  | some x =>
    if s.verifies then
      (signatureReject s.lcy.sensed.imgKey x.payload (img.take x.off)).map fun r => { reason := r, offset := x.off }
    else none

/-- The image is verified by R208. -/
def State.signedBy (s : State) (l : List Section_) : Bool := s.verifies && (sectionOf l 0xFF).isSome

/-! ### Step 4: the patch (R209, R212, R1044, R1045) -/

/-- A patch payload breaks R1044 or R1045. -/
def State.patchBad (s : State) (d : List Byte) : Bool :=
  let n := field d 12 4
  decide (d.length < 64) || field d 0 4 != 0x48435450 || field d 4 1 != 1 || field d 8 2 == 0 ||
    n % 8 != 0 || decide (n < 8) || decide (130808 < n) || d.length != 64 + n + 193 ||
    field d 5 1 != s.id.stepping.toNat || field d 6 2 != s.id.romVersion.toNat ||
    sha384 ((d.drop (64 + n)).take 97) != leBytes 48 s.id.patchKeyHash.toNat ||
    !ecdsaVerify ((d.drop (64 + n)).take 97) ((d.drop (161 + n)).take 96) (sha384 (d.take (64 + n)))

/-- Step 4: the rejection, if any. -/
def State.patchStep (s : State) (l : List Section_) : Option Reject :=
  match sectionOf l 0x01 with
  | none => none
  | some x =>
    firstReject
      [(s.patchBad x.payload, rsPatchBad),
       (match s.weave.patch with | some (_, d) => d != x.payload | none => false, rsPatchConflict)] x.off

/-- Apply the patch of an image that has passed step 4 (R211). -/
def applyPatch (l : List Section_) (s : State) : State :=
  match sectionOf l 0x01, s.weave.patch with
  | some x, none =>
    { s with weave := { s.weave with patch := some (BitVec.ofNat 32 (field x.payload 8 2), x.payload) } }
  | _, _ => s

/-! ### Step 5: values -/

/-- A value that is 0 or in a range. -/
def zeroOrIn (v lo hi : Nat) : Bool := v == 0 || (decide (lo ≤ v) && decide (v ≤ hi))

/-- GiB that DRAM_CONFIG declares (R714). -/
def dramGib (c : List Byte) : Nat :=
  let one (k : Nat) : Nat := if bit (field c 0 1) k then field c (3 + k) 1 * field c (1 + k) 1 / 2 else 0
  let raw := one 0 + one 1
  if bit (field c 6 1) 0 then raw * 7 / 8 else raw

/-- DRAM_CONFIG holds values of R713. -/
def dramOk (c : List Byte) : Bool :=
  let one (k : Nat) : Bool :=
    !bit (field c 0 1) k ||
      ([0x08, 0x0C, 0x10, 0x18, 0x20].contains (field c (1 + k) 1) && [1, 2].contains (field c (3 + k) 1))
  field c 0 1 % 4 != 0 && one 0 && one 1 && decide (field c 5 1 ≤ 2)

/-- WARP_GLOBAL holds values of R197 and R198. -/
def warpGlobalOk (d : List Byte) : Bool :=
  let et := field d 2 2
  let dram := slice d 16 16
  (et == 0 || decide (0x05FF < et)) && decide (field d 5 1 ≤ 2) && decide (field d 6 2 ≤ 1000) &&
    decide (1 ≤ field d 8 1) && decide (field d 8 1 ≤ 48) && decide (field d 9 1 ≤ 63) && decide (field d 10 1 ≤ 63) &&
    decide (field d 11 1 ≤ 1) && dramOk dram && decide (field d 8 1 + field d 9 1 + field d 10 1 ≤ dramGib dram)

/-- A partition byte of a map: 0 to 63, or 0xFF for none. -/
def partByteOk (b : Nat) : Bool := decide (b ≤ 63) || b == 0xFF

/-- WARP_PORT holds values of R200; LANE_MODE is ignored with SCAN_FALLBACK (R432). -/
def warpPortOk (port : Nat) (d : List Byte) : Bool :=
  let lm := field d 1 1
  decide (field d 0 1 ≤ 1) && (lm / 16 % 4 != 3 || bit lm 6) && (!bit lm 6 || port == 7) &&
    decide (field d 2 2 ≤ 4096) && (d.drop 8).all fun b => partByteOk b.toNat

/-- A term of the trigger block holds values of R508 and R510; `stage`: none for the direct term. -/
def termOk (d : List Byte) (off : Nat) (stage : Option Nat) : Bool :=
  let action := field d (off + 14) 1
  let timed := match stage with | some k => k != 0 | none => false
  let armOk := match stage with | some k => k != 3 | none => false
  decide (field d (off + 8) 4 ≤ 1000000) && decide (action ≤ 3) && (action != 1 || armOk) &&
    (!timed || zeroOrIn (field d (off + 16) 4) 1 10000000)

/-- The TRIGGER field of partition `p` (R507 to R510). -/
def triggerOk (p : Nat) (d : List Byte) : Bool :=
  zeroOrIn (field d 0 4) 10 10000000 &&
    (List.range 4).all (fun k => partByteOk (field d (8 + k) 1) && field d (8 + k) 1 != p) &&
    (List.range 8).all (fun k => partByteOk (field d (64 + 16 * k) 1)) &&
    termOk d 192 none && (List.range 4).all fun k => termOk d (256 + 64 * k) (some k)

/-- The COUNTERS field (R748, R749). -/
def countersOk (d : List Byte) : Bool := (List.range 64).all fun k => !badSel (BitVec.ofNat 64 (field d (8 * k) 8))

/-- The DUMP_SET field (R612). -/
def dumpSetOk (d : List Byte) : Bool :=
  zeroOrIn (field d 4 4) 1 65536 && zeroOrIn (field d 8 4) 1 65536 &&
    (List.range 15).all fun k =>
      let e := 16 + 16 * k
      let n := field d (e + 8) 4
      field d e 2 == 0 || (field d (e + 4) 4 % 4 == 0 && (n == 0xFFFFFFFF || (n % 4 == 0 && decide (4 ≤ n))))

/-- The HANG field but PRED_MODEL (R670, R671). -/
def hangOk (d : List Byte) : Bool :=
  decide (field d 1 1 ≤ 2) && decide (field d 2 1 ≤ 2) && zeroOrIn (field d 4 4) 1 10000000 &&
    zeroOrIn (field d 8 4) 100 100000000

/-- A WEFT payload of partition `p` holds values in their ranges (R202). -/
def weftOk (p : Nat) (d : List Byte) : Bool :=
  zeroOrIn (field d 0 4) 1 10000 && zeroOrIn (field d 4 4) 100 1000000 && zeroOrIn (field d 8 1) 1 16 &&
    zeroOrIn (field d 9 1) 1 16 && decide (field d 10 1 ≤ 1) && triggerOk p (slice d 64 512) &&
    countersOk (slice d 576 512) && zeroOrIn (field d 1344 1) 1 16 && dumpSetOk (slice d 1472 256) &&
    hangOk (slice d 1728 64)

/-- An entry that a section would make. -/
def Section_.entry (x : Section_) : LibEntry :=
  { index := x.inst, payload := x.payload, hash := BitVec.ofNat 128 (leVal ((sha384 x.payload).take 16)), fromImage := true,
    addedBy := none }

/-- The entry of an index once the image is accepted: of the library, or of the image (R204). -/
def State.futureEntry (s : State) (l : List Section_) (i : Nat) : Option LibEntry :=
  s.lib i <|> ((l.find? fun x => (x.type == 0x30 || x.type == 0x31) && x.inst == i).map Section_.entry)

/-- An entry that may code (R920). -/
def LibEntry.mayCode (e : LibEntry) : Bool :=
  e.pkind == 1 && e.profile == 0 && bit (e.f 7 1) 0 && decide (32 ≤ e.inputKib) && decide (4 ≤ e.localKib)

/-- The models that a weft names are there (R204, R671, R920). -/
def State.weftRefs (s : State) (l : List Section_) (d : List Byte) : Bool :=
  (field d 10 1 == 0 || match s.futureEntry l (field d 11 1) with | some e => e.mayCode | none => false) &&
    (field d 1731 1 == 0xFF || match s.futureEntry l (field d 1731 1) with | some e => e.pkind == 1 | none => false)

/-- Step 5, section by section. -/
def State.valueStep (s : State) (l : List Section_) : Option Reject :=
  l.findSome? fun x =>
    if x.type = 0x10 then firstReject [(!warpGlobalOk x.payload, rsValueOutOfRange)] x.off
    else if x.type = 0x11 then firstReject [(!warpPortOk x.inst x.payload, rsValueOutOfRange)] x.off
    else if x.type = 0x20 then
      firstReject [(!weftOk x.inst x.payload, rsValueOutOfRange), (!s.weftRefs l x.payload, rsModelRef)] x.off
    else none

/-! ### Step 6: the library (R196, R213, R809, R810) -/

/-- Check one entry against the library as it stands, and add it. -/
def addEntry (lib : List LibEntry) (room : Nat) (model : Bool) (e : LibEntry) : Except Nat (List LibEntry) :=
  if !entryOk model e then .error rsModelBad
  else
    match lib.find? fun x => x.index == e.index with
    | some x => if x.payload = e.payload then .ok lib else .error rsModelConflict
    | none =>
      if min (32 * 2 ^ 20) room < (lib.map LibEntry.space).sum + e.space then .error rsLibraryFull else .ok (lib ++ [e])

/-- Step 6: the library with the image's entries; `room`: the Creel bytes that the library may take. -/
def libraryStep (room : Nat) (by_ : Option Nat) : List Section_ → List LibEntry → Except Reject (List LibEntry)
  | [], lib => .ok lib
  | x :: rest, lib =>
    if x.type = 0x30 ∨ x.type = 0x31 then
      match addEntry lib room (x.type == 0x30) { x.entry with fromImage := by_.isNone, addedBy := by_ } with
      | .ok lib1 => libraryStep room by_ rest lib1
      | .error r => .error { reason := r, offset := x.off }
    else libraryStep room by_ rest lib

/-- Creel bytes that the library may take: what it has and what is free. -/
def State.libRoom (s : State) : Nat := s.libBytes + s.creelFree

/-! ### The whole check -/

/-- What a check finds: a rejection, or the sections and the library they make; and whether the patch passed step 4. -/
structure Checked where
  result : Except Reject (List Section_ × List LibEntry)
  /-- The sections, once step 4 has passed. -/
  patched : List Section_
  signed : Bool

/-- The check of R210 on the bytes of an image of a given length. `by_`: the partition that adds its entries, none for a
full image. `open_`: the offset that goes with SIGNATURE_MISSING. DEDUCED, log entry 24. -/
def State.checkImage (s : State) (a : ImageScope) (given : Nat) (by_ : Option Nat) (open_ : Nat) (img : List Byte) :
    Checked :=
  let no (r : Reject) : Checked := { result := .error r, patched := [], signed := false }
  match headerReject img given s.id.stepping.toNat with
  | some r => no r
  | none =>
    if field img 6 2 ≠ a.kind then no { reason := rsScope, offset := 0 }
    else
      match walkSections a img given (field img 12 2) 64 none (requiredKeys a) with
      | .error r => no r
      | .ok l =>
        match s.signStep open_ img l <|> s.patchStep l with
        | some r => no r
        | none =>
          let yes (r : Except Reject (List Section_ × List LibEntry)) : Checked :=
            { result := r, patched := l, signed := s.signedBy l }
          match s.valueStep l with
          | some r => yes (.error r)
          | none =>
            match libraryStep s.libRoom by_ l s.osier.lib with
            | .error r => yes (.error r)
            | .ok lib => yes (.ok (l, lib))

/-- IMAGE_ID of an image. -/
def imageIdOf (img : List Byte) : W64 := BitVec.ofNat 64 (field img 24 8)

end Sys2Proof.Machine
end

