-- ==== Sys2Proof/Machine/Weave.lean ====
section
/-!
DEFINITION. Loading the full image, REWEAVE, REWEAVE_COMMIT with its settle point and its switch, warp commits, and
LOAD_MODEL (spec/04, R812 to R815).
-/

namespace Sys2Proof.Machine

open Sys2Proof

/-! ### A full load (R215 to R219) -/

/-- Change the WEA registers of a PF. -/
def modWea (n : Nat) (g : WeaPf → WeaPf) (s : State) : State := modHost n (fun x => { x with wea := g x.wea }) s

/-- A full load of a PF ends in rejection; the end of a load signals vector 2 (R214, R253, R314). A rejection that points at
no place of an image, NOT_AWAITING, LOAD_IN_PROGRESS, FETCH_ERROR and ABORTED among them, has WEA_ERR_OFFSET 0. DESIGN
CHOICE, log entry 79. -/
def rejectLoad (n reason offset : Nat) (s : State) : State :=
  s |> modWea n (fun w => { w with state := 4, reason := BitVec.ofNat 8 reason, errOffset := BitVec.ofNat 32 offset })
    |> signal (64 + n) 2

/-- A PF's load is fetching or checking. -/
def State.loading (s : State) (n : Nat) : Bool := (s.host n).wea.state == 1 || (s.host n).wea.state == 2

/-- A junior that receives its image from its senior (R127). -/
def State.imageFromTwin (s : State) : Bool := s.straps.bootSrc && !s.straps.pairRank

/-- START is written (R215, R216, R218): the 64-byte header is fetched first. Where several rejections apply, NOT_AWAITING
comes before LOAD_IN_PROGRESS, and that before LENGTH. DESIGN CHOICE, log entry 79. -/
def loadStart (tap : Bool) (n : Nat) (s : State) : State :=
  let w := (s.host n).wea
  if !(tap || s.enabledPort n) || s.loading n then s
  else if s.boot.phase != .awaitWeave || s.imageFromTwin then rejectLoad n rsNotAwaiting 0 s
  else if (List.range 4).any s.loading then rejectLoad n rsLoadInProgress 0 s
  else if w.len.toNat < 64 ∨ imageMax 0 < w.len.toNat then rejectLoad n rsLength 0 s
  else s |> modWea n (fun x => { x with state := 1 }) |> emit (.imageRead n w.addr 64)

/-- WEA_LOAD_START. -/
def execWeaLoadStart (port : HostPort) (s : State) : Host.Outcome State Fault Refusal :=
  done (hostPut (64 + port.val) (loadStart false port) s)

/-- The check of a full image. `open_`: as in `State.checkImage`. -/
def State.fullCheck (s : State) (img : List Byte) (open_ : Nat) : Checked :=
  s.checkImage { kind := 0, p := 0, ports := 0 } img.length none open_ img

/-- Stop the load of a PF: nothing more of the image is fetched or put into effect. Whether its check had come past step 4,
so that a patch that passes stays in force, is a free value (R211, R217). DESIGN CHOICE, log entry 80. -/
def stopLoad (n : Nat) (s : State) : State :=
  match s.weave.checking with
  | some (some m, img) =>
    if m = n then
      let s1 := nextFree { s with weave := { s.weave with checking := none } }
      if (Config.freeBits s.free).getLsbD 0 then applyPatch (s.fullCheck img 0).patched s1 else s1
    else s
  | _ => s

/-- ABORT is written (R217). -/
def loadAbort (n : Nat) (s : State) : State := if s.loading n then s |> stopLoad n |> rejectLoad n rsAborted 0 else s

/-- WEA_LOAD_ABORT. -/
def execWeaLoadAbort (port : HostPort) (s : State) : Host.Outcome State Fault Refusal :=
  done (hostPut (64 + port.val) (loadAbort port) s)

/-- A function-level reset of a PF or a reset of its port stops its load, and its WEA registers return to their reset
values (R217). -/
def resetLoad (n : Nat) (s : State) : State := s |> stopLoad n |> modWea n (fun _ => WeaPf.init)

/-- IMAGE_FETCH_END: the bytes of the image have arrived, or a completion error (R217). A header that fails its checks
rejects the image after 64 bytes; else the rest of it is read (R218). `bytes` is what host memory holds from the image's
address on. DESIGN CHOICE, log entry 80. -/
def execImageFetchEnd (port : HostPort) (bytes : List Byte) (error : Bool) (s : State) :
    Host.Outcome State Fault Refusal :=
  let n := port.val
  let w := (s.host n).wea
  if w.state != 1 then done s
  else if error then done (rejectLoad n rsFetchError 0 s)
  else
    let img := slice bytes 0 w.len.toNat
    match headerReject img w.len.toNat s.id.stepping.toNat with
    | some r => done (s |> bumpAlways (44 + n) 64 |> rejectLoad n r.reason r.offset)
    | none =>
      if field img 6 2 ≠ 0 then done (s |> bumpAlways (44 + n) 64 |> rejectLoad n rsScope 0)
      else
        done ({ s with weave := { s.weave with checking := some (some n, img) } } |> bumpAlways (44 + n) w.len.toNat
              |> emit (.imageRead n (w.addr + 64) (w.len.toNat - 64)) |> modWea n (fun x => { x with state := 2 }))

/-! ### Acceptance (R123, R219, R947) -/

/-- The default weft (R203). -/
def defaultWeft : Mem :=
  ([72, 73, 74, 75, 128, 144, 160, 176, 192, 208, 224, 240, 1731].map fun a => (a, (0xFF : Byte)))

/-- A WARP_PORT entry from its payload (R200). -/
def warpPortOf (d : List Byte) : WarpPort :=
  { enable := field d 0 1 == 1, laneMap := BitVec.ofNat 8 (field d 1 1), unitCount := field d 2 2,
    partMap := slice d 8 (field d 2 2) }

/-- The payload of a section of a type and an instance. -/
def payloadOf (l : List Section_) (type inst : Nat) : Option (List Byte) :=
  (l.find? fun x => x.type == type && x.inst == inst).map (·.payload)

/-- The twin role that an accepted image gives (R100, R947). -/
def State.newRole (s : State) (policy : Nat) : BitVec 2 := if policy = 0 then 1 else if s.straps.pairRank then 2 else 3

/-- The senior's copy of an image: kept where the overflow area takes it (R972). -/
def State.retain (s : State) (img : List Byte) : Option (List Byte) :=
  if s.plait.role == 2 && decide (ceilDiv img.length 65536 ≤ s.overflowPages / 16) then some img else none

/-- The library as it becomes. The first new entry takes an injected error, in a word that a free value names (R1014). DESIGN
CHOICE, log entry 22. -/
def putLib (lib : List LibEntry) (s : State) : State :=
  let n := s.osier.lib.length
  let word (e : LibEntry) : Nat := 8 * ((Config.freeBits (s.free + 1)).toNat % (e.payload.length / 8))
  if lib.length ≤ n then { s with osier := { s.osier with lib := lib } }
  else
    let l := if s.injectHit then modAt lib n fun e => { e with bad := [word e] } else lib
    (if s.injectHit then nextFree (spendCreel s) else spendCreel s) |> fun t => { t with osier := { t.osier with lib := l } }

/-- The copy is kept, and stands at the start of overflow staging, behind the trace and the dump region (R972, R1037). -/
def keepCopy (img : List Byte) (s : State) : State :=
  let s1 := { s with plait := { s.plait with retained := s.retain img, retainedBad := (s.retain img).isSome && s.dramHit } }
  if (s.retain img).isSome then storeExternal ((s.warpField 8 1 + s.warpField 9 1) * 2 ^ 30) img s1 else s1

/-- The registers of an accepted full image (R210, R224). `by_`: the host port that loaded it; none for the twin, for which
LOADED_BY has no stated value. DESIGN CHOICE, log entry 11. -/
def noteImage (by_ : Option Nat) (signed : Bool) (warp : List Host.Cell) (id : W64) (s : State) : State :=
  let loadedBy := match by_ with
    | some n => BitVec.ofNat 2 n
    | none => BitVec.ofNat 2 (Config.freeBits s.free).toNat
  let w := { s.weave with warp := warp, loaded := true, signed := signed, loadedBy := loadedBy, imageId := id,
                          checking := none, staged := [], warpGen := 1, warpActive := 1 }
  { s with weave := w, boot := { s.boot with phase := .linkTrain }, free := s.free + b2n by_.isNone }

/-- The role that an accepted image gives the hub (R100, R947). -/
def takeRole (s : State) : State :=
  let role := s.newRole s.pairPolicy
  { s with plait := { s.plait with role := role, pair := if role = 1 then .standalone else .unpaired } }

/-- Put an accepted full image into force and leave AWAIT_WEAVE. -/
def acceptImage (by_ : Option Nat) (c : Checked) (l : List Section_) (lib : List LibEntry) (img : List Byte) (s : State) :
    State :=
  let id := imageIdOf img
  let plane (p : Nat) : Plane :=
    { weft := ((payloadOf l 0x20 p).map Mem.ofBytes).getD defaultWeft, gen := 1, imageId := id }
  let warp := Mem.ofBytes ((payloadOf l 0x10 0).getD [])
  s |> putLib lib |> noteImage by_ c.signed warp id |> takeRole |> keepCopy img
     |> each (List.range 64) (fun p => modPart p (fun x =>
          { x with active := plane p, inactive := some (plane p), activeB := false, lastGen := 1 }))
     |> each (List.range 8) (fun n => modPort n (fun x =>
          { x with warp := ((payloadOf l 0x11 n).map warpPortOf).getD WarpPort.none }))
     |> each (List.range 8) startLink
     |> (fun t => if t.plait.lk.link == .disabled then enterDetect 8 t else t)
     |> noteOpenLab |> bootAdvance

/-- Note a rejection: in the PF that loaded, or, for an image of the twin, in every PF, and the next request waits a
second (R214, R973). The end of that load too signals vector 2 (R314). -/
def imageRejected (by_ : Option Nat) (r : Reject) (s : State) : State :=
  let s1 := { s with weave := { s.weave with checking := none } }
  match by_ with
  | some n => rejectLoad n r.reason r.offset s1
  | none =>
    { s1 with plait := { s1.plait with imageBuf := [], retryAt := s.t + 1000 * Config.ticksPerMs } }
      |> each (List.range 4) (fun n => modWea n (fun w =>
          { w with state := 4, reason := BitVec.ofNat 8 r.reason, errOffset := BitVec.ofNat 32 r.offset }))
      |> signalPfs 2

/-- IMAGE_CHECK_DONE (R210, R218): the image is accepted, or rejected; a patch that passed is in force either way
(R211). -/
def execImageCheckDone (s : State) : Host.Outcome State Fault Refusal :=
  match s.weave.checking with
  | none => done s
  | some (by_, img) =>
    let c := s.fullCheck img ((Config.freeBits s.free).toNat % 2 ^ 32)
    let s1 := s |> nextFree |> applyPatch c.patched
    match c.result with
    | .error r => done (imageRejected by_ r s1)
    | .ok (l, lib) =>
      let s2 := acceptImage by_ c l lib img s1
      match by_ with
      | some n => done (s2 |> modWea n (fun w => { w with state := 3 }) |> signal (64 + n) 2)
      | none => done (s2 |> each (List.range 4) (fun n => modWea n (fun w => { w with state := 3 })) |> signalPfs 2)

/-- DDR0_RESET_N and DDR1_RESET_N are released (R1055). -/
def releaseDdr (s : State) : State :=
  if s.pins.ddrReset == 3 then s else { s with pins := { s.pins with ddrReset := 3 } } |> emit (.ddrReset true)

/-- DRAM_TRAINING_DONE (R715): WAL_STATUS says how it ended; memory that is trained is no longer held in reset (R1055);
without external memory there is no retained copy, and DRAM_TRAIN is reported (R972, R992). DEDUCED, log entry 48. -/
def execDramTrainingDone (ok : Bool) (s : State) : Host.Outcome State Fault Refusal :=
  if s.boot.phase == .linkTrain && !s.boot.dramTrained then
    done ({ s with boot := { s.boot with dramTrained := true },
                   wale := { s.wale with dramReady := ok, dramFail := !ok },
                   plait := { s.plait with retained := if ok then s.plait.retained else none } }
          |> (if ok then releaseDdr else raiseErr 7 4 0xFFFF 0 0 0) |> bootAdvance)
  else done s

/-! ### REWEAVE (R220 to R229) -/

/-- The partitions that a REWEAVE or REWEAVE_COMMIT touches: its own, or those with units on its ports. -/
def State.reweaveParts (s : State) (c : Cmd) : List Nat :=
  if c.scope = 1 then [c.partition] else (List.range 64).filter fun p => (s.portsOf p).any (bit c.ports)

/-- Another command of the same scope is outstanding: one that has started, or that was fetched before this one (R286,
R304). Every two commands of SCOPE 0x02 are of one scope, whatever their ports. DESIGN CHOICE, log entry 79. -/
def State.sameScope (s : State) (f : Nat) (c : Cmd) : Bool :=
  !(s.cmdsWhere fun g x => (x.op == 0x70 || x.op == 0x71) && (x.started || decide (x.fetched < c.fetched)) &&
      x.scope == c.scope && (c.scope == 2 || x.partition == c.partition) && !(g == f && x.tag == c.tag)).isEmpty

/-- The rows of R222 and R231 that come before the fetch or the commit. `len`: the length rows apply. The buffer check of
R295, for which the table of R222 has no row, stands behind LEN_EXCEEDS_BUF, as row 9 of R288 stands behind row 8. DEDUCED,
log entry 79. BUSY of R1003 comes before every row of R222. DESIGN CHOICE, log entry 79. -/
def State.reweaveCheck (s : State) (f : Nat) (c : Cmd) (len : Bool) : Option Byte :=
  firstFail
    [(s.err.stopped, stBusy),
     (if c.scope == 2 then c.ports == 0 else c.ports != 0, stBadOpcode),
     (!len && decide (1000 < c.f 54 2), stBadOpcode),
     (len && (c.length == 0 || decide (imageMax 1 < c.length)), stBadLen),
     (len && decide (c.bufWindow < c.length), stLenExceedsBuf),
     (len && (c.bufAddr % 64 != 0 || decide (2 ^ 64 < c.bufAddr + c.bufWindow)), stBadAddress),
     (c.scope == 1 && !s.owns f c.partition, stNotOwner),
     (c.scope == 2 && !s.isArbiterPm f, stNotPermitted),
     ((s.reweaveParts c).any s.twinHolds, stStakeHeldByTwin),
     (s.sameScope f c, stBusy)]

/-- REWEAVE: the checks before the fetch; `data` is what the buffer holds, and its check is REWEAVE_CHECK_END. A refused one
too says in word 0 which generation is held (R228). -/
def execReweave (fn : Fn) (tag : W32) (data : List Byte) (s : State) : Host.Outcome State Fault Refusal :=
  done (startCmd 0x70 fn tag (fun c t =>
    match t.reweaveCheck fn c true with
    | some st => complete fn tag { status := st, r0 := t.heldGen c } t
    | none =>
      t |> bumpAlways (44 + fnPort fn) c.length
        |> modWork fn tag (fun w => { w with stage := 1, data := slice data 0 c.length })) s)

/-- The next generation number after one (R224). DEDUCED, log entry 57. -/
def nextGen (g : W32) : W32 := if g = 0xFFFFFFFF then 2 else g + 1

/-- An accepted weft image goes into the inactive plane (R224). -/
def acceptWeft (p : Nat) (l : List Section_) (lib : List LibEntry) (id : W64) (s : State) : State :=
  let gen := nextGen (s.part p).lastGen
  let plane : Plane := { weft := ((payloadOf l 0x20 p).map Mem.ofBytes).getD [], gen := gen, imageId := id }
  putLib lib s |> modPart p (fun x => { x with inactive := some plane, lastGen := gen })

/-- An accepted warp image is staged for its ports (R245). DEDUCED, log entry 57. -/
def acceptWarp (ports : Nat) (l : List Section_) (id : W64) (s : State) : State :=
  let gen := nextGen s.weave.warpGen
  let put (st : List (Nat × StagedPort)) (n : Nat) : List (Nat × StagedPort) :=
    match payloadOf l 0x11 n with
    | some d => Tab.set st n { entry := warpPortOf d, gen := gen, imageId := id }
    | none => st
  let staged := ((List.range 8).filter (bit ports)).foldl put s.weave.staged
  { s with weave := { s.weave with warpGen := gen, staged := staged } }

/-- The status of a rejected image (R222). -/
def rejectStatus (reason : Nat) : Byte :=
  if reason = rsModelBad ∨ reason = rsModelConflict then stModelRejected
  else if reason = rsLibraryFull then stCreelFull else stImageRejected

/-- REWEAVE_CHECK_END (R222 to R228). A REWEAVE that a partition reset asked for meanwhile is left to that reset, and one of a
stopped firmware ends with BUSY (R117, R1003). -/
def execReweaveCheckEnd (fn : Fn) (tag : W32) (s : State) : Host.Outcome State Fault Refusal :=
  let f := fn.val
  match s.cmd f tag with
  | none => done s
  | some c =>
    if c.op != 0x70 || !c.started || c.work.stage != 1 || (c.scope == 1 && (s.part c.partition).resetPending) then done s
    else if s.err.stopped then done (fail f tag stBusy s)
    else
      let img := c.work.data
      let a : ImageScope := { kind := c.scope, p := c.partition, ports := c.ports }
      let r := s.checkImage a c.length (some c.partition) ((Config.freeBits s.free).toNat % 2 ^ 32) img
      let s1 := nextFree s
      match r.result with
      | .error e =>
        done (complete f tag { status := rejectStatus e.reason, r0 := s1.heldGen c, r1 := img.length, r2 := e.reason,
                               r3 := e.offset } s1)
      | .ok (l, lib) =>
        let s2 := if c.scope = 1 then acceptWeft c.partition l lib (imageIdOf img) s1
          else acceptWarp c.ports l (imageIdOf img) s1
        done (complete f tag { r0 := s2.heldGen c, r1 := img.length } s2)

/-- What a change of a partition's owner, or a partition reset, does to its reweaves: the inactive plane is emptied, a
REWEAVE not yet accepted ends, a commit that has not switched fails (R113, R117, R229, R240). -/
def dropReweave (p : Nat) (st : Byte) (s : State) : State :=
  s |> modPart p (fun x => { x with inactive := none }) |> failCommit p stAbortedByReset
    |> (fun t => each (t.cmdsWhere fun _ c => c.op == 0x70 && c.started && c.scope == 1 && c.partition == p)
        (fun (f, c) => complete f c.tag { status := st, r1 := c.work.data.length }) t)

/-- The owner of a partition changes (R229). -/
def ownerChanged (p : Nat) (s : State) : State := dropReweave p stNotOwner s

/-! ### REWEAVE_COMMIT (R230, R231, R247) -/

/-- A commit that has passed its checks. -/
def State.newCommit (s : State) (f : Nat) (c : Cmd) : Commit :=
  let warp := c.scope == 2
  let p := c.partition
  let plane := ((s.part p).inactive).getD Plane.none
  let staged := s.weave.staged.find? fun e => bit c.ports e.1
  { fn := f, tag := c.tag, fetched := c.fetched,
    deadline := c.fetched + orDefault (c.f 54 2) 100 * Config.ticksPerMs, gen := BitVec.ofNat 32 (c.f 56 4),
    watchApply := bit (c.f 60 1) 0, portMask := if warp then BitVec.ofNat 8 c.ports else 0, switched := false,
    settled := none, oldGen := if warp then s.weave.warpActive else (s.part p).active.gen,
    imageId := if warp then (staged.map fun e => e.2.imageId).getD 0 else plane.imageId, unitsLeft := [], skipped := 0,
    portsLeft := [], previous := [], failedPorts := [], failedAgain := [], affected := [] }

/-- The inactive plane is empty, or the staged warp holds nothing for some port of the mask. -/
def State.noPlane (s : State) (c : Cmd) : Bool :=
  if c.scope = 1 then (s.part c.partition).inactive.isNone
  else ((List.range 8).filter (bit c.ports)).any fun n => (Tab.get? s.weave.staged n).isNone

/-- The generation held differs from the one named. -/
def State.genDiffers (s : State) (c : Cmd) : Bool :=
  if c.scope = 1 then s.heldGen c != c.f 56 4
  else ((List.range 8).filter (bit c.ports)).any fun n =>
    ((Tab.get? s.weave.staged n).map fun e => e.gen.toNat) != some (c.f 56 4)

/-- A weft commit of a partition that the warp commit affects is outstanding: in force, or fetched before it (R234, R247). -/
def State.weftOut (s : State) (k : Commit) (c : Cmd) : Bool :=
  (List.range 64).any fun p => s.warpAffects k p &&
    ((s.part p).commit.isSome || !(s.cmdsWhere fun _ x => x.waitingWeft p && decide (x.fetched < c.fetched)).isEmpty)

/-- A warp commit that affects the partition of a weft commit is outstanding (R234, R247). -/
def State.warpOut (s : State) (c : Cmd) : Bool :=
  s.inWarpCommit c.partition ||
    !(s.cmdsWhere fun _ x => s.waitingWarp c.partition x && decide (x.fetched < c.fetched)).isEmpty

/-- REWEAVE_COMMIT: its checks, those of R247 before those of the plane (DESIGN CHOICE, log entry 79); then it waits for the
settle point. -/
def execReweaveCommit (fn : Fn) (tag : W32) (s : State) : Host.Outcome State Fault Refusal :=
  done (startCmd 0x71 fn tag (fun c t =>
    let f := fn.val
    let k := t.newCommit f c
    let no (r : Nat) : State := complete f tag { status := stImageRejected, r0 := t.activeGen c, r2 := r } t
    match t.reweaveCheck f c false with
    | some st => fail f tag st t
    | none =>
      if c.scope == 2 && t.weftOut k c then fail f tag stBusy t
      else if c.scope == 1 && t.warpOut c then fail f tag stPartitionReweaving t
      else if t.noPlane c then no rsNoPlane
      else if t.genDiffers c then no rsGenerationMismatch
      else if c.scope = 1 then modPart c.partition (fun x => { x with commit := some k }) t
      else { t with weave := { t.weave with warpCommit := some k } }) s)

/-! ### The weft switch (R235 to R239, R243) -/

/-- A WATCH_APPLY write of the partition. -/
def isWatchApply (p : Nat) (r : OutReq) : Bool := match r.who with | .watchApply q _ _ => q == p | _ => false

/-- The WATCH_APPLY writes of a partition that no die has been sent end (R117, R238). -/
def endWatchApply (p : Nat) (s : State) : State :=
  let drop (c : TxChan) : TxChan := { c with waiting := c.waiting.filter fun r => !isWatchApply p r }
  each (List.range 8) (fun n => modPort n (fun x =>
    { x with resend := x.resend.filter (fun e => !isWatchApply p e.2),
             lk := { x.lk with tx0 := drop x.lk.tx0, tx1 := drop x.lk.tx1, tx2 := drop x.lk.tx2 } })) s

/-- A weft commit that has switched completes; the units not yet written are skipped (R117, R238, R239). -/
def finishCommit (p : Nat) (c : Commit) (s : State) : State :=
  s |> modPart p (fun x => { x with commit := none }) |> (fun t => if c.unitsLeft.isEmpty then t else endWatchApply p t)
    |> complete c.fn c.tag { r0 := c.gen.toNat, r1 := c.skipped + c.unitsLeft.length, r3 := c.settleUs }

/-- A pending COUNTER_CONFIG ends with BUSY at a switch (R761). -/
def dropConfig (p : Nat) (st : Byte) (s : State) : State :=
  match (s.part p).cfg with
  | some g =>
    s |> modPart p (fun x => { x with cfg := none, deferred := x.deferred.filter fun d => !d.forConfig })
      |> fail g.fn g.tag st
  | none => s

/-- A WEAVE record of a switch goes to every destination of the old and the new routing (R243). -/
def weaveAtSwitch (p : Nat) (payload : List Byte) (s : State) : State :=
  let x := s.part p
  let r := hubRec 10 p payload s
  let port := bit (destIn x.oldRoutes 10) 0 || bit (destIn x.routes 10) 0
  let dram := bit (destIn x.oldRoutes 10) 1 || bit (destIn x.routes 10) 1
  s |> deliverInput r |> placeRec (b2n port + 2 * b2n dram) r

/-- The graph of hang analysis follows GRAPH_ENABLE of the new weft (R649, R672). -/
def switchGraph (p : Nat) (on : Bool) (s : State) : State :=
  if on && !(s.part p).graphOn then s |> startGraph p |> each (s.portsOf p) (fun n => keepEvtEn n p)
  else if !on && (s.part p).graphOn then stopGraph p s
  else s

/-- HOOP_CTRL is written where the new weft changes its bits (R527). -/
def switchHoop (p : Nat) (old new : Mem) (s : State) : State :=
  if hoopFast old == hoopFast new && hoopAbrupt old == hoopAbrupt new then s
  else each (s.portsOf p) (fun n => writeHoopCtrl n p) s

/-- The units that a WATCH_APPLY can write: found, on a port whose link is in ACTIVE or retrains, not in scan fallback. The
writes to one that retrains wait for its RESUME (R424). -/
def State.watchUnits (s : State) (p : Nat) : List Nat :=
  (s.unitsOf p).filter fun u => s.takesReq (u / 4096) && (s.port (u / 4096)).enumerated && (s.unit u).found

/-- The planes change places, and everything that the plane governs changes with them (R236, R706, R711). The old lattice
governs the ENG edge of the switch itself (R237). The watchdog of the new weft counts from the switch (R505). DESIGN CHOICE,
log entry 92. -/
def swapPlanes (p : Nat) (new : Plane) (s : State) : State :=
  modPart p (fun x =>
    { x with before := some { at_ := s.now, active := x.active, stage := x.stage, occDirect := x.occDirect,
                              occStage := x.occStage, firesDirect := x.firesDirect, firesStage := x.firesStage,
                              stageAt := x.stageAt, occAt := x.occAt, watchdogAt := x.watchdogAt },
             active := new, inactive := some x.active, activeB := !x.activeB, stage := 0, stageAt := s.t, occDirect := 0,
             occStage := 0, firesDirect := [], firesStage := [], watchdogAt := s.t, oldRoutes := x.routes,
             routes := weftRoutes new.weft, switchTs := s.now, routeOverride := false, forcedRaw := false }) s

/-- FORCE_RAW as a weft switch finds it stays with the part of the stream before the switch (R711). -/
def keepForced (forced : Bool) : List SwitchPt → List SwitchPt
  | [] => []
  | [e] => [{ e with forced := forced }]
  | e :: l => e :: keepForced forced l

/-- The coding of the stream changes at the switch: its reset point follows once the stream has come to it, behind those of
earlier switches. Its MODEL_SWITCH follows the WEAVE record in DRAM too, where no other record comes between them (R244,
R940). `forced`: FORCE_RAW before the switch. -/
def switchCoding (p : Nat) (old new : Mem) (forced : Bool) (s : State) : State :=
  if weftBinding old roleCoding == weftBinding new roleCoding && !forced then s
  else
    s |> modPart p (fun x =>
          let e : SwitchPt := { pos := x.portIn, binding := weftBinding new roleCoding, forced := false,
                                dram := weftBinding old roleCoding != weftBinding new roleCoding && bit (destIn x.routes 11) 1,
                                behind := [] }
          let c := x.coder
          { x with coder := { c with pendSwitch := keepForced forced c.pendSwitch ++ [e],
                                     forced := if c.pendSwitch.isEmpty then forced else c.forced } })
      |> checkSwitch p

/-- The switch of a partition's planes. DEDUCED, log entry 57. -/
def switchWeft (p : Nat) (c : Commit) (new : Plane) (s : State) : State :=
  let old := (s.part p).active
  let sels := (List.range 64).map fun k => (k, weftSel new.weft k)
  let s1 := s |> dropConfig p stBusy |> swapPlanes p new
    |> takeLatch p { lkind := 5, switch := some sels }
    |> weaveAtSwitch p (weavePayload old.gen new.gen new.imageId 0 1 0 0)
    |> switchCoding p old.weft new.weft (s.part p).forcedRaw |> rebindPred p old.weft new.weft
    |> switchHoop p old.weft new.weft |> switchGraph p (hangFlag new.weft 0)
  let units := if c.watchApply then s1.watchUnits p else []
  let skipped := if c.watchApply then (s1.unitsOf p).length - units.length else 0
  let c1 := { c with switched := true, unitsLeft := units, skipped := skipped }
  let s2 := modPart p (fun x => { x with commit := some c1 }) s1
  if units.isEmpty then finishCommit p c1 s2 else each units (fun u => writeDefaults u p (.watchApply p u)) s2

/-- The commit of a partition may switch: its settle point has been reached, the timebase is at a CTL edge, and neither a
partition reset nor a revocation of its owner has been asked for before (R117, R235, R240). -/
def State.maySwitch (s : State) (p : Nat) (c : Commit) : Bool :=
  !c.switched && c.settled.isSome && s.ctlEdge && !(s.part p).resetPending && !s.revoking p

/-- WEFT_SWITCH: the commit of a partition that has reached its settle point switches, whatever has been halted or cut since
(R232, R235). -/
def execWeftSwitch (part : Part) (s : State) : Host.Outcome State Fault Refusal :=
  let p := part.val
  let s1 := noteWeft p s
  match (s1.part p).commit, (s1.part p).inactive with
  | some c, some new => if s1.maySwitch p c then done (switchWeft p c new s1) else done s1
  | _, _ => done s1

/-- WATCH_APPLY_END (R238): every unit is written, or HALT_TIMEOUT has passed; the units not written are skipped. -/
def execWatchApplyEnd (part : Part) (s : State) : Host.Outcome State Fault Refusal :=
  let p := part.val
  match (s.part p).commit with
  | some c =>
    if c.switched && (c.unitsLeft.isEmpty || decide ((s.part p).switchTs.toNat + s.haltTimeout p ≤ s.t)) then
      done (finishCommit p c s)
    else done s
  | none => done s

/-! ### Warp commits (R245 to R252) -/

/-- An entry changes ENABLE or LANE_MAP of another one: the port retrains (R248 step 3). -/
def WarpPort.retrains (old new : WarpPort) : Bool := old.enable != new.enable || old.laneMap != new.laneMap

/-- Install the staged entry of a port (R248 step 3): a changed ENABLE or LANE_MAP takes the link down, for which no
DOWN_CAUSE is stated and which counts in TRAIN_FAILS where the link trained (R414); any other change enumerates the port
again, a link that retrains after its RESUME. The END latch points that a link going down brings are taken in the
partitions that their units had (R754). A unit that moves to another partition is uncertain there (R690). -/
def installPort (n : Nat) (w : WarpPort) (s : State) : State :=
  let down := (s.port n).warp.retrains w && (s.port n).lk.link.live
  let moved (t : State) : List Nat :=
    (s.units.filter fun e => e.1 / 4096 == n && s.unitPart e.1 != t.unitPart e.1).map (·.1)
  let s1 := s |> (fun t => if down then endsAtDown n t else t) |> modPort n (fun x => { x with warp := w })
    |> (fun t => each (moved t) uncertain t)
  if (s.port n).warp.retrains w then
    if (s1.port n).lk.link.live then s1 |> nextFree |> portDown n (Config.freeBits s.free).toNat true
    else if (s1.port n).lk.link == .down then s1 else startLink n s1
  else if s1.takesReq n then enumStart n s1
  else s1

/-- The ports that a warp commit retrains, and that may fail to. -/
def setPortsLeft (l : List Nat) (s : State) : State :=
  { s with weave := { s.weave with warpCommit := s.weave.warpCommit.map fun c => { c with portsLeft := l } } }

/-- WARP_SETTLE: every affected partition has been settled at one moment; the staged entries are installed. -/
def execWarpSettle (s : State) : Host.Outcome State Fault Refusal :=
  let s1 := noteWarp s
  match s1.weave.warpCommit with
  | none => done s1
  | some c =>
    if c.switched || c.settled.isNone then done s1
    else
      let staged := s1.weave.staged.filter fun e => c.portMask.getLsbD e.1
      let old := staged.map fun e => (e.1, (s1.port e.1).warp)
      let c1 := { c with switched := true, previous := old, affected := s1.warpParts c }
      let rest := s1.weave.staged.filter fun e => !c.portMask.getLsbD e.1
      let trains := (staged.filter fun e => e.2.entry.enable && (s1.port e.1).warp.retrains e.2.entry).map (·.1)
      done ({ s1 with weave := { s1.weave with warpCommit := some c1, staged := rest } }
            |> each staged (fun e => installPort e.1 e.2.entry) |> setPortsLeft trains)

/-- A port of a warp commit is done: it is enumerated, under its new entry or its previous one; it has failed to train with
either; or it stays disabled or in scan fallback (R248, R249). One that waits in DETECT for a die is not done, however long
it waits. DESIGN CHOICE, log entry 81. -/
def State.warpPortDone (s : State) (c : Commit) (n : Nat) : Bool :=
  c.failedAgain.contains n || s.up n || s.fallback n || (s.portDisabled n && (s.port n).lk.link == .disabled)

/-- Give up the stakes of partitions without units on a die (R248 step 4). -/
def giveUpStakes (n : Nat) (s : State) : State :=
  if (s.port n).lk.link == .active then
    each (((s.port n).stakes.filter fun e => e.2.held && !s.carries n e.1).map (·.1)) (fun p => askRelease n p) s
  else s

/-- WARP_COMMIT_DONE: the commit completes, with a record in every affected partition. The generation committed is the active
one, and OUTCOME 0, also where ports have their previous entries again; PARTIAL then shows that it took effect (R284).
DESIGN CHOICE, log entry 81. -/
def execWarpCommitDone (s : State) : Host.Outcome State Fault Refusal :=
  match s.weave.warpCommit with
  | none => done s
  | some c =>
    let ports := (List.range 8).filter fun n => c.portMask.getLsbD n
    if !c.switched || !ports.all (s.warpPortDone c) then done s
    else
      let status := if c.failedPorts.isEmpty then stOk else stLinkDown
      let ps := s.warpParts c
      let part := !c.failedPorts.isEmpty
      done ({ s with weave := { s.weave with warpCommit := none, warpActive := c.gen } } |> each ports giveUpStakes
            |> warpRecords ps c 0 c.gen status
            |> complete c.fn c.tag { status := status, part := part, r0 := c.gen.toNat, r3 := c.settleUs })

/-! ### SETTLE_MS (R240) -/

/-- COMMIT_SETTLE_TIMEOUT: a commit that has not found its settle point in time fails with BUSY. -/
def execCommitSettleTimeout (fn : Fn) (tag : W32) (s : State) : Host.Outcome State Fault Refusal :=
  let mine (c : Commit) : Bool :=
    c.fn == fn.val && c.tag == tag && !c.switched && c.settled.isNone && decide (c.deadline ≤ s.t)
  done (s |> noteSettled
    |> each (List.range 64) (fun p t => if (t.part p).commit.any mine then failCommit p stBusy t else t)
    |> (fun t => if t.weave.warpCommit.any mine then failWarp stBusy t else t))

/-! ### LOAD_MODEL (R812 to R815) -/

/-- An entry is in use: a weft plane binds it, a live run executes it, or NSL7_SCAN_CTRL names it. -/
def State.libInUse (s : State) (i : Nat) : Bool :=
  let binds (w : Mem) : Bool := weftBinding w roleCoding == some i || weftBinding w rolePred == some i
  (List.range 64).any (fun p => binds (s.part p).active.weft ||
      (match (s.part p).inactive with | some x => binds x.weft | none => false)) ||
    s.osier.runs.any (fun q => q.index == i) ||
    (s.osier.scanCtrl.getLsbD 16 && s.osier.scanCtrl.toNat / 256 % 256 == i)

/-- Free library space in KiB. -/
def State.libFreeKib (s : State) : Nat := (min (32 * 2 ^ 20) s.libRoom - s.libBytes) / 1024

/-- The section of a LOAD: one MODEL or PROGRAM section, and its signature as an image's (R813). DEDUCED, log entry 58. -/
def State.loadSection (s : State) (img : List Byte) (open_ : Nat) : Except Reject Section_ :=
  let n := if ceilDiv (field img 8 4) 8 * 8 + 16 < img.length then 2 else 1
  match walkSections { kind := 3, p := 0, ports := 0 } img img.length n 0 none [] with
  | .error r => .error r
  | .ok l =>
    match l with
    | x :: rest =>
      if (x.type == 0x30 || x.type == 0x31) && rest.all (fun y => y.type == 0xFF) then
        match s.signStep open_ img l with
        | some r => .error r
        | none => .ok x
      else .error { reason := rsScope, offset := x.off }
    | [] => .error { reason := rsLength, offset := 0 }

/-- LOAD: the entry enters the library of its partition, unless it is there already. -/
def loadModel (f : Nat) (c : Cmd) (data : List Byte) (s : State) : State :=
  let img := slice data 0 c.length
  let s1 := s |> bumpAlways (44 + fnPort f) c.length |> nextFree
  match s.loadSection img ((Config.freeBits s.free).toNat % 2 ^ 32) with
  | .error r => complete f c.tag { status := stModelRejected, r1 := img.length, r2 := r.reason, r3 := s.libFreeKib } s1
  | .ok x =>
    match addEntry s.osier.lib s.libRoom (x.type == 0x30) { x.entry with fromImage := false, addedBy := some c.partition } with
    | .error r =>
      complete f c.tag { status := rejectStatus r, r0 := x.inst, r1 := img.length, r2 := r, r3 := s.libFreeKib } s1
    | .ok lib =>
      let s2 := putLib lib s1
      complete f c.tag { already := (s.lib x.inst).isSome, r0 := x.inst, r1 := img.length, r3 := s2.libFreeKib } s2

/-- UNLOAD: the entry leaves the library. -/
def unloadModel (f : Nat) (c : Cmd) (s : State) : State :=
  let i := c.f 53 1
  let own := match s.lib i with | some e => !e.fromImage && e.addedBy == some c.partition | none => false
  match firstFail [((s.lib i).isNone, stBadUnit), (!own, stNotPermitted), (s.libInUse i, stBusy)] with
  | some st => fail f c.tag st s
  | none =>
    let s1 := { s with osier := { s.osier with lib := s.osier.lib.filter fun e => e.index != i } }
    complete f c.tag { r0 := i, r3 := s1.libFreeKib } s1

/-- LOAD_MODEL (R812 to R815). -/
def execLoadModel (fn : Fn) (tag : W32) (data : List Byte) (s : State) : Host.Outcome State Fault Refusal :=
  done (startCmd 0x60 fn tag (fun c t =>
    if !t.owns fn c.partition then fail fn tag stNotOwner t
    else if c.f 52 1 = 0 then loadModel fn c data t
    else unloadModel fn c t) s)

end Sys2Proof.Machine
end

