-- ==== Sys2Proof/Machine/Descriptors.lean ====
section
/-!
DEFINITION. Checking a descriptor: rows 1 to 9 of R288, with the unit, length and buffer rules (R285, R288 to R295).
-/

namespace Sys2Proof.Machine

open Sys2Proof

/-- The commands: opcode, issued by a VF, issued by a PF (R285). -/
def commands : List (Nat × Bool × Bool) :=
  [(0x01, true, true), (0x02, true, false), (0x03, true, false), (0x04, true, false), (0x05, false, true)] ++
  [(0x10, true, false), (0x11, true, false), (0x12, true, false), (0x13, true, false), (0x14, true, false),
   (0x15, true, false), (0x16, true, false), (0x20, true, false), (0x21, true, false), (0x22, true, false),
   (0x23, true, false)] ++
  [(0x30, true, false), (0x31, true, false), (0x32, true, false), (0x33, true, false), (0x40, true, false),
   (0x41, true, false), (0x50, true, false), (0x51, true, true), (0x60, true, false), (0x61, true, false),
   (0x62, true, false)] ++
  [(0x70, true, true), (0x71, true, true), (0x80, true, false), (0x90, true, true), (0x91, false, true),
   (0x92, false, true), (0xA0, false, true), (0xA1, false, true), (0xB0, false, true)]

/-- A function may issue an opcode; none for an opcode that is no command. -/
def mayIssue (f op : Nat) : Option Bool :=
  (commands.find? fun e => e.1 == op).map fun e => if isPf f then e.2.2 else e.2.1

/-! ### Row 4: reserved encodings -/

/-- GRANT actions that use TARGET, and those that use PARTITION (R339). DEDUCED, log entry 16. -/
def grantTarget (a : Nat) : Bool := [1, 3, 4, 5, 6, 7].contains a
def grantPartition (a : Nat) : Bool := [1, 2, 3, 4].contains a

/-- PORT_SEQ names a port twice, names no port, or omits a port that carries a named unit (R571). -/
def State.badPortSeq (s : State) (c : Cmd) : Bool :=
  let l := portSeq c.param0
  l.any (fun n => decide (7 < n)) || !decide l.Nodup ||
    (s.cmdUnits c).any fun u => decide (u < 32768) && !l.contains (u / 4096)

/-- SET_WALLCLOCK: the fields that R360 refuses. -/
def Cmd.badWallclock (c : Cmd) : Bool :=
  let fl := c.f 52 1 % 4
  let period := c.f 56 4
  fl == 0 || (bit fl 1 && (decide (31622400 < period) || (period != 0 && decide (period ≤ c.param2))))

/-- A field of the command holds a reserved encoding (R31, R230, R523, R547, R567, R571 and the field tables of the
commands). DEDUCED, log entry 16. -/
def State.reservedField (s : State) (c : Cmd) : Bool :=
  let m := c.f 52 1
  let op := c.op
  c.tag == 0 ||
  (if op = 0x05 then m == 0 || decide (9 < m) || (grantTarget m && decide (63 < c.f 53 1))
   else if op = 0x12 then decide (1 < m) || decide (10000000 < c.param0)
   else if op = 0x11 then decide (1 < m) || (m == 1 && s.badPortSeq c)
   else if op = 0x13 then decide (7 < m)
   else if op = 0x14 then decide (7 < m) && m != 0xFF
   else if op = 0x15 then decide (3 < m)
   else if op = 0x16 then decide (3 < m) && m != 0xFF
   else if op = 0x31 then decide (1 < m) || decide (2 < c.f 53 1)
   else if op = 0x32 then c.f 53 1 != 0 && c.f 53 1 != 2
   else if op = 0x40 then m % 16 == 0 || (bit m 2 && bit m 3)
   else if op = 0x50 then decide (1000 < c.f 54 2)
   else if op = 0x70 then m != 1 && m != 2
   else if op = 0x71 then (m != 1 && m != 2) || decide (1000 < c.f 54 2)
   else if op = 0x90 then decide (1 < m) || (m == 0 && decide (64 ≤ c.f 53 1) && decide (c.f 53 1 ≤ 0xFD))
   else if op = 0x92 then c.badWallclock
   else if op = 0x41 || op = 0x62 || op = 0xA0 then decide (2 < m)
   else if [0x03, 0x51, 0x60, 0x80].contains op then decide (1 < m)
   else false)

/-! ### Row 5: PARTITION -/

/-- The command uses PARTITION. -/
def Cmd.usesPartition (c : Cmd) : Bool :=
  let m := c.f 52 1
  if c.op = 0x05 then grantPartition m
  else if c.op = 0x51 then m == 0
  else if c.op = 0x70 || c.op = 0x71 then m == 1
  else [0x02, 0x03, 0x04, 0x10, 0x11, 0x12, 0x13, 0x14, 0x15, 0x16, 0x20, 0x21, 0x22, 0x23, 0x30, 0x31, 0x32, 0x33,
        0x40, 0x41, 0x50, 0x60, 0x61, 0x80].contains c.op

/-! ### Row 6: units (R290, R291, R435) -/

/-- The command uses a unit range; HALT names the whole partition (R546). -/
def Cmd.usesUnits (c : Cmd) : Bool :=
  [0x11, 0x12, 0x13, 0x14, 0x15, 0x16, 0x20, 0x21, 0x22, 0x23, 0x32].contains c.op || (c.op == 0x40 && bit (c.f 52 1) 0)

/-- The command names exactly one unit (R547, R639). -/
def Cmd.oneUnit (c : Cmd) : Bool := [0x22, 0x23, 0x32].contains c.op

/-- The command reaches a unit in scan fallback. -/
def Cmd.reachesFallback (c : Cmd) : Bool := [0x11, 0x12, 0x22, 0x23].contains c.op

/-- The unit rules. -/
def State.unitRow (s : State) (c : Cmd) : Option Byte :=
  if !c.usesUnits then none
  else if c.unitCount = 0 then some stBadLen
  else if c.oneUnit && c.unitCount != 1 then some stBadLen
  else if c.unitCount != 0xFFFF && decide (0x8000 < c.unitFirst + c.unitCount) then some stBadUnit
  else if (s.cmdUnits c).any fun u => s.unitPart u != some c.partition then some stBadUnit
  else if !c.reachesFallback && (s.cmdUnits c).any fun u => s.fallback (u / 4096) then some stBadUnit
  else none

/-! ### Rows 7 to 9: lengths and the buffer (R292 to R295) -/

/-- LENGTH 0xFFFF_FFFF against a region whose SIZE no class descriptor gives (R292, R435). DEDUCED, log entry 20. -/
def State.noSize (s : State) (c : Cmd) : Bool :=
  c.length == 0xFFFFFFFF &&
    (s.fallback (c.unitFirst / 4096) || (classRegion (s.classOf c.unitFirst) c.region).isNone)

/-- COUNTER_CONFIG's LENGTH breaks R764. -/
def Cmd.badSels (c : Cmd) : Bool :=
  c.length % 8 != 0 || decide (c.length < 8) || decide (512 < c.length) || decide (64 < c.param0 % 64 + c.length / 8)

/-- COUNTER_LATCH: MASK 0, or a LENGTH below the block's (R770). -/
def Cmd.badLatch (c : Cmd) : Bool :=
  let mask := c.f 20 8
  if c.f 52 1 = 1 then decide (c.length < 1088)
  else mask == 0 || decide (c.length < 32 + 16 * (maskList mask).length)

/-- METER_READ's LENGTH (R372, R373). -/
def Cmd.badMeterLen (c : Cmd) : Bool :=
  if c.f 52 1 = 0 then decide (c.length < 64) else c.length % 64 != 0 || decide (65536 < c.length)

/-- A length is 0, or holds a value that the command does not accept. DEDUCED, log entry 20. DEDUCED, log entry 58. -/
def State.badLength (s : State) (c : Cmd) : Bool :=
  let m := c.f 52 1
  let plain := c.length == 0 || c.length == 0xFFFFFFFF
  let op := c.op
  if op = 0x15 then c.length != 40
  else if op = 0x22 || op = 0x32 then c.length == 0 || s.noSize c
  else if op = 0x41 then m == 1 && plain
  else if op = 0x50 then c.badSels
  else if op = 0x51 then plain || c.badLatch
  else if op = 0x60 then m == 0 && (plain || decide (1048808 < c.length))
  else if op = 0x90 then plain || c.badMeterLen
  else if [0x20, 0x21, 0x23, 0x80].contains op then plain
  else false

/-- Bytes that the command moves through its buffer window; none where it uses no buffer. -/
def State.bufferBytes (s : State) (c : Cmd) : Option Nat :=
  let m := c.f 52 1
  let op := c.op
  if op = 0x20 || op = 0x21 then some (c.length * (s.cmdUnits c).length)
  else if op = 0x22 || op = 0x23 then some (s.memLength c)
  else if op = 0x32 then
    if c.f 53 1 = 0 then
      let n := ceilDiv (s.memLength c) 4096
      some (4160 * (n + manifestSplints n))
    else none
  else if op = 0x41 then if m = 1 then some c.length else none
  else if op = 0x50 then if bit m 1 then none else some c.length
  else if op = 0x60 then if m = 0 then some c.length else none
  else if [0x15, 0x51, 0x80, 0x90].contains op then some c.length
  else none

/-- RUN_PROGRAM with HOST_OUT: its window is at most 16 MiB (spec/15, after R817). -/
def Cmd.hostOutRun (c : Cmd) : Bool := c.op == 0x61 && bit (c.f 53 1) 0

/-- Rows 4 to 9. -/
def State.fieldRows (s : State) (c : Cmd) : Option Byte :=
  if s.reservedField c then some stBadOpcode
  else if c.usesPartition && decide (63 < c.partition) then some stBadUnit
  else
    match s.unitRow c with
    | some st => some st
    | none =>
      if s.badLength c then some stBadLen
      else if c.hostOutRun then
        if 2 ^ 24 < c.bufWindow then some stLenExceedsBuf else if c.badBuffer then some stBadAddress else none
      else
        match s.bufferBytes c with
        | none => none
        | some n => if c.bufWindow < n then some stLenExceedsBuf else if c.badBuffer then some stBadAddress else none

/-- Rows 1 to 9 of R288; LIFECYCLE_ADVANCE follows R150, whose first row comes first. -/
def State.descriptorCheck (s : State) (f : Nat) (c : Cmd) : Option Byte :=
  match mayIssue f c.op with
  | none => some stBadOpcode
  | some may =>
    if c.op = 0xB0 then s.lcyFirst f c
    else if !may then some stNotPermitted
    else if s.boot.phase != .ready && c.op != 0x01 then some stBusy
    else s.fieldRows c

end Sys2Proof.Machine
end

