-- ==== Sys2Proof/Machine/Wale.lean ====
section
/-!
DEFINITION. The trace port and the trace region: TRACE_CONFIG, TRACE_FLUSH, sending frames, gaps, spill, TIMESYNC records
and the port's link (spec/13).
-/

namespace Sys2Proof.Machine

open Sys2Proof

/-! ### TRACE_CONFIG (R708 to R712) -/

/-- The CTL edge at which a change made now takes effect: this tick, or the next one that is an edge (R90). -/
def State.nextEdge (s : State) : W64 := s.now + BitVec.ofNat 64 ((4 - s.now.toNat % 4) % 4)

/-- SET_ROUTE: the DEST of each class of the mask is replaced at a CTL edge, as a weft switch does it (R706, R710). -/
def setRoute (p mask dest : Nat) (s : State) : State :=
  modPart p (fun x =>
    { x with oldRoutes := x.routes, switchTs := s.nextEdge, routeOverride := true,
             routes := (List.range 16).map fun k =>
               if bit mask (k + 1) then BitVec.ofNat 8 dest else x.routes.getD k 0 }) s

/-- FORCE_RAW and WEFT_ENCODING (R710, R939). -/
def setEncoding (p : Nat) (raw : Bool) (s : State) : State :=
  s |> modPart p (fun x => { x with forcedRaw := raw }) |> syncCoder p (if raw then 2 else 3)

/-- SET_EVT: EVT_EN of each named unit, with the bits that R649 keeps set. -/
def setEvt (f : Nat) (c : Cmd) (s : State) : State :=
  let keep := if hangFlag (s.part c.partition).active.weft 0 then 3 else 0
  let v := c.f 53 1 % 32 ||| keep
  let down := (s.cmdUnits c).any s.unitDown
  s |> modWork f c.tag (fun w => { w with skipped := down })
    |> sendAll f c ((s.targets c true).map fun x => regWrite x 0x000C (leBytes 4 v))
    |> advanceCmd f c.tag

/-- TRACE_CONFIG: its routes and encoding are side effects that stand before the first message of SET_EVT (R284, R286). -/
def execTraceConfig (fn : Fn) (tag : W32) (s : State) : Host.Outcome State Fault Refusal :=
  done (startCmd 0x40 fn tag (fun c t =>
    let p := c.partition
    let fl := c.f 52 1
    let held := bit fl 0 && (t.cmdUnits c).any (t.twinHoldsUnit p)
    match firstFail [(!t.owns fn p, stNotOwner), (t.barred c, stPartitionReweaving), (held, stStakeHeldByTwin)] with
    | some st => fail fn tag st t
    | none =>
      let t1 := if bit fl 1 then setRoute p c.param0 (c.f 54 1) t else t
      let t2 := if bit fl 2 || bit fl 3 then setEncoding p (bit fl 2) t1 else t1
      if bit fl 0 then t2 |> modWork fn tag (fun w => { w with executed := fl % 16 / 2 != 0 }) |> setEvt fn c
      else complete fn tag {} t2) s)

/-! ### TRACE_FLUSH (R721 to R723) -/

/-- Records of the port stream that are not yet handed to the port's MAC. -/
def PartSt.unsent (x : PartSt) : Nat :=
  x.waiting + (x.frames.map fun f => f.recs).sum + ((x.frame.map fun f => f.recs).getD 0)

/-- The first `n` records of the port stream have left: the coded bytes of the last one may still stand in a frame. -/
def PartSt.drained (x : PartSt) (n : Nat) : Bool :=
  let out := x.portIn - x.unsent
  decide (n < out) || (out == n && (!x.coder.coded || (x.frame.isNone && x.frames.isEmpty)))

/-- MODE 1: committed blocks, whole and in order, to the buffer window. `found`: what the read of the blocks meets (R995,
R999); each block known to hold an uncorrectable word is an occurrence. DEDUCED, log entry 67. Where a write of the buffer
fails, how many blocks it had written is a free value (R296). DESIGN CHOICE, log entry 25. -/
def flushRead (f : Nat) (c : Cmd) (found : Ecc) (s : State) : State :=
  let p := c.partition
  let asked := if c.param0 = 0 then (((s.part p).blocks.head?).map fun b => b.seq.toNat).getD 0 else c.param0
  let held := if s.traceRegion then (s.part p).blocks.filter (fun b => decide (asked ≤ b.seq.toNat)) else []
  let out := held.take (c.length / 65536)
  let first := (out.head?.map fun b => b.seq.toNat).getD 0
  let next := (out.getLast?.map fun b => b.seq.toNat + 1).getD asked
  let checked := s.inlineEcc && !out.isEmpty
  let bads := if checked then (out.filter (·.bad)).length + b2n (found == .bad) else 0
  let bad := decide (0 < bads)
  let s1 := (if checked && found == .corrected then correctedWord true s else s)
    |> each (List.range bads) (fun _ => uncorrectableItem true 1 p 0 1)
  if s.writeFails f c.tag then
    let n := if out.isEmpty then 0 else (Config.freeBits s1.free).toNat % out.length
    s1 |> nextFree |> each (out.take n).zipIdx (fun (b, k) => bufWrite f c.tag (65536 * k) b.bytes)
       |> complete f c.tag { status := stBadAddress, part := decide (0 < n), r0 := n, r1 := first,
                             r2 := if out.isEmpty then 0 else first - asked, r3 := if n = 0 then asked else first + n }
  else
  s1 |> each out.zipIdx (fun (b, k) => bufWrite f c.tag (65536 * k) b.bytes)
     |> complete f c.tag { status := if bad then stPoisoned else stOk, part := bad, r0 := out.length, r1 := first,
                           r2 := if out.isEmpty then 0 else first - asked, r3 := next }

/-- A gap at DRAM ends: its LOSS record goes into the region, or, with the region absent, into the port stream; where there
is none its count is carried (R735, R736). DEDUCED, log entry 54. -/
def endDramGap (p : Nat) (g : Gap) (s : State) : State :=
  let mk (n : Nat) : State → TraceRec := lossRec p n g.cause.toNat 2 0xFF g.firstTs g.lastTs g.bytes 0xFFFF
  let s1 := modPart p (fun x => { x with gapDram := none }) s
  if s.traceRegion then putDramLoss p g.count mk s1
  else if s.hasPortStream p then dramLossToPort p g.count mk s1
  else modPart p (fun x => { x with carryDram := x.carryDram + g.count }) s1

/-- Recording resumes at DRAM in stop-when-full mode: the open block is committed, the open LOSS record ends and its reserve
block is committed behind it (R719). It does so while a free block remains for the open block. DEDUCED, log entry 61. -/
def closeReserve (p : Nat) (s : State) : State :=
  match (s.part p).gapDram with
  | some g =>
    if !s.stopWhenFull || g.cause == 2 || ((s.part p).openBlock.isSome && s.blocksFree == 0) then s
    else
      let s1 := putOpen p s
      match (s.part p).reserve with
      | some b =>
        let b1 := { b.shows g false with committed := s.now, bad := s1.dramHit }
        spendDram s1 |> queueBlock
           |> modPart p (fun x => { x with blocks := x.blocks ++ [b1], reserve := none, gapDram := none })
           |> modMeters (s1.part p).owner (fun m => m.add 0 0 (tierBytes (b1.recs.take 1)) 0 0) |> lossPlaced p g.count
      | none => endDramGap p g s1
  | none => s

/-- MODE 2: blocks up to a BLOCK_SEQ are freed. DEDUCED, log entry 61. -/
def flushDiscard (f : Nat) (c : Cmd) (s : State) : State :=
  let p := c.partition
  let gone := (s.part p).blocks.filter fun b => decide (b.seq.toNat ≤ c.param0)
  let s1 := modPart p (fun x => { x with blocks := x.blocks.filter fun b => !decide (b.seq.toNat ≤ c.param0) }) s
  let s2 := if gone.isEmpty then s1 else each (p :: (List.range 64).erase p) closeReserve s1
  complete f c.tag { r0 := gone.length } s2

/-- TRACE_FLUSH: MODE 0 waits for its backlog at the fetch to drain. DESIGN CHOICE, log entry 12. -/
def execTraceFlush (fn : Fn) (tag : W32) (found : Ecc) (s : State) : Host.Outcome State Fault Refusal :=
  done (startCmd 0x41 fn tag (fun c t =>
    let p := c.partition
    let mode := c.f 52 1
    let role := if mode = 2 then t.owns fn p else t.reads fn p
    let badLen := mode == 1 && (c.length % 65536 != 0 || decide (16 * 2 ^ 20 < c.length))
    match firstFail [(!role, stNotOwner), (badLen, stBadLen)] with
    | some st => fail fn tag st t
    | none =>
      if mode = 0 then
        modWork fn tag (fun w => { w with stage := 1 }) t
      else if mode = 1 then flushRead fn c found t
      else flushDiscard fn c t) s)

/-- TRACE_FLUSH_DRAINED: the backlog of a MODE 0 has drained; the open block is committed (R717, R721). Until the region takes
it, the command waits. DEDUCED, log entry 12. -/
def execTraceFlushDrained (fn : Fn) (tag : W32) (s : State) : Host.Outcome State Fault Refusal :=
  match s.cmd fn tag with
  | none => done s
  | some c =>
    if c.op == 0x41 && c.started && c.work.stage == 1 && (s.part c.partition).drained c.work.r1 then
      match commitBlock c.partition (shedQueue c.partition s) with
      | some s1 => done (complete fn tag { r0 := sat 0xFFFFFFFF c.work.r0 } s1)
      | none => done s
    else done s

/-! ### Sending (R728, R729) -/

/-- A coded stream whose 4,096th frame has closed at a record boundary makes its periodic reset point (R939). -/
def periodicReset (p : Nat) (s : State) : State :=
  if (s.part p).coder.coded && decide (periodicFrames ≤ (s.part p).coder.frames) then forceReset p 9 s else s

/-- KEEPALIVE_TIMER (R728): 1 ms without a frame. No frame leaves before READY (R110, R136). DEDUCED, log entry 76. -/
def execKeepaliveTimer (s : State) : Host.Outcome State Fault Refusal :=
  if s.boot.phase == .ready && s.wale.portUp && s.after s.wale.lastFrame 1000 then
    done (sendEther 3 0xFF false 0 0 s.t (zeros 8) s)
  else done s

/-- Send the oldest dump frame: FIRST_TS is the splint's EMIT_TS (R634, R726). -/
def sendDump (s : State) : State :=
  match s.wale.dumpQueue with
  | (p, b) :: rest =>
    { s with wale := { s.wale with dumpQueue := rest, lastDump := true } }
      |> sendEther 2 p false 0 0 (field b 40 8) b
  | [] => s

/-- A partition has a frame to send. -/
def State.hasFrame (s : State) (p : Nat) : Bool := !(s.part p).frames.isEmpty

/-- Body bytes of a partition's next frame. -/
def State.nextBody (s : State) (p : Nat) : Nat := (((s.part p).frames.head?).map fun f => f.bodyBytes.length).getD 0

/-- Deficit round robin in body bytes (R729): the partition in turn goes on while its deficit lasts; else the turn passes to
the next one with a frame, which gains PORT_SHARE frames' worth. DESIGN CHOICE, log entry 59. DESIGN CHOICE, log entry 70.
-/
def State.tracePick (s : State) : Option (Nat × Nat) :=
  let cur := s.wale.turn
  if s.hasFrame cur && decide (s.nextBody cur ≤ (s.part cur).portDeficit) then some (cur, (s.part cur).portDeficit)
  else
    (((List.range 64).map fun k => (cur + 1 + k) % 64).find? s.hasFrame).map fun p =>
      (p, (s.part p).portDeficit + frameBody * s.portShare p)

/-- Send the next trace frame. DESIGN CHOICE, log entry 59. -/
def sendTurn (s : State) : State :=
  match s.tracePick with
  | none => s
  | some (p, deficit) =>
    let n := s.nextBody p
    { s with wale := { s.wale with turn := p, lastDump := false } }
      |> sendTrace p
      |> (fun t => modPart p (fun x => { x with portDeficit := if x.frames.isEmpty then 0 else deficit - n }) t)
      |> checkSwitch p

/-- What the read of a tier meets: a correctable word, or a record that is dropped and opens a gap (R995, R999). External
memory shows a bad word only with inline ECC (R997). -/
def readTier (found : Ecc) (s : State) : State :=
  match s.tracePick with
  | none => s
  | some (p, _) =>
    let x := s.part p
    match x.tier[x.nextRead]?, found with
    | some r, .corrected => correctedWord (r.spilled && s.inlineEcc) s
    | some _, .bad => s |> modPart p (fun y => { y with tier := modAt y.tier y.nextRead fun r => { r with bad := true } }) |> shedTier p
    | _, _ => s

/-- The newest record of the open block, the one that waits in the DRAM write queue, holds an uncorrectable word. -/
def spoilQueue (p : Nat) (s : State) : State :=
  modPart p (fun x => { x with openBlock := x.openBlock.map fun b =>
    { b with recs := modAt b.recs (b.recs.length - 1) fun r => { r with bad := true } } }) s

/-- A dump frame goes next: trace and dump frames alternate while both wait (R729). -/
def State.dumpNext (s : State) : Bool :=
  !s.wale.dumpQueue.isEmpty && (!(List.range 64).any s.hasFrame || !s.wale.lastDump)

/-- TRACE_FRAME_SEND. `found`: what the reads meet; a bad record of the DRAM write queue has no command of its own. DESIGN
CHOICE, log entry 12. -/
def execTraceFrameSend (found : TraceEcc) (s0 : State) : Host.Outcome State Fault Refusal :=
  let s := match found with
    | .queue p => s0 |> spoilQueue p.val |> shedQueue p.val
    | .tier _ => s0
  if !s.wale.portUp then done s
  else if s.dumpNext then done (sendDump s)
  else done (sendTurn (match found with | .tier e => readTier e s | .queue _ => s))

/-- Send frames in their turns until `last` is the sequence number of a partition's next frame, in at most `n` turns. -/
def sendUntil (p : Nat) (last : W32) : Nat → State → State
  | 0, s => s
  | n + 1, s =>
    if (s.part p).partSeq == last || (s.part p).frames.isEmpty then s
    else sendUntil p last n (if s.dumpNext then sendDump s else sendTurn s)

/-- Send the frames of a partition that wait now, and with them those whose turn comes first (R729): a turn of each other
partition is at most 255 full bodies. -/
def sendWaiting (p : Nat) (s : State) : State :=
  let k := (s.part p).frames.length
  sendUntil p ((s.part p).partSeq + BitVec.ofNat 32 k) (k * 2 * 64 * 4160 * 256) s

/-- TRACE_FRAME_TIMEOUT: 10 µs after its first byte a frame is sent, in its turn, and a coded one ends its span (R728, R729,
R935). -/
def execTraceFrameTimeout (part : Part) (s : State) : Host.Outcome State Fault Refusal :=
  let p := part.val
  match (s.part p).frame with
  | some fr =>
    if s.wale.portUp && s.after fr.since 10 then
      done (s |> (fun t => if fr.coded then endSpan p t else t) |> closeCoded p |> sendWaiting p |> periodicReset p
              |> checkSwitch p)
    else done s
  | none => done s

/-! ### Gaps and spill (R731 to R736) -/

/-- Room has returned at the port for a partition in a gap. -/
def State.portRoom (s : State) (p : Nat) : Bool :=
  if (s.part p).spill.isEmpty then s.tierRoom p 65536 else decide (s.spillBlocks + 64 ≤ s.traceBlocks / 4)

/-- A gap at the port ends: its LOSS record is placed, and recording resumes. -/
def endPortGap (p : Nat) (g : Gap) (s : State) : State :=
  s |> modPart p (fun x => { x with gapPort := none })
    |> lossToPort p g.count (fun n => lossRec p n g.cause.toNat 1 0xFF g.firstTs g.lastTs g.bytes 0xFFFF)

/-- A gap at DRAM may end: the region takes a block and its write queue has 64 KiB free (R733). In stop-when-full mode it
resumes by TRACE_FLUSH alone (R719). -/
def State.dramRoom (s : State) : Bool :=
  !s.traceRegion || (!s.stopWhenFull && s.queueTakes 65536 && (takeBlock s).isSome)

/-- GAP_END (R733). -/
def execGapEnd (part : Part) (dram : Bool) (s : State) : Host.Outcome State Fault Refusal :=
  let p := part.val
  if dram then
    match (s.part p).gapDram with
    | some g =>
      if s.dramRoom then done (endDramGap p g s) else done s
    | none => done s
  else
    match (s.part p).gapPort with
    | some g => if s.portRoom p then done (endPortGap p g s) else done s
    | none => done s

/-- SPILL_RETURN (R731): the oldest spill block's records go back into the tier once it has room for them. -/
def execSpillReturn (part : Part) (s : State) : Host.Outcome State Fault Refusal :=
  let p := part.val
  match (s.part p).spill with
  | b :: rest =>
    if s.tierRoom p b.used then
      done (s |> modPart p (fun x => { x with spill := rest, tier := x.tier ++ b.recs }) |> pumpPort p |> checkSwitch p)
    else done s
  | [] => done s

/-! ### TIMESYNC records and the port's link -/

/-- TIMESYNC_RECORD_TIMER (R739, R742): 10 ms after the last record. After re-pairing the first exchange writes the first
record. DEDUCED, log entry 62. -/
def execTimesyncRecordTimer (link : LinkNo) (s : State) : Host.Outcome State Fault Refusal :=
  let l := link.val
  let x := s.lnk l
  if x.link == .active && (l != 8 || (s.plait.pair == .paired && !x.recResumed)) && s.after x.recAt 10000 then done (timesyncRec l false s)
  else done s

/-- The trace port's link may be up: it starts in LINK_TRAIN, and is idle in Blank and End of life (R123, R138). DEDUCED, log
entry 76. -/
def State.waleStarts (s : State) : Bool :=
  match s.boot.phase with
  | .linkTrain | .enumerate | .ready => true
  | .clock | .fuse | .journal | .scrub | .awaitWeave | .blank | .eol => false

/-- WALE_LINK_UP (R726): the next frame carries RESTART. -/
def execWaleLinkUp (s : State) : Host.Outcome State Fault Refusal :=
  if s.wale.portUp || !s.clk.wale || !s.waleStarts then done s
  else done { s with wale := { s.wale with portUp := true, restart := true, lastFrame := s.t } }

/-- The trace-port link goes down: WALE_DOWN (R992, R1004). -/
def waleDown (s : State) : State :=
  if s.wale.portUp then
    { s with wale := { s.wale with portUp := false, downAt := s.t } } |> raiseErr 0x0B 4 0xFFFF 0 0 0
  else s

/-- WALE_LINK_DOWN. -/
def execWaleLinkDown (s : State) : Host.Outcome State Fault Refusal := done (waleDown s)

end Sys2Proof.Machine
end

