-- ==== Sys2Proof/Machine/Sessions.lean ====
section
/-!
DEFINITION. Rings and sessions: doorbells, ring set-up, descriptor fetches, interrupts, power states, NOP, and the resets
of a session, a PF and a host port (spec/05).
-/

namespace Sys2Proof.Machine

open Sys2Proof

/-! ### Rings -/

/-- A ring error (R276). -/
def ringErr (f code : Nat) (s : State) : State :=
  s |> modFn f (fun x => { x with fetching := false, ringError := true, errorCode := BitVec.ofNat 4 code, asked := 0 })
    |> setEvent f 0

/-- A whole write of SES_CMD_TAIL. The hub's fetch position stands behind the descriptors that it has asked for and not
received (R267, R276, R277, R279, R745). After a ring error a doorbell is taken as before; nothing is fetched. DEDUCED, log
entry 19. -/
def doorbell (f : Nat) (value : W32) (s : State) : State :=
  let x := s.fn f
  let v := value.toNat % 4096
  let new := (v + x.cmdSize - x.head.toNat % x.cmdSize) % x.cmdSize
  if !x.enable then s
  else if x.cmdSize ≤ v then ringErr f 2 s
  else if 0 < new ∧ new < x.asked then ringErr f 3 s
  else modFn f (fun y => { y with tail := BitVec.ofNat 12 v, hwm := hwmCmd y.hwm new }) s

/-- DOORBELL. -/
def execDoorbell (fn : Fn) (value : W32) (s : State) : Host.Outcome State Fault Refusal :=
  done (hostPut fn (doorbell fn value) s)

/-- A whole write of SES_CPL_HEAD: entries before the index are consumed (R273). -/
def cplHeadWrite (f : Nat) (value : W32) (s : State) : State :=
  modFn f (fun x => { x with cplHead := BitVec.ofNat 12 value.toNat }) s

/-- CPL_HEAD_WRITE. -/
def execCplHeadWrite (fn : Fn) (value : W32) (s : State) : Host.Outcome State Fault Refusal :=
  done (hostPut fn (cplHeadWrite fn value) s)

/-- A ring size field is in range (R261). -/
def FnSt.sizeOk (x : FnSt) : Bool :=
  let a := x.ringSize.toNat % 16
  let b := x.ringSize.toNat / 256 % 16
  decide (4 ≤ a) && decide (a ≤ 12) && decide (4 ≤ b) && decide (b ≤ 12)

/-- The rings of a function as ENABLE sets them up; the duplicate window stays (R265, R745). -/
def FnSt.enabled (x : FnSt) : FnSt :=
  { x with enable := true, fetching := true, head := 0, tail := 0, cplHead := 0, cplTail := 0, phase := true,
           ringError := false, errorCode := 0, hwm := 0, asked := 0 }

/-- ENABLE is written with 1: the high-water word returns to 0 also where the sizes are refused (R265, R266, R745).
DEDUCED, log entry 19. -/
def ringEnable (f : Nat) (s : State) : State :=
  if (s.fn f).sizeOk then modFn f FnSt.enabled s
  else modFn f (fun y => { y with errorCode := 1, hwm := 0 }) s

/-- RING_ENABLE. -/
def execRingEnable (fn : Fn) (s : State) : Host.Outcome State Fault Refusal :=
  done (hostPut fn (ringEnable fn) s)

/-- ENABLE is written with 0: fetching stops; what was fetched runs to its end (R275). -/
def ringDisable (f : Nat) (s : State) : State := 
  modFn f (fun x => { x with enable := false, fetching := false, asked := 0 }) s

/-- RING_DISABLE. -/
def execRingDisable (fn : Fn) (s : State) : Host.Outcome State Fault Refusal :=
  done (hostPut fn (ringDisable fn) s)

/-! ### Fetching -/

/-- Commands of the function that may be fetched and not completed (R302). -/
def inflightMax (f : Nat) : Nat := if isPf f then Config.inflightPf else Config.inflightVf

/-- The completion ring has an entry to reserve for one more command (R271). -/
def FnSt.cplFree (x : FnSt) : Bool :=
  decide (x.unconsumed + x.inflight.length + x.held.length < x.cplSize - 1)

/-- The function has a descriptor to fetch, and the hub may take it (R257, R270, R271, R302). -/
def State.canFetch (s : State) (f : Nat) : Bool :=
  let x := s.fn f
  s.barOpen f && x.enable && x.fetching && !x.d3hot && x.tail != x.head && x.cplFree &&
    decide (x.inflight.length < inflightMax f)

/-- The functions of a host port in the order of their turns, and the place of a function in it (R308). DESIGN CHOICE, log
entry 70. -/
def turnFn (port k : Nat) : Nat := if k = 0 then 64 + port else 16 * port + (k - 1)
def turnOf (f : Nat) : Nat := if isPf f then 0 else f % 16 + 1

/-- The function that a host port fetches from next: the one whose turn has not ended, else the next one around that has a
descriptor to fetch (R308). -/
def State.fetchTurn (s : State) (port : Nat) : Option Nat :=
  let k := (s.host port).turn
  if 0 < (s.fn (turnFn port k)).asked ∧ s.canFetch (turnFn port k) then some (turnFn port k)
  else ((List.range 17).map fun i => turnFn port ((k + 1 + i) % 17)).find? s.canFetch

/-- The hub fetches the function's next descriptor. -/
def State.mayFetch (s : State) (f : Nat) : Bool := s.canFetch f && s.fetchTurn (fnPort f) == some f

/-- Descriptors of a turn that begins: up to 4, as many as there are, as completion entries and as the limit of R302 let it
be. DESIGN CHOICE, log entry 70. -/
def FnSt.turnLength (x : FnSt) (limit : Nat) : Nat :=
  min (min 4 ((x.tail.toNat + x.cmdSize - x.head.toNat % x.cmdSize) % x.cmdSize))
    (min (x.cplSize - 1 - (x.unconsumed + x.inflight.length + x.held.length)) (limit - x.inflight.length))

/-- A descriptor of the function's turn arrives. -/
def takeTurn (f : Nat) (s : State) : State :=
  s |> modHost (fnPort f) (fun h => { h with turn := turnOf f })
    |> modFn f (fun x => { x with asked := (if x.asked = 0 then x.turnLength (inflightMax f) else x.asked) - 1 })

/-- A fetched command that has not started. -/
def newCmd (desc : BitVec 512) (now : Nat) : Cmd :=
  { desc := desc, tag := BitVec.ofNat 32 (dfield desc 4 4), fetched := now, heldDup := false, started := false,
    work := Work.init }

/-- The session's RELEASE of the ownership of the command's partition waits: a later command is refused (R335). DEDUCED, log
entry 18. -/
def State.afterRelease (s : State) (f : Nat) (c : Cmd) : Bool :=
  !isPf f && c.usesPartition &&
    (s.fn f).inflight.any fun x => !x.heldDup && x.op == 0x03 && x.partition == c.partition && x.f 52 1 == 0 &&
      (s.owns f c.partition ||
        (earlier (s.fn f).inflight x.tag).any fun y => y.op == 0x02 && y.partition == c.partition)

/-- A fetched TRACE_FLUSH notes its partition's backlog and the records of its port stream (R723). -/
def State.noteBacklog (s : State) (c : Cmd) : Cmd :=
  if c.op = 0x41 then
    { c with work := { c.work with r0 := (s.part c.partition).backlog, r1 := (s.part c.partition).portIn } }
  else c

/-- A descriptor has reached the hub: a duplicate answers from the window or is held; another one is checked, and completes
or waits to start (R288, R289, R298, R299). DEDUCED, log entry 15.
DEDUCED, log entry 19. NOT_OWNER of R335 comes before the rows of R222 that a REWEAVE meets at its start. DESIGN CHOICE, log
entry 79. -/
def takeDescriptor (f : Nat) (desc : BitVec 512) (s : State) : State :=
  let c := s.noteBacklog (newCmd desc s.t)
  let add (x : Cmd) : State → State := modFn f (fun y => { y with inflight := y.inflight ++ [x] })
  match (s.fn f).window.find? fun e => e.tag == c.tag with
  | some e => deliverCpl f { e with dup := true } false s
  | none =>
    if (s.cmd f c.tag).isSome then add { c with heldDup := true } s
    else
      match s.descriptorCheck f c with
      | some st => s |> add c |> fail f c.tag st
      | none => if s.afterRelease f c then s |> add c |> fail f c.tag stNotOwner else add c s

/-- DESCRIPTOR_FETCH: the descriptor at SES_CMD_HEAD, or the PCIe error that its fetch ends in (R270, R276). -/
def execDescriptorFetch (fn : Fn) (desc : BitVec 512) (error : Bool) (s : State) : Host.Outcome State Fault Refusal :=
  let f := fn.val
  if !s.mayFetch f then done s
  else if error then done (s |> takeTurn f |> ringErr f 4)
  else
    let next (x : FnSt) : FnSt := { x with head := BitVec.ofNat 12 ((x.head.toNat + 1) % x.cmdSize) }
    done (s |> takeTurn f |> modFn f next |> bumpAlways (44 + fnPort f) 64 |> takeDescriptor f desc)

/-- COALESCE_TIMEOUT: TIME_US has passed since the first completion not signalled (R315). -/
def execCoalesceTimeout (fn : Fn) (s : State) : Host.Outcome State Fault Refusal :=
  let x := s.fn fn
  let us := x.coal.toNat / 65536 % 1024
  match x.coalSince with
  | some t =>
    if 0 < us && s.after t us then
      done (s |> modFn fn (fun y => { y with coalCount := 0, coalSince := none }) |> signal fn (cplVector fn))
    else done s
  | none => done s

/-- NOP (R287). -/
def execNop (fn : Fn) (tag : W32) (s : State) : Host.Outcome State Fault Refusal :=
  done (startCmd 0x01 fn tag (fun _ t => complete fn tag {} t) s)

/-! ### A PCIe error on a buffer window (R296) -/

/-- The command moves data through its buffer window. -/
def State.usesBuffer (s : State) (c : Cmd) : Bool :=
  (s.bufferBytes c).isSome || c.op == 0x70 || (c.op == 0x31 && c.f 53 1 == 0)

/-- The result words that a command has come to: what TRACE_FLUSH and a GRANT keep in their place is their own, and a
TAKEOVER counts the pairs that it has gained and those still missing (R978). -/
def State.results (s : State) (c : Cmd) : Nat × Nat × Nat :=
  let w := c.work
  if c.op = 0x05 ∨ c.op = 0x41 then (0, 0, 0)
  else if c.op = 0xA0 then
    if c.f 52 1 = 2 then ((s.takeover c).1, (s.takeover c).2, 0) else (0, 0, 0)
  else (w.r0, w.r1, w.r2)

/-- A started HANDOFF, all of whose pairs the hub held (R975 row 7), has released one (R977). -/
def State.releasedSome (s : State) (c : Cmd) : Bool :=
  c.op == 0xA0 && c.f 52 1 == 1 && c.started && (List.range 64).any fun p =>
    bit c.partMask p && (s.portsOf p).any fun n => !(s.stake n p).held

/-- Side effects of a command that an error ends: a message executed, units served, bytes written, a role moved, a halt
action taken, fuse bits burned, a commit that has switched, a stake released (R284). DEDUCED, log entry 25. -/
def State.acted (s : State) (f : Nat) (c : Cmd) : Bool :=
  (c.op == 0x05 && decide (0 < c.work.stage)) || (c.op == 0x10 && c.started) ||
    (s.part c.partition).begun.any (fun b => b.halted && b.owners.contains (f, c.tag)) ||
    c.work.executed || s.releasedSome c || decide (0 < (s.results c).1) ||
    (s.part c.partition).commit.any (fun m => m.fn == f && m.tag == c.tag && m.switched) ||
    s.weave.warpCommit.any (fun m => m.fn == f && m.tag == c.tag && m.switched) ||
    s.lcy.burn.any (fun b => b.by_ == .command f c.tag && decide (0 < b.burned)) ||
    s.slath.exports.any fun e => e.fn == f && e.tag == c.tag && !e.sent.isEmpty

/-- Take a command out of every queue in which it waits for the hub itself. -/
def purgeHub (f : Nat) (tag : W32) (s : State) : State :=
  let mine (c : AdaptorCall) : Bool := c.cmd == some (f, tag)
  let o := s.osier
  { s with osier := { o with calls := o.calls.filter fun c => !mine c,
                             call := o.call.map fun c => if mine c then { c with cmd := none } else c } }
    |> dropExport f tag |> clearDeficits
    |> each (List.range 64) (fun p => modPart p (fun x =>
        { x with deferred := x.deferred.filter fun d => !(d.fn == f && d.tag == tag),
                 cfg := x.cfg.filter fun g => !(g.fn == f && g.tag == tag) }))

/-- COUNTER_LATCH, a HANG_REPORT that writes a report, and a TRACE_FLUSH that reads blocks: they write their buffer in the
step in which they take effect (R296). -/
def Cmd.writesLast (c : Cmd) : Bool := c.op == 0x51 || ((c.op == 0x80 || c.op == 0x41) && c.f 52 1 == 1)

/-- HOST_DMA_ERROR: the command ends with BAD_ADDRESS. The bytes that a REWEAVE had fetched are a free value; word 0 holds
the generation held staged (R228). What writes its buffer in the step in which it does its work ends there. DEDUCED, log entry
25. -/
def execHostDmaError (fn : Fn) (tag : W32) (s : State) : Host.Outcome State Fault Refusal :=
  let f := fn.val
  match s.cmd f tag with
  | none => done s
  | some c =>
    if !s.usesBuffer c then done s
    else if c.writesLast then done (modWork f tag (fun w => { w with dmaError := true }) s)
    else if c.op = 0x70 then
      let n := (Config.freeBits s.free).toNat % orDefault c.length 1
      done (s |> nextFree |> complete f tag { status := stBadAddress, r0 := s.heldGen c, r1 := n, r2 := 0x13 })
    else
      let acted := s.acted f c
      let sent := s.slath.exports.find? fun e => e.fn == f && e.tag == tag
      let r : Res := match sent with
        | some e => { e.result with status := stBadAddress, part := acted }
        | none => { status := stBadAddress, part := acted, r0 := c.work.r0, r1 := c.work.r1, r2 := c.work.r2,
                    r3 := c.work.dieCode.toNat }
      done (s |> purgeCmd f tag |> purgeHub f tag |> complete f tag r)

/-! ### Power states (R257) -/

/-- D3HOT_ENTRY: the function fetches nothing, and its completions wait. DEDUCED, log entry 65. -/
def execD3hotEntry (fn : Fn) (s : State) : Host.Outcome State Fault Refusal :=
  if s.configOpen && s.fnExists fn then done (modFn fn (fun x => { x with d3hot := true }) s) else done s

/-- D0_RETURN: the completions that waited are written. -/
def execD0Return (fn : Fn) (s : State) : Host.Outcome State Fault Refusal :=
  let f := fn.val
  if !(s.fn f).d3hot then done s
  else
    done (s |> modFn f (fun x => { x with d3hot := false, held := [] })
            |> each (s.fn f).held (fun (c, now) => writeCpl f c now))

/-! ### Session reset (R317, R319) -/

/-- A number that no function has: what is left of a command whose function was reset completes nowhere. -/
abbrev noFn : Nat := 136

/-- A fetched command has been sent to a die, at least in part, or has begun a halt (R317, R343). -/
def State.sentToDie (s : State) (f : Nat) (c : Cmd) : Bool :=
  c.started && (c.op == 0x10 || c.op == 0x30 || c.work.executed ||
    (List.range 8).any (fun n =>
      let x := (s.port n).lk
      (x.tx0.outst ++ x.tx1.outst ++ x.tx2.outst).any (isCmdReq f c.tag)) ||
    (s.osier.call.map fun a => a.cmd == some (f, c.tag)).getD false)

/-- The commands of a function that is reset which run to their end on a die (step 4): what was sent. Of a CUT only its
halts go on, and a DUMP_REGION ends with its export (step 6). A GRANT that has begun to revoke a role leaves the rest of the
revocation (R343). DEDUCED, log entry 18. -/
def State.outlives (s : State) (f : Nat) : List Cmd :=
  (s.fn f).inflight.filter fun c => !c.heldDup && c.op != 0x30 && c.op != 0x32 &&
    (s.sentToDie f c || (c.op == 0x05 && c.work.stage != 0))

/-- A request of a function that is reset: those of a command that runs on stay with it, those of a CUT, and the sent reads
of a DUMP_REGION, are drained; every other one is dropped (steps 3 and 4). `keep`: the tags that run on, and those whose
halts do; `sent`: the request was sent. -/
def leaveReq (f : Nat) (keep halts : List W32) (sent : Bool) (r : OutReq) : Option OutReq :=
  match r.who with
  | .cmd g tag u k =>
    if g != f then some r
    else if keep.contains tag then some { r with who := .cmd (afterReset f) tag u k }
    else if sent || halts.contains tag then some { r with who := .drain f }
    else none
  | _ => some r

/-- Steps 3 and 4 for one channel. -/
def TxChan.forget (f : Nat) (keep halts : List W32) (c : TxChan) : TxChan :=
  { c with waiting := c.waiting.filterMap (leaveReq f keep halts false),
           outst := c.outst.filterMap (leaveReq f keep halts true) }

/-- What a commit, a cut, a hand-off or a burn keeps of the command that asked for it. -/
def Commit.forget (f : Nat) (c : Commit) : Commit := if c.fn == f then { c with fn := noFn } else c
def Cut.forget (f : Nat) (c : Cut) : Cut :=
  { c with owners := c.owners.filter (fun o => o.1 != f), starter := c.starter.filter (fun o => o.1 != f),
           releasedBy := c.releasedBy.map fun o => if o.1 == f then (f, 0) else o }
def Burn.forget (f : Nat) (b : Burn) : Burn :=
  match b.by_ with
  | .command g _ => if g == f then { b with by_ := .command noFn 0 } else b
  | .tap => b

/-- An operation of the adaptor for a function that is reset, in the same way. -/
def leaveCall (f : Nat) (keep halts : List W32) (sent : Bool) (c : AdaptorCall) : Option AdaptorCall :=
  match c.cmd with
  | some (g, tag) =>
    if g != f then some c
    else if sent || keep.contains tag || halts.contains tag then some { c with cmd := some (afterReset f, tag) }
    else none
  | none => some c

/-- A GRANT that revokes a session which is reset sets no event for it (R317 step 2): bit 2 of `r2`. -/
def Cmd.noEvent (n : Nat) (c : Cmd) : Cmd :=
  if c.op == 0x05 && c.work.stage != 0 && c.work.r1 == n && decide (c.work.r2 < 4) then
    { c with work := { c.work with r2 := c.work.r2 + 4 } }
  else c

/-- Steps 1 to 4: the commands of the function that were sent to a die run to their end there, and every other one is
forgotten. -/
def fenceFn (f : Nat) (s : State) : State :=
  let rest := s.outlives f
  let keep := rest.map (·.tag)
  let halts := ((s.fn f).inflight.filter fun c => c.op == 0x30).map (·.tag)
  let o := s.osier
  { s with
    osier := { o with calls := o.calls.filterMap (leaveCall f keep halts false),
                      call := o.call.bind (leaveCall f keep halts true) }
    lcy := { s.lcy with burn := s.lcy.burn.map (Burn.forget f), waitingBurns := s.lcy.waitingBurns.map (Burn.forget f) }
    weave := { s.weave with warpCommit := (s.weave.warpCommit.filter fun c => c.fn != f || c.switched).map (Commit.forget f) }
    plait := { s.plait with handoff := s.plait.handoff.map fun h => if h.fn == f then { h with fn := noFn } else h } }
    |> each (List.range 8) (fun n => modPort n (fun x =>
        { x with resend := x.resend.filterMap (fun e => (leaveReq f keep halts false e.2).map fun r => (e.1, r)),
                 lk := { x.lk with tx0 := x.lk.tx0.forget f keep halts, tx1 := x.lk.tx1.forget f keep halts,
                                   tx2 := x.lk.tx2.forget f keep halts } }))
    |> each (List.range 64) (fun p => modPart p (fun x =>
        { x.mapBegun (Cut.forget f) with
                 commit := x.commit.map (Commit.forget f),
                 cuts := x.cuts.map (Cut.forget f), deferred := x.deferred.filter (fun d => d.fn != f),
                 cfg := x.cfg.filter fun g => g.fn != f }))
    |> each [64, 65, 66, 67, 132, 133, 134, 135] (fun g => modFn g (fun x => { x with inflight := x.inflight.map (Cmd.noEvent f) }))
    |> modFn (afterReset f) (fun x => { x with inflight := x.inflight ++ rest })
    |> modFn f (fun x => { x with fetching := false, inflight := [], held := [] })

/-- Step 5: the session's roles end (R229, R345, R353). -/
def endRoles (n : Nat) (s : State) : State :=
  let owned := (List.range 64).filter fun p => s.owns n p
  s |> each owned (fun p t => t |> modPart p (fun x => { x with owner := none }) |> ownerChanged p)
    |> each (List.range 64) (fun p => modPart p (fun x => { x with observers := x.observers.filter (· != n) }))
    |> modSess n (fun x => { x with globalView := false, allow := BitVec.allOnes 64 })
    |> mlog 4 n s.billing.epoch (s.ses n).meters.bytes

/-- Step 7: the staged cuts of the partitions that the session owned are released (R644). -/
def releaseOwned (n : Nat) (owned : List Nat) (s : State) : State :=
  each owned (fun p t =>
    each (((t.part p).cuts.filter fun c => !c.releasing).map fun c => c.id) (releaseCut p (some (n, 0))) t) s

/-- Steps 4 and 7 of a session's reset have not ended: RESET_DRAIN (R319). -/
def State.draining (s : State) (f : Nat) : Bool :=
  (List.range 8).any (fun n =>
    let x := (s.port n).lk
    x.open_.any fun r => r.who == .drain f) ||
  (s.fn (afterReset f)).inflight.any (fun c => c.op != 0x05) ||
  (s.osier.calls ++ s.osier.call.toList).any (fun c => (c.cmd.map fun x => x.1) == some (afterReset f)) ||
  (List.range 64).any fun p => (s.part p).cuts.any fun c => c.releasedBy == some (f, 0)

/-- Step 9: the function's registers, rings and duplicate window. -/
def clearFn (f : Nat) (s : State) : State :=
  modFn f (fun x => { FnSt.init x.vectors.length with resetDrain := s.draining f }) s

/-- A session reset (R317). `cause`: 0x20, or 0x21 where a host port reset causes it (R839). -/
def resetSession (n cause : Nat) (s : State) : State :=
  let owned := (List.range 64).filter fun p => s.owns n p
  s |> fenceFn n |> endRoles n
    |> (fun t => { t with slath := { t.slath with exports := t.slath.exports.filter fun e => e.fn != n } }) |> clearDeficits
    |> releaseOwned n owned
    |> endRuns (fun q => q.role == roleProgram && q.session == some n) runReset cause
    |> clearFn n

/-- SESSION_RESET: a function-level reset of an existing VF. -/
def execSessionReset (ses : Sess) (s : State) : Host.Outcome State Fault Refusal :=
  if s.configOpen && s.enabledPort (fnPort ses) && s.vfExists ses then done (resetSession ses 0x20 s) else done s

/-- SESSION_RESET_DRAIN_END: the drained requests and the released cuts have ended (R319). -/
def execSessionResetDrainEnd (ses : Sess) (s : State) : Host.Outcome State Fault Refusal :=
  if (s.fn ses).resetDrain && !s.draining ses then done (modFn ses (fun x => { x with resetDrain := false }) s)
  else done s

/-! ### PF and host port resets (R320, R321) -/

/-- The sessions of a port that exist. -/
def State.sessionsOf (s : State) (port : Nat) : List Nat :=
  ((List.range 16).map (16 * port + ·)).filter s.vfExists

/-- The effect of a function-level reset of a PF: its rings, a load of its, every session of its port, VF Enable, and
what its port manager had granted (R217, R320, R345). NumVFs is 0 after it. PRESUMED, log entry 65. -/
def resetPf (port cause : Nat) (s : State) : State :=
  let f := 64 + port
  s |> fenceFn f |> each (s.sessionsOf port) (fun n => resetSession n cause) |> resetLoad port
    |> modHost port (fun x => { x with vfEnable := false, numVfs := 0, consent := false, memSel := 0, memAddr := 0,
                                       memStatus := 0 })
    |> clearFn f |> noteOpenLab

/-- PF_FUNCTION_RESET. -/
def execPfFunctionReset (port : HostPort) (s : State) : Host.Outcome State Fault Refusal :=
  if s.configOpen && s.enabledPort port then done (resetPf port 0x20 s) else done s

/-- A host port reset: its link retrains, and the error log notes it (R321, R992). DEDUCED, log entry 42. DEDUCED, log entry
48. -/
def resetPort (port : Nat) (s : State) : State :=
  s |> resetPf port 0x21
    |> (fun t => { t with boot := { t.boot with borderUp := t.boot.borderUp &&& ~~~(1#4 <<< port) } })
    |> raiseErr 0x0A 3 port 0 0 4

end Sys2Proof.Machine
end

