-- ==== Sys2Proof/Machine/Tenancy.lean ====
section
/-!
DEFINITION. Partitions, ownership and metering: CLAIM, OBSERVE, RELEASE, GRANT, METER_READ, EPOCH_CLOSE, SET_WALLCLOCK
and the automatic close of an epoch (spec/06).
-/

namespace Sys2Proof.Machine

open Sys2Proof

/-! ### Claiming, observing, releasing (R330 to R337) -/

/-- The claim-allow mask of the session lacks the partition (R329). -/
def State.notAllowed (s : State) (f p : Nat) : Bool := !bit (s.ses f).allow.toNat p

/-- Put an owner in the ownership table; its own observation ends (R327). -/
def setOwner (f p : Nat) (s : State) : State :=
  s |> modPart p (fun x => { x with owner := some f, observers := x.observers.filter (· != f) }) |> ownerChanged p

/-- Claims, or observations, of a partition by sessions of lower numbers that reach the tables in the same CTL cycle, by their
place in their rings, and are not refused before them (R333). DEDUCED, log entry 49. -/
def State.rivals (s : State) (op f : Nat) (c : Cmd) : Nat :=
  ((List.range f).filter fun g => !s.notAllowed g c.partition &&
    !(if op = 0x02 then s.owns g c.partition else s.reads g c.partition) &&
    (s.fn g).inflight.any fun x => !x.heldDup && !x.started && x.op == op && x.partition == c.partition &&
      x.fetched / 4 == c.fetched / 4 && s.mayStart g x).length

/-- CLAIM (R331, R333, R334); it waits for a revocation of the partition to end. DEDUCED, log entry 18. DEDUCED, log entry
49. -/
def execClaim (fn : Fn) (tag : W32) (s : State) : Host.Outcome State Fault Refusal :=
  let f := fn.val
  if ((s.cmd f tag).map fun c => s.revoking c.partition).getD false then done s
  else done (startCmd 0x02 f tag (fun c t =>
    let p := c.partition
    let cuts := (t.part p).cuts.length
    match firstFail [(t.notAllowed f p, stNotPermitted), (t.twinHolds p, stStakeHeldByTwin)] with
    | some st => fail f tag st t
    | none =>
      if t.owns f p then complete f tag { already := true, r0 := cuts } t
      else if (t.part p).owner.isSome || decide (0 < t.rivals 0x02 f c) then fail f tag stBusy t
      else t |> setOwner f p |> complete f tag { r0 := cuts }) s)

/-- OBSERVE (R331, R333). DEDUCED, log entry 49. -/
def execObserve (fn : Fn) (tag : W32) (s : State) : Host.Outcome State Fault Refusal :=
  let f := fn.val
  done (startCmd 0x04 f tag (fun c t =>
    let p := c.partition
    match firstFail [(t.notAllowed f p, stNotPermitted), (t.twinHolds p, stStakeHeldByTwin)] with
    | some st => fail f tag st t
    | none =>
      if t.reads f p then complete f tag { already := true } t
      else if Config.maxObservers ≤ (t.part p).observers.length + t.rivals 0x04 f c then fail f tag stBusy t
      else t |> modPart p (fun x => { x with observers := x.observers ++ [f] }) |> complete f tag {}) s)

/-- Exports of a session that has lost its role on a partition end at the next splint boundary (R638). -/
def endExports (f p : Nat) (s : State) : State :=
  { s with slath := { s.slath with exports := s.slath.exports.map fun e =>
      if e.fn == f && e.partition == p then { e with endedEarly := true } else e } }

/-- A session loses a role on a partition (R229, R638, R839). -/
def dropOwner (f p : Nat) (s : State) : State :=
  s |> modPart p (fun x => { x with owner := none }) |> endExports f p |> ownerChanged p |> endRoleRuns f p
def dropObserver (f p : Nat) (s : State) : State :=
  s |> modPart p (fun x => { x with observers := x.observers.filter (· != f) }) |> endExports f p |> endRoleRuns f p

/-- RELEASE: ROLE 1 at once; ROLE 0 waits for the session's earlier commands of the partition (R330, R331, R335). -/
def execRelease (fn : Fn) (tag : W32) (s : State) : Host.Outcome State Fault Refusal :=
  let f := fn.val
  done (startCmd 0x03 f tag (fun c t =>
    let p := c.partition
    if c.f 52 1 = 1 then
      if t.observes f p then t |> dropObserver f p |> complete f tag {} else fail f tag stNotOwner t
    else if t.owns f p then modWork f tag (fun w => { w with stage := 1 }) t
    else fail f tag stNotOwner t) s)

/-- RELEASE_TAKES_EFFECT: every earlier command of the session that names the partition has completed (R335, R336). -/
def execReleaseTakesEffect (fn : Fn) (tag : W32) (s : State) : Host.Outcome State Fault Refusal :=
  let f := fn.val
  match s.cmd f tag with
  | none => done s
  | some c =>
    let p := c.partition
    let before := (earlier (s.fn f).inflight tag).any fun x => !x.heldDup && x.usesPartition && x.partition == p
    if c.op != 0x03 || c.work.stage != 1 || before then done s
    else if s.owns f p then done (s |> dropOwner f p |> complete f tag {})
    else done (fail f tag stNotOwner s)

/-! ### GRANT (R338 to R345) -/

/-- Commands of a revoked session that name the partition. -/
def State.naming (s : State) (f p : Nat) : List Cmd :=
  (s.fn f).inflight.filter fun c => !c.heldDup && c.usesPartition && c.partition == p

/-- Steps 1 and 2 of R343: the role ends, its runs stop (R839), and what was not sent to a die ends with NOT_OWNER, a REWEAVE
not yet accepted too (R229). -/
def revoke (f p : Nat) (owner : Bool) (s : State) : State :=
  let unsent := (s.naming f p).filter fun c =>
    !s.sentToDie f c && c.op != 0x71 &&
      !(s.slath.exports.any fun e => e.fn == f && e.tag == c.tag)
  s |> modPart p (fun x => if owner then { x with owner := none }
                           else { x with observers := x.observers.filter (· != f) })
    |> endRoleRuns f p
    |> each (unsent.map (·.tag)) (fun t u => u |> purgeCmd f t |> purgeHub f t |> fail f t stNotOwner)

/-- Tags of the commands of a session that run to their end before step 4 of R343. -/
def State.sentTags (s : State) (f p : Nat) : List Nat :=
  ((s.naming f p).filter fun c => s.sentToDie f c && !(s.slath.exports.any fun e => e.fn == f && e.tag == c.tag)).map
    fun c => c.tag.toNat

/-- Step 3 of R343 has ended for a GRANT: none of the tags in `done` of the session `r1` is in flight, nor left of a reset. -/
def State.sentEnded (s : State) (c : Cmd) : Bool :=
  ((s.fn c.work.r1).inflight ++ (s.fn (afterReset c.work.r1)).inflight).all fun x =>
    x.heldDup || !c.work.done.contains x.tag.toNat

/-- Step 5 of R343: a commit of the partition fails (R240); one that is fetched and has not started is outstanding too
(R234). -/
def endCommits (f p : Nat) (s : State) : State :=
  let commits := (s.naming f p).filter fun c => c.op == 0x71 && !c.started
  s |> ownerChanged p |> each (commits.map (·.tag)) (fun t => fail f t stAbortedByReset)

/-- Steps 5 and 6 of R343, then what the GRANT gives, and its completion with the previous owner (R342, R344). `r2`: the bit
of SES_EVENT, and 4 where the session has been reset. A GRANT whose PF was reset gives nothing. DEDUCED, log entry 18. -/
def revoked (g : Nat) (c : Cmd) (s : State) : State :=
  let p := c.partition
  let owner := c.work.r2 % 4 == 1
  s |> (fun t => if owner then endCommits c.work.r1 p t else t)
    |> (fun t => if c.work.r2 < 4 then setEvent c.work.r1 c.work.r2 t else t)
    |> (fun t => if c.f 52 1 = 1 && !discards g then setOwner (c.f 53 1) p t else t)
    |> complete g c.tag { r0 := c.work.r0 }

/-- Step 4 of R343: once what was sent has ended, the exports of the session end at the next splint boundary; when none is
left, the revocation ends. DEDUCED, log entry 18. -/
def revokeNext (g : Nat) (tag : W32) (s : State) : State :=
  match s.cmd g tag with
  | none => s
  | some c =>
    let mine (e : Export) : Bool := e.fn == c.work.r1 && e.partition == c.partition
    if !s.sentEnded c then s
    else if s.slath.exports.any mine then
      if c.work.stage = 1 then s |> endExports c.work.r1 c.partition |> modWork g tag (fun w => { w with stage := 2 }) else s
    else revoked g c s

/-- Revoke a role of a session. DEDUCED, log entry 18. -/
def revoking (g : Nat) (tag : W32) (f p : Nat) (owner : Bool) (prev : Nat) (s : State) : State :=
  let tags := s.sentTags f p
  s |> revoke f p owner
    |> modWork g tag (fun w => { w with stage := 1, r0 := prev, r1 := f, r2 := if owner then 1 else 2, done := tags })
    |> revokeNext g tag

/-- The checks of R340: a status, or ALREADY. `t`: TARGET; `p`: the partition. DEDUCED, log entry 17. -/
def State.grantCheck (s : State) (g : Nat) (c : Cmd) : Option Byte :=
  let a := c.f 52 1
  let t := c.f 53 1
  let p := c.partition
  let force := bit (c.f 54 1) 0
  let owner := (s.part p).owner
  let other := match owner with | some o => o != t | none => false
  let far := match owner with | some o => fnPort o != fnPort g | none => false
  firstFail
    [(grantTarget a && fnPort t != fnPort g, stNotPermitted),
     (grantTarget a && !s.vfExists t, stBadUnit),
     ((a == 1 || a == 2) && far && !s.arbiter (g - 64), stNotPermitted),
     ((a == 1 || a == 3) && s.twinHolds p, stStakeHeldByTwin),
     (a == 1 && other && !force, stBusy),
     (a == 3 && decide (Config.maxObservers ≤ (s.part p).observers.length), stBusy)]

/-- The role is in place already, or is not there to revoke. DEDUCED, log entry 17. -/
def State.grantAlready (s : State) (c : Cmd) : Bool :=
  let a := c.f 52 1
  let t := c.f 53 1
  let p := c.partition
  (a == 1 && s.owns t p) || (a == 3 && s.reads t p) || (a == 2 && (s.part p).owner.isNone) || (a == 4 && !s.observes t p)

/-- The effect of a GRANT that passed its checks (R339, R342). DEDUCED, log entry 17. -/
def grantEffect (g : Nat) (c : Cmd) (prev : Nat) (s : State) : State :=
  let a := c.f 52 1
  let t := c.f 53 1
  let p := c.partition
  let ok : State → State := complete g c.tag { r0 := prev }
  if a = 1 then
    match (s.part p).owner with
    | some o => revoking g c.tag o p true prev s
    | none => s |> setOwner t p |> ok
  else if a = 2 then
    match (s.part p).owner with
    | some o => revoking g c.tag o p true prev s
    | none => ok s
  else if a = 3 then s |> modPart p (fun x => { x with observers := x.observers ++ [t] }) |> ok
  else if a = 4 then revoking g c.tag t p false prev s
  else if a = 5 then s |> modSess t (fun x => { x with allow := BitVec.ofNat 64 (c.param0 + 2 ^ 32 * c.param1) }) |> ok
  else if a = 6 then s |> modSess t (fun x => { x with globalView := true }) |> ok
  else if a = 7 then s |> modSess t (fun x => { x with globalView := false }) |> ok
  else s |> modHost (g - 64) (fun x => { x with consent := a == 8 }) |> noteOpenLab |> ok

/-- The GRANT of a tag waits for a revocation that it has begun. -/
def State.grantWaits (s : State) (g : Nat) (tag : W32) : Bool :=
  ((s.cmd g tag).map fun c => c.op == 0x05 && c.started && c.work.stage != 0).getD false

/-- GRANT: its start; and, where it revokes a role, the progress of R343, which may take the row more than once, and goes on
after a reset of the PF. It waits for another revocation of the partition to end. DEDUCED, log entry 18. -/
def execGrant (fn : Fn) (tag : W32) (s0 : State) : Host.Outcome State Fault Refusal :=
  let g := fn.val
  let s := if s0.grantWaits (afterReset g) tag then revokeNext (afterReset g) tag s0 else s0
  if s.grantWaits g tag then done (revokeNext g tag s)
  else if ((s.cmd g tag).map fun c => grantPartition (c.f 52 1) && s.revoking c.partition).getD false then done s
  else done (startCmd 0x05 g tag (fun c t =>
    let owner := if grantPartition (c.f 52 1) then (t.part c.partition).owner else none
    let prev := owner.getD 0xFF
    match t.grantCheck g c with
    | some st => fail g tag st t
    | none =>
      if t.grantAlready c then complete g tag { already := true, r0 := prev } t else grantEffect g c prev t) s)

/-! ### METER_READ (R371 to R375) -/

/-- The function may read the meters of a subject: a session, or 0xFF for the unattributed set (R349). DEDUCED, log entry
16. -/
def State.seesMeters (s : State) (f subject : Nat) : Bool :=
  s.openLab || (!isPf f && subject == f) ||
    (s.seesGlobal f && (subject == 0xFF || (decide (subject < 64) && fnPort subject == fnPort f)))

/-- The block of MODE 0 (R372). -/
def State.meterBlock (s : State) (subject : Nat) : List Byte :=
  let m := if subject = 0xFF then s.billing.unattributed else (s.ses subject).meters
  m.bytes ++ leBytes 4 s.billing.epoch.toNat ++
    [BitVec.ofNat 8 subject, BitVec.ofNat 8 (b2n s.billing.wallSet + 2 * b2n s.openLab), 0, 0] ++
    leBytes 8 s.lastEdge ++ leBytes 8 s.billing.edgeUs.toNat

/-- METER_READ. A PF that names SUBJECT 0xFE, the issuing session, gets NOT_PERMITTED in open-lab mode too. DESIGN CHOICE, log
entry 16. -/
def execMeterRead (fn : Fn) (tag : W32) (s : State) : Host.Outcome State Fault Refusal :=
  let f := fn.val
  done (startCmd 0x90 f tag (fun c t =>
    let epoch := t.billing.epoch.toNat
    if t.err.stopped then fail f tag stBusy t
    else if c.f 52 1 = 0 then
      let subject := if c.f 53 1 = 0xFE && !isPf f then f else c.f 53 1
      if t.seesMeters f subject && subject != 0xFE then
        t |> bufWrite f tag 0 (t.meterBlock subject) |> complete f tag { r0 := epoch, r1 := 1 }
      else fail f tag stNotPermitted t
    else
      let oldest := (t.billing.log.head?.map fun e => e.seq.toNat).getD t.billing.nextSeq.toNat
      let first := if c.param0 = 0 then oldest else c.param0
      let l := (t.billing.log.filter fun e => decide (first ≤ e.seq.toNat) && t.seesMeters f e.subject.toNat).take
        (c.length / 64)
      t |> bufWrite f tag 0 (l.flatMap LogEntry.bytes)
        |> complete f tag { r0 := epoch, r1 := l.length, r2 := (l.head?.map fun e => e.seq.toNat).getD 0,
                            r3 := oldest - first }) s)

/-! ### Epochs and the wall clock (R355 to R366) -/

/-- EPOCH_CLOSE; an automatic close at the same edge is the same close, with CAUSE 0, whichever comes first (R365). -/
def execEpochClose (fn : Fn) (tag : W32) (s : State) : Host.Outcome State Fault Refusal :=
  let f := fn.val
  done (startCmd 0x91 f tag (fun _ t =>
    let joined := t.closedNow 1
    let e := ((joined.map fun x => x.epoch).getD t.billing.epoch).toNat
    match firstFail [(t.err.stopped, stBusy), (!t.isArbiterPm f, stNotPermitted), (e == 0xFFFFFFFF, stBusy)] with
    | some st => fail f tag st t
    | none =>
      (match joined with
        | some x => joinClose x t
        | none => if t.boundaryDue then t |> closeEpoch 0 |> setBoundary else closeEpoch 0 t)
        |> complete f tag { r0 := e, r1 := e + 1 }) s)

/-- What a TIME_STEP entry and record hold (R369, R701). DEDUCED, log entry 50. -/
def stepBody (before after port flags : Nat) : List Byte :=
  leBytes 8 before ++ leBytes 8 after ++ [BitVec.ofNat 8 port, BitVec.ofNat 8 flags]

/-- SET_TIME: the wall clock, its entry, its record in every partition's trace, and the close that a step forward across
a boundary fires (R361 to R364). DEDUCED, log entry 50. -/
def setTime (port v : Nat) (newPeriod : Bool) (s : State) : State :=
  let before := s.wallNow
  let was := s.billing.wallSet
  let s1 := { s with billing := { s.billing with wallSet := true, wall := BitVec.ofNat 64 v, wallAt := s.now } }
  let closes := was && !newPeriod && decide (before < v) && s1.boundaryDue &&
    (s.billing.epoch != 0xFFFFFFFF || (s.closedNow 0).isSome)
  let back := match s.billing.lastBoundary with | some b => was && decide (v < before) && decide (v < b) | none => false
  let body := stepBody before v port (b2n (!was) + 2 * b2n back + 4 * b2n closes)
  let s2 := s1 |> mlog 3 0xFF s.billing.epoch body |> each (List.range 64) (fun p => writeRec 12 p (slice body 0 24))
  if !was || newPeriod then setBoundary s2 else if closes then closeByClock s2 else s2

/-- SET_WALLCLOCK. -/
def execSetWallclock (fn : Fn) (tag : W32) (s : State) : Host.Outcome State Fault Refusal :=
  let f := fn.val
  done (startCmd 0x92 f tag (fun c t =>
    match firstFail [(t.err.stopped, stBusy), (!t.isArbiterPm f, stNotPermitted)] with
    | some st => fail f tag st t
    | none =>
      let fl := c.f 52 1
      let t1 := if bit fl 1 then
          { t with billing := { t.billing with periodS := BitVec.ofNat 32 (c.f 56 4),
                                               originS := BitVec.ofNat 32 c.param2 } }
        else t
      let t2 := if bit fl 0 then setTime (fnPort f) (c.f 20 8) (bit fl 1) t1 else setBoundary t1
      complete f tag {} t2) s)

/-- EPOCH_AUTO_CLOSE: the wall clock has reached a boundary later than LAST_BOUNDARY (R362). DEDUCED, log entry 50. -/
def execEpochAutoClose (s : State) : Host.Outcome State Fault Refusal := done (autoClose s)

end Sys2Proof.Machine
end

