-- ==== Sys2Proof/Machine/Twin.lean ====
section
/-!
DEFINITION. Twin pairing and failover: the Plait messages, pairing, TWIN_PAIR and TWIN_RELEASE, the junior's image, the
heartbeat, and the stakes of a pair (spec/19).
-/

namespace Sys2Proof.Machine

open Sys2Proof

/-! ### Halt forwards (R534, R535) -/

/-- HALT_FWD: the TWIN source fires for every partition; the named one also halts where this hub holds a stake of it. At
one edge with a term's action the two are one (R537). DEDUCED, log entry 52. -/
def takeHaltFwd (p action : Nat) (abrupt : Bool) (s : State) : State :=
  if s.boot.phase != .ready then s else
  let s1 := fireAll 27 s
  let r : HaltReq := { p := p, action := if action = 3 then 3 else 2, abrupt := abrupt, term := 0x30, forward := false }
  enterHalts (if (List.range 8).any fun n => (s.stake n p).held then [r] else []) s1

/-- HALT_FWD. -/
def execHaltFwd (part : Part) (action : Byte) (abrupt : Bool) (_decideTs : W64) (s : State) :
    Host.Outcome State Fault Refusal :=
  if s.plaitUp then done (takeHaltFwd part action.toNat abrupt s) else done s

/-! ### HOOP_EN (R525, R528, R958) -/

/-- The ports of a mask. -/
def portsIn (m : Byte) : List Nat := (List.range 8).filter fun n => m.getLsbD n

/-- HOOP_EN: the value enters the fast sets, and is acknowledged. -/
def takeHoopEn (p : Nat) (ports : Byte) (v : Bool) (s : State) : State :=
  s |> each (portsIn ports) (fun n => modStake n p (fun x => { x with hoopEn := some v }))
    |> plaitSend 0 3 p [ports, BitVec.ofNat 8 (b2n v)]

/-- HOOP_EN. -/
def execHoopEn (part : Part) (ports : Byte) (value : Bool) (s : State) : Host.Outcome State Fault Refusal :=
  if s.plaitUp then done (takeHoopEn part ports value s) else done s

/-- HOOP_EN_ACK of a change to 1: the hub writes HOOP_CTRL on the ports that waited, if its weft still asks for it. -/
def takeHoopEnAck (p : Nat) (ports : Byte) (v : Bool) (s : State) : State :=
  let m := Tab.getD s.plait.enWait p (0 : Byte)
  let w := (s.part p).active.weft
  if !v then s
  else
    { s with plait := { s.plait with enWait := Tab.set s.plait.enWait p (m &&& ~~~ports) } }
      |> each (portsIn (m &&& ports)) (fun n t =>
          if (t.stake n p).held && hoopFast w then askHoopCtrl n p true (hoopAbrupt w) t else t)

/-- HOOP_EN_ACK. -/
def execHoopEnAck (part : Part) (ports : Byte) (value : Bool) (s : State) : Host.Outcome State Fault Refusal :=
  if s.plaitUp then done (takeHoopEnAck part ports value s) else done s

/-! ### Stakes (R963 to R965) -/

/-- STAKE_NOTE: the twin gained, released or lost the pairs. -/
def takeStakeNote (p : Nat) (ports event : Byte) (s : State) : State :=
  s |> each (portsIn ports) (fun n => modStake n p (fun x => { x with twin := event == 0 }))
    |> (fun t => if event == 0 && ports != 0 then stakeTaken p t else t)

/-- STAKE_NOTE. -/
def execStakeNote (part : Part) (ports event : Byte) (_gen : W16) (s : State) : Host.Outcome State Fault Refusal :=
  if s.plaitUp then done (takeStakeNote part ports event s) else done s

/-- STAKE_RENEW_TIMER: every LEASE_MS ÷ 4 the held set is renewed; the firmware does it, from READY on (R110, R963,
R1003). -/
def execStakeRenewTimer (s : State) : Host.Outcome State Fault Refusal :=
  if s.boot.phase == .ready && !s.err.stopped && s.after s.plait.lastRenew (s.leaseMs * 250) then
    done ({ s with plait := { s.plait with lastRenew := s.t } }
      |> each (s.heldSet.filter fun (n, _) => s.takesReq n) (fun (n, p) => askRenew n p))
  else done s

/-- STAKE_CLAIM_RETRY: REMAIN ms + 0.5 ms after a refused claim it is repeated (R978, R984), and stays due while the port's
link is down. -/
def execStakeClaimRetry (port : Port) (part : Part) (s : State) : Host.Outcome State Fault Refusal :=
  match (s.stake port part).retryAt with
  | some t =>
    if t ≤ s.t then
      let s1 := modStake port part (fun x => { x with retryAt := none }) s
      done (if !s.retries part then s1 else if s.takesReq port then claim port part s1 else s)
    else done s
  | none => done s

/-! ### Pairing (R969 to R971) -/

/-- HELLO: what the twin says of itself is kept, one that asks to pair is answered, and pairing may start (R969). DEDUCED, log
entry 51. -/
def takeHello (h : Hello) (s : State) : State :=
  { s with plait := { s.plait with hello := some h } }
    |> (fun t => if h.request && t.twinRoled then sendHello false t else t) |> tryPairing

/-- HELLO. -/
def execHello (h : Hello) (s : State) : Host.Outcome State Fault Refusal :=
  if s.plaitUp then done (takeHello h s) else done s

/-- STAKE_VIEW: the pairs that it shows are twin-held (R964). -/
def takeStakeView (view : List Byte) (s : State) : State :=
  s |> each (List.range 64) (fun p =>
        each (portsIn (view.getD p 0)) (fun n => modStake n p (fun x => { x with twin := true })))
    |> each ((List.range 64).filter fun p => view.getD p 0 != 0) stakeTaken
    |> (fun t => if t.plait.pair == .pairing then { t with plait := { t.plait with gotView := some view } } else t)
    |> settlePairing

/-- STAKE_VIEW. -/
def execStakeView (view : List Byte) (s : State) : Host.Outcome State Fault Refusal :=
  if s.plaitUp then done (takeStakeView view s) else done s

/-- FAST_VIEW: the values of the twin's pairs enter the fast sets (R525); what the twin wrote to a pair that this hub holds is
past. -/
def takeFastView (view : List Byte) (s : State) : State :=
  s |> each (List.range 64) (fun p =>
        each (List.range 8) (fun n =>
          let v := (view.getD p 0).getLsbD n
          modStake n p (fun x => if !x.held && (v || x.twin) then { x with hoopEn := some v } else x)))
    |> (fun t => if t.plait.pair == .pairing then { t with plait := { t.plait with gotFast := true } } else t)
    |> settlePairing

/-- FAST_VIEW. -/
def execFastView (view : List Byte) (s : State) : Host.Outcome State Fault Refusal :=
  if s.plaitUp then done (takeFastView view s) else done s

/-! ### TWIN_PAIR (R974 to R978) -/

/-- The partitions of a mask. -/
def partsIn (m : Nat) : List Nat := (List.range 64).filter (bit m)

/-- A partition may not be handed off (R975 row 8). -/
def State.handoffBusy (s : State) (p : Nat) : Bool :=
  (s.part p).owner.isSome || !(s.part p).cuts.isEmpty || (s.part p).commit.isSome ||
    !(s.cmdsWhere fun _ c => c.waitingWeft p || (isDut c.op && c.partition == p)).isEmpty

/-- The checks of R975. Row 5 is judged as the twin's answer to the command's HELLO arrives, since an earlier HELLO may be
from before the twin's values of R970. DEDUCED, log entry 51. -/
def State.twinCheck (s : State) (f : Nat) (c : Cmd) : Option Byte :=
  let a := c.f 52 1
  let m := c.partMask
  let paired := s.plait.pair == .paired
  firstFail
    [(s.err.stopped, stBusy),
     (!s.isArbiterPm f || !s.twinRoled, stNotPermitted),
     (c.op == 0xA0 && a != 0 && m == 0, stBadLen),
     (c.op == 0xA0 && a != 2 && !s.plaitUp, stLinkDown),
     (c.op == 0xA0 && a == 1 && !paired, stBusy),
     (c.op == 0xA0 && a == 1 && (partsIn m).any fun p => (s.portsOf p).any fun n => !(s.stake n p).held, stStakeHeldByTwin),
     (c.op == 0xA0 && a == 1 && (partsIn m).any s.handoffBusy, stBusy),
     (c.op == 0xA0 && a == 2 && (paired || s.plait.pair == .pairing), stNotPermitted)]

/-- PAIR: a HELLO that asks to pair, whose answer decides (R969, R970). One that finds the pairing under way waits for its
end. -/
def pairCmd (f : Nat) (tag : W32) (s : State) : State :=
  if s.plait.pair == .paired then
    complete f tag { already := true, r0 := s.heldSet.length, r1 := s.twinSet.length } s
  else { s with plait := { s.plait with hello := none } } |> sendHello true

/-- HANDOFF: the stakes are released; the message follows their answers (R977). -/
def handoffCmd (f : Nat) (tag : W32) (mask : Nat) (s : State) : State :=
  let h : Handoff := { fn := f, tag := tag, mask := BitVec.ofNat 64 mask, sent := false }
  { s with plait := { s.plait with handoff := s.plait.handoff ++ [h] } }
    |> each (partsIn mask) (fun p =>
        each ((s.portsOf p).filter fun n => (s.port n).lk.link == .active) (fun n => askRelease n p))
    |> checkHandoff

/-- TAKEOVER: every pair of the partitions on dies in ACTIVE is claimed (R978). `done` of the work: those not held. -/
def takeoverCmd (f : Nat) (tag : W32) (mask fetched : Nat) (s : State) : State :=
  let l := s.maskPairs mask
  let new := (l.filter fun (n, p) => !(s.stake n p).held).map fun (n, p) => 64 * n + p
  let due := fetched + (s.leaseMs * 1050 + 3000) * Config.ticksPerUs
  s |> modWork f tag (fun w => { w with done := new, deadline := some due })
    |> each l (fun (n, p) => claim n p) |> checkTakeover

/-- TWIN_PAIR. -/
def execTwinPair (fn : Fn) (tag : W32) (s : State) : Host.Outcome State Fault Refusal :=
  done (startCmd 0xA0 fn tag (fun c t =>
    let a := c.f 52 1
    match t.twinCheck fn c with
    | some st => fail fn tag st t
    | none =>
      if a = 0 then pairCmd fn tag t
      else if a = 1 then handoffCmd fn tag c.partMask t
      else takeoverCmd fn tag c.partMask c.fetched t) s)

/-- TAKEOVER_TIMEOUT: 1.05 x LEASE_MS + 3 ms after the fetch some pair is still refused (R978). -/
def execTakeoverTimeout (fn : Fn) (tag : W32) (s : State) : Host.Outcome State Fault Refusal :=
  match s.cmd fn tag with
  | none => done s
  | some c =>
    let due := match c.work.deadline with | some d => decide (d ≤ s.t) | none => false
    if c.op == 0xA0 && c.started && c.f 52 1 == 2 && due then
      done (complete fn tag { status := stStakeHeldByTwin, part := true, r0 := (s.takeover c).1, r1 := (s.takeover c).2 } s)
    else done s

/-- HANDOFF from the twin: each of its pairs on a die in ACTIVE is claimed, those of other dies cannot be and are twin-held,
and HANDOFF_DONE follows the answers (R977 step 3). -/
def takeHandoff (mask : W64) (s : State) : State :=
  { s with plait := { s.plait with handoffIn := s.plait.handoffIn ++ [{ mask := mask }] } }
    |> each (partsIn mask.toNat) (fun p => each ((s.portsOf p).filter fun n => (s.port n).lk.link != .active && !(s.stake n p).held)
        fun n => modStake n p (fun x => { x with twin := true }))
    |> each (s.maskPairs mask.toNat) (fun (n, p) => claim n p) |> checkHandoffIn

/-- HANDOFF. -/
def execHandoff (mask : W64) (s : State) : Host.Outcome State Fault Refusal :=
  if s.plaitUp then done (takeHandoff mask s) else done s

/-- The HANDOFF that an answer for these partitions ends. -/
def State.handoffOf (s : State) (mask : W64) : Option Handoff :=
  s.plait.handoff.find? (fun h => h.sent && h.mask == mask) <|> s.plait.handoff.head?

/-- HANDOFF_DONE: the command ends (R977 step 4). -/
def takeHandoffDone (claimed refused : W64) (s : State) : State :=
  match s.handoffOf (claimed ||| refused) with
  | none => s
  | some h =>
    let bad := refused != 0
    { s with plait := { s.plait with handoff := s.plait.handoff.erase h } }
      |> complete h.fn h.tag { status := if bad then stStakeHeldByTwin else stOk, part := bad,
                               r0 := (partsIn claimed.toNat).length, r1 := (partsIn refused.toNat).length }

/-- HANDOFF_DONE. -/
def execHandoffDone (claimed refused : W64) (s : State) : Host.Outcome State Fault Refusal :=
  if s.plaitUp then done (takeHandoffDone claimed refused s) else done s

/-! ### TWIN_RELEASE (R979) -/

/-- The hub enters UNPAIRED; HOOP_HALT_EN changes that waited for the twin are written (R528). A pairing that was asked
for ends with it, and a hub of the pair keeps its time exchanges (R979). -/
def unpair (s : State) : State :=
  { s with plait := { s.plait with pair := .unpaired, settling := 0, gotView := none, gotFast := false, enWait := [],
                                   keepsTime := s.plait.everPaired } }
    |> plaitEvent 1 |> sendWithheld |> pairEnds stBusy

/-- TWIN_RELEASE. One that finds the hub UNPAIRED has been executed as well (R983). -/
def execTwinRelease (fn : Fn) (tag : W32) (s : State) : Host.Outcome State Fault Refusal :=
  done (startCmd 0xA1 fn tag (fun c t =>
    match t.twinCheck fn c with
    | some st => fail fn tag st t
    | none =>
      let t1 := { t with plait := { t.plait with everReleased := true } }
      if t.plait.pair == .unpaired then complete fn tag { already := true } t1
      else
        t1 |> plaitSend 1 0x15 0xFF [] |> unpair
          |> complete fn tag {}) s)

/-- UNPAIR. -/
def takeUnpair (s : State) : State := if s.twinned then unpair s else s

/-- UNPAIR (R979). -/
def execUnpair (s : State) : Host.Outcome State Fault Refusal := if s.plaitUp then done (takeUnpair s) else done s

/-! ### The junior's weave image (R972, R973) -/

/-- The hub waits for the senior's image. -/
def State.wantsImage (s : State) : Bool := s.boot.phase == .awaitWeave && s.imageFromTwin && s.weave.checking.isNone

/-- IMAGE_REQ_TIMER: every 10 ms, or 1 s after a rejection. -/
def execImageReqTimer (s : State) : Host.Outcome State Fault Refusal :=
  if s.wantsImage && s.plaitUp && s.after s.plait.lastReq 10000 && decide (s.plait.retryAt ≤ s.t) then
    done ({ s with plait := { s.plait with lastReq := s.t } } |> plaitSend 2 0x20 0xFF [])
  else done s

/-- The copy in messages of up to 4,088 bytes. `n` bounds their number. -/
def imageParts : Nat → Nat → List Byte → List (Nat × List Byte)
  | 0, _, _ => []
  | n + 1, off, l => if l.isEmpty then [] else (off, l.take 4088) :: imageParts n (off + 4088) (l.drop 4088)

/-- IMAGE_REQ: the retained copy goes out, or IMAGE_NONE. `found`: the read of the copy meets an uncorrectable word,
which the junior finds by the image's CRC (R998, R999); a correctable one is corrected (R995). -/
def takeImageReq (found : Ecc) (s : State) : State :=
  match s.plait.retained with
  | some img =>
    let s1 := if !s.inlineEcc then s
      else if found == .bad || s.plait.retainedBad then uncorrectableItem true 4 0xFFFF 0 3 s
      else if found == .corrected then correctedWord true s else s
    each (imageParts (img.length / 4088 + 1) 0 img)
      (fun (off, b) => plaitSend 2 0x21 0xFF (leBytes 4 off ++ leBytes 4 img.length ++ b)) s1
  | none => plaitSend 2 0x22 0xFF [] s

/-- IMAGE_REQ. -/
def execImageReq (found : Ecc) (s : State) : Host.Outcome State Fault Refusal :=
  if s.plaitUp && s.plait.role == 2 then done (takeImageReq found s) else done s

/-- IMAGE_DATA: parts come in ascending OFFSET; the last one starts the check (R973). -/
def takeImageData (offset total : Nat) (bytes : List Byte) (s : State) : State :=
  if !s.wantsImage then s
  else
    let old := if offset = 0 then [] else s.plait.imageBuf
    if old.length != offset then s
    else
      let buf := old ++ bytes
      if total ≤ buf.length then
        { s with plait := { s.plait with imageBuf := [] },
                 weave := { s.weave with checking := some (none, buf.take total) } }
      else { s with plait := { s.plait with imageBuf := buf } }

/-- IMAGE_DATA. -/
def execImageData (offset total : W32) (bytes : List Byte) (s : State) : Host.Outcome State Fault Refusal :=
  if s.plaitUp then done (takeImageData offset.toNat total.toNat bytes s) else done s

/-- IMAGE_NONE: the junior stays in AWAIT_WEAVE and asks again. -/
def execImageNone (s : State) : Host.Outcome State Fault Refusal := done s

/-! ### The heartbeat (R960 to R962, R983) -/

/-- The hub pulses its line: from READY, or from AWAIT_WEAVE for a junior that waits for its image, while the firmware
runs. -/
def State.pulses (s : State) : Bool :=
  s.twinRoled && !s.err.stopped &&
    (s.boot.phase == .ready || (s.imageFromTwin && s.serving))

/-- HEARTBEAT_PULSE: the line goes low every 200 µs. -/
def execHeartbeatPulse (s : State) : Host.Outcome State Fault Refusal :=
  if s.pulses && s.plait.hbOut == .idle && s.after s.plait.lastPulse 200 then
    done ({ s with plait := { s.plait with hbOut := .on s.t, lastPulse := s.t } } |> emit (.heartbeat true))
  else done s

/-- HEARTBEAT_PULSE_END: after 1 µs to 2 µs it is released. -/
def execHeartbeatPulseEnd (s : State) : Host.Outcome State Fault Refusal :=
  match s.plait.hbOut with
  | .on t =>
    if s.after t 1 then done ({ s with plait := { s.plait with hbOut := .idle } } |> emit (.heartbeat false)) else done s
  | .idle | .gap _ _ => done s

/-- HEARTBEAT_ASSERT: the twin's line is asserted. DEDUCED, log entry 51. -/
def execHeartbeatAssert (s : State) : Host.Outcome State Fault Refusal :=
  if s.twinRoled then
    done { s with plait := { s.plait with hbPresent := true, hbEver := true, lastHb := s.t } }
  else done s

/-- HEARTBEAT_LOST: 1 ms has passed since the start of the last assertion. -/
def execHeartbeatLost (s : State) : Host.Outcome State Fault Refusal :=
  if s.plait.hbPresent && s.after s.plait.lastHb 1000 then
    let s1 := { s with plait := { s.plait with hbPresent := false } }
    if s.plaitUp then done (plaitEvent 7 s1)
    else if s.plait.pair == .paired || s.plait.pair == .split then done (enterTwinLost s1)
    else done s1
  else done s

/-- TWIN_ABSENT_TIMEOUT: 100 ms after READY an unpaired hub has seen neither its twin's link nor its heartbeat (R983). -/
def execTwinAbsentTimeout (s : State) : Host.Outcome State Fault Refusal :=
  let x := s.plait
  if x.pair == .unpaired && s.boot.phase == .ready && s.after x.readyAt 100000 && !x.everPaired && !x.everReleased &&
      !x.everActive && !x.hbEver then done (enterTwinLost s)
  else done s

end Sys2Proof.Machine
end

