-- ==== Sys2Proof/Machine/Flits.lean ====
section
/-!
DEFINITION. The receiving half of a Nalsel link and of the Plait link: one flit as it arrives, its CRC, its number, the
message it belongs to, and what a link control flit or a message then does (spec/07, spec/19).
-/

namespace Sys2Proof.Machine

open Sys2Proof

/-- The 36 bytes of a flit, byte k in bits 8k+7:8k (R386). -/
def flitByteList (f : BitVec 288) : List Byte := leBytes 36 f.toNat

/-- The CRC of a received flit is right (R387). -/
def flitGood (b : List Byte) : Bool := (crc16 (b.take 34)).toNat == field b 34 2

/-- NAK with the last number accepted; flits are dropped until REPLAY_START (R407). -/
def sendNak (l : Nat) (s : State) : State :=
  s |> modLnk l (fun x => { x with discarding := true }) |> sendCtl l 1 0 (leBytes 2 (s.lnk l).lastAccepted.toNat)

/-- A flit whose CRC is wrong: its error bit, NSL_CRC_n, and a NAK where sequenced flits flow (R407, R437, R744). -/
def badFlit (l : Nat) (s : State) : State :=
  let s1 := s |> setLinkErr l 1 |> (fun t => if l < 8 then bumpAlways (16 + l) 1 t else t)
  if (s.lnk l).sequenced then sendNak l s1 else s1

/-! ### Link control flits (R402, R403) -/

/-- ACK and CREDITS of a link control flit. -/
def ctlHdr (b : List Byte) : CtlHdr :=
  { ack := BitVec.ofNat 12 (field b 4 2), ackValid := bit (field b 4 2) 15, credits := BitVec.ofNat 32 (field b 6 4) }

/-- The CONFIG body (R416). -/
def ctlConfig (b : List Byte) : ConfigBody :=
  { uid := BitVec.ofNat 64 (field b 10 8), unitCount := BitVec.ofNat 16 (field b 18 2), caps := BitVec.ofNat 16 (field b 20 2),
    tickFs := BitVec.ofNat 32 (field b 22 4), creditInit := BitVec.ofNat 32 (field b 26 4),
    lostEvents := BitVec.ofNat 32 (field b 30 4) }

/-- The TYPE exists in the direction towards this hub: a die sends no TIMESYNC_REQ and no DETACH_ACK, and the twin no
DETACH (R403, R952). -/
def ctlKnown (l type : Nat) : Bool :=
  decide (type ≤ 3) || type == 5 || type == 6 || (type == 4 && l == 8) || (type == 7 && l != 8)

/-- Answer a twin's TIMESYNC_REQ in own hub ticks (R959). -/
def answerTimesync (exch : Byte) (t1 : Nat) (s : State) : State :=
  let x := s.plait.lk.link
  if x == .timesync || x == .active then
    sendCtl 8 5 exch.toNat (leBytes 8 t1 ++ leBytes 8 s.t ++ leBytes 8 s.t) s
  else s

/-- What a link control flit of a TYPE does, behind its ACK and CREDITS. -/
def ctlEffectOf (l type : Nat) (sub : Byte) (b : List Byte) (s : State) : State :=
  let seq := BitVec.ofNat 12 (field b 10 2)
  let w (off : Nat) : W64 := BitVec.ofNat 64 (field b off 8)
  if type = 1 then takeNak l seq s
  else if type = 2 then takeReplayStart l seq s
  else if type = 3 then takeConfig l (sub.getLsbD 0) (ctlConfig b) s
  else if type = 4 then answerTimesync sub (field b 10 8) s
  else if type = 5 then takeTimesyncRsp l sub (w 10) (w 18) (w 26) s
  else if type = 6 then takeResume l seq s
  else if type = 7 then takeDetach l s
  else s

/-- A link control flit with a good CRC. A reserved TYPE or a reserved header bit discards it (R389), and so does SOM or EOM,
which such a flit has no use for. DESIGN CHOICE, log entry 84. -/
def takeCtl (l : Nat) (b : List Byte) (s : State) : State :=
  let type := field b 2 1
  if 8 ≤ field b 0 1 ∨ field b 1 1 ≠ 0 ∨ !ctlKnown l type then protocolError l s
  else s |> readHdr l (ctlHdr b) |> ctlEffectOf l type (b.getD 3 0) b |> pump l |> noteRuns

/-! ### Messages of the twin (R955, R956) -/

/-- The data of a HELLO. -/
def helloOf (d : List Byte) : Hello :=
  let fl := field d 3 1
  { role := d.getD 0 0, stepping := d.getD 1 0, lcy := d.getD 2 0, request := bit fl 0, ready := bit fl 1,
    leaseMs := BitVec.ofNat 16 (field d 4 2), uid := BitVec.ofNat 128 (field d 8 16),
    digest := BitVec.ofNat 128 (field d 24 16) }

/-- A message of the twin, by its channel and OP. -/
def takePlait (m : Msg) (s : State) : State :=
  let d := m.data
  let p := m.partition.toNat
  let b (k : Nat) : Byte := d.getD k 0
  let w (off : Nat) : W64 := BitVec.ofNat 64 (field d off 8)
  match m.ch, m.op.toNat with
  | 0, 0x01 => if p < 64 then takeHaltFwd p (b 0).toNat ((b 1).getLsbD 0) s else s
  | 0, 0x02 => if p < 64 then takeHoopEn p (b 0) (b 1 != 0) s else s
  | 0, 0x03 => if p < 64 then takeHoopEnAck p (b 0) (b 1 != 0) s else s
  | 0, 0x04 => if p < 64 then takeStakeNote p (b 0) (b 1) s else s
  | 1, 0x10 => takeHello (helloOf d) s
  | 1, 0x11 => takeStakeView d s
  | 1, 0x12 => takeFastView d s
  | 1, 0x13 => takeHandoff (w 0) s
  | 1, 0x14 => takeHandoffDone (w 0) (w 8) s
  | 1, 0x15 => takeUnpair s
  | 2, 0x20 => if s.plait.role == 2 then takeImageReq .good s else s
  | 2, 0x21 => takeImageData (field d 0 4) (field d 4 4) (d.drop 8) s
  | _, _ => s

/-- A whole message: the twin's, a die's response, or a die's own message. VC3 is not used on the Plait link (R390,
R952). -/
def takeMsg (l : Nat) (m : Msg) (s : State) : State :=
  if l = 8 then (if m.ch = 3 then protocolError l s else takePlait m s)
  else if m.ch = 3 then takeVc3 l m s
  else takeResponse l m s

/-! ### Sequenced flits (R391 to R393, R405, R407) -/

/-- Put the payload of an accepted flit into its message. A flit that begins a message inside another, or belongs to
none, discards what it breaks, and so does an EOM on a wrong flit. DEDUCED, log entry 26. -/
def assemble (l ch : Nat) (som eom : Bool) (payload : List Byte) (s : State) : State :=
  let c := (s.lnk l).rx ch
  let set (a : Option (List Byte)) : State → State := modLnk l (fun x => x.setRx ch { x.rx ch with asm_ := a })
  let s1 := if som == c.asm_.isNone then s else protocolError l s
  let whole := if som then some payload else c.asm_.map (· ++ payload)
  match whole with
  | none => s1
  | some all =>
    if eom then
      let s2 := set none s1
      match parseMsg ch all with
      | some m => takeMsg l m s2
      | none => protocolError l s2
    else set (some all) s1

/-- Return the credit of an accepted flit: the next link control flit goes out at once (R1092). DESIGN CHOICE, log entry 27.
-/
def returnCredit (l ch : Nat) (s : State) : State :=
  modLnk l (fun x => x.setRx ch { x.rx ch with returned := (x.rx ch).returned + 1 }) s

/-- An accepted sequenced flit: a reserved channel or header bit discards its contents (R389). DESIGN CHOICE, log entry 27. -/
def deliverFlit (l : Nat) (b : List Byte) (s : State) : State :=
  let h := field b 0 1
  let ch := h % 8
  let s1 := if l < 8 then bumpAlways (8 + l) 1 s else s
  let s2 := if ch < 4 then returnCredit l ch s1 else s1
  let s3 := if 4 < ch ∨ 32 ≤ h ∨ field b 1 1 ≠ 0 then protocolError l s2
    else assemble l ch (bit h 3) (bit h 4) (slice (b.drop 2) 0 32) s2
  if (s3.lnk l).sequenced then sendCtl l 0 0 [] s3 else s3

/-- A sequenced flit by its number (R407). -/
def takeSeq (l : Nat) (b : List Byte) (s : State) : State :=
  let x := s.lnk l
  let next := modLnk l (fun y => { y with rxSeq := y.rxSeq + 1 })
  if !x.sequenced || x.discarding then s
  else if x.rxSeq == x.lastAccepted + 1 then
    s |> next |> modLnk l (fun y => { y with lastAccepted := x.rxSeq }) |> deliverFlit l b
  else if (x.lastAccepted - x.rxSeq).toNat < 256 then next s
  else sendNak l s

/-- A link end takes flits from CONFIG on (R413). -/
def LinkState.takesFlits (x : LinkState) : Bool := x == .config || x == .timesync || x == .active || x == .retrain

/-- FLIT_RECEIVE (R407). -/
def execFlitReceive (link : LinkNo) (flit : BitVec 288) (s : State) : Host.Outcome State Fault Refusal :=
  let l := link.val
  let b := flitByteList flit
  if !(s.lnk l).link.takesFlits then done s
  else if !flitGood b then done (badFlit l s)
  else if field b 0 1 % 8 = 4 then done (takeCtl l b s)
  else done (takeSeq l b s)

end Sys2Proof.Machine
end

