-- ==== Sys2Proof/Machine/Resets.lean ====
section
/-!
DEFINITION. Resets, start-up, the serdes PLLs, fuse pulses, and partition resets (spec/02, spec/03).
-/

namespace Sys2Proof.Machine

open Sys2Proof

/-! ### Bits of HUB_RESET_CAUSE (R121) -/

abbrev causePowerOn : BitVec 6 := 1
abbrev causeSupply : BitVec 6 := 2
abbrev causeClock : BitVec 6 := 4
abbrev causeHost : BitVec 6 := 8
abbrev causeTap : BitVec 6 := 16
abbrev causeWatchdog : BitVec 6 := 32

/-! ### What every whole-hub reset does to the outputs (R110) -/

/-- Every HOOP_OUT is released, no XTRIG pin and no heartbeat line is driven. -/
def releaseOutputs (s : State) : State :=
  let hoops := (List.range 8).filter fun n => match (s.port n).hoopOut with | .on _ => true | _ => false
  let xtrigs := (List.range 8).filter fun j => match s.xtrig j with | .on _ => true | _ => false
  let hb := match s.plait.hbOut with | .on _ => true | _ => false
  s |> each hoops (fun n => emit (.hoop n false)) |> each xtrigs (fun j => driveXtrig j false)
    |> (fun t => if hb then emit (.heartbeat false) t else t)

/-! ### Power-on and clock-fault resets (R95, R105, R113) -/

/-- The fuses after a reset that cuts a program pulse: the bit in progress senses a free value (R160). DESIGN CHOICE, log
entry 10. -/
def State.cutFuses (s : State) : Fuses :=
  match s.lcy.burn.bind fun b => b.todo.head? with
  | some x => if Config.freeCutFuse s.free then s.lcy.fuses.burn x else s.lcy.fuses
  | none => s.lcy.fuses

/-- A power-on or clock-fault reset: everything but the fuses, the part's identity and the levels of its pins is as after
power-on. The straps stand until they are sampled again: at the rise of PORST_N, or where there is none in the reset's own
step. DEDUCED, log entry 36. -/
def powerReset (cause : BitVec 6) (s : State) : State :=
  let r := State.reset
  let s1 := releaseOutputs s
  let s2 := if s.pins.ddrReset == 0 then s1 else emit (.ddrReset false) s1
  { r with pending := s.pending, id := s.id, pins := { s.pins with ddrReset := 0 }, straps := s.straps,
           boot := { r.boot with resetCause := cause },
           lcy := { r.lcy with state := s.lcy.state, fallback := s.lcy.fallback, fuses := s.cutFuses,
                               sensed := s.lcy.sensed },
           wale := { r.wale with macSrc := macSrcReset s.id.uid }, out := s2.out, free := s.free + b2n s.lcy.burn.isSome }

/-- A pulse of a length causes a reset: always from `long` on, never below `short`, a free value between them. DESIGN
CHOICE, log entry 8. -/
def pulseResets (short long ns : Nat) (free : Bool) : Bool := if long ≤ ns then true else if ns < short then false else free

/-- POWER_ON_RESET: PORST_N low for `lowNs` (R105, R108, R1073). DESIGN CHOICE, log entry 8. -/
def execPowerOnReset (lowNs : Nat) (s : State) : Host.Outcome State Fault Refusal :=
  if pulseResets 1000 10000 lowNs (Config.freePorst s.free) then
    done (nextFree { powerReset causePowerOn s with pins := { s.pins with porst := false, ddrReset := 0 } })
  else done (nextFree s)


/-- SUPPLY_MONITOR_RELEASE (R1049). -/
def execSupplyMonitorRelease (s : State) : Host.Outcome State Fault Refusal :=
  done { s with pins := { s.pins with supplyGood := true } }

/-- The levels of the strap pins, as the hub takes them (R98 to R104). -/
def Straps.sample (pairRank bootSrc : Bool) (mask : BitVec 4) : Straps :=
  { pairRank := pairRank, bootSrc := bootSrc, mask := if mask == 0 then 1 else mask, maskZero := mask == 0,
    bootSrcIgnored := pairRank && bootSrc }

/-- SUPPLY_DROP: VDD_AON below its threshold for a time; with PORST_N high the straps are sampled again (R98, R105, R113,
R121, R1049). DESIGN CHOICE, log entry 8. DEDUCED, log entry 36. DESIGN CHOICE, log entry 69. -/
def execSupplyDrop (dip : SupplyDip) (s : State) : Host.Outcome State Fault Refusal :=
  if pulseResets 500 2000 dip.belowNs (Config.freeDip s.free) then
    done (nextFree { powerReset causeSupply s with
      pins := { s.pins with supplyGood := false, ddrReset := 0 },
      straps := if s.pins.porst then Straps.sample dip.pairRank dip.bootSrc dip.mask else s.straps })
  else done (nextFree s)

/-- CLOCK_FAULT: REFCLK is absent, or ROOT loses lock, on a running hub; the straps are sampled again (R94, R95, R98, R113).
DESIGN CHOICE, log entry 69. -/
def execClockFault (fault : ClockLoss) (s : State) : Host.Outcome State Fault Refusal :=
  let t := powerReset causeClock s
  if s.pins.porst && s.pins.supplyGood then
    done { t with clk := { t.clk with refPresent := !fault.refAbsent },
                  straps := Straps.sample fault.pairRank fault.bootSrc fault.mask }
  else done s

/-- PORST_N_RISE: the straps are sampled (R98 to R104). DEDUCED, log entry 36. -/
def execPorstNRise (pairRank bootSrc : Bool) (mask : BitVec 4) (s : State) : Host.Outcome State Fault Refusal :=
  if s.pins.porst then done s
  else
    done { s with pins := { s.pins with porst := true },
                  straps := Straps.sample pairRank bootSrc mask }

/-! ### Warm reset (R105, R112, R113) -/

/-- The commit in force of a REWEAVE_COMMIT. -/
def State.commitOf (s : State) (f : Nat) (c : Cmd) : Option Commit :=
  (if c.scope = 1 then (s.part c.partition).commit else s.weave.warpCommit).filter fun m => m.fn == f && m.tag == c.tag

/-- How a command ends that a warm reset aborts: PARTIAL where side effects have happened (R284, R286). DEDUCED, log entry
25. -/
def State.abortRes (s : State) (f : Nat) (c : Cmd) : Res :=
  let sent := s.slath.exports.find? fun e => e.fn == f && e.tag == c.tag
  match sent, s.lcy.burn.filter (fun b => b.by_ == .command f c.tag && decide (0 < b.burned)) with
  | some e, _ => { e.result with status := stAbortedByReset, part := s.acted f c }
  | none, some b =>
    { status := stAbortedByReset, part := decide (0 < b.burned) }
  | none, none =>
    if c.op = 0x70 ∨ c.op = 0x71 then
      let k := s.commitOf f c
      { s.refusal c stAbortedByReset with
        part := s.acted f c, r3 := (k.map Commit.settleUs).getD 0,
        r1 := ((k.map fun m => m.skipped + m.unitsLeft.length).getD (s.refusal c stAbortedByReset).r1) }
    else
    if c.op = 0x10 then s.haltRes c (s.part c.partition).gather stAbortedByReset (s.acted f c) else
    let (r0, r1, r2) := s.results c
    { status := stAbortedByReset, part := s.acted f c, r0 := r0, r1 := r1, r2 := r2, r3 := c.work.dieCode.toNat }

/-- Every command fetched and not completed ends with ABORTED_BY_RESET (R112). DEDUCED, log entry 25. -/
def abortAll (s : State) : State :=
  each (s.cmdsWhere fun _ _ => true) (fun (f, c) t => completeOne f c.tag (s.abortRes f c) t) s

/-- What a partition keeps: its blocks in the trace region, those of its spill tier among them (R113); SCRUB decides whether
they stand. -/
def PartSt.warm (x : PartSt) : PartSt := { PartSt.init with blocks := x.blocks, spill := x.spill }

/-- What a port keeps: the level of its HOOP_IN line, which the hub does not drive. -/
def PortSt.warm (x : PortSt) : PortSt := { PortSt.init with hoopInUntil := x.hoopInUntil }

/-- A session keeps its meters (R113). -/
def SessSt.warm (x : SessSt) : SessSt := { SessSt.init with meters := x.meters, atOpen := x.atOpen, due := x.due }

/-- A host port keeps its link and the VFs that its host has enabled: BAR reads are answered throughout (R324, R1035).
DEDUCED, log entry 28. -/
def HostSt.warm (x : HostSt) : HostSt := { HostSt.init with vfEnable := x.vfEnable, numVfs := x.numVfs }

/-- A burn that LCY_ADVANCE asked for. -/
def Burn.forTap (b : Burn) : Bool := b.target.isSome && b.by_ == .tap

/-- The state with which a warm reset enters the FUSE phase (R113, R123). A response whose verdict is outstanding is dropped
and not counted (DESIGN CHOICE, log entry 82); an LCY_ADVANCE that it stops reports ABORTED_BY_RESET (DESIGN CHOICE, log entry
74). DEDUCED, log entry 28. DEDUCED, log entry 37. -/
def State.warmed (s : State) (cause : BitVec 6) : State :=
  let r := State.reset
  { r with
    pending := s.pending, now := s.now, id := s.id, pins := s.pins, clk := s.clk, straps := s.straps
    boot := { r.boot with phase := .fuse, resetCause := s.boot.resetCause ||| cause, warm := true,
                          causeSet := s.boot.causeSet.add s.ctlCycle (cause.setWidth 32), borderUp := s.boot.borderUp }
    lcy := { s.lcy with burn := none, waitingBurns := [], xtsKey := none, unlocked := false }
    tap := { s.tap with nonce := none, response := none,
                        lcyResult := if (s.lcy.burn.toList ++ s.lcy.waitingBurns).any Burn.forTap then (stAbortedByReset, 0, 0)
                                     else s.tap.lcyResult }
    hosts := s.hosts.map HostSt.warm
    sess := s.sess.map SessSt.warm
    billing := s.billing
    ports := s.ports.map PortSt.warm
    parts := s.parts.map PartSt.warm
    slath := { r.slath with nextId := s.slath.nextId, dumpUsed := s.slath.dumpUsed }
    hang := { r.hang with nextReport := s.hang.nextReport }
    wale := { r.wale with macSrc := macSrcReset s.id.uid }
    always := s.always
    err := { s.err with sel := 0, injMode := 0, injBank := 0, armed := false, stopped := false }
    mem := { s.mem with creelUsed := s.mem.creelUsed || s.weave.loaded }, out := s.out, free := s.free }

/-- The warm reset takes effect; open-lab mode ends with it (R348). -/
def warmNow (cause : BitVec 6) (s : State) : State :=
  (s |> abortAll |> releaseOutputs).warmed cause |> noteOpenLab

/-- A warm reset starts: during a burn it waits for the end of the program pulse (R161). DEDUCED, log entry 37. -/
def warmReset (cause : BitVec 6) (s : State) : State :=
  if s.lcy.burn.isSome then
    { s with boot := { s.boot with warmWaiting := some ((s.boot.warmWaiting.getD 0) ||| cause) } }
  else warmNow cause s

/-- HUB_CTRL_WARM_RESET: the value 0xA5 from the port manager of an arbiter port, or of any enabled port in Test (R106).
In Blank no port manager can write. -/
def execHubCtrlWarmReset (port : HostPort) (value : W32) (s : State) : Host.Outcome State Fault Refusal :=
  let f := 64 + port.val
  done (hostPut f (fun t => if t.isArbiterPm f && value.toNat % 256 == 0xA5 then warmReset causeHost t else t) s)

/-- STAKE_WATCHDOG_EXPIRY: only a stopped firmware leaves the watchdog unserviced (R107, R1002). -/
def execStakeWatchdogExpiry (s : State) : Host.Outcome State Fault Refusal :=
  if s.err.stopped then done (s |> raiseErr 0x0D 4 0xFFFF 0 0 4 |> warmReset causeWatchdog) else done s

/-! ### Fuse pulses -/

/-- FUSE_BIT_ATTEMPT_END: the pulse's effect; then a warm reset that waited, else the burn goes on (R154, R161). -/
def execFuseBitAttemptEnd (took : Bool) (s : State) : Host.Outcome State Fault Refusal :=
  match s.lcy.burn with
  | none => done s
  | some b =>
    match s.boot.warmWaiting with
    | some cause =>
      let fuses := if took then b.todo.head?.elim s.lcy.fuses s.lcy.fuses.burn else s.lcy.fuses
      let b1 := { b with burned := b.burned + b2n took }
      done (warmNow cause { s with lcy := { s.lcy with fuses := fuses, sensed := fuses, burn := some b1 } })
    | none => done (burnAttempt b took s)

/-! ### Start-up (R123) -/

/-- The start-up goes on: a failed one stays in its phase (R134). -/
def State.inPhase (s : State) (p : Phase) : Bool := s.boot.phase == p && !s.boot.fail

/-- Enter a phase. -/
def enterPhase (p : Phase) (s : State) : State := { s with boot := { s.boot with phase := p } }

/-- ROOT_PLL_LOCK: the timebase starts at zero (R93); with REFCLK present the serdes PLLs, which take it directly, lock as
well. DESIGN CHOICE, log entry 29. -/
def execRootPllLock (s : State) : Host.Outcome State Fault Refusal :=
  if s.inPhase .clock && s.pins.porst && s.pins.supplyGood && !s.clk.rootLock then
    done ({ s with now := 0, clk := { rootLock := true, refPresent := true, border := s.straps.mask, nsl := 0xFF,
                                      wale := true, plait := true } } |> enterPhase .fuse)
  else done s

/-- FUSE_PHASE_END: the copies and the journal have been sensed (R143). -/
def execFusePhaseEnd (s : State) : Host.Outcome State Fault Refusal :=
  if s.inPhase .fuse then
    done ({ s with lcy := { s.lcy with sensed := s.lcy.fuses } } |> enterPhase .journal)
  else done s

/-- In Production every whole-hub reset draws a fresh key for external memory (R173). -/
def drawKey (s : State) : State :=
  if s.lcy.state == .production then nextFree { s with lcy := { s.lcy with xtsKey := some (Config.freeXtsKey s.free) } } else s

/-- JOURNAL_PHASE_END: a pending transition is finished, but for the bits of `stuck`, which take no pulse; the copies are
voted (R143 to R145). DEDUCED, log entry 36. -/
def execJournalPhaseEnd (stuck : List FuseBit) (s : State) : Host.Outcome State Fault Refusal :=
  if s.inPhase .journal then
    let f := s.lcy.fuses
    let g := f.resume stuck
    let v := f.stateAtStart stuck
    done ({ s with lcy := { s.lcy with fuses := g, sensed := g, state := v.1, fallback := v.2 },
                   boot := { s.boot with journalResumed := f.resumes } } |> drawKey |> enterPhase .scrub)
  else done s

/-- Which memories SCRUB leaves as they are: in Test, after a warm reset, the Creel and the DRAM regions, with the blocks of
the trace region and the extents of the dump region (R113, R1016). DEDUCED, log entry 37. DEDUCED, log entry 66. -/
def scrub (s : State) : State :=
  if s.boot.warm && s.inTest then
    let stays : List (Nat × Nat × Nat) → List (Nat × Nat × Nat) := List.filter fun e => e.1 == 0 || e.1 == 3
    { s with mem := { s.mem with osier := [], stake := [], ce := stays s.mem.ce, ue := stays s.mem.ue,
                                 known := stays s.mem.known } }
  else
    { s with mem := State.reset.mem, slath := { s.slath with dumpUsed := [] } }
      |> each (List.range 64) (fun p => modPart p (fun x => { x with blocks := [], spill := [] }))

/-- A junior with BOOT_SRC = 1 takes its role, and its Plait link starts, as AWAIT_WEAVE begins (R947, R973). -/
def startJunior (s : State) : State :=
  if s.straps.bootSrc && !s.straps.pairRank then
    { s with plait := { s.plait with role := 3, pair := .unpaired } } |> enterDetect 8
  else s

/-- SCRUB_PHASE_END (R123, R126): in End of life there are no VFs. -/
def execScrubPhaseEnd (s : State) : Host.Outcome State Fault Refusal :=
  if s.inPhase .scrub then
    let s1 := scrub s
    done (match s.lcy.state with
      | .blank => enterPhase .blank s1
      | .endOfLife =>
        enterPhase .eol { s1 with hosts := s1.hosts.map fun x => { x with vfEnable := false, numVfs := 0 } }
      | .test => s1 |> enterPhase .awaitWeave |> startJunior
      | .production => s1 |> enterPhase .awaitWeave |> startJunior)
  else done s

/-- BOOT_FAIL: the phase under way does not complete (R134, R135). The table gives the CLOCK phase no FAIL_CODE: it is a free
value there. DESIGN CHOICE, log entry 35. -/
def execBootFail (s : State) : Host.Outcome State Fault Refusal :=
  let freeze (code : Byte) : State := { s with boot := { s.boot with fail := true, failCode := code } }
  if s.boot.fail then done s
  else
    done (match s.boot.phase with
      | .fuse => freeze 1
      | .journal => freeze 2
      | .scrub => freeze 3
      | .clock => if s.pins.porst then nextFree (freeze ((Config.freeBits s.free).setWidth 8)) else s
      | .awaitWeave | .linkTrain | .enumerate | .ready | .blank | .eol => s)

/-! ### READY (R133, R136, R324) -/

/-- Every enumeration has ended; one of a port that retrains goes on (R424). -/
def State.enumEnded (s : State) : Bool := (List.range 8).all fun n => (s.port n).enum.isNone

/-- A partition at READY: routing, selections, the watchdog, the graph, its bound runs, and the reset point of a partition
whose weft is coded (R136, R939). DEDUCED, log entry 39. -/
def partReady (p : Nat) (s : State) : State :=
  let w := (s.part p).active.weft
  let sels := (List.range 64).map fun k => (k, weftSel w k)
  s |> modPart p (fun x => { x with routes := weftRoutes w, oldRoutes := weftRoutes w, switchTs := s.now, sels := sels,
                                    watchdogAt := s.t, stageAt := s.t })
    |> (fun t => if hangFlag w 0 then startGraph p t else t)
    |> bindAtReady p |> (fun t => if weftCoded w then forceReset p 0 t else t)

/-- The hub may ask its twin to pair as it enters READY: HELLO says so again (R969). DEDUCED, log entry 39. -/
def readyHello (s : State) : State :=
  let asked := match s.plait.hello with | some h => h.request | none => false
  if s.twinRoled && s.plaitUp && (s.pairPolicy == 2 || asked) then s |> sendHello (s.pairPolicy == 2) |> tryPairing
  else s

/-- READY_ENTRY: the duplicate windows are empty then (R136); vector 0 is signalled for READY alone (R133, R314). DEDUCED, log
entry 39. -/
def execReadyEntry (s : State) : Host.Outcome State Fault Refusal :=
  if s.inPhase .enumerate && s.enumEnded then
    let there := s.pfs ++ (List.range 64).filter fun n => s.enabledPort (fnPort n) && s.vfExists n
    done ({ s with plait := { s.plait with readyAt := s.t, lastRenew := s.t } } |> enterPhase .ready
      |> each (List.range 68) (fun f => modFn f (fun x => { x with window := [] }))
      |> each (List.range 64) partReady |> signalPfs 0
      |> (fun t => if s.boot.warm then each there (fun f => setEvent f 3) t else t) |> readyHello)
  else done s

/-! ### Border ports (R96, R105, R125, R321) -/

/-- PERST_N_RELEASE. -/
def execPerstNRelease (port : HostPort) (s : State) : Host.Outcome State Fault Refusal :=
  done { s with pins := { s.pins with perst := s.pins.perst ||| (1#4 <<< port.val) } }

/-- BORDER_LINK_UP: in AWAIT_WEAVE and later, and in End of life, an enabled port whose PERST_N is released trains
(R103, R125, R126). -/
def execBorderLinkUp (port : HostPort) (s : State) : Host.Outcome State Fault Refusal :=
  let n := port.val
  if (s.serving || s.boot.phase == .eol) && s.enabledPort n && s.pins.perst.getLsbD n && s.clk.border.getLsbD n then
    done { s with boot := { s.boot with borderUp := s.boot.borderUp ||| (1#4 <<< n) } }
  else done s

/-- HOST_PORT_RESET: PERST_N of an enabled port goes low, or its link, which is up, is reset or goes down. DEDUCED, log
entry 42. -/
def execHostPortReset (port : HostPort) (cause : PortResetCause) (s : State) : Host.Outcome State Fault Refusal :=
  let n := port.val
  let s1 := if cause = .perst then { s with pins := { s.pins with perst := s.pins.perst &&& ~~~(1#4 <<< n) } } else s
  if s.enabledPort n && s.boot.borderUp.getLsbD n then done (resetPort n s1)
  else if cause = .perst && s.enabledPort n && s.serving then done (resetPort n s1)
  else done s1

/-- VF_ENABLE: VF Enable is set and NumVFs written; `numVfs` 0 clears VF Enable. Sessions that cease to exist are reset
(R258). DEDUCED, log entry 65. -/
def execVfEnable (port : HostPort) (numVfs : Nat) (s : State) : Host.Outcome State Fault Refusal :=
  let n := port.val
  done (hostPut (64 + n) (fun t =>
    if 16 < numVfs then t
    else
      let gone := (t.sessionsOf n).filter fun q => decide (numVfs ≤ q % 16)
      t |> each gone (fun q => resetSession q 0x20)
        |> modHost n (fun x => { x with vfEnable := decide (0 < numVfs), numVfs := numVfs })) s)

/-! ### Serdes PLLs (R96, R97, R992) -/

/-- SERDES_PLL_LOSS: the link of the PLL goes down, and nothing else. -/
def execSerdesPllLoss (pll : Pll) (s : State) : Host.Outcome State Fault Refusal :=
  done (match pll with
    | .border n =>
      let s1 := { s with clk := { s.clk with border := s.clk.border &&& ~~~(1#4 <<< n.val) } }
        |> raiseErr 9 3 n.val 0 0 0
      if s.boot.borderUp.getLsbD n.val then resetPort n.val s1 else s1
    | .nsl n =>
      let s1 := { s with clk := { s.clk with nsl := s.clk.nsl &&& ~~~(1#8 <<< n.val) } } |> raiseErr 9 2 n.val 0 0 0
      if (s.port n.val).lk.link.live then portDown n.val 6 false s1 else s1
    | .wale => { s with clk := { s.clk with wale := false } } |> raiseErr 9 4 0xFFFF 0 0 0 |> waleDown
    | .plait =>
      let s1 := { s with clk := { s.clk with plait := false } } |> raiseErr 9 4 0xFFFF 0 0 0
      if s.plait.lk.link.live then plaitDown 6 false s1 else s1)

/-- A link that its PLL held down starts again, once its DOWN period has ended. -/
def restartLink (l : Nat) (s : State) : State :=
  if (s.lnk l).link == .down && s.after (s.lnk l).since 1000 then
    if l = 8 then enterDetect 8 s else s |> startLink l |> bootAdvance
  else s

/-- SERDES_PLL_RELOCK: the PLL's bit returns to 1. -/
def execSerdesPllRelock (pll : Pll) (s : State) : Host.Outcome State Fault Refusal :=
  if !s.clk.refPresent then done s
  else
    done (match pll with
      | .border n => { s with clk := { s.clk with border := s.clk.border ||| (1#4 <<< n.val) } }
      | .nsl n => { s with clk := { s.clk with nsl := s.clk.nsl ||| (1#8 <<< n.val) } } |> restartLink n.val
      | .wale => { s with clk := { s.clk with wale := true } }
      | .plait => { s with clk := { s.clk with plait := true } } |> restartLink 8)

/-! ### Partition reset (R115 to R120) -/

/-- PARTITION_RESET: a write of 1 to REQUEST by the owner. -/
def execPartitionReset (fn : Fn) (part : Part) (s : State) : Host.Outcome State Fault Refusal :=
  done (hostPut fn (fun t => if t.owns fn part then modPart part (fun x => { x with resetPending := true }) t else t) s)

/-- A commit that has switched ends with its units not yet written counted as skipped; one that has not, and a REWEAVE,
end with ABORTED_BY_RESET, from their fetch on; the inactive plane is emptied (R117, R240). DEDUCED, log entry 38. -/
def resetWeave (p : Nat) (s : State) : State :=
  let s1 := match (s.part p).commit with
    | some c => if c.switched then finishCommit p c s else s
    | none => s
  let waiting := s1.cmdsWhere fun _ c => (c.op == 0x70 || c.op == 0x71) && !c.started && c.scope == 1 && c.partition == p
  s1 |> dropReweave p stAbortedByReset |> each waiting (fun (f, c) => fail f c.tag stAbortedByReset)

/-- The lattice of the partition: stage 0, no hold, no firing, no pending trigger (R113, R515). DEDUCED, log entry 38. -/
def resetLattice (p : Nat) (s : State) : State :=
  { s with fires := s.fires.filter fun e => e.1 != p } |> endHold p
    |> modPart p (fun x => { x with stage := 0, stageAt := s.t, occDirect := 0, occStage := 0, firesDirect := [],
                                    firesStage := [] })

/-- The cuts of the partition are released, the one under construction as soon as it is assigned (R116, R644). -/
def resetCuts (p : Nat) (s : State) : State :=
  s |> modPart p (PartSt.mapBegun fun c => { c with releasing := true })
    |> each (((s.part p).cuts.filter fun c => !c.releasing).map fun c => c.id) (releaseCut p none)

/-- The binding of the reports ends, with its records; reports and graph are discarded, and the graph starts again where the
weft keeps one (R672, R681, R683, R685). -/
def resetHang (p : Nat) (s : State) : State :=
  let on := (s.part p).graphOn
  s |> closeBinding p |> modPart p (fun x => { x with reports := [], lastCycle := [], lastStall := none }) |> stopGraph p |> (fun t => if on then startGraph p t else t)

/-- Counters are zeroed; a pending COUNTER_CONFIG is aborted (R768). -/
def resetCounters (p : Nat) (s : State) : State :=
  s |> dropConfig p stAbortedByReset |> modPart p (fun x => { x with counters := [] })

/-- Every run of the partition ends, and its bound runs start again; a coded stream makes its reset point (R834, R839,
R939). -/
def resetRuns (p : Nat) (s : State) : State :=
  let was := (s.part p).coder.coded
  let mine := (s.osier.runs.filter fun q => q.partition == p).map fun q => q.id
  let s1 := each mine (fun id t => match t.run id with | some q => takeRun q runReset 0x22 t | none => t) s
  let held := (s1.part p).coder.pendSwitch.flatMap fun e => e.behind
  let s2 := s1 |> modPart p (fun x => { x with coder := { x.coder with pendSwitch := [] } })
    |> markBinding p roleCoding false false |> markBinding p rolePred false false |> bindAtReady p |> retryAll
  flushDram held (if was || s2.wantCoded p then forceReset p 8 s2 else s2)

/-- PARTITION_RESET_COMPLETE: no halt of the partition is gathering. DEDUCED, log entry 38. -/
def execPartitionResetComplete (part : Part) (s : State) : Host.Outcome State Fault Refusal :=
  let p := part.val
  if (s.part p).resetPending && (s.part p).gather.isNone then
    done (s |> resetWeave p |> resetLattice p |> resetCuts p |> resetHang p |> resetCounters p |> resetRuns p
            |> modPart p (fun x => { x with resetPending := false }))
  else done s

end Sys2Proof.Machine
end

