-- ==== Sys2Proof/Machine/Registers.lean ====
section
/-!
DEFINITION. What the registers of BAR0 read: one value for each offset of spec/21 and each function, under the layouts of
the chapters that define them.
-/

namespace Sys2Proof.Machine

open Sys2Proof

/-! ### Words of wider values -/

/-- Word `k` of a value. -/
def word32 (v k : Nat) : Nat := v / 2 ^ (32 * k) % 2 ^ 32

/-- Word `k` of a signed or unsigned 64-bit field. -/
def wordOf (v : W64) (k : Nat) : Nat := word32 v.toNat k

/-- Fields put together: value and lowest bit. -/
def fields (l : List (Nat × Nat)) : Nat := (l.map fun (v, lo) => v * 2 ^ lo).sum

/-! ### HUB, LCY, CLK (R97, R104, R121, R135, R187, R1036) -/

/-- PHASE codes of R123. -/
def Phase.code : Phase → Nat
  | .clock => 0 | .fuse => 1 | .journal => 2 | .scrub => 3 | .awaitWeave => 4 | .linkTrain => 5 | .enumerate => 6
  | .ready => 7 | .blank => 0xC | .eol => 0xD

/-- HUB_BOOT_STATUS. -/
def State.bootWord (s : State) : Nat :=
  fields [(s.boot.phase.code, 0), (b2n s.boot.journalResumed, 4), (b2n s.boot.fail, 5), (s.boot.failCode.toNat, 8)]

/-- HUB_ID. -/
def State.idWord (s : State) : Nat :=
  fields [(s.id.stepping.toNat, 0), (s.id.grade.toNat % 2, 4), (s.id.mfr.toNat, 5), (0x8064, 16)]

/-- HUB_STRAPS. -/
def State.strapsWord (s : State) : Nat :=
  fields [(b2n s.straps.pairRank, 0), (b2n s.straps.bootSrc, 1), (s.straps.mask.toNat, 2), (b2n s.straps.maskZero, 6),
    (b2n s.straps.bootSrcIgnored, 7)]

/-- A transition or a key-hash burn is in progress: also the one that the JOURNAL phase resumes (R144, R187). -/
def State.burnBusy (s : State) : Bool :=
  s.lcy.burn.isSome || (s.boot.phase == .journal && !s.boot.fail && s.lcy.fuses.resumes)

/-- LCY_STATE. -/
def State.lcyStateWord (s : State) : Nat :=
  fields [(s.lcy.state.code, 0), (s.voted.code, 2), (b2n s.lcy.fallback, 4), (b2n s.burnBusy, 5)]

/-- LCY_STATUS. -/
def State.lcyStatusWord (s : State) : Nat :=
  fields [(b2n s.lcy.unlocked, 0), (s.lcy.fails.toNat, 1), (b2n s.lcy.lockout, 3), (b2n s.lcy.sensed.imgLocked, 4),
    (b2n s.lcy.sensed.tapLocked, 5), (b2n s.boot.journalResumed, 6)]

/-- CLK_STATUS. -/
def State.clkWord (s : State) : Nat :=
  fields [(b2n s.clk.rootLock, 0), (b2n s.clk.refPresent, 1), (s.clk.border.toNat, 2), (s.clk.nsl.toNat, 6),
    (b2n s.clk.wale, 14), (b2n s.clk.plait, 15)]

/-- Registers 0x0000 to 0x02FF. `pf`: the function is a PF. HUB_CTRL reads 0; HUB_MEM_DATA is read by the window. -/
def hubReg (s : State) (f off : Nat) : Nat :=
  let pf := isPf f
  let h := s.host (fnPort f)
  if off = 0x000 then s.idWord
  else if off = 0x004 then fields [(s.id.romVersion.toNat, 0), ((s.weave.patch.map fun x => x.1.toNat % 65536).getD 0, 16)]
  else if off = 0x014 then s.bootWord
  else if 0x020 ≤ off ∧ off < 0x030 then word32 s.id.uid.toNat ((off - 0x020) / 4)
  else if off = 0x100 then s.lcyStateWord
  else if off = 0x104 then s.lcyStatusWord
  else if !pf then 0
  else if off = 0x008 then s.strapsWord
  else if off = 0x010 then s.boot.resetCause.toNat
  else if off = 0x040 then h.memSel.toNat
  else if off = 0x044 then wordOf h.memAddr 0
  else if off = 0x048 then wordOf h.memAddr 1
  else if off = 0x054 then h.memStatus.toNat
  else if off = 0x108 then s.lcy.sensed.a.toNat
  else if off = 0x10C then s.lcy.sensed.b.toNat
  else if off = 0x110 then s.lcy.sensed.c.toNat
  else if off = 0x114 then s.lcy.sensed.journal.toNat
  else if 0x140 ≤ off ∧ off < 0x170 then word32 s.lcy.sensed.imgKey.toNat ((off - 0x140) / 4)
  else if 0x180 ≤ off ∧ off < 0x1B0 then word32 s.lcy.sensed.tapKey.toNat ((off - 0x180) / 4)
  else if off = 0x200 then s.clkWord
  else 0

/-! ### WEA (R253) -/

/-- Registers 0x0300 to 0x031C of a PF. -/
def weaReg (s : State) (port off : Nat) : Nat :=
  let w := (s.host port).wea
  if off = 0x300 then wordOf w.addr 0
  else if off = 0x304 then wordOf w.addr 1
  else if off = 0x308 then w.len.toNat
  else if off = 0x310 then
    fields [(w.state.toNat, 0), (b2n s.weave.signed, 3), (b2n s.weave.patch.isSome, 4), (w.reason.toNat, 8),
      (s.weave.loadedBy.toNat, 16)]
  else if off = 0x314 then w.errOffset.toNat
  else if off = 0x318 then wordOf s.weave.imageId 0
  else if off = 0x31C then wordOf s.weave.imageId 1
  else 0

/-! ### SES and MET (R322, R376, R1039) -/

/-- SES_STATUS. -/
def FnSt.statusWord (x : FnSt) : Nat :=
  fields [(b2n (x.enable && x.fetching), 0), (b2n x.inflight.isEmpty, 1), (b2n x.ringError, 2), (b2n x.resetDrain, 3),
    (x.errorCode.toNat, 4), (b2n (x.enable && !x.cplFree), 8), (x.inflight.length % 128, 16)]

/-- Registers 0x0400 to 0x0444 of a function. -/
def sesReg (s : State) (f off : Nat) : Nat :=
  let x := s.fn f
  if off = 0x400 then wordOf x.cmdBase 0
  else if off = 0x404 then wordOf x.cmdBase 1
  else if off = 0x408 then wordOf x.cplBase 0
  else if off = 0x40C then wordOf x.cplBase 1
  else if off = 0x410 then x.ringSize.toNat
  else if off = 0x414 then b2n x.enable
  else if off = 0x418 then x.statusWord
  else if off = 0x41C then x.tail.toNat
  else if off = 0x420 then x.head.toNat
  else if off = 0x424 then x.cplHead.toNat
  else if off = 0x428 then x.cplTail.toNat
  else if off = 0x42C then x.coal.toNat
  else if off = 0x430 then x.event.toNat
  else if off = 0x434 then (if isPf f then 16 * (f - 64) + 64 else f)
  else if off = 0x438 then
    fields [(b2n s.openLabFlag, 0), (b2n s.openLab, 1), (bitsOf 4 (fun n => (s.host n).consent), 2),
      (b2n (isPf f || (s.ses f).globalView), 6)]
  else if off = 0x43C then (if isPf f then 0 else wordOf (s.ses f).allow 0)
  else if off = 0x440 then (if isPf f then 0 else wordOf (s.ses f).allow 1)
  else if off = 0x444 then x.hwm.toNat
  else 0

/-- LAST_BOUNDARY in µs as MET_LAST_BOUNDARY shows it. -/
def State.boundaryWord (s : State) : Nat :=
  if s.billing.wallSet && s.billing.periodS != 0 then s.billing.lastBoundary.getD 0 else 0

/-- Registers 0x0480 to 0x049C. -/
def metReg (s : State) (off : Nat) : Nat :=
  if off = 0x480 then s.billing.epoch.toNat
  else if off = 0x484 then word32 s.wallNow 0
  else if off = 0x488 then word32 s.wallNow 1
  else if off = 0x48C then fields [(b2n s.billing.wallSet, 0), (b2n (s.billing.epoch == 0xFFFFFFFF), 1)]
  else if off = 0x490 then s.billing.periodS.toNat
  else if off = 0x494 then s.billing.originS.toNat
  else if off = 0x498 then word32 s.boundaryWord 0
  else if off = 0x49C then word32 s.boundaryWord 1
  else 0

/-! ### NSL (R437) -/

/-- State codes of R413. -/
def LinkState.code : LinkState → Nat
  | .disabled => 0 | .detect => 1 | .sync => 2 | .align => 3 | .config => 4 | .timesync => 5 | .active => 6
  | .retrain => 7 | .down => 8 | .scan => 9

/-- A word of the NSLn block. -/
def nslReg (s : State) (n off : Nat) : Nat :=
  let x := s.port n
  if off = 0x00 then
    fields [(x.lk.link.code, 0), (x.lanes.toNat, 4), (x.peerRole.toNat, 6), (b2n x.newDie, 8), (x.lk.downCause.toNat, 12),
      (x.lk.trainFails.toNat, 16)]
  else if off = 0x08 then x.lk.err.toNat
  else if off = 0x0C then fields [(x.peerUnits.toNat, 0), (x.peerCaps.toNat, 13)]
  else if off = 0x10 then wordOf x.uid 0
  else if off = 0x14 then wordOf x.uid 1
  else if off = 0x18 then x.tickFs.toNat
  else if off = 0x1C then wordOf x.lk.offset 0
  else if off = 0x20 then wordOf x.lk.offset 1
  else if off = 0x24 then x.lk.rtt.toNat
  else 0

/-! ### HOP, RUN, SLA (R540, R587, R646, R691) -/

/-- F_n of R525, as a number of 64 bits. -/
def State.fastSet (s : State) (n : Nat) : Nat := bitsOf 64 (s.inFast n)

/-- A pulse is driven. -/
def Pulse.driven : Pulse → Bool
  | .on _ => true
  | .idle | .gap _ _ => false

/-- An XTRIG input is active low where every weft in force says so; where wefts differ, its active level is the high one.
DESIGN CHOICE, log entry 40. -/
def State.xtrigFalls (s : State) (j : Nat) : Bool :=
  let ws := ((List.range 64).map fun p => (s.part p).active.weft).filter fun w => !w.isEmpty
  !ws.isEmpty && ws.all fun w => bit (xtrigPol w) j

/-- HOP_PINS (R540). -/
def State.pinsWord (s : State) : Nat :=
  let active (j : Nat) : Bool :=
    if bit s.xtrigDir j then (s.xtrig j).driven else s.pins.xtrig.getLsbD j != s.xtrigFalls j
  fields [(bitsOf 8 (fun n => decide (s.t < (s.port n).hoopInUntil)), 0),
    (bitsOf 8 (fun n => (s.port n).hoopOut.driven), 8), (bitsOf 8 active, 16), (s.xtrigDir, 24)]

/-- View codes of R541. -/
def View.code : View → Nat
  | .running => 0 | .draining => 1 | .halted => 2 | .stepping => 3 | .unresponsive => 4

/-- RUN_UNIT_VIEW of the unit that a function selects. -/
def State.viewWord (s : State) (f : Nat) : Nat :=
  let u := (s.fn f).unitSel.toNat
  match s.unitPart u with
  | some p =>
    let x := s.unit u
    let r := x.record
    fields [(if isPf f || s.reads f p then x.view.code else 7, 0), (b2n r.isSome, 3),
      ((r.map fun r => field r.data 4 1 % 16).getD 0, 4),
      (b2n ((r.map fun r => bit (field r.data 6 1) 1).getD false), 8), (p, 16)]
  | none => 0xFF0007

/-- The cut that a function selects with SLA_CUT_SEL, where it may see it. -/
def State.selCut (s : State) (f : Nat) : Option Cut :=
  let v := (s.fn f).cutSel.toNat
  if isPf f || s.reads f (v % 64) then (s.part (v % 64)).cuts[v / 256 % 16]? else none

/-- SLA_CUT_INFO1. -/
def State.cutWord (s : State) (c : Cut) : Nat :=
  let open_ := (s.slath.exports.filter fun e => e.partition == c.partition && e.cut == c.id).length
  fields [(c.label, 0), (b2n (c.stage == 4), 2), (b2n (s.releaseFetched c.partition c), 3), (b2n c.regionStored.isSome, 4),
    (b2n c.stateStored.isSome, 5), (open_ % 65536, 16)]

/-- Registers 0x0B00 to 0x0DFF. -/
def hopRunSla (s : State) (f off : Nat) : Nat :=
  let g (v : Nat) : Nat := if s.seesGlobal f then v else 0
  if off = 0xB00 then g s.pinsWord
  else if 0xB10 ≤ off ∧ off < 0xB50 then g (word32 (s.fastSet ((off - 0xB10) / 8)) ((off - 0xB10) / 4 % 2))
  else if off = 0xC00 then (s.fn f).unitSel.toNat
  else if off = 0xC04 then s.viewWord f
  else if off = 0xC08 then g s.hang.drops.toNat
  else if off = 0xC0C then g s.hang.evict.toNat
  else if off = 0xD00 then (s.fn f).cutSel.toNat
  else if off = 0xD04 then ((s.selCut f).map fun c => c.id.toNat).getD 0
  else if off = 0xD08 then ((s.selCut f).map s.cutWord).getD 0
  else if off = 0xD0C then g (fields [(sat 65535 s.creelPages, 0), (sat 65535 s.dramPages, 16)])
  else 0

/-! ### WAL, TIM, CNT (R743, R744, R774, R780) -/

/-- Registers 0x0E00 to 0x0F08. -/
def walCnt (s : State) (f off : Nat) : Nat :=
  let g (v : Nat) : Nat := if s.seesGlobal f then v else 0
  let pf (v : Nat) : Nat := if isPf f then v else 0
  let ao (k : Nat) : Nat := g (wordOf (Tab.getD s.always (s.fn f).aoSel.toNat 0) k)
  if off = 0xE00 then
    g (fields [(b2n s.wale.portUp, 0), (b2n s.wale.dramReady, 1), (b2n s.wale.dramFail, 2),
      (b2n ((List.range 64).any fun p => (s.part p).reserve.isSome), 3)])
  else if off = 0xE04 then g (((List.range 64).map fun p => (s.part p).spill.length).sum)
  else if off = 0xE08 then pf (word32 s.wale.macDst.toNat 0)
  else if off = 0xE0C then pf (word32 s.wale.macDst.toNat 1)
  else if off = 0xE10 then pf (word32 s.wale.macSrc.toNat 0)
  else if off = 0xE14 then pf (word32 s.wale.macSrc.toNat 1)
  else if off = 0xE80 then word32 s.lastEdge 0
  else if off = 0xE84 then word32 s.lastEdge 1
  else if off = 0xE88 then pf (wordOf s.plait.lk.offset 0)
  else if off = 0xE8C then pf (wordOf s.plait.lk.offset 1)
  else if off = 0xE90 then pf s.plait.lk.rtt.toNat
  else if off = 0xF00 then (s.fn f).aoSel.toNat
  else if off = 0xF04 then ao 0
  else if off = 0xF08 then ao 1
  else 0

/-! ### OSR (R845) -/

/-- OSR_LIB_INFO of an entry. -/
def State.libWord (s : State) (e : LibEntry) : Nat :=
  fields [(1, 0), (e.pkind % 2, 1), (e.profile % 2, 2), (b2n e.fromImage, 3), (b2n (s.libInUse e.index), 4),
    (e.addedBy.getD 0xFF, 8), (e.space / 1024 % 65536, 16)]

/-- The run that OSR_RUN_SEL names, live or ended, as status, cause, core, role, index, EPC; where the function may see it. -/
def State.selRun (s : State) (f : Nat) : Option (Nat × Nat × Nat × Nat × Nat × Nat) :=
  let id := (s.fn f).osrRunSel
  let may (session : Option Nat) (p : Nat) : Bool := isPf f || session == some f || s.reads f p
  match s.run id with
  | some q => if may q.session q.partition then some (1, 0, q.core, q.role, q.index, s.epc q) else none
  | none =>
    match s.osier.ended.find? fun x => x.id == id with
    | some x =>
      if may x.session x.partition then some (x.status.toNat, x.cause.toNat, x.core, x.role, x.index, x.epc.toNat) else none
    | none => none

/-- Registers 0x1000 to 0x1060. -/
def osrReg (s : State) (f off : Nat) : Nat :=
  let e := s.lib (s.fn f).osrLibSel.toNat
  if off < 0x1040 then
    let c := (off - 0x1000) / 4
    if isPf f then
      fields [(s.localUsed c % 1024, 0), ((s.placedOn c).length % 256, 16), (b2n (Tab.get? s.osier.holders c).isSome, 24)]
    else 0
  else if off = 0x1040 then (s.fn f).osrLibSel.toNat
  else if off = 0x1044 then (e.map s.libWord).getD 0xFF00
  else if 0x1048 ≤ off ∧ off < 0x1058 then ((e.map fun x => word32 x.hash.toNat ((off - 0x1048) / 4))).getD 0
  else if off = 0x1058 then (s.fn f).osrRunSel.toNat
  else if off = 0x105C then
    ((s.selRun f).map fun (st, cause, core, role, index, _) =>
      fields [(st, 0), (cause, 8), (core % 16, 16), (role % 16, 20), (index % 256, 24)]).getD 0
  else if off = 0x1060 then ((s.selRun f).map fun (_, _, _, _, _, epc) => epc % 2 ^ 32).getD 0
  else 0

/-! ### PLT and ERR (R991, R1012) -/

/-- PAIR codes of R968. -/
def PairState.code : PairState → Nat
  | .standalone => 0 | .unpaired => 1 | .pairing => 2 | .paired => 3 | .split => 4 | .twinLost => 5

/-- The 32 bytes of an error-log entry (R1013). -/
def ErrEntry.bytes (e : ErrEntry) : List Byte :=
  leBytes 4 e.seq.toNat ++ [e.cls, e.scope] ++ leBytes 2 e.inst.toNat ++ leBytes 8 e.ts.toNat ++ leBytes 8 e.addr.toNat ++
    leBytes 4 e.detail.toNat ++ [e.action, 0, 0, 0]

/-- Registers 0x1100 to 0x123C of a PF. -/
def pltErr (s : State) (off : Nat) : Nat :=
  let x := s.plait
  if off = 0x1100 then
    fields [(x.lk.link.code, 0), (x.pair.code, 4), (b2n x.hbPresent, 7), (x.role.toNat, 8), (b2n x.retained.isSome, 10),
      (x.mismatch.toNat, 16)]
  else if off = 0x1104 then x.event.toNat
  else if off = 0x1200 then s.err.status.toNat
  else if off = 0x1204 then (s.err.log.head?.map fun e => e.seq.toNat).getD 0
  else if off = 0x1208 then s.err.sel.toNat
  else if off = 0x120C then fields [(s.err.injMode.toNat, 0), (s.err.injBank.toNat, 2), (b2n s.err.armed, 8)]
  else if 0x1220 ≤ off ∧ off < 0x1240 then
    ((s.err.log[s.err.sel.toNat]?).map fun e => field e.bytes (off - 0x1220) 4).getD 0
  else 0

/-! ### The partition block (R1024) -/

/-- A function may read the profiling counters of a partition (R775). -/
def State.seesCounters (s : State) (f p : Nat) : Bool := s.openLab || s.reads f p || (isPf f && s.inTest)

/-- The counter word that CNT_Pn_SEL of a function names. -/
def State.selCtr (s : State) (f p : Nat) : W64 :=
  if s.seesCounters f p then s.ctr p (Tab.getD (s.fn f).cntSel p (0 : W32)).toNat else 0

/-- SES_Pn_TENANCY: through a VF without the right to see every role, only for a partition on which it has a role, and then
whole (R349). DESIGN CHOICE, log entry 16. -/
def State.tenancyWord (s : State) (f p : Nat) : Nat :=
  let x := s.part p
  if s.seesGlobal f || s.reads f p then
    fields [(x.owner.getD 0, 0), (b2n x.owner.isSome, 6), (x.observers.length, 8)]
  else 0

/-- Words that a VF reads only for a partition that it owns or observes, up to WAL_Pn_CODE_OUT_KIB. -/
def partView (s : State) (p off : Nat) : Nat :=
  let x := s.part p
  let c := x.coder
  let seqs := (x.blocks.filter fun b => b.bkind == 0).map fun b => b.seq.toNat
  if off = 0x08 then fields [(s.countView p .running, 0), (s.countView p .halted, 16)]
  else if off = 0x0C then fields [(s.countView p .draining, 0), (s.countView p .stepping, 16)]
  else if off = 0x10 then s.countView p .unresponsive
  else if off = 0x14 then
    fields [(b2n x.graphOn, 0), (b2n (x.reports.any fun r => r.binding), 1), (x.reports.length, 4),
      (sat 65535 ((s.unitsOf p).filter fun u => (s.unit u).uncertain).length, 16)]
  else if off = 0x18 then (x.reports.getLast?.map fun r => r.id.toNat).getD 0
  else if off = 0x1C then x.overrun.toNat
  else if off = 0x20 then fields [(x.stage, 0), (b2n x.held, 2), (sat 65535 x.occStage, 16)]
  else if off = 0x24 then x.serial.toNat
  else if off = 0x28 then x.suppressed.toNat
  else if off = 0x2C then
    fields [(b2n (x.begun.any fun c => decide (c.stage < 2)), 0), (b2n (s.capturing p), 1), (x.cuts.length, 8)]
  else if off = 0x30 then x.lastCut.toNat
  else if off = 0x34 then
    fields [(b2n (!x.spill.isEmpty), 0), (b2n x.gapPort.isSome, 1), (b2n x.gapDram.isSome, 2), (b2n x.routeOverride, 3),
      (b2n x.forcedRaw, 4), (sat 65535 x.spill.length, 16)]
  else if off = 0x38 then seqs.head?.getD 0
  else if off = 0x3C then seqs.getLast?.getD 0
  else if off = 0x40 then
    fields [(b2n c.coded, 0), (b2n c.stalled, 1), (c.model, 8), (sat 65535 c.frames, 16)]
  else if off = 0x44 then c.resets.toNat
  else if off = 0x48 then c.codeBad.toNat
  else if off = 0x4C then c.inBytes.toNat / 1024 % 2 ^ 32
  else if off = 0x50 then c.outBytes.toNat / 1024 % 2 ^ 32
  else if off = 0x64 then
    fields [(b2n (s.boundRun p roleCoding).isSome, 0), (b2n (s.boundRun p rolePred).isSome, 1),
      (b2n (s.osier.codingFailed.getLsbD p), 2), (b2n (s.osier.predFailed.getLsbD p), 3)]
  else if off = 0x68 then
    fields [(bitsOf 8 (fun n => (s.stake n p).held), 0), (bitsOf 8 (fun n => (s.stake n p).twin), 8),
      (bitsOf 8 (fun n => s.carries n p), 16)]
  else 0

/-- WEA_Pn_PLANE (R253): a command is outstanding from its fetch on (R234, R286). -/
def State.planeWord (s : State) (p : Nat) : Nat :=
  let x := s.part p
  let any (sel : Cmd → Bool) : Bool := !(s.cmdsWhere fun _ c => sel c).isEmpty
  fields [(b2n x.activeB, 0), (b2n x.inactive.isSome, 1),
    (b2n (any fun c => c.op == 0x70 && c.scope == 1 && c.partition == p), 2),
    (b2n (x.commit.isSome || any fun c => c.waitingWeft p), 3), (b2n (s.inWarpCommit p || any (s.waitingWarp p)), 4)]

/-- A word of the block of Pn. -/
def partReg (s : State) (f p off : Nat) : Nat :=
  let x := s.part p
  let pf (v : Nat) : Nat := if isPf f then v else 0
  if off = 0x00 then s.tenancyWord f p
  else if off = 0x04 then 2 * b2n x.resetPending
  else if off = 0x54 then (Tab.getD (s.fn f).cntSel p (0 : W32)).toNat
  else if off = 0x58 then wordOf (s.selCtr f p) 0
  else if off = 0x5C then wordOf (s.selCtr f p) 1
  else if off = 0x60 then
    (if s.seesCounters f p then fields [(b2n x.cfg.isSome, 0), (b2n x.selOverride, 1), (sat 65535 x.skipped, 16)] else 0)
  else if off = 0x6C then pf (s.planeWord p)
  else if off = 0x70 then pf x.active.gen.toNat
  else if off = 0x74 then pf ((x.inactive.map fun y => y.gen.toNat).getD 0)
  else if isPf f || s.reads f p then partView s p off
  else 0

/-! ### MSI-X (R1019) -/

/-- The MSI-X table and pending bits of a function. -/
def msixReg (s : State) (f off : Nat) : Nat :=
  let vs := (s.fn f).vectors
  if 0x1C00 ≤ off then (if off = 0x1C00 then bitsOf 3 (fun k => (vs[k]?.map fun v => v.pend).getD false) else 0)
  else
    match vs[(off - 0x1800) / 16]? with
    | none => 0
    | some v =>
      let k := off / 4 % 4
      if k = 0 then wordOf v.addr 0 else if k = 1 then wordOf v.addr 1 else if k = 2 then v.data.toNat else b2n v.mask

/-! ### One word of BAR0 -/

/-- The current value of the register at an offset, as a function sees it (R1018, R1021, R1022, R1027). -/
def regValue (s : State) (f off : Nat) : Nat :=
  if off % 4 ≠ 0 then 0
  else if off < 0x300 then hubReg s f off
  else if off < 0x400 then (if isPf f then weaReg s (fnPort f) off else 0)
  else if off < 0x480 then sesReg s f off
  else if off < 0x800 then metReg s off
  else if off < 0xA00 then (if isPf f then nslReg s ((off - 0x800) / 0x40) (off % 0x40) else 0)
  else if off = 0xA00 then (if isPf f then s.osier.scanCtrl.toNat else 0)
  else if off < 0xE00 then hopRunSla s f off
  else if off < 0x1000 then walCnt s f off
  else if off < 0x1100 then osrReg s f off
  else if off < 0x1800 then (if isPf f then pltErr s off else 0)
  else if off < 0x2000 then msixReg s f off
  else if off < 0x4000 then partReg s f ((off - 0x2000) / 0x80) (off % 0x80)
  else 0

/-! ### Groups of words that are read together (R1030) -/

/-- How many words the group has whose lowest word stands at an offset; 0 where none begins there. -/
def groupSize (off : Nat) : Nat :=
  if off = 0x020 then 4
  else if off = 0x140 ∨ off = 0x180 then 12
  else if off = 0x318 ∨ off = 0x43C ∨ off = 0x484 ∨ off = 0x498 then 2
  else if 0x800 ≤ off ∧ off < 0xA00 ∧ (off % 0x40 = 0x10 ∨ off % 0x40 = 0x1C) then 2
  else if 0xB10 ≤ off ∧ off < 0xB50 ∧ off % 8 = 0 then 2
  else if off = 0xE80 ∨ off = 0xE88 ∨ off = 0xF04 then 2
  else if off = 0x1048 then 4
  else if off = 0x1220 then 8
  else if 0x2000 ≤ off ∧ off < 0x4000 ∧ off % 0x80 = 0x58 then 2
  else 0

/-- The latches that a read of the lowest word of a group sets. -/
def latchGroup (s : State) (f off : Nat) (l : List (Nat × W32)) : List (Nat × W32) :=
  (List.range (groupSize off - 1)).foldl
    (fun t k => Tab.set t (off + 4 * (k + 1)) (BitVec.ofNat 32 (regValue s f (off + 4 * (k + 1))))) l

/-- The latches of a reader: a function's, or the TAP's own (R1041). -/
def State.latchesOf (s : State) (tap : Bool) (f : Nat) : List (Nat × W32) := if tap then s.tapLatches else (s.fn f).latches

/-- Change them. -/
def setLatches (tap : Bool) (f : Nat) (l : List (Nat × W32)) (s : State) : State :=
  if tap then { s with tapLatches := l } else modFn f (fun x => { x with latches := l }) s

/-! ### Registers that a read clears (R41) -/

/-- The function may read the partition's words that R540, R691 and R946 close to others. -/
def State.opensPart (s : State) (f p : Nat) : Bool := isPf f || s.reads f p

/-- The effect of a completed read on an RC register that the function may read. -/
def readClear (f off : Nat) (s : State) : State :=
  if off = 0xC08 ∧ s.seesGlobal f then { s with hang := { s.hang with drops := 0 } }
  else if off = 0xC0C ∧ s.seesGlobal f then { s with hang := { s.hang with evict := 0 } }
  else if 0x2000 ≤ off ∧ off < 0x4000 ∧ s.opensPart f ((off - 0x2000) / 0x80) then
    let p := (off - 0x2000) / 0x80
    if off % 0x80 = 0x1C then modPart p (fun x => { x with overrun := 0 }) s
    else if off % 0x80 = 0x28 then modPart p (fun x => { x with suppressed := 0 }) s
    else if off % 0x80 = 0x48 then modPart p (fun x => { x with coder := { x.coder with codeBad := 0 } }) s
    else s
  else s

/-! ### The memory read window (R1037, R1038) -/

/-- What an access to one 64-bit word of a space meets. -/
structure MemRead where
  denied : Bool := false
  range : Bool := false
  ue : Bool := false
  ce : Bool := false
  value : Nat := 0

/-- 64-bit words of a space; none for a reserved SPACE or an absent core, or where the DRAM regions are absent. -/
def State.spaceWords (s : State) (space index : Nat) : Nat :=
  if space = 0 then 2 ^ 23
  else if space = 1 then 2 ^ 16
  else if space = 2 then (if index < 4 then 2 ^ 15 else 0)
  else if space = 3 then
    (if s.wale.dramReady then (s.warpField 8 1 + s.warpField 9 1 + s.warpField 10 1) * 2 ^ 27 else 0)
  else 0

/-- The memory of a space that the hub holds byte by byte. DESIGN CHOICE, log entry 41. -/
def State.spaceMem (s : State) (space index : Nat) : Mem :=
  if space = 0 then s.mem.creel
  else if space = 1 then Tab.getD s.mem.osier index []
  else if space = 2 then Tab.getD s.mem.stake index []
  else if space = 3 then s.mem.dram
  else []

/-- The hub has put contents of its own, whose place the spec does not state, into the space: its firmware into the Stake
memories, what a loaded weave needs into the Creel and the Osier memories, trace and dumps into DRAM. A warm reset in Test
keeps what stood in the Creel (R113). -/
def State.spaceOpen (s : State) (space : Nat) : Bool :=
  decide (2 ≤ space) || s.weave.loaded || (space == 0 && s.mem.creelUsed)

/-- Read a word. One that MEM_ACCESS has written, or that a stored export or the retained image lies in, reads as written
(R174, R1043); another one of a space in use is a free value. DESIGN CHOICE, log entry 41. -/
def memWord (space index w : Nat) (s : State) : MemRead × State :=
  if s.spaceWords space index ≤ w then ({ range := true }, s)
  else
    let at_ := (space, if space = 0 ∨ space = 3 then 0 else index, w)
    let free := !s.mem.known.contains at_ && s.spaceOpen space
    let v := if free then (Config.freeBits s.free).toNat else Mem.val (s.spaceMem space index) (8 * w) 8
    let s1 := if free then nextFree s else s
    if s.mem.ue.contains at_ then ({ ue := true, value := v }, s1)
    else if s.mem.ce.contains at_ then
      ({ ce := true, value := v }, { s1 with mem := { s1.mem with ce := s1.mem.ce.filter (· != at_) } })
    else ({ value := v }, s1)

/-- Count a bad word of the Creel or of DRAM and set its class bit; the window and MEM_ACCESS write no log entry (R995,
R1038, R1043). -/
def countBad (space : Nat) (r : MemRead) (s : State) : State :=
  if space = 0 ∨ space = 3 then
    let dram := space = 3
    if r.ce then correctedWord dram s
    else if r.ue then s |> bumpAlways (if dram then 56 else 54) 1 |> errBit (if dram then 6 else 2)
    else s
  else s

/-- The bits of HUB_MEM_STATUS. -/
def MemRead.word (r : MemRead) : Nat := fields [(b2n r.denied, 0), (b2n r.range, 1), (b2n r.ue, 2), (b2n r.ce, 3)]

/-- A read of HUB_MEM_DATA_LO through a PF: the word, none where the read ends with Completer Abort. R167 opens the window
in Test only. -/
def windowRead (tap : Bool) (f : Nat) (s : State) : Option Nat × State :=
  let n := fnPort f
  let h := s.host n
  let space := h.memSel.toNat % 8
  let (r, s1) := if s.inTest then memWord space (h.memSel.toNat / 16 % 16) (h.memAddr.toNat / 8) s
    else ({ denied := true }, s)
  let stop := r.denied || r.range
  let s2 := countBad space r s1 |> modHost n (fun x =>
    { x with memStatus := BitVec.ofNat 32 r.word, memAddr := if stop || r.ue then x.memAddr else x.memAddr + 8 })
  if stop then (some 0, setLatches tap f (Tab.set (s2.latchesOf tap f) 0x050 0) s2)
  else if r.ue then (none, s2)
  else (some (word32 r.value 0), setLatches tap f (Tab.set (s2.latchesOf tap f) 0x050 (BitVec.ofNat 32 (word32 r.value 1))) s2)

/-! ### A read of one word -/

/-- A visibility rule closes the word to the function now: the value that a read has held for it reads 0, too (R540, R775,
R780). -/
def State.closesTo (s : State) (f off : Nat) : Bool :=
  if 0xB10 ≤ off ∧ off < 0xB50 ∨ off = 0xF08 then !s.seesGlobal f
  else decide (0x2000 ≤ off) && decide (off < 0x4000) && off % 0x80 == 0x5C && !s.seesCounters f ((off - 0x2000) / 0x80)

/-- A read of a register: its value, none for a Completer Abort, with every side effect of the read. -/
def readReg (tap : Bool) (f off : Nat) (s : State) : Option Nat × State :=
  if off = 0x04C ∧ isPf f then windowRead tap f s
  else
    let l := s.latchesOf tap f
    match Tab.get? l off with
    | some v => (some (if s.closesTo f off then 0 else v.toNat), s)
    | none =>
      let v := regValue s f off
      let s1 := if groupSize off = 0 then s else setLatches tap f (latchGroup s f off l) s
      (some v, readClear f off s1)

/-- Registers that answer while a warm reset runs up to AWAIT_WEAVE (R1035). -/
def warmReadable (off : Nat) : Bool := [0x000, 0x010, 0x014, 0x100, 0x104].contains off

/-- Registers that answer in End of life (R1034). -/
def eolReadable (off : Nat) : Bool :=
  off == 0x000 || off == 0x004 || off == 0x014 || (decide (0x020 ≤ off) && decide (off < 0x030)) ||
    (decide (0x100 ≤ off) && decide (off < 0x1B0))

/-- The register answers with its value in the present phase; otherwise it reads 0. -/
def State.shows (s : State) (off : Nat) : Bool :=
  match s.boot.phase with
  | .fuse | .journal | .scrub => warmReadable off
  | .eol => eolReadable off
  | .clock | .blank => false
  | .awaitWeave | .linkTrain | .enumerate | .ready => true

/-- The function answers memory requests: it exists and its port's link is up. -/
def State.answers (s : State) (f : Nat) : Bool := s.fnExists f && s.boot.borderUp.getLsbD (fnPort f)

/-- The completion of a host's read: its payload counts as 4 bytes sent (R744). DESIGN CHOICE, log entry 83. -/
def readDone (f v : Nat) (s : State) : State :=
  s |> emit (.readData f (BitVec.ofNat 32 v)) |> bumpAlways (40 + fnPort f) 4

/-- A read of one word of BAR0 by a host: its data, or Completer Abort. -/
def barRead (f off : Nat) (s : State) : State :=
  if !s.answers f then s
  else if !s.shows off then readDone f 0 s
  else
    match readReg false f off s with
    | (some v, t) => readDone f v t
    | (none, t) => emit (.completerAbort f) t

/-- REGISTER_READ_CLEAR: a read of words, served in ascending order with no other access between (R1025); one that does not
complete, with no words, has no effect (R41). -/
def execRegisterReadClear (fn : Fn) (offset : W16) (words : Nat) (s : State) : Host.Outcome State Fault Refusal :=
  done (each (List.range words) (fun k => barRead fn (offset.toNat + 4 * k)) s)

/-- LATCHING_READ (R1030). -/
def execLatchingRead (fn : Fn) (offset : W16) (s : State) : Host.Outcome State Fault Refusal :=
  done (barRead fn offset.toNat s)

/-- MEM_WINDOW_READ: a read of HUB_MEM_DATA_LO (R1038). -/
def execMemWindowRead (port : HostPort) (s : State) : Host.Outcome State Fault Refusal :=
  done (barRead (64 + port.val) 0x04C s)

end Sys2Proof.Machine
end

