-- ==== Sys2Proof/Machine/RegWrites.lean ====
section
/-!
DEFINITION. Writes of registers: fields by their access codes, byte enables, and the registers whose write acts (spec/21 and
the chapters that define them); the error injection of spec/20.
-/

namespace Sys2Proof.Machine

open Sys2Proof

/-- The bits whose byte is enabled (R1026). -/
def enableMask (en : BitVec 4) : W32 :=
  let b (k : Nat) : W32 := if en.getLsbD k then (0xFF#32 <<< (8 * k)) else 0
  b 0 ||| b 1 ||| b 2 ||| b 3

/-- A write as a register takes it: the value, and the bits that are written. -/
structure Wr where
  value : W32
  mask : W32

/-- The new value of RW fields, the bits of `rw`: enabled bytes only; every other bit is kept. -/
def Wr.rw (w : Wr) (rw old : W32) : W32 :=
  let m := w.mask &&& rw
  (old &&& ~~~m) ||| (w.value &&& m)

/-- The bits written with 1: what a W1C, W1S or WO field acts on (R39 to R45, R1026). -/
def Wr.ones (w : Wr) : W32 := w.value &&& w.mask

/-- The bits that a write clears in a W1C register: not those that hardware sets in the same CTL cycle (R40). -/
def Wr.clears (w : Wr) (set : Fresh) (cycle : Nat) : W32 := w.ones &&& ~~~set.inCycle cycle

/-- One word of an RW pair of 64 bits. -/
def Wr.pair (w : Wr) (k : Nat) (rw : W32) (old : W64) : W64 :=
  if k = 0 then (old.extractLsb' 32 32) ++ w.rw rw (old.extractLsb' 0 32)
  else w.rw rw (old.extractLsb' 32 32) ++ old.extractLsb' 0 32

/-- One word of an address of 48 bits. -/
def Wr.mac (w : Wr) (k : Nat) (old : BitVec 48) : BitVec 48 :=
  (w.pair k (if k = 0 then 0xFFFFFFFF else 0xFFFF) (old.setWidth 64)).setWidth 48

/-- The writer has the rights of an arbiter port's port manager: it is one, or it is the TAP (R106, R437, R743, R1041). -/
def State.permits (s : State) (tap : Bool) (f : Nat) : Bool := isPf f && (tap || s.isArbiterPm f)

/-! ### HUB and WEA -/

/-- Registers 0x0000 to 0x005C of a PF. -/
def writeHub (tap : Bool) (f off : Nat) (w : Wr) (s : State) : State :=
  let n := fnPort f
  if off = 0x00C then
    if w.ones.toNat % 256 = 0xA5 ∧ (s.permits tap f || (tap && isPf f)) then warmReset (if tap then causeTap else causeHost) s
    else s
  else if off = 0x010 then
    { s with boot := { s.boot with resetCause := s.boot.resetCause &&& ~~~((w.clears s.boot.causeSet s.ctlCycle).setWidth 6) } }
  else if off = 0x040 then modHost n (fun x => { x with memSel := w.rw 0xF7 x.memSel }) s
  else if off = 0x044 then modHost n (fun x => { x with memAddr := w.pair 0 0xFFFFFFF8 x.memAddr }) s
  else if off = 0x048 then modHost n (fun x => { x with memAddr := w.pair 1 0xFFFFFFFF x.memAddr }) s
  else s

/-- Registers 0x0300 to 0x030C of a PF (R215, R217, R253); through the TAP whatever HOST_PORT_MASK enables (R1041). -/
def writeWea (tap : Bool) (f off : Nat) (w : Wr) (s : State) : State :=
  let n := fnPort f
  if off = 0x300 then modWea n (fun x => { x with addr := w.pair 0 0xFFFFFFFF x.addr }) s
  else if off = 0x304 then modWea n (fun x => { x with addr := w.pair 1 0xFFFFFFFF x.addr }) s
  else if off = 0x308 then modWea n (fun x => { x with len := w.rw 0xFFFFFFFF x.len }) s
  else if off = 0x30C then
    s |> (fun t => if w.ones.getLsbD 0 then loadStart tap n t else t) |> (fun t => if w.ones.getLsbD 1 then loadAbort n t else t)
  else s

/-! ### SES -/

/-- Registers 0x0400 to 0x0430: the ring set-up only while ENABLE reads 0, the two indexes only by a whole write (R262 to
R267, R1026). -/
def writeSes (f off : Nat) (w : Wr) (s : State) : State :=
  let whole := w.mask == 0xFFFFFFFF
  let setup (g : FnSt → FnSt) : State := if (s.fn f).enable then s else modFn f g s
  if off = 0x400 then setup (fun x => { x with cmdBase := w.pair 0 0xFFFFF000 x.cmdBase })
  else if off = 0x404 then setup (fun x => { x with cmdBase := w.pair 1 0xFFFFFFFF x.cmdBase })
  else if off = 0x408 then setup (fun x => { x with cplBase := w.pair 0 0xFFFFF000 x.cplBase })
  else if off = 0x40C then setup (fun x => { x with cplBase := w.pair 1 0xFFFFFFFF x.cplBase })
  else if off = 0x410 then setup (fun x => { x with ringSize := w.rw 0xF0F x.ringSize })
  else if off = 0x414 then
    (if !w.mask.getLsbD 0 then s else if w.value.getLsbD 0 then ringEnable f s else ringDisable f s)
  else if off = 0x41C then (if whole then doorbell f w.value s else s)
  else if off = 0x424 then (if whole then cplHeadWrite f w.value s else s)
  else if off = 0x42C then modFn f (fun x => { x with coal := w.rw 0x3FF00FF x.coal }) s
  else if off = 0x430 then 
    modFn f (fun x => { x with event := x.event &&& ~~~((w.clears x.eventSet s.ctlCycle).setWidth 4) }) s
  else s

/-! ### NSL -/

/-- A word of the NSLn block, and NSL7_SCAN_CTRL (R437). -/
def writeNsl (tap : Bool) (f off : Nat) (w : Wr) (s : State) : State :=
  let n := (off - 0x800) / 0x40
  let k := off % 0x40
  let ok := s.permits tap f
  if off = 0xA00 then (if ok then scanWrite (w.rw 0x1FFFF s.osier.scanCtrl) s else s)
  else if k = 0x00 then 
    modPort n (fun x => { x with newDie := x.newDie && !(w.clears x.newDieSet s.ctlCycle).getLsbD 8 }) s
  else if k = 0x04 then
    if ok then
      s |> (fun t => if w.ones.getLsbD 0 then startRetrain n t else t)
        |> (fun t => if w.ones.getLsbD 1 then forceDown n t else t)
    else s
  else if k = 0x08 then 
    modLnk n (fun x => { x with err := x.err &&& ~~~((w.clears x.errSet s.ctlCycle).setWidth 3) }) s
  else s

/-! ### Selectors, WAL_MAC, PLT and ERR -/

/-- ERR_INJECT: in Test, by the port manager of any enabled port or through the TAP (R1014). -/
def injectWrite (tap : Bool) (f : Nat) (w : Wr) (s : State) : State :=
  let old := BitVec.ofNat 32 (s.err.injMode.toNat + 4 * s.err.injBank.toNat)
  let v := w.rw 0xFF old
  if isPf f && s.inTest && (tap || s.enabledPort (fnPort f)) then
    { s with err := { s.err with injMode := v.setWidth 2, injBank := v.extractLsb' 2 6, armed := v.setWidth 2 != 0#2 } }
  else s

/-- Registers 0x0C00 to 0x12FF. -/
def writeSel (tap : Bool) (f off : Nat) (w : Wr) (s : State) : State :=
  let pf := isPf f
  let mac := s.permits tap f
  if off = 0xC00 then modFn f (fun x => { x with unitSel := w.rw 0x7FFF x.unitSel }) s
  else if off = 0xD00 then modFn f (fun x => { x with cutSel := w.rw 0xF3F x.cutSel }) s
  else if off = 0xE08 ∨ off = 0xE0C then
    (if mac then { s with wale := { s.wale with macDst := w.mac ((off - 0xE08) / 4) s.wale.macDst } } else s)
  else if off = 0xE10 ∨ off = 0xE14 then
    (if mac then { s with wale := { s.wale with macSrc := w.mac ((off - 0xE10) / 4) s.wale.macSrc } } else s)
  else if off = 0xF00 then modFn f (fun x => { x with aoSel := w.rw 0x3F x.aoSel }) s
  else if off = 0x1040 then modFn f (fun x => { x with osrLibSel := w.rw 0xFF x.osrLibSel }) s
  else if off = 0x1058 then modFn f (fun x => { x with osrRunSel := w.rw 0xFFFFFFFF x.osrRunSel }) s
  else if !pf then s
  else if off = 0x1104 then
    let c := w.clears s.plait.eventSet s.ctlCycle
    { s with plait := { s.plait with event := s.plait.event &&& ~~~(c.setWidth 8) } }
  else if off = 0x1200 then
    let c := w.clears s.err.statusSet s.ctlCycle
    { s with err := { s.err with status := s.err.status &&& ~~~(c.setWidth 14) } }
  else if off = 0x1208 then { s with err := { s.err with sel := (w.rw 0x3F (s.err.sel.setWidth 32)).setWidth 6 } }
  else if off = 0x120C then injectWrite tap f w s
  else s

/-! ### MSI-X and the partition block -/

/-- A vector with a pending message sends it once it may (R316, R324). -/
def sendPending (f v : Nat) (s : State) : State :=
  match (s.fn f).vectors[v]? with
  | some e =>
    if e.pend && (s.fn f).mayInterrupt e then
      s |> modFn f (fun y => { y with vectors := y.vectors.set v { e with pend := false } }) |> signal f v
    else s
  | none => s

/-- A write of the first word of the function's MSI-X capability: bit 31 is MSI-X Enable, bit 30 Function Mask (R324, R1019).
PRESUMED, log entry 72. -/
def writeMsixControl (f : Nat) (w : Wr) (s : State) : State :=
  let field (k : Nat) (old : Bool) : Bool := if w.mask.getLsbD k then w.value.getLsbD k else old
  s |> modFn f (fun x => { x with msixEnable := field 31 x.msixEnable, msixMask := field 30 x.msixMask })
    |> each (List.range (s.fn f).vectors.length) (sendPending f)

/-- A word of an MSI-X table entry; a vector unmasked with a pending message is signalled (R316). -/
def writeMsix (f off : Nat) (w : Wr) (s : State) : State :=
  let v := (off - 0x1800) / 16
  let k := off / 4 % 4
  match (s.fn f).vectors[v]? with
  | none => s
  | some e =>
    let put (x : Msix) : State → State := modFn f (fun y => { y with vectors := y.vectors.set v x })
    if 0x1C00 ≤ off then s
    else if k = 0 then put { e with addr := w.pair 0 0xFFFFFFFC e.addr } s
    else if k = 1 then put { e with addr := w.pair 1 0xFFFFFFFF e.addr } s
    else if k = 2 then put { e with data := w.rw 0xFFFFFFFF e.data } s
    else
      let e1 := { e with mask := if w.mask.getLsbD 0 then w.value.getLsbD 0 else e.mask }
      s |> put e1 |> sendPending f v

/-- REQUEST of RUN_Pn_RESET (R115, R119). -/
def requestReset (f p : Nat) (s : State) : State :=
  if s.owns f p then modPart p (fun x => { x with resetPending := true }) s else s

/-- A word of the block of Pn. -/
def writePart (f p off : Nat) (w : Wr) (s : State) : State :=
  if off = 0x04 then (if w.ones.getLsbD 0 then requestReset f p s else s)
  else if off = 0x54 then
    modFn f (fun x => { x with cntSel := Tab.set x.cntSel p (w.rw 0x3F (Tab.getD x.cntSel p 0)) }) s
  else s

/-! ### A write of one word -/

/-- A write of a register by a function, or by the TAP in its name. -/
def writeReg (tap : Bool) (f off : Nat) (value : W32) (en : BitVec 4) (s : State) : State :=
  let w : Wr := { value := value, mask := enableMask en }
  let pf (t : State) : State := if isPf f then t else s
  if off % 4 ≠ 0 then s
  else if off < 0x300 then pf (writeHub tap f off w s)
  else if off < 0x400 then pf (writeWea tap f off w s)
  else if off < 0x480 then writeSes f off w s
  else if off < 0x800 then s
  else if off ≤ 0xA00 then pf (writeNsl tap f off w s)
  else if off < 0x1800 then writeSel tap f off w s
  else if off < 0x2000 then writeMsix f off w s
  else if off < 0x4000 then writePart f ((off - 0x2000) / 0x80) (off % 0x80) w s
  else s

/-- The words of a request of several after the first, in ascending order (R1025). -/
def writeSpan (f off : Nat) (more : List (W32 × BitVec 4)) (s : State) : State :=
  each more.zipIdx (fun (w, k) => hostPut f (writeReg false f (off + 4 * (k + 1)) w.1 w.2)) s

/-- REGISTER_WRITE (R39 to R45, R1021, R1025 to R1027, R1034, R1035). -/
def execRegisterWrite (fn : Fn) (offset : RegAt) (value : W32) (enables : BitVec 4) (s : State) :
    Host.Outcome State Fault Refusal :=
  done (hostPut fn (fun t =>
    match offset with
    | .bar offset => writeReg false fn offset.toNat value enables t
    | .span offset more => t |> writeReg false fn offset.toNat value enables |> writeSpan fn offset.toNat more
    | .msixControl => writeMsixControl fn { value := value, mask := enableMask enables } t) s)

/-- ERR_INJECT (R1014). -/
def execErrInject (by_ : HostPort) (value : W32) (s : State) : Host.Outcome State Fault Refusal :=
  let f := 64 + by_.val
  done (hostPut f (injectWrite false f { value := value, mask := 0xFFFFFFFF }) s)

end Sys2Proof.Machine
end

