-- ==== Sys2Proof/Machine/Tap.lean ====
section
/-!
DEFINITION. The hub's own TAP: identity and boundary scan, lifecycle and fuse instructions, memory and register access, the
challenge-response unlock (spec/03, R1040 to R1043).
-/

namespace Sys2Proof.Machine

open Sys2Proof

/-! ### Selecting an instruction (R175, R176) -/

/-- A lifecycle state is in force: the JOURNAL phase has voted one (R143). DEDUCED, log entry 33. -/
def State.lcyDecided (s : State) : Bool :=
  match s.boot.phase with
  | .clock | .fuse | .journal => false
  | .scrub | .awaitWeave | .linkTrain | .enumerate | .ready | .blank | .eol => true

/-- The instruction is listed and available in the state in force; before one is in force only those that every state
has are. DEDUCED, log entry 33. -/
def State.tapHas (s : State) (code : Nat) : Bool :=
  let st := s.lcy.state
  let opened := st == .blank || st == .test || (st == .production && s.lcy.unlocked)
  if code = 0x00 ∨ code = 0x01 ∨ code = 0x02 ∨ code = 0x10 ∨ code = 0xFF then true
  else if !s.lcyDecided then false
  else if code = 0x11 ∨ code = 0x20 ∨ code = 0x21 ∨ code = 0x40 then opened
  else if code = 0x12 then st == .blank || st == .test
  else if code = 0x30 ∨ code = 0x31 then st == .production
  else false

/-- Load the instruction register: EXTEST no longer drives the pins. -/
def selectIr (code : Nat) (s : State) : State :=
  { s with tap := { s.tap with ir := BitVec.ofNat 8 code, extest := false } }

/-- Drive an output of the TAP: none while PORST_N is low (R1056). DEDUCED, log entry 90. -/
def tapOut (o : Out) (s : State) : State := { s with out := s.out ++ if s.pins.porst then [o] else [] }

/-- The 1-bit bypass register: it captures 0, and every bit that is shifted in leaves one bit later (IEEE 1149.1). -/
def shiftBypass (tdi : List Bool) (s : State) : State :=
  { s with tap := { s.tap with bypass := tdi.getLastD false } } |> tapOut (.tdo ((false :: tdi).take tdi.length))

/-- Run an instruction where it is available; elsewhere its code selects the bypass register. -/
def tapRun (code : Nat) (g : State → State) (s : State) : State :=
  if s.tapHas code then g s else s |> selectIr code |> shiftBypass []

/-- The captured data register shifts out, least significant bit first. -/
def shiftOut (n v : Nat) (s : State) : State := tapOut (.tdo (toBits n v)) s

/-! ### IDCODE, boundary scan and BYPASS -/

/-- The 32-bit identity of R177. -/
def State.idcode (s : State) : Nat := fields [(1, 0), (s.id.mfr.toNat, 1), (0x8064, 12), (s.id.stepping.toNat, 28)]

/-- IDCODE. -/
def execIdcode (s : State) : Host.Outcome State Fault Refusal :=
  done (s |> selectIr 0x01 |> shiftOut 32 s.idcode)

/-- EXTEST: the boundary cells drive the pins. -/
def execExtest (cells : List Bool) (s : State) : Host.Outcome State Fault Refusal :=
  let t := selectIr 0x00 s
  done ({ t with tap := { t.tap with boundary := cells, extest := true } } |> tapOut (.boundary cells))

/-- SAMPLE/PRELOAD: the levels of the pins shift out, and the cells are loaded. -/
def execSamplePreload (pins cells : List Bool) (s : State) : Host.Outcome State Fault Refusal :=
  let t := selectIr 0x02 s
  done ({ t with tap := { t.tap with boundary := cells } } |> tapOut (.tdo pins))

/-- BYPASS, an unlisted code, or an instruction that is unavailable. An available instruction has a row of its own. -/
def execBypass (code : Byte) (tdi : List Bool) (s : State) : Host.Outcome State Fault Refusal :=
  if code = 0xFF ∨ s.tapHas code.toNat = false then done (s |> selectIr code.toNat |> shiftBypass tdi) else done s

/-! ### Lifecycle and fuses (R165, R178, R179) -/

/-- The 64 bits of R178; bits 63:48 are reserved. -/
def State.lcyQuery (s : State) : Nat :=
  fields [(s.lcyStateWord, 0), (s.lcy.sensed.journal.toNat, 32), (s.lcyStatusWord % 256, 40)]

/-- What LCY_QUERY shifts out behind them: HUB_BOOT_STATUS, which every lifecycle state shows the TAP (R135), and the check
result and the result words of the latest LCY_ADVANCE (R179). DESIGN CHOICE, log entry 74. -/
def State.lcyReport (s : State) : Nat :=
  let (st, w0, w1) := s.tap.lcyResult
  fields [(s.bootWord, 0), (st.toNat, 32), (w0.toNat, 40), (w1.toNat, 72)]

/-- LCY_QUERY. -/
def execLcyQuery (s : State) : Host.Outcome State Fault Refusal :=
  done (s |> selectIr 0x10 |> shiftOut 64 s.lcyQuery |> shiftOut 104 s.lcyReport)

/-- Hold the result of an LCY_ADVANCE. -/
def lcyResult (st : Byte) (w0 w1 : Nat) (s : State) : State :=
  { s with tap := { s.tap with lcyResult := (st, BitVec.ofNat 32 w0, BitVec.ofNat 32 w1) } }

/-- LCY_ADVANCE with the checks of R150 that concern the target: one that they pass reports OK, and its result words once its
burn has ended (R152, R179). DESIGN CHOICE, log entry 74. -/
def tapAdvance (target confirm : Nat) (s : State) : State :=
  match targetOf target with
  | none => lcyResult stBadOpcode 0 0 s
  | some t =>
    if confirm != lcyConfirm then lcyResult stNotPermitted 0 0 s
    else
      match s.targetCheck t with
      | some st => lcyResult st 0 0 s
      | none =>
        if t == s.voted then lcyResult stOk (s.lcyWord t false true) 0 s
        else
          s |> lcyResult stOk 0 0 |> askBurn (Burn.ask (some t) none .tap)

/-- LCY_ADVANCE. -/
def execLcyAdvance (target : Byte) (confirm : W32) (s : State) : Host.Outcome State Fault Refusal :=
  done (tapRun 0x11 (fun t => t |> selectIr 0x11 |> tapAdvance target.toNat confirm.toNat) s)

/-- FUSE_KEY_PROG is refused (R165). -/
def State.keyRefused (s : State) (tapKey : Bool) (value : BitVec 384) : Bool := s.lcy.fuses.keyRefused tapKey value

/-- FUSE_KEY_PROG. -/
def execFuseKeyProg (tapKey : Bool) (value : BitVec 384) (s : State) : Host.Outcome State Fault Refusal :=
  done (tapRun 0x12 (fun t =>
    let t1 := selectIr 0x12 t
    if t.keyRefused tapKey value then t1
    else askBurn (Burn.ask none (some (tapKey, value)) .tap) t1) s)

/-! ### Accesses (R1040 to R1043) -/

/-- Update-DR of an access register: it starts an access, which has completed after `us` microseconds at most; one that comes
while another is in progress is ignored, and its register captures BUSY. Whether the access before it still is in progress by
then is a free value. DESIGN CHOICE, log entry 89. -/
def updateDr (us : Nat) (busy access : State → State) (s : State) : State :=
  let go (t : State) : State := access { t with tap := { t.tap with accessBy := s.t + us * Config.ticksPerUs } }
  if s.tap.accessBy ≤ s.t then go s
  else if Config.freeAccessBusy s.free then busy (nextFree s)
  else go (nextFree s)

/-! ### MEM_ACCESS (R167, R1042, R1043) -/

/-- R167 closes the access to the TAP. -/
def State.memClosed (s : State) (space : Nat) (write : Bool) : Bool :=
  if space = 3 then write || s.lcy.state == .blank else false

/-- Write a word with fresh ECC. An armed injection of a Creel error hits one in its bank; the banks of 1 MiB lie one behind
the other (R1014). DESIGN CHOICE, log entry 41. DEDUCED, log entry 22. -/
def memPut (space index w value : Nat) (s : State) : State :=
  let put (m : List Host.Cell) : List Host.Cell := Mem.writeN m (8 * w) (leBytes 8 value)
  let at_ := (space, if space = 0 then 0 else index, w)
  let m := { s.mem with ce := s.mem.ce.filter (· != at_), ue := s.mem.ue.filter (· != at_),
                        known := if s.mem.known.contains at_ then s.mem.known else s.mem.known ++ [at_] }
  let m1 := if space = 0 then { m with creel := put m.creel }
    else if space = 1 then { m with osier := Tab.set m.osier index (put (Tab.getD m.osier index [])) }
    else { m with stake := Tab.set m.stake index (put (Tab.getD m.stake index [])) }
  let armed := space == 0 && s.err.armed && w / 2 ^ 17 == s.err.injBank.toNat
  if armed && s.err.injMode == 1 then spendInjection { s with mem := { m1 with ce := m1.ce ++ [at_] } }
  else if armed && s.err.injMode == 2 then
    spendInjection { s with mem := { m1 with ue := m1.ue ++ [at_] } }
  else { s with mem := m1 }

/-- One access: the data register that the next Capture-DR loads. -/
def memAccess (dr : Nat) (s : State) : State :=
  let w := dr % 2 ^ 37
  let space := dr / 2 ^ 37 % 8
  let index := dr / 2 ^ 40 % 16
  let write := bit dr 44
  let load (r : MemRead) (t : State) : State :=
    let v := fields [(1, 0), (b2n r.denied, 2), (b2n r.range, 3), (b2n r.ue, 4), (b2n r.ce, 5), (r.value, 64)]
    { t with tap := { t.tap with memDr := BitVec.ofNat 128 v } }
  if s.memClosed space write then load { denied := true } s
  else if s.spaceWords space index ≤ w then load { range := true } s
  else if write then load {} (memPut space index w (dr / 2 ^ 64 % 2 ^ 64) s)
  else
    let (r, s1) := memWord space index w s
    load r (countBad space r s1)

/-- MEM_ACCESS captures BUSY. -/
def memBusy (s : State) : State := { s with tap := { s.tap with memDr := s.tap.memDr ||| 2 } }

/-- MEM_ACCESS: the register as captured shifts out, then the access takes place. -/
def execMemAccess (dr : BitVec 128) (s : State) : Host.Outcome State Fault Refusal :=
  done (tapRun 0x20 (fun t =>
    let held := if t.tap.ir == 0x20 then t.tap.memDr.toNat else t.tap.memDr.toNat / 2 * 2
    t |> selectIr 0x20 |> shiftOut 128 held
      |> updateDr (if dr.toNat / 2 ^ 37 % 8 = 3 then 4 else 2) memBusy (memAccess dr.toNat)) s)

/-! ### REG_ACCESS (R1040, R1041) -/

/-- A write of 0xA5 to HUB_CTRL.WARM_RESET ends its own access, which loads nothing (R1041). -/
def endsItself (f off value : Nat) : Bool := isPf f && off == 0x00C && value % 256 == 0xA5

/-- One access in the name of a function. DEDUCED, log entry 34. -/
def regAccess (dr : Nat) (s : State) : State :=
  let off := dr % 2 ^ 16
  let port := dr / 2 ^ 16 % 4
  let vf := dr / 2 ^ 18 % 16
  let isVf := bit dr 22
  let f := if isVf then 16 * port + vf else 64 + port
  let load (denied : Bool) (v : Nat) (t : State) : State :=
    { t with tap := { t.tap with regDr := BitVec.ofNat 128 (fields [(off, 0), (1, 16), (b2n denied, 18), (v, 32)]) } }
  if off % 4 ≠ 0 ∨ (isVf = true ∧ (s.host port).numVfs ≤ vf) then load true 0 s
  else if bit dr 23 then
    let t := writeReg true f off (BitVec.ofNat 32 (dr / 2 ^ 32)) 0xF s
    if endsItself f off (dr / 2 ^ 32) then t else load false 0 t
  else
    match readReg true f off s with
    | (some v, t) => load false v t
    | (none, t) => load false ((Config.freeBits t.free).toNat % 2 ^ 32) (nextFree t)

/-- REG_ACCESS captures BUSY. -/
def regBusy (s : State) : State := { s with tap := { s.tap with regDr := s.tap.regDr ||| 0x20000 } }

/-- REG_ACCESS. -/
def execRegAccess (dr : BitVec 64) (s : State) : Host.Outcome State Fault Refusal :=
  done (tapRun 0x21 (fun t =>
    let v := t.tap.regDr.toNat
    let held := if t.tap.ir == 0x21 then v else v - 2 ^ 16 * b2n (bit v 16)
    t |> selectIr 0x21 |> shiftOut 64 held |> updateDr 2 regBusy (regAccess dr.toNat)) s)

/-! ### WARM_RESET (R105) -/

/-- WARM_RESET. -/
def execWarmReset (s : State) : Host.Outcome State Fault Refusal :=
  done (tapRun 0x40 (fun t => t |> selectIr 0x40 |> warmReset causeTap) s)

/-! ### Challenge and response (R180 to R185) -/

/-- The age of a nonce is at least a number of seconds. -/
def State.agedS (s : State) (since sec : Nat) : Bool := s.after since (sec * 1000000)

/-- The 64 bytes of a challenge. -/
def State.challenge (s : State) (nonce : BitVec 384) : List Byte := leBytes 48 nonce.toNat ++ leBytes 16 s.id.uid.toNat

/-- The conditions of R182. -/
def State.unlockGranted (s : State) (key sig : List Byte) (nonce : Option (BitVec 384)) : Bool :=
  match nonce with
  | none => false
  | some v =>
    s.lcy.fuses.tapLocked && sha384 key == leBytes 48 s.lcy.fuses.tapKey.toNat &&
      ecdsaVerify key sig (sha384 (s.challenge v))

/-- The verdict on the outstanding response (R182, R184): it is judged by the nonce that was valid as it was shifted in,
whatever has come since. DESIGN CHOICE, log entry 82. -/
def unlockVerdict (s : State) : State :=
  match s.tap.response with
  | none => s
  | some (key, sig, nonce) =>
    let s1 := { s with tap := { s.tap with response := none } }
    if s.unlockGranted key sig nonce then { s1 with lcy := { s1.lcy with unlocked := true } }
    else
      let n := sat 3 (s.lcy.fails.toNat + 1)
      { s1 with lcy := { s1.lcy with fails := BitVec.ofNat 2 n, lockout := s.lcy.lockout || n == 3 } }

/-- UNLOCK_CHALLENGE: a fresh nonce and the device identity shift out; the nonce before it is no longer valid. -/
def execUnlockChallenge (s : State) : Host.Outcome State Fault Refusal :=
  done (tapRun 0x30 (fun t =>
    let n := Config.freeNonce t.free
    let t1 := selectIr 0x30 t
    { t1 with tap := { t1.tap with nonce := some (n, t.t) } } |> nextFree
      |> shiftOut 512 (leVal (t.challenge n))) s)

/-- The nonce that a response shifted in now answers: valid below 60 s, a free value up to 61 s (R183). -/
def State.liveNonce (s : State) : Option (BitVec 384) :=
  match s.tap.nonce with
  | none => none
  | some (n, t) =>
    if !s.agedS t 60 then some n
    else if s.agedS t 61 then none
    else if Config.freeLateNonce s.free then some n else none

/-- UNLOCK_RESPONSE: a nonce serves one response. The verdict on an earlier response comes first; after the third
rejection every response is refused. DEDUCED, log entry 33. -/
def execUnlockResponse (dr : List Byte) (s : State) : Host.Outcome State Fault Refusal :=
  done (tapRun 0x31 (fun t =>
    let t1 := t |> selectIr 0x31 |> unlockVerdict
    if t1.lcy.lockout then t1
    else { t1 with tap := { t1.tap with response := some (slice dr 0 97, slice dr 97 96, t1.liveNonce), nonce := none } }
      |> nextFree) s)

/-- UNLOCK_VERDICT. -/
def execUnlockVerdict (s : State) : Host.Outcome State Fault Refusal := done (unlockVerdict s)

/-- NONCE_EXPIRY: not before 60 s. -/
def execNonceExpiry (s : State) : Host.Outcome State Fault Refusal :=
  done (match s.tap.nonce with
    | some (_, t) => if s.agedS t 60 then { s with tap := { s.tap with nonce := none } } else s
    | none => s)

end Sys2Proof.Machine
end

