-- ==== Sys2Proof/Machine/Faults.lean ====
section
/-!
DEFINITION. Faults that are events of their own: the patrol scrubber, the thermal sensor, and an uncorrectable word in a Stake
memory (spec/20).
-/

namespace Sys2Proof.Machine

open Sys2Proof

/-- An item holds an uncorrectable word, which the item's consumer finds (R996, R999). A word of no item stands in the memory
itself. DESIGN CHOICE, log entry 13. -/
def spoilItem (word : Nat) (place : CreelPlace) (s : State) : State :=
  match place with
  | .nothing =>
    { s with mem := { s.mem with ue := if s.mem.ue.contains (0, 0, word) then s.mem.ue else s.mem.ue ++ [(0, 0, word)] } }
  | .record u => modUnit u.toNat (fun x => { x with record := x.record.map fun r => { r with poisoned := true } }) s
  | .staged p id state b => modCut p.val id (fun c => c.spoil state b) s
  | .tier p i => modPart p.val (fun x => { x with tier := modAt x.tier i fun r => { r with bad := true } }) s
  | .queue p => spoilQueue p.val s
  | .graph p => modPart p.val (fun x => { x with graphBad := true }) s
  | .report p id => modPart p.val (fun x => { x with reports := x.reports.map fun r => { r with bad := r.bad || r.id == id } }) s
  | .run id a =>
    if creelBase ≤ a ∧ a < hostBase then modRun id (fun q => { q with bad := q.bad ++ [a / 8 * 8] }) s else s
  | .library i o =>
    { s with osier := { s.osier with lib := s.osier.lib.map fun e =>
        if e.index = i.toNat then { e with bad := e.bad ++ [o / 8 * 8] } else e } }
  | .coder p => spoilCoder true p.val s

/-- PATROL_SCRUB: the scrubber reads a Creel word; one with an injected error is found so. A correctable word is corrected
and counted; an uncorrectable one is logged with ACTION 0 and stays as it is, for its consumer to find (R995, R996). DESIGN
CHOICE, log entry 13. -/
def execPatrolScrub (word : Nat) (found : ScrubFind) (s : State) : Host.Outcome State Fault Refusal :=
  let at_ := (0, 0, word)
  let find : ScrubFind := match found with
    | .bad place => .bad place
    | f => if s.mem.ue.contains at_ then .bad .nothing else if s.mem.ce.contains at_ then .corrected else f
  done (match find with
    | .bad place => s |> spoilItem word place |> uncorrectableWord false 6 0xFFFF (8 * word) 0 0
    | .corrected => correctedWord false { s with mem := { s.mem with ce := s.mem.ce.filter (· != at_) } }
    | .good => s)

/-- THERMAL_TRIP: the reading rises through the trip point; one entry, and nothing else, until the sensor is armed again
(R993, R1084). DESIGN CHOICE, log entry 69. -/
def execThermalTrip (s : State) : Host.Outcome State Fault Refusal :=
  done (if s.err.thermalArmed then
      raiseErr 0x0E 6 0xFFFF 0 0 0 { s with err := { s.err with thermalArmed := false } }
    else s)

/-- THERMAL_REARM: the reading has fallen 5 °C below the trip point (R1084). -/
def execThermalRearm (s : State) : Host.Outcome State Fault Refusal :=
  done { s with err := { s.err with thermalArmed := true } }

/-- FIRMWARE_STOP: an uncorrectable word in a Stake memory (R1002). -/
def execFirmwareStop (s : State) : Host.Outcome State Fault Refusal := done (stopFirmware s)

end Sys2Proof.Machine
end

