-- ==== Sys2Proof/Machine/Lattice.lean ====
section
/-!
DEFINITION. The pins and timers of the Hoop lattice: HOOP_IN and XTRIG inputs, stage timeouts, the partition watchdog,
and the ends of output pulses (spec/09).
-/

namespace Sys2Proof.Machine

open Sys2Proof

/-- Whether an input assertion held for `ns` fires its source (R531): from 4 ns it does, below 1 ns it does not, between
them it is a free value. DESIGN CHOICE, log entry 9. -/
def firesInput (s : State) (ns : Nat) : Bool :=
  if 4 ≤ ns then true else if ns < 1 then false else Config.freeShortPulse s.free

/-- The level of an input has to be looked at: an assertion of 1 ns to 4 ns takes a free value. DESIGN CHOICE, log entry 9. -/
def takeInput (ns : Nat) (s : State) : State := if 1 ≤ ns ∧ ns < 4 then nextFree s else s

/-- Ticks of a time in nanoseconds, rounded up (R32). -/
def nsTicks (ns : Nat) : Nat := ceilDiv (ns * 8) 5

/-- HOOP_IN_ASSERT: an assertion of HOOP_IN_n fires that source for every partition; while the line is still held no new
assertion exists (R502, R504, R531). -/
def execHoopInAssert (port : Port) (heldNs : Nat) (s : State) : Host.Outcome State Fault Refusal :=
  let n := port.val
  let already := decide (s.t < (s.port n).hoopInUntil)
  let s1 := s |> modPort n (fun x => { x with hoopInUntil := max x.hoopInUntil (s.t + nsTicks heldNs) }) |> takeInput heldNs
  done (if !already && firesInput s heldNs then fireAll n s1 else s1)

/-- XTRIG_EDGE: an edge of an XTRIG input fires its source for every partition for which the edge is the active one; an
output pin fires nothing (R502, R507, R531). DESIGN CHOICE, log entry 40. -/
def execXtrigEdge (pin : Fin 8) (rising : Bool) (heldNs : Nat) (s : State) : Host.Outcome State Fault Refusal :=
  let j := pin.val
  let lvl := if rising then s.pins.xtrig ||| (1#8 <<< j) else s.pins.xtrig &&& ~~~(1#8 <<< j)
  let s1 := { s with pins := { s.pins with xtrig := lvl } } |> takeInput heldNs
  let hit := (List.range 64).filter fun p => rising != bit (xtrigPol (s.atEdge p).active.weft) j
  done (if !bit s.xtrigDir j && firesInput s heldNs then each hit (fun p => fire p (8 + j)) s1 else s1)

/-- STAGE_TIMEOUT: a stage 1 to 3 that has not acted within TIMEOUT_US returns the sequence to stage 0 (R513), but not at
the edge of an occurrence (R537). -/
def execStageTimeout (part : Part) (s : State) : Host.Outcome State Fault Refusal :=
  let p := part.val
  let x := s.part p
  let g := stageTerm x.active.weft x.stage
  if x.stage != 0 && !x.held && g.timeoutUs != 0 && s.after x.stageAt g.timeoutUs &&
      !(x.occStage != 0 && x.occAt == s.t) then
    done (s |> modPart p (fun y => { y with stage := 0, stageAt := s.t, occStage := 0, firesStage := [] })
            |> triggerRec p 0 0 (0x10 + x.stage) 4 false 0 0 0 0 x.holdCount.toNat)
  else done s

/-- PARTITION_WATCHDOG_EXPIRY: the watchdog of an armed partition that is not held, or that enters its hold at this edge,
expires, fires source 25 and restarts (R505, R537, R665, R752). -/
def execPartitionWatchdogExpiry (part : Part) (s : State) : Host.Outcome State Fault Refusal :=
  let p := part.val
  let x := s.atEdge p
  let us := watchdogUs x.active.weft
  if s.boot.phase == .ready && us != 0 && (!x.held || (s.actedNow p).isSome) && s.after x.watchdogAt us then
    done (s |> modPart p (fun y => { y with watchdogAt := s.t }) |> hubEvent p 0x0C 1 |> firedReport p 2 0xFF 0
            |> fire p 25)
  else done s

/-- HOOP_OUT_PULSE_END: the assertion ends once it has lasted 64 ns, and the release gap begins (R529). DEDUCED, log entry
14. -/
def execHoopOutPulseEnd (port : Port) (s : State) : Host.Outcome State Fault Refusal :=
  match (s.port port.val).hoopOut with
  | .on since =>
    if since + nsTicks 64 ≤ s.t then
      done (s |> modPort port.val (fun x => { x with hoopOut := .gap s.t false }) |> emit (.hoop port.val false))
    else done s
  | _ => done s

/-- HOOP_RELEASE_GAP_END: after 32 ns released, a delayed assertion begins (R529). -/
def execHoopReleaseGapEnd (port : Port) (s : State) : Host.Outcome State Fault Refusal :=
  match (s.port port.val).hoopOut with
  | .gap since again =>
    if since + nsTicks 32 ≤ s.t then
      let s1 := modPort port.val (fun x => { x with hoopOut := .idle }) s
      done (if again then assertHoop port.val s1 else s1)
    else done s
  | _ => done s

/-- XTRIG_PULSE_END: a pulse of at least 20 ns ends; a pulse delayed by the 20 ns gap begins once the gap has passed
(R530). -/
def execXtrigPulseEnd (pin : Fin 8) (s : State) : Host.Outcome State Fault Refusal :=
  let j := pin.val
  match s.xtrig j with
  | .on since => if since + 32 ≤ s.t then done (s |> setXtrig j (.gap s.t false) |> driveXtrig j false) else done s
  | .gap since again =>
    if since + 32 ≤ s.t then
      done (if again then startXtrig j s else setXtrig j .idle s)
    else done s
  | .idle => done s

end Sys2Proof.Machine
end

