-- ==== Sys2Proof/Machine/Dispatch.lean ====
section
/-!
DEFINITION. Dispatch: one arm per command, each arm one direct call of that command's meaning.
-/

namespace Sys2Proof.Machine

open Sys2Proof

/-- The effect of a command on everything but the queue. -/
def exec (i : Instr) (s : State) : Host.Outcome State Fault Refusal :=
  match i with
  | .powerOnReset lowNs => Sys2Proof.Machine.execPowerOnReset lowNs s
  | .porstNRise pairRank bootSrc mask => Sys2Proof.Machine.execPorstNRise pairRank bootSrc mask s
  | .supplyDrop dip => Sys2Proof.Machine.execSupplyDrop dip s
  | .clockFault fault => Sys2Proof.Machine.execClockFault fault s
  | .stakeWatchdogExpiry => Sys2Proof.Machine.execStakeWatchdogExpiry s
  | .hostPortReset port cause => Sys2Proof.Machine.execHostPortReset port cause s
  | .sessionReset ses => Sys2Proof.Machine.execSessionReset ses s
  | .pfFunctionReset port => Sys2Proof.Machine.execPfFunctionReset port s
  | .sessionResetDrainEnd ses => Sys2Proof.Machine.execSessionResetDrainEnd ses s
  | .d3hotEntry fn => Sys2Proof.Machine.execD3hotEntry fn s
  | .d0Return fn => Sys2Proof.Machine.execD0Return fn s
  | .rootPllLock => Sys2Proof.Machine.execRootPllLock s
  | .fusePhaseEnd => Sys2Proof.Machine.execFusePhaseEnd s
  | .journalPhaseEnd stuck => Sys2Proof.Machine.execJournalPhaseEnd stuck s
  | .scrubPhaseEnd => Sys2Proof.Machine.execScrubPhaseEnd s
  | .bootFail => Sys2Proof.Machine.execBootFail s
  | .weaLoadStart port => Sys2Proof.Machine.execWeaLoadStart port s
  | .weaLoadAbort port => Sys2Proof.Machine.execWeaLoadAbort port s
  | .imageCheckDone => Sys2Proof.Machine.execImageCheckDone s
  | .dramTrainingDone ok => Sys2Proof.Machine.execDramTrainingDone ok s
  | .enumerationDone port => Sys2Proof.Machine.execEnumerationDone port s
  | .readyEntry => Sys2Proof.Machine.execReadyEntry s
  | .serdesPllLoss pll => Sys2Proof.Machine.execSerdesPllLoss pll s
  | .serdesPllRelock pll => Sys2Proof.Machine.execSerdesPllRelock pll s
  | .doorbell fn value => Sys2Proof.Machine.execDoorbell fn value s
  | .cplHeadWrite fn value => Sys2Proof.Machine.execCplHeadWrite fn value s
  | .ringEnable fn => Sys2Proof.Machine.execRingEnable fn s
  | .ringDisable fn => Sys2Proof.Machine.execRingDisable fn s
  | .descriptorFetch fn desc error => Sys2Proof.Machine.execDescriptorFetch fn desc error s
  | .coalesceTimeout fn => Sys2Proof.Machine.execCoalesceTimeout fn s
  | .hostDmaError fn tag => Sys2Proof.Machine.execHostDmaError fn tag s
  | .nop fn tag => Sys2Proof.Machine.execNop fn tag s
  | .claim fn tag => Sys2Proof.Machine.execClaim fn tag s
  | .release fn tag => Sys2Proof.Machine.execRelease fn tag s
  | .releaseTakesEffect fn tag => Sys2Proof.Machine.execReleaseTakesEffect fn tag s
  | .observe fn tag => Sys2Proof.Machine.execObserve fn tag s
  | .grant fn tag => Sys2Proof.Machine.execGrant fn tag s
  | .halt fn tag => Sys2Proof.Machine.execHalt fn tag s
  | .resume fn tag => Sys2Proof.Machine.execResume fn tag s
  | .step fn tag => Sys2Proof.Machine.execStep fn tag s
  | .setBreak fn tag => Sys2Proof.Machine.execSetBreak fn tag s
  | .clearBreak fn tag => Sys2Proof.Machine.execClearBreak fn tag s
  | .setWatch fn tag data => Sys2Proof.Machine.execSetWatch fn tag data s
  | .clearWatch fn tag => Sys2Proof.Machine.execClearWatch fn tag s
  | .readUnitRegs fn tag => Sys2Proof.Machine.execReadUnitRegs fn tag s
  | .writeUnitRegs fn tag data => Sys2Proof.Machine.execWriteUnitRegs fn tag data s
  | .readUnitMem fn tag => Sys2Proof.Machine.execReadUnitMem fn tag s
  | .writeUnitMem fn tag data => Sys2Proof.Machine.execWriteUnitMem fn tag data s
  | .cut fn tag => Sys2Proof.Machine.execCut fn tag s
  | .dumpCut fn tag => Sys2Proof.Machine.execDumpCut fn tag s
  | .dumpRegion fn tag => Sys2Proof.Machine.execDumpRegion fn tag s
  | .releaseCut fn tag => Sys2Proof.Machine.execReleaseCut fn tag s
  | .cutFreed part cut => Sys2Proof.Machine.execCutFreed part cut s
  | .traceConfig fn tag => Sys2Proof.Machine.execTraceConfig fn tag s
  | .traceFlush fn tag poison => Sys2Proof.Machine.execTraceFlush fn tag poison s
  | .traceFlushDrained fn tag => Sys2Proof.Machine.execTraceFlushDrained fn tag s
  | .counterConfig fn tag data => Sys2Proof.Machine.execCounterConfig fn tag data s
  | .counterLatch fn tag => Sys2Proof.Machine.execCounterLatch fn tag s
  | .loadModel fn tag data => Sys2Proof.Machine.execLoadModel fn tag data s
  | .runProgram fn tag => Sys2Proof.Machine.execRunProgram fn tag s
  | .stopProgram fn tag => Sys2Proof.Machine.execStopProgram fn tag s
  | .reweave fn tag data => Sys2Proof.Machine.execReweave fn tag data s
  | .reweaveCommit fn tag => Sys2Proof.Machine.execReweaveCommit fn tag s
  | .weftSwitch part => Sys2Proof.Machine.execWeftSwitch part s
  | .commitSettleTimeout fn tag => Sys2Proof.Machine.execCommitSettleTimeout fn tag s
  | .watchApplyEnd part => Sys2Proof.Machine.execWatchApplyEnd part s
  | .warpSettle => Sys2Proof.Machine.execWarpSettle s
  | .warpCommitDone => Sys2Proof.Machine.execWarpCommitDone s
  | .hangReport fn tag poison => Sys2Proof.Machine.execHangReport fn tag poison s
  | .meterRead fn tag => Sys2Proof.Machine.execMeterRead fn tag s
  | .epochClose fn tag => Sys2Proof.Machine.execEpochClose fn tag s
  | .setWallclock fn tag => Sys2Proof.Machine.execSetWallclock fn tag s
  | .epochAutoClose => Sys2Proof.Machine.execEpochAutoClose s
  | .twinPair fn tag => Sys2Proof.Machine.execTwinPair fn tag s
  | .takeoverTimeout fn tag => Sys2Proof.Machine.execTakeoverTimeout fn tag s
  | .twinRelease fn tag => Sys2Proof.Machine.execTwinRelease fn tag s
  | .lifecycleAdvance fn tag => Sys2Proof.Machine.execLifecycleAdvance fn tag s
  | .fuseBitAttemptEnd took => Sys2Proof.Machine.execFuseBitAttemptEnd took s
  | .hubCtrlWarmReset port value => Sys2Proof.Machine.execHubCtrlWarmReset port value s
  | .partitionReset fn part => Sys2Proof.Machine.execPartitionReset fn part s
  | .partitionResetComplete part => Sys2Proof.Machine.execPartitionResetComplete part s
  | .retrain by_ port => Sys2Proof.Machine.execRetrain by_ port s
  | .forceDown by_ port => Sys2Proof.Machine.execForceDown by_ port s
  | .scanCtrlWrite by_ value => Sys2Proof.Machine.execScanCtrlWrite by_ value s
  | .errInject by_ value => Sys2Proof.Machine.execErrInject by_ value s
  | .registerWrite fn offset value enables => Sys2Proof.Machine.execRegisterWrite fn offset value enables s
  | .registerReadClear fn offset completes => Sys2Proof.Machine.execRegisterReadClear fn offset completes s
  | .latchingRead fn offset => Sys2Proof.Machine.execLatchingRead fn offset s
  | .memWindowRead port => Sys2Proof.Machine.execMemWindowRead port s
  | .idcode => Sys2Proof.Machine.execIdcode s
  | .extest cells => Sys2Proof.Machine.execExtest cells s
  | .samplePreload pins cells => Sys2Proof.Machine.execSamplePreload pins cells s
  | .bypass code tdi => Sys2Proof.Machine.execBypass code tdi s
  | .lcyQuery => Sys2Proof.Machine.execLcyQuery s
  | .lcyAdvance target confirm => Sys2Proof.Machine.execLcyAdvance target confirm s
  | .fuseKeyProg tapKey value => Sys2Proof.Machine.execFuseKeyProg tapKey value s
  | .memAccess dr => Sys2Proof.Machine.execMemAccess dr s
  | .regAccess dr => Sys2Proof.Machine.execRegAccess dr s
  | .warmReset => Sys2Proof.Machine.execWarmReset s
  | .unlockChallenge => Sys2Proof.Machine.execUnlockChallenge s
  | .unlockResponse dr => Sys2Proof.Machine.execUnlockResponse dr s
  | .unlockVerdict => Sys2Proof.Machine.execUnlockVerdict s
  | .nonceExpiry => Sys2Proof.Machine.execNonceExpiry s
  | .blockLock link lanes => Sys2Proof.Machine.execBlockLock link lanes s
  | .tsBlockReceive link lane ts2 role laneNo mode version => Sys2Proof.Machine.execTsBlockReceive link lane ts2 role laneNo mode version s
  | .lockLoss link lane => Sys2Proof.Machine.execLockLoss link lane s
  | .trainTimeout link => Sys2Proof.Machine.execTrainTimeout link s
  | .downPeriodEnd link => Sys2Proof.Machine.execDownPeriodEnd link s
  | .flitReceive link flit => Sys2Proof.Machine.execFlitReceive link flit s
  | .nak link hdr seq => Sys2Proof.Machine.execNak link hdr seq s
  | .replayStart link hdr first => Sys2Proof.Machine.execReplayStart link hdr first s
  | .ackTimeoutReplay link => Sys2Proof.Machine.execAckTimeoutReplay link s
  | .linkControlIdle link hdr => Sys2Proof.Machine.execLinkControlIdle link hdr s
  | .config link hdr peerSeen body => Sys2Proof.Machine.execConfig link hdr peerSeen body s
  | .timesyncTimer link => Sys2Proof.Machine.execTimesyncTimer link s
  | .timesyncRsp link hdr exch t1 t2 t3 => Sys2Proof.Machine.execTimesyncRsp link hdr exch t1 t2 t3 s
  | .timesyncExchangeTimeout link => Sys2Proof.Machine.execTimesyncExchangeTimeout link s
  | .linkResumeFlit link hdr next => Sys2Proof.Machine.execLinkResumeFlit link hdr next s
  | .detachReq port hdr => Sys2Proof.Machine.execDetachReq port hdr s
  | .detachAckSend port => Sys2Proof.Machine.execDetachAckSend port s
  | .haltRecord port m => Sys2Proof.Machine.execHaltRecord port m s
  | .eventBatch port m => Sys2Proof.Machine.execEventBatch port m s
  | .counterDelta port m => Sys2Proof.Machine.execCounterDelta port m s
  | .dieLoss port m => Sys2Proof.Machine.execDieLoss port m s
  | .dieResponse port m => Sys2Proof.Machine.execDieResponse port m s
  | .responseTimeout port ch => Sys2Proof.Machine.execResponseTimeout port ch s
  | .hoopInAssert port heldNs => Sys2Proof.Machine.execHoopInAssert port heldNs s
  | .xtrigEdge pin rising heldNs => Sys2Proof.Machine.execXtrigEdge pin rising heldNs s
  | .stageTimeout part => Sys2Proof.Machine.execStageTimeout part s
  | .partitionWatchdogExpiry part => Sys2Proof.Machine.execPartitionWatchdogExpiry part s
  | .hoopOutPulseEnd port => Sys2Proof.Machine.execHoopOutPulseEnd port s
  | .hoopReleaseGapEnd port => Sys2Proof.Machine.execHoopReleaseGapEnd port s
  | .xtrigPulseEnd pin => Sys2Proof.Machine.execXtrigPulseEnd pin s
  | .haltTimeoutExpiry unit => Sys2Proof.Machine.execHaltTimeoutExpiry unit s
  | .stepTimeoutExpiry unit => Sys2Proof.Machine.execStepTimeoutExpiry unit s
  | .proofDone proof => Sys2Proof.Machine.execProofDone proof s
  | .splintEmit poison => Sys2Proof.Machine.execSplintEmit poison s
  | .exportPortTimeout fn tag => Sys2Proof.Machine.execExportPortTimeout fn tag s
  | .hangEventProcess => Sys2Proof.Machine.execHangEventProcess s
  | .hangScan part => Sys2Proof.Machine.execHangScan part s
  | .hangScanEnd part poison => Sys2Proof.Machine.execHangScanEnd part poison s
  | .traceFrameTimeout part => Sys2Proof.Machine.execTraceFrameTimeout part s
  | .keepaliveTimer => Sys2Proof.Machine.execKeepaliveTimer s
  | .traceFrameSend poison => Sys2Proof.Machine.execTraceFrameSend poison s
  | .gapEnd part dram => Sys2Proof.Machine.execGapEnd part dram s
  | .spillReturn part => Sys2Proof.Machine.execSpillReturn part s
  | .timesyncRecordTimer link => Sys2Proof.Machine.execTimesyncRecordTimer link s
  | .waleLinkUp => Sys2Proof.Machine.execWaleLinkUp s
  | .waleLinkDown => Sys2Proof.Machine.execWaleLinkDown s
  | .deferredLatchPoint part => Sys2Proof.Machine.execDeferredLatchPoint part s
  | .counterConfigWaitExpiry part => Sys2Proof.Machine.execCounterConfigWaitExpiry part s
  | .osierWord core cycles poison tdo => Sys2Proof.Machine.execOsierWord core cycles poison tdo s
  | .sliceLimit core => Sys2Proof.Machine.execSliceLimit core s
  | .sleepWake run => Sys2Proof.Machine.execSleepWake run s
  | .hostWriteError run => Sys2Proof.Machine.execHostWriteError run s
  | .coderAnswerRead part poison => Sys2Proof.Machine.execCoderAnswerRead part poison s
  | .codingStall part => Sys2Proof.Machine.execCodingStall part s
  | .plaitLinkDown => Sys2Proof.Machine.execPlaitLinkDown s
  | .haltFwd part action abrupt decideTs => Sys2Proof.Machine.execHaltFwd part action abrupt decideTs s
  | .hoopEn part ports value => Sys2Proof.Machine.execHoopEn part ports value s
  | .hoopEnAck part ports value => Sys2Proof.Machine.execHoopEnAck part ports value s
  | .stakeNote part ports event gen => Sys2Proof.Machine.execStakeNote part ports event gen s
  | .hello h => Sys2Proof.Machine.execHello h s
  | .stakeView view => Sys2Proof.Machine.execStakeView view s
  | .fastView view => Sys2Proof.Machine.execFastView view s
  | .handoff mask => Sys2Proof.Machine.execHandoff mask s
  | .handoffDone claimed refused => Sys2Proof.Machine.execHandoffDone claimed refused s
  | .unpair => Sys2Proof.Machine.execUnpair s
  | .imageReqTimer => Sys2Proof.Machine.execImageReqTimer s
  | .imageReq poison => Sys2Proof.Machine.execImageReq poison s
  | .imageData offset total bytes => Sys2Proof.Machine.execImageData offset total bytes s
  | .imageNone => Sys2Proof.Machine.execImageNone s
  | .plaitTimesyncReq hdr exch t1 => Sys2Proof.Machine.execPlaitTimesyncReq hdr exch t1 s
  | .heartbeatPulse => Sys2Proof.Machine.execHeartbeatPulse s
  | .heartbeatAssert => Sys2Proof.Machine.execHeartbeatAssert s
  | .heartbeatLost => Sys2Proof.Machine.execHeartbeatLost s
  | .twinAbsentTimeout => Sys2Proof.Machine.execTwinAbsentTimeout s
  | .stakeRenewTimer => Sys2Proof.Machine.execStakeRenewTimer s
  | .stakeClaimRetry port part => Sys2Proof.Machine.execStakeClaimRetry port part s
  | .patrolScrub word found => Sys2Proof.Machine.execPatrolScrub word found s
  | .thermalTrip => Sys2Proof.Machine.execThermalTrip s
  | .firmwareStop => Sys2Proof.Machine.execFirmwareStop s
  | .perstNRelease port => Sys2Proof.Machine.execPerstNRelease port s
  | .borderLinkUp port => Sys2Proof.Machine.execBorderLinkUp port s
  | .vfEnable port numVfs => Sys2Proof.Machine.execVfEnable port numVfs s
  | .imageFetchEnd port bytes error => Sys2Proof.Machine.execImageFetchEnd port bytes error s
  | .reweaveCheckEnd fn tag => Sys2Proof.Machine.execReweaveCheckEnd fn tag s
  | .alignBlockReceive link lane => Sys2Proof.Machine.execAlignBlockReceive link lane s
  | .supplyMonitorRelease => Sys2Proof.Machine.execSupplyMonitorRelease s
  | .thermalRearm => Sys2Proof.Machine.execThermalRearm s
  | .heartbeatPulseEnd => Sys2Proof.Machine.execHeartbeatPulseEnd s
  | .adaptorOperationTimeout => Sys2Proof.Machine.execAdaptorOperationTimeout s

end Sys2Proof.Machine
end

