-- ==== Sys2Proof/Machine/Tick.lean ====
section
/-!
DEFINITION. What one tick of the timebase does: the step of an idle hub.
-/

namespace Sys2Proof.Machine

/-- One tick of 0.625 ns: the timebase counts while ROOT is locked (R32, R93), and the meters of time accrue the
tick, and at a CTL edge every meter takes what has accrued (R350, R354). Commits that have come to their settle point note
its time first (R232). Every other effect of time is a command of the table. Log entry 3. -/
def tick (s : State) : State :=
  if s.clk.rootLock then
    let t := { accrue (noteSettled s) with now := s.now + 1 }
    if t.ctlEdge then updateMeters t else t
  else s

end Sys2Proof.Machine
end

