-- ==== Sys2Proof/Safety.lean ====
section
/-!
DEFINITION. What a safe run is, and the words the statements are written in: what a command leaves as it was, when it
runs, how it answers, what is sent to a die, and the invariants.
-/

namespace Sys2Proof.Machine

open Sys2Proof

/-- An outcome that goes on. -/
def Continues (o : Host.Outcome State Fault Refusal) : Prop := ∃ t, o = .next t

/-- A state from which the next step goes on. -/
def Safe (s : State) : Prop := Continues (step s)

/-! ### Frames -/

/-- The fields of State. -/
inductive Fld
  | pending | now | id | pins | clk | straps | boot | lcy | tap | tapLatches | weave | hosts | fns | sess | billing | ports
  | units | parts | xtrigOut | slath | hang | wale | always | osier | plait | err | mem | out | fires | free
  deriving DecidableEq, Repr

/-- The field has the same value in both states. -/
def Fld.same (s t : State) : Fld → Prop
  | .pending => t.pending = s.pending
  | .now => t.now = s.now
  | .id => t.id = s.id
  | .pins => t.pins = s.pins
  | .clk => t.clk = s.clk
  | .straps => t.straps = s.straps
  | .boot => t.boot = s.boot
  | .lcy => t.lcy = s.lcy
  | .tap => t.tap = s.tap
  | .tapLatches => t.tapLatches = s.tapLatches
  | .weave => t.weave = s.weave
  | .hosts => t.hosts = s.hosts
  | .fns => t.fns = s.fns
  | .sess => t.sess = s.sess
  | .billing => t.billing = s.billing
  | .ports => t.ports = s.ports
  | .units => t.units = s.units
  | .parts => t.parts = s.parts
  | .xtrigOut => t.xtrigOut = s.xtrigOut
  | .slath => t.slath = s.slath
  | .hang => t.hang = s.hang
  | .wale => t.wale = s.wale
  | .always => t.always = s.always
  | .osier => t.osier = s.osier
  | .plait => t.plait = s.plait
  | .err => t.err = s.err
  | .mem => t.mem = s.mem
  | .out => t.out = s.out
  | .fires => t.fires = s.fires
  | .free => t.free = s.free

/-- Every field that `l` does not name is the same. -/
structure Only (l : List Fld) (s t : State) : Prop where
  same : ∀ f, f ∉ l → f.same s t

/-- What the trigger lattice may change when a command has made a source fire: it halts units, sends to dies, builds cuts
and writes records (R504 to R540, R555 to R566). -/
def latticeFields : List Fld :=
  [.fns, .sess, .billing, .ports, .units, .parts, .xtrigOut, .slath, .wale, .always, .osier, .plait, .err, .out, .fires,
    .free]

/-- The fields of State that a command may change; every other one it leaves as it was. -/
def touches : Instr → List Fld
  | .powerOnReset _ => latticeFields ++ [.now, .pins, .clk, .boot, .lcy, .tap, .tapLatches, .weave, .hosts, .hang, .mem]
  | .porstNRise _ _ _ => [.pins, .straps]
  | .supplyDrop _ =>
    latticeFields ++ [.now, .pins, .clk, .straps, .boot, .lcy, .tap, .tapLatches, .weave, .hosts, .hang, .mem]
  | .clockFault _ =>
    latticeFields ++ [.now, .pins, .clk, .straps, .boot, .lcy, .tap, .tapLatches, .weave, .hosts, .hang, .mem]
  | .stakeWatchdogExpiry => latticeFields ++ [.boot, .lcy, .tap, .tapLatches, .weave, .hosts, .hang, .mem]
  | .hostPortReset _ _ => latticeFields ++ [.pins, .boot, .lcy, .weave, .hosts]
  | .sessionReset _ => latticeFields ++ [.lcy, .weave]
  | .pfFunctionReset _ => latticeFields ++ [.lcy, .weave, .hosts]
  | .sessionResetDrainEnd _ => [.fns]
  | .d3hotEntry _ => [.fns]
  | .d0Return _ => [.fns, .always, .out]
  | .rootPllLock => [.now, .clk, .boot]
  | .fusePhaseEnd => [.boot, .lcy]
  | .journalPhaseEnd _ => [.boot, .lcy, .free]
  | .scrubPhaseEnd => [.boot, .hosts, .ports, .parts, .slath, .plait, .mem]
  | .bootFail => [.boot, .free]
  | .weaLoadStart _ => [.hosts, .fns, .always, .out]
  | .weaLoadAbort _ => [.weave, .hosts, .fns, .always, .out, .free]
  | .imageCheckDone =>
    [.boot, .weave, .hosts, .fns, .billing, .ports, .units, .parts, .always, .osier, .plait, .err, .mem, .out, .free]
  | .dramTrainingDone _ => [.pins, .boot, .fns, .ports, .units, .wale, .always, .plait, .err, .out]
  | .enumerationDone _ => [.ports]
  | .readyEntry => latticeFields ++ [.boot, .hang]
  | .serdesPllLoss _ => latticeFields ++ [.clk, .boot, .lcy, .weave, .hosts, .hang]
  | .serdesPllRelock _ => [.clk, .boot, .ports, .units, .always, .plait, .out]
  | .doorbell _ _ => [.fns, .always, .out]
  | .cplHeadWrite _ _ => [.fns, .always]
  | .ringEnable _ => [.fns, .always]
  | .ringDisable _ => [.fns, .always]
  | .descriptorFetch _ _ _ => [.hosts, .fns, .always, .out]
  | .coalesceTimeout _ => [.fns, .always, .out]
  | .hostDmaError _ _ => [.fns, .ports, .parts, .slath, .always, .osier, .out, .free]
  | .nop _ _ => [.fns, .always, .out]
  | .claim _ _ => latticeFields
  | .release _ _ => latticeFields
  | .releaseTakesEffect _ _ => latticeFields
  | .observe _ _ => [.fns, .parts, .always, .out]
  | .grant _ _ => latticeFields ++ [.hosts]
  | .halt _ _ => latticeFields
  | .resume _ _ => latticeFields
  | .step _ _ => latticeFields
  | .setBreak _ _ => latticeFields
  | .clearBreak _ _ => latticeFields
  | .setWatch _ _ _ => latticeFields
  | .clearWatch _ _ => latticeFields
  | .readUnitRegs _ _ => latticeFields
  | .writeUnitRegs _ _ _ => latticeFields
  | .readUnitMem _ _ => latticeFields
  | .writeUnitMem _ _ _ => latticeFields
  | .cut _ _ => latticeFields
  | .dumpCut _ _ => [.fns, .slath, .always, .out]
  | .dumpRegion _ _ => [.fns, .ports, .slath, .always, .plait, .out]
  | .releaseCut _ _ => latticeFields
  | .cutFreed _ _ => latticeFields ++ [.mem]
  | .traceConfig _ _ => latticeFields
  | .traceFlush _ _ _ => latticeFields
  | .traceFlushDrained _ _ => [.fns, .parts, .wale, .always, .err, .out, .free]
  | .counterConfig _ _ _ => latticeFields
  | .counterLatch _ _ => latticeFields
  | .loadModel _ _ _ => [.fns, .always, .osier, .err, .out, .free]
  | .runProgram _ _ => latticeFields
  | .stopProgram _ _ => latticeFields
  | .reweave _ _ _ => [.fns, .always, .out]
  | .reweaveCommit _ _ => [.weave, .fns, .parts, .always, .out]
  | .weftSwitch _ => latticeFields ++ [.hang]
  | .commitSettleTimeout _ _ => latticeFields ++ [.weave]
  | .watchApplyEnd _ => [.fns, .ports, .parts, .always, .out]
  | .warpSettle => latticeFields ++ [.boot, .weave, .hang]
  | .warpCommitDone => latticeFields ++ [.weave]
  | .hangReport _ _ _ => latticeFields ++ [.hang]
  | .meterRead _ _ => [.fns, .always, .out]
  | .epochClose _ _ => [.fns, .sess, .billing, .always, .out]
  | .setWallclock _ _ => latticeFields
  | .epochAutoClose => [.sess, .billing]
  | .twinPair _ _ => [.fns, .ports, .always, .plait, .out]
  | .takeoverTimeout _ _ => [.fns, .always, .out]
  | .twinRelease _ _ => [.fns, .ports, .always, .plait, .out]
  | .lifecycleAdvance _ _ => [.lcy, .fns, .always, .out]
  | .fuseBitAttemptEnd _ => latticeFields ++ [.boot, .lcy, .tap, .tapLatches, .weave, .hosts, .hang, .mem]
  | .hubCtrlWarmReset _ _ => latticeFields ++ [.boot, .lcy, .tap, .tapLatches, .weave, .hosts, .hang, .mem]
  | .partitionReset _ _ => [.parts, .always]
  | .partitionResetComplete _ => latticeFields ++ [.hang]
  | .retrain _ _ => [.ports, .always, .plait]
  | .forceDown _ _ => latticeFields ++ [.boot, .weave, .hang]
  | .scanCtrlWrite _ _ => latticeFields
  | .errInject _ _ => [.always, .err]
  | .registerWrite _ _ _ _ => latticeFields ++ [.boot, .lcy, .tap, .tapLatches, .weave, .hosts, .hang, .mem]
  | .registerReadClear _ _ _ => [.tapLatches, .hosts, .fns, .parts, .hang, .always, .err, .mem, .out, .free]
  | .latchingRead _ _ => [.tapLatches, .hosts, .fns, .parts, .hang, .always, .err, .mem, .out, .free]
  | .memWindowRead _ => [.tapLatches, .hosts, .fns, .parts, .hang, .always, .err, .mem, .out, .free]
  | .idcode => [.tap, .out]
  | .extest _ => [.tap, .out]
  | .samplePreload _ _ => [.tap, .out]
  | .bypass _ _ => [.tap, .out]
  | .lcyQuery => [.tap, .out]
  | .lcyAdvance _ _ => [.lcy, .tap, .out]
  | .fuseKeyProg _ _ => [.lcy, .tap, .out]
  | .memAccess _ => [.tap, .fns, .always, .err, .mem, .out, .free]
  | .regAccess _ => latticeFields ++ [.boot, .lcy, .tap, .tapLatches, .weave, .hosts, .hang, .mem]
  | .warmReset => latticeFields ++ [.boot, .lcy, .tap, .tapLatches, .weave, .hosts, .hang, .mem]
  | .unlockChallenge => [.tap, .out, .free]
  | .unlockResponse _ => [.lcy, .tap, .out, .free]
  | .unlockVerdict => [.lcy, .tap]
  | .nonceExpiry => [.tap]
  | .blockLock _ _ => [.ports, .plait]
  | .tsBlockReceive _ _ _ _ _ _ _ => [.ports, .plait, .out]
  | .lockLoss _ _ => [.ports, .always, .plait]
  | .trainTimeout _ => latticeFields ++ [.boot, .weave, .hang]
  | .downPeriodEnd _ => [.boot, .ports, .units, .always, .plait, .out]
  | .flitReceive _ _ => latticeFields ++ [.boot, .weave, .hang]
  | .nak _ _ _ => latticeFields
  | .replayStart _ _ _ => latticeFields
  | .ackTimeoutReplay _ => latticeFields
  | .linkControlIdle _ _ => latticeFields
  | .config _ _ _ _ => latticeFields ++ [.boot, .weave, .hang]
  | .timesyncTimer _ => [.ports, .plait, .out]
  | .timesyncRsp _ _ _ _ _ _ => latticeFields ++ [.boot, .weave]
  | .timesyncExchangeTimeout _ => [.ports, .plait, .out]
  | .linkResumeFlit _ _ _ => latticeFields
  | .detachReq _ _ => latticeFields
  | .detachAckSend _ => latticeFields ++ [.boot, .weave, .hang]
  | .haltRecord _ _ => latticeFields
  | .eventBatch _ _ => latticeFields ++ [.hang]
  | .counterDelta _ _ => latticeFields
  | .dieLoss _ _ => latticeFields ++ [.hang]
  | .dieResponse _ _ => latticeFields ++ [.weave]
  | .responseTimeout _ _ => latticeFields
  | .hoopInAssert _ _ => latticeFields
  | .xtrigEdge _ _ _ => latticeFields ++ [.pins]
  | .stageTimeout _ => latticeFields
  | .partitionWatchdogExpiry _ => latticeFields ++ [.hang]
  | .hoopOutPulseEnd _ => [.ports, .out]
  | .hoopReleaseGapEnd _ => [.ports, .out]
  | .xtrigPulseEnd _ => [.xtrigOut, .out]
  | .haltTimeoutExpiry _ => latticeFields
  | .stepTimeoutExpiry _ => latticeFields
  | .proofDone _ => latticeFields
  | .splintEmit _ => latticeFields ++ [.mem]
  | .exportPortTimeout _ _ => [.fns, .slath, .always, .out]
  | .hangEventProcess => [.fns, .units, .parts, .hang, .always, .err, .out, .free]
  | .hangScan _ => [.parts]
  | .hangScanEnd _ _ => latticeFields ++ [.hang]
  | .traceFrameTimeout _ => latticeFields
  | .keepaliveTimer => [.wale, .always, .out]
  | .traceFrameSend _ => latticeFields
  | .gapEnd _ _ => latticeFields
  | .spillReturn _ => latticeFields
  | .timesyncRecordTimer _ => latticeFields
  | .waleLinkUp => [.wale]
  | .waleLinkDown => [.fns, .wale, .always, .err, .out]
  | .deferredLatchPoint _ => latticeFields
  | .counterConfigWaitExpiry _ => latticeFields
  | .osierWord _ _ _ _ => latticeFields ++ [.hang]
  | .sliceLimit _ => [.osier]
  | .sleepWake _ => [.osier]
  | .hostWriteError _ => latticeFields
  | .coderAnswerRead _ _ => latticeFields
  | .codingStall _ => latticeFields
  | .plaitLinkDown => [.fns, .ports, .always, .plait, .err, .out]
  | .haltFwd _ _ _ _ => latticeFields
  | .hoopEn _ _ _ => [.ports, .always, .plait, .out]
  | .hoopEnAck _ _ _ => [.ports, .always, .plait, .out]
  | .stakeNote _ _ _ _ => latticeFields ++ [.weave]
  | .hello _ => [.fns, .ports, .always, .plait, .out]
  | .stakeView _ => latticeFields ++ [.weave]
  | .fastView _ => [.fns, .ports, .always, .plait, .out]
  | .handoff _ => [.ports, .always, .plait, .out]
  | .handoffDone _ _ => [.fns, .always, .plait, .out]
  | .unpair => [.fns, .ports, .always, .plait, .out]
  | .imageReqTimer => [.ports, .always, .plait, .out]
  | .imageReq _ => [.fns, .ports, .always, .plait, .err, .out, .free]
  | .imageData _ _ _ => [.weave, .plait]
  | .imageNone => []
  | .plaitTimesyncReq _ _ _ => latticeFields
  | .heartbeatPulse => [.plait, .out]
  | .heartbeatAssert => [.plait]
  | .heartbeatLost => [.fns, .ports, .always, .plait, .out]
  | .twinAbsentTimeout => [.fns, .ports, .always, .plait, .out]
  | .stakeRenewTimer => [.ports, .always, .plait, .out]
  | .stakeClaimRetry _ _ => [.ports, .always, .plait, .out]
  | .patrolScrub _ _ => [.fns, .units, .parts, .always, .osier, .err, .mem, .out]
  | .thermalTrip => [.fns, .always, .err, .out]
  | .firmwareStop => [.fns, .always, .err, .out]
  | .perstNRelease _ => [.pins]
  | .borderLinkUp _ => [.boot]
  | .vfEnable _ _ => latticeFields ++ [.lcy, .weave, .hosts]
  | .imageFetchEnd _ _ _ => [.weave, .hosts, .fns, .always, .out]
  | .reweaveCheckEnd _ _ => [.weave, .fns, .parts, .always, .osier, .err, .out, .free]
  | .alignBlockReceive _ _ => [.ports, .plait, .out]
  | .supplyMonitorRelease => [.pins]
  | .thermalRearm => [.err]
  | .heartbeatPulseEnd => [.plait, .out]
  | .adaptorOperationTimeout => latticeFields

/-- Only function `f` changes, and it becomes `x`; the byte counters of its port may count the host's write (R744). -/
structure FnBecomes (s t : State) (f : Nat) (x : FnSt) : Prop where
  here : t.fn f = x
  others : ∀ k, k ≠ f → t.fn k = s.fn k
  rest : Only [.fns, .always] s t

/-! ### Commands -/

/-- The command runs and the state after it has the property. -/
def Runs (i : Instr) (s : State) (P : State → Prop) : Prop := ∃ t, exec i s = .next t ∧ P t

/-- The fetched command of a tag has opcode `op`, its turn in ring order has come, and no lattice source waits. -/
structure Waits (s : State) (f : Nat) (tag : W32) (op : Nat) (c : Cmd) : Prop where
  here : s.cmd f tag = some c
  op : c.op = op
  turn : s.mayStart f c = true
  quiet : s.fires = []

/-- Between `s` and `t` the command ends with a result: its completion entry is written at SES_CPL_TAIL with the phase
bit, or held while the function is in D3hot, and no command of the tag is left. -/
structure Answers (s t : State) (f : Nat) (c : Cmd) (r : Res) : Prop where
  entry : if (s.fn f).d3hot then ∃ l, (t.fn f).held = (s.fn f).held ++ l ∧ (mkCpl c r s.now, c.irqNow) ∈ l
    else ∃ l, t.out = s.out ++ l ∧
      Out.hostWrite (fnPort f) (BitVec.ofNat 64 ((s.fn f).cplBase.toNat + 32 * (s.fn f).cplTail.toNat))
        (cplBytes (mkCpl c r s.now) (s.fn f).phase) ∈ l
  gone : t.cmd f c.tag = none


/-- The state in which a command's meaning acts: the command is marked started. -/
def started (f : Nat) (tag : W32) (s : State) : State :=
  modCmd f tag (fun x => { x with started := true, work := { x.work with startedAt := s.t } }) s

/-- A request to a die is waiting to be sent on port `n`, or is sent and not answered. -/
def Sent (t : State) (n ch op target : Nat) (wide : Bool) (p : Nat) (tag : W32) (data : List Byte) (who : ReqFor) : Prop :=
  ∃ r ∈ (t.lnk n).open_, r.who = who ∧ r.msg.ch = ch ∧ r.msg.op = BitVec.ofNat 8 op ∧
    r.msg.target = BitVec.ofNat 16 (target + 32768 * b2n wide) ∧ r.msg.partition = BitVec.ofNat 8 p ∧ r.msg.tag = tag ∧
    r.msg.data = data
/-- A target of a command can be sent to: its port, if it is wide, or its unit is in reach, and no adaptor serves it (R434,
R551). -/
def State.inReach (s : State) (x : Nat × Nat × Bool × Nat) : Bool :=
  !s.fallback x.1 && (if x.2.2.1 then s.up x.1 else !s.unitDown x.2.2.2)
/-- One message of a command is with its port. -/
def SentFor (t : State) (f : Nat) (tag : W32) (p : Nat) (m : CmdMsg) : Prop :=
  ∃ k, Sent t m.n m.ch m.op m.target m.wide p tag ((if m.changes then leBytes 4 k else []) ++ m.body) (.cmd f tag m.unit k)
/-- The command starts and its checks at execution pass. -/
structure Starts (s : State) (f : Nat) (tag : W32) (op : Nat) (c : Cmd) : Prop extends Waits s f tag op c where
  checks : (started f tag s).unitCheck f { c with started := true } = none

/-! ### Resets and faults -/

/-- The entry that `errLog` writes. -/
def errEntry (s : State) (cls scope inst addr detail action : Nat) : ErrEntry :=
  { seq := s.err.nextSeq, cls := BitVec.ofNat 8 cls, scope := BitVec.ofNat 8 scope, inst := BitVec.ofNat 16 inst,
    ts := s.now, addr := BitVec.ofNat 64 addr, detail := BitVec.ofNat 32 detail, action := BitVec.ofNat 8 action }

/-- After a power-on or clock-fault reset: the pending commands and the identity stand, and the straps until they are sampled
again; everything else is as State.reset has it, but for what the pins carry, the fuses and what was driven (R105, R108,
R113, R121). -/
structure ColdStart (cause : BitVec 6) (s t : State) : Prop where
  kept : t.pending = s.pending ∧ t.id = s.id ∧ t.pins.perst = s.pins.perst ∧ t.pins.xtrig = s.pins.xtrig
  boot : t.boot = { State.reset.boot with resetCause := cause }
  fuses : s.lcy.burn = none → t.lcy.fuses = s.lcy.fuses
  hub : t.now = 0 ∧ t.weave = State.reset.weave ∧ t.billing = State.reset.billing ∧ t.units = [] ∧
    t.slath = State.reset.slath ∧ t.hang = State.reset.hang ∧ t.always = [] ∧ t.osier = State.reset.osier ∧
    t.plait = State.reset.plait ∧ t.err = State.reset.err ∧ t.mem = State.reset.mem
  each : t.hosts = State.reset.hosts ∧ t.fns = State.reset.fns ∧ t.sess = State.reset.sess ∧
    t.ports = State.reset.ports ∧ t.parts = State.reset.parts

/-- After a warm reset: what R113 keeps stands, the rest is as State.reset has it, and the hub is in the FUSE phase. -/
structure WarmStart (cause : BitVec 6) (s t : State) : Prop where
  boot : t.boot.phase = .fuse ∧ t.boot.warm = true ∧ t.boot.fail = false ∧ t.boot.warmWaiting = none ∧
    t.boot.resetCause = s.boot.resetCause ||| cause
  kept : t.pending = s.pending ∧ t.now = s.now ∧ t.id = s.id ∧ t.pins = s.pins ∧ t.clk = s.clk ∧
    t.straps = s.straps ∧ t.mem = { s.mem with creelUsed := s.mem.creelUsed || s.weave.loaded } ∧
    t.lcy.fails = s.lcy.fails ∧ t.lcy.lockout = s.lcy.lockout ∧ t.lcy.burn = none
  meters : ∀ n, n < 64 → (t.ses n).meters = (s.ses n).meters
  parts : ∀ p, p < 64 → t.part p = { PartSt.init with blocks := (s.part p).blocks, spill := (s.part p).spill }
  hub : t.weave = State.reset.weave ∧ t.units = [] ∧ t.osier = State.reset.osier ∧ t.plait = State.reset.plait ∧
    t.fns = State.reset.fns ∧ t.slath.nextId = s.slath.nextId ∧ t.slath.dumpUsed = s.slath.dumpUsed ∧
    t.slath.exports = [] ∧ t.hang.registry = []

/-- No REWEAVE of the partition is in flight and no commit is outstanding. -/
structure Settled (s : State) (p : Nat) : Prop where
  commit : (s.part p).commit = none
  reweave : (s.cmdsWhere fun _ x => dfield x.desc 0 1 == 0x70 && dfield x.desc 2 1 == p) = []

/-! ### Invariants -/

/-- Every fuse that reads 1 in `f` reads 1 in `g`. -/
structure Fuses.BurnsTo (f g : Fuses) : Prop where
  a : f.a &&& g.a = f.a
  b : f.b &&& g.b = f.b
  c : f.c &&& g.c = f.c
  journal : f.journal &&& g.journal = f.journal
  imgKey : f.imgKey &&& g.imgKey = f.imgKey
  tapKey : f.tapKey &&& g.tapKey = f.tapKey
  imgLocked : f.imgLocked = true → g.imgLocked = true
  tapLocked : f.tapLocked = true → g.tapLocked = true
/-- No session both owns and observes a partition, and no partition has more observers than its slots. -/
structure State.RolesApart (s : State) : Prop where
  apart : ∀ p f, (s.part p).owner = some f → f ∉ (s.part p).observers
  slots : ∀ p, (s.part p).observers.length ≤ Config.maxObservers
/-- Every byte memory has its canonical form: addresses rising, no zero byte listed. -/
structure State.MemoriesCanonical (s : State) : Prop where
  creel : Mem.wf s.mem.creel = true
  osier : ∀ e ∈ s.mem.osier, Mem.wf e.2 = true
  stake : ∀ e ∈ s.mem.stake, Mem.wf e.2 = true
/-- The resets that start the hub from nothing. -/
def powersOn : Instr → Bool
  | .powerOnReset _ => true
  | .supplyDrop _ => true
  | .clockFault _ => true
  | _ => false

end Sys2Proof.Machine
end

