-- ==== Sys2Proof/Certificates/Slice0/Obligations.lean ====
section
/-!
DEFINITION. The statements for the provers. Each cites the rules of the spec it comes from; a clause that rests on a choice
of the model says so and names its log entry.
-/

open Sys2Proof Sys2Proof.Machine

/-! ### The machine as a whole -/

/-- The command at the front of the queue runs on the state without it. The queue is the model's (log entry 1)
(spec/00_scope). -/
def Obligations.StepRunsFront : Prop :=
  ∀ c rest s, s.pending = c :: rest → step s = exec c { s with pending := rest }

/-- With nothing waiting the timebase counts one tick while ROOT is locked, and nothing is driven (log entry 3); a commit
that has come to its settle point notes it (log entry 78) (spec/02_clocks_resets_bringup R88 to R93;
spec/06_tenancy_and_metering R350 to R354). -/
def Obligations.EmptyQueueTicks : Prop :=
  (∀ s, s.pending = [] → s.clk.rootLock = false → step s = .next s) ∧
  (∀ s, s.pending = [] → s.clk.rootLock = true →
    ∃ t, step s = .next t ∧ t.now = s.now + 1 ∧ Only [.now, .weave, .sess, .billing, .parts] s t)

/-- Every command completes in every state: none ends in a fault or a refusal (spec/00_scope R25;
spec/05_sessions_and_rings R286). -/
def Obligations.EveryCommandCompletes : Prop := ∀ i s, ∃ t, exec i s = .next t

/-- What a command leaves unchanged: every field of State that `touches` does not name for it
(spec/05_sessions_and_rings; spec/07_nalsel_link; spec/09_hoop_triggers; spec/10_run_control;
spec/11_slath_consistent_cut; spec/13_wale_trace_and_time; spec/14_counters; spec/15_osier_programming_model;
spec/19_twin_pairing; spec/20_faults_and_containment; spec/21_register_reference). -/
def Obligations.CommandsKeepOtherState : Prop :=
  ∀ i s t, s.fires = [] → exec i s = .next t → Only (touches i) s t

/-- No command touches the queue of commands, and after each no lattice source is left waiting (the model's queue, log
entry 1) (spec/09_hoop_triggers R502). -/
def Obligations.QueueAndLatticeSettled : Prop :=
  ∀ i s t, exec i s = .next t → t.pending = s.pending ∧ t.fires = []

/-- What has been driven on the hub's outputs stays driven: a command only adds to it (spec/01_hub_overview;
spec/05_sessions_and_rings; spec/07_nalsel_link). -/
def Obligations.OutputsOnlyGrow : Prop := ∀ i s t, exec i s = .next t → s.out <+: t.out

/-- The settling of the trigger lattice leaves the ownership, the wefts, the commits, the links' states, the lifecycle
and the memories as they were (spec/09_hoop_triggers R500 to R540; spec/04_weave_and_reweave R230 to R239). -/
def Obligations.LatticeKeepsTenancyAndLinks : Prop :=
  ∀ s, (∀ p, ((settle s).part p).owner = (s.part p).owner ∧ ((settle s).part p).observers = (s.part p).observers ∧
      ((settle s).part p).active = (s.part p).active ∧ ((settle s).part p).inactive = (s.part p).inactive ∧
      ((settle s).part p).commit = (s.part p).commit ∧ ((settle s).part p).routes = (s.part p).routes) ∧
    (∀ l, ((settle s).lnk l).link = (s.lnk l).link ∧ ((settle s).lnk l).lastAccepted = (s.lnk l).lastAccepted) ∧
    (settle s).lcy = s.lcy ∧ (settle s).boot = s.boot ∧ (settle s).weave = s.weave ∧ (settle s).mem = s.mem

/-- The timebase: it starts at zero at the lock of ROOT and counts every tick (R93). That a step with an empty queue is one tick,
and that no command is one, is the model's choice: log entry 3. -/
def Obligations.TimebaseCounts : Prop :=
  (∀ s, s.inPhase .clock = true → s.pins.porst = true → s.pins.supplyGood = true → s.clk.rootLock = false →
    Runs .rootPllLock s fun t => t.now = 0 ∧ t.clk.rootLock = true) ∧
  (∀ i s t, exec i s = .next t → i ≠ .rootPllLock → powersOn i = false → t.now = s.now) ∧
  (∀ s t, s.pending = [] → s.clk.rootLock = true → step s = .next t → t.now = s.now + 1)

/-- No step takes a fuse from 1 back to 0 (R139). -/
def Obligations.FusesOnlyBurn : Prop := ∀ s t, step s = .next t → Fuses.BurnsTo s.lcy.fuses t.lcy.fuses

/-- A program pulse: the bit is verified after it; up to three attempts; then it is left and burning goes on (R154). -/
def Obligations.FuseAttemptsAct : Prop :=
  (∀ s b x rest, s.lcy.burn = some b → s.boot.warmWaiting = none → b.todo = x :: rest → s.fires = [] →
    Runs (.fuseBitAttemptEnd true) s fun t => t.lcy.fuses = s.lcy.fuses.burn x ∧ t.lcy.sensed = s.lcy.fuses.burn x) ∧
  (∀ s b x rest, s.lcy.burn = some b → s.boot.warmWaiting = none → b.todo = x :: rest → b.attempts < 2 → s.fires = [] →
    exec (.fuseBitAttemptEnd false) s = .next { s with lcy := { s.lcy with burn := some { b with attempts := b.attempts + 1 } } }) ∧
  (∀ s b n y rest, s.lcy.burn = some b → s.boot.warmWaiting = none → b.todo = .a n :: y :: rest → rest ≠ [] → 2 ≤ b.attempts →
    s.fires = [] →
    exec (.fuseBitAttemptEnd false) s = .next { s with lcy := { s.lcy with burn := some { b with todo := y :: rest, attempts := 0 } } })

/-- The unlock lockout: rejections are counted, the third locks, a locked part takes no response, and only a power-on or
clock-fault reset clears the count and the lock (R184). -/
def Obligations.LockoutHolds : Prop :=
  (∀ s key sig nonce, s.tap.response = some (key, sig, nonce) → s.unlockGranted key sig nonce = false →
    Runs .unlockVerdict s fun t => t.lcy.fails = BitVec.ofNat 2 (sat 3 (s.lcy.fails.toNat + 1)) ∧ t.lcy.unlocked = s.lcy.unlocked ∧
      t.lcy.lockout = (s.lcy.lockout || decide (2 ≤ s.lcy.fails.toNat))) ∧
  (∀ (s : State) key sig, s.unlockGranted key sig none = false) ∧
  (∀ s dr, s.tapHas 0x31 = true → s.lcy.lockout = true → Runs (.unlockResponse dr) s fun t => t.tap.response = none) ∧
  (∀ i s t, exec i s = .next t → powersOn i = false → s.lcy.lockout = true → t.lcy.lockout = true) ∧
  (∀ i s t, exec i s = .next t → powersOn i = false → s.lcy.fails.toNat ≤ t.lcy.fails.toNat) ∧
  (∀ s n, 10000 ≤ n → Runs (.powerOnReset n) s fun t => t.lcy.fails = 0 ∧ t.lcy.lockout = false) ∧
  (∀ s (d : SupplyDip), 2000 ≤ d.belowNs → Runs (.supplyDrop d) s fun t => t.lcy.fails = 0 ∧ t.lcy.lockout = false) ∧
  (∀ s a, s.pins.porst = true → s.pins.supplyGood = true →
    Runs (.clockFault a) s fun t => t.lcy.fails = 0 ∧ t.lcy.lockout = false)

/-- Every step keeps a session from holding both roles on one partition, and a partition's observers within their
slots (spec/06_tenancy_and_metering R325 to R348; spec/01_hub_overview R71). -/
def Obligations.RolesStayApart : Prop := ∀ s t, s.RolesApart → step s = .next t → t.RolesApart

/-- After reset no partition has an owner or an observer (spec/02_clocks_resets_bringup R136;
spec/06_tenancy_and_metering R327). -/
def Obligations.ResetRolesApart : Prop := State.reset.RolesApart ∧ ∀ p, (State.reset.part p).owner = none

/-- Every step keeps the addressed memories in their canonical form (the model's representation, log entry 4)
(spec/21_register_reference R1037 to R1043). -/
def Obligations.MemoriesStayCanonical : Prop := ∀ s t, s.MemoriesCanonical → step s = .next t → t.MemoriesCanonical

/-- After reset the memories have their canonical form, and list nothing (spec/21_register_reference R1037; log entry
4). -/
def Obligations.ResetMemoriesCanonical : Prop := State.reset.MemoriesCanonical ∧ State.reset.mem.creel = []

/-- The values the spec gives for a power-on reset: HUB_RESET_CAUSE, the billing epoch, the cut sequence,
NSL7_SCAN_CTRL, WAL_MAC_DST, the link states, and nothing staged, held, owned or counted
(spec/02_clocks_resets_bringup R97, R113, R121; spec/06_tenancy_and_metering R355; spec/07_nalsel_link R405, R413,
R437; spec/09_hoop_triggers R540; spec/11_slath_consistent_cut R589; spec/13_wale_trace_and_time R743;
spec/05_sessions_and_rings R322; spec/20_faults_and_containment R1012; log entry 7). -/
def Obligations.ResetValues : Prop :=
  State.reset.boot.resetCause = 1 ∧ State.reset.billing.epoch = 1 ∧ State.reset.slath.nextId = 1 ∧
  State.reset.osier.scanCtrl = 0x10 ∧ State.reset.wale.macDst = BitVec.allOnes 48 ∧ State.reset.err.status = 0 ∧
  State.reset.clk = { rootLock := false, refPresent := false, border := 0, nsl := 0, wale := false, plait := false } ∧
  (∀ n, n < 8 → (State.reset.lnk n).link = .disabled ∧ (State.reset.lnk n).lastAccepted = 0xFFF) ∧
  (∀ p, p < 64 → (State.reset.part p).stage = 0 ∧ (State.reset.part p).held = false ∧ (State.reset.part p).cuts = [] ∧
    (State.reset.part p).counters = []) ∧
  (∀ f, f < 68 → (State.reset.fn f).enable = false ∧ (State.reset.fn f).window = [] ∧ (State.reset.fn f).inflight = [])

/-! ### Resets and start-up -/

/-- PORST_N, the supply and the reference clock reset the whole hub (R94, R95, R105, R108, R113). When the straps are
sampled is log entry 36. -/
def Obligations.PowerResetsAct : Prop :=
  (∀ s n, 10000 ≤ n → Runs (.powerOnReset n) s fun t => ColdStart 1 s t ∧ t.pins.porst = false ∧ t.straps = s.straps) ∧
  (∀ s n, n < 1000 → s.fires = [] → exec (.powerOnReset n) s = .next { s with free := s.free + 1 }) ∧
  (∀ s (d : SupplyDip), 2000 ≤ d.belowNs → Runs (.supplyDrop d) s fun t => ColdStart 2 s t ∧ t.pins.supplyGood = false ∧
      t.straps = if s.pins.porst then Straps.sample d.pairRank d.bootSrc d.mask else s.straps) ∧
  (∀ s (d : SupplyDip), d.belowNs < 500 → s.fires = [] → exec (.supplyDrop d) s = .next { s with free := s.free + 1 }) ∧
  (∀ s a, s.pins.porst = true → s.pins.supplyGood = true →
    Runs (.clockFault a) s fun t => ColdStart 4 s t ∧ t.clk.refPresent = (!a.refAbsent) ∧ t.pins.porst = true ∧
      t.straps = Straps.sample a.pairRank a.bootSrc a.mask)

/-- Warm resets: a write of 0xA5 to HUB_CTRL, the TAP, the stake watchdog; one waits for a program pulse (R105 to R107,
R112, R113, R161). That a second request joins the one that waits, and what a warm reset keeps of the trace memory, is log entry
37; that a write counts bytes at its port, log entry 83. -/
def Obligations.WarmResetsAct : Prop :=
  (∀ s port value, s.barOpen (64 + port.val) = true → s.isArbiterPm (64 + port.val) = true → value.toNat % 256 = 0xA5 →
    s.lcy.burn = none → Runs (.hubCtrlWarmReset port value) s fun t => WarmStart 8 s t ∧ t.lcy.fuses = s.lcy.fuses) ∧
  (∀ s port value, s.barOpen (64 + port.val) = true → s.isArbiterPm (64 + port.val) = true → value.toNat % 256 = 0xA5 →
    s.lcy.burn.isSome = true → s.fires = [] →
    exec (.hubCtrlWarmReset port value) s = .next (bumpAlways (44 + port.val) 4
      { s with boot := { s.boot with warmWaiting := some (s.boot.warmWaiting.getD 0 ||| 8) } })) ∧
  (∀ s, s.tapHas 0x40 = true → s.lcy.burn = none →
    Runs .warmReset s fun t => WarmStart 16 s t ∧ t.lcy.fuses = s.lcy.fuses ∧ t.tap.ir = 0x40) ∧
  (∀ s, s.err.stopped = true → s.lcy.burn = none →
    Runs .stakeWatchdogExpiry s fun t => WarmStart 32 s t ∧ t.lcy.fuses = s.lcy.fuses ∧ t.err.stopped = false ∧
      (t.err.log.head?.map fun e => (e.cls, e.action)) = some (0x0D, 4)) ∧
  (∀ s took b cause, s.lcy.burn = some b → s.boot.warmWaiting = some cause →
    Runs (.fuseBitAttemptEnd took) s fun t => WarmStart cause s t ∧
      t.lcy.fuses = (if took then b.todo.head?.elim s.lcy.fuses s.lcy.fuses.burn else s.lcy.fuses))

/-- The start-up from the rise of PORST_N to the end of SCRUB (R93, R98 to R104, R123, R134, R143 to R145). The PLLs
that lock with ROOT (log entry 29), the key's value (log entry 11) and the code of a failure in CLOCK (log entry 35)
are the model's. -/
def Obligations.StartUpPhasesAct : Prop :=
  (∀ s pr bs m, s.pins.porst = false → s.fires = [] →
    exec (.porstNRise pr bs m) s = .next
      { s with pins := { s.pins with porst := true },
               straps := { pairRank := pr, bootSrc := bs, mask := if m = 0 then 1 else m, maskZero := m == 0,
                           bootSrcIgnored := pr && bs } }) ∧
  (∀ s, s.fires = [] → exec .supplyMonitorRelease s = .next { s with pins := { s.pins with supplyGood := true } }) ∧
  (∀ s, s.inPhase .clock = true → s.pins.porst = true → s.pins.supplyGood = true → s.clk.rootLock = false → s.fires = [] →
    exec .rootPllLock s = .next
      { s with now := 0, boot := { s.boot with phase := .fuse },
               clk := { rootLock := true, refPresent := true, border := s.straps.mask, nsl := 0xFF, wale := true,
                        plait := true } }) ∧
  (∀ s, s.inPhase .fuse = true → s.fires = [] →
    exec .fusePhaseEnd s = .next { s with lcy := { s.lcy with sensed := s.lcy.fuses },
                                          boot := { s.boot with phase := .journal } }) ∧
  (∀ s stuck, s.inPhase .journal = true → s.fires = [] →
    Runs (.journalPhaseEnd stuck) s fun t => t.boot.phase = .scrub ∧ t.lcy.fuses = s.lcy.fuses.resume stuck ∧
      t.lcy.sensed = t.lcy.fuses ∧ (t.lcy.state, t.lcy.fallback) = s.lcy.fuses.stateAtStart stuck ∧
      (t.lcy.state = .production → t.lcy.xtsKey = some (Config.freeXtsKey s.free))) ∧
  (∀ s, s.inPhase .scrub = true → s.fires = [] →
    Runs .scrubPhaseEnd s fun t =>
      t.boot.phase = (match s.lcy.state with
        | .blank => .blank
        | .endOfLife => .eol
        | .test => .awaitWeave
        | .production => .awaitWeave) ∧
      (s.boot.warm = false → t.mem = State.reset.mem ∧ ∀ p, p < 64 → (t.part p).blocks = [])) ∧
  (∀ s, s.boot.fail = false → s.fires = [] →
    (s.boot.phase = .fuse → exec .bootFail s = .next { s with boot := { s.boot with fail := true, failCode := 1 } }) ∧
    (s.boot.phase = .journal → exec .bootFail s = .next { s with boot := { s.boot with fail := true, failCode := 2 } }) ∧
    (s.boot.phase = .scrub → exec .bootFail s = .next { s with boot := { s.boot with fail := true, failCode := 3 } }) ∧
    (s.boot.phase = .clock → s.pins.porst = true →
      Runs .bootFail s fun t => t.boot.fail = true ∧ t.boot.phase = .clock ∧ Only [.boot, .free] s t))

/-- The start of work, the pins of a host port and its reset, and DRAM training (R105, R123 to R136, R255, R715). -/
def Obligations.BootEventsAct : Prop :=
  (∀ s, s.inPhase .enumerate = true → s.enumEnded = true →
    Runs .readyEntry s fun t => t.boot = { s.boot with phase := .ready } ∧ t.clk = s.clk ∧ t.mem = s.mem) ∧
  (∀ s n, s.fires = [] →
    exec (.perstNRelease n) s = .next { s with pins := { s.pins with perst := s.pins.perst ||| (1#4 <<< n.val) } }) ∧
  (∀ s n, s.serving = true → s.enabledPort n = true → s.pins.perst.getLsbD n = true → s.clk.border.getLsbD n = true →
    s.fires = [] →
    exec (.borderLinkUp n) s = .next { s with boot := { s.boot with borderUp := s.boot.borderUp ||| (1#4 <<< n.val) } }) ∧
  (∀ s n c, s.enabledPort n = true → s.boot.borderUp.getLsbD n = true →
    Runs (.hostPortReset n c) s fun t => t.boot = { s.boot with borderUp := s.boot.borderUp &&& ~~~(1#4 <<< n.val) } ∧
      (t.host n).vfEnable = false ∧ (t.host n).numVfs = 0 ∧
      t.pins = (if c = .perst then { s.pins with perst := s.pins.perst &&& ~~~(1#4 <<< n.val) } else s.pins)) ∧
  (∀ s n k, s.barOpen (64 + n.val) = true → k ≤ 16 →
    Runs (.vfEnable n k) s fun t => (t.host n).vfEnable = decide (0 < k) ∧ (t.host n).numVfs = k ∧ t.boot = s.boot) ∧
  (∀ s ok, s.boot.phase = .linkTrain → s.boot.dramTrained = false →
    Runs (.dramTrainingDone ok) s fun t => t.boot.dramTrained = true ∧ t.wale.dramReady = ok ∧ t.wale.dramFail = !ok ∧
      t.clk = s.clk)

/-- The serial PLLs (R88, R89, R96, R97). -/
def Obligations.SerdesPllsAct : Prop :=
  (∀ s p, Runs (.serdesPllLoss p) s fun t => t.clk = (match p with
    | .border n => { s.clk with border := s.clk.border &&& ~~~(1#4 <<< n.val) }
    | .nsl n => { s.clk with nsl := s.clk.nsl &&& ~~~(1#8 <<< n.val) }
    | .wale => { s.clk with wale := false }
    | .plait => { s.clk with plait := false }) ∧
    (p = .wale → t.wale.portUp = false) ∧
    (∀ n, p = .border n → s.boot.borderUp.getLsbD n.val = true → t.boot = { s.boot with borderUp := s.boot.borderUp &&& ~~~(1#4 <<< n.val) })) ∧
  (∀ s p, s.clk.refPresent = true → Runs (.serdesPllRelock p) s fun t => t.clk = (match p with
    | .border n => { s.clk with border := s.clk.border ||| (1#4 <<< n.val) }
    | .nsl n => { s.clk with nsl := s.clk.nsl ||| (1#8 <<< n.val) }
    | .wale => { s.clk with wale := true }
    | .plait => { s.clk with plait := true }) ∧ t.pins = s.pins) ∧
  (∀ s p, s.clk.refPresent = false → s.fires = [] → exec (.serdesPllRelock p) s = .next s)

/-! ### Functions, rings, sessions -/

/-- Session, function and power-state events (R255 to R258, R317 to R321, R329). The phase from which configuration requests
are taken is log entry 28, that NumVFs is 0 after a reset of the PF log entry 65. -/
def Obligations.FunctionResetsAct : Prop :=
  (∀ s n, s.configOpen = true → s.enabledPort (fnPort n.val) = true → s.vfExists n.val = true →
    Runs (.sessionReset n) s fun t => (t.fn n.val).enable = false ∧ (t.fn n.val).ringSize = 0 ∧ (t.fn n.val).head = 0 ∧
      (t.fn n.val).tail = 0 ∧ (t.ses n.val).allow = BitVec.allOnes 64 ∧ (t.ses n.val).globalView = false ∧
      ∀ p, (t.part p).owner ≠ some n.val ∧ n.val ∉ (t.part p).observers) ∧
  (∀ s n, s.configOpen = true → s.enabledPort n.val = true →
    Runs (.pfFunctionReset n) s fun t => (t.fn (64 + n.val)).enable = false ∧ (t.fn (64 + n.val)).ringSize = 0 ∧
      (t.host n.val).vfEnable = false ∧ (t.host n.val).numVfs = 0 ∧ t.boot = s.boot) ∧
  (∀ s n, (s.fn n.val).resetDrain = true → s.draining n.val = false → s.fires = [] →
    Runs (.sessionResetDrainEnd n) s fun t => FnBecomes s t n.val { s.fn n.val with resetDrain := false } ∧ Only [.fns] s t) ∧
  (∀ s f, s.configOpen = true → s.fnExists f.val = true → s.fires = [] →
    Runs (.d3hotEntry f) s fun t => FnBecomes s t f.val { s.fn f.val with d3hot := true } ∧ Only [.fns] s t) ∧
  (∀ s f, (s.fn f.val).d3hot = true → s.fires = [] →
    Runs (.d0Return f) s fun t => (t.fn f.val).d3hot = false ∧ (t.fn f.val).held = [] ∧ Only [.fns, .out, .always] s t ∧
      ∀ c q l, (s.fn f.val).held = (c, q) :: l →
        Out.hostWrite (fnPort f.val) (BitVec.ofNat 64 ((s.fn f.val).cplBase.toNat + 32 * (s.fn f.val).cplTail.toNat))
          (cplBytes c (s.fn f.val).phase) ∈ t.out)

/-- The ring registers (R265 to R274, R745). The fetch position and the cleared error code are log entry 19,
that a head outside the ring is kept as written log entry 73. -/
def Obligations.RingRegistersAct : Prop :=
  (∀ s f v, s.barOpen f.val = true → (s.fn f.val).enable = true → s.fires = [] →
    v.toNat % 4096 < (s.fn f.val).cmdSize →
    let x := s.fn f.val
    let ahead := (v.toNat % 4096 + x.cmdSize - x.head.toNat % x.cmdSize) % x.cmdSize
    (¬ (0 < ahead ∧ ahead < x.asked) →
      Runs (.doorbell f v) s fun t => FnBecomes s t f.val { x with tail := v.setWidth 12, hwm := hwmCmd x.hwm ahead }) ∧
    (0 < ahead → ahead < x.asked →
      Runs (.doorbell f v) s fun t => (t.fn f.val).ringError = true ∧ (t.fn f.val).fetching = false ∧
        (t.fn f.val).errorCode = 3 ∧ (t.fn f.val).tail = x.tail)) ∧
  (∀ s f v, s.barOpen f.val = true → (s.fn f.val).enable = true → s.fires = [] →
    (s.fn f.val).cmdSize ≤ v.toNat % 4096 →
    Runs (.doorbell f v) s fun t => (t.fn f.val).ringError = true ∧ (t.fn f.val).fetching = false ∧ (t.fn f.val).errorCode = 2 ∧
      (t.fn f.val).tail = (s.fn f.val).tail) ∧
  (∀ s f v, s.barOpen f.val = true → s.fires = [] →
    Runs (.cplHeadWrite f v) s fun t => FnBecomes s t f.val { s.fn f.val with cplHead := v.setWidth 12 }) ∧
  (∀ s f, s.barOpen f.val = true → s.fires = [] → (s.fn f.val).sizeOk = true →
    Runs (.ringEnable f) s fun t => FnBecomes s t f.val { s.fn f.val with enable := true, fetching := true, asked := 0, head := 0, tail := 0, cplHead := 0, cplTail := 0, phase := true, ringError := false, errorCode := 0, hwm := 0 }) ∧
  (∀ s f, s.barOpen f.val = true → s.fires = [] → (s.fn f.val).sizeOk = false →
    Runs (.ringEnable f) s fun t => FnBecomes s t f.val { s.fn f.val with errorCode := 1, hwm := 0 }) ∧
  (∀ s f, s.barOpen f.val = true → s.fires = [] →
    Runs (.ringDisable f) s fun t => FnBecomes s t f.val { s.fn f.val with enable := false, fetching := false, asked := 0 })

/-- Commands of a session and its ring events (R279, R284, R287, R296, R313, R315). Where MSI-X's control bits stand
is log entry 72, which commands keep an error of their buffer log entry 25. -/
def Obligations.SessionCommandsAct : Prop :=
  (∀ s f tag c, Waits s f.val tag 0x01 c →
    Runs (.nop f tag) s fun t => Answers s t f.val c {} ∧ Only [.fns, .out, .always] s t) ∧
  (∀ s f d, s.mayFetch f.val = true → s.fires = [] →
    (s.fn f.val).window.find? (fun e => e.tag == (newCmd d s.t).tag) = none → s.cmd f.val (newCmd d s.t).tag = none →
    let c := s.noteBacklog (newCmd d s.t)
    s.descriptorCheck f.val c = none → s.afterRelease f.val c = false →
    Runs (.descriptorFetch f d false) s fun t =>
      (t.fn f.val).inflight = (s.fn f.val).inflight ++ [c] ∧
      (t.fn f.val).head = BitVec.ofNat 12 (((s.fn f.val).head.toNat + 1) % (s.fn f.val).cmdSize) ∧
      Only [.hosts, .fns, .always] s t) ∧
  (∀ s f d, s.mayFetch f.val = true → Runs (.descriptorFetch f d true) s fun t =>
    (t.fn f.val).ringError = true ∧ (t.fn f.val).fetching = false ∧ (t.fn f.val).errorCode = 4 ∧
      (t.fn f.val).head = (s.fn f.val).head) ∧
  (∀ s f t0 e, (s.fn f.val).coalSince = some t0 → 0 < (s.fn f.val).coal.toNat / 65536 % 1024 →
    s.after t0 ((s.fn f.val).coal.toNat / 65536 % 1024) = true → (s.fn f.val).vectors[cplVector f.val]? = some e →
    (s.fn f.val).mayInterrupt e = true → s.fires = [] →
    Runs (.coalesceTimeout f) s fun t => (t.fn f.val).coalSince = none ∧ (t.fn f.val).coalCount = 0 ∧
      t.out = s.out ++ [.msix f.val (cplVector f.val)] ∧ Only [.fns, .out, .always] s t) ∧
  (∀ s f tag c, s.cmd f.val tag = some c → s.usesBuffer c = true → c.op ≠ 0x70 → c.writesLast = false →
    (∀ e ∈ s.slath.exports, e.fn = f.val → e.tag ≠ tag) →
    Runs (.hostDmaError f tag) s fun t => Answers s t f.val c
      { status := stBadAddress, part := s.acted f.val c, r0 := c.work.r0, r1 := c.work.r1, r2 := c.work.r2,
        r3 := c.work.dieCode.toNat }) ∧
  (∀ s f tag c, s.cmd f.val tag = some c → s.usesBuffer c = true → c.writesLast = true → s.fires = [] →
    Runs (.hostDmaError f tag) s fun t =>
      t.cmd f.val tag = some { c with work := { c.work with dmaError := true } } ∧ Only [.fns] s t)

/-- CUT and RELEASE_CUT, and the end of a proof and of a cut's storage (R588 to R596, R605, R609, R641 to R646). Which
records are found bad is an operand (log entry 12); a RELEASE_CUT counts from its fetch (log entry 53); which write takes an
injection is log entry 22. -/
def Obligations.CutsAct : Prop :=
  (∀ s f tag c, Waits s f.val tag 0x30 c → s.owns f.val c.partition = true → c.partition < 64 →
    (s.part c.partition).held = false →
    Runs (.cut f tag) s fun t => (t.part c.partition).held = true ∧ t.mem = s.mem) ∧
  (∀ s (p : Part) (l : List UnitNo) c0 c a b, (s.part p.val).build = some c0 → c0.stage = 1 → s.synthOpen p.val = false →
    let u := poisonHeld p.val (l.map fun x => x.toNat) s
    (u.part p.val).build = some c →
    u.stagedCuts < Config.maxCuts →
    (u.part p.val).cuts.length < Config.maxPartCuts → u.slath.nextId ≤ 0xFFFFFFFF →
    let d := u.proven p.val c
    let pages := ceilDiv (d.regionSplints * 4096) 65536
    u.reserve (pages + ceilDiv d.streamLen 65536) = some (a, b) →
    let v := logPoisoned d u
    let e := { d with stage := 2, regionPages := (min a pages, pages - min a pages), statePages := (a - min a pages, b - (pages - min a pages)) }
    exec (.proofDone { part := p, poisoned := l }) s = .next (settle (slath p.val
      (if a = min a pages then modBuild p.val (fun _ => if v.dramHit then e.spoil true 0 else e) (spendDram v)
       else modBuild p.val (fun _ => if v.injectHit then e.spoil true 0 else e) (spendCreel v))))) ∧
  (∀ s (p : Part) (l : List UnitNo) c, (s.part p.val).build = some c → c.stage = 1 → s.synthOpen p.val = false →
    let u := poisonHeld p.val (l.map fun x => x.toNat) s
    (u.part p.val).build = some c → 0xFFFFFFFF < u.slath.nextId →
    exec (.proofDone { part := p, poisoned := l }) s = .next (settle (slath p.val
      (refuseCut p.val (u.proven p.val c) (logPoisoned (u.proven p.val c) u))))) ∧
  (∀ s f tag c, Waits s f.val tag 0x33 c → s.owns f.val c.partition = true →
    let id := BitVec.ofNat 32 (c.f 56 4)
    let named := (s.part c.partition).cuts.filter fun x => id == 0xFFFFFFFF || x.id == id
    let fresh := (named.filter fun x => !x.releasing).map (·.id)
    fresh ≠ [] →
    exec (.releaseCut f tag) s = .next (settle (each fresh
      (fun x v => v |> modCut c.partition x (fun y => { y with asked := true }) |> Machine.releaseCut c.partition (some (f.val, tag)) x)
      (modWork f.val tag (fun w => { w with units := fresh.map (·.toNat), r0 := fresh.length }) (started f.val tag s))))) ∧
  (∀ s p id c, s.cut p.val id = some c → c.releasing = true → c.stage = 4 → c.releasedBy = none →
    (s.slath.exports.any fun e => e.partition == p.val && e.cut == id) = false →
    exec (.cutFreed p id) s = .next (settle (cutRec 3 c
      (modPart p.val (fun x => { x with cuts := x.cuts.filter fun y => y.id != id }) (freeDump id s)))))

/-- The exports of a cut and of a region, and their end (R615 to R640). The turns are log entry 70. -/
def Obligations.ExportsAct : Prop :=
  (∀ s f tag c k count, Waits s f.val tag 0x31 c → s.reads f.val c.partition = true →
    (started f.val tag s).barred { c with started := true } = false →
    s.cut c.partition (BitVec.ofNat 32 (c.f 56 4)) = some k → k.releasing = false →
    (started f.val tag s).releaseFetched c.partition k = false → c.f 53 1 = 0 →
    let total := if c.f 52 1 = 0 then k.regionSplints else k.stateSplints
    count = (if c.param1 = 0xFFFFFFFF then total - c.param0 else c.param1) → c.param1 ≠ 0 → c.param0 < total →
    c.param0 + count ≤ total → 4160 * (count + manifestSplints total) ≤ c.bufWindow → c.badBuffer = false →
    s.openExports f.val < Config.maxExports →
    exec (.dumpCut f tag) s = .next (putExport (newExport s f.val c (BitVec.ofNat 32 (c.f 56 4)) (c.f 52 1) count total 0)
      (started f.val tag s))) ∧
  (∀ s f tag c, Waits s f.val tag 0x32 c → (started f.val tag s).unitCheck f.val { c with started := true } = none →
    s.inReach (c.unitFirst / 4096, c.unitFirst % 4096, false, c.unitFirst) = true →
    c.unitFirst / 4096 < 8 →
    Runs (.dumpRegion f tag) s fun t => ∀ o n, (o, n) ∈ chunksOf (s.memLength c) 4092 → SentFor t f.val tag c.partition
      { n := c.unitFirst / 4096, ch := 2, op := 1, target := c.unitFirst % 4096, wide := false, unit := c.unitFirst, body := memReadBody ((BitVec.ofNat 8 c.region).toNat) (c.memOffset + o) n, changes := false }) ∧
  (∀ s v e u, s.slath.exports.any s.exportReady = true → findTurn 130 s = some (e, u) →
    exec (.splintEmit v) s = .next (settle (clearDeficits
      (if e.dataDone then sendManifest e (noteServed e (setDeficit e.fn (u.deficit e.fn - 1) u))
       else sendData e v (noteServed e (setDeficit e.fn (u.deficit e.fn - 1) u)))))) ∧
  (∀ s f tag c e, s.cmd f.val tag = some c → s.fires = [] →
    s.slath.exports.find? (fun e => e.fn == f.val && e.tag == tag) = some e → e.dest = 2 → s.wale.portUp = false →
    s.after (max e.since s.wale.downAt) 100000 = true →
    Runs (.exportPortTimeout f tag) s fun t => Answers s t f.val c { e.result with status := stLinkDown, part := true } ∧
      t.slath.exports = s.slath.exports.filter fun x => !(x.fn == f.val && x.tag == tag))

/-- TRACE_CONFIG and TRACE_FLUSH (R709 to R723). What a MODE 0 waits for, and what a read of the blocks meets, is log entry 12. -/
def Obligations.TraceCommandsAct : Prop :=
  (∀ s f tag c, Waits s f.val tag 0x40 c → s.owns f.val c.partition = true → c.partition < 64 →
    (started f.val tag s).barred { c with started := true } = false → c.f 52 1 = 2 →
    Runs (.traceConfig f tag) s fun t => Answers s t f.val c {} ∧ (t.part c.partition).oldRoutes = (s.part c.partition).routes ∧
      (t.part c.partition).switchTs = s.nextEdge ∧
      (t.part c.partition).routes = (List.range 16).map fun k =>
        if bit c.param0 (k + 1) then BitVec.ofNat 8 (c.f 54 1) else (s.part c.partition).routes.getD k 0) ∧
  (∀ s f tag c v, Waits s f.val tag 0x41 c → s.reads f.val c.partition = true → c.f 52 1 = 0 →
    Runs (.traceFlush f tag v) s fun t => t.cmd f.val tag = some { c with started := true, work := { c.work with startedAt := s.t, stage := 1 } } ∧
      Only [.fns] s t) ∧
  (∀ s f tag c v, Waits s f.val tag 0x41 c → s.owns f.val c.partition = true → c.f 52 1 = 2 → c.partition < 64 →
    Runs (.traceFlush f tag v) s fun t => Answers s t f.val c
      { r0 := ((s.part c.partition).blocks.filter fun b => decide (b.seq.toNat ≤ c.param0)).length }) ∧
  (∀ s f tag c, s.cmd f.val tag = some c → c.op = 0x41 → c.started = true → c.work.stage = 1 →
    (s.part c.partition).drained c.work.r1 = true → (commitBlock c.partition (shedQueue c.partition s)).isSome = true →
    Runs (.traceFlushDrained f tag) s fun t => Answers s t f.val c { r0 := sat 0xFFFFFFFF c.work.r0 })

/-- The trace port: its link, its timers, its frames and the ends of gaps (R697 to R708, R719 to R743). From which
phase on the link and the keepalives run is log entry 76, whose turn it is log entry 59, the twin's records log entry 62, a bad
record of the write queue log entry 12. -/
def Obligations.TracePortActs : Prop :=
  (∀ s p fr, (s.part p.val).frame = some fr → s.wale.portUp = true → s.after fr.since 10 = true →
    exec (.traceFrameTimeout p) s = .next (settle (checkSwitch p.val (periodicReset p.val (sendWaiting p.val (closeCoded p.val
      (if fr.coded then endSpan p.val s else s))))))) ∧
  (∀ s, s.boot.phase = .ready → s.wale.portUp = true → s.after s.wale.lastFrame 1000 = true → s.fires = [] →
    Runs .keepaliveTimer s fun t => t.wale = { s.wale with portSeq := s.wale.portSeq + 1, restart := false, lastFrame := s.t } ∧
      t.out = s.out ++ [.frame (s.etherFrame (s.frameHeader 3 0xFF false 0 8 0 s.t) (zeros 8))] ∧
      Only [.wale, .out, .always] s t) ∧
  (∀ s v q b rest, s.wale.portUp = true → s.wale.dumpQueue = (q, b) :: rest → (List.range 64).any s.hasFrame = false →
    s.fires = [] →
    Runs (.traceFrameSend (.tier v)) s fun t => t.wale.dumpQueue = rest ∧ t.wale.lastDump = true ∧ t.wale.portSeq = s.wale.portSeq + 1 ∧
      Only [.wale, .out, .always] s t) ∧
  (∀ s, s.wale.portUp = true → s.wale.dumpQueue = [] →
    exec (.traceFrameSend (.tier .good)) s = .next (settle (sendTurn s))) ∧
  (∀ s p, s.wale.portUp = false →
    exec (.traceFrameSend (.queue p)) s = .next (settle (shedQueue p.val (spoilQueue p.val s)))) ∧
  (∀ s p g, (s.part p.val).gapPort = some g → s.portRoom p.val = true →
    exec (.gapEnd p false) s = .next (settle (endPortGap p.val g s))) ∧
  (∀ s p b rest, (s.part p.val).spill = b :: rest → s.tierRoom p.val b.used = true →
    exec (.spillReturn p) s = .next (settle (checkSwitch p.val (pumpPort p.val
      (modPart p.val (fun x => { x with spill := rest, tier := x.tier ++ b.recs }) s))))) ∧
  (∀ s l, (s.lnk l.val).link = .active → (l.val = 8 → s.plait.pair = .paired ∧ (s.lnk l.val).recResumed = false) →
    s.after (s.lnk l.val).recAt 10000 = true →
    exec (.timesyncRecordTimer l) s = .next (settle (timesyncRec l.val false s))) ∧
  (∀ s, s.wale.portUp = false → s.clk.wale = true → s.waleStarts = true → s.fires = [] →
    exec .waleLinkUp s = .next { s with wale := { s.wale with portUp := true, restart := true, lastFrame := s.t } }) ∧
  (∀ s, s.wale.portUp = true → Runs .waleLinkDown s fun t => t.wale = { s.wale with portUp := false, downAt := s.t })

/-- COUNTER_CONFIG, COUNTER_LATCH and the deferred latches (R757 to R776); a buffer is written to its end at most (R281). -/
def Obligations.CountersAct : Prop :=
  (∀ s f tag data c, Waits s f.val tag 0x50 c → s.owns f.val c.partition = true → c.partition < 64 →
    (started f.val tag s).barred { c with started := true } = false → (s.part c.partition).cfg = none →
    (bit (c.f 52 1) 1 = true ∨ (s.newSels c data).any (fun e => badSel e.2) = false) → bit (c.f 52 1) 0 = false →
    Runs (.counterConfig f tag data) s fun t => (t.part c.partition).cfg = some
      { fn := f.val, tag := tag, sels := s.newSels c data, latchNow := false, deadline := c.fetched + orDefault (c.f 54 2) 100 * Config.ticksPerMs } ∧
      Only [.fns, .parts, .always] s t) ∧
  (∀ s p c, (s.part p.val).cfg = some c → c.latchNow = false → c.deadline ≤ s.t → s.fires = [] →
    ((s.part p.val).deferred.any fun d => d.forConfig) = false → s.latchAllowed p.val = false →
    Runs (.counterConfigWaitExpiry p) s fun t => (t.part p.val).deferred = (s.part p.val).deferred ++
      [{ due := s.latchDue p.val, lkind := 4, fn := c.fn, tag := c.tag, mask := 0, record := true, forConfig := true }] ∧
      Only [.parts] s t) ∧
  (∀ s p c, (s.part p.val).cfg = some c → c.latchNow = false → c.deadline ≤ s.t → (s.part p.val).deferred = [] →
    s.latchAllowed p.val = true →
    exec (.counterConfigWaitExpiry p) s = .next (settle (takeLatch p.val { lkind := 4, hostTag := 0, own := true } s))) ∧
  (∀ s p d rest, (s.part p.val).deferred = d :: rest → d.due ≤ s.t → s.latchAllowed p.val = true →
    exec (.deferredLatchPoint p) s = .next (settle (deferredTake p.val d (modPart p.val (fun x => { x with deferred := rest }) s)))) ∧
  (∀ s f tag c, Waits s f.val tag 0x51 c → c.f 52 1 = 1 → s.readsAlways f.val = true → c.work.dmaError = false →
    Runs (.counterLatch f tag) s fun t => Answers s t f.val c { r0 := 132, r1 := s.t % 2 ^ 32 } ∧
      Out.hostWrite (fnPort f.val) (BitVec.ofNat 64 c.bufAddr) ((s.alwaysBlock f.val).take c.bufWindow) ∈ t.out) ∧
  (∀ s f tag c, Waits s f.val tag 0x51 c → c.f 52 1 ≠ 1 → s.readsCounters f.val c.partition = true → c.partition < 64 →
    s.latchAllowed c.partition = false →
    Runs (.counterLatch f tag) s fun t => (t.part c.partition).deferred = (s.part c.partition).deferred ++
      [{ due := s.latchDue c.partition, lkind := 2, fn := f.val, tag := tag, mask := BitVec.ofNat 64 (c.f 20 8), record := bit (c.f 53 1) 0, forConfig := false }] ∧
      Only [.fns, .parts] s t)

/-! ### Tenancy and billing -/

/-- CLAIM, OBSERVE and RELEASE change the ownership table and answer OK (R330 to R337). Who is a rival is log entry
49, how long a revocation lasts log entry 18. -/
def Obligations.ClaimObserveReleaseAct : Prop :=
  (∀ s f tag c, Waits s f.val tag 0x02 c → c.partition < 64 → s.notAllowed f.val c.partition = false →
    s.twinHolds c.partition = false → (s.part c.partition).owner = none → Settled s c.partition →
    s.revoking c.partition = false → s.rivals 0x02 f.val c = 0 →
    Runs (.claim f tag) s fun t => (t.part c.partition).owner = some f.val ∧
      (t.part c.partition).observers = (s.part c.partition).observers.filter (· != f.val) ∧
      Answers s t f.val c { r0 := (s.part c.partition).cuts.length }) ∧
  (∀ s f tag c, Waits s f.val tag 0x04 c → c.partition < 64 → s.notAllowed f.val c.partition = false →
    s.twinHolds c.partition = false → s.reads f.val c.partition = false →
    (s.part c.partition).observers.length + s.rivals 0x04 f.val c < Config.maxObservers →
    Runs (.observe f tag) s fun t => (t.part c.partition).observers = (s.part c.partition).observers ++ [f.val] ∧
      Answers s t f.val c {}) ∧
  (∀ s f tag c, Waits s f.val tag 0x03 c → c.f 52 1 ≠ 1 → s.owns f.val c.partition = true →
    Runs (.release f tag) s fun t => t.cmd f.val tag =
      some { c with started := true, work := { c.work with startedAt := s.t, stage := 1 } }) ∧
  (∀ s f tag c, s.cmd f.val tag = some c → c.op = 0x03 → c.work.stage = 1 → s.fires = [] → c.partition < 64 →
    ((earlier (s.fn f.val).inflight tag).any fun x => !x.heldDup && x.usesPartition && x.partition == c.partition) = false →
    s.owns f.val c.partition = true → Settled s c.partition → s.osier.runs = [] →
    Runs (.releaseTakesEffect f tag) s fun t => (t.part c.partition).owner = none ∧ (t.part c.partition).inactive = none ∧
      Answers s t f.val c {})

/-- GRANT, the meters, the epochs and the wall clock (R340 to R348, R356 to R376). What one edge is, is log entry 43;
that RESULT0 is 0xFF for the actions 5 to 7, log entry 17. -/
def Obligations.GrantsAndEpochsAct : Prop :=
  (∀ s f tag c, Waits s f.val tag 0x05 c → s.grantWaits (afterReset f.val) tag = false → s.grantCheck f.val c = none →
    s.grantAlready c = false → c.f 53 1 < 64 →
    (c.f 52 1 = 5 → Runs (.grant f tag) s fun t =>
      (t.ses (c.f 53 1)).allow = BitVec.ofNat 64 (c.param0 + 2 ^ 32 * c.param1) ∧ Answers s t f.val c { r0 := 0xFF }) ∧
    (c.f 52 1 = 6 → Runs (.grant f tag) s fun t => (t.ses (c.f 53 1)).globalView = true ∧ Answers s t f.val c { r0 := 0xFF }) ∧
    (c.f 52 1 = 7 → Runs (.grant f tag) s fun t => (t.ses (c.f 53 1)).globalView = false ∧ Answers s t f.val c { r0 := 0xFF })) ∧
  (∀ s f tag c, Waits s f.val tag 0x05 c → s.grantWaits (afterReset f.val) tag = false → s.grantCheck f.val c = none →
    s.grantAlready c = false → c.f 52 1 = 3 → c.partition < 64 → s.revoking c.partition = false →
    Runs (.grant f tag) s fun t => (t.part c.partition).observers = (s.part c.partition).observers ++ [c.f 53 1] ∧
      Answers s t f.val c { r0 := (s.part c.partition).owner.getD 0xFF }) ∧
  (∀ s f tag c, Waits s f.val tag 0x90 c → s.err.stopped = false → c.f 52 1 = 0 → c.f 53 1 ≠ 0xFE →
    s.seesMeters f.val (c.f 53 1) = true →
    Runs (.meterRead f tag) s fun t => Answers s t f.val c { r0 := s.billing.epoch.toNat, r1 := 1 } ∧
      Out.hostWrite (fnPort f.val) (BitVec.ofNat 64 c.bufAddr) ((s.meterBlock (c.f 53 1)).take c.bufWindow) ∈ t.out) ∧
  (∀ s f tag c, Waits s f.val tag 0x91 c → s.err.stopped = false → s.isArbiterPm f.val = true → s.billing.epoch ≠ 0xFFFFFFFF →
    s.closedNow 1 = none →
    Runs (.epochClose f tag) s fun t => t.billing.epoch = s.billing.epoch + 1 ∧
      Answers s t f.val c { r0 := s.billing.epoch.toNat, r1 := s.billing.epoch.toNat + 1 }) ∧
  (∀ s f tag c e, Waits s f.val tag 0x91 c → s.err.stopped = false → s.isArbiterPm f.val = true → s.closedNow 1 = some e →
    e.epoch ≠ 0xFFFFFFFF →
    Runs (.epochClose f tag) s fun t => t.billing.epoch = s.billing.epoch ∧
      Answers s t f.val c { r0 := e.epoch.toNat, r1 := e.epoch.toNat + 1 }) ∧
  (∀ s f tag c, Waits s f.val tag 0x92 c → s.err.stopped = false → s.isArbiterPm f.val = true → bit (c.f 52 1) 0 = false →
    bit (c.f 52 1) 1 = true →
    Runs (.setWallclock f tag) s fun t => t.billing.periodS = BitVec.ofNat 32 (c.f 56 4) ∧
      t.billing.originS = BitVec.ofNat 32 c.param2 ∧ t.billing.epoch = s.billing.epoch ∧ Answers s t f.val c {}) ∧
  (∀ s f tag c, Waits s f.val tag 0x92 c → s.err.stopped = false → s.isArbiterPm f.val = true → bit (c.f 52 1) 0 = true →
    Runs (.setWallclock f tag) s fun t => t.billing.wallSet = true ∧ t.billing.wall = BitVec.ofNat 64 (c.f 20 8) ∧
      t.billing.wallAt = s.now ∧ Answers s t f.val c {}) ∧
  (∀ s, s.boundaryDue = true → s.billing.epoch ≠ 0xFFFFFFFF → s.closedNow 0 = none → s.fires = [] →
    Runs .epochAutoClose s fun t => t.billing.epoch = s.billing.epoch + 1 ∧ t.now = s.now) ∧
  (∀ s, s.boundaryDue = true → (s.closedNow 0).isSome = true → s.fires = [] →
    Runs .epochAutoClose s fun t => t.billing.epoch = s.billing.epoch ∧ t.now = s.now)

/-! ### Run control -/

/-- HALT, RESUME and STEP: the hold, and the messages to every die that has units of the command (R551, R557 to R573). -/
def Obligations.RunControlActs : Prop :=
  (∀ s f tag c, Starts s f.val tag 0x10 c → c.partition < 64 → (s.part c.partition).held = false →
    Runs (.halt f tag) s fun t => (t.part c.partition).held = true ∧ t.mem = s.mem) ∧
  (∀ s f tag c, Starts s f.val tag 0x11 c → s.runBlocked f.val tag = false → c.f 52 1 ≠ 1 →
    Runs (.resume f tag) s fun t => t.mem = s.mem ∧ ∀ x k, (x, k) ∈ (s.targets c true).zipIdx → x.1 < 8 → s.inReach x = true →
      Sent t x.1 0 2 x.2.1 x.2.2.1 c.partition tag (leBytes 4 k) (.cmd f.val tag x.2.2.2 k)) ∧
  (∀ s f tag c, Starts s f.val tag 0x12 c → s.runBlocked f.val tag = false →
    Runs (.step f tag) s fun t => t.mem = s.mem ∧ ∀ x k, (x, k) ∈ (s.targets c true).zipIdx → x.1 < 8 → s.inReach x = true →
      Sent t x.1 0 3 x.2.1 x.2.2.1 c.partition tag
        (leBytes 4 k ++ [BitVec.ofNat 8 (c.f 52 1), BitVec.ofNat 8 (c.f 53 1)]) (.cmd f.val tag x.2.2.2 k))

/-- Breakpoints and watchpoints: the register messages of every unit of the command (R574 to R580). -/
def Obligations.BreakAndWatchAct : Prop :=
  (∀ s f tag c, Starts s f.val tag 0x13 c → Runs (.setBreak f tag) s fun t => ∀ x ∈ s.targets c false, x.1 < 8 → s.inReach x = true →
    ∀ m ∈ breakParts x (c.f 52 1) (c.f 56 8) (c.f 53 1), SentFor t f.val tag c.partition m) ∧
  (∀ s f tag c, Starts s f.val tag 0x14 c → Runs (.clearBreak f tag) s fun t => ∀ x ∈ s.targets c false, x.1 < 8 → s.inReach x = true →
    SentFor t f.val tag c.partition (if c.f 52 1 = 0xFF then regWrite x 0x0108 (zeros (4 * 29))
      else regWrite x (0x0108 + 0x10 * c.f 52 1) (zeros 4))) ∧
  (∀ s f tag data c, Starts s f.val tag 0x15 c → Runs (.setWatch f tag data) s fun t => ∀ x ∈ s.targets c false, x.1 < 8 → s.inReach x = true →
    ∀ m ∈ watchParts x (c.f 52 1) (slice data 0 40), SentFor t f.val tag c.partition m) ∧
  (∀ s f tag c, Starts s f.val tag 0x16 c → Runs (.clearWatch f tag) s fun t => ∀ x ∈ s.targets c false, x.1 < 8 → s.inReach x = true →
    SentFor t f.val tag c.partition (if c.f 52 1 = 0xFF then regWrite x 0x0210 (zeros (4 * 49))
      else regWrite x (0x0210 + 0x40 * c.f 52 1) (zeros 4)))

/-- Register and memory access: one message to every unit for every piece of the data (R555, R556, R581 to R583). -/
def Obligations.UnitAccessActs : Prop :=
  (∀ s f tag c, Starts s f.val tag 0x20 c → Runs (.readUnitRegs f tag) s fun t => ∀ x ∈ s.targets c false, x.1 < 8 → s.inReach x = true →
    ∀ o n, (o, n) ∈ chunksOf c.length 4092 →
      SentFor t f.val tag c.partition (regRead x (c.param0 % 65536 + o) (n / 4))) ∧
  (∀ s f tag data c, Starts s f.val tag 0x21 c → Runs (.writeUnitRegs f tag data) s fun t =>
    ∀ x ∈ s.targets c true, x.1 < 8 → s.inReach x = true → ∀ o n, (o, n) ∈ chunksOf c.length 4088 →
      SentFor t f.val tag c.partition (regWrite x (c.param0 % 65536 + o) (slice data o n))) ∧
  (∀ s f tag c, Starts s f.val tag 0x22 c → Runs (.readUnitMem f tag) s fun t => ∀ x ∈ s.targets c false, x.1 < 8 → s.inReach x = true →
    ∀ o n, (o, n) ∈ chunksOf (s.memLength c) 4092 →
      ∃ k, Sent t x.1 2 1 x.2.1 false c.partition tag
        ([BitVec.ofNat 8 c.region, 0, 0, 0] ++ leBytes 4 n ++ leBytes 8 (c.memOffset + o)) (.cmd f.val tag x.2.2.2 k)) ∧
  (∀ s f tag data c, Starts s f.val tag 0x23 c → Runs (.writeUnitMem f tag data) s fun t =>
    ∀ x ∈ s.targets c false, x.1 < 8 → s.inReach x = true → ∀ o n, (o, n) ∈ chunksOf c.length 4080 →
      ∃ k, Sent t x.1 2 2 x.2.1 false c.partition tag
        (leBytes 4 k ++ ([BitVec.ofNat 8 c.region, 0, 0, 0] ++ leBytes 8 (c.memOffset + o) ++ slice data o n))
        (.cmd f.val tag x.2.2.2 k))

/-- The unit timeouts declare the unit UNRESPONSIVE; a halt record is held (R543 to R545, R561 to R568). That an armed injection
hits it as it is written is log entry 22. -/
def Obligations.UnitTimeoutsAndRecordsAct : Prop :=
  (∀ s u d, (s.unit u.toNat).haltDeadline = some d → d ≤ s.t →
    Runs (.haltTimeoutExpiry u) s fun t => (t.unit u.toNat).view = .unresponsive ∧ t.mem = s.mem) ∧
  (∀ s u d, s.stepDue u.toNat = some d → d ≤ s.t →
    Runs (.stepTimeoutExpiry u) s fun t => (t.unit u.toNat).view = .unresponsive ∧ t.mem = s.mem) ∧
  (∀ s n m, s.takesVc3 n.val m = true → 40 ≤ m.data.length →
    Runs (.haltRecord n m) s fun t => (t.unit (msgUnit n.val m)).record =
      some { data := m.data, synthesized := false, poisoned := s.injectHit, stopHub := s.hubTime n.val (field m.data 8 8), haltedHub := s.hubTime n.val (field m.data 16 8) } ∧ t.mem = s.mem)

/-! ### Programs and the image -/

/-- LOAD_MODEL, RUN_PROGRAM and STOP_PROGRAM (spec/15_osier_programming_model R807 to R826, R840). An injection that hits the
library is log entry 22. -/
def Obligations.LibraryAndRunsAct : Prop :=
  (∀ s f tag data c, Waits s f.val tag 0x60 c → s.owns f.val c.partition = true → c.f 52 1 = 0 →
    match s.loadSection (slice data 0 c.length) ((Config.freeBits s.free).toNat % 2 ^ 32) with
    | .error r => Runs (.loadModel f tag data) s fun t => t.osier = s.osier ∧ Answers s t f.val c { status := stModelRejected, r1 := (slice data 0 c.length).length, r2 := r.reason, r3 := s.libFreeKib }
    | .ok x => match addEntry s.osier.lib s.libRoom (x.type == 0x30) { x.entry with fromImage := false, addedBy := some c.partition } with
      | .error r => Runs (.loadModel f tag data) s fun t => t.osier = s.osier ∧ Answers s t f.val c { status := rejectStatus r, r0 := x.inst, r1 := (slice data 0 c.length).length, r2 := r, r3 := s.libFreeKib }
      | .ok lib => Runs (.loadModel f tag data) s fun t => t.osier = (putLib lib (nextFree s)).osier ∧
          (s.err.armed = false → t.osier = { s.osier with lib := lib }) ∧
          Answers s t f.val c { already := (s.lib x.inst).isSome, r0 := x.inst, r1 := (slice data 0 c.length).length, r3 := t.libFreeKib }) ∧
  (∀ s f tag data c e, Waits s f.val tag 0x60 c → s.owns f.val c.partition = true → c.f 52 1 ≠ 0 → s.lib (c.f 53 1) = some e →
    e.fromImage = false → e.addedBy = some c.partition → s.libInUse (c.f 53 1) = false →
    Runs (.loadModel f tag data) s fun t => t.osier.lib = s.osier.lib.filter (fun x => x.index != c.f 53 1) ∧
      ∃ k, Answers s t f.val c { r0 := c.f 53 1, r3 := k }) ∧
  (∀ s f tag c, Waits s f.val tag 0x61 c → s.runCheck f.val c = none → s.osier.nextRun < 2 ^ 32 →
    ∃ q u, startRun { index := c.f 52 1, role := roleProgram, p := c.partition, session := some f.val, hostOut := bit (c.f 53 1) 0, pred := bit (c.f 53 1) 1, limit := c.f 56 8, bufAddr := c.bufAddr, bufWindow := c.bufWindow, params := [c.param0, c.param1, c.param2] } (started f.val tag s) = some (q, u) ∧
      q.id = BitVec.ofNat 32 s.osier.nextRun ∧ q.session = some f.val ∧ q.index = c.f 52 1 ∧ u.osier.nextRun = s.osier.nextRun + 1 ∧
      exec (.runProgram f tag) s = .next (settle (complete f.val tag { r0 := q.id.toNat, r1 := q.core } u))) ∧
  (∀ s f tag c q, Waits s f.val tag 0x62 c → c.f 52 1 = 0 → s.run (BitVec.ofNat 32 (c.f 56 4)) = some q → q.role = roleProgram →
    (q.session = some f.val ∨ s.owns f.val q.partition = true) →
    exec (.stopProgram f tag) s = .next (settle (complete f.val tag ((started f.val tag s).ending q runStopped 0x10).res
      (endRun q runStopped 0x10 (started f.val tag s))))) ∧
  (∀ s f tag c q, Waits s f.val tag 0x62 c → 2 ≤ c.f 52 1 → s.run (BitVec.ofNat 32 (c.f 56 4)) = some q →
    (q.session = some f.val ∨ s.reads f.val q.partition = true) →
    Runs (.stopProgram f tag) s fun t => Answers s t f.val c (s.liveRes q) ∧ t.osier = s.osier)

/-- One word of a program, the end of a slice, a wake and a refused host write (spec/15_osier_programming_model R783
to R798, R822 to R832; spec/16_osier_instruction_set; spec/17_recurrent_streams). The turns, and that the run first ready takes an
idle core, are log entry 55. -/
def Obligations.OsierStepsAct : Prop :=
  (∀ s (core : CoreNo) cycles poison tdo r q e, core.val < 16 → s.running core.val = some r →
    (takeCore core.val r.id s).run r.id = some q → (takeCore core.val r.id s).lib r.index = some e →
    exec (.osierWord core cycles poison tdo) s = .next (settle (runStep core.val cycles poison.val q e (takeCore core.val r.id s)))) ∧
  (∀ s (core : CoreNo) q r, (Tab.get? s.osier.holders core.val).bind s.run = some q → q.ready = true → sliceCycles ≤ q.heldFor →
    s.fires = [] →
    s.nextRun q.core ((s.placedOn q.core).filter fun r => r.ready && r.id != q.id && decide (r.rank ≤ q.rank)) = some r →
    Runs (.sliceLimit core) s fun t => Only [.osier] s t ∧ t.osier.lib = s.osier.lib ∧
      Tab.get? t.osier.holders q.core = some r.id) ∧
  (∀ s run q t0, s.run run = some q → q.wait = .sleep t0 → t0.toNat ≤ s.t → s.fires = [] →
    Runs (.sleepWake run) s fun t => t.run run = some { q with wait := .none, readyAt := s.t } ∧ Only [.osier] s t) ∧
  (∀ s run q, s.run run = some q → q.hostOut = true →
    exec (.hostWriteError run) s = .next (settle (endRun q runException exHostWrite s)))

/-- The coder's answers and its stall, the adaptor's timer and NSL7_SCAN_CTRL (spec/18_learned_trace_coding R916 to
R942, spec/20_faults_and_containment R995, R999; spec/15_osier_programming_model R841 to R844; spec/07_nalsel_link R434, R437).
What a read meets is log entry 12, an injection log entry 22; what becomes of calls under way when the adaptor is changed, log
entry 56; the bytes counted, log entry 83. -/
def Obligations.CoderAndAdaptorAct : Prop :=
  (∀ s (p : Part) n q r l, (s.part p.val).coder.posted = some n → (s.part p.val).coder.run.bind s.run = some q →
    (s.part p.val).tier = r :: l → (s.part p.val).coder.coded = true → (s.part p.val).coder.exch.toNat ≤ q.inTail.toNat →
    ((s.part p.val).coder.bad = true → exec (.coderAnswerRead p .good) s = exec (.coderAnswerRead p .bad) s) ∧
    exec (.coderAnswerRead p .bad) s = .next (settle (endRun q runException exPoison (uncorrectableItem false 5 q.core q.id.toNat 2 s)))) ∧
  (∀ s (p : Part) n q r l te td, (s.part p.val).coder.posted = some n → (s.part p.val).coder.run.bind s.run = some q →
    (s.part p.val).tier = r :: l → (s.part p.val).coder.coded = true → (s.part p.val).coder.exch.toNat ≤ q.inTail.toNat →
    (s.part p.val).coder.bad = false → answerTables q (s.part p.val).coder.exch.toNat = some (te, td) →
    let u := spendCreel (spoilCoder s.injectHit p.val (codeRecord p.val te td r s))
    (u.part p.val).coder.frames < periodicFrames →
    exec (.coderAnswerRead p .good) s = .next (settle (checkSwitch p.val (pumpPort p.val u)))) ∧
  (∀ s (p : Part) n, (s.part p.val).coder.posted = some n →
    exec (.coderAnswerRead p .corrected) s = exec (.coderAnswerRead p .good) (correctedWord false s)) ∧
  (∀ s (p : Part) n q, (s.part p.val).coder.posted = some n → (s.part p.val).coder.run.bind s.run = some q →
    (s.part p.val).coder.coded = true → s.after n 1000 = true → q.inTail.toNat < (s.part p.val).coder.exch.toNat →
    exec (.codingStall p) s = .next (settle (checkSwitch p.val (syncCoder p.val 6
      (modPart p.val (fun x => { x with coder := { x.coder with stalled := true } }) s))))) ∧
  (∀ s c p, s.osier.call = some c → s.unitPart c.unit = some p → c.op ≠ 6 → c.startedAt + s.haltTimeout p ≤ s.t →
    exec .adaptorOperationTimeout s = .next (settle (callEnds none s))) ∧
  (∀ s (by_ : HostPort) value, s.barOpen (64 + by_.val) = true → s.isArbiterPm (64 + by_.val) = true → value.getLsbD 16 = false →
    exec (.scanCtrlWrite by_ value) s = .next (settle (callsDropped (s.osier.call.toList ++ s.osier.calls)
      (bumpAlways (44 + by_.val) 4
        { s with osier := { s.osier with scanCtrl := value &&& 0xFFFF, adaptorReady := false, calls := [], call := none, adaptor := none } }))))

/-- Where the coder's answer, its stall, the adaptor's timer and NSL7_SCAN_CTRL complete: the conditions are on the state and
the operands alone (spec/18_learned_trace_coding R925, R926, R939; spec/07_nalsel_link R436, R437). An injection is log entry 22;
the bytes counted are log entry 83. -/
def Obligations.CoderAndAdaptorComplete : Prop :=
  (∀ s (p : Part) n q r l, (s.part p.val).coder.posted = some n → (s.part p.val).coder.run.bind s.run = some q →
    (s.part p.val).tier = r :: l → (s.part p.val).coder.coded = true → (s.part p.val).coder.exch.toNat ≤ q.inTail.toNat →
    (s.part p.val).coder.bad = false →
    ∃ t, exec (.coderAnswerRead p .good) s = .next t ∧
      let a := answerTables q (s.part p.val).coder.exch.toNat
      let u := spendCreel (spoilCoder s.injectHit p.val
        (codeRecord p.val (a.getD (uniformTable, uniformTable)).1 (a.getD (uniformTable, uniformTable)).2 r
        (if a.isNone then modPart p.val (fun x => { x with coder := { x.coder with codeBad := satInc x.coder.codeBad } }) s else s)))
      t = settle (checkSwitch p.val
        (if periodicFrames ≤ (u.part p.val).coder.frames then forceReset p.val 9 u else pumpPort p.val u))) ∧
  (∀ s (p : Part) n q, (s.part p.val).coder.posted = some n → (s.part p.val).coder.run.bind s.run = some q →
    (s.part p.val).coder.coded = true → s.after n 1000 = true → q.inTail.toNat < (s.part p.val).coder.exch.toNat →
    ∃ t, exec (.codingStall p) s = .next t ∧
      t = settle (checkSwitch p.val (syncCoder p.val 6
        (modPart p.val (fun x => { x with coder := { x.coder with stalled := true } }) s)))) ∧
  (∀ s c p, s.osier.call = some c → s.unitPart c.unit = some p → c.op ≠ 6 → c.startedAt + s.haltTimeout p ≤ s.t →
    ∃ t, exec .adaptorOperationTimeout s = .next t ∧
      t = settle (noteRuns (pumpAdaptor (callFailed c none { s with osier := { s.osier with call := none } })))) ∧
  (∀ s (by_ : HostPort) value, s.barOpen (64 + by_.val) = true → s.isArbiterPm (64 + by_.val) = true → value.getLsbD 16 = false →
    s.osier.call = none → s.osier.calls = [] → s.fires = [] →
    ∃ t, exec (.scanCtrlWrite by_ value) s = .next t ∧
      t = bumpAlways (44 + by_.val) 4
        { s with osier := { s.osier with scanCtrl := value &&& 0xFFFF, adaptorReady := false, adaptor := none } }) ∧
  (∀ s (by_ : HostPort) (value : W32), s.barOpen (64 + by_.val) = true → s.isArbiterPm (64 + by_.val) = true →
    value.getLsbD 16 = true → s.osier.scanCtrl.getLsbD 16 = true → value.toNat / 256 % 256 = s.adaptorIndex → s.fires = [] →
    ∃ t, exec (.scanCtrlWrite by_ value) s = .next t ∧
      t = bumpAlways (44 + by_.val) 4 { s with osier := { s.osier with scanCtrl := (value &&& 0xFFFF) ||| 0x10000 } })

/-- The write engine of the image: its start, its end, the header checks, and the check of the whole image
(spec/04_weave_and_reweave R189 to R217, R253; spec/19_twin_pairing R973). The two reads and their one row are log entry 80; the
word ERR_OFFSET of a rejection without an offset, and the order of these rejections, log entry 79. -/
def Obligations.ImageLoadActs : Prop :=
  (∀ s (n : HostPort), s.barOpen (64 + n.val) = true → s.enabledPort n.val = true → (List.range 4).any s.loading = false →
    s.boot.phase = .awaitWeave → s.imageFromTwin = false → 64 ≤ (s.host n.val).wea.len.toNat →
    (s.host n.val).wea.len.toNat ≤ imageMax 0 → s.fires = [] →
    Runs (.weaLoadStart n) s fun t => (t.host n.val).wea = { (s.host n.val).wea with state := 1 } ∧
      t.out = s.out ++ [.imageRead n.val (s.host n.val).wea.addr 64] ∧ Only [.hosts, .out, .always] s t) ∧
  (∀ s (n : HostPort), s.barOpen (64 + n.val) = true → s.enabledPort n.val = true → s.loading n.val = false →
    (s.boot.phase ≠ .awaitWeave ∨ s.imageFromTwin = true) → s.fires = [] →
    Runs (.weaLoadStart n) s fun t =>
      (t.host n.val).wea = { (s.host n.val).wea with state := 4, reason := BitVec.ofNat 8 rsNotAwaiting, errOffset := 0 } ∧
      t.weave = s.weave) ∧
  (∀ s (n : HostPort), s.barOpen (64 + n.val) = true → s.loading n.val = true → s.fires = [] →
    Runs (.weaLoadAbort n) s fun t =>
      (t.host n.val).wea = { (s.host n.val).wea with state := 4, reason := BitVec.ofNat 8 rsAborted, errOffset := 0 } ∧
      ∀ img, t.weave.checking ≠ some (some n.val, img)) ∧
  (∀ s (n : HostPort) bytes, (s.host n.val).wea.state = 1 → s.fires = [] →
    Runs (.imageFetchEnd n bytes true) s fun t =>
      (t.host n.val).wea = { (s.host n.val).wea with state := 4, reason := BitVec.ofNat 8 rsFetchError, errOffset := 0 }) ∧
  (∀ s (n : HostPort) bytes, (s.host n.val).wea.state = 1 →
    headerReject (slice bytes 0 (s.host n.val).wea.len.toNat) (s.host n.val).wea.len.toNat s.id.stepping.toNat = none →
    field (slice bytes 0 (s.host n.val).wea.len.toNat) 6 2 = 0 → s.fires = [] →
    Runs (.imageFetchEnd n bytes false) s fun t => (t.host n.val).wea = { (s.host n.val).wea with state := 2 } ∧
      t.weave = { s.weave with checking := some (some n.val, slice bytes 0 (s.host n.val).wea.len.toNat) } ∧
      t.out = s.out ++ [.imageRead n.val ((s.host n.val).wea.addr + 64) ((s.host n.val).wea.len.toNat - 64)] ∧
      Only [.weave, .hosts, .always, .out] s t) ∧
  (∀ s by_ img, s.weave.checking = some (by_, img) →
    let c := s.checkImage { kind := 0, p := 0, ports := 0 } img.length none ((Config.freeBits s.free).toNat % 2 ^ 32) img
    let u := applyPatch c.patched (nextFree s)
    match c.result with
    | .error r => exec .imageCheckDone s = .next (settle (imageRejected by_ r u))
    | .ok (l, lib) => ∀ n, by_ = some n → exec .imageCheckDone s = .next (settle (signal (64 + n) 2 (modWea n (fun w => { w with state := 3 }) (acceptImage by_ c l lib img u)))))

/-- REWEAVE stages its image; REWEAVE_COMMIT opens a commit or says why it does not (spec/04_weave_and_reweave R210,
R214, R222 to R234, R247; spec/02_clocks_resets_bringup R117; spec/20_faults_and_containment R1003). An injection that hits the
library is log entry 22. -/
def Obligations.ReweaveActs : Prop :=
  (∀ s f tag data c, Waits s f.val tag 0x70 c → s.reweaveCheck f.val c true = none →
    Runs (.reweave f tag data) s fun t => Only [.fns, .always] s t ∧ t.cmd f.val tag =
      some { c with started := true, work := { c.work with startedAt := s.t, stage := 1, data := slice data 0 c.length } }) ∧
  (∀ (s : State) (f : Fn) (tag : W32) (c : Cmd), s.cmd f.val tag = some c → c.op = 0x70 → c.started = true → c.work.stage = 1 → c.scope = 1 →
    c.partition < 64 → (s.part c.partition).resetPending = false → s.err.stopped = false → s.fires = [] →
    match (s.checkImage { kind := c.scope, p := c.partition, ports := c.ports } c.length (some c.partition)
      ((Config.freeBits s.free).toNat % 2 ^ 32) c.work.data).result with
    | .error e => Runs (.reweaveCheckEnd f tag) s fun t => Answers s t f.val c { status := rejectStatus e.reason, r0 := s.heldGen c, r1 := c.work.data.length, r2 := e.reason, r3 := e.offset } ∧
        Only [.fns, .out, .always, .free] s t
    | .ok (l, lib) => Runs (.reweaveCheckEnd f tag) s fun t => t.osier = (putLib lib (nextFree s)).osier ∧
        (t.part c.partition).inactive = some { weft := ((payloadOf l 0x20 c.partition).map Mem.ofBytes).getD [], gen := nextGen (s.part c.partition).lastGen, imageId := imageIdOf c.work.data } ∧
        (t.part c.partition).active = (s.part c.partition).active ∧
        (t.part c.partition).lastGen = nextGen (s.part c.partition).lastGen ∧ t.cmd f.val tag = none) ∧
  (∀ s f tag c, s.cmd f.val tag = some c → c.scope = 1 → (s.part c.partition).resetPending = true → s.fires = [] →
    exec (.reweaveCheckEnd f tag) s = .next s) ∧
  (∀ s f tag c, s.cmd f.val tag = some c → c.op = 0x70 → c.started = true → c.work.stage = 1 →
    (c.scope = 1 → (s.part c.partition).resetPending = false) → s.err.stopped = true → s.fires = [] →
    Runs (.reweaveCheckEnd f tag) s fun t => Answers s t f.val c (s.refusal c stBusy) ∧ t.weave = s.weave) ∧
  (∀ s f tag c, Waits s f.val tag 0x71 c → s.reweaveCheck f.val c false = none → c.scope = 1 → c.partition < 64 →
    s.warpOut c = false → s.noPlane c = false → s.genDiffers c = false →
    Runs (.reweaveCommit f tag) s fun t =>
      (t.part c.partition).commit = some (s.newCommit f.val { c with started := true }) ∧ Only [.fns, .parts] s t) ∧
  (∀ s f tag c, Waits s f.val tag 0x71 c → s.reweaveCheck f.val c false = none → c.scope = 2 →
    s.weftOut (s.newCommit f.val { c with started := true }) c = false → s.noPlane c = false → s.genDiffers c = false →
    Runs (.reweaveCommit f tag) s fun t =>
      t = { started f.val tag s with weave := { s.weave with warpCommit := some (s.newCommit f.val { c with started := true }) } }) ∧
  (∀ s f tag c, Waits s f.val tag 0x71 c → s.reweaveCheck f.val c false = none → c.scope = 1 →
    s.warpOut c = false → s.noPlane c = true →
    Runs (.reweaveCommit f tag) s fun t =>
      Answers s t f.val c { status := stImageRejected, r0 := s.activeGen c, r2 := rsNoPlane } ∧ t.parts = s.parts)

/-- A commit of a weft: the switch, the writes of the watchpoint defaults, and the end of the settle time
(spec/04_weave_and_reweave R230 to R243; spec/13_wale_trace_and_time R706). When the model notes the settle point is
log entry 78; that the plane of before stays as the inactive one, log entry 57. -/
def Obligations.WeftCommitsAct : Prop :=
  (∀ s (p : Part) c, (s.part p.val).commit = some c → c.switched = false → c.settled = none → s.t ≤ c.deadline →
    s.settledFor p.val c.fetched = true → s.ctlEdge = false → s.fires = [] →
    Runs (.weftSwitch p) s fun t => (t.part p.val).commit = some { c with settled := some s.t } ∧ Only [.parts] s t ∧
      ∀ q, q ≠ p.val → t.part q = s.part q) ∧
  (∀ s (p : Part) c x new, (s.part p.val).commit = some c → (s.part p.val).inactive = some new → c.settled = some x →
    s.maySwitch p.val c = true →
    exec (.weftSwitch p) s = .next (settle (switchWeft p.val c new s))) ∧
  (∀ s (p : Part) c x new, (s.part p.val).commit = some c → (s.part p.val).inactive = some new → c.settled = some x →
    s.maySwitch p.val c = true →
    Runs (.weftSwitch p) s fun t => (t.part p.val).active = new ∧ (t.part p.val).inactive = some (s.part p.val).active ∧
      (t.part p.val).routes = weftRoutes new.weft ∧ (t.part p.val).oldRoutes = (s.part p.val).routes ∧
      (t.part p.val).switchTs = s.now) ∧
  (∀ s (p : Part) c k, (s.part p.val).commit = some c → c.switched = true → c.unitsLeft = [] → s.fires = [] →
    c.fn < 68 → s.cmd c.fn c.tag = some k →
    Runs (.watchApplyEnd p) s fun t => (t.part p.val).commit = none ∧
      Answers s t c.fn k { r0 := c.gen.toNat, r1 := c.skipped, r3 := c.settleUs }) ∧
  (∀ s (p : Part) c k, (s.part p.val).commit = some c → c.switched = true → 
    (s.part p.val).switchTs.toNat + s.haltTimeout p.val ≤ s.t → s.fires = [] → c.fn < 68 →
    s.cmd c.fn c.tag = some k →
    Runs (.watchApplyEnd p) s fun t => (t.part p.val).commit = none ∧
      Answers s t c.fn k { r0 := c.gen.toNat, r1 := c.skipped + c.unitsLeft.length, r3 := c.settleUs })

/-- A commit of the warp: the switch of the ports' entries, its end, and its settle time (spec/04_weave_and_reweave
R236 to R250). When the model notes the settle point is log entry 78, the generation after ports failed log entry 81.
-/
def Obligations.WarpCommitsAct : Prop :=
  (∀ s c x, s.weave.warpCommit = some c → c.switched = false → c.settled = some x →
    let staged := s.weave.staged.filter fun e => c.portMask.getLsbD e.1
    exec .warpSettle s = .next (settle (setPortsLeft
      ((staged.filter fun e => e.2.entry.enable && (s.port e.1).warp.retrains e.2.entry).map (·.1))
      (each staged (fun e => installPort e.1 e.2.entry)
        { s with weave := { s.weave with warpCommit := some { c with switched := true, previous := staged.map fun e => (e.1, (s.port e.1).warp), affected := s.warpParts c }, staged := s.weave.staged.filter fun e => !c.portMask.getLsbD e.1 } })))) ∧
  (∀ s c, s.weave.warpCommit = some c → c.switched = false → c.settled = none → c.deadline < s.t → s.fires = [] →
    exec .warpSettle s = .next s) ∧
  (∀ s c k, s.weave.warpCommit = some c → c.switched = true →
    (((List.range 8).filter fun n => c.portMask.getLsbD n).all (s.warpPortDone c)) = true →
    c.fn < 68 → s.cmd c.fn c.tag = some k →
    Runs .warpCommitDone s fun t => t.weave.warpCommit = none ∧ t.weave.warpActive = c.gen ∧
      Answers s t c.fn k { status := if c.failedPorts.isEmpty then stOk else stLinkDown, part := !c.failedPorts.isEmpty, r0 := c.gen.toNat, r3 := c.settleUs }) ∧
  (∀ s f tag c k, s.weave.warpCommit = some c → c.fn = f.val → c.tag = tag → c.switched = false → c.settled = none → c.deadline ≤ s.t →
    ((s.warpParts c).all fun p => s.settledFor p c.fetched) = false → s.cmd f.val tag = some k →
    (∀ p < 64, ∀ x, (s.part p).commit = some x → ¬ (x.fn = f.val ∧ x.tag = tag)) →
    Runs (.commitSettleTimeout f tag) s fun t => t.weave.warpCommit = none ∧
      Answers s t f.val k { status := stBusy, r0 := c.oldGen.toNat }) ∧
  (∀ s f tag (p : Part) c k, s.weave.warpCommit = none → (s.part p.val).commit = some c → c.fn = f.val → c.tag = tag → c.switched = false →
    c.settled = none → c.deadline ≤ s.t → s.settledFor p.val c.fetched = false → s.cmd f.val tag = some k →
    Runs (.commitSettleTimeout f tag) s fun t => (t.part p.val).commit = none ∧ t.cmd f.val tag = none ∧
      (t.part p.val).active = (s.part p.val).active)

/-- HANG_REPORT and the detector's work items (R647 to R691, R995, R999). When a scan is due is log entry 87; what a read meets,
log entry 12; an injection that hits the graph, log entry 22. -/
def Obligations.HangDetectorActs : Prop :=
  (∀ s f tag c r, Waits s f.val tag 0x80 c → s.err.stopped = false → s.reads f.val c.partition = true → 64 ≤ c.length →
    c.f 52 1 = 0 → c.work.dmaError = false → (if c.param0 = 0 then (s.part c.partition).reports.getLast?
      else (s.part c.partition).reports.find? fun x => x.id.toNat == c.param0) = some r →
    Runs (.hangReport f tag .good) s fun t => Answers s t f.val c { status := if r.bad then stPoisoned else stOk, part := r.bad, r0 := r.id.toNat, r1 := (r.stream.take c.length).length, r2 := r.cutId.toNat, r3 := r.bytes.length } ∧
      Out.hostWrite (fnPort f.val) (BitVec.ofNat 64 c.bufAddr) ((r.stream.take c.length).take c.bufWindow) ∈ t.out ∧ t.hang = s.hang) ∧
  (∀ s e rest, s.hang.queue = e :: rest → s.fires = [] →
    let u := hangEvent e { s with hang := { s.hang with queue := rest } }
    exec .hangEventProcess s = .next (spendCreel (if s.injectHit then modPart e.partition (fun x => { x with graphBad := true }) u else u))) ∧
  (∀ s e rest, s.hang.queue = e :: rest → e.kind = 1 → s.err.armed = false → s.fires = [] →
    Runs .hangEventProcess s fun t => t.hang.queue = rest ∧ Only [.hang] s t) ∧
  (∀ s (p : Part) k, let x := s.part p.val
    let due := x.lastScan + k * (s.hangScanUs p.val * Config.ticksPerUs)
    x.graphOn = true → x.held = false → s.err.stopped = false → 0 < k → x.holdEnd ≤ due → due ≤ s.t →
    s.t < due + s.hangScanUs p.val * Config.ticksPerUs → s.fires = [] →
    Runs (.hangScan p) s fun t => (t.part p.val).lastScan = due ∧ Only [.parts] s t ∧
      (x.scanning = none → (t.part p.val).overrun = x.overrun ∧ (t.part p.val).scanning =
        some { start := s.t, minAge := minAgeUs x.active.weft, stall := stallUs x.active.weft }) ∧
      (∀ b, x.scanning = some b → (t.part p.val).overrun = satInc x.overrun ∧ (t.part p.val).scanning = some b ∧
        (t.part p.val).scanWaits = true)) ∧
  (∀ s (p : Part) b, (s.part p.val).scanning = some b → s.err.stopped = false → (s.part p.val).held = false →
    (s.part p.val).scanWaits = false → (∀ u ∈ s.unitsOf p.val, (s.unit u).waits = []) →
    (s.part p.val).graphBad = false → hangFlag (s.part p.val).active.weft 1 = false → s.fires = [] →
    Runs (.hangScanEnd p .good) s fun t => (t.part p.val).scanning = none ∧ (t.part p.val).lastCycle = [] ∧ Only [.parts] s t) ∧
  (∀ s (p : Part) b, (s.part p.val).scanning = some b → s.err.stopped = false → (s.part p.val).held = true →
    s.actedNow p.val = none → s.fires = [] →
    Runs (.hangScanEnd p .good) s fun t => (t.part p.val).scanning = none ∧
      (t.part p.val).reports = (s.part p.val).reports ∧ Only [.parts] s t) ∧
  (∀ s (p : Part) b, (s.part p.val).scanning = some b → s.err.stopped = false → (s.part p.val).held = false →
    ((s.part p.val).graphBad = true → exec (.hangScanEnd p .good) s = exec (.hangScanEnd p .bad) s) ∧
    exec (.hangScanEnd p .bad) s = .next (settle (startGraph p.val (stopGraph p.val (uncorrectableItem false 1 p.val 0 3 s)))))

/-! ### Twin, lifecycle and links -/

/-- TWIN_PAIR, TWIN_RELEASE, the hand-over's time limit, and LIFECYCLE_ADVANCE (spec/19_twin_pairing R968 to R984;
spec/03_lifecycle R146 to R159). That a burn waits for another is log entry 75; that a PAIR is judged at the twin's answer, log
entry 51. -/
def Obligations.TwinAndLifecycleCommandsAct : Prop :=
  (∀ s f tag c, Waits s f.val tag 0xA0 c → s.twinCheck f.val c = none → c.f 52 1 = 0 → s.plait.pair = .paired →
    Runs (.twinPair f tag) s fun t =>
      Answers s t f.val c { already := true, r0 := s.heldSet.length, r1 := s.twinSet.length } ∧ t.plait = s.plait) ∧
  (∀ s f tag c, Waits s f.val tag 0xA0 c → s.twinCheck f.val c = none → c.f 52 1 = 1 →
    exec (.twinPair f tag) s = .next (settle (handoffCmd f.val tag c.partMask (started f.val tag s)))) ∧
  (∀ s f tag c, Waits s f.val tag 0xA0 c → s.twinCheck f.val c = none → 2 ≤ c.f 52 1 →
    exec (.twinPair f tag) s = .next (settle (takeoverCmd f.val tag c.partMask c.fetched (started f.val tag s)))) ∧
  (∀ s f tag c st, Waits s f.val tag 0xA0 c → (started f.val tag s).twinCheck f.val c = some st →
    Runs (.twinPair f tag) s fun t => Answers s t f.val c { status := st } ∧ t.plait = s.plait) ∧
  (∀ s f tag c, Waits s f.val tag 0xA0 c → s.twinCheck f.val c = none → c.f 52 1 = 0 → s.plait.pair ≠ .paired →
    exec (.twinPair f tag) s = .next (settle (sendHello true
      { started f.val tag s with plait := { s.plait with hello := none } }))) ∧
  (∀ s h (f : Nat) c, s.plaitUp = true → s.twinRoled = true → s.boot.phase = .ready → h.ready = true → h.request = false →
    s.plait.pair = .unpaired → s.pairCmds = [(f, c)] → f < 68 → s.cmd f c.tag = some c → s.mismatchCode h ≠ 0 →
    Runs (.hello h) s fun t => t.plait.pair = .unpaired ∧ t.plait.mismatch = BitVec.ofNat 4 (s.mismatchCode h) ∧
      Answers s t f c { status := stBusy, r2 := s.mismatchCode h }) ∧
  (∀ s f tag c d, s.cmd f.val tag = some c → c.op = 0xA0 → c.started = true → c.f 52 1 = 2 → c.work.deadline = some d → d ≤ s.t →
    s.fires = [] →
    Runs (.takeoverTimeout f tag) s fun t => Answers s t f.val c { status := stStakeHeldByTwin, part := true, r0 := (c.work.done.filter fun k => (s.stake (k / 64) (k % 64)).held).length, r1 := ((s.maskPairs c.partMask).filter fun (n, p) => !(s.stake n p).held).length }) ∧
  (∀ s f tag c, Waits s f.val tag 0xA1 c → s.twinCheck f.val c = none → s.plait.pair ≠ .unpaired →
    Runs (.twinRelease f tag) s fun t => t.plait.pair = .unpaired ∧ t.plait.everReleased = true ∧ t.cmd f.val tag = none) ∧
  (∀ s f tag c, Waits s f.val tag 0xA1 c → s.twinCheck f.val c = none → s.plait.pair = .unpaired →
    Runs (.twinRelease f tag) s fun t => Answers s t f.val c { already := true } ∧
      t.plait = { s.plait with everReleased := true }) ∧
  (∀ s f tag c l, Waits s f.val tag 0xB0 c → s.err.stopped = false → s.lcyFirst f.val c = none → targetOf (c.f 52 1) = some l →
    s.targetCheck l = none → l ≠ s.voted → s.lcy.burn = none →
    Runs (.lifecycleAdvance f tag) s fun t => t.lcy = { s.lcy with burn := some { target := some l, key := none, todo := s.lcy.fuses.burnList l, attempts := 0, burned := 0, escalated := false, by_ := .command f.val tag } } ∧ Only [.fns, .lcy] s t) ∧
  (∀ s f tag c l, Waits s f.val tag 0xB0 c → s.err.stopped = false → s.lcyFirst f.val c = none → targetOf (c.f 52 1) = some l →
    s.targetCheck l = none → l = s.voted →
    Runs (.lifecycleAdvance f tag) s fun t => Answers s t f.val c { already := true, r0 := s.lcyWord l false true } ∧ t.lcy = s.lcy)

/-- A partition's reset: asked for by its owner, done when nothing of a halt is being gathered
(spec/02_clocks_resets_bringup R115 to R120; log entries 38 and 83). -/
def Obligations.PartitionResetActs : Prop :=
  (∀ s (f : Fn) (p : Part), s.barOpen f.val = true → s.owns f.val p.val = true → s.fires = [] →
    Runs (.partitionReset f p) s fun t => (t.part p.val).resetPending = true ∧ Only [.parts, .always] s t ∧
      ∀ q, q ≠ p.val → t.part q = s.part q) ∧
  (∀ s (p : Part), (s.part p.val).resetPending = true → (s.part p.val).gather = none →
    exec (.partitionResetComplete p) s = .next (settle (modPart p.val (fun x => { x with resetPending := false })
      (resetRuns p.val (resetCounters p.val (resetHang p.val (resetCuts p.val (resetLattice p.val (resetWeave p.val s)))))))) ∧
    Runs (.partitionResetComplete p) s fun t => (t.part p.val).resetPending = false ∧
      (t.part p.val).owner = (s.part p.val).owner ∧ (t.part p.val).observers = (s.part p.val).observers ∧
      (t.part p.val).lastGen = (s.part p.val).lastGen)

/-- The registers and the timers of a link's states (spec/07_nalsel_link R403, R413 to R424, R437, R1091). After a retrain's
alignment RESUME names the number behind the last accepted flit; when the link is ACTIVE again is log entry 62. -/
def Obligations.LinkStatesAct : Prop :=
  (∀ s (n : HostPort) (p : Port), s.barOpen (64 + n.val) = true → s.isArbiterPm (64 + n.val) = true → (s.lnk p.val).link = .active →
    s.fires = [] →
    Runs (.retrain n p) s fun t => (t.lnk p.val).link = .retrain ∧ (t.lnk p.val).since = s.t ∧ (t.lnk p.val).exchOut = none ∧
      Only [.ports, .always] s t) ∧
  (∀ s (n : HostPort) (p : Port), s.barOpen (64 + n.val) = true → s.isArbiterPm (64 + n.val) = true →
    (s.port p.val).lk.link.live = true →
    Runs (.forceDown n p) s fun t => (t.lnk p.val).link = .down ∧ (t.lnk p.val).downCause = 7 ∧ (t.lnk p.val).since = s.t ∧
      (t.port p.val).enumerated = false) ∧
  (∀ s (l : LinkNo) us, (s.lnk l.val).link.limitUs = some us → s.after (s.lnk l.val).since us = true → 
    Runs (.trainTimeout l) s fun t => (t.lnk l.val).link = .down ∧ (t.lnk l.val).downCause = BitVec.ofNat 4 (s.lnk l.val).timeoutCause ∧
      (t.lnk l.val).since = s.t) ∧
  (∀ s, s.plait.lk.link = .down → s.after s.plait.lk.since 1000 = true → s.pllLocked 8 = true →
    Runs (.downPeriodEnd 8) s fun t => t.plait.lk.link = .detect ∧ t.plait.lk.since = s.t ∧ t.plait.lk.lock = 0) ∧
  (∀ s (p : Port), (s.port p.val).lk.link = .down → s.after (s.port p.val).lk.since 1000 = true → s.pllLocked p.val = true →
    s.portDisabled p.val = false → s.wantsScan p.val = false →
    Runs (.downPeriodEnd (p.castLE (by decide))) s fun t => (t.lnk p.val).link = .detect ∧ (t.lnk p.val).since = s.t ∧
      (t.port p.val).lanes = lanesOf (s.laneMode p.val)) ∧
  (∀ s (l : LinkNo) lanes, (s.lnk l.val).link = .detect → ((s.lnk l.val).lock ||| lanes) &&& lanesOf (s.laneMode l.val) = lanesOf (s.laneMode l.val) →
    s.fires = [] →
    Runs (.blockLock l lanes) s fun t => (t.lnk l.val).link = .sync ∧ (t.lnk l.val).since = s.t ∧
      (t.lnk l.val).lock = (s.lnk l.val).lock ||| lanes ∧ Only [.ports, .plait] s t) ∧
  (∀ s (l : LinkNo) lane role no mode, (s.lnk l.val).link = .sync → (lanesOf (s.laneMode l.val)).getLsbD lane.val = true →
    (role.toNat ≠ s.peerRole l.val ∨ no.toNat ≠ lane.val ∨ mode.toNat ≠ s.laneMode l.val) → s.fires = [] →
    Runs (.tsBlockReceive l lane true role no mode 1) s fun t => (t.lnk l.val).link = .sync ∧
      (t.lnk l.val).tsBad = (s.lnk l.val).tsBad ||| (1#2 <<< lane.val) ∧ (t.lnk l.val).tsSeen = (s.lnk l.val).tsSeen) ∧
  (∀ s (l : LinkNo) (lane : Fin 2) role no, (s.lnk l.val).link = .sync → s.laneMode l.val = 0 →
    role.toNat = s.peerRole l.val → no.toNat = lane.val → 
    (s.lnk l.val).tsSeen ||| (1#2 <<< lane.val) = lanesOf (s.laneMode l.val) → s.fires = [] →
    Runs (.tsBlockReceive l lane true role no 0 1) s fun t => (t.lnk l.val).link = .align ∧ (t.lnk l.val).since = s.t ∧
      (t.lnk l.val).alignSeen = 0) ∧
  (∀ s (l : LinkNo) (lane : Fin 2), (s.lnk l.val).link = .align → (s.lnk l.val).alignSeen ||| (1#2 <<< lane.val) ≠ 3 → s.fires = [] →
    Runs (.alignBlockReceive l lane) s fun t =>
      (t.lnk l.val).alignSeen = (s.lnk l.val).alignSeen ||| (1#2 <<< lane.val) ∧ (t.lnk l.val).link = .align) ∧
  (∀ s (l : LinkNo) (lane : Fin 2), (s.lnk l.val).link = .retrain → s.laneMode l.val = 0 → (s.lnk l.val).resumed = false →
    (s.lnk l.val).tsSeen = 3 → (s.lnk l.val).alignSeen ||| (1#2 <<< lane.val) = 3 → s.fires = [] →
    Runs (.alignBlockReceive l lane) s fun t => (t.lnk l.val).resumed = true ∧ (t.lnk l.val).link = .retrain ∧
      (t.lnk l.val).rxSeq = (s.lnk l.val).lastAccepted + 1 ∧ (t.lnk l.val).discarding = false ∧
      t.out = s.out ++ [.control l.val 6 0
        ((s.lnk l.val).ctlPayload 6 0 (leBytes 2 ((s.lnk l.val).lastAccepted + 1).toNat))]) ∧
  (∀ s (l : LinkNo) (lane : Fin 2), (s.lnk l.val).link = .active → (lanesOf (s.laneMode l.val)).getLsbD lane.val = true → s.fires = [] →
    Runs (.lockLoss l lane) s fun t => (t.lnk l.val).link = .retrain ∧
      (t.lnk l.val).lock = (s.lnk l.val).lock &&& ~~~(1#2 <<< lane.val))

/-! ### Registers and the test access port -/

/-- Reads and writes of the registers by a host (spec/21_register_reference R1017 to R1039; spec/03_lifecycle R167;
spec/20_faults_and_containment R1014; spec/05_sessions_and_rings R322). The bytes counted at a port are log entry 83; a read of
no words is one that does not complete (log entry 12). -/
def Obligations.RegisterAccessesAct : Prop :=
  (∀ s (f : Fn) (off : W16) v, s.answers f.val = true → s.shows off.toNat = true → ¬(off.toNat = 0x04C ∧ isPf f.val = true) →
    Tab.get? (s.latchesOf false f.val) off.toNat = none → v = regValue s f.val off.toNat → s.fires = [] →
    Runs (.registerReadClear f off 1) s fun t => Out.readData f.val (BitVec.ofNat 32 v) ∈ t.out ∧
      (off.toNat = 0xC08 → s.seesGlobal f.val = true → t.hang.drops = 0) ∧
      (off.toNat = 0xC0C → s.seesGlobal f.val = true → t.hang.evict = 0)) ∧
  (∀ s (f : Fn) (off : W16) (p : Part), s.answers f.val = true → s.shows off.toNat = true → off.toNat = 0x2000 + 0x80 * p.val + 0x28 →
    Tab.get? (s.latchesOf false f.val) off.toNat = none → s.opensPart f.val p.val = true → s.fires = [] →
    Runs (.registerReadClear f off 1) s fun t => (t.part p.val).suppressed = 0) ∧
  (∀ s (f : Fn) off, s.fires = [] → exec (.registerReadClear f off 0) s = .next s) ∧
  (∀ s (f : Fn) off words,
    exec (.registerReadClear f off words) s = .next (settle (each (List.range words) (fun k => barRead f.val (off.toNat + 4 * k)) s))) ∧
  (∀ s (f : Fn) (off : W16) (v : W32), s.answers f.val = true → s.shows off.toNat = true → ¬(off.toNat = 0x04C ∧ isPf f.val = true) →
    Tab.get? (s.latchesOf false f.val) off.toNat = some v → s.fires = [] →
    exec (.latchingRead f off) s = .next (bumpAlways (40 + fnPort f.val) 4
      { s with out := s.out ++ [.readData f.val (if s.closesTo f.val off.toNat then 0 else v)] })) ∧
  (∀ s (f : Fn) off, s.answers f.val = true → s.shows off.toNat = false → s.fires = [] →
    exec (.latchingRead f off) s = .next (bumpAlways (40 + fnPort f.val) 4 { s with out := s.out ++ [.readData f.val 0] })) ∧
  (∀ s (n : HostPort), s.answers (64 + n.val) = true → s.shows 0x04C = true → s.inTest = false → s.fires = [] →
    Runs (.memWindowRead n) s fun t => t.out = s.out ++ [.readData (64 + n.val) 0] ∧ t.mem = s.mem ∧
      (t.host n.val).memAddr = (s.host n.val).memAddr) ∧
  (∀ s (n : HostPort), s.answers (64 + n.val) = true → s.shows 0x04C = true → s.inTest = true → (s.host n.val).memSel.toNat % 8 = 0 →
    (s.host n.val).memAddr.toNat / 8 < 2 ^ 23 → s.mem.known.contains (0, 0, (s.host n.val).memAddr.toNat / 8) = true →
    s.mem.ue.contains (0, 0, (s.host n.val).memAddr.toNat / 8) = false → s.mem.ce.contains (0, 0, (s.host n.val).memAddr.toNat / 8) = false → s.fires = [] →
    Runs (.memWindowRead n) s fun t =>
      t.out = s.out ++ [.readData (64 + n.val) (BitVec.ofNat 32 (word32 (Mem.val s.mem.creel (8 * ((s.host n.val).memAddr.toNat / 8)) 8) 0))] ∧
      (t.host n.val).memAddr = (s.host n.val).memAddr + 8 ∧ t.mem = s.mem) ∧
  (∀ s (n : HostPort) value, s.barOpen (64 + n.val) = true → s.inTest = true → s.enabledPort n.val = true → s.fires = [] →
    Runs (.errInject n value) s fun t => t.err.injMode = value.setWidth 2 ∧ t.err.injBank = value.extractLsb' 2 6 ∧
      t.err.armed = (value.setWidth 2 != 0#2) ∧ Only [.err, .always] s t) ∧
  (∀ s (n : HostPort) value, s.inTest = false → s.fires = [] → exec (.errInject n value) s = .next
    (if s.barOpen (64 + n.val) then bumpAlways (44 + n.val) 4 s else s)) ∧
  (∀ s (f : Fn) off value en, s.barOpen f.val = true →
    exec (.registerWrite f (.bar off) value en) s = .next (settle (writeReg false f.val off.toNat value en
      (bumpAlways (44 + fnPort f.val) 4 s)))) ∧
  (∀ s (f : Fn) off value en more, s.barOpen f.val = true →
    exec (.registerWrite f (.span off more) value en) s = .next (settle (each more.zipIdx
      (fun (w, k) => hostPut f.val (writeReg false f.val (off.toNat + 4 * (k + 1)) w.1 w.2))
      (writeReg false f.val off.toNat value en (bumpAlways (44 + fnPort f.val) 4 s))))) ∧
  (∀ s (f : Fn) value, s.barOpen f.val = true → (s.fn f.val).enable = false → s.fires = [] →
    Runs (.registerWrite f (.bar 0x410) value 0xF) s fun t => FnBecomes s t f.val
      { s.fn f.val with ringSize := ((s.fn f.val).ringSize &&& ~~~0xF0F) ||| (value &&& 0xF0F) }) ∧
  (∀ s (f : Fn) value, s.barOpen f.val = true → (s.fn f.val).enable = true → s.fires = [] →
    exec (.registerWrite f (.bar 0x410) value 0xF) s = .next (bumpAlways (44 + fnPort f.val) 4 s))

/-- The test access port: the instructions of every lifecycle state (spec/03_lifecycle R175 to R178). The bits that
LCY_QUERY shifts out behind R178's 64 are the model's choice, log entry 74; that nothing is driven while PORST_N is low, log
entry 90. -/
def Obligations.TapPublicInstructionsAct : Prop :=
  (∀ s, s.fires = [] → exec .idcode s = .next { s with tap := { s.tap with ir := 0x01, extest := false }, out := s.out ++ if s.pins.porst then [.tdo (toBits 32 s.idcode)] else [] }) ∧
  (∀ s cells, s.fires = [] → exec (.extest cells) s = .next { s with tap := { s.tap with ir := 0x00, extest := true, boundary := cells }, out := s.out ++ if s.pins.porst then [.boundary cells] else [] }) ∧
  (∀ s pins cells, s.fires = [] → exec (.samplePreload pins cells) s = .next { s with tap := { s.tap with ir := 0x02, extest := false, boundary := cells }, out := s.out ++ if s.pins.porst then [.tdo pins] else [] }) ∧
  (∀ s tdi, s.fires = [] → exec (.bypass 0xFF tdi) s = .next { s with tap := { s.tap with ir := 0xFF, extest := false, bypass := tdi.getLastD false }, out := s.out ++ if s.pins.porst then [.tdo ((false :: tdi).take tdi.length)] else [] }) ∧
  (∀ s code tdi, s.tapHas code.toNat = false → s.fires = [] → exec (.bypass code tdi) s = .next { s with tap := { s.tap with ir := code, extest := false, bypass := tdi.getLastD false }, out := s.out ++ if s.pins.porst then [.tdo ((false :: tdi).take tdi.length)] else [] }) ∧
  (∀ s, s.fires = [] → exec .lcyQuery s = .next { s with tap := { s.tap with ir := 0x10, extest := false }, out := s.out ++ if s.pins.porst then [.tdo (toBits 64 s.lcyQuery), .tdo (toBits 104 s.lcyReport)] else [] })

/-- The test access port: the instructions a lifecycle state may withhold (spec/03_lifecycle R164 to R167, R175 to
R185; spec/21_register_reference R1040 to R1043). That a burn waits for another is log entry 75; a nonce's value is
free (log entry 11), what LCY_ADVANCE holds while its burn lasts log entry 74, what REG_ACCESS captures after another
instruction log entry 34, an access during another log entry 89, by which nonce a response is judged log entry 82. -/
def Obligations.TapGuardedInstructionsAct : Prop :=
  (∀ s target l, s.tapHas 0x11 = true → targetOf target.toNat = some l → s.targetCheck l = none → l ≠ s.voted →
    s.lcy.burn = none → s.fires = [] →
    Runs (.lcyAdvance target (BitVec.ofNat 32 lcyConfirm)) s fun t => t.lcy = { s.lcy with burn := some { target := some l, key := none, todo := s.lcy.fuses.burnList l, attempts := 0, burned := 0, escalated := false, by_ := .tap } } ∧
      t.tap = { s.tap with ir := 0x11, extest := false, lcyResult := (stOk, 0, 0) }) ∧
  (∀ s target confirm, s.tapHas 0x11 = true → confirm.toNat ≠ lcyConfirm → s.fires = [] →
    Runs (.lcyAdvance target confirm) s fun t => t.lcy = s.lcy) ∧
  (∀ s k v, s.tapHas 0x12 = true → s.keyRefused k v = false → s.lcy.burn = none → s.fires = [] →
    Runs (.fuseKeyProg k v) s fun t => t.lcy = { s.lcy with burn := some { target := none, key := some (k, v), todo := s.lcy.fuses.keyBurn k v, attempts := 0, burned := 0, escalated := false, by_ := .tap } }) ∧
  (∀ s k v, s.tapHas 0x12 = true → s.keyRefused k v = true → s.fires = [] →
    exec (.fuseKeyProg k v) s = .next { s with tap := { s.tap with ir := 0x12, extest := false } }) ∧
  (∀ s (dr : BitVec 128), s.tapHas 0x20 = true → s.tap.accessBy ≤ s.t → s.err.armed = false → dr.toNat / 2 ^ 37 % 8 = 0 → bit dr.toNat 44 = true →
    dr.toNat % 2 ^ 37 < 2 ^ 23 → s.fires = [] →
    Runs (.memAccess dr) s fun t => t.mem.creel = Mem.writeN s.mem.creel (8 * (dr.toNat % 2 ^ 37)) (leBytes 8 (dr.toNat / 2 ^ 64 % 2 ^ 64)) ∧
      t.mem.osier = s.mem.osier ∧ t.mem.stake = s.mem.stake ∧ Only [.tap, .mem, .out] s t) ∧
  (∀ s dr, s.tapHas 0x20 = true → s.t < s.tap.accessBy → s.tap.ir = 0x20 → s.fires = [] →
    Runs (.memAccess dr) s fun t => Config.freeAccessBusy s.free = true →
      t.mem = s.mem ∧ t.tap = { s.tap with extest := false, memDr := s.tap.memDr ||| 2 }) ∧
  (∀ s (dr : BitVec 64), s.tapHas 0x21 = true →
    let u := shiftOut 64 (if s.tap.ir == 0x21 then s.tap.regDr.toNat
      else s.tap.regDr.toNat - 2 ^ 16 * b2n (bit s.tap.regDr.toNat 16)) (selectIr 0x21 s)
    let access (v : State) := settle (regAccess dr.toNat { v with tap := { v.tap with accessBy := s.t + 2 * Config.ticksPerUs } })
    (s.tap.accessBy ≤ s.t → exec (.regAccess dr) s = .next (access u)) ∧
    (s.t < s.tap.accessBy → exec (.regAccess dr) s = .next
      (if Config.freeAccessBusy s.free then settle (regBusy (nextFree u)) else access (nextFree u)))) ∧
  (∀ s, s.tapHas 0x30 = true → s.fires = [] →
    exec .unlockChallenge s = .next { s with free := s.free + 1, tap := { s.tap with ir := 0x30, extest := false, nonce := some (Config.freeNonce s.free, s.t) }, out := s.out ++ if s.pins.porst then [.tdo (toBits 512 (leVal (s.challenge (Config.freeNonce s.free))))] else [] }) ∧
  (∀ s dr, s.tapHas 0x31 = true → s.tap.response = none → s.lcy.lockout = false → s.fires = [] →
    exec (.unlockResponse dr) s = .next { s with free := s.free + 1, tap := { s.tap with ir := 0x31, extest := false, response := some (slice dr 0 97, slice dr 97 96, s.liveNonce), nonce := none } }) ∧
  (∀ s key sig nonce, s.tap.response = some (key, sig, nonce) → s.fires = [] →
    Runs .unlockVerdict s fun t => t.tap = { s.tap with response := none } ∧
      t.lcy.unlocked = (s.lcy.unlocked || s.unlockGranted key sig nonce) ∧ t.lcy.fuses = s.lcy.fuses ∧
      (s.unlockGranted key sig nonce = true → t.lcy.fails = s.lcy.fails)) ∧
  (∀ s n at_, s.tap.nonce = some (n, at_) → s.agedS at_ 60 = true → s.fires = [] →
    exec .nonceExpiry s = .next { s with tap := { s.tap with nonce := none } }) ∧
  (∀ s code, s.tapHas code = false → s.fires = [] →
    (code = 0x11 → ∀ a b, Runs (.lcyAdvance a b) s fun t => t.lcy = s.lcy ∧ t.tap.bypass = false) ∧
    (code = 0x20 → ∀ dr, Runs (.memAccess dr) s fun t => t.mem = s.mem ∧ t.tap.bypass = false) ∧
    (code = 0x30 → Runs .unlockChallenge s fun t => t.tap.nonce = s.tap.nonce ∧ t.tap.bypass = false))

/-! ### Links -/

/-- Flits: their acceptance, the NAK, the replay and the resume (spec/07_nalsel_link R386 to R412, R424). Which states take
sequenced flits is log entry 26, the return to ACTIVE at the peer's RESUME log entry 62. -/
def Obligations.FlitsAndReplaysAct : Prop :=
  (∀ s (l : LinkNo) flit, (s.lnk l.val).link = .active ∨ (s.lnk l.val).link = .timesync → flitGood (flitByteList flit) = false →
    Runs (.flitReceive l flit) s fun t => (t.lnk l.val).discarding = true ∧ (t.lnk l.val).err = (s.lnk l.val).err ||| 1 ∧
      (t.lnk l.val).lastAccepted = (s.lnk l.val).lastAccepted ∧ ∃ b, Out.control l.val 1 0 b ∈ t.out) ∧
  (∀ s (l : LinkNo) flit, (s.lnk l.val).link.takesFlits = false → s.fires = [] → exec (.flitReceive l flit) s = .next s) ∧
  (∀ s (l : LinkNo) flit, (s.lnk l.val).sequenced = true → flitGood (flitByteList flit) = true → field (flitByteList flit) 0 1 % 8 ≠ 4 →
    (s.lnk l.val).discarding = false → (s.lnk l.val).rxSeq ≠ (s.lnk l.val).lastAccepted + 1 →
    ((s.lnk l.val).lastAccepted - (s.lnk l.val).rxSeq).toNat < 256 → s.fires = [] →
    Runs (.flitReceive l flit) s fun t => (t.lnk l.val).rxSeq = (s.lnk l.val).rxSeq + 1 ∧
      (t.lnk l.val).lastAccepted = (s.lnk l.val).lastAccepted ∧ t.out = s.out ∧ Only [.ports, .plait] s t) ∧
  (∀ s (l : LinkNo) flit, (s.lnk l.val).sequenced = true → flitGood (flitByteList flit) = true → field (flitByteList flit) 0 1 % 8 ≠ 4 →
    (s.lnk l.val).discarding = true → s.fires = [] → exec (.flitReceive l flit) s = .next s) ∧
  (∀ s (l : LinkNo) flit, (s.lnk l.val).sequenced = true → flitGood (flitByteList flit) = true → field (flitByteList flit) 0 1 % 8 ≠ 4 →
    (s.lnk l.val).discarding = false → (s.lnk l.val).rxSeq = (s.lnk l.val).lastAccepted + 1 →
    exec (.flitReceive l flit) s = .next (settle (deliverFlit l.val (flitByteList flit)
      (modLnk l.val (fun x => { x with lastAccepted := (s.lnk l.val).rxSeq }) (modLnk l.val (fun x => { x with rxSeq := x.rxSeq + 1 }) s))))) ∧
  (∀ s (l : LinkNo) hdr seq, (s.lnk l.val).sequenced = true →
    exec (.nak l hdr seq) s = .next (settle (noteRuns (pump l.val (replay l.val (seq + 1)
      (modLnk l.val (fun x => x.acked seq s.t) (readHdr l.val hdr s))))))) ∧
  (∀ s (l : LinkNo) hdr first, Runs (.replayStart l hdr first) s fun t =>
    (t.lnk l.val).discarding = false ∧ (t.lnk l.val).rxSeq = first ∧ (t.lnk l.val).lastAccepted = (s.lnk l.val).lastAccepted) ∧
  (∀ s (l : LinkNo) e rest, (s.lnk l.val).unacked = e :: rest → (s.lnk l.val).link = .active → s.after (s.lnk l.val).ackAt 2 = true →
    exec (.ackTimeoutReplay l) s = .next (settle (replay l.val e.1 s))) ∧
  (∀ s (l : LinkNo) hdr, (s.lnk l.val).link = .timesync → s.fires = [] →
    let x := if hdr.ackValid then (s.lnk l.val).acked hdr.ack s.t else s.lnk l.val
    exec (.linkControlIdle l hdr) s = .next (settle (noteRuns (modLnk l.val (fun _ =>
      { x with tx0 := x.tx0.credit (hdr.credits.extractLsb' 0 8), tx1 := x.tx1.credit (hdr.credits.extractLsb' 8 8),
               tx2 := x.tx2.credit (hdr.credits.extractLsb' 16 8) }) s)))) ∧
  (∀ s (l : LinkNo) hdr next, (s.lnk l.val).link = .retrain → (s.lnk l.val).resumed = true →
    Runs (.linkResumeFlit l hdr next) s fun t => (t.lnk l.val).link = .active ∧ (t.lnk l.val).since = s.t ∧
      (t.lnk l.val).discarding = (s.lnk l.val).discarding ∧ (t.lnk l.val).rxSeq = (s.lnk l.val).rxSeq ∧
      (t.lnk l.val).lastAccepted = (s.lnk l.val).lastAccepted)

/-- CONFIG and the time exchange of a link (spec/07_nalsel_link R415 to R420, R430, R437; spec/19_twin_pairing R952, R953). That
each CONFIG is answered is log entry 27; what a rejected one leaves, and a UNIT_COUNT above 4,096, log entry 84. -/
def Obligations.ConfigAndTimesyncAct : Prop :=
  (∀ s (p : Port) hdr seen b, (s.port p.val).lk.link = .config → badConfig b = true →
    Runs (.config (p.castLE (by decide)) hdr seen b) s fun t => (t.lnk p.val).link = .down ∧ (t.lnk p.val).downCause = 3 ∧
      (t.port p.val).lastUid = some b.uid ∧ ((s.port p.val).lastUid ≠ some b.uid → (t.port p.val).newDie = true)) ∧
  (∀ s (p : Port) hdr b, (s.port p.val).lk.link = .config → badConfig b = false →
    Runs (.config (p.castLE (by decide)) hdr false b) s fun t => (t.lnk p.val).link = .config ∧ (t.lnk p.val).cfgSeen = true ∧
      (∃ d, Out.control p.val 3 1 d ∈ t.out) ∧ (t.port p.val).uid = b.uid ∧ (t.port p.val).tickFs = b.tickFs ∧ (t.port p.val).peerCaps = b.caps.setWidth 3 ∧
      (t.port p.val).peerUnits = BitVec.ofNat 13 (min 4096 b.unitCount.toNat)) ∧
  (∀ s (p : Port) hdr b, (s.port p.val).lk.link = .config → badConfig b = false →
    Runs (.config (p.castLE (by decide)) hdr true b) s fun t => (t.lnk p.val).link = .timesync ∧ (t.lnk p.val).since = s.t ∧
      (t.lnk p.val).exchOut = some ((s.lnk p.val).exchNo + 1, s.now) ∧ (t.port p.val).uid = b.uid) ∧
  (∀ s (l : LinkNo), s.exchanges l.val = true → s.after (s.lnk l.val).lastExchange 100 = true → s.fires = [] →
    Runs (.timesyncTimer l) s fun t => (t.lnk l.val).exchOut = some ((s.lnk l.val).exchNo + 1, s.now) ∧
      (t.lnk l.val).exchNo = (s.lnk l.val).exchNo + 1 ∧ (t.lnk l.val).lastExchange = s.t ∧
      (∃ b, t.out = s.out ++ [.control l.val 4 (BitVec.ofNat 8 ((s.lnk l.val).exchNo + 1).toNat) b]) ∧ Only [.ports, .plait, .out] s t) ∧
  (∀ s (l : LinkNo) hdr no t1 t2 t3, (s.lnk l.val).link = .active → (s.lnk l.val).exchOut = some (no, t1) →
    Runs (.timesyncRsp l hdr no t1 t2 t3) s fun t => (t.lnk l.val).exchOut = none ∧
      (t.lnk l.val).exchDone = (s.lnk l.val).exchDone + 1 ∧
      (t.lnk l.val).exchanges = ((s.lnk l.val).exchanges ++ [mkExchange (if l.val = 8 then 625000 else (s.port l.val).tickFs.toNat)
        t1.toNat t2.toNat t3.toNat s.t]).drop ((s.lnk l.val).exchanges.length + 1 - 16)) ∧
  (∀ s (l : LinkNo) hdr no t1 t2 t3, (s.lnk l.val).exchOut = none →
    Runs (.timesyncRsp l hdr no t1 t2 t3) s fun t => (t.lnk l.val).exchanges = (s.lnk l.val).exchanges ∧
      (t.lnk l.val).offset = (s.lnk l.val).offset) ∧
  (∀ s (l : LinkNo), (s.lnk l.val).exchOut.isSome = true → s.after (s.lnk l.val).lastExchange 4 = true → (s.lnk l.val).link = .active →
    s.fires = [] →
    Runs (.timesyncExchangeTimeout l) s fun t => (t.lnk l.val).exchOut = none ∧ (t.lnk l.val).exchanges = (s.lnk l.val).exchanges ∧
      Only [.ports, .plait] s t) ∧
  (∀ s (l : LinkNo), (s.lnk l.val).exchOut.isSome = true → s.after (s.lnk l.val).lastExchange 4 = true → (s.lnk l.val).link = .timesync →
    s.fires = [] →
    Runs (.timesyncExchangeTimeout l) s fun t => (t.lnk l.val).exchOut = some ((s.lnk l.val).exchNo + 1, s.now) ∧
      (t.lnk l.val).lastExchange = s.t) ∧
  (∀ s hdr exch t1, s.plait.lk.link = .active →
    Runs (.plaitTimesyncReq hdr exch t1) s fun t => ∃ b, Out.control 8 5 exch b ∈ t.out)

/-- A port's detach and the loss of the Plait link (spec/07_nalsel_link R431; spec/19_twin_pairing R961, R968, R980, R983, R985).
What becomes of a first pairing under way is log entry 51. -/
def Obligations.DetachAndPlaitDownAct : Prop :=
  (∀ s (p : Port) hdr, (s.port p.val).lk.link = .active →
    Runs (.detachReq p hdr) s fun t => (t.port p.val).detachAt = ((s.port p.val).detachAt <|> some s.t) ∧
      (t.lnk p.val).link = .active) ∧
  (∀ s (p : Port) t0, (s.port p.val).detachAt = some t0 → ((s.port p.val).lk.quiet = true ∨ s.after t0 1000 = true) →
    Runs (.detachAckSend p) s fun t => (t.lnk p.val).link = .down ∧ (t.lnk p.val).downCause = 5 ∧ (t.port p.val).detachAt = none ∧
      ∃ b, Out.control p.val 8 0 b ∈ t.out) ∧
  (∀ s, (s.plait.lk.link = .active ∨ s.plait.lk.link = .retrain) →
    Runs .plaitLinkDown s fun t => t.plait.lk.link = .down ∧ t.plait.lk.downCause = 1 ∧ t.plait.hello = none ∧
      (s.plait.pair = .paired → s.plait.hbPresent = true → t.plait.pair = .split) ∧
      (s.plait.pair = .paired → s.plait.hbPresent = false → t.plait.pair = .twinLost) ∧
      (s.plait.pair = .split → s.plait.hbPresent = false → t.plait.pair = .twinLost) ∧
      (s.plait.pair = .pairing → s.plait.everPaired = false → t.plait.pair = .unpaired))

/-! ### Dies and the trigger lattice -/

/-- The dies' messages: the answer to the oldest request, its time limit, and the unsolicited ones
(spec/07_nalsel_link R429, R1093; spec/08_unit_debug_block R441 to R486, R448, R449, R451; spec/10_run_control R553;
spec/14_counters R750 to R756; spec/13_wale_trace_and_time R738). The units of a HALT that have halted stay so at its
RESPONSE_TIMEOUT (log entry 14); the effects of DIE_LOSS are log entry 54, the order of COUNTER_DELTA log entry 64. -/
def Obligations.DieMessagesAct : Prop :=
  (∀ s (n : Port) m r rest, (s.port n.val).lk.sequenced = true → m.ch < 3 → ((s.lnk n.val).tx m.ch).outst = r :: rest →
    m.response = true → m.op = r.msg.op → m.target = r.msg.target → m.tag = r.msg.tag → field m.data 0 1 = 0 →
    exec (.dieResponse n m) s = .next (settle (answered n.val r 0 (bit (field m.data 0 4) 8) (m.data.drop 4)
      (answerEffect n.val r.msg (bit (field m.data 0 4) 8) (m.data.drop 4)
        (modLnk n.val (fun x => x.setTx m.ch { (s.lnk n.val).tx m.ch with outst := rest }) s))))) ∧
  (∀ s (n : Port) m r rest, (s.port n.val).lk.sequenced = true → m.ch < 3 → ((s.lnk n.val).tx m.ch).outst = r :: rest →
    (m.response = false ∨ m.op ≠ r.msg.op ∨ m.target ≠ r.msg.target ∨ m.tag ≠ r.msg.tag) →
    Runs (.dieResponse n m) s fun t => (t.lnk n.val).err = (s.lnk n.val).err ||| 4 ∧ (t.lnk n.val).link = (s.lnk n.val).link) ∧
  (∀ s (n : Port) (ch : Fin 3) r rest f tag u k c, ((s.lnk n.val).tx ch.val).outst = r :: rest → r.at_ + s.answerWait ch.val r ≤ s.t →
    r.who = .cmd f tag u k → s.cmd f tag = some c → c.op ≠ 0x32 →
    Runs (.responseTimeout n ch) s fun t => ∀ v ∈ s.servedBy c.partition u (r.msg.target.getLsbD 15),
      ¬ (r.msg.ch = 0 ∧ r.msg.op = 1 ∧ (s.unit v).view = .halted) → (t.unit v).view = .unresponsive) ∧
  (∀ s (n : Port) (ch : Fin 3) r rest p, ((s.lnk n.val).tx ch.val).outst = r :: rest → r.at_ + s.answerWait ch.val r ≤ s.t →
    r.who = .claim p →
    exec (.responseTimeout n ch) s = .next (settle (twinChecks (failResends n.val p stUnitUnresponsive
      (modLnk n.val (fun x => x.setTx ch.val { (s.lnk n.val).tx ch.val with outst := rest }) s))))) ∧
  (∀ s (n : Port) m, (s.port n.val).lk.sequenced = true →
    exec (.eventBatch n m) s = .next (settle (each (events n.val m.data) (fun e t => settle (takeEvent n.val e t)) s))) ∧
  (∀ s (n : Port) m, (s.port n.val).lk.sequenced = false → s.fires = [] → exec (.eventBatch n m) s = .next s) ∧
  (∀ s (n : Port) m, s.takesVc3 n.val m = true → 24 ≤ m.data.length →
    let p := s.msgPart n.val (msgUnit n.val m) m.partition.toNat
    exec (.dieLoss n m) s = .next (settle (endsWithoutDelta p (msgUnit n.val m)
      (fun e => decide (field m.data 8 8 ≤ e.dieTs.toNat) && decide (e.dieTs.toNat ≤ field m.data 16 8))
      (lossBoth p (s.dieDests p) (field m.data 0 4) 4 n.val (s.hubTime n.val (field m.data 8 8))
        (s.hubTime n.val (field m.data 16 8)) (msgUnit n.val m)
        (uncertain (msgUnit n.val m) (heard p (m.data.length + 16) s)))))) ∧
  (∀ s (n : Port) m, s.takesVc3 n.val m = true → 24 ≤ m.data.length →
    exec (.counterDelta n m) s = .next (settle (takeDelta n.val m s))) ∧
  (∀ s (n : Port) e, (s.port n.val).enum = some e → e.stage = 4 → (s.port n.val).lk.open_.any enumWaits = false → s.fires = [] →
    Runs (.enumerationDone n) s fun t => (t.port n.val).enum = none ∧ (t.port n.val).enumerated = true ∧ Only [.ports] s t)

/-- The sources and the timers of the trigger lattice (spec/09_hoop_triggers R500 to R531). What a weft switch at the
same tick leaves in force is log entry 78; the levels and edges of XTRIG are log entries 40 and 52. -/
def Obligations.LatticeSourcesAct : Prop :=
  (∀ s (n : Port) ns, (s.port n.val).hoopInUntil ≤ s.t → 4 ≤ ns →
    exec (.hoopInAssert n ns) s = .next (settle (fireAll n.val
      (modPort n.val (fun x => { x with hoopInUntil := max x.hoopInUntil (s.t + nsTicks ns) }) s)))) ∧
  (∀ s (n : Port), s.fires = [] → Runs (.hoopInAssert n 0) s fun t => Only [.ports] s t) ∧
  (∀ s pin up ns, Runs (.xtrigEdge pin up ns) s fun t =>
    t.pins = { s.pins with xtrig := if up then s.pins.xtrig ||| (1#8 <<< pin.val) else s.pins.xtrig &&& ~~~(1#8 <<< pin.val) }) ∧
  (∀ s (pin : Fin 8) up ns, bit s.xtrigDir pin.val = false → 4 ≤ ns →
    exec (.xtrigEdge pin up ns) s = .next (settle (each ((List.range 64).filter fun p => up != bit (xtrigPol (s.atEdge p).active.weft) pin.val)
      (fun p => fire p (8 + pin.val)) { s with pins := { s.pins with xtrig := if up then s.pins.xtrig ||| (1#8 <<< pin.val) else s.pins.xtrig &&& ~~~(1#8 <<< pin.val) } }))) ∧
  (∀ s (p : Part), (s.part p.val).stage ≠ 0 → (s.part p.val).held = false →
    (stageTerm (s.part p.val).active.weft (s.part p.val).stage).timeoutUs ≠ 0 →
    s.after (s.part p.val).stageAt (stageTerm (s.part p.val).active.weft (s.part p.val).stage).timeoutUs = true →
    ¬ ((s.part p.val).occStage ≠ 0 ∧ (s.part p.val).occAt = s.t) →
    exec (.stageTimeout p) s = .next (settle (triggerRec p.val 0 0 (0x10 + (s.part p.val).stage) 4 false 0 0 0 0 (s.part p.val).holdCount.toNat
      (modPart p.val (fun y => { y with stage := 0, stageAt := s.t, occStage := 0, firesStage := [] }) s)))) ∧
  (∀ s (p : Part), (s.part p.val).occStage ≠ 0 → (s.part p.val).occAt = s.t → s.fires = [] →
    exec (.stageTimeout p) s = .next s) ∧
  (∀ s (p : Part), s.boot.phase = .ready → watchdogUs (s.atEdge p.val).active.weft ≠ 0 →
    ((s.atEdge p.val).held = false ∨ (s.actedNow p.val).isSome = true) →
    s.after (s.atEdge p.val).watchdogAt (watchdogUs (s.atEdge p.val).active.weft) = true →
    exec (.partitionWatchdogExpiry p) s = .next (settle (fire p.val 25 (firedReport p.val 2 0xFF 0 (hubEvent p.val 0x0C 1
      (modPart p.val (fun y => { y with watchdogAt := s.t }) s)))))) ∧
  (∀ s (p : Part), (watchdogUs (s.atEdge p.val).active.weft = 0 ∨ ((s.atEdge p.val).held = true ∧ s.actedNow p.val = none)) → s.fires = [] →
    exec (.partitionWatchdogExpiry p) s = .next s)

/-- The pulses driven on HOOP_OUT and XTRIG and the gaps after them (spec/09_hoop_triggers R529, R530). The level of a
pin on which wefts disagree is log entry 40. -/
def Obligations.PulseTimersAct : Prop :=
  (∀ s (n : Port) t0, (s.port n.val).hoopOut = .on t0 → t0 + nsTicks 64 ≤ s.t → s.fires = [] →
    Runs (.hoopOutPulseEnd n) s fun t => (t.port n.val).hoopOut = .gap s.t false ∧ t.out = s.out ++ [.hoop n.val false] ∧
      Only [.ports, .out] s t) ∧
  (∀ s (n : Port) t0, (s.port n.val).hoopOut = .on t0 → s.t < t0 + nsTicks 64 → s.fires = [] →
    exec (.hoopOutPulseEnd n) s = .next s) ∧
  (∀ s (n : Port) t0, (s.port n.val).hoopOut = .gap t0 false → t0 + nsTicks 32 ≤ s.t → s.fires = [] →
    Runs (.hoopReleaseGapEnd n) s fun t => (t.port n.val).hoopOut = .idle ∧ Only [.ports] s t) ∧
  (∀ s (n : Port) t0, (s.port n.val).hoopOut = .gap t0 true → t0 + nsTicks 32 ≤ s.t → s.fires = [] →
    Runs (.hoopReleaseGapEnd n) s fun t => (t.port n.val).hoopOut = .on s.t ∧ t.out = s.out ++ [.hoop n.val true] ∧
      Only [.ports, .out] s t) ∧
  (∀ s (j : Fin 8) t0, s.xtrig j.val = .on t0 → t0 + 32 ≤ s.t → s.fires = [] →
    Runs (.xtrigPulseEnd j) s fun t => t.xtrig j.val = .gap s.t false ∧ t.out = s.out ++ [.xtrig j.val false (false != s.xtrigLow j.val)] ∧
      Only [.xtrigOut, .out] s t) ∧
  (∀ s (j : Fin 8) t0, s.xtrig j.val = .gap t0 false → t0 + 32 ≤ s.t → s.fires = [] →
    Runs (.xtrigPulseEnd j) s fun t => t.xtrig j.val = .idle ∧ Only [.xtrigOut] s t) ∧
  (∀ s (j : Fin 8) t0, s.xtrig j.val = .gap t0 true → t0 + 32 ≤ s.t → s.fires = [] →
    Runs (.xtrigPulseEnd j) s fun t => t.xtrig j.val = .on s.t ∧ t.out = s.out ++ [.xtrig j.val true (true != s.xtrigLow j.val)] ∧
      Only [.xtrigOut, .out] s t)

/-! ### The twin and faults -/

/-- The twin's messages about triggers, fast sets and held pairs, and the pairing (spec/19_twin_pairing R955 to R971;
R979; spec/09_hoop_triggers R525 to R528; spec/04_weave_and_reweave R240). The answer to a HELLO that asks to pair is log entry
51, the handshake of HOOP_HALT_EN log entry 31, the commit that a stake of the twin ends log entry 81. -/
def Obligations.TwinMessagesAct : Prop :=
  (∀ s p a b ts, s.plaitUp = true →
    exec (.haltFwd p a b ts) s = .next (settle (takeHaltFwd p.val a.toNat b s))) ∧
  (∀ s p a b ts, s.plaitUp = false → s.fires = [] → exec (.haltFwd p a b ts) s = .next s) ∧
  (∀ s p (ports : Byte) v, s.plaitUp = true →
    exec (.hoopEn p ports v) s = .next (settle (plaitSend 0 3 p.val [ports, BitVec.ofNat 8 (b2n v)]
      (each (portsIn ports) (fun n => modStake n p.val (fun x => { x with hoopEn := some v })) s)))) ∧
  (∀ s p (ports : Byte), s.plaitUp = true → s.fires = [] →
    exec (.hoopEnAck p ports false) s = .next s) ∧
  (∀ s p (ports : Byte), s.plaitUp = true →
    exec (.hoopEnAck p ports true) s = .next (settle (each (portsIn (Tab.getD s.plait.enWait p.val (0 : Byte) &&& ports))
      (fun n t => if (t.stake n p.val).held && hoopFast (s.part p.val).active.weft then
        askHoopCtrl n p.val true (hoopAbrupt (s.part p.val).active.weft) t else t)
      { s with plait := { s.plait with enWait := Tab.set s.plait.enWait p.val (Tab.getD s.plait.enWait p.val (0 : Byte) &&& ~~~ports) } }))) ∧
  (∀ s (p : Part) (ports event : Byte) g, s.plaitUp = true → s.fires = [] →
    Runs (.stakeNote p ports event g) s fun t => (∀ n < 8, ports.getLsbD n = true → (t.stake n p.val).twin = (event == 0)) ∧
      (∀ n < 8, ports.getLsbD n = false → t.stake n p.val = s.stake n p.val) ∧ (event ≠ 0 → Only [.ports] s t)) ∧
  (∀ s (p : Part) (ports : Byte) g c k, s.plaitUp = true → s.fires = [] → ports ≠ 0 → (s.part p.val).commit = some c →
    c.switched = false → c.fn < 68 → s.cmd c.fn c.tag = some k →
    Runs (.stakeNote p ports 0 g) s fun t => (t.part p.val).commit = none ∧
      Answers s t c.fn k { status := stStakeHeldByTwin, r0 := (s.part p.val).active.gen.toNat }) ∧
  (∀ s h, s.plaitUp = true → Runs (.hello h) s fun t => t.plait.hello = some h ∧
    let u : State := { s with plait := { s.plait with hello := some h } }
    exec (.hello h) s = .next (settle (tryPairing (if h.request && s.twinRoled then sendHello false u else u)))) ∧
  (∀ s view, s.plaitUp = true → exec (.stakeView view) s = .next (settle (takeStakeView view s))) ∧
  (∀ s view, s.plaitUp = true → exec (.fastView view) s = .next (settle (takeFastView view s))) ∧
  (∀ s, s.plaitUp = true → s.twinned = true → Runs .unpair s fun t => t.plait.pair = .unpaired ∧ t.plait.everReleased = s.plait.everReleased) ∧
  (∀ s, s.plaitUp = true → s.twinned = false → s.fires = [] → exec .unpair s = .next s)

/-- The hand-over of stakes, their renewal and their claims (spec/19_twin_pairing R963, R976 to R984;
spec/08_unit_debug_block R489 to R495). -/
def Obligations.StakesAct : Prop :=
  (∀ s mask, s.plaitUp = true →
    exec (.handoff mask) s = .next (settle (checkHandoffIn (each (s.maskPairs mask.toNat) (fun (n, p) => claim n p)
      (each (partsIn mask.toNat) (fun p => each ((s.portsOf p).filter fun n => (s.port n).lk.link != .active && !(s.stake n p).held)
          fun n => modStake n p (fun x => { x with twin := true }))
        { s with plait := { s.plait with handoffIn := s.plait.handoffIn ++ [{ mask := mask }] } }))))) ∧
  (∀ s (mask : W64) n p, s.plaitUp = true → (n, p) ∈ s.maskPairs mask.toNat → n < 8 → (∀ m < 8, ∀ q < 64, s.claiming m q = false) →
    Runs (.handoff mask) s fun t => Sent t n 0 0x10 0 false p 0 (leBytes 2 s.leaseMs) (.claim p)) ∧
  (∀ s h c (claimed refused : W64), s.plaitUp = true → s.plait.handoff = [h] → h.fn < 68 → s.cmd h.fn h.tag = some c → s.fires = [] →
    Runs (.handoffDone claimed refused) s fun t => t.plait.handoff = [] ∧
      Answers s t h.fn c { status := if refused != 0 then stStakeHeldByTwin else stOk, part := refused != 0, r0 := (partsIn claimed.toNat).length, r1 := (partsIn refused.toNat).length }) ∧
  (∀ s n p, s.boot.phase = .ready → s.err.stopped = false → s.after s.plait.lastRenew (s.leaseMs * 250) = true →
    (n, p) ∈ s.heldSet → s.takesReq n = true → n < 8 →
    Runs .stakeRenewTimer s fun t => t.plait.lastRenew = s.t ∧ Sent t n 0 0x11 0 false p 0 (leBytes 4 0) (.renew p)) ∧
  (∀ s (n : Port) (p : Part) t0, (s.stake n.val p.val).retryAt = some t0 → t0 ≤ s.t → s.retries p.val = true →
    s.takesReq n.val = true → s.claiming n.val p.val = false →
    Runs (.stakeClaimRetry n p) s fun t => Sent t n.val 0 0x10 0 false p.val 0 (leBytes 2 s.leaseMs) (.claim p.val)) ∧
  (∀ s (n : Port) (p : Part) t0, (s.stake n.val p.val).retryAt = some t0 → t0 ≤ s.t → s.retries p.val = false → s.fires = [] →
    Runs (.stakeClaimRetry n p) s fun t => (t.stake n.val p.val).retryAt = none ∧ Only [.ports] s t) ∧
  (∀ s (n : Port) (p : Part) t0, (s.stake n.val p.val).retryAt = some t0 → t0 ≤ s.t → s.retries p.val = true →
    s.takesReq n.val = false → s.fires = [] → exec (.stakeClaimRetry n p) s = .next s)

/-- The image sent over Plait, and the heartbeat (spec/19_twin_pairing R960 to R962, R972, R973, R983, R985). That each twin role
takes the heartbeat is log entry 51, an injection that hits the retained image log entry 22. -/
def Obligations.TwinImageAndHeartbeatAct : Prop :=
  (∀ s, s.wantsImage = true → s.plaitUp = true → s.after s.plait.lastReq 10000 = true → s.plait.retryAt ≤ s.t →
    exec .imageReqTimer s = .next (settle (plaitSend 2 0x20 0xFF [] { s with plait := { s.plait with lastReq := s.t } }))) ∧
  (∀ s found, s.plaitUp = true → s.plait.role = 2 → s.plait.retained = none →
    exec (.imageReq found) s = .next (settle (plaitSend 2 0x22 0xFF [] s))) ∧
  (∀ s img, s.plaitUp = true → s.plait.role = 2 → s.plait.retained = some img →
    (s.inlineEcc = false ∨ s.plait.retainedBad = false) →
    exec (.imageReq .good) s = .next (settle (each (imageParts (img.length / 4088 + 1) 0 img)
      (fun (off, b) => plaitSend 2 0x21 0xFF (leBytes 4 off ++ leBytes 4 img.length ++ b)) s))) ∧
  (∀ s (total : W32) bytes, s.plaitUp = true → s.wantsImage = true → total.toNat ≤ bytes.length → s.fires = [] →
    exec (.imageData 0 total bytes) s = .next { s with plait := { s.plait with imageBuf := [] }, weave := { s.weave with checking := some (none, bytes.take total.toNat) } }) ∧
  (∀ s (offset total : W32) bytes, s.plaitUp = true → s.wantsImage = true → offset ≠ 0 → s.plait.imageBuf.length = offset.toNat →
    offset.toNat + bytes.length < total.toNat → s.fires = [] →
    exec (.imageData offset total bytes) s = .next { s with plait := { s.plait with imageBuf := s.plait.imageBuf ++ bytes } }) ∧
  (∀ s, s.fires = [] → exec .imageNone s = .next s) ∧
  (∀ s, s.pulses = true → s.plait.hbOut = .idle → s.after s.plait.lastPulse 200 = true → s.fires = [] →
    exec .heartbeatPulse s = .next { s with plait := { s.plait with hbOut := .on s.t, lastPulse := s.t }, out := s.out ++ [.heartbeat true] }) ∧
  (∀ s t0, s.plait.hbOut = .on t0 → s.after t0 1 = true → s.fires = [] →
    exec .heartbeatPulseEnd s = .next { s with plait := { s.plait with hbOut := .idle }, out := s.out ++ [.heartbeat false] }) ∧
  (∀ s, s.twinRoled = true → s.fires = [] →
    exec .heartbeatAssert s = .next { s with plait := { s.plait with hbPresent := true, hbEver := true, lastHb := s.t } }) ∧
  (∀ s, s.plait.hbPresent = true → s.after s.plait.lastHb 1000 = true → s.plaitUp = true →
    Runs .heartbeatLost s fun t => t.plait.hbPresent = false ∧ t.plait.pair = s.plait.pair) ∧
  (∀ s, s.plait.hbPresent = true → s.after s.plait.lastHb 1000 = true → s.plaitUp = false →
    (s.plait.pair = .paired ∨ s.plait.pair = .split) →
    Runs .heartbeatLost s fun t => t.plait.hbPresent = false ∧ t.plait.pair = .twinLost) ∧
  (∀ s, s.plait.pair = .unpaired → s.boot.phase = .ready → s.after s.plait.readyAt 100000 = true → s.plait.everPaired = false →
    s.plait.everReleased = false → s.plait.everActive = false → s.plait.hbEver = false →
    Runs .twinAbsentTimeout s fun t => t.plait.pair = .twinLost)

/-- Faults of the hub: the patrol of the Creel, the temperature, and the stop of the firmware
(spec/20_faults_and_containment R992 to R1013; spec/22_electrical_and_package R1084). The scope and the instance of the entries
are log entry 48; what a read of the patrol finds, and in what, is an operand, and a bad word stays as it is (log entry 13). -/
def Obligations.FaultEventsAct : Prop :=
  (∀ s word, s.fires = [] →
    Runs (.patrolScrub word (.bad .nothing)) s fun t => (0, 0, word) ∈ t.mem.ue ∧ t.err.status.getLsbD 1 = true ∧
      t.err.log = (errEntry s 2 6 0xFFFF (8 * word) 0 0 :: s.err.log).take 64 ∧ t.mem.creel = s.mem.creel) ∧
  (∀ s word place, s.fires = [] →
    Runs (.patrolScrub word (.bad place)) s fun t => t.err.status.getLsbD 1 = true ∧
      t.err.log = (errEntry s 2 6 0xFFFF (8 * word) 0 0 :: s.err.log).take 64 ∧ t.units = (spoilItem word place s).units ∧
      t.parts = (spoilItem word place s).parts ∧ t.osier = (spoilItem word place s).osier ∧ t.mem = (spoilItem word place s).mem) ∧
  (∀ s word (p : Part) (i : Nat) r, s.fires = [] → (s.part p.val).tier[i]? = some r →
    Runs (.patrolScrub word (.bad (.tier p i))) s fun t => (t.part p.val).tier[i]? = some { r with bad := true } ∧ t.mem = s.mem) ∧
  (∀ s word, s.fires = [] → s.mem.ue.contains (0, 0, word) = false →
    Runs (.patrolScrub word .corrected) s fun t => t.mem = { s.mem with ce := s.mem.ce.filter (· != (0, 0, word)) } ∧
      t.err.status = s.err.status ||| 1 ∧ t.err.log = s.err.log) ∧
  (∀ s word, s.fires = [] → s.mem.ue.contains (0, 0, word) = false → s.mem.ce.contains (0, 0, word) = false →
    exec (.patrolScrub word .good) s = .next s) ∧
  (∀ s, s.err.thermalArmed = true → s.fires = [] →
    Runs .thermalTrip s fun t => t.err.thermalArmed = false ∧ t.err.status.getLsbD 13 = true ∧
      t.err.log = (errEntry s 0x0E 6 0xFFFF 0 0 0 :: s.err.log).take 64 ∧ t.err.stopped = s.err.stopped) ∧
  (∀ s, s.err.thermalArmed = false → s.fires = [] → exec .thermalTrip s = .next s) ∧
  (∀ s, s.fires = [] → exec .thermalRearm s = .next { s with err := { s.err with thermalArmed := true } }) ∧
  (∀ s, s.fires = [] → Runs .firmwareStop s fun t => t.err.stopped = true ∧ t.err.status.getLsbD 3 = true ∧
    t.err.log = (errEntry s 4 4 0xFFFF 0 0 4 :: s.err.log).take 64)
end

