-- ==== Sys2Proof/Laws/Only.lean ====
section
/-!
SUPPORT. What each operation leaves unchanged, as lists of the fields of State that it may change.
-/

namespace Sys2Proof.Machine
open Sys2Proof

theorem Only.refl (l : List Fld) (s : State) : Only l s s := ⟨fun f _ => by cases f <;> rfl⟩
theorem Only.trans {l : List Fld} {s t u : State} (h : Only l s t) (k : Only l t u) : Only l s u :=
  ⟨fun f e => by
    have h := h.same f e
    have k := k.same f e
    cases f <;> exact k.trans h⟩
theorem Only.weaken {l m : List Fld} {s t : State} (h : Only l s t) (k : l.all m.contains = true) : Only m s t :=
  ⟨fun f e => h.same f fun i => e (by simpa using List.all_eq_true.mp k f i)⟩
/-- One more operation, whose fields are among those of the list. -/
theorem Only.step {l m : List Fld} {s t u : State} (h : Only l s t) (k : Only m t u) (e : m.all l.contains = true) : Only l s u :=
  h.trans (k.weaken e)
/-- One more update of the fields `m`. -/
theorem Only.upd {l m : List Fld} {s t u : State} (h : Only l s t) (k : m.all l.contains = true)
    (e : ∀ f, f.same t u ∨ m.contains f = true) : Only l s u :=
  h.step ⟨fun f n => (e f).resolve_right (by simpa using n)⟩ k

end Sys2Proof.Machine

namespace Sys2Proof.Laws
open Sys2Proof Sys2Proof.Machine
set_option linter.unusedTactic false
set_option linter.unreachableTactic false

theorem within {a b l : List Fld} (hl : b.all l.contains = true) (h : a.all b.contains = true) : a.all l.contains = true :=
  List.all_eq_true.mpr fun f i => List.all_eq_true.mp hl f (by simpa using List.all_eq_true.mp h f i)
theorem ite_only {l : List Fld} {c : Prop} [Decidable c] {s t u : State} (h : Only l s t) (k : Only l s u) :
    Only l s (if c then t else u) := by
  split <;> assumption
theorem each_only {l : List Fld} {α : Type} {xs : List α} {g : α → State → State} {s0 s : State} (h : Only l s0 s)
    (k : ∀ a t, Only l t (g a t)) : Only l s0 (each xs g s) := by
  refine h.trans ?_
  clear h
  unfold each
  induction xs generalizing s with
  | nil => exact .refl _ _
  | cons a xs ih => exact (k a s).trans ih
theorem foldl_apply_only {l : List Fld} (xs : List (State → State)) (s : State) (h : ∀ g ∈ xs, ∀ t, Only l t (g t)) :
    Only l s (xs.foldl (fun t g => g t) s) := by
  induction xs generalizing s with
  | nil => exact .refl _ _
  | cons g xs ih => exact (h g (.head _) s).trans (ih _ (fun g hg => h g (.tail _ hg)))

theorem upd_pending {l : List Fld} {s x : State} {v_pending} (h : Only l s x) (k : ([.pending] : List Fld).all l.contains = true) :
    Only l s (State.mk v_pending x.now x.id x.pins x.clk x.straps x.boot x.lcy x.tap x.tapLatches x.weave x.hosts x.fns x.sess x.billing x.ports x.units x.parts x.xtrigOut x.slath x.hang x.wale x.always x.osier x.plait x.err x.mem x.out x.fires x.free) :=
  h.upd k fun f => by cases f <;> first | exact .inl rfl | exact .inr rfl

theorem upd_now {l : List Fld} {s x : State} {v_now} (h : Only l s x) (k : ([.now] : List Fld).all l.contains = true) :
    Only l s (State.mk x.pending v_now x.id x.pins x.clk x.straps x.boot x.lcy x.tap x.tapLatches x.weave x.hosts x.fns x.sess x.billing x.ports x.units x.parts x.xtrigOut x.slath x.hang x.wale x.always x.osier x.plait x.err x.mem x.out x.fires x.free) :=
  h.upd k fun f => by cases f <;> first | exact .inl rfl | exact .inr rfl

theorem upd_now_clk {l : List Fld} {s x : State} {v_now v_clk} (h : Only l s x) (k : ([.now, .clk] : List Fld).all l.contains = true) :
    Only l s (State.mk x.pending v_now x.id x.pins v_clk x.straps x.boot x.lcy x.tap x.tapLatches x.weave x.hosts x.fns x.sess x.billing x.ports x.units x.parts x.xtrigOut x.slath x.hang x.wale x.always x.osier x.plait x.err x.mem x.out x.fires x.free) :=
  h.upd k fun f => by cases f <;> first | exact .inl rfl | exact .inr rfl

theorem upd_pins {l : List Fld} {s x : State} {v_pins} (h : Only l s x) (k : ([.pins] : List Fld).all l.contains = true) :
    Only l s (State.mk x.pending x.now x.id v_pins x.clk x.straps x.boot x.lcy x.tap x.tapLatches x.weave x.hosts x.fns x.sess x.billing x.ports x.units x.parts x.xtrigOut x.slath x.hang x.wale x.always x.osier x.plait x.err x.mem x.out x.fires x.free) :=
  h.upd k fun f => by cases f <;> first | exact .inl rfl | exact .inr rfl

theorem upd_pins_straps {l : List Fld} {s x : State} {v_pins v_straps} (h : Only l s x) (k : ([.pins, .straps] : List Fld).all l.contains = true) :
    Only l s (State.mk x.pending x.now x.id v_pins x.clk v_straps x.boot x.lcy x.tap x.tapLatches x.weave x.hosts x.fns x.sess x.billing x.ports x.units x.parts x.xtrigOut x.slath x.hang x.wale x.always x.osier x.plait x.err x.mem x.out x.fires x.free) :=
  h.upd k fun f => by cases f <;> first | exact .inl rfl | exact .inr rfl

theorem upd_pins_boot_lcy_wale_free {l : List Fld} {s x : State} {v_pins v_boot v_lcy v_wale v_free} (h : Only l s x) (k : ([.pins, .boot, .lcy, .wale, .free] : List Fld).all l.contains = true) :
    Only l s (State.mk x.pending x.now x.id v_pins x.clk x.straps v_boot v_lcy x.tap x.tapLatches x.weave x.hosts x.fns x.sess x.billing x.ports x.units x.parts x.xtrigOut x.slath x.hang v_wale x.always x.osier x.plait x.err x.mem x.out x.fires v_free) :=
  h.upd k fun f => by cases f <;> first | exact .inl rfl | exact .inr rfl

theorem upd_clk {l : List Fld} {s x : State} {v_clk} (h : Only l s x) (k : ([.clk] : List Fld).all l.contains = true) :
    Only l s (State.mk x.pending x.now x.id x.pins v_clk x.straps x.boot x.lcy x.tap x.tapLatches x.weave x.hosts x.fns x.sess x.billing x.ports x.units x.parts x.xtrigOut x.slath x.hang x.wale x.always x.osier x.plait x.err x.mem x.out x.fires x.free) :=
  h.upd k fun f => by cases f <;> first | exact .inl rfl | exact .inr rfl

theorem upd_clk_straps {l : List Fld} {s x : State} {v_clk v_straps} (h : Only l s x) (k : ([.clk, .straps] : List Fld).all l.contains = true) :
    Only l s (State.mk x.pending x.now x.id x.pins v_clk v_straps x.boot x.lcy x.tap x.tapLatches x.weave x.hosts x.fns x.sess x.billing x.ports x.units x.parts x.xtrigOut x.slath x.hang x.wale x.always x.osier x.plait x.err x.mem x.out x.fires x.free) :=
  h.upd k fun f => by cases f <;> first | exact .inl rfl | exact .inr rfl

theorem upd_boot {l : List Fld} {s x : State} {v_boot} (h : Only l s x) (k : ([.boot] : List Fld).all l.contains = true) :
    Only l s (State.mk x.pending x.now x.id x.pins x.clk x.straps v_boot x.lcy x.tap x.tapLatches x.weave x.hosts x.fns x.sess x.billing x.ports x.units x.parts x.xtrigOut x.slath x.hang x.wale x.always x.osier x.plait x.err x.mem x.out x.fires x.free) :=
  h.upd k fun f => by cases f <;> first | exact .inl rfl | exact .inr rfl

theorem upd_boot_lcy {l : List Fld} {s x : State} {v_boot v_lcy} (h : Only l s x) (k : ([.boot, .lcy] : List Fld).all l.contains = true) :
    Only l s (State.mk x.pending x.now x.id x.pins x.clk x.straps v_boot v_lcy x.tap x.tapLatches x.weave x.hosts x.fns x.sess x.billing x.ports x.units x.parts x.xtrigOut x.slath x.hang x.wale x.always x.osier x.plait x.err x.mem x.out x.fires x.free) :=
  h.upd k fun f => by cases f <;> first | exact .inl rfl | exact .inr rfl

theorem upd_boot_lcy_tap_hosts_sess_ports_parts_slath_hang_wale_err_mem {l : List Fld} {s x : State} {v_boot v_lcy v_tap v_hosts v_sess v_ports v_parts v_slath v_hang v_wale v_err v_mem} (h : Only l s x) (k : ([.boot, .lcy, .tap, .hosts, .sess, .ports, .parts, .slath, .hang, .wale, .err, .mem] : List Fld).all l.contains = true) :
    Only l s (State.mk x.pending x.now x.id x.pins x.clk x.straps v_boot v_lcy v_tap x.tapLatches x.weave v_hosts x.fns v_sess x.billing v_ports x.units v_parts x.xtrigOut v_slath v_hang v_wale x.always x.osier x.plait v_err v_mem x.out x.fires x.free) :=
  h.upd k fun f => by cases f <;> first | exact .inl rfl | exact .inr rfl

theorem upd_boot_weave_free {l : List Fld} {s x : State} {v_boot v_weave v_free} (h : Only l s x) (k : ([.boot, .weave, .free] : List Fld).all l.contains = true) :
    Only l s (State.mk x.pending x.now x.id x.pins x.clk x.straps v_boot x.lcy x.tap x.tapLatches v_weave x.hosts x.fns x.sess x.billing x.ports x.units x.parts x.xtrigOut x.slath x.hang x.wale x.always x.osier x.plait x.err x.mem x.out x.fires v_free) :=
  h.upd k fun f => by cases f <;> first | exact .inl rfl | exact .inr rfl

theorem upd_boot_wale_plait {l : List Fld} {s x : State} {v_boot v_wale v_plait} (h : Only l s x) (k : ([.boot, .wale, .plait] : List Fld).all l.contains = true) :
    Only l s (State.mk x.pending x.now x.id x.pins x.clk x.straps v_boot x.lcy x.tap x.tapLatches x.weave x.hosts x.fns x.sess x.billing x.ports x.units x.parts x.xtrigOut x.slath x.hang v_wale x.always x.osier v_plait x.err x.mem x.out x.fires x.free) :=
  h.upd k fun f => by cases f <;> first | exact .inl rfl | exact .inr rfl

theorem upd_lcy {l : List Fld} {s x : State} {v_lcy} (h : Only l s x) (k : ([.lcy] : List Fld).all l.contains = true) :
    Only l s (State.mk x.pending x.now x.id x.pins x.clk x.straps x.boot v_lcy x.tap x.tapLatches x.weave x.hosts x.fns x.sess x.billing x.ports x.units x.parts x.xtrigOut x.slath x.hang x.wale x.always x.osier x.plait x.err x.mem x.out x.fires x.free) :=
  h.upd k fun f => by cases f <;> first | exact .inl rfl | exact .inr rfl

theorem upd_lcy_weave_osier_plait {l : List Fld} {s x : State} {v_lcy v_weave v_osier v_plait} (h : Only l s x) (k : ([.lcy, .weave, .osier, .plait] : List Fld).all l.contains = true) :
    Only l s (State.mk x.pending x.now x.id x.pins x.clk x.straps x.boot v_lcy x.tap x.tapLatches v_weave x.hosts x.fns x.sess x.billing x.ports x.units x.parts x.xtrigOut x.slath x.hang x.wale x.always v_osier v_plait x.err x.mem x.out x.fires x.free) :=
  h.upd k fun f => by cases f <;> first | exact .inl rfl | exact .inr rfl

theorem upd_tap {l : List Fld} {s x : State} {v_tap} (h : Only l s x) (k : ([.tap] : List Fld).all l.contains = true) :
    Only l s (State.mk x.pending x.now x.id x.pins x.clk x.straps x.boot x.lcy v_tap x.tapLatches x.weave x.hosts x.fns x.sess x.billing x.ports x.units x.parts x.xtrigOut x.slath x.hang x.wale x.always x.osier x.plait x.err x.mem x.out x.fires x.free) :=
  h.upd k fun f => by cases f <;> first | exact .inl rfl | exact .inr rfl

theorem upd_tapLatches {l : List Fld} {s x : State} {v_tapLatches} (h : Only l s x) (k : ([.tapLatches] : List Fld).all l.contains = true) :
    Only l s (State.mk x.pending x.now x.id x.pins x.clk x.straps x.boot x.lcy x.tap v_tapLatches x.weave x.hosts x.fns x.sess x.billing x.ports x.units x.parts x.xtrigOut x.slath x.hang x.wale x.always x.osier x.plait x.err x.mem x.out x.fires x.free) :=
  h.upd k fun f => by cases f <;> first | exact .inl rfl | exact .inr rfl

theorem upd_weave {l : List Fld} {s x : State} {v_weave} (h : Only l s x) (k : ([.weave] : List Fld).all l.contains = true) :
    Only l s (State.mk x.pending x.now x.id x.pins x.clk x.straps x.boot x.lcy x.tap x.tapLatches v_weave x.hosts x.fns x.sess x.billing x.ports x.units x.parts x.xtrigOut x.slath x.hang x.wale x.always x.osier x.plait x.err x.mem x.out x.fires x.free) :=
  h.upd k fun f => by cases f <;> first | exact .inl rfl | exact .inr rfl

theorem upd_weave_plait {l : List Fld} {s x : State} {v_weave v_plait} (h : Only l s x) (k : ([.weave, .plait] : List Fld).all l.contains = true) :
    Only l s (State.mk x.pending x.now x.id x.pins x.clk x.straps x.boot x.lcy x.tap x.tapLatches v_weave x.hosts x.fns x.sess x.billing x.ports x.units x.parts x.xtrigOut x.slath x.hang x.wale x.always x.osier v_plait x.err x.mem x.out x.fires x.free) :=
  h.upd k fun f => by cases f <;> first | exact .inl rfl | exact .inr rfl

theorem upd_hosts {l : List Fld} {s x : State} {v_hosts} (h : Only l s x) (k : ([.hosts] : List Fld).all l.contains = true) :
    Only l s (State.mk x.pending x.now x.id x.pins x.clk x.straps x.boot x.lcy x.tap x.tapLatches x.weave v_hosts x.fns x.sess x.billing x.ports x.units x.parts x.xtrigOut x.slath x.hang x.wale x.always x.osier x.plait x.err x.mem x.out x.fires x.free) :=
  h.upd k fun f => by cases f <;> first | exact .inl rfl | exact .inr rfl

theorem upd_fns {l : List Fld} {s x : State} {v_fns} (h : Only l s x) (k : ([.fns] : List Fld).all l.contains = true) :
    Only l s (State.mk x.pending x.now x.id x.pins x.clk x.straps x.boot x.lcy x.tap x.tapLatches x.weave x.hosts v_fns x.sess x.billing x.ports x.units x.parts x.xtrigOut x.slath x.hang x.wale x.always x.osier x.plait x.err x.mem x.out x.fires x.free) :=
  h.upd k fun f => by cases f <;> first | exact .inl rfl | exact .inr rfl

theorem upd_sess {l : List Fld} {s x : State} {v_sess} (h : Only l s x) (k : ([.sess] : List Fld).all l.contains = true) :
    Only l s (State.mk x.pending x.now x.id x.pins x.clk x.straps x.boot x.lcy x.tap x.tapLatches x.weave x.hosts x.fns v_sess x.billing x.ports x.units x.parts x.xtrigOut x.slath x.hang x.wale x.always x.osier x.plait x.err x.mem x.out x.fires x.free) :=
  h.upd k fun f => by cases f <;> first | exact .inl rfl | exact .inr rfl

theorem upd_sess_billing {l : List Fld} {s x : State} {v_sess v_billing} (h : Only l s x) (k : ([.sess, .billing] : List Fld).all l.contains = true) :
    Only l s (State.mk x.pending x.now x.id x.pins x.clk x.straps x.boot x.lcy x.tap x.tapLatches x.weave x.hosts x.fns v_sess v_billing x.ports x.units x.parts x.xtrigOut x.slath x.hang x.wale x.always x.osier x.plait x.err x.mem x.out x.fires x.free) :=
  h.upd k fun f => by cases f <;> first | exact .inl rfl | exact .inr rfl

theorem upd_billing {l : List Fld} {s x : State} {v_billing} (h : Only l s x) (k : ([.billing] : List Fld).all l.contains = true) :
    Only l s (State.mk x.pending x.now x.id x.pins x.clk x.straps x.boot x.lcy x.tap x.tapLatches x.weave x.hosts x.fns x.sess v_billing x.ports x.units x.parts x.xtrigOut x.slath x.hang x.wale x.always x.osier x.plait x.err x.mem x.out x.fires x.free) :=
  h.upd k fun f => by cases f <;> first | exact .inl rfl | exact .inr rfl

theorem upd_ports {l : List Fld} {s x : State} {v_ports} (h : Only l s x) (k : ([.ports] : List Fld).all l.contains = true) :
    Only l s (State.mk x.pending x.now x.id x.pins x.clk x.straps x.boot x.lcy x.tap x.tapLatches x.weave x.hosts x.fns x.sess x.billing v_ports x.units x.parts x.xtrigOut x.slath x.hang x.wale x.always x.osier x.plait x.err x.mem x.out x.fires x.free) :=
  h.upd k fun f => by cases f <;> first | exact .inl rfl | exact .inr rfl

theorem upd_units {l : List Fld} {s x : State} {v_units} (h : Only l s x) (k : ([.units] : List Fld).all l.contains = true) :
    Only l s (State.mk x.pending x.now x.id x.pins x.clk x.straps x.boot x.lcy x.tap x.tapLatches x.weave x.hosts x.fns x.sess x.billing x.ports v_units x.parts x.xtrigOut x.slath x.hang x.wale x.always x.osier x.plait x.err x.mem x.out x.fires x.free) :=
  h.upd k fun f => by cases f <;> first | exact .inl rfl | exact .inr rfl

theorem upd_parts {l : List Fld} {s x : State} {v_parts} (h : Only l s x) (k : ([.parts] : List Fld).all l.contains = true) :
    Only l s (State.mk x.pending x.now x.id x.pins x.clk x.straps x.boot x.lcy x.tap x.tapLatches x.weave x.hosts x.fns x.sess x.billing x.ports x.units v_parts x.xtrigOut x.slath x.hang x.wale x.always x.osier x.plait x.err x.mem x.out x.fires x.free) :=
  h.upd k fun f => by cases f <;> first | exact .inl rfl | exact .inr rfl

theorem upd_xtrigOut {l : List Fld} {s x : State} {v_xtrigOut} (h : Only l s x) (k : ([.xtrigOut] : List Fld).all l.contains = true) :
    Only l s (State.mk x.pending x.now x.id x.pins x.clk x.straps x.boot x.lcy x.tap x.tapLatches x.weave x.hosts x.fns x.sess x.billing x.ports x.units x.parts v_xtrigOut x.slath x.hang x.wale x.always x.osier x.plait x.err x.mem x.out x.fires x.free) :=
  h.upd k fun f => by cases f <;> first | exact .inl rfl | exact .inr rfl

theorem upd_slath {l : List Fld} {s x : State} {v_slath} (h : Only l s x) (k : ([.slath] : List Fld).all l.contains = true) :
    Only l s (State.mk x.pending x.now x.id x.pins x.clk x.straps x.boot x.lcy x.tap x.tapLatches x.weave x.hosts x.fns x.sess x.billing x.ports x.units x.parts x.xtrigOut v_slath x.hang x.wale x.always x.osier x.plait x.err x.mem x.out x.fires x.free) :=
  h.upd k fun f => by cases f <;> first | exact .inl rfl | exact .inr rfl

theorem upd_slath_mem {l : List Fld} {s x : State} {v_slath v_mem} (h : Only l s x) (k : ([.slath, .mem] : List Fld).all l.contains = true) :
    Only l s (State.mk x.pending x.now x.id x.pins x.clk x.straps x.boot x.lcy x.tap x.tapLatches x.weave x.hosts x.fns x.sess x.billing x.ports x.units x.parts x.xtrigOut v_slath x.hang x.wale x.always x.osier x.plait x.err v_mem x.out x.fires x.free) :=
  h.upd k fun f => by cases f <;> first | exact .inl rfl | exact .inr rfl

theorem upd_hang {l : List Fld} {s x : State} {v_hang} (h : Only l s x) (k : ([.hang] : List Fld).all l.contains = true) :
    Only l s (State.mk x.pending x.now x.id x.pins x.clk x.straps x.boot x.lcy x.tap x.tapLatches x.weave x.hosts x.fns x.sess x.billing x.ports x.units x.parts x.xtrigOut x.slath v_hang x.wale x.always x.osier x.plait x.err x.mem x.out x.fires x.free) :=
  h.upd k fun f => by cases f <;> first | exact .inl rfl | exact .inr rfl

theorem upd_wale {l : List Fld} {s x : State} {v_wale} (h : Only l s x) (k : ([.wale] : List Fld).all l.contains = true) :
    Only l s (State.mk x.pending x.now x.id x.pins x.clk x.straps x.boot x.lcy x.tap x.tapLatches x.weave x.hosts x.fns x.sess x.billing x.ports x.units x.parts x.xtrigOut x.slath x.hang v_wale x.always x.osier x.plait x.err x.mem x.out x.fires x.free) :=
  h.upd k fun f => by cases f <;> first | exact .inl rfl | exact .inr rfl

theorem upd_always {l : List Fld} {s x : State} {v_always} (h : Only l s x) (k : ([.always] : List Fld).all l.contains = true) :
    Only l s (State.mk x.pending x.now x.id x.pins x.clk x.straps x.boot x.lcy x.tap x.tapLatches x.weave x.hosts x.fns x.sess x.billing x.ports x.units x.parts x.xtrigOut x.slath x.hang x.wale v_always x.osier x.plait x.err x.mem x.out x.fires x.free) :=
  h.upd k fun f => by cases f <;> first | exact .inl rfl | exact .inr rfl

theorem upd_osier {l : List Fld} {s x : State} {v_osier} (h : Only l s x) (k : ([.osier] : List Fld).all l.contains = true) :
    Only l s (State.mk x.pending x.now x.id x.pins x.clk x.straps x.boot x.lcy x.tap x.tapLatches x.weave x.hosts x.fns x.sess x.billing x.ports x.units x.parts x.xtrigOut x.slath x.hang x.wale x.always v_osier x.plait x.err x.mem x.out x.fires x.free) :=
  h.upd k fun f => by cases f <;> first | exact .inl rfl | exact .inr rfl

theorem upd_plait {l : List Fld} {s x : State} {v_plait} (h : Only l s x) (k : ([.plait] : List Fld).all l.contains = true) :
    Only l s (State.mk x.pending x.now x.id x.pins x.clk x.straps x.boot x.lcy x.tap x.tapLatches x.weave x.hosts x.fns x.sess x.billing x.ports x.units x.parts x.xtrigOut x.slath x.hang x.wale x.always x.osier v_plait x.err x.mem x.out x.fires x.free) :=
  h.upd k fun f => by cases f <;> first | exact .inl rfl | exact .inr rfl

theorem upd_err {l : List Fld} {s x : State} {v_err} (h : Only l s x) (k : ([.err] : List Fld).all l.contains = true) :
    Only l s (State.mk x.pending x.now x.id x.pins x.clk x.straps x.boot x.lcy x.tap x.tapLatches x.weave x.hosts x.fns x.sess x.billing x.ports x.units x.parts x.xtrigOut x.slath x.hang x.wale x.always x.osier x.plait v_err x.mem x.out x.fires x.free) :=
  h.upd k fun f => by cases f <;> first | exact .inl rfl | exact .inr rfl

theorem upd_mem {l : List Fld} {s x : State} {v_mem} (h : Only l s x) (k : ([.mem] : List Fld).all l.contains = true) :
    Only l s (State.mk x.pending x.now x.id x.pins x.clk x.straps x.boot x.lcy x.tap x.tapLatches x.weave x.hosts x.fns x.sess x.billing x.ports x.units x.parts x.xtrigOut x.slath x.hang x.wale x.always x.osier x.plait x.err v_mem x.out x.fires x.free) :=
  h.upd k fun f => by cases f <;> first | exact .inl rfl | exact .inr rfl

theorem upd_out {l : List Fld} {s x : State} {v_out} (h : Only l s x) (k : ([.out] : List Fld).all l.contains = true) :
    Only l s (State.mk x.pending x.now x.id x.pins x.clk x.straps x.boot x.lcy x.tap x.tapLatches x.weave x.hosts x.fns x.sess x.billing x.ports x.units x.parts x.xtrigOut x.slath x.hang x.wale x.always x.osier x.plait x.err x.mem v_out x.fires x.free) :=
  h.upd k fun f => by cases f <;> first | exact .inl rfl | exact .inr rfl

theorem upd_fires {l : List Fld} {s x : State} {v_fires} (h : Only l s x) (k : ([.fires] : List Fld).all l.contains = true) :
    Only l s (State.mk x.pending x.now x.id x.pins x.clk x.straps x.boot x.lcy x.tap x.tapLatches x.weave x.hosts x.fns x.sess x.billing x.ports x.units x.parts x.xtrigOut x.slath x.hang x.wale x.always x.osier x.plait x.err x.mem x.out v_fires x.free) :=
  h.upd k fun f => by cases f <;> first | exact .inl rfl | exact .inr rfl

theorem upd_free {l : List Fld} {s x : State} {v_free} (h : Only l s x) (k : ([.free] : List Fld).all l.contains = true) :
    Only l s (State.mk x.pending x.now x.id x.pins x.clk x.straps x.boot x.lcy x.tap x.tapLatches x.weave x.hosts x.fns x.sess x.billing x.ports x.units x.parts x.xtrigOut x.slath x.hang x.wale x.always x.osier x.plait x.err x.mem x.out x.fires v_free) :=
  h.upd k fun f => by cases f <;> first | exact .inl rfl | exact .inr rfl

theorem modFn_only (f : Nat) (g : FnSt → FnSt) (s : State) : Only [.fns] s (modFn f g s) := by
  unfold modFn
  split
  · exact upd_fns (.refl _ _) (by decide)
  · exact .refl _ _

theorem modSess_only (n : Nat) (g : SessSt → SessSt) (s : State) : Only [.sess] s (modSess n g s) := by
  unfold modSess
  repeat' first
    | with_reducible exact Only.refl _ _
    | with_reducible assumption
    | decide
    | with_reducible apply each_only
    | intro _ _
    | intro _
    | split
    | with_reducible apply upd_sess
    | dsimp only

theorem modHost_only (n : Nat) (g : HostSt → HostSt) (s : State) : Only [.hosts] s (modHost n g s) := by
  unfold modHost
  repeat' first
    | with_reducible exact Only.refl _ _
    | with_reducible assumption
    | decide
    | with_reducible apply each_only
    | intro _ _
    | intro _
    | split
    | with_reducible apply upd_hosts
    | dsimp only

theorem modPort_only (n : Nat) (g : PortSt → PortSt) (s : State) : Only [.ports] s (modPort n g s) := by
  unfold modPort
  repeat' first
    | with_reducible exact Only.refl _ _
    | with_reducible assumption
    | decide
    | with_reducible apply each_only
    | intro _ _
    | intro _
    | split
    | with_reducible apply upd_ports
    | dsimp only

theorem modPart_only (p : Nat) (g : PartSt → PartSt) (s : State) : Only [.parts] s (modPart p g s) := by
  unfold modPart
  repeat' first
    | with_reducible exact Only.refl _ _
    | with_reducible assumption
    | decide
    | with_reducible apply each_only
    | intro _ _
    | intro _
    | split
    | with_reducible apply upd_parts
    | dsimp only

theorem modLnk_only (l : Nat) (g : Lnk → Lnk) (s : State) : Only [.ports, .plait] s (modLnk l g s) := by
  unfold modLnk
  repeat' first
    | with_reducible exact Only.refl _ _
    | with_reducible assumption
    | decide
    | with_reducible apply Only.step ?_ (modPort_only ..) ?_
    | with_reducible apply each_only
    | intro _ _
    | intro _
    | split
    | with_reducible apply upd_plait
    | dsimp only

theorem modUnit_only (u : Nat) (g : UnitSt → UnitSt) (s : State) : Only [.units] s (modUnit u g s) := by
  unfold modUnit
  repeat' first
    | with_reducible exact Only.refl _ _
    | with_reducible assumption
    | decide
    | with_reducible apply each_only
    | intro _ _
    | intro _
    | split
    | with_reducible apply upd_units
    | dsimp only

theorem nextFree_only (s : State) : Only [.free] s (nextFree s) := by
  unfold nextFree
  repeat' first
    | with_reducible exact Only.refl _ _
    | with_reducible assumption
    | decide
    | with_reducible apply each_only
    | intro _ _
    | intro _
    | split
    | with_reducible apply upd_free
    | dsimp only

theorem emit_only (o : Out) (s : State) : Only [.out] s (emit o s) := by
  unfold emit
  repeat' first
    | with_reducible exact Only.refl _ _
    | with_reducible assumption
    | decide
    | with_reducible apply each_only
    | intro _ _
    | intro _
    | split
    | with_reducible apply upd_out
    | dsimp only

theorem bumpAlways_only (i : Nat) (n : Nat) (s : State) : Only [.always] s (bumpAlways i n s) := by
  unfold bumpAlways
  repeat' first
    | with_reducible exact Only.refl _ _
    | with_reducible assumption
    | decide
    | with_reducible apply each_only
    | intro _ _
    | intro _
    | split
    | with_reducible apply upd_always
    | dsimp only

theorem hostWrite_only (port : Nat) (addr : Nat) (data : List Byte) (s : State) : Only [.always, .out] s (hostWrite port addr data s) := by
  unfold hostWrite
  repeat' first
    | with_reducible exact Only.refl _ _
    | with_reducible assumption
    | decide
    | with_reducible apply Only.step ?_ (emit_only ..) ?_
    | with_reducible apply Only.step ?_ (bumpAlways_only ..) ?_
    | with_reducible apply each_only
    | intro _ _
    | intro _
    | split
    | dsimp only

theorem signal_only (f : Nat) (v : Nat) (s : State) : Only [.fns, .always, .out] s (signal f v s) := by
  unfold signal
  repeat' first
    | with_reducible exact Only.refl _ _
    | with_reducible assumption
    | decide
    | with_reducible apply Only.step ?_ (modFn_only ..) ?_
    | with_reducible apply Only.step ?_ (emit_only ..) ?_
    | with_reducible apply Only.step ?_ (bumpAlways_only ..) ?_
    | with_reducible apply each_only
    | intro _ _
    | intro _
    | split
    | dsimp only

theorem signalPfs_only (v : Nat) (s : State) : Only [.fns, .always, .out] s (signalPfs v s) := by
  unfold signalPfs
  repeat' first
    | with_reducible exact Only.refl _ _
    | with_reducible assumption
    | decide
    | with_reducible apply Only.step ?_ (signal_only ..) ?_
    | with_reducible apply each_only
    | intro _ _
    | intro _
    | split
    | dsimp only

theorem setEvent_only (f : Nat) (bit : Nat) (s : State) : Only [.fns, .always, .out] s (setEvent f bit s) := by
  unfold setEvent
  repeat' first
    | with_reducible exact Only.refl _ _
    | with_reducible assumption
    | decide
    | with_reducible apply Only.step ?_ (modFn_only ..) ?_
    | with_reducible apply Only.step ?_ (signal_only ..) ?_
    | with_reducible apply each_only
    | intro _ _
    | intro _
    | split
    | dsimp only

theorem setLinkErr_only (l : Nat) (bits : BitVec 3) (s : State) : Only [.ports, .plait] s (setLinkErr l bits s) := by
  unfold setLinkErr
  repeat' first
    | with_reducible exact Only.refl _ _
    | with_reducible assumption
    | decide
    | with_reducible apply Only.step ?_ (modLnk_only ..) ?_
    | with_reducible apply each_only
    | intro _ _
    | intro _
    | split
    | dsimp only

theorem errBit_only (cls : Nat) (s : State) : Only [.fns, .always, .err, .out] s (errBit cls s) := by
  unfold errBit
  repeat' first
    | with_reducible exact Only.refl _ _
    | with_reducible assumption
    | decide
    | with_reducible apply Only.step ?_ (signalPfs_only ..) ?_
    | with_reducible apply each_only
    | intro _ _
    | intro _
    | split
    | with_reducible apply upd_err
    | dsimp only

theorem errLog_only (cls : Nat) (scope : Nat) (inst : Nat) (addr : Nat) (detail : Nat) (action : Nat) (s : State) : Only [.err] s (errLog cls scope inst addr detail action s) := by
  unfold errLog
  repeat' first
    | with_reducible exact Only.refl _ _
    | with_reducible assumption
    | decide
    | with_reducible apply each_only
    | intro _ _
    | intro _
    | split
    | with_reducible apply upd_err
    | dsimp only

theorem raiseErr_only (cls : Nat) (scope : Nat) (inst : Nat) (addr : Nat) (detail : Nat) (action : Nat) (s : State) : Only [.fns, .always, .err, .out] s (raiseErr cls scope inst addr detail action s) := by
  unfold raiseErr
  repeat' first
    | with_reducible exact Only.refl _ _
    | with_reducible assumption
    | decide
    | with_reducible apply Only.step ?_ (errBit_only ..) ?_
    | with_reducible apply Only.step ?_ (errLog_only ..) ?_
    | with_reducible apply each_only
    | intro _ _
    | intro _
    | split
    | dsimp only

theorem correctedWord_only (dram : Bool) (s : State) : Only [.fns, .always, .err, .out] s (correctedWord dram s) := by
  unfold correctedWord
  repeat' first
    | with_reducible exact Only.refl _ _
    | with_reducible assumption
    | decide
    | with_reducible apply Only.step ?_ (bumpAlways_only ..) ?_
    | with_reducible apply Only.step ?_ (errBit_only ..) ?_
    | with_reducible apply each_only
    | intro _ _
    | intro _
    | split
    | dsimp only

theorem uncorrectableWord_only (dram : Bool) (scope : Nat) (inst : Nat) (addr : Nat) (detail : Nat) (action : Nat) (s : State) : Only [.fns, .always, .err, .out] s (uncorrectableWord dram scope inst addr detail action s) := by
  unfold uncorrectableWord
  repeat' first
    | with_reducible exact Only.refl _ _
    | with_reducible assumption
    | decide
    | with_reducible apply Only.step ?_ (bumpAlways_only ..) ?_
    | with_reducible apply Only.step ?_ (raiseErr_only ..) ?_
    | with_reducible apply each_only
    | intro _ _
    | intro _
    | split
    | dsimp only

theorem uncorrectableItem_only (dram : Bool) (scope : Nat) (inst : Nat) (detail : Nat) (action : Nat) (s : State) : Only [.fns, .always, .err, .out, .free] s (uncorrectableItem dram scope inst detail action s) := by
  unfold uncorrectableItem
  repeat' first
    | with_reducible exact Only.refl _ _
    | with_reducible assumption
    | decide
    | with_reducible apply Only.step ?_ (nextFree_only ..) ?_
    | with_reducible apply Only.step ?_ (uncorrectableWord_only ..) ?_
    | with_reducible apply each_only
    | intro _ _
    | intro _
    | split
    | dsimp only

theorem hostPut_only {l0 : List Fld} (f : Nat) (g : State → State) (s : State)
    (hl : ([.always] : List Fld).all l0.contains = true) (hg : ∀ x0, Only l0 x0 (g x0)) : Only l0 s (hostPut f g s) := by
  unfold hostPut
  repeat' first
    | with_reducible exact Only.refl _ _
    | with_reducible assumption
    | exact within hl (by decide)
    | with_reducible apply Only.step ?_ (bumpAlways_only ..) ?_
    | with_reducible apply Only.trans ?_ (hg ..)
    | with_reducible apply each_only
    | intro _ _
    | intro _
    | split
    | dsimp only

theorem modCmd_only (f : Nat) (tag : W32) (g : Cmd → Cmd) (s : State) : Only [.fns] s (modCmd f tag g s) := by
  unfold modCmd
  repeat' first
    | with_reducible exact Only.refl _ _
    | with_reducible assumption
    | decide
    | with_reducible apply Only.step ?_ (modFn_only ..) ?_
    | with_reducible apply each_only
    | intro _ _
    | intro _
    | split
    | dsimp only

theorem modWork_only (f : Nat) (tag : W32) (g : Work → Work) (s : State) : Only [.fns] s (modWork f tag g s) := by
  unfold modWork
  repeat' first
    | with_reducible exact Only.refl _ _
    | with_reducible assumption
    | decide
    | with_reducible apply Only.step ?_ (modCmd_only ..) ?_
    | with_reducible apply each_only
    | intro _ _
    | intro _
    | split
    | dsimp only

theorem startCmd_only {l0 : List Fld} (op : Nat) (f : Nat) (tag : W32) (k : Cmd → State → State) (s : State)
    (hl : ([.fns] : List Fld).all l0.contains = true) (hk : ∀ x0 x1, Only l0 x1 (k x0 x1)) : Only l0 s (startCmd op f tag k s) := by
  unfold startCmd
  repeat' first
    | with_reducible exact Only.refl _ _
    | with_reducible assumption
    | exact within hl (by decide)
    | with_reducible apply Only.step ?_ (modCmd_only ..) ?_
    | with_reducible apply Only.trans ?_ (hk ..)
    | with_reducible apply each_only
    | intro _ _
    | intro _
    | split
    | dsimp only

theorem coalesce_only (f : Nat) (irqNow : Bool) (s : State) : Only [.fns, .always, .out] s (coalesce f irqNow s) := by
  unfold coalesce
  repeat' first
    | with_reducible exact Only.refl _ _
    | with_reducible assumption
    | decide
    | with_reducible apply Only.step ?_ (modFn_only ..) ?_
    | with_reducible apply Only.step ?_ (signal_only ..) ?_
    | with_reducible apply each_only
    | intro _ _
    | intro _
    | split
    | dsimp only

theorem writeCpl_only (f : Nat) (c : Cpl) (irqNow : Bool) (s : State) : Only [.fns, .always, .out] s (writeCpl f c irqNow s) := by
  unfold writeCpl
  repeat' first
    | with_reducible exact Only.refl _ _
    | with_reducible assumption
    | decide
    | with_reducible apply Only.step ?_ (modFn_only ..) ?_
    | with_reducible apply Only.step ?_ (hostWrite_only ..) ?_
    | with_reducible apply Only.step ?_ (coalesce_only ..) ?_
    | with_reducible apply each_only
    | intro _ _
    | intro _
    | split
    | dsimp only

theorem deliverCpl_only (f : Nat) (c : Cpl) (irqNow : Bool) (s : State) : Only [.fns, .always, .out] s (deliverCpl f c irqNow s) := by
  unfold deliverCpl
  repeat' first
    | with_reducible exact Only.refl _ _
    | with_reducible assumption
    | decide
    | with_reducible apply Only.step ?_ (modFn_only ..) ?_
    | with_reducible apply Only.step ?_ (writeCpl_only ..) ?_
    | with_reducible apply each_only
    | intro _ _
    | intro _
    | split
    | dsimp only

theorem completeOne_only (f : Nat) (tag : W32) (r : Res) (s : State) : Only [.fns, .always, .out] s (completeOne f tag r s) := by
  unfold completeOne
  repeat' first
    | with_reducible exact Only.refl _ _
    | with_reducible assumption
    | decide
    | with_reducible apply Only.step ?_ (modFn_only ..) ?_
    | with_reducible apply Only.step ?_ (deliverCpl_only ..) ?_
    | with_reducible apply each_only
    | intro _ _
    | intro _
    | split
    | dsimp only

theorem complete_only (f : Nat) (tag : W32) (r : Res) (s : State) : Only [.fns, .always, .out] s (complete f tag r s) := by
  unfold complete
  repeat' first
    | with_reducible exact Only.refl _ _
    | with_reducible assumption
    | decide
    | with_reducible apply Only.step ?_ (completeOne_only ..) ?_
    | with_reducible apply each_only
    | intro _ _
    | intro _
    | split
    | dsimp only

theorem fail_only (f : Nat) (tag : W32) (st : Byte) (s : State) : Only [.fns, .always, .out] s (fail f tag st s) := by
  unfold fail
  repeat' first
    | with_reducible exact Only.refl _ _
    | with_reducible assumption
    | decide
    | with_reducible apply Only.step ?_ (complete_only ..) ?_
    | with_reducible apply each_only
    | intro _ _
    | intro _
    | split
    | dsimp only

theorem modMeters_only (who : Option Nat) (g : Meters → Meters) (s : State) : Only [.sess, .billing] s (modMeters who g s) := by
  unfold modMeters
  repeat' first
    | with_reducible exact Only.refl _ _
    | with_reducible assumption
    | decide
    | with_reducible apply Only.step ?_ (modSess_only ..) ?_
    | with_reducible apply each_only
    | intro _ _
    | intro _
    | split
    | with_reducible apply upd_billing
    | dsimp only

theorem accrue_only (s : State) : Only [.sess, .billing] s (accrue s) := by
  unfold accrue
  repeat' first
    | with_reducible exact Only.refl _ _
    | with_reducible assumption
    | decide
    | with_reducible apply Only.step ?_ (modMeters_only ..) ?_
    | with_reducible apply each_only
    | intro _ _
    | intro _
    | split
    | dsimp only

theorem updateMeters_only (s : State) : Only [.sess, .billing] s (updateMeters s) := by
  unfold updateMeters
  repeat' first
    | with_reducible exact Only.refl _ _
    | with_reducible assumption
    | decide
    | with_reducible apply each_only
    | intro _ _
    | intro _
    | split
    | with_reducible apply upd_sess_billing
    | dsimp only

theorem setBoundary_only (s : State) : Only [.billing] s (setBoundary s) := by
  unfold setBoundary
  repeat' first
    | with_reducible exact Only.refl _ _
    | with_reducible assumption
    | decide
    | with_reducible apply each_only
    | intro _ _
    | intro _
    | split
    | with_reducible apply upd_billing
    | dsimp only

theorem mlog_only (kind : Nat) (subject : Nat) (epoch : W32) (body : List Byte) (s : State) : Only [.billing] s (mlog kind subject epoch body s) := by
  unfold mlog
  repeat' first
    | with_reducible exact Only.refl _ _
    | with_reducible assumption
    | decide
    | with_reducible apply each_only
    | intro _ _
    | intro _
    | split
    | with_reducible apply upd_billing
    | dsimp only

theorem snapshotMeters_only (s : State) : Only [.sess, .billing] s (snapshotMeters s) := by
  unfold snapshotMeters
  repeat' first
    | with_reducible exact Only.refl _ _
    | with_reducible assumption
    | decide
    | with_reducible apply each_only
    | intro _ _
    | intro _
    | split
    | with_reducible apply upd_sess_billing
    | dsimp only

theorem closeEpoch_only (cause : Nat) (s : State) : Only [.sess, .billing] s (closeEpoch cause s) := by
  unfold closeEpoch
  repeat' first
    | with_reducible exact Only.refl _ _
    | with_reducible assumption
    | decide
    | with_reducible apply Only.step ?_ (mlog_only ..) ?_
    | with_reducible apply Only.step ?_ (snapshotMeters_only ..) ?_
    | with_reducible apply each_only
    | intro _ _
    | intro _
    | split
    | with_reducible apply upd_billing
    | dsimp only

theorem closeByClock_only (s : State) : Only [.sess, .billing] s (closeByClock s) := by
  unfold closeByClock
  repeat' first
    | with_reducible exact Only.refl _ _
    | with_reducible assumption
    | decide
    | with_reducible apply Only.step ?_ (setBoundary_only ..) ?_
    | with_reducible apply Only.step ?_ (closeEpoch_only ..) ?_
    | with_reducible apply each_only
    | intro _ _
    | intro _
    | split
    | dsimp only

theorem joinClose_only (e : LogEntry) (s : State) : Only [.billing] s (joinClose e s) := by
  unfold joinClose
  repeat' first
    | with_reducible exact Only.refl _ _
    | with_reducible assumption
    | decide
    | with_reducible apply each_only
    | intro _ _
    | intro _
    | split
    | with_reducible apply upd_billing
    | dsimp only

theorem autoClose_only (s : State) : Only [.sess, .billing] s (autoClose s) := by
  unfold autoClose
  repeat' first
    | with_reducible exact Only.refl _ _
    | with_reducible assumption
    | decide
    | with_reducible apply Only.step ?_ (closeByClock_only ..) ?_
    | with_reducible apply each_only
    | intro _ _
    | intro _
    | split
    | dsimp only

theorem noteOpenLab_only (s : State) : Only [.billing] s (noteOpenLab s) := by
  unfold noteOpenLab
  repeat' first
    | with_reducible exact Only.refl _ _
    | with_reducible assumption
    | decide
    | with_reducible apply Only.step ?_ (mlog_only ..) ?_
    | with_reducible apply each_only
    | intro _ _
    | intro _
    | split
    | with_reducible apply upd_billing
    | dsimp only

theorem fire_only (p : Nat) (src : Nat) (s : State) : Only [.fires] s (fire p src s) := by
  unfold fire
  repeat' first
    | with_reducible exact Only.refl _ _
    | with_reducible assumption
    | decide
    | with_reducible apply each_only
    | intro _ _
    | intro _
    | split
    | with_reducible apply upd_fires
    | dsimp only

theorem fireAll_only (src : Nat) (s : State) : Only [.fires] s (fireAll src s) := by
  unfold fireAll
  repeat' first
    | with_reducible exact Only.refl _ _
    | with_reducible assumption
    | decide
    | with_reducible apply Only.step ?_ (fire_only ..) ?_
    | with_reducible apply each_only
    | intro _ _
    | intro _
    | split
    | dsimp only

theorem addCounter_only (p : Nat) (k : Nat) (n : Nat) (s : State) : Only [.parts] s (addCounter p k n s) := by
  unfold addCounter
  repeat' first
    | with_reducible exact Only.refl _ _
    | with_reducible assumption
    | decide
    | with_reducible apply Only.step ?_ (modPart_only ..) ?_
    | with_reducible apply each_only
    | intro _ _
    | intro _
    | split
    | dsimp only

theorem atEdge_only {l0 : List Fld} (p : Nat) (g : State → State) (s : State)
    (hl : ([.fires] : List Fld).all l0.contains = true) (hg : ∀ x0, Only l0 x0 (g x0)) : Only l0 s (atEdge p g s) := by
  unfold atEdge
  repeat' first
    | with_reducible exact Only.refl _ _
    | with_reducible assumption
    | exact within hl (by decide)
    | with_reducible apply Only.step ?_ (fire_only ..) ?_
    | with_reducible apply Only.trans ?_ (hg ..)
    | with_reducible apply each_only
    | intro _ _
    | intro _
    | split
    | dsimp only

theorem hubEvent_only (p : Nat) (code : Nat) (n : Nat) (s : State) : Only [.parts, .fires] s (hubEvent p code n s) := by
  unfold hubEvent
  repeat' first
    | with_reducible exact Only.refl _ _
    | with_reducible assumption
    | decide
    | with_reducible apply Only.step ?_ (addCounter_only ..) ?_
    | with_reducible apply Only.trans ?_ (atEdge_only _ _ _ ?_ ?_)
    | with_reducible apply each_only
    | intro _ _
    | intro _
    | split
    | dsimp only

theorem deltaEvent_only (p : Nat) (unit : Nat) (layer : Nat) (type : Nat) (fmt : Nat) (n : Nat) (s : State) : Only [.parts] s (deltaEvent p unit layer type fmt n s) := by
  unfold deltaEvent
  repeat' first
    | with_reducible exact Only.refl _ _
    | with_reducible assumption
    | decide
    | with_reducible apply Only.step ?_ (addCounter_only ..) ?_
    | with_reducible apply each_only
    | intro _ _
    | intro _
    | split
    | dsimp only

theorem spendInjection_only (s : State) : Only [.err] s (spendInjection s) := by
  unfold spendInjection
  repeat' first
    | with_reducible exact Only.refl _ _
    | with_reducible assumption
    | decide
    | with_reducible apply each_only
    | intro _ _
    | intro _
    | split
    | with_reducible apply upd_err
    | dsimp only

theorem spendDram_only (s : State) : Only [.err] s (spendDram s) := by
  unfold spendDram
  repeat' first
    | with_reducible exact Only.refl _ _
    | with_reducible assumption
    | decide
    | with_reducible apply Only.step ?_ (spendInjection_only ..) ?_
    | with_reducible apply each_only
    | intro _ _
    | intro _
    | split
    | dsimp only

theorem spendCreel_only (s : State) : Only [.fns, .always, .err, .out, .free] s (spendCreel s) := by
  unfold spendCreel
  repeat' first
    | with_reducible exact Only.refl _ _
    | with_reducible assumption
    | decide
    | with_reducible apply Only.step ?_ (nextFree_only ..) ?_
    | with_reducible apply Only.step ?_ (correctedWord_only ..) ?_
    | with_reducible apply Only.step ?_ (spendInjection_only ..) ?_
    | with_reducible apply each_only
    | intro _ _
    | intro _
    | split
    | dsimp only

theorem storeExternal_only (a : Nat) (bytes : List Byte) (s : State) : Only [.err, .mem] s (storeExternal a bytes s) := by
  unfold storeExternal
  repeat' first
    | with_reducible exact Only.refl _ _
    | with_reducible assumption
    | decide
    | with_reducible apply Only.step ?_ (spendDram_only ..) ?_
    | with_reducible apply each_only
    | intro _ _
    | intro _
    | split
    | with_reducible apply upd_mem
    | dsimp only

theorem takeBlock_only {s t : State} (h : takeBlock s = some t) : Only [.parts] s t := by
  unfold takeBlock at h
  by_cases c : (if s.stopWhenFull then 64 - s.reservesUsed else 0) < s.blocksFree
  · rw [if_pos c] at h
    rw [← Option.some.inj h]
    exact .refl _ _
  · rw [if_neg c] at h
    split at h
    · cases h
    · obtain ⟨⟨p, b⟩, -, h⟩ := Option.map_eq_some_iff.mp h
      rw [← h]
      exact (modPart_only ..).weaken (by decide)

theorem queueBlock_only (s : State) : Only [.wale] s (queueBlock s) := by
  unfold queueBlock
  repeat' first
    | with_reducible exact Only.refl _ _
    | with_reducible assumption
    | decide
    | with_reducible apply each_only
    | intro _ _
    | intro _
    | split
    | with_reducible apply upd_wale
    | dsimp only

theorem putOpen_only (p : Nat) (s : State) : Only [.parts, .wale, .err] s (putOpen p s) := by
  unfold putOpen
  repeat' first
    | with_reducible exact Only.refl _ _
    | with_reducible assumption
    | decide
    | with_reducible apply Only.step ?_ (modPart_only ..) ?_
    | with_reducible apply Only.step ?_ (spendDram_only ..) ?_
    | with_reducible apply Only.step ?_ (queueBlock_only ..) ?_
    | with_reducible apply each_only
    | intro _ _
    | intro _
    | split
    | dsimp only

theorem commitBlock_only {p : Nat} {s t : State} (h : commitBlock p s = some t) : Only [.parts, .wale, .err] s t := by
  unfold commitBlock at h
  split at h
  · cases h; exact .refl _ _
  · split at h
    · obtain ⟨u, hu, rfl⟩ := Option.map_eq_some_iff.mp h
      exact Only.step ((takeBlock_only hu).weaken (by decide)) (putOpen_only ..) (by decide)
    · cases h

theorem intoBlock_only (r : TraceRec) (s : State) : Only [.parts] s (intoBlock r s) := by
  unfold intoBlock
  repeat' first
    | with_reducible exact Only.refl _ _
    | with_reducible assumption
    | decide
    | with_reducible apply Only.step ?_ (modPart_only ..) ?_
    | with_reducible apply each_only
    | intro _ _
    | intro _
    | split
    | dsimp only

theorem storeDram_only {r : TraceRec} {s t : State} (h : storeDram r s = some t) : Only [.parts, .wale, .err] s t := by
  unfold storeDram at h
  split at h
  · cases h
  · split at h
    · split at h
      · cases h; exact (intoBlock_only ..).weaken (by decide)
      · obtain ⟨u, hu, rfl⟩ := Option.map_eq_some_iff.mp h
        exact Only.step ((commitBlock_only hu).weaken (by decide)) (intoBlock_only ..) (by decide)
    · cases h; exact (intoBlock_only ..).weaken (by decide)

theorem dropPort_only (cause : Nat) (r : TraceRec) (s : State) : Only [.parts, .always] s (dropPort cause r s) := by
  unfold dropPort
  repeat' first
    | with_reducible exact Only.refl _ _
    | with_reducible assumption
    | decide
    | with_reducible apply Only.step ?_ (modPart_only ..) ?_
    | with_reducible apply Only.step ?_ (bumpAlways_only ..) ?_
    | with_reducible apply each_only
    | intro _ _
    | intro _
    | split
    | dsimp only

theorem openReserve_only (p : Nat) (g : Gap) (s : State) : Only [.parts] s (openReserve p g s) := by
  unfold openReserve
  repeat' first
    | with_reducible exact Only.refl _ _
    | with_reducible assumption
    | decide
    | with_reducible apply Only.step ?_ (modPart_only ..) ?_
    | with_reducible apply each_only
    | intro _ _
    | intro _
    | split
    | dsimp only

theorem dropDram_only (cause : Nat) (r : TraceRec) (s : State) : Only [.parts, .always] s (dropDram cause r s) := by
  unfold dropDram
  repeat' first
    | with_reducible exact Only.refl _ _
    | with_reducible assumption
    | decide
    | with_reducible apply Only.step ?_ (modPart_only ..) ?_
    | with_reducible apply Only.step ?_ (bumpAlways_only ..) ?_
    | with_reducible apply Only.step ?_ (openReserve_only ..) ?_
    | with_reducible apply each_only
    | intro _ _
    | intro _
    | split
    | dsimp only

theorem intoSpill_only {r : TraceRec} {s t : State} (h : intoSpill r s = some t) : Only [.parts, .err] s t := by
  unfold intoSpill at h
  dsimp only at h
  have hs : Only [.parts, .err] s (spendDram s) := (spendDram_only s).weaken (by decide)
  generalize spendDram s = s1 at h hs
  repeat' split at h
  all_goals first | (cases h; exact Only.step hs (modPart_only ..) (by decide)) | cases h

theorem storePort_only {r : TraceRec} {s t : State} (h : storePort r s = some t) : Only [.fns, .parts, .always, .err, .out, .free] s t := by
  unfold storePort at h
  dsimp only at h
  repeat' split at h
  · cases h
    exact Only.step (Only.step ((modPart_only ..).weaken (by decide)) (modPart_only ..) (by decide)) (spendCreel_only ..) (by decide)
  · exact Only.step ((modPart_only ..).weaken (by decide)) (intoSpill_only h) (by decide)
  · cases h

theorem modRun_only (id : W32) (g : Run → Run) (s : State) : Only [.osier] s (modRun id g s) := by
  unfold modRun
  repeat' first
    | with_reducible exact Only.refl _ _
    | with_reducible assumption
    | decide
    | with_reducible apply each_only
    | intro _ _
    | intro _
    | split
    | with_reducible apply upd_osier
    | dsimp only

theorem setRuns_only (l : List Run) (s : State) : Only [.osier] s (setRuns l s) := by
  unfold setRuns
  repeat' first
    | with_reducible exact Only.refl _ _
    | with_reducible assumption
    | decide
    | with_reducible apply each_only
    | intro _ _
    | intro _
    | split
    | with_reducible apply upd_osier
    | dsimp only

theorem deliverInput_only (r : TraceRec) (s : State) : Only [.fns, .always, .osier, .err, .out, .free] s (deliverInput r s) := by
  unfold deliverInput
  repeat' first
    | with_reducible exact Only.refl _ _
    | with_reducible assumption
    | decide
    | with_reducible apply Only.step ?_ (spendCreel_only ..) ?_
    | with_reducible apply Only.step ?_ (setRuns_only ..) ?_
    | with_reducible apply each_only
    | intro _ _
    | intro _
    | split
    | dsimp only

theorem shedTier_only (p : Nat) (s : State) : Only [.fns, .parts, .always, .err, .out, .free] s (shedTier p s) := by
  unfold shedTier
  repeat' first
    | with_reducible exact Only.refl _ _
    | with_reducible assumption
    | decide
    | with_reducible apply Only.step ?_ (modPart_only ..) ?_
    | with_reducible apply Only.step ?_ (uncorrectableItem_only ..) ?_
    | with_reducible apply Only.step ?_ (dropPort_only ..) ?_
    | with_reducible apply each_only
    | intro _ _
    | intro _
    | split
    | dsimp only

theorem postExchange_only (p : Nat) (s : State) : Only [.fns, .parts, .always, .osier, .err, .out, .free] s (postExchange p s) := by
  unfold postExchange
  repeat' first
    | with_reducible exact Only.refl _ _
    | with_reducible assumption
    | decide
    | with_reducible apply Only.step ?_ (modPart_only ..) ?_
    | with_reducible apply Only.step ?_ (spendCreel_only ..) ?_
    | with_reducible apply Only.step ?_ (modRun_only ..) ?_
    | with_reducible apply each_only
    | intro _ _
    | intro _
    | split
    | dsimp only

theorem pumpPort_only (p : Nat) (s0 : State) : Only [.fns, .sess, .billing, .parts, .always, .osier, .err, .out, .free] s0 (pumpPort p s0) := by
  unfold pumpPort
  repeat' first
    | with_reducible exact Only.refl _ _
    | with_reducible assumption
    | decide
    | with_reducible apply Only.step ?_ (modPart_only ..) ?_
    | with_reducible apply Only.step ?_ (modMeters_only ..) ?_
    | with_reducible apply Only.step ?_ (shedTier_only ..) ?_
    | with_reducible apply Only.step ?_ (postExchange_only ..) ?_
    | with_reducible apply each_only
    | intro _ _
    | intro _
    | split
    | dsimp only

theorem portArrive_only (r : TraceRec) (s : State) : Only [.fns, .sess, .billing, .parts, .always, .osier, .err, .out, .free] s (portArrive r s) := by
  unfold portArrive
  repeat' first
    | with_reducible exact Only.refl _ _
    | with_reducible assumption
    | decide
    | with_reducible apply Only.step ?_ (dropPort_only ..) ?_
    | with_reducible apply Only.step ?_ (pumpPort_only ..) ?_
    | with_reducible apply each_only
    | intro _ _
    | intro _
    | split
    | with_reducible refine Only.step ?_ (storePort_only (by assumption)) (by decide)
    | dsimp only

theorem shedQueue_only (p : Nat) (s : State) : Only [.fns, .parts, .always, .err, .out, .free] s (shedQueue p s) := by
  unfold shedQueue
  repeat' first
    | with_reducible exact Only.refl _ _
    | with_reducible assumption
    | decide
    | with_reducible apply Only.step ?_ (modPart_only ..) ?_
    | with_reducible apply Only.step ?_ (uncorrectableItem_only ..) ?_
    | with_reducible apply Only.step ?_ (dropDram_only ..) ?_
    | with_reducible apply each_only
    | intro _ _
    | intro _
    | split
    | dsimp only

theorem dramArrive_only (r : TraceRec) (s0 : State) : Only [.fns, .parts, .wale, .always, .err, .out, .free] s0 (dramArrive r s0) := by
  unfold dramArrive
  repeat' first
    | with_reducible exact Only.refl _ _
    | with_reducible assumption
    | decide
    | with_reducible apply Only.step ?_ (uncorrectableItem_only ..) ?_
    | with_reducible apply Only.step ?_ (spendCreel_only ..) ?_
    | with_reducible apply Only.step ?_ (dropDram_only ..) ?_
    | with_reducible apply Only.step ?_ (shedQueue_only ..) ?_
    | with_reducible apply each_only
    | intro _ _
    | intro _
    | split
    | with_reducible refine Only.step ?_ (storeDram_only (by assumption)) (by decide)
    | dsimp only

theorem dramOnly_only (r : TraceRec) (s : State) : Only [.fns, .sess, .billing, .parts, .wale, .always, .err, .out, .fires, .free] s (dramOnly r s) := by
  unfold dramOnly
  repeat' first
    | with_reducible exact Only.refl _ _
    | with_reducible assumption
    | decide
    | with_reducible apply Only.step ?_ (modMeters_only ..) ?_
    | with_reducible apply Only.step ?_ (hubEvent_only ..) ?_
    | with_reducible apply Only.step ?_ (dramArrive_only ..) ?_
    | with_reducible apply each_only
    | intro _ _
    | intro _
    | split
    | dsimp only

theorem holdDram_only (kept : Bool) (r : TraceRec) (s : State) : Only [.parts] s (holdDram kept r s) := by
  unfold holdDram
  repeat' first
    | with_reducible exact Only.refl _ _
    | with_reducible assumption
    | decide
    | with_reducible apply Only.step ?_ (modPart_only ..) ?_
    | with_reducible apply each_only
    | intro _ _
    | intro _
    | split
    | dsimp only

theorem placeRec_only (dest : Nat) (r0 : TraceRec) (s : State) : Only [.fns, .sess, .billing, .parts, .wale, .always, .osier, .err, .out, .fires, .free] s (placeRec dest r0 s) := by
  unfold placeRec
  repeat' first
    | with_reducible exact Only.refl _ _
    | with_reducible assumption
    | decide
    | with_reducible apply Only.step ?_ (hubEvent_only ..) ?_
    | with_reducible apply Only.step ?_ (portArrive_only ..) ?_
    | with_reducible apply Only.step ?_ (dramArrive_only ..) ?_
    | with_reducible apply Only.step ?_ (dramOnly_only ..) ?_
    | with_reducible apply Only.step ?_ (holdDram_only ..) ?_
    | with_reducible apply each_only
    | intro _ _
    | intro _
    | split
    | dsimp only

theorem traceWrite_only (r : TraceRec) (s : State) : Only [.fns, .sess, .billing, .parts, .wale, .always, .osier, .err, .out, .fires, .free] s (traceWrite r s) := by
  unfold traceWrite
  repeat' first
    | with_reducible exact Only.refl _ _
    | with_reducible assumption
    | decide
    | with_reducible apply Only.step ?_ (deliverInput_only ..) ?_
    | with_reducible apply Only.step ?_ (placeRec_only ..) ?_
    | with_reducible apply each_only
    | intro _ _
    | intro _
    | split
    | dsimp only

theorem writeRec_only (cls : Nat) (p : Nat) (payload : List Byte) (s : State) : Only [.fns, .sess, .billing, .parts, .wale, .always, .osier, .err, .out, .fires, .free] s (writeRec cls p payload s) := by
  unfold writeRec
  repeat' first
    | with_reducible exact Only.refl _ _
    | with_reducible assumption
    | decide
    | with_reducible apply Only.step ?_ (traceWrite_only ..) ?_
    | with_reducible apply each_only
    | intro _ _
    | intro _
    | split
    | dsimp only

theorem lossPlaced_only (p : Nat) (n : Nat) (s : State) : Only [.parts, .fires] s (lossPlaced p n s) := by
  unfold lossPlaced
  repeat' first
    | with_reducible exact Only.refl _ _
    | with_reducible assumption
    | decide
    | with_reducible apply Only.step ?_ (hubEvent_only ..) ?_
    | with_reducible apply each_only
    | intro _ _
    | intro _
    | split
    | dsimp only

theorem lossToPort_only (p : Nat) (count : Nat) (mk : Nat → State → TraceRec) (s : State) : Only [.fns, .sess, .billing, .parts, .always, .osier, .err, .out, .fires, .free] s (lossToPort p count mk s) := by
  unfold lossToPort
  repeat' first
    | with_reducible exact Only.refl _ _
    | with_reducible assumption
    | decide
    | with_reducible apply Only.step ?_ (modPart_only ..) ?_
    | with_reducible apply Only.step ?_ (pumpPort_only ..) ?_
    | with_reducible apply Only.step ?_ (lossPlaced_only ..) ?_
    | with_reducible apply each_only
    | intro _ _
    | intro _
    | split
    | with_reducible refine Only.step ?_ (storePort_only (by assumption)) (by decide)
    | dsimp only

theorem dramLossToPort_only (p : Nat) (count : Nat) (mk : Nat → State → TraceRec) (s : State) : Only [.fns, .sess, .billing, .parts, .always, .osier, .err, .out, .fires, .free] s (dramLossToPort p count mk s) := by
  unfold dramLossToPort
  repeat' first
    | with_reducible exact Only.refl _ _
    | with_reducible assumption
    | decide
    | with_reducible apply Only.step ?_ (modPart_only ..) ?_
    | with_reducible apply Only.step ?_ (pumpPort_only ..) ?_
    | with_reducible apply Only.step ?_ (lossPlaced_only ..) ?_
    | with_reducible apply each_only
    | intro _ _
    | intro _
    | split
    | with_reducible refine Only.step ?_ (storePort_only (by assumption)) (by decide)
    | dsimp only

theorem placeLoss_only {r : TraceRec} {s t : State} (h : placeLoss r s = some t) : Only [.parts, .wale, .err] s t := by
  unfold placeLoss at h
  split at h
  · split at h
    · cases h; exact (modPart_only ..).weaken (by decide)
    · cases h
  · exact (storeDram_only h).weaken (by decide)

theorem putDramLoss_only (p : Nat) (count : Nat) (mk : Nat → State → TraceRec) (s : State) : Only [.sess, .billing, .parts, .wale, .err, .fires] s (putDramLoss p count mk s) := by
  unfold putDramLoss
  repeat' first
    | with_reducible exact Only.refl _ _
    | with_reducible assumption
    | decide
    | with_reducible apply Only.step ?_ (modPart_only ..) ?_
    | with_reducible apply Only.step ?_ (modMeters_only ..) ?_
    | with_reducible apply Only.step ?_ (lossPlaced_only ..) ?_
    | with_reducible apply each_only
    | intro _ _
    | intro _
    | split
    | with_reducible refine Only.step ?_ (placeLoss_only (by assumption)) (by decide)
    | dsimp only

theorem lossToDram_only (p : Nat) (count : Nat) (mk : Nat → State → TraceRec) (s : State) : Only [.sess, .billing, .parts, .wale, .err, .fires] s (lossToDram p count mk s) := by
  unfold lossToDram
  repeat' first
    | with_reducible exact Only.refl _ _
    | with_reducible assumption
    | decide
    | with_reducible apply Only.step ?_ (modPart_only ..) ?_
    | with_reducible apply Only.step ?_ (putDramLoss_only ..) ?_
    | with_reducible apply each_only
    | intro _ _
    | intro _
    | split
    | dsimp only

theorem lossBoth_only (p : Nat) (dest : Nat) (count : Nat) (cause : Nat) (port : Nat) (first : W64) (last : W64) (unit : Nat) (s : State) : Only [.fns, .sess, .billing, .parts, .wale, .always, .osier, .err, .out, .fires, .free] s (lossBoth p dest count cause port first last unit s) := by
  unfold lossBoth
  repeat' first
    | with_reducible exact Only.refl _ _
    | with_reducible assumption
    | decide
    | with_reducible apply Only.step ?_ (bumpAlways_only ..) ?_
    | with_reducible apply Only.step ?_ (lossToPort_only ..) ?_
    | with_reducible apply Only.step ?_ (lossToDram_only ..) ?_
    | with_reducible apply each_only
    | intro _ _
    | intro _
    | split
    | dsimp only

theorem markLost_only (r : TraceRec) (s : State) : Only [.parts] s (markLost r s) := by
  unfold markLost
  repeat' first
    | with_reducible exact Only.refl _ _
    | with_reducible assumption
    | decide
    | with_reducible apply Only.step ?_ (modPart_only ..) ?_
    | with_reducible apply each_only
    | intro _ _
    | intro _
    | split
    | dsimp only

theorem flushDram_only (l : List (TraceRec × Bool)) (s : State) : Only [.fns, .sess, .billing, .parts, .wale, .always, .err, .out, .fires, .free] s (flushDram l s) := by
  unfold flushDram
  repeat' first
    | with_reducible exact Only.refl _ _
    | with_reducible assumption
    | decide
    | with_reducible apply Only.step ?_ (dramArrive_only ..) ?_
    | with_reducible apply Only.step ?_ (dramOnly_only ..) ?_
    | with_reducible apply Only.step ?_ (markLost_only ..) ?_
    | with_reducible apply each_only
    | intro _ _
    | intro _
    | split
    | dsimp only

theorem sendEther_only (kind : Nat) (part : Nat) (spilled : Bool) (partSeq : Nat) (recs : Nat) (first : Nat) (body : List Byte) (s : State) : Only [.wale, .always, .out] s (sendEther kind part spilled partSeq recs first body s) := by
  unfold sendEther
  repeat' first
    | with_reducible exact Only.refl _ _
    | with_reducible assumption
    | decide
    | with_reducible apply Only.step ?_ (emit_only ..) ?_
    | with_reducible apply Only.step ?_ (bumpAlways_only ..) ?_
    | with_reducible apply each_only
    | intro _ _
    | intro _
    | split
    | with_reducible apply upd_wale
    | dsimp only

theorem sendTrace_only (p : Nat) (s : State) : Only [.fns, .sess, .billing, .parts, .wale, .always, .osier, .err, .out, .free] s (sendTrace p s) := by
  unfold sendTrace
  repeat' first
    | with_reducible exact Only.refl _ _
    | with_reducible assumption
    | decide
    | with_reducible apply Only.step ?_ (modPart_only ..) ?_
    | with_reducible apply Only.step ?_ (pumpPort_only ..) ?_
    | with_reducible apply Only.step ?_ (sendEther_only ..) ?_
    | with_reducible apply each_only
    | intro _ _
    | intro _
    | split
    | dsimp only

theorem closeFrame_only (p : Nat) (s : State) : Only [.parts] s (closeFrame p s) := by
  unfold closeFrame
  repeat' first
    | with_reducible exact Only.refl _ _
    | with_reducible assumption
    | decide
    | with_reducible apply Only.step ?_ (modPart_only ..) ?_
    | with_reducible apply each_only
    | intro _ _
    | intro _
    | split
    | dsimp only

theorem takeCore_only (c : Nat) (id : W32) (s : State) : Only [.osier] s (takeCore c id s) := by
  unfold takeCore
  repeat' first
    | with_reducible exact Only.refl _ _
    | with_reducible assumption
    | decide
    | with_reducible apply Only.step ?_ (modRun_only ..) ?_
    | with_reducible apply each_only
    | intro _ _
    | intro _
    | split
    | with_reducible apply upd_osier
    | dsimp only

theorem handOver_only (c : Nat) (s : State) : Only [.osier] s (handOver c s) := by
  unfold handOver
  repeat' first
    | with_reducible exact Only.refl _ _
    | with_reducible assumption
    | decide
    | with_reducible apply Only.step ?_ (takeCore_only ..) ?_
    | with_reducible apply each_only
    | intro _ _
    | intro _
    | split
    | dsimp only

theorem freeCore_only (c : Nat) (s : State) : Only [.osier] s (freeCore c s) := by
  unfold freeCore
  repeat' first
    | with_reducible exact Only.refl _ _
    | with_reducible assumption
    | decide
    | with_reducible apply each_only
    | intro _ _
    | intro _
    | split
    | with_reducible apply upd_osier
    | dsimp only

theorem switchFrom_only (q : Run) (sameOrHigher : Bool) (s : State) : Only [.osier] s (switchFrom q sameOrHigher s) := by
  unfold switchFrom
  repeat' first
    | with_reducible exact Only.refl _ _
    | with_reducible assumption
    | decide
    | with_reducible apply Only.step ?_ (takeCore_only ..) ?_
    | with_reducible apply Only.step ?_ (freeCore_only ..) ?_
    | with_reducible apply each_only
    | intro _ _
    | intro _
    | split
    | dsimp only

theorem programRec_only (q : Run) (event : Nat) (data : List Byte) (s : State) : Only [.fns, .sess, .billing, .parts, .wale, .always, .osier, .err, .out, .fires, .free] s (programRec q event data s) := by
  unfold programRec
  repeat' first
    | with_reducible exact Only.refl _ _
    | with_reducible assumption
    | decide
    | with_reducible apply Only.step ?_ (writeRec_only ..) ?_
    | with_reducible apply each_only
    | intro _ _
    | intro _
    | split
    | dsimp only

theorem startRun_only {a : RunReq} {s t : State} {r : Run} (h : startRun a s = some (r, t)) : Only [.fns, .sess, .billing, .parts, .wale, .always, .osier, .err, .out, .fires, .free] s t := by
  unfold startRun at h
  split at h
  · cases h
  · split at h
    · cases h
    · split at h
      · cases h
      · cases h
        exact Only.step (upd_osier (.refl _ _) (by decide)) (programRec_only ..) (by decide)

theorem restartRun_only (id : W32) (s : State) : Only [.osier] s (restartRun id s) := by
  unfold restartRun
  repeat' first
    | with_reducible exact Only.refl _ _
    | with_reducible assumption
    | decide
    | with_reducible apply Only.step ?_ (modRun_only ..) ?_
    | with_reducible apply each_only
    | intro _ _
    | intro _
    | split
    | dsimp only

theorem modCoded_only (p : Nat) (g : Frame → Frame) (s : State) : Only [.parts] s (modCoded p g s) := by
  unfold modCoded
  repeat' first
    | with_reducible exact Only.refl _ _
    | with_reducible assumption
    | decide
    | with_reducible apply Only.step ?_ (modPart_only ..) ?_
    | with_reducible apply each_only
    | intro _ _
    | intro _
    | split
    | dsimp only

theorem putCoded_only (p : Nat) (ends : Bool) (l : List Byte) (s : State) : Only [.parts] s (putCoded p ends l s) := by
  induction l generalizing s with
  | nil => exact .refl _ _
  | cons b l ih =>
    cases l with
    | nil => exact (modCoded_only ..).weaken (by decide)
    | cons c l => exact ((modCoded_only ..).weaken (by decide)).trans (ih _)

theorem closeCoded_only (p : Nat) (s : State) : Only [.parts] s (closeCoded p s) := by
  unfold closeCoded
  repeat' first
    | with_reducible exact Only.refl _ _
    | with_reducible assumption
    | decide
    | with_reducible apply Only.step ?_ (modPart_only ..) ?_
    | with_reducible apply each_only
    | intro _ _
    | intro _
    | split
    | dsimp only

theorem endSpan_only (p : Nat) (s : State) : Only [.sess, .billing, .parts] s (endSpan p s) := by
  unfold endSpan
  repeat' first
    | with_reducible exact Only.refl _ _
    | with_reducible assumption
    | decide
    | with_reducible apply Only.step ?_ (modPart_only ..) ?_
    | with_reducible apply Only.step ?_ (modMeters_only ..) ?_
    | with_reducible apply Only.step ?_ (putCoded_only ..) ?_
    | with_reducible apply each_only
    | intro _ _
    | intro _
    | split
    | dsimp only

theorem putSwitch_only (p : Nat) (payload : List Byte) (ofSwitch : Option Bool) (s : State) : Only [.fns, .sess, .billing, .parts, .wale, .always, .osier, .err, .out, .fires, .free] s (putSwitch p payload ofSwitch s) := by
  unfold putSwitch
  repeat' first
    | with_reducible exact Only.refl _ _
    | with_reducible assumption
    | decide
    | with_reducible apply Only.step ?_ (modPart_only ..) ?_
    | with_reducible apply Only.step ?_ (modMeters_only ..) ?_
    | with_reducible apply Only.step ?_ (hubEvent_only ..) ?_
    | with_reducible apply Only.step ?_ (deliverInput_only ..) ?_
    | with_reducible apply Only.step ?_ (dramArrive_only ..) ?_
    | with_reducible apply Only.step ?_ (holdDram_only ..) ?_
    | with_reducible apply each_only
    | intro _ _
    | intro _
    | split
    | dsimp only

theorem resetCoder_only (p : Nat) (reason : Nat) (newEnc : Bool) (newIndex : Nat) (ofSwitch : Option Bool) (s : State) : Only [.fns, .sess, .billing, .parts, .wale, .always, .osier, .err, .out, .fires, .free] s (resetCoder p reason newEnc newIndex ofSwitch s) := by
  unfold resetCoder
  repeat' first
    | with_reducible exact Only.refl _ _
    | with_reducible assumption
    | decide
    | with_reducible apply Only.step ?_ (modPart_only ..) ?_
    | with_reducible apply Only.step ?_ (restartRun_only ..) ?_
    | with_reducible apply Only.step ?_ (closeCoded_only ..) ?_
    | with_reducible apply Only.step ?_ (endSpan_only ..) ?_
    | with_reducible apply Only.step ?_ (putSwitch_only ..) ?_
    | with_reducible apply each_only
    | intro _ _
    | intro _
    | split
    | dsimp only

theorem resetPoint_only (p : Nat) (reason : Nat) (newEnc : Bool) (newIndex : Nat) (s : State) : Only [.fns, .sess, .billing, .parts, .wale, .always, .osier, .err, .out, .fires, .free] s (resetPoint p reason newEnc newIndex s) := by
  unfold resetPoint
  repeat' first
    | with_reducible exact Only.refl _ _
    | with_reducible assumption
    | decide
    | with_reducible apply Only.step ?_ (pumpPort_only ..) ?_
    | with_reducible apply Only.step ?_ (resetCoder_only ..) ?_
    | with_reducible apply each_only
    | intro _ _
    | intro _
    | split
    | dsimp only

theorem syncCoder_only (p : Nat) (reason : Nat) (s : State) : Only [.fns, .sess, .billing, .parts, .wale, .always, .osier, .err, .out, .fires, .free] s (syncCoder p reason s) := by
  unfold syncCoder
  repeat' first
    | with_reducible exact Only.refl _ _
    | with_reducible assumption
    | decide
    | with_reducible apply Only.step ?_ (resetPoint_only ..) ?_
    | with_reducible apply each_only
    | intro _ _
    | intro _
    | split
    | dsimp only

theorem forceReset_only (p : Nat) (reason : Nat) (s : State) : Only [.fns, .sess, .billing, .parts, .wale, .always, .osier, .err, .out, .fires, .free] s (forceReset p reason s) := by
  unfold forceReset
  repeat' first
    | with_reducible exact Only.refl _ _
    | with_reducible assumption
    | decide
    | with_reducible apply Only.step ?_ (resetPoint_only ..) ?_
    | with_reducible apply each_only
    | intro _ _
    | intro _
    | split
    | dsimp only

theorem spoilCoder_only (hit : Bool) (p : Nat) (s : State) : Only [.parts] s (spoilCoder hit p s) := by
  unfold spoilCoder
  repeat' first
    | with_reducible exact Only.refl _ _
    | with_reducible assumption
    | decide
    | with_reducible apply Only.step ?_ (modPart_only ..) ?_
    | with_reducible apply each_only
    | intro _ _
    | intro _
    | split
    | dsimp only

theorem codeRecord_only (p : Nat) (te : List Nat) (td : List Nat) (r : TraceRec) (s : State) : Only [.sess, .billing, .parts] s (codeRecord p te td r s) := by
  unfold codeRecord
  repeat' first
    | with_reducible exact Only.refl _ _
    | with_reducible assumption
    | decide
    | with_reducible apply Only.step ?_ (modPart_only ..) ?_
    | with_reducible apply Only.step ?_ (modMeters_only ..) ?_
    | with_reducible apply Only.step ?_ (modCoded_only ..) ?_
    | with_reducible apply Only.step ?_ (putCoded_only ..) ?_
    | with_reducible apply each_only
    | intro _ _
    | intro _
    | split
    | dsimp only

theorem closeCounters_only (p : Nat) (new : List (Nat × W64)) (s : State) : Only [.parts] s (closeCounters p new s) := by
  unfold closeCounters
  repeat' first
    | with_reducible exact Only.refl _ _
    | with_reducible assumption
    | decide
    | with_reducible apply Only.step ?_ (modPart_only ..) ?_
    | with_reducible apply each_only
    | intro _ _
    | intro _
    | split
    | dsimp only

theorem takeLatch_only (p : Nat) (q : LatchReq) (s : State) : Only [.fns, .sess, .billing, .parts, .wale, .always, .osier, .err, .out, .fires, .free] s (takeLatch p q s) := by
  unfold takeLatch
  repeat' first
    | with_reducible exact Only.refl _ _
    | with_reducible assumption
    | decide
    | with_reducible apply Only.step ?_ (modPart_only ..) ?_
    | with_reducible apply Only.step ?_ (complete_only ..) ?_
    | with_reducible apply Only.step ?_ (hubEvent_only ..) ?_
    | with_reducible apply Only.step ?_ (writeRec_only ..) ?_
    | with_reducible apply Only.step ?_ (closeCounters_only ..) ?_
    | with_reducible apply each_only
    | intro _ _
    | intro _
    | split
    | dsimp only

theorem markerLatch_only (p : Nat) (q : LatchReq) (s : State) : Only [.fns, .sess, .billing, .parts, .wale, .always, .osier, .err, .out, .fires, .free] s (markerLatch p q s) := by
  unfold markerLatch
  repeat' first
    | with_reducible exact Only.refl _ _
    | with_reducible assumption
    | decide
    | with_reducible apply Only.step ?_ (modPart_only ..) ?_
    | with_reducible apply Only.step ?_ (bumpAlways_only ..) ?_
    | with_reducible apply Only.step ?_ (hubEvent_only ..) ?_
    | with_reducible apply Only.step ?_ (takeLatch_only ..) ?_
    | with_reducible apply each_only
    | intro _ _
    | intro _
    | split
    | dsimp only

theorem bufWrite_only (f : Nat) (tag : W32) (off : Nat) (data : List Byte) (s : State) : Only [.always, .out] s (bufWrite f tag off data s) := by
  unfold bufWrite
  repeat' first
    | with_reducible exact Only.refl _ _
    | with_reducible assumption
    | decide
    | with_reducible apply Only.step ?_ (hostWrite_only ..) ?_
    | with_reducible apply each_only
    | intro _ _
    | intro _
    | split
    | dsimp only

theorem hostLatch_only (f : Nat) (tag : W32) (p : Nat) (mask : Nat) (record : Bool) (s : State) : Only [.fns, .sess, .billing, .parts, .wale, .always, .osier, .err, .out, .fires, .free] s (hostLatch f tag p mask record s) := by
  unfold hostLatch
  repeat' first
    | with_reducible exact Only.refl _ _
    | with_reducible assumption
    | decide
    | with_reducible apply Only.step ?_ (complete_only ..) ?_
    | with_reducible apply Only.step ?_ (takeLatch_only ..) ?_
    | with_reducible apply Only.step ?_ (bufWrite_only ..) ?_
    | with_reducible apply each_only
    | intro _ _
    | intro _
    | split
    | dsimp only

theorem deferredTake_only (p : Nat) (d : DeferredLatch) (s : State) : Only [.fns, .sess, .billing, .parts, .wale, .always, .osier, .err, .out, .fires, .free] s (deferredTake p d s) := by
  unfold deferredTake
  repeat' first
    | with_reducible exact Only.refl _ _
    | with_reducible assumption
    | decide
    | with_reducible apply Only.step ?_ (takeLatch_only ..) ?_
    | with_reducible apply Only.step ?_ (hostLatch_only ..) ?_
    | with_reducible apply each_only
    | intro _ _
    | intro _
    | split
    | dsimp only

theorem requestLatch_only (p : Nat) (d : DeferredLatch) (s : State) : Only [.fns, .sess, .billing, .parts, .wale, .always, .osier, .err, .out, .fires, .free] s (requestLatch p d s) := by
  unfold requestLatch
  repeat' first
    | with_reducible exact Only.refl _ _
    | with_reducible assumption
    | decide
    | with_reducible apply Only.step ?_ (modPart_only ..) ?_
    | with_reducible apply Only.step ?_ (deferredTake_only ..) ?_
    | with_reducible apply each_only
    | intro _ _
    | intro _
    | split
    | dsimp only

theorem sendCtl_only (l : Nat) (type : Nat) (sub : Nat) (body : List Byte) (s : State) : Only [.ports, .plait, .out] s (sendCtl l type sub body s) := by
  unfold sendCtl
  repeat' first
    | with_reducible exact Only.refl _ _
    | with_reducible assumption
    | decide
    | with_reducible apply Only.step ?_ (modLnk_only ..) ?_
    | with_reducible apply Only.step ?_ (emit_only ..) ?_
    | with_reducible apply each_only
    | intro _ _
    | intro _
    | split
    | dsimp only

theorem controlSlot_only (l : Nat) (s : State) : Only [.ports, .plait, .out] s (controlSlot l s) := by
  unfold controlSlot
  repeat' first
    | with_reducible exact Only.refl _ _
    | with_reducible assumption
    | decide
    | with_reducible apply Only.step ?_ (sendCtl_only ..) ?_
    | with_reducible apply each_only
    | intro _ _
    | intro _
    | split
    | dsimp only

theorem putFlit_only (l : Nat) (f : Flit) (s : State) : Only [.always, .out] s (putFlit l f s) := by
  unfold putFlit
  repeat' first
    | with_reducible exact Only.refl _ _
    | with_reducible assumption
    | decide
    | with_reducible apply Only.step ?_ (emit_only ..) ?_
    | with_reducible apply Only.step ?_ (bumpAlways_only ..) ?_
    | with_reducible apply each_only
    | intro _ _
    | intro _
    | split
    | dsimp only

theorem sendFlit_only (l : Nat) (f : Flit) (s : State) : Only [.ports, .always, .plait, .out] s (sendFlit l f s) := by
  unfold sendFlit
  repeat' first
    | with_reducible exact Only.refl _ _
    | with_reducible assumption
    | decide
    | with_reducible apply Only.step ?_ (modLnk_only ..) ?_
    | with_reducible apply Only.step ?_ (controlSlot_only ..) ?_
    | with_reducible apply Only.step ?_ (putFlit_only ..) ?_
    | with_reducible apply each_only
    | intro _ _
    | intro _
    | split
    | dsimp only

theorem sendAgain_only (l : Nat) (f : Flit) (s : State) : Only [.ports, .always, .plait, .out] s (sendAgain l f s) := by
  unfold sendAgain
  repeat' first
    | with_reducible exact Only.refl _ _
    | with_reducible assumption
    | decide
    | with_reducible apply Only.step ?_ (modLnk_only ..) ?_
    | with_reducible apply Only.step ?_ (controlSlot_only ..) ?_
    | with_reducible apply Only.step ?_ (putFlit_only ..) ?_
    | with_reducible apply each_only
    | intro _ _
    | intro _
    | split
    | dsimp only

theorem pumpLoop_only (l : Nat) (k : Nat) (s : State) : Only [.ports, .always, .plait, .out] s (pumpLoop l k s) := by
  induction k generalizing s with
  | zero => exact .refl _ _
  | succ k ih =>
    unfold pumpLoop
    repeat' first
      | with_reducible exact Only.refl _ _
      | with_reducible assumption
      | decide
      | with_reducible apply Only.step ?_ (modLnk_only ..) ?_
      | with_reducible apply Only.step ?_ (sendFlit_only ..) ?_
      | with_reducible apply Only.trans ?_ (ih ..)
      | with_reducible apply each_only
      | intro _ _
      | intro _
      | split
      | dsimp only

theorem pump_only (l : Nat) (s : State) : Only [.ports, .always, .plait, .out] s (pump l s) := by
  unfold pump
  repeat' first
    | with_reducible exact Only.refl _ _
    | with_reducible assumption
    | decide
    | with_reducible apply Only.step ?_ (pumpLoop_only ..) ?_
    | with_reducible apply each_only
    | intro _ _
    | intro _
    | split
    | dsimp only

theorem sendReq_only (l : Nat) (r : OutReq) (s : State) : Only [.ports, .always, .plait, .out] s (sendReq l r s) := by
  unfold sendReq
  repeat' first
    | with_reducible exact Only.refl _ _
    | with_reducible assumption
    | decide
    | with_reducible apply Only.step ?_ (modLnk_only ..) ?_
    | with_reducible apply Only.step ?_ (pump_only ..) ?_
    | with_reducible apply each_only
    | intro _ _
    | intro _
    | split
    | dsimp only

theorem modStake_only (n : Nat) (p : Nat) (g : StakeView → StakeView) (s : State) : Only [.ports] s (modStake n p g s) := by
  unfold modStake
  repeat' first
    | with_reducible exact Only.refl _ _
    | with_reducible assumption
    | decide
    | with_reducible apply Only.step ?_ (modPort_only ..) ?_
    | with_reducible apply each_only
    | intro _ _
    | intro _
    | split
    | dsimp only

theorem ask_only (n : Nat) (ch : Nat) (op : Nat) (target : Nat) (wide : Bool) (p : Nat) (tag : W32) (who : ReqFor) (data : List Byte) (s : State) : Only [.ports, .always, .plait, .out] s (ask n ch op target wide p tag who data s) := by
  unfold ask
  repeat' first
    | with_reducible exact Only.refl _ _
    | with_reducible assumption
    | decide
    | with_reducible apply Only.step ?_ (sendReq_only ..) ?_
    | with_reducible apply each_only
    | intro _ _
    | intro _
    | split
    | dsimp only

theorem askRegWrite_only (n : Nat) (target : Nat) (wide : Bool) (p : Nat) (tag : W32) (subseq : Nat) (who : ReqFor) (off : Nat) (words : List Byte) (s : State) : Only [.ports, .always, .plait, .out] s (askRegWrite n target wide p tag subseq who off words s) := by
  unfold askRegWrite
  repeat' first
    | with_reducible exact Only.refl _ _
    | with_reducible assumption
    | decide
    | with_reducible apply Only.step ?_ (ask_only ..) ?_
    | with_reducible apply each_only
    | intro _ _
    | intro _
    | split
    | dsimp only

theorem askRegRead_only (n : Nat) (target : Nat) (p : Nat) (tag : W32) (who : ReqFor) (off : Nat) (count : Nat) (s : State) : Only [.ports, .always, .plait, .out] s (askRegRead n target p tag who off count s) := by
  unfold askRegRead
  repeat' first
    | with_reducible exact Only.refl _ _
    | with_reducible assumption
    | decide
    | with_reducible apply Only.step ?_ (ask_only ..) ?_
    | with_reducible apply each_only
    | intro _ _
    | intro _
    | split
    | dsimp only

theorem askClaim_only (n : Nat) (p : Nat) (s : State) : Only [.ports, .always, .plait, .out] s (askClaim n p s) := by
  unfold askClaim
  repeat' first
    | with_reducible exact Only.refl _ _
    | with_reducible assumption
    | decide
    | with_reducible apply Only.step ?_ (ask_only ..) ?_
    | with_reducible apply each_only
    | intro _ _
    | intro _
    | split
    | dsimp only

theorem askRenew_only (n : Nat) (p : Nat) (s : State) : Only [.ports, .always, .plait, .out] s (askRenew n p s) := by
  unfold askRenew
  repeat' first
    | with_reducible exact Only.refl _ _
    | with_reducible assumption
    | decide
    | with_reducible apply Only.step ?_ (ask_only ..) ?_
    | with_reducible apply each_only
    | intro _ _
    | intro _
    | split
    | dsimp only

theorem askRelease_only (n : Nat) (p : Nat) (s : State) : Only [.ports, .always, .plait, .out] s (askRelease n p s) := by
  unfold askRelease
  repeat' first
    | with_reducible exact Only.refl _ _
    | with_reducible assumption
    | decide
    | with_reducible apply Only.step ?_ (ask_only ..) ?_
    | with_reducible apply each_only
    | intro _ _
    | intro _
    | split
    | dsimp only

theorem plaitSend_only (ch : Nat) (op : Nat) (part : Nat) (data : List Byte) (s : State) : Only [.ports, .always, .plait, .out] s (plaitSend ch op part data s) := by
  unfold plaitSend
  repeat' first
    | with_reducible exact Only.refl _ _
    | with_reducible assumption
    | decide
    | with_reducible apply Only.step ?_ (sendReq_only ..) ?_
    | with_reducible apply each_only
    | intro _ _
    | intro _
    | split
    | dsimp only

theorem noteWeft_only (p : Nat) (s : State) : Only [.parts] s (noteWeft p s) := by
  unfold noteWeft
  repeat' first
    | with_reducible exact Only.refl _ _
    | with_reducible assumption
    | decide
    | with_reducible apply Only.step ?_ (modPart_only ..) ?_
    | with_reducible apply each_only
    | intro _ _
    | intro _
    | split
    | dsimp only

theorem noteWarp_only (s : State) : Only [.weave] s (noteWarp s) := by
  unfold noteWarp
  repeat' first
    | with_reducible exact Only.refl _ _
    | with_reducible assumption
    | decide
    | with_reducible apply each_only
    | intro _ _
    | intro _
    | split
    | with_reducible apply upd_weave
    | dsimp only

theorem noteSettled_only (s : State) : Only [.weave, .parts] s (noteSettled s) := by
  unfold noteSettled
  repeat' first
    | with_reducible exact Only.refl _ _
    | with_reducible assumption
    | decide
    | with_reducible apply Only.step ?_ (noteWeft_only ..) ?_
    | with_reducible apply Only.step ?_ (noteWarp_only ..) ?_
    | with_reducible apply each_only
    | intro _ _
    | intro _
    | split
    | dsimp only

theorem cutRec_only (event : Nat) (c : Cut) (s : State) : Only [.fns, .sess, .billing, .parts, .wale, .always, .osier, .err, .out, .fires, .free] s (cutRec event c s) := by
  unfold cutRec
  repeat' first
    | with_reducible exact Only.refl _ _
    | with_reducible assumption
    | decide
    | with_reducible apply Only.step ?_ (writeRec_only ..) ?_
    | with_reducible apply each_only
    | intro _ _
    | intro _
    | split
    | dsimp only

theorem finishOwners_only (c : Cut) (r : Bool → Res) (s : State) : Only [.fns, .always, .out] s (finishOwners c r s) := by
  unfold finishOwners
  repeat' first
    | with_reducible exact Only.refl _ _
    | with_reducible assumption
    | decide
    | with_reducible apply Only.step ?_ (complete_only ..) ?_
    | with_reducible apply each_only
    | intro _ _
    | intro _
    | split
    | dsimp only

theorem hangRec_only (p : Nat) (event : Nat) (r : HangReport) (s : State) : Only [.fns, .sess, .billing, .parts, .wale, .always, .osier, .err, .out, .fires, .free] s (hangRec p event r s) := by
  unfold hangRec
  repeat' first
    | with_reducible exact Only.refl _ _
    | with_reducible assumption
    | decide
    | with_reducible apply Only.step ?_ (writeRec_only ..) ?_
    | with_reducible apply each_only
    | intro _ _
    | intro _
    | split
    | dsimp only

theorem endBinding_only (p : Nat) (event : Nat) (g : HangReport → HangReport) (s : State) : Only [.fns, .sess, .billing, .parts, .wale, .always, .osier, .err, .out, .fires, .free] s (endBinding p event g s) := by
  unfold endBinding
  repeat' first
    | with_reducible exact Only.refl _ _
    | with_reducible assumption
    | decide
    | with_reducible apply Only.step ?_ (modPart_only ..) ?_
    | with_reducible apply Only.step ?_ (hangRec_only ..) ?_
    | with_reducible apply each_only
    | intro _ _
    | intro _
    | split
    | dsimp only

theorem closeBinding_only (p : Nat) (s : State) : Only [.fns, .sess, .billing, .parts, .wale, .always, .osier, .err, .out, .fires, .free] s (closeBinding p s) := by
  unfold closeBinding
  repeat' first
    | with_reducible exact Only.refl _ _
    | with_reducible assumption
    | decide
    | with_reducible apply Only.step ?_ (endBinding_only ..) ?_
    | with_reducible apply each_only
    | intro _ _
    | intro _
    | split
    | dsimp only

theorem bindReports_only (p : Nat) (cut : W32) (s : State) : Only [.fns, .sess, .billing, .parts, .wale, .always, .osier, .err, .out, .fires, .free] s (bindReports p cut s) := by
  unfold bindReports
  repeat' first
    | with_reducible exact Only.refl _ _
    | with_reducible assumption
    | decide
    | with_reducible apply Only.step ?_ (endBinding_only ..) ?_
    | with_reducible apply each_only
    | intro _ _
    | intro _
    | split
    | dsimp only

theorem reportRefused_only (p : Nat) (id : Option W32) (s : State) : Only [.parts] s (reportRefused p id s) := by
  unfold reportRefused
  repeat' first
    | with_reducible exact Only.refl _ _
    | with_reducible assumption
    | decide
    | with_reducible apply Only.step ?_ (modPart_only ..) ?_
    | with_reducible apply each_only
    | intro _ _
    | intro _
    | split
    | dsimp only

theorem modBuild_only (p : Nat) (g : Cut → Cut) (s : State) : Only [.parts] s (modBuild p g s) := by
  unfold modBuild
  repeat' first
    | with_reducible exact Only.refl _ _
    | with_reducible assumption
    | decide
    | with_reducible apply Only.step ?_ (modPart_only ..) ?_
    | with_reducible apply each_only
    | intro _ _
    | intro _
    | split
    | dsimp only

theorem modCut_only (p : Nat) (id : W32) (g : Cut → Cut) (s : State) : Only [.parts] s (modCut p id g s) := by
  unfold modCut
  repeat' first
    | with_reducible exact Only.refl _ _
    | with_reducible assumption
    | decide
    | with_reducible apply Only.step ?_ (modPart_only ..) ?_
    | with_reducible apply each_only
    | intro _ _
    | intro _
    | split
    | dsimp only

theorem logPoisoned_only (c : Cut) (s : State) : Only [.fns, .always, .err, .out, .free] s (logPoisoned c s) := by
  unfold logPoisoned
  repeat' first
    | with_reducible exact Only.refl _ _
    | with_reducible assumption
    | decide
    | with_reducible apply Only.step ?_ (uncorrectableItem_only ..) ?_
    | with_reducible apply each_only
    | intro _ _
    | intro _
    | split
    | dsimp only

theorem poisonHeld_only (p : Nat) (l : List Nat) (s : State) : Only [.units, .parts] s (poisonHeld p l s) := by
  unfold poisonHeld
  repeat' first
    | with_reducible exact Only.refl _ _
    | with_reducible assumption
    | decide
    | with_reducible apply Only.step ?_ (modUnit_only ..) ?_
    | with_reducible apply Only.step ?_ (modBuild_only ..) ?_
    | with_reducible apply each_only
    | intro _ _
    | intro _
    | split
    | dsimp only

theorem refuseCut_only (p : Nat) (c : Cut) (s : State) : Only [.fns, .sess, .billing, .parts, .wale, .always, .osier, .err, .out, .fires, .free] s (refuseCut p c s) := by
  unfold refuseCut
  repeat' first
    | with_reducible exact Only.refl _ _
    | with_reducible assumption
    | decide
    | with_reducible apply Only.step ?_ (modPart_only ..) ?_
    | with_reducible apply Only.step ?_ (bumpAlways_only ..) ?_
    | with_reducible apply Only.step ?_ (cutRec_only ..) ?_
    | with_reducible apply Only.step ?_ (finishOwners_only ..) ?_
    | with_reducible apply Only.step ?_ (reportRefused_only ..) ?_
    | with_reducible apply each_only
    | intro _ _
    | intro _
    | split
    | dsimp only

theorem assignCut_only (p : Nat) (s : State) : Only [.fns, .sess, .billing, .parts, .slath, .wale, .always, .osier, .err, .out, .fires, .free] s (assignCut p s) := by
  unfold assignCut
  repeat' first
    | with_reducible exact Only.refl _ _
    | with_reducible assumption
    | decide
    | with_reducible apply Only.step ?_ (modPart_only ..) ?_
    | with_reducible apply Only.step ?_ (bumpAlways_only ..) ?_
    | with_reducible apply Only.step ?_ (hubEvent_only ..) ?_
    | with_reducible apply Only.step ?_ (cutRec_only ..) ?_
    | with_reducible apply Only.step ?_ (finishOwners_only ..) ?_
    | with_reducible apply Only.step ?_ (bindReports_only ..) ?_
    | with_reducible apply Only.step ?_ (refuseCut_only ..) ?_
    | with_reducible apply each_only
    | intro _ _
    | intro _
    | split
    | with_reducible apply upd_slath
    | dsimp only

theorem endProof_only (p : Nat) (s : State) : Only [.fns, .sess, .billing, .parts, .wale, .always, .osier, .err, .out, .fires, .free] s (endProof p s) := by
  unfold endProof
  repeat' first
    | with_reducible exact Only.refl _ _
    | with_reducible assumption
    | decide
    | with_reducible apply Only.step ?_ (spendDram_only ..) ?_
    | with_reducible apply Only.step ?_ (spendCreel_only ..) ?_
    | with_reducible apply Only.step ?_ (modBuild_only ..) ?_
    | with_reducible apply Only.step ?_ (logPoisoned_only ..) ?_
    | with_reducible apply Only.step ?_ (refuseCut_only ..) ?_
    | with_reducible apply each_only
    | intro _ _
    | intro _
    | split
    | dsimp only

theorem captured_only (p : Nat) (c : Cut) (s : State) : Only [.fns, .sess, .billing, .parts, .wale, .always, .osier, .err, .out, .fires, .free] s (captured p c s) := by
  unfold captured
  repeat' first
    | with_reducible exact Only.refl _ _
    | with_reducible assumption
    | decide
    | with_reducible apply Only.step ?_ (cutRec_only ..) ?_
    | with_reducible apply Only.step ?_ (modCut_only ..) ?_
    | with_reducible apply each_only
    | intro _ _
    | intro _
    | split
    | dsimp only

theorem assignEmpty_only (p : Nat) (s : State) : Only [.fns, .sess, .billing, .parts, .slath, .wale, .always, .osier, .err, .out, .fires, .free] s (assignEmpty p s) := by
  unfold assignEmpty
  repeat' first
    | with_reducible exact Only.refl _ _
    | with_reducible assumption
    | decide
    | with_reducible apply Only.step ?_ (assignCut_only ..) ?_
    | with_reducible apply Only.step ?_ (endProof_only ..) ?_
    | with_reducible apply Only.step ?_ (captured_only ..) ?_
    | with_reducible apply each_only
    | intro _ _
    | intro _
    | split
    | dsimp only

theorem modChan_only (c : W32) (g : ChanEntry → ChanEntry) (s : State) : Only [.hang] s (modChan c g s) := by
  unfold modChan
  repeat' first
    | with_reducible exact Only.refl _ _
    | with_reducible assumption
    | decide
    | with_reducible apply each_only
    | intro _ _
    | intro _
    | split
    | with_reducible apply upd_hang
    | dsimp only

theorem ageEvents_only (u : Nat) (s : State) : Only [.hang] s (ageEvents u s) := by
  unfold ageEvents
  repeat' first
    | with_reducible exact Only.refl _ _
    | with_reducible assumption
    | decide
    | with_reducible apply each_only
    | intro _ _
    | intro _
    | split
    | with_reducible apply upd_hang
    | dsimp only

theorem uncertain_only (u : Nat) (s0 : State) : Only [.units, .hang] s0 (uncertain u s0) := by
  unfold uncertain
  repeat' first
    | with_reducible exact Only.refl _ _
    | with_reducible assumption
    | decide
    | with_reducible apply Only.step ?_ (modUnit_only ..) ?_
    | with_reducible apply Only.step ?_ (ageEvents_only ..) ?_
    | with_reducible apply each_only
    | intro _ _
    | intro _
    | split
    | with_reducible apply upd_hang
    | dsimp only

theorem hangEvent_only (e : HangEv) (s : State) : Only [.units, .hang] s (hangEvent e s) := by
  unfold hangEvent
  repeat' first
    | with_reducible exact Only.refl _ _
    | with_reducible assumption
    | decide
    | with_reducible apply Only.step ?_ (modUnit_only ..) ?_
    | with_reducible apply Only.step ?_ (modChan_only ..) ?_
    | with_reducible apply each_only
    | intro _ _
    | intro _
    | split
    | dsimp only

theorem freezeGraph_only (p : Nat) (s : State) : Only [.parts] s (freezeGraph p s) := by
  unfold freezeGraph
  repeat' first
    | with_reducible exact Only.refl _ _
    | with_reducible assumption
    | decide
    | with_reducible apply Only.step ?_ (modPart_only ..) ?_
    | with_reducible apply each_only
    | intro _ _
    | intro _
    | split
    | dsimp only

theorem addReport_only (p : Nat) (q : ReportReq) (s : State) : Only [.fns, .sess, .billing, .parts, .hang, .wale, .always, .osier, .err, .out, .fires, .free] s (addReport p q s) := by
  unfold addReport
  repeat' first
    | with_reducible exact Only.refl _ _
    | with_reducible assumption
    | decide
    | with_reducible apply Only.step ?_ (modPart_only ..) ?_
    | with_reducible apply Only.step ?_ (hubEvent_only ..) ?_
    | with_reducible apply Only.step ?_ (spendCreel_only ..) ?_
    | with_reducible apply Only.step ?_ (hangRec_only ..) ?_
    | with_reducible apply each_only
    | intro _ _
    | intro _
    | split
    | with_reducible apply upd_hang
    | dsimp only

theorem startGraph_only (p : Nat) (s : State) : Only [.units, .parts, .hang] s (startGraph p s) := by
  unfold startGraph
  repeat' first
    | with_reducible exact Only.refl _ _
    | with_reducible assumption
    | decide
    | with_reducible apply Only.step ?_ (modPart_only ..) ?_
    | with_reducible apply Only.step ?_ (uncertain_only ..) ?_
    | with_reducible apply each_only
    | intro _ _
    | intro _
    | split
    | dsimp only

theorem stopGraph_only (p : Nat) (s : State) : Only [.units, .parts] s (stopGraph p s) := by
  unfold stopGraph
  repeat' first
    | with_reducible exact Only.refl _ _
    | with_reducible assumption
    | decide
    | with_reducible apply Only.step ?_ (modPart_only ..) ?_
    | with_reducible apply Only.step ?_ (modUnit_only ..) ?_
    | with_reducible apply each_only
    | intro _ _
    | intro _
    | split
    | dsimp only

theorem pumpAdaptor_only (s : State) : Only [.osier] s (pumpAdaptor s) := by
  unfold pumpAdaptor
  repeat' first
    | with_reducible exact Only.refl _ _
    | with_reducible assumption
    | decide
    | with_reducible apply each_only
    | intro _ _
    | intro _
    | split
    | with_reducible apply upd_osier
    | dsimp only

theorem pushCall_only (c : AdaptorCall) (s : State) : Only [.osier] s (pushCall c s) := by
  unfold pushCall
  repeat' first
    | with_reducible exact Only.refl _ _
    | with_reducible assumption
    | decide
    | with_reducible apply Only.step ?_ (pumpAdaptor_only ..) ?_
    | with_reducible apply each_only
    | intro _ _
    | intro _
    | split
    | with_reducible apply upd_osier
    | dsimp only

theorem assertHoop_only (n : Nat) (s : State) : Only [.ports, .out] s (assertHoop n s) := by
  unfold assertHoop
  repeat' first
    | with_reducible exact Only.refl _ _
    | with_reducible assumption
    | decide
    | with_reducible apply Only.step ?_ (modPort_only ..) ?_
    | with_reducible apply Only.step ?_ (emit_only ..) ?_
    | with_reducible apply each_only
    | intro _ _
    | intro _
    | split
    | dsimp only

theorem setXtrig_only (j : Nat) (v : Pulse) (s : State) : Only [.xtrigOut] s (setXtrig j v s) := by
  unfold setXtrig
  repeat' first
    | with_reducible exact Only.refl _ _
    | with_reducible assumption
    | decide
    | with_reducible apply each_only
    | intro _ _
    | intro _
    | split
    | with_reducible apply upd_xtrigOut
    | dsimp only

theorem driveXtrig_only (j : Nat) (active : Bool) (s : State) : Only [.out] s (driveXtrig j active s) := by
  unfold driveXtrig
  repeat' first
    | with_reducible exact Only.refl _ _
    | with_reducible assumption
    | decide
    | with_reducible apply Only.step ?_ (emit_only ..) ?_
    | with_reducible apply each_only
    | intro _ _
    | intro _
    | split
    | dsimp only

theorem setXtrigLow_only (j : Nat) (low : Bool) (s : State) : Only [.xtrigOut] s (setXtrigLow j low s) := by
  unfold setXtrigLow
  repeat' first
    | with_reducible exact Only.refl _ _
    | with_reducible assumption
    | decide
    | with_reducible apply each_only
    | intro _ _
    | intro _
    | split
    | with_reducible apply upd_xtrigOut
    | dsimp only

theorem startXtrig_only (j : Nat) (s : State) : Only [.xtrigOut, .out] s (startXtrig j s) := by
  unfold startXtrig
  repeat' first
    | with_reducible exact Only.refl _ _
    | with_reducible assumption
    | decide
    | with_reducible apply Only.step ?_ (setXtrig_only ..) ?_
    | with_reducible apply Only.step ?_ (driveXtrig_only ..) ?_
    | with_reducible apply each_only
    | intro _ _
    | intro _
    | split
    | dsimp only

theorem pulseXtrig_only (j : Nat) (low : Bool) (s : State) : Only [.xtrigOut, .out] s (pulseXtrig j low s) := by
  unfold pulseXtrig
  repeat' first
    | with_reducible exact Only.refl _ _
    | with_reducible assumption
    | decide
    | with_reducible apply Only.step ?_ (setXtrig_only ..) ?_
    | with_reducible apply Only.step ?_ (setXtrigLow_only ..) ?_
    | with_reducible apply Only.step ?_ (startXtrig_only ..) ?_
    | with_reducible apply each_only
    | intro _ _
    | intro _
    | split
    | dsimp only

theorem triggerRec_only (p : Nat) (serial : Nat) (sources : Nat) (term : Nat) (action : Nat) (abrupt : Bool) (hoop : Nat) (vc0 : Nat) (fwd : Nat) (hostTag : Nat) (suppressed : Nat) (s : State) : Only [.fns, .sess, .billing, .parts, .wale, .always, .osier, .err, .out, .fires, .free] s (triggerRec p serial sources term action abrupt hoop vc0 fwd hostTag suppressed s) := by
  unfold triggerRec
  repeat' first
    | with_reducible exact Only.refl _ _
    | with_reducible assumption
    | decide
    | with_reducible apply Only.step ?_ (writeRec_only ..) ?_
    | with_reducible apply each_only
    | intro _ _
    | intro _
    | split
    | dsimp only

theorem haltUnit_only (timeout : Nat) (u : Nat) (s : State) : Only [.units] s (haltUnit timeout u s) := by
  unfold haltUnit
  repeat' first
    | with_reducible exact Only.refl _ _
    | with_reducible assumption
    | decide
    | with_reducible apply Only.step ?_ (modUnit_only ..) ?_
    | with_reducible apply each_only
    | intro _ _
    | intro _
    | split
    | dsimp only

theorem freshTimeout_only (timeout : Nat) (u : Nat) (s : State) : Only [.units] s (freshTimeout timeout u s) := by
  unfold freshTimeout
  repeat' first
    | with_reducible exact Only.refl _ _
    | with_reducible assumption
    | decide
    | with_reducible apply Only.step ?_ (modUnit_only ..) ?_
    | with_reducible apply each_only
    | intro _ _
    | intro _
    | split
    | dsimp only

theorem askHalt_only (n : Nat) (p : Nat) (tag : W32) (subseq : Nat) (abrupt : Bool) (who : ReqFor) (s : State) : Only [.ports, .always, .plait, .out] s (askHalt n p tag subseq abrupt who s) := by
  unfold askHalt
  repeat' first
    | with_reducible exact Only.refl _ _
    | with_reducible assumption
    | decide
    | with_reducible apply Only.step ?_ (ask_only ..) ?_
    | with_reducible apply each_only
    | intro _ _
    | intro _
    | split
    | dsimp only

theorem sendHalts_only (p : Nat) (abrupt : Bool) (host : Option (Nat × W32)) (ports : List Nat) (s : State) : Only [.fns, .ports, .parts, .always, .plait, .out] s (sendHalts p abrupt host ports s) := by
  unfold sendHalts
  repeat' first
    | with_reducible exact Only.refl _ _
    | with_reducible assumption
    | decide
    | with_reducible apply Only.step ?_ (modPart_only ..) ?_
    | with_reducible apply Only.step ?_ (modWork_only ..) ?_
    | with_reducible apply Only.step ?_ (askHalt_only ..) ?_
    | with_reducible apply each_only
    | intro _ _
    | intro _
    | split
    | dsimp only

theorem fallbackHalts_only (p : Nat) (abrupt : Bool) (host : Option (Nat × W32)) (s : State) : Only [.osier] s (fallbackHalts p abrupt host s) := by
  unfold fallbackHalts
  repeat' first
    | with_reducible exact Only.refl _ _
    | with_reducible assumption
    | decide
    | with_reducible apply Only.step ?_ (pushCall_only ..) ?_
    | with_reducible apply each_only
    | intro _ _
    | intro _
    | split
    | dsimp only

theorem enterHold_only (p : Nat) (s : State) : Only [.parts] s (enterHold p s) := by
  unfold enterHold
  repeat' first
    | with_reducible exact Only.refl _ _
    | with_reducible assumption
    | decide
    | with_reducible apply Only.step ?_ (modPart_only ..) ?_
    | with_reducible apply each_only
    | intro _ _
    | intro _
    | split
    | dsimp only

theorem noteAction_only (r : HaltReq) (abrupt : Bool) (serial : Nat) (s : State) : Only [.parts] s (noteAction r abrupt serial s) := by
  unfold noteAction
  repeat' first
    | with_reducible exact Only.refl _ _
    | with_reducible assumption
    | decide
    | with_reducible apply Only.step ?_ (modPart_only ..) ?_
    | with_reducible apply each_only
    | intro _ _
    | intro _
    | split
    | dsimp only

theorem haltAction_only (r : HaltReq) (fast : List Nat) (suppressed : Nat) (s : State) : Only [.fns, .sess, .billing, .ports, .units, .parts, .xtrigOut, .wale, .always, .osier, .plait, .err, .out, .fires, .free] s (haltAction r fast suppressed s) := by
  unfold haltAction
  repeat' first
    | with_reducible exact Only.refl _ _
    | with_reducible assumption
    | decide
    | with_reducible apply Only.step ?_ (modPart_only ..) ?_
    | with_reducible apply Only.step ?_ (bumpAlways_only ..) ?_
    | with_reducible apply Only.step ?_ (hubEvent_only ..) ?_
    | with_reducible apply Only.step ?_ (plaitSend_only ..) ?_
    | with_reducible apply Only.step ?_ (pulseXtrig_only ..) ?_
    | with_reducible apply Only.step ?_ (triggerRec_only ..) ?_
    | with_reducible apply Only.step ?_ (haltUnit_only ..) ?_
    | with_reducible apply Only.step ?_ (sendHalts_only ..) ?_
    | with_reducible apply Only.step ?_ (fallbackHalts_only ..) ?_
    | with_reducible apply Only.step ?_ (noteAction_only ..) ?_
    | with_reducible apply each_only
    | intro _ _
    | intro _
    | split
    | dsimp only

theorem performHalts_only (l : List HaltReq) (s : State) : Only [.fns, .sess, .billing, .ports, .units, .parts, .xtrigOut, .wale, .always, .osier, .plait, .err, .out, .fires, .free] s (performHalts l s) := by
  unfold performHalts
  repeat' first
    | with_reducible exact Only.refl _ _
    | with_reducible assumption
    | decide
    | with_reducible apply Only.step ?_ (freezeGraph_only ..) ?_
    | with_reducible apply Only.step ?_ (assertHoop_only ..) ?_
    | with_reducible apply Only.step ?_ (enterHold_only ..) ?_
    | with_reducible apply Only.step ?_ (haltAction_only ..) ?_
    | with_reducible apply each_only
    | intro _ _
    | intro _
    | split
    | dsimp only

theorem completeHalt_only (f : Nat) (c : Cmd) (g : Option Gather) (s : State) : Only [.fns, .always, .out] s (completeHalt f c g s) := by
  unfold completeHalt
  repeat' first
    | with_reducible exact Only.refl _ _
    | with_reducible assumption
    | decide
    | with_reducible apply Only.step ?_ (complete_only ..) ?_
    | with_reducible apply each_only
    | intro _ _
    | intro _
    | split
    | dsimp only

theorem askSynth_only (u : Nat) (p : Nat) (s : State) : Only [.ports, .always, .plait, .out] s (askSynth u p s) := by
  unfold askSynth
  repeat' first
    | with_reducible exact Only.refl _ _
    | with_reducible assumption
    | decide
    | with_reducible apply Only.step ?_ (askRegRead_only ..) ?_
    | with_reducible apply each_only
    | intro _ _
    | intro _
    | split
    | dsimp only

theorem cutGathered_only (p : Nat) (s : State) : Only [.fns, .sess, .billing, .ports, .parts, .slath, .wale, .always, .osier, .plait, .err, .out, .fires, .free] s (cutGathered p s) := by
  unfold cutGathered
  repeat' first
    | with_reducible exact Only.refl _ _
    | with_reducible assumption
    | decide
    | with_reducible apply Only.step ?_ (modPart_only ..) ?_
    | with_reducible apply Only.step ?_ (assignEmpty_only ..) ?_
    | with_reducible apply Only.step ?_ (askSynth_only ..) ?_
    | with_reducible apply each_only
    | intro _ _
    | intro _
    | split
    | dsimp only

theorem checkGather_only (p : Nat) (s : State) : Only [.fns, .sess, .billing, .ports, .parts, .slath, .wale, .always, .osier, .plait, .err, .out, .fires, .free] s (checkGather p s) := by
  unfold checkGather
  repeat' first
    | with_reducible exact Only.refl _ _
    | with_reducible assumption
    | decide
    | with_reducible apply Only.step ?_ (modPart_only ..) ?_
    | with_reducible apply Only.step ?_ (completeHalt_only ..) ?_
    | with_reducible apply Only.step ?_ (cutGathered_only ..) ?_
    | with_reducible apply each_only
    | intro _ _
    | intro _
    | split
    | dsimp only

theorem checkGathering_only (p : Nat) (s : State) : Only [.fns, .sess, .billing, .ports, .parts, .slath, .wale, .always, .osier, .plait, .err, .out, .fires, .free] s (checkGathering p s) := by
  unfold checkGathering
  repeat' first
    | with_reducible exact Only.refl _ _
    | with_reducible assumption
    | decide
    | with_reducible apply Only.step ?_ (checkGather_only ..) ?_
    | with_reducible apply each_only
    | intro _ _
    | intro _
    | split
    | dsimp only

theorem raiseAction_only (r : HaltReq) (h : AtHalt) (s : State) : Only [.fns, .ports, .parts, .always, .osier, .plait, .out] s (raiseAction r h s) := by
  unfold raiseAction
  repeat' first
    | with_reducible exact Only.refl _ _
    | with_reducible assumption
    | decide
    | with_reducible apply Only.step ?_ (modPart_only ..) ?_
    | with_reducible apply Only.step ?_ (plaitSend_only ..) ?_
    | with_reducible apply Only.step ?_ (sendHalts_only ..) ?_
    | with_reducible apply Only.step ?_ (fallbackHalts_only ..) ?_
    | with_reducible apply each_only
    | intro _ _
    | intro _
    | split
    | dsimp only

theorem joinAction_only (p : Nat) (mask : Nat) (h : AtHalt) (s : State) : Only [.fns, .sess, .billing, .ports, .parts, .slath, .wale, .always, .osier, .plait, .err, .out, .fires, .free] s (joinAction p mask h s) := by
  unfold joinAction
  repeat' first
    | with_reducible exact Only.refl _ _
    | with_reducible assumption
    | decide
    | with_reducible apply Only.step ?_ (modPart_only ..) ?_
    | with_reducible apply Only.step ?_ (checkGathering_only ..) ?_
    | with_reducible apply Only.step ?_ (raiseAction_only ..) ?_
    | with_reducible apply each_only
    | intro _ _
    | intro _
    | split
    | dsimp only

theorem edgeEffect_only (p : Nat) (mask : Nat) (s : State) : Only [.fns, .sess, .billing, .ports, .parts, .slath, .wale, .always, .osier, .plait, .err, .out, .fires, .free] s (edgeEffect p mask s) := by
  unfold edgeEffect
  repeat' first
    | with_reducible exact Only.refl _ _
    | with_reducible assumption
    | decide
    | with_reducible apply Only.step ?_ (modPart_only ..) ?_
    | with_reducible apply Only.step ?_ (triggerRec_only ..) ?_
    | with_reducible apply Only.step ?_ (joinAction_only ..) ?_
    | with_reducible apply each_only
    | intro _ _
    | intro _
    | split
    | dsimp only

theorem edgeOnce_only (host : List HaltReq) (s : State) : Only latticeFields s (edgeOnce host s) := by
  unfold edgeOnce
  repeat' first
    | with_reducible exact Only.refl _ _
    | with_reducible assumption
    | decide
    | with_reducible apply Only.step ?_ (performHalts_only ..) ?_
    | with_reducible apply Only.step ?_ (checkGather_only ..) ?_
    | with_reducible apply Only.step ?_ (edgeEffect_only ..) ?_
    | with_reducible apply each_only
    | intro _ _
    | intro _
    | split
    | with_reducible apply upd_fires
    | dsimp only

theorem latticeEdge_only (host : List HaltReq) (s : State) : Only latticeFields s (latticeEdge host s) := by
  unfold latticeEdge
  repeat' first
    | with_reducible exact Only.refl _ _
    | with_reducible assumption
    | decide
    | with_reducible apply Only.step ?_ (modPart_only ..) ?_
    | with_reducible apply Only.step ?_ (edgeOnce_only ..) ?_
    | with_reducible apply each_only
    | intro _ _
    | intro _
    | split
    | dsimp only

theorem settleLoop_only (k : Nat) (s : State) : Only latticeFields s (settleLoop k s) := by
  induction k generalizing s with
  | zero => exact .refl _ _
  | succ k ih =>
    unfold settleLoop
    repeat' first
      | with_reducible exact Only.refl _ _
      | with_reducible assumption
      | decide
      | with_reducible apply Only.step ?_ (latticeEdge_only ..) ?_
      | with_reducible apply Only.trans ?_ (ih ..)
      | with_reducible apply each_only
      | intro _ _
      | intro _
      | split
      | dsimp only

theorem settle_only (s : State) : Only latticeFields s (settle s) := by
  unfold settle
  repeat' first
    | with_reducible exact Only.refl _ _
    | with_reducible assumption
    | decide
    | with_reducible apply Only.step ?_ (settleLoop_only ..) ?_
    | with_reducible apply each_only
    | intro _ _
    | intro _
    | split
    | with_reducible apply upd_fires
    | dsimp only

theorem enterHalts_only (l : List HaltReq) (s : State) : Only latticeFields s (enterHalts l s) := by
  unfold enterHalts
  repeat' first
    | with_reducible exact Only.refl _ _
    | with_reducible assumption
    | decide
    | with_reducible apply Only.step ?_ (latticeEdge_only ..) ?_
    | with_reducible apply Only.step ?_ (settle_only ..) ?_
    | with_reducible apply each_only
    | intro _ _
    | intro _
    | split
    | dsimp only

theorem enterHost_only {l0 : List Fld} (r : HaltReq) (held : State → State) (s : State)
    (hl : (latticeFields : List Fld).all l0.contains = true) (hheld : ∀ x0, Only l0 x0 (held x0)) : Only l0 s (enterHost r held s) := by
  unfold enterHost
  repeat' first
    | with_reducible exact Only.refl _ _
    | with_reducible assumption
    | exact within hl (by decide)
    | with_reducible apply Only.step ?_ (checkGather_only ..) ?_
    | with_reducible apply Only.step ?_ (raiseAction_only ..) ?_
    | with_reducible apply Only.step ?_ (enterHalts_only ..) ?_
    | with_reducible apply Only.trans ?_ (hheld ..)
    | with_reducible apply each_only
    | intro _ _
    | intro _
    | split
    | dsimp only

theorem endHold_only (p : Nat) (s : State) : Only [.parts] s (endHold p s) := by
  unfold endHold
  repeat' first
    | with_reducible exact Only.refl _ _
    | with_reducible assumption
    | decide
    | with_reducible apply Only.step ?_ (modPart_only ..) ?_
    | with_reducible apply each_only
    | intro _ _
    | intro _
    | split
    | dsimp only

theorem runSent_only (p : Nat) (toDie : Bool) (s : State) : Only [.fns, .sess, .billing, .parts, .wale, .always, .osier, .err, .out, .fires, .free] s (runSent p toDie s) := by
  unfold runSent
  repeat' first
    | with_reducible exact Only.refl _ _
    | with_reducible assumption
    | decide
    | with_reducible apply Only.step ?_ (closeBinding_only ..) ?_
    | with_reducible apply Only.step ?_ (endHold_only ..) ?_
    | with_reducible apply each_only
    | intro _ _
    | intro _
    | split
    | dsimp only

theorem plaitEvent_only (bit : Nat) (s : State) : Only [.fns, .always, .plait, .out] s (plaitEvent bit s) := by
  unfold plaitEvent
  repeat' first
    | with_reducible exact Only.refl _ _
    | with_reducible assumption
    | decide
    | with_reducible apply Only.step ?_ (signalPfs_only ..) ?_
    | with_reducible apply each_only
    | intro _ _
    | intro _
    | split
    | with_reducible apply upd_plait
    | dsimp only

theorem stakeNote_only (n : Nat) (p : Nat) (event : Nat) (s : State) : Only [.ports, .always, .plait, .out] s (stakeNote n p event s) := by
  unfold stakeNote
  repeat' first
    | with_reducible exact Only.refl _ _
    | with_reducible assumption
    | decide
    | with_reducible apply Only.step ?_ (plaitSend_only ..) ?_
    | with_reducible apply each_only
    | intro _ _
    | intro _
    | split
    | dsimp only

theorem sendHoopEn_only (n : Nat) (p : Nat) (v : Bool) (s : State) : Only [.ports, .always, .plait, .out] s (sendHoopEn n p v s) := by
  unfold sendHoopEn
  repeat' first
    | with_reducible exact Only.refl _ _
    | with_reducible assumption
    | decide
    | with_reducible apply Only.step ?_ (plaitSend_only ..) ?_
    | with_reducible apply each_only
    | intro _ _
    | intro _
    | split
    | dsimp only

theorem askHoopCtrl_only (n : Nat) (p : Nat) (en : Bool) (abrupt : Bool) (s : State) : Only [.ports, .always, .plait, .out] s (askHoopCtrl n p en abrupt s) := by
  unfold askHoopCtrl
  repeat' first
    | with_reducible exact Only.refl _ _
    | with_reducible assumption
    | decide
    | with_reducible apply Only.step ?_ (askRegWrite_only ..) ?_
    | with_reducible apply each_only
    | intro _ _
    | intro _
    | split
    | dsimp only

theorem writeHoopCtrl_only (n : Nat) (p : Nat) (s : State) : Only [.ports, .always, .plait, .out] s (writeHoopCtrl n p s) := by
  unfold writeHoopCtrl
  repeat' first
    | with_reducible exact Only.refl _ _
    | with_reducible assumption
    | decide
    | with_reducible apply Only.step ?_ (sendHoopEn_only ..) ?_
    | with_reducible apply Only.step ?_ (askHoopCtrl_only ..) ?_
    | with_reducible apply each_only
    | intro _ _
    | intro _
    | split
    | with_reducible apply upd_plait
    | dsimp only

theorem keepEvtEn_only (n : Nat) (p : Nat) (s : State) : Only [.ports, .always, .plait, .out] s (keepEvtEn n p s) := by
  unfold keepEvtEn
  repeat' first
    | with_reducible exact Only.refl _ _
    | with_reducible assumption
    | decide
    | with_reducible apply Only.step ?_ (askRegWrite_only ..) ?_
    | with_reducible apply each_only
    | intro _ _
    | intro _
    | split
    | dsimp only

theorem clearResends_only (n : Nat) (p : Nat) (s : State) : Only [.ports] s (clearResends n p s) := by
  unfold clearResends
  repeat' first
    | with_reducible exact Only.refl _ _
    | with_reducible assumption
    | decide
    | with_reducible apply Only.step ?_ (modPort_only ..) ?_
    | with_reducible apply each_only
    | intro _ _
    | intro _
    | split
    | dsimp only

theorem flushResends_only (n : Nat) (p : Nat) (s : State) : Only [.ports, .always, .plait, .out] s (flushResends n p s) := by
  unfold flushResends
  repeat' first
    | with_reducible exact Only.refl _ _
    | with_reducible assumption
    | decide
    | with_reducible apply Only.step ?_ (sendReq_only ..) ?_
    | with_reducible apply Only.step ?_ (clearResends_only ..) ?_
    | with_reducible apply each_only
    | intro _ _
    | intro _
    | split
    | dsimp only

theorem stakeGained_only (n : Nat) (p : Nat) (gen : Nat) (s : State) : Only [.fns, .ports, .always, .plait, .out] s (stakeGained n p gen s) := by
  unfold stakeGained
  repeat' first
    | with_reducible exact Only.refl _ _
    | with_reducible assumption
    | decide
    | with_reducible apply Only.step ?_ (modWork_only ..) ?_
    | with_reducible apply Only.step ?_ (modStake_only ..) ?_
    | with_reducible apply Only.step ?_ (plaitEvent_only ..) ?_
    | with_reducible apply Only.step ?_ (stakeNote_only ..) ?_
    | with_reducible apply Only.step ?_ (writeHoopCtrl_only ..) ?_
    | with_reducible apply Only.step ?_ (keepEvtEn_only ..) ?_
    | with_reducible apply Only.step ?_ (flushResends_only ..) ?_
    | with_reducible apply each_only
    | intro _ _
    | intro _
    | split
    | dsimp only

theorem stakeLost_only (n : Nat) (p : Nat) (s : State) : Only [.fns, .ports, .always, .plait, .out] s (stakeLost n p s) := by
  unfold stakeLost
  repeat' first
    | with_reducible exact Only.refl _ _
    | with_reducible assumption
    | decide
    | with_reducible apply Only.step ?_ (modStake_only ..) ?_
    | with_reducible apply Only.step ?_ (plaitEvent_only ..) ?_
    | with_reducible apply Only.step ?_ (stakeNote_only ..) ?_
    | with_reducible apply each_only
    | intro _ _
    | intro _
    | split
    | dsimp only

theorem claim_only (n : Nat) (p : Nat) (s : State) : Only [.ports, .always, .plait, .out] s (claim n p s) := by
  unfold claim
  repeat' first
    | with_reducible exact Only.refl _ _
    | with_reducible assumption
    | decide
    | with_reducible apply Only.step ?_ (askClaim_only ..) ?_
    | with_reducible apply each_only
    | intro _ _
    | intro _
    | split
    | dsimp only

theorem sendParts_only (f : Nat) (tag : W32) (p : Nat) (sel : Nat → Bool) (l : List CmdMsg) (s : State) : Only [.fns, .ports, .always, .plait, .out] s (sendParts f tag p sel l s) := by
  unfold sendParts
  repeat' first
    | with_reducible exact Only.refl _ _
    | with_reducible assumption
    | decide
    | with_reducible apply Only.step ?_ (modWork_only ..) ?_
    | with_reducible apply Only.step ?_ (ask_only ..) ?_
    | with_reducible apply each_only
    | intro _ _
    | intro _
    | split
    | dsimp only

theorem sendAll_only (f : Nat) (c : Cmd) (l : List CmdMsg) (s : State) : Only [.fns, .ports, .always, .plait, .out] s (sendAll f c l s) := by
  unfold sendAll
  repeat' first
    | with_reducible exact Only.refl _ _
    | with_reducible assumption
    | decide
    | with_reducible apply Only.step ?_ (sendParts_only ..) ?_
    | with_reducible apply each_only
    | intro _ _
    | intro _
    | split
    | dsimp only

theorem purgeCmd_only (f : Nat) (tag : W32) (s : State) : Only [.fns, .ports, .osier] s (purgeCmd f tag s) := by
  unfold purgeCmd
  repeat' first
    | with_reducible exact Only.refl _ _
    | with_reducible assumption
    | decide
    | with_reducible apply Only.step ?_ (modPort_only ..) ?_
    | with_reducible apply Only.step ?_ (modWork_only ..) ?_
    | with_reducible apply each_only
    | intro _ _
    | intro _
    | split
    | with_reducible apply upd_osier
    | dsimp only

theorem failCmd_only (f : Nat) (tag : W32) (st : Byte) (s : State) : Only [.fns, .ports, .osier] s (failCmd f tag st s) := by
  unfold failCmd
  repeat' first
    | with_reducible exact Only.refl _ _
    | with_reducible assumption
    | decide
    | with_reducible apply Only.step ?_ (modWork_only ..) ?_
    | with_reducible apply Only.step ?_ (purgeCmd_only ..) ?_
    | with_reducible apply each_only
    | intro _ _
    | intro _
    | split
    | dsimp only

theorem fallbackCalls_only (f : Nat) (c : Cmd) (op : Nat) (data : List Byte) (s : State) : Only [.fns, .osier] s (fallbackCalls f c op data s) := by
  unfold fallbackCalls
  repeat' first
    | with_reducible exact Only.refl _ _
    | with_reducible assumption
    | decide
    | with_reducible apply Only.step ?_ (modWork_only ..) ?_
    | with_reducible apply Only.step ?_ (pushCall_only ..) ?_
    | with_reducible apply each_only
    | intro _ _
    | intro _
    | split
    | dsimp only

theorem noteRuns_only (s : State) : Only [.fns, .sess, .billing, .parts, .wale, .always, .osier, .err, .out, .fires, .free] s (noteRuns s) := by
  unfold noteRuns
  repeat' first
    | with_reducible exact Only.refl _ _
    | with_reducible assumption
    | decide
    | with_reducible apply Only.step ?_ (modWork_only ..) ?_
    | with_reducible apply Only.step ?_ (runSent_only ..) ?_
    | with_reducible apply each_only
    | intro _ _
    | intro _
    | split
    | dsimp only

theorem sendRun_only (f : Nat) (c : Cmd) (op : Nat) (body : List Byte) (sel : Nat → Bool) (s : State) : Only [.fns, .sess, .billing, .ports, .parts, .wale, .always, .osier, .plait, .err, .out, .fires, .free] s (sendRun f c op body sel s) := by
  unfold sendRun
  repeat' first
    | with_reducible exact Only.refl _ _
    | with_reducible assumption
    | decide
    | with_reducible apply Only.step ?_ (sendParts_only ..) ?_
    | with_reducible apply Only.step ?_ (fallbackCalls_only ..) ?_
    | with_reducible apply Only.step ?_ (noteRuns_only ..) ?_
    | with_reducible apply each_only
    | intro _ _
    | intro _
    | split
    | dsimp only

theorem advanceLoop_only (f : Nat) (tag : W32) (k : Nat) (s : State) : Only [.fns, .sess, .billing, .ports, .parts, .wale, .always, .osier, .plait, .err, .out, .fires, .free] s (advanceLoop f tag k s) := by
  induction k generalizing s with
  | zero => exact .refl _ _
  | succ k ih =>
    unfold advanceLoop
    repeat' first
      | with_reducible exact Only.refl _ _
      | with_reducible assumption
      | decide
      | with_reducible apply Only.step ?_ (modWork_only ..) ?_
      | with_reducible apply Only.step ?_ (complete_only ..) ?_
      | with_reducible apply Only.step ?_ (sendRun_only ..) ?_
      | with_reducible apply Only.trans ?_ (ih ..)
      | with_reducible apply each_only
      | intro _ _
      | intro _
      | split
      | dsimp only

theorem advanceCmd_only (f : Nat) (tag : W32) (s : State) : Only [.fns, .sess, .billing, .ports, .parts, .wale, .always, .osier, .plait, .err, .out, .fires, .free] s (advanceCmd f tag s) := by
  unfold advanceCmd
  repeat' first
    | with_reducible exact Only.refl _ _
    | with_reducible assumption
    | decide
    | with_reducible apply Only.step ?_ (advanceLoop_only ..) ?_
    | with_reducible apply each_only
    | intro _ _
    | intro _
    | split
    | dsimp only

theorem okResult_only (f : Nat) (tag : W32) (c : Cmd) (k : Nat) (units : Nat) (served : List Nat) (d : List Byte) (s : State) : Only [.fns, .always, .out] s (okResult f tag c k units served d s) := by
  unfold okResult
  repeat' first
    | with_reducible exact Only.refl _ _
    | with_reducible assumption
    | decide
    | with_reducible apply Only.step ?_ (modWork_only ..) ?_
    | with_reducible apply Only.step ?_ (bufWrite_only ..) ?_
    | with_reducible apply each_only
    | intro _ _
    | intro _
    | with_reducible apply ite_only
    | dsimp only

theorem requestFails_only (f : Nat) (tag : W32) (served : List Nat) (silent : Bool) (st : Byte) (s : State) : Only [.fns, .sess, .billing, .ports, .parts, .wale, .always, .osier, .plait, .err, .out, .fires, .free] s (requestFails f tag served silent st s) := by
  unfold requestFails
  repeat' first
    | with_reducible exact Only.refl _ _
    | with_reducible assumption
    | decide
    | with_reducible apply Only.step ?_ (modWork_only ..) ?_
    | with_reducible apply Only.step ?_ (failCmd_only ..) ?_
    | with_reducible apply Only.step ?_ (advanceCmd_only ..) ?_
    | with_reducible apply each_only
    | intro _ _
    | intro _
    | split
    | dsimp only

theorem cmdAnswer_only (f : Nat) (tag : W32) (r : OutReq) (n : Nat) (unit : Nat) (k : Nat) (code : Nat) (replayed : Bool) (d : List Byte) (s : State) : Only [.fns, .sess, .billing, .ports, .units, .parts, .wale, .always, .osier, .plait, .err, .out, .fires, .free] s (cmdAnswer f tag r n unit k code replayed d s) := by
  unfold cmdAnswer
  repeat' first
    | with_reducible exact Only.refl _ _
    | with_reducible assumption
    | decide
    | with_reducible apply Only.step ?_ (modPort_only ..) ?_
    | with_reducible apply Only.step ?_ (modUnit_only ..) ?_
    | with_reducible apply Only.step ?_ (modWork_only ..) ?_
    | with_reducible apply Only.step ?_ (claim_only ..) ?_
    | with_reducible apply Only.step ?_ (advanceCmd_only ..) ?_
    | with_reducible apply Only.step ?_ (okResult_only ..) ?_
    | with_reducible apply Only.step ?_ (requestFails_only ..) ?_
    | with_reducible apply each_only
    | intro _ _
    | intro _
    | split
    | dsimp only

theorem cmdNoAnswer_only (f : Nat) (tag : W32) (r : OutReq) (unit : Nat) (s : State) : Only [.fns, .sess, .billing, .ports, .parts, .wale, .always, .osier, .plait, .err, .out, .fires, .free] s (cmdNoAnswer f tag r unit s) := by
  unfold cmdNoAnswer
  repeat' first
    | with_reducible exact Only.refl _ _
    | with_reducible assumption
    | decide
    | with_reducible apply Only.step ?_ (requestFails_only ..) ?_
    | with_reducible apply each_only
    | intro _ _
    | intro _
    | split
    | dsimp only

theorem cmdLinkLost_only (f : Nat) (tag : W32) (served : List Nat) (s : State) : Only [.fns, .sess, .billing, .ports, .parts, .wale, .always, .osier, .plait, .err, .out, .fires, .free] s (cmdLinkLost f tag served s) := by
  unfold cmdLinkLost
  repeat' first
    | with_reducible exact Only.refl _ _
    | with_reducible assumption
    | decide
    | with_reducible apply Only.step ?_ (requestFails_only ..) ?_
    | with_reducible apply each_only
    | intro _ _
    | intro _
    | split
    | dsimp only

theorem endResend_only (f : Nat) (tag : W32) (unit : Nat) (r : OutReq) (st : Byte) (s : State) : Only [.fns, .sess, .billing, .ports, .parts, .wale, .always, .osier, .plait, .err, .out, .fires, .free] s (endResend f tag unit r st s) := by
  unfold endResend
  repeat' first
    | with_reducible exact Only.refl _ _
    | with_reducible assumption
    | decide
    | with_reducible apply Only.step ?_ (requestFails_only ..) ?_
    | with_reducible apply each_only
    | intro _ _
    | intro _
    | split
    | dsimp only

theorem sawWords_only (n : Nat) (p : Nat) (unit : Nat) (off : Nat) (words : List Byte) (read : Bool) (s : State) : Only [.fns, .sess, .billing, .ports, .units, .parts, .slath, .wale, .always, .osier, .plait, .err, .out, .fires, .free] s (sawWords n p unit off words read s) := by
  unfold sawWords
  repeat' first
    | with_reducible exact Only.refl _ _
    | with_reducible assumption
    | decide
    | with_reducible apply Only.step ?_ (modUnit_only ..) ?_
    | with_reducible apply Only.step ?_ (modStake_only ..) ?_
    | with_reducible apply Only.step ?_ (checkGathering_only ..) ?_
    | with_reducible apply each_only
    | intro _ _
    | intro _
    | split
    | dsimp only

theorem answerEffect_only (n : Nat) (m : Msg) (replayed : Bool) (d : List Byte) (s : State) : Only [.fns, .sess, .billing, .ports, .units, .parts, .slath, .wale, .always, .osier, .plait, .err, .out, .fires, .free] s (answerEffect n m replayed d s) := by
  unfold answerEffect
  repeat' first
    | with_reducible exact Only.refl _ _
    | with_reducible assumption
    | decide
    | with_reducible apply Only.step ?_ (modUnit_only ..) ?_
    | with_reducible apply Only.step ?_ (sawWords_only ..) ?_
    | with_reducible apply each_only
    | intro _ _
    | intro _
    | split
    | dsimp only

theorem refusalEffect_only (n : Nat) (m : Msg) (s : State) : Only [.fns, .sess, .billing, .ports, .units, .parts, .slath, .wale, .always, .osier, .plait, .err, .out, .fires, .free] s (refusalEffect n m s) := by
  unfold refusalEffect
  repeat' first
    | with_reducible exact Only.refl _ _
    | with_reducible assumption
    | decide
    | with_reducible apply Only.step ?_ (modUnit_only ..) ?_
    | with_reducible apply Only.step ?_ (checkGathering_only ..) ?_
    | with_reducible apply each_only
    | intro _ _
    | intro _
    | split
    | dsimp only

theorem markBinding_only (p : Nat) (role : Nat) (unplaced : Bool) (failed : Bool) (s : State) : Only [.osier] s (markBinding p role unplaced failed s) := by
  unfold markBinding
  repeat' first
    | with_reducible exact Only.refl _ _
    | with_reducible assumption
    | decide
    | with_reducible apply each_only
    | intro _ _
    | intro _
    | split
    | with_reducible apply upd_osier
    | dsimp only

theorem startBound_only (p : Nat) (role : Nat) (index : Nat) (s : State) : Only [.fns, .sess, .billing, .parts, .wale, .always, .osier, .err, .out, .fires, .free] s (startBound p role index s) := by
  unfold startBound
  repeat' first
    | with_reducible exact Only.refl _ _
    | with_reducible assumption
    | decide
    | with_reducible apply Only.step ?_ (modPart_only ..) ?_
    | with_reducible apply Only.step ?_ (markBinding_only ..) ?_
    | with_reducible apply each_only
    | intro _ _
    | intro _
    | split
    | with_reducible refine Only.step ?_ (startRun_only (by assumption)) (by decide)
    | dsimp only

theorem retryBound_only (p : Nat) (role : Nat) (s : State) : Only [.fns, .sess, .billing, .parts, .wale, .always, .osier, .err, .out, .fires, .free] s (retryBound p role s) := by
  unfold retryBound
  repeat' first
    | with_reducible exact Only.refl _ _
    | with_reducible assumption
    | decide
    | with_reducible apply Only.step ?_ (syncCoder_only ..) ?_
    | with_reducible apply Only.step ?_ (startBound_only ..) ?_
    | with_reducible apply each_only
    | intro _ _
    | intro _
    | split
    | dsimp only

theorem retryAll_only (s : State) : Only [.fns, .sess, .billing, .parts, .wale, .always, .osier, .err, .out, .fires, .free] s (retryAll s) := by
  unfold retryAll
  repeat' first
    | with_reducible exact Only.refl _ _
    | with_reducible assumption
    | decide
    | with_reducible apply Only.step ?_ (retryBound_only ..) ?_
    | with_reducible apply each_only
    | intro _ _
    | intro _
    | split
    | dsimp only

theorem completeWaits_only (x : EndedRun) (s : State) : Only [.fns, .always, .out] s (completeWaits x s) := by
  unfold completeWaits
  repeat' first
    | with_reducible exact Only.refl _ _
    | with_reducible assumption
    | decide
    | with_reducible apply Only.step ?_ (complete_only ..) ?_
    | with_reducible apply each_only
    | intro _ _
    | intro _
    | split
    | dsimp only

theorem takeRun_only (q : Run) (status : Nat) (cause : Nat) (s : State) : Only [.fns, .sess, .billing, .parts, .wale, .always, .osier, .err, .out, .fires, .free] s (takeRun q status cause s) := by
  unfold takeRun
  repeat' first
    | with_reducible exact Only.refl _ _
    | with_reducible assumption
    | decide
    | with_reducible apply Only.step ?_ (modPart_only ..) ?_
    | with_reducible apply Only.step ?_ (handOver_only ..) ?_
    | with_reducible apply Only.step ?_ (programRec_only ..) ?_
    | with_reducible apply Only.step ?_ (markBinding_only ..) ?_
    | with_reducible apply Only.step ?_ (completeWaits_only ..) ?_
    | with_reducible apply each_only
    | intro _ _
    | intro _
    | split
    | with_reducible apply upd_osier
    | dsimp only

theorem endRun_only (q : Run) (status : Nat) (cause : Nat) (s : State) : Only [.fns, .sess, .billing, .parts, .wale, .always, .osier, .err, .out, .fires, .free] s (endRun q status cause s) := by
  unfold endRun
  repeat' first
    | with_reducible exact Only.refl _ _
    | with_reducible assumption
    | decide
    | with_reducible apply Only.step ?_ (syncCoder_only ..) ?_
    | with_reducible apply Only.step ?_ (retryAll_only ..) ?_
    | with_reducible apply Only.step ?_ (takeRun_only ..) ?_
    | with_reducible apply each_only
    | intro _ _
    | intro _
    | split
    | dsimp only

theorem endRuns_only (sel : Run → Bool) (status : Nat) (cause : Nat) (s : State) : Only [.fns, .sess, .billing, .parts, .wale, .always, .osier, .err, .out, .fires, .free] s (endRuns sel status cause s) := by
  unfold endRuns
  repeat' first
    | with_reducible exact Only.refl _ _
    | with_reducible assumption
    | decide
    | with_reducible apply Only.step ?_ (endRun_only ..) ?_
    | with_reducible apply each_only
    | intro _ _
    | intro _
    | split
    | dsimp only

theorem endRoleRuns_only (n : Nat) (p : Nat) (s : State) : Only [.fns, .sess, .billing, .parts, .wale, .always, .osier, .err, .out, .fires, .free] s (endRoleRuns n p s) := by
  unfold endRoleRuns
  repeat' first
    | with_reducible exact Only.refl _ _
    | with_reducible assumption
    | decide
    | with_reducible apply Only.step ?_ (endRuns_only ..) ?_
    | with_reducible apply each_only
    | intro _ _
    | intro _
    | split
    | dsimp only

theorem rebindPred_only (p : Nat) (old : Mem) (new : Mem) (s : State) : Only [.fns, .sess, .billing, .parts, .wale, .always, .osier, .err, .out, .fires, .free] s (rebindPred p old new s) := by
  unfold rebindPred
  repeat' first
    | with_reducible exact Only.refl _ _
    | with_reducible assumption
    | decide
    | with_reducible apply Only.step ?_ (markBinding_only ..) ?_
    | with_reducible apply Only.step ?_ (startBound_only ..) ?_
    | with_reducible apply Only.step ?_ (retryAll_only ..) ?_
    | with_reducible apply Only.step ?_ (takeRun_only ..) ?_
    | with_reducible apply each_only
    | intro _ _
    | intro _
    | split
    | dsimp only

theorem rebindCoding_only (p : Nat) (want : Option Nat) (s : State) : Only [.fns, .sess, .billing, .parts, .wale, .always, .osier, .err, .out, .fires, .free] s (rebindCoding p want s) := by
  unfold rebindCoding
  repeat' first
    | with_reducible exact Only.refl _ _
    | with_reducible assumption
    | decide
    | with_reducible apply Only.step ?_ (modPart_only ..) ?_
    | with_reducible apply Only.step ?_ (markBinding_only ..) ?_
    | with_reducible apply Only.step ?_ (startBound_only ..) ?_
    | with_reducible apply Only.step ?_ (takeRun_only ..) ?_
    | with_reducible apply each_only
    | intro _ _
    | intro _
    | split
    | dsimp only

theorem switchPoint_only (p : Nat) (s : State) : Only [.fns, .sess, .billing, .parts, .wale, .always, .osier, .err, .out, .fires, .free] s (switchPoint p s) := by
  unfold switchPoint
  repeat' first
    | with_reducible exact Only.refl _ _
    | with_reducible assumption
    | decide
    | with_reducible apply Only.step ?_ (modPart_only ..) ?_
    | with_reducible apply Only.step ?_ (pumpPort_only ..) ?_
    | with_reducible apply Only.step ?_ (flushDram_only ..) ?_
    | with_reducible apply Only.step ?_ (resetCoder_only ..) ?_
    | with_reducible apply Only.step ?_ (retryAll_only ..) ?_
    | with_reducible apply Only.step ?_ (rebindCoding_only ..) ?_
    | with_reducible apply each_only
    | intro _ _
    | intro _
    | split
    | dsimp only

theorem checkSwitch_only (p : Nat) (s : State) : Only [.fns, .sess, .billing, .parts, .wale, .always, .osier, .err, .out, .fires, .free] s (checkSwitch p s) := by
  unfold checkSwitch
  repeat' first
    | with_reducible exact Only.refl _ _
    | with_reducible assumption
    | decide
    | with_reducible apply Only.step ?_ (switchPoint_only ..) ?_
    | with_reducible apply each_only
    | intro _ _
    | intro _
    | split
    | dsimp only

theorem bindAtReady_only (p : Nat) (s : State) : Only [.fns, .sess, .billing, .parts, .wale, .always, .osier, .err, .out, .fires, .free] s (bindAtReady p s) := by
  unfold bindAtReady
  repeat' first
    | with_reducible exact Only.refl _ _
    | with_reducible assumption
    | decide
    | with_reducible apply Only.step ?_ (modPart_only ..) ?_
    | with_reducible apply Only.step ?_ (startBound_only ..) ?_
    | with_reducible apply each_only
    | intro _ _
    | intro _
    | split
    | dsimp only

theorem firedReport_only (p : Nat) (kind : Nat) (model : Nat) (score : Nat) (s : State) : Only [.fns, .sess, .billing, .parts, .hang, .wale, .always, .osier, .err, .out, .fires, .free] s (firedReport p kind model score s) := by
  unfold firedReport
  repeat' first
    | with_reducible exact Only.refl _ _
    | with_reducible assumption
    | decide
    | with_reducible apply Only.step ?_ (addReport_only ..) ?_
    | with_reducible apply each_only
    | intro _ _
    | intro _
    | split
    | dsimp only

theorem startScan_only (p : Nat) (s : State) : Only [.parts] s (startScan p s) := by
  unfold startScan
  repeat' first
    | with_reducible exact Only.refl _ _
    | with_reducible assumption
    | decide
    | with_reducible apply Only.step ?_ (modPart_only ..) ?_
    | with_reducible apply each_only
    | intro _ _
    | intro _
    | split
    | dsimp only

theorem declareHang_only (p : Nat) (kind : Nat) (action : Nat) (minAge : Nat) (comps : List Comp) (s : State) : Only [.fns, .sess, .billing, .ports, .units, .parts, .xtrigOut, .slath, .hang, .wale, .always, .osier, .plait, .err, .out, .fires, .free] s (declareHang p kind action minAge comps s) := by
  unfold declareHang
  repeat' first
    | with_reducible exact Only.refl _ _
    | with_reducible assumption
    | decide
    | with_reducible apply Only.step ?_ (modPart_only ..) ?_
    | with_reducible apply Only.step ?_ (addReport_only ..) ?_
    | with_reducible apply Only.step ?_ (checkGather_only ..) ?_
    | with_reducible apply Only.step ?_ (raiseAction_only ..) ?_
    | with_reducible apply Only.step ?_ (enterHalts_only ..) ?_
    | with_reducible apply each_only
    | intro _ _
    | intro _
    | split
    | dsimp only

theorem checked_only {l0 : List Fld} (f : Nat) (tag : W32) (k : Cmd → State → State) (c : Cmd) (s : State)
    (hl : ([.fns, .always, .out] : List Fld).all l0.contains = true) (hk : ∀ x0 x1, Only l0 x1 (k x0 x1)) : Only l0 s (checked f tag k c s) := by
  unfold checked
  repeat' first
    | with_reducible exact Only.refl _ _
    | with_reducible assumption
    | exact within hl (by decide)
    | with_reducible apply Only.step ?_ (fail_only ..) ?_
    | with_reducible apply Only.trans ?_ (hk ..)
    | with_reducible apply each_only
    | intro _ _
    | intro _
    | split
    | dsimp only

theorem haltHeld_only (f : Nat) (c : Cmd) (s : State) : Only [.fns, .sess, .billing, .ports, .units, .parts, .slath, .wale, .always, .osier, .plait, .err, .out, .fires, .free] s (haltHeld f c s) := by
  unfold haltHeld
  repeat' first
    | with_reducible exact Only.refl _ _
    | with_reducible assumption
    | decide
    | with_reducible apply Only.step ?_ (modPart_only ..) ?_
    | with_reducible apply Only.step ?_ (freshTimeout_only ..) ?_
    | with_reducible apply Only.step ?_ (sendHalts_only ..) ?_
    | with_reducible apply Only.step ?_ (fallbackHalts_only ..) ?_
    | with_reducible apply Only.step ?_ (checkGather_only ..) ?_
    | with_reducible apply each_only
    | intro _ _
    | intro _
    | split
    | dsimp only

theorem stepEnds_only (u : Nat) (ack : Bool) (s : State) : Only [.fns, .sess, .billing, .ports, .parts, .wale, .always, .osier, .plait, .err, .out, .fires, .free] s (stepEnds u ack s) := by
  unfold stepEnds
  repeat' first
    | with_reducible exact Only.refl _ _
    | with_reducible assumption
    | decide
    | with_reducible apply Only.step ?_ (modWork_only ..) ?_
    | with_reducible apply Only.step ?_ (advanceCmd_only ..) ?_
    | with_reducible apply each_only
    | intro _ _
    | intro _
    | split
    | dsimp only

theorem declareUnit_only (u : Nat) (s : State) : Only [.fns, .sess, .billing, .ports, .units, .parts, .slath, .wale, .always, .osier, .plait, .err, .out, .fires, .free] s (declareUnit u s) := by
  unfold declareUnit
  repeat' first
    | with_reducible exact Only.refl _ _
    | with_reducible assumption
    | decide
    | with_reducible apply Only.step ?_ (modUnit_only ..) ?_
    | with_reducible apply Only.step ?_ (checkGather_only ..) ?_
    | with_reducible apply Only.step ?_ (stepEnds_only ..) ?_
    | with_reducible apply each_only
    | intro _ _
    | intro _
    | split
    | dsimp only

theorem callOk_only (c : AdaptorCall) (last : Bool) (data : List Byte) (s : State) : Only [.fns, .always, .out] s (callOk c last data s) := by
  unfold callOk
  repeat' first
    | with_reducible exact Only.refl _ _
    | with_reducible assumption
    | decide
    | with_reducible apply Only.step ?_ (modWork_only ..) ?_
    | with_reducible apply Only.step ?_ (bufWrite_only ..) ?_
    | with_reducible apply each_only
    | intro _ _
    | intro _
    | split
    | dsimp only

theorem unitGathering_only (u : Nat) (s : State) : Only [.fns, .sess, .billing, .ports, .parts, .slath, .wale, .always, .osier, .plait, .err, .out, .fires, .free] s (unitGathering u s) := by
  unfold unitGathering
  repeat' first
    | with_reducible exact Only.refl _ _
    | with_reducible assumption
    | decide
    | with_reducible apply Only.step ?_ (checkGather_only ..) ?_
    | with_reducible apply each_only
    | intro _ _
    | intro _
    | split
    | dsimp only

theorem callEffect_only (c : AdaptorCall) (s : State) : Only [.fns, .sess, .billing, .ports, .units, .parts, .slath, .wale, .always, .osier, .plait, .err, .out, .fires, .free] s (callEffect c s) := by
  unfold callEffect
  repeat' first
    | with_reducible exact Only.refl _ _
    | with_reducible assumption
    | decide
    | with_reducible apply Only.step ?_ (modUnit_only ..) ?_
    | with_reducible apply Only.step ?_ (stepEnds_only ..) ?_
    | with_reducible apply Only.step ?_ (unitGathering_only ..) ?_
    | with_reducible apply each_only
    | intro _ _
    | intro _
    | split
    | dsimp only

theorem callFailed_only (c : AdaptorCall) (result : Option Nat) (s : State) : Only [.fns, .sess, .billing, .ports, .parts, .wale, .always, .osier, .plait, .err, .out, .fires, .free] s (callFailed c result s) := by
  unfold callFailed
  repeat' first
    | with_reducible exact Only.refl _ _
    | with_reducible assumption
    | decide
    | with_reducible apply Only.step ?_ (modWork_only ..) ?_
    | with_reducible apply Only.step ?_ (failCmd_only ..) ?_
    | with_reducible apply Only.step ?_ (advanceCmd_only ..) ?_
    | with_reducible apply each_only
    | intro _ _
    | intro _
    | split
    | with_reducible apply upd_osier
    | dsimp only

theorem callAdvance_only (c : AdaptorCall) (s : State) : Only [.fns, .sess, .billing, .ports, .parts, .wale, .always, .osier, .plait, .err, .out, .fires, .free] s (callAdvance c s) := by
  unfold callAdvance
  repeat' first
    | with_reducible exact Only.refl _ _
    | with_reducible assumption
    | decide
    | with_reducible apply Only.step ?_ (advanceCmd_only ..) ?_
    | with_reducible apply each_only
    | intro _ _
    | intro _
    | split
    | dsimp only

theorem callEnds_only (result : Option Nat) (s : State) : Only [.fns, .sess, .billing, .ports, .units, .parts, .slath, .wale, .always, .osier, .plait, .err, .out, .fires, .free] s (callEnds result s) := by
  unfold callEnds
  repeat' first
    | with_reducible exact Only.refl _ _
    | with_reducible assumption
    | decide
    | with_reducible apply Only.step ?_ (pumpAdaptor_only ..) ?_
    | with_reducible apply Only.step ?_ (noteRuns_only ..) ?_
    | with_reducible apply Only.step ?_ (callOk_only ..) ?_
    | with_reducible apply Only.step ?_ (callEffect_only ..) ?_
    | with_reducible apply Only.step ?_ (callFailed_only ..) ?_
    | with_reducible apply Only.step ?_ (callAdvance_only ..) ?_
    | with_reducible apply each_only
    | intro _ _
    | intro _
    | split
    | with_reducible apply upd_osier
    | dsimp only

theorem callsDropped_only (l : List AdaptorCall) (s : State) : Only [.fns, .sess, .billing, .ports, .units, .parts, .slath, .wale, .always, .osier, .plait, .err, .out, .fires, .free] s (callsDropped l s) := by
  unfold callsDropped
  repeat' first
    | with_reducible exact Only.refl _ _
    | with_reducible assumption
    | decide
    | with_reducible apply Only.step ?_ (cmdLinkLost_only ..) ?_
    | with_reducible apply Only.step ?_ (declareUnit_only ..) ?_
    | with_reducible apply each_only
    | intro _ _
    | intro _
    | split
    | dsimp only

theorem scanWrite_only (value : W32) (s : State) : Only [.fns, .sess, .billing, .ports, .units, .parts, .slath, .wale, .always, .osier, .plait, .err, .out, .fires, .free] s (scanWrite value s) := by
  unfold scanWrite
  repeat' first
    | with_reducible exact Only.refl _ _
    | with_reducible assumption
    | decide
    | with_reducible apply Only.step ?_ (pushCall_only ..) ?_
    | with_reducible apply Only.step ?_ (callsDropped_only ..) ?_
    | with_reducible apply each_only
    | intro _ _
    | intro _
    | split
    | with_reducible apply upd_osier
    | dsimp only

theorem scanOut_only (op : Nat) (bits : List Bool) (s : State) : Only [.out] s (scanOut op bits s) := by
  unfold scanOut
  repeat' first
    | with_reducible exact Only.refl _ _
    | with_reducible assumption
    | decide
    | with_reducible apply Only.step ?_ (emit_only ..) ?_
    | with_reducible apply each_only
    | intro _ _
    | intro _
    | split
    | dsimp only

theorem scanAct_only (q : Run) (e : LibEntry) (act : CtlAct) (s : State) : Only [.osier, .out] s (scanAct q e act s) := by
  unfold scanAct
  repeat' first
    | with_reducible exact Only.refl _ _
    | with_reducible assumption
    | decide
    | with_reducible apply Only.step ?_ (scanOut_only ..) ?_
    | with_reducible apply each_only
    | intro _ _
    | intro _
    | split
    | with_reducible apply upd_osier
    | dsimp only

theorem adaptorRan_only {l0 : List Fld} (stopFirmware : State → State) (cycles : Nat) (q : Run) (e : LibEntry) (hit : Bool) (o : WordEff) (s : State)
    (hl : ([.fns, .sess, .billing, .ports, .units, .parts, .slath, .wale, .always, .osier, .plait, .err, .out, .fires, .free] : List Fld).all l0.contains = true) (hstopFirmware : ∀ x0, Only l0 x0 (stopFirmware x0)) : Only l0 s (adaptorRan stopFirmware cycles q e hit o s) := by
  unfold adaptorRan
  repeat' first
    | with_reducible exact Only.refl _ _
    | with_reducible assumption
    | exact within hl (by decide)
    | with_reducible apply Only.step ?_ (uncorrectableItem_only ..) ?_
    | with_reducible apply Only.step ?_ (callEnds_only ..) ?_
    | with_reducible apply Only.step ?_ (scanAct_only ..) ?_
    | with_reducible apply Only.trans ?_ (hstopFirmware ..)
    | with_reducible apply each_only
    | intro _ _
    | intro _
    | split
    | with_reducible apply upd_osier
    | dsimp only

theorem adaptorWord_only {l0 : List Fld} (stopFirmware : State → State) (cycles : Nat) (poison : Nat) (tdo : List Bool) (s : State)
    (hl : ([.fns, .sess, .billing, .ports, .units, .parts, .slath, .wale, .always, .osier, .plait, .err, .out, .fires, .free] : List Fld).all l0.contains = true) (hstopFirmware : ∀ x0, Only l0 x0 (stopFirmware x0)) : Only l0 s (adaptorWord stopFirmware cycles poison tdo s) := by
  unfold adaptorWord
  repeat' first
    | with_reducible exact Only.refl _ _
    | with_reducible assumption
    | exact within hl (by decide)
    | with_reducible apply Only.step ?_ (correctedWord_only ..) ?_
    | with_reducible apply Only.trans ?_ (adaptorRan_only _ _ _ _ _ _ _ ?_ ?_)
    | with_reducible apply Only.trans ?_ (hstopFirmware ..)
    | with_reducible apply each_only
    | intro _ _
    | intro _
    | split
    | dsimp only

theorem readPort_only (p : Nat) (n : Nat) (k : Nat) (s : State) : Only [.ports, .parts, .always, .plait, .out] s (readPort p n k s) := by
  induction k generalizing s with
  | zero => exact .refl _ _
  | succ k ih =>
    unfold readPort
    repeat' first
      | with_reducible exact Only.refl _ _
      | with_reducible assumption
      | decide
      | with_reducible apply Only.step ?_ (ask_only ..) ?_
      | with_reducible apply Only.step ?_ (modBuild_only ..) ?_
      | with_reducible apply Only.trans ?_ (ih ..)
      | with_reducible apply each_only
      | intro _ _
      | intro _
      | split
      | dsimp only

theorem stageWrite_only {l0 : List Fld} (dram : Bool) (spoil : State → State) (s : State)
    (hl : ([.fns, .always, .err, .out, .free] : List Fld).all l0.contains = true) (hspoil : ∀ x0, Only l0 x0 (spoil x0)) : Only l0 s (stageWrite dram spoil s) := by
  unfold stageWrite
  repeat' first
    | with_reducible exact Only.refl _ _
    | with_reducible assumption
    | exact within hl (by decide)
    | with_reducible apply Only.step ?_ (spendDram_only ..) ?_
    | with_reducible apply Only.step ?_ (spendCreel_only ..) ?_
    | with_reducible apply Only.trans ?_ (hspoil ..)
    | with_reducible apply each_only
    | intro _ _
    | intro _
    | split
    | dsimp only

theorem takeInFlight_only (p : Nat) (i : Nat) (total : Nat) (d : List Byte) (s : State) : Only [.fns, .parts, .always, .err, .out, .free] s (takeInFlight p i total d s) := by
  unfold takeInFlight
  repeat' first
    | with_reducible exact Only.refl _ _
    | with_reducible assumption
    | decide
    | with_reducible apply Only.step ?_ (modBuild_only ..) ?_
    | with_reducible apply Only.trans ?_ (stageWrite_only _ _ _ ?_ ?_)
    | with_reducible apply each_only
    | intro _ _
    | intro _
    | split
    | dsimp only

theorem readRange_only (p : Nat) (who : ReqFor) (r : CapRange) (s : State) : Only [.ports, .always, .plait, .out] s (readRange p who r s) := by
  unfold readRange
  repeat' first
    | with_reducible exact Only.refl _ _
    | with_reducible assumption
    | decide
    | with_reducible apply Only.step ?_ (ask_only ..) ?_
    | with_reducible apply Only.step ?_ (askRegRead_only ..) ?_
    | with_reducible apply each_only
    | intro _ _
    | intro _
    | split
    | dsimp only

theorem capturePort_only (p : Nat) (id : W32) (n : Nat) (k : Nat) (s : State) : Only [.ports, .parts, .always, .plait, .out] s (capturePort p id n k s) := by
  induction k generalizing s with
  | zero => exact .refl _ _
  | succ k ih =>
    unfold capturePort
    repeat' first
      | with_reducible exact Only.refl _ _
      | with_reducible assumption
      | decide
      | with_reducible apply Only.step ?_ (modCut_only ..) ?_
      | with_reducible apply Only.step ?_ (readRange_only ..) ?_
      | with_reducible apply Only.trans ?_ (ih ..)
      | with_reducible apply each_only
      | intro _ _
      | intro _
      | split
      | dsimp only

theorem slathRun_only (p : Nat) (k : Nat) (s : State) : Only [.fns, .sess, .billing, .ports, .parts, .slath, .wale, .always, .osier, .plait, .err, .out, .fires, .free] s (slathRun p k s) := by
  induction k generalizing s with
  | zero => exact .refl _ _
  | succ k ih =>
    unfold slathRun
    repeat' first
      | with_reducible exact Only.refl _ _
      | with_reducible assumption
      | decide
      | with_reducible apply Only.step ?_ (modCut_only ..) ?_
      | with_reducible apply Only.step ?_ (assignCut_only ..) ?_
      | with_reducible apply Only.step ?_ (captured_only ..) ?_
      | with_reducible apply Only.step ?_ (readPort_only ..) ?_
      | with_reducible apply Only.step ?_ (capturePort_only ..) ?_
      | with_reducible apply Only.trans ?_ (ih ..)
      | with_reducible apply each_only
      | intro _ _
      | intro _
      | split
      | dsimp only

theorem slath_only (p : Nat) (s : State) : Only [.fns, .sess, .billing, .ports, .parts, .slath, .wale, .always, .osier, .plait, .err, .out, .fires, .free] s (slath p s) := by
  unfold slath
  repeat' first
    | with_reducible exact Only.refl _ _
    | with_reducible assumption
    | decide
    | with_reducible apply Only.step ?_ (slathRun_only ..) ?_
    | with_reducible apply each_only
    | intro _ _
    | intro _
    | split
    | dsimp only

theorem inflightAnswer_only (p : Nat) (i : Nat) (code : Nat) (d : List Byte) (s : State) : Only [.fns, .sess, .billing, .ports, .parts, .slath, .wale, .always, .osier, .plait, .err, .out, .fires, .free] s (inflightAnswer p i code d s) := by
  unfold inflightAnswer
  repeat' first
    | with_reducible exact Only.refl _ _
    | with_reducible assumption
    | decide
    | with_reducible apply Only.step ?_ (modBuild_only ..) ?_
    | with_reducible apply Only.step ?_ (takeInFlight_only ..) ?_
    | with_reducible apply Only.step ?_ (slath_only ..) ?_
    | with_reducible apply each_only
    | intro _ _
    | intro _
    | split
    | dsimp only

theorem captureAnswer_only (p : Nat) (id : Nat) (i : Nat) (code : Nat) (d : List Byte) (s : State) : Only [.fns, .sess, .billing, .ports, .parts, .slath, .wale, .always, .osier, .plait, .err, .out, .fires, .free] s (captureAnswer p id i code d s) := by
  unfold captureAnswer
  repeat' first
    | with_reducible exact Only.refl _ _
    | with_reducible assumption
    | decide
    | with_reducible apply Only.step ?_ (modCut_only ..) ?_
    | with_reducible apply Only.trans ?_ (stageWrite_only _ _ _ ?_ ?_)
    | with_reducible apply Only.step ?_ (slath_only ..) ?_
    | with_reducible apply each_only
    | intro _ _
    | intro _
    | split
    | dsimp only

theorem cutHeld_only (f : Nat) (c : Cmd) (s : State) : Only [.fns, .sess, .billing, .ports, .units, .parts, .slath, .wale, .always, .osier, .plait, .err, .out, .fires, .free] s (cutHeld f c s) := by
  unfold cutHeld
  repeat' first
    | with_reducible exact Only.refl _ _
    | with_reducible assumption
    | decide
    | with_reducible apply Only.step ?_ (modPart_only ..) ?_
    | with_reducible apply Only.step ?_ (freshTimeout_only ..) ?_
    | with_reducible apply Only.step ?_ (sendHalts_only ..) ?_
    | with_reducible apply Only.step ?_ (fallbackHalts_only ..) ?_
    | with_reducible apply Only.step ?_ (checkGather_only ..) ?_
    | with_reducible apply each_only
    | intro _ _
    | intro _
    | split
    | dsimp only

theorem releaseCut_only (p : Nat) (by_ : Option (Nat × W32)) (id : W32) (s : State) : Only [.fns, .sess, .billing, .ports, .parts, .slath, .wale, .always, .osier, .plait, .err, .out, .fires, .free] s (releaseCut p by_ id s) := by
  unfold releaseCut
  repeat' first
    | with_reducible exact Only.refl _ _
    | with_reducible assumption
    | decide
    | with_reducible apply Only.step ?_ (modCut_only ..) ?_
    | with_reducible apply Only.step ?_ (slath_only ..) ?_
    | with_reducible apply each_only
    | intro _ _
    | intro _
    | split
    | dsimp only

theorem freeDump_only (cut : W32) (s : State) : Only [.slath, .mem] s (freeDump cut s) := by
  unfold freeDump
  repeat' first
    | with_reducible exact Only.refl _ _
    | with_reducible assumption
    | decide
    | with_reducible apply each_only
    | intro _ _
    | intro _
    | split
    | with_reducible apply upd_slath_mem
    | dsimp only

theorem putExport_only (e : Export) (s : State) : Only [.slath] s (putExport e s) := by
  unfold putExport
  repeat' first
    | with_reducible exact Only.refl _ _
    | with_reducible assumption
    | decide
    | with_reducible apply each_only
    | intro _ _
    | intro _
    | split
    | with_reducible apply upd_slath
    | dsimp only

theorem dropExport_only (f : Nat) (tag : W32) (s : State) : Only [.slath] s (dropExport f tag s) := by
  unfold dropExport
  repeat' first
    | with_reducible exact Only.refl _ _
    | with_reducible assumption
    | decide
    | with_reducible apply each_only
    | intro _ _
    | intro _
    | split
    | with_reducible apply upd_slath
    | dsimp only

theorem storeDump_only (off : Nat) (bytes : List Byte) (s : State) : Only [.err, .mem] s (storeDump off bytes s) := by
  unfold storeDump
  repeat' first
    | with_reducible exact Only.refl _ _
    | with_reducible assumption
    | decide
    | with_reducible apply Only.step ?_ (storeExternal_only ..) ?_
    | with_reducible apply each_only
    | intro _ _
    | intro _
    | split
    | dsimp only

theorem writeSplint_only (e : Export) (bytes : List Byte) (s : State) : Only [.sess, .billing, .parts, .wale, .always, .err, .mem, .out, .fires] s (writeSplint e bytes s) := by
  unfold writeSplint
  repeat' first
    | with_reducible exact Only.refl _ _
    | with_reducible assumption
    | decide
    | with_reducible apply Only.step ?_ (bumpAlways_only ..) ?_
    | with_reducible apply Only.step ?_ (hostWrite_only ..) ?_
    | with_reducible apply Only.step ?_ (modMeters_only ..) ?_
    | with_reducible apply Only.step ?_ (hubEvent_only ..) ?_
    | with_reducible apply Only.step ?_ (storeDump_only ..) ?_
    | with_reducible apply each_only
    | intro _ _
    | intro _
    | split
    | with_reducible apply upd_wale
    | dsimp only

theorem sendData_only (e : Export) (ecc : SplintEcc) (s : State) : Only [.fns, .sess, .billing, .parts, .slath, .wale, .always, .err, .mem, .out, .fires, .free] s (sendData e ecc s) := by
  unfold sendData
  repeat' first
    | with_reducible exact Only.refl _ _
    | with_reducible assumption
    | decide
    | with_reducible apply Only.step ?_ (correctedWord_only ..) ?_
    | with_reducible apply Only.step ?_ (uncorrectableItem_only ..) ?_
    | with_reducible apply Only.step ?_ (modCut_only ..) ?_
    | with_reducible apply Only.step ?_ (putExport_only ..) ?_
    | with_reducible apply Only.step ?_ (writeSplint_only ..) ?_
    | with_reducible apply each_only
    | intro _ _
    | intro _
    | split
    | dsimp only

theorem storePart_only (e : Export) (s : State) : Only [.parts] s (storePart e s) := by
  unfold storePart
  repeat' first
    | with_reducible exact Only.refl _ _
    | with_reducible assumption
    | decide
    | with_reducible apply Only.step ?_ (modCut_only ..) ?_
    | with_reducible apply each_only
    | intro _ _
    | intro _
    | split
    | dsimp only

theorem sendManifest_only (e : Export) (s : State) : Only [.fns, .sess, .billing, .parts, .slath, .wale, .always, .err, .mem, .out, .fires] s (sendManifest e s) := by
  unfold sendManifest
  repeat' first
    | with_reducible exact Only.refl _ _
    | with_reducible assumption
    | decide
    | with_reducible apply Only.step ?_ (complete_only ..) ?_
    | with_reducible apply Only.step ?_ (putExport_only ..) ?_
    | with_reducible apply Only.step ?_ (dropExport_only ..) ?_
    | with_reducible apply Only.step ?_ (writeSplint_only ..) ?_
    | with_reducible apply Only.step ?_ (storePart_only ..) ?_
    | with_reducible apply each_only
    | intro _ _
    | intro _
    | split
    | dsimp only

theorem setDeficit_only (n : Nat) (v : Nat) (s : State) : Only [.slath] s (setDeficit n v s) := by
  unfold setDeficit
  repeat' first
    | with_reducible exact Only.refl _ _
    | with_reducible assumption
    | decide
    | with_reducible apply each_only
    | intro _ _
    | intro _
    | split
    | with_reducible apply upd_slath
    | dsimp only

theorem passTurn_only (s : State) : Only [.slath] s (passTurn s) := by
  unfold passTurn
  repeat' first
    | with_reducible exact Only.refl _ _
    | with_reducible assumption
    | decide
    | with_reducible apply Only.step ?_ (setDeficit_only ..) ?_
    | with_reducible apply each_only
    | intro _ _
    | intro _
    | split
    | with_reducible apply upd_slath
    | dsimp only

theorem findTurn_only {k : Nat} {s t : State} {e : Export} (h : findTurn k s = some (e, t)) : Only [.slath] s t := by
  induction k generalizing s with
  | zero => cases h
  | succ k ih =>
    unfold findTurn at h
    split at h
    · split at h
      · cases h; exact .refl _ _
      · exact ((passTurn_only ..).weaken (by decide)).trans (ih h)
    · exact ((passTurn_only ..).weaken (by decide)).trans (ih h)

theorem clearDeficits_only (s : State) : Only [.slath] s (clearDeficits s) := by
  unfold clearDeficits
  repeat' first
    | with_reducible exact Only.refl _ _
    | with_reducible assumption
    | decide
    | with_reducible apply each_only
    | intro _ _
    | intro _
    | split
    | with_reducible apply upd_slath
    | dsimp only

theorem noteServed_only (e : Export) (s : State) : Only [.slath] s (noteServed e s) := by
  unfold noteServed
  repeat' first
    | with_reducible exact Only.refl _ _
    | with_reducible assumption
    | decide
    | with_reducible apply each_only
    | intro _ _
    | intro _
    | split
    | with_reducible apply upd_slath
    | dsimp only

theorem modRegion_only (f : Nat) (tag : W32) (g : CapRange → CapRange) (s : State) : Only [.slath] s (modRegion f tag g s) := by
  unfold modRegion
  repeat' first
    | with_reducible exact Only.refl _ _
    | with_reducible assumption
    | decide
    | with_reducible apply each_only
    | intro _ _
    | intro _
    | split
    | with_reducible apply upd_slath
    | dsimp only

theorem regionReads_only (f : Nat) (c : Cmd) (r : CapRange) (s : State) : Only [.fns, .ports, .slath, .always, .plait, .out] s (regionReads f c r s) := by
  unfold regionReads
  repeat' first
    | with_reducible exact Only.refl _ _
    | with_reducible assumption
    | decide
    | with_reducible apply Only.step ?_ (sendAll_only ..) ?_
    | with_reducible apply Only.step ?_ (modRegion_only ..) ?_
    | with_reducible apply each_only
    | intro _ _
    | intro _
    | split
    | dsimp only

theorem regionAnswer_only (f : Nat) (tag : W32) (code : Nat) (d : List Byte) (s : State) : Only [.fns, .ports, .slath, .osier] s (regionAnswer f tag code d s) := by
  unfold regionAnswer
  repeat' first
    | with_reducible exact Only.refl _ _
    | with_reducible assumption
    | decide
    | with_reducible apply Only.step ?_ (modWork_only ..) ?_
    | with_reducible apply Only.step ?_ (purgeCmd_only ..) ?_
    | with_reducible apply Only.step ?_ (modRegion_only ..) ?_
    | with_reducible apply each_only
    | intro _ _
    | intro _
    | split
    | dsimp only

theorem heard_only (p : Nat) (bytes : Nat) (s : State) : Only [.parts, .fires] s (heard p bytes s) := by
  unfold heard
  repeat' first
    | with_reducible exact Only.refl _ _
    | with_reducible assumption
    | decide
    | with_reducible apply Only.step ?_ (modPart_only ..) ?_
    | with_reducible apply Only.step ?_ (hubEvent_only ..) ?_
    | with_reducible apply each_only
    | intro _ _
    | intro _
    | split
    | dsimp only

theorem holdRecord_only (u : Nat) (r : HaltRec) (s : State) : Only [.fns, .units, .always, .err, .out, .free] s (holdRecord u r s) := by
  unfold holdRecord
  repeat' first
    | with_reducible exact Only.refl _ _
    | with_reducible assumption
    | decide
    | with_reducible apply Only.step ?_ (modUnit_only ..) ?_
    | with_reducible apply Only.step ?_ (spendCreel_only ..) ?_
    | with_reducible apply each_only
    | intro _ _
    | intro _
    | split
    | dsimp only

theorem takeHaltRecord_only (n : Nat) (m : Msg) (s : State) : Only [.fns, .sess, .billing, .ports, .units, .parts, .slath, .wale, .always, .osier, .plait, .err, .out, .fires, .free] s (takeHaltRecord n m s) := by
  unfold takeHaltRecord
  repeat' first
    | with_reducible exact Only.refl _ _
    | with_reducible assumption
    | decide
    | with_reducible apply Only.step ?_ (hubEvent_only ..) ?_
    | with_reducible apply Only.step ?_ (traceWrite_only ..) ?_
    | with_reducible apply Only.step ?_ (checkGather_only ..) ?_
    | with_reducible apply Only.step ?_ (stepEnds_only ..) ?_
    | with_reducible apply Only.step ?_ (heard_only ..) ?_
    | with_reducible apply Only.step ?_ (holdRecord_only ..) ?_
    | with_reducible apply each_only
    | intro _ _
    | intro _
    | split
    | dsimp only

theorem endLatch_only (p : Nat) (u : Nat) (e : AwaitEnd) (noDelta : Bool) (s : State) : Only [.fns, .sess, .billing, .parts, .wale, .always, .osier, .err, .out, .fires, .free] s (endLatch p u e noDelta s) := by
  unfold endLatch
  repeat' first
    | with_reducible exact Only.refl _ _
    | with_reducible assumption
    | decide
    | with_reducible apply Only.step ?_ (markerLatch_only ..) ?_
    | with_reducible apply each_only
    | intro _ _
    | intro _
    | split
    | dsimp only

theorem endsWithoutDelta_only (p : Nat) (u : Nat) (sel : AwaitEnd → Bool) (s : State) : Only [.fns, .sess, .billing, .units, .parts, .wale, .always, .osier, .err, .out, .fires, .free] s (endsWithoutDelta p u sel s) := by
  unfold endsWithoutDelta
  repeat' first
    | with_reducible exact Only.refl _ _
    | with_reducible assumption
    | decide
    | with_reducible apply Only.step ?_ (modUnit_only ..) ?_
    | with_reducible apply Only.step ?_ (endLatch_only ..) ?_
    | with_reducible apply each_only
    | intro _ _
    | intro _
    | split
    | dsimp only

theorem ingest_only (e : Event) (ts : W64) (s : State) : Only [.units, .hang] s (ingest e ts s) := by
  unfold ingest
  repeat' first
    | with_reducible exact Only.refl _ _
    | with_reducible assumption
    | decide
    | with_reducible apply Only.step ?_ (uncertain_only ..) ?_
    | with_reducible apply each_only
    | intro _ _
    | intro _
    | split
    | with_reducible apply upd_hang
    | dsimp only

theorem eventEffect_only (e : Event) (ts : W64) (s : State) : Only [.fns, .sess, .billing, .units, .parts, .hang, .wale, .always, .osier, .err, .out, .fires, .free] s (eventEffect e ts s) := by
  unfold eventEffect
  repeat' first
    | with_reducible exact Only.refl _ _
    | with_reducible assumption
    | decide
    | with_reducible apply Only.step ?_ (modUnit_only ..) ?_
    | with_reducible apply Only.step ?_ (fire_only ..) ?_
    | with_reducible apply Only.step ?_ (hubEvent_only ..) ?_
    | with_reducible apply Only.step ?_ (markerLatch_only ..) ?_
    | with_reducible apply Only.step ?_ (endLatch_only ..) ?_
    | with_reducible apply Only.step ?_ (endsWithoutDelta_only ..) ?_
    | with_reducible apply Only.step ?_ (ingest_only ..) ?_
    | with_reducible apply each_only
    | intro _ _
    | intro _
    | split
    | dsimp only

theorem takeEvent_only (n : Nat) (e0 : Event) (s : State) : Only [.fns, .sess, .billing, .units, .parts, .hang, .wale, .always, .osier, .err, .out, .fires, .free] s (takeEvent n e0 s) := by
  unfold takeEvent
  repeat' first
    | with_reducible exact Only.refl _ _
    | with_reducible assumption
    | decide
    | with_reducible apply Only.step ?_ (traceWrite_only ..) ?_
    | with_reducible apply Only.step ?_ (heard_only ..) ?_
    | with_reducible apply Only.step ?_ (eventEffect_only ..) ?_
    | with_reducible apply each_only
    | intro _ _
    | intro _
    | split
    | dsimp only

theorem takeEventBatch_only (n : Nat) (m : Msg) (s : State) : Only [.fns, .sess, .billing, .ports, .units, .parts, .xtrigOut, .slath, .hang, .wale, .always, .osier, .plait, .err, .out, .fires, .free] s (takeEventBatch n m s) := by
  unfold takeEventBatch
  repeat' first
    | with_reducible exact Only.refl _ _
    | with_reducible assumption
    | decide
    | with_reducible apply Only.step ?_ (settle_only ..) ?_
    | with_reducible apply Only.step ?_ (takeEvent_only ..) ?_
    | with_reducible apply each_only
    | intro _ _
    | intro _
    | split
    | dsimp only

theorem takeDelta_only (n : Nat) (m : Msg) (s : State) : Only [.fns, .sess, .billing, .units, .parts, .wale, .always, .osier, .err, .out, .fires, .free] s (takeDelta n m s) := by
  unfold takeDelta
  repeat' first
    | with_reducible exact Only.refl _ _
    | with_reducible assumption
    | decide
    | with_reducible apply Only.step ?_ (modUnit_only ..) ?_
    | with_reducible apply Only.trans ?_ (atEdge_only _ _ _ ?_ ?_)
    | with_reducible apply Only.step ?_ (deltaEvent_only ..) ?_
    | with_reducible apply Only.step ?_ (traceWrite_only ..) ?_
    | with_reducible apply Only.step ?_ (heard_only ..) ?_
    | with_reducible apply Only.step ?_ (endLatch_only ..) ?_
    | with_reducible apply each_only
    | intro _ _
    | intro _
    | split
    | dsimp only

theorem takeDieLoss_only (n : Nat) (m : Msg) (s : State) : Only [.fns, .sess, .billing, .units, .parts, .hang, .wale, .always, .osier, .err, .out, .fires, .free] s (takeDieLoss n m s) := by
  unfold takeDieLoss
  repeat' first
    | with_reducible exact Only.refl _ _
    | with_reducible assumption
    | decide
    | with_reducible apply Only.step ?_ (lossBoth_only ..) ?_
    | with_reducible apply Only.step ?_ (uncertain_only ..) ?_
    | with_reducible apply Only.step ?_ (heard_only ..) ?_
    | with_reducible apply Only.step ?_ (endsWithoutDelta_only ..) ?_
    | with_reducible apply each_only
    | intro _ _
    | intro _
    | split
    | dsimp only

theorem takeVc3_only (n : Nat) (m : Msg) (s : State) : Only [.fns, .sess, .billing, .ports, .units, .parts, .xtrigOut, .slath, .hang, .wale, .always, .osier, .plait, .err, .out, .fires, .free] s (takeVc3 n m s) := by
  unfold takeVc3
  repeat' first
    | with_reducible exact Only.refl _ _
    | with_reducible assumption
    | decide
    | with_reducible apply Only.step ?_ (takeHaltRecord_only ..) ?_
    | with_reducible apply Only.step ?_ (takeEventBatch_only ..) ?_
    | with_reducible apply Only.step ?_ (takeDelta_only ..) ?_
    | with_reducible apply Only.step ?_ (takeDieLoss_only ..) ?_
    | with_reducible apply each_only
    | intro _ _
    | intro _
    | split
    | dsimp only

theorem warpRecords_only (ps : List Nat) (c : Commit) (outcome : Nat) (new : W32) (status : Byte) (s : State) : Only [.fns, .sess, .billing, .parts, .wale, .always, .osier, .err, .out, .fires, .free] s (warpRecords ps c outcome new status s) := by
  unfold warpRecords
  repeat' first
    | with_reducible exact Only.refl _ _
    | with_reducible assumption
    | decide
    | with_reducible apply Only.step ?_ (writeRec_only ..) ?_
    | with_reducible apply each_only
    | intro _ _
    | intro _
    | split
    | dsimp only

theorem failCommit_only (p : Nat) (status : Byte) (s : State) : Only [.fns, .sess, .billing, .parts, .wale, .always, .osier, .err, .out, .fires, .free] s (failCommit p status s) := by
  unfold failCommit
  repeat' first
    | with_reducible exact Only.refl _ _
    | with_reducible assumption
    | decide
    | with_reducible apply Only.step ?_ (modPart_only ..) ?_
    | with_reducible apply Only.step ?_ (complete_only ..) ?_
    | with_reducible apply Only.step ?_ (writeRec_only ..) ?_
    | with_reducible apply each_only
    | intro _ _
    | intro _
    | split
    | dsimp only

theorem failWarp_only (status : Byte) (s : State) : Only [.weave, .fns, .sess, .billing, .parts, .wale, .always, .osier, .err, .out, .fires, .free] s (failWarp status s) := by
  unfold failWarp
  repeat' first
    | with_reducible exact Only.refl _ _
    | with_reducible assumption
    | decide
    | with_reducible apply Only.step ?_ (complete_only ..) ?_
    | with_reducible apply Only.step ?_ (warpRecords_only ..) ?_
    | with_reducible apply each_only
    | intro _ _
    | intro _
    | split
    | with_reducible apply upd_weave
    | dsimp only

theorem stakeTaken_only (p : Nat) (s : State) : Only [.weave, .fns, .sess, .billing, .parts, .wale, .always, .osier, .err, .out, .fires, .free] s (stakeTaken p s) := by
  unfold stakeTaken
  repeat' first
    | with_reducible exact Only.refl _ _
    | with_reducible assumption
    | decide
    | with_reducible apply Only.step ?_ (failCommit_only ..) ?_
    | with_reducible apply Only.step ?_ (failWarp_only ..) ?_
    | with_reducible apply each_only
    | intro _ _
    | intro _
    | split
    | dsimp only

theorem checkTakeover_only (s : State) : Only [.fns, .always, .out] s (checkTakeover s) := by
  unfold checkTakeover
  repeat' first
    | with_reducible exact Only.refl _ _
    | with_reducible assumption
    | decide
    | with_reducible apply Only.step ?_ (complete_only ..) ?_
    | with_reducible apply each_only
    | intro _ _
    | intro _
    | split
    | dsimp only

theorem checkHandoffIn_only (s : State) : Only [.ports, .always, .plait, .out] s (checkHandoffIn s) := by
  unfold checkHandoffIn
  repeat' first
    | with_reducible exact Only.refl _ _
    | with_reducible assumption
    | decide
    | with_reducible apply Only.step ?_ (plaitSend_only ..) ?_
    | with_reducible apply each_only
    | intro _ _
    | intro _
    | split
    | with_reducible apply upd_plait
    | dsimp only

theorem checkHandoff_only (s : State) : Only [.ports, .always, .plait, .out] s (checkHandoff s) := by
  unfold checkHandoff
  repeat' first
    | with_reducible exact Only.refl _ _
    | with_reducible assumption
    | decide
    | with_reducible apply Only.step ?_ (plaitSend_only ..) ?_
    | with_reducible apply each_only
    | intro _ _
    | intro _
    | split
    | with_reducible apply upd_plait
    | dsimp only

theorem sendWithheld_only (s : State) : Only [.ports, .always, .plait, .out] s (sendWithheld s) := by
  unfold sendWithheld
  repeat' first
    | with_reducible exact Only.refl _ _
    | with_reducible assumption
    | decide
    | with_reducible apply Only.step ?_ (writeHoopCtrl_only ..) ?_
    | with_reducible apply each_only
    | intro _ _
    | intro _
    | split
    | dsimp only

theorem enterPaired_only (s : State) : Only [.fns, .ports, .always, .plait, .out] s (enterPaired s) := by
  unfold enterPaired
  repeat' first
    | with_reducible exact Only.refl _ _
    | with_reducible assumption
    | decide
    | with_reducible apply Only.step ?_ (complete_only ..) ?_
    | with_reducible apply Only.step ?_ (plaitEvent_only ..) ?_
    | with_reducible apply Only.step ?_ (sendWithheld_only ..) ?_
    | with_reducible apply each_only
    | intro _ _
    | intro _
    | split
    | with_reducible apply upd_plait
    | dsimp only

theorem checkPairing_only (s : State) : Only [.fns, .ports, .always, .plait, .out] s (checkPairing s) := by
  unfold checkPairing
  repeat' first
    | with_reducible exact Only.refl _ _
    | with_reducible assumption
    | decide
    | with_reducible apply Only.step ?_ (enterPaired_only ..) ?_
    | with_reducible apply each_only
    | intro _ _
    | intro _
    | split
    | dsimp only

theorem twinChecks_only (s : State) : Only [.fns, .ports, .always, .plait, .out] s (twinChecks s) := by
  unfold twinChecks
  repeat' first
    | with_reducible exact Only.refl _ _
    | with_reducible assumption
    | decide
    | with_reducible apply Only.step ?_ (checkTakeover_only ..) ?_
    | with_reducible apply Only.step ?_ (checkHandoffIn_only ..) ?_
    | with_reducible apply Only.step ?_ (checkHandoff_only ..) ?_
    | with_reducible apply Only.step ?_ (checkPairing_only ..) ?_
    | with_reducible apply each_only
    | intro _ _
    | intro _
    | split
    | dsimp only

theorem stakeRefused_only (n : Nat) (p : Nat) (remain : Nat) (claimed : Bool) (s : State) : Only [.weave, .fns, .sess, .billing, .ports, .parts, .wale, .always, .osier, .plait, .err, .out, .fires, .free] s (stakeRefused n p remain claimed s) := by
  unfold stakeRefused
  repeat' first
    | with_reducible exact Only.refl _ _
    | with_reducible assumption
    | decide
    | with_reducible apply Only.step ?_ (modStake_only ..) ?_
    | with_reducible apply Only.step ?_ (clearResends_only ..) ?_
    | with_reducible apply Only.step ?_ (stakeLost_only ..) ?_
    | with_reducible apply Only.step ?_ (claim_only ..) ?_
    | with_reducible apply Only.step ?_ (endResend_only ..) ?_
    | with_reducible apply Only.step ?_ (stakeTaken_only ..) ?_
    | with_reducible apply each_only
    | intro _ _
    | intro _
    | split
    | dsimp only

theorem claimAnswer_only (n : Nat) (p : Nat) (code : Nat) (d : List Byte) (s : State) : Only [.weave, .fns, .sess, .billing, .ports, .parts, .wale, .always, .osier, .plait, .err, .out, .fires, .free] s (claimAnswer n p code d s) := by
  unfold claimAnswer
  repeat' first
    | with_reducible exact Only.refl _ _
    | with_reducible assumption
    | decide
    | with_reducible apply Only.step ?_ (clearResends_only ..) ?_
    | with_reducible apply Only.step ?_ (stakeGained_only ..) ?_
    | with_reducible apply Only.step ?_ (twinChecks_only ..) ?_
    | with_reducible apply Only.step ?_ (stakeRefused_only ..) ?_
    | with_reducible apply each_only
    | intro _ _
    | intro _
    | split
    | dsimp only

theorem renewAnswer_only (n : Nat) (p : Nat) (code : Nat) (d : List Byte) (s : State) : Only [.weave, .fns, .sess, .billing, .ports, .parts, .wale, .always, .osier, .plait, .err, .out, .fires, .free] s (renewAnswer n p code d s) := by
  unfold renewAnswer
  repeat' first
    | with_reducible exact Only.refl _ _
    | with_reducible assumption
    | decide
    | with_reducible apply Only.step ?_ (modStake_only ..) ?_
    | with_reducible apply Only.step ?_ (claim_only ..) ?_
    | with_reducible apply Only.step ?_ (twinChecks_only ..) ?_
    | with_reducible apply Only.step ?_ (stakeRefused_only ..) ?_
    | with_reducible apply each_only
    | intro _ _
    | intro _
    | split
    | dsimp only

theorem releaseAnswer_only (n : Nat) (p : Nat) (code : Nat) (s : State) : Only [.fns, .ports, .always, .plait, .out] s (releaseAnswer n p code s) := by
  unfold releaseAnswer
  repeat' first
    | with_reducible exact Only.refl _ _
    | with_reducible assumption
    | decide
    | with_reducible apply Only.step ?_ (modStake_only ..) ?_
    | with_reducible apply Only.step ?_ (stakeNote_only ..) ?_
    | with_reducible apply Only.step ?_ (twinChecks_only ..) ?_
    | with_reducible apply each_only
    | intro _ _
    | intro _
    | split
    | dsimp only

theorem sawHolder_only (n : Nat) (p : Nat) (d : List Byte) (s : State) : Only [.weave, .fns, .sess, .billing, .ports, .parts, .wale, .always, .osier, .err, .out, .fires, .free] s (sawHolder n p d s) := by
  unfold sawHolder
  repeat' first
    | with_reducible exact Only.refl _ _
    | with_reducible assumption
    | decide
    | with_reducible apply Only.step ?_ (modStake_only ..) ?_
    | with_reducible apply Only.step ?_ (stakeTaken_only ..) ?_
    | with_reducible apply each_only
    | intro _ _
    | intro _
    | split
    | dsimp only

theorem sendHello_only (request : Bool) (s : State) : Only [.ports, .always, .plait, .out] s (sendHello request s) := by
  unfold sendHello
  repeat' first
    | with_reducible exact Only.refl _ _
    | with_reducible assumption
    | decide
    | with_reducible apply Only.step ?_ (plaitSend_only ..) ?_
    | with_reducible apply each_only
    | intro _ _
    | intro _
    | split
    | dsimp only

theorem pairFails_only (code : Nat) (s : State) : Only [.fns, .ports, .always, .plait, .out] s (pairFails code s) := by
  unfold pairFails
  repeat' first
    | with_reducible exact Only.refl _ _
    | with_reducible assumption
    | decide
    | with_reducible apply Only.step ?_ (complete_only ..) ?_
    | with_reducible apply Only.step ?_ (plaitEvent_only ..) ?_
    | with_reducible apply Only.step ?_ (sendWithheld_only ..) ?_
    | with_reducible apply each_only
    | intro _ _
    | intro _
    | split
    | with_reducible apply upd_plait
    | dsimp only

theorem settlePairing_only (s : State) : Only [.fns, .ports, .always, .plait, .out] s (settlePairing s) := by
  unfold settlePairing
  repeat' first
    | with_reducible exact Only.refl _ _
    | with_reducible assumption
    | decide
    | with_reducible apply Only.step ?_ (askRenew_only ..) ?_
    | with_reducible apply Only.step ?_ (claim_only ..) ?_
    | with_reducible apply Only.step ?_ (checkPairing_only ..) ?_
    | with_reducible apply each_only
    | intro _ _
    | intro _
    | split
    | with_reducible apply upd_plait
    | dsimp only

theorem startPairing_only (s : State) : Only [.fns, .ports, .always, .plait, .out] s (startPairing s) := by
  unfold startPairing
  repeat' first
    | with_reducible exact Only.refl _ _
    | with_reducible assumption
    | decide
    | with_reducible apply Only.step ?_ (plaitSend_only ..) ?_
    | with_reducible apply Only.step ?_ (settlePairing_only ..) ?_
    | with_reducible apply each_only
    | intro _ _
    | intro _
    | split
    | with_reducible apply upd_plait
    | dsimp only

theorem tryPairing_only (s : State) : Only [.fns, .ports, .always, .plait, .out] s (tryPairing s) := by
  unfold tryPairing
  repeat' first
    | with_reducible exact Only.refl _ _
    | with_reducible assumption
    | decide
    | with_reducible apply Only.step ?_ (pairFails_only ..) ?_
    | with_reducible apply Only.step ?_ (startPairing_only ..) ?_
    | with_reducible apply each_only
    | intro _ _
    | intro _
    | split
    | dsimp only

theorem modEnum_only (n : Nat) (g : EnumSt → EnumSt) (s : State) : Only [.ports] s (modEnum n g s) := by
  unfold modEnum
  repeat' first
    | with_reducible exact Only.refl _ _
    | with_reducible assumption
    | decide
    | with_reducible apply Only.step ?_ (modPort_only ..) ?_
    | with_reducible apply each_only
    | intro _ _
    | intro _
    | split
    | dsimp only

theorem enumSend_only {m : List Fld} (n stage : Nat) (l : List (State → State)) (s : State)
    (hm : ([.ports] : List Fld).all m.contains = true) (hl : ∀ g ∈ l, ∀ t, Only m t (g t)) : Only m s (enumSend n stage l s) := by
  unfold enumSend
  exact ((modEnum_only ..).weaken hm).trans (foldl_apply_only l _ hl)

theorem enumLoop_only (n k : Nat) (s : State) : Only [.ports, .always, .plait, .out] s (enumLoop n k s) := by
  induction k generalizing s with
  | zero => exact .refl _ _
  | succ k ih =>
    unfold enumLoop
    split
    · exact .refl _ _
    · split
      · exact .refl _ _
      · dsimp only
        split
        · refine Only.trans (enumSend_only _ _ _ _ (by decide) fun g hg t => ?_) (ih ..)
          obtain ⟨c, -, rfl⟩ := List.mem_map.mp hg
          exact (ask_only ..).weaken (by decide)
        · refine Only.trans (enumSend_only _ _ _ _ (by decide) fun g hg t => ?_) (ih ..)
          obtain ⟨⟨i, k, b⟩, -, rfl⟩ := List.mem_map.mp hg
          exact (ask_only ..).weaken (by decide)
        · refine Only.trans (enumSend_only _ _ _ _ (by decide) fun g hg t => ?_) (ih ..)
          obtain ⟨u, -, hu⟩ := List.mem_filterMap.mp hg
          obtain ⟨p, -, rfl⟩ := Option.map_eq_some_iff.mp hu
          exact (askRegRead_only ..).weaken (by decide)
        · exact Only.trans ((modEnum_only ..).weaken (by decide))
            (each_only (.refl _ _) fun _ _ => (claim_only ..).weaken (by decide))
        · exact .refl _ _

theorem enumGo_only (n : Nat) (s : State) : Only [.ports, .always, .plait, .out] s (enumGo n s) := by
  unfold enumGo
  repeat' first
    | with_reducible exact Only.refl _ _
    | with_reducible assumption
    | decide
    | with_reducible apply Only.step ?_ (enumLoop_only ..) ?_
    | with_reducible apply each_only
    | intro _ _
    | intro _
    | split
    | dsimp only

theorem enumStart_only (n : Nat) (s : State) : Only [.ports, .units, .always, .plait, .out] s (enumStart n s) := by
  unfold enumStart
  refine Only.trans (Only.trans ?_ (enumSend_only _ _ _ _ (by decide) fun g hg t => ?_)) ((enumGo_only ..).weaken (by decide))
  · exact Only.step (each_only (.refl _ _) fun _ _ => (modUnit_only ..).weaken (by decide)) (modPort_only ..) (by decide)
  · obtain ⟨⟨o, k⟩, -, rfl⟩ := List.mem_map.mp hg
    exact (ask_only ..).weaken (by decide)

theorem enumAnswered_only (n : Nat) (s : State) : Only [.ports, .always, .plait, .out] s (enumAnswered n s) := by
  unfold enumAnswered
  repeat' first
    | with_reducible exact Only.refl _ _
    | with_reducible assumption
    | decide
    | with_reducible apply Only.step ?_ (modEnum_only ..) ?_
    | with_reducible apply Only.step ?_ (enumGo_only ..) ?_
    | with_reducible apply each_only
    | intro _ _
    | intro _
    | split
    | dsimp only

theorem enumReadAnswer_only (n : Nat) (first : Nat) (code : Nat) (d : List Byte) (s : State) : Only [.ports, .units, .always, .plait, .out] s (enumReadAnswer n first code d s) := by
  unfold enumReadAnswer
  repeat' first
    | with_reducible exact Only.refl _ _
    | with_reducible assumption
    | decide
    | with_reducible apply Only.step ?_ (modUnit_only ..) ?_
    | with_reducible apply Only.step ?_ (enumAnswered_only ..) ?_
    | with_reducible apply each_only
    | intro _ _
    | intro _
    | split
    | dsimp only

theorem classReadAnswer_only (n : Nat) (cls : Nat) (code : Nat) (d : List Byte) (s : State) : Only [.ports, .always, .plait, .out] s (classReadAnswer n cls code d s) := by
  unfold classReadAnswer
  repeat' first
    | with_reducible exact Only.refl _ _
    | with_reducible assumption
    | decide
    | with_reducible apply Only.step ?_ (modPort_only ..) ?_
    | with_reducible apply Only.step ?_ (enumAnswered_only ..) ?_
    | with_reducible apply each_only
    | intro _ _
    | intro _
    | split
    | dsimp only

theorem runStateAnswer_only (n : Nat) (u : Nat) (code : Nat) (d : List Byte) (s : State) : Only [.fns, .sess, .billing, .ports, .units, .parts, .slath, .wale, .always, .osier, .plait, .err, .out, .fires, .free] s (runStateAnswer n u code d s) := by
  unfold runStateAnswer
  repeat' first
    | with_reducible exact Only.refl _ _
    | with_reducible assumption
    | decide
    | with_reducible apply Only.step ?_ (modUnit_only ..) ?_
    | with_reducible apply Only.step ?_ (checkGathering_only ..) ?_
    | with_reducible apply Only.step ?_ (enumAnswered_only ..) ?_
    | with_reducible apply each_only
    | intro _ _
    | intro _
    | split
    | dsimp only

theorem writeDefaults_only (u : Nat) (p : Nat) (who : Bool → ReqFor) (s : State) : Only [.ports, .always, .plait, .out] s (writeDefaults u p who s) := by
  unfold writeDefaults
  repeat' first
    | with_reducible exact Only.refl _ _
    | with_reducible assumption
    | decide
    | with_reducible apply Only.step ?_ (ask_only ..) ?_
    | with_reducible apply each_only
    | intro _ _
    | intro _
    | split
    | dsimp only

theorem enumClaimed_only (n : Nat) (p : Nat) (s : State) : Only [.ports, .always, .plait, .out] s (enumClaimed n p s) := by
  unfold enumClaimed
  repeat' first
    | with_reducible exact Only.refl _ _
    | with_reducible assumption
    | decide
    | with_reducible apply Only.step ?_ (writeDefaults_only ..) ?_
    | with_reducible apply each_only
    | intro _ _
    | intro _
    | split
    | dsimp only

theorem synthAnswer_only (u : Nat) (k : Nat) (code : Nat) (d : List Byte) (s : State) : Only [.units] s (synthAnswer u k code d s) := by
  unfold synthAnswer
  repeat' first
    | with_reducible exact Only.refl _ _
    | with_reducible assumption
    | decide
    | with_reducible apply Only.step ?_ (modUnit_only ..) ?_
    | with_reducible apply each_only
    | intro _ _
    | intro _
    | split
    | dsimp only

theorem modCommit_only (p : Nat) (g : Commit → Commit) (s : State) : Only [.parts] s (modCommit p g s) := by
  unfold modCommit
  repeat' first
    | with_reducible exact Only.refl _ _
    | with_reducible assumption
    | decide
    | with_reducible apply Only.step ?_ (modPart_only ..) ?_
    | with_reducible apply each_only
    | intro _ _
    | intro _
    | split
    | dsimp only

theorem watchApplyAnswer_only (p : Nat) (u : Nat) (last : Bool) (ok : Bool) (s : State) : Only [.parts] s (watchApplyAnswer p u last ok s) := by
  unfold watchApplyAnswer
  repeat' first
    | with_reducible exact Only.refl _ _
    | with_reducible assumption
    | decide
    | with_reducible apply Only.step ?_ (modCommit_only ..) ?_
    | with_reducible apply each_only
    | intro _ _
    | intro _
    | split
    | dsimp only

theorem answered_only (n : Nat) (r : OutReq) (code : Nat) (replayed : Bool) (d : List Byte) (s : State) : Only [.weave, .fns, .sess, .billing, .ports, .units, .parts, .slath, .wale, .always, .osier, .plait, .err, .out, .fires, .free] s (answered n r code replayed d s) := by
  unfold answered
  repeat' first
    | with_reducible exact Only.refl _ _
    | with_reducible assumption
    | decide
    | with_reducible apply Only.step ?_ (cmdAnswer_only ..) ?_
    | with_reducible apply Only.step ?_ (inflightAnswer_only ..) ?_
    | with_reducible apply Only.step ?_ (captureAnswer_only ..) ?_
    | with_reducible apply Only.step ?_ (regionAnswer_only ..) ?_
    | with_reducible apply Only.step ?_ (claimAnswer_only ..) ?_
    | with_reducible apply Only.step ?_ (renewAnswer_only ..) ?_
    | with_reducible apply Only.step ?_ (releaseAnswer_only ..) ?_
    | with_reducible apply Only.step ?_ (sawHolder_only ..) ?_
    | with_reducible apply Only.step ?_ (enumAnswered_only ..) ?_
    | with_reducible apply Only.step ?_ (enumReadAnswer_only ..) ?_
    | with_reducible apply Only.step ?_ (classReadAnswer_only ..) ?_
    | with_reducible apply Only.step ?_ (runStateAnswer_only ..) ?_
    | with_reducible apply Only.step ?_ (enumClaimed_only ..) ?_
    | with_reducible apply Only.step ?_ (synthAnswer_only ..) ?_
    | with_reducible apply Only.step ?_ (watchApplyAnswer_only ..) ?_
    | with_reducible apply each_only
    | intro _ _
    | intro _
    | split
    | dsimp only

theorem protocolError_only (l : Nat) (s : State) : Only [.ports, .plait] s (protocolError l s) := by
  unfold protocolError
  repeat' first
    | with_reducible exact Only.refl _ _
    | with_reducible assumption
    | decide
    | with_reducible apply Only.step ?_ (setLinkErr_only ..) ?_
    | with_reducible apply each_only
    | intro _ _
    | intro _
    | split
    | dsimp only

theorem takeResponse_only (n : Nat) (m : Msg) (s : State) : Only [.weave, .fns, .sess, .billing, .ports, .units, .parts, .slath, .wale, .always, .osier, .plait, .err, .out, .fires, .free] s (takeResponse n m s) := by
  unfold takeResponse
  repeat' first
    | with_reducible exact Only.refl _ _
    | with_reducible assumption
    | decide
    | with_reducible apply Only.step ?_ (modLnk_only ..) ?_
    | with_reducible apply Only.step ?_ (answerEffect_only ..) ?_
    | with_reducible apply Only.step ?_ (refusalEffect_only ..) ?_
    | with_reducible apply Only.step ?_ (answered_only ..) ?_
    | with_reducible apply Only.step ?_ (protocolError_only ..) ?_
    | with_reducible apply each_only
    | intro _ _
    | intro _
    | split
    | dsimp only

theorem failResends_only (n : Nat) (p : Nat) (st : Byte) (s : State) : Only [.fns, .sess, .billing, .ports, .parts, .wale, .always, .osier, .plait, .err, .out, .fires, .free] s (failResends n p st s) := by
  unfold failResends
  repeat' first
    | with_reducible exact Only.refl _ _
    | with_reducible assumption
    | decide
    | with_reducible apply Only.step ?_ (clearResends_only ..) ?_
    | with_reducible apply Only.step ?_ (endResend_only ..) ?_
    | with_reducible apply each_only
    | intro _ _
    | intro _
    | split
    | dsimp only

theorem unanswered_only (n : Nat) (r : OutReq) (st : Byte) (s : State) : Only [.fns, .sess, .billing, .ports, .units, .parts, .slath, .wale, .always, .osier, .plait, .err, .out, .fires, .free] s (unanswered n r st s) := by
  unfold unanswered
  repeat' first
    | with_reducible exact Only.refl _ _
    | with_reducible assumption
    | decide
    | with_reducible apply Only.step ?_ (inflightAnswer_only ..) ?_
    | with_reducible apply Only.step ?_ (captureAnswer_only ..) ?_
    | with_reducible apply Only.step ?_ (twinChecks_only ..) ?_
    | with_reducible apply Only.step ?_ (enumAnswered_only ..) ?_
    | with_reducible apply Only.step ?_ (synthAnswer_only ..) ?_
    | with_reducible apply Only.step ?_ (watchApplyAnswer_only ..) ?_
    | with_reducible apply Only.step ?_ (failResends_only ..) ?_
    | with_reducible apply each_only
    | intro _ _
    | intro _
    | split
    | dsimp only

theorem requestLost_only (n : Nat) (r : OutReq) (s : State) : Only [.fns, .sess, .billing, .ports, .units, .parts, .slath, .wale, .always, .osier, .plait, .err, .out, .fires, .free] s (requestLost n r s) := by
  unfold requestLost
  repeat' first
    | with_reducible exact Only.refl _ _
    | with_reducible assumption
    | decide
    | with_reducible apply Only.step ?_ (modWork_only ..) ?_
    | with_reducible apply Only.step ?_ (cmdLinkLost_only ..) ?_
    | with_reducible apply Only.step ?_ (regionAnswer_only ..) ?_
    | with_reducible apply Only.step ?_ (unanswered_only ..) ?_
    | with_reducible apply each_only
    | intro _ _
    | intro _
    | split
    | dsimp only

theorem enterDetect_only (l : Nat) (s : State) : Only [.ports, .plait] s (enterDetect l s) := by
  unfold enterDetect
  repeat' first
    | with_reducible exact Only.refl _ _
    | with_reducible assumption
    | decide
    | with_reducible apply Only.step ?_ (modPort_only ..) ?_
    | with_reducible apply Only.step ?_ (modLnk_only ..) ?_
    | with_reducible apply each_only
    | intro _ _
    | intro _
    | split
    | dsimp only

theorem startLink_only (n : Nat) (s : State) : Only [.ports, .plait] s (startLink n s) := by
  unfold startLink
  repeat' first
    | with_reducible exact Only.refl _ _
    | with_reducible assumption
    | decide
    | with_reducible apply Only.step ?_ (modPort_only ..) ?_
    | with_reducible apply Only.step ?_ (enterDetect_only ..) ?_
    | with_reducible apply each_only
    | intro _ _
    | intro _
    | split
    | dsimp only

theorem timesyncRec_only (l : Nat) (resumed : Bool) (s : State) : Only [.fns, .sess, .billing, .ports, .parts, .wale, .always, .osier, .plait, .err, .out, .fires, .free] s (timesyncRec l resumed s) := by
  unfold timesyncRec
  repeat' first
    | with_reducible exact Only.refl _ _
    | with_reducible assumption
    | decide
    | with_reducible apply Only.step ?_ (modLnk_only ..) ?_
    | with_reducible apply Only.step ?_ (writeRec_only ..) ?_
    | with_reducible apply each_only
    | intro _ _
    | intro _
    | split
    | dsimp only

theorem linkRec_only (n : Nat) (event : Nat) (s : State) : Only [.fns, .sess, .billing, .parts, .wale, .always, .osier, .err, .out, .fires, .free] s (linkRec n event s) := by
  unfold linkRec
  repeat' first
    | with_reducible exact Only.refl _ _
    | with_reducible assumption
    | decide
    | with_reducible apply Only.step ?_ (writeRec_only ..) ?_
    | with_reducible apply each_only
    | intro _ _
    | intro _
    | split
    | dsimp only

theorem linkLoss_only (n : Nat) (s : State) : Only [.fns, .sess, .billing, .parts, .wale, .always, .osier, .err, .out, .fires, .free] s (linkLoss n s) := by
  unfold linkLoss
  repeat' first
    | with_reducible exact Only.refl _ _
    | with_reducible assumption
    | decide
    | with_reducible apply Only.step ?_ (lossBoth_only ..) ?_
    | with_reducible apply each_only
    | intro _ _
    | intro _
    | split
    | dsimp only

theorem linkDownCmds_only (n : Nat) (s : State) : Only [.fns] s (linkDownCmds n s) := by
  unfold linkDownCmds
  repeat' first
    | with_reducible exact Only.refl _ _
    | with_reducible assumption
    | decide
    | with_reducible apply Only.step ?_ (modWork_only ..) ?_
    | with_reducible apply each_only
    | intro _ _
    | intro _
    | split
    | dsimp only

theorem reinstall_only (n : Nat) (s : State) : Only [.weave, .ports] s (reinstall n s) := by
  unfold reinstall
  repeat' first
    | with_reducible exact Only.refl _ _
    | with_reducible assumption
    | decide
    | with_reducible apply Only.step ?_ (modPort_only ..) ?_
    | with_reducible apply each_only
    | intro _ _
    | intro _
    | split
    | with_reducible apply upd_weave
    | dsimp only

theorem warpTrained_only (n : Nat) (s : State) : Only [.weave] s (warpTrained n s) := by
  unfold warpTrained
  repeat' first
    | with_reducible exact Only.refl _ _
    | with_reducible assumption
    | decide
    | with_reducible apply each_only
    | intro _ _
    | intro _
    | split
    | with_reducible apply upd_weave
    | dsimp only

theorem bootAdvance_only (s : State) : Only [.boot, .ports, .units, .always, .plait, .out] s (bootAdvance s) := by
  unfold bootAdvance
  repeat' first
    | with_reducible exact Only.refl _ _
    | with_reducible assumption
    | decide
    | with_reducible apply Only.step ?_ (enumStart_only ..) ?_
    | with_reducible apply each_only
    | intro _ _
    | intro _
    | split
    | with_reducible apply upd_boot
    | dsimp only

theorem endsAtDown_only (n : Nat) (s : State) : Only [.fns, .sess, .billing, .units, .parts, .wale, .always, .osier, .err, .out, .fires, .free] s (endsAtDown n s) := by
  unfold endsAtDown
  repeat' first
    | with_reducible exact Only.refl _ _
    | with_reducible assumption
    | decide
    | with_reducible apply Only.step ?_ (endsWithoutDelta_only ..) ?_
    | with_reducible apply each_only
    | intro _ _
    | intro _
    | split
    | dsimp only

theorem portDown_only (n : Nat) (cause : Nat) (count : Bool) (s : State) : Only [.boot, .weave, .fns, .sess, .billing, .ports, .units, .parts, .slath, .hang, .wale, .always, .osier, .plait, .err, .out, .fires, .free] s (portDown n cause count s) := by
  unfold portDown
  repeat' first
    | with_reducible exact Only.refl _ _
    | with_reducible assumption
    | decide
    | with_reducible apply Only.step ?_ (modPort_only ..) ?_
    | with_reducible apply Only.step ?_ (raiseErr_only ..) ?_
    | with_reducible apply Only.step ?_ (uncertain_only ..) ?_
    | with_reducible apply Only.step ?_ (checkGather_only ..) ?_
    | with_reducible apply Only.step ?_ (declareUnit_only ..) ?_
    | with_reducible apply Only.step ?_ (slath_only ..) ?_
    | with_reducible apply Only.step ?_ (twinChecks_only ..) ?_
    | with_reducible apply Only.step ?_ (requestLost_only ..) ?_
    | with_reducible apply Only.step ?_ (linkRec_only ..) ?_
    | with_reducible apply Only.step ?_ (linkDownCmds_only ..) ?_
    | with_reducible apply Only.step ?_ (reinstall_only ..) ?_
    | with_reducible apply Only.step ?_ (bootAdvance_only ..) ?_
    | with_reducible apply Only.step ?_ (endsAtDown_only ..) ?_
    | with_reducible apply each_only
    | intro _ _
    | intro _
    | split
    | dsimp only

theorem claimAll_only (s : State) : Only [.ports, .always, .plait, .out] s (claimAll s) := by
  unfold claimAll
  repeat' first
    | with_reducible exact Only.refl _ _
    | with_reducible assumption
    | decide
    | with_reducible apply Only.step ?_ (claim_only ..) ?_
    | with_reducible apply each_only
    | intro _ _
    | intro _
    | split
    | dsimp only

theorem enterTwinLost_only (s : State) : Only [.fns, .ports, .always, .plait, .out] s (enterTwinLost s) := by
  unfold enterTwinLost
  repeat' first
    | with_reducible exact Only.refl _ _
    | with_reducible assumption
    | decide
    | with_reducible apply Only.step ?_ (plaitEvent_only ..) ?_
    | with_reducible apply Only.step ?_ (claimAll_only ..) ?_
    | with_reducible apply each_only
    | intro _ _
    | intro _
    | split
    | with_reducible apply upd_plait
    | dsimp only

theorem handoffLost_only (s : State) : Only [.fns, .always, .plait, .out] s (handoffLost s) := by
  unfold handoffLost
  repeat' first
    | with_reducible exact Only.refl _ _
    | with_reducible assumption
    | decide
    | with_reducible apply Only.step ?_ (complete_only ..) ?_
    | with_reducible apply each_only
    | intro _ _
    | intro _
    | split
    | with_reducible apply upd_plait
    | dsimp only

theorem pairEnds_only (st : Byte) (s : State) : Only [.fns, .always, .out] s (pairEnds st s) := by
  unfold pairEnds
  repeat' first
    | with_reducible exact Only.refl _ _
    | with_reducible assumption
    | decide
    | with_reducible apply Only.step ?_ (complete_only ..) ?_
    | with_reducible apply each_only
    | intro _ _
    | intro _
    | split
    | dsimp only

theorem plaitDown_only (cause : Nat) (count : Bool) (s : State) : Only [.fns, .ports, .always, .plait, .err, .out] s (plaitDown cause count s) := by
  unfold plaitDown
  repeat' first
    | with_reducible exact Only.refl _ _
    | with_reducible assumption
    | decide
    | with_reducible apply Only.step ?_ (raiseErr_only ..) ?_
    | with_reducible apply Only.step ?_ (plaitEvent_only ..) ?_
    | with_reducible apply Only.step ?_ (enterTwinLost_only ..) ?_
    | with_reducible apply Only.step ?_ (handoffLost_only ..) ?_
    | with_reducible apply Only.step ?_ (pairEnds_only ..) ?_
    | with_reducible apply each_only
    | intro _ _
    | intro _
    | split
    | with_reducible apply upd_plait
    | dsimp only

theorem linkDown_only (l : Nat) (cause : Nat) (count : Bool) (s : State) : Only [.boot, .weave, .fns, .sess, .billing, .ports, .units, .parts, .slath, .hang, .wale, .always, .osier, .plait, .err, .out, .fires, .free] s (linkDown l cause count s) := by
  unfold linkDown
  repeat' first
    | with_reducible exact Only.refl _ _
    | with_reducible assumption
    | decide
    | with_reducible apply Only.step ?_ (portDown_only ..) ?_
    | with_reducible apply Only.step ?_ (plaitDown_only ..) ?_
    | with_reducible apply each_only
    | intro _ _
    | intro _
    | split
    | dsimp only

theorem startRetrain_only (l : Nat) (s : State) : Only [.ports, .always, .plait] s (startRetrain l s) := by
  unfold startRetrain
  repeat' first
    | with_reducible exact Only.refl _ _
    | with_reducible assumption
    | decide
    | with_reducible apply Only.step ?_ (modLnk_only ..) ?_
    | with_reducible apply Only.step ?_ (bumpAlways_only ..) ?_
    | with_reducible apply each_only
    | intro _ _
    | intro _
    | split
    | dsimp only

theorem resend_only (l : Nat) (first : BitVec 12) (s : State) : Only [.ports, .always, .plait, .out] s (resend l first s) := by
  unfold resend
  repeat' first
    | with_reducible exact Only.refl _ _
    | with_reducible assumption
    | decide
    | with_reducible apply Only.step ?_ (setLinkErr_only ..) ?_
    | with_reducible apply Only.step ?_ (sendAgain_only ..) ?_
    | with_reducible apply each_only
    | intro _ _
    | intro _
    | split
    | dsimp only

theorem replay_only (l : Nat) (first : BitVec 12) (s : State) : Only [.fns, .sess, .billing, .ports, .parts, .wale, .always, .osier, .plait, .err, .out, .fires, .free] s (replay l first s) := by
  unfold replay
  repeat' first
    | with_reducible exact Only.refl _ _
    | with_reducible assumption
    | decide
    | with_reducible apply Only.step ?_ (modLnk_only ..) ?_
    | with_reducible apply Only.step ?_ (bumpAlways_only ..) ?_
    | with_reducible apply Only.step ?_ (sendCtl_only ..) ?_
    | with_reducible apply Only.step ?_ (pump_only ..) ?_
    | with_reducible apply Only.step ?_ (noteRuns_only ..) ?_
    | with_reducible apply Only.step ?_ (startRetrain_only ..) ?_
    | with_reducible apply Only.step ?_ (resend_only ..) ?_
    | with_reducible apply each_only
    | intro _ _
    | intro _
    | split
    | dsimp only

theorem readHdr_only (l : Nat) (h : CtlHdr) (s : State) : Only [.ports, .plait] s (readHdr l h s) := by
  unfold readHdr
  repeat' first
    | with_reducible exact Only.refl _ _
    | with_reducible assumption
    | decide
    | with_reducible apply Only.step ?_ (modLnk_only ..) ?_
    | with_reducible apply each_only
    | intro _ _
    | intro _
    | split
    | dsimp only

theorem takeHdr_only (l : Nat) (h : CtlHdr) (s : State) : Only [.fns, .sess, .billing, .ports, .parts, .wale, .always, .osier, .plait, .err, .out, .fires, .free] s (takeHdr l h s) := by
  unfold takeHdr
  repeat' first
    | with_reducible exact Only.refl _ _
    | with_reducible assumption
    | decide
    | with_reducible apply Only.step ?_ (pump_only ..) ?_
    | with_reducible apply Only.step ?_ (noteRuns_only ..) ?_
    | with_reducible apply Only.step ?_ (readHdr_only ..) ?_
    | with_reducible apply each_only
    | intro _ _
    | intro _
    | split
    | dsimp only

theorem startExchange_only (l : Nat) (s : State) : Only [.ports, .plait, .out] s (startExchange l s) := by
  unfold startExchange
  repeat' first
    | with_reducible exact Only.refl _ _
    | with_reducible assumption
    | decide
    | with_reducible apply Only.step ?_ (modLnk_only ..) ?_
    | with_reducible apply Only.step ?_ (sendCtl_only ..) ?_
    | with_reducible apply each_only
    | intro _ _
    | intro _
    | split
    | dsimp only

theorem enterActive_only (l : Nat) (s : State) : Only [.boot, .weave, .fns, .sess, .billing, .ports, .units, .parts, .wale, .always, .osier, .plait, .err, .out, .fires, .free] s (enterActive l s) := by
  unfold enterActive
  repeat' first
    | with_reducible exact Only.refl _ _
    | with_reducible assumption
    | decide
    | with_reducible apply Only.step ?_ (modPort_only ..) ?_
    | with_reducible apply Only.step ?_ (modLnk_only ..) ?_
    | with_reducible apply Only.step ?_ (pump_only ..) ?_
    | with_reducible apply Only.step ?_ (sendHello_only ..) ?_
    | with_reducible apply Only.step ?_ (tryPairing_only ..) ?_
    | with_reducible apply Only.step ?_ (enumStart_only ..) ?_
    | with_reducible apply Only.step ?_ (timesyncRec_only ..) ?_
    | with_reducible apply Only.step ?_ (linkRec_only ..) ?_
    | with_reducible apply Only.step ?_ (linkLoss_only ..) ?_
    | with_reducible apply Only.step ?_ (warpTrained_only ..) ?_
    | with_reducible apply Only.step ?_ (bootAdvance_only ..) ?_
    | with_reducible apply each_only
    | intro _ _
    | intro _
    | split
    | with_reducible apply upd_plait
    | dsimp only

theorem exchangeDone_only (l : Nat) (e : Exchange) (s : State) : Only [.boot, .weave, .fns, .sess, .billing, .ports, .units, .parts, .wale, .always, .osier, .plait, .err, .out, .fires, .free] s (exchangeDone l e s) := by
  unfold exchangeDone
  repeat' first
    | with_reducible exact Only.refl _ _
    | with_reducible assumption
    | decide
    | with_reducible apply Only.step ?_ (modLnk_only ..) ?_
    | with_reducible apply Only.step ?_ (timesyncRec_only ..) ?_
    | with_reducible apply Only.step ?_ (startExchange_only ..) ?_
    | with_reducible apply Only.step ?_ (enterActive_only ..) ?_
    | with_reducible apply each_only
    | intro _ _
    | intro _
    | split
    | dsimp only

theorem sendConfig_only (l : Nat) (s : State) : Only [.ports, .plait, .out] s (sendConfig l s) := by
  unfold sendConfig
  repeat' first
    | with_reducible exact Only.refl _ _
    | with_reducible assumption
    | decide
    | with_reducible apply Only.step ?_ (sendCtl_only ..) ?_
    | with_reducible apply each_only
    | intro _ _
    | intro _
    | split
    | dsimp only

theorem enterConfig_only (l : Nat) (s : State) : Only [.ports, .plait, .out] s (enterConfig l s) := by
  unfold enterConfig
  repeat' first
    | with_reducible exact Only.refl _ _
    | with_reducible assumption
    | decide
    | with_reducible apply Only.step ?_ (modLnk_only ..) ?_
    | with_reducible apply Only.step ?_ (sendConfig_only ..) ?_
    | with_reducible apply each_only
    | intro _ _
    | intro _
    | split
    | dsimp only

theorem enterTimesync_only (l : Nat) (body : ConfigBody) (s : State) : Only [.ports, .plait, .out] s (enterTimesync l body s) := by
  unfold enterTimesync
  repeat' first
    | with_reducible exact Only.refl _ _
    | with_reducible assumption
    | decide
    | with_reducible apply Only.step ?_ (modLnk_only ..) ?_
    | with_reducible apply Only.step ?_ (startExchange_only ..) ?_
    | with_reducible apply each_only
    | intro _ _
    | intro _
    | split
    | dsimp only

theorem noteUid_only (n : Nat) (uid : W64) (s : State) : Only [.ports] s (noteUid n uid s) := by
  unfold noteUid
  repeat' first
    | with_reducible exact Only.refl _ _
    | with_reducible assumption
    | decide
    | with_reducible apply Only.step ?_ (modPort_only ..) ?_
    | with_reducible apply each_only
    | intro _ _
    | intro _
    | split
    | dsimp only

theorem notePeer_only (n : Nat) (b : ConfigBody) (s : State) : Only [.ports] s (notePeer n b s) := by
  unfold notePeer
  repeat' first
    | with_reducible exact Only.refl _ _
    | with_reducible assumption
    | decide
    | with_reducible apply Only.step ?_ (modPort_only ..) ?_
    | with_reducible apply each_only
    | intro _ _
    | intro _
    | split
    | dsimp only

theorem takeConfig_only (l : Nat) (peerSeen : Bool) (b : ConfigBody) (s : State) : Only [.boot, .weave, .fns, .sess, .billing, .ports, .units, .parts, .slath, .hang, .wale, .always, .osier, .plait, .err, .out, .fires, .free] s (takeConfig l peerSeen b s) := by
  unfold takeConfig
  repeat' first
    | with_reducible exact Only.refl _ _
    | with_reducible assumption
    | decide
    | with_reducible apply Only.step ?_ (modLnk_only ..) ?_
    | with_reducible apply Only.step ?_ (linkDown_only ..) ?_
    | with_reducible apply Only.step ?_ (sendConfig_only ..) ?_
    | with_reducible apply Only.step ?_ (enterTimesync_only ..) ?_
    | with_reducible apply Only.step ?_ (noteUid_only ..) ?_
    | with_reducible apply Only.step ?_ (notePeer_only ..) ?_
    | with_reducible apply each_only
    | intro _ _
    | intro _
    | split
    | dsimp only

theorem aligned_only (l : Nat) (s : State) : Only [.ports, .plait, .out] s (aligned l s) := by
  unfold aligned
  repeat' first
    | with_reducible exact Only.refl _ _
    | with_reducible assumption
    | decide
    | with_reducible apply Only.step ?_ (modLnk_only ..) ?_
    | with_reducible apply Only.step ?_ (sendCtl_only ..) ?_
    | with_reducible apply Only.step ?_ (enterConfig_only ..) ?_
    | with_reducible apply each_only
    | intro _ _
    | intro _
    | split
    | dsimp only

theorem synced_only (l : Nat) (s : State) : Only [.ports, .plait, .out] s (synced l s) := by
  unfold synced
  repeat' first
    | with_reducible exact Only.refl _ _
    | with_reducible assumption
    | decide
    | with_reducible apply Only.step ?_ (modLnk_only ..) ?_
    | with_reducible apply Only.step ?_ (aligned_only ..) ?_
    | with_reducible apply each_only
    | intro _ _
    | intro _
    | split
    | dsimp only

theorem takeTs_only (l : Nat) (lane : Nat) (ts2 : Bool) (role : Byte) (laneNo : Byte) (mode : Byte) (version : Byte) (s : State) : Only [.ports, .plait, .out] s (takeTs l lane ts2 role laneNo mode version s) := by
  unfold takeTs
  repeat' first
    | with_reducible exact Only.refl _ _
    | with_reducible assumption
    | decide
    | with_reducible apply Only.step ?_ (modLnk_only ..) ?_
    | with_reducible apply Only.step ?_ (synced_only ..) ?_
    | with_reducible apply each_only
    | intro _ _
    | intro _
    | split
    | dsimp only

theorem takeAlign_only (l : Nat) (lane : Nat) (s : State) : Only [.ports, .plait, .out] s (takeAlign l lane s) := by
  unfold takeAlign
  repeat' first
    | with_reducible exact Only.refl _ _
    | with_reducible assumption
    | decide
    | with_reducible apply Only.step ?_ (modLnk_only ..) ?_
    | with_reducible apply Only.step ?_ (aligned_only ..) ?_
    | with_reducible apply each_only
    | intro _ _
    | intro _
    | split
    | dsimp only

theorem forceDown_only (n : Nat) (s : State) : Only [.boot, .weave, .fns, .sess, .billing, .ports, .units, .parts, .slath, .hang, .wale, .always, .osier, .plait, .err, .out, .fires, .free] s (forceDown n s) := by
  unfold forceDown
  repeat' first
    | with_reducible exact Only.refl _ _
    | with_reducible assumption
    | decide
    | with_reducible apply Only.step ?_ (portDown_only ..) ?_
    | with_reducible apply each_only
    | intro _ _
    | intro _
    | split
    | dsimp only

theorem takeTimesyncRsp_only (l : Nat) (exch : Byte) (t1 : W64) (t2 : W64) (t3 : W64) (s : State) : Only [.boot, .weave, .fns, .sess, .billing, .ports, .units, .parts, .wale, .always, .osier, .plait, .err, .out, .fires, .free] s (takeTimesyncRsp l exch t1 t2 t3 s) := by
  unfold takeTimesyncRsp
  repeat' first
    | with_reducible exact Only.refl _ _
    | with_reducible assumption
    | decide
    | with_reducible apply Only.step ?_ (exchangeDone_only ..) ?_
    | with_reducible apply each_only
    | intro _ _
    | intro _
    | split
    | dsimp only

theorem takeNak_only (l : Nat) (seq : BitVec 12) (s : State) : Only [.fns, .sess, .billing, .ports, .parts, .wale, .always, .osier, .plait, .err, .out, .fires, .free] s (takeNak l seq s) := by
  unfold takeNak
  repeat' first
    | with_reducible exact Only.refl _ _
    | with_reducible assumption
    | decide
    | with_reducible apply Only.step ?_ (modLnk_only ..) ?_
    | with_reducible apply Only.step ?_ (replay_only ..) ?_
    | with_reducible apply each_only
    | intro _ _
    | intro _
    | split
    | dsimp only

theorem takeReplayStart_only (l : Nat) (first : BitVec 12) (s : State) : Only [.ports, .plait] s (takeReplayStart l first s) := by
  unfold takeReplayStart
  repeat' first
    | with_reducible exact Only.refl _ _
    | with_reducible assumption
    | decide
    | with_reducible apply Only.step ?_ (modLnk_only ..) ?_
    | with_reducible apply each_only
    | intro _ _
    | intro _
    | split
    | dsimp only

theorem takeResume_only (l : Nat) (next : BitVec 12) (s : State) : Only [.fns, .sess, .billing, .ports, .parts, .wale, .always, .osier, .plait, .err, .out, .fires, .free] s (takeResume l next s) := by
  unfold takeResume
  repeat' first
    | with_reducible exact Only.refl _ _
    | with_reducible assumption
    | decide
    | with_reducible apply Only.step ?_ (modLnk_only ..) ?_
    | with_reducible apply Only.step ?_ (pump_only ..) ?_
    | with_reducible apply Only.step ?_ (noteRuns_only ..) ?_
    | with_reducible apply Only.step ?_ (timesyncRec_only ..) ?_
    | with_reducible apply Only.step ?_ (resend_only ..) ?_
    | with_reducible apply each_only
    | intro _ _
    | intro _
    | split
    | dsimp only

theorem takeDetach_only (n : Nat) (s : State) : Only [.ports] s (takeDetach n s) := by
  unfold takeDetach
  repeat' first
    | with_reducible exact Only.refl _ _
    | with_reducible assumption
    | decide
    | with_reducible apply Only.step ?_ (modPort_only ..) ?_
    | with_reducible apply each_only
    | intro _ _
    | intro _
    | split
    | dsimp only

theorem startBurn_only (b : Burn) (s : State) : Only [.lcy] s (startBurn b s) := by
  unfold startBurn
  repeat' first
    | with_reducible exact Only.refl _ _
    | with_reducible assumption
    | decide
    | with_reducible apply each_only
    | intro _ _
    | intro _
    | split
    | with_reducible apply upd_lcy
    | dsimp only

theorem askBurn_only (b : Burn) (s : State) : Only [.lcy] s (askBurn b s) := by
  unfold askBurn
  repeat' first
    | with_reducible exact Only.refl _ _
    | with_reducible assumption
    | decide
    | with_reducible apply Only.step ?_ (startBurn_only ..) ?_
    | with_reducible apply each_only
    | intro _ _
    | intro _
    | split
    | with_reducible apply upd_lcy
    | dsimp only

theorem burnResult_only (b : Burn) (s : State) : Only [.lcy, .tap, .fns, .always, .out] s (burnResult b s) := by
  unfold burnResult
  repeat' first
    | with_reducible exact Only.refl _ _
    | with_reducible assumption
    | decide
    | with_reducible apply Only.step ?_ (complete_only ..) ?_
    | with_reducible apply each_only
    | intro _ _
    | intro _
    | split
    | with_reducible apply upd_lcy
    | with_reducible apply upd_tap
    | dsimp only

theorem burnDone_only (b : Burn) (s : State) : Only [.lcy, .tap, .fns, .always, .out] s (burnDone b s) := by
  unfold burnDone
  repeat' first
    | with_reducible exact Only.refl _ _
    | with_reducible assumption
    | decide
    | with_reducible apply Only.step ?_ (askBurn_only ..) ?_
    | with_reducible apply Only.step ?_ (burnResult_only ..) ?_
    | with_reducible apply each_only
    | intro _ _
    | intro _
    | split
    | with_reducible apply upd_lcy
    | dsimp only

theorem nextBit_only (b : Burn) (left : Bool) (s : State) : Only [.lcy, .tap, .fns, .always, .out] s (nextBit b left s) := by
  unfold nextBit
  repeat' first
    | with_reducible exact Only.refl _ _
    | with_reducible assumption
    | decide
    | with_reducible apply Only.step ?_ (startBurn_only ..) ?_
    | with_reducible apply Only.step ?_ (burnDone_only ..) ?_
    | with_reducible apply each_only
    | intro _ _
    | intro _
    | split
    | dsimp only

theorem burnAttempt_only (b : Burn) (took : Bool) (s : State) : Only [.lcy, .tap, .fns, .always, .out] s (burnAttempt b took s) := by
  unfold burnAttempt
  repeat' first
    | with_reducible exact Only.refl _ _
    | with_reducible assumption
    | decide
    | with_reducible apply Only.step ?_ (startBurn_only ..) ?_
    | with_reducible apply Only.step ?_ (burnDone_only ..) ?_
    | with_reducible apply Only.step ?_ (nextBit_only ..) ?_
    | with_reducible apply each_only
    | intro _ _
    | intro _
    | split
    | with_reducible apply upd_lcy
    | dsimp only

theorem countCycles_only (q : Run) (n : Nat) (s : State) : Only [.sess, .billing, .parts, .fires] s (countCycles q n s) := by
  unfold countCycles
  repeat' first
    | with_reducible exact Only.refl _ _
    | with_reducible assumption
    | decide
    | with_reducible apply Only.step ?_ (modMeters_only ..) ?_
    | with_reducible apply Only.step ?_ (hubEvent_only ..) ?_
    | with_reducible apply each_only
    | intro _ _
    | intro _
    | split
    | dsimp only

theorem yieldRun_only (q : Run) (wait : RunWait) (s : State) : Only [.osier] s (yieldRun q wait s) := by
  unfold yieldRun
  repeat' first
    | with_reducible exact Only.refl _ _
    | with_reducible assumption
    | decide
    | with_reducible apply Only.step ?_ (modRun_only ..) ?_
    | with_reducible apply Only.step ?_ (switchFrom_only ..) ?_
    | with_reducible apply each_only
    | intro _ _
    | intro _
    | split
    | dsimp only

theorem ctlEffect_only (q : Run) (e : LibEntry) (act : CtlAct) (s : State) : Only [.fns, .sess, .billing, .parts, .hang, .wale, .always, .osier, .err, .out, .fires, .free] s (ctlEffect q e act s) := by
  unfold ctlEffect
  repeat' first
    | with_reducible exact Only.refl _ _
    | with_reducible assumption
    | decide
    | with_reducible apply Only.step ?_ (fire_only ..) ?_
    | with_reducible apply Only.step ?_ (programRec_only ..) ?_
    | with_reducible apply Only.step ?_ (endRun_only ..) ?_
    | with_reducible apply Only.step ?_ (firedReport_only ..) ?_
    | with_reducible apply Only.step ?_ (yieldRun_only ..) ?_
    | with_reducible apply each_only
    | intro _ _
    | intro _
    | split
    | dsimp only

theorem checkStall_only (p : Nat) (s : State) : Only [.fns, .sess, .billing, .parts, .wale, .always, .osier, .err, .out, .fires, .free] s (checkStall p s) := by
  unfold checkStall
  repeat' first
    | with_reducible exact Only.refl _ _
    | with_reducible assumption
    | decide
    | with_reducible apply Only.step ?_ (modPart_only ..) ?_
    | with_reducible apply Only.step ?_ (syncCoder_only ..) ?_
    | with_reducible apply each_only
    | intro _ _
    | intro _
    | split
    | dsimp only

theorem checkLimit_only (id : W32) (s : State) : Only [.fns, .sess, .billing, .parts, .wale, .always, .osier, .err, .out, .fires, .free] s (checkLimit id s) := by
  unfold checkLimit
  repeat' first
    | with_reducible exact Only.refl _ _
    | with_reducible assumption
    | decide
    | with_reducible apply Only.step ?_ (endRun_only ..) ?_
    | with_reducible apply each_only
    | intro _ _
    | intro _
    | split
    | dsimp only

theorem hostStores_only (q : Run) (l : List (Nat × List Byte)) (s : State) : Only [.always, .out] s (hostStores q l s) := by
  unfold hostStores
  repeat' first
    | with_reducible exact Only.refl _ _
    | with_reducible assumption
    | decide
    | with_reducible apply Only.step ?_ (hostWrite_only ..) ?_
    | with_reducible apply each_only
    | intro _ _
    | intro _
    | split
    | dsimp only

theorem putRun_only (q : Run) (s : State) : Only [.osier] s (putRun q s) := by
  unfold putRun
  repeat' first
    | with_reducible exact Only.refl _ _
    | with_reducible assumption
    | decide
    | with_reducible apply Only.step ?_ (modRun_only ..) ?_
    | with_reducible apply each_only
    | intro _ _
    | intro _
    | split
    | dsimp only

theorem coreRan_only (core : Nat) (cycles : Nat) (q : Run) (e : LibEntry) (hit : Bool) (o : WordEff) (s : State) : Only [.fns, .sess, .billing, .parts, .hang, .wale, .always, .osier, .err, .out, .fires, .free] s (coreRan core cycles q e hit o s) := by
  unfold coreRan
  repeat' first
    | with_reducible exact Only.refl _ _
    | with_reducible assumption
    | decide
    | with_reducible apply Only.step ?_ (raiseErr_only ..) ?_
    | with_reducible apply Only.step ?_ (uncorrectableItem_only ..) ?_
    | with_reducible apply Only.step ?_ (endRun_only ..) ?_
    | with_reducible apply Only.step ?_ (countCycles_only ..) ?_
    | with_reducible apply Only.step ?_ (ctlEffect_only ..) ?_
    | with_reducible apply Only.step ?_ (checkStall_only ..) ?_
    | with_reducible apply Only.step ?_ (checkLimit_only ..) ?_
    | with_reducible apply Only.step ?_ (hostStores_only ..) ?_
    | with_reducible apply Only.step ?_ (putRun_only ..) ?_
    | with_reducible apply each_only
    | intro _ _
    | intro _
    | split
    | dsimp only

theorem creelWritten_only (o : WordEff) (q : Run) (e : LibEntry) (s : State) : Only [.fns, .always, .err, .out, .free] s (creelWritten o q e s) := by
  unfold creelWritten
  repeat' first
    | with_reducible exact Only.refl _ _
    | with_reducible assumption
    | decide
    | with_reducible apply Only.step ?_ (spendCreel_only ..) ?_
    | with_reducible apply each_only
    | intro _ _
    | intro _
    | split
    | dsimp only

theorem runStep_only (core : Nat) (cycles : Nat) (poison : Nat) (q : Run) (e : LibEntry) (s : State) : Only [.fns, .sess, .billing, .parts, .hang, .wale, .always, .osier, .err, .out, .fires, .free] s (runStep core cycles poison q e s) := by
  unfold runStep
  repeat' first
    | with_reducible exact Only.refl _ _
    | with_reducible assumption
    | decide
    | with_reducible apply Only.step ?_ (correctedWord_only ..) ?_
    | with_reducible apply Only.step ?_ (coreRan_only ..) ?_
    | with_reducible apply Only.step ?_ (creelWritten_only ..) ?_
    | with_reducible apply each_only
    | intro _ _
    | intro _
    | split
    | dsimp only

theorem coreWord_only (core : Nat) (cycles : Nat) (poison : Nat) (s : State) : Only [.fns, .sess, .billing, .parts, .hang, .wale, .always, .osier, .err, .out, .fires, .free] s (coreWord core cycles poison s) := by
  unfold coreWord
  repeat' first
    | with_reducible exact Only.refl _ _
    | with_reducible assumption
    | decide
    | with_reducible apply Only.step ?_ (takeCore_only ..) ?_
    | with_reducible apply Only.step ?_ (runStep_only ..) ?_
    | with_reducible apply each_only
    | intro _ _
    | intro _
    | split
    | dsimp only

theorem stopFirmware_only (s : State) : Only [.fns, .always, .err, .out] s (stopFirmware s) := by
  unfold stopFirmware
  repeat' first
    | with_reducible exact Only.refl _ _
    | with_reducible assumption
    | decide
    | with_reducible apply Only.step ?_ (raiseErr_only ..) ?_
    | with_reducible apply each_only
    | intro _ _
    | intro _
    | split
    | with_reducible apply upd_err
    | dsimp only

theorem applyPatch_only (l : List Section_) (s : State) : Only [.weave] s (applyPatch l s) := by
  unfold applyPatch
  repeat' first
    | with_reducible exact Only.refl _ _
    | with_reducible assumption
    | decide
    | with_reducible apply each_only
    | intro _ _
    | intro _
    | split
    | with_reducible apply upd_weave
    | dsimp only

theorem modWea_only (n : Nat) (g : WeaPf → WeaPf) (s : State) : Only [.hosts] s (modWea n g s) := by
  unfold modWea
  repeat' first
    | with_reducible exact Only.refl _ _
    | with_reducible assumption
    | decide
    | with_reducible apply Only.step ?_ (modHost_only ..) ?_
    | with_reducible apply each_only
    | intro _ _
    | intro _
    | split
    | dsimp only

theorem rejectLoad_only (n : Nat) (reason : Nat) (offset : Nat) (s : State) : Only [.hosts, .fns, .always, .out] s (rejectLoad n reason offset s) := by
  unfold rejectLoad
  repeat' first
    | with_reducible exact Only.refl _ _
    | with_reducible assumption
    | decide
    | with_reducible apply Only.step ?_ (signal_only ..) ?_
    | with_reducible apply Only.step ?_ (modWea_only ..) ?_
    | with_reducible apply each_only
    | intro _ _
    | intro _
    | split
    | dsimp only

theorem loadStart_only (tap : Bool) (n : Nat) (s : State) : Only [.hosts, .fns, .always, .out] s (loadStart tap n s) := by
  unfold loadStart
  repeat' first
    | with_reducible exact Only.refl _ _
    | with_reducible assumption
    | decide
    | with_reducible apply Only.step ?_ (emit_only ..) ?_
    | with_reducible apply Only.step ?_ (modWea_only ..) ?_
    | with_reducible apply Only.step ?_ (rejectLoad_only ..) ?_
    | with_reducible apply each_only
    | intro _ _
    | intro _
    | split
    | dsimp only

theorem stopLoad_only (n : Nat) (s : State) : Only [.weave, .free] s (stopLoad n s) := by
  unfold stopLoad
  repeat' first
    | with_reducible exact Only.refl _ _
    | with_reducible assumption
    | decide
    | with_reducible apply Only.step ?_ (nextFree_only ..) ?_
    | with_reducible apply Only.step ?_ (applyPatch_only ..) ?_
    | with_reducible apply each_only
    | intro _ _
    | intro _
    | split
    | with_reducible apply upd_weave
    | dsimp only

theorem loadAbort_only (n : Nat) (s : State) : Only [.weave, .hosts, .fns, .always, .out, .free] s (loadAbort n s) := by
  unfold loadAbort
  repeat' first
    | with_reducible exact Only.refl _ _
    | with_reducible assumption
    | decide
    | with_reducible apply Only.step ?_ (rejectLoad_only ..) ?_
    | with_reducible apply Only.step ?_ (stopLoad_only ..) ?_
    | with_reducible apply each_only
    | intro _ _
    | intro _
    | split
    | dsimp only

theorem resetLoad_only (n : Nat) (s : State) : Only [.weave, .hosts, .free] s (resetLoad n s) := by
  unfold resetLoad
  repeat' first
    | with_reducible exact Only.refl _ _
    | with_reducible assumption
    | decide
    | with_reducible apply Only.step ?_ (modWea_only ..) ?_
    | with_reducible apply Only.step ?_ (stopLoad_only ..) ?_
    | with_reducible apply each_only
    | intro _ _
    | intro _
    | split
    | dsimp only

theorem putLib_only (lib : List LibEntry) (s : State) : Only [.fns, .always, .osier, .err, .out, .free] s (putLib lib s) := by
  unfold putLib
  repeat' first
    | with_reducible exact Only.refl _ _
    | with_reducible assumption
    | decide
    | with_reducible apply Only.step ?_ (nextFree_only ..) ?_
    | with_reducible apply Only.step ?_ (spendCreel_only ..) ?_
    | with_reducible apply each_only
    | intro _ _
    | intro _
    | split
    | with_reducible apply upd_osier
    | dsimp only

theorem keepCopy_only (img : List Byte) (s : State) : Only [.plait, .err, .mem] s (keepCopy img s) := by
  unfold keepCopy
  repeat' first
    | with_reducible exact Only.refl _ _
    | with_reducible assumption
    | decide
    | with_reducible apply Only.step ?_ (storeExternal_only ..) ?_
    | with_reducible apply each_only
    | intro _ _
    | intro _
    | split
    | with_reducible apply upd_plait
    | dsimp only

theorem noteImage_only (by_ : Option Nat) (signed : Bool) (warp : List Host.Cell) (id : W64) (s : State) : Only [.boot, .weave, .free] s (noteImage by_ signed warp id s) := by
  unfold noteImage
  repeat' first
    | with_reducible exact Only.refl _ _
    | with_reducible assumption
    | decide
    | with_reducible apply each_only
    | intro _ _
    | intro _
    | split
    | with_reducible apply upd_boot_weave_free
    | dsimp only

theorem takeRole_only (s : State) : Only [.plait] s (takeRole s) := by
  unfold takeRole
  repeat' first
    | with_reducible exact Only.refl _ _
    | with_reducible assumption
    | decide
    | with_reducible apply each_only
    | intro _ _
    | intro _
    | split
    | with_reducible apply upd_plait
    | dsimp only

theorem acceptImage_only (by_ : Option Nat) (c : Checked) (l : List Section_) (lib : List LibEntry) (img : List Byte) (s : State) : Only [.boot, .weave, .fns, .billing, .ports, .units, .parts, .always, .osier, .plait, .err, .mem, .out, .free] s (acceptImage by_ c l lib img s) := by
  unfold acceptImage
  repeat' first
    | with_reducible exact Only.refl _ _
    | with_reducible assumption
    | decide
    | with_reducible apply Only.step ?_ (modPort_only ..) ?_
    | with_reducible apply Only.step ?_ (modPart_only ..) ?_
    | with_reducible apply Only.step ?_ (noteOpenLab_only ..) ?_
    | with_reducible apply Only.step ?_ (enterDetect_only ..) ?_
    | with_reducible apply Only.step ?_ (startLink_only ..) ?_
    | with_reducible apply Only.step ?_ (bootAdvance_only ..) ?_
    | with_reducible apply Only.step ?_ (putLib_only ..) ?_
    | with_reducible apply Only.step ?_ (keepCopy_only ..) ?_
    | with_reducible apply Only.step ?_ (noteImage_only ..) ?_
    | with_reducible apply Only.step ?_ (takeRole_only ..) ?_
    | with_reducible apply each_only
    | intro _ _
    | intro _
    | split
    | dsimp only

theorem imageRejected_only (by_ : Option Nat) (r : Reject) (s : State) : Only [.weave, .hosts, .fns, .always, .plait, .out] s (imageRejected by_ r s) := by
  unfold imageRejected
  repeat' first
    | with_reducible exact Only.refl _ _
    | with_reducible assumption
    | decide
    | with_reducible apply Only.step ?_ (signalPfs_only ..) ?_
    | with_reducible apply Only.step ?_ (modWea_only ..) ?_
    | with_reducible apply Only.step ?_ (rejectLoad_only ..) ?_
    | with_reducible apply each_only
    | intro _ _
    | intro _
    | split
    | with_reducible apply upd_weave
    | with_reducible apply upd_plait
    | dsimp only

theorem releaseDdr_only (s : State) : Only [.pins, .out] s (releaseDdr s) := by
  unfold releaseDdr
  repeat' first
    | with_reducible exact Only.refl _ _
    | with_reducible assumption
    | decide
    | with_reducible apply Only.step ?_ (emit_only ..) ?_
    | with_reducible apply each_only
    | intro _ _
    | intro _
    | split
    | with_reducible apply upd_pins
    | dsimp only

theorem acceptWeft_only (p : Nat) (l : List Section_) (lib : List LibEntry) (id : W64) (s : State) : Only [.fns, .parts, .always, .osier, .err, .out, .free] s (acceptWeft p l lib id s) := by
  unfold acceptWeft
  repeat' first
    | with_reducible exact Only.refl _ _
    | with_reducible assumption
    | decide
    | with_reducible apply Only.step ?_ (modPart_only ..) ?_
    | with_reducible apply Only.step ?_ (putLib_only ..) ?_
    | with_reducible apply each_only
    | intro _ _
    | intro _
    | split
    | dsimp only

theorem acceptWarp_only (ports : Nat) (l : List Section_) (id : W64) (s : State) : Only [.weave] s (acceptWarp ports l id s) := by
  unfold acceptWarp
  repeat' first
    | with_reducible exact Only.refl _ _
    | with_reducible assumption
    | decide
    | with_reducible apply each_only
    | intro _ _
    | intro _
    | split
    | with_reducible apply upd_weave
    | dsimp only

theorem dropReweave_only (p : Nat) (st : Byte) (s : State) : Only [.fns, .sess, .billing, .parts, .wale, .always, .osier, .err, .out, .fires, .free] s (dropReweave p st s) := by
  unfold dropReweave
  repeat' first
    | with_reducible exact Only.refl _ _
    | with_reducible assumption
    | decide
    | with_reducible apply Only.step ?_ (modPart_only ..) ?_
    | with_reducible apply Only.step ?_ (complete_only ..) ?_
    | with_reducible apply Only.step ?_ (failCommit_only ..) ?_
    | with_reducible apply each_only
    | intro _ _
    | intro _
    | split
    | dsimp only

theorem ownerChanged_only (p : Nat) (s : State) : Only [.fns, .sess, .billing, .parts, .wale, .always, .osier, .err, .out, .fires, .free] s (ownerChanged p s) := by
  unfold ownerChanged
  repeat' first
    | with_reducible exact Only.refl _ _
    | with_reducible assumption
    | decide
    | with_reducible apply Only.step ?_ (dropReweave_only ..) ?_
    | with_reducible apply each_only
    | intro _ _
    | intro _
    | split
    | dsimp only

theorem endWatchApply_only (p : Nat) (s : State) : Only [.ports] s (endWatchApply p s) := by
  unfold endWatchApply
  repeat' first
    | with_reducible exact Only.refl _ _
    | with_reducible assumption
    | decide
    | with_reducible apply Only.step ?_ (modPort_only ..) ?_
    | with_reducible apply each_only
    | intro _ _
    | intro _
    | split
    | dsimp only

theorem finishCommit_only (p : Nat) (c : Commit) (s : State) : Only [.fns, .ports, .parts, .always, .out] s (finishCommit p c s) := by
  unfold finishCommit
  repeat' first
    | with_reducible exact Only.refl _ _
    | with_reducible assumption
    | decide
    | with_reducible apply Only.step ?_ (modPart_only ..) ?_
    | with_reducible apply Only.step ?_ (complete_only ..) ?_
    | with_reducible apply Only.step ?_ (endWatchApply_only ..) ?_
    | with_reducible apply each_only
    | intro _ _
    | intro _
    | split
    | dsimp only

theorem dropConfig_only (p : Nat) (st : Byte) (s : State) : Only [.fns, .parts, .always, .out] s (dropConfig p st s) := by
  unfold dropConfig
  repeat' first
    | with_reducible exact Only.refl _ _
    | with_reducible assumption
    | decide
    | with_reducible apply Only.step ?_ (modPart_only ..) ?_
    | with_reducible apply Only.step ?_ (fail_only ..) ?_
    | with_reducible apply each_only
    | intro _ _
    | intro _
    | split
    | dsimp only

theorem weaveAtSwitch_only (p : Nat) (payload : List Byte) (s : State) : Only [.fns, .sess, .billing, .parts, .wale, .always, .osier, .err, .out, .fires, .free] s (weaveAtSwitch p payload s) := by
  unfold weaveAtSwitch
  repeat' first
    | with_reducible exact Only.refl _ _
    | with_reducible assumption
    | decide
    | with_reducible apply Only.step ?_ (deliverInput_only ..) ?_
    | with_reducible apply Only.step ?_ (placeRec_only ..) ?_
    | with_reducible apply each_only
    | intro _ _
    | intro _
    | split
    | dsimp only

theorem switchGraph_only (p : Nat) (on : Bool) (s : State) : Only [.ports, .units, .parts, .hang, .always, .plait, .out] s (switchGraph p on s) := by
  unfold switchGraph
  repeat' first
    | with_reducible exact Only.refl _ _
    | with_reducible assumption
    | decide
    | with_reducible apply Only.step ?_ (startGraph_only ..) ?_
    | with_reducible apply Only.step ?_ (stopGraph_only ..) ?_
    | with_reducible apply Only.step ?_ (keepEvtEn_only ..) ?_
    | with_reducible apply each_only
    | intro _ _
    | intro _
    | split
    | dsimp only

theorem switchHoop_only (p : Nat) (old : Mem) (new : Mem) (s : State) : Only [.ports, .always, .plait, .out] s (switchHoop p old new s) := by
  unfold switchHoop
  repeat' first
    | with_reducible exact Only.refl _ _
    | with_reducible assumption
    | decide
    | with_reducible apply Only.step ?_ (writeHoopCtrl_only ..) ?_
    | with_reducible apply each_only
    | intro _ _
    | intro _
    | split
    | dsimp only

theorem swapPlanes_only (p : Nat) (new : Plane) (s : State) : Only [.parts] s (swapPlanes p new s) := by
  unfold swapPlanes
  repeat' first
    | with_reducible exact Only.refl _ _
    | with_reducible assumption
    | decide
    | with_reducible apply Only.step ?_ (modPart_only ..) ?_
    | with_reducible apply each_only
    | intro _ _
    | intro _
    | split
    | dsimp only

theorem switchCoding_only (p : Nat) (old : Mem) (new : Mem) (forced : Bool) (s : State) : Only [.fns, .sess, .billing, .parts, .wale, .always, .osier, .err, .out, .fires, .free] s (switchCoding p old new forced s) := by
  unfold switchCoding
  repeat' first
    | with_reducible exact Only.refl _ _
    | with_reducible assumption
    | decide
    | with_reducible apply Only.step ?_ (modPart_only ..) ?_
    | with_reducible apply Only.step ?_ (checkSwitch_only ..) ?_
    | with_reducible apply each_only
    | intro _ _
    | intro _
    | split
    | dsimp only

theorem switchWeft_only (p : Nat) (c : Commit) (new : Plane) (s : State) : Only [.fns, .sess, .billing, .ports, .units, .parts, .hang, .wale, .always, .osier, .plait, .err, .out, .fires, .free] s (switchWeft p c new s) := by
  unfold switchWeft
  repeat' first
    | with_reducible exact Only.refl _ _
    | with_reducible assumption
    | decide
    | with_reducible apply Only.step ?_ (modPart_only ..) ?_
    | with_reducible apply Only.step ?_ (takeLatch_only ..) ?_
    | with_reducible apply Only.step ?_ (rebindPred_only ..) ?_
    | with_reducible apply Only.step ?_ (writeDefaults_only ..) ?_
    | with_reducible apply Only.step ?_ (finishCommit_only ..) ?_
    | with_reducible apply Only.step ?_ (dropConfig_only ..) ?_
    | with_reducible apply Only.step ?_ (weaveAtSwitch_only ..) ?_
    | with_reducible apply Only.step ?_ (switchGraph_only ..) ?_
    | with_reducible apply Only.step ?_ (switchHoop_only ..) ?_
    | with_reducible apply Only.step ?_ (swapPlanes_only ..) ?_
    | with_reducible apply Only.step ?_ (switchCoding_only ..) ?_
    | with_reducible apply each_only
    | intro _ _
    | intro _
    | split
    | dsimp only

theorem installPort_only (n : Nat) (w : WarpPort) (s : State) : Only [.boot, .weave, .fns, .sess, .billing, .ports, .units, .parts, .slath, .hang, .wale, .always, .osier, .plait, .err, .out, .fires, .free] s (installPort n w s) := by
  unfold installPort
  repeat' first
    | with_reducible exact Only.refl _ _
    | with_reducible assumption
    | decide
    | with_reducible apply Only.step ?_ (modPort_only ..) ?_
    | with_reducible apply Only.step ?_ (nextFree_only ..) ?_
    | with_reducible apply Only.step ?_ (uncertain_only ..) ?_
    | with_reducible apply Only.step ?_ (enumStart_only ..) ?_
    | with_reducible apply Only.step ?_ (startLink_only ..) ?_
    | with_reducible apply Only.step ?_ (endsAtDown_only ..) ?_
    | with_reducible apply Only.step ?_ (portDown_only ..) ?_
    | with_reducible apply each_only
    | intro _ _
    | intro _
    | split
    | dsimp only

theorem setPortsLeft_only (l : List Nat) (s : State) : Only [.weave] s (setPortsLeft l s) := by
  unfold setPortsLeft
  repeat' first
    | with_reducible exact Only.refl _ _
    | with_reducible assumption
    | decide
    | with_reducible apply each_only
    | intro _ _
    | intro _
    | split
    | with_reducible apply upd_weave
    | dsimp only

theorem giveUpStakes_only (n : Nat) (s : State) : Only [.ports, .always, .plait, .out] s (giveUpStakes n s) := by
  unfold giveUpStakes
  repeat' first
    | with_reducible exact Only.refl _ _
    | with_reducible assumption
    | decide
    | with_reducible apply Only.step ?_ (askRelease_only ..) ?_
    | with_reducible apply each_only
    | intro _ _
    | intro _
    | split
    | dsimp only

theorem loadModel_only (f : Nat) (c : Cmd) (data : List Byte) (s : State) : Only [.fns, .always, .osier, .err, .out, .free] s (loadModel f c data s) := by
  unfold loadModel
  repeat' first
    | with_reducible exact Only.refl _ _
    | with_reducible assumption
    | decide
    | with_reducible apply Only.step ?_ (nextFree_only ..) ?_
    | with_reducible apply Only.step ?_ (bumpAlways_only ..) ?_
    | with_reducible apply Only.step ?_ (complete_only ..) ?_
    | with_reducible apply Only.step ?_ (putLib_only ..) ?_
    | with_reducible apply each_only
    | intro _ _
    | intro _
    | split
    | dsimp only

theorem unloadModel_only (f : Nat) (c : Cmd) (s : State) : Only [.fns, .always, .osier, .out] s (unloadModel f c s) := by
  unfold unloadModel
  repeat' first
    | with_reducible exact Only.refl _ _
    | with_reducible assumption
    | decide
    | with_reducible apply Only.step ?_ (complete_only ..) ?_
    | with_reducible apply Only.step ?_ (fail_only ..) ?_
    | with_reducible apply each_only
    | intro _ _
    | intro _
    | split
    | with_reducible apply upd_osier
    | dsimp only

theorem setRoute_only (p : Nat) (mask : Nat) (dest : Nat) (s : State) : Only [.parts] s (setRoute p mask dest s) := by
  unfold setRoute
  repeat' first
    | with_reducible exact Only.refl _ _
    | with_reducible assumption
    | decide
    | with_reducible apply Only.step ?_ (modPart_only ..) ?_
    | with_reducible apply each_only
    | intro _ _
    | intro _
    | split
    | dsimp only

theorem setEncoding_only (p : Nat) (raw : Bool) (s : State) : Only [.fns, .sess, .billing, .parts, .wale, .always, .osier, .err, .out, .fires, .free] s (setEncoding p raw s) := by
  unfold setEncoding
  repeat' first
    | with_reducible exact Only.refl _ _
    | with_reducible assumption
    | decide
    | with_reducible apply Only.step ?_ (modPart_only ..) ?_
    | with_reducible apply Only.step ?_ (syncCoder_only ..) ?_
    | with_reducible apply each_only
    | intro _ _
    | intro _
    | split
    | dsimp only

theorem setEvt_only (f : Nat) (c : Cmd) (s : State) : Only [.fns, .sess, .billing, .ports, .parts, .wale, .always, .osier, .plait, .err, .out, .fires, .free] s (setEvt f c s) := by
  unfold setEvt
  repeat' first
    | with_reducible exact Only.refl _ _
    | with_reducible assumption
    | decide
    | with_reducible apply Only.step ?_ (modWork_only ..) ?_
    | with_reducible apply Only.step ?_ (sendAll_only ..) ?_
    | with_reducible apply Only.step ?_ (advanceCmd_only ..) ?_
    | with_reducible apply each_only
    | intro _ _
    | intro _
    | split
    | dsimp only

theorem flushRead_only (f : Nat) (c : Cmd) (found : Ecc) (s : State) : Only [.fns, .always, .err, .out, .free] s (flushRead f c found s) := by
  unfold flushRead
  repeat' first
    | with_reducible exact Only.refl _ _
    | with_reducible assumption
    | decide
    | with_reducible apply Only.step ?_ (nextFree_only ..) ?_
    | with_reducible apply Only.step ?_ (correctedWord_only ..) ?_
    | with_reducible apply Only.step ?_ (uncorrectableItem_only ..) ?_
    | with_reducible apply Only.step ?_ (complete_only ..) ?_
    | with_reducible apply Only.step ?_ (bufWrite_only ..) ?_
    | with_reducible apply each_only
    | intro _ _
    | intro _
    | split
    | dsimp only

theorem endDramGap_only (p : Nat) (g : Gap) (s : State) : Only [.fns, .sess, .billing, .parts, .wale, .always, .osier, .err, .out, .fires, .free] s (endDramGap p g s) := by
  unfold endDramGap
  repeat' first
    | with_reducible exact Only.refl _ _
    | with_reducible assumption
    | decide
    | with_reducible apply Only.step ?_ (modPart_only ..) ?_
    | with_reducible apply Only.step ?_ (dramLossToPort_only ..) ?_
    | with_reducible apply Only.step ?_ (putDramLoss_only ..) ?_
    | with_reducible apply each_only
    | intro _ _
    | intro _
    | split
    | dsimp only

theorem closeReserve_only (p : Nat) (s : State) : Only [.fns, .sess, .billing, .parts, .wale, .always, .osier, .err, .out, .fires, .free] s (closeReserve p s) := by
  unfold closeReserve
  repeat' first
    | with_reducible exact Only.refl _ _
    | with_reducible assumption
    | decide
    | with_reducible apply Only.step ?_ (modPart_only ..) ?_
    | with_reducible apply Only.step ?_ (modMeters_only ..) ?_
    | with_reducible apply Only.step ?_ (spendDram_only ..) ?_
    | with_reducible apply Only.step ?_ (queueBlock_only ..) ?_
    | with_reducible apply Only.step ?_ (putOpen_only ..) ?_
    | with_reducible apply Only.step ?_ (lossPlaced_only ..) ?_
    | with_reducible apply Only.step ?_ (endDramGap_only ..) ?_
    | with_reducible apply each_only
    | intro _ _
    | intro _
    | split
    | dsimp only

theorem flushDiscard_only (f : Nat) (c : Cmd) (s : State) : Only [.fns, .sess, .billing, .parts, .wale, .always, .osier, .err, .out, .fires, .free] s (flushDiscard f c s) := by
  unfold flushDiscard
  repeat' first
    | with_reducible exact Only.refl _ _
    | with_reducible assumption
    | decide
    | with_reducible apply Only.step ?_ (modPart_only ..) ?_
    | with_reducible apply Only.step ?_ (complete_only ..) ?_
    | with_reducible apply Only.step ?_ (closeReserve_only ..) ?_
    | with_reducible apply each_only
    | intro _ _
    | intro _
    | split
    | dsimp only

theorem periodicReset_only (p : Nat) (s : State) : Only [.fns, .sess, .billing, .parts, .wale, .always, .osier, .err, .out, .fires, .free] s (periodicReset p s) := by
  unfold periodicReset
  repeat' first
    | with_reducible exact Only.refl _ _
    | with_reducible assumption
    | decide
    | with_reducible apply Only.step ?_ (forceReset_only ..) ?_
    | with_reducible apply each_only
    | intro _ _
    | intro _
    | split
    | dsimp only

theorem sendDump_only (s : State) : Only [.wale, .always, .out] s (sendDump s) := by
  unfold sendDump
  repeat' first
    | with_reducible exact Only.refl _ _
    | with_reducible assumption
    | decide
    | with_reducible apply Only.step ?_ (sendEther_only ..) ?_
    | with_reducible apply each_only
    | intro _ _
    | intro _
    | split
    | with_reducible apply upd_wale
    | dsimp only

theorem sendTurn_only (s : State) : Only [.fns, .sess, .billing, .parts, .wale, .always, .osier, .err, .out, .fires, .free] s (sendTurn s) := by
  unfold sendTurn
  repeat' first
    | with_reducible exact Only.refl _ _
    | with_reducible assumption
    | decide
    | with_reducible apply Only.step ?_ (modPart_only ..) ?_
    | with_reducible apply Only.step ?_ (sendTrace_only ..) ?_
    | with_reducible apply Only.step ?_ (checkSwitch_only ..) ?_
    | with_reducible apply each_only
    | intro _ _
    | intro _
    | split
    | with_reducible apply upd_wale
    | dsimp only

theorem readTier_only (found : Ecc) (s : State) : Only [.fns, .parts, .always, .err, .out, .free] s (readTier found s) := by
  unfold readTier
  repeat' first
    | with_reducible exact Only.refl _ _
    | with_reducible assumption
    | decide
    | with_reducible apply Only.step ?_ (modPart_only ..) ?_
    | with_reducible apply Only.step ?_ (correctedWord_only ..) ?_
    | with_reducible apply Only.step ?_ (shedTier_only ..) ?_
    | with_reducible apply each_only
    | intro _ _
    | intro _
    | split
    | dsimp only

theorem spoilQueue_only (p : Nat) (s : State) : Only [.parts] s (spoilQueue p s) := by
  unfold spoilQueue
  repeat' first
    | with_reducible exact Only.refl _ _
    | with_reducible assumption
    | decide
    | with_reducible apply Only.step ?_ (modPart_only ..) ?_
    | with_reducible apply each_only
    | intro _ _
    | intro _
    | split
    | dsimp only

theorem sendUntil_only (p : Nat) (last : W32) (k : Nat) (s : State) : Only [.fns, .sess, .billing, .parts, .wale, .always, .osier, .err, .out, .fires, .free] s (sendUntil p last k s) := by
  induction k generalizing s with
  | zero => exact .refl _ _
  | succ k ih =>
    unfold sendUntil
    repeat' first
      | with_reducible exact Only.refl _ _
      | with_reducible assumption
      | decide
      | with_reducible apply Only.step ?_ (sendDump_only ..) ?_
      | with_reducible apply Only.step ?_ (sendTurn_only ..) ?_
      | with_reducible apply Only.trans ?_ (ih ..)
      | with_reducible apply each_only
      | intro _ _
      | intro _
      | split
      | dsimp only

theorem sendWaiting_only (p : Nat) (s : State) : Only [.fns, .sess, .billing, .parts, .wale, .always, .osier, .err, .out, .fires, .free] s (sendWaiting p s) := by
  unfold sendWaiting
  repeat' first
    | with_reducible exact Only.refl _ _
    | with_reducible assumption
    | decide
    | with_reducible apply Only.step ?_ (sendUntil_only ..) ?_
    | with_reducible apply each_only
    | intro _ _
    | intro _
    | split
    | dsimp only

theorem endPortGap_only (p : Nat) (g : Gap) (s : State) : Only [.fns, .sess, .billing, .parts, .always, .osier, .err, .out, .fires, .free] s (endPortGap p g s) := by
  unfold endPortGap
  repeat' first
    | with_reducible exact Only.refl _ _
    | with_reducible assumption
    | decide
    | with_reducible apply Only.step ?_ (modPart_only ..) ?_
    | with_reducible apply Only.step ?_ (lossToPort_only ..) ?_
    | with_reducible apply each_only
    | intro _ _
    | intro _
    | split
    | dsimp only

theorem waleDown_only (s : State) : Only [.fns, .wale, .always, .err, .out] s (waleDown s) := by
  unfold waleDown
  repeat' first
    | with_reducible exact Only.refl _ _
    | with_reducible assumption
    | decide
    | with_reducible apply Only.step ?_ (raiseErr_only ..) ?_
    | with_reducible apply each_only
    | intro _ _
    | intro _
    | split
    | with_reducible apply upd_wale
    | dsimp only

theorem ringErr_only (f : Nat) (code : Nat) (s : State) : Only [.fns, .always, .out] s (ringErr f code s) := by
  unfold ringErr
  repeat' first
    | with_reducible exact Only.refl _ _
    | with_reducible assumption
    | decide
    | with_reducible apply Only.step ?_ (modFn_only ..) ?_
    | with_reducible apply Only.step ?_ (setEvent_only ..) ?_
    | with_reducible apply each_only
    | intro _ _
    | intro _
    | split
    | dsimp only

theorem doorbell_only (f : Nat) (value : W32) (s : State) : Only [.fns, .always, .out] s (doorbell f value s) := by
  unfold doorbell
  repeat' first
    | with_reducible exact Only.refl _ _
    | with_reducible assumption
    | decide
    | with_reducible apply Only.step ?_ (modFn_only ..) ?_
    | with_reducible apply Only.step ?_ (ringErr_only ..) ?_
    | with_reducible apply each_only
    | intro _ _
    | intro _
    | split
    | dsimp only

theorem cplHeadWrite_only (f : Nat) (value : W32) (s : State) : Only [.fns] s (cplHeadWrite f value s) := by
  unfold cplHeadWrite
  repeat' first
    | with_reducible exact Only.refl _ _
    | with_reducible assumption
    | decide
    | with_reducible apply Only.step ?_ (modFn_only ..) ?_
    | with_reducible apply each_only
    | intro _ _
    | intro _
    | split
    | dsimp only

theorem ringEnable_only (f : Nat) (s : State) : Only [.fns] s (ringEnable f s) := by
  unfold ringEnable
  repeat' first
    | with_reducible exact Only.refl _ _
    | with_reducible assumption
    | decide
    | with_reducible apply Only.step ?_ (modFn_only ..) ?_
    | with_reducible apply each_only
    | intro _ _
    | intro _
    | split
    | dsimp only

theorem ringDisable_only (f : Nat) (s : State) : Only [.fns] s (ringDisable f s) := by
  unfold ringDisable
  repeat' first
    | with_reducible exact Only.refl _ _
    | with_reducible assumption
    | decide
    | with_reducible apply Only.step ?_ (modFn_only ..) ?_
    | with_reducible apply each_only
    | intro _ _
    | intro _
    | split
    | dsimp only

theorem takeTurn_only (f : Nat) (s : State) : Only [.hosts, .fns] s (takeTurn f s) := by
  unfold takeTurn
  repeat' first
    | with_reducible exact Only.refl _ _
    | with_reducible assumption
    | decide
    | with_reducible apply Only.step ?_ (modFn_only ..) ?_
    | with_reducible apply Only.step ?_ (modHost_only ..) ?_
    | with_reducible apply each_only
    | intro _ _
    | intro _
    | split
    | dsimp only

theorem takeDescriptor_only (f : Nat) (desc : BitVec 512) (s : State) : Only [.fns, .always, .out] s (takeDescriptor f desc s) := by
  unfold takeDescriptor
  repeat' first
    | with_reducible exact Only.refl _ _
    | with_reducible assumption
    | decide
    | with_reducible apply Only.step ?_ (modFn_only ..) ?_
    | with_reducible apply Only.step ?_ (deliverCpl_only ..) ?_
    | with_reducible apply Only.step ?_ (fail_only ..) ?_
    | with_reducible apply each_only
    | intro _ _
    | intro _
    | split
    | dsimp only

theorem purgeHub_only (f : Nat) (tag : W32) (s : State) : Only [.parts, .slath, .osier] s (purgeHub f tag s) := by
  unfold purgeHub
  repeat' first
    | with_reducible exact Only.refl _ _
    | with_reducible assumption
    | decide
    | with_reducible apply Only.step ?_ (modPart_only ..) ?_
    | with_reducible apply Only.step ?_ (dropExport_only ..) ?_
    | with_reducible apply Only.step ?_ (clearDeficits_only ..) ?_
    | with_reducible apply each_only
    | intro _ _
    | intro _
    | split
    | with_reducible apply upd_osier
    | dsimp only

theorem fenceFn_only (f : Nat) (s : State) : Only [.lcy, .weave, .fns, .ports, .parts, .osier, .plait] s (fenceFn f s) := by
  unfold fenceFn
  repeat' first
    | with_reducible exact Only.refl _ _
    | with_reducible assumption
    | decide
    | with_reducible apply Only.step ?_ (modFn_only ..) ?_
    | with_reducible apply Only.step ?_ (modPort_only ..) ?_
    | with_reducible apply Only.step ?_ (modPart_only ..) ?_
    | with_reducible apply each_only
    | intro _ _
    | intro _
    | split
    | with_reducible apply upd_lcy_weave_osier_plait
    | dsimp only

theorem endRoles_only (n : Nat) (s : State) : Only [.fns, .sess, .billing, .parts, .wale, .always, .osier, .err, .out, .fires, .free] s (endRoles n s) := by
  unfold endRoles
  repeat' first
    | with_reducible exact Only.refl _ _
    | with_reducible assumption
    | decide
    | with_reducible apply Only.step ?_ (modSess_only ..) ?_
    | with_reducible apply Only.step ?_ (modPart_only ..) ?_
    | with_reducible apply Only.step ?_ (mlog_only ..) ?_
    | with_reducible apply Only.step ?_ (ownerChanged_only ..) ?_
    | with_reducible apply each_only
    | intro _ _
    | intro _
    | split
    | dsimp only

theorem releaseOwned_only (n : Nat) (owned : List Nat) (s : State) : Only [.fns, .sess, .billing, .ports, .parts, .slath, .wale, .always, .osier, .plait, .err, .out, .fires, .free] s (releaseOwned n owned s) := by
  unfold releaseOwned
  repeat' first
    | with_reducible exact Only.refl _ _
    | with_reducible assumption
    | decide
    | with_reducible apply Only.step ?_ (releaseCut_only ..) ?_
    | with_reducible apply each_only
    | intro _ _
    | intro _
    | split
    | dsimp only

theorem clearFn_only (f : Nat) (s : State) : Only [.fns] s (clearFn f s) := by
  unfold clearFn
  repeat' first
    | with_reducible exact Only.refl _ _
    | with_reducible assumption
    | decide
    | with_reducible apply Only.step ?_ (modFn_only ..) ?_
    | with_reducible apply each_only
    | intro _ _
    | intro _
    | split
    | dsimp only

theorem resetSession_only (n : Nat) (cause : Nat) (s : State) : Only [.lcy, .weave, .fns, .sess, .billing, .ports, .parts, .slath, .wale, .always, .osier, .plait, .err, .out, .fires, .free] s (resetSession n cause s) := by
  unfold resetSession
  repeat' first
    | with_reducible exact Only.refl _ _
    | with_reducible assumption
    | decide
    | with_reducible apply Only.step ?_ (endRuns_only ..) ?_
    | with_reducible apply Only.step ?_ (clearDeficits_only ..) ?_
    | with_reducible apply Only.step ?_ (fenceFn_only ..) ?_
    | with_reducible apply Only.step ?_ (endRoles_only ..) ?_
    | with_reducible apply Only.step ?_ (releaseOwned_only ..) ?_
    | with_reducible apply Only.step ?_ (clearFn_only ..) ?_
    | with_reducible apply each_only
    | intro _ _
    | intro _
    | split
    | with_reducible apply upd_slath
    | dsimp only

theorem resetPf_only (port : Nat) (cause : Nat) (s : State) : Only [.lcy, .weave, .hosts, .fns, .sess, .billing, .ports, .parts, .slath, .wale, .always, .osier, .plait, .err, .out, .fires, .free] s (resetPf port cause s) := by
  unfold resetPf
  repeat' first
    | with_reducible exact Only.refl _ _
    | with_reducible assumption
    | decide
    | with_reducible apply Only.step ?_ (modHost_only ..) ?_
    | with_reducible apply Only.step ?_ (noteOpenLab_only ..) ?_
    | with_reducible apply Only.step ?_ (resetLoad_only ..) ?_
    | with_reducible apply Only.step ?_ (fenceFn_only ..) ?_
    | with_reducible apply Only.step ?_ (clearFn_only ..) ?_
    | with_reducible apply Only.step ?_ (resetSession_only ..) ?_
    | with_reducible apply each_only
    | intro _ _
    | intro _
    | split
    | dsimp only

theorem resetPort_only (port : Nat) (s : State) : Only [.boot, .lcy, .weave, .hosts, .fns, .sess, .billing, .ports, .parts, .slath, .wale, .always, .osier, .plait, .err, .out, .fires, .free] s (resetPort port s) := by
  unfold resetPort
  repeat' first
    | with_reducible exact Only.refl _ _
    | with_reducible assumption
    | decide
    | with_reducible apply Only.step ?_ (raiseErr_only ..) ?_
    | with_reducible apply Only.step ?_ (resetPf_only ..) ?_
    | with_reducible apply each_only
    | intro _ _
    | intro _
    | split
    | with_reducible apply upd_boot
    | dsimp only

theorem setOwner_only (f : Nat) (p : Nat) (s : State) : Only [.fns, .sess, .billing, .parts, .wale, .always, .osier, .err, .out, .fires, .free] s (setOwner f p s) := by
  unfold setOwner
  repeat' first
    | with_reducible exact Only.refl _ _
    | with_reducible assumption
    | decide
    | with_reducible apply Only.step ?_ (modPart_only ..) ?_
    | with_reducible apply Only.step ?_ (ownerChanged_only ..) ?_
    | with_reducible apply each_only
    | intro _ _
    | intro _
    | split
    | dsimp only

theorem endExports_only (f : Nat) (p : Nat) (s : State) : Only [.slath] s (endExports f p s) := by
  unfold endExports
  repeat' first
    | with_reducible exact Only.refl _ _
    | with_reducible assumption
    | decide
    | with_reducible apply each_only
    | intro _ _
    | intro _
    | split
    | with_reducible apply upd_slath
    | dsimp only

theorem dropOwner_only (f : Nat) (p : Nat) (s : State) : Only [.fns, .sess, .billing, .parts, .slath, .wale, .always, .osier, .err, .out, .fires, .free] s (dropOwner f p s) := by
  unfold dropOwner
  repeat' first
    | with_reducible exact Only.refl _ _
    | with_reducible assumption
    | decide
    | with_reducible apply Only.step ?_ (modPart_only ..) ?_
    | with_reducible apply Only.step ?_ (endRoleRuns_only ..) ?_
    | with_reducible apply Only.step ?_ (ownerChanged_only ..) ?_
    | with_reducible apply Only.step ?_ (endExports_only ..) ?_
    | with_reducible apply each_only
    | intro _ _
    | intro _
    | split
    | dsimp only

theorem dropObserver_only (f : Nat) (p : Nat) (s : State) : Only [.fns, .sess, .billing, .parts, .slath, .wale, .always, .osier, .err, .out, .fires, .free] s (dropObserver f p s) := by
  unfold dropObserver
  repeat' first
    | with_reducible exact Only.refl _ _
    | with_reducible assumption
    | decide
    | with_reducible apply Only.step ?_ (modPart_only ..) ?_
    | with_reducible apply Only.step ?_ (endRoleRuns_only ..) ?_
    | with_reducible apply Only.step ?_ (endExports_only ..) ?_
    | with_reducible apply each_only
    | intro _ _
    | intro _
    | split
    | dsimp only

theorem revoke_only (f : Nat) (p : Nat) (owner : Bool) (s : State) : Only [.fns, .sess, .billing, .ports, .parts, .slath, .wale, .always, .osier, .err, .out, .fires, .free] s (revoke f p owner s) := by
  unfold revoke
  repeat' first
    | with_reducible exact Only.refl _ _
    | with_reducible assumption
    | decide
    | with_reducible apply Only.step ?_ (modPart_only ..) ?_
    | with_reducible apply Only.step ?_ (fail_only ..) ?_
    | with_reducible apply Only.step ?_ (purgeCmd_only ..) ?_
    | with_reducible apply Only.step ?_ (endRoleRuns_only ..) ?_
    | with_reducible apply Only.step ?_ (purgeHub_only ..) ?_
    | with_reducible apply each_only
    | intro _ _
    | intro _
    | split
    | dsimp only

theorem endCommits_only (f : Nat) (p : Nat) (s : State) : Only [.fns, .sess, .billing, .parts, .wale, .always, .osier, .err, .out, .fires, .free] s (endCommits f p s) := by
  unfold endCommits
  repeat' first
    | with_reducible exact Only.refl _ _
    | with_reducible assumption
    | decide
    | with_reducible apply Only.step ?_ (fail_only ..) ?_
    | with_reducible apply Only.step ?_ (ownerChanged_only ..) ?_
    | with_reducible apply each_only
    | intro _ _
    | intro _
    | split
    | dsimp only

theorem revoked_only (g : Nat) (c : Cmd) (s : State) : Only [.fns, .sess, .billing, .parts, .wale, .always, .osier, .err, .out, .fires, .free] s (revoked g c s) := by
  unfold revoked
  repeat' first
    | with_reducible exact Only.refl _ _
    | with_reducible assumption
    | decide
    | with_reducible apply Only.step ?_ (setEvent_only ..) ?_
    | with_reducible apply Only.step ?_ (complete_only ..) ?_
    | with_reducible apply Only.step ?_ (setOwner_only ..) ?_
    | with_reducible apply Only.step ?_ (endCommits_only ..) ?_
    | with_reducible apply each_only
    | intro _ _
    | intro _
    | split
    | dsimp only

theorem revokeNext_only (g : Nat) (tag : W32) (s : State) : Only [.fns, .sess, .billing, .parts, .slath, .wale, .always, .osier, .err, .out, .fires, .free] s (revokeNext g tag s) := by
  unfold revokeNext
  repeat' first
    | with_reducible exact Only.refl _ _
    | with_reducible assumption
    | decide
    | with_reducible apply Only.step ?_ (modWork_only ..) ?_
    | with_reducible apply Only.step ?_ (endExports_only ..) ?_
    | with_reducible apply Only.step ?_ (revoked_only ..) ?_
    | with_reducible apply each_only
    | intro _ _
    | intro _
    | split
    | dsimp only

theorem revoking_only (g : Nat) (tag : W32) (f : Nat) (p : Nat) (owner : Bool) (prev : Nat) (s : State) : Only [.fns, .sess, .billing, .ports, .parts, .slath, .wale, .always, .osier, .err, .out, .fires, .free] s (revoking g tag f p owner prev s) := by
  unfold revoking
  repeat' first
    | with_reducible exact Only.refl _ _
    | with_reducible assumption
    | decide
    | with_reducible apply Only.step ?_ (modWork_only ..) ?_
    | with_reducible apply Only.step ?_ (revoke_only ..) ?_
    | with_reducible apply Only.step ?_ (revokeNext_only ..) ?_
    | with_reducible apply each_only
    | intro _ _
    | intro _
    | split
    | dsimp only

theorem grantEffect_only (g : Nat) (c : Cmd) (prev : Nat) (s : State) : Only [.hosts, .fns, .sess, .billing, .ports, .parts, .slath, .wale, .always, .osier, .err, .out, .fires, .free] s (grantEffect g c prev s) := by
  unfold grantEffect
  repeat' first
    | with_reducible exact Only.refl _ _
    | with_reducible assumption
    | decide
    | with_reducible apply Only.step ?_ (modSess_only ..) ?_
    | with_reducible apply Only.step ?_ (modHost_only ..) ?_
    | with_reducible apply Only.step ?_ (modPart_only ..) ?_
    | with_reducible apply Only.step ?_ (complete_only ..) ?_
    | with_reducible apply Only.step ?_ (noteOpenLab_only ..) ?_
    | with_reducible apply Only.step ?_ (setOwner_only ..) ?_
    | with_reducible apply Only.step ?_ (revoking_only ..) ?_
    | with_reducible apply each_only
    | intro _ _
    | intro _
    | split
    | dsimp only

theorem setTime_only (port : Nat) (v : Nat) (newPeriod : Bool) (s : State) : Only [.fns, .sess, .billing, .parts, .wale, .always, .osier, .err, .out, .fires, .free] s (setTime port v newPeriod s) := by
  unfold setTime
  repeat' first
    | with_reducible exact Only.refl _ _
    | with_reducible assumption
    | decide
    | with_reducible apply Only.step ?_ (setBoundary_only ..) ?_
    | with_reducible apply Only.step ?_ (mlog_only ..) ?_
    | with_reducible apply Only.step ?_ (closeByClock_only ..) ?_
    | with_reducible apply Only.step ?_ (writeRec_only ..) ?_
    | with_reducible apply each_only
    | intro _ _
    | intro _
    | split
    | with_reducible apply upd_billing
    | dsimp only

theorem takeHaltFwd_only (p : Nat) (action : Nat) (abrupt : Bool) (s : State) : Only latticeFields s (takeHaltFwd p action abrupt s) := by
  unfold takeHaltFwd
  repeat' first
    | with_reducible exact Only.refl _ _
    | with_reducible assumption
    | decide
    | with_reducible apply Only.step ?_ (fireAll_only ..) ?_
    | with_reducible apply Only.step ?_ (enterHalts_only ..) ?_
    | with_reducible apply each_only
    | intro _ _
    | intro _
    | split
    | dsimp only

theorem takeHoopEn_only (p : Nat) (ports : Byte) (v : Bool) (s : State) : Only [.ports, .always, .plait, .out] s (takeHoopEn p ports v s) := by
  unfold takeHoopEn
  repeat' first
    | with_reducible exact Only.refl _ _
    | with_reducible assumption
    | decide
    | with_reducible apply Only.step ?_ (modStake_only ..) ?_
    | with_reducible apply Only.step ?_ (plaitSend_only ..) ?_
    | with_reducible apply each_only
    | intro _ _
    | intro _
    | split
    | dsimp only

theorem takeHoopEnAck_only (p : Nat) (ports : Byte) (v : Bool) (s : State) : Only [.ports, .always, .plait, .out] s (takeHoopEnAck p ports v s) := by
  unfold takeHoopEnAck
  repeat' first
    | with_reducible exact Only.refl _ _
    | with_reducible assumption
    | decide
    | with_reducible apply Only.step ?_ (askHoopCtrl_only ..) ?_
    | with_reducible apply each_only
    | intro _ _
    | intro _
    | split
    | with_reducible apply upd_plait
    | dsimp only

theorem takeStakeNote_only (p : Nat) (ports : Byte) (event : Byte) (s : State) : Only [.weave, .fns, .sess, .billing, .ports, .parts, .wale, .always, .osier, .err, .out, .fires, .free] s (takeStakeNote p ports event s) := by
  unfold takeStakeNote
  repeat' first
    | with_reducible exact Only.refl _ _
    | with_reducible assumption
    | decide
    | with_reducible apply Only.step ?_ (modStake_only ..) ?_
    | with_reducible apply Only.step ?_ (stakeTaken_only ..) ?_
    | with_reducible apply each_only
    | intro _ _
    | intro _
    | split
    | dsimp only

theorem takeHello_only (h : Hello) (s : State) : Only [.fns, .ports, .always, .plait, .out] s (takeHello h s) := by
  unfold takeHello
  repeat' first
    | with_reducible exact Only.refl _ _
    | with_reducible assumption
    | decide
    | with_reducible apply Only.step ?_ (sendHello_only ..) ?_
    | with_reducible apply Only.step ?_ (tryPairing_only ..) ?_
    | with_reducible apply each_only
    | intro _ _
    | intro _
    | split
    | with_reducible apply upd_plait
    | dsimp only

theorem takeStakeView_only (view : List Byte) (s : State) : Only [.weave, .fns, .sess, .billing, .ports, .parts, .wale, .always, .osier, .plait, .err, .out, .fires, .free] s (takeStakeView view s) := by
  unfold takeStakeView
  repeat' first
    | with_reducible exact Only.refl _ _
    | with_reducible assumption
    | decide
    | with_reducible apply Only.step ?_ (modStake_only ..) ?_
    | with_reducible apply Only.step ?_ (stakeTaken_only ..) ?_
    | with_reducible apply Only.step ?_ (settlePairing_only ..) ?_
    | with_reducible apply each_only
    | intro _ _
    | intro _
    | split
    | with_reducible apply upd_plait
    | dsimp only

theorem takeFastView_only (view : List Byte) (s : State) : Only [.fns, .ports, .always, .plait, .out] s (takeFastView view s) := by
  unfold takeFastView
  repeat' first
    | with_reducible exact Only.refl _ _
    | with_reducible assumption
    | decide
    | with_reducible apply Only.step ?_ (modStake_only ..) ?_
    | with_reducible apply Only.step ?_ (settlePairing_only ..) ?_
    | with_reducible apply each_only
    | intro _ _
    | intro _
    | split
    | with_reducible apply upd_plait
    | dsimp only

theorem pairCmd_only (f : Nat) (tag : W32) (s : State) : Only [.fns, .ports, .always, .plait, .out] s (pairCmd f tag s) := by
  unfold pairCmd
  repeat' first
    | with_reducible exact Only.refl _ _
    | with_reducible assumption
    | decide
    | with_reducible apply Only.step ?_ (complete_only ..) ?_
    | with_reducible apply Only.step ?_ (sendHello_only ..) ?_
    | with_reducible apply each_only
    | intro _ _
    | intro _
    | split
    | with_reducible apply upd_plait
    | dsimp only

theorem handoffCmd_only (f : Nat) (tag : W32) (mask : Nat) (s : State) : Only [.ports, .always, .plait, .out] s (handoffCmd f tag mask s) := by
  unfold handoffCmd
  repeat' first
    | with_reducible exact Only.refl _ _
    | with_reducible assumption
    | decide
    | with_reducible apply Only.step ?_ (askRelease_only ..) ?_
    | with_reducible apply Only.step ?_ (checkHandoff_only ..) ?_
    | with_reducible apply each_only
    | intro _ _
    | intro _
    | split
    | with_reducible apply upd_plait
    | dsimp only

theorem takeoverCmd_only (f : Nat) (tag : W32) (mask : Nat) (fetched : Nat) (s : State) : Only [.fns, .ports, .always, .plait, .out] s (takeoverCmd f tag mask fetched s) := by
  unfold takeoverCmd
  repeat' first
    | with_reducible exact Only.refl _ _
    | with_reducible assumption
    | decide
    | with_reducible apply Only.step ?_ (modWork_only ..) ?_
    | with_reducible apply Only.step ?_ (claim_only ..) ?_
    | with_reducible apply Only.step ?_ (checkTakeover_only ..) ?_
    | with_reducible apply each_only
    | intro _ _
    | intro _
    | split
    | dsimp only

theorem takeHandoff_only (mask : W64) (s : State) : Only [.ports, .always, .plait, .out] s (takeHandoff mask s) := by
  unfold takeHandoff
  repeat' first
    | with_reducible exact Only.refl _ _
    | with_reducible assumption
    | decide
    | with_reducible apply Only.step ?_ (modStake_only ..) ?_
    | with_reducible apply Only.step ?_ (claim_only ..) ?_
    | with_reducible apply Only.step ?_ (checkHandoffIn_only ..) ?_
    | with_reducible apply each_only
    | intro _ _
    | intro _
    | split
    | with_reducible apply upd_plait
    | dsimp only

theorem takeHandoffDone_only (claimed : W64) (refused : W64) (s : State) : Only [.fns, .always, .plait, .out] s (takeHandoffDone claimed refused s) := by
  unfold takeHandoffDone
  repeat' first
    | with_reducible exact Only.refl _ _
    | with_reducible assumption
    | decide
    | with_reducible apply Only.step ?_ (complete_only ..) ?_
    | with_reducible apply each_only
    | intro _ _
    | intro _
    | split
    | with_reducible apply upd_plait
    | dsimp only

theorem unpair_only (s : State) : Only [.fns, .ports, .always, .plait, .out] s (unpair s) := by
  unfold unpair
  repeat' first
    | with_reducible exact Only.refl _ _
    | with_reducible assumption
    | decide
    | with_reducible apply Only.step ?_ (plaitEvent_only ..) ?_
    | with_reducible apply Only.step ?_ (sendWithheld_only ..) ?_
    | with_reducible apply Only.step ?_ (pairEnds_only ..) ?_
    | with_reducible apply each_only
    | intro _ _
    | intro _
    | split
    | with_reducible apply upd_plait
    | dsimp only

theorem takeUnpair_only (s : State) : Only [.fns, .ports, .always, .plait, .out] s (takeUnpair s) := by
  unfold takeUnpair
  repeat' first
    | with_reducible exact Only.refl _ _
    | with_reducible assumption
    | decide
    | with_reducible apply Only.step ?_ (unpair_only ..) ?_
    | with_reducible apply each_only
    | intro _ _
    | intro _
    | split
    | dsimp only

theorem takeImageReq_only (found : Ecc) (s : State) : Only [.fns, .ports, .always, .plait, .err, .out, .free] s (takeImageReq found s) := by
  unfold takeImageReq
  repeat' first
    | with_reducible exact Only.refl _ _
    | with_reducible assumption
    | decide
    | with_reducible apply Only.step ?_ (correctedWord_only ..) ?_
    | with_reducible apply Only.step ?_ (uncorrectableItem_only ..) ?_
    | with_reducible apply Only.step ?_ (plaitSend_only ..) ?_
    | with_reducible apply each_only
    | intro _ _
    | intro _
    | split
    | dsimp only

theorem takeImageData_only (offset : Nat) (total : Nat) (bytes : List Byte) (s : State) : Only [.weave, .plait] s (takeImageData offset total bytes s) := by
  unfold takeImageData
  repeat' first
    | with_reducible exact Only.refl _ _
    | with_reducible assumption
    | decide
    | with_reducible apply each_only
    | intro _ _
    | intro _
    | split
    | with_reducible apply upd_weave_plait
    | with_reducible apply upd_plait
    | dsimp only

theorem sendNak_only (l : Nat) (s : State) : Only [.ports, .plait, .out] s (sendNak l s) := by
  unfold sendNak
  repeat' first
    | with_reducible exact Only.refl _ _
    | with_reducible assumption
    | decide
    | with_reducible apply Only.step ?_ (modLnk_only ..) ?_
    | with_reducible apply Only.step ?_ (sendCtl_only ..) ?_
    | with_reducible apply each_only
    | intro _ _
    | intro _
    | split
    | dsimp only

theorem badFlit_only (l : Nat) (s : State) : Only [.ports, .always, .plait, .out] s (badFlit l s) := by
  unfold badFlit
  repeat' first
    | with_reducible exact Only.refl _ _
    | with_reducible assumption
    | decide
    | with_reducible apply Only.step ?_ (bumpAlways_only ..) ?_
    | with_reducible apply Only.step ?_ (setLinkErr_only ..) ?_
    | with_reducible apply Only.step ?_ (sendNak_only ..) ?_
    | with_reducible apply each_only
    | intro _ _
    | intro _
    | split
    | dsimp only

theorem answerTimesync_only (exch : Byte) (t1 : Nat) (s : State) : Only [.ports, .plait, .out] s (answerTimesync exch t1 s) := by
  unfold answerTimesync
  repeat' first
    | with_reducible exact Only.refl _ _
    | with_reducible assumption
    | decide
    | with_reducible apply Only.step ?_ (sendCtl_only ..) ?_
    | with_reducible apply each_only
    | intro _ _
    | intro _
    | split
    | dsimp only

theorem ctlEffectOf_only (l : Nat) (type : Nat) (sub : Byte) (b : List Byte) (s : State) : Only [.boot, .weave, .fns, .sess, .billing, .ports, .units, .parts, .slath, .hang, .wale, .always, .osier, .plait, .err, .out, .fires, .free] s (ctlEffectOf l type sub b s) := by
  unfold ctlEffectOf
  repeat' first
    | with_reducible exact Only.refl _ _
    | with_reducible assumption
    | decide
    | with_reducible apply Only.step ?_ (takeConfig_only ..) ?_
    | with_reducible apply Only.step ?_ (takeTimesyncRsp_only ..) ?_
    | with_reducible apply Only.step ?_ (takeNak_only ..) ?_
    | with_reducible apply Only.step ?_ (takeReplayStart_only ..) ?_
    | with_reducible apply Only.step ?_ (takeResume_only ..) ?_
    | with_reducible apply Only.step ?_ (takeDetach_only ..) ?_
    | with_reducible apply Only.step ?_ (answerTimesync_only ..) ?_
    | with_reducible apply each_only
    | intro _ _
    | intro _
    | split
    | dsimp only

theorem takeCtl_only (l : Nat) (b : List Byte) (s : State) : Only [.boot, .weave, .fns, .sess, .billing, .ports, .units, .parts, .slath, .hang, .wale, .always, .osier, .plait, .err, .out, .fires, .free] s (takeCtl l b s) := by
  unfold takeCtl
  repeat' first
    | with_reducible exact Only.refl _ _
    | with_reducible assumption
    | decide
    | with_reducible apply Only.step ?_ (pump_only ..) ?_
    | with_reducible apply Only.step ?_ (noteRuns_only ..) ?_
    | with_reducible apply Only.step ?_ (protocolError_only ..) ?_
    | with_reducible apply Only.step ?_ (readHdr_only ..) ?_
    | with_reducible apply Only.step ?_ (ctlEffectOf_only ..) ?_
    | with_reducible apply each_only
    | intro _ _
    | intro _
    | split
    | dsimp only

theorem takePlait_only (m : Msg) (s : State) : Only [.weave, .fns, .sess, .billing, .ports, .units, .parts, .xtrigOut, .slath, .wale, .always, .osier, .plait, .err, .out, .fires, .free] s (takePlait m s) := by
  unfold takePlait
  repeat' first
    | with_reducible exact Only.refl _ _
    | with_reducible assumption
    | decide
    | with_reducible apply Only.step ?_ (takeHaltFwd_only ..) ?_
    | with_reducible apply Only.step ?_ (takeHoopEn_only ..) ?_
    | with_reducible apply Only.step ?_ (takeHoopEnAck_only ..) ?_
    | with_reducible apply Only.step ?_ (takeStakeNote_only ..) ?_
    | with_reducible apply Only.step ?_ (takeHello_only ..) ?_
    | with_reducible apply Only.step ?_ (takeStakeView_only ..) ?_
    | with_reducible apply Only.step ?_ (takeFastView_only ..) ?_
    | with_reducible apply Only.step ?_ (takeHandoff_only ..) ?_
    | with_reducible apply Only.step ?_ (takeHandoffDone_only ..) ?_
    | with_reducible apply Only.step ?_ (takeUnpair_only ..) ?_
    | with_reducible apply Only.step ?_ (takeImageReq_only ..) ?_
    | with_reducible apply Only.step ?_ (takeImageData_only ..) ?_
    | with_reducible apply each_only
    | intro _ _
    | intro _
    | split
    | dsimp only

theorem takeMsg_only (l : Nat) (m : Msg) (s : State) : Only [.weave, .fns, .sess, .billing, .ports, .units, .parts, .xtrigOut, .slath, .hang, .wale, .always, .osier, .plait, .err, .out, .fires, .free] s (takeMsg l m s) := by
  unfold takeMsg
  repeat' first
    | with_reducible exact Only.refl _ _
    | with_reducible assumption
    | decide
    | with_reducible apply Only.step ?_ (takeVc3_only ..) ?_
    | with_reducible apply Only.step ?_ (protocolError_only ..) ?_
    | with_reducible apply Only.step ?_ (takeResponse_only ..) ?_
    | with_reducible apply Only.step ?_ (takePlait_only ..) ?_
    | with_reducible apply each_only
    | intro _ _
    | intro _
    | split
    | dsimp only

theorem assemble_only (l : Nat) (ch : Nat) (som : Bool) (eom : Bool) (payload : List Byte) (s : State) : Only [.weave, .fns, .sess, .billing, .ports, .units, .parts, .xtrigOut, .slath, .hang, .wale, .always, .osier, .plait, .err, .out, .fires, .free] s (assemble l ch som eom payload s) := by
  unfold assemble
  repeat' first
    | with_reducible exact Only.refl _ _
    | with_reducible assumption
    | decide
    | with_reducible apply Only.step ?_ (modLnk_only ..) ?_
    | with_reducible apply Only.step ?_ (protocolError_only ..) ?_
    | with_reducible apply Only.step ?_ (takeMsg_only ..) ?_
    | with_reducible apply each_only
    | intro _ _
    | intro _
    | split
    | dsimp only

theorem returnCredit_only (l : Nat) (ch : Nat) (s : State) : Only [.ports, .plait] s (returnCredit l ch s) := by
  unfold returnCredit
  repeat' first
    | with_reducible exact Only.refl _ _
    | with_reducible assumption
    | decide
    | with_reducible apply Only.step ?_ (modLnk_only ..) ?_
    | with_reducible apply each_only
    | intro _ _
    | intro _
    | split
    | dsimp only

theorem deliverFlit_only (l : Nat) (b : List Byte) (s : State) : Only [.weave, .fns, .sess, .billing, .ports, .units, .parts, .xtrigOut, .slath, .hang, .wale, .always, .osier, .plait, .err, .out, .fires, .free] s (deliverFlit l b s) := by
  unfold deliverFlit
  repeat' first
    | with_reducible exact Only.refl _ _
    | with_reducible assumption
    | decide
    | with_reducible apply Only.step ?_ (bumpAlways_only ..) ?_
    | with_reducible apply Only.step ?_ (sendCtl_only ..) ?_
    | with_reducible apply Only.step ?_ (protocolError_only ..) ?_
    | with_reducible apply Only.step ?_ (assemble_only ..) ?_
    | with_reducible apply Only.step ?_ (returnCredit_only ..) ?_
    | with_reducible apply each_only
    | intro _ _
    | intro _
    | split
    | dsimp only

theorem takeSeq_only (l : Nat) (b : List Byte) (s : State) : Only [.weave, .fns, .sess, .billing, .ports, .units, .parts, .xtrigOut, .slath, .hang, .wale, .always, .osier, .plait, .err, .out, .fires, .free] s (takeSeq l b s) := by
  unfold takeSeq
  repeat' first
    | with_reducible exact Only.refl _ _
    | with_reducible assumption
    | decide
    | with_reducible apply Only.step ?_ (modLnk_only ..) ?_
    | with_reducible apply Only.step ?_ (sendNak_only ..) ?_
    | with_reducible apply Only.step ?_ (deliverFlit_only ..) ?_
    | with_reducible apply each_only
    | intro _ _
    | intro _
    | split
    | dsimp only

theorem releaseOutputs_only (s : State) : Only [.out] s (releaseOutputs s) := by
  unfold releaseOutputs
  repeat' first
    | with_reducible exact Only.refl _ _
    | with_reducible assumption
    | decide
    | with_reducible apply Only.step ?_ (emit_only ..) ?_
    | with_reducible apply Only.step ?_ (driveXtrig_only ..) ?_
    | with_reducible apply each_only
    | intro _ _
    | intro _
    | split
    | dsimp only

theorem powerReset_only (cause : BitVec 6) (s : State) : Only [.now, .pins, .clk, .boot, .lcy, .tap, .tapLatches, .weave, .hosts, .fns, .sess, .billing, .ports, .units, .parts, .xtrigOut, .slath, .hang, .wale, .always, .osier, .plait, .err, .mem, .out, .fires, .free] s (powerReset cause s) :=
  ⟨fun f e => by unfold powerReset; cases f <;> first | exact absurd (by decide) e | rfl⟩

theorem abortAll_only (s : State) : Only [.fns, .always, .out] s (abortAll s) := by
  unfold abortAll
  repeat' first
    | with_reducible exact Only.refl _ _
    | with_reducible assumption
    | decide
    | with_reducible apply Only.step ?_ (completeOne_only ..) ?_
    | with_reducible apply each_only
    | intro _ _
    | intro _
    | split
    | dsimp only

theorem State.warmed_only (s : State) (cause : BitVec 6) : Only [.boot, .lcy, .tap, .tapLatches, .weave, .hosts, .fns, .sess, .billing, .ports, .units, .parts, .xtrigOut, .slath, .hang, .wale, .always, .osier, .plait, .err, .mem, .out, .fires, .free] s (State.warmed s cause) :=
  ⟨fun f e => by cases f <;> first | exact absurd (by decide) e | rfl⟩

theorem warmNow_only (cause : BitVec 6) (s : State) : Only [.boot, .lcy, .tap, .tapLatches, .weave, .hosts, .fns, .sess, .billing, .ports, .units, .parts, .xtrigOut, .slath, .hang, .wale, .always, .osier, .plait, .err, .mem, .out, .fires, .free] s (warmNow cause s) := by
  unfold warmNow
  repeat' first
    | with_reducible exact Only.refl _ _
    | with_reducible assumption
    | decide
    | with_reducible apply Only.step ?_ (noteOpenLab_only ..) ?_
    | with_reducible apply Only.step ?_ (releaseOutputs_only ..) ?_
    | with_reducible apply Only.step ?_ (abortAll_only ..) ?_
    | with_reducible apply Only.step ?_ (State.warmed_only ..) ?_
    | with_reducible apply each_only
    | intro _ _
    | intro _
    | split
    | dsimp only

theorem warmReset_only (cause : BitVec 6) (s : State) : Only [.boot, .lcy, .tap, .tapLatches, .weave, .hosts, .fns, .sess, .billing, .ports, .units, .parts, .xtrigOut, .slath, .hang, .wale, .always, .osier, .plait, .err, .mem, .out, .fires, .free] s (warmReset cause s) := by
  unfold warmReset
  repeat' first
    | with_reducible exact Only.refl _ _
    | with_reducible assumption
    | decide
    | with_reducible apply Only.step ?_ (warmNow_only ..) ?_
    | with_reducible apply each_only
    | intro _ _
    | intro _
    | split
    | with_reducible apply upd_boot
    | dsimp only

theorem enterPhase_only (p : Phase) (s : State) : Only [.boot] s (enterPhase p s) := by
  unfold enterPhase
  repeat' first
    | with_reducible exact Only.refl _ _
    | with_reducible assumption
    | decide
    | with_reducible apply each_only
    | intro _ _
    | intro _
    | split
    | with_reducible apply upd_boot
    | dsimp only

theorem drawKey_only (s : State) : Only [.lcy, .free] s (drawKey s) := by
  unfold drawKey
  repeat' first
    | with_reducible exact Only.refl _ _
    | with_reducible assumption
    | decide
    | with_reducible apply Only.step ?_ (nextFree_only ..) ?_
    | with_reducible apply each_only
    | intro _ _
    | intro _
    | split
    | with_reducible apply upd_lcy
    | dsimp only

theorem scrub_only (s : State) : Only [.parts, .slath, .mem] s (scrub s) := by
  unfold scrub
  repeat' first
    | with_reducible exact Only.refl _ _
    | with_reducible assumption
    | decide
    | with_reducible apply Only.step ?_ (modPart_only ..) ?_
    | with_reducible apply each_only
    | intro _ _
    | intro _
    | split
    | with_reducible apply upd_slath_mem
    | with_reducible apply upd_mem
    | dsimp only

theorem startJunior_only (s : State) : Only [.ports, .plait] s (startJunior s) := by
  unfold startJunior
  repeat' first
    | with_reducible exact Only.refl _ _
    | with_reducible assumption
    | decide
    | with_reducible apply Only.step ?_ (enterDetect_only ..) ?_
    | with_reducible apply each_only
    | intro _ _
    | intro _
    | split
    | with_reducible apply upd_plait
    | dsimp only

theorem partReady_only (p : Nat) (s : State) : Only [.fns, .sess, .billing, .units, .parts, .hang, .wale, .always, .osier, .err, .out, .fires, .free] s (partReady p s) := by
  unfold partReady
  repeat' first
    | with_reducible exact Only.refl _ _
    | with_reducible assumption
    | decide
    | with_reducible apply Only.step ?_ (modPart_only ..) ?_
    | with_reducible apply Only.step ?_ (forceReset_only ..) ?_
    | with_reducible apply Only.step ?_ (startGraph_only ..) ?_
    | with_reducible apply Only.step ?_ (bindAtReady_only ..) ?_
    | with_reducible apply each_only
    | intro _ _
    | intro _
    | split
    | dsimp only

theorem readyHello_only (s : State) : Only [.fns, .ports, .always, .plait, .out] s (readyHello s) := by
  unfold readyHello
  repeat' first
    | with_reducible exact Only.refl _ _
    | with_reducible assumption
    | decide
    | with_reducible apply Only.step ?_ (sendHello_only ..) ?_
    | with_reducible apply Only.step ?_ (tryPairing_only ..) ?_
    | with_reducible apply each_only
    | intro _ _
    | intro _
    | split
    | dsimp only

theorem restartLink_only (l : Nat) (s : State) : Only [.boot, .ports, .units, .always, .plait, .out] s (restartLink l s) := by
  unfold restartLink
  repeat' first
    | with_reducible exact Only.refl _ _
    | with_reducible assumption
    | decide
    | with_reducible apply Only.step ?_ (enterDetect_only ..) ?_
    | with_reducible apply Only.step ?_ (startLink_only ..) ?_
    | with_reducible apply Only.step ?_ (bootAdvance_only ..) ?_
    | with_reducible apply each_only
    | intro _ _
    | intro _
    | split
    | dsimp only

theorem resetWeave_only (p : Nat) (s : State) : Only [.fns, .sess, .billing, .ports, .parts, .wale, .always, .osier, .err, .out, .fires, .free] s (resetWeave p s) := by
  unfold resetWeave
  repeat' first
    | with_reducible exact Only.refl _ _
    | with_reducible assumption
    | decide
    | with_reducible apply Only.step ?_ (fail_only ..) ?_
    | with_reducible apply Only.step ?_ (dropReweave_only ..) ?_
    | with_reducible apply Only.step ?_ (finishCommit_only ..) ?_
    | with_reducible apply each_only
    | intro _ _
    | intro _
    | split
    | dsimp only

theorem resetLattice_only (p : Nat) (s : State) : Only [.parts, .fires] s (resetLattice p s) := by
  unfold resetLattice
  repeat' first
    | with_reducible exact Only.refl _ _
    | with_reducible assumption
    | decide
    | with_reducible apply Only.step ?_ (modPart_only ..) ?_
    | with_reducible apply Only.step ?_ (endHold_only ..) ?_
    | with_reducible apply each_only
    | intro _ _
    | intro _
    | split
    | with_reducible apply upd_fires
    | dsimp only

theorem resetCuts_only (p : Nat) (s : State) : Only [.fns, .sess, .billing, .ports, .parts, .slath, .wale, .always, .osier, .plait, .err, .out, .fires, .free] s (resetCuts p s) := by
  unfold resetCuts
  repeat' first
    | with_reducible exact Only.refl _ _
    | with_reducible assumption
    | decide
    | with_reducible apply Only.step ?_ (modPart_only ..) ?_
    | with_reducible apply Only.step ?_ (releaseCut_only ..) ?_
    | with_reducible apply each_only
    | intro _ _
    | intro _
    | split
    | dsimp only

theorem resetHang_only (p : Nat) (s : State) : Only [.fns, .sess, .billing, .units, .parts, .hang, .wale, .always, .osier, .err, .out, .fires, .free] s (resetHang p s) := by
  unfold resetHang
  repeat' first
    | with_reducible exact Only.refl _ _
    | with_reducible assumption
    | decide
    | with_reducible apply Only.step ?_ (modPart_only ..) ?_
    | with_reducible apply Only.step ?_ (closeBinding_only ..) ?_
    | with_reducible apply Only.step ?_ (startGraph_only ..) ?_
    | with_reducible apply Only.step ?_ (stopGraph_only ..) ?_
    | with_reducible apply each_only
    | intro _ _
    | intro _
    | split
    | dsimp only

theorem resetCounters_only (p : Nat) (s : State) : Only [.fns, .parts, .always, .out] s (resetCounters p s) := by
  unfold resetCounters
  repeat' first
    | with_reducible exact Only.refl _ _
    | with_reducible assumption
    | decide
    | with_reducible apply Only.step ?_ (modPart_only ..) ?_
    | with_reducible apply Only.step ?_ (dropConfig_only ..) ?_
    | with_reducible apply each_only
    | intro _ _
    | intro _
    | split
    | dsimp only

theorem resetRuns_only (p : Nat) (s : State) : Only [.fns, .sess, .billing, .parts, .wale, .always, .osier, .err, .out, .fires, .free] s (resetRuns p s) := by
  unfold resetRuns
  repeat' first
    | with_reducible exact Only.refl _ _
    | with_reducible assumption
    | decide
    | with_reducible apply Only.step ?_ (modPart_only ..) ?_
    | with_reducible apply Only.step ?_ (flushDram_only ..) ?_
    | with_reducible apply Only.step ?_ (forceReset_only ..) ?_
    | with_reducible apply Only.step ?_ (markBinding_only ..) ?_
    | with_reducible apply Only.step ?_ (retryAll_only ..) ?_
    | with_reducible apply Only.step ?_ (takeRun_only ..) ?_
    | with_reducible apply Only.step ?_ (bindAtReady_only ..) ?_
    | with_reducible apply each_only
    | intro _ _
    | intro _
    | split
    | dsimp only

theorem setLatches_only (tap : Bool) (f : Nat) (l : List (Nat × W32)) (s : State) : Only [.tapLatches, .fns] s (setLatches tap f l s) := by
  unfold setLatches
  repeat' first
    | with_reducible exact Only.refl _ _
    | with_reducible assumption
    | decide
    | with_reducible apply Only.step ?_ (modFn_only ..) ?_
    | with_reducible apply each_only
    | intro _ _
    | intro _
    | split
    | with_reducible apply upd_tapLatches
    | dsimp only

theorem readClear_only (f : Nat) (off : Nat) (s : State) : Only [.parts, .hang] s (readClear f off s) := by
  unfold readClear
  repeat' first
    | with_reducible exact Only.refl _ _
    | with_reducible assumption
    | decide
    | with_reducible apply Only.step ?_ (modPart_only ..) ?_
    | with_reducible apply each_only
    | intro _ _
    | intro _
    | split
    | with_reducible apply upd_hang
    | dsimp only

theorem memWord_only (space index w : Nat) (s : State) : Only [.mem, .free] s (memWord space index w s).2 := by
  unfold memWord
  dsimp only
  repeat' split
  all_goals first
    | exact .refl _ _
    | exact (nextFree_only ..).weaken (by decide)
    | exact upd_mem (.refl _ _) (by decide)
    | exact upd_mem ((nextFree_only ..).weaken (by decide)) (by decide)

theorem countBad_only (space : Nat) (r : MemRead) (s : State) : Only [.fns, .always, .err, .out] s (countBad space r s) := by
  unfold countBad
  repeat' first
    | with_reducible exact Only.refl _ _
    | with_reducible assumption
    | decide
    | with_reducible apply Only.step ?_ (bumpAlways_only ..) ?_
    | with_reducible apply Only.step ?_ (errBit_only ..) ?_
    | with_reducible apply Only.step ?_ (correctedWord_only ..) ?_
    | with_reducible apply each_only
    | intro _ _
    | intro _
    | split
    | dsimp only

theorem windowRead_only (tap : Bool) (f : Nat) (s : State) : Only [.tapLatches, .hosts, .fns, .always, .err, .mem, .out, .free] s (windowRead tap f s).2 := by
  unfold windowRead
  dsimp only
  generalize hm : (if s.inTest = true then _ else _ : MemRead × State) = m
  have h : Only [.tapLatches, .hosts, .fns, .always, .err, .mem, .out, .free] s m.2 := by
    rw [← hm]
    split
    · exact (memWord_only ..).weaken (by decide)
    · exact .refl _ _
  split
  · exact ((h.step (countBad_only ..) (by decide)).step (modHost_only ..) (by decide)).step (setLatches_only ..) (by decide)
  · split
    · dsimp only
      exact (h.step (countBad_only ..) (by decide)).step (modHost_only ..) (by decide)
    · exact ((h.step (countBad_only ..) (by decide)).step (modHost_only ..) (by decide)).step (setLatches_only ..) (by decide)

theorem readReg_only (tap : Bool) (f off : Nat) (s : State) : Only [.tapLatches, .hosts, .fns, .parts, .hang, .always, .err, .mem, .out, .free] s (readReg tap f off s).2 := by
  unfold readReg
  dsimp only
  split
  · exact (windowRead_only ..).weaken (by decide)
  · split
    · exact .refl _ _
    · dsimp only
      refine Only.step ?_ (readClear_only ..) (by decide)
      split
      · exact .refl _ _
      · exact (setLatches_only ..).weaken (by decide)

theorem readDone_only (f : Nat) (v : Nat) (s : State) : Only [.always, .out] s (readDone f v s) := by
  unfold readDone
  repeat' first
    | with_reducible exact Only.refl _ _
    | with_reducible assumption
    | decide
    | with_reducible apply Only.step ?_ (emit_only ..) ?_
    | with_reducible apply Only.step ?_ (bumpAlways_only ..) ?_
    | with_reducible apply each_only
    | intro _ _
    | intro _
    | split
    | dsimp only

theorem barRead_only (f off : Nat) (s : State) : Only [.tapLatches, .hosts, .fns, .parts, .hang, .always, .err, .mem, .out, .free] s (barRead f off s) := by
  unfold barRead
  split
  · exact .refl _ _
  · split
    · exact (readDone_only ..).weaken (by decide)
    · have h := readReg_only false f off s
      generalize readReg false f off s = r at h
      obtain ⟨v | v, t⟩ := r
      · exact h.step (emit_only ..) (by decide)
      · exact h.step (readDone_only ..) (by decide)

theorem writeHub_only (tap : Bool) (f : Nat) (off : Nat) (w : Wr) (s : State) : Only [.boot, .lcy, .tap, .tapLatches, .weave, .hosts, .fns, .sess, .billing, .ports, .units, .parts, .xtrigOut, .slath, .hang, .wale, .always, .osier, .plait, .err, .mem, .out, .fires, .free] s (writeHub tap f off w s) := by
  unfold writeHub
  repeat' first
    | with_reducible exact Only.refl _ _
    | with_reducible assumption
    | decide
    | with_reducible apply Only.step ?_ (modHost_only ..) ?_
    | with_reducible apply Only.step ?_ (warmReset_only ..) ?_
    | with_reducible apply each_only
    | intro _ _
    | intro _
    | split
    | with_reducible apply upd_boot
    | dsimp only

theorem writeWea_only (tap : Bool) (f : Nat) (off : Nat) (w : Wr) (s : State) : Only [.weave, .hosts, .fns, .always, .out, .free] s (writeWea tap f off w s) := by
  unfold writeWea
  repeat' first
    | with_reducible exact Only.refl _ _
    | with_reducible assumption
    | decide
    | with_reducible apply Only.step ?_ (modWea_only ..) ?_
    | with_reducible apply Only.step ?_ (loadStart_only ..) ?_
    | with_reducible apply Only.step ?_ (loadAbort_only ..) ?_
    | with_reducible apply each_only
    | intro _ _
    | intro _
    | split
    | dsimp only

theorem writeSes_only (f : Nat) (off : Nat) (w : Wr) (s : State) : Only [.fns, .always, .out] s (writeSes f off w s) := by
  unfold writeSes
  repeat' first
    | with_reducible exact Only.refl _ _
    | with_reducible assumption
    | decide
    | with_reducible apply Only.step ?_ (modFn_only ..) ?_
    | with_reducible apply Only.step ?_ (doorbell_only ..) ?_
    | with_reducible apply Only.step ?_ (cplHeadWrite_only ..) ?_
    | with_reducible apply Only.step ?_ (ringEnable_only ..) ?_
    | with_reducible apply Only.step ?_ (ringDisable_only ..) ?_
    | with_reducible apply each_only
    | intro _ _
    | intro _
    | with_reducible apply ite_only
    | dsimp only

theorem writeNsl_only (tap : Bool) (f : Nat) (off : Nat) (w : Wr) (s : State) : Only [.boot, .weave, .fns, .sess, .billing, .ports, .units, .parts, .slath, .hang, .wale, .always, .osier, .plait, .err, .out, .fires, .free] s (writeNsl tap f off w s) := by
  unfold writeNsl
  repeat' first
    | with_reducible exact Only.refl _ _
    | with_reducible assumption
    | decide
    | with_reducible apply Only.step ?_ (modPort_only ..) ?_
    | with_reducible apply Only.step ?_ (modLnk_only ..) ?_
    | with_reducible apply Only.step ?_ (scanWrite_only ..) ?_
    | with_reducible apply Only.step ?_ (startRetrain_only ..) ?_
    | with_reducible apply Only.step ?_ (forceDown_only ..) ?_
    | with_reducible apply each_only
    | intro _ _
    | intro _
    | split
    | dsimp only

theorem injectWrite_only (tap : Bool) (f : Nat) (w : Wr) (s : State) : Only [.err] s (injectWrite tap f w s) := by
  unfold injectWrite
  repeat' first
    | with_reducible exact Only.refl _ _
    | with_reducible assumption
    | decide
    | with_reducible apply each_only
    | intro _ _
    | intro _
    | split
    | with_reducible apply upd_err
    | dsimp only

theorem writeSel_only (tap : Bool) (f : Nat) (off : Nat) (w : Wr) (s : State) : Only [.fns, .wale, .plait, .err] s (writeSel tap f off w s) := by
  unfold writeSel
  repeat' first
    | with_reducible exact Only.refl _ _
    | with_reducible assumption
    | decide
    | with_reducible apply Only.step ?_ (modFn_only ..) ?_
    | with_reducible apply Only.step ?_ (injectWrite_only ..) ?_
    | with_reducible apply each_only
    | intro _ _
    | intro _
    | with_reducible apply ite_only
    | with_reducible apply upd_wale
    | with_reducible apply upd_plait
    | with_reducible apply upd_err
    | dsimp only

theorem sendPending_only (f : Nat) (v : Nat) (s : State) : Only [.fns, .always, .out] s (sendPending f v s) := by
  unfold sendPending
  repeat' first
    | with_reducible exact Only.refl _ _
    | with_reducible assumption
    | decide
    | with_reducible apply Only.step ?_ (modFn_only ..) ?_
    | with_reducible apply Only.step ?_ (signal_only ..) ?_
    | with_reducible apply each_only
    | intro _ _
    | intro _
    | split
    | dsimp only

theorem writeMsixControl_only (f : Nat) (w : Wr) (s : State) : Only [.fns, .always, .out] s (writeMsixControl f w s) := by
  unfold writeMsixControl
  repeat' first
    | with_reducible exact Only.refl _ _
    | with_reducible assumption
    | decide
    | with_reducible apply Only.step ?_ (modFn_only ..) ?_
    | with_reducible apply Only.step ?_ (sendPending_only ..) ?_
    | with_reducible apply each_only
    | intro _ _
    | intro _
    | split
    | dsimp only

theorem writeMsix_only (f : Nat) (off : Nat) (w : Wr) (s : State) : Only [.fns, .always, .out] s (writeMsix f off w s) := by
  unfold writeMsix
  repeat' first
    | with_reducible exact Only.refl _ _
    | with_reducible assumption
    | decide
    | with_reducible apply Only.step ?_ (modFn_only ..) ?_
    | with_reducible apply Only.step ?_ (sendPending_only ..) ?_
    | with_reducible apply each_only
    | intro _ _
    | intro _
    | split
    | dsimp only

theorem requestReset_only (f : Nat) (p : Nat) (s : State) : Only [.parts] s (requestReset f p s) := by
  unfold requestReset
  repeat' first
    | with_reducible exact Only.refl _ _
    | with_reducible assumption
    | decide
    | with_reducible apply Only.step ?_ (modPart_only ..) ?_
    | with_reducible apply each_only
    | intro _ _
    | intro _
    | split
    | dsimp only

theorem writePart_only (f : Nat) (p : Nat) (off : Nat) (w : Wr) (s : State) : Only [.fns, .parts] s (writePart f p off w s) := by
  unfold writePart
  repeat' first
    | with_reducible exact Only.refl _ _
    | with_reducible assumption
    | decide
    | with_reducible apply Only.step ?_ (modFn_only ..) ?_
    | with_reducible apply Only.step ?_ (requestReset_only ..) ?_
    | with_reducible apply each_only
    | intro _ _
    | intro _
    | split
    | dsimp only

theorem writeReg_only (tap : Bool) (f : Nat) (off : Nat) (value : W32) (en : BitVec 4) (s : State) : Only [.boot, .lcy, .tap, .tapLatches, .weave, .hosts, .fns, .sess, .billing, .ports, .units, .parts, .xtrigOut, .slath, .hang, .wale, .always, .osier, .plait, .err, .mem, .out, .fires, .free] s (writeReg tap f off value en s) := by
  unfold writeReg
  repeat' first
    | with_reducible exact Only.refl _ _
    | with_reducible assumption
    | decide
    | with_reducible apply Only.step ?_ (writeHub_only ..) ?_
    | with_reducible apply Only.step ?_ (writeWea_only ..) ?_
    | with_reducible apply Only.step ?_ (writeSes_only ..) ?_
    | with_reducible apply Only.step ?_ (writeNsl_only ..) ?_
    | with_reducible apply Only.step ?_ (writeSel_only ..) ?_
    | with_reducible apply Only.step ?_ (writeMsix_only ..) ?_
    | with_reducible apply Only.step ?_ (writePart_only ..) ?_
    | with_reducible apply each_only
    | intro _ _
    | intro _
    | with_reducible apply ite_only
    | dsimp only

theorem writeSpan_only (f : Nat) (off : Nat) (more : List (W32 × BitVec 4)) (s : State) : Only [.boot, .lcy, .tap, .tapLatches, .weave, .hosts, .fns, .sess, .billing, .ports, .units, .parts, .xtrigOut, .slath, .hang, .wale, .always, .osier, .plait, .err, .mem, .out, .fires, .free] s (writeSpan f off more s) := by
  unfold writeSpan
  repeat' first
    | with_reducible exact Only.refl _ _
    | with_reducible assumption
    | decide
    | with_reducible apply Only.trans ?_ (hostPut_only _ _ _ ?_ ?_)
    | with_reducible apply Only.step ?_ (writeReg_only ..) ?_
    | with_reducible apply each_only
    | intro _ _
    | intro _
    | split
    | dsimp only

theorem selectIr_only (code : Nat) (s : State) : Only [.tap] s (selectIr code s) := by
  unfold selectIr
  repeat' first
    | with_reducible exact Only.refl _ _
    | with_reducible assumption
    | decide
    | with_reducible apply each_only
    | intro _ _
    | intro _
    | split
    | with_reducible apply upd_tap
    | dsimp only

theorem tapOut_only (o : Out) (s : State) : Only [.out] s (tapOut o s) := by
  unfold tapOut
  repeat' first
    | with_reducible exact Only.refl _ _
    | with_reducible assumption
    | decide
    | with_reducible apply each_only
    | intro _ _
    | intro _
    | split
    | with_reducible apply upd_out
    | dsimp only

theorem shiftBypass_only (tdi : List Bool) (s : State) : Only [.tap, .out] s (shiftBypass tdi s) := by
  unfold shiftBypass
  repeat' first
    | with_reducible exact Only.refl _ _
    | with_reducible assumption
    | decide
    | with_reducible apply Only.step ?_ (tapOut_only ..) ?_
    | with_reducible apply each_only
    | intro _ _
    | intro _
    | split
    | with_reducible apply upd_tap
    | dsimp only

theorem tapRun_only {l0 : List Fld} (code : Nat) (g : State → State) (s : State)
    (hl : ([.tap, .out] : List Fld).all l0.contains = true) (hg : ∀ x0, Only l0 x0 (g x0)) : Only l0 s (tapRun code g s) := by
  unfold tapRun
  repeat' first
    | with_reducible exact Only.refl _ _
    | with_reducible assumption
    | exact within hl (by decide)
    | with_reducible apply Only.step ?_ (selectIr_only ..) ?_
    | with_reducible apply Only.step ?_ (shiftBypass_only ..) ?_
    | with_reducible apply Only.trans ?_ (hg ..)
    | with_reducible apply each_only
    | intro _ _
    | intro _
    | split
    | dsimp only

theorem shiftOut_only (n : Nat) (v : Nat) (s : State) : Only [.out] s (shiftOut n v s) := by
  unfold shiftOut
  repeat' first
    | with_reducible exact Only.refl _ _
    | with_reducible assumption
    | decide
    | with_reducible apply Only.step ?_ (tapOut_only ..) ?_
    | with_reducible apply each_only
    | intro _ _
    | intro _
    | split
    | dsimp only

theorem lcyResult_only (st : Byte) (w0 : Nat) (w1 : Nat) (s : State) : Only [.tap] s (lcyResult st w0 w1 s) := by
  unfold lcyResult
  repeat' first
    | with_reducible exact Only.refl _ _
    | with_reducible assumption
    | decide
    | with_reducible apply each_only
    | intro _ _
    | intro _
    | split
    | with_reducible apply upd_tap
    | dsimp only

theorem tapAdvance_only (target : Nat) (confirm : Nat) (s : State) : Only [.lcy, .tap] s (tapAdvance target confirm s) := by
  unfold tapAdvance
  repeat' first
    | with_reducible exact Only.refl _ _
    | with_reducible assumption
    | decide
    | with_reducible apply Only.step ?_ (askBurn_only ..) ?_
    | with_reducible apply Only.step ?_ (lcyResult_only ..) ?_
    | with_reducible apply each_only
    | intro _ _
    | intro _
    | split
    | dsimp only

theorem updateDr_only {l0 : List Fld} (us : Nat) (busy : State → State) (access : State → State) (s : State)
    (hl : ([.tap, .free] : List Fld).all l0.contains = true) (hbusy : ∀ x0, Only l0 x0 (busy x0)) (haccess : ∀ x0, Only l0 x0 (access x0)) : Only l0 s (updateDr us busy access s) := by
  unfold updateDr
  repeat' first
    | with_reducible exact Only.refl _ _
    | with_reducible assumption
    | exact within hl (by decide)
    | with_reducible apply Only.step ?_ (nextFree_only ..) ?_
    | with_reducible apply Only.trans ?_ (hbusy ..)
    | with_reducible apply Only.trans ?_ (haccess ..)
    | with_reducible apply each_only
    | intro _ _
    | intro _
    | split
    | with_reducible apply upd_tap
    | dsimp only

theorem memPut_only (space : Nat) (index : Nat) (w : Nat) (value : Nat) (s : State) : Only [.err, .mem] s (memPut space index w value s) := by
  unfold memPut
  repeat' first
    | with_reducible exact Only.refl _ _
    | with_reducible assumption
    | decide
    | with_reducible apply Only.step ?_ (spendInjection_only ..) ?_
    | with_reducible apply each_only
    | intro _ _
    | intro _
    | split
    | with_reducible apply upd_mem
    | dsimp only

theorem memAccess_only (dr : Nat) (s : State) : Only [.tap, .fns, .always, .err, .mem, .out, .free] s (memAccess dr s) := by
  unfold memAccess
  dsimp only
  split
  · exact upd_tap (.refl _ _) (by decide)
  · split
    · exact upd_tap (.refl _ _) (by decide)
    · split
      · exact upd_tap ((memPut_only ..).weaken (by decide)) (by decide)
      · exact upd_tap (Only.step ((memWord_only ..).weaken (by decide)) (countBad_only ..) (by decide)) (by decide)

theorem memBusy_only (s : State) : Only [.tap] s (memBusy s) := by
  unfold memBusy
  repeat' first
    | with_reducible exact Only.refl _ _
    | with_reducible assumption
    | decide
    | with_reducible apply each_only
    | intro _ _
    | intro _
    | split
    | with_reducible apply upd_tap
    | dsimp only

theorem regAccess_only (dr : Nat) (s : State) : Only [.boot, .lcy, .tap, .tapLatches, .weave, .hosts, .fns, .sess, .billing, .ports, .units, .parts, .xtrigOut, .slath, .hang, .wale, .always, .osier, .plait, .err, .mem, .out, .fires, .free] s (regAccess dr s) := by
  unfold regAccess
  dsimp only
  generalize (if bit dr 22 = true then _ else _ : Nat) = f
  split
  · exact upd_tap (.refl _ _) (by decide)
  · split
    · split
      · exact (writeReg_only ..).weaken (by decide)
      · exact upd_tap ((writeReg_only ..).weaken (by decide)) (by decide)
    · have h := readReg_only true f (dr % 2 ^ 16) s
      generalize readReg true f (dr % 2 ^ 16) s = r at h
      obtain ⟨v | v, t⟩ := r
      · exact upd_tap (Only.step (h.weaken (by decide)) (nextFree_only ..) (by decide)) (by decide)
      · exact upd_tap (h.weaken (by decide)) (by decide)

theorem regBusy_only (s : State) : Only [.tap] s (regBusy s) := by
  unfold regBusy
  repeat' first
    | with_reducible exact Only.refl _ _
    | with_reducible assumption
    | decide
    | with_reducible apply each_only
    | intro _ _
    | intro _
    | split
    | with_reducible apply upd_tap
    | dsimp only

theorem unlockVerdict_only (s : State) : Only [.lcy, .tap] s (unlockVerdict s) := by
  unfold unlockVerdict
  repeat' first
    | with_reducible exact Only.refl _ _
    | with_reducible assumption
    | decide
    | with_reducible apply each_only
    | intro _ _
    | intro _
    | split
    | with_reducible apply upd_lcy
    | with_reducible apply upd_tap
    | dsimp only

theorem spoilItem_only (word : Nat) (place : CreelPlace) (s : State) : Only [.units, .parts, .osier, .mem] s (spoilItem word place s) := by
  unfold spoilItem
  repeat' first
    | with_reducible exact Only.refl _ _
    | with_reducible assumption
    | decide
    | with_reducible apply Only.step ?_ (modPart_only ..) ?_
    | with_reducible apply Only.step ?_ (modUnit_only ..) ?_
    | with_reducible apply Only.step ?_ (modRun_only ..) ?_
    | with_reducible apply Only.step ?_ (spoilCoder_only ..) ?_
    | with_reducible apply Only.step ?_ (modCut_only ..) ?_
    | with_reducible apply Only.step ?_ (spoilQueue_only ..) ?_
    | with_reducible apply each_only
    | intro _ _
    | intro _
    | split
    | with_reducible apply upd_osier
    | with_reducible apply upd_mem
    | dsimp only

theorem takeInput_only (ns : Nat) (s : State) : Only [.free] s (takeInput ns s) := by
  unfold takeInput
  repeat' first
    | with_reducible exact Only.refl _ _
    | with_reducible assumption
    | decide
    | with_reducible apply Only.step ?_ (nextFree_only ..) ?_
    | with_reducible apply each_only
    | intro _ _
    | intro _
    | split
    | dsimp only

theorem tick_only (s : State) : Only [.now, .weave, .sess, .billing, .parts] s (tick s) := by
  unfold tick
  repeat' first
    | with_reducible exact Only.refl _ _
    | with_reducible assumption
    | decide
    | with_reducible apply Only.step ?_ (accrue_only ..) ?_
    | with_reducible apply Only.step ?_ (updateMeters_only ..) ?_
    | with_reducible apply Only.step ?_ (noteSettled_only ..) ?_
    | with_reducible apply each_only
    | intro _ _
    | intro _
    | split
    | with_reducible apply upd_now
    | dsimp only

theorem State.withFetchWord_only (s : State) (nbits : Nat) (w : Nat) : Only [.pending] s (State.withFetchWord s nbits w) := by
  unfold State.withFetchWord
  repeat' first
    | with_reducible exact Only.refl _ _
    | with_reducible assumption
    | decide
    | with_reducible apply each_only
    | intro _ _
    | intro _
    | split
    | with_reducible apply upd_pending
    | dsimp only
end Sys2Proof.Laws
end

