-- ==== Sys2Proof/Laws/Grows.lean ====
section
/-!
SUPPORT. What only grows: outputs, held completions, requests to the dies; a unit once UNRESPONSIVE stays so.
-/

namespace Sys2Proof.Laws
open Sys2Proof Sys2Proof.Machine
set_option linter.unusedTactic false
set_option linter.unreachableTactic false

/-- Every request that a link has open stays open with its message and its purpose. -/
def Asks (x y : Lnk) : Prop := ∀ r ∈ x.open_, ∃ r' ∈ y.open_, r'.msg = r.msg ∧ r'.who = r.who

theorem Asks.refl (x : Lnk) : Asks x x := fun r h => ⟨r, h, rfl, rfl⟩
theorem Asks.trans {x y z : Lnk} (h : Asks x y) (k : Asks y z) : Asks x z := fun r hr => by
  obtain ⟨r1, h1, h2, h3⟩ := h r hr
  obtain ⟨r2, k1, k2, k3⟩ := k r1 h1
  exact ⟨r2, k1, k2.trans h2, k3.trans h3⟩

/-- What a change of a function's rings leaves: completions held for D0 stay, and a tag without a command in flight gets
none. -/
structure Keeps1 (x y : FnSt) : Prop where
  held : x.held <+: y.held
  gone : ∀ tag, x.inflight.find? (fun c => c.tag == tag && !c.heldDup) = none →
    y.inflight.find? (fun c => c.tag == tag && !c.heldDup) = none

theorem Keeps1.refl (x : FnSt) : Keeps1 x x := ⟨List.prefix_rfl, fun _ h => h⟩
theorem Keeps1.trans {x y z : FnSt} (h : Keeps1 x y) (k : Keeps1 y z) : Keeps1 x z :=
  ⟨h.held.trans k.held, fun t e => k.gone t (h.gone t e)⟩

/-- What a change of a unit's record leaves: UNRESPONSIVE, and the halt record. -/
structure KeepsU (x y : UnitSt) : Prop where
  down : x.view = .unresponsive → y.view = .unresponsive
  record : y.record = x.record
theorem KeepsU.refl (x : UnitSt) : KeepsU x x := ⟨fun h => h, rfl⟩
theorem KeepsU.trans {x y z : UnitSt} (h : KeepsU x y) (k : KeepsU y z) : KeepsU x z :=
  ⟨fun e => k.down (h.down e), k.record.trans h.record⟩
/-- What no operation of a settling edge undoes: what the hub has driven, completions held for D0, a hold, the end of a
command, and a request handed to a port. -/
structure Grows (s t : State) : Prop where
  out : s.out <+: t.out
  fns : ∀ f, Keeps1 (s.fn f) (t.fn f)
  hold : ∀ p, (s.part p).held = true → (t.part p).held = true
  asks : ∀ n, n < 8 → Asks (s.lnk n) (t.lnk n)
  units : ∀ u, KeepsU (s.unit u) (t.unit u)

theorem Grows.refl (s : State) : Grows s s := ⟨List.prefix_rfl, fun _ => .refl _, fun _ h => h, fun _ _ => .refl _, fun _ => .refl _⟩
theorem Grows.trans {s t u : State} (h : Grows s t) (k : Grows t u) : Grows s u :=
  ⟨h.out.trans k.out, fun f => (h.fns f).trans (k.fns f), fun p e => k.hold p (h.hold p e),
   fun n e => (h.asks n e).trans (k.asks n e), fun u => (h.units u).trans (k.units u)⟩
/-- A change of other fields. -/
theorem Grows.of_eq {s t : State} (h1 : t.out = s.out) (h2 : t.fns = s.fns) (h3 : t.parts = s.parts)
    (h4 : t.ports = s.ports) (h5 : t.units = s.units) : Grows s t := by
  refine ⟨h1 ▸ List.prefix_rfl, fun f => ?_, fun p e => ?_, fun n e => ?_, fun u => ?_⟩
  · unfold State.fn; rw [h2]; exact .refl _
  · unfold State.part at *; rw [h3]; exact e
  · have : n ≠ 8 := by omega
    unfold State.lnk State.port; rw [if_neg this, if_neg this, h4]; exact .refl _
  · unfold State.unit; rw [h5]; exact .refl _
theorem Grows.emit {s t : State} (o : Out) (h1 : t.out = s.out ++ [o]) (h2 : t.fns = s.fns) (h3 : t.parts = s.parts)
    (h4 : t.ports = s.ports) (h5 : t.units = s.units) : Grows s t := by
  refine ⟨h1 ▸ List.prefix_append .., fun f => ?_, fun p e => ?_, fun n e => ?_, fun u => ?_⟩
  · unfold State.fn; rw [h2]; exact .refl _
  · unfold State.part at *; rw [h3]; exact e
  · have : n ≠ 8 := by omega
    unfold State.lnk State.port; rw [if_neg this, if_neg this, h4]; exact .refl _
  · unfold State.unit; rw [h5]; exact .refl _
theorem ite_grows (c : Prop) [Decidable c] {s a b : State} (ha : Grows s a) (hb : Grows s b) : Grows s (if c then a else b) := by
  split
  · exact ha
  · exact hb
theorem each_grows {α : Type} {l : List α} {g : α → State → State} {s0 s : State} (h : Grows s0 s) (k : ∀ a t, Grows t (g a t)) :
    Grows s0 (each l g s) := by
  refine h.trans ?_
  clear h
  unfold each
  induction l generalizing s with
  | nil => exact .refl _
  | cons a l ih => exact (k a s).trans ih
theorem foldl_apply_grows (l : List (State → State)) (s : State) (h : ∀ g ∈ l, ∀ t, Grows t (g t)) :
    Grows s (l.foldl (fun t g => g t) s) := by
  induction l generalizing s with
  | nil => exact .refl _
  | cons g l ih => exact (h g (.head _) s).trans (ih _ (fun g hg => h g (.tail _ hg)))
theorem emit_grows (o : Out) (s : State) : Grows s (Machine.emit o s) := .emit o rfl rfl rfl rfl rfl
theorem modFn_grows (f : Nat) (g : FnSt → FnSt) (s : State) (h : Keeps1 (s.fn f) (g (s.fn f))) : Grows s (modFn f g s) := by
  unfold modFn
  split
  · rename_i hf
    refine ⟨List.prefix_rfl, fun k => ?_, fun _ e => e, fun _ _ => .refl _, fun _ => .refl _⟩
    unfold State.fn at h ⊢
    rw [dif_pos hf] at h
    by_cases hk : k < 136
    · rw [dif_pos hk, dif_pos hk]
      show Keeps1 _ (Vector.set _ _ _ hf)[k]
      rw [Vector.getElem_set]
      split
      · subst_vars; exact h
      · exact .refl _
    · rw [dif_neg hk, dif_neg hk]; exact .refl _
  · exact .refl _
theorem modPart_grows (p : Nat) (g : PartSt → PartSt) (s : State) (h : (s.part p).held = true → (g (s.part p)).held = true) :
    Grows s (modPart p g s) := by
  unfold modPart
  split
  · rename_i hf
    refine ⟨List.prefix_rfl, fun _ => .refl _, fun k e => ?_, fun _ _ => .refl _, fun _ => .refl _⟩
    unfold State.part at h e ⊢
    rw [dif_pos hf] at h
    by_cases hk : k < 64
    · rw [dif_pos hk] at e ⊢
      show PartSt.held (Vector.set _ _ _ hf)[k] = true
      rw [Vector.getElem_set]
      split
      · subst_vars; exact h e
      · exact e
    · rw [dif_neg hk] at e ⊢; exact e
  · exact .refl _
theorem modPort_grows (n : Nat) (g : PortSt → PortSt) (s : State) (h : Asks (s.port n).lk (g (s.port n)).lk) :
    Grows s (modPort n g s) := by
  unfold modPort
  split
  · rename_i hf
    refine ⟨List.prefix_rfl, fun _ => .refl _, fun _ e => e, fun k e => ?_, fun _ => .refl _⟩
    have hk : k ≠ 8 := by omega
    unfold State.lnk
    rw [if_neg hk, if_neg hk]
    unfold State.port at h ⊢
    rw [dif_pos hf] at h
    rw [dif_pos e, dif_pos e]
    show Asks _ (PortSt.lk (Vector.set _ _ _ hf)[k])
    rw [Vector.getElem_set]
    split
    · subst_vars; exact h
    · exact .refl _
  · exact .refl _
theorem modLnk_grows (l : Nat) (g : Lnk → Lnk) (s : State) (h : l < 8 → Asks (s.lnk l) (g (s.lnk l))) :
    Grows s (modLnk l g s) := by
  unfold modLnk
  split
  · exact .of_eq rfl rfl rfl rfl rfl
  · rename_i hl
    unfold State.lnk at h
    rw [if_neg hl] at h
    by_cases h8 : l < 8
    · exact modPort_grows _ _ _ (h h8)
    · unfold modPort; rw [dif_neg h8]; exact .refl _
theorem modCmd_grows (f : Nat) (tag : W32) (g : Cmd → Cmd) (s : State)
    (h : ∀ c, (g c).tag = c.tag ∧ (g c).heldDup = c.heldDup) : Grows s (modCmd f tag g s) := by
  refine modFn_grows _ _ _ ⟨List.prefix_rfl, fun t e => ?_⟩
  rw [List.find?_eq_none] at e ⊢
  intro c hc
  obtain ⟨c', hc', rfl⟩ := List.mem_map.mp hc
  have := e c' hc'
  split
  · rw [(h c').1, (h c').2]; exact this
  · exact this
theorem mem_open (x : Lnk) (r : OutReq) : r ∈ x.open_ ↔
    ((r ∈ x.tx0.outst ∨ r ∈ x.tx0.waiting) ∨ (r ∈ x.tx1.outst ∨ r ∈ x.tx1.waiting)) ∨ r ∈ x.tx2.outst ∨ r ∈ x.tx2.waiting := by
  simp [Lnk.open_, or_assoc]
/-- A channel that keeps its requests. -/
def AsksCh (c d : TxChan) : Prop := ∀ r, (r ∈ c.outst ∨ r ∈ c.waiting) → ∃ r', (r' ∈ d.outst ∨ r' ∈ d.waiting) ∧ r'.msg = r.msg ∧ r'.who = r.who
theorem asks_setTx (x : Lnk) (ch : Nat) (c : TxChan) (h : AsksCh (x.tx ch) c) : Asks x (x.setTx ch c) := by
  intro r hr
  unfold Lnk.tx at h
  unfold Lnk.setTx
  rw [mem_open] at hr
  have keep : ∀ d : TxChan, AsksCh d d := fun d r hr => ⟨r, hr, rfl, rfl⟩
  by_cases h0 : ch = 0
  · rw [if_pos h0] at h ⊢
    rcases hr with (hr | hr) | hr
    · obtain ⟨r', a, b⟩ := h r hr; exact ⟨r', (mem_open ..).mpr (.inl (.inl a)), b⟩
    · exact ⟨r, (mem_open ..).mpr (.inl (.inr hr)), rfl, rfl⟩
    · exact ⟨r, (mem_open ..).mpr (.inr hr), rfl, rfl⟩
  · rw [if_neg h0] at h ⊢
    by_cases h1 : ch = 1
    · rw [if_pos h1] at h ⊢
      rcases hr with (hr | hr) | hr
      · exact ⟨r, (mem_open ..).mpr (.inl (.inl hr)), rfl, rfl⟩
      · obtain ⟨r', a, b⟩ := h r hr; exact ⟨r', (mem_open ..).mpr (.inl (.inr a)), b⟩
      · exact ⟨r, (mem_open ..).mpr (.inr hr), rfl, rfl⟩
    · rw [if_neg h1] at h ⊢
      rcases hr with (hr | hr) | hr
      · exact ⟨r, (mem_open ..).mpr (.inl (.inl hr)), rfl, rfl⟩
      · exact ⟨r, (mem_open ..).mpr (.inl (.inr hr)), rfl, rfl⟩
      · obtain ⟨r', a, b⟩ := h r hr; exact ⟨r', (mem_open ..).mpr (.inr a), b⟩
theorem asks_tx {x y : Lnk} {ch : Nat} {c : TxChan} (h0 : y.tx0 = x.tx0) (h1 : y.tx1 = x.tx1) (h2 : y.tx2 = x.tx2)
    (hc : AsksCh (x.tx ch) c) : Asks x (y.setTx ch c) := by
  have hy : Asks x y := fun r hr => by
    rw [mem_open] at hr
    refine ⟨r, ?_, rfl, rfl⟩
    rw [mem_open, h0, h1, h2]
    exact hr
  refine hy.trans (asks_setTx _ _ _ ?_)
  have : y.tx ch = x.tx ch := by unfold Lnk.tx; rw [h0, h1, h2]
  rw [this]
  exact hc
theorem asks_beginMsg (now : Nat) (c : TxChan) : AsksCh c (beginMsg true now c) := by
  intro r hr
  unfold beginMsg
  dsimp only
  split
  · rename_i q _ hw
    have hm : ∀ x, x ∈ c.waiting → x = q ∨ x ∈ c.waiting.eraseIdx (nextTurn c.lastFn (c.waiting.map fun r => r.who.owner)) := by
      intro x hx
      obtain ⟨k, hk, rfl⟩ := List.mem_iff_getElem.mp hx
      by_cases e : k = nextTurn c.lastFn (c.waiting.map fun r => r.who.owner)
      · rw [← e, List.getElem?_eq_getElem hk] at hw
        exact .inl (Option.some.inj hw)
      · exact .inr (List.mem_eraseIdx_iff_getElem.mpr ⟨k, hk, e, rfl⟩)
    rcases hr with hr | hr
    · exact ⟨r, .inl (by simp [hr]), rfl, rfl⟩
    · rcases hm r hr with rfl | hr
      · exact ⟨{ r with at_ := now }, .inl (by simp), rfl, rfl⟩
      · exact ⟨r, .inr hr, rfl, rfl⟩
  · exact ⟨r, hr, rfl, rfl⟩
theorem asks_sent (x : Lnk) (f : Flit) (now : Nat) : Asks x (x.sent f now) := by
  unfold Lnk.sent
  exact asks_tx rfl rfl rfl (fun r hr => ⟨r, hr, rfl, rfl⟩)
/-- A change of a link outside its channels. -/
theorem asks_of_tx {x y : Lnk} (h0 : y.tx0 = x.tx0) (h1 : y.tx1 = x.tx1) (h2 : y.tx2 = x.tx2) : Asks x y := fun r hr => by
  rw [mem_open] at hr
  exact ⟨r, (mem_open ..).mpr (by rw [h0, h1, h2]; exact hr), rfl, rfl⟩
theorem keepsU_halt (x : UnitSt) (v : View) (d : Nat) (h : x.view = .unresponsive → v = .unresponsive) :
    KeepsU x (if v == .halted then { x with view := v, haltDeadline := none, gatherBy := some d } else UnitSt.await d { x with view := v }) := by
  split <;> exact ⟨h, rfl⟩
theorem held_nextCut (x : PartSt) : x.nextCut.held = x.held := rfl
theorem held_addCut (c : Cut) (x : PartSt) : (x.addCut c).held = x.held := by unfold PartSt.addCut; split <;> rfl
theorem held_mapNewest (g : Cut → Cut) (x : PartSt) : (x.mapNewest g).held = x.held := by unfold PartSt.mapNewest; split <;> rfl
theorem held_trade (x : PartSt) : x.trade.held = x.held := by unfold PartSt.trade; split <;> rfl
/-- The fields of State that Grows reads. -/
def growFields : List Fld := [.out, .fns, .parts, .ports, .units]
theorem Grows.of_only {l : List Fld} {s t : State} (h : Only l s t) (k : growFields.all (fun f => !l.contains f) = true) :
    Grows s t := by
  have e : ∀ f ∈ growFields, f.same s t := fun f i => h.same f (by simpa using List.all_eq_true.mp k f i)
  exact .of_eq (e .out (by decide)) (e .fns (by decide)) (e .parts (by decide)) (e .ports (by decide)) (e .units (by decide))
theorem get?_set {α : Type} (l : List (Nat × α)) (x y : Nat) (v : α) :
    Tab.get? (Tab.set l x v) y = if y = x then some v else Tab.get? l y := by
  induction l with
  | nil =>
    simp only [Tab.set, Tab.get?]
    split
    · rfl
    · split <;> rfl
  | cons a l ih =>
    obtain ⟨k, w⟩ := a
    simp only [Tab.set]
    split
    · simp only [Tab.get?]
      split
      · rfl
      · repeat' split
        all_goals first | rfl | omega
    · split
      · simp only [Tab.get?]
        repeat' split
        all_goals first | rfl | omega
      · simp only [Tab.get?, ih]
        repeat' split
        all_goals first | rfl | omega
theorem unit_modUnit (u : Nat) (g : UnitSt → UnitSt) (s : State) : (modUnit u g s).unit u = g (s.unit u) := by
  unfold modUnit State.unit Tab.getD
  dsimp only
  rw [get?_set, if_pos rfl]
  rfl
theorem unit_modUnit_ne (u k : Nat) (g : UnitSt → UnitSt) (s : State) (h : k ≠ u) : (modUnit u g s).unit k = s.unit k := by
  unfold modUnit State.unit Tab.getD
  dsimp only
  rw [get?_set, if_neg h]
theorem modUnit_grows (u : Nat) (g : UnitSt → UnitSt) (s : State)
    (h : KeepsU (s.unit u) (g (s.unit u))) : Grows s (modUnit u g s) := by
  refine ⟨List.prefix_rfl, fun _ => .refl _, fun _ e => e, fun _ _ => .refl _, fun k => ?_⟩
  by_cases hk : k = u
  · subst hk; rw [unit_modUnit]; exact h
  · rw [unit_modUnit_ne _ _ _ _ hk]; exact .refl _


theorem Grows_upd_slath {s x : State} {v_slath} (h : Grows s x) :
    Grows s (State.mk x.pending x.now x.id x.pins x.clk x.straps x.boot x.lcy x.tap x.tapLatches x.weave x.hosts x.fns x.sess x.billing x.ports x.units x.parts x.xtrigOut v_slath x.hang x.wale x.always x.osier x.plait x.err x.mem x.out x.fires x.free) :=
  h.trans (.of_eq rfl rfl rfl rfl rfl)

theorem Grows_upd_err {s x : State} {v_err} (h : Grows s x) :
    Grows s (State.mk x.pending x.now x.id x.pins x.clk x.straps x.boot x.lcy x.tap x.tapLatches x.weave x.hosts x.fns x.sess x.billing x.ports x.units x.parts x.xtrigOut x.slath x.hang x.wale x.always x.osier x.plait v_err x.mem x.out x.fires x.free) :=
  h.trans (.of_eq rfl rfl rfl rfl rfl)

theorem Grows_upd_fires {s x : State} {v_fires} (h : Grows s x) :
    Grows s (State.mk x.pending x.now x.id x.pins x.clk x.straps x.boot x.lcy x.tap x.tapLatches x.weave x.hosts x.fns x.sess x.billing x.ports x.units x.parts x.xtrigOut x.slath x.hang x.wale x.always x.osier x.plait x.err x.mem x.out v_fires x.free) :=
  h.trans (.of_eq rfl rfl rfl rfl rfl)

theorem hostWrite_grows (port : Nat) (addr : Nat) (data : List Byte) (s : State) : Grows s (hostWrite port addr data s) := by
  unfold hostWrite
  repeat' first
    | with_reducible exact Grows.refl _
    | with_reducible assumption
    | with_reducible refine Grows.trans ?_ (emit_grows ..)
    | with_reducible refine Grows.trans ?_ (.of_only (bumpAlways_only ..) (by decide))
    | with_reducible refine each_grows ?_ ?_
    | with_reducible exact KeepsU.refl _
    | with_reducible exact ⟨fun _ => rfl, rfl⟩
    | exact Asks.refl _
    | exact fun _ => Asks.refl _
    | exact (fun h => (held_nextCut ..).trans h)
    | with_reducible exact Keeps1.refl _
    | with_reducible exact Keeps1.mk List.prefix_rfl (fun _ h => h)
    | with_reducible exact Keeps1.mk (List.prefix_append _ _) (fun _ h => h)
    | with_reducible exact (id : PartSt.held _ = true → PartSt.held _ = true)
    | with_reducible exact fun _ => ⟨rfl, rfl⟩
    | exact fun _ => asks_of_tx rfl rfl rfl
    | with_reducible exact asks_of_tx rfl rfl rfl
    | with_reducible exact (fun h => (held_addCut ..).trans h)
    | with_reducible exact (fun h => (held_mapNewest ..).trans h)
    | with_reducible exact (fun h => (held_trade ..).trans h)
    | with_reducible exact (fun h => h)
    | with_reducible exact (fun _ => rfl)
    | intro _ _
    | split
    | dsimp only

theorem signal_grows (f : Nat) (v : Nat) (s : State) : Grows s (signal f v s) := by
  unfold signal
  repeat' first
    | with_reducible exact Grows.refl _
    | with_reducible assumption
    | with_reducible refine Grows.trans ?_ (modFn_grows _ _ _ ?_)
    | with_reducible refine Grows.trans ?_ (emit_grows ..)
    | with_reducible refine Grows.trans ?_ (.of_only (bumpAlways_only ..) (by decide))
    | with_reducible refine each_grows ?_ ?_
    | with_reducible exact KeepsU.refl _
    | with_reducible exact ⟨fun _ => rfl, rfl⟩
    | exact Asks.refl _
    | exact fun _ => Asks.refl _
    | exact (fun h => (held_nextCut ..).trans h)
    | with_reducible exact Keeps1.refl _
    | with_reducible exact Keeps1.mk List.prefix_rfl (fun _ h => h)
    | with_reducible exact Keeps1.mk (List.prefix_append _ _) (fun _ h => h)
    | with_reducible exact (id : PartSt.held _ = true → PartSt.held _ = true)
    | with_reducible exact fun _ => ⟨rfl, rfl⟩
    | exact fun _ => asks_of_tx rfl rfl rfl
    | with_reducible exact asks_of_tx rfl rfl rfl
    | with_reducible exact (fun h => (held_addCut ..).trans h)
    | with_reducible exact (fun h => (held_mapNewest ..).trans h)
    | with_reducible exact (fun h => (held_trade ..).trans h)
    | with_reducible exact (fun h => h)
    | with_reducible exact (fun _ => rfl)
    | intro _ _
    | split
    | dsimp only

theorem signalPfs_grows (v : Nat) (s : State) : Grows s (signalPfs v s) := by
  unfold signalPfs
  repeat' first
    | with_reducible exact Grows.refl _
    | with_reducible assumption
    | with_reducible refine Grows.trans ?_ (signal_grows ..)
    | with_reducible refine each_grows ?_ ?_
    | with_reducible exact KeepsU.refl _
    | with_reducible exact ⟨fun _ => rfl, rfl⟩
    | exact Asks.refl _
    | exact fun _ => Asks.refl _
    | exact (fun h => (held_nextCut ..).trans h)
    | with_reducible exact Keeps1.refl _
    | with_reducible exact Keeps1.mk List.prefix_rfl (fun _ h => h)
    | with_reducible exact Keeps1.mk (List.prefix_append _ _) (fun _ h => h)
    | with_reducible exact (id : PartSt.held _ = true → PartSt.held _ = true)
    | with_reducible exact fun _ => ⟨rfl, rfl⟩
    | exact fun _ => asks_of_tx rfl rfl rfl
    | with_reducible exact asks_of_tx rfl rfl rfl
    | with_reducible exact (fun h => (held_addCut ..).trans h)
    | with_reducible exact (fun h => (held_mapNewest ..).trans h)
    | with_reducible exact (fun h => (held_trade ..).trans h)
    | with_reducible exact (fun h => h)
    | with_reducible exact (fun _ => rfl)
    | intro _ _
    | split
    | dsimp only

theorem setEvent_grows (f : Nat) (bit : Nat) (s : State) : Grows s (setEvent f bit s) := by
  unfold setEvent
  repeat' first
    | with_reducible exact Grows.refl _
    | with_reducible assumption
    | with_reducible refine Grows.trans ?_ (modFn_grows _ _ _ ?_)
    | with_reducible refine Grows.trans ?_ (signal_grows ..)
    | with_reducible refine each_grows ?_ ?_
    | with_reducible exact KeepsU.refl _
    | with_reducible exact ⟨fun _ => rfl, rfl⟩
    | exact Asks.refl _
    | exact fun _ => Asks.refl _
    | exact (fun h => (held_nextCut ..).trans h)
    | with_reducible exact Keeps1.refl _
    | with_reducible exact Keeps1.mk List.prefix_rfl (fun _ h => h)
    | with_reducible exact Keeps1.mk (List.prefix_append _ _) (fun _ h => h)
    | with_reducible exact (id : PartSt.held _ = true → PartSt.held _ = true)
    | with_reducible exact fun _ => ⟨rfl, rfl⟩
    | exact fun _ => asks_of_tx rfl rfl rfl
    | with_reducible exact asks_of_tx rfl rfl rfl
    | with_reducible exact (fun h => (held_addCut ..).trans h)
    | with_reducible exact (fun h => (held_mapNewest ..).trans h)
    | with_reducible exact (fun h => (held_trade ..).trans h)
    | with_reducible exact (fun h => h)
    | with_reducible exact (fun _ => rfl)
    | intro _ _
    | split
    | dsimp only

theorem errBit_grows (cls : Nat) (s : State) : Grows s (errBit cls s) := by
  unfold errBit
  repeat' first
    | with_reducible exact Grows.refl _
    | with_reducible assumption
    | with_reducible refine Grows.trans ?_ (signalPfs_grows ..)
    | with_reducible refine each_grows ?_ ?_
    | with_reducible exact KeepsU.refl _
    | with_reducible exact ⟨fun _ => rfl, rfl⟩
    | exact Asks.refl _
    | exact fun _ => Asks.refl _
    | exact (fun h => (held_nextCut ..).trans h)
    | with_reducible exact Keeps1.refl _
    | with_reducible exact Keeps1.mk List.prefix_rfl (fun _ h => h)
    | with_reducible exact Keeps1.mk (List.prefix_append _ _) (fun _ h => h)
    | with_reducible exact (id : PartSt.held _ = true → PartSt.held _ = true)
    | with_reducible exact fun _ => ⟨rfl, rfl⟩
    | exact fun _ => asks_of_tx rfl rfl rfl
    | with_reducible exact asks_of_tx rfl rfl rfl
    | with_reducible exact (fun h => (held_addCut ..).trans h)
    | with_reducible exact (fun h => (held_mapNewest ..).trans h)
    | with_reducible exact (fun h => (held_trade ..).trans h)
    | with_reducible exact (fun h => h)
    | with_reducible exact (fun _ => rfl)
    | intro _ _
    | split
    | with_reducible refine Grows_upd_err ?_
    | dsimp only

theorem raiseErr_grows (cls : Nat) (scope : Nat) (inst : Nat) (addr : Nat) (detail : Nat) (action : Nat) (s : State) : Grows s (raiseErr cls scope inst addr detail action s) := by
  unfold raiseErr
  repeat' first
    | with_reducible exact Grows.refl _
    | with_reducible assumption
    | with_reducible refine Grows.trans ?_ (errBit_grows ..)
    | with_reducible refine Grows.trans ?_ (.of_only (errLog_only ..) (by decide))
    | with_reducible refine each_grows ?_ ?_
    | with_reducible exact KeepsU.refl _
    | with_reducible exact ⟨fun _ => rfl, rfl⟩
    | exact Asks.refl _
    | exact fun _ => Asks.refl _
    | exact (fun h => (held_nextCut ..).trans h)
    | with_reducible exact Keeps1.refl _
    | with_reducible exact Keeps1.mk List.prefix_rfl (fun _ h => h)
    | with_reducible exact Keeps1.mk (List.prefix_append _ _) (fun _ h => h)
    | with_reducible exact (id : PartSt.held _ = true → PartSt.held _ = true)
    | with_reducible exact fun _ => ⟨rfl, rfl⟩
    | exact fun _ => asks_of_tx rfl rfl rfl
    | with_reducible exact asks_of_tx rfl rfl rfl
    | with_reducible exact (fun h => (held_addCut ..).trans h)
    | with_reducible exact (fun h => (held_mapNewest ..).trans h)
    | with_reducible exact (fun h => (held_trade ..).trans h)
    | with_reducible exact (fun h => h)
    | with_reducible exact (fun _ => rfl)
    | intro _ _
    | split
    | dsimp only

theorem correctedWord_grows (dram : Bool) (s : State) : Grows s (correctedWord dram s) := by
  unfold correctedWord
  repeat' first
    | with_reducible exact Grows.refl _
    | with_reducible assumption
    | with_reducible refine Grows.trans ?_ (.of_only (bumpAlways_only ..) (by decide))
    | with_reducible refine Grows.trans ?_ (errBit_grows ..)
    | with_reducible refine each_grows ?_ ?_
    | with_reducible exact KeepsU.refl _
    | with_reducible exact ⟨fun _ => rfl, rfl⟩
    | exact Asks.refl _
    | exact fun _ => Asks.refl _
    | exact (fun h => (held_nextCut ..).trans h)
    | with_reducible exact Keeps1.refl _
    | with_reducible exact Keeps1.mk List.prefix_rfl (fun _ h => h)
    | with_reducible exact Keeps1.mk (List.prefix_append _ _) (fun _ h => h)
    | with_reducible exact (id : PartSt.held _ = true → PartSt.held _ = true)
    | with_reducible exact fun _ => ⟨rfl, rfl⟩
    | exact fun _ => asks_of_tx rfl rfl rfl
    | with_reducible exact asks_of_tx rfl rfl rfl
    | with_reducible exact (fun h => (held_addCut ..).trans h)
    | with_reducible exact (fun h => (held_mapNewest ..).trans h)
    | with_reducible exact (fun h => (held_trade ..).trans h)
    | with_reducible exact (fun h => h)
    | with_reducible exact (fun _ => rfl)
    | intro _ _
    | split
    | dsimp only

theorem uncorrectableWord_grows (dram : Bool) (scope : Nat) (inst : Nat) (addr : Nat) (detail : Nat) (action : Nat) (s : State) : Grows s (uncorrectableWord dram scope inst addr detail action s) := by
  unfold uncorrectableWord
  repeat' first
    | with_reducible exact Grows.refl _
    | with_reducible assumption
    | with_reducible refine Grows.trans ?_ (.of_only (bumpAlways_only ..) (by decide))
    | with_reducible refine Grows.trans ?_ (raiseErr_grows ..)
    | with_reducible refine each_grows ?_ ?_
    | with_reducible exact KeepsU.refl _
    | with_reducible exact ⟨fun _ => rfl, rfl⟩
    | exact Asks.refl _
    | exact fun _ => Asks.refl _
    | exact (fun h => (held_nextCut ..).trans h)
    | with_reducible exact Keeps1.refl _
    | with_reducible exact Keeps1.mk List.prefix_rfl (fun _ h => h)
    | with_reducible exact Keeps1.mk (List.prefix_append _ _) (fun _ h => h)
    | with_reducible exact (id : PartSt.held _ = true → PartSt.held _ = true)
    | with_reducible exact fun _ => ⟨rfl, rfl⟩
    | exact fun _ => asks_of_tx rfl rfl rfl
    | with_reducible exact asks_of_tx rfl rfl rfl
    | with_reducible exact (fun h => (held_addCut ..).trans h)
    | with_reducible exact (fun h => (held_mapNewest ..).trans h)
    | with_reducible exact (fun h => (held_trade ..).trans h)
    | with_reducible exact (fun h => h)
    | with_reducible exact (fun _ => rfl)
    | intro _ _
    | split
    | dsimp only

theorem uncorrectableItem_grows (dram : Bool) (scope : Nat) (inst : Nat) (detail : Nat) (action : Nat) (s : State) : Grows s (uncorrectableItem dram scope inst detail action s) := by
  unfold uncorrectableItem
  repeat' first
    | with_reducible exact Grows.refl _
    | with_reducible assumption
    | with_reducible refine Grows.trans ?_ (.of_only (nextFree_only ..) (by decide))
    | with_reducible refine Grows.trans ?_ (uncorrectableWord_grows ..)
    | with_reducible refine each_grows ?_ ?_
    | with_reducible exact KeepsU.refl _
    | with_reducible exact ⟨fun _ => rfl, rfl⟩
    | exact Asks.refl _
    | exact fun _ => Asks.refl _
    | exact (fun h => (held_nextCut ..).trans h)
    | with_reducible exact Keeps1.refl _
    | with_reducible exact Keeps1.mk List.prefix_rfl (fun _ h => h)
    | with_reducible exact Keeps1.mk (List.prefix_append _ _) (fun _ h => h)
    | with_reducible exact (id : PartSt.held _ = true → PartSt.held _ = true)
    | with_reducible exact fun _ => ⟨rfl, rfl⟩
    | exact fun _ => asks_of_tx rfl rfl rfl
    | with_reducible exact asks_of_tx rfl rfl rfl
    | with_reducible exact (fun h => (held_addCut ..).trans h)
    | with_reducible exact (fun h => (held_mapNewest ..).trans h)
    | with_reducible exact (fun h => (held_trade ..).trans h)
    | with_reducible exact (fun h => h)
    | with_reducible exact (fun _ => rfl)
    | intro _ _
    | split
    | dsimp only

theorem modWork_grows (f : Nat) (tag : W32) (g : Work → Work) (s : State) : Grows s (modWork f tag g s) := by
  unfold modWork
  repeat' first
    | with_reducible exact Grows.refl _
    | with_reducible assumption
    | with_reducible refine Grows.trans ?_ (modCmd_grows _ _ _ _ ?_)
    | with_reducible refine each_grows ?_ ?_
    | with_reducible exact KeepsU.refl _
    | with_reducible exact ⟨fun _ => rfl, rfl⟩
    | exact Asks.refl _
    | exact fun _ => Asks.refl _
    | exact (fun h => (held_nextCut ..).trans h)
    | with_reducible exact Keeps1.refl _
    | with_reducible exact Keeps1.mk List.prefix_rfl (fun _ h => h)
    | with_reducible exact Keeps1.mk (List.prefix_append _ _) (fun _ h => h)
    | with_reducible exact (id : PartSt.held _ = true → PartSt.held _ = true)
    | with_reducible exact fun _ => ⟨rfl, rfl⟩
    | exact fun _ => asks_of_tx rfl rfl rfl
    | with_reducible exact asks_of_tx rfl rfl rfl
    | with_reducible exact (fun h => (held_addCut ..).trans h)
    | with_reducible exact (fun h => (held_mapNewest ..).trans h)
    | with_reducible exact (fun h => (held_trade ..).trans h)
    | with_reducible exact (fun h => h)
    | with_reducible exact (fun _ => rfl)
    | intro _ _
    | split
    | dsimp only

theorem coalesce_grows (f : Nat) (irqNow : Bool) (s : State) : Grows s (coalesce f irqNow s) := by
  unfold coalesce
  repeat' first
    | with_reducible exact Grows.refl _
    | with_reducible assumption
    | with_reducible refine Grows.trans ?_ (modFn_grows _ _ _ ?_)
    | with_reducible refine Grows.trans ?_ (signal_grows ..)
    | with_reducible refine each_grows ?_ ?_
    | with_reducible exact KeepsU.refl _
    | with_reducible exact ⟨fun _ => rfl, rfl⟩
    | exact Asks.refl _
    | exact fun _ => Asks.refl _
    | exact (fun h => (held_nextCut ..).trans h)
    | with_reducible exact Keeps1.refl _
    | with_reducible exact Keeps1.mk List.prefix_rfl (fun _ h => h)
    | with_reducible exact Keeps1.mk (List.prefix_append _ _) (fun _ h => h)
    | with_reducible exact (id : PartSt.held _ = true → PartSt.held _ = true)
    | with_reducible exact fun _ => ⟨rfl, rfl⟩
    | exact fun _ => asks_of_tx rfl rfl rfl
    | with_reducible exact asks_of_tx rfl rfl rfl
    | with_reducible exact (fun h => (held_addCut ..).trans h)
    | with_reducible exact (fun h => (held_mapNewest ..).trans h)
    | with_reducible exact (fun h => (held_trade ..).trans h)
    | with_reducible exact (fun h => h)
    | with_reducible exact (fun _ => rfl)
    | intro _ _
    | split
    | dsimp only

theorem writeCpl_grows (f : Nat) (c : Cpl) (irqNow : Bool) (s : State) : Grows s (writeCpl f c irqNow s) := by
  unfold writeCpl
  repeat' first
    | with_reducible exact Grows.refl _
    | with_reducible assumption
    | with_reducible refine Grows.trans ?_ (modFn_grows _ _ _ ?_)
    | with_reducible refine Grows.trans ?_ (hostWrite_grows ..)
    | with_reducible refine Grows.trans ?_ (coalesce_grows ..)
    | with_reducible refine each_grows ?_ ?_
    | with_reducible exact KeepsU.refl _
    | with_reducible exact ⟨fun _ => rfl, rfl⟩
    | exact Asks.refl _
    | exact fun _ => Asks.refl _
    | exact (fun h => (held_nextCut ..).trans h)
    | with_reducible exact Keeps1.refl _
    | with_reducible exact Keeps1.mk List.prefix_rfl (fun _ h => h)
    | with_reducible exact Keeps1.mk (List.prefix_append _ _) (fun _ h => h)
    | with_reducible exact (id : PartSt.held _ = true → PartSt.held _ = true)
    | with_reducible exact fun _ => ⟨rfl, rfl⟩
    | exact fun _ => asks_of_tx rfl rfl rfl
    | with_reducible exact asks_of_tx rfl rfl rfl
    | with_reducible exact (fun h => (held_addCut ..).trans h)
    | with_reducible exact (fun h => (held_mapNewest ..).trans h)
    | with_reducible exact (fun h => (held_trade ..).trans h)
    | with_reducible exact (fun h => h)
    | with_reducible exact (fun _ => rfl)
    | intro _ _
    | split
    | dsimp only

theorem deliverCpl_grows (f : Nat) (c : Cpl) (irqNow : Bool) (s : State) : Grows s (deliverCpl f c irqNow s) := by
  unfold deliverCpl
  repeat' first
    | with_reducible exact Grows.refl _
    | with_reducible assumption
    | with_reducible refine Grows.trans ?_ (modFn_grows _ _ _ ?_)
    | with_reducible refine Grows.trans ?_ (writeCpl_grows ..)
    | with_reducible refine each_grows ?_ ?_
    | with_reducible exact KeepsU.refl _
    | with_reducible exact ⟨fun _ => rfl, rfl⟩
    | exact Asks.refl _
    | exact fun _ => Asks.refl _
    | exact (fun h => (held_nextCut ..).trans h)
    | with_reducible exact Keeps1.refl _
    | with_reducible exact Keeps1.mk List.prefix_rfl (fun _ h => h)
    | with_reducible exact Keeps1.mk (List.prefix_append _ _) (fun _ h => h)
    | with_reducible exact (id : PartSt.held _ = true → PartSt.held _ = true)
    | with_reducible exact fun _ => ⟨rfl, rfl⟩
    | exact fun _ => asks_of_tx rfl rfl rfl
    | with_reducible exact asks_of_tx rfl rfl rfl
    | with_reducible exact (fun h => (held_addCut ..).trans h)
    | with_reducible exact (fun h => (held_mapNewest ..).trans h)
    | with_reducible exact (fun h => (held_trade ..).trans h)
    | with_reducible exact (fun h => h)
    | with_reducible exact (fun _ => rfl)
    | intro _ _
    | split
    | dsimp only

theorem completeOne_grows (f : Nat) (tag : W32) (r : Res) (s : State) : Grows s (completeOne f tag r s) := by
  have gone : ∀ (x : FnSt) (l : List Cmd) (w : List Cpl), l.Sublist x.inflight → Keeps1 x { x with inflight := l, window := w } :=
    fun x l w h => ⟨List.prefix_rfl, fun t e => by
      rw [List.find?_eq_none] at e ⊢
      exact fun c hc => e c (h.subset hc)⟩
  unfold completeOne
  split
  · exact .refl _
  · dsimp only
    split
    · exact modFn_grows _ _ _ (gone _ _ _ List.filter_sublist)
    · refine each_grows ?_ fun _ _ => deliverCpl_grows ..
      exact (modFn_grows _ _ _ (gone _ _ _ List.filter_sublist)).trans (deliverCpl_grows ..)

theorem complete_grows (f : Nat) (tag : W32) (r : Res) (s : State) : Grows s (complete f tag r s) := completeOne_grows ..

theorem addCounter_grows (p : Nat) (k : Nat) (n : Nat) (s : State) : Grows s (addCounter p k n s) := by
  unfold addCounter
  repeat' first
    | with_reducible exact Grows.refl _
    | with_reducible assumption
    | with_reducible refine Grows.trans ?_ (modPart_grows _ _ _ ?_)
    | with_reducible refine each_grows ?_ ?_
    | with_reducible exact KeepsU.refl _
    | with_reducible exact ⟨fun _ => rfl, rfl⟩
    | exact Asks.refl _
    | exact fun _ => Asks.refl _
    | exact (fun h => (held_nextCut ..).trans h)
    | with_reducible exact Keeps1.refl _
    | with_reducible exact Keeps1.mk List.prefix_rfl (fun _ h => h)
    | with_reducible exact Keeps1.mk (List.prefix_append _ _) (fun _ h => h)
    | with_reducible exact (id : PartSt.held _ = true → PartSt.held _ = true)
    | with_reducible exact fun _ => ⟨rfl, rfl⟩
    | exact fun _ => asks_of_tx rfl rfl rfl
    | with_reducible exact asks_of_tx rfl rfl rfl
    | with_reducible exact (fun h => (held_addCut ..).trans h)
    | with_reducible exact (fun h => (held_mapNewest ..).trans h)
    | with_reducible exact (fun h => (held_trade ..).trans h)
    | with_reducible exact (fun h => h)
    | with_reducible exact (fun _ => rfl)
    | intro _ _
    | split
    | dsimp only

theorem hubEvent_grows (p code n : Nat) (s : State) : Grows s (hubEvent p code n s) :=
  (Grows.trans (each_grows (.refl _) fun _ _ => addCounter_grows ..) (each_grows (.refl _) fun _ _ => .of_only (fire_only ..) (by decide)))

theorem spendCreel_grows (s : State) : Grows s (spendCreel s) := by
  unfold spendCreel
  repeat' first
    | with_reducible exact Grows.refl _
    | with_reducible assumption
    | with_reducible refine Grows.trans ?_ (.of_only (nextFree_only ..) (by decide))
    | with_reducible refine Grows.trans ?_ (correctedWord_grows ..)
    | with_reducible refine Grows.trans ?_ (.of_only (spendInjection_only ..) (by decide))
    | with_reducible refine each_grows ?_ ?_
    | with_reducible exact KeepsU.refl _
    | with_reducible exact ⟨fun _ => rfl, rfl⟩
    | exact Asks.refl _
    | exact fun _ => Asks.refl _
    | exact (fun h => (held_nextCut ..).trans h)
    | with_reducible exact Keeps1.refl _
    | with_reducible exact Keeps1.mk List.prefix_rfl (fun _ h => h)
    | with_reducible exact Keeps1.mk (List.prefix_append _ _) (fun _ h => h)
    | with_reducible exact (id : PartSt.held _ = true → PartSt.held _ = true)
    | with_reducible exact fun _ => ⟨rfl, rfl⟩
    | exact fun _ => asks_of_tx rfl rfl rfl
    | with_reducible exact asks_of_tx rfl rfl rfl
    | with_reducible exact (fun h => (held_addCut ..).trans h)
    | with_reducible exact (fun h => (held_mapNewest ..).trans h)
    | with_reducible exact (fun h => (held_trade ..).trans h)
    | with_reducible exact (fun h => h)
    | with_reducible exact (fun _ => rfl)
    | intro _ _
    | split
    | dsimp only

theorem takeBlock_grows {s t : State} (h : takeBlock s = some t) : Grows s t := by
  unfold takeBlock at h
  by_cases c : (if s.stopWhenFull then 64 - s.reservesUsed else 0) < s.blocksFree
  · rw [if_pos c] at h
    rw [← Option.some.inj h]
    exact .refl _
  · rw [if_neg c] at h
    split at h
    · cases h
    · obtain ⟨⟨p, b⟩, -, h⟩ := Option.map_eq_some_iff.mp h
      rw [← h]
      exact modPart_grows _ _ _ (fun h => h)

theorem putOpen_grows (p : Nat) (s : State) : Grows s (putOpen p s) := by
  unfold putOpen
  repeat' first
    | with_reducible exact Grows.refl _
    | with_reducible assumption
    | with_reducible refine Grows.trans ?_ (modPart_grows _ _ _ ?_)
    | with_reducible refine Grows.trans ?_ (.of_only (spendDram_only ..) (by decide))
    | with_reducible refine Grows.trans ?_ (.of_only (queueBlock_only ..) (by decide))
    | with_reducible refine each_grows ?_ ?_
    | with_reducible exact KeepsU.refl _
    | with_reducible exact ⟨fun _ => rfl, rfl⟩
    | exact Asks.refl _
    | exact fun _ => Asks.refl _
    | exact (fun h => (held_nextCut ..).trans h)
    | with_reducible exact Keeps1.refl _
    | with_reducible exact Keeps1.mk List.prefix_rfl (fun _ h => h)
    | with_reducible exact Keeps1.mk (List.prefix_append _ _) (fun _ h => h)
    | with_reducible exact (id : PartSt.held _ = true → PartSt.held _ = true)
    | with_reducible exact fun _ => ⟨rfl, rfl⟩
    | exact fun _ => asks_of_tx rfl rfl rfl
    | with_reducible exact asks_of_tx rfl rfl rfl
    | with_reducible exact (fun h => (held_addCut ..).trans h)
    | with_reducible exact (fun h => (held_mapNewest ..).trans h)
    | with_reducible exact (fun h => (held_trade ..).trans h)
    | with_reducible exact (fun h => h)
    | with_reducible exact (fun _ => rfl)
    | intro _ _
    | split
    | dsimp only

theorem commitBlock_grows {p : Nat} {s t : State} (h : commitBlock p s = some t) : Grows s t := by
  unfold commitBlock at h
  split at h
  · cases h; exact .refl _
  · split at h
    · obtain ⟨u, hu, rfl⟩ := Option.map_eq_some_iff.mp h
      exact (takeBlock_grows hu).trans (putOpen_grows ..)
    · cases h

theorem intoBlock_grows (r : TraceRec) (s : State) : Grows s (intoBlock r s) := by
  unfold intoBlock
  refine modPart_grows _ _ _ fun h => ?_
  split <;> exact h

theorem storeDram_grows {r : TraceRec} {s t : State} (h : storeDram r s = some t) : Grows s t := by
  unfold storeDram at h
  split at h
  · cases h
  · split at h
    · split at h
      · cases h; exact intoBlock_grows ..
      · obtain ⟨u, hu, rfl⟩ := Option.map_eq_some_iff.mp h
        exact (commitBlock_grows hu).trans (intoBlock_grows ..)
    · cases h; exact intoBlock_grows ..

theorem dropPort_grows (cause : Nat) (r : TraceRec) (s : State) : Grows s (dropPort cause r s) := by
  unfold dropPort
  repeat' first
    | with_reducible exact Grows.refl _
    | with_reducible assumption
    | with_reducible refine Grows.trans ?_ (modPart_grows _ _ _ ?_)
    | with_reducible refine Grows.trans ?_ (.of_only (bumpAlways_only ..) (by decide))
    | with_reducible refine each_grows ?_ ?_
    | with_reducible exact KeepsU.refl _
    | with_reducible exact ⟨fun _ => rfl, rfl⟩
    | exact Asks.refl _
    | exact fun _ => Asks.refl _
    | exact (fun h => (held_nextCut ..).trans h)
    | with_reducible exact Keeps1.refl _
    | with_reducible exact Keeps1.mk List.prefix_rfl (fun _ h => h)
    | with_reducible exact Keeps1.mk (List.prefix_append _ _) (fun _ h => h)
    | with_reducible exact (id : PartSt.held _ = true → PartSt.held _ = true)
    | with_reducible exact fun _ => ⟨rfl, rfl⟩
    | exact fun _ => asks_of_tx rfl rfl rfl
    | with_reducible exact asks_of_tx rfl rfl rfl
    | with_reducible exact (fun h => (held_addCut ..).trans h)
    | with_reducible exact (fun h => (held_mapNewest ..).trans h)
    | with_reducible exact (fun h => (held_trade ..).trans h)
    | with_reducible exact (fun h => h)
    | with_reducible exact (fun _ => rfl)
    | intro _ _
    | split
    | dsimp only

theorem openReserve_grows (p : Nat) (g : Gap) (s : State) : Grows s (openReserve p g s) := by
  unfold openReserve
  repeat' first
    | with_reducible exact Grows.refl _
    | with_reducible assumption
    | with_reducible refine Grows.trans ?_ (modPart_grows _ _ _ ?_)
    | with_reducible refine each_grows ?_ ?_
    | with_reducible exact KeepsU.refl _
    | with_reducible exact ⟨fun _ => rfl, rfl⟩
    | exact Asks.refl _
    | exact fun _ => Asks.refl _
    | exact (fun h => (held_nextCut ..).trans h)
    | with_reducible exact Keeps1.refl _
    | with_reducible exact Keeps1.mk List.prefix_rfl (fun _ h => h)
    | with_reducible exact Keeps1.mk (List.prefix_append _ _) (fun _ h => h)
    | with_reducible exact (id : PartSt.held _ = true → PartSt.held _ = true)
    | with_reducible exact fun _ => ⟨rfl, rfl⟩
    | exact fun _ => asks_of_tx rfl rfl rfl
    | with_reducible exact asks_of_tx rfl rfl rfl
    | with_reducible exact (fun h => (held_addCut ..).trans h)
    | with_reducible exact (fun h => (held_mapNewest ..).trans h)
    | with_reducible exact (fun h => (held_trade ..).trans h)
    | with_reducible exact (fun h => h)
    | with_reducible exact (fun _ => rfl)
    | intro _ _
    | split
    | dsimp only

theorem dropDram_grows (cause : Nat) (r : TraceRec) (s : State) : Grows s (dropDram cause r s) := by
  unfold dropDram
  repeat' first
    | with_reducible exact Grows.refl _
    | with_reducible assumption
    | with_reducible refine Grows.trans ?_ (modPart_grows _ _ _ ?_)
    | with_reducible refine Grows.trans ?_ (.of_only (bumpAlways_only ..) (by decide))
    | with_reducible refine Grows.trans ?_ (openReserve_grows ..)
    | with_reducible refine each_grows ?_ ?_
    | with_reducible exact KeepsU.refl _
    | with_reducible exact ⟨fun _ => rfl, rfl⟩
    | exact Asks.refl _
    | exact fun _ => Asks.refl _
    | exact (fun h => (held_nextCut ..).trans h)
    | with_reducible exact Keeps1.refl _
    | with_reducible exact Keeps1.mk List.prefix_rfl (fun _ h => h)
    | with_reducible exact Keeps1.mk (List.prefix_append _ _) (fun _ h => h)
    | with_reducible exact (id : PartSt.held _ = true → PartSt.held _ = true)
    | with_reducible exact fun _ => ⟨rfl, rfl⟩
    | exact fun _ => asks_of_tx rfl rfl rfl
    | with_reducible exact asks_of_tx rfl rfl rfl
    | with_reducible exact (fun h => (held_addCut ..).trans h)
    | with_reducible exact (fun h => (held_mapNewest ..).trans h)
    | with_reducible exact (fun h => (held_trade ..).trans h)
    | with_reducible exact (fun h => h)
    | with_reducible exact (fun _ => rfl)
    | intro _ _
    | split
    | dsimp only

theorem intoSpill_grows {r : TraceRec} {s t : State} (h : intoSpill r s = some t) : Grows s t := by
  unfold intoSpill at h
  dsimp only at h
  have hs : Grows s (spendDram s) := .of_only (spendDram_only s) (by decide)
  generalize spendDram s = s1 at h hs
  repeat' split at h
  all_goals first | (cases h; exact hs.trans (modPart_grows _ _ _ (fun h => h))) | cases h

theorem storePort_grows {r : TraceRec} {s t : State} (h : storePort r s = some t) : Grows s t := by
  unfold storePort at h
  dsimp only at h
  repeat' split at h
  · cases h
    refine Grows.trans ?_ (spendCreel_grows ..)
    exact (modPart_grows _ _ _ (fun h => h)).trans (modPart_grows _ _ _ (fun h => h))
  · exact (modPart_grows _ _ _ (fun h => h)).trans (intoSpill_grows h)
  · cases h

theorem deliverInput_grows (r : TraceRec) (s : State) : Grows s (deliverInput r s) := by
  unfold deliverInput
  extract_lets takes first runs
  clear_value runs first takes
  refine Grows.trans ?_ (.of_only (setRuns_only ..) (by decide))
  split
  · exact spendCreel_grows ..
  · exact .refl _

theorem shedTier_grows (p : Nat) (s : State) : Grows s (shedTier p s) := by
  unfold shedTier
  repeat' first
    | with_reducible exact Grows.refl _
    | with_reducible assumption
    | with_reducible refine Grows.trans ?_ (modPart_grows _ _ _ ?_)
    | with_reducible refine Grows.trans ?_ (uncorrectableItem_grows ..)
    | with_reducible refine Grows.trans ?_ (dropPort_grows ..)
    | with_reducible refine each_grows ?_ ?_
    | with_reducible exact KeepsU.refl _
    | with_reducible exact ⟨fun _ => rfl, rfl⟩
    | exact Asks.refl _
    | exact fun _ => Asks.refl _
    | exact (fun h => (held_nextCut ..).trans h)
    | with_reducible exact Keeps1.refl _
    | with_reducible exact Keeps1.mk List.prefix_rfl (fun _ h => h)
    | with_reducible exact Keeps1.mk (List.prefix_append _ _) (fun _ h => h)
    | with_reducible exact (id : PartSt.held _ = true → PartSt.held _ = true)
    | with_reducible exact fun _ => ⟨rfl, rfl⟩
    | exact fun _ => asks_of_tx rfl rfl rfl
    | with_reducible exact asks_of_tx rfl rfl rfl
    | with_reducible exact (fun h => (held_addCut ..).trans h)
    | with_reducible exact (fun h => (held_mapNewest ..).trans h)
    | with_reducible exact (fun h => (held_trade ..).trans h)
    | with_reducible exact (fun h => h)
    | with_reducible exact (fun _ => rfl)
    | intro _ _
    | split
    | dsimp only

theorem postExchange_grows (p : Nat) (s : State) : Grows s (postExchange p s) := by
  unfold postExchange
  repeat' first
    | with_reducible exact Grows.refl _
    | with_reducible assumption
    | with_reducible refine Grows.trans ?_ (modPart_grows _ _ _ ?_)
    | with_reducible refine Grows.trans ?_ (spendCreel_grows ..)
    | with_reducible refine Grows.trans ?_ (.of_only (modRun_only ..) (by decide))
    | with_reducible refine each_grows ?_ ?_
    | with_reducible exact KeepsU.refl _
    | with_reducible exact ⟨fun _ => rfl, rfl⟩
    | exact Asks.refl _
    | exact fun _ => Asks.refl _
    | exact (fun h => (held_nextCut ..).trans h)
    | with_reducible exact Keeps1.refl _
    | with_reducible exact Keeps1.mk List.prefix_rfl (fun _ h => h)
    | with_reducible exact Keeps1.mk (List.prefix_append _ _) (fun _ h => h)
    | with_reducible exact (id : PartSt.held _ = true → PartSt.held _ = true)
    | with_reducible exact fun _ => ⟨rfl, rfl⟩
    | exact fun _ => asks_of_tx rfl rfl rfl
    | with_reducible exact asks_of_tx rfl rfl rfl
    | with_reducible exact (fun h => (held_addCut ..).trans h)
    | with_reducible exact (fun h => (held_mapNewest ..).trans h)
    | with_reducible exact (fun h => (held_trade ..).trans h)
    | with_reducible exact (fun h => h)
    | with_reducible exact (fun _ => rfl)
    | intro _ _
    | split
    | dsimp only

theorem pumpPort_grows (p : Nat) (s0 : State) : Grows s0 (pumpPort p s0) := by
  unfold pumpPort
  repeat' first
    | with_reducible exact Grows.refl _
    | with_reducible assumption
    | with_reducible refine Grows.trans ?_ (modPart_grows _ _ _ ?_)
    | with_reducible refine Grows.trans ?_ (.of_only (modMeters_only ..) (by decide))
    | with_reducible refine Grows.trans ?_ (shedTier_grows ..)
    | with_reducible refine Grows.trans ?_ (postExchange_grows ..)
    | with_reducible refine each_grows ?_ ?_
    | with_reducible exact KeepsU.refl _
    | with_reducible exact ⟨fun _ => rfl, rfl⟩
    | exact Asks.refl _
    | exact fun _ => Asks.refl _
    | exact (fun h => (held_nextCut ..).trans h)
    | with_reducible exact Keeps1.refl _
    | with_reducible exact Keeps1.mk List.prefix_rfl (fun _ h => h)
    | with_reducible exact Keeps1.mk (List.prefix_append _ _) (fun _ h => h)
    | with_reducible exact (id : PartSt.held _ = true → PartSt.held _ = true)
    | with_reducible exact fun _ => ⟨rfl, rfl⟩
    | exact fun _ => asks_of_tx rfl rfl rfl
    | with_reducible exact asks_of_tx rfl rfl rfl
    | with_reducible exact (fun h => (held_addCut ..).trans h)
    | with_reducible exact (fun h => (held_mapNewest ..).trans h)
    | with_reducible exact (fun h => (held_trade ..).trans h)
    | with_reducible exact (fun h => h)
    | with_reducible exact (fun _ => rfl)
    | intro _ _
    | split
    | dsimp only

theorem portArrive_grows (r : TraceRec) (s : State) : Grows s (portArrive r s) := by
  unfold portArrive
  repeat' first
    | with_reducible exact Grows.refl _
    | with_reducible assumption
    | with_reducible refine Grows.trans ?_ (dropPort_grows ..)
    | with_reducible refine Grows.trans ?_ (pumpPort_grows ..)
    | with_reducible refine each_grows ?_ ?_
    | with_reducible exact KeepsU.refl _
    | with_reducible exact ⟨fun _ => rfl, rfl⟩
    | exact Asks.refl _
    | exact fun _ => Asks.refl _
    | exact (fun h => (held_nextCut ..).trans h)
    | with_reducible exact Keeps1.refl _
    | with_reducible exact Keeps1.mk List.prefix_rfl (fun _ h => h)
    | with_reducible exact Keeps1.mk (List.prefix_append _ _) (fun _ h => h)
    | with_reducible exact (id : PartSt.held _ = true → PartSt.held _ = true)
    | with_reducible exact fun _ => ⟨rfl, rfl⟩
    | exact fun _ => asks_of_tx rfl rfl rfl
    | with_reducible exact asks_of_tx rfl rfl rfl
    | with_reducible exact (fun h => (held_addCut ..).trans h)
    | with_reducible exact (fun h => (held_mapNewest ..).trans h)
    | with_reducible exact (fun h => (held_trade ..).trans h)
    | with_reducible exact (fun h => h)
    | with_reducible exact (fun _ => rfl)
    | intro _ _
    | split
    | with_reducible refine Grows.trans ?_ (storePort_grows (by assumption))
    | dsimp only

theorem shedQueue_grows (p : Nat) (s : State) : Grows s (shedQueue p s) := by
  unfold shedQueue
  repeat' first
    | with_reducible exact Grows.refl _
    | with_reducible assumption
    | with_reducible refine Grows.trans ?_ (modPart_grows _ _ _ ?_)
    | with_reducible refine Grows.trans ?_ (uncorrectableItem_grows ..)
    | with_reducible refine Grows.trans ?_ (dropDram_grows ..)
    | with_reducible refine each_grows ?_ ?_
    | with_reducible exact KeepsU.refl _
    | with_reducible exact ⟨fun _ => rfl, rfl⟩
    | exact Asks.refl _
    | exact fun _ => Asks.refl _
    | exact (fun h => (held_nextCut ..).trans h)
    | with_reducible exact Keeps1.refl _
    | with_reducible exact Keeps1.mk List.prefix_rfl (fun _ h => h)
    | with_reducible exact Keeps1.mk (List.prefix_append _ _) (fun _ h => h)
    | with_reducible exact (id : PartSt.held _ = true → PartSt.held _ = true)
    | with_reducible exact fun _ => ⟨rfl, rfl⟩
    | exact fun _ => asks_of_tx rfl rfl rfl
    | with_reducible exact asks_of_tx rfl rfl rfl
    | with_reducible exact (fun h => (held_addCut ..).trans h)
    | with_reducible exact (fun h => (held_mapNewest ..).trans h)
    | with_reducible exact (fun h => (held_trade ..).trans h)
    | with_reducible exact (fun h => h)
    | with_reducible exact (fun _ => rfl)
    | intro _ _
    | split
    | dsimp only

theorem dramArrive_grows (r : TraceRec) (s0 : State) : Grows s0 (dramArrive r s0) := by
  unfold dramArrive
  repeat' first
    | with_reducible exact Grows.refl _
    | with_reducible assumption
    | with_reducible refine Grows.trans ?_ (uncorrectableItem_grows ..)
    | with_reducible refine Grows.trans ?_ (spendCreel_grows ..)
    | with_reducible refine Grows.trans ?_ (dropDram_grows ..)
    | with_reducible refine Grows.trans ?_ (shedQueue_grows ..)
    | with_reducible refine each_grows ?_ ?_
    | with_reducible exact KeepsU.refl _
    | with_reducible exact ⟨fun _ => rfl, rfl⟩
    | exact Asks.refl _
    | exact fun _ => Asks.refl _
    | exact (fun h => (held_nextCut ..).trans h)
    | with_reducible exact Keeps1.refl _
    | with_reducible exact Keeps1.mk List.prefix_rfl (fun _ h => h)
    | with_reducible exact Keeps1.mk (List.prefix_append _ _) (fun _ h => h)
    | with_reducible exact (id : PartSt.held _ = true → PartSt.held _ = true)
    | with_reducible exact fun _ => ⟨rfl, rfl⟩
    | exact fun _ => asks_of_tx rfl rfl rfl
    | with_reducible exact asks_of_tx rfl rfl rfl
    | with_reducible exact (fun h => (held_addCut ..).trans h)
    | with_reducible exact (fun h => (held_mapNewest ..).trans h)
    | with_reducible exact (fun h => (held_trade ..).trans h)
    | with_reducible exact (fun h => h)
    | with_reducible exact (fun _ => rfl)
    | intro _ _
    | split
    | with_reducible refine Grows.trans ?_ (storeDram_grows (by assumption))
    | dsimp only

theorem dramOnly_grows (r : TraceRec) (s : State) : Grows s (dramOnly r s) := by
  unfold dramOnly
  repeat' first
    | with_reducible exact Grows.refl _
    | with_reducible assumption
    | with_reducible refine Grows.trans ?_ (.of_only (modMeters_only ..) (by decide))
    | with_reducible refine Grows.trans ?_ (hubEvent_grows ..)
    | with_reducible refine Grows.trans ?_ (dramArrive_grows ..)
    | with_reducible refine each_grows ?_ ?_
    | with_reducible exact KeepsU.refl _
    | with_reducible exact ⟨fun _ => rfl, rfl⟩
    | exact Asks.refl _
    | exact fun _ => Asks.refl _
    | exact (fun h => (held_nextCut ..).trans h)
    | with_reducible exact Keeps1.refl _
    | with_reducible exact Keeps1.mk List.prefix_rfl (fun _ h => h)
    | with_reducible exact Keeps1.mk (List.prefix_append _ _) (fun _ h => h)
    | with_reducible exact (id : PartSt.held _ = true → PartSt.held _ = true)
    | with_reducible exact fun _ => ⟨rfl, rfl⟩
    | exact fun _ => asks_of_tx rfl rfl rfl
    | with_reducible exact asks_of_tx rfl rfl rfl
    | with_reducible exact (fun h => (held_addCut ..).trans h)
    | with_reducible exact (fun h => (held_mapNewest ..).trans h)
    | with_reducible exact (fun h => (held_trade ..).trans h)
    | with_reducible exact (fun h => h)
    | with_reducible exact (fun _ => rfl)
    | intro _ _
    | split
    | dsimp only

theorem holdDram_grows (kept : Bool) (r : TraceRec) (s : State) : Grows s (holdDram kept r s) := by
  unfold holdDram
  repeat' first
    | with_reducible exact Grows.refl _
    | with_reducible assumption
    | with_reducible refine Grows.trans ?_ (modPart_grows _ _ _ ?_)
    | with_reducible refine each_grows ?_ ?_
    | with_reducible exact KeepsU.refl _
    | with_reducible exact ⟨fun _ => rfl, rfl⟩
    | exact Asks.refl _
    | exact fun _ => Asks.refl _
    | exact (fun h => (held_nextCut ..).trans h)
    | with_reducible exact Keeps1.refl _
    | with_reducible exact Keeps1.mk List.prefix_rfl (fun _ h => h)
    | with_reducible exact Keeps1.mk (List.prefix_append _ _) (fun _ h => h)
    | with_reducible exact (id : PartSt.held _ = true → PartSt.held _ = true)
    | with_reducible exact fun _ => ⟨rfl, rfl⟩
    | exact fun _ => asks_of_tx rfl rfl rfl
    | with_reducible exact asks_of_tx rfl rfl rfl
    | with_reducible exact (fun h => (held_addCut ..).trans h)
    | with_reducible exact (fun h => (held_mapNewest ..).trans h)
    | with_reducible exact (fun h => (held_trade ..).trans h)
    | with_reducible exact (fun h => h)
    | with_reducible exact (fun _ => rfl)
    | intro _ _
    | split
    | dsimp only

theorem placeRec_grows (dest : Nat) (r0 : TraceRec) (s : State) : Grows s (placeRec dest r0 s) := by
  unfold placeRec
  repeat' first
    | with_reducible exact Grows.refl _
    | with_reducible assumption
    | with_reducible refine Grows.trans ?_ (hubEvent_grows ..)
    | with_reducible refine Grows.trans ?_ (portArrive_grows ..)
    | with_reducible refine Grows.trans ?_ (dramArrive_grows ..)
    | with_reducible refine Grows.trans ?_ (dramOnly_grows ..)
    | with_reducible refine Grows.trans ?_ (holdDram_grows ..)
    | with_reducible refine each_grows ?_ ?_
    | with_reducible exact KeepsU.refl _
    | with_reducible exact ⟨fun _ => rfl, rfl⟩
    | exact Asks.refl _
    | exact fun _ => Asks.refl _
    | exact (fun h => (held_nextCut ..).trans h)
    | with_reducible exact Keeps1.refl _
    | with_reducible exact Keeps1.mk List.prefix_rfl (fun _ h => h)
    | with_reducible exact Keeps1.mk (List.prefix_append _ _) (fun _ h => h)
    | with_reducible exact (id : PartSt.held _ = true → PartSt.held _ = true)
    | with_reducible exact fun _ => ⟨rfl, rfl⟩
    | exact fun _ => asks_of_tx rfl rfl rfl
    | with_reducible exact asks_of_tx rfl rfl rfl
    | with_reducible exact (fun h => (held_addCut ..).trans h)
    | with_reducible exact (fun h => (held_mapNewest ..).trans h)
    | with_reducible exact (fun h => (held_trade ..).trans h)
    | with_reducible exact (fun h => h)
    | with_reducible exact (fun _ => rfl)
    | intro _ _
    | split
    | dsimp only

theorem traceWrite_grows (r : TraceRec) (s : State) : Grows s (traceWrite r s) := by
  unfold traceWrite
  repeat' first
    | with_reducible exact Grows.refl _
    | with_reducible assumption
    | with_reducible refine Grows.trans ?_ (deliverInput_grows ..)
    | with_reducible refine Grows.trans ?_ (placeRec_grows ..)
    | with_reducible refine each_grows ?_ ?_
    | with_reducible exact KeepsU.refl _
    | with_reducible exact ⟨fun _ => rfl, rfl⟩
    | exact Asks.refl _
    | exact fun _ => Asks.refl _
    | exact (fun h => (held_nextCut ..).trans h)
    | with_reducible exact Keeps1.refl _
    | with_reducible exact Keeps1.mk List.prefix_rfl (fun _ h => h)
    | with_reducible exact Keeps1.mk (List.prefix_append _ _) (fun _ h => h)
    | with_reducible exact (id : PartSt.held _ = true → PartSt.held _ = true)
    | with_reducible exact fun _ => ⟨rfl, rfl⟩
    | exact fun _ => asks_of_tx rfl rfl rfl
    | with_reducible exact asks_of_tx rfl rfl rfl
    | with_reducible exact (fun h => (held_addCut ..).trans h)
    | with_reducible exact (fun h => (held_mapNewest ..).trans h)
    | with_reducible exact (fun h => (held_trade ..).trans h)
    | with_reducible exact (fun h => h)
    | with_reducible exact (fun _ => rfl)
    | intro _ _
    | split
    | dsimp only

theorem writeRec_grows (cls : Nat) (p : Nat) (payload : List Byte) (s : State) : Grows s (writeRec cls p payload s) := by
  unfold writeRec
  repeat' first
    | with_reducible exact Grows.refl _
    | with_reducible assumption
    | with_reducible refine Grows.trans ?_ (traceWrite_grows ..)
    | with_reducible refine each_grows ?_ ?_
    | with_reducible exact KeepsU.refl _
    | with_reducible exact ⟨fun _ => rfl, rfl⟩
    | exact Asks.refl _
    | exact fun _ => Asks.refl _
    | exact (fun h => (held_nextCut ..).trans h)
    | with_reducible exact Keeps1.refl _
    | with_reducible exact Keeps1.mk List.prefix_rfl (fun _ h => h)
    | with_reducible exact Keeps1.mk (List.prefix_append _ _) (fun _ h => h)
    | with_reducible exact (id : PartSt.held _ = true → PartSt.held _ = true)
    | with_reducible exact fun _ => ⟨rfl, rfl⟩
    | exact fun _ => asks_of_tx rfl rfl rfl
    | with_reducible exact asks_of_tx rfl rfl rfl
    | with_reducible exact (fun h => (held_addCut ..).trans h)
    | with_reducible exact (fun h => (held_mapNewest ..).trans h)
    | with_reducible exact (fun h => (held_trade ..).trans h)
    | with_reducible exact (fun h => h)
    | with_reducible exact (fun _ => rfl)
    | intro _ _
    | split
    | dsimp only

theorem sendCtl_grows (l : Nat) (type : Nat) (sub : Nat) (body : List Byte) (s : State) : Grows s (sendCtl l type sub body s) := by
  unfold sendCtl
  repeat' first
    | with_reducible exact Grows.refl _
    | with_reducible assumption
    | with_reducible refine Grows.trans ?_ (modLnk_grows _ _ _ ?_)
    | with_reducible refine Grows.trans ?_ (emit_grows ..)
    | with_reducible refine each_grows ?_ ?_
    | with_reducible exact KeepsU.refl _
    | with_reducible exact ⟨fun _ => rfl, rfl⟩
    | exact Asks.refl _
    | exact fun _ => Asks.refl _
    | exact (fun h => (held_nextCut ..).trans h)
    | with_reducible exact Keeps1.refl _
    | with_reducible exact Keeps1.mk List.prefix_rfl (fun _ h => h)
    | with_reducible exact Keeps1.mk (List.prefix_append _ _) (fun _ h => h)
    | with_reducible exact (id : PartSt.held _ = true → PartSt.held _ = true)
    | with_reducible exact fun _ => ⟨rfl, rfl⟩
    | exact fun _ => asks_of_tx rfl rfl rfl
    | with_reducible exact asks_of_tx rfl rfl rfl
    | with_reducible exact (fun h => (held_addCut ..).trans h)
    | with_reducible exact (fun h => (held_mapNewest ..).trans h)
    | with_reducible exact (fun h => (held_trade ..).trans h)
    | with_reducible exact (fun h => h)
    | with_reducible exact (fun _ => rfl)
    | intro _ _
    | split
    | dsimp only

theorem controlSlot_grows (l : Nat) (s : State) : Grows s (controlSlot l s) := by
  unfold controlSlot
  repeat' first
    | with_reducible exact Grows.refl _
    | with_reducible assumption
    | with_reducible refine Grows.trans ?_ (sendCtl_grows ..)
    | with_reducible refine each_grows ?_ ?_
    | with_reducible exact KeepsU.refl _
    | with_reducible exact ⟨fun _ => rfl, rfl⟩
    | exact Asks.refl _
    | exact fun _ => Asks.refl _
    | exact (fun h => (held_nextCut ..).trans h)
    | with_reducible exact Keeps1.refl _
    | with_reducible exact Keeps1.mk List.prefix_rfl (fun _ h => h)
    | with_reducible exact Keeps1.mk (List.prefix_append _ _) (fun _ h => h)
    | with_reducible exact (id : PartSt.held _ = true → PartSt.held _ = true)
    | with_reducible exact fun _ => ⟨rfl, rfl⟩
    | exact fun _ => asks_of_tx rfl rfl rfl
    | with_reducible exact asks_of_tx rfl rfl rfl
    | with_reducible exact (fun h => (held_addCut ..).trans h)
    | with_reducible exact (fun h => (held_mapNewest ..).trans h)
    | with_reducible exact (fun h => (held_trade ..).trans h)
    | with_reducible exact (fun h => h)
    | with_reducible exact (fun _ => rfl)
    | intro _ _
    | split
    | dsimp only

theorem putFlit_grows (l : Nat) (f : Flit) (s : State) : Grows s (putFlit l f s) := by
  unfold putFlit
  repeat' first
    | with_reducible exact Grows.refl _
    | with_reducible assumption
    | with_reducible refine Grows.trans ?_ (emit_grows ..)
    | with_reducible refine Grows.trans ?_ (.of_only (bumpAlways_only ..) (by decide))
    | with_reducible refine each_grows ?_ ?_
    | with_reducible exact KeepsU.refl _
    | with_reducible exact ⟨fun _ => rfl, rfl⟩
    | exact Asks.refl _
    | exact fun _ => Asks.refl _
    | exact (fun h => (held_nextCut ..).trans h)
    | with_reducible exact Keeps1.refl _
    | with_reducible exact Keeps1.mk List.prefix_rfl (fun _ h => h)
    | with_reducible exact Keeps1.mk (List.prefix_append _ _) (fun _ h => h)
    | with_reducible exact (id : PartSt.held _ = true → PartSt.held _ = true)
    | with_reducible exact fun _ => ⟨rfl, rfl⟩
    | exact fun _ => asks_of_tx rfl rfl rfl
    | with_reducible exact asks_of_tx rfl rfl rfl
    | with_reducible exact (fun h => (held_addCut ..).trans h)
    | with_reducible exact (fun h => (held_mapNewest ..).trans h)
    | with_reducible exact (fun h => (held_trade ..).trans h)
    | with_reducible exact (fun h => h)
    | with_reducible exact (fun _ => rfl)
    | intro _ _
    | split
    | dsimp only

theorem sendFlit_grows (l : Nat) (f : Flit) (s : State) : Grows s (sendFlit l f s) :=
  ((modLnk_grows _ _ _ fun _ => asks_sent _ _ _).trans (putFlit_grows ..)).trans (controlSlot_grows ..)

theorem pumpLoop_grows (l k : Nat) (s : State) : Grows s (pumpLoop l k s) := by
  induction k generalizing s with
  | zero => exact .refl _
  | succ k ih =>
    unfold pumpLoop
    dsimp only
    split
    · split
      · exact .refl _
      · split
        · exact .refl _
        · refine Grows.trans ?_ (ih _)
          refine Grows.trans ?_ (sendFlit_grows ..)
          refine modLnk_grows _ _ _ fun h8 => ?_
          have : decide (l < 8) = true := decide_eq_true h8
          rw [this]
          exact asks_setTx _ _ _ (asks_beginMsg _ _)
    · exact .refl _

theorem pump_grows (l : Nat) (s : State) : Grows s (pump l s) := by
  unfold pump
  repeat' first
    | with_reducible exact Grows.refl _
    | with_reducible assumption
    | with_reducible refine Grows.trans ?_ (pumpLoop_grows ..)
    | with_reducible refine each_grows ?_ ?_
    | with_reducible exact KeepsU.refl _
    | with_reducible exact ⟨fun _ => rfl, rfl⟩
    | exact Asks.refl _
    | exact fun _ => Asks.refl _
    | exact (fun h => (held_nextCut ..).trans h)
    | with_reducible exact Keeps1.refl _
    | with_reducible exact Keeps1.mk List.prefix_rfl (fun _ h => h)
    | with_reducible exact Keeps1.mk (List.prefix_append _ _) (fun _ h => h)
    | with_reducible exact (id : PartSt.held _ = true → PartSt.held _ = true)
    | with_reducible exact fun _ => ⟨rfl, rfl⟩
    | exact fun _ => asks_of_tx rfl rfl rfl
    | with_reducible exact asks_of_tx rfl rfl rfl
    | with_reducible exact (fun h => (held_addCut ..).trans h)
    | with_reducible exact (fun h => (held_mapNewest ..).trans h)
    | with_reducible exact (fun h => (held_trade ..).trans h)
    | with_reducible exact (fun h => h)
    | with_reducible exact (fun _ => rfl)
    | intro _ _
    | split
    | dsimp only

theorem sendReq_grows (l : Nat) (r : OutReq) (s : State) : Grows s (sendReq l r s) := by
  unfold sendReq
  refine Grows.trans (modLnk_grows _ _ _ fun _ => asks_setTx _ _ _ fun q hq => ?_) (pump_grows ..)
  rcases hq with hq | hq
  · exact ⟨q, .inl hq, rfl, rfl⟩
  · exact ⟨q, .inr (List.mem_append_left _ hq), rfl, rfl⟩

theorem ask_grows (n : Nat) (ch : Nat) (op : Nat) (target : Nat) (wide : Bool) (p : Nat) (tag : W32) (who : ReqFor) (data : List Byte) (s : State) : Grows s (ask n ch op target wide p tag who data s) := by
  unfold ask
  repeat' first
    | with_reducible exact Grows.refl _
    | with_reducible assumption
    | with_reducible refine Grows.trans ?_ (sendReq_grows ..)
    | with_reducible refine each_grows ?_ ?_
    | with_reducible exact KeepsU.refl _
    | with_reducible exact ⟨fun _ => rfl, rfl⟩
    | exact Asks.refl _
    | exact fun _ => Asks.refl _
    | exact (fun h => (held_nextCut ..).trans h)
    | with_reducible exact Keeps1.refl _
    | with_reducible exact Keeps1.mk List.prefix_rfl (fun _ h => h)
    | with_reducible exact Keeps1.mk (List.prefix_append _ _) (fun _ h => h)
    | with_reducible exact (id : PartSt.held _ = true → PartSt.held _ = true)
    | with_reducible exact fun _ => ⟨rfl, rfl⟩
    | exact fun _ => asks_of_tx rfl rfl rfl
    | with_reducible exact asks_of_tx rfl rfl rfl
    | with_reducible exact (fun h => (held_addCut ..).trans h)
    | with_reducible exact (fun h => (held_mapNewest ..).trans h)
    | with_reducible exact (fun h => (held_trade ..).trans h)
    | with_reducible exact (fun h => h)
    | with_reducible exact (fun _ => rfl)
    | intro _ _
    | split
    | dsimp only

theorem askRegRead_grows (n : Nat) (target : Nat) (p : Nat) (tag : W32) (who : ReqFor) (off : Nat) (count : Nat) (s : State) : Grows s (askRegRead n target p tag who off count s) := by
  unfold askRegRead
  repeat' first
    | with_reducible exact Grows.refl _
    | with_reducible assumption
    | with_reducible refine Grows.trans ?_ (ask_grows ..)
    | with_reducible refine each_grows ?_ ?_
    | with_reducible exact KeepsU.refl _
    | with_reducible exact ⟨fun _ => rfl, rfl⟩
    | exact Asks.refl _
    | exact fun _ => Asks.refl _
    | exact (fun h => (held_nextCut ..).trans h)
    | with_reducible exact Keeps1.refl _
    | with_reducible exact Keeps1.mk List.prefix_rfl (fun _ h => h)
    | with_reducible exact Keeps1.mk (List.prefix_append _ _) (fun _ h => h)
    | with_reducible exact (id : PartSt.held _ = true → PartSt.held _ = true)
    | with_reducible exact fun _ => ⟨rfl, rfl⟩
    | exact fun _ => asks_of_tx rfl rfl rfl
    | with_reducible exact asks_of_tx rfl rfl rfl
    | with_reducible exact (fun h => (held_addCut ..).trans h)
    | with_reducible exact (fun h => (held_mapNewest ..).trans h)
    | with_reducible exact (fun h => (held_trade ..).trans h)
    | with_reducible exact (fun h => h)
    | with_reducible exact (fun _ => rfl)
    | intro _ _
    | split
    | dsimp only

theorem plaitSend_grows (ch : Nat) (op : Nat) (part : Nat) (data : List Byte) (s : State) : Grows s (plaitSend ch op part data s) := by
  unfold plaitSend
  repeat' first
    | with_reducible exact Grows.refl _
    | with_reducible assumption
    | with_reducible refine Grows.trans ?_ (sendReq_grows ..)
    | with_reducible refine each_grows ?_ ?_
    | with_reducible exact KeepsU.refl _
    | with_reducible exact ⟨fun _ => rfl, rfl⟩
    | exact Asks.refl _
    | exact fun _ => Asks.refl _
    | exact (fun h => (held_nextCut ..).trans h)
    | with_reducible exact Keeps1.refl _
    | with_reducible exact Keeps1.mk List.prefix_rfl (fun _ h => h)
    | with_reducible exact Keeps1.mk (List.prefix_append _ _) (fun _ h => h)
    | with_reducible exact (id : PartSt.held _ = true → PartSt.held _ = true)
    | with_reducible exact fun _ => ⟨rfl, rfl⟩
    | exact fun _ => asks_of_tx rfl rfl rfl
    | with_reducible exact asks_of_tx rfl rfl rfl
    | with_reducible exact (fun h => (held_addCut ..).trans h)
    | with_reducible exact (fun h => (held_mapNewest ..).trans h)
    | with_reducible exact (fun h => (held_trade ..).trans h)
    | with_reducible exact (fun h => h)
    | with_reducible exact (fun _ => rfl)
    | intro _ _
    | split
    | dsimp only

theorem cutRec_grows (event : Nat) (c : Cut) (s : State) : Grows s (cutRec event c s) := by
  unfold cutRec
  repeat' first
    | with_reducible exact Grows.refl _
    | with_reducible assumption
    | with_reducible refine Grows.trans ?_ (writeRec_grows ..)
    | with_reducible refine each_grows ?_ ?_
    | with_reducible exact KeepsU.refl _
    | with_reducible exact ⟨fun _ => rfl, rfl⟩
    | exact Asks.refl _
    | exact fun _ => Asks.refl _
    | exact (fun h => (held_nextCut ..).trans h)
    | with_reducible exact Keeps1.refl _
    | with_reducible exact Keeps1.mk List.prefix_rfl (fun _ h => h)
    | with_reducible exact Keeps1.mk (List.prefix_append _ _) (fun _ h => h)
    | with_reducible exact (id : PartSt.held _ = true → PartSt.held _ = true)
    | with_reducible exact fun _ => ⟨rfl, rfl⟩
    | exact fun _ => asks_of_tx rfl rfl rfl
    | with_reducible exact asks_of_tx rfl rfl rfl
    | with_reducible exact (fun h => (held_addCut ..).trans h)
    | with_reducible exact (fun h => (held_mapNewest ..).trans h)
    | with_reducible exact (fun h => (held_trade ..).trans h)
    | with_reducible exact (fun h => h)
    | with_reducible exact (fun _ => rfl)
    | intro _ _
    | split
    | dsimp only

theorem finishOwners_grows (c : Cut) (r : Bool → Res) (s : State) : Grows s (finishOwners c r s) := by
  unfold finishOwners
  repeat' first
    | with_reducible exact Grows.refl _
    | with_reducible assumption
    | with_reducible refine Grows.trans ?_ (complete_grows ..)
    | with_reducible refine each_grows ?_ ?_
    | with_reducible exact KeepsU.refl _
    | with_reducible exact ⟨fun _ => rfl, rfl⟩
    | exact Asks.refl _
    | exact fun _ => Asks.refl _
    | exact (fun h => (held_nextCut ..).trans h)
    | with_reducible exact Keeps1.refl _
    | with_reducible exact Keeps1.mk List.prefix_rfl (fun _ h => h)
    | with_reducible exact Keeps1.mk (List.prefix_append _ _) (fun _ h => h)
    | with_reducible exact (id : PartSt.held _ = true → PartSt.held _ = true)
    | with_reducible exact fun _ => ⟨rfl, rfl⟩
    | exact fun _ => asks_of_tx rfl rfl rfl
    | with_reducible exact asks_of_tx rfl rfl rfl
    | with_reducible exact (fun h => (held_addCut ..).trans h)
    | with_reducible exact (fun h => (held_mapNewest ..).trans h)
    | with_reducible exact (fun h => (held_trade ..).trans h)
    | with_reducible exact (fun h => h)
    | with_reducible exact (fun _ => rfl)
    | intro _ _
    | split
    | dsimp only

theorem hangRec_grows (p : Nat) (event : Nat) (r : HangReport) (s : State) : Grows s (hangRec p event r s) := by
  unfold hangRec
  repeat' first
    | with_reducible exact Grows.refl _
    | with_reducible assumption
    | with_reducible refine Grows.trans ?_ (writeRec_grows ..)
    | with_reducible refine each_grows ?_ ?_
    | with_reducible exact KeepsU.refl _
    | with_reducible exact ⟨fun _ => rfl, rfl⟩
    | exact Asks.refl _
    | exact fun _ => Asks.refl _
    | exact (fun h => (held_nextCut ..).trans h)
    | with_reducible exact Keeps1.refl _
    | with_reducible exact Keeps1.mk List.prefix_rfl (fun _ h => h)
    | with_reducible exact Keeps1.mk (List.prefix_append _ _) (fun _ h => h)
    | with_reducible exact (id : PartSt.held _ = true → PartSt.held _ = true)
    | with_reducible exact fun _ => ⟨rfl, rfl⟩
    | exact fun _ => asks_of_tx rfl rfl rfl
    | with_reducible exact asks_of_tx rfl rfl rfl
    | with_reducible exact (fun h => (held_addCut ..).trans h)
    | with_reducible exact (fun h => (held_mapNewest ..).trans h)
    | with_reducible exact (fun h => (held_trade ..).trans h)
    | with_reducible exact (fun h => h)
    | with_reducible exact (fun _ => rfl)
    | intro _ _
    | split
    | dsimp only

theorem endBinding_grows (p : Nat) (event : Nat) (g : HangReport → HangReport) (s : State) : Grows s (endBinding p event g s) := by
  unfold endBinding
  repeat' first
    | with_reducible exact Grows.refl _
    | with_reducible assumption
    | with_reducible refine Grows.trans ?_ (modPart_grows _ _ _ ?_)
    | with_reducible refine Grows.trans ?_ (hangRec_grows ..)
    | with_reducible refine each_grows ?_ ?_
    | with_reducible exact KeepsU.refl _
    | with_reducible exact ⟨fun _ => rfl, rfl⟩
    | exact Asks.refl _
    | exact fun _ => Asks.refl _
    | exact (fun h => (held_nextCut ..).trans h)
    | with_reducible exact Keeps1.refl _
    | with_reducible exact Keeps1.mk List.prefix_rfl (fun _ h => h)
    | with_reducible exact Keeps1.mk (List.prefix_append _ _) (fun _ h => h)
    | with_reducible exact (id : PartSt.held _ = true → PartSt.held _ = true)
    | with_reducible exact fun _ => ⟨rfl, rfl⟩
    | exact fun _ => asks_of_tx rfl rfl rfl
    | with_reducible exact asks_of_tx rfl rfl rfl
    | with_reducible exact (fun h => (held_addCut ..).trans h)
    | with_reducible exact (fun h => (held_mapNewest ..).trans h)
    | with_reducible exact (fun h => (held_trade ..).trans h)
    | with_reducible exact (fun h => h)
    | with_reducible exact (fun _ => rfl)
    | intro _ _
    | split
    | dsimp only

theorem bindReports_grows (p : Nat) (cut : W32) (s : State) : Grows s (bindReports p cut s) := by
  unfold bindReports
  repeat' first
    | with_reducible exact Grows.refl _
    | with_reducible assumption
    | with_reducible refine Grows.trans ?_ (endBinding_grows ..)
    | with_reducible refine each_grows ?_ ?_
    | with_reducible exact KeepsU.refl _
    | with_reducible exact ⟨fun _ => rfl, rfl⟩
    | exact Asks.refl _
    | exact fun _ => Asks.refl _
    | exact (fun h => (held_nextCut ..).trans h)
    | with_reducible exact Keeps1.refl _
    | with_reducible exact Keeps1.mk List.prefix_rfl (fun _ h => h)
    | with_reducible exact Keeps1.mk (List.prefix_append _ _) (fun _ h => h)
    | with_reducible exact (id : PartSt.held _ = true → PartSt.held _ = true)
    | with_reducible exact fun _ => ⟨rfl, rfl⟩
    | exact fun _ => asks_of_tx rfl rfl rfl
    | with_reducible exact asks_of_tx rfl rfl rfl
    | with_reducible exact (fun h => (held_addCut ..).trans h)
    | with_reducible exact (fun h => (held_mapNewest ..).trans h)
    | with_reducible exact (fun h => (held_trade ..).trans h)
    | with_reducible exact (fun h => h)
    | with_reducible exact (fun _ => rfl)
    | intro _ _
    | split
    | dsimp only

theorem reportRefused_grows (p : Nat) (id : Option W32) (s : State) : Grows s (reportRefused p id s) := by
  unfold reportRefused
  repeat' first
    | with_reducible exact Grows.refl _
    | with_reducible assumption
    | with_reducible refine Grows.trans ?_ (modPart_grows _ _ _ ?_)
    | with_reducible refine each_grows ?_ ?_
    | with_reducible exact KeepsU.refl _
    | with_reducible exact ⟨fun _ => rfl, rfl⟩
    | exact Asks.refl _
    | exact fun _ => Asks.refl _
    | exact (fun h => (held_nextCut ..).trans h)
    | with_reducible exact Keeps1.refl _
    | with_reducible exact Keeps1.mk List.prefix_rfl (fun _ h => h)
    | with_reducible exact Keeps1.mk (List.prefix_append _ _) (fun _ h => h)
    | with_reducible exact (id : PartSt.held _ = true → PartSt.held _ = true)
    | with_reducible exact fun _ => ⟨rfl, rfl⟩
    | exact fun _ => asks_of_tx rfl rfl rfl
    | with_reducible exact asks_of_tx rfl rfl rfl
    | with_reducible exact (fun h => (held_addCut ..).trans h)
    | with_reducible exact (fun h => (held_mapNewest ..).trans h)
    | with_reducible exact (fun h => (held_trade ..).trans h)
    | with_reducible exact (fun h => h)
    | with_reducible exact (fun _ => rfl)
    | intro _ _
    | split
    | dsimp only

theorem modBuild_grows (p : Nat) (g : Cut → Cut) (s : State) : Grows s (modBuild p g s) := by
  unfold modBuild
  repeat' first
    | with_reducible exact Grows.refl _
    | with_reducible assumption
    | with_reducible refine Grows.trans ?_ (modPart_grows _ _ _ ?_)
    | with_reducible refine each_grows ?_ ?_
    | with_reducible exact KeepsU.refl _
    | with_reducible exact ⟨fun _ => rfl, rfl⟩
    | exact Asks.refl _
    | exact fun _ => Asks.refl _
    | exact (fun h => (held_nextCut ..).trans h)
    | with_reducible exact Keeps1.refl _
    | with_reducible exact Keeps1.mk List.prefix_rfl (fun _ h => h)
    | with_reducible exact Keeps1.mk (List.prefix_append _ _) (fun _ h => h)
    | with_reducible exact (id : PartSt.held _ = true → PartSt.held _ = true)
    | with_reducible exact fun _ => ⟨rfl, rfl⟩
    | exact fun _ => asks_of_tx rfl rfl rfl
    | with_reducible exact asks_of_tx rfl rfl rfl
    | with_reducible exact (fun h => (held_addCut ..).trans h)
    | with_reducible exact (fun h => (held_mapNewest ..).trans h)
    | with_reducible exact (fun h => (held_trade ..).trans h)
    | with_reducible exact (fun h => h)
    | with_reducible exact (fun _ => rfl)
    | intro _ _
    | split
    | dsimp only

theorem modCut_grows (p : Nat) (id : W32) (g : Cut → Cut) (s : State) : Grows s (modCut p id g s) := by
  unfold modCut
  repeat' first
    | with_reducible exact Grows.refl _
    | with_reducible assumption
    | with_reducible refine Grows.trans ?_ (modPart_grows _ _ _ ?_)
    | with_reducible refine each_grows ?_ ?_
    | with_reducible exact KeepsU.refl _
    | with_reducible exact ⟨fun _ => rfl, rfl⟩
    | exact Asks.refl _
    | exact fun _ => Asks.refl _
    | exact (fun h => (held_nextCut ..).trans h)
    | with_reducible exact Keeps1.refl _
    | with_reducible exact Keeps1.mk List.prefix_rfl (fun _ h => h)
    | with_reducible exact Keeps1.mk (List.prefix_append _ _) (fun _ h => h)
    | with_reducible exact (id : PartSt.held _ = true → PartSt.held _ = true)
    | with_reducible exact fun _ => ⟨rfl, rfl⟩
    | exact fun _ => asks_of_tx rfl rfl rfl
    | with_reducible exact asks_of_tx rfl rfl rfl
    | with_reducible exact (fun h => (held_addCut ..).trans h)
    | with_reducible exact (fun h => (held_mapNewest ..).trans h)
    | with_reducible exact (fun h => (held_trade ..).trans h)
    | with_reducible exact (fun h => h)
    | with_reducible exact (fun _ => rfl)
    | intro _ _
    | split
    | dsimp only

theorem logPoisoned_grows (c : Cut) (s : State) : Grows s (logPoisoned c s) := by
  unfold logPoisoned
  repeat' first
    | with_reducible exact Grows.refl _
    | with_reducible assumption
    | with_reducible refine Grows.trans ?_ (uncorrectableItem_grows ..)
    | with_reducible refine each_grows ?_ ?_
    | with_reducible exact KeepsU.refl _
    | with_reducible exact ⟨fun _ => rfl, rfl⟩
    | exact Asks.refl _
    | exact fun _ => Asks.refl _
    | exact (fun h => (held_nextCut ..).trans h)
    | with_reducible exact Keeps1.refl _
    | with_reducible exact Keeps1.mk List.prefix_rfl (fun _ h => h)
    | with_reducible exact Keeps1.mk (List.prefix_append _ _) (fun _ h => h)
    | with_reducible exact (id : PartSt.held _ = true → PartSt.held _ = true)
    | with_reducible exact fun _ => ⟨rfl, rfl⟩
    | exact fun _ => asks_of_tx rfl rfl rfl
    | with_reducible exact asks_of_tx rfl rfl rfl
    | with_reducible exact (fun h => (held_addCut ..).trans h)
    | with_reducible exact (fun h => (held_mapNewest ..).trans h)
    | with_reducible exact (fun h => (held_trade ..).trans h)
    | with_reducible exact (fun h => h)
    | with_reducible exact (fun _ => rfl)
    | intro _ _
    | split
    | dsimp only

theorem refuseCut_grows (p : Nat) (c : Cut) (s : State) : Grows s (refuseCut p c s) := by
  unfold refuseCut
  repeat' first
    | with_reducible exact Grows.refl _
    | with_reducible assumption
    | with_reducible refine Grows.trans ?_ (modPart_grows _ _ _ ?_)
    | with_reducible refine Grows.trans ?_ (.of_only (bumpAlways_only ..) (by decide))
    | with_reducible refine Grows.trans ?_ (cutRec_grows ..)
    | with_reducible refine Grows.trans ?_ (finishOwners_grows ..)
    | with_reducible refine Grows.trans ?_ (reportRefused_grows ..)
    | with_reducible refine each_grows ?_ ?_
    | with_reducible exact KeepsU.refl _
    | with_reducible exact ⟨fun _ => rfl, rfl⟩
    | exact Asks.refl _
    | exact fun _ => Asks.refl _
    | exact (fun h => (held_nextCut ..).trans h)
    | with_reducible exact Keeps1.refl _
    | with_reducible exact Keeps1.mk List.prefix_rfl (fun _ h => h)
    | with_reducible exact Keeps1.mk (List.prefix_append _ _) (fun _ h => h)
    | with_reducible exact (id : PartSt.held _ = true → PartSt.held _ = true)
    | with_reducible exact fun _ => ⟨rfl, rfl⟩
    | exact fun _ => asks_of_tx rfl rfl rfl
    | with_reducible exact asks_of_tx rfl rfl rfl
    | with_reducible exact (fun h => (held_addCut ..).trans h)
    | with_reducible exact (fun h => (held_mapNewest ..).trans h)
    | with_reducible exact (fun h => (held_trade ..).trans h)
    | with_reducible exact (fun h => h)
    | with_reducible exact (fun _ => rfl)
    | intro _ _
    | split
    | dsimp only

theorem assignCut_grows (p : Nat) (s : State) : Grows s (assignCut p s) := by
  unfold assignCut
  split
  · exact .refl _
  · split
    · exact refuseCut_grows ..
    · refine Grows.trans ?_ (finishOwners_grows ..)
      refine Grows.trans ?_ (bindReports_grows ..)
      refine Grows.trans ?_ (hubEvent_grows ..)
      refine Grows.trans ?_ (.of_only (bumpAlways_only ..) (by decide))
      refine Grows.trans ?_ (cutRec_grows ..)
      refine Grows.trans ?_ (modPart_grows _ _ _ fun h => h)
      exact .of_eq rfl rfl rfl rfl rfl

theorem endProof_grows (p : Nat) (s : State) : Grows s (endProof p s) := by
  unfold endProof
  split
  · exact .refl _
  · extract_lets c1 s1 pages need full
    have h : Grows s s1 := logPoisoned_grows ..
    clear_value full s1
    split
    · refine Grows.trans ?_ (modBuild_grows ..)
      split
      · exact h.trans (.of_only (spendDram_only ..) (by decide))
      · exact h.trans (spendCreel_grows ..)
    · exact h.trans (refuseCut_grows ..)

theorem captured_grows (p : Nat) (c : Cut) (s : State) : Grows s (captured p c s) := by
  unfold captured
  repeat' first
    | with_reducible exact Grows.refl _
    | with_reducible assumption
    | with_reducible refine Grows.trans ?_ (cutRec_grows ..)
    | with_reducible refine Grows.trans ?_ (modCut_grows ..)
    | with_reducible refine each_grows ?_ ?_
    | with_reducible exact KeepsU.refl _
    | with_reducible exact ⟨fun _ => rfl, rfl⟩
    | exact Asks.refl _
    | exact fun _ => Asks.refl _
    | exact (fun h => (held_nextCut ..).trans h)
    | with_reducible exact Keeps1.refl _
    | with_reducible exact Keeps1.mk List.prefix_rfl (fun _ h => h)
    | with_reducible exact Keeps1.mk (List.prefix_append _ _) (fun _ h => h)
    | with_reducible exact (id : PartSt.held _ = true → PartSt.held _ = true)
    | with_reducible exact fun _ => ⟨rfl, rfl⟩
    | exact fun _ => asks_of_tx rfl rfl rfl
    | with_reducible exact asks_of_tx rfl rfl rfl
    | with_reducible exact (fun h => (held_addCut ..).trans h)
    | with_reducible exact (fun h => (held_mapNewest ..).trans h)
    | with_reducible exact (fun h => (held_trade ..).trans h)
    | with_reducible exact (fun h => h)
    | with_reducible exact (fun _ => rfl)
    | intro _ _
    | split
    | dsimp only

theorem assignEmpty_grows (p : Nat) (s : State) : Grows s (assignEmpty p s) := by
  unfold assignEmpty
  extract_lets s1
  have h1 : Grows s s1 := endProof_grows ..
  clear_value s1
  split
  · rename_i s2 _
    have h2 : Grows s s2 := h1.trans (assignCut_grows ..)
    clear_value s2
    split
    · exact h2.trans (captured_grows ..)
    · exact h2
  · exact h1

theorem freezeGraph_grows (p : Nat) (s : State) : Grows s (freezeGraph p s) := by
  unfold freezeGraph
  repeat' first
    | with_reducible exact Grows.refl _
    | with_reducible assumption
    | with_reducible refine Grows.trans ?_ (modPart_grows _ _ _ ?_)
    | with_reducible refine each_grows ?_ ?_
    | with_reducible exact KeepsU.refl _
    | with_reducible exact ⟨fun _ => rfl, rfl⟩
    | exact Asks.refl _
    | exact fun _ => Asks.refl _
    | exact (fun h => (held_nextCut ..).trans h)
    | with_reducible exact Keeps1.refl _
    | with_reducible exact Keeps1.mk List.prefix_rfl (fun _ h => h)
    | with_reducible exact Keeps1.mk (List.prefix_append _ _) (fun _ h => h)
    | with_reducible exact (id : PartSt.held _ = true → PartSt.held _ = true)
    | with_reducible exact fun _ => ⟨rfl, rfl⟩
    | exact fun _ => asks_of_tx rfl rfl rfl
    | with_reducible exact asks_of_tx rfl rfl rfl
    | with_reducible exact (fun h => (held_addCut ..).trans h)
    | with_reducible exact (fun h => (held_mapNewest ..).trans h)
    | with_reducible exact (fun h => (held_trade ..).trans h)
    | with_reducible exact (fun h => h)
    | with_reducible exact (fun _ => rfl)
    | intro _ _
    | split
    | dsimp only

theorem assertHoop_grows (n : Nat) (s : State) : Grows s (assertHoop n s) := by
  unfold assertHoop
  repeat' first
    | with_reducible exact Grows.refl _
    | with_reducible assumption
    | with_reducible refine Grows.trans ?_ (modPort_grows _ _ _ ?_)
    | with_reducible refine Grows.trans ?_ (emit_grows ..)
    | with_reducible refine each_grows ?_ ?_
    | with_reducible exact KeepsU.refl _
    | with_reducible exact ⟨fun _ => rfl, rfl⟩
    | exact Asks.refl _
    | exact fun _ => Asks.refl _
    | exact (fun h => (held_nextCut ..).trans h)
    | with_reducible exact Keeps1.refl _
    | with_reducible exact Keeps1.mk List.prefix_rfl (fun _ h => h)
    | with_reducible exact Keeps1.mk (List.prefix_append _ _) (fun _ h => h)
    | with_reducible exact (id : PartSt.held _ = true → PartSt.held _ = true)
    | with_reducible exact fun _ => ⟨rfl, rfl⟩
    | exact fun _ => asks_of_tx rfl rfl rfl
    | with_reducible exact asks_of_tx rfl rfl rfl
    | with_reducible exact (fun h => (held_addCut ..).trans h)
    | with_reducible exact (fun h => (held_mapNewest ..).trans h)
    | with_reducible exact (fun h => (held_trade ..).trans h)
    | with_reducible exact (fun h => h)
    | with_reducible exact (fun _ => rfl)
    | intro _ _
    | split
    | dsimp only

theorem driveXtrig_grows (j : Nat) (active : Bool) (s : State) : Grows s (driveXtrig j active s) := by
  unfold driveXtrig
  repeat' first
    | with_reducible exact Grows.refl _
    | with_reducible assumption
    | with_reducible refine Grows.trans ?_ (emit_grows ..)
    | with_reducible refine each_grows ?_ ?_
    | with_reducible exact KeepsU.refl _
    | with_reducible exact ⟨fun _ => rfl, rfl⟩
    | exact Asks.refl _
    | exact fun _ => Asks.refl _
    | exact (fun h => (held_nextCut ..).trans h)
    | with_reducible exact Keeps1.refl _
    | with_reducible exact Keeps1.mk List.prefix_rfl (fun _ h => h)
    | with_reducible exact Keeps1.mk (List.prefix_append _ _) (fun _ h => h)
    | with_reducible exact (id : PartSt.held _ = true → PartSt.held _ = true)
    | with_reducible exact fun _ => ⟨rfl, rfl⟩
    | exact fun _ => asks_of_tx rfl rfl rfl
    | with_reducible exact asks_of_tx rfl rfl rfl
    | with_reducible exact (fun h => (held_addCut ..).trans h)
    | with_reducible exact (fun h => (held_mapNewest ..).trans h)
    | with_reducible exact (fun h => (held_trade ..).trans h)
    | with_reducible exact (fun h => h)
    | with_reducible exact (fun _ => rfl)
    | intro _ _
    | split
    | dsimp only

theorem startXtrig_grows (j : Nat) (s : State) : Grows s (startXtrig j s) := by
  unfold startXtrig
  repeat' first
    | with_reducible exact Grows.refl _
    | with_reducible assumption
    | with_reducible refine Grows.trans ?_ (.of_only (setXtrig_only ..) (by decide))
    | with_reducible refine Grows.trans ?_ (driveXtrig_grows ..)
    | with_reducible refine each_grows ?_ ?_
    | with_reducible exact KeepsU.refl _
    | with_reducible exact ⟨fun _ => rfl, rfl⟩
    | exact Asks.refl _
    | exact fun _ => Asks.refl _
    | exact (fun h => (held_nextCut ..).trans h)
    | with_reducible exact Keeps1.refl _
    | with_reducible exact Keeps1.mk List.prefix_rfl (fun _ h => h)
    | with_reducible exact Keeps1.mk (List.prefix_append _ _) (fun _ h => h)
    | with_reducible exact (id : PartSt.held _ = true → PartSt.held _ = true)
    | with_reducible exact fun _ => ⟨rfl, rfl⟩
    | exact fun _ => asks_of_tx rfl rfl rfl
    | with_reducible exact asks_of_tx rfl rfl rfl
    | with_reducible exact (fun h => (held_addCut ..).trans h)
    | with_reducible exact (fun h => (held_mapNewest ..).trans h)
    | with_reducible exact (fun h => (held_trade ..).trans h)
    | with_reducible exact (fun h => h)
    | with_reducible exact (fun _ => rfl)
    | intro _ _
    | split
    | dsimp only

theorem pulseXtrig_grows (j : Nat) (low : Bool) (s : State) : Grows s (pulseXtrig j low s) := by
  unfold pulseXtrig
  repeat' first
    | with_reducible exact Grows.refl _
    | with_reducible assumption
    | with_reducible refine Grows.trans ?_ (.of_only (setXtrig_only ..) (by decide))
    | with_reducible refine Grows.trans ?_ (.of_only (setXtrigLow_only ..) (by decide))
    | with_reducible refine Grows.trans ?_ (startXtrig_grows ..)
    | with_reducible refine each_grows ?_ ?_
    | with_reducible exact KeepsU.refl _
    | with_reducible exact ⟨fun _ => rfl, rfl⟩
    | exact Asks.refl _
    | exact fun _ => Asks.refl _
    | exact (fun h => (held_nextCut ..).trans h)
    | with_reducible exact Keeps1.refl _
    | with_reducible exact Keeps1.mk List.prefix_rfl (fun _ h => h)
    | with_reducible exact Keeps1.mk (List.prefix_append _ _) (fun _ h => h)
    | with_reducible exact (id : PartSt.held _ = true → PartSt.held _ = true)
    | with_reducible exact fun _ => ⟨rfl, rfl⟩
    | exact fun _ => asks_of_tx rfl rfl rfl
    | with_reducible exact asks_of_tx rfl rfl rfl
    | with_reducible exact (fun h => (held_addCut ..).trans h)
    | with_reducible exact (fun h => (held_mapNewest ..).trans h)
    | with_reducible exact (fun h => (held_trade ..).trans h)
    | with_reducible exact (fun h => h)
    | with_reducible exact (fun _ => rfl)
    | intro _ _
    | split
    | dsimp only

theorem triggerRec_grows (p : Nat) (serial : Nat) (sources : Nat) (term : Nat) (action : Nat) (abrupt : Bool) (hoop : Nat) (vc0 : Nat) (fwd : Nat) (hostTag : Nat) (suppressed : Nat) (s : State) : Grows s (triggerRec p serial sources term action abrupt hoop vc0 fwd hostTag suppressed s) := by
  unfold triggerRec
  repeat' first
    | with_reducible exact Grows.refl _
    | with_reducible assumption
    | with_reducible refine Grows.trans ?_ (writeRec_grows ..)
    | with_reducible refine each_grows ?_ ?_
    | with_reducible exact KeepsU.refl _
    | with_reducible exact ⟨fun _ => rfl, rfl⟩
    | exact Asks.refl _
    | exact fun _ => Asks.refl _
    | exact (fun h => (held_nextCut ..).trans h)
    | with_reducible exact Keeps1.refl _
    | with_reducible exact Keeps1.mk List.prefix_rfl (fun _ h => h)
    | with_reducible exact Keeps1.mk (List.prefix_append _ _) (fun _ h => h)
    | with_reducible exact (id : PartSt.held _ = true → PartSt.held _ = true)
    | with_reducible exact fun _ => ⟨rfl, rfl⟩
    | exact fun _ => asks_of_tx rfl rfl rfl
    | with_reducible exact asks_of_tx rfl rfl rfl
    | with_reducible exact (fun h => (held_addCut ..).trans h)
    | with_reducible exact (fun h => (held_mapNewest ..).trans h)
    | with_reducible exact (fun h => (held_trade ..).trans h)
    | with_reducible exact (fun h => h)
    | with_reducible exact (fun _ => rfl)
    | intro _ _
    | split
    | dsimp only

theorem haltUnit_grows (timeout u : Nat) (s : State) : Grows s (haltUnit timeout u s) := by
  unfold haltUnit
  dsimp only
  split
  · exact modUnit_grows _ _ _ ⟨fun _ => rfl, rfl⟩
  · refine modUnit_grows _ _ _ (keepsU_halt _ _ _ fun h => ?_)
    rw [h]
    rfl

theorem freshTimeout_grows (timeout u : Nat) (s : State) : Grows s (freshTimeout timeout u s) := by
  unfold freshTimeout
  dsimp only
  split
  · exact modUnit_grows _ _ _ ⟨fun _ => rfl, rfl⟩
  · refine modUnit_grows _ _ _ ?_
    split
    · split
      · exact .refl _
      · exact ⟨fun h => h, rfl⟩
    · refine ⟨fun h => ?_, rfl⟩
      show (if (s.unit u).view == View.running then View.draining else (s.unit u).view) = View.unresponsive
      rw [h]
      rfl

theorem askHalt_grows (n : Nat) (p : Nat) (tag : W32) (subseq : Nat) (abrupt : Bool) (who : ReqFor) (s : State) : Grows s (askHalt n p tag subseq abrupt who s) := by
  unfold askHalt
  repeat' first
    | with_reducible exact Grows.refl _
    | with_reducible assumption
    | with_reducible refine Grows.trans ?_ (ask_grows ..)
    | with_reducible refine each_grows ?_ ?_
    | with_reducible exact KeepsU.refl _
    | with_reducible exact ⟨fun _ => rfl, rfl⟩
    | exact Asks.refl _
    | exact fun _ => Asks.refl _
    | exact (fun h => (held_nextCut ..).trans h)
    | with_reducible exact Keeps1.refl _
    | with_reducible exact Keeps1.mk List.prefix_rfl (fun _ h => h)
    | with_reducible exact Keeps1.mk (List.prefix_append _ _) (fun _ h => h)
    | with_reducible exact (id : PartSt.held _ = true → PartSt.held _ = true)
    | with_reducible exact fun _ => ⟨rfl, rfl⟩
    | exact fun _ => asks_of_tx rfl rfl rfl
    | with_reducible exact asks_of_tx rfl rfl rfl
    | with_reducible exact (fun h => (held_addCut ..).trans h)
    | with_reducible exact (fun h => (held_mapNewest ..).trans h)
    | with_reducible exact (fun h => (held_trade ..).trans h)
    | with_reducible exact (fun h => h)
    | with_reducible exact (fun _ => rfl)
    | intro _ _
    | split
    | dsimp only

theorem sendHalts_grows (p : Nat) (abrupt : Bool) (host : Option (Nat × W32)) (ports : List Nat) (s : State) : Grows s (sendHalts p abrupt host ports s) := by
  unfold sendHalts
  repeat' first
    | with_reducible exact Grows.refl _
    | with_reducible assumption
    | with_reducible refine Grows.trans ?_ (modPart_grows _ _ _ ?_)
    | with_reducible refine Grows.trans ?_ (modWork_grows ..)
    | with_reducible refine Grows.trans ?_ (askHalt_grows ..)
    | with_reducible refine each_grows ?_ ?_
    | with_reducible exact KeepsU.refl _
    | with_reducible exact ⟨fun _ => rfl, rfl⟩
    | exact Asks.refl _
    | exact fun _ => Asks.refl _
    | exact (fun h => (held_nextCut ..).trans h)
    | with_reducible exact Keeps1.refl _
    | with_reducible exact Keeps1.mk List.prefix_rfl (fun _ h => h)
    | with_reducible exact Keeps1.mk (List.prefix_append _ _) (fun _ h => h)
    | with_reducible exact (id : PartSt.held _ = true → PartSt.held _ = true)
    | with_reducible exact fun _ => ⟨rfl, rfl⟩
    | exact fun _ => asks_of_tx rfl rfl rfl
    | with_reducible exact asks_of_tx rfl rfl rfl
    | with_reducible exact (fun h => (held_addCut ..).trans h)
    | with_reducible exact (fun h => (held_mapNewest ..).trans h)
    | with_reducible exact (fun h => (held_trade ..).trans h)
    | with_reducible exact (fun h => h)
    | with_reducible exact (fun _ => rfl)
    | intro _ _
    | split
    | dsimp only

theorem enterHold_grows (p : Nat) (s : State) : Grows s (enterHold p s) := by
  unfold enterHold
  repeat' first
    | with_reducible exact Grows.refl _
    | with_reducible assumption
    | with_reducible refine Grows.trans ?_ (modPart_grows _ _ _ ?_)
    | with_reducible refine each_grows ?_ ?_
    | with_reducible exact KeepsU.refl _
    | with_reducible exact ⟨fun _ => rfl, rfl⟩
    | exact Asks.refl _
    | exact fun _ => Asks.refl _
    | exact (fun h => (held_nextCut ..).trans h)
    | with_reducible exact Keeps1.refl _
    | with_reducible exact Keeps1.mk List.prefix_rfl (fun _ h => h)
    | with_reducible exact Keeps1.mk (List.prefix_append _ _) (fun _ h => h)
    | with_reducible exact (id : PartSt.held _ = true → PartSt.held _ = true)
    | with_reducible exact fun _ => ⟨rfl, rfl⟩
    | exact fun _ => asks_of_tx rfl rfl rfl
    | with_reducible exact asks_of_tx rfl rfl rfl
    | with_reducible exact (fun h => (held_addCut ..).trans h)
    | with_reducible exact (fun h => (held_mapNewest ..).trans h)
    | with_reducible exact (fun h => (held_trade ..).trans h)
    | with_reducible exact (fun h => h)
    | with_reducible exact (fun _ => rfl)
    | intro _ _
    | split
    | dsimp only

theorem noteAction_grows (r : HaltReq) (abrupt : Bool) (serial : Nat) (s : State) : Grows s (noteAction r abrupt serial s) := by
  unfold noteAction
  repeat' first
    | with_reducible exact Grows.refl _
    | with_reducible assumption
    | with_reducible refine Grows.trans ?_ (modPart_grows _ _ _ ?_)
    | with_reducible refine each_grows ?_ ?_
    | with_reducible exact KeepsU.refl _
    | with_reducible exact ⟨fun _ => rfl, rfl⟩
    | exact Asks.refl _
    | exact fun _ => Asks.refl _
    | exact (fun h => (held_nextCut ..).trans h)
    | with_reducible exact Keeps1.refl _
    | with_reducible exact Keeps1.mk List.prefix_rfl (fun _ h => h)
    | with_reducible exact Keeps1.mk (List.prefix_append _ _) (fun _ h => h)
    | with_reducible exact (id : PartSt.held _ = true → PartSt.held _ = true)
    | with_reducible exact fun _ => ⟨rfl, rfl⟩
    | exact fun _ => asks_of_tx rfl rfl rfl
    | with_reducible exact asks_of_tx rfl rfl rfl
    | with_reducible exact (fun h => (held_addCut ..).trans h)
    | with_reducible exact (fun h => (held_mapNewest ..).trans h)
    | with_reducible exact (fun h => (held_trade ..).trans h)
    | with_reducible exact (fun h => h)
    | with_reducible exact (fun _ => rfl)
    | intro _ _
    | split
    | dsimp only

theorem haltAction_grows (r : HaltReq) (fast : List Nat) (suppressed : Nat) (s : State) :
    Grows s (haltAction r fast suppressed s) := by
  unfold haltAction
  extract_lets p w abrupt ports fwd hoop timeout down gather s1 s2 s3 serial c s4
  have h1 : Grows s s1 := (sendHalts_grows ..).trans (.of_only (fallbackHalts_only ..) (by decide))
  have h2 : Grows s s2 := h1.trans (by
    show Grows s1 (if _ then _ else _)
    split
    · exact plaitSend_grows ..
    · exact .refl _)
  have h3 : Grows s s3 := h2.trans (((each_grows (.refl _) fun _ _ => pulseXtrig_grows ..).trans (each_grows (.refl _) fun _ _ => haltUnit_grows ..)).trans
    (modPart_grows _ _ _ (fun h => h)))
  have h4 : Grows s s4 := h3.trans (by
    show Grows s3 (if _ then _ else _)
    split
    · exact modPart_grows _ _ _ (fun h => (held_addCut ..).trans h)
    · exact .refl _)
  exact (((h4.trans (noteAction_grows ..)).trans (.of_only (bumpAlways_only ..) (by decide))).trans (hubEvent_grows ..)).trans
    (triggerRec_grows ..)

theorem performHalts_grows (l : List HaltReq) (s : State) : Grows s (performHalts l s) := by
  unfold performHalts
  repeat' first
    | with_reducible exact Grows.refl _
    | with_reducible assumption
    | with_reducible refine Grows.trans ?_ (freezeGraph_grows ..)
    | with_reducible refine Grows.trans ?_ (assertHoop_grows ..)
    | with_reducible refine Grows.trans ?_ (enterHold_grows ..)
    | with_reducible refine Grows.trans ?_ (haltAction_grows ..)
    | with_reducible refine each_grows ?_ ?_
    | with_reducible exact KeepsU.refl _
    | with_reducible exact ⟨fun _ => rfl, rfl⟩
    | exact Asks.refl _
    | exact fun _ => Asks.refl _
    | exact (fun h => (held_nextCut ..).trans h)
    | with_reducible exact Keeps1.refl _
    | with_reducible exact Keeps1.mk List.prefix_rfl (fun _ h => h)
    | with_reducible exact Keeps1.mk (List.prefix_append _ _) (fun _ h => h)
    | with_reducible exact (id : PartSt.held _ = true → PartSt.held _ = true)
    | with_reducible exact fun _ => ⟨rfl, rfl⟩
    | exact fun _ => asks_of_tx rfl rfl rfl
    | with_reducible exact asks_of_tx rfl rfl rfl
    | with_reducible exact (fun h => (held_addCut ..).trans h)
    | with_reducible exact (fun h => (held_mapNewest ..).trans h)
    | with_reducible exact (fun h => (held_trade ..).trans h)
    | with_reducible exact (fun h => h)
    | with_reducible exact (fun _ => rfl)
    | intro _ _
    | split
    | dsimp only

theorem completeHalt_grows (f : Nat) (c : Cmd) (g : Option Gather) (s : State) : Grows s (completeHalt f c g s) := by
  unfold completeHalt
  repeat' first
    | with_reducible exact Grows.refl _
    | with_reducible assumption
    | with_reducible refine Grows.trans ?_ (complete_grows ..)
    | with_reducible refine each_grows ?_ ?_
    | with_reducible exact KeepsU.refl _
    | with_reducible exact ⟨fun _ => rfl, rfl⟩
    | exact Asks.refl _
    | exact fun _ => Asks.refl _
    | exact (fun h => (held_nextCut ..).trans h)
    | with_reducible exact Keeps1.refl _
    | with_reducible exact Keeps1.mk List.prefix_rfl (fun _ h => h)
    | with_reducible exact Keeps1.mk (List.prefix_append _ _) (fun _ h => h)
    | with_reducible exact (id : PartSt.held _ = true → PartSt.held _ = true)
    | with_reducible exact fun _ => ⟨rfl, rfl⟩
    | exact fun _ => asks_of_tx rfl rfl rfl
    | with_reducible exact asks_of_tx rfl rfl rfl
    | with_reducible exact (fun h => (held_addCut ..).trans h)
    | with_reducible exact (fun h => (held_mapNewest ..).trans h)
    | with_reducible exact (fun h => (held_trade ..).trans h)
    | with_reducible exact (fun h => h)
    | with_reducible exact (fun _ => rfl)
    | intro _ _
    | split
    | dsimp only

theorem askSynth_grows (u : Nat) (p : Nat) (s : State) : Grows s (askSynth u p s) := by
  unfold askSynth
  repeat' first
    | with_reducible exact Grows.refl _
    | with_reducible assumption
    | with_reducible refine Grows.trans ?_ (askRegRead_grows ..)
    | with_reducible refine each_grows ?_ ?_
    | with_reducible exact KeepsU.refl _
    | with_reducible exact ⟨fun _ => rfl, rfl⟩
    | exact Asks.refl _
    | exact fun _ => Asks.refl _
    | exact (fun h => (held_nextCut ..).trans h)
    | with_reducible exact Keeps1.refl _
    | with_reducible exact Keeps1.mk List.prefix_rfl (fun _ h => h)
    | with_reducible exact Keeps1.mk (List.prefix_append _ _) (fun _ h => h)
    | with_reducible exact (id : PartSt.held _ = true → PartSt.held _ = true)
    | with_reducible exact fun _ => ⟨rfl, rfl⟩
    | exact fun _ => asks_of_tx rfl rfl rfl
    | with_reducible exact asks_of_tx rfl rfl rfl
    | with_reducible exact (fun h => (held_addCut ..).trans h)
    | with_reducible exact (fun h => (held_mapNewest ..).trans h)
    | with_reducible exact (fun h => (held_trade ..).trans h)
    | with_reducible exact (fun h => h)
    | with_reducible exact (fun _ => rfl)
    | intro _ _
    | split
    | dsimp only

theorem cutGathered_grows (p : Nat) (s : State) : Grows s (cutGathered p s) := by
  unfold cutGathered
  have h : Grows s (modPart p (PartSt.mapNewest fun c => { c with stage := 1 }) s) :=
    modPart_grows _ _ _ fun h => (held_mapNewest ..).trans h
  split
  · split
    · exact h.trans (assignEmpty_grows ..)
    · exact h.trans (each_grows (.refl _) fun _ _ => askSynth_grows ..)
  · exact .refl _

theorem checkGather_grows (p : Nat) (s : State) : Grows s (checkGather p s) := by
  unfold checkGather
  repeat' first
    | with_reducible exact Grows.refl _
    | with_reducible assumption
    | with_reducible refine Grows.trans ?_ (modPart_grows _ _ _ ?_)
    | with_reducible refine Grows.trans ?_ (completeHalt_grows ..)
    | with_reducible refine Grows.trans ?_ (cutGathered_grows ..)
    | with_reducible refine each_grows ?_ ?_
    | with_reducible exact KeepsU.refl _
    | with_reducible exact ⟨fun _ => rfl, rfl⟩
    | exact Asks.refl _
    | exact fun _ => Asks.refl _
    | exact (fun h => (held_nextCut ..).trans h)
    | with_reducible exact Keeps1.refl _
    | with_reducible exact Keeps1.mk List.prefix_rfl (fun _ h => h)
    | with_reducible exact Keeps1.mk (List.prefix_append _ _) (fun _ h => h)
    | with_reducible exact (id : PartSt.held _ = true → PartSt.held _ = true)
    | with_reducible exact fun _ => ⟨rfl, rfl⟩
    | exact fun _ => asks_of_tx rfl rfl rfl
    | with_reducible exact asks_of_tx rfl rfl rfl
    | with_reducible exact (fun h => (held_addCut ..).trans h)
    | with_reducible exact (fun h => (held_mapNewest ..).trans h)
    | with_reducible exact (fun h => (held_trade ..).trans h)
    | with_reducible exact (fun h => h)
    | with_reducible exact (fun _ => rfl)
    | intro _ _
    | split
    | dsimp only

theorem checkGathering_grows (p : Nat) (s : State) : Grows s (checkGathering p s) := by
  unfold checkGathering
  repeat' first
    | with_reducible exact Grows.refl _
    | with_reducible assumption
    | with_reducible refine Grows.trans ?_ (checkGather_grows ..)
    | with_reducible refine each_grows ?_ ?_
    | with_reducible exact KeepsU.refl _
    | with_reducible exact ⟨fun _ => rfl, rfl⟩
    | exact Asks.refl _
    | exact fun _ => Asks.refl _
    | exact (fun h => (held_nextCut ..).trans h)
    | with_reducible exact Keeps1.refl _
    | with_reducible exact Keeps1.mk List.prefix_rfl (fun _ h => h)
    | with_reducible exact Keeps1.mk (List.prefix_append _ _) (fun _ h => h)
    | with_reducible exact (id : PartSt.held _ = true → PartSt.held _ = true)
    | with_reducible exact fun _ => ⟨rfl, rfl⟩
    | exact fun _ => asks_of_tx rfl rfl rfl
    | with_reducible exact asks_of_tx rfl rfl rfl
    | with_reducible exact (fun h => (held_addCut ..).trans h)
    | with_reducible exact (fun h => (held_mapNewest ..).trans h)
    | with_reducible exact (fun h => (held_trade ..).trans h)
    | with_reducible exact (fun h => h)
    | with_reducible exact (fun _ => rfl)
    | intro _ _
    | split
    | dsimp only

theorem raiseAction_grows (r : HaltReq) (h : AtHalt) (s : State) : Grows s (raiseAction r h s) := by
  unfold raiseAction
  extract_lets p cut abrupt h1 c joins own
  clear_value own joins c h1 abrupt cut p
  cases cut <;> cases abrupt <;>
    simp only [Bool.or_true, Bool.true_or, Bool.or_self, Bool.true_and, Bool.false_and, reduceIte, Bool.false_eq_true]
  all_goals repeat' first
    | with_reducible exact Grows.refl _
    | with_reducible refine Grows.trans ?_ (plaitSend_grows ..)
    | with_reducible refine Grows.trans ?_ (.of_only (fallbackHalts_only ..) (by decide))
    | with_reducible refine Grows.trans ?_ (sendHalts_grows ..)
    | with_reducible refine Grows.trans ?_ (modPart_grows _ (PartSt.addCut _) _ (fun h => (held_addCut ..).trans h))
    | exact modPart_grows _ _ _ (fun h => h)
    | with_reducible refine Grows.trans ?_ (modPart_grows _ (PartSt.mapNewest _) _ (fun h => (held_mapNewest ..).trans h))
    | split

theorem joinAction_grows (p : Nat) (mask : Nat) (h : AtHalt) (s : State) : Grows s (joinAction p mask h s) := by
  unfold joinAction
  repeat' first
    | with_reducible exact Grows.refl _
    | with_reducible assumption
    | with_reducible refine Grows.trans ?_ (modPart_grows _ _ _ ?_)
    | with_reducible refine Grows.trans ?_ (checkGathering_grows ..)
    | with_reducible refine Grows.trans ?_ (raiseAction_grows ..)
    | with_reducible refine each_grows ?_ ?_
    | with_reducible exact KeepsU.refl _
    | with_reducible exact ⟨fun _ => rfl, rfl⟩
    | exact Asks.refl _
    | exact fun _ => Asks.refl _
    | exact (fun h => (held_nextCut ..).trans h)
    | with_reducible exact Keeps1.refl _
    | with_reducible exact Keeps1.mk List.prefix_rfl (fun _ h => h)
    | with_reducible exact Keeps1.mk (List.prefix_append _ _) (fun _ h => h)
    | with_reducible exact (id : PartSt.held _ = true → PartSt.held _ = true)
    | with_reducible exact fun _ => ⟨rfl, rfl⟩
    | exact fun _ => asks_of_tx rfl rfl rfl
    | with_reducible exact asks_of_tx rfl rfl rfl
    | with_reducible exact (fun h => (held_addCut ..).trans h)
    | with_reducible exact (fun h => (held_mapNewest ..).trans h)
    | with_reducible exact (fun h => (held_trade ..).trans h)
    | with_reducible exact (fun h => h)
    | with_reducible exact (fun _ => rfl)
    | intro _ _
    | split
    | dsimp only

theorem edgeEffect_grows (p : Nat) (mask : Nat) (s : State) : Grows s (edgeEffect p mask s) := by
  unfold edgeEffect
  repeat' first
    | with_reducible exact Grows.refl _
    | with_reducible assumption
    | with_reducible refine Grows.trans ?_ (modPart_grows _ _ _ ?_)
    | with_reducible refine Grows.trans ?_ (triggerRec_grows ..)
    | with_reducible refine Grows.trans ?_ (joinAction_grows ..)
    | with_reducible refine each_grows ?_ ?_
    | with_reducible exact KeepsU.refl _
    | with_reducible exact ⟨fun _ => rfl, rfl⟩
    | exact Asks.refl _
    | exact fun _ => Asks.refl _
    | exact (fun h => (held_nextCut ..).trans h)
    | with_reducible exact Keeps1.refl _
    | with_reducible exact Keeps1.mk List.prefix_rfl (fun _ h => h)
    | with_reducible exact Keeps1.mk (List.prefix_append _ _) (fun _ h => h)
    | with_reducible exact (id : PartSt.held _ = true → PartSt.held _ = true)
    | with_reducible exact fun _ => ⟨rfl, rfl⟩
    | exact fun _ => asks_of_tx rfl rfl rfl
    | with_reducible exact asks_of_tx rfl rfl rfl
    | with_reducible exact (fun h => (held_addCut ..).trans h)
    | with_reducible exact (fun h => (held_mapNewest ..).trans h)
    | with_reducible exact (fun h => (held_trade ..).trans h)
    | with_reducible exact (fun h => h)
    | with_reducible exact (fun _ => rfl)
    | intro _ _
    | split
    | dsimp only

theorem edgeOnce_grows (host : List HaltReq) (s : State) : Grows s (edgeOnce host s) := by
  unfold edgeOnce
  repeat' first
    | with_reducible exact Grows.refl _
    | with_reducible assumption
    | with_reducible refine Grows.trans ?_ (performHalts_grows ..)
    | with_reducible refine Grows.trans ?_ (checkGather_grows ..)
    | with_reducible refine Grows.trans ?_ (edgeEffect_grows ..)
    | with_reducible refine each_grows ?_ ?_
    | with_reducible exact KeepsU.refl _
    | with_reducible exact ⟨fun _ => rfl, rfl⟩
    | exact Asks.refl _
    | exact fun _ => Asks.refl _
    | exact (fun h => (held_nextCut ..).trans h)
    | with_reducible exact Keeps1.refl _
    | with_reducible exact Keeps1.mk List.prefix_rfl (fun _ h => h)
    | with_reducible exact Keeps1.mk (List.prefix_append _ _) (fun _ h => h)
    | with_reducible exact (id : PartSt.held _ = true → PartSt.held _ = true)
    | with_reducible exact fun _ => ⟨rfl, rfl⟩
    | exact fun _ => asks_of_tx rfl rfl rfl
    | with_reducible exact asks_of_tx rfl rfl rfl
    | with_reducible exact (fun h => (held_addCut ..).trans h)
    | with_reducible exact (fun h => (held_mapNewest ..).trans h)
    | with_reducible exact (fun h => (held_trade ..).trans h)
    | with_reducible exact (fun h => h)
    | with_reducible exact (fun _ => rfl)
    | intro _ _
    | split
    | with_reducible refine Grows_upd_fires ?_
    | dsimp only

theorem latticeEdge_grows (host : List HaltReq) (s : State) : Grows s (latticeEdge host s) := by
  have h : ∀ t, Grows t (each s.switching (fun p => modPart p PartSt.trade) t) := fun t =>
    each_grows (.refl _) fun _ _ => modPart_grows _ _ _ fun h => (held_trade ..).trans h
  exact ((h s).trans (edgeOnce_grows ..)).trans (h _)

theorem settleLoop_grows (k : Nat) (s : State) : Grows s (settleLoop k s) := by
  induction k generalizing s with
  | zero => exact .refl _
  | succ k ih =>
    unfold settleLoop
    repeat' first
      | with_reducible exact Grows.refl _
      | with_reducible assumption
      | with_reducible refine Grows.trans ?_ (latticeEdge_grows ..)
      | with_reducible refine Grows.trans ?_ (ih ..)
      | with_reducible refine each_grows ?_ ?_
      | with_reducible exact KeepsU.refl _
      | with_reducible exact ⟨fun _ => rfl, rfl⟩
      | exact Asks.refl _
      | exact fun _ => Asks.refl _
      | exact (fun h => (held_nextCut ..).trans h)
      | with_reducible exact Keeps1.refl _
      | with_reducible exact Keeps1.mk List.prefix_rfl (fun _ h => h)
      | with_reducible exact Keeps1.mk (List.prefix_append _ _) (fun _ h => h)
      | with_reducible exact (id : PartSt.held _ = true → PartSt.held _ = true)
      | with_reducible exact fun _ => ⟨rfl, rfl⟩
      | exact fun _ => asks_of_tx rfl rfl rfl
      | with_reducible exact asks_of_tx rfl rfl rfl
      | with_reducible exact (fun h => (held_addCut ..).trans h)
      | with_reducible exact (fun h => (held_mapNewest ..).trans h)
      | with_reducible exact (fun h => (held_trade ..).trans h)
      | with_reducible exact (fun h => h)
      | with_reducible exact (fun _ => rfl)
      | intro _ _
      | split
      | dsimp only

theorem settle_grows (s : State) : Grows s (settle s) := by
  unfold settle
  repeat' first
    | with_reducible exact Grows.refl _
    | with_reducible assumption
    | with_reducible refine Grows.trans ?_ (settleLoop_grows ..)
    | with_reducible refine each_grows ?_ ?_
    | with_reducible exact KeepsU.refl _
    | with_reducible exact ⟨fun _ => rfl, rfl⟩
    | exact Asks.refl _
    | exact fun _ => Asks.refl _
    | exact (fun h => (held_nextCut ..).trans h)
    | with_reducible exact Keeps1.refl _
    | with_reducible exact Keeps1.mk List.prefix_rfl (fun _ h => h)
    | with_reducible exact Keeps1.mk (List.prefix_append _ _) (fun _ h => h)
    | with_reducible exact (id : PartSt.held _ = true → PartSt.held _ = true)
    | with_reducible exact fun _ => ⟨rfl, rfl⟩
    | exact fun _ => asks_of_tx rfl rfl rfl
    | with_reducible exact asks_of_tx rfl rfl rfl
    | with_reducible exact (fun h => (held_addCut ..).trans h)
    | with_reducible exact (fun h => (held_mapNewest ..).trans h)
    | with_reducible exact (fun h => (held_trade ..).trans h)
    | with_reducible exact (fun h => h)
    | with_reducible exact (fun _ => rfl)
    | intro _ _
    | split
    | with_reducible refine Grows_upd_fires ?_
    | dsimp only

theorem sendParts_grows (f : Nat) (tag : W32) (p : Nat) (sel : Nat → Bool) (l : List CmdMsg) (s : State) : Grows s (sendParts f tag p sel l s) := by
  unfold sendParts
  repeat' first
    | with_reducible exact Grows.refl _
    | with_reducible assumption
    | with_reducible refine Grows.trans ?_ (modWork_grows ..)
    | with_reducible refine Grows.trans ?_ (ask_grows ..)
    | with_reducible refine each_grows ?_ ?_
    | with_reducible exact KeepsU.refl _
    | with_reducible exact ⟨fun _ => rfl, rfl⟩
    | exact Asks.refl _
    | exact fun _ => Asks.refl _
    | exact (fun h => (held_nextCut ..).trans h)
    | with_reducible exact Keeps1.refl _
    | with_reducible exact Keeps1.mk List.prefix_rfl (fun _ h => h)
    | with_reducible exact Keeps1.mk (List.prefix_append _ _) (fun _ h => h)
    | with_reducible exact (id : PartSt.held _ = true → PartSt.held _ = true)
    | with_reducible exact fun _ => ⟨rfl, rfl⟩
    | exact fun _ => asks_of_tx rfl rfl rfl
    | with_reducible exact asks_of_tx rfl rfl rfl
    | with_reducible exact (fun h => (held_addCut ..).trans h)
    | with_reducible exact (fun h => (held_mapNewest ..).trans h)
    | with_reducible exact (fun h => (held_trade ..).trans h)
    | with_reducible exact (fun h => h)
    | with_reducible exact (fun _ => rfl)
    | intro _ _
    | split
    | dsimp only

theorem sendAll_grows (f : Nat) (c : Cmd) (l : List CmdMsg) (s : State) : Grows s (sendAll f c l s) := by
  unfold sendAll
  repeat' first
    | with_reducible exact Grows.refl _
    | with_reducible assumption
    | with_reducible refine Grows.trans ?_ (sendParts_grows ..)
    | with_reducible refine each_grows ?_ ?_
    | with_reducible exact KeepsU.refl _
    | with_reducible exact ⟨fun _ => rfl, rfl⟩
    | exact Asks.refl _
    | exact fun _ => Asks.refl _
    | exact (fun h => (held_nextCut ..).trans h)
    | with_reducible exact Keeps1.refl _
    | with_reducible exact Keeps1.mk List.prefix_rfl (fun _ h => h)
    | with_reducible exact Keeps1.mk (List.prefix_append _ _) (fun _ h => h)
    | with_reducible exact (id : PartSt.held _ = true → PartSt.held _ = true)
    | with_reducible exact fun _ => ⟨rfl, rfl⟩
    | exact fun _ => asks_of_tx rfl rfl rfl
    | with_reducible exact asks_of_tx rfl rfl rfl
    | with_reducible exact (fun h => (held_addCut ..).trans h)
    | with_reducible exact (fun h => (held_mapNewest ..).trans h)
    | with_reducible exact (fun h => (held_trade ..).trans h)
    | with_reducible exact (fun h => h)
    | with_reducible exact (fun _ => rfl)
    | intro _ _
    | split
    | dsimp only

end Sys2Proof.Laws
end

