-- ==== Sys2Proof/Laws/Still.lean ====
section
/-!
SUPPORT. What the settling of the trigger lattice leaves as it was within the fields of State that it does change: ownership,
wefts, links, ring registers, billing and library.
-/

namespace Sys2Proof.Laws
open Sys2Proof Sys2Proof.Machine
set_option linter.unusedTactic false
set_option linter.unreachableTactic false

structure FnStill where
  cmdBase : W64
  cplBase : W64
  ringSize : W32
  tail : BitVec 12
  head : BitVec 12
  cplHead : BitVec 12
  enable : Bool
  fetching : Bool
  ringError : Bool
  errorCode : BitVec 4
  resetDrain : Bool
  coal : W32
  d3hot : Bool
  unitSel : W32
  cutSel : W32
  cntSel : List (Nat × W32)
  aoSel : W32
  osrLibSel : W32
  osrRunSel : W32
def fnStill (x : FnSt) : FnStill := ⟨x.cmdBase, x.cplBase, x.ringSize, x.tail, x.head, x.cplHead, x.enable, x.fetching, x.ringError, x.errorCode, x.resetDrain, x.coal, x.d3hot, x.unitSel, x.cutSel, x.cntSel, x.aoSel, x.osrLibSel, x.osrRunSel⟩
structure SessStill where
  allow : BitVec 64
  globalView : Bool
def sessStill (x : SessSt) : SessStill := ⟨x.allow, x.globalView⟩
structure PartStill where
  owner : Option Nat
  observers : List Nat
  active : Plane
  before : Option (W64 × Plane)
  activeB : Bool
  inactive : Option Plane
  lastGen : W32
  commit : Option Commit
  resetPending : Bool
  routes : List Byte
  oldRoutes : List Byte
  switchTs : W64
  routeOverride : Bool
  forcedRaw : Bool
def partStill (x : PartSt) : PartStill := ⟨x.owner, x.observers, x.active, x.before.map fun b => (b.at_, b.active), x.activeB, x.inactive, x.lastGen, x.commit, x.resetPending, x.routes, x.oldRoutes, x.switchTs, x.routeOverride, x.forcedRaw⟩
structure LnkStill where
  link : LinkState
  since : Nat
  downCause : BitVec 4
  trainFails : Byte
  err : BitVec 3
  lock : BitVec 2
  tsSeen : BitVec 2
  tsBad : BitVec 2
  alignSeen : BitVec 2
  cfgSeen : Bool
  cfgPeerSeen : Bool
  lastAccepted : BitVec 12
  discarding : Bool
  rxSeq : BitVec 12
  exchanges : List Exchange
  exchNo : Byte
  exchOut : Option (Byte × W64)
  lastExchange : Nat
  exchDone : Nat
  offset : W64
  rtt : W32
  offsetT1 : W64
def lnkStill (x : Lnk) : LnkStill := ⟨x.link, x.since, x.downCause, x.trainFails, x.err, x.lock, x.tsSeen, x.tsBad, x.alignSeen, x.cfgSeen, x.cfgPeerSeen, x.lastAccepted, x.discarding, x.rxSeq, x.exchanges, x.exchNo, x.exchOut, x.lastExchange, x.exchDone, x.offset, x.rtt, x.offsetT1⟩
structure PlaitStill where
  role : BitVec 2
  pair : PairState
  mismatch : BitVec 4
  retained : Option (List Byte)
  hbPresent : Bool
  hbEver : Bool
  lastHb : Nat
  hbOut : Pulse
  hello : Option Hello
  everPaired : Bool
  everReleased : Bool
  everActive : Bool
  readyAt : Nat
def plaitStill (x : PlaitCtl) : PlaitStill := ⟨x.role, x.pair, x.mismatch, x.retained, x.hbPresent, x.hbEver, x.lastHb, x.hbOut, x.hello, x.everPaired, x.everReleased, x.everActive, x.readyAt⟩
structure ErrStill where
  sel : BitVec 6
  thermalArmed : Bool
  stopped : Bool
def errStill (x : ErrCtl) : ErrStill := ⟨x.sel, x.thermalArmed, x.stopped⟩
structure BillStill where
  epoch : W32
  wallSet : Bool
  wall : W64
  wallAt : W64
  periodS : W32
  originS : W32
  lastBoundary : Option Nat
def billStill (x : Billing) : BillStill := ⟨x.epoch, x.wallSet, x.wall, x.wallAt, x.periodS, x.originS, x.lastBoundary⟩
structure OsierStill where
  lib : List LibEntry
  scanCtrl : W32
def osierStill (x : OsierCtl) : OsierStill := ⟨x.lib, x.scanCtrl⟩
structure PortStill where
  lk : LnkStill
  lanes : BitVec 2
  peerRole : BitVec 2
  newDie : Bool
  uidNew : Bool
  peerUnits : BitVec 13
  peerCaps : BitVec 3
  uid : W64
  lastUid : Option W64
  tickFs : W32
  detachAt : Option Nat
  enumerated : Bool
  warp : WarpPort
  classes : List (Nat × List Byte)
def portStill (x : PortSt) : PortStill := ⟨lnkStill x.lk, x.lanes, x.peerRole, x.newDie, x.uidNew, x.peerUnits, x.peerCaps, x.uid, x.lastUid, x.tickFs, x.detachAt, x.enumerated, x.warp, x.classes⟩
/-- The fields that settling leaves as they were. -/
structure Still (s t : State) : Prop where
  fns : t.fns.map fnStill = s.fns.map fnStill
  sess : t.sess.map sessStill = s.sess.map sessStill
  ports : t.ports.map portStill = s.ports.map portStill
  parts : t.parts.map partStill = s.parts.map partStill
  plk : lnkStill t.plait.lk = lnkStill s.plait.lk
  plait : plaitStill t.plait = plaitStill s.plait
  err : errStill t.err = errStill s.err
  bill : billStill t.billing = billStill s.billing
  osier : osierStill t.osier = osierStill s.osier

theorem Still.refl (s : State) : Still s s := ⟨rfl, rfl, rfl, rfl, rfl, rfl, rfl, rfl, rfl⟩
theorem Still.trans {s t u : State} (h : Still s t) (k : Still t u) : Still s u :=
  ⟨k.1.trans h.1, k.2.trans h.2, k.3.trans h.3, k.4.trans h.4, k.5.trans h.5, k.6.trans h.6, k.7.trans h.7, k.8.trans h.8,
   k.9.trans h.9⟩
/-- The fields of State that the view reads. -/
def stillFields : List Fld := [.fns, .sess, .ports, .parts, .plait, .err, .billing, .osier]
theorem Still.of_only {l : List Fld} {s t : State} (h : Only l s t) (k : stillFields.all (fun f => !l.contains f) = true) :
    Still s t := by
  have e : ∀ f ∈ stillFields, f.same s t := fun f i => h.same f (by simpa using List.all_eq_true.mp k f i)
  have e1 : t.fns = s.fns := e .fns (by decide)
  have e2 : t.sess = s.sess := e .sess (by decide)
  have e3 : t.ports = s.ports := e .ports (by decide)
  have e4 : t.parts = s.parts := e .parts (by decide)
  have e5 : t.plait = s.plait := e .plait (by decide)
  have e6 : t.err = s.err := e .err (by decide)
  have e7 : t.billing = s.billing := e .billing (by decide)
  have e8 : t.osier = s.osier := e .osier (by decide)
  constructor <;> simp only [e1, e2, e3, e4, e5, e6, e7, e8]
theorem each_still {α : Type} {l : List α} {g : α → State → State} {s0 s : State} (h : Still s0 s) (k : ∀ a t, Still t (g a t)) :
    Still s0 (each l g s) := by
  refine h.trans ?_
  clear h
  unfold each
  induction l generalizing s with
  | nil => exact .refl _
  | cons a l ih => exact (k a s).trans ih
theorem map_set {α β : Type} {n : Nat} (v : Vector α n) (i : Nat) (h : i < n) (x : α) (F : α → β) (hx : F x = F v[i]) :
    (v.set i x).map F = v.map F := by
  ext j hj
  simp only [Vector.getElem_map, Vector.getElem_set]
  split
  · subst_vars; exact hx
  · rfl
theorem modFn_still (i : Nat) (g : FnSt → FnSt) (s : State) (h : fnStill (g (s.fn i)) = fnStill (s.fn i)) :
    Still s (modFn i g s) := by
  unfold modFn
  split
  · rename_i hi
    unfold State.fn at h
    rw [dif_pos hi] at h
    exact { Still.refl s with fns := map_set _ _ _ _ _ h }
  · exact .refl _
theorem modSess_still (i : Nat) (g : SessSt → SessSt) (s : State) (h : sessStill (g (s.ses i)) = sessStill (s.ses i)) :
    Still s (modSess i g s) := by
  unfold modSess
  split
  · rename_i hi
    unfold State.ses at h
    rw [dif_pos hi] at h
    exact { Still.refl s with sess := map_set _ _ _ _ _ h }
  · exact .refl _
theorem modPort_still (i : Nat) (g : PortSt → PortSt) (s : State) (h : portStill (g (s.port i)) = portStill (s.port i)) :
    Still s (modPort i g s) := by
  unfold modPort
  split
  · rename_i hi
    unfold State.port at h
    rw [dif_pos hi] at h
    exact { Still.refl s with ports := map_set _ _ _ _ _ h }
  · exact .refl _
theorem modPart_still (i : Nat) (g : PartSt → PartSt) (s : State) (h : partStill (g (s.part i)) = partStill (s.part i)) :
    Still s (modPart i g s) := by
  unfold modPart
  split
  · rename_i hi
    unfold State.part at h
    rw [dif_pos hi] at h
    exact { Still.refl s with parts := map_set _ _ _ _ _ h }
  · exact .refl _
theorem modLnk_still (l : Nat) (g : Lnk → Lnk) (s : State) (h : lnkStill (g (s.lnk l)) = lnkStill (s.lnk l)) :
    Still s (modLnk l g s) := by
  unfold modLnk
  unfold State.lnk at h
  split
  · rename_i hl
    rw [if_pos hl] at h
    exact { Still.refl s with plk := h }
  · rename_i hl
    rw [if_neg hl] at h
    refine modPort_still _ _ _ ?_
    unfold portStill
    dsimp only
    rw [h]
theorem lnkStill_setTx (x : Lnk) (ch : Nat) (c : TxChan) : lnkStill (x.setTx ch c) = lnkStill x := by
  unfold Lnk.setTx
  repeat' split
  all_goals rfl
theorem lnkStill_sent (x : Lnk) (f : Flit) (n : Nat) : lnkStill (x.sent f n) = lnkStill x := (lnkStill_setTx ..).trans rfl
theorem lnkStill_lastVc1 (x : Lnk) (b : Bool) : lnkStill { x with lastVc1 := b } = lnkStill x := rfl
theorem partStill_nextCut (x : PartSt) : partStill x.nextCut = partStill x := rfl
theorem partStill_addCut (c : Cut) (x : PartSt) : partStill (x.addCut c) = partStill x := by
  unfold PartSt.addCut; split <;> rfl
theorem partStill_mapNewest (g : Cut → Cut) (x : PartSt) : partStill (x.mapNewest g) = partStill x := by
  unfold PartSt.mapNewest; split <;> rfl
/-- What trading the lattice of a partition does to the view. -/
def PartStill.trade (x : PartStill) : PartStill :=
  match x.before with
  | some (a, b) => { x with active := b, before := some (a, x.active) }
  | none => x
theorem partStill_trade (x : PartSt) : partStill x.trade = (partStill x).trade := by
  unfold PartSt.trade
  split
  · rename_i b h
    unfold PartStill.trade partStill
    rw [h]
    rfl
  · rename_i h
    unfold PartStill.trade partStill
    rw [h]
    rfl
theorem PartStill.trade_trade (x : PartStill) : x.trade.trade = x := by
  obtain ⟨o, ob, a, b, r⟩ := x
  cases b <;> rfl
/-- Trading a partition, seen in the views of all. -/
def tradeAt (v : Vector PartStill 64) (p : Nat) : Vector PartStill 64 := if h : p < 64 then v.set p v[p].trade else v
theorem tradeAt_tradeAt (v : Vector PartStill 64) (p q : Nat) : tradeAt (tradeAt v p) q = tradeAt (tradeAt v q) p := by
  unfold tradeAt
  by_cases hp : p < 64 <;> by_cases hq : q < 64 <;> simp only [hp, hq, dite_true, dite_false]
  by_cases e : p = q
  · subst e; rfl
  · rw [Vector.getElem_set_ne _ _ e, Vector.getElem_set_ne _ _ (Ne.symm e), Vector.set_comm _ _ e]
theorem tradeAt_self (v : Vector PartStill 64) (p : Nat) : tradeAt (tradeAt v p) p = v := by
  unfold tradeAt
  by_cases hp : p < 64 <;> simp only [hp, dite_true, dite_false]
  rw [Vector.getElem_set_self, PartStill.trade_trade, Vector.set_set, Vector.set_getElem_self]
theorem foldl_tradeAt (l : List Nat) (v : Vector PartStill 64) (p : Nat) :
    l.foldl tradeAt (tradeAt v p) = tradeAt (l.foldl tradeAt v) p := by
  induction l generalizing v with
  | nil => rfl
  | cons q l ih => exact (congrArg (List.foldl tradeAt · l) (tradeAt_tradeAt v p q)).trans (ih _)
theorem foldl_tradeAt_twice (l : List Nat) (v : Vector PartStill 64) : l.foldl tradeAt (l.foldl tradeAt v) = v := by
  induction l generalizing v with
  | nil => rfl
  | cons p l ih =>
    show l.foldl tradeAt (tradeAt (l.foldl tradeAt (tradeAt v p)) p) = v
    rw [foldl_tradeAt l v p, foldl_tradeAt, foldl_tradeAt, ih, tradeAt_self]
theorem modPart_trade (p : Nat) (s : State) :
    (modPart p PartSt.trade s).parts.map partStill = tradeAt (s.parts.map partStill) p := by
  unfold modPart tradeAt
  split
  · ext j hj
    simp only [Vector.getElem_map, Vector.getElem_set]
    split
    · exact partStill_trade _
    · rfl
  · rfl
theorem each_trade (l : List Nat) (s : State) :
    (each l (fun p => modPart p PartSt.trade) s).parts.map partStill = l.foldl tradeAt (s.parts.map partStill) := by
  unfold each
  induction l generalizing s with
  | nil => rfl
  | cons p l ih => exact (ih _).trans (congrArg (List.foldl tradeAt · l) (modPart_trade p s))
/-- Trading partitions before and after what leaves the views still leaves them still. -/
theorem Still.traded {l : List Nat} {f : State → State} (hf : ∀ t, Still t (f t)) (s : State) :
    Still s (each l (fun p => modPart p PartSt.trade) (f (each l (fun p => modPart p PartSt.trade) s))) := by
  have o : ∀ t, Only [.parts] t (each l (fun p => modPart p PartSt.trade) t) := fun t =>
    each_only (.refl _ _) fun _ _ => modPart_only ..
  have h := o s
  have k := hf (each l (fun p => modPart p PartSt.trade) s)
  have h' := o (f (each l (fun p => modPart p PartSt.trade) s))
  generalize hu : each l (fun p => modPart p PartSt.trade) s = u at h k h' ⊢
  generalize f u = w at k h' ⊢
  have p : (each l (fun p => modPart p PartSt.trade) w).parts.map partStill = s.parts.map partStill := by
    rw [each_trade, k.parts, ← hu, each_trade, foldl_tradeAt_twice]
  have e : ∀ {a b : State}, Only [.parts] a b → a.fns = b.fns ∧ a.sess = b.sess ∧ a.ports = b.ports ∧ a.plait = b.plait ∧
      a.err = b.err ∧ a.billing = b.billing ∧ a.osier = b.osier := fun o =>
    ⟨(o.same .fns (by decide)).symm, (o.same .sess (by decide)).symm, (o.same .ports (by decide)).symm,
     (o.same .plait (by decide)).symm, (o.same .err (by decide)).symm, (o.same .billing (by decide)).symm,
     (o.same .osier (by decide)).symm⟩
  obtain ⟨a1, a2, a3, a4, a5, a6, a7⟩ := e h
  obtain ⟨b1, b2, b3, b4, b5, b6, b7⟩ := e h'
  exact ⟨by rw [← b1, k.fns, a1], by rw [← b2, k.sess, a2], by rw [← b3, k.ports, a3], p, by rw [← b4, k.plk, a4],
    by rw [← b4, k.plait, a4], by rw [← b5, k.err, a5], by rw [← b6, k.bill, a6], by rw [← b7, k.osier, a7]⟩

theorem Still_upd_billing {s x : State} {v_billing} (h : Still s x) (kbilling0 : billStill v_billing = billStill x.billing) :
    Still s (State.mk x.pending x.now x.id x.pins x.clk x.straps x.boot x.lcy x.tap x.tapLatches x.weave x.hosts x.fns x.sess v_billing x.ports x.units x.parts x.xtrigOut x.slath x.hang x.wale x.always x.osier x.plait x.err x.mem x.out x.fires x.free) :=
  h.trans ⟨rfl, rfl, rfl, rfl, rfl, rfl, rfl, kbilling0, rfl⟩

theorem Still_upd_slath {s x : State} {v_slath} (h : Still s x) :
    Still s (State.mk x.pending x.now x.id x.pins x.clk x.straps x.boot x.lcy x.tap x.tapLatches x.weave x.hosts x.fns x.sess x.billing x.ports x.units x.parts x.xtrigOut v_slath x.hang x.wale x.always x.osier x.plait x.err x.mem x.out x.fires x.free) :=
  h.trans ⟨rfl, rfl, rfl, rfl, rfl, rfl, rfl, rfl, rfl⟩

theorem Still_upd_osier {s x : State} {v_osier} (h : Still s x) (kosier0 : osierStill v_osier = osierStill x.osier) :
    Still s (State.mk x.pending x.now x.id x.pins x.clk x.straps x.boot x.lcy x.tap x.tapLatches x.weave x.hosts x.fns x.sess x.billing x.ports x.units x.parts x.xtrigOut x.slath x.hang x.wale x.always v_osier x.plait x.err x.mem x.out x.fires x.free) :=
  h.trans ⟨rfl, rfl, rfl, rfl, rfl, rfl, rfl, rfl, kosier0⟩

theorem Still_upd_err {s x : State} {v_err} (h : Still s x) (kerr0 : errStill v_err = errStill x.err) :
    Still s (State.mk x.pending x.now x.id x.pins x.clk x.straps x.boot x.lcy x.tap x.tapLatches x.weave x.hosts x.fns x.sess x.billing x.ports x.units x.parts x.xtrigOut x.slath x.hang x.wale x.always x.osier x.plait v_err x.mem x.out x.fires x.free) :=
  h.trans ⟨rfl, rfl, rfl, rfl, rfl, rfl, kerr0, rfl, rfl⟩

theorem Still_upd_fires {s x : State} {v_fires} (h : Still s x) :
    Still s (State.mk x.pending x.now x.id x.pins x.clk x.straps x.boot x.lcy x.tap x.tapLatches x.weave x.hosts x.fns x.sess x.billing x.ports x.units x.parts x.xtrigOut x.slath x.hang x.wale x.always x.osier x.plait x.err x.mem x.out v_fires x.free) :=
  h.trans ⟨rfl, rfl, rfl, rfl, rfl, rfl, rfl, rfl, rfl⟩

theorem signal_still (f : Nat) (v : Nat) (s : State) : Still s (signal f v s) := by
  unfold signal
  repeat' first
    | with_reducible exact Still.refl _
    | with_reducible assumption
    | with_reducible refine Still.trans ?_ (modFn_still _ _ _ ?_)
    | with_reducible refine Still.trans ?_ (Still.of_only (emit_only ..) (by decide))
    | with_reducible refine Still.trans ?_ (Still.of_only (bumpAlways_only ..) (by decide))
    | with_reducible refine each_still ?_ ?_
    | intro _ _
    | split
    | with_reducible rfl
    | (delta fnStill; with_reducible rfl)
    | (delta sessStill; with_reducible rfl)
    | (delta portStill; with_reducible rfl)
    | (delta partStill; with_reducible rfl)
    | (delta lnkStill; with_reducible rfl)
    | (delta plaitStill; with_reducible rfl)
    | (delta errStill; with_reducible rfl)
    | (delta billStill; with_reducible rfl)
    | (delta osierStill; with_reducible rfl)
    | (delta portStill lnkStill; with_reducible rfl)
    | (with_reducible refine (lnkStill_setTx ..).trans ?_)
    | (with_reducible refine (lnkStill_sent ..).trans ?_)
    | (with_reducible refine (lnkStill_lastVc1 ..).trans ?_)
    | with_reducible exact partStill_nextCut _
    | with_reducible exact partStill_addCut _ _
    | with_reducible exact partStill_mapNewest _ _
    | dsimp only

theorem signalPfs_still (v : Nat) (s : State) : Still s (signalPfs v s) := by
  unfold signalPfs
  repeat' first
    | with_reducible exact Still.refl _
    | with_reducible assumption
    | with_reducible refine Still.trans ?_ (signal_still ..)
    | with_reducible refine each_still ?_ ?_
    | intro _ _
    | split
    | with_reducible rfl
    | (delta fnStill; with_reducible rfl)
    | (delta sessStill; with_reducible rfl)
    | (delta portStill; with_reducible rfl)
    | (delta partStill; with_reducible rfl)
    | (delta lnkStill; with_reducible rfl)
    | (delta plaitStill; with_reducible rfl)
    | (delta errStill; with_reducible rfl)
    | (delta billStill; with_reducible rfl)
    | (delta osierStill; with_reducible rfl)
    | (delta portStill lnkStill; with_reducible rfl)
    | (with_reducible refine (lnkStill_setTx ..).trans ?_)
    | (with_reducible refine (lnkStill_sent ..).trans ?_)
    | (with_reducible refine (lnkStill_lastVc1 ..).trans ?_)
    | with_reducible exact partStill_nextCut _
    | with_reducible exact partStill_addCut _ _
    | with_reducible exact partStill_mapNewest _ _
    | dsimp only

theorem errBit_still (cls : Nat) (s : State) : Still s (errBit cls s) := by
  unfold errBit
  repeat' first
    | with_reducible exact Still.refl _
    | with_reducible assumption
    | with_reducible refine Still.trans ?_ (signalPfs_still ..)
    | with_reducible refine each_still ?_ ?_
    | intro _ _
    | split
    | with_reducible refine Still_upd_err ?_ ?_
    | with_reducible rfl
    | (delta fnStill; with_reducible rfl)
    | (delta sessStill; with_reducible rfl)
    | (delta portStill; with_reducible rfl)
    | (delta partStill; with_reducible rfl)
    | (delta lnkStill; with_reducible rfl)
    | (delta plaitStill; with_reducible rfl)
    | (delta errStill; with_reducible rfl)
    | (delta billStill; with_reducible rfl)
    | (delta osierStill; with_reducible rfl)
    | (delta portStill lnkStill; with_reducible rfl)
    | (with_reducible refine (lnkStill_setTx ..).trans ?_)
    | (with_reducible refine (lnkStill_sent ..).trans ?_)
    | (with_reducible refine (lnkStill_lastVc1 ..).trans ?_)
    | with_reducible exact partStill_nextCut _
    | with_reducible exact partStill_addCut _ _
    | with_reducible exact partStill_mapNewest _ _
    | dsimp only

theorem errLog_still (cls : Nat) (scope : Nat) (inst : Nat) (addr : Nat) (detail : Nat) (action : Nat) (s : State) : Still s (errLog cls scope inst addr detail action s) := by
  unfold errLog
  repeat' first
    | with_reducible exact Still.refl _
    | with_reducible assumption
    | with_reducible refine each_still ?_ ?_
    | intro _ _
    | split
    | with_reducible refine Still_upd_err ?_ ?_
    | with_reducible rfl
    | (delta fnStill; with_reducible rfl)
    | (delta sessStill; with_reducible rfl)
    | (delta portStill; with_reducible rfl)
    | (delta partStill; with_reducible rfl)
    | (delta lnkStill; with_reducible rfl)
    | (delta plaitStill; with_reducible rfl)
    | (delta errStill; with_reducible rfl)
    | (delta billStill; with_reducible rfl)
    | (delta osierStill; with_reducible rfl)
    | (delta portStill lnkStill; with_reducible rfl)
    | (with_reducible refine (lnkStill_setTx ..).trans ?_)
    | (with_reducible refine (lnkStill_sent ..).trans ?_)
    | (with_reducible refine (lnkStill_lastVc1 ..).trans ?_)
    | with_reducible exact partStill_nextCut _
    | with_reducible exact partStill_addCut _ _
    | with_reducible exact partStill_mapNewest _ _
    | dsimp only

theorem raiseErr_still (cls : Nat) (scope : Nat) (inst : Nat) (addr : Nat) (detail : Nat) (action : Nat) (s : State) : Still s (raiseErr cls scope inst addr detail action s) := by
  unfold raiseErr
  repeat' first
    | with_reducible exact Still.refl _
    | with_reducible assumption
    | with_reducible refine Still.trans ?_ (errBit_still ..)
    | with_reducible refine Still.trans ?_ (errLog_still ..)
    | with_reducible refine each_still ?_ ?_
    | intro _ _
    | split
    | with_reducible rfl
    | (delta fnStill; with_reducible rfl)
    | (delta sessStill; with_reducible rfl)
    | (delta portStill; with_reducible rfl)
    | (delta partStill; with_reducible rfl)
    | (delta lnkStill; with_reducible rfl)
    | (delta plaitStill; with_reducible rfl)
    | (delta errStill; with_reducible rfl)
    | (delta billStill; with_reducible rfl)
    | (delta osierStill; with_reducible rfl)
    | (delta portStill lnkStill; with_reducible rfl)
    | (with_reducible refine (lnkStill_setTx ..).trans ?_)
    | (with_reducible refine (lnkStill_sent ..).trans ?_)
    | (with_reducible refine (lnkStill_lastVc1 ..).trans ?_)
    | with_reducible exact partStill_nextCut _
    | with_reducible exact partStill_addCut _ _
    | with_reducible exact partStill_mapNewest _ _
    | dsimp only

theorem correctedWord_still (dram : Bool) (s : State) : Still s (correctedWord dram s) := by
  unfold correctedWord
  repeat' first
    | with_reducible exact Still.refl _
    | with_reducible assumption
    | with_reducible refine Still.trans ?_ (Still.of_only (bumpAlways_only ..) (by decide))
    | with_reducible refine Still.trans ?_ (errBit_still ..)
    | with_reducible refine each_still ?_ ?_
    | intro _ _
    | split
    | with_reducible rfl
    | (delta fnStill; with_reducible rfl)
    | (delta sessStill; with_reducible rfl)
    | (delta portStill; with_reducible rfl)
    | (delta partStill; with_reducible rfl)
    | (delta lnkStill; with_reducible rfl)
    | (delta plaitStill; with_reducible rfl)
    | (delta errStill; with_reducible rfl)
    | (delta billStill; with_reducible rfl)
    | (delta osierStill; with_reducible rfl)
    | (delta portStill lnkStill; with_reducible rfl)
    | (with_reducible refine (lnkStill_setTx ..).trans ?_)
    | (with_reducible refine (lnkStill_sent ..).trans ?_)
    | (with_reducible refine (lnkStill_lastVc1 ..).trans ?_)
    | with_reducible exact partStill_nextCut _
    | with_reducible exact partStill_addCut _ _
    | with_reducible exact partStill_mapNewest _ _
    | dsimp only

theorem uncorrectableWord_still (dram : Bool) (scope : Nat) (inst : Nat) (addr : Nat) (detail : Nat) (action : Nat) (s : State) : Still s (uncorrectableWord dram scope inst addr detail action s) := by
  unfold uncorrectableWord
  repeat' first
    | with_reducible exact Still.refl _
    | with_reducible assumption
    | with_reducible refine Still.trans ?_ (Still.of_only (bumpAlways_only ..) (by decide))
    | with_reducible refine Still.trans ?_ (raiseErr_still ..)
    | with_reducible refine each_still ?_ ?_
    | intro _ _
    | split
    | with_reducible rfl
    | (delta fnStill; with_reducible rfl)
    | (delta sessStill; with_reducible rfl)
    | (delta portStill; with_reducible rfl)
    | (delta partStill; with_reducible rfl)
    | (delta lnkStill; with_reducible rfl)
    | (delta plaitStill; with_reducible rfl)
    | (delta errStill; with_reducible rfl)
    | (delta billStill; with_reducible rfl)
    | (delta osierStill; with_reducible rfl)
    | (delta portStill lnkStill; with_reducible rfl)
    | (with_reducible refine (lnkStill_setTx ..).trans ?_)
    | (with_reducible refine (lnkStill_sent ..).trans ?_)
    | (with_reducible refine (lnkStill_lastVc1 ..).trans ?_)
    | with_reducible exact partStill_nextCut _
    | with_reducible exact partStill_addCut _ _
    | with_reducible exact partStill_mapNewest _ _
    | dsimp only

theorem uncorrectableItem_still (dram : Bool) (scope : Nat) (inst : Nat) (detail : Nat) (action : Nat) (s : State) : Still s (uncorrectableItem dram scope inst detail action s) := by
  unfold uncorrectableItem
  repeat' first
    | with_reducible exact Still.refl _
    | with_reducible assumption
    | with_reducible refine Still.trans ?_ (Still.of_only (nextFree_only ..) (by decide))
    | with_reducible refine Still.trans ?_ (uncorrectableWord_still ..)
    | with_reducible refine each_still ?_ ?_
    | intro _ _
    | split
    | with_reducible rfl
    | (delta fnStill; with_reducible rfl)
    | (delta sessStill; with_reducible rfl)
    | (delta portStill; with_reducible rfl)
    | (delta partStill; with_reducible rfl)
    | (delta lnkStill; with_reducible rfl)
    | (delta plaitStill; with_reducible rfl)
    | (delta errStill; with_reducible rfl)
    | (delta billStill; with_reducible rfl)
    | (delta osierStill; with_reducible rfl)
    | (delta portStill lnkStill; with_reducible rfl)
    | (with_reducible refine (lnkStill_setTx ..).trans ?_)
    | (with_reducible refine (lnkStill_sent ..).trans ?_)
    | (with_reducible refine (lnkStill_lastVc1 ..).trans ?_)
    | with_reducible exact partStill_nextCut _
    | with_reducible exact partStill_addCut _ _
    | with_reducible exact partStill_mapNewest _ _
    | dsimp only

theorem modCmd_still (f : Nat) (tag : W32) (g : Cmd → Cmd) (s : State) : Still s (modCmd f tag g s) := by
  unfold modCmd
  repeat' first
    | with_reducible exact Still.refl _
    | with_reducible assumption
    | with_reducible refine Still.trans ?_ (modFn_still _ _ _ ?_)
    | with_reducible refine each_still ?_ ?_
    | intro _ _
    | split
    | with_reducible rfl
    | (delta fnStill; with_reducible rfl)
    | (delta sessStill; with_reducible rfl)
    | (delta portStill; with_reducible rfl)
    | (delta partStill; with_reducible rfl)
    | (delta lnkStill; with_reducible rfl)
    | (delta plaitStill; with_reducible rfl)
    | (delta errStill; with_reducible rfl)
    | (delta billStill; with_reducible rfl)
    | (delta osierStill; with_reducible rfl)
    | (delta portStill lnkStill; with_reducible rfl)
    | (with_reducible refine (lnkStill_setTx ..).trans ?_)
    | (with_reducible refine (lnkStill_sent ..).trans ?_)
    | (with_reducible refine (lnkStill_lastVc1 ..).trans ?_)
    | with_reducible exact partStill_nextCut _
    | with_reducible exact partStill_addCut _ _
    | with_reducible exact partStill_mapNewest _ _
    | dsimp only

theorem modWork_still (f : Nat) (tag : W32) (g : Work → Work) (s : State) : Still s (modWork f tag g s) := by
  unfold modWork
  repeat' first
    | with_reducible exact Still.refl _
    | with_reducible assumption
    | with_reducible refine Still.trans ?_ (modCmd_still ..)
    | with_reducible refine each_still ?_ ?_
    | intro _ _
    | split
    | with_reducible rfl
    | (delta fnStill; with_reducible rfl)
    | (delta sessStill; with_reducible rfl)
    | (delta portStill; with_reducible rfl)
    | (delta partStill; with_reducible rfl)
    | (delta lnkStill; with_reducible rfl)
    | (delta plaitStill; with_reducible rfl)
    | (delta errStill; with_reducible rfl)
    | (delta billStill; with_reducible rfl)
    | (delta osierStill; with_reducible rfl)
    | (delta portStill lnkStill; with_reducible rfl)
    | (with_reducible refine (lnkStill_setTx ..).trans ?_)
    | (with_reducible refine (lnkStill_sent ..).trans ?_)
    | (with_reducible refine (lnkStill_lastVc1 ..).trans ?_)
    | with_reducible exact partStill_nextCut _
    | with_reducible exact partStill_addCut _ _
    | with_reducible exact partStill_mapNewest _ _
    | dsimp only

theorem coalesce_still (f : Nat) (irqNow : Bool) (s : State) : Still s (coalesce f irqNow s) := by
  unfold coalesce
  repeat' first
    | with_reducible exact Still.refl _
    | with_reducible assumption
    | with_reducible refine Still.trans ?_ (modFn_still _ _ _ ?_)
    | with_reducible refine Still.trans ?_ (signal_still ..)
    | with_reducible refine each_still ?_ ?_
    | intro _ _
    | split
    | with_reducible rfl
    | (delta fnStill; with_reducible rfl)
    | (delta sessStill; with_reducible rfl)
    | (delta portStill; with_reducible rfl)
    | (delta partStill; with_reducible rfl)
    | (delta lnkStill; with_reducible rfl)
    | (delta plaitStill; with_reducible rfl)
    | (delta errStill; with_reducible rfl)
    | (delta billStill; with_reducible rfl)
    | (delta osierStill; with_reducible rfl)
    | (delta portStill lnkStill; with_reducible rfl)
    | (with_reducible refine (lnkStill_setTx ..).trans ?_)
    | (with_reducible refine (lnkStill_sent ..).trans ?_)
    | (with_reducible refine (lnkStill_lastVc1 ..).trans ?_)
    | with_reducible exact partStill_nextCut _
    | with_reducible exact partStill_addCut _ _
    | with_reducible exact partStill_mapNewest _ _
    | dsimp only

theorem writeCpl_still (f : Nat) (c : Cpl) (irqNow : Bool) (s : State) : Still s (writeCpl f c irqNow s) := by
  unfold writeCpl
  repeat' first
    | with_reducible exact Still.refl _
    | with_reducible assumption
    | with_reducible refine Still.trans ?_ (modFn_still _ _ _ ?_)
    | with_reducible refine Still.trans ?_ (Still.of_only (hostWrite_only ..) (by decide))
    | with_reducible refine Still.trans ?_ (coalesce_still ..)
    | with_reducible refine each_still ?_ ?_
    | intro _ _
    | split
    | with_reducible rfl
    | (delta fnStill; with_reducible rfl)
    | (delta sessStill; with_reducible rfl)
    | (delta portStill; with_reducible rfl)
    | (delta partStill; with_reducible rfl)
    | (delta lnkStill; with_reducible rfl)
    | (delta plaitStill; with_reducible rfl)
    | (delta errStill; with_reducible rfl)
    | (delta billStill; with_reducible rfl)
    | (delta osierStill; with_reducible rfl)
    | (delta portStill lnkStill; with_reducible rfl)
    | (with_reducible refine (lnkStill_setTx ..).trans ?_)
    | (with_reducible refine (lnkStill_sent ..).trans ?_)
    | (with_reducible refine (lnkStill_lastVc1 ..).trans ?_)
    | with_reducible exact partStill_nextCut _
    | with_reducible exact partStill_addCut _ _
    | with_reducible exact partStill_mapNewest _ _
    | dsimp only

theorem deliverCpl_still (f : Nat) (c : Cpl) (irqNow : Bool) (s : State) : Still s (deliverCpl f c irqNow s) := by
  unfold deliverCpl
  repeat' first
    | with_reducible exact Still.refl _
    | with_reducible assumption
    | with_reducible refine Still.trans ?_ (modFn_still _ _ _ ?_)
    | with_reducible refine Still.trans ?_ (writeCpl_still ..)
    | with_reducible refine each_still ?_ ?_
    | intro _ _
    | split
    | with_reducible rfl
    | (delta fnStill; with_reducible rfl)
    | (delta sessStill; with_reducible rfl)
    | (delta portStill; with_reducible rfl)
    | (delta partStill; with_reducible rfl)
    | (delta lnkStill; with_reducible rfl)
    | (delta plaitStill; with_reducible rfl)
    | (delta errStill; with_reducible rfl)
    | (delta billStill; with_reducible rfl)
    | (delta osierStill; with_reducible rfl)
    | (delta portStill lnkStill; with_reducible rfl)
    | (with_reducible refine (lnkStill_setTx ..).trans ?_)
    | (with_reducible refine (lnkStill_sent ..).trans ?_)
    | (with_reducible refine (lnkStill_lastVc1 ..).trans ?_)
    | with_reducible exact partStill_nextCut _
    | with_reducible exact partStill_addCut _ _
    | with_reducible exact partStill_mapNewest _ _
    | dsimp only

theorem completeOne_still (f : Nat) (tag : W32) (r : Res) (s : State) : Still s (completeOne f tag r s) := by
  unfold completeOne
  repeat' first
    | with_reducible exact Still.refl _
    | with_reducible assumption
    | with_reducible refine Still.trans ?_ (modFn_still _ _ _ ?_)
    | with_reducible refine Still.trans ?_ (deliverCpl_still ..)
    | with_reducible refine each_still ?_ ?_
    | intro _ _
    | split
    | with_reducible rfl
    | (delta fnStill; with_reducible rfl)
    | (delta sessStill; with_reducible rfl)
    | (delta portStill; with_reducible rfl)
    | (delta partStill; with_reducible rfl)
    | (delta lnkStill; with_reducible rfl)
    | (delta plaitStill; with_reducible rfl)
    | (delta errStill; with_reducible rfl)
    | (delta billStill; with_reducible rfl)
    | (delta osierStill; with_reducible rfl)
    | (delta portStill lnkStill; with_reducible rfl)
    | (with_reducible refine (lnkStill_setTx ..).trans ?_)
    | (with_reducible refine (lnkStill_sent ..).trans ?_)
    | (with_reducible refine (lnkStill_lastVc1 ..).trans ?_)
    | with_reducible exact partStill_nextCut _
    | with_reducible exact partStill_addCut _ _
    | with_reducible exact partStill_mapNewest _ _
    | dsimp only

theorem complete_still (f : Nat) (tag : W32) (r : Res) (s : State) : Still s (complete f tag r s) := by
  unfold complete
  repeat' first
    | with_reducible exact Still.refl _
    | with_reducible assumption
    | with_reducible refine Still.trans ?_ (completeOne_still ..)
    | with_reducible refine each_still ?_ ?_
    | intro _ _
    | split
    | with_reducible rfl
    | (delta fnStill; with_reducible rfl)
    | (delta sessStill; with_reducible rfl)
    | (delta portStill; with_reducible rfl)
    | (delta partStill; with_reducible rfl)
    | (delta lnkStill; with_reducible rfl)
    | (delta plaitStill; with_reducible rfl)
    | (delta errStill; with_reducible rfl)
    | (delta billStill; with_reducible rfl)
    | (delta osierStill; with_reducible rfl)
    | (delta portStill lnkStill; with_reducible rfl)
    | (with_reducible refine (lnkStill_setTx ..).trans ?_)
    | (with_reducible refine (lnkStill_sent ..).trans ?_)
    | (with_reducible refine (lnkStill_lastVc1 ..).trans ?_)
    | with_reducible exact partStill_nextCut _
    | with_reducible exact partStill_addCut _ _
    | with_reducible exact partStill_mapNewest _ _
    | dsimp only

theorem modMeters_still (who : Option Nat) (g : Meters → Meters) (s : State) : Still s (modMeters who g s) := by
  unfold modMeters
  repeat' first
    | with_reducible exact Still.refl _
    | with_reducible assumption
    | with_reducible refine Still.trans ?_ (modSess_still _ _ _ ?_)
    | with_reducible refine each_still ?_ ?_
    | intro _ _
    | split
    | with_reducible refine Still_upd_billing ?_ ?_
    | with_reducible rfl
    | (delta fnStill; with_reducible rfl)
    | (delta sessStill; with_reducible rfl)
    | (delta portStill; with_reducible rfl)
    | (delta partStill; with_reducible rfl)
    | (delta lnkStill; with_reducible rfl)
    | (delta plaitStill; with_reducible rfl)
    | (delta errStill; with_reducible rfl)
    | (delta billStill; with_reducible rfl)
    | (delta osierStill; with_reducible rfl)
    | (delta portStill lnkStill; with_reducible rfl)
    | (with_reducible refine (lnkStill_setTx ..).trans ?_)
    | (with_reducible refine (lnkStill_sent ..).trans ?_)
    | (with_reducible refine (lnkStill_lastVc1 ..).trans ?_)
    | with_reducible exact partStill_nextCut _
    | with_reducible exact partStill_addCut _ _
    | with_reducible exact partStill_mapNewest _ _
    | dsimp only

theorem addCounter_still (p : Nat) (k : Nat) (n : Nat) (s : State) : Still s (addCounter p k n s) := by
  unfold addCounter
  repeat' first
    | with_reducible exact Still.refl _
    | with_reducible assumption
    | with_reducible refine Still.trans ?_ (modPart_still _ _ _ ?_)
    | with_reducible refine each_still ?_ ?_
    | intro _ _
    | split
    | with_reducible rfl
    | (delta fnStill; with_reducible rfl)
    | (delta sessStill; with_reducible rfl)
    | (delta portStill; with_reducible rfl)
    | (delta partStill; with_reducible rfl)
    | (delta lnkStill; with_reducible rfl)
    | (delta plaitStill; with_reducible rfl)
    | (delta errStill; with_reducible rfl)
    | (delta billStill; with_reducible rfl)
    | (delta osierStill; with_reducible rfl)
    | (delta portStill lnkStill; with_reducible rfl)
    | (with_reducible refine (lnkStill_setTx ..).trans ?_)
    | (with_reducible refine (lnkStill_sent ..).trans ?_)
    | (with_reducible refine (lnkStill_lastVc1 ..).trans ?_)
    | with_reducible exact partStill_nextCut _
    | with_reducible exact partStill_addCut _ _
    | with_reducible exact partStill_mapNewest _ _
    | dsimp only

theorem hubEvent_still (p code n : Nat) (s : State) : Still s (hubEvent p code n s) :=
  (Still.trans (each_still (.refl _) fun _ _ => addCounter_still ..) (each_still (.refl _) fun _ _ => .of_only (fire_only ..) (by decide)))

theorem spendInjection_still (s : State) : Still s (spendInjection s) := by
  unfold spendInjection
  repeat' first
    | with_reducible exact Still.refl _
    | with_reducible assumption
    | with_reducible refine each_still ?_ ?_
    | intro _ _
    | split
    | with_reducible refine Still_upd_err ?_ ?_
    | with_reducible rfl
    | (delta fnStill; with_reducible rfl)
    | (delta sessStill; with_reducible rfl)
    | (delta portStill; with_reducible rfl)
    | (delta partStill; with_reducible rfl)
    | (delta lnkStill; with_reducible rfl)
    | (delta plaitStill; with_reducible rfl)
    | (delta errStill; with_reducible rfl)
    | (delta billStill; with_reducible rfl)
    | (delta osierStill; with_reducible rfl)
    | (delta portStill lnkStill; with_reducible rfl)
    | (with_reducible refine (lnkStill_setTx ..).trans ?_)
    | (with_reducible refine (lnkStill_sent ..).trans ?_)
    | (with_reducible refine (lnkStill_lastVc1 ..).trans ?_)
    | with_reducible exact partStill_nextCut _
    | with_reducible exact partStill_addCut _ _
    | with_reducible exact partStill_mapNewest _ _
    | dsimp only

theorem spendDram_still (s : State) : Still s (spendDram s) := by
  unfold spendDram
  repeat' first
    | with_reducible exact Still.refl _
    | with_reducible assumption
    | with_reducible refine Still.trans ?_ (spendInjection_still ..)
    | with_reducible refine each_still ?_ ?_
    | intro _ _
    | split
    | with_reducible rfl
    | (delta fnStill; with_reducible rfl)
    | (delta sessStill; with_reducible rfl)
    | (delta portStill; with_reducible rfl)
    | (delta partStill; with_reducible rfl)
    | (delta lnkStill; with_reducible rfl)
    | (delta plaitStill; with_reducible rfl)
    | (delta errStill; with_reducible rfl)
    | (delta billStill; with_reducible rfl)
    | (delta osierStill; with_reducible rfl)
    | (delta portStill lnkStill; with_reducible rfl)
    | (with_reducible refine (lnkStill_setTx ..).trans ?_)
    | (with_reducible refine (lnkStill_sent ..).trans ?_)
    | (with_reducible refine (lnkStill_lastVc1 ..).trans ?_)
    | with_reducible exact partStill_nextCut _
    | with_reducible exact partStill_addCut _ _
    | with_reducible exact partStill_mapNewest _ _
    | dsimp only

theorem spendCreel_still (s : State) : Still s (spendCreel s) := by
  unfold spendCreel
  repeat' first
    | with_reducible exact Still.refl _
    | with_reducible assumption
    | with_reducible refine Still.trans ?_ (Still.of_only (nextFree_only ..) (by decide))
    | with_reducible refine Still.trans ?_ (correctedWord_still ..)
    | with_reducible refine Still.trans ?_ (spendInjection_still ..)
    | with_reducible refine each_still ?_ ?_
    | intro _ _
    | split
    | with_reducible rfl
    | (delta fnStill; with_reducible rfl)
    | (delta sessStill; with_reducible rfl)
    | (delta portStill; with_reducible rfl)
    | (delta partStill; with_reducible rfl)
    | (delta lnkStill; with_reducible rfl)
    | (delta plaitStill; with_reducible rfl)
    | (delta errStill; with_reducible rfl)
    | (delta billStill; with_reducible rfl)
    | (delta osierStill; with_reducible rfl)
    | (delta portStill lnkStill; with_reducible rfl)
    | (with_reducible refine (lnkStill_setTx ..).trans ?_)
    | (with_reducible refine (lnkStill_sent ..).trans ?_)
    | (with_reducible refine (lnkStill_lastVc1 ..).trans ?_)
    | with_reducible exact partStill_nextCut _
    | with_reducible exact partStill_addCut _ _
    | with_reducible exact partStill_mapNewest _ _
    | dsimp only

theorem takeBlock_still {s t : State} (h : takeBlock s = some t) : Still s t := by
  unfold takeBlock at h
  by_cases c : (if s.stopWhenFull then 64 - s.reservesUsed else 0) < s.blocksFree
  · rw [if_pos c] at h
    rw [← Option.some.inj h]
    exact .refl _
  · rw [if_neg c] at h
    split at h
    · cases h
    · obtain ⟨⟨p, b⟩, -, h⟩ := Option.map_eq_some_iff.mp h
      rw [← h]
      exact modPart_still _ _ _ (by delta partStill; with_reducible rfl)

theorem putOpen_still (p : Nat) (s : State) : Still s (putOpen p s) := by
  unfold putOpen
  repeat' first
    | with_reducible exact Still.refl _
    | with_reducible assumption
    | with_reducible refine Still.trans ?_ (modPart_still _ _ _ ?_)
    | with_reducible refine Still.trans ?_ (spendDram_still ..)
    | with_reducible refine Still.trans ?_ (Still.of_only (queueBlock_only ..) (by decide))
    | with_reducible refine each_still ?_ ?_
    | intro _ _
    | split
    | with_reducible rfl
    | (delta fnStill; with_reducible rfl)
    | (delta sessStill; with_reducible rfl)
    | (delta portStill; with_reducible rfl)
    | (delta partStill; with_reducible rfl)
    | (delta lnkStill; with_reducible rfl)
    | (delta plaitStill; with_reducible rfl)
    | (delta errStill; with_reducible rfl)
    | (delta billStill; with_reducible rfl)
    | (delta osierStill; with_reducible rfl)
    | (delta portStill lnkStill; with_reducible rfl)
    | (with_reducible refine (lnkStill_setTx ..).trans ?_)
    | (with_reducible refine (lnkStill_sent ..).trans ?_)
    | (with_reducible refine (lnkStill_lastVc1 ..).trans ?_)
    | with_reducible exact partStill_nextCut _
    | with_reducible exact partStill_addCut _ _
    | with_reducible exact partStill_mapNewest _ _
    | dsimp only

theorem commitBlock_still {p : Nat} {s t : State} (h : commitBlock p s = some t) : Still s t := by
  unfold commitBlock at h
  split at h
  · cases h; exact .refl _
  · split at h
    · obtain ⟨u, hu, rfl⟩ := Option.map_eq_some_iff.mp h
      exact (takeBlock_still hu).trans (putOpen_still ..)
    · cases h

theorem intoBlock_still (r : TraceRec) (s : State) : Still s (intoBlock r s) := by
  unfold intoBlock
  repeat' first
    | with_reducible exact Still.refl _
    | with_reducible assumption
    | with_reducible refine Still.trans ?_ (modPart_still _ _ _ ?_)
    | with_reducible refine each_still ?_ ?_
    | intro _ _
    | split
    | with_reducible rfl
    | (delta fnStill; with_reducible rfl)
    | (delta sessStill; with_reducible rfl)
    | (delta portStill; with_reducible rfl)
    | (delta partStill; with_reducible rfl)
    | (delta lnkStill; with_reducible rfl)
    | (delta plaitStill; with_reducible rfl)
    | (delta errStill; with_reducible rfl)
    | (delta billStill; with_reducible rfl)
    | (delta osierStill; with_reducible rfl)
    | (delta portStill lnkStill; with_reducible rfl)
    | (with_reducible refine (lnkStill_setTx ..).trans ?_)
    | (with_reducible refine (lnkStill_sent ..).trans ?_)
    | (with_reducible refine (lnkStill_lastVc1 ..).trans ?_)
    | with_reducible exact partStill_nextCut _
    | with_reducible exact partStill_addCut _ _
    | with_reducible exact partStill_mapNewest _ _
    | dsimp only

theorem storeDram_still {r : TraceRec} {s t : State} (h : storeDram r s = some t) : Still s t := by
  unfold storeDram at h
  split at h
  · cases h
  · split at h
    · split at h
      · cases h; exact intoBlock_still ..
      · obtain ⟨u, hu, rfl⟩ := Option.map_eq_some_iff.mp h
        exact (commitBlock_still hu).trans (intoBlock_still ..)
    · cases h; exact intoBlock_still ..

theorem dropPort_still (cause : Nat) (r : TraceRec) (s : State) : Still s (dropPort cause r s) := by
  unfold dropPort
  repeat' first
    | with_reducible exact Still.refl _
    | with_reducible assumption
    | with_reducible refine Still.trans ?_ (modPart_still _ _ _ ?_)
    | with_reducible refine Still.trans ?_ (Still.of_only (bumpAlways_only ..) (by decide))
    | with_reducible refine each_still ?_ ?_
    | intro _ _
    | split
    | with_reducible rfl
    | (delta fnStill; with_reducible rfl)
    | (delta sessStill; with_reducible rfl)
    | (delta portStill; with_reducible rfl)
    | (delta partStill; with_reducible rfl)
    | (delta lnkStill; with_reducible rfl)
    | (delta plaitStill; with_reducible rfl)
    | (delta errStill; with_reducible rfl)
    | (delta billStill; with_reducible rfl)
    | (delta osierStill; with_reducible rfl)
    | (delta portStill lnkStill; with_reducible rfl)
    | (with_reducible refine (lnkStill_setTx ..).trans ?_)
    | (with_reducible refine (lnkStill_sent ..).trans ?_)
    | (with_reducible refine (lnkStill_lastVc1 ..).trans ?_)
    | with_reducible exact partStill_nextCut _
    | with_reducible exact partStill_addCut _ _
    | with_reducible exact partStill_mapNewest _ _
    | dsimp only

theorem openReserve_still (p : Nat) (g : Gap) (s : State) : Still s (openReserve p g s) := by
  unfold openReserve
  repeat' first
    | with_reducible exact Still.refl _
    | with_reducible assumption
    | with_reducible refine Still.trans ?_ (modPart_still _ _ _ ?_)
    | with_reducible refine each_still ?_ ?_
    | intro _ _
    | split
    | with_reducible rfl
    | (delta fnStill; with_reducible rfl)
    | (delta sessStill; with_reducible rfl)
    | (delta portStill; with_reducible rfl)
    | (delta partStill; with_reducible rfl)
    | (delta lnkStill; with_reducible rfl)
    | (delta plaitStill; with_reducible rfl)
    | (delta errStill; with_reducible rfl)
    | (delta billStill; with_reducible rfl)
    | (delta osierStill; with_reducible rfl)
    | (delta portStill lnkStill; with_reducible rfl)
    | (with_reducible refine (lnkStill_setTx ..).trans ?_)
    | (with_reducible refine (lnkStill_sent ..).trans ?_)
    | (with_reducible refine (lnkStill_lastVc1 ..).trans ?_)
    | with_reducible exact partStill_nextCut _
    | with_reducible exact partStill_addCut _ _
    | with_reducible exact partStill_mapNewest _ _
    | dsimp only

theorem dropDram_still (cause : Nat) (r : TraceRec) (s : State) : Still s (dropDram cause r s) := by
  unfold dropDram
  repeat' first
    | with_reducible exact Still.refl _
    | with_reducible assumption
    | with_reducible refine Still.trans ?_ (modPart_still _ _ _ ?_)
    | with_reducible refine Still.trans ?_ (Still.of_only (bumpAlways_only ..) (by decide))
    | with_reducible refine Still.trans ?_ (openReserve_still ..)
    | with_reducible refine each_still ?_ ?_
    | intro _ _
    | split
    | with_reducible rfl
    | (delta fnStill; with_reducible rfl)
    | (delta sessStill; with_reducible rfl)
    | (delta portStill; with_reducible rfl)
    | (delta partStill; with_reducible rfl)
    | (delta lnkStill; with_reducible rfl)
    | (delta plaitStill; with_reducible rfl)
    | (delta errStill; with_reducible rfl)
    | (delta billStill; with_reducible rfl)
    | (delta osierStill; with_reducible rfl)
    | (delta portStill lnkStill; with_reducible rfl)
    | (with_reducible refine (lnkStill_setTx ..).trans ?_)
    | (with_reducible refine (lnkStill_sent ..).trans ?_)
    | (with_reducible refine (lnkStill_lastVc1 ..).trans ?_)
    | with_reducible exact partStill_nextCut _
    | with_reducible exact partStill_addCut _ _
    | with_reducible exact partStill_mapNewest _ _
    | dsimp only

theorem intoSpill_still {r : TraceRec} {s t : State} (h : intoSpill r s = some t) : Still s t := by
  unfold intoSpill at h
  dsimp only at h
  have hs : Still s (spendDram s) := spendDram_still s
  generalize spendDram s = s1 at h hs
  repeat' split at h
  all_goals first | (cases h; exact hs.trans (modPart_still _ _ _ (by delta partStill; with_reducible rfl))) | cases h

theorem storePort_still {r : TraceRec} {s t : State} (h : storePort r s = some t) : Still s t := by
  unfold storePort at h
  dsimp only at h
  repeat' split at h
  · cases h
    refine Still.trans ?_ (spendCreel_still ..)
    exact (modPart_still _ _ _ (by delta partStill; with_reducible rfl)).trans (modPart_still _ _ _ (by delta partStill; with_reducible rfl))
  · exact (modPart_still _ _ _ (by delta partStill; with_reducible rfl)).trans (intoSpill_still h)
  · cases h

theorem modRun_still (id : W32) (g : Run → Run) (s : State) : Still s (modRun id g s) := by
  unfold modRun
  repeat' first
    | with_reducible exact Still.refl _
    | with_reducible assumption
    | with_reducible refine each_still ?_ ?_
    | intro _ _
    | split
    | with_reducible refine Still_upd_osier ?_ ?_
    | with_reducible rfl
    | (delta fnStill; with_reducible rfl)
    | (delta sessStill; with_reducible rfl)
    | (delta portStill; with_reducible rfl)
    | (delta partStill; with_reducible rfl)
    | (delta lnkStill; with_reducible rfl)
    | (delta plaitStill; with_reducible rfl)
    | (delta errStill; with_reducible rfl)
    | (delta billStill; with_reducible rfl)
    | (delta osierStill; with_reducible rfl)
    | (delta portStill lnkStill; with_reducible rfl)
    | (with_reducible refine (lnkStill_setTx ..).trans ?_)
    | (with_reducible refine (lnkStill_sent ..).trans ?_)
    | (with_reducible refine (lnkStill_lastVc1 ..).trans ?_)
    | with_reducible exact partStill_nextCut _
    | with_reducible exact partStill_addCut _ _
    | with_reducible exact partStill_mapNewest _ _
    | dsimp only

theorem setRuns_still (l : List Run) (s : State) : Still s (setRuns l s) := by
  unfold setRuns
  repeat' first
    | with_reducible exact Still.refl _
    | with_reducible assumption
    | with_reducible refine each_still ?_ ?_
    | intro _ _
    | split
    | with_reducible refine Still_upd_osier ?_ ?_
    | with_reducible rfl
    | (delta fnStill; with_reducible rfl)
    | (delta sessStill; with_reducible rfl)
    | (delta portStill; with_reducible rfl)
    | (delta partStill; with_reducible rfl)
    | (delta lnkStill; with_reducible rfl)
    | (delta plaitStill; with_reducible rfl)
    | (delta errStill; with_reducible rfl)
    | (delta billStill; with_reducible rfl)
    | (delta osierStill; with_reducible rfl)
    | (delta portStill lnkStill; with_reducible rfl)
    | (with_reducible refine (lnkStill_setTx ..).trans ?_)
    | (with_reducible refine (lnkStill_sent ..).trans ?_)
    | (with_reducible refine (lnkStill_lastVc1 ..).trans ?_)
    | with_reducible exact partStill_nextCut _
    | with_reducible exact partStill_addCut _ _
    | with_reducible exact partStill_mapNewest _ _
    | dsimp only

theorem deliverInput_still (r : TraceRec) (s : State) : Still s (deliverInput r s) := by
  unfold deliverInput
  extract_lets takes first runs
  clear_value runs first takes
  refine Still.trans ?_ (setRuns_still ..)
  split
  · exact spendCreel_still ..
  · exact .refl _

theorem shedTier_still (p : Nat) (s : State) : Still s (shedTier p s) := by
  unfold shedTier
  repeat' first
    | with_reducible exact Still.refl _
    | with_reducible assumption
    | with_reducible refine Still.trans ?_ (modPart_still _ _ _ ?_)
    | with_reducible refine Still.trans ?_ (uncorrectableItem_still ..)
    | with_reducible refine Still.trans ?_ (dropPort_still ..)
    | with_reducible refine each_still ?_ ?_
    | intro _ _
    | split
    | with_reducible rfl
    | (delta fnStill; with_reducible rfl)
    | (delta sessStill; with_reducible rfl)
    | (delta portStill; with_reducible rfl)
    | (delta partStill; with_reducible rfl)
    | (delta lnkStill; with_reducible rfl)
    | (delta plaitStill; with_reducible rfl)
    | (delta errStill; with_reducible rfl)
    | (delta billStill; with_reducible rfl)
    | (delta osierStill; with_reducible rfl)
    | (delta portStill lnkStill; with_reducible rfl)
    | (with_reducible refine (lnkStill_setTx ..).trans ?_)
    | (with_reducible refine (lnkStill_sent ..).trans ?_)
    | (with_reducible refine (lnkStill_lastVc1 ..).trans ?_)
    | with_reducible exact partStill_nextCut _
    | with_reducible exact partStill_addCut _ _
    | with_reducible exact partStill_mapNewest _ _
    | dsimp only

theorem postExchange_still (p : Nat) (s : State) : Still s (postExchange p s) := by
  unfold postExchange
  repeat' first
    | with_reducible exact Still.refl _
    | with_reducible assumption
    | with_reducible refine Still.trans ?_ (modPart_still _ _ _ ?_)
    | with_reducible refine Still.trans ?_ (spendCreel_still ..)
    | with_reducible refine Still.trans ?_ (modRun_still ..)
    | with_reducible refine each_still ?_ ?_
    | intro _ _
    | split
    | with_reducible rfl
    | (delta fnStill; with_reducible rfl)
    | (delta sessStill; with_reducible rfl)
    | (delta portStill; with_reducible rfl)
    | (delta partStill; with_reducible rfl)
    | (delta lnkStill; with_reducible rfl)
    | (delta plaitStill; with_reducible rfl)
    | (delta errStill; with_reducible rfl)
    | (delta billStill; with_reducible rfl)
    | (delta osierStill; with_reducible rfl)
    | (delta portStill lnkStill; with_reducible rfl)
    | (with_reducible refine (lnkStill_setTx ..).trans ?_)
    | (with_reducible refine (lnkStill_sent ..).trans ?_)
    | (with_reducible refine (lnkStill_lastVc1 ..).trans ?_)
    | with_reducible exact partStill_nextCut _
    | with_reducible exact partStill_addCut _ _
    | with_reducible exact partStill_mapNewest _ _
    | dsimp only

theorem pumpPort_still (p : Nat) (s0 : State) : Still s0 (pumpPort p s0) := by
  unfold pumpPort
  repeat' first
    | with_reducible exact Still.refl _
    | with_reducible assumption
    | with_reducible refine Still.trans ?_ (modPart_still _ _ _ ?_)
    | with_reducible refine Still.trans ?_ (modMeters_still ..)
    | with_reducible refine Still.trans ?_ (shedTier_still ..)
    | with_reducible refine Still.trans ?_ (postExchange_still ..)
    | with_reducible refine each_still ?_ ?_
    | intro _ _
    | split
    | with_reducible rfl
    | (delta fnStill; with_reducible rfl)
    | (delta sessStill; with_reducible rfl)
    | (delta portStill; with_reducible rfl)
    | (delta partStill; with_reducible rfl)
    | (delta lnkStill; with_reducible rfl)
    | (delta plaitStill; with_reducible rfl)
    | (delta errStill; with_reducible rfl)
    | (delta billStill; with_reducible rfl)
    | (delta osierStill; with_reducible rfl)
    | (delta portStill lnkStill; with_reducible rfl)
    | (with_reducible refine (lnkStill_setTx ..).trans ?_)
    | (with_reducible refine (lnkStill_sent ..).trans ?_)
    | (with_reducible refine (lnkStill_lastVc1 ..).trans ?_)
    | with_reducible exact partStill_nextCut _
    | with_reducible exact partStill_addCut _ _
    | with_reducible exact partStill_mapNewest _ _
    | dsimp only

theorem portArrive_still (r : TraceRec) (s : State) : Still s (portArrive r s) := by
  unfold portArrive
  repeat' first
    | with_reducible exact Still.refl _
    | with_reducible assumption
    | with_reducible refine Still.trans ?_ (dropPort_still ..)
    | with_reducible refine Still.trans ?_ (pumpPort_still ..)
    | with_reducible refine each_still ?_ ?_
    | intro _ _
    | split
    | with_reducible refine Still.trans ?_ (storePort_still (by assumption))
    | with_reducible rfl
    | (delta fnStill; with_reducible rfl)
    | (delta sessStill; with_reducible rfl)
    | (delta portStill; with_reducible rfl)
    | (delta partStill; with_reducible rfl)
    | (delta lnkStill; with_reducible rfl)
    | (delta plaitStill; with_reducible rfl)
    | (delta errStill; with_reducible rfl)
    | (delta billStill; with_reducible rfl)
    | (delta osierStill; with_reducible rfl)
    | (delta portStill lnkStill; with_reducible rfl)
    | (with_reducible refine (lnkStill_setTx ..).trans ?_)
    | (with_reducible refine (lnkStill_sent ..).trans ?_)
    | (with_reducible refine (lnkStill_lastVc1 ..).trans ?_)
    | with_reducible exact partStill_nextCut _
    | with_reducible exact partStill_addCut _ _
    | with_reducible exact partStill_mapNewest _ _
    | dsimp only

theorem shedQueue_still (p : Nat) (s : State) : Still s (shedQueue p s) := by
  unfold shedQueue
  repeat' first
    | with_reducible exact Still.refl _
    | with_reducible assumption
    | with_reducible refine Still.trans ?_ (modPart_still _ _ _ ?_)
    | with_reducible refine Still.trans ?_ (uncorrectableItem_still ..)
    | with_reducible refine Still.trans ?_ (dropDram_still ..)
    | with_reducible refine each_still ?_ ?_
    | intro _ _
    | split
    | with_reducible rfl
    | (delta fnStill; with_reducible rfl)
    | (delta sessStill; with_reducible rfl)
    | (delta portStill; with_reducible rfl)
    | (delta partStill; with_reducible rfl)
    | (delta lnkStill; with_reducible rfl)
    | (delta plaitStill; with_reducible rfl)
    | (delta errStill; with_reducible rfl)
    | (delta billStill; with_reducible rfl)
    | (delta osierStill; with_reducible rfl)
    | (delta portStill lnkStill; with_reducible rfl)
    | (with_reducible refine (lnkStill_setTx ..).trans ?_)
    | (with_reducible refine (lnkStill_sent ..).trans ?_)
    | (with_reducible refine (lnkStill_lastVc1 ..).trans ?_)
    | with_reducible exact partStill_nextCut _
    | with_reducible exact partStill_addCut _ _
    | with_reducible exact partStill_mapNewest _ _
    | dsimp only

theorem dramArrive_still (r : TraceRec) (s0 : State) : Still s0 (dramArrive r s0) := by
  unfold dramArrive
  repeat' first
    | with_reducible exact Still.refl _
    | with_reducible assumption
    | with_reducible refine Still.trans ?_ (uncorrectableItem_still ..)
    | with_reducible refine Still.trans ?_ (spendCreel_still ..)
    | with_reducible refine Still.trans ?_ (dropDram_still ..)
    | with_reducible refine Still.trans ?_ (shedQueue_still ..)
    | with_reducible refine each_still ?_ ?_
    | intro _ _
    | split
    | with_reducible refine Still.trans ?_ (storeDram_still (by assumption))
    | with_reducible rfl
    | (delta fnStill; with_reducible rfl)
    | (delta sessStill; with_reducible rfl)
    | (delta portStill; with_reducible rfl)
    | (delta partStill; with_reducible rfl)
    | (delta lnkStill; with_reducible rfl)
    | (delta plaitStill; with_reducible rfl)
    | (delta errStill; with_reducible rfl)
    | (delta billStill; with_reducible rfl)
    | (delta osierStill; with_reducible rfl)
    | (delta portStill lnkStill; with_reducible rfl)
    | (with_reducible refine (lnkStill_setTx ..).trans ?_)
    | (with_reducible refine (lnkStill_sent ..).trans ?_)
    | (with_reducible refine (lnkStill_lastVc1 ..).trans ?_)
    | with_reducible exact partStill_nextCut _
    | with_reducible exact partStill_addCut _ _
    | with_reducible exact partStill_mapNewest _ _
    | dsimp only

theorem dramOnly_still (r : TraceRec) (s : State) : Still s (dramOnly r s) := by
  unfold dramOnly
  repeat' first
    | with_reducible exact Still.refl _
    | with_reducible assumption
    | with_reducible refine Still.trans ?_ (modMeters_still ..)
    | with_reducible refine Still.trans ?_ (hubEvent_still ..)
    | with_reducible refine Still.trans ?_ (dramArrive_still ..)
    | with_reducible refine each_still ?_ ?_
    | intro _ _
    | split
    | with_reducible rfl
    | (delta fnStill; with_reducible rfl)
    | (delta sessStill; with_reducible rfl)
    | (delta portStill; with_reducible rfl)
    | (delta partStill; with_reducible rfl)
    | (delta lnkStill; with_reducible rfl)
    | (delta plaitStill; with_reducible rfl)
    | (delta errStill; with_reducible rfl)
    | (delta billStill; with_reducible rfl)
    | (delta osierStill; with_reducible rfl)
    | (delta portStill lnkStill; with_reducible rfl)
    | (with_reducible refine (lnkStill_setTx ..).trans ?_)
    | (with_reducible refine (lnkStill_sent ..).trans ?_)
    | (with_reducible refine (lnkStill_lastVc1 ..).trans ?_)
    | with_reducible exact partStill_nextCut _
    | with_reducible exact partStill_addCut _ _
    | with_reducible exact partStill_mapNewest _ _
    | dsimp only

theorem holdDram_still (kept : Bool) (r : TraceRec) (s : State) : Still s (holdDram kept r s) := by
  unfold holdDram
  repeat' first
    | with_reducible exact Still.refl _
    | with_reducible assumption
    | with_reducible refine Still.trans ?_ (modPart_still _ _ _ ?_)
    | with_reducible refine each_still ?_ ?_
    | intro _ _
    | split
    | with_reducible rfl
    | (delta fnStill; with_reducible rfl)
    | (delta sessStill; with_reducible rfl)
    | (delta portStill; with_reducible rfl)
    | (delta partStill; with_reducible rfl)
    | (delta lnkStill; with_reducible rfl)
    | (delta plaitStill; with_reducible rfl)
    | (delta errStill; with_reducible rfl)
    | (delta billStill; with_reducible rfl)
    | (delta osierStill; with_reducible rfl)
    | (delta portStill lnkStill; with_reducible rfl)
    | (with_reducible refine (lnkStill_setTx ..).trans ?_)
    | (with_reducible refine (lnkStill_sent ..).trans ?_)
    | (with_reducible refine (lnkStill_lastVc1 ..).trans ?_)
    | with_reducible exact partStill_nextCut _
    | with_reducible exact partStill_addCut _ _
    | with_reducible exact partStill_mapNewest _ _
    | dsimp only

theorem placeRec_still (dest : Nat) (r0 : TraceRec) (s : State) : Still s (placeRec dest r0 s) := by
  unfold placeRec
  repeat' first
    | with_reducible exact Still.refl _
    | with_reducible assumption
    | with_reducible refine Still.trans ?_ (hubEvent_still ..)
    | with_reducible refine Still.trans ?_ (portArrive_still ..)
    | with_reducible refine Still.trans ?_ (dramArrive_still ..)
    | with_reducible refine Still.trans ?_ (dramOnly_still ..)
    | with_reducible refine Still.trans ?_ (holdDram_still ..)
    | with_reducible refine each_still ?_ ?_
    | intro _ _
    | split
    | with_reducible rfl
    | (delta fnStill; with_reducible rfl)
    | (delta sessStill; with_reducible rfl)
    | (delta portStill; with_reducible rfl)
    | (delta partStill; with_reducible rfl)
    | (delta lnkStill; with_reducible rfl)
    | (delta plaitStill; with_reducible rfl)
    | (delta errStill; with_reducible rfl)
    | (delta billStill; with_reducible rfl)
    | (delta osierStill; with_reducible rfl)
    | (delta portStill lnkStill; with_reducible rfl)
    | (with_reducible refine (lnkStill_setTx ..).trans ?_)
    | (with_reducible refine (lnkStill_sent ..).trans ?_)
    | (with_reducible refine (lnkStill_lastVc1 ..).trans ?_)
    | with_reducible exact partStill_nextCut _
    | with_reducible exact partStill_addCut _ _
    | with_reducible exact partStill_mapNewest _ _
    | dsimp only

theorem traceWrite_still (r : TraceRec) (s : State) : Still s (traceWrite r s) := by
  unfold traceWrite
  repeat' first
    | with_reducible exact Still.refl _
    | with_reducible assumption
    | with_reducible refine Still.trans ?_ (deliverInput_still ..)
    | with_reducible refine Still.trans ?_ (placeRec_still ..)
    | with_reducible refine each_still ?_ ?_
    | intro _ _
    | split
    | with_reducible rfl
    | (delta fnStill; with_reducible rfl)
    | (delta sessStill; with_reducible rfl)
    | (delta portStill; with_reducible rfl)
    | (delta partStill; with_reducible rfl)
    | (delta lnkStill; with_reducible rfl)
    | (delta plaitStill; with_reducible rfl)
    | (delta errStill; with_reducible rfl)
    | (delta billStill; with_reducible rfl)
    | (delta osierStill; with_reducible rfl)
    | (delta portStill lnkStill; with_reducible rfl)
    | (with_reducible refine (lnkStill_setTx ..).trans ?_)
    | (with_reducible refine (lnkStill_sent ..).trans ?_)
    | (with_reducible refine (lnkStill_lastVc1 ..).trans ?_)
    | with_reducible exact partStill_nextCut _
    | with_reducible exact partStill_addCut _ _
    | with_reducible exact partStill_mapNewest _ _
    | dsimp only

theorem writeRec_still (cls : Nat) (p : Nat) (payload : List Byte) (s : State) : Still s (writeRec cls p payload s) := by
  unfold writeRec
  repeat' first
    | with_reducible exact Still.refl _
    | with_reducible assumption
    | with_reducible refine Still.trans ?_ (traceWrite_still ..)
    | with_reducible refine each_still ?_ ?_
    | intro _ _
    | split
    | with_reducible rfl
    | (delta fnStill; with_reducible rfl)
    | (delta sessStill; with_reducible rfl)
    | (delta portStill; with_reducible rfl)
    | (delta partStill; with_reducible rfl)
    | (delta lnkStill; with_reducible rfl)
    | (delta plaitStill; with_reducible rfl)
    | (delta errStill; with_reducible rfl)
    | (delta billStill; with_reducible rfl)
    | (delta osierStill; with_reducible rfl)
    | (delta portStill lnkStill; with_reducible rfl)
    | (with_reducible refine (lnkStill_setTx ..).trans ?_)
    | (with_reducible refine (lnkStill_sent ..).trans ?_)
    | (with_reducible refine (lnkStill_lastVc1 ..).trans ?_)
    | with_reducible exact partStill_nextCut _
    | with_reducible exact partStill_addCut _ _
    | with_reducible exact partStill_mapNewest _ _
    | dsimp only

theorem sendCtl_still (l : Nat) (type : Nat) (sub : Nat) (body : List Byte) (s : State) : Still s (sendCtl l type sub body s) := by
  unfold sendCtl
  repeat' first
    | with_reducible exact Still.refl _
    | with_reducible assumption
    | with_reducible refine Still.trans ?_ (modLnk_still _ _ _ ?_)
    | with_reducible refine Still.trans ?_ (Still.of_only (emit_only ..) (by decide))
    | with_reducible refine each_still ?_ ?_
    | intro _ _
    | split
    | with_reducible rfl
    | (delta fnStill; with_reducible rfl)
    | (delta sessStill; with_reducible rfl)
    | (delta portStill; with_reducible rfl)
    | (delta partStill; with_reducible rfl)
    | (delta lnkStill; with_reducible rfl)
    | (delta plaitStill; with_reducible rfl)
    | (delta errStill; with_reducible rfl)
    | (delta billStill; with_reducible rfl)
    | (delta osierStill; with_reducible rfl)
    | (delta portStill lnkStill; with_reducible rfl)
    | (with_reducible refine (lnkStill_setTx ..).trans ?_)
    | (with_reducible refine (lnkStill_sent ..).trans ?_)
    | (with_reducible refine (lnkStill_lastVc1 ..).trans ?_)
    | with_reducible exact partStill_nextCut _
    | with_reducible exact partStill_addCut _ _
    | with_reducible exact partStill_mapNewest _ _
    | dsimp only

theorem controlSlot_still (l : Nat) (s : State) : Still s (controlSlot l s) := by
  unfold controlSlot
  repeat' first
    | with_reducible exact Still.refl _
    | with_reducible assumption
    | with_reducible refine Still.trans ?_ (sendCtl_still ..)
    | with_reducible refine each_still ?_ ?_
    | intro _ _
    | split
    | with_reducible rfl
    | (delta fnStill; with_reducible rfl)
    | (delta sessStill; with_reducible rfl)
    | (delta portStill; with_reducible rfl)
    | (delta partStill; with_reducible rfl)
    | (delta lnkStill; with_reducible rfl)
    | (delta plaitStill; with_reducible rfl)
    | (delta errStill; with_reducible rfl)
    | (delta billStill; with_reducible rfl)
    | (delta osierStill; with_reducible rfl)
    | (delta portStill lnkStill; with_reducible rfl)
    | (with_reducible refine (lnkStill_setTx ..).trans ?_)
    | (with_reducible refine (lnkStill_sent ..).trans ?_)
    | (with_reducible refine (lnkStill_lastVc1 ..).trans ?_)
    | with_reducible exact partStill_nextCut _
    | with_reducible exact partStill_addCut _ _
    | with_reducible exact partStill_mapNewest _ _
    | dsimp only

theorem sendFlit_still (l : Nat) (f : Flit) (s : State) : Still s (sendFlit l f s) := by
  unfold sendFlit
  repeat' first
    | with_reducible exact Still.refl _
    | with_reducible assumption
    | with_reducible refine Still.trans ?_ (modLnk_still _ _ _ ?_)
    | with_reducible refine Still.trans ?_ (controlSlot_still ..)
    | with_reducible refine Still.trans ?_ (Still.of_only (putFlit_only ..) (by decide))
    | with_reducible refine each_still ?_ ?_
    | intro _ _
    | split
    | with_reducible rfl
    | (delta fnStill; with_reducible rfl)
    | (delta sessStill; with_reducible rfl)
    | (delta portStill; with_reducible rfl)
    | (delta partStill; with_reducible rfl)
    | (delta lnkStill; with_reducible rfl)
    | (delta plaitStill; with_reducible rfl)
    | (delta errStill; with_reducible rfl)
    | (delta billStill; with_reducible rfl)
    | (delta osierStill; with_reducible rfl)
    | (delta portStill lnkStill; with_reducible rfl)
    | (with_reducible refine (lnkStill_setTx ..).trans ?_)
    | (with_reducible refine (lnkStill_sent ..).trans ?_)
    | (with_reducible refine (lnkStill_lastVc1 ..).trans ?_)
    | with_reducible exact partStill_nextCut _
    | with_reducible exact partStill_addCut _ _
    | with_reducible exact partStill_mapNewest _ _
    | dsimp only

theorem pumpLoop_still (l : Nat) (k : Nat) (s : State) : Still s (pumpLoop l k s) := by
  induction k generalizing s with
  | zero => exact .refl _
  | succ k ih =>
    unfold pumpLoop
    repeat' first
      | with_reducible exact Still.refl _
      | with_reducible assumption
      | with_reducible refine Still.trans ?_ (modLnk_still _ _ _ ?_)
      | with_reducible refine Still.trans ?_ (sendFlit_still ..)
      | with_reducible refine Still.trans ?_ (ih ..)
      | with_reducible refine each_still ?_ ?_
      | intro _ _
      | split
      | with_reducible rfl
      | (delta fnStill; with_reducible rfl)
      | (delta sessStill; with_reducible rfl)
      | (delta portStill; with_reducible rfl)
      | (delta partStill; with_reducible rfl)
      | (delta lnkStill; with_reducible rfl)
      | (delta plaitStill; with_reducible rfl)
      | (delta errStill; with_reducible rfl)
      | (delta billStill; with_reducible rfl)
      | (delta osierStill; with_reducible rfl)
      | (delta portStill lnkStill; with_reducible rfl)
      | (with_reducible refine (lnkStill_setTx ..).trans ?_)
      | (with_reducible refine (lnkStill_sent ..).trans ?_)
      | (with_reducible refine (lnkStill_lastVc1 ..).trans ?_)
      | with_reducible exact partStill_nextCut _
      | with_reducible exact partStill_addCut _ _
      | with_reducible exact partStill_mapNewest _ _
      | dsimp only

theorem pump_still (l : Nat) (s : State) : Still s (pump l s) := by
  unfold pump
  repeat' first
    | with_reducible exact Still.refl _
    | with_reducible assumption
    | with_reducible refine Still.trans ?_ (pumpLoop_still ..)
    | with_reducible refine each_still ?_ ?_
    | intro _ _
    | split
    | with_reducible rfl
    | (delta fnStill; with_reducible rfl)
    | (delta sessStill; with_reducible rfl)
    | (delta portStill; with_reducible rfl)
    | (delta partStill; with_reducible rfl)
    | (delta lnkStill; with_reducible rfl)
    | (delta plaitStill; with_reducible rfl)
    | (delta errStill; with_reducible rfl)
    | (delta billStill; with_reducible rfl)
    | (delta osierStill; with_reducible rfl)
    | (delta portStill lnkStill; with_reducible rfl)
    | (with_reducible refine (lnkStill_setTx ..).trans ?_)
    | (with_reducible refine (lnkStill_sent ..).trans ?_)
    | (with_reducible refine (lnkStill_lastVc1 ..).trans ?_)
    | with_reducible exact partStill_nextCut _
    | with_reducible exact partStill_addCut _ _
    | with_reducible exact partStill_mapNewest _ _
    | dsimp only

theorem sendReq_still (l : Nat) (r : OutReq) (s : State) : Still s (sendReq l r s) := by
  unfold sendReq
  repeat' first
    | with_reducible exact Still.refl _
    | with_reducible assumption
    | with_reducible refine Still.trans ?_ (modLnk_still _ _ _ ?_)
    | with_reducible refine Still.trans ?_ (pump_still ..)
    | with_reducible refine each_still ?_ ?_
    | intro _ _
    | split
    | with_reducible rfl
    | (delta fnStill; with_reducible rfl)
    | (delta sessStill; with_reducible rfl)
    | (delta portStill; with_reducible rfl)
    | (delta partStill; with_reducible rfl)
    | (delta lnkStill; with_reducible rfl)
    | (delta plaitStill; with_reducible rfl)
    | (delta errStill; with_reducible rfl)
    | (delta billStill; with_reducible rfl)
    | (delta osierStill; with_reducible rfl)
    | (delta portStill lnkStill; with_reducible rfl)
    | (with_reducible refine (lnkStill_setTx ..).trans ?_)
    | (with_reducible refine (lnkStill_sent ..).trans ?_)
    | (with_reducible refine (lnkStill_lastVc1 ..).trans ?_)
    | with_reducible exact partStill_nextCut _
    | with_reducible exact partStill_addCut _ _
    | with_reducible exact partStill_mapNewest _ _
    | dsimp only

theorem ask_still (n : Nat) (ch : Nat) (op : Nat) (target : Nat) (wide : Bool) (p : Nat) (tag : W32) (who : ReqFor) (data : List Byte) (s : State) : Still s (ask n ch op target wide p tag who data s) := by
  unfold ask
  repeat' first
    | with_reducible exact Still.refl _
    | with_reducible assumption
    | with_reducible refine Still.trans ?_ (sendReq_still ..)
    | with_reducible refine each_still ?_ ?_
    | intro _ _
    | split
    | with_reducible rfl
    | (delta fnStill; with_reducible rfl)
    | (delta sessStill; with_reducible rfl)
    | (delta portStill; with_reducible rfl)
    | (delta partStill; with_reducible rfl)
    | (delta lnkStill; with_reducible rfl)
    | (delta plaitStill; with_reducible rfl)
    | (delta errStill; with_reducible rfl)
    | (delta billStill; with_reducible rfl)
    | (delta osierStill; with_reducible rfl)
    | (delta portStill lnkStill; with_reducible rfl)
    | (with_reducible refine (lnkStill_setTx ..).trans ?_)
    | (with_reducible refine (lnkStill_sent ..).trans ?_)
    | (with_reducible refine (lnkStill_lastVc1 ..).trans ?_)
    | with_reducible exact partStill_nextCut _
    | with_reducible exact partStill_addCut _ _
    | with_reducible exact partStill_mapNewest _ _
    | dsimp only

theorem askRegRead_still (n : Nat) (target : Nat) (p : Nat) (tag : W32) (who : ReqFor) (off : Nat) (count : Nat) (s : State) : Still s (askRegRead n target p tag who off count s) := by
  unfold askRegRead
  repeat' first
    | with_reducible exact Still.refl _
    | with_reducible assumption
    | with_reducible refine Still.trans ?_ (ask_still ..)
    | with_reducible refine each_still ?_ ?_
    | intro _ _
    | split
    | with_reducible rfl
    | (delta fnStill; with_reducible rfl)
    | (delta sessStill; with_reducible rfl)
    | (delta portStill; with_reducible rfl)
    | (delta partStill; with_reducible rfl)
    | (delta lnkStill; with_reducible rfl)
    | (delta plaitStill; with_reducible rfl)
    | (delta errStill; with_reducible rfl)
    | (delta billStill; with_reducible rfl)
    | (delta osierStill; with_reducible rfl)
    | (delta portStill lnkStill; with_reducible rfl)
    | (with_reducible refine (lnkStill_setTx ..).trans ?_)
    | (with_reducible refine (lnkStill_sent ..).trans ?_)
    | (with_reducible refine (lnkStill_lastVc1 ..).trans ?_)
    | with_reducible exact partStill_nextCut _
    | with_reducible exact partStill_addCut _ _
    | with_reducible exact partStill_mapNewest _ _
    | dsimp only

theorem plaitSend_still (ch : Nat) (op : Nat) (part : Nat) (data : List Byte) (s : State) : Still s (plaitSend ch op part data s) := by
  unfold plaitSend
  repeat' first
    | with_reducible exact Still.refl _
    | with_reducible assumption
    | with_reducible refine Still.trans ?_ (sendReq_still ..)
    | with_reducible refine each_still ?_ ?_
    | intro _ _
    | split
    | with_reducible rfl
    | (delta fnStill; with_reducible rfl)
    | (delta sessStill; with_reducible rfl)
    | (delta portStill; with_reducible rfl)
    | (delta partStill; with_reducible rfl)
    | (delta lnkStill; with_reducible rfl)
    | (delta plaitStill; with_reducible rfl)
    | (delta errStill; with_reducible rfl)
    | (delta billStill; with_reducible rfl)
    | (delta osierStill; with_reducible rfl)
    | (delta portStill lnkStill; with_reducible rfl)
    | (with_reducible refine (lnkStill_setTx ..).trans ?_)
    | (with_reducible refine (lnkStill_sent ..).trans ?_)
    | (with_reducible refine (lnkStill_lastVc1 ..).trans ?_)
    | with_reducible exact partStill_nextCut _
    | with_reducible exact partStill_addCut _ _
    | with_reducible exact partStill_mapNewest _ _
    | dsimp only

theorem cutRec_still (event : Nat) (c : Cut) (s : State) : Still s (cutRec event c s) := by
  unfold cutRec
  repeat' first
    | with_reducible exact Still.refl _
    | with_reducible assumption
    | with_reducible refine Still.trans ?_ (writeRec_still ..)
    | with_reducible refine each_still ?_ ?_
    | intro _ _
    | split
    | with_reducible rfl
    | (delta fnStill; with_reducible rfl)
    | (delta sessStill; with_reducible rfl)
    | (delta portStill; with_reducible rfl)
    | (delta partStill; with_reducible rfl)
    | (delta lnkStill; with_reducible rfl)
    | (delta plaitStill; with_reducible rfl)
    | (delta errStill; with_reducible rfl)
    | (delta billStill; with_reducible rfl)
    | (delta osierStill; with_reducible rfl)
    | (delta portStill lnkStill; with_reducible rfl)
    | (with_reducible refine (lnkStill_setTx ..).trans ?_)
    | (with_reducible refine (lnkStill_sent ..).trans ?_)
    | (with_reducible refine (lnkStill_lastVc1 ..).trans ?_)
    | with_reducible exact partStill_nextCut _
    | with_reducible exact partStill_addCut _ _
    | with_reducible exact partStill_mapNewest _ _
    | dsimp only

theorem finishOwners_still (c : Cut) (r : Bool → Res) (s : State) : Still s (finishOwners c r s) := by
  unfold finishOwners
  repeat' first
    | with_reducible exact Still.refl _
    | with_reducible assumption
    | with_reducible refine Still.trans ?_ (complete_still ..)
    | with_reducible refine each_still ?_ ?_
    | intro _ _
    | split
    | with_reducible rfl
    | (delta fnStill; with_reducible rfl)
    | (delta sessStill; with_reducible rfl)
    | (delta portStill; with_reducible rfl)
    | (delta partStill; with_reducible rfl)
    | (delta lnkStill; with_reducible rfl)
    | (delta plaitStill; with_reducible rfl)
    | (delta errStill; with_reducible rfl)
    | (delta billStill; with_reducible rfl)
    | (delta osierStill; with_reducible rfl)
    | (delta portStill lnkStill; with_reducible rfl)
    | (with_reducible refine (lnkStill_setTx ..).trans ?_)
    | (with_reducible refine (lnkStill_sent ..).trans ?_)
    | (with_reducible refine (lnkStill_lastVc1 ..).trans ?_)
    | with_reducible exact partStill_nextCut _
    | with_reducible exact partStill_addCut _ _
    | with_reducible exact partStill_mapNewest _ _
    | dsimp only

theorem hangRec_still (p : Nat) (event : Nat) (r : HangReport) (s : State) : Still s (hangRec p event r s) := by
  unfold hangRec
  repeat' first
    | with_reducible exact Still.refl _
    | with_reducible assumption
    | with_reducible refine Still.trans ?_ (writeRec_still ..)
    | with_reducible refine each_still ?_ ?_
    | intro _ _
    | split
    | with_reducible rfl
    | (delta fnStill; with_reducible rfl)
    | (delta sessStill; with_reducible rfl)
    | (delta portStill; with_reducible rfl)
    | (delta partStill; with_reducible rfl)
    | (delta lnkStill; with_reducible rfl)
    | (delta plaitStill; with_reducible rfl)
    | (delta errStill; with_reducible rfl)
    | (delta billStill; with_reducible rfl)
    | (delta osierStill; with_reducible rfl)
    | (delta portStill lnkStill; with_reducible rfl)
    | (with_reducible refine (lnkStill_setTx ..).trans ?_)
    | (with_reducible refine (lnkStill_sent ..).trans ?_)
    | (with_reducible refine (lnkStill_lastVc1 ..).trans ?_)
    | with_reducible exact partStill_nextCut _
    | with_reducible exact partStill_addCut _ _
    | with_reducible exact partStill_mapNewest _ _
    | dsimp only

theorem endBinding_still (p : Nat) (event : Nat) (g : HangReport → HangReport) (s : State) : Still s (endBinding p event g s) := by
  unfold endBinding
  repeat' first
    | with_reducible exact Still.refl _
    | with_reducible assumption
    | with_reducible refine Still.trans ?_ (modPart_still _ _ _ ?_)
    | with_reducible refine Still.trans ?_ (hangRec_still ..)
    | with_reducible refine each_still ?_ ?_
    | intro _ _
    | split
    | with_reducible rfl
    | (delta fnStill; with_reducible rfl)
    | (delta sessStill; with_reducible rfl)
    | (delta portStill; with_reducible rfl)
    | (delta partStill; with_reducible rfl)
    | (delta lnkStill; with_reducible rfl)
    | (delta plaitStill; with_reducible rfl)
    | (delta errStill; with_reducible rfl)
    | (delta billStill; with_reducible rfl)
    | (delta osierStill; with_reducible rfl)
    | (delta portStill lnkStill; with_reducible rfl)
    | (with_reducible refine (lnkStill_setTx ..).trans ?_)
    | (with_reducible refine (lnkStill_sent ..).trans ?_)
    | (with_reducible refine (lnkStill_lastVc1 ..).trans ?_)
    | with_reducible exact partStill_nextCut _
    | with_reducible exact partStill_addCut _ _
    | with_reducible exact partStill_mapNewest _ _
    | dsimp only

theorem bindReports_still (p : Nat) (cut : W32) (s : State) : Still s (bindReports p cut s) := by
  unfold bindReports
  repeat' first
    | with_reducible exact Still.refl _
    | with_reducible assumption
    | with_reducible refine Still.trans ?_ (endBinding_still ..)
    | with_reducible refine each_still ?_ ?_
    | intro _ _
    | split
    | with_reducible rfl
    | (delta fnStill; with_reducible rfl)
    | (delta sessStill; with_reducible rfl)
    | (delta portStill; with_reducible rfl)
    | (delta partStill; with_reducible rfl)
    | (delta lnkStill; with_reducible rfl)
    | (delta plaitStill; with_reducible rfl)
    | (delta errStill; with_reducible rfl)
    | (delta billStill; with_reducible rfl)
    | (delta osierStill; with_reducible rfl)
    | (delta portStill lnkStill; with_reducible rfl)
    | (with_reducible refine (lnkStill_setTx ..).trans ?_)
    | (with_reducible refine (lnkStill_sent ..).trans ?_)
    | (with_reducible refine (lnkStill_lastVc1 ..).trans ?_)
    | with_reducible exact partStill_nextCut _
    | with_reducible exact partStill_addCut _ _
    | with_reducible exact partStill_mapNewest _ _
    | dsimp only

theorem reportRefused_still (p : Nat) (id : Option W32) (s : State) : Still s (reportRefused p id s) := by
  unfold reportRefused
  repeat' first
    | with_reducible exact Still.refl _
    | with_reducible assumption
    | with_reducible refine Still.trans ?_ (modPart_still _ _ _ ?_)
    | with_reducible refine each_still ?_ ?_
    | intro _ _
    | split
    | with_reducible rfl
    | (delta fnStill; with_reducible rfl)
    | (delta sessStill; with_reducible rfl)
    | (delta portStill; with_reducible rfl)
    | (delta partStill; with_reducible rfl)
    | (delta lnkStill; with_reducible rfl)
    | (delta plaitStill; with_reducible rfl)
    | (delta errStill; with_reducible rfl)
    | (delta billStill; with_reducible rfl)
    | (delta osierStill; with_reducible rfl)
    | (delta portStill lnkStill; with_reducible rfl)
    | (with_reducible refine (lnkStill_setTx ..).trans ?_)
    | (with_reducible refine (lnkStill_sent ..).trans ?_)
    | (with_reducible refine (lnkStill_lastVc1 ..).trans ?_)
    | with_reducible exact partStill_nextCut _
    | with_reducible exact partStill_addCut _ _
    | with_reducible exact partStill_mapNewest _ _
    | dsimp only

theorem modBuild_still (p : Nat) (g : Cut → Cut) (s : State) : Still s (modBuild p g s) := by
  unfold modBuild
  repeat' first
    | with_reducible exact Still.refl _
    | with_reducible assumption
    | with_reducible refine Still.trans ?_ (modPart_still _ _ _ ?_)
    | with_reducible refine each_still ?_ ?_
    | intro _ _
    | split
    | with_reducible rfl
    | (delta fnStill; with_reducible rfl)
    | (delta sessStill; with_reducible rfl)
    | (delta portStill; with_reducible rfl)
    | (delta partStill; with_reducible rfl)
    | (delta lnkStill; with_reducible rfl)
    | (delta plaitStill; with_reducible rfl)
    | (delta errStill; with_reducible rfl)
    | (delta billStill; with_reducible rfl)
    | (delta osierStill; with_reducible rfl)
    | (delta portStill lnkStill; with_reducible rfl)
    | (with_reducible refine (lnkStill_setTx ..).trans ?_)
    | (with_reducible refine (lnkStill_sent ..).trans ?_)
    | (with_reducible refine (lnkStill_lastVc1 ..).trans ?_)
    | with_reducible exact partStill_nextCut _
    | with_reducible exact partStill_addCut _ _
    | with_reducible exact partStill_mapNewest _ _
    | dsimp only

theorem modCut_still (p : Nat) (id : W32) (g : Cut → Cut) (s : State) : Still s (modCut p id g s) := by
  unfold modCut
  repeat' first
    | with_reducible exact Still.refl _
    | with_reducible assumption
    | with_reducible refine Still.trans ?_ (modPart_still _ _ _ ?_)
    | with_reducible refine each_still ?_ ?_
    | intro _ _
    | split
    | with_reducible rfl
    | (delta fnStill; with_reducible rfl)
    | (delta sessStill; with_reducible rfl)
    | (delta portStill; with_reducible rfl)
    | (delta partStill; with_reducible rfl)
    | (delta lnkStill; with_reducible rfl)
    | (delta plaitStill; with_reducible rfl)
    | (delta errStill; with_reducible rfl)
    | (delta billStill; with_reducible rfl)
    | (delta osierStill; with_reducible rfl)
    | (delta portStill lnkStill; with_reducible rfl)
    | (with_reducible refine (lnkStill_setTx ..).trans ?_)
    | (with_reducible refine (lnkStill_sent ..).trans ?_)
    | (with_reducible refine (lnkStill_lastVc1 ..).trans ?_)
    | with_reducible exact partStill_nextCut _
    | with_reducible exact partStill_addCut _ _
    | with_reducible exact partStill_mapNewest _ _
    | dsimp only

theorem logPoisoned_still (c : Cut) (s : State) : Still s (logPoisoned c s) := by
  unfold logPoisoned
  repeat' first
    | with_reducible exact Still.refl _
    | with_reducible assumption
    | with_reducible refine Still.trans ?_ (uncorrectableItem_still ..)
    | with_reducible refine each_still ?_ ?_
    | intro _ _
    | split
    | with_reducible rfl
    | (delta fnStill; with_reducible rfl)
    | (delta sessStill; with_reducible rfl)
    | (delta portStill; with_reducible rfl)
    | (delta partStill; with_reducible rfl)
    | (delta lnkStill; with_reducible rfl)
    | (delta plaitStill; with_reducible rfl)
    | (delta errStill; with_reducible rfl)
    | (delta billStill; with_reducible rfl)
    | (delta osierStill; with_reducible rfl)
    | (delta portStill lnkStill; with_reducible rfl)
    | (with_reducible refine (lnkStill_setTx ..).trans ?_)
    | (with_reducible refine (lnkStill_sent ..).trans ?_)
    | (with_reducible refine (lnkStill_lastVc1 ..).trans ?_)
    | with_reducible exact partStill_nextCut _
    | with_reducible exact partStill_addCut _ _
    | with_reducible exact partStill_mapNewest _ _
    | dsimp only

theorem refuseCut_still (p : Nat) (c : Cut) (s : State) : Still s (refuseCut p c s) := by
  unfold refuseCut
  repeat' first
    | with_reducible exact Still.refl _
    | with_reducible assumption
    | with_reducible refine Still.trans ?_ (modPart_still _ _ _ ?_)
    | with_reducible refine Still.trans ?_ (Still.of_only (bumpAlways_only ..) (by decide))
    | with_reducible refine Still.trans ?_ (cutRec_still ..)
    | with_reducible refine Still.trans ?_ (finishOwners_still ..)
    | with_reducible refine Still.trans ?_ (reportRefused_still ..)
    | with_reducible refine each_still ?_ ?_
    | intro _ _
    | split
    | with_reducible rfl
    | (delta fnStill; with_reducible rfl)
    | (delta sessStill; with_reducible rfl)
    | (delta portStill; with_reducible rfl)
    | (delta partStill; with_reducible rfl)
    | (delta lnkStill; with_reducible rfl)
    | (delta plaitStill; with_reducible rfl)
    | (delta errStill; with_reducible rfl)
    | (delta billStill; with_reducible rfl)
    | (delta osierStill; with_reducible rfl)
    | (delta portStill lnkStill; with_reducible rfl)
    | (with_reducible refine (lnkStill_setTx ..).trans ?_)
    | (with_reducible refine (lnkStill_sent ..).trans ?_)
    | (with_reducible refine (lnkStill_lastVc1 ..).trans ?_)
    | with_reducible exact partStill_nextCut _
    | with_reducible exact partStill_addCut _ _
    | with_reducible exact partStill_mapNewest _ _
    | dsimp only

theorem assignCut_still (p : Nat) (s : State) : Still s (assignCut p s) := by
  unfold assignCut
  split
  · exact .refl _
  · split
    · exact refuseCut_still ..
    · refine Still.trans ?_ (finishOwners_still ..)
      refine Still.trans ?_ (bindReports_still ..)
      refine Still.trans ?_ (hubEvent_still ..)
      refine Still.trans ?_ (Still.of_only (bumpAlways_only ..) (by decide))
      refine Still.trans ?_ (cutRec_still ..)
      refine Still.trans ?_ (modPart_still _ _ _ rfl)
      exact ⟨rfl, rfl, rfl, rfl, rfl, rfl, rfl, rfl, rfl⟩

theorem endProof_still (p : Nat) (s : State) : Still s (endProof p s) := by
  unfold endProof
  split
  · exact .refl _
  · extract_lets c1 s1 pages need full
    have h : Still s s1 := logPoisoned_still ..
    clear_value full s1
    split
    · refine Still.trans ?_ (modBuild_still ..)
      split
      · exact h.trans (spendDram_still ..)
      · exact h.trans (spendCreel_still ..)
    · exact h.trans (refuseCut_still ..)

theorem captured_still (p : Nat) (c : Cut) (s : State) : Still s (captured p c s) := by
  unfold captured
  repeat' first
    | with_reducible exact Still.refl _
    | with_reducible assumption
    | with_reducible refine Still.trans ?_ (cutRec_still ..)
    | with_reducible refine Still.trans ?_ (modCut_still ..)
    | with_reducible refine each_still ?_ ?_
    | intro _ _
    | split
    | with_reducible rfl
    | (delta fnStill; with_reducible rfl)
    | (delta sessStill; with_reducible rfl)
    | (delta portStill; with_reducible rfl)
    | (delta partStill; with_reducible rfl)
    | (delta lnkStill; with_reducible rfl)
    | (delta plaitStill; with_reducible rfl)
    | (delta errStill; with_reducible rfl)
    | (delta billStill; with_reducible rfl)
    | (delta osierStill; with_reducible rfl)
    | (delta portStill lnkStill; with_reducible rfl)
    | (with_reducible refine (lnkStill_setTx ..).trans ?_)
    | (with_reducible refine (lnkStill_sent ..).trans ?_)
    | (with_reducible refine (lnkStill_lastVc1 ..).trans ?_)
    | with_reducible exact partStill_nextCut _
    | with_reducible exact partStill_addCut _ _
    | with_reducible exact partStill_mapNewest _ _
    | dsimp only

theorem assignEmpty_still (p : Nat) (s : State) : Still s (assignEmpty p s) := by
  unfold assignEmpty
  extract_lets s1
  have h1 : Still s s1 := endProof_still ..
  clear_value s1
  split
  · rename_i s2 _
    have h2 : Still s s2 := h1.trans (assignCut_still ..)
    clear_value s2
    split
    · exact h2.trans (captured_still ..)
    · exact h2
  · exact h1

theorem freezeGraph_still (p : Nat) (s : State) : Still s (freezeGraph p s) := by
  unfold freezeGraph
  repeat' first
    | with_reducible exact Still.refl _
    | with_reducible assumption
    | with_reducible refine Still.trans ?_ (modPart_still _ _ _ ?_)
    | with_reducible refine each_still ?_ ?_
    | intro _ _
    | split
    | with_reducible rfl
    | (delta fnStill; with_reducible rfl)
    | (delta sessStill; with_reducible rfl)
    | (delta portStill; with_reducible rfl)
    | (delta partStill; with_reducible rfl)
    | (delta lnkStill; with_reducible rfl)
    | (delta plaitStill; with_reducible rfl)
    | (delta errStill; with_reducible rfl)
    | (delta billStill; with_reducible rfl)
    | (delta osierStill; with_reducible rfl)
    | (delta portStill lnkStill; with_reducible rfl)
    | (with_reducible refine (lnkStill_setTx ..).trans ?_)
    | (with_reducible refine (lnkStill_sent ..).trans ?_)
    | (with_reducible refine (lnkStill_lastVc1 ..).trans ?_)
    | with_reducible exact partStill_nextCut _
    | with_reducible exact partStill_addCut _ _
    | with_reducible exact partStill_mapNewest _ _
    | dsimp only

theorem pumpAdaptor_still (s : State) : Still s (pumpAdaptor s) := by
  unfold pumpAdaptor
  repeat' first
    | with_reducible exact Still.refl _
    | with_reducible assumption
    | with_reducible refine each_still ?_ ?_
    | intro _ _
    | split
    | with_reducible refine Still_upd_osier ?_ ?_
    | with_reducible rfl
    | (delta fnStill; with_reducible rfl)
    | (delta sessStill; with_reducible rfl)
    | (delta portStill; with_reducible rfl)
    | (delta partStill; with_reducible rfl)
    | (delta lnkStill; with_reducible rfl)
    | (delta plaitStill; with_reducible rfl)
    | (delta errStill; with_reducible rfl)
    | (delta billStill; with_reducible rfl)
    | (delta osierStill; with_reducible rfl)
    | (delta portStill lnkStill; with_reducible rfl)
    | (with_reducible refine (lnkStill_setTx ..).trans ?_)
    | (with_reducible refine (lnkStill_sent ..).trans ?_)
    | (with_reducible refine (lnkStill_lastVc1 ..).trans ?_)
    | with_reducible exact partStill_nextCut _
    | with_reducible exact partStill_addCut _ _
    | with_reducible exact partStill_mapNewest _ _
    | dsimp only

theorem pushCall_still (c : AdaptorCall) (s : State) : Still s (pushCall c s) := by
  unfold pushCall
  repeat' first
    | with_reducible exact Still.refl _
    | with_reducible assumption
    | with_reducible refine Still.trans ?_ (pumpAdaptor_still ..)
    | with_reducible refine each_still ?_ ?_
    | intro _ _
    | split
    | with_reducible refine Still_upd_osier ?_ ?_
    | with_reducible rfl
    | (delta fnStill; with_reducible rfl)
    | (delta sessStill; with_reducible rfl)
    | (delta portStill; with_reducible rfl)
    | (delta partStill; with_reducible rfl)
    | (delta lnkStill; with_reducible rfl)
    | (delta plaitStill; with_reducible rfl)
    | (delta errStill; with_reducible rfl)
    | (delta billStill; with_reducible rfl)
    | (delta osierStill; with_reducible rfl)
    | (delta portStill lnkStill; with_reducible rfl)
    | (with_reducible refine (lnkStill_setTx ..).trans ?_)
    | (with_reducible refine (lnkStill_sent ..).trans ?_)
    | (with_reducible refine (lnkStill_lastVc1 ..).trans ?_)
    | with_reducible exact partStill_nextCut _
    | with_reducible exact partStill_addCut _ _
    | with_reducible exact partStill_mapNewest _ _
    | dsimp only

theorem assertHoop_still (n : Nat) (s : State) : Still s (assertHoop n s) := by
  unfold assertHoop
  repeat' first
    | with_reducible exact Still.refl _
    | with_reducible assumption
    | with_reducible refine Still.trans ?_ (modPort_still _ _ _ ?_)
    | with_reducible refine Still.trans ?_ (Still.of_only (emit_only ..) (by decide))
    | with_reducible refine each_still ?_ ?_
    | intro _ _
    | split
    | with_reducible rfl
    | (delta fnStill; with_reducible rfl)
    | (delta sessStill; with_reducible rfl)
    | (delta portStill; with_reducible rfl)
    | (delta partStill; with_reducible rfl)
    | (delta lnkStill; with_reducible rfl)
    | (delta plaitStill; with_reducible rfl)
    | (delta errStill; with_reducible rfl)
    | (delta billStill; with_reducible rfl)
    | (delta osierStill; with_reducible rfl)
    | (delta portStill lnkStill; with_reducible rfl)
    | (with_reducible refine (lnkStill_setTx ..).trans ?_)
    | (with_reducible refine (lnkStill_sent ..).trans ?_)
    | (with_reducible refine (lnkStill_lastVc1 ..).trans ?_)
    | with_reducible exact partStill_nextCut _
    | with_reducible exact partStill_addCut _ _
    | with_reducible exact partStill_mapNewest _ _
    | dsimp only

theorem triggerRec_still (p : Nat) (serial : Nat) (sources : Nat) (term : Nat) (action : Nat) (abrupt : Bool) (hoop : Nat) (vc0 : Nat) (fwd : Nat) (hostTag : Nat) (suppressed : Nat) (s : State) : Still s (triggerRec p serial sources term action abrupt hoop vc0 fwd hostTag suppressed s) := by
  unfold triggerRec
  repeat' first
    | with_reducible exact Still.refl _
    | with_reducible assumption
    | with_reducible refine Still.trans ?_ (writeRec_still ..)
    | with_reducible refine each_still ?_ ?_
    | intro _ _
    | split
    | with_reducible rfl
    | (delta fnStill; with_reducible rfl)
    | (delta sessStill; with_reducible rfl)
    | (delta portStill; with_reducible rfl)
    | (delta partStill; with_reducible rfl)
    | (delta lnkStill; with_reducible rfl)
    | (delta plaitStill; with_reducible rfl)
    | (delta errStill; with_reducible rfl)
    | (delta billStill; with_reducible rfl)
    | (delta osierStill; with_reducible rfl)
    | (delta portStill lnkStill; with_reducible rfl)
    | (with_reducible refine (lnkStill_setTx ..).trans ?_)
    | (with_reducible refine (lnkStill_sent ..).trans ?_)
    | (with_reducible refine (lnkStill_lastVc1 ..).trans ?_)
    | with_reducible exact partStill_nextCut _
    | with_reducible exact partStill_addCut _ _
    | with_reducible exact partStill_mapNewest _ _
    | dsimp only

theorem askHalt_still (n : Nat) (p : Nat) (tag : W32) (subseq : Nat) (abrupt : Bool) (who : ReqFor) (s : State) : Still s (askHalt n p tag subseq abrupt who s) := by
  unfold askHalt
  repeat' first
    | with_reducible exact Still.refl _
    | with_reducible assumption
    | with_reducible refine Still.trans ?_ (ask_still ..)
    | with_reducible refine each_still ?_ ?_
    | intro _ _
    | split
    | with_reducible rfl
    | (delta fnStill; with_reducible rfl)
    | (delta sessStill; with_reducible rfl)
    | (delta portStill; with_reducible rfl)
    | (delta partStill; with_reducible rfl)
    | (delta lnkStill; with_reducible rfl)
    | (delta plaitStill; with_reducible rfl)
    | (delta errStill; with_reducible rfl)
    | (delta billStill; with_reducible rfl)
    | (delta osierStill; with_reducible rfl)
    | (delta portStill lnkStill; with_reducible rfl)
    | (with_reducible refine (lnkStill_setTx ..).trans ?_)
    | (with_reducible refine (lnkStill_sent ..).trans ?_)
    | (with_reducible refine (lnkStill_lastVc1 ..).trans ?_)
    | with_reducible exact partStill_nextCut _
    | with_reducible exact partStill_addCut _ _
    | with_reducible exact partStill_mapNewest _ _
    | dsimp only

theorem sendHalts_still (p : Nat) (abrupt : Bool) (host : Option (Nat × W32)) (ports : List Nat) (s : State) : Still s (sendHalts p abrupt host ports s) := by
  unfold sendHalts
  repeat' first
    | with_reducible exact Still.refl _
    | with_reducible assumption
    | with_reducible refine Still.trans ?_ (modPart_still _ _ _ ?_)
    | with_reducible refine Still.trans ?_ (modWork_still ..)
    | with_reducible refine Still.trans ?_ (askHalt_still ..)
    | with_reducible refine each_still ?_ ?_
    | intro _ _
    | split
    | with_reducible rfl
    | (delta fnStill; with_reducible rfl)
    | (delta sessStill; with_reducible rfl)
    | (delta portStill; with_reducible rfl)
    | (delta partStill; with_reducible rfl)
    | (delta lnkStill; with_reducible rfl)
    | (delta plaitStill; with_reducible rfl)
    | (delta errStill; with_reducible rfl)
    | (delta billStill; with_reducible rfl)
    | (delta osierStill; with_reducible rfl)
    | (delta portStill lnkStill; with_reducible rfl)
    | (with_reducible refine (lnkStill_setTx ..).trans ?_)
    | (with_reducible refine (lnkStill_sent ..).trans ?_)
    | (with_reducible refine (lnkStill_lastVc1 ..).trans ?_)
    | with_reducible exact partStill_nextCut _
    | with_reducible exact partStill_addCut _ _
    | with_reducible exact partStill_mapNewest _ _
    | dsimp only

theorem fallbackHalts_still (p : Nat) (abrupt : Bool) (host : Option (Nat × W32)) (s : State) : Still s (fallbackHalts p abrupt host s) := by
  unfold fallbackHalts
  repeat' first
    | with_reducible exact Still.refl _
    | with_reducible assumption
    | with_reducible refine Still.trans ?_ (pushCall_still ..)
    | with_reducible refine each_still ?_ ?_
    | intro _ _
    | split
    | with_reducible rfl
    | (delta fnStill; with_reducible rfl)
    | (delta sessStill; with_reducible rfl)
    | (delta portStill; with_reducible rfl)
    | (delta partStill; with_reducible rfl)
    | (delta lnkStill; with_reducible rfl)
    | (delta plaitStill; with_reducible rfl)
    | (delta errStill; with_reducible rfl)
    | (delta billStill; with_reducible rfl)
    | (delta osierStill; with_reducible rfl)
    | (delta portStill lnkStill; with_reducible rfl)
    | (with_reducible refine (lnkStill_setTx ..).trans ?_)
    | (with_reducible refine (lnkStill_sent ..).trans ?_)
    | (with_reducible refine (lnkStill_lastVc1 ..).trans ?_)
    | with_reducible exact partStill_nextCut _
    | with_reducible exact partStill_addCut _ _
    | with_reducible exact partStill_mapNewest _ _
    | dsimp only

theorem enterHold_still (p : Nat) (s : State) : Still s (enterHold p s) := by
  unfold enterHold
  repeat' first
    | with_reducible exact Still.refl _
    | with_reducible assumption
    | with_reducible refine Still.trans ?_ (modPart_still _ _ _ ?_)
    | with_reducible refine each_still ?_ ?_
    | intro _ _
    | split
    | with_reducible rfl
    | (delta fnStill; with_reducible rfl)
    | (delta sessStill; with_reducible rfl)
    | (delta portStill; with_reducible rfl)
    | (delta partStill; with_reducible rfl)
    | (delta lnkStill; with_reducible rfl)
    | (delta plaitStill; with_reducible rfl)
    | (delta errStill; with_reducible rfl)
    | (delta billStill; with_reducible rfl)
    | (delta osierStill; with_reducible rfl)
    | (delta portStill lnkStill; with_reducible rfl)
    | (with_reducible refine (lnkStill_setTx ..).trans ?_)
    | (with_reducible refine (lnkStill_sent ..).trans ?_)
    | (with_reducible refine (lnkStill_lastVc1 ..).trans ?_)
    | with_reducible exact partStill_nextCut _
    | with_reducible exact partStill_addCut _ _
    | with_reducible exact partStill_mapNewest _ _
    | dsimp only

theorem noteAction_still (r : HaltReq) (abrupt : Bool) (serial : Nat) (s : State) : Still s (noteAction r abrupt serial s) := by
  unfold noteAction
  repeat' first
    | with_reducible exact Still.refl _
    | with_reducible assumption
    | with_reducible refine Still.trans ?_ (modPart_still _ _ _ ?_)
    | with_reducible refine each_still ?_ ?_
    | intro _ _
    | split
    | with_reducible rfl
    | (delta fnStill; with_reducible rfl)
    | (delta sessStill; with_reducible rfl)
    | (delta portStill; with_reducible rfl)
    | (delta partStill; with_reducible rfl)
    | (delta lnkStill; with_reducible rfl)
    | (delta plaitStill; with_reducible rfl)
    | (delta errStill; with_reducible rfl)
    | (delta billStill; with_reducible rfl)
    | (delta osierStill; with_reducible rfl)
    | (delta portStill lnkStill; with_reducible rfl)
    | (with_reducible refine (lnkStill_setTx ..).trans ?_)
    | (with_reducible refine (lnkStill_sent ..).trans ?_)
    | (with_reducible refine (lnkStill_lastVc1 ..).trans ?_)
    | with_reducible exact partStill_nextCut _
    | with_reducible exact partStill_addCut _ _
    | with_reducible exact partStill_mapNewest _ _
    | dsimp only

theorem haltAction_still (r : HaltReq) (fast : List Nat) (suppressed : Nat) (s : State) :
    Still s (haltAction r fast suppressed s) := by
  unfold haltAction
  extract_lets p w abrupt ports fwd hoop timeout down gather s1 s2 s3 serial c s4
  have h1 : Still s s1 := (sendHalts_still ..).trans (fallbackHalts_still ..)
  have h2 : Still s s2 := h1.trans (by
    show Still s1 (if _ then _ else _)
    split
    · exact plaitSend_still ..
    · exact .refl _)
  have h3 : Still s s3 := h2.trans (((each_still (.refl _) fun _ _ => .of_only (pulseXtrig_only ..) (by decide)).trans (each_still (.refl _) fun _ _ => .of_only (haltUnit_only ..) (by decide))).trans
    (modPart_still _ _ _ (rfl)))
  have h4 : Still s s4 := h3.trans (by
    show Still s3 (if _ then _ else _)
    split
    · exact modPart_still _ _ _ ((partStill_addCut ..))
    · exact .refl _)
  exact (((h4.trans (noteAction_still ..)).trans (.of_only (bumpAlways_only ..) (by decide))).trans (hubEvent_still ..)).trans
    (triggerRec_still ..)

theorem performHalts_still (l : List HaltReq) (s : State) : Still s (performHalts l s) := by
  unfold performHalts
  repeat' first
    | with_reducible exact Still.refl _
    | with_reducible assumption
    | with_reducible refine Still.trans ?_ (freezeGraph_still ..)
    | with_reducible refine Still.trans ?_ (assertHoop_still ..)
    | with_reducible refine Still.trans ?_ (enterHold_still ..)
    | with_reducible refine Still.trans ?_ (haltAction_still ..)
    | with_reducible refine each_still ?_ ?_
    | intro _ _
    | split
    | with_reducible rfl
    | (delta fnStill; with_reducible rfl)
    | (delta sessStill; with_reducible rfl)
    | (delta portStill; with_reducible rfl)
    | (delta partStill; with_reducible rfl)
    | (delta lnkStill; with_reducible rfl)
    | (delta plaitStill; with_reducible rfl)
    | (delta errStill; with_reducible rfl)
    | (delta billStill; with_reducible rfl)
    | (delta osierStill; with_reducible rfl)
    | (delta portStill lnkStill; with_reducible rfl)
    | (with_reducible refine (lnkStill_setTx ..).trans ?_)
    | (with_reducible refine (lnkStill_sent ..).trans ?_)
    | (with_reducible refine (lnkStill_lastVc1 ..).trans ?_)
    | with_reducible exact partStill_nextCut _
    | with_reducible exact partStill_addCut _ _
    | with_reducible exact partStill_mapNewest _ _
    | dsimp only

theorem completeHalt_still (f : Nat) (c : Cmd) (g : Option Gather) (s : State) : Still s (completeHalt f c g s) := by
  unfold completeHalt
  repeat' first
    | with_reducible exact Still.refl _
    | with_reducible assumption
    | with_reducible refine Still.trans ?_ (complete_still ..)
    | with_reducible refine each_still ?_ ?_
    | intro _ _
    | split
    | with_reducible rfl
    | (delta fnStill; with_reducible rfl)
    | (delta sessStill; with_reducible rfl)
    | (delta portStill; with_reducible rfl)
    | (delta partStill; with_reducible rfl)
    | (delta lnkStill; with_reducible rfl)
    | (delta plaitStill; with_reducible rfl)
    | (delta errStill; with_reducible rfl)
    | (delta billStill; with_reducible rfl)
    | (delta osierStill; with_reducible rfl)
    | (delta portStill lnkStill; with_reducible rfl)
    | (with_reducible refine (lnkStill_setTx ..).trans ?_)
    | (with_reducible refine (lnkStill_sent ..).trans ?_)
    | (with_reducible refine (lnkStill_lastVc1 ..).trans ?_)
    | with_reducible exact partStill_nextCut _
    | with_reducible exact partStill_addCut _ _
    | with_reducible exact partStill_mapNewest _ _
    | dsimp only

theorem askSynth_still (u : Nat) (p : Nat) (s : State) : Still s (askSynth u p s) := by
  unfold askSynth
  repeat' first
    | with_reducible exact Still.refl _
    | with_reducible assumption
    | with_reducible refine Still.trans ?_ (askRegRead_still ..)
    | with_reducible refine each_still ?_ ?_
    | intro _ _
    | split
    | with_reducible rfl
    | (delta fnStill; with_reducible rfl)
    | (delta sessStill; with_reducible rfl)
    | (delta portStill; with_reducible rfl)
    | (delta partStill; with_reducible rfl)
    | (delta lnkStill; with_reducible rfl)
    | (delta plaitStill; with_reducible rfl)
    | (delta errStill; with_reducible rfl)
    | (delta billStill; with_reducible rfl)
    | (delta osierStill; with_reducible rfl)
    | (delta portStill lnkStill; with_reducible rfl)
    | (with_reducible refine (lnkStill_setTx ..).trans ?_)
    | (with_reducible refine (lnkStill_sent ..).trans ?_)
    | (with_reducible refine (lnkStill_lastVc1 ..).trans ?_)
    | with_reducible exact partStill_nextCut _
    | with_reducible exact partStill_addCut _ _
    | with_reducible exact partStill_mapNewest _ _
    | dsimp only

theorem cutGathered_still (p : Nat) (s : State) : Still s (cutGathered p s) := by
  unfold cutGathered
  have h : Still s (modPart p (PartSt.mapNewest fun c => { c with stage := 1 }) s) := modPart_still _ _ _ (partStill_mapNewest ..)
  split
  · split
    · exact h.trans (assignEmpty_still ..)
    · exact h.trans (each_still (.refl _) fun _ _ => askSynth_still ..)
  · exact .refl _

theorem checkGather_still (p : Nat) (s : State) : Still s (checkGather p s) := by
  unfold checkGather
  repeat' first
    | with_reducible exact Still.refl _
    | with_reducible assumption
    | with_reducible refine Still.trans ?_ (modPart_still _ _ _ ?_)
    | with_reducible refine Still.trans ?_ (completeHalt_still ..)
    | with_reducible refine Still.trans ?_ (cutGathered_still ..)
    | with_reducible refine each_still ?_ ?_
    | intro _ _
    | split
    | with_reducible rfl
    | (delta fnStill; with_reducible rfl)
    | (delta sessStill; with_reducible rfl)
    | (delta portStill; with_reducible rfl)
    | (delta partStill; with_reducible rfl)
    | (delta lnkStill; with_reducible rfl)
    | (delta plaitStill; with_reducible rfl)
    | (delta errStill; with_reducible rfl)
    | (delta billStill; with_reducible rfl)
    | (delta osierStill; with_reducible rfl)
    | (delta portStill lnkStill; with_reducible rfl)
    | (with_reducible refine (lnkStill_setTx ..).trans ?_)
    | (with_reducible refine (lnkStill_sent ..).trans ?_)
    | (with_reducible refine (lnkStill_lastVc1 ..).trans ?_)
    | with_reducible exact partStill_nextCut _
    | with_reducible exact partStill_addCut _ _
    | with_reducible exact partStill_mapNewest _ _
    | dsimp only

theorem checkGathering_still (p : Nat) (s : State) : Still s (checkGathering p s) := by
  unfold checkGathering
  repeat' first
    | with_reducible exact Still.refl _
    | with_reducible assumption
    | with_reducible refine Still.trans ?_ (checkGather_still ..)
    | with_reducible refine each_still ?_ ?_
    | intro _ _
    | split
    | with_reducible rfl
    | (delta fnStill; with_reducible rfl)
    | (delta sessStill; with_reducible rfl)
    | (delta portStill; with_reducible rfl)
    | (delta partStill; with_reducible rfl)
    | (delta lnkStill; with_reducible rfl)
    | (delta plaitStill; with_reducible rfl)
    | (delta errStill; with_reducible rfl)
    | (delta billStill; with_reducible rfl)
    | (delta osierStill; with_reducible rfl)
    | (delta portStill lnkStill; with_reducible rfl)
    | (with_reducible refine (lnkStill_setTx ..).trans ?_)
    | (with_reducible refine (lnkStill_sent ..).trans ?_)
    | (with_reducible refine (lnkStill_lastVc1 ..).trans ?_)
    | with_reducible exact partStill_nextCut _
    | with_reducible exact partStill_addCut _ _
    | with_reducible exact partStill_mapNewest _ _
    | dsimp only

theorem raiseAction_still (r : HaltReq) (h : AtHalt) (s : State) : Still s (raiseAction r h s) := by
  unfold raiseAction
  extract_lets p cut abrupt h1 c joins own
  clear_value own joins c h1 abrupt cut p
  cases cut <;> cases abrupt <;>
    simp only [Bool.or_true, Bool.true_or, Bool.or_self, Bool.true_and, Bool.false_and, reduceIte, Bool.false_eq_true]
  all_goals repeat' first
    | with_reducible exact Still.refl _
    | with_reducible refine Still.trans ?_ (plaitSend_still ..)
    | with_reducible refine Still.trans ?_ (fallbackHalts_still ..)
    | with_reducible refine Still.trans ?_ (sendHalts_still ..)
    | with_reducible refine Still.trans ?_ (modPart_still _ (PartSt.addCut _) _ ((partStill_addCut ..)))
    | exact modPart_still _ _ _ (rfl)
    | with_reducible refine Still.trans ?_ (modPart_still _ (PartSt.mapNewest _) _ (partStill_mapNewest ..))
    | split

theorem joinAction_still (p : Nat) (mask : Nat) (h : AtHalt) (s : State) : Still s (joinAction p mask h s) := by
  unfold joinAction
  repeat' first
    | with_reducible exact Still.refl _
    | with_reducible assumption
    | with_reducible refine Still.trans ?_ (modPart_still _ _ _ ?_)
    | with_reducible refine Still.trans ?_ (checkGathering_still ..)
    | with_reducible refine Still.trans ?_ (raiseAction_still ..)
    | with_reducible refine each_still ?_ ?_
    | intro _ _
    | split
    | with_reducible rfl
    | (delta fnStill; with_reducible rfl)
    | (delta sessStill; with_reducible rfl)
    | (delta portStill; with_reducible rfl)
    | (delta partStill; with_reducible rfl)
    | (delta lnkStill; with_reducible rfl)
    | (delta plaitStill; with_reducible rfl)
    | (delta errStill; with_reducible rfl)
    | (delta billStill; with_reducible rfl)
    | (delta osierStill; with_reducible rfl)
    | (delta portStill lnkStill; with_reducible rfl)
    | (with_reducible refine (lnkStill_setTx ..).trans ?_)
    | (with_reducible refine (lnkStill_sent ..).trans ?_)
    | (with_reducible refine (lnkStill_lastVc1 ..).trans ?_)
    | with_reducible exact partStill_nextCut _
    | with_reducible exact partStill_addCut _ _
    | with_reducible exact partStill_mapNewest _ _
    | dsimp only

theorem edgeEffect_still (p : Nat) (mask : Nat) (s : State) : Still s (edgeEffect p mask s) := by
  unfold edgeEffect
  repeat' first
    | with_reducible exact Still.refl _
    | with_reducible assumption
    | with_reducible refine Still.trans ?_ (modPart_still _ _ _ ?_)
    | with_reducible refine Still.trans ?_ (triggerRec_still ..)
    | with_reducible refine Still.trans ?_ (joinAction_still ..)
    | with_reducible refine each_still ?_ ?_
    | intro _ _
    | split
    | with_reducible rfl
    | (delta fnStill; with_reducible rfl)
    | (delta sessStill; with_reducible rfl)
    | (delta portStill; with_reducible rfl)
    | (delta partStill; with_reducible rfl)
    | (delta lnkStill; with_reducible rfl)
    | (delta plaitStill; with_reducible rfl)
    | (delta errStill; with_reducible rfl)
    | (delta billStill; with_reducible rfl)
    | (delta osierStill; with_reducible rfl)
    | (delta portStill lnkStill; with_reducible rfl)
    | (with_reducible refine (lnkStill_setTx ..).trans ?_)
    | (with_reducible refine (lnkStill_sent ..).trans ?_)
    | (with_reducible refine (lnkStill_lastVc1 ..).trans ?_)
    | with_reducible exact partStill_nextCut _
    | with_reducible exact partStill_addCut _ _
    | with_reducible exact partStill_mapNewest _ _
    | dsimp only

theorem edgeOnce_still (host : List HaltReq) (s : State) : Still s (edgeOnce host s) := by
  unfold edgeOnce
  repeat' first
    | with_reducible exact Still.refl _
    | with_reducible assumption
    | with_reducible refine Still.trans ?_ (performHalts_still ..)
    | with_reducible refine Still.trans ?_ (checkGather_still ..)
    | with_reducible refine Still.trans ?_ (edgeEffect_still ..)
    | with_reducible refine each_still ?_ ?_
    | intro _ _
    | split
    | with_reducible refine Still_upd_fires ?_
    | with_reducible rfl
    | (delta fnStill; with_reducible rfl)
    | (delta sessStill; with_reducible rfl)
    | (delta portStill; with_reducible rfl)
    | (delta partStill; with_reducible rfl)
    | (delta lnkStill; with_reducible rfl)
    | (delta plaitStill; with_reducible rfl)
    | (delta errStill; with_reducible rfl)
    | (delta billStill; with_reducible rfl)
    | (delta osierStill; with_reducible rfl)
    | (delta portStill lnkStill; with_reducible rfl)
    | (with_reducible refine (lnkStill_setTx ..).trans ?_)
    | (with_reducible refine (lnkStill_sent ..).trans ?_)
    | (with_reducible refine (lnkStill_lastVc1 ..).trans ?_)
    | with_reducible exact partStill_nextCut _
    | with_reducible exact partStill_addCut _ _
    | with_reducible exact partStill_mapNewest _ _
    | dsimp only

theorem latticeEdge_still (host : List HaltReq) (s : State) : Still s (latticeEdge host s) :=
  Still.traded (fun _ => edgeOnce_still ..) s

theorem settleLoop_still (k : Nat) (s : State) : Still s (settleLoop k s) := by
  induction k generalizing s with
  | zero => exact .refl _
  | succ k ih =>
    unfold settleLoop
    repeat' first
      | with_reducible exact Still.refl _
      | with_reducible assumption
      | with_reducible refine Still.trans ?_ (latticeEdge_still ..)
      | with_reducible refine Still.trans ?_ (ih ..)
      | with_reducible refine each_still ?_ ?_
      | intro _ _
      | split
      | with_reducible rfl
      | (delta fnStill; with_reducible rfl)
      | (delta sessStill; with_reducible rfl)
      | (delta portStill; with_reducible rfl)
      | (delta partStill; with_reducible rfl)
      | (delta lnkStill; with_reducible rfl)
      | (delta plaitStill; with_reducible rfl)
      | (delta errStill; with_reducible rfl)
      | (delta billStill; with_reducible rfl)
      | (delta osierStill; with_reducible rfl)
      | (delta portStill lnkStill; with_reducible rfl)
      | (with_reducible refine (lnkStill_setTx ..).trans ?_)
      | (with_reducible refine (lnkStill_sent ..).trans ?_)
      | (with_reducible refine (lnkStill_lastVc1 ..).trans ?_)
      | with_reducible exact partStill_nextCut _
      | with_reducible exact partStill_addCut _ _
      | with_reducible exact partStill_mapNewest _ _
      | dsimp only

theorem settle_still (s : State) : Still s (settle s) := by
  unfold settle
  repeat' first
    | with_reducible exact Still.refl _
    | with_reducible assumption
    | with_reducible refine Still.trans ?_ (settleLoop_still ..)
    | with_reducible refine each_still ?_ ?_
    | intro _ _
    | split
    | with_reducible refine Still_upd_fires ?_
    | with_reducible rfl
    | (delta fnStill; with_reducible rfl)
    | (delta sessStill; with_reducible rfl)
    | (delta portStill; with_reducible rfl)
    | (delta partStill; with_reducible rfl)
    | (delta lnkStill; with_reducible rfl)
    | (delta plaitStill; with_reducible rfl)
    | (delta errStill; with_reducible rfl)
    | (delta billStill; with_reducible rfl)
    | (delta osierStill; with_reducible rfl)
    | (delta portStill lnkStill; with_reducible rfl)
    | (with_reducible refine (lnkStill_setTx ..).trans ?_)
    | (with_reducible refine (lnkStill_sent ..).trans ?_)
    | (with_reducible refine (lnkStill_lastVc1 ..).trans ?_)
    | with_reducible exact partStill_nextCut _
    | with_reducible exact partStill_addCut _ _
    | with_reducible exact partStill_mapNewest _ _
    | dsimp only

end Sys2Proof.Laws
end

