-- ==== Sys2Proof/Laws/Commands.lean ====
section
/-!
SUPPORT. Accessors after updates, the start of a command, and the entry that its completion writes.
-/

namespace Sys2Proof.Laws
open Sys2Proof Sys2Proof.Machine

theorem settle_of_nil {s : State} (h : s.fires = []) : settle s = s := by
  unfold settle settleLoop
  rw [h]
  show ({ s with fires := [] } : State) = s
  rw [← h]

theorem Runs.of_done {i : Instr} {s u : State} {P : State → Prop} (h : exec i s = done u) (p : P (settle u)) : Runs i s P :=
  ⟨_, h, p⟩
theorem Runs.quiet {i : Instr} {s u : State} {P : State → Prop} (h : exec i s = done u) (q : u.fires = []) (p : P u) :
    Runs i s P := ⟨_, h, by rw [settle_of_nil q]; exact p⟩

theorem fn_modFn (f : Nat) (g : FnSt → FnSt) (s : State) (h : f < 136) : (modFn f g s).fn f = g (s.fn f) := by
  unfold modFn State.fn
  rw [dif_pos h]
  simp [h]
theorem fn_modFn_ne (f k : Nat) (g : FnSt → FnSt) (s : State) (h : k ≠ f) : (modFn f g s).fn k = s.fn k := by
  unfold modFn State.fn
  split
  · split
    · simp [Ne.symm h]
    · rfl
  · rfl
theorem part_modPart (p : Nat) (g : PartSt → PartSt) (s : State) (h : p < 64) : (modPart p g s).part p = g (s.part p) := by
  unfold modPart State.part
  rw [dif_pos h]
  simp [h]
theorem part_modPart_ne (p k : Nat) (g : PartSt → PartSt) (s : State) (h : k ≠ p) : (modPart p g s).part k = s.part k := by
  unfold modPart State.part
  split
  · split
    · simp [Ne.symm h]
    · rfl
  · rfl
theorem port_modPort (n : Nat) (g : PortSt → PortSt) (s : State) (h : n < 8) : (modPort n g s).port n = g (s.port n) := by
  unfold modPort State.port
  rw [dif_pos h]
  simp [h]
theorem port_modPort_ne (n k : Nat) (g : PortSt → PortSt) (s : State) (h : k ≠ n) : (modPort n g s).port k = s.port k := by
  unfold modPort State.port
  split
  · split
    · simp [Ne.symm h]
    · rfl
  · rfl
theorem ses_modSess (n : Nat) (g : SessSt → SessSt) (s : State) (h : n < 64) : (modSess n g s).ses n = g (s.ses n) := by
  unfold modSess State.ses
  rw [dif_pos h]
  simp [h]
theorem host_modHost (n : Nat) (g : HostSt → HostSt) (s : State) (h : n < 4) : (modHost n g s).host n = g (s.host n) := by
  unfold modHost State.host
  rw [dif_pos h]
  simp [h]
theorem lnk_modLnk (l : Nat) (g : Lnk → Lnk) (s : State) (h : l < 9) : (modLnk l g s).lnk l = g (s.lnk l) := by
  unfold modLnk
  split
  · rename_i e; subst e; rfl
  · rename_i e
    have : l < 8 := by omega
    unfold State.lnk
    rw [if_neg e, if_neg e, port_modPort _ _ _ this]

theorem cmd_lt {s : State} {f : Nat} {tag : W32} {c : Cmd} (h : s.cmd f tag = some c) : f < 136 := by
  by_cases k : f < 136
  · exact k
  · exfalso
    unfold State.cmd State.fn at h
    rw [dif_neg k] at h
    have e : (FnSt.init 2).inflight = [] := rfl
    rw [e] at h
    cases h
theorem cmd_tag {s : State} {f : Nat} {tag : W32} {c : Cmd} (h : s.cmd f tag = some c) : c.tag = tag := by
  have := List.find?_some h
  simp at this
  exact this.1

/-- What `deliverCpl` does: the entry is written, or held in D3hot. -/
theorem deliverCpl_entry (f : Nat) (c : Cpl) (q : Bool) (s : State) (hf : f < 136) :
    if (s.fn f).d3hot then ((deliverCpl f c q s).fn f).held = (s.fn f).held ++ [(c, q)]
    else s.out ++ [Out.hostWrite (fnPort f) (BitVec.ofNat 64 ((s.fn f).cplBase.toNat + 32 * (s.fn f).cplTail.toNat))
      (cplBytes c (s.fn f).phase)] <+: (deliverCpl f c q s).out := by
  unfold deliverCpl
  split
  · rename_i h
    rw [fn_modFn _ _ _ hf]
  · rename_i h
    unfold writeCpl
    refine List.IsPrefix.trans ?_ (coalesce_grows ..).out
    refine List.IsPrefix.trans ?_ (modFn_grows _ _ _ (Keeps1.mk List.prefix_rfl (fun _ h => h))).out
    exact List.prefix_rfl

/-- What ending a command of a function does: none is discarded. -/
theorem completeOne_answers {s : State} {f : Nat} {tag : W32} {c : Cmd} (r : Res) (hd : f < 68) (h : s.cmd f tag = some c) :
    Answers s (completeOne f tag r s) f c r := by
  have hk : discards f = false := by simp [discards, hd]
  have hf := cmd_lt h
  have ht := cmd_tag h
  let u := modFn f (fun x => { x with inflight := (s.fn f).inflight.filter fun x => x.tag != tag,
                                      window := pushWindow x.window (mkCpl c r s.now) }) s
  let v := deliverCpl f (mkCpl c r s.now) c.irqNow u
  have hu : u.fn f = { s.fn f with inflight := (s.fn f).inflight.filter fun x => x.tag != tag,
                                   window := pushWindow (s.fn f).window (mkCpl c r s.now) } := fn_modFn _ _ _ hf
  have hv : Grows v (completeOne f tag r s) := by
    unfold completeOne
    rw [h]
    dsimp only
    rw [hk]
    exact each_grows (.refl _) fun _ _ => deliverCpl_grows ..
  have hd := deliverCpl_entry f (mkCpl c r s.now) c.irqNow u hf
  rw [hu] at hd
  have ho : u.out = s.out := by
    show (modFn f _ s).out = s.out
    unfold modFn
    split <;> rfl
  constructor
  · split
    · rename_i hh
      rw [if_pos hh] at hd
      obtain ⟨l, hl⟩ := (hv.fns f).held
      refine ⟨[(mkCpl c r s.now, c.irqNow)] ++ l, ?_, by simp⟩
      rw [← hl, ← List.append_assoc]
      exact congrArg (· ++ l) hd
    · rename_i hh
      rw [if_neg hh, ho] at hd
      obtain ⟨l, hl⟩ := hd.trans hv.out
      exact ⟨_, hl.symm.trans (List.append_assoc ..), by simp⟩
  · refine ((Grows.fns (.trans (deliverCpl_grows ..) hv) f).gone c.tag ?_)
    show (u.fn f).inflight.find? _ = none
    rw [hu, ht, List.find?_eq_none]
    intro x hx
    have := (List.mem_filter.mp hx).2
    simp at this
    simp [this]

theorem answers_grow {s t u : State} {f : Nat} {c : Cmd} {r : Res} (h : Answers s t f c r) (g : Grows t u) :
    Answers s u f c r := by
  refine ⟨?_, (g.fns f).gone _ h.gone⟩
  have := h.entry
  split
  · rename_i e
    rw [if_pos e] at this
    obtain ⟨l, h1, h2⟩ := this
    obtain ⟨l', h3⟩ := (g.fns f).held
    exact ⟨l ++ l', by rw [← h3, h1, List.append_assoc], List.mem_append_left _ h2⟩
  · rename_i e
    rw [if_neg e] at this
    obtain ⟨l, h1, h2⟩ := this
    obtain ⟨l', h3⟩ := g.out
    exact ⟨l ++ l', by rw [← h3, h1, List.append_assoc], List.mem_append_left _ h2⟩

theorem complete_answers {s : State} {f : Nat} {tag : W32} {c : Cmd} (r : Res) (hf : f < 68) (h : s.cmd f tag = some c) :
    Answers s (complete f tag r s) f c r := completeOne_answers r hf h

/-- What a completion reads of its function's rings. -/
structure Ring (x y : FnSt) : Prop where
  base : y.cplBase = x.cplBase
  tail : y.cplTail = x.cplTail
  phase : y.phase = x.phase
  d3 : y.d3hot = x.d3hot
  held : y.held = x.held

/-- A command's answer counted from an earlier state, in which the rings are the same. -/
theorem answers_of_eq {s u t : State} {f : Nat} {c c' : Cmd} {r : Res} (h : Answers u t f c' r) (ho : s.out <+: u.out)
    (hn : u.now = s.now) (hr : Ring (s.fn f) (u.fn f)) (hc : c'.desc = c.desc) (ht : c'.tag = c.tag) : Answers s t f c r := by
  have hm : ∀ x, mkCpl c' r x = mkCpl c r x := fun x => by
    unfold mkCpl Cmd.op Cmd.f; rw [hc, ht]
  have hi : c'.irqNow = c.irqNow := by unfold Cmd.irqNow Cmd.f; rw [hc]
  refine ⟨?_, ht ▸ h.gone⟩
  have := h.entry
  rw [hr.d3, hr.base, hr.tail, hr.phase, hr.held, hn, hm, hi] at this
  split
  · rename_i e; rw [if_pos e] at this; exact this
  · rename_i e
    rw [if_neg e] at this
    obtain ⟨l, h1, h2⟩ := this
    obtain ⟨l', h3⟩ := ho
    exact ⟨l' ++ l, by rw [h1, ← h3, List.append_assoc], List.mem_append_right _ h2⟩

theorem startCmd_eq {s : State} {f op : Nat} {tag : W32} {c : Cmd} (k : Cmd → State → State) (h : Waits s f tag op c) :
    startCmd op f tag k s = k { c with started := true } (started f tag s) := by
  unfold startCmd
  rw [h.here]
  dsimp only
  have : (c.op == op && s.mayStart f c) = true := by rw [h.op, h.turn]; simp
  rw [if_pos this]
  rfl

theorem modFn_frame (f : Nat) (g : FnSt → FnSt) (s : State) : ∃ v, modFn f g s = { s with fns := v } := by
  unfold modFn
  split
  · exact ⟨_, rfl⟩
  · exact ⟨s.fns, rfl⟩
theorem started_frame (f : Nat) (tag : W32) (s : State) : ∃ v, started f tag s = { s with fns := v } := by
  unfold started modCmd
  exact modFn_frame _ _ _
theorem find_map_tag (l : List Cmd) (tag : W32) (g : Cmd → Cmd) (hg : ∀ c, (g c).tag = c.tag ∧ (g c).heldDup = c.heldDup) :
    (l.map fun c => if c.tag == tag && !c.heldDup then g c else c).find? (fun c => c.tag == tag && !c.heldDup) =
      (l.find? fun c => c.tag == tag && !c.heldDup).map g := by
  induction l with
  | nil => rfl
  | cons a l ih =>
    rw [List.map_cons, List.find?_cons, List.find?_cons]
    by_cases h : (a.tag == tag && !a.heldDup) = true
    · rw [if_pos h, (hg a).1, (hg a).2, h]; rfl
    · rw [if_neg h]
      simp only [Bool.not_eq_true] at h
      rw [h]
      exact ih
theorem cmd_modCmd {s : State} {f : Nat} {tag : W32} {c : Cmd} (g : Cmd → Cmd)
    (hg : ∀ c, (g c).tag = c.tag ∧ (g c).heldDup = c.heldDup) (h : s.cmd f tag = some c) :
    (modCmd f tag g s).cmd f tag = some (g c) := by
  have hf := cmd_lt h
  unfold State.cmd at *
  unfold modCmd
  rw [fn_modFn _ _ _ hf]
  exact (find_map_tag _ _ _ hg).trans (by rw [h]; rfl)
theorem cmd_started {s : State} {f : Nat} {tag : W32} {c : Cmd} (h : s.cmd f tag = some c) :
    (started f tag s).cmd f tag = some { c with started := true, work := { c.work with startedAt := s.t } } :=
  cmd_modCmd _ (fun _ => ⟨rfl, rfl⟩) h
theorem ring_started {s : State} {f : Nat} {tag : W32} (hf : f < 136) : Ring (s.fn f) ((started f tag s).fn f) := by
  unfold started modCmd
  rw [fn_modFn _ _ _ hf]
  exact ⟨rfl, rfl, rfl, rfl, rfl⟩

/-- A command whose meaning ends it at once answers with its result. -/
theorem answers_started {s : State} {f : Nat} {tag : W32} {c : Cmd} (r : Res) (hf : f < 68) (h : s.cmd f tag = some c) :
    Answers s (complete f tag r (started f tag s)) f c r := by
  obtain ⟨v, hv⟩ := started_frame f tag s
  exact answers_of_eq (complete_answers r hf (cmd_started h)) (by rw [hv]) (by rw [hv])
    (ring_started (by omega)) rfl rfl

end Sys2Proof.Laws
end

