-- ==== Sys2Proof/Laws/Rings.lean ====
section
/-!
SUPPORT. Operations that leave the completion rings and the commands in flight as they were.
-/

namespace Sys2Proof.Laws
open Sys2Proof Sys2Proof.Machine
set_option linter.unusedTactic false
set_option linter.unreachableTactic false

/-- What completions read of a function, and its commands. -/
structure RingView where
  base : W64
  tail : BitVec 12
  phase : Bool
  d3hot : Bool
  held : List (Cpl × Bool)
  inflight : List Cmd
def ringView (x : FnSt) : RingView := ⟨x.cplBase, x.cplTail, x.phase, x.d3hot, x.held, x.inflight⟩
/-- The rings and the commands in flight of every function are the same. -/
structure Rings (s t : State) : Prop where
  view : t.fns.map ringView = s.fns.map ringView
theorem Rings.refl (s : State) : Rings s s := ⟨rfl⟩
theorem Rings.trans {s t u : State} (h : Rings s t) (k : Rings t u) : Rings s u := ⟨k.view.trans h.view⟩
theorem Rings.of_only {l : List Fld} {s t : State} (h : Only l s t) (k : (!l.contains .fns) = true) : Rings s t := by
  have e : t.fns = s.fns := h.same .fns (by simpa using k)
  exact ⟨by rw [e]⟩
theorem each_rings {α : Type} {l : List α} {g : α → State → State} {s0 s : State} (h : Rings s0 s) (k : ∀ a t, Rings t (g a t)) :
    Rings s0 (each l g s) := by
  refine h.trans ?_
  clear h
  unfold each
  induction l generalizing s with
  | nil => exact .refl _
  | cons a l ih => exact (k a s).trans ih
theorem modFn_rings (f : Nat) (g : FnSt → FnSt) (s : State) (h : ringView (g (s.fn f)) = ringView (s.fn f)) :
    Rings s (modFn f g s) := by
  unfold modFn
  split
  · rename_i hi
    unfold State.fn at h
    rw [dif_pos hi] at h
    exact ⟨map_set _ _ hi _ _ h⟩
  · exact .refl _

theorem Rings_upd_tapLatches {s x : State} {v_tapLatches} (h : Rings s x) :
    Rings s (State.mk x.pending x.now x.id x.pins x.clk x.straps x.boot x.lcy x.tap v_tapLatches x.weave x.hosts x.fns x.sess x.billing x.ports x.units x.parts x.xtrigOut x.slath x.hang x.wale x.always x.osier x.plait x.err x.mem x.out x.fires x.free) :=
  ⟨h.view⟩

theorem Rings_upd_weave {s x : State} {v_weave} (h : Rings s x) :
    Rings s (State.mk x.pending x.now x.id x.pins x.clk x.straps x.boot x.lcy x.tap x.tapLatches v_weave x.hosts x.fns x.sess x.billing x.ports x.units x.parts x.xtrigOut x.slath x.hang x.wale x.always x.osier x.plait x.err x.mem x.out x.fires x.free) :=
  ⟨h.view⟩

theorem Rings_upd_hang {s x : State} {v_hang} (h : Rings s x) :
    Rings s (State.mk x.pending x.now x.id x.pins x.clk x.straps x.boot x.lcy x.tap x.tapLatches x.weave x.hosts x.fns x.sess x.billing x.ports x.units x.parts x.xtrigOut x.slath v_hang x.wale x.always x.osier x.plait x.err x.mem x.out x.fires x.free) :=
  ⟨h.view⟩

theorem Rings_upd_wale {s x : State} {v_wale} (h : Rings s x) :
    Rings s (State.mk x.pending x.now x.id x.pins x.clk x.straps x.boot x.lcy x.tap x.tapLatches x.weave x.hosts x.fns x.sess x.billing x.ports x.units x.parts x.xtrigOut x.slath x.hang v_wale x.always x.osier x.plait x.err x.mem x.out x.fires x.free) :=
  ⟨h.view⟩

theorem Rings_upd_osier {s x : State} {v_osier} (h : Rings s x) :
    Rings s (State.mk x.pending x.now x.id x.pins x.clk x.straps x.boot x.lcy x.tap x.tapLatches x.weave x.hosts x.fns x.sess x.billing x.ports x.units x.parts x.xtrigOut x.slath x.hang x.wale x.always v_osier x.plait x.err x.mem x.out x.fires x.free) :=
  ⟨h.view⟩

theorem Rings_upd_plait {s x : State} {v_plait} (h : Rings s x) :
    Rings s (State.mk x.pending x.now x.id x.pins x.clk x.straps x.boot x.lcy x.tap x.tapLatches x.weave x.hosts x.fns x.sess x.billing x.ports x.units x.parts x.xtrigOut x.slath x.hang x.wale x.always x.osier v_plait x.err x.mem x.out x.fires x.free) :=
  ⟨h.view⟩

theorem Rings_upd_err {s x : State} {v_err} (h : Rings s x) :
    Rings s (State.mk x.pending x.now x.id x.pins x.clk x.straps x.boot x.lcy x.tap x.tapLatches x.weave x.hosts x.fns x.sess x.billing x.ports x.units x.parts x.xtrigOut x.slath x.hang x.wale x.always x.osier x.plait v_err x.mem x.out x.fires x.free) :=
  ⟨h.view⟩

theorem signal_rings (f : Nat) (v : Nat) (s : State) : Rings s (signal f v s) := by
  unfold signal
  repeat' first
    | with_reducible exact Rings.refl _
    | with_reducible assumption
    | with_reducible refine Rings.trans ?_ (modFn_rings _ _ _ ?_)
    | with_reducible refine Rings.trans ?_ (.of_only (emit_only ..) (by decide))
    | with_reducible refine Rings.trans ?_ (.of_only (bumpAlways_only ..) (by decide))
    | with_reducible refine each_rings ?_ ?_
    | with_reducible rfl
    | (delta ringView; with_reducible rfl)
    | intro _ _
    | split
    | dsimp only

theorem signalPfs_rings (v : Nat) (s : State) : Rings s (signalPfs v s) := by
  unfold signalPfs
  repeat' first
    | with_reducible exact Rings.refl _
    | with_reducible assumption
    | with_reducible refine Rings.trans ?_ (signal_rings ..)
    | with_reducible refine each_rings ?_ ?_
    | with_reducible rfl
    | (delta ringView; with_reducible rfl)
    | intro _ _
    | split
    | dsimp only

theorem setEvent_rings (f : Nat) (bit : Nat) (s : State) : Rings s (setEvent f bit s) := by
  unfold setEvent
  repeat' first
    | with_reducible exact Rings.refl _
    | with_reducible assumption
    | with_reducible refine Rings.trans ?_ (modFn_rings _ _ _ ?_)
    | with_reducible refine Rings.trans ?_ (signal_rings ..)
    | with_reducible refine each_rings ?_ ?_
    | with_reducible rfl
    | (delta ringView; with_reducible rfl)
    | intro _ _
    | split
    | dsimp only

theorem errBit_rings (cls : Nat) (s : State) : Rings s (errBit cls s) := by
  unfold errBit
  repeat' first
    | with_reducible exact Rings.refl _
    | with_reducible assumption
    | with_reducible refine Rings.trans ?_ (signalPfs_rings ..)
    | with_reducible refine each_rings ?_ ?_
    | with_reducible rfl
    | (delta ringView; with_reducible rfl)
    | intro _ _
    | split
    | with_reducible refine Rings_upd_err ?_
    | dsimp only

theorem raiseErr_rings (cls : Nat) (scope : Nat) (inst : Nat) (addr : Nat) (detail : Nat) (action : Nat) (s : State) : Rings s (raiseErr cls scope inst addr detail action s) := by
  unfold raiseErr
  repeat' first
    | with_reducible exact Rings.refl _
    | with_reducible assumption
    | with_reducible refine Rings.trans ?_ (errBit_rings ..)
    | with_reducible refine Rings.trans ?_ (.of_only (errLog_only ..) (by decide))
    | with_reducible refine each_rings ?_ ?_
    | with_reducible rfl
    | (delta ringView; with_reducible rfl)
    | intro _ _
    | split
    | dsimp only

theorem correctedWord_rings (dram : Bool) (s : State) : Rings s (correctedWord dram s) := by
  unfold correctedWord
  repeat' first
    | with_reducible exact Rings.refl _
    | with_reducible assumption
    | with_reducible refine Rings.trans ?_ (.of_only (bumpAlways_only ..) (by decide))
    | with_reducible refine Rings.trans ?_ (errBit_rings ..)
    | with_reducible refine each_rings ?_ ?_
    | with_reducible rfl
    | (delta ringView; with_reducible rfl)
    | intro _ _
    | split
    | dsimp only

theorem uncorrectableWord_rings (dram : Bool) (scope : Nat) (inst : Nat) (addr : Nat) (detail : Nat) (action : Nat) (s : State) : Rings s (uncorrectableWord dram scope inst addr detail action s) := by
  unfold uncorrectableWord
  repeat' first
    | with_reducible exact Rings.refl _
    | with_reducible assumption
    | with_reducible refine Rings.trans ?_ (.of_only (bumpAlways_only ..) (by decide))
    | with_reducible refine Rings.trans ?_ (raiseErr_rings ..)
    | with_reducible refine each_rings ?_ ?_
    | with_reducible rfl
    | (delta ringView; with_reducible rfl)
    | intro _ _
    | split
    | dsimp only

theorem uncorrectableItem_rings (dram : Bool) (scope : Nat) (inst : Nat) (detail : Nat) (action : Nat) (s : State) : Rings s (uncorrectableItem dram scope inst detail action s) := by
  unfold uncorrectableItem
  repeat' first
    | with_reducible exact Rings.refl _
    | with_reducible assumption
    | with_reducible refine Rings.trans ?_ (.of_only (nextFree_only ..) (by decide))
    | with_reducible refine Rings.trans ?_ (uncorrectableWord_rings ..)
    | with_reducible refine each_rings ?_ ?_
    | with_reducible rfl
    | (delta ringView; with_reducible rfl)
    | intro _ _
    | split
    | dsimp only

theorem coalesce_rings (f : Nat) (irqNow : Bool) (s : State) : Rings s (coalesce f irqNow s) := by
  unfold coalesce
  repeat' first
    | with_reducible exact Rings.refl _
    | with_reducible assumption
    | with_reducible refine Rings.trans ?_ (modFn_rings _ _ _ ?_)
    | with_reducible refine Rings.trans ?_ (signal_rings ..)
    | with_reducible refine each_rings ?_ ?_
    | with_reducible rfl
    | (delta ringView; with_reducible rfl)
    | intro _ _
    | split
    | dsimp only

theorem spendCreel_rings (s : State) : Rings s (spendCreel s) := by
  unfold spendCreel
  repeat' first
    | with_reducible exact Rings.refl _
    | with_reducible assumption
    | with_reducible refine Rings.trans ?_ (.of_only (nextFree_only ..) (by decide))
    | with_reducible refine Rings.trans ?_ (correctedWord_rings ..)
    | with_reducible refine Rings.trans ?_ (.of_only (spendInjection_only ..) (by decide))
    | with_reducible refine each_rings ?_ ?_
    | with_reducible rfl
    | (delta ringView; with_reducible rfl)
    | intro _ _
    | split
    | dsimp only

theorem storePort_rings {r : TraceRec} {s t : State} (h : storePort r s = some t) : Rings s t := by
  unfold storePort at h
  dsimp only at h
  repeat' split at h
  · cases h
    refine Rings.trans ?_ (spendCreel_rings ..)
    exact Rings.trans (.of_only (modPart_only ..) (by decide)) (.of_only (modPart_only ..) (by decide))
  · exact Rings.trans (.of_only (modPart_only ..) (by decide)) (.of_only (intoSpill_only h) (by decide))
  · cases h

theorem deliverInput_rings (r : TraceRec) (s : State) : Rings s (deliverInput r s) := by
  unfold deliverInput
  extract_lets takes first runs
  clear_value runs first takes
  refine Rings.trans ?_ (.of_only (setRuns_only ..) (by decide))
  split
  · exact spendCreel_rings ..
  · exact .refl _

theorem shedTier_rings (p : Nat) (s : State) : Rings s (shedTier p s) := by
  unfold shedTier
  repeat' first
    | with_reducible exact Rings.refl _
    | with_reducible assumption
    | with_reducible refine Rings.trans ?_ (.of_only (modPart_only ..) (by decide))
    | with_reducible refine Rings.trans ?_ (uncorrectableItem_rings ..)
    | with_reducible refine Rings.trans ?_ (.of_only (dropPort_only ..) (by decide))
    | with_reducible refine each_rings ?_ ?_
    | with_reducible rfl
    | (delta ringView; with_reducible rfl)
    | intro _ _
    | split
    | dsimp only

theorem postExchange_rings (p : Nat) (s : State) : Rings s (postExchange p s) := by
  unfold postExchange
  repeat' first
    | with_reducible exact Rings.refl _
    | with_reducible assumption
    | with_reducible refine Rings.trans ?_ (.of_only (modPart_only ..) (by decide))
    | with_reducible refine Rings.trans ?_ (spendCreel_rings ..)
    | with_reducible refine Rings.trans ?_ (.of_only (modRun_only ..) (by decide))
    | with_reducible refine each_rings ?_ ?_
    | with_reducible rfl
    | (delta ringView; with_reducible rfl)
    | intro _ _
    | split
    | dsimp only

theorem pumpPort_rings (p : Nat) (s0 : State) : Rings s0 (pumpPort p s0) := by
  unfold pumpPort
  repeat' first
    | with_reducible exact Rings.refl _
    | with_reducible assumption
    | with_reducible refine Rings.trans ?_ (.of_only (modPart_only ..) (by decide))
    | with_reducible refine Rings.trans ?_ (.of_only (modMeters_only ..) (by decide))
    | with_reducible refine Rings.trans ?_ (shedTier_rings ..)
    | with_reducible refine Rings.trans ?_ (postExchange_rings ..)
    | with_reducible refine each_rings ?_ ?_
    | with_reducible rfl
    | (delta ringView; with_reducible rfl)
    | intro _ _
    | split
    | dsimp only

theorem portArrive_rings (r : TraceRec) (s : State) : Rings s (portArrive r s) := by
  unfold portArrive
  repeat' first
    | with_reducible exact Rings.refl _
    | with_reducible assumption
    | with_reducible refine Rings.trans ?_ (.of_only (dropPort_only ..) (by decide))
    | with_reducible refine Rings.trans ?_ (pumpPort_rings ..)
    | with_reducible refine each_rings ?_ ?_
    | with_reducible rfl
    | (delta ringView; with_reducible rfl)
    | intro _ _
    | split
    | with_reducible refine Rings.trans ?_ (storePort_rings (by assumption))
    | dsimp only

theorem shedQueue_rings (p : Nat) (s : State) : Rings s (shedQueue p s) := by
  unfold shedQueue
  repeat' first
    | with_reducible exact Rings.refl _
    | with_reducible assumption
    | with_reducible refine Rings.trans ?_ (.of_only (modPart_only ..) (by decide))
    | with_reducible refine Rings.trans ?_ (uncorrectableItem_rings ..)
    | with_reducible refine Rings.trans ?_ (.of_only (dropDram_only ..) (by decide))
    | with_reducible refine each_rings ?_ ?_
    | with_reducible rfl
    | (delta ringView; with_reducible rfl)
    | intro _ _
    | split
    | dsimp only

theorem dramArrive_rings (r : TraceRec) (s0 : State) : Rings s0 (dramArrive r s0) := by
  unfold dramArrive
  repeat' first
    | with_reducible exact Rings.refl _
    | with_reducible assumption
    | with_reducible refine Rings.trans ?_ (uncorrectableItem_rings ..)
    | with_reducible refine Rings.trans ?_ (spendCreel_rings ..)
    | with_reducible refine Rings.trans ?_ (.of_only (dropDram_only ..) (by decide))
    | with_reducible refine Rings.trans ?_ (shedQueue_rings ..)
    | with_reducible refine each_rings ?_ ?_
    | with_reducible rfl
    | (delta ringView; with_reducible rfl)
    | intro _ _
    | split
    | with_reducible refine Rings.trans ?_ (.of_only (storeDram_only (by assumption)) (by decide))
    | dsimp only

theorem dramOnly_rings (r : TraceRec) (s : State) : Rings s (dramOnly r s) := by
  unfold dramOnly
  repeat' first
    | with_reducible exact Rings.refl _
    | with_reducible assumption
    | with_reducible refine Rings.trans ?_ (.of_only (modMeters_only ..) (by decide))
    | with_reducible refine Rings.trans ?_ (.of_only (hubEvent_only ..) (by decide))
    | with_reducible refine Rings.trans ?_ (dramArrive_rings ..)
    | with_reducible refine each_rings ?_ ?_
    | with_reducible rfl
    | (delta ringView; with_reducible rfl)
    | intro _ _
    | split
    | dsimp only

theorem placeRec_rings (dest : Nat) (r0 : TraceRec) (s : State) : Rings s (placeRec dest r0 s) := by
  unfold placeRec
  repeat' first
    | with_reducible exact Rings.refl _
    | with_reducible assumption
    | with_reducible refine Rings.trans ?_ (.of_only (hubEvent_only ..) (by decide))
    | with_reducible refine Rings.trans ?_ (portArrive_rings ..)
    | with_reducible refine Rings.trans ?_ (dramArrive_rings ..)
    | with_reducible refine Rings.trans ?_ (dramOnly_rings ..)
    | with_reducible refine Rings.trans ?_ (.of_only (holdDram_only ..) (by decide))
    | with_reducible refine each_rings ?_ ?_
    | with_reducible rfl
    | (delta ringView; with_reducible rfl)
    | intro _ _
    | split
    | dsimp only

theorem traceWrite_rings (r : TraceRec) (s : State) : Rings s (traceWrite r s) := by
  unfold traceWrite
  repeat' first
    | with_reducible exact Rings.refl _
    | with_reducible assumption
    | with_reducible refine Rings.trans ?_ (deliverInput_rings ..)
    | with_reducible refine Rings.trans ?_ (placeRec_rings ..)
    | with_reducible refine each_rings ?_ ?_
    | with_reducible rfl
    | (delta ringView; with_reducible rfl)
    | intro _ _
    | split
    | dsimp only

theorem writeRec_rings (cls : Nat) (p : Nat) (payload : List Byte) (s : State) : Rings s (writeRec cls p payload s) := by
  unfold writeRec
  repeat' first
    | with_reducible exact Rings.refl _
    | with_reducible assumption
    | with_reducible refine Rings.trans ?_ (traceWrite_rings ..)
    | with_reducible refine each_rings ?_ ?_
    | with_reducible rfl
    | (delta ringView; with_reducible rfl)
    | intro _ _
    | split
    | dsimp only

theorem lossToPort_rings (p : Nat) (count : Nat) (mk : Nat → State → TraceRec) (s : State) : Rings s (lossToPort p count mk s) := by
  unfold lossToPort
  repeat' first
    | with_reducible exact Rings.refl _
    | with_reducible assumption
    | with_reducible refine Rings.trans ?_ (.of_only (modPart_only ..) (by decide))
    | with_reducible refine Rings.trans ?_ (pumpPort_rings ..)
    | with_reducible refine Rings.trans ?_ (.of_only (lossPlaced_only ..) (by decide))
    | with_reducible refine each_rings ?_ ?_
    | with_reducible rfl
    | (delta ringView; with_reducible rfl)
    | intro _ _
    | split
    | with_reducible refine Rings.trans ?_ (storePort_rings (by assumption))
    | dsimp only

theorem dramLossToPort_rings (p : Nat) (count : Nat) (mk : Nat → State → TraceRec) (s : State) : Rings s (dramLossToPort p count mk s) := by
  unfold dramLossToPort
  repeat' first
    | with_reducible exact Rings.refl _
    | with_reducible assumption
    | with_reducible refine Rings.trans ?_ (.of_only (modPart_only ..) (by decide))
    | with_reducible refine Rings.trans ?_ (pumpPort_rings ..)
    | with_reducible refine Rings.trans ?_ (.of_only (lossPlaced_only ..) (by decide))
    | with_reducible refine each_rings ?_ ?_
    | with_reducible rfl
    | (delta ringView; with_reducible rfl)
    | intro _ _
    | split
    | with_reducible refine Rings.trans ?_ (storePort_rings (by assumption))
    | dsimp only

theorem lossBoth_rings (p : Nat) (dest : Nat) (count : Nat) (cause : Nat) (port : Nat) (first : W64) (last : W64) (unit : Nat) (s : State) : Rings s (lossBoth p dest count cause port first last unit s) := by
  unfold lossBoth
  repeat' first
    | with_reducible exact Rings.refl _
    | with_reducible assumption
    | with_reducible refine Rings.trans ?_ (.of_only (bumpAlways_only ..) (by decide))
    | with_reducible refine Rings.trans ?_ (lossToPort_rings ..)
    | with_reducible refine Rings.trans ?_ (.of_only (lossToDram_only ..) (by decide))
    | with_reducible refine each_rings ?_ ?_
    | with_reducible rfl
    | (delta ringView; with_reducible rfl)
    | intro _ _
    | split
    | dsimp only

theorem flushDram_rings (l : List (TraceRec × Bool)) (s : State) : Rings s (flushDram l s) := by
  unfold flushDram
  repeat' first
    | with_reducible exact Rings.refl _
    | with_reducible assumption
    | with_reducible refine Rings.trans ?_ (dramArrive_rings ..)
    | with_reducible refine Rings.trans ?_ (dramOnly_rings ..)
    | with_reducible refine Rings.trans ?_ (.of_only (markLost_only ..) (by decide))
    | with_reducible refine each_rings ?_ ?_
    | with_reducible rfl
    | (delta ringView; with_reducible rfl)
    | intro _ _
    | split
    | dsimp only

theorem sendTrace_rings (p : Nat) (s : State) : Rings s (sendTrace p s) := by
  unfold sendTrace
  repeat' first
    | with_reducible exact Rings.refl _
    | with_reducible assumption
    | with_reducible refine Rings.trans ?_ (.of_only (modPart_only ..) (by decide))
    | with_reducible refine Rings.trans ?_ (pumpPort_rings ..)
    | with_reducible refine Rings.trans ?_ (.of_only (sendEther_only ..) (by decide))
    | with_reducible refine each_rings ?_ ?_
    | with_reducible rfl
    | (delta ringView; with_reducible rfl)
    | intro _ _
    | split
    | dsimp only

theorem programRec_rings (q : Run) (event : Nat) (data : List Byte) (s : State) : Rings s (programRec q event data s) := by
  unfold programRec
  repeat' first
    | with_reducible exact Rings.refl _
    | with_reducible assumption
    | with_reducible refine Rings.trans ?_ (writeRec_rings ..)
    | with_reducible refine each_rings ?_ ?_
    | with_reducible rfl
    | (delta ringView; with_reducible rfl)
    | intro _ _
    | split
    | dsimp only

theorem putSwitch_rings (p : Nat) (payload : List Byte) (ofSwitch : Option Bool) (s : State) : Rings s (putSwitch p payload ofSwitch s) := by
  unfold putSwitch
  repeat' first
    | with_reducible exact Rings.refl _
    | with_reducible assumption
    | with_reducible refine Rings.trans ?_ (.of_only (modPart_only ..) (by decide))
    | with_reducible refine Rings.trans ?_ (.of_only (modMeters_only ..) (by decide))
    | with_reducible refine Rings.trans ?_ (.of_only (hubEvent_only ..) (by decide))
    | with_reducible refine Rings.trans ?_ (deliverInput_rings ..)
    | with_reducible refine Rings.trans ?_ (dramArrive_rings ..)
    | with_reducible refine Rings.trans ?_ (.of_only (holdDram_only ..) (by decide))
    | with_reducible refine each_rings ?_ ?_
    | with_reducible rfl
    | (delta ringView; with_reducible rfl)
    | intro _ _
    | split
    | dsimp only

theorem resetCoder_rings (p : Nat) (reason : Nat) (newEnc : Bool) (newIndex : Nat) (ofSwitch : Option Bool) (s : State) : Rings s (resetCoder p reason newEnc newIndex ofSwitch s) := by
  unfold resetCoder
  repeat' first
    | with_reducible exact Rings.refl _
    | with_reducible assumption
    | with_reducible refine Rings.trans ?_ (.of_only (modPart_only ..) (by decide))
    | with_reducible refine Rings.trans ?_ (.of_only (restartRun_only ..) (by decide))
    | with_reducible refine Rings.trans ?_ (.of_only (closeCoded_only ..) (by decide))
    | with_reducible refine Rings.trans ?_ (.of_only (endSpan_only ..) (by decide))
    | with_reducible refine Rings.trans ?_ (putSwitch_rings ..)
    | with_reducible refine each_rings ?_ ?_
    | with_reducible rfl
    | (delta ringView; with_reducible rfl)
    | intro _ _
    | split
    | dsimp only

theorem resetPoint_rings (p : Nat) (reason : Nat) (newEnc : Bool) (newIndex : Nat) (s : State) : Rings s (resetPoint p reason newEnc newIndex s) := by
  unfold resetPoint
  repeat' first
    | with_reducible exact Rings.refl _
    | with_reducible assumption
    | with_reducible refine Rings.trans ?_ (pumpPort_rings ..)
    | with_reducible refine Rings.trans ?_ (resetCoder_rings ..)
    | with_reducible refine each_rings ?_ ?_
    | with_reducible rfl
    | (delta ringView; with_reducible rfl)
    | intro _ _
    | split
    | dsimp only

theorem syncCoder_rings (p : Nat) (reason : Nat) (s : State) : Rings s (syncCoder p reason s) := by
  unfold syncCoder
  repeat' first
    | with_reducible exact Rings.refl _
    | with_reducible assumption
    | with_reducible refine Rings.trans ?_ (resetPoint_rings ..)
    | with_reducible refine each_rings ?_ ?_
    | with_reducible rfl
    | (delta ringView; with_reducible rfl)
    | intro _ _
    | split
    | dsimp only

theorem forceReset_rings (p : Nat) (reason : Nat) (s : State) : Rings s (forceReset p reason s) := by
  unfold forceReset
  repeat' first
    | with_reducible exact Rings.refl _
    | with_reducible assumption
    | with_reducible refine Rings.trans ?_ (resetPoint_rings ..)
    | with_reducible refine each_rings ?_ ?_
    | with_reducible rfl
    | (delta ringView; with_reducible rfl)
    | intro _ _
    | split
    | dsimp only

theorem cutRec_rings (event : Nat) (c : Cut) (s : State) : Rings s (cutRec event c s) := by
  unfold cutRec
  repeat' first
    | with_reducible exact Rings.refl _
    | with_reducible assumption
    | with_reducible refine Rings.trans ?_ (writeRec_rings ..)
    | with_reducible refine each_rings ?_ ?_
    | with_reducible rfl
    | (delta ringView; with_reducible rfl)
    | intro _ _
    | split
    | dsimp only

theorem hangRec_rings (p : Nat) (event : Nat) (r : HangReport) (s : State) : Rings s (hangRec p event r s) := by
  unfold hangRec
  repeat' first
    | with_reducible exact Rings.refl _
    | with_reducible assumption
    | with_reducible refine Rings.trans ?_ (writeRec_rings ..)
    | with_reducible refine each_rings ?_ ?_
    | with_reducible rfl
    | (delta ringView; with_reducible rfl)
    | intro _ _
    | split
    | dsimp only

theorem endBinding_rings (p : Nat) (event : Nat) (g : HangReport → HangReport) (s : State) : Rings s (endBinding p event g s) := by
  unfold endBinding
  repeat' first
    | with_reducible exact Rings.refl _
    | with_reducible assumption
    | with_reducible refine Rings.trans ?_ (.of_only (modPart_only ..) (by decide))
    | with_reducible refine Rings.trans ?_ (hangRec_rings ..)
    | with_reducible refine each_rings ?_ ?_
    | with_reducible rfl
    | (delta ringView; with_reducible rfl)
    | intro _ _
    | split
    | dsimp only

theorem closeBinding_rings (p : Nat) (s : State) : Rings s (closeBinding p s) := by
  unfold closeBinding
  repeat' first
    | with_reducible exact Rings.refl _
    | with_reducible assumption
    | with_reducible refine Rings.trans ?_ (endBinding_rings ..)
    | with_reducible refine each_rings ?_ ?_
    | with_reducible rfl
    | (delta ringView; with_reducible rfl)
    | intro _ _
    | split
    | dsimp only

theorem bindReports_rings (p : Nat) (cut : W32) (s : State) : Rings s (bindReports p cut s) := by
  unfold bindReports
  repeat' first
    | with_reducible exact Rings.refl _
    | with_reducible assumption
    | with_reducible refine Rings.trans ?_ (endBinding_rings ..)
    | with_reducible refine each_rings ?_ ?_
    | with_reducible rfl
    | (delta ringView; with_reducible rfl)
    | intro _ _
    | split
    | dsimp only

theorem logPoisoned_rings (c : Cut) (s : State) : Rings s (logPoisoned c s) := by
  unfold logPoisoned
  repeat' first
    | with_reducible exact Rings.refl _
    | with_reducible assumption
    | with_reducible refine Rings.trans ?_ (uncorrectableItem_rings ..)
    | with_reducible refine each_rings ?_ ?_
    | with_reducible rfl
    | (delta ringView; with_reducible rfl)
    | intro _ _
    | split
    | dsimp only

theorem captured_rings (p : Nat) (c : Cut) (s : State) : Rings s (captured p c s) := by
  unfold captured
  repeat' first
    | with_reducible exact Rings.refl _
    | with_reducible assumption
    | with_reducible refine Rings.trans ?_ (cutRec_rings ..)
    | with_reducible refine Rings.trans ?_ (.of_only (modCut_only ..) (by decide))
    | with_reducible refine each_rings ?_ ?_
    | with_reducible rfl
    | (delta ringView; with_reducible rfl)
    | intro _ _
    | split
    | dsimp only

theorem addReport_rings (p : Nat) (q : ReportReq) (s : State) : Rings s (addReport p q s) := by
  unfold addReport
  repeat' first
    | with_reducible exact Rings.refl _
    | with_reducible assumption
    | with_reducible refine Rings.trans ?_ (.of_only (modPart_only ..) (by decide))
    | with_reducible refine Rings.trans ?_ (.of_only (hubEvent_only ..) (by decide))
    | with_reducible refine Rings.trans ?_ (spendCreel_rings ..)
    | with_reducible refine Rings.trans ?_ (hangRec_rings ..)
    | with_reducible refine each_rings ?_ ?_
    | with_reducible rfl
    | (delta ringView; with_reducible rfl)
    | intro _ _
    | split
    | with_reducible refine Rings_upd_hang ?_
    | dsimp only

theorem triggerRec_rings (p : Nat) (serial : Nat) (sources : Nat) (term : Nat) (action : Nat) (abrupt : Bool) (hoop : Nat) (vc0 : Nat) (fwd : Nat) (hostTag : Nat) (suppressed : Nat) (s : State) : Rings s (triggerRec p serial sources term action abrupt hoop vc0 fwd hostTag suppressed s) := by
  unfold triggerRec
  repeat' first
    | with_reducible exact Rings.refl _
    | with_reducible assumption
    | with_reducible refine Rings.trans ?_ (writeRec_rings ..)
    | with_reducible refine each_rings ?_ ?_
    | with_reducible rfl
    | (delta ringView; with_reducible rfl)
    | intro _ _
    | split
    | dsimp only

theorem runSent_rings (p : Nat) (toDie : Bool) (s : State) : Rings s (runSent p toDie s) := by
  unfold runSent
  repeat' first
    | with_reducible exact Rings.refl _
    | with_reducible assumption
    | with_reducible refine Rings.trans ?_ (closeBinding_rings ..)
    | with_reducible refine Rings.trans ?_ (.of_only (endHold_only ..) (by decide))
    | with_reducible refine each_rings ?_ ?_
    | with_reducible rfl
    | (delta ringView; with_reducible rfl)
    | intro _ _
    | split
    | dsimp only

theorem plaitEvent_rings (bit : Nat) (s : State) : Rings s (plaitEvent bit s) := by
  unfold plaitEvent
  repeat' first
    | with_reducible exact Rings.refl _
    | with_reducible assumption
    | with_reducible refine Rings.trans ?_ (signalPfs_rings ..)
    | with_reducible refine each_rings ?_ ?_
    | with_reducible rfl
    | (delta ringView; with_reducible rfl)
    | intro _ _
    | split
    | with_reducible refine Rings_upd_plait ?_
    | dsimp only

theorem stakeLost_rings (n : Nat) (p : Nat) (s : State) : Rings s (stakeLost n p s) := by
  unfold stakeLost
  repeat' first
    | with_reducible exact Rings.refl _
    | with_reducible assumption
    | with_reducible refine Rings.trans ?_ (.of_only (modStake_only ..) (by decide))
    | with_reducible refine Rings.trans ?_ (plaitEvent_rings ..)
    | with_reducible refine Rings.trans ?_ (.of_only (stakeNote_only ..) (by decide))
    | with_reducible refine each_rings ?_ ?_
    | with_reducible rfl
    | (delta ringView; with_reducible rfl)
    | intro _ _
    | split
    | dsimp only

theorem firedReport_rings (p : Nat) (kind : Nat) (model : Nat) (score : Nat) (s : State) : Rings s (firedReport p kind model score s) := by
  unfold firedReport
  repeat' first
    | with_reducible exact Rings.refl _
    | with_reducible assumption
    | with_reducible refine Rings.trans ?_ (addReport_rings ..)
    | with_reducible refine each_rings ?_ ?_
    | with_reducible rfl
    | (delta ringView; with_reducible rfl)
    | intro _ _
    | split
    | dsimp only

theorem holdRecord_rings (u : Nat) (r : HaltRec) (s : State) : Rings s (holdRecord u r s) := by
  unfold holdRecord
  repeat' first
    | with_reducible exact Rings.refl _
    | with_reducible assumption
    | with_reducible refine Rings.trans ?_ (.of_only (modUnit_only ..) (by decide))
    | with_reducible refine Rings.trans ?_ (spendCreel_rings ..)
    | with_reducible refine each_rings ?_ ?_
    | with_reducible rfl
    | (delta ringView; with_reducible rfl)
    | intro _ _
    | split
    | dsimp only

theorem warpRecords_rings (ps : List Nat) (c : Commit) (outcome : Nat) (new : W32) (status : Byte) (s : State) : Rings s (warpRecords ps c outcome new status s) := by
  unfold warpRecords
  repeat' first
    | with_reducible exact Rings.refl _
    | with_reducible assumption
    | with_reducible refine Rings.trans ?_ (writeRec_rings ..)
    | with_reducible refine each_rings ?_ ?_
    | with_reducible rfl
    | (delta ringView; with_reducible rfl)
    | intro _ _
    | split
    | dsimp only

theorem timesyncRec_rings (l : Nat) (resumed : Bool) (s : State) : Rings s (timesyncRec l resumed s) := by
  unfold timesyncRec
  repeat' first
    | with_reducible exact Rings.refl _
    | with_reducible assumption
    | with_reducible refine Rings.trans ?_ (.of_only (modLnk_only ..) (by decide))
    | with_reducible refine Rings.trans ?_ (writeRec_rings ..)
    | with_reducible refine each_rings ?_ ?_
    | with_reducible rfl
    | (delta ringView; with_reducible rfl)
    | intro _ _
    | split
    | dsimp only

theorem linkRec_rings (n : Nat) (event : Nat) (s : State) : Rings s (linkRec n event s) := by
  unfold linkRec
  repeat' first
    | with_reducible exact Rings.refl _
    | with_reducible assumption
    | with_reducible refine Rings.trans ?_ (writeRec_rings ..)
    | with_reducible refine each_rings ?_ ?_
    | with_reducible rfl
    | (delta ringView; with_reducible rfl)
    | intro _ _
    | split
    | dsimp only

theorem linkLoss_rings (n : Nat) (s : State) : Rings s (linkLoss n s) := by
  unfold linkLoss
  repeat' first
    | with_reducible exact Rings.refl _
    | with_reducible assumption
    | with_reducible refine Rings.trans ?_ (lossBoth_rings ..)
    | with_reducible refine each_rings ?_ ?_
    | with_reducible rfl
    | (delta ringView; with_reducible rfl)
    | intro _ _
    | split
    | dsimp only

theorem checkStall_rings (p : Nat) (s : State) : Rings s (checkStall p s) := by
  unfold checkStall
  repeat' first
    | with_reducible exact Rings.refl _
    | with_reducible assumption
    | with_reducible refine Rings.trans ?_ (.of_only (modPart_only ..) (by decide))
    | with_reducible refine Rings.trans ?_ (syncCoder_rings ..)
    | with_reducible refine each_rings ?_ ?_
    | with_reducible rfl
    | (delta ringView; with_reducible rfl)
    | intro _ _
    | split
    | dsimp only

theorem creelWritten_rings (o : WordEff) (q : Run) (e : LibEntry) (s : State) : Rings s (creelWritten o q e s) := by
  unfold creelWritten
  repeat' first
    | with_reducible exact Rings.refl _
    | with_reducible assumption
    | with_reducible refine Rings.trans ?_ (spendCreel_rings ..)
    | with_reducible refine each_rings ?_ ?_
    | with_reducible rfl
    | (delta ringView; with_reducible rfl)
    | intro _ _
    | split
    | dsimp only

theorem stopFirmware_rings (s : State) : Rings s (stopFirmware s) := by
  unfold stopFirmware
  repeat' first
    | with_reducible exact Rings.refl _
    | with_reducible assumption
    | with_reducible refine Rings.trans ?_ (raiseErr_rings ..)
    | with_reducible refine each_rings ?_ ?_
    | with_reducible rfl
    | (delta ringView; with_reducible rfl)
    | intro _ _
    | split
    | with_reducible refine Rings_upd_err ?_
    | dsimp only

theorem rejectLoad_rings (n : Nat) (reason : Nat) (offset : Nat) (s : State) : Rings s (rejectLoad n reason offset s) := by
  unfold rejectLoad
  repeat' first
    | with_reducible exact Rings.refl _
    | with_reducible assumption
    | with_reducible refine Rings.trans ?_ (signal_rings ..)
    | with_reducible refine Rings.trans ?_ (.of_only (modWea_only ..) (by decide))
    | with_reducible refine each_rings ?_ ?_
    | with_reducible rfl
    | (delta ringView; with_reducible rfl)
    | intro _ _
    | split
    | dsimp only

theorem loadStart_rings (tap : Bool) (n : Nat) (s : State) : Rings s (loadStart tap n s) := by
  unfold loadStart
  repeat' first
    | with_reducible exact Rings.refl _
    | with_reducible assumption
    | with_reducible refine Rings.trans ?_ (.of_only (emit_only ..) (by decide))
    | with_reducible refine Rings.trans ?_ (.of_only (modWea_only ..) (by decide))
    | with_reducible refine Rings.trans ?_ (rejectLoad_rings ..)
    | with_reducible refine each_rings ?_ ?_
    | with_reducible rfl
    | (delta ringView; with_reducible rfl)
    | intro _ _
    | split
    | dsimp only

theorem loadAbort_rings (n : Nat) (s : State) : Rings s (loadAbort n s) := by
  unfold loadAbort
  repeat' first
    | with_reducible exact Rings.refl _
    | with_reducible assumption
    | with_reducible refine Rings.trans ?_ (rejectLoad_rings ..)
    | with_reducible refine Rings.trans ?_ (.of_only (stopLoad_only ..) (by decide))
    | with_reducible refine each_rings ?_ ?_
    | with_reducible rfl
    | (delta ringView; with_reducible rfl)
    | intro _ _
    | split
    | dsimp only

theorem putLib_rings (lib : List LibEntry) (s : State) : Rings s (putLib lib s) := by
  unfold putLib
  repeat' first
    | with_reducible exact Rings.refl _
    | with_reducible assumption
    | with_reducible refine Rings.trans ?_ (.of_only (nextFree_only ..) (by decide))
    | with_reducible refine Rings.trans ?_ (spendCreel_rings ..)
    | with_reducible refine each_rings ?_ ?_
    | with_reducible rfl
    | (delta ringView; with_reducible rfl)
    | intro _ _
    | split
    | with_reducible refine Rings_upd_osier ?_
    | dsimp only

theorem acceptImage_rings (by_ : Option Nat) (c : Checked) (l : List Section_) (lib : List LibEntry) (img : List Byte)
    (s : State) : Rings s (acceptImage by_ c l lib img s) := by
  unfold acceptImage
  extract_lets id plane warp
  clear_value warp plane id
  have h : Rings s (keepCopy img (takeRole (noteImage by_ c.signed warp id (putLib lib s)))) :=
    (((putLib_rings lib s).trans (.of_only (noteImage_only ..) (by decide))).trans
      (.of_only (takeRole_only ..) (by decide))).trans (.of_only (keepCopy_only ..) (by decide))
  generalize keepCopy img (takeRole (noteImage by_ c.signed warp id (putLib lib s))) = t at h
  have hl := each_rings (l := List.range 8) (each_rings (l := List.range 8) (each_rings (l := List.range 64) h
    fun p t => .of_only (modPart_only p (fun x => { x with active := plane p, inactive := some (plane p), activeB := false,
                                                           lastGen := 1 }) t) (by decide))
    fun n t => .of_only (modPort_only n (fun x =>
      { x with warp := ((payloadOf l 0x11 n).map warpPortOf).getD WarpPort.none }) t) (by decide))
    fun n t => .of_only (startLink_only n t) (by decide)
  refine Rings.trans ?_ (.of_only (bootAdvance_only ..) (by decide))
  refine Rings.trans ?_ (.of_only (noteOpenLab_only ..) (by decide))
  refine hl.trans ?_
  dsimp only
  split
  · exact .of_only (enterDetect_only ..) (by decide)
  · exact .refl _

theorem imageRejected_rings (by_ : Option Nat) (r : Reject) (s : State) : Rings s (imageRejected by_ r s) := by
  unfold imageRejected
  repeat' first
    | with_reducible exact Rings.refl _
    | with_reducible assumption
    | with_reducible refine Rings.trans ?_ (signalPfs_rings ..)
    | with_reducible refine Rings.trans ?_ (.of_only (modWea_only ..) (by decide))
    | with_reducible refine Rings.trans ?_ (rejectLoad_rings ..)
    | with_reducible refine each_rings ?_ ?_
    | with_reducible rfl
    | (delta ringView; with_reducible rfl)
    | intro _ _
    | split
    | with_reducible refine Rings_upd_weave ?_
    | with_reducible refine Rings_upd_plait ?_
    | dsimp only

theorem acceptWeft_rings (p : Nat) (l : List Section_) (lib : List LibEntry) (id : W64) (s : State) : Rings s (acceptWeft p l lib id s) := by
  unfold acceptWeft
  repeat' first
    | with_reducible exact Rings.refl _
    | with_reducible assumption
    | with_reducible refine Rings.trans ?_ (.of_only (modPart_only ..) (by decide))
    | with_reducible refine Rings.trans ?_ (putLib_rings ..)
    | with_reducible refine each_rings ?_ ?_
    | with_reducible rfl
    | (delta ringView; with_reducible rfl)
    | intro _ _
    | split
    | dsimp only

theorem weaveAtSwitch_rings (p : Nat) (payload : List Byte) (s : State) : Rings s (weaveAtSwitch p payload s) := by
  unfold weaveAtSwitch
  repeat' first
    | with_reducible exact Rings.refl _
    | with_reducible assumption
    | with_reducible refine Rings.trans ?_ (deliverInput_rings ..)
    | with_reducible refine Rings.trans ?_ (placeRec_rings ..)
    | with_reducible refine each_rings ?_ ?_
    | with_reducible rfl
    | (delta ringView; with_reducible rfl)
    | intro _ _
    | split
    | dsimp only

theorem setEncoding_rings (p : Nat) (raw : Bool) (s : State) : Rings s (setEncoding p raw s) := by
  unfold setEncoding
  repeat' first
    | with_reducible exact Rings.refl _
    | with_reducible assumption
    | with_reducible refine Rings.trans ?_ (.of_only (modPart_only ..) (by decide))
    | with_reducible refine Rings.trans ?_ (syncCoder_rings ..)
    | with_reducible refine each_rings ?_ ?_
    | with_reducible rfl
    | (delta ringView; with_reducible rfl)
    | intro _ _
    | split
    | dsimp only

theorem endDramGap_rings (p : Nat) (g : Gap) (s : State) : Rings s (endDramGap p g s) := by
  unfold endDramGap
  repeat' first
    | with_reducible exact Rings.refl _
    | with_reducible assumption
    | with_reducible refine Rings.trans ?_ (.of_only (modPart_only ..) (by decide))
    | with_reducible refine Rings.trans ?_ (dramLossToPort_rings ..)
    | with_reducible refine Rings.trans ?_ (.of_only (putDramLoss_only ..) (by decide))
    | with_reducible refine each_rings ?_ ?_
    | with_reducible rfl
    | (delta ringView; with_reducible rfl)
    | intro _ _
    | split
    | dsimp only

theorem closeReserve_rings (p : Nat) (s : State) : Rings s (closeReserve p s) := by
  unfold closeReserve
  repeat' first
    | with_reducible exact Rings.refl _
    | with_reducible assumption
    | with_reducible refine Rings.trans ?_ (.of_only (modPart_only ..) (by decide))
    | with_reducible refine Rings.trans ?_ (.of_only (modMeters_only ..) (by decide))
    | with_reducible refine Rings.trans ?_ (.of_only (spendDram_only ..) (by decide))
    | with_reducible refine Rings.trans ?_ (.of_only (queueBlock_only ..) (by decide))
    | with_reducible refine Rings.trans ?_ (.of_only (putOpen_only ..) (by decide))
    | with_reducible refine Rings.trans ?_ (.of_only (lossPlaced_only ..) (by decide))
    | with_reducible refine Rings.trans ?_ (endDramGap_rings ..)
    | with_reducible refine each_rings ?_ ?_
    | with_reducible rfl
    | (delta ringView; with_reducible rfl)
    | intro _ _
    | split
    | dsimp only

theorem periodicReset_rings (p : Nat) (s : State) : Rings s (periodicReset p s) := by
  unfold periodicReset
  repeat' first
    | with_reducible exact Rings.refl _
    | with_reducible assumption
    | with_reducible refine Rings.trans ?_ (forceReset_rings ..)
    | with_reducible refine each_rings ?_ ?_
    | with_reducible rfl
    | (delta ringView; with_reducible rfl)
    | intro _ _
    | split
    | dsimp only

theorem readTier_rings (found : Ecc) (s : State) : Rings s (readTier found s) := by
  unfold readTier
  repeat' first
    | with_reducible exact Rings.refl _
    | with_reducible assumption
    | with_reducible refine Rings.trans ?_ (.of_only (modPart_only ..) (by decide))
    | with_reducible refine Rings.trans ?_ (correctedWord_rings ..)
    | with_reducible refine Rings.trans ?_ (shedTier_rings ..)
    | with_reducible refine each_rings ?_ ?_
    | with_reducible rfl
    | (delta ringView; with_reducible rfl)
    | intro _ _
    | split
    | dsimp only

theorem endPortGap_rings (p : Nat) (g : Gap) (s : State) : Rings s (endPortGap p g s) := by
  unfold endPortGap
  repeat' first
    | with_reducible exact Rings.refl _
    | with_reducible assumption
    | with_reducible refine Rings.trans ?_ (.of_only (modPart_only ..) (by decide))
    | with_reducible refine Rings.trans ?_ (lossToPort_rings ..)
    | with_reducible refine each_rings ?_ ?_
    | with_reducible rfl
    | (delta ringView; with_reducible rfl)
    | intro _ _
    | split
    | dsimp only

theorem waleDown_rings (s : State) : Rings s (waleDown s) := by
  unfold waleDown
  repeat' first
    | with_reducible exact Rings.refl _
    | with_reducible assumption
    | with_reducible refine Rings.trans ?_ (raiseErr_rings ..)
    | with_reducible refine each_rings ?_ ?_
    | with_reducible rfl
    | (delta ringView; with_reducible rfl)
    | intro _ _
    | split
    | with_reducible refine Rings_upd_wale ?_
    | dsimp only

theorem ringErr_rings (f : Nat) (code : Nat) (s : State) : Rings s (ringErr f code s) := by
  unfold ringErr
  repeat' first
    | with_reducible exact Rings.refl _
    | with_reducible assumption
    | with_reducible refine Rings.trans ?_ (modFn_rings _ _ _ ?_)
    | with_reducible refine Rings.trans ?_ (setEvent_rings ..)
    | with_reducible refine each_rings ?_ ?_
    | with_reducible rfl
    | (delta ringView; with_reducible rfl)
    | intro _ _
    | split
    | dsimp only

theorem doorbell_rings (f : Nat) (value : W32) (s : State) : Rings s (doorbell f value s) := by
  unfold doorbell
  repeat' first
    | with_reducible exact Rings.refl _
    | with_reducible assumption
    | with_reducible refine Rings.trans ?_ (modFn_rings _ _ _ ?_)
    | with_reducible refine Rings.trans ?_ (ringErr_rings ..)
    | with_reducible refine each_rings ?_ ?_
    | with_reducible rfl
    | (delta ringView; with_reducible rfl)
    | intro _ _
    | split
    | dsimp only

theorem cplHeadWrite_rings (f : Nat) (value : W32) (s : State) : Rings s (cplHeadWrite f value s) := by
  unfold cplHeadWrite
  repeat' first
    | with_reducible exact Rings.refl _
    | with_reducible assumption
    | with_reducible refine Rings.trans ?_ (modFn_rings _ _ _ ?_)
    | with_reducible refine each_rings ?_ ?_
    | with_reducible rfl
    | (delta ringView; with_reducible rfl)
    | intro _ _
    | split
    | dsimp only

theorem ringDisable_rings (f : Nat) (s : State) : Rings s (ringDisable f s) := by
  unfold ringDisable
  repeat' first
    | with_reducible exact Rings.refl _
    | with_reducible assumption
    | with_reducible refine Rings.trans ?_ (modFn_rings _ _ _ ?_)
    | with_reducible refine each_rings ?_ ?_
    | with_reducible rfl
    | (delta ringView; with_reducible rfl)
    | intro _ _
    | split
    | dsimp only

theorem takeTurn_rings (f : Nat) (s : State) : Rings s (takeTurn f s) := by
  unfold takeTurn
  repeat' first
    | with_reducible exact Rings.refl _
    | with_reducible assumption
    | with_reducible refine Rings.trans ?_ (modFn_rings _ _ _ ?_)
    | with_reducible refine Rings.trans ?_ (.of_only (modHost_only ..) (by decide))
    | with_reducible refine each_rings ?_ ?_
    | with_reducible rfl
    | (delta ringView; with_reducible rfl)
    | intro _ _
    | split
    | dsimp only

theorem takeImageReq_rings (found : Ecc) (s : State) : Rings s (takeImageReq found s) := by
  unfold takeImageReq
  repeat' first
    | with_reducible exact Rings.refl _
    | with_reducible assumption
    | with_reducible refine Rings.trans ?_ (correctedWord_rings ..)
    | with_reducible refine Rings.trans ?_ (uncorrectableItem_rings ..)
    | with_reducible refine Rings.trans ?_ (.of_only (plaitSend_only ..) (by decide))
    | with_reducible refine each_rings ?_ ?_
    | with_reducible rfl
    | (delta ringView; with_reducible rfl)
    | intro _ _
    | split
    | dsimp only

theorem setLatches_rings (tap : Bool) (f : Nat) (l : List (Nat × W32)) (s : State) : Rings s (setLatches tap f l s) := by
  unfold setLatches
  repeat' first
    | with_reducible exact Rings.refl _
    | with_reducible assumption
    | with_reducible refine Rings.trans ?_ (modFn_rings _ _ _ ?_)
    | with_reducible refine each_rings ?_ ?_
    | with_reducible rfl
    | (delta ringView; with_reducible rfl)
    | intro _ _
    | split
    | with_reducible refine Rings_upd_tapLatches ?_
    | dsimp only

theorem countBad_rings (space : Nat) (r : MemRead) (s : State) : Rings s (countBad space r s) := by
  unfold countBad
  repeat' first
    | with_reducible exact Rings.refl _
    | with_reducible assumption
    | with_reducible refine Rings.trans ?_ (.of_only (bumpAlways_only ..) (by decide))
    | with_reducible refine Rings.trans ?_ (errBit_rings ..)
    | with_reducible refine Rings.trans ?_ (correctedWord_rings ..)
    | with_reducible refine each_rings ?_ ?_
    | with_reducible rfl
    | (delta ringView; with_reducible rfl)
    | intro _ _
    | split
    | dsimp only

theorem writeWea_rings (tap : Bool) (f : Nat) (off : Nat) (w : Wr) (s : State) : Rings s (writeWea tap f off w s) := by
  unfold writeWea
  repeat' first
    | with_reducible exact Rings.refl _
    | with_reducible assumption
    | with_reducible refine Rings.trans ?_ (.of_only (modWea_only ..) (by decide))
    | with_reducible refine Rings.trans ?_ (loadStart_rings ..)
    | with_reducible refine Rings.trans ?_ (loadAbort_rings ..)
    | with_reducible refine each_rings ?_ ?_
    | with_reducible rfl
    | (delta ringView; with_reducible rfl)
    | intro _ _
    | split
    | dsimp only

theorem sendPending_rings (f : Nat) (v : Nat) (s : State) : Rings s (sendPending f v s) := by
  unfold sendPending
  repeat' first
    | with_reducible exact Rings.refl _
    | with_reducible assumption
    | with_reducible refine Rings.trans ?_ (modFn_rings _ _ _ ?_)
    | with_reducible refine Rings.trans ?_ (signal_rings ..)
    | with_reducible refine each_rings ?_ ?_
    | with_reducible rfl
    | (delta ringView; with_reducible rfl)
    | intro _ _
    | split
    | dsimp only

theorem writeMsixControl_rings (f : Nat) (w : Wr) (s : State) : Rings s (writeMsixControl f w s) := by
  unfold writeMsixControl
  repeat' first
    | with_reducible exact Rings.refl _
    | with_reducible assumption
    | with_reducible refine Rings.trans ?_ (modFn_rings _ _ _ ?_)
    | with_reducible refine Rings.trans ?_ (sendPending_rings ..)
    | with_reducible refine each_rings ?_ ?_
    | with_reducible rfl
    | (delta ringView; with_reducible rfl)
    | intro _ _
    | split
    | dsimp only

theorem writeMsix_rings (f : Nat) (off : Nat) (w : Wr) (s : State) : Rings s (writeMsix f off w s) := by
  unfold writeMsix
  repeat' first
    | with_reducible exact Rings.refl _
    | with_reducible assumption
    | with_reducible refine Rings.trans ?_ (modFn_rings _ _ _ ?_)
    | with_reducible refine Rings.trans ?_ (sendPending_rings ..)
    | with_reducible refine each_rings ?_ ?_
    | with_reducible rfl
    | (delta ringView; with_reducible rfl)
    | intro _ _
    | split
    | dsimp only

theorem writePart_rings (f : Nat) (p : Nat) (off : Nat) (w : Wr) (s : State) : Rings s (writePart f p off w s) := by
  unfold writePart
  repeat' first
    | with_reducible exact Rings.refl _
    | with_reducible assumption
    | with_reducible refine Rings.trans ?_ (modFn_rings _ _ _ ?_)
    | with_reducible refine Rings.trans ?_ (.of_only (requestReset_only ..) (by decide))
    | with_reducible refine each_rings ?_ ?_
    | with_reducible rfl
    | (delta ringView; with_reducible rfl)
    | intro _ _
    | split
    | dsimp only

end Sys2Proof.Laws
end

