-- ==== Sys2Proof/Laws/Answers.lean ====
section
/-!
SUPPORT. What raising a fault does, and the answers of commands whose meaning does more.
-/

namespace Sys2Proof.Laws
open Sys2Proof Sys2Proof.Machine

/-! ### What an operation that leaves a field leaves of it -/

theorem Only.part {l : List Fld} {s t : State} (h : Only l s t) (k : (!l.contains .parts) = true) (n : Nat) : t.part n = s.part n := by
  have e : t.parts = s.parts := h.same .parts (by simpa using k)
  unfold State.part
  rw [e]
theorem Only.port {l : List Fld} {s t : State} (h : Only l s t) (k : (!l.contains .ports) = true) (n : Nat) : t.port n = s.port n := by
  have e : t.ports = s.ports := h.same .ports (by simpa using k)
  unfold State.port
  rw [e]
theorem Only.fn {l : List Fld} {s t : State} (h : Only l s t) (k : (!l.contains .fns) = true) (n : Nat) : t.fn n = s.fn n := by
  have e : t.fns = s.fns := h.same .fns (by simpa using k)
  unfold State.fn
  rw [e]
theorem Only.ses {l : List Fld} {s t : State} (h : Only l s t) (k : (!l.contains .sess) = true) (n : Nat) : t.ses n = s.ses n := by
  have e : t.sess = s.sess := h.same .sess (by simpa using k)
  unfold State.ses
  rw [e]
theorem Only.host {l : List Fld} {s t : State} (h : Only l s t) (k : (!l.contains .hosts) = true) (n : Nat) : t.host n = s.host n := by
  have e : t.hosts = s.hosts := h.same .hosts (by simpa using k)
  unfold State.host
  rw [e]
theorem Only.unit {l : List Fld} {s t : State} (h : Only l s t) (k : (!l.contains .units) = true) (n : Nat) : t.unit n = s.unit n := by
  have e : t.units = s.units := h.same .units (by simpa using k)
  unfold State.unit
  rw [e]
theorem Only.fires {l : List Fld} {s t : State} (h : Only l s t) (k : (!l.contains .fires) = true) : t.fires = s.fires :=
  h.same .fires (by simpa using k)
theorem Only.now {l : List Fld} {s t : State} (h : Only l s t) (k : (!l.contains .now) = true) : t.now = s.now :=
  h.same .now (by simpa using k)
theorem Only.out {l : List Fld} {s t : State} (h : Only l s t) (k : (!l.contains .out) = true) : t.out = s.out :=
  h.same .out (by simpa using k)
theorem Only.err {l : List Fld} {s t : State} (h : Only l s t) (k : (!l.contains .err) = true) : t.err = s.err :=
  h.same .err (by simpa using k)
theorem started_only (f : Nat) (tag : W32) (s : State) : Only [.fns] s (started f tag s) := modCmd_only ..

/-- What a fault does: its class bit, its log entry, and vector 2 of the PFs. -/
theorem raiseErr_does (cls scope inst addr detail action : Nat) (s : State) :
    Only [.fns, .always, .out]
      { s with err := { s.err with status := s.err.status ||| (1#14 <<< (cls - 1)), nextSeq := s.err.nextSeq + 1,
                                   statusSet := s.err.statusSet.add s.ctlCycle (1#32 <<< (cls - 1)),
                                   log := (errEntry s cls scope inst addr detail action :: s.err.log).take 64 } }
      (raiseErr cls scope inst addr detail action s) := signalPfs_only ..
theorem modPart_keeps {α : Type} (g : State → α) (hg : ∀ s P, g { s with parts := P } = g s) (p : Nat) (h : PartSt → PartSt)
    (s : State) : g (modPart p h s) = g s := by
  unfold modPart
  split
  · exact hg ..
  · rfl
theorem modPort_keeps {α : Type} (g : State → α) (hg : ∀ s P, g { s with ports := P } = g s) (p : Nat) (h : PortSt → PortSt)
    (s : State) : g (modPort p h s) = g s := by
  unfold modPort
  split
  · exact hg ..
  · rfl
theorem modSess_keeps {α : Type} (g : State → α) (hg : ∀ s P, g { s with sess := P } = g s) (p : Nat) (h : SessSt → SessSt)
    (s : State) : g (modSess p h s) = g s := by
  unfold modSess
  split
  · exact hg ..
  · rfl
theorem modHost_keeps {α : Type} (g : State → α) (hg : ∀ s P, g { s with hosts := P } = g s) (p : Nat) (h : HostSt → HostSt)
    (s : State) : g (modHost p h s) = g s := by
  unfold modHost
  split
  · exact hg ..
  · rfl
theorem modFn_keeps {α : Type} (g : State → α) (hg : ∀ s P, g { s with fns := P } = g s) (p : Nat) (h : FnSt → FnSt)
    (s : State) : g (modFn p h s) = g s := by
  unfold modFn
  split
  · exact hg ..
  · rfl
theorem each_eq {α β : Type} (g : State → β) {h : α → State → State} (k : ∀ a t, g (h a t) = g t) (l : List α) (s : State) :
    g (each l h s) = g s := by
  unfold each
  induction l generalizing s with
  | nil => rfl
  | cons a l ih => exact (ih _).trans (k a s)
theorem done_quiet {u : State} (h : u.fires = []) : done u = .next u := by
  unfold done
  rw [settle_of_nil h]
theorem each_part {l : List Nat} {g : PartSt → PartSt} (s : State) (p : Nat) (hp : p < 64) :
    (each l (fun q => modPart q g) s).part p = if p ∈ l then (if (l.count p) = 1 then g (s.part p) else
      (each l (fun q => modPart q g) s).part p) else s.part p := by
  by_cases h : p ∈ l
  · rw [if_pos h]
    split
    · rename_i hc
      induction l generalizing s with
      | nil => cases h
      | cons a l ih =>
        show (each l _ (modPart a g s)).part p = _
        by_cases e : p = a
        · subst e
          have hn : p ∉ l := by
            intro hm
            have := List.count_pos_iff.mpr hm
            rw [List.count_cons_self] at hc
            omega
          have : (each l (fun q => modPart q g) (modPart p g s)).part p = (modPart p g s).part p := by
            clear ih hc h
            generalize modPart p g s = u
            induction l generalizing u with
            | nil => rfl
            | cons b l ih2 =>
              show (each l _ (modPart b g u)).part p = _
              rw [ih2 (fun hm => hn (.tail _ hm)), part_modPart_ne _ _ _ _ (fun e => hn (by rw [e]; exact .head _))]
          rw [this, part_modPart _ _ _ hp]
        · rw [List.count_cons_of_ne (Ne.symm e)] at hc
          rw [ih _ ((List.mem_cons.mp h).resolve_left e) hc, part_modPart_ne _ _ _ _ e]
    · rfl
  · rw [if_neg h]
    induction l generalizing s with
    | nil => rfl
    | cons b l ih2 =>
      show (each l _ (modPart b g s)).part p = _
      rw [ih2 _ (fun hm => h (.tail _ hm)), part_modPart_ne _ _ _ _ (fun e => h (by rw [e]; exact .head _))]
theorem each_range_part {g : PartSt → PartSt} (s : State) (p : Nat) (hp : p < 64) :
    (each (List.range 64) (fun q => modPart q g) s).part p = g (s.part p) := by
  rw [each_part _ _ hp, if_pos (List.mem_range.mpr hp), if_pos]
  exact List.nodup_range.count ▸ if_pos (List.mem_range.mpr hp)
theorem fnView {s t : State} (h : Rings t s) (f : Nat) : ringView (s.fn f) = ringView (t.fn f) := by
  unfold State.fn
  split
  · rename_i hf
    have := congrArg (fun v => v[f]) h.view
    simpa using this
  · rfl
theorem cmd_of_rings {s t : State} (h : Rings t s) (f : Nat) (tag : W32) : s.cmd f tag = t.cmd f tag := by
  unfold State.cmd
  have := congrArg RingView.inflight (fnView h f)
  exact congrArg (List.find? _) this
theorem ring_of_rings {s t : State} (h : Rings s t) (f : Nat) : Ring (s.fn f) (t.fn f) :=
  have v := fnView h f
  ⟨congrArg RingView.base v, congrArg RingView.tail v, congrArg RingView.phase v, congrArg RingView.d3hot v,
   congrArg RingView.held v⟩
theorem Ring.trans {x y z : FnSt} (h : Ring x y) (k : Ring y z) : Ring x z :=
  ⟨k.base.trans h.base, k.tail.trans h.tail, k.phase.trans h.phase, k.d3.trans h.d3, k.held.trans h.held⟩

theorem cmdsWhere_rings {s t : State} (h : Rings t s) (sel : Nat → Cmd → Bool) : s.cmdsWhere sel = t.cmdsWhere sel := by
  unfold State.cmdsWhere
  congr 1
  funext f
  have : (s.fn f).inflight = (t.fn f).inflight := congrArg RingView.inflight (fnView h f)
  rw [this]
theorem cmdsWhere_modFn (f : Nat) (g : FnSt → FnSt) (s : State) (sel : Nat → Cmd → Bool)
    (h : ((g (s.fn f)).inflight.filter fun c => sel f c && !c.heldDup) = (s.fn f).inflight.filter fun c => sel f c && !c.heldDup) :
    (modFn f g s).cmdsWhere sel = s.cmdsWhere sel := by
  unfold State.cmdsWhere
  congr 1
  funext k
  by_cases e : k = f
  · subst e
    by_cases hk : k < 136
    · rw [fn_modFn _ _ _ hk, h]
    · have : modFn k g s = s := by unfold modFn; rw [dif_neg hk]
      rw [this]
  · rw [fn_modFn_ne _ _ _ _ e]
theorem cmdsWhere_nil {s : State} {sel : Nat → Cmd → Bool} :
    s.cmdsWhere sel = [] ↔ ∀ f < 136, ∀ c ∈ (s.fn f).inflight, (sel f c && !c.heldDup) = false := by
  unfold State.cmdsWhere
  rw [List.flatMap_eq_nil_iff]
  constructor
  · intro h f hf c hc
    have := h f (List.mem_range.mpr hf)
    rw [List.map_eq_nil_iff, List.filter_eq_nil_iff] at this
    simpa using this c hc
  · intro h f hf
    rw [List.map_eq_nil_iff, List.filter_eq_nil_iff]
    intro c hc
    rw [h f (List.mem_range.mp hf) c hc]
    decide
theorem no_cmds_modCmd {s : State} {f : Nat} {tag : W32} {g : Cmd → Cmd} {sel : Nat → Cmd → Bool} (q : Nat → BitVec 512 → Bool)
    (hg : ∀ c, (g c).desc = c.desc ∧ (g c).heldDup = c.heldDup) (hs : ∀ k c, sel k c = true → q k c.desc = true)
    (h : (s.cmdsWhere fun k x => q k x.desc) = []) : (modCmd f tag g s).cmdsWhere sel = [] := by
  rw [cmdsWhere_nil] at *
  intro k hk c hc
  have key : ∃ c' ∈ (s.fn k).inflight, c'.desc = c.desc ∧ c'.heldDup = c.heldDup := by
    unfold modCmd at hc
    by_cases e : k = f
    · subst e
      rw [fn_modFn _ _ _ hk] at hc
      obtain ⟨c', h1, rfl⟩ := List.mem_map.mp hc
      refine ⟨c', h1, ?_⟩
      split
      · exact ⟨(hg c').1.symm, (hg c').2.symm⟩
      · exact ⟨rfl, rfl⟩
    · rw [fn_modFn_ne _ _ _ _ e] at hc
      exact ⟨c, hc, rfl, rfl⟩
  obtain ⟨c', h1, h2, h3⟩ := key
  have := h k hk c' h1
  by_cases e : sel k c = true
  · have e2 := hs k c e
    rw [h2, e2, h3] at this
    rw [e]; exact this
  · simp only [Bool.not_eq_true] at e
    rw [e]; rfl
theorem cmd_modWork {s : State} {f : Nat} {tag : W32} {c : Cmd} (g : Work → Work) (h : s.cmd f tag = some c) :
    (modWork f tag g s).cmd f tag = some { c with work := g c.work } := cmd_modCmd _ (fun _ => ⟨rfl, rfl⟩) h
theorem no_cmds_started {s : State} {f : Nat} {tag : W32} {sel : Nat → Cmd → Bool} (q : Nat → BitVec 512 → Bool)
    (hs : ∀ k c, sel k c = true → q k c.desc = true) (h : (s.cmdsWhere fun k x => q k x.desc) = []) :
    (started f tag s).cmdsWhere sel = [] := no_cmds_modCmd q (fun _ => ⟨rfl, rfl⟩) hs h
/-- A command whose meaning changes the state before it ends answers with its result. -/
theorem answers_after {s u : State} {f : Nat} {tag : W32} {c : Cmd} (r : Res) (hf : f < 68) (h : s.cmd f tag = some c)
    (hr : Rings (started f tag s) u) (ho : s.out <+: u.out) (hn : u.now = s.now) :
    Answers s (complete f tag r u) f c r := by
  have hc := (cmd_of_rings hr f tag).trans (cmd_started h)
  exact answers_of_eq (complete_answers r hf hc) ho hn ((ring_started (by omega)).trans (ring_of_rings hr f)) rfl rfl
/-- The same for a command that started earlier. -/
theorem answers_later {s u : State} {f : Nat} {tag : W32} {c : Cmd} (r : Res) (hf : f < 68) (h : s.cmd f tag = some c)
    (hr : Rings s u) (ho : s.out <+: u.out) (hn : u.now = s.now) : Answers s (complete f tag r u) f c r := by
  have hc := (cmd_of_rings hr f tag).trans h
  exact answers_of_eq (complete_answers r hf hc) ho hn (ring_of_rings hr f) rfl rfl

end Sys2Proof.Laws
end

