-- ==== Sys2Proof/Laws/Memory.lean ====
section
/-!
SUPPORT. The memory operations keep the canonical form, and a read after a write gives the byte.
-/

namespace Sys2Proof.Laws
open Sys2Proof Sys2Proof.Machine

/-- A lower bound that is weaker still holds. -/
theorem wfAbove_weaken {a b : Nat} (h : b ≤ a) {m : Mem} (w : Mem.wfAbove (some a) m = true) : Mem.wfAbove (some b) m = true := by
  cases m with
  | nil => rfl
  | cons x t =>
    obtain ⟨k, v⟩ := x
    simp only [Mem.wfAbove, Bool.and_eq_true, decide_eq_true_eq] at w ⊢
    exact ⟨⟨by omega, w.1.2⟩, w.2⟩

/-- A form with a lower bound is a form. -/
theorem wfAbove_none {a : Nat} {m : Mem} (w : Mem.wfAbove (some a) m = true) : Mem.wfAbove none m = true := by
  cases m with
  | nil => rfl
  | cons x t =>
    obtain ⟨k, v⟩ := x
    simp only [Mem.wfAbove, Bool.and_eq_true] at w ⊢
    exact ⟨⟨trivial, w.1.2⟩, w.2⟩

/-- A write above the bound keeps the form above it. -/
theorem write_wfAbove {lo : Nat} {m : Mem} {a : Nat} (b : Byte) (h : lo < a) (w : Mem.wfAbove (some lo) m = true) :
    Mem.wfAbove (some lo) (Mem.write m a b) = true := by
  induction m generalizing lo with
  | nil =>
    unfold Mem.write
    split
    · rfl
    · simp_all [Mem.wfAbove]
  | cons x t ih =>
    obtain ⟨k, v⟩ := x
    simp only [Mem.wfAbove, Bool.and_eq_true, decide_eq_true_eq] at w
    obtain ⟨⟨w1, w2⟩, w3⟩ := w
    unfold Mem.write
    split
    · split
      · simpa [Mem.wfAbove, w1, w3] using w2
      · rename_i h1 h2
        simp_all [Mem.wfAbove]
    · split
      · split
        · exact wfAbove_weaken (Nat.le_of_lt w1) w3
        · rename_i h1 h2 h3
          simp_all [Mem.wfAbove]
      · rename_i h1 h2
        have := ih (lo := k) (by omega) w3
        simpa [Mem.wfAbove, w1, this] using w2

/-- A write keeps the canonical form. -/
theorem write_wf {m : Mem} (a : Nat) (b : Byte) (w : Mem.wf m = true) : Mem.wf (Mem.write m a b) = true := by
  unfold Mem.wf at *
  cases m with
  | nil =>
    unfold Mem.write
    split
    · rfl
    · simp_all [Mem.wfAbove]
  | cons x t =>
    obtain ⟨k, v⟩ := x
    simp only [Mem.wfAbove, Bool.and_eq_true] at w
    obtain ⟨⟨_, w2⟩, w3⟩ := w
    unfold Mem.write
    split
    · split
      · simpa [Mem.wfAbove, w3] using w2
      · simp_all [Mem.wfAbove]
    · split
      · split
        · exact wfAbove_none w3
        · simp_all [Mem.wfAbove]
      · rename_i h1 h2
        have := write_wfAbove (lo := k) b (show k < a by omega) w3
        simpa [Mem.wfAbove, this] using w2

/-- Writes of several bytes keep the canonical form. -/
theorem writeN_wf {m : Mem} (a : Nat) (l : List Byte) (w : Mem.wf m = true) : Mem.wf (Mem.writeN m a l) = true := by
  induction l generalizing m a with
  | nil => exact w
  | cons b l ih => exact ih _ (write_wf a b w)

/-- A byte read where it was written is the byte. -/
theorem read_write_same (m : Mem) (a : Nat) (b : Byte) (w : Mem.wf m = true) : Mem.read (Mem.write m a b) a = b := by
  have key : ∀ m : Mem, (∃ lo, Mem.wfAbove lo m = true) → Mem.read (Mem.write m a b) a = b := by
    intro m
    induction m with
    | nil =>
      intro _
      unfold Mem.write
      split <;> simp_all [Mem.read]
    | cons x t ih =>
      obtain ⟨k, v⟩ := x
      rintro ⟨lo, h⟩
      simp only [Mem.wfAbove, Bool.and_eq_true] at h
      unfold Mem.write
      split
      · split
        · rename_i h1 h2
          simp only [Mem.read]
          rw [if_neg (by omega), if_pos h1]
          exact h2.symm
        · simp [Mem.read]
      · split
        · rename_i h1 h2
          split
          · rename_i h3
            subst h2
            have h4 := h.2
            cases t with
            | nil => exact h3.symm
            | cons y u =>
              obtain ⟨k', v'⟩ := y
              simp only [Mem.wfAbove, Bool.and_eq_true, decide_eq_true_eq] at h4
              simp only [Mem.read]
              rw [if_neg (by omega), if_pos h4.1.1]
              exact h3.symm
          · simp [Mem.read]
        · rename_i h1 h2
          simp only [Mem.read]
          rw [if_neg h2, if_neg h1]
          exact ih ⟨_, h.2⟩
  exact key m ⟨none, w⟩

/-- The memory of State.reset has the canonical form. -/
theorem reset_mem_wf : Mem.wf State.reset.mem.creel = true := rfl

end Sys2Proof.Laws
end

