-- ==== Sys2Proof/Laws/Sends.lean ====
section
/-!
SUPPORT. Fields after the lattice has settled, and the requests that a command puts with the ports.
-/

namespace Sys2Proof.Laws
open Sys2Proof Sys2Proof.Machine
theorem and_left_of {a b : Bool} (h : (a && b) = true) : a = true := by cases a <;> simp_all
theorem runs_if {i : Instr} {s u : State} {P : State → Prop} {c : Bool} {o : Host.Outcome State Fault Refusal}
    (h : exec i s = if c = true then done u else o) (hc : c = true) (p : P (settle u)) : Runs i s P :=
  ⟨_, h.trans (if_pos hc), p⟩
theorem exec_if {i : Instr} {s u : State} {c : Bool} {o : Host.Outcome State Fault Refusal}
    (h : exec i s = if c = true then done u else o) (hc : c = true) (q : u.fires = []) : exec i s = .next u := by
  rw [h, if_pos hc]; exact done_quiet q
theorem Still.fn {s t : State} (h : Still s t) (n : Nat) : fnStill (t.fn n) = fnStill (s.fn n) := by
  unfold State.fn
  split
  · simpa using congrArg (fun v => v[n]) h.fns
  · rfl
theorem Still.part {s t : State} (h : Still s t) (n : Nat) : partStill (t.part n) = partStill (s.part n) := by
  unfold State.part
  split
  · simpa using congrArg (fun v => v[n]) h.parts
  · rfl
theorem Still.port {s t : State} (h : Still s t) (n : Nat) : portStill (t.port n) = portStill (s.port n) := by
  unfold State.port
  split
  · simpa using congrArg (fun v => v[n]) h.ports
  · rfl
theorem Still.ses {s t : State} (h : Still s t) (n : Nat) : sessStill (t.ses n) = sessStill (s.ses n) := by
  unfold State.ses
  split
  · simpa using congrArg (fun v => v[n]) h.sess
  · rfl
theorem becomes {s : State} {f : Nat} {g : FnSt → FnSt} (h : f < 136) : FnBecomes s (modFn f g s) f (g (s.fn f)) :=
  ⟨fn_modFn _ _ _ h, fun _ e => fn_modFn_ne _ _ _ _ e, (modFn_only ..).weaken rfl⟩

theorem sent_grow {s t : State} {n ch op target : Nat} {wide : Bool} {p : Nat} {tag : W32} {data : List Byte} {who : ReqFor}
    (h : Sent s n ch op target wide p tag data who) (g : Grows s t) (hn : n < 8) : Sent t n ch op target wide p tag data who := by
  obtain ⟨r, h1, h2, h3⟩ := h
  obtain ⟨r', k1, k2, k3⟩ := g.asks n hn r h1
  exact ⟨r', k1, k3.trans h2, by rw [k2]; exact h3⟩
theorem ask_sent (n ch op target : Nat) (wide : Bool) (p : Nat) (tag : W32) (who : ReqFor) (data : List Byte) (s : State)
    (hn : n < 8) (hc : ch < 3) : Sent (ask n ch op target wide p tag who data s) n ch op target wide p tag data who := by
  unfold ask sendReq
  refine sent_grow ?_ (pump_grows ..) hn
  refine ⟨{ msg := s.mkReq n ch op target wide p tag data, who := who, at_ := s.t }, ?_, rfl, rfl, rfl, rfl, rfl, rfl, rfl⟩
  rw [lnk_modLnk _ _ _ (by omega)]
  have : ch = 0 ∨ ch = 1 ∨ ch = 2 := by omega
  unfold Lnk.open_
  rcases this with h | h | h <;> subst h <;> simp [State.mkReq, Lnk.setTx, Lnk.tx]
theorem each_mem_sent {α : Type} {l : List α} {g : α → State → State} (hg : ∀ a t, Grows t (g a t)) {a : α} (ha : a ∈ l)
    {P : State → Prop} (hP : ∀ s t, Grows s t → P s → P t) (h : ∀ t, P (g a t)) (s : State) : P (each l g s) := by
  induction l generalizing s with
  | nil => cases ha
  | cons b l ih =>
    rcases List.mem_cons.mp ha with e | e
    · subst e
      exact hP (g a s) (each l g (g a s)) (each_grows (.refl _) hg) (h s)
    · exact ih e _
/-- Every message of a command that is selected and in reach is with its port. -/
theorem sendParts_sent (f : Nat) (tag : W32) (p : Nat) (sel : Nat → Bool) (l : List CmdMsg) (s : State) {m : CmdMsg} {k : Nat}
    (h : (m, k) ∈ l.zipIdx) (hs : sel m.n = true) (hr : s.reachable m = true) (hn : m.n < 8) (hc : m.ch < 3) :
    Sent (sendParts f tag p sel l s) m.n m.ch m.op m.target m.wide p tag
      ((if m.changes then leBytes 4 k else []) ++ m.body) (.cmd f tag m.unit k) := by
  unfold sendParts
  dsimp only
  generalize modWork f tag _ s = u
  refine each_mem_sent (a := (m, k)) (P := fun t => Sent t m.n m.ch m.op m.target m.wide p tag
      ((if m.changes then leBytes 4 k else []) ++ m.body) (.cmd f tag m.unit k)) ?_
      (List.mem_filter.mpr ⟨h, by rw [hs, hr]; rfl⟩) ?_ ?_ u
  · intro a t
    exact ask_grows ..
  · intro s t g h
    exact sent_grow h g hn
  · intro t
    exact ask_sent _ _ _ _ _ _ _ _ _ _ hn hc
theorem mem_zip {α : Type} {l : List α} {a : α} (h : a ∈ l) (k0 : Nat) : ∃ k, (a, k) ∈ l.zipIdx k0 := by
  obtain ⟨i, hi, rfl⟩ := List.mem_iff_getElem.mp h
  exact ⟨k0 + i, List.mk_add_mem_zipIdx_iff_getElem?.mpr (by simp [hi])⟩
theorem checked_eq {f : Nat} {tag : W32} {k : Cmd → State → State} {c : Cmd} {s : State} (h : s.unitCheck f c = none) :
    checked f tag k c s = k c s := by unfold checked; rw [h]
theorem starts_eq {s : State} {f op : Nat} {tag : W32} {c : Cmd} (k : Cmd → State → State) (h : Starts s f tag op c) :
    startCmd op f tag (checked f tag k) s = k { c with started := true } (started f tag s) := by
  rw [startCmd_eq _ h.toWaits, checked_eq h.checks]
theorem sendParts_for {f : Nat} {tag : W32} {p : Nat} {sel : Nat → Bool} {l : List CmdMsg} {s : State} {m : CmdMsg} (h : m ∈ l)
    (hs : sel m.n = true) (hr : s.reachable m = true) (hn : m.n < 8) (hc : m.ch < 3) : SentFor (sendParts f tag p sel l s) f tag p m := by
  obtain ⟨k, hk⟩ := mem_zip h 0
  exact ⟨k, sendParts_sent f tag p sel l s hk hs hr hn hc⟩
theorem SentFor_grow {s t : State} {f : Nat} {tag : W32} {p : Nat} {m : CmdMsg} (h : SentFor s f tag p m) (g : Grows s t) (hn : m.n < 8) :
    SentFor t f tag p m := by
  obtain ⟨k, hk⟩ := h
  exact ⟨k, sent_grow hk g hn⟩
theorem targets_started (s : State) (f : Nat) (tag : W32) (c : Cmd) (w : Bool) :
    (started f tag s).targets { c with started := true } w = s.targets c w := by
  obtain ⟨v, h⟩ := started_frame f tag s
  rw [h]
  rfl
theorem memLength_started (s : State) (f : Nat) (tag : W32) (c : Cmd) :
    (started f tag s).memLength { c with started := true } = s.memLength c := by
  obtain ⟨v, h⟩ := started_frame f tag s
  rw [h]
  rfl
end Sys2Proof.Laws
end

