-- ==== Sys2Proof/Laws/State.lean ====
section
/-!
SUPPORT. One lemma for each field that an update of State leaves as it was.
-/

namespace Sys2Proof.Laws
open Sys2Proof Sys2Proof.Machine

@[simp] theorem emit_pending (o : Out) (s : State) : (emit o s).pending = s.pending := rfl
@[simp] theorem emit_now (o : Out) (s : State) : (emit o s).now = s.now := rfl
@[simp] theorem emit_id (o : Out) (s : State) : (emit o s).id = s.id := rfl
@[simp] theorem emit_pins (o : Out) (s : State) : (emit o s).pins = s.pins := rfl
@[simp] theorem emit_clk (o : Out) (s : State) : (emit o s).clk = s.clk := rfl
@[simp] theorem emit_straps (o : Out) (s : State) : (emit o s).straps = s.straps := rfl
@[simp] theorem emit_boot (o : Out) (s : State) : (emit o s).boot = s.boot := rfl
@[simp] theorem emit_lcy (o : Out) (s : State) : (emit o s).lcy = s.lcy := rfl
@[simp] theorem emit_tap (o : Out) (s : State) : (emit o s).tap = s.tap := rfl
@[simp] theorem emit_tapLatches (o : Out) (s : State) : (emit o s).tapLatches = s.tapLatches := rfl
@[simp] theorem emit_weave (o : Out) (s : State) : (emit o s).weave = s.weave := rfl
@[simp] theorem emit_hosts (o : Out) (s : State) : (emit o s).hosts = s.hosts := rfl
@[simp] theorem emit_fns (o : Out) (s : State) : (emit o s).fns = s.fns := rfl
@[simp] theorem emit_sess (o : Out) (s : State) : (emit o s).sess = s.sess := rfl
@[simp] theorem emit_billing (o : Out) (s : State) : (emit o s).billing = s.billing := rfl
@[simp] theorem emit_ports (o : Out) (s : State) : (emit o s).ports = s.ports := rfl
@[simp] theorem emit_units (o : Out) (s : State) : (emit o s).units = s.units := rfl
@[simp] theorem emit_parts (o : Out) (s : State) : (emit o s).parts = s.parts := rfl
@[simp] theorem emit_xtrigOut (o : Out) (s : State) : (emit o s).xtrigOut = s.xtrigOut := rfl
@[simp] theorem emit_slath (o : Out) (s : State) : (emit o s).slath = s.slath := rfl
@[simp] theorem emit_hang (o : Out) (s : State) : (emit o s).hang = s.hang := rfl
@[simp] theorem emit_wale (o : Out) (s : State) : (emit o s).wale = s.wale := rfl
@[simp] theorem emit_always (o : Out) (s : State) : (emit o s).always = s.always := rfl
@[simp] theorem emit_osier (o : Out) (s : State) : (emit o s).osier = s.osier := rfl
@[simp] theorem emit_plait (o : Out) (s : State) : (emit o s).plait = s.plait := rfl
@[simp] theorem emit_err (o : Out) (s : State) : (emit o s).err = s.err := rfl
@[simp] theorem emit_mem (o : Out) (s : State) : (emit o s).mem = s.mem := rfl
@[simp] theorem emit_fires (o : Out) (s : State) : (emit o s).fires = s.fires := rfl
@[simp] theorem emit_free (o : Out) (s : State) : (emit o s).free = s.free := rfl
@[simp] theorem nextFree_pending (s : State) : (nextFree s).pending = s.pending := rfl
@[simp] theorem nextFree_now (s : State) : (nextFree s).now = s.now := rfl
@[simp] theorem nextFree_id (s : State) : (nextFree s).id = s.id := rfl
@[simp] theorem nextFree_pins (s : State) : (nextFree s).pins = s.pins := rfl
@[simp] theorem nextFree_clk (s : State) : (nextFree s).clk = s.clk := rfl
@[simp] theorem nextFree_straps (s : State) : (nextFree s).straps = s.straps := rfl
@[simp] theorem nextFree_boot (s : State) : (nextFree s).boot = s.boot := rfl
@[simp] theorem nextFree_lcy (s : State) : (nextFree s).lcy = s.lcy := rfl
@[simp] theorem nextFree_tap (s : State) : (nextFree s).tap = s.tap := rfl
@[simp] theorem nextFree_tapLatches (s : State) : (nextFree s).tapLatches = s.tapLatches := rfl
@[simp] theorem nextFree_weave (s : State) : (nextFree s).weave = s.weave := rfl
@[simp] theorem nextFree_hosts (s : State) : (nextFree s).hosts = s.hosts := rfl
@[simp] theorem nextFree_fns (s : State) : (nextFree s).fns = s.fns := rfl
@[simp] theorem nextFree_sess (s : State) : (nextFree s).sess = s.sess := rfl
@[simp] theorem nextFree_billing (s : State) : (nextFree s).billing = s.billing := rfl
@[simp] theorem nextFree_ports (s : State) : (nextFree s).ports = s.ports := rfl
@[simp] theorem nextFree_units (s : State) : (nextFree s).units = s.units := rfl
@[simp] theorem nextFree_parts (s : State) : (nextFree s).parts = s.parts := rfl
@[simp] theorem nextFree_xtrigOut (s : State) : (nextFree s).xtrigOut = s.xtrigOut := rfl
@[simp] theorem nextFree_slath (s : State) : (nextFree s).slath = s.slath := rfl
@[simp] theorem nextFree_hang (s : State) : (nextFree s).hang = s.hang := rfl
@[simp] theorem nextFree_wale (s : State) : (nextFree s).wale = s.wale := rfl
@[simp] theorem nextFree_always (s : State) : (nextFree s).always = s.always := rfl
@[simp] theorem nextFree_osier (s : State) : (nextFree s).osier = s.osier := rfl
@[simp] theorem nextFree_plait (s : State) : (nextFree s).plait = s.plait := rfl
@[simp] theorem nextFree_err (s : State) : (nextFree s).err = s.err := rfl
@[simp] theorem nextFree_mem (s : State) : (nextFree s).mem = s.mem := rfl
@[simp] theorem nextFree_out (s : State) : (nextFree s).out = s.out := rfl
@[simp] theorem nextFree_fires (s : State) : (nextFree s).fires = s.fires := rfl
@[simp] theorem bumpAlways_pending (i n : Nat) (s : State) : (bumpAlways i n s).pending = s.pending := rfl
@[simp] theorem bumpAlways_now (i n : Nat) (s : State) : (bumpAlways i n s).now = s.now := rfl
@[simp] theorem bumpAlways_id (i n : Nat) (s : State) : (bumpAlways i n s).id = s.id := rfl
@[simp] theorem bumpAlways_pins (i n : Nat) (s : State) : (bumpAlways i n s).pins = s.pins := rfl
@[simp] theorem bumpAlways_clk (i n : Nat) (s : State) : (bumpAlways i n s).clk = s.clk := rfl
@[simp] theorem bumpAlways_straps (i n : Nat) (s : State) : (bumpAlways i n s).straps = s.straps := rfl
@[simp] theorem bumpAlways_boot (i n : Nat) (s : State) : (bumpAlways i n s).boot = s.boot := rfl
@[simp] theorem bumpAlways_lcy (i n : Nat) (s : State) : (bumpAlways i n s).lcy = s.lcy := rfl
@[simp] theorem bumpAlways_tap (i n : Nat) (s : State) : (bumpAlways i n s).tap = s.tap := rfl
@[simp] theorem bumpAlways_tapLatches (i n : Nat) (s : State) : (bumpAlways i n s).tapLatches = s.tapLatches := rfl
@[simp] theorem bumpAlways_weave (i n : Nat) (s : State) : (bumpAlways i n s).weave = s.weave := rfl
@[simp] theorem bumpAlways_hosts (i n : Nat) (s : State) : (bumpAlways i n s).hosts = s.hosts := rfl
@[simp] theorem bumpAlways_fns (i n : Nat) (s : State) : (bumpAlways i n s).fns = s.fns := rfl
@[simp] theorem bumpAlways_sess (i n : Nat) (s : State) : (bumpAlways i n s).sess = s.sess := rfl
@[simp] theorem bumpAlways_billing (i n : Nat) (s : State) : (bumpAlways i n s).billing = s.billing := rfl
@[simp] theorem bumpAlways_ports (i n : Nat) (s : State) : (bumpAlways i n s).ports = s.ports := rfl
@[simp] theorem bumpAlways_units (i n : Nat) (s : State) : (bumpAlways i n s).units = s.units := rfl
@[simp] theorem bumpAlways_parts (i n : Nat) (s : State) : (bumpAlways i n s).parts = s.parts := rfl
@[simp] theorem bumpAlways_xtrigOut (i n : Nat) (s : State) : (bumpAlways i n s).xtrigOut = s.xtrigOut := rfl
@[simp] theorem bumpAlways_slath (i n : Nat) (s : State) : (bumpAlways i n s).slath = s.slath := rfl
@[simp] theorem bumpAlways_hang (i n : Nat) (s : State) : (bumpAlways i n s).hang = s.hang := rfl
@[simp] theorem bumpAlways_wale (i n : Nat) (s : State) : (bumpAlways i n s).wale = s.wale := rfl
@[simp] theorem bumpAlways_osier (i n : Nat) (s : State) : (bumpAlways i n s).osier = s.osier := rfl
@[simp] theorem bumpAlways_plait (i n : Nat) (s : State) : (bumpAlways i n s).plait = s.plait := rfl
@[simp] theorem bumpAlways_err (i n : Nat) (s : State) : (bumpAlways i n s).err = s.err := rfl
@[simp] theorem bumpAlways_mem (i n : Nat) (s : State) : (bumpAlways i n s).mem = s.mem := rfl
@[simp] theorem bumpAlways_out (i n : Nat) (s : State) : (bumpAlways i n s).out = s.out := rfl
@[simp] theorem bumpAlways_fires (i n : Nat) (s : State) : (bumpAlways i n s).fires = s.fires := rfl
@[simp] theorem bumpAlways_free (i n : Nat) (s : State) : (bumpAlways i n s).free = s.free := rfl
@[simp] theorem errLog_pending (a b c d e g : Nat) (s : State) : (errLog a b c d e g s).pending = s.pending := rfl
@[simp] theorem errLog_now (a b c d e g : Nat) (s : State) : (errLog a b c d e g s).now = s.now := rfl
@[simp] theorem errLog_id (a b c d e g : Nat) (s : State) : (errLog a b c d e g s).id = s.id := rfl
@[simp] theorem errLog_pins (a b c d e g : Nat) (s : State) : (errLog a b c d e g s).pins = s.pins := rfl
@[simp] theorem errLog_clk (a b c d e g : Nat) (s : State) : (errLog a b c d e g s).clk = s.clk := rfl
@[simp] theorem errLog_straps (a b c d e g : Nat) (s : State) : (errLog a b c d e g s).straps = s.straps := rfl
@[simp] theorem errLog_boot (a b c d e g : Nat) (s : State) : (errLog a b c d e g s).boot = s.boot := rfl
@[simp] theorem errLog_lcy (a b c d e g : Nat) (s : State) : (errLog a b c d e g s).lcy = s.lcy := rfl
@[simp] theorem errLog_tap (a b c d e g : Nat) (s : State) : (errLog a b c d e g s).tap = s.tap := rfl
@[simp] theorem errLog_tapLatches (a b c d e g : Nat) (s : State) : (errLog a b c d e g s).tapLatches = s.tapLatches := rfl
@[simp] theorem errLog_weave (a b c d e g : Nat) (s : State) : (errLog a b c d e g s).weave = s.weave := rfl
@[simp] theorem errLog_hosts (a b c d e g : Nat) (s : State) : (errLog a b c d e g s).hosts = s.hosts := rfl
@[simp] theorem errLog_fns (a b c d e g : Nat) (s : State) : (errLog a b c d e g s).fns = s.fns := rfl
@[simp] theorem errLog_sess (a b c d e g : Nat) (s : State) : (errLog a b c d e g s).sess = s.sess := rfl
@[simp] theorem errLog_billing (a b c d e g : Nat) (s : State) : (errLog a b c d e g s).billing = s.billing := rfl
@[simp] theorem errLog_ports (a b c d e g : Nat) (s : State) : (errLog a b c d e g s).ports = s.ports := rfl
@[simp] theorem errLog_units (a b c d e g : Nat) (s : State) : (errLog a b c d e g s).units = s.units := rfl
@[simp] theorem errLog_parts (a b c d e g : Nat) (s : State) : (errLog a b c d e g s).parts = s.parts := rfl
@[simp] theorem errLog_xtrigOut (a b c d e g : Nat) (s : State) : (errLog a b c d e g s).xtrigOut = s.xtrigOut := rfl
@[simp] theorem errLog_slath (a b c d e g : Nat) (s : State) : (errLog a b c d e g s).slath = s.slath := rfl
@[simp] theorem errLog_hang (a b c d e g : Nat) (s : State) : (errLog a b c d e g s).hang = s.hang := rfl
@[simp] theorem errLog_wale (a b c d e g : Nat) (s : State) : (errLog a b c d e g s).wale = s.wale := rfl
@[simp] theorem errLog_always (a b c d e g : Nat) (s : State) : (errLog a b c d e g s).always = s.always := rfl
@[simp] theorem errLog_osier (a b c d e g : Nat) (s : State) : (errLog a b c d e g s).osier = s.osier := rfl
@[simp] theorem errLog_plait (a b c d e g : Nat) (s : State) : (errLog a b c d e g s).plait = s.plait := rfl
@[simp] theorem errLog_mem (a b c d e g : Nat) (s : State) : (errLog a b c d e g s).mem = s.mem := rfl
@[simp] theorem errLog_out (a b c d e g : Nat) (s : State) : (errLog a b c d e g s).out = s.out := rfl
@[simp] theorem errLog_fires (a b c d e g : Nat) (s : State) : (errLog a b c d e g s).fires = s.fires := rfl
@[simp] theorem errLog_free (a b c d e g : Nat) (s : State) : (errLog a b c d e g s).free = s.free := rfl
@[simp] theorem enterPhase_pending (p : Phase) (s : State) : (enterPhase p s).pending = s.pending := rfl
@[simp] theorem enterPhase_now (p : Phase) (s : State) : (enterPhase p s).now = s.now := rfl
@[simp] theorem enterPhase_id (p : Phase) (s : State) : (enterPhase p s).id = s.id := rfl
@[simp] theorem enterPhase_pins (p : Phase) (s : State) : (enterPhase p s).pins = s.pins := rfl
@[simp] theorem enterPhase_clk (p : Phase) (s : State) : (enterPhase p s).clk = s.clk := rfl
@[simp] theorem enterPhase_straps (p : Phase) (s : State) : (enterPhase p s).straps = s.straps := rfl
@[simp] theorem enterPhase_lcy (p : Phase) (s : State) : (enterPhase p s).lcy = s.lcy := rfl
@[simp] theorem enterPhase_tap (p : Phase) (s : State) : (enterPhase p s).tap = s.tap := rfl
@[simp] theorem enterPhase_tapLatches (p : Phase) (s : State) : (enterPhase p s).tapLatches = s.tapLatches := rfl
@[simp] theorem enterPhase_weave (p : Phase) (s : State) : (enterPhase p s).weave = s.weave := rfl
@[simp] theorem enterPhase_hosts (p : Phase) (s : State) : (enterPhase p s).hosts = s.hosts := rfl
@[simp] theorem enterPhase_fns (p : Phase) (s : State) : (enterPhase p s).fns = s.fns := rfl
@[simp] theorem enterPhase_sess (p : Phase) (s : State) : (enterPhase p s).sess = s.sess := rfl
@[simp] theorem enterPhase_billing (p : Phase) (s : State) : (enterPhase p s).billing = s.billing := rfl
@[simp] theorem enterPhase_ports (p : Phase) (s : State) : (enterPhase p s).ports = s.ports := rfl
@[simp] theorem enterPhase_units (p : Phase) (s : State) : (enterPhase p s).units = s.units := rfl
@[simp] theorem enterPhase_parts (p : Phase) (s : State) : (enterPhase p s).parts = s.parts := rfl
@[simp] theorem enterPhase_xtrigOut (p : Phase) (s : State) : (enterPhase p s).xtrigOut = s.xtrigOut := rfl
@[simp] theorem enterPhase_slath (p : Phase) (s : State) : (enterPhase p s).slath = s.slath := rfl
@[simp] theorem enterPhase_hang (p : Phase) (s : State) : (enterPhase p s).hang = s.hang := rfl
@[simp] theorem enterPhase_wale (p : Phase) (s : State) : (enterPhase p s).wale = s.wale := rfl
@[simp] theorem enterPhase_always (p : Phase) (s : State) : (enterPhase p s).always = s.always := rfl
@[simp] theorem enterPhase_osier (p : Phase) (s : State) : (enterPhase p s).osier = s.osier := rfl
@[simp] theorem enterPhase_plait (p : Phase) (s : State) : (enterPhase p s).plait = s.plait := rfl
@[simp] theorem enterPhase_err (p : Phase) (s : State) : (enterPhase p s).err = s.err := rfl
@[simp] theorem enterPhase_mem (p : Phase) (s : State) : (enterPhase p s).mem = s.mem := rfl
@[simp] theorem enterPhase_out (p : Phase) (s : State) : (enterPhase p s).out = s.out := rfl
@[simp] theorem enterPhase_fires (p : Phase) (s : State) : (enterPhase p s).fires = s.fires := rfl
@[simp] theorem enterPhase_free (p : Phase) (s : State) : (enterPhase p s).free = s.free := rfl
@[simp] theorem selectIr_pending (k : Nat) (s : State) : (selectIr k s).pending = s.pending := rfl
@[simp] theorem selectIr_now (k : Nat) (s : State) : (selectIr k s).now = s.now := rfl
@[simp] theorem selectIr_id (k : Nat) (s : State) : (selectIr k s).id = s.id := rfl
@[simp] theorem selectIr_pins (k : Nat) (s : State) : (selectIr k s).pins = s.pins := rfl
@[simp] theorem selectIr_clk (k : Nat) (s : State) : (selectIr k s).clk = s.clk := rfl
@[simp] theorem selectIr_straps (k : Nat) (s : State) : (selectIr k s).straps = s.straps := rfl
@[simp] theorem selectIr_boot (k : Nat) (s : State) : (selectIr k s).boot = s.boot := rfl
@[simp] theorem selectIr_lcy (k : Nat) (s : State) : (selectIr k s).lcy = s.lcy := rfl
@[simp] theorem selectIr_tapLatches (k : Nat) (s : State) : (selectIr k s).tapLatches = s.tapLatches := rfl
@[simp] theorem selectIr_weave (k : Nat) (s : State) : (selectIr k s).weave = s.weave := rfl
@[simp] theorem selectIr_hosts (k : Nat) (s : State) : (selectIr k s).hosts = s.hosts := rfl
@[simp] theorem selectIr_fns (k : Nat) (s : State) : (selectIr k s).fns = s.fns := rfl
@[simp] theorem selectIr_sess (k : Nat) (s : State) : (selectIr k s).sess = s.sess := rfl
@[simp] theorem selectIr_billing (k : Nat) (s : State) : (selectIr k s).billing = s.billing := rfl
@[simp] theorem selectIr_ports (k : Nat) (s : State) : (selectIr k s).ports = s.ports := rfl
@[simp] theorem selectIr_units (k : Nat) (s : State) : (selectIr k s).units = s.units := rfl
@[simp] theorem selectIr_parts (k : Nat) (s : State) : (selectIr k s).parts = s.parts := rfl
@[simp] theorem selectIr_xtrigOut (k : Nat) (s : State) : (selectIr k s).xtrigOut = s.xtrigOut := rfl
@[simp] theorem selectIr_slath (k : Nat) (s : State) : (selectIr k s).slath = s.slath := rfl
@[simp] theorem selectIr_hang (k : Nat) (s : State) : (selectIr k s).hang = s.hang := rfl
@[simp] theorem selectIr_wale (k : Nat) (s : State) : (selectIr k s).wale = s.wale := rfl
@[simp] theorem selectIr_always (k : Nat) (s : State) : (selectIr k s).always = s.always := rfl
@[simp] theorem selectIr_osier (k : Nat) (s : State) : (selectIr k s).osier = s.osier := rfl
@[simp] theorem selectIr_plait (k : Nat) (s : State) : (selectIr k s).plait = s.plait := rfl
@[simp] theorem selectIr_err (k : Nat) (s : State) : (selectIr k s).err = s.err := rfl
@[simp] theorem selectIr_mem (k : Nat) (s : State) : (selectIr k s).mem = s.mem := rfl
@[simp] theorem selectIr_out (k : Nat) (s : State) : (selectIr k s).out = s.out := rfl
@[simp] theorem selectIr_fires (k : Nat) (s : State) : (selectIr k s).fires = s.fires := rfl
@[simp] theorem selectIr_free (k : Nat) (s : State) : (selectIr k s).free = s.free := rfl
@[simp] theorem startBurn_pending (b : Burn) (s : State) : (startBurn b s).pending = s.pending := rfl
@[simp] theorem startBurn_now (b : Burn) (s : State) : (startBurn b s).now = s.now := rfl
@[simp] theorem startBurn_id (b : Burn) (s : State) : (startBurn b s).id = s.id := rfl
@[simp] theorem startBurn_pins (b : Burn) (s : State) : (startBurn b s).pins = s.pins := rfl
@[simp] theorem startBurn_clk (b : Burn) (s : State) : (startBurn b s).clk = s.clk := rfl
@[simp] theorem startBurn_straps (b : Burn) (s : State) : (startBurn b s).straps = s.straps := rfl
@[simp] theorem startBurn_boot (b : Burn) (s : State) : (startBurn b s).boot = s.boot := rfl
@[simp] theorem startBurn_tap (b : Burn) (s : State) : (startBurn b s).tap = s.tap := rfl
@[simp] theorem startBurn_tapLatches (b : Burn) (s : State) : (startBurn b s).tapLatches = s.tapLatches := rfl
@[simp] theorem startBurn_weave (b : Burn) (s : State) : (startBurn b s).weave = s.weave := rfl
@[simp] theorem startBurn_hosts (b : Burn) (s : State) : (startBurn b s).hosts = s.hosts := rfl
@[simp] theorem startBurn_fns (b : Burn) (s : State) : (startBurn b s).fns = s.fns := rfl
@[simp] theorem startBurn_sess (b : Burn) (s : State) : (startBurn b s).sess = s.sess := rfl
@[simp] theorem startBurn_billing (b : Burn) (s : State) : (startBurn b s).billing = s.billing := rfl
@[simp] theorem startBurn_ports (b : Burn) (s : State) : (startBurn b s).ports = s.ports := rfl
@[simp] theorem startBurn_units (b : Burn) (s : State) : (startBurn b s).units = s.units := rfl
@[simp] theorem startBurn_parts (b : Burn) (s : State) : (startBurn b s).parts = s.parts := rfl
@[simp] theorem startBurn_xtrigOut (b : Burn) (s : State) : (startBurn b s).xtrigOut = s.xtrigOut := rfl
@[simp] theorem startBurn_slath (b : Burn) (s : State) : (startBurn b s).slath = s.slath := rfl
@[simp] theorem startBurn_hang (b : Burn) (s : State) : (startBurn b s).hang = s.hang := rfl
@[simp] theorem startBurn_wale (b : Burn) (s : State) : (startBurn b s).wale = s.wale := rfl
@[simp] theorem startBurn_always (b : Burn) (s : State) : (startBurn b s).always = s.always := rfl
@[simp] theorem startBurn_osier (b : Burn) (s : State) : (startBurn b s).osier = s.osier := rfl
@[simp] theorem startBurn_plait (b : Burn) (s : State) : (startBurn b s).plait = s.plait := rfl
@[simp] theorem startBurn_err (b : Burn) (s : State) : (startBurn b s).err = s.err := rfl
@[simp] theorem startBurn_mem (b : Burn) (s : State) : (startBurn b s).mem = s.mem := rfl
@[simp] theorem startBurn_out (b : Burn) (s : State) : (startBurn b s).out = s.out := rfl
@[simp] theorem startBurn_fires (b : Burn) (s : State) : (startBurn b s).fires = s.fires := rfl
@[simp] theorem startBurn_free (b : Burn) (s : State) : (startBurn b s).free = s.free := rfl
@[simp] theorem shiftOut_pending (n v : Nat) (s : State) : (shiftOut n v s).pending = s.pending := rfl
@[simp] theorem shiftOut_now (n v : Nat) (s : State) : (shiftOut n v s).now = s.now := rfl
@[simp] theorem shiftOut_id (n v : Nat) (s : State) : (shiftOut n v s).id = s.id := rfl
@[simp] theorem shiftOut_pins (n v : Nat) (s : State) : (shiftOut n v s).pins = s.pins := rfl
@[simp] theorem shiftOut_clk (n v : Nat) (s : State) : (shiftOut n v s).clk = s.clk := rfl
@[simp] theorem shiftOut_straps (n v : Nat) (s : State) : (shiftOut n v s).straps = s.straps := rfl
@[simp] theorem shiftOut_boot (n v : Nat) (s : State) : (shiftOut n v s).boot = s.boot := rfl
@[simp] theorem shiftOut_lcy (n v : Nat) (s : State) : (shiftOut n v s).lcy = s.lcy := rfl
@[simp] theorem shiftOut_tap (n v : Nat) (s : State) : (shiftOut n v s).tap = s.tap := rfl
@[simp] theorem shiftOut_tapLatches (n v : Nat) (s : State) : (shiftOut n v s).tapLatches = s.tapLatches := rfl
@[simp] theorem shiftOut_weave (n v : Nat) (s : State) : (shiftOut n v s).weave = s.weave := rfl
@[simp] theorem shiftOut_hosts (n v : Nat) (s : State) : (shiftOut n v s).hosts = s.hosts := rfl
@[simp] theorem shiftOut_fns (n v : Nat) (s : State) : (shiftOut n v s).fns = s.fns := rfl
@[simp] theorem shiftOut_sess (n v : Nat) (s : State) : (shiftOut n v s).sess = s.sess := rfl
@[simp] theorem shiftOut_billing (n v : Nat) (s : State) : (shiftOut n v s).billing = s.billing := rfl
@[simp] theorem shiftOut_ports (n v : Nat) (s : State) : (shiftOut n v s).ports = s.ports := rfl
@[simp] theorem shiftOut_units (n v : Nat) (s : State) : (shiftOut n v s).units = s.units := rfl
@[simp] theorem shiftOut_parts (n v : Nat) (s : State) : (shiftOut n v s).parts = s.parts := rfl
@[simp] theorem shiftOut_xtrigOut (n v : Nat) (s : State) : (shiftOut n v s).xtrigOut = s.xtrigOut := rfl
@[simp] theorem shiftOut_slath (n v : Nat) (s : State) : (shiftOut n v s).slath = s.slath := rfl
@[simp] theorem shiftOut_hang (n v : Nat) (s : State) : (shiftOut n v s).hang = s.hang := rfl
@[simp] theorem shiftOut_wale (n v : Nat) (s : State) : (shiftOut n v s).wale = s.wale := rfl
@[simp] theorem shiftOut_always (n v : Nat) (s : State) : (shiftOut n v s).always = s.always := rfl
@[simp] theorem shiftOut_osier (n v : Nat) (s : State) : (shiftOut n v s).osier = s.osier := rfl
@[simp] theorem shiftOut_plait (n v : Nat) (s : State) : (shiftOut n v s).plait = s.plait := rfl
@[simp] theorem shiftOut_err (n v : Nat) (s : State) : (shiftOut n v s).err = s.err := rfl
@[simp] theorem shiftOut_mem (n v : Nat) (s : State) : (shiftOut n v s).mem = s.mem := rfl
@[simp] theorem shiftOut_fires (n v : Nat) (s : State) : (shiftOut n v s).fires = s.fires := rfl
@[simp] theorem shiftOut_free (n v : Nat) (s : State) : (shiftOut n v s).free = s.free := rfl
@[simp] theorem emit_out (o : Out) (s : State) : (emit o s).out = s.out ++ [o] := rfl
@[simp] theorem nextFree_free (s : State) : (nextFree s).free = s.free + 1 := rfl
@[simp] theorem enterPhase_boot (p : Phase) (s : State) : (enterPhase p s).boot = { s.boot with phase := p } := rfl
@[simp] theorem startBurn_lcy (b : Burn) (s : State) : (startBurn b s).lcy = { s.lcy with burn := some b } := rfl
@[simp] theorem selectIr_tap (k : Nat) (s : State) :
    (selectIr k s).tap = { s.tap with ir := BitVec.ofNat 8 k, extest := false } := rfl
@[simp] theorem modFn_pending (n : Nat) (g : FnSt → FnSt) (s : State) : (modFn n g s).pending = s.pending := by
  unfold modFn; split <;> rfl
@[simp] theorem modFn_now (n : Nat) (g : FnSt → FnSt) (s : State) : (modFn n g s).now = s.now := by
  unfold modFn; split <;> rfl
@[simp] theorem modFn_id (n : Nat) (g : FnSt → FnSt) (s : State) : (modFn n g s).id = s.id := by
  unfold modFn; split <;> rfl
@[simp] theorem modFn_pins (n : Nat) (g : FnSt → FnSt) (s : State) : (modFn n g s).pins = s.pins := by
  unfold modFn; split <;> rfl
@[simp] theorem modFn_clk (n : Nat) (g : FnSt → FnSt) (s : State) : (modFn n g s).clk = s.clk := by
  unfold modFn; split <;> rfl
@[simp] theorem modFn_straps (n : Nat) (g : FnSt → FnSt) (s : State) : (modFn n g s).straps = s.straps := by
  unfold modFn; split <;> rfl
@[simp] theorem modFn_boot (n : Nat) (g : FnSt → FnSt) (s : State) : (modFn n g s).boot = s.boot := by
  unfold modFn; split <;> rfl
@[simp] theorem modFn_lcy (n : Nat) (g : FnSt → FnSt) (s : State) : (modFn n g s).lcy = s.lcy := by
  unfold modFn; split <;> rfl
@[simp] theorem modFn_tap (n : Nat) (g : FnSt → FnSt) (s : State) : (modFn n g s).tap = s.tap := by
  unfold modFn; split <;> rfl
@[simp] theorem modFn_tapLatches (n : Nat) (g : FnSt → FnSt) (s : State) : (modFn n g s).tapLatches = s.tapLatches := by
  unfold modFn; split <;> rfl
@[simp] theorem modFn_weave (n : Nat) (g : FnSt → FnSt) (s : State) : (modFn n g s).weave = s.weave := by
  unfold modFn; split <;> rfl
@[simp] theorem modFn_hosts (n : Nat) (g : FnSt → FnSt) (s : State) : (modFn n g s).hosts = s.hosts := by
  unfold modFn; split <;> rfl
@[simp] theorem modFn_sess (n : Nat) (g : FnSt → FnSt) (s : State) : (modFn n g s).sess = s.sess := by
  unfold modFn; split <;> rfl
@[simp] theorem modFn_billing (n : Nat) (g : FnSt → FnSt) (s : State) : (modFn n g s).billing = s.billing := by
  unfold modFn; split <;> rfl
@[simp] theorem modFn_ports (n : Nat) (g : FnSt → FnSt) (s : State) : (modFn n g s).ports = s.ports := by
  unfold modFn; split <;> rfl
@[simp] theorem modFn_units (n : Nat) (g : FnSt → FnSt) (s : State) : (modFn n g s).units = s.units := by
  unfold modFn; split <;> rfl
@[simp] theorem modFn_parts (n : Nat) (g : FnSt → FnSt) (s : State) : (modFn n g s).parts = s.parts := by
  unfold modFn; split <;> rfl
@[simp] theorem modFn_xtrigOut (n : Nat) (g : FnSt → FnSt) (s : State) : (modFn n g s).xtrigOut = s.xtrigOut := by
  unfold modFn; split <;> rfl
@[simp] theorem modFn_slath (n : Nat) (g : FnSt → FnSt) (s : State) : (modFn n g s).slath = s.slath := by
  unfold modFn; split <;> rfl
@[simp] theorem modFn_hang (n : Nat) (g : FnSt → FnSt) (s : State) : (modFn n g s).hang = s.hang := by
  unfold modFn; split <;> rfl
@[simp] theorem modFn_wale (n : Nat) (g : FnSt → FnSt) (s : State) : (modFn n g s).wale = s.wale := by
  unfold modFn; split <;> rfl
@[simp] theorem modFn_always (n : Nat) (g : FnSt → FnSt) (s : State) : (modFn n g s).always = s.always := by
  unfold modFn; split <;> rfl
@[simp] theorem modFn_osier (n : Nat) (g : FnSt → FnSt) (s : State) : (modFn n g s).osier = s.osier := by
  unfold modFn; split <;> rfl
@[simp] theorem modFn_plait (n : Nat) (g : FnSt → FnSt) (s : State) : (modFn n g s).plait = s.plait := by
  unfold modFn; split <;> rfl
@[simp] theorem modFn_err (n : Nat) (g : FnSt → FnSt) (s : State) : (modFn n g s).err = s.err := by
  unfold modFn; split <;> rfl
@[simp] theorem modFn_mem (n : Nat) (g : FnSt → FnSt) (s : State) : (modFn n g s).mem = s.mem := by
  unfold modFn; split <;> rfl
@[simp] theorem modFn_out (n : Nat) (g : FnSt → FnSt) (s : State) : (modFn n g s).out = s.out := by
  unfold modFn; split <;> rfl
@[simp] theorem modFn_fires (n : Nat) (g : FnSt → FnSt) (s : State) : (modFn n g s).fires = s.fires := by
  unfold modFn; split <;> rfl
@[simp] theorem modFn_free (n : Nat) (g : FnSt → FnSt) (s : State) : (modFn n g s).free = s.free := by
  unfold modFn; split <;> rfl
@[simp] theorem modPart_pending (n : Nat) (g : PartSt → PartSt) (s : State) : (modPart n g s).pending = s.pending := by
  unfold modPart; split <;> rfl
@[simp] theorem modPart_now (n : Nat) (g : PartSt → PartSt) (s : State) : (modPart n g s).now = s.now := by
  unfold modPart; split <;> rfl
@[simp] theorem modPart_id (n : Nat) (g : PartSt → PartSt) (s : State) : (modPart n g s).id = s.id := by
  unfold modPart; split <;> rfl
@[simp] theorem modPart_pins (n : Nat) (g : PartSt → PartSt) (s : State) : (modPart n g s).pins = s.pins := by
  unfold modPart; split <;> rfl
@[simp] theorem modPart_clk (n : Nat) (g : PartSt → PartSt) (s : State) : (modPart n g s).clk = s.clk := by
  unfold modPart; split <;> rfl
@[simp] theorem modPart_straps (n : Nat) (g : PartSt → PartSt) (s : State) : (modPart n g s).straps = s.straps := by
  unfold modPart; split <;> rfl
@[simp] theorem modPart_boot (n : Nat) (g : PartSt → PartSt) (s : State) : (modPart n g s).boot = s.boot := by
  unfold modPart; split <;> rfl
@[simp] theorem modPart_lcy (n : Nat) (g : PartSt → PartSt) (s : State) : (modPart n g s).lcy = s.lcy := by
  unfold modPart; split <;> rfl
@[simp] theorem modPart_tap (n : Nat) (g : PartSt → PartSt) (s : State) : (modPart n g s).tap = s.tap := by
  unfold modPart; split <;> rfl
@[simp] theorem modPart_tapLatches (n : Nat) (g : PartSt → PartSt) (s : State) : (modPart n g s).tapLatches = s.tapLatches := by
  unfold modPart; split <;> rfl
@[simp] theorem modPart_weave (n : Nat) (g : PartSt → PartSt) (s : State) : (modPart n g s).weave = s.weave := by
  unfold modPart; split <;> rfl
@[simp] theorem modPart_hosts (n : Nat) (g : PartSt → PartSt) (s : State) : (modPart n g s).hosts = s.hosts := by
  unfold modPart; split <;> rfl
@[simp] theorem modPart_fns (n : Nat) (g : PartSt → PartSt) (s : State) : (modPart n g s).fns = s.fns := by
  unfold modPart; split <;> rfl
@[simp] theorem modPart_sess (n : Nat) (g : PartSt → PartSt) (s : State) : (modPart n g s).sess = s.sess := by
  unfold modPart; split <;> rfl
@[simp] theorem modPart_billing (n : Nat) (g : PartSt → PartSt) (s : State) : (modPart n g s).billing = s.billing := by
  unfold modPart; split <;> rfl
@[simp] theorem modPart_ports (n : Nat) (g : PartSt → PartSt) (s : State) : (modPart n g s).ports = s.ports := by
  unfold modPart; split <;> rfl
@[simp] theorem modPart_units (n : Nat) (g : PartSt → PartSt) (s : State) : (modPart n g s).units = s.units := by
  unfold modPart; split <;> rfl
@[simp] theorem modPart_xtrigOut (n : Nat) (g : PartSt → PartSt) (s : State) : (modPart n g s).xtrigOut = s.xtrigOut := by
  unfold modPart; split <;> rfl
@[simp] theorem modPart_slath (n : Nat) (g : PartSt → PartSt) (s : State) : (modPart n g s).slath = s.slath := by
  unfold modPart; split <;> rfl
@[simp] theorem modPart_hang (n : Nat) (g : PartSt → PartSt) (s : State) : (modPart n g s).hang = s.hang := by
  unfold modPart; split <;> rfl
@[simp] theorem modPart_wale (n : Nat) (g : PartSt → PartSt) (s : State) : (modPart n g s).wale = s.wale := by
  unfold modPart; split <;> rfl
@[simp] theorem modPart_always (n : Nat) (g : PartSt → PartSt) (s : State) : (modPart n g s).always = s.always := by
  unfold modPart; split <;> rfl
@[simp] theorem modPart_osier (n : Nat) (g : PartSt → PartSt) (s : State) : (modPart n g s).osier = s.osier := by
  unfold modPart; split <;> rfl
@[simp] theorem modPart_plait (n : Nat) (g : PartSt → PartSt) (s : State) : (modPart n g s).plait = s.plait := by
  unfold modPart; split <;> rfl
@[simp] theorem modPart_err (n : Nat) (g : PartSt → PartSt) (s : State) : (modPart n g s).err = s.err := by
  unfold modPart; split <;> rfl
@[simp] theorem modPart_mem (n : Nat) (g : PartSt → PartSt) (s : State) : (modPart n g s).mem = s.mem := by
  unfold modPart; split <;> rfl
@[simp] theorem modPart_out (n : Nat) (g : PartSt → PartSt) (s : State) : (modPart n g s).out = s.out := by
  unfold modPart; split <;> rfl
@[simp] theorem modPart_fires (n : Nat) (g : PartSt → PartSt) (s : State) : (modPart n g s).fires = s.fires := by
  unfold modPart; split <;> rfl
@[simp] theorem modPart_free (n : Nat) (g : PartSt → PartSt) (s : State) : (modPart n g s).free = s.free := by
  unfold modPart; split <;> rfl
@[simp] theorem modPort_pending (n : Nat) (g : PortSt → PortSt) (s : State) : (modPort n g s).pending = s.pending := by
  unfold modPort; split <;> rfl
@[simp] theorem modPort_now (n : Nat) (g : PortSt → PortSt) (s : State) : (modPort n g s).now = s.now := by
  unfold modPort; split <;> rfl
@[simp] theorem modPort_id (n : Nat) (g : PortSt → PortSt) (s : State) : (modPort n g s).id = s.id := by
  unfold modPort; split <;> rfl
@[simp] theorem modPort_pins (n : Nat) (g : PortSt → PortSt) (s : State) : (modPort n g s).pins = s.pins := by
  unfold modPort; split <;> rfl
@[simp] theorem modPort_clk (n : Nat) (g : PortSt → PortSt) (s : State) : (modPort n g s).clk = s.clk := by
  unfold modPort; split <;> rfl
@[simp] theorem modPort_straps (n : Nat) (g : PortSt → PortSt) (s : State) : (modPort n g s).straps = s.straps := by
  unfold modPort; split <;> rfl
@[simp] theorem modPort_boot (n : Nat) (g : PortSt → PortSt) (s : State) : (modPort n g s).boot = s.boot := by
  unfold modPort; split <;> rfl
@[simp] theorem modPort_lcy (n : Nat) (g : PortSt → PortSt) (s : State) : (modPort n g s).lcy = s.lcy := by
  unfold modPort; split <;> rfl
@[simp] theorem modPort_tap (n : Nat) (g : PortSt → PortSt) (s : State) : (modPort n g s).tap = s.tap := by
  unfold modPort; split <;> rfl
@[simp] theorem modPort_tapLatches (n : Nat) (g : PortSt → PortSt) (s : State) : (modPort n g s).tapLatches = s.tapLatches := by
  unfold modPort; split <;> rfl
@[simp] theorem modPort_weave (n : Nat) (g : PortSt → PortSt) (s : State) : (modPort n g s).weave = s.weave := by
  unfold modPort; split <;> rfl
@[simp] theorem modPort_hosts (n : Nat) (g : PortSt → PortSt) (s : State) : (modPort n g s).hosts = s.hosts := by
  unfold modPort; split <;> rfl
@[simp] theorem modPort_fns (n : Nat) (g : PortSt → PortSt) (s : State) : (modPort n g s).fns = s.fns := by
  unfold modPort; split <;> rfl
@[simp] theorem modPort_sess (n : Nat) (g : PortSt → PortSt) (s : State) : (modPort n g s).sess = s.sess := by
  unfold modPort; split <;> rfl
@[simp] theorem modPort_billing (n : Nat) (g : PortSt → PortSt) (s : State) : (modPort n g s).billing = s.billing := by
  unfold modPort; split <;> rfl
@[simp] theorem modPort_units (n : Nat) (g : PortSt → PortSt) (s : State) : (modPort n g s).units = s.units := by
  unfold modPort; split <;> rfl
@[simp] theorem modPort_parts (n : Nat) (g : PortSt → PortSt) (s : State) : (modPort n g s).parts = s.parts := by
  unfold modPort; split <;> rfl
@[simp] theorem modPort_xtrigOut (n : Nat) (g : PortSt → PortSt) (s : State) : (modPort n g s).xtrigOut = s.xtrigOut := by
  unfold modPort; split <;> rfl
@[simp] theorem modPort_slath (n : Nat) (g : PortSt → PortSt) (s : State) : (modPort n g s).slath = s.slath := by
  unfold modPort; split <;> rfl
@[simp] theorem modPort_hang (n : Nat) (g : PortSt → PortSt) (s : State) : (modPort n g s).hang = s.hang := by
  unfold modPort; split <;> rfl
@[simp] theorem modPort_wale (n : Nat) (g : PortSt → PortSt) (s : State) : (modPort n g s).wale = s.wale := by
  unfold modPort; split <;> rfl
@[simp] theorem modPort_always (n : Nat) (g : PortSt → PortSt) (s : State) : (modPort n g s).always = s.always := by
  unfold modPort; split <;> rfl
@[simp] theorem modPort_osier (n : Nat) (g : PortSt → PortSt) (s : State) : (modPort n g s).osier = s.osier := by
  unfold modPort; split <;> rfl
@[simp] theorem modPort_plait (n : Nat) (g : PortSt → PortSt) (s : State) : (modPort n g s).plait = s.plait := by
  unfold modPort; split <;> rfl
@[simp] theorem modPort_err (n : Nat) (g : PortSt → PortSt) (s : State) : (modPort n g s).err = s.err := by
  unfold modPort; split <;> rfl
@[simp] theorem modPort_mem (n : Nat) (g : PortSt → PortSt) (s : State) : (modPort n g s).mem = s.mem := by
  unfold modPort; split <;> rfl
@[simp] theorem modPort_out (n : Nat) (g : PortSt → PortSt) (s : State) : (modPort n g s).out = s.out := by
  unfold modPort; split <;> rfl
@[simp] theorem modPort_fires (n : Nat) (g : PortSt → PortSt) (s : State) : (modPort n g s).fires = s.fires := by
  unfold modPort; split <;> rfl
@[simp] theorem modPort_free (n : Nat) (g : PortSt → PortSt) (s : State) : (modPort n g s).free = s.free := by
  unfold modPort; split <;> rfl
@[simp] theorem modSess_pending (n : Nat) (g : SessSt → SessSt) (s : State) : (modSess n g s).pending = s.pending := by
  unfold modSess; split <;> rfl
@[simp] theorem modSess_now (n : Nat) (g : SessSt → SessSt) (s : State) : (modSess n g s).now = s.now := by
  unfold modSess; split <;> rfl
@[simp] theorem modSess_id (n : Nat) (g : SessSt → SessSt) (s : State) : (modSess n g s).id = s.id := by
  unfold modSess; split <;> rfl
@[simp] theorem modSess_pins (n : Nat) (g : SessSt → SessSt) (s : State) : (modSess n g s).pins = s.pins := by
  unfold modSess; split <;> rfl
@[simp] theorem modSess_clk (n : Nat) (g : SessSt → SessSt) (s : State) : (modSess n g s).clk = s.clk := by
  unfold modSess; split <;> rfl
@[simp] theorem modSess_straps (n : Nat) (g : SessSt → SessSt) (s : State) : (modSess n g s).straps = s.straps := by
  unfold modSess; split <;> rfl
@[simp] theorem modSess_boot (n : Nat) (g : SessSt → SessSt) (s : State) : (modSess n g s).boot = s.boot := by
  unfold modSess; split <;> rfl
@[simp] theorem modSess_lcy (n : Nat) (g : SessSt → SessSt) (s : State) : (modSess n g s).lcy = s.lcy := by
  unfold modSess; split <;> rfl
@[simp] theorem modSess_tap (n : Nat) (g : SessSt → SessSt) (s : State) : (modSess n g s).tap = s.tap := by
  unfold modSess; split <;> rfl
@[simp] theorem modSess_tapLatches (n : Nat) (g : SessSt → SessSt) (s : State) : (modSess n g s).tapLatches = s.tapLatches := by
  unfold modSess; split <;> rfl
@[simp] theorem modSess_weave (n : Nat) (g : SessSt → SessSt) (s : State) : (modSess n g s).weave = s.weave := by
  unfold modSess; split <;> rfl
@[simp] theorem modSess_hosts (n : Nat) (g : SessSt → SessSt) (s : State) : (modSess n g s).hosts = s.hosts := by
  unfold modSess; split <;> rfl
@[simp] theorem modSess_fns (n : Nat) (g : SessSt → SessSt) (s : State) : (modSess n g s).fns = s.fns := by
  unfold modSess; split <;> rfl
@[simp] theorem modSess_billing (n : Nat) (g : SessSt → SessSt) (s : State) : (modSess n g s).billing = s.billing := by
  unfold modSess; split <;> rfl
@[simp] theorem modSess_ports (n : Nat) (g : SessSt → SessSt) (s : State) : (modSess n g s).ports = s.ports := by
  unfold modSess; split <;> rfl
@[simp] theorem modSess_units (n : Nat) (g : SessSt → SessSt) (s : State) : (modSess n g s).units = s.units := by
  unfold modSess; split <;> rfl
@[simp] theorem modSess_parts (n : Nat) (g : SessSt → SessSt) (s : State) : (modSess n g s).parts = s.parts := by
  unfold modSess; split <;> rfl
@[simp] theorem modSess_xtrigOut (n : Nat) (g : SessSt → SessSt) (s : State) : (modSess n g s).xtrigOut = s.xtrigOut := by
  unfold modSess; split <;> rfl
@[simp] theorem modSess_slath (n : Nat) (g : SessSt → SessSt) (s : State) : (modSess n g s).slath = s.slath := by
  unfold modSess; split <;> rfl
@[simp] theorem modSess_hang (n : Nat) (g : SessSt → SessSt) (s : State) : (modSess n g s).hang = s.hang := by
  unfold modSess; split <;> rfl
@[simp] theorem modSess_wale (n : Nat) (g : SessSt → SessSt) (s : State) : (modSess n g s).wale = s.wale := by
  unfold modSess; split <;> rfl
@[simp] theorem modSess_always (n : Nat) (g : SessSt → SessSt) (s : State) : (modSess n g s).always = s.always := by
  unfold modSess; split <;> rfl
@[simp] theorem modSess_osier (n : Nat) (g : SessSt → SessSt) (s : State) : (modSess n g s).osier = s.osier := by
  unfold modSess; split <;> rfl
@[simp] theorem modSess_plait (n : Nat) (g : SessSt → SessSt) (s : State) : (modSess n g s).plait = s.plait := by
  unfold modSess; split <;> rfl
@[simp] theorem modSess_err (n : Nat) (g : SessSt → SessSt) (s : State) : (modSess n g s).err = s.err := by
  unfold modSess; split <;> rfl
@[simp] theorem modSess_mem (n : Nat) (g : SessSt → SessSt) (s : State) : (modSess n g s).mem = s.mem := by
  unfold modSess; split <;> rfl
@[simp] theorem modSess_out (n : Nat) (g : SessSt → SessSt) (s : State) : (modSess n g s).out = s.out := by
  unfold modSess; split <;> rfl
@[simp] theorem modSess_fires (n : Nat) (g : SessSt → SessSt) (s : State) : (modSess n g s).fires = s.fires := by
  unfold modSess; split <;> rfl
@[simp] theorem modSess_free (n : Nat) (g : SessSt → SessSt) (s : State) : (modSess n g s).free = s.free := by
  unfold modSess; split <;> rfl
@[simp] theorem modHost_pending (n : Nat) (g : HostSt → HostSt) (s : State) : (modHost n g s).pending = s.pending := by
  unfold modHost; split <;> rfl
@[simp] theorem modHost_now (n : Nat) (g : HostSt → HostSt) (s : State) : (modHost n g s).now = s.now := by
  unfold modHost; split <;> rfl
@[simp] theorem modHost_id (n : Nat) (g : HostSt → HostSt) (s : State) : (modHost n g s).id = s.id := by
  unfold modHost; split <;> rfl
@[simp] theorem modHost_pins (n : Nat) (g : HostSt → HostSt) (s : State) : (modHost n g s).pins = s.pins := by
  unfold modHost; split <;> rfl
@[simp] theorem modHost_clk (n : Nat) (g : HostSt → HostSt) (s : State) : (modHost n g s).clk = s.clk := by
  unfold modHost; split <;> rfl
@[simp] theorem modHost_straps (n : Nat) (g : HostSt → HostSt) (s : State) : (modHost n g s).straps = s.straps := by
  unfold modHost; split <;> rfl
@[simp] theorem modHost_boot (n : Nat) (g : HostSt → HostSt) (s : State) : (modHost n g s).boot = s.boot := by
  unfold modHost; split <;> rfl
@[simp] theorem modHost_lcy (n : Nat) (g : HostSt → HostSt) (s : State) : (modHost n g s).lcy = s.lcy := by
  unfold modHost; split <;> rfl
@[simp] theorem modHost_tap (n : Nat) (g : HostSt → HostSt) (s : State) : (modHost n g s).tap = s.tap := by
  unfold modHost; split <;> rfl
@[simp] theorem modHost_tapLatches (n : Nat) (g : HostSt → HostSt) (s : State) : (modHost n g s).tapLatches = s.tapLatches := by
  unfold modHost; split <;> rfl
@[simp] theorem modHost_weave (n : Nat) (g : HostSt → HostSt) (s : State) : (modHost n g s).weave = s.weave := by
  unfold modHost; split <;> rfl
@[simp] theorem modHost_fns (n : Nat) (g : HostSt → HostSt) (s : State) : (modHost n g s).fns = s.fns := by
  unfold modHost; split <;> rfl
@[simp] theorem modHost_sess (n : Nat) (g : HostSt → HostSt) (s : State) : (modHost n g s).sess = s.sess := by
  unfold modHost; split <;> rfl
@[simp] theorem modHost_billing (n : Nat) (g : HostSt → HostSt) (s : State) : (modHost n g s).billing = s.billing := by
  unfold modHost; split <;> rfl
@[simp] theorem modHost_ports (n : Nat) (g : HostSt → HostSt) (s : State) : (modHost n g s).ports = s.ports := by
  unfold modHost; split <;> rfl
@[simp] theorem modHost_units (n : Nat) (g : HostSt → HostSt) (s : State) : (modHost n g s).units = s.units := by
  unfold modHost; split <;> rfl
@[simp] theorem modHost_parts (n : Nat) (g : HostSt → HostSt) (s : State) : (modHost n g s).parts = s.parts := by
  unfold modHost; split <;> rfl
@[simp] theorem modHost_xtrigOut (n : Nat) (g : HostSt → HostSt) (s : State) : (modHost n g s).xtrigOut = s.xtrigOut := by
  unfold modHost; split <;> rfl
@[simp] theorem modHost_slath (n : Nat) (g : HostSt → HostSt) (s : State) : (modHost n g s).slath = s.slath := by
  unfold modHost; split <;> rfl
@[simp] theorem modHost_hang (n : Nat) (g : HostSt → HostSt) (s : State) : (modHost n g s).hang = s.hang := by
  unfold modHost; split <;> rfl
@[simp] theorem modHost_wale (n : Nat) (g : HostSt → HostSt) (s : State) : (modHost n g s).wale = s.wale := by
  unfold modHost; split <;> rfl
@[simp] theorem modHost_always (n : Nat) (g : HostSt → HostSt) (s : State) : (modHost n g s).always = s.always := by
  unfold modHost; split <;> rfl
@[simp] theorem modHost_osier (n : Nat) (g : HostSt → HostSt) (s : State) : (modHost n g s).osier = s.osier := by
  unfold modHost; split <;> rfl
@[simp] theorem modHost_plait (n : Nat) (g : HostSt → HostSt) (s : State) : (modHost n g s).plait = s.plait := by
  unfold modHost; split <;> rfl
@[simp] theorem modHost_err (n : Nat) (g : HostSt → HostSt) (s : State) : (modHost n g s).err = s.err := by
  unfold modHost; split <;> rfl
@[simp] theorem modHost_mem (n : Nat) (g : HostSt → HostSt) (s : State) : (modHost n g s).mem = s.mem := by
  unfold modHost; split <;> rfl
@[simp] theorem modHost_out (n : Nat) (g : HostSt → HostSt) (s : State) : (modHost n g s).out = s.out := by
  unfold modHost; split <;> rfl
@[simp] theorem modHost_fires (n : Nat) (g : HostSt → HostSt) (s : State) : (modHost n g s).fires = s.fires := by
  unfold modHost; split <;> rfl
@[simp] theorem modHost_free (n : Nat) (g : HostSt → HostSt) (s : State) : (modHost n g s).free = s.free := by
  unfold modHost; split <;> rfl

end Sys2Proof.Laws
end

