-- ==== Sys2Proof/WellFormed.lean ====
section
/-!
DEFINITION. Which commands are well formed: the limits that the spec sets on the data that comes with a command. The
ranges of ports, partitions, sessions, functions and units are in their types.
-/

namespace Sys2Proof

/-- A die's own message is on VC3, is no response and holds at most 4,096 data bytes (R390, R392). -/
def Msg.wfEvent (m : Msg) : Bool := m.ch == 3 && !m.response && decide (m.data.length ≤ 4096)

/-- A response comes on VC0, VC1 or VC2 and holds an RSTATUS and at most 4,096 data bytes (R390, R392, R448). -/
def Msg.wfResponse (m : Msg) : Bool :=
  decide (m.ch < 3) && m.response && decide (4 ≤ m.data.length) && decide (m.data.length ≤ 4096)

/-- A memory request holds at most 1,024 words (R1025). -/
def RegAt.wf (a : RegAt) : Bool :=
  match a with
  | .span _ more => decide (more.length < 1024)
  | _ => true

/-- Well-formedness of a command. The rule of each limit: R575 (SET_WATCH), R555, R556, R764 (unit and counter data),
R191, R813 (images), R181 (TAP response), R955 (Plait messages), R255 (NumVFs), R1037 (Creel words). -/
def Instr.wf (i : Instr) : Bool :=
  match i with
  | .powerOnReset _ => true
  | .porstNRise _ _ _ => true
  | .supplyDrop _ => true
  | .clockFault _ => true
  | .stakeWatchdogExpiry => true
  | .hostPortReset _ _ => true
  | .sessionReset _ => true
  | .pfFunctionReset _ => true
  | .sessionResetDrainEnd _ => true
  | .d3hotEntry _ => true
  | .d0Return _ => true
  | .rootPllLock => true
  | .fusePhaseEnd => true
  | .journalPhaseEnd _ => true
  | .scrubPhaseEnd => true
  | .bootFail => true
  | .weaLoadStart _ => true
  | .weaLoadAbort _ => true
  | .imageCheckDone => true
  | .dramTrainingDone _ => true
  | .enumerationDone _ => true
  | .readyEntry => true
  | .serdesPllLoss _ => true
  | .serdesPllRelock _ => true
  | .doorbell _ _ => true
  | .cplHeadWrite _ _ => true
  | .ringEnable _ => true
  | .ringDisable _ => true
  | .descriptorFetch _ _ _ => true
  | .coalesceTimeout _ => true
  | .hostDmaError _ _ => true
  | .nop _ _ => true
  | .claim _ _ => true
  | .release _ _ => true
  | .releaseTakesEffect _ _ => true
  | .observe _ _ => true
  | .grant _ _ => true
  | .halt _ _ => true
  | .resume _ _ => true
  | .step _ _ => true
  | .setBreak _ _ => true
  | .clearBreak _ _ => true
  | .setWatch _ _ data => data.length == 40
  | .clearWatch _ _ => true
  | .readUnitRegs _ _ => true
  | .writeUnitRegs _ _ data => data.length % 4 == 0 && data.length ≤ 65536
  | .readUnitMem _ _ => true
  | .writeUnitMem _ _ data => data.length % 4 == 0
  | .cut _ _ => true
  | .dumpCut _ _ => true
  | .dumpRegion _ _ => true
  | .releaseCut _ _ => true
  | .cutFreed _ _ => true
  | .traceConfig _ _ => true
  | .traceFlush _ _ _ => true
  | .traceFlushDrained _ _ => true
  | .counterConfig _ _ data => data.length % 8 == 0 && data.length ≤ 512
  | .counterLatch _ _ => true
  | .loadModel _ _ data => data.length ≤ 1048808
  | .runProgram _ _ => true
  | .stopProgram _ _ => true
  | .reweave _ _ data => data.length ≤ 35651584
  | .reweaveCommit _ _ => true
  | .weftSwitch _ => true
  | .commitSettleTimeout _ _ => true
  | .watchApplyEnd _ => true
  | .warpSettle => true
  | .warpCommitDone => true
  | .hangReport _ _ _ => true
  | .meterRead _ _ => true
  | .epochClose _ _ => true
  | .setWallclock _ _ => true
  | .epochAutoClose => true
  | .twinPair _ _ => true
  | .takeoverTimeout _ _ => true
  | .twinRelease _ _ => true
  | .lifecycleAdvance _ _ => true
  | .fuseBitAttemptEnd _ => true
  | .hubCtrlWarmReset _ _ => true
  | .partitionReset _ _ => true
  | .partitionResetComplete _ => true
  | .retrain _ _ => true
  | .forceDown _ _ => true
  | .scanCtrlWrite _ _ => true
  | .errInject _ _ => true
  | .registerWrite _ offset _ _ => offset.wf
  | .registerReadClear _ _ words => words ≤ 1024
  | .latchingRead _ _ => true
  | .memWindowRead _ => true
  | .idcode => true
  | .extest _ => true
  | .samplePreload _ _ => true
  | .bypass _ _ => true
  | .lcyQuery => true
  | .lcyAdvance _ _ => true
  | .fuseKeyProg _ _ => true
  | .memAccess _ => true
  | .regAccess _ => true
  | .warmReset => true
  | .unlockChallenge => true
  | .unlockResponse dr => dr.length == 193
  | .unlockVerdict => true
  | .nonceExpiry => true
  | .blockLock _ _ => true
  | .tsBlockReceive _ _ _ _ _ _ _ => true
  | .lockLoss _ _ => true
  | .trainTimeout _ => true
  | .downPeriodEnd _ => true
  | .flitReceive _ _ => true
  | .nak _ _ _ => true
  | .replayStart _ _ _ => true
  | .ackTimeoutReplay _ => true
  | .linkControlIdle _ _ => true
  | .config _ _ _ _ => true
  | .timesyncTimer _ => true
  | .timesyncRsp _ _ _ _ _ _ => true
  | .timesyncExchangeTimeout _ => true
  | .linkResumeFlit _ _ _ => true
  | .detachReq _ _ => true
  | .detachAckSend _ => true
  | .haltRecord _ m => m.wfEvent
  | .eventBatch _ m => m.wfEvent
  | .counterDelta _ m => m.wfEvent
  | .dieLoss _ m => m.wfEvent
  | .dieResponse _ m => m.wfResponse
  | .responseTimeout _ _ => true
  | .hoopInAssert _ _ => true
  | .xtrigEdge _ _ _ => true
  | .stageTimeout _ => true
  | .partitionWatchdogExpiry _ => true
  | .hoopOutPulseEnd _ => true
  | .hoopReleaseGapEnd _ => true
  | .xtrigPulseEnd _ => true
  | .haltTimeoutExpiry _ => true
  | .stepTimeoutExpiry _ => true
  | .proofDone _ => true
  | .splintEmit _ => true
  | .exportPortTimeout _ _ => true
  | .hangEventProcess => true
  | .hangScan _ => true
  | .hangScanEnd _ _ => true
  | .traceFrameTimeout _ => true
  | .keepaliveTimer => true
  | .traceFrameSend _ => true
  | .gapEnd _ _ => true
  | .spillReturn _ => true
  | .timesyncRecordTimer _ => true
  | .waleLinkUp => true
  | .waleLinkDown => true
  | .deferredLatchPoint _ => true
  | .counterConfigWaitExpiry _ => true
  | .osierWord _ cycles _ _ => 1 ≤ cycles
  | .sliceLimit _ => true
  | .sleepWake _ => true
  | .hostWriteError _ => true
  | .coderAnswerRead _ _ => true
  | .codingStall _ => true
  | .plaitLinkDown => true
  | .haltFwd _ action _ _ => action == 2 || action == 3
  | .hoopEn _ _ _ => true
  | .hoopEnAck _ _ _ => true
  | .stakeNote _ _ event _ => event.toNat ≤ 2
  | .hello h => h.role == 2 || h.role == 3
  | .stakeView view => view.length == 64
  | .fastView view => view.length == 64
  | .handoff _ => true
  | .handoffDone _ _ => true
  | .unpair => true
  | .imageReqTimer => true
  | .imageReq _ => true
  | .imageData _ _ bytes => 1 ≤ bytes.length && bytes.length ≤ 4088
  | .imageNone => true
  | .plaitTimesyncReq _ _ _ => true
  | .heartbeatPulse => true
  | .heartbeatAssert => true
  | .heartbeatLost => true
  | .twinAbsentTimeout => true
  | .stakeRenewTimer => true
  | .stakeClaimRetry _ _ => true
  | .patrolScrub word _ => word < 8388608
  | .thermalTrip => true
  | .firmwareStop => true
  | .perstNRelease _ => true
  | .borderLinkUp _ => true
  | .vfEnable _ numVfs => numVfs ≤ 16
  | .imageFetchEnd _ bytes _ => bytes.length ≤ 50331648
  | .reweaveCheckEnd _ _ => true
  | .alignBlockReceive _ _ => true
  | .supplyMonitorRelease => true
  | .thermalRearm => true
  | .heartbeatPulseEnd => true
  | .adaptorOperationTimeout => true

end Sys2Proof
end

