-- ==== Sys2Proof/Tests/Slice0.lean ====
section
/-!
SUPPORT. Tests: what the well-formedness check refuses, values that the spec states, and for every statement of
Obligations.lean that has hypotheses a state and operands that meet them together (theorem wit_<statement>_<clause>).
-/

set_option Elab.async false
set_option linter.unusedVariables false
set_option linter.unusedSimpArgs false

namespace Sys2Proof.Tests
open Sys2Proof Sys2Proof.Machine

/-! ### States for the witnesses -/

/-- A descriptor from its fields: offset and value; the tag is 7. -/
def desc (l : List (Nat × Nat)) : BitVec 512 := BitVec.ofNat 512 ((((4, 7) :: l).map fun e => e.2 * 256 ^ e.1).sum)
/-- A fetched command with the fields of its descriptor, and what has been done of it. -/
def cmdWith (l : List (Nat × Nat)) (started : Bool) (w : Work) : Cmd :=
  { desc := desc l, tag := 7, fetched := 0, heldDup := false, started := started, work := w }
def cmdOf (l : List (Nat × Nat)) : Cmd := cmdWith l false Work.init
/-- The command is in flight for a function. -/
def inFlight (f : Nat) (c : Cmd) (s : State) : State := modFn f (fun x => { x with inflight := [c] }) s
/-- A hub at work: READY, in Test, both links of every host port up, every VF there. -/
def ready : State :=
  let r := State.reset
  { r with boot := { r.boot with phase := .ready, borderUp := 0xF, dramTrained := true }, straps := { r.straps with mask := 0xF, pairRank := true }, clk := { rootLock := true, refPresent := true, border := 0xF, nsl := 0xFF, wale := true, plait := true }, pins := { r.pins with porst := true, perst := 0xF }, lcy := { r.lcy with state := .test }, now := 1000000000, hosts := Vector.replicate 4 { HostSt.init with vfEnable := true, numVfs := 16 } }
def phased (p : Phase) : State := { ready with boot := { ready.boot with phase := p } }
/-- Session 5 owns partition 3. -/
def owned : State := modPart 3 (fun x => { x with owner := some 5 }) ready
def burnOf (l : List FuseBit) (a : Nat) : Burn :=
  { target := some .production, key := none, todo := l, attempts := a, burned := 0, escalated := false, by_ := .tap }
def burning (l : List FuseBit) (a : Nat) : State := { ready with lcy := { ready.lcy with burn := some (burnOf l a) } }
def part3 (g : PartSt → PartSt) : State := modPart 3 g owned
def link (l : Nat) (g : Lnk → Lnk) (s : State) : State := modLnk l g s
def linkAt (l : Nat) (x : LinkState) : State := link l (fun y => { y with link := x }) ready
/-- Port 2 is up and its unit 0 belongs to partition 3. -/
def portUp : State :=
  modUnit 8192 (fun x => { x with found := true }) <| modPort 2 (fun x => { x with classes := [(0, zeros 7 ++ [1] ++ zeros 24 ++ [0, 15, 0, 0, 0, 16, 0, 0] ++ zeros 8)], lk := { x.lk with link := .active }, enumerated := true, tickFs := 625000, warp := { enable := true, laneMap := 0, unitCount := 4, partMap := [3, 3, 3, 3] } }) owned
def osier (g : OsierCtl → OsierCtl) (s : State) : State := { s with osier := g s.osier }
def plait (g : PlaitCtl → PlaitCtl) (s : State) : State := { s with plait := g s.plait }
/-- The Plait link is up and the hub is the senior of a pair. -/
def paired : State := plait (fun x => { x with lk := { x.lk with link := .active }, role := 2, pair := .paired }) portUp
def aRun : Run :=
  { id := 9, index := 4, core := 1, role := roleProgram, partition := 3, session := some 5, hostOut := true, pred := false, limit := 0, bufAddr := 0, bufWindow := 4096, pc := 0, x := [], p := [], v := [], t := [], m := [], w := [], flags := 0, cycle := 0, inHead := 0, inTail := 0, inLost := 0, local_ := [], creel := [], input := [], wait := .none, heldFor := sliceCycles }
def entry4 : LibEntry := { index := 4, payload := zeros 256, hash := 0, fromImage := false, addedBy := some 3 }
def aCut : Cut :=
  { id := 1, partition := 3, label := 0, origin := 0, hostTag := 0, owners := [], starter := none, frozen := false, halted := true, serial := 0, report := none, actionTs := 0, assignTs := 0, instant := 0, weftGen := 0, stage := 1, units := [], chans := [], msgs := [], ranges := [], skippedEntries := 0, regionPages := (0, 0), statePages := (0, 0), releasing := false, asked := false, releasedBy := none, regionStored := none, stateStored := none, poison := ([], []), bad := ([], []) }
def oneRange : Cut := { aCut with stage := 4, ranges := [{ unit := 8192, region := 0, offset := 0, len := 4096, firstSplint := 0, bytes := [], missingFrom := none, ended := true }] }
def aCommit : Commit :=
  { fn := 5, tag := 7, fetched := 0, deadline := 0, gen := 1, watchApply := false, portMask := 0, switched := false, settled := none, oldGen := 0, imageId := 0, unitsLeft := [], skipped := 0, portsLeft := [], previous := [], failedPorts := [], failedAgain := [], affected := [] }
def aMsg : Msg :=
  { ch := 0, op := 1, response := true, error := false, target := 0, partition := 3, source := 0, tag := 7, holder := 0, data := zeros 64 }
def aReq (w : ReqFor) : OutReq := { msg := { aMsg with response := false }, who := w, at_ := 0 }
def anExport : Export :=
  { fn := 5, tag := 7, partition := 3, cut := 1, part := 0, dest := 2, first := 0, count := 0, total := 0, sent := [], manifestSent := 0, endedEarly := true, discard := false, bufAddr := 0, dumpOff := 0, since := 0, region := none }
def aGather : Gather := { actionTs := 0, timeout := 0, hoopPorts := 0, downPorts := 0 }
def aReport : HangReport :=
  { id := 1, kind := 0, hflags := 0, cutId := 0, binding := false, action := 0, comps := 0, members := 0, snapshot := 0, oldest := 0, bytes := [] }
def aScan : Scan := { start := 0, minAge := 0, stall := 0 }
/-- The epoch closed in the present CTL cycle, for the given cause. -/
def closeLog (cause : Nat) : LogEntry := { seq := 1, kind := 1, subject := 0, epoch := 4, ts := ready.now, body := zeros 16 ++ [BitVec.ofNat 8 cause] }
def closedBy (cause : Nat) : State := { owned with billing := { owned.billing with log := [closeLog cause] } }
def aHello : Hello := { role := 3, stepping := 2, lcy := 1, request := false, ready := true, leaseMs := 20, uid := 0, digest := 0 }
def hdr0 : CtlHdr := { ack := 0, ackValid := false, credits := 0 }
def goodBody : ConfigBody := { uid := 77, unitCount := 4, caps := 2, tickFs := 625000, creditInit := 0x20F02020, lostEvents := 0 }
def badBody : ConfigBody := { goodBody with tickFs := 1 }
/-- A flit of zeros with its CRC. -/
def aFlit : BitVec 288 := BitVec.ofNat 288 ((crc16 (zeros 34)).toNat * 256 ^ 34)
def halted0 (g : UnitSt → UnitSt) : State := modUnit 8192 g portUp
def aRec : TraceRec := { cls := 1, dieTime := false, partition := 3, ts := 0, payload := zeros 16, spilled := false }
/-- A coding run whose answer to exchange 1 is two uniform tables. -/
def coderRun : Run := { aRun with role := roleCoding, inTail := 1, local_ := Mem.ofBytes (leBytes 4 1 ++ zeros 12 ++ (List.replicate 32 (leBytes 2 128)).flatten ++ (List.replicate 32 (leBytes 2 128)).flatten) }
/-- The 64-byte header of an image, with its CRC. -/
def header : List Byte :=
  let h := leBytes 4 0x56414557 ++ leBytes 2 1 ++ leBytes 2 0 ++ leBytes 4 64 ++ leBytes 2 0 ++ leBytes 2 0x8064 ++ [1] ++ zeros 43
  h ++ leBytes 4 (crc32c h).toNat
def late (s : State) : State := { s with now := 2 ^ 60 }
/-- A weft whose stage 1 times out after 1 µs and whose watchdog is 1 µs: every byte is 1. -/
def ones : List Host.Cell := Mem.ofBytes (List.replicate 2048 1)

/-! ### What the well-formedness check refuses: one ill-formed command for each check -/

theorem test_wf_refuses_setWatch_length : Instr.wf (.setWatch 5 7 (zeros 39)) = false := by
  simp only [Instr.wf, Msg.wfEvent, Msg.wfResponse, zeros, List.length_replicate, List.length_nil]; decide
theorem test_wf_refuses_writeUnitRegs_multiple : Instr.wf (.writeUnitRegs 5 7 (zeros 6)) = false := by
  simp only [Instr.wf, Msg.wfEvent, Msg.wfResponse, zeros, List.length_replicate, List.length_nil]; decide
theorem test_wf_refuses_writeUnitRegs_length : Instr.wf (.writeUnitRegs 5 7 (zeros 65540)) = false := by
  simp only [Instr.wf, Msg.wfEvent, Msg.wfResponse, zeros, List.length_replicate, List.length_nil]; decide
theorem test_wf_refuses_writeUnitMem_multiple : Instr.wf (.writeUnitMem 5 7 (zeros 5)) = false := by
  simp only [Instr.wf, Msg.wfEvent, Msg.wfResponse, zeros, List.length_replicate, List.length_nil]; decide
theorem test_wf_refuses_counterConfig_multiple : Instr.wf (.counterConfig 5 7 (zeros 12)) = false := by
  simp only [Instr.wf, Msg.wfEvent, Msg.wfResponse, zeros, List.length_replicate, List.length_nil]; decide
theorem test_wf_refuses_counterConfig_length : Instr.wf (.counterConfig 5 7 (zeros 520)) = false := by
  simp only [Instr.wf, Msg.wfEvent, Msg.wfResponse, zeros, List.length_replicate, List.length_nil]; decide
theorem test_wf_refuses_loadModel_length : Instr.wf (.loadModel 5 7 (zeros 1048809)) = false := by
  simp only [Instr.wf, Msg.wfEvent, Msg.wfResponse, zeros, List.length_replicate, List.length_nil]; decide
theorem test_wf_refuses_reweave_length : Instr.wf (.reweave 5 7 (zeros 35651585)) = false := by
  simp only [Instr.wf, Msg.wfEvent, Msg.wfResponse, zeros, List.length_replicate, List.length_nil]; decide
theorem test_wf_refuses_unlockResponse_length : Instr.wf (.unlockResponse (zeros 192)) = false := by
  simp only [Instr.wf, Msg.wfEvent, Msg.wfResponse, zeros, List.length_replicate, List.length_nil]; decide
theorem test_wf_refuses_haltRecord_channel : Instr.wf (.haltRecord 2 { ch := 2, op := 1, response := false, error := false, target := 0, partition := 3, source := 0, tag := 0, holder := 0, data := [] }) = false := by
  simp only [Instr.wf, Msg.wfEvent, Msg.wfResponse, zeros, List.length_replicate, List.length_nil]; decide
theorem test_wf_refuses_haltRecord_response : Instr.wf (.haltRecord 2 { ch := 3, op := 1, response := true, error := false, target := 0, partition := 3, source := 0, tag := 0, holder := 0, data := [] }) = false := by
  simp only [Instr.wf, Msg.wfEvent, Msg.wfResponse, zeros, List.length_replicate, List.length_nil]; decide
theorem test_wf_refuses_haltRecord_length : Instr.wf (.haltRecord 2 { ch := 3, op := 1, response := false, error := false, target := 0, partition := 3, source := 0, tag := 0, holder := 0, data := zeros 4097 }) = false := by
  simp only [Instr.wf, Msg.wfEvent, Msg.wfResponse, zeros, List.length_replicate, List.length_nil]; decide
theorem test_wf_refuses_eventBatch_channel : Instr.wf (.eventBatch 2 { ch := 2, op := 1, response := false, error := false, target := 0, partition := 3, source := 0, tag := 0, holder := 0, data := [] }) = false := by
  simp only [Instr.wf, Msg.wfEvent, Msg.wfResponse, zeros, List.length_replicate, List.length_nil]; decide
theorem test_wf_refuses_eventBatch_response : Instr.wf (.eventBatch 2 { ch := 3, op := 1, response := true, error := false, target := 0, partition := 3, source := 0, tag := 0, holder := 0, data := [] }) = false := by
  simp only [Instr.wf, Msg.wfEvent, Msg.wfResponse, zeros, List.length_replicate, List.length_nil]; decide
theorem test_wf_refuses_eventBatch_length : Instr.wf (.eventBatch 2 { ch := 3, op := 1, response := false, error := false, target := 0, partition := 3, source := 0, tag := 0, holder := 0, data := zeros 4097 }) = false := by
  simp only [Instr.wf, Msg.wfEvent, Msg.wfResponse, zeros, List.length_replicate, List.length_nil]; decide
theorem test_wf_refuses_counterDelta_channel : Instr.wf (.counterDelta 2 { ch := 2, op := 1, response := false, error := false, target := 0, partition := 3, source := 0, tag := 0, holder := 0, data := [] }) = false := by
  simp only [Instr.wf, Msg.wfEvent, Msg.wfResponse, zeros, List.length_replicate, List.length_nil]; decide
theorem test_wf_refuses_counterDelta_response : Instr.wf (.counterDelta 2 { ch := 3, op := 1, response := true, error := false, target := 0, partition := 3, source := 0, tag := 0, holder := 0, data := [] }) = false := by
  simp only [Instr.wf, Msg.wfEvent, Msg.wfResponse, zeros, List.length_replicate, List.length_nil]; decide
theorem test_wf_refuses_counterDelta_length : Instr.wf (.counterDelta 2 { ch := 3, op := 1, response := false, error := false, target := 0, partition := 3, source := 0, tag := 0, holder := 0, data := zeros 4097 }) = false := by
  simp only [Instr.wf, Msg.wfEvent, Msg.wfResponse, zeros, List.length_replicate, List.length_nil]; decide
theorem test_wf_refuses_dieLoss_channel : Instr.wf (.dieLoss 2 { ch := 2, op := 1, response := false, error := false, target := 0, partition := 3, source := 0, tag := 0, holder := 0, data := [] }) = false := by
  simp only [Instr.wf, Msg.wfEvent, Msg.wfResponse, zeros, List.length_replicate, List.length_nil]; decide
theorem test_wf_refuses_dieLoss_response : Instr.wf (.dieLoss 2 { ch := 3, op := 1, response := true, error := false, target := 0, partition := 3, source := 0, tag := 0, holder := 0, data := [] }) = false := by
  simp only [Instr.wf, Msg.wfEvent, Msg.wfResponse, zeros, List.length_replicate, List.length_nil]; decide
theorem test_wf_refuses_dieLoss_length : Instr.wf (.dieLoss 2 { ch := 3, op := 1, response := false, error := false, target := 0, partition := 3, source := 0, tag := 0, holder := 0, data := zeros 4097 }) = false := by
  simp only [Instr.wf, Msg.wfEvent, Msg.wfResponse, zeros, List.length_replicate, List.length_nil]; decide
theorem test_wf_refuses_dieResponse_channel : Instr.wf (.dieResponse 2 { ch := 3, op := 1, response := true, error := false, target := 0, partition := 3, source := 0, tag := 0, holder := 0, data := zeros 4 }) = false := by
  simp only [Instr.wf, Msg.wfEvent, Msg.wfResponse, zeros, List.length_replicate, List.length_nil]; decide
theorem test_wf_refuses_dieResponse_request : Instr.wf (.dieResponse 2 { ch := 0, op := 1, response := false, error := false, target := 0, partition := 3, source := 0, tag := 0, holder := 0, data := zeros 4 }) = false := by
  simp only [Instr.wf, Msg.wfEvent, Msg.wfResponse, zeros, List.length_replicate, List.length_nil]; decide
theorem test_wf_refuses_dieResponse_short : Instr.wf (.dieResponse 2 { ch := 0, op := 1, response := true, error := false, target := 0, partition := 3, source := 0, tag := 0, holder := 0, data := zeros 3 }) = false := by
  simp only [Instr.wf, Msg.wfEvent, Msg.wfResponse, zeros, List.length_replicate, List.length_nil]; decide
theorem test_wf_refuses_dieResponse_long : Instr.wf (.dieResponse 2 { ch := 0, op := 1, response := true, error := false, target := 0, partition := 3, source := 0, tag := 0, holder := 0, data := zeros 4097 }) = false := by
  simp only [Instr.wf, Msg.wfEvent, Msg.wfResponse, zeros, List.length_replicate, List.length_nil]; decide
theorem test_wf_refuses_osierWord_cycles : Instr.wf (.osierWord 0 0 0 []) = false := by
  simp only [Instr.wf, Msg.wfEvent, Msg.wfResponse, zeros, List.length_replicate, List.length_nil]; decide
theorem test_wf_refuses_haltFwd_action : Instr.wf (.haltFwd 3 1 false 0) = false := by
  simp only [Instr.wf, Msg.wfEvent, Msg.wfResponse, zeros, List.length_replicate, List.length_nil]; decide
theorem test_wf_refuses_stakeNote_event : Instr.wf (.stakeNote 3 4 3 0) = false := by
  simp only [Instr.wf, Msg.wfEvent, Msg.wfResponse, zeros, List.length_replicate, List.length_nil]; decide
theorem test_wf_refuses_hello_role : Instr.wf (.hello { role := 1, stepping := 2, lcy := 1, request := false, ready := true, leaseMs := 20, uid := 0, digest := 0 }) = false := by
  simp only [Instr.wf, Msg.wfEvent, Msg.wfResponse, zeros, List.length_replicate, List.length_nil]; decide
theorem test_wf_refuses_stakeView_length : Instr.wf (.stakeView (zeros 63)) = false := by
  simp only [Instr.wf, Msg.wfEvent, Msg.wfResponse, zeros, List.length_replicate, List.length_nil]; decide
theorem test_wf_refuses_fastView_length : Instr.wf (.fastView (zeros 65)) = false := by
  simp only [Instr.wf, Msg.wfEvent, Msg.wfResponse, zeros, List.length_replicate, List.length_nil]; decide
theorem test_wf_refuses_imageData_empty : Instr.wf (.imageData 0 0 []) = false := by
  simp only [Instr.wf, Msg.wfEvent, Msg.wfResponse, zeros, List.length_replicate, List.length_nil]; decide
theorem test_wf_refuses_imageData_length : Instr.wf (.imageData 0 0 (zeros 4089)) = false := by
  simp only [Instr.wf, Msg.wfEvent, Msg.wfResponse, zeros, List.length_replicate, List.length_nil]; decide
theorem test_wf_refuses_patrolScrub_word : Instr.wf (.patrolScrub 8388608 .good) = false := by
  simp only [Instr.wf, Msg.wfEvent, Msg.wfResponse, zeros, List.length_replicate, List.length_nil]; decide
theorem test_wf_refuses_registerReadClear_words : Instr.wf (.registerReadClear 5 0 1025) = false := by
  decide
theorem test_wf_refuses_registerWrite_span : Instr.wf (.registerWrite 5 (.span 0 (List.replicate 1024 (0, 0xF))) 0 0xF) = false := by
  decide +kernel
theorem test_wf_refuses_vfEnable_number : Instr.wf (.vfEnable 0 17) = false := by
  simp only [Instr.wf, Msg.wfEvent, Msg.wfResponse, zeros, List.length_replicate, List.length_nil]; decide
theorem test_wf_refuses_imageFetchEnd_length : Instr.wf (.imageFetchEnd 0 (zeros 50331649) false) = false := by
  simp only [Instr.wf, Msg.wfEvent, Msg.wfResponse, zeros, List.length_replicate, List.length_nil]; decide
theorem test_wf_accepts_setWatch : Instr.wf (.setWatch 5 7 (zeros 40)) = true := by
  simp only [Instr.wf, Msg.wfEvent, Msg.wfResponse, zeros, List.length_replicate, List.length_nil]; decide
theorem test_wf_accepts_writeUnitRegs : Instr.wf (.writeUnitRegs 5 7 (zeros 65536)) = true := by
  simp only [Instr.wf, Msg.wfEvent, Msg.wfResponse, zeros, List.length_replicate, List.length_nil]; decide
theorem test_wf_accepts_counterConfig : Instr.wf (.counterConfig 5 7 (zeros 512)) = true := by
  simp only [Instr.wf, Msg.wfEvent, Msg.wfResponse, zeros, List.length_replicate, List.length_nil]; decide
theorem test_wf_accepts_haltRecord : Instr.wf (.haltRecord 2 { ch := 3, op := 1, response := false, error := false, target := 0, partition := 3, source := 0, tag := 0, holder := 0, data := [] }) = true := by
  simp only [Instr.wf, Msg.wfEvent, Msg.wfResponse, zeros, List.length_replicate, List.length_nil]; decide
theorem test_wf_accepts_dieResponse : Instr.wf (.dieResponse 2 { ch := 0, op := 1, response := true, error := false, target := 0, partition := 3, source := 0, tag := 0, holder := 0, data := zeros 4 }) = true := by
  simp only [Instr.wf, Msg.wfEvent, Msg.wfResponse, zeros, List.length_replicate, List.length_nil]; decide
theorem test_wf_accepts_imageFetchEnd : Instr.wf (.imageFetchEnd 0 (zeros 50331648) false) = true := by
  simp only [Instr.wf, Msg.wfEvent, Msg.wfResponse, zeros, List.length_replicate, List.length_nil]; decide

/-! ### Values and outcomes that the spec states -/

/-- The state after a command. -/
def after (i : Instr) (s : State) : State :=
  match exec i s with
  | .next t => t
  | _ => s
/-- The status of the last completion that a function has been given. -/
def lastStatus (f : Nat) (s : State) : Option Byte := ((s.fn f).window.getLast?).map (·.status)

/-- The rings of a function are on, of 16 entries, with one command submitted. -/
def ringOn (f : Nat) (s : State) : State :=
  modFn f (fun x => { x with enable := true, fetching := true, tail := 1, ringSize := 0x0404, cplHead := 0 }) s

/-- R190: the CRC-32C of "123456789". -/
theorem test_crc32c : crc32c [0x31, 0x32, 0x33, 0x34, 0x35, 0x36, 0x37, 0x38, 0x39] = 0xE3069283 := by decide +kernel
/-- R387: the link CRC of "123456789". -/
theorem test_crc16 : crc16 [0x31, 0x32, 0x33, 0x34, 0x35, 0x36, 0x37, 0x38, 0x39] = 0x29B1 := by decide +kernel
/-- The example of spec/13 after R738: a die timestamp in hub ticks. -/
theorem test_hubTime :
    (modPort 2 (fun x => { x with tickFs := 1000000, lk := { x.lk with offset := 400000 } }) State.reset).hubTime 2 1000000000 =
      1599600000 := by decide +kernel
/-- Corners of spec/05: a doorbell at or above the ring size is ring error 0x2. -/
theorem test_doorbell_out_of_range :
    ((after (.doorbell 64 16) (modFn 64 (fun x => { x with enable := true, fetching := true, ringSize := 0x0404 }) ready)).fn 64).errorCode = 2 := by
  decide +kernel
/-- Corners of spec/05: a read of LENGTH 0 is BAD_LEN (R292). -/
theorem test_bad_length :
    lastStatus 5 (after (.descriptorFetch 5 (desc [(0, 0x22), (2, 3), (16, 8192), (18, 1), (40, 4096)]) false) (ringOn 5 portUp)) = some stBadLen := by
  decide +kernel
/-- The worked case of spec/05: a whole region larger than the window is LEN_EXCEEDS_BUF. -/
theorem test_region_exceeds_window :
    lastStatus 5 (after (.descriptorFetch 5 (desc [(0, 0x22), (2, 3), (16, 8192), (18, 1), (40, 2048), (48, 0xFFFFFFFF)]) false)
      (ringOn 5 portUp)) = some stLenExceedsBuf := by
  decide +kernel
/-- R334: CLAIM makes the session the owner of a free partition that its ALLOW mask names. -/
theorem test_claim_owner :
    ((after (.claim 5 7) (inFlight 5 (cmdOf [(0, 2), (2, 3)]) (modSess 5 (fun x => { x with allow := 8 }) ready))).part 3).owner = some 5 := by
  decide +kernel
/-- R139: a fuse bit that takes reads 1. -/
theorem test_fuse_bit : (after (.fuseBitAttemptEnd true) (burning [.a 0] 0)).lcy.fuses.a = 1 := by decide +kernel
/-- R184: the third rejected response locks the unlock path. -/
theorem test_lockout :
    (after .unlockVerdict { ready with lcy := { ready.lcy with state := .production, fails := 2 }, tap := { ready.tap with response := some ([], [], none) } }).lcy.lockout = true := by
  decide +kernel
/-- Without the time of a supply drop that R1049 states, nothing resets: 499 ns below the threshold. -/
theorem test_short_dip : (after (.supplyDrop { belowNs := 499, pairRank := true, bootSrc := false, mask := 3 }) ready).boot = ready.boot := by decide +kernel

/-! ### The witnesses -/

/-- Every partition is as a power-on reset leaves it. -/
theorem reset_part (p : Nat) : State.reset.part p = PartSt.init := by
  simp [State.part, State.reset]
theorem wit_StepRunsFront_0 : ∃ (c : Instr) (rest : List Instr) (s : State),
    s.pending = c :: rest :=
  ⟨.imageNone, [], { State.reset with pending := [.imageNone] }, by decide +kernel⟩
theorem wit_EmptyQueueTicks_0 : ∃ (s : State),
    s.pending = [] ∧ s.clk.rootLock = false :=
  ⟨State.reset, by decide +kernel, by decide +kernel⟩
theorem wit_EmptyQueueTicks_1 : ∃ (s : State),
    s.pending = [] ∧ s.clk.rootLock = true :=
  ⟨ready, by decide +kernel, by decide +kernel⟩
theorem wit_CommandsKeepOtherState_0 : ∃ (i : Instr) (s : State) (t : State),
    s.fires = [] :=
  ⟨.imageNone, State.reset, settle State.reset, by decide +kernel⟩
theorem wit_TimebaseCounts_0 : ∃ (s : State),
    s.inPhase .clock = true ∧ s.pins.porst = true ∧ s.pins.supplyGood = true ∧ s.clk.rootLock = false :=
  ⟨{ State.reset with pins := { State.reset.pins with porst := true } },
    by decide +kernel, by decide +kernel, by decide +kernel, by decide +kernel⟩
theorem wit_TimebaseCounts_2 : ∃ (s : State) (t : State),
    s.pending = [] ∧ s.clk.rootLock = true ∧ step s = .next t :=
  ⟨ready, tick ready, by decide +kernel, by decide +kernel, rfl⟩
theorem wit_FusesOnlyBurn_0 : ∃ (s : State) (t : State),
    step s = .next t :=
  ⟨ready, tick ready, rfl⟩
theorem wit_FuseAttemptsAct_0 : ∃ (s : State) (b : Burn) (x : FuseBit) (rest : List FuseBit),
    s.lcy.burn = some b ∧ s.boot.warmWaiting = none ∧ b.todo = x :: rest ∧ s.fires = [] :=
  ⟨burning [.a 0] 0, burnOf [.a 0] 0, .a 0, [],
    by decide +kernel, by decide +kernel, by decide +kernel, by decide +kernel⟩
theorem wit_FuseAttemptsAct_1 : ∃ (s : State) (b : Burn) (x : FuseBit) (rest : List FuseBit),
    s.lcy.burn = some b ∧ s.boot.warmWaiting = none ∧ b.todo = x :: rest ∧ b.attempts < 2 ∧ s.fires = [] :=
  ⟨burning [.a 0] 1, burnOf [.a 0] 1, .a 0, [],
    by decide +kernel⟩
theorem wit_FuseAttemptsAct_2 : ∃ (s : State) (b : Burn) (n : Fin 24) (y : FuseBit) (rest : List FuseBit),
    s.lcy.burn = some b ∧ s.boot.warmWaiting = none ∧ b.todo = .a n :: y :: rest ∧ rest ≠ [] ∧ 2 ≤ b.attempts ∧ s.fires = [] :=
  ⟨burning [.a 0, .a 1, .a 2] 2, burnOf [.a 0, .a 1, .a 2] 2, 0, .a 1, [.a 2],
    by decide +kernel⟩
theorem wit_LockoutHolds_0 : ∃ (s : State) (key : List Byte) (sig : List Byte) (nonce : Option (BitVec 384)),
    s.tap.response = some (key, sig, nonce) ∧ s.unlockGranted key sig nonce = false :=
  ⟨{ ready with tap := { ready.tap with response := some ([], [], none) } }, [], [], none,
    by decide +kernel, by decide +kernel⟩
theorem wit_LockoutHolds_2 : ∃ (s : State) (dr : List Byte),
    s.tapHas 0x31 = true ∧ s.lcy.lockout = true :=
  ⟨{ ready with lcy := { ready.lcy with state := .production, lockout := true } }, zeros 193,
    by decide +kernel, by decide +kernel⟩
theorem wit_RolesStayApart_0 : ∃ (s : State) (t : State),
    s.RolesApart ∧ step s = .next t :=
  ⟨State.reset, tick State.reset, ⟨fun p f h => by simp [reset_part, PartSt.init] at h, fun p => by simp [reset_part, PartSt.init]⟩, rfl⟩
theorem wit_MemoriesStayCanonical_0 : ∃ (s : State) (t : State),
    s.MemoriesCanonical ∧ step s = .next t :=
  ⟨State.reset, tick State.reset, ⟨rfl, by simp [State.reset], by simp [State.reset]⟩, rfl⟩
theorem wit_ResetValues_7 : ∃ (n : Nat),
    n < 8 :=
  ⟨7, by decide +kernel⟩
theorem wit_ResetValues_8 : ∃ (p : Nat),
    p < 64 :=
  ⟨63, by decide +kernel⟩
theorem wit_ResetValues_9 : ∃ (f : Nat),
    f < 68 :=
  ⟨67, by decide +kernel⟩
theorem wit_PowerResetsAct_0 : ∃ (s : State) (n : Nat),
    10000 ≤ n :=
  ⟨ready, 10000, by decide +kernel⟩
theorem wit_PowerResetsAct_1 : ∃ (s : State) (n : Nat),
    n < 1000 ∧ s.fires = [] :=
  ⟨ready, 999, by decide +kernel, by decide +kernel⟩
theorem wit_PowerResetsAct_2 : ∃ (s : State) (d : SupplyDip),
    2000 ≤ d.belowNs :=
  ⟨ready, { belowNs := 2000, pairRank := true, bootSrc := false, mask := 3 },
    by decide +kernel⟩
theorem wit_PowerResetsAct_3 : ∃ (s : State) (d : SupplyDip),
    d.belowNs < 500 ∧ s.fires = [] :=
  ⟨ready, { belowNs := 499, pairRank := true, bootSrc := false, mask := 3 },
    by decide +kernel, by decide +kernel⟩
theorem wit_PowerResetsAct_4 : ∃ (s : State) (a : ClockLoss),
    s.pins.porst = true ∧ s.pins.supplyGood = true :=
  ⟨ready, { refAbsent := true, pairRank := true, bootSrc := false, mask := 3 },
    by decide +kernel, by decide +kernel⟩
theorem wit_WarmResetsAct_0 : ∃ (s : State) (port : HostPort) (value : W32),
    s.barOpen (64 + port.val) = true ∧ s.isArbiterPm (64 + port.val) = true ∧ value.toNat % 256 = 0xA5 ∧ s.lcy.burn = none :=
  ⟨ready, 3, 0xA5, by decide +kernel, by decide +kernel, by decide +kernel, by decide +kernel⟩
theorem wit_WarmResetsAct_1 : ∃ (s : State) (port : HostPort) (value : W32),
    s.barOpen (64 + port.val) = true ∧ s.isArbiterPm (64 + port.val) = true ∧ value.toNat % 256 = 0xA5 ∧ s.lcy.burn.isSome = true ∧ s.fires = [] :=
  ⟨burning [.a 0] 0, 0, 0xA5,
    by decide +kernel⟩
theorem wit_WarmResetsAct_2 : ∃ (s : State),
    s.tapHas 0x40 = true ∧ s.lcy.burn = none :=
  ⟨ready, by decide +kernel, by decide +kernel⟩
theorem wit_WarmResetsAct_3 : ∃ (s : State),
    s.err.stopped = true ∧ s.lcy.burn = none :=
  ⟨{ ready with err := { ready.err with stopped := true } }, by decide +kernel, by decide +kernel⟩
theorem wit_WarmResetsAct_4 : ∃ (s : State) (took : Bool) (b : Burn) (cause : BitVec 6),
    s.lcy.burn = some b ∧ s.boot.warmWaiting = some cause :=
  ⟨{ burning [.a 0] 0 with boot := { ready.boot with warmWaiting := some 8 } }, true, burnOf [.a 0] 0, 8,
    by decide +kernel, by decide +kernel⟩
theorem wit_StartUpPhasesAct_0 : ∃ (s : State) (pr : Bool) (bs : Bool) (m : BitVec 4),
    s.pins.porst = false ∧ s.fires = [] :=
  ⟨State.reset, true, false, 3, by decide +kernel, by decide +kernel⟩
theorem wit_StartUpPhasesAct_1 : ∃ (s : State),
    s.fires = [] :=
  ⟨State.reset, by decide +kernel⟩
theorem wit_StartUpPhasesAct_2 : ∃ (s : State),
    s.inPhase .clock = true ∧ s.pins.porst = true ∧ s.pins.supplyGood = true ∧ s.clk.rootLock = false ∧ s.fires = [] :=
  ⟨{ State.reset with pins := { State.reset.pins with porst := true } },
    by decide +kernel⟩
theorem wit_StartUpPhasesAct_3 : ∃ (s : State),
    s.inPhase .fuse = true ∧ s.fires = [] :=
  ⟨phased .fuse, by decide +kernel, by decide +kernel⟩
theorem wit_StartUpPhasesAct_4 : ∃ (s : State) (stuck : List FuseBit),
    s.inPhase .journal = true ∧ s.fires = [] :=
  ⟨phased .journal, [], by decide +kernel, by decide +kernel⟩
theorem wit_StartUpPhasesAct_4production : ∃ (s : State) (stuck : List FuseBit),
    s.inPhase .journal = true ∧ s.fires = [] ∧ (s.lcy.fuses.stateAtStart stuck).1 = .production :=
  ⟨{ phased .journal with lcy := { ready.lcy with fuses := { Fuses.blank with a := 0xFFFF, b := 0xFFFF, c := 0xFFFF } } }, [],
    by decide +kernel, by decide +kernel, by decide +kernel⟩
theorem wit_StartUpPhasesAct_5 : ∃ (s : State),
    s.inPhase .scrub = true ∧ s.fires = [] :=
  ⟨phased .scrub, by decide +kernel, by decide +kernel⟩
theorem wit_StartUpPhasesAct_6fuse : ∃ (s : State),
    s.boot.fail = false ∧ s.fires = [] ∧ s.boot.phase = .fuse :=
  ⟨phased .fuse, by decide +kernel, by decide +kernel, by decide +kernel⟩
theorem wit_StartUpPhasesAct_6journal : ∃ (s : State),
    s.boot.fail = false ∧ s.fires = [] ∧ s.boot.phase = .journal :=
  ⟨phased .journal, by decide +kernel, by decide +kernel, by decide +kernel⟩
theorem wit_StartUpPhasesAct_6scrub : ∃ (s : State),
    s.boot.fail = false ∧ s.fires = [] ∧ s.boot.phase = .scrub :=
  ⟨phased .scrub, by decide +kernel, by decide +kernel, by decide +kernel⟩
theorem wit_StartUpPhasesAct_6clock : ∃ (s : State),
    s.boot.fail = false ∧ s.fires = [] ∧ s.boot.phase = .clock ∧ s.pins.porst = true :=
  ⟨{ State.reset with pins := { State.reset.pins with porst := true } },
    by decide +kernel, by decide +kernel, by decide +kernel, by decide +kernel⟩
theorem wit_BootEventsAct_0 : ∃ (s : State),
    s.inPhase .enumerate = true ∧ s.enumEnded = true :=
  ⟨phased .enumerate, by decide +kernel, by decide +kernel⟩
theorem wit_BootEventsAct_1 : ∃ (s : State) (n : HostPort),
    s.fires = [] :=
  ⟨ready, 0, by decide +kernel⟩
theorem wit_BootEventsAct_2 : ∃ (s : State) (n : HostPort),
    s.serving = true ∧ s.enabledPort n = true ∧ s.pins.perst.getLsbD n = true ∧ s.clk.border.getLsbD n = true ∧ s.fires = [] :=
  ⟨ready, 3, by decide +kernel⟩
theorem wit_BootEventsAct_3 : ∃ (s : State) (n : HostPort) (c : PortResetCause),
    s.enabledPort n = true ∧ s.boot.borderUp.getLsbD n = true :=
  ⟨ready, 0, .perst, by decide +kernel, by decide +kernel⟩
theorem wit_BootEventsAct_4 : ∃ (s : State) (n : HostPort) (k : Nat),
    s.barOpen (64 + n.val) = true ∧ k ≤ 16 :=
  ⟨ready, 0, 16, by decide +kernel, by decide +kernel⟩
theorem wit_BootEventsAct_5 : ∃ (s : State) (ok : Bool),
    s.boot.phase = .linkTrain ∧ s.boot.dramTrained = false :=
  ⟨{ ready with boot := { ready.boot with phase := .linkTrain, dramTrained := false } }, true,
    by decide +kernel, by decide +kernel⟩
theorem wit_SerdesPllsAct_1 : ∃ (s : State) (p : Pll),
    s.clk.refPresent = true :=
  ⟨ready, .border 0, by decide +kernel⟩
theorem wit_SerdesPllsAct_2 : ∃ (s : State) (p : Pll),
    s.clk.refPresent = false ∧ s.fires = [] :=
  ⟨State.reset, .wale, by decide +kernel, by decide +kernel⟩
theorem wit_FunctionResetsAct_0 : ∃ (s : State) (n : Sess),
    s.enabledPort (fnPort n.val) = true ∧ s.vfExists n.val = true ∧ s.configOpen = true :=
  ⟨ready, 63,
    by decide +kernel, by decide +kernel, by decide +kernel⟩
theorem wit_FunctionResetsAct_1 : ∃ (s : State) (n : HostPort),
    s.enabledPort n.val = true ∧ s.configOpen = true :=
  ⟨ready, 0,
    by decide +kernel, by decide +kernel⟩
theorem wit_FunctionResetsAct_2 : ∃ (s : State) (n : Sess),
    (s.fn n.val).resetDrain = true ∧ s.draining n.val = false ∧ s.fires = [] :=
  ⟨modFn 0 (fun x => { x with resetDrain := true }) ready, 0,
    by decide +kernel, by decide +kernel, by decide +kernel⟩
theorem wit_FunctionResetsAct_3 : ∃ (s : State) (f : Fn),
    s.fnExists f.val = true ∧ s.fires = [] ∧ s.configOpen = true :=
  ⟨ready, 67,
    by decide +kernel, by decide +kernel, by decide +kernel⟩
theorem wit_FunctionResetsAct_4 : ∃ (s : State) (f : Fn),
    (s.fn f.val).d3hot = true ∧ s.fires = [] :=
  ⟨modFn 64 (fun x => { x with d3hot := true }) ready, 64, by decide +kernel, by decide +kernel⟩
theorem wit_FunctionResetsAct_4held : ∃ (s : State) (f : Fn),
    (s.fn f.val).d3hot = true ∧ s.fires = [] ∧ (s.fn f.val).held = [(mkCpl (cmdOf []) {} 0, false)] :=
  ⟨modFn 64 (fun x => { x with d3hot := true, held := [(mkCpl (cmdOf []) {} 0, false)] }) ready, 64,
    by decide +kernel, by decide +kernel, by decide +kernel⟩
theorem wit_RingRegistersAct_0 : ∃ (s : State) (f : Fn) (v : W32),
    s.barOpen f.val = true ∧ (s.fn f.val).enable = true ∧ s.fires = [] ∧ v.toNat % 4096 < (s.fn f.val).cmdSize ∧ ¬ (0 < (v.toNat % 4096 + (s.fn f.val).cmdSize - (s.fn f.val).head.toNat % (s.fn f.val).cmdSize) % (s.fn f.val).cmdSize ∧ (v.toNat % 4096 + (s.fn f.val).cmdSize - (s.fn f.val).head.toNat % (s.fn f.val).cmdSize) % (s.fn f.val).cmdSize < (s.fn f.val).asked) :=
  ⟨modFn 64 (fun x => { x with enable := true, fetching := true }) ready, 64, 0,
    by decide +kernel⟩
theorem wit_RingRegistersAct_0behind : ∃ (s : State) (f : Fn) (v : W32),
    s.barOpen f.val = true ∧ (s.fn f.val).enable = true ∧ s.fires = [] ∧ v.toNat % 4096 < (s.fn f.val).cmdSize ∧ 0 < (v.toNat % 4096 + (s.fn f.val).cmdSize - (s.fn f.val).head.toNat % (s.fn f.val).cmdSize) % (s.fn f.val).cmdSize ∧ (v.toNat % 4096 + (s.fn f.val).cmdSize - (s.fn f.val).head.toNat % (s.fn f.val).cmdSize) % (s.fn f.val).cmdSize < (s.fn f.val).asked :=
  ⟨modFn 64 (fun x => { x with enable := true, fetching := true, ringSize := 0x0404, tail := 8, asked := 4 }) ready, 64, 3,
    by decide +kernel⟩
theorem wit_RingRegistersAct_1 : ∃ (s : State) (f : Fn) (v : W32),
    s.barOpen f.val = true ∧ (s.fn f.val).enable = true ∧ s.fires = [] ∧ (s.fn f.val).cmdSize ≤ v.toNat % 4096 :=
  ⟨modFn 64 (fun x => { x with enable := true, fetching := true }) ready, 64, 4095,
    by decide +kernel, by decide +kernel, by decide +kernel, by decide +kernel⟩
theorem wit_RingRegistersAct_2 : ∃ (s : State) (f : Fn) (v : W32),
    s.barOpen f.val = true ∧ s.fires = [] :=
  ⟨ready, 64, 5, by decide +kernel, by decide +kernel⟩
theorem wit_RingRegistersAct_3 : ∃ (s : State) (f : Fn),
    s.barOpen f.val = true ∧ s.fires = [] ∧ (s.fn f.val).sizeOk = true :=
  ⟨modFn 64 (fun x => { x with ringSize := 0x0404 }) ready, 64,
    by decide +kernel, by decide +kernel, by decide +kernel⟩
theorem wit_RingRegistersAct_4 : ∃ (s : State) (f : Fn),
    s.barOpen f.val = true ∧ s.fires = [] ∧ (s.fn f.val).sizeOk = false :=
  ⟨modFn 64 (fun x => { x with ringSize := 0x0F0F }) ready, 64,
    by decide +kernel, by decide +kernel, by decide +kernel⟩
theorem wit_RingRegistersAct_5 : ∃ (s : State) (f : Fn),
    s.barOpen f.val = true ∧ s.fires = [] :=
  ⟨ready, 64, by decide +kernel, by decide +kernel⟩
theorem wit_SessionCommandsAct_0 : ∃ (s : State) (f : Fn) (tag : W32) (c : Cmd),
    Waits s f.val tag 0x01 c :=
  ⟨inFlight 5 (cmdOf [(0, 1), (2, 3)]) (owned), 5, 7, cmdOf [(0, 1), (2, 3)], ⟨by decide +kernel,
    by decide +kernel, by decide +kernel, by decide +kernel⟩⟩
theorem wit_SessionCommandsAct_1 : ∃ (s : State) (f : Fn) (d : BitVec 512),
    s.mayFetch f.val = true ∧ s.fires = [] ∧ ((s.fn f.val).window.find? (fun e => e.tag == (newCmd d s.t).tag) = none) ∧ s.cmd f.val (newCmd d s.t).tag = none ∧ s.descriptorCheck f.val (s.noteBacklog (newCmd d s.t)) = none ∧ s.afterRelease f.val (s.noteBacklog (newCmd d s.t)) = false :=
  ⟨modFn 64 (fun x => { x with enable := true, fetching := true, tail := 1, ringSize := 0x0404, cplHead := 0 }) ready, 64, desc [(0, 1)],
    by decide +kernel⟩
theorem wit_SessionCommandsAct_2 : ∃ (s : State) (f : Fn) (d : BitVec 512),
    s.mayFetch f.val = true :=
  ⟨modFn 64 (fun x => { x with enable := true, fetching := true, tail := 1, ringSize := 0x0404, cplHead := 0 }) ready, 64, 0,
    by decide +kernel⟩
theorem wit_SessionCommandsAct_3 : ∃ (s : State) (f : Fn) (t0 : Nat) (e : Msix),
    (s.fn f.val).coalSince = some t0 ∧ 0 < (s.fn f.val).coal.toNat / 65536 % 1024 ∧ s.after t0 ((s.fn f.val).coal.toNat / 65536 % 1024) = true ∧ (s.fn f.val).vectors[cplVector f.val]? = some e ∧ (s.fn f.val).mayInterrupt e = true ∧ s.fires = [] :=
  ⟨modFn 5 (fun x => { x with coalSince := some 0, msixEnable := true, coal := 0x10000, vectors := List.replicate 3 { Msix.init with mask := false } }) ready, 5, 0, { Msix.init with mask := false },
    by decide +kernel⟩
theorem wit_SessionCommandsAct_4 : ∃ (s : State) (f : Fn) (tag : W32) (c : Cmd),
    s.cmd f.val tag = some c ∧ s.usesBuffer c = true ∧ c.op ≠ 0x70 ∧ (∀ e ∈ s.slath.exports, e.fn = f.val → e.tag ≠ tag) ∧ c.writesLast = false :=
  ⟨inFlight 5 (cmdOf [(0, 144), (2, 3)]) (owned), 5, 7, cmdOf [(0, 144), (2, 3)],
    by decide +kernel⟩
theorem wit_SessionCommandsAct_5 : ∃ (s : State) (f : Fn) (tag : W32) (c : Cmd),
    s.cmd f.val tag = some c ∧ s.usesBuffer c = true ∧ c.writesLast = true ∧ s.fires = [] :=
  ⟨inFlight 5 (cmdOf [(0, 81), (2, 3)]) owned, 5, 7, cmdOf [(0, 81), (2, 3)],
    by decide +kernel, by decide +kernel, by decide +kernel, by decide +kernel⟩
theorem wit_SessionCommandsAct_5traceFlush : ∃ (s : State) (f : Fn) (tag : W32) (c : Cmd),
    s.cmd f.val tag = some c ∧ s.usesBuffer c = true ∧ c.writesLast = true ∧ s.fires = [] :=
  ⟨inFlight 5 (cmdOf [(0, 65), (2, 3), (52, 1)]) owned, 5, 7, cmdOf [(0, 65), (2, 3), (52, 1)],
    by decide +kernel, by decide +kernel, by decide +kernel, by decide +kernel⟩
theorem wit_SessionCommandsAct_5hangReport : ∃ (s : State) (f : Fn) (tag : W32) (c : Cmd),
    s.cmd f.val tag = some c ∧ s.usesBuffer c = true ∧ c.writesLast = true ∧ s.fires = [] :=
  ⟨inFlight 5 (cmdOf [(0, 128), (2, 3), (52, 1)]) owned, 5, 7, cmdOf [(0, 128), (2, 3), (52, 1)],
    by decide +kernel, by decide +kernel, by decide +kernel, by decide +kernel⟩
theorem wit_CutsAct_0 : ∃ (s : State) (f : Fn) (tag : W32) (c : Cmd),
    Waits s f.val tag 0x30 c ∧ s.owns f.val c.partition = true ∧ c.partition < 64 ∧ (s.part c.partition).held = false :=
  ⟨inFlight 5 (cmdOf [(0, 48), (2, 3)]) (owned), 5, 7, cmdOf [(0, 48), (2, 3)], ⟨by decide +kernel,
    by decide +kernel, by decide +kernel, by decide +kernel⟩, by decide +kernel, by decide +kernel, by decide +kernel⟩
theorem wit_CutsAct_1 : ∃ (s : State) (p : Part) (l : List UnitNo) (c0 : Cut) (c : Cut) (a : Nat) (b : Nat),
    (s.part p.val).build = some c0 ∧ c0.stage = 1 ∧ s.synthOpen p.val = false ∧ ((poisonHeld p.val (l.map fun x => x.toNat) s).part p.val).build = some c ∧ (poisonHeld p.val (l.map fun x => x.toNat) s).stagedCuts < Config.maxCuts ∧ ((poisonHeld p.val (l.map fun x => x.toNat) s).part p.val).cuts.length < Config.maxPartCuts ∧ (poisonHeld p.val (l.map fun x => x.toNat) s).slath.nextId ≤ 0xFFFFFFFF ∧ (poisonHeld p.val (l.map fun x => x.toNat) s).reserve (ceilDiv (((poisonHeld p.val (l.map fun x => x.toNat) s).proven p.val c).regionSplints * 4096) 65536 + ceilDiv ((poisonHeld p.val (l.map fun x => x.toNat) s).proven p.val c).streamLen 65536) = some (a, b) :=
  ⟨part3 fun x => { x with build := some aCut }, 3, [], aCut, aCut, (State.reserve (part3 fun x => { x with build := some aCut }) (ceilDiv ((State.proven (part3 fun x => { x with build := some aCut }) 3 aCut).regionSplints * 4096) 65536 + ceilDiv (State.proven (part3 fun x => { x with build := some aCut }) 3 aCut).streamLen 65536)).get!.1, (State.reserve (part3 fun x => { x with build := some aCut }) (ceilDiv ((State.proven (part3 fun x => { x with build := some aCut }) 3 aCut).regionSplints * 4096) 65536 + ceilDiv (State.proven (part3 fun x => { x with build := some aCut }) 3 aCut).streamLen 65536)).get!.2,
    by decide +kernel⟩
theorem wit_CutsAct_2 : ∃ (s : State) (p : Part) (l : List UnitNo) (c : Cut),
    (s.part p.val).build = some c ∧ c.stage = 1 ∧ s.synthOpen p.val = false ∧ ((poisonHeld p.val (l.map fun x => x.toNat) s).part p.val).build = some c ∧ 0xFFFFFFFF < (poisonHeld p.val (l.map fun x => x.toNat) s).slath.nextId :=
  ⟨{ (part3 fun x => { x with build := some aCut }) with slath := { owned.slath with nextId := 0x100000000 } }, 3, [], aCut,
    by decide +kernel⟩
theorem wit_CutsAct_3 : ∃ (s : State) (f : Fn) (tag : W32) (c : Cmd),
    Waits s f.val tag 0x33 c ∧ s.owns f.val c.partition = true ∧ ((((s.part c.partition).cuts.filter fun x => BitVec.ofNat 32 (c.f 56 4) == 0xFFFFFFFF || x.id == BitVec.ofNat 32 (c.f 56 4)).filter fun x => !x.releasing).map (·.id) ≠ []) :=
  ⟨inFlight 5 (cmdOf [(0, 51), (2, 3), (56, 1)]) (part3 fun x => { x with cuts := [{ aCut with stage := 4 }] }), 5, 7, cmdOf [(0, 51), (2, 3), (56, 1)], ⟨by decide +kernel,
    by decide +kernel, by decide +kernel, by decide +kernel⟩, by decide +kernel, by decide +kernel⟩
theorem wit_CutsAct_4 : ∃ (s : State) (p : Part) (id : W32) (c : Cut),
    s.cut p.val id = some c ∧ c.releasing = true ∧ c.stage = 4 ∧ c.releasedBy = none ∧ ((s.slath.exports.any fun e => e.partition == p.val && e.cut == id) = false) :=
  ⟨part3 fun x => { x with cuts := [{ aCut with stage := 4, releasing := true }] }, 3, 1, { aCut with stage := 4, releasing := true },
    by decide +kernel⟩
theorem wit_ExportsAct_0 : ∃ (s : State) (f : Fn) (tag : W32) (c : Cmd) (k : Cut) (count : Nat),
    Waits s f.val tag 0x31 c ∧ s.reads f.val c.partition = true ∧ (started f.val tag s).barred { c with started := true } = false ∧ s.cut c.partition (BitVec.ofNat 32 (c.f 56 4)) = some k ∧ k.releasing = false ∧ (started f.val tag s).releaseFetched c.partition k = false ∧ c.f 53 1 = 0 ∧ (count = (if c.param1 = 0xFFFFFFFF then (if c.f 52 1 = 0 then k.regionSplints else k.stateSplints) - c.param0 else c.param1)) ∧ c.param1 ≠ 0 ∧ (c.param0 < (if c.f 52 1 = 0 then k.regionSplints else k.stateSplints)) ∧ (c.param0 + count ≤ (if c.f 52 1 = 0 then k.regionSplints else k.stateSplints)) ∧ (4160 * (count + manifestSplints (if c.f 52 1 = 0 then k.regionSplints else k.stateSplints)) ≤ c.bufWindow) ∧ c.badBuffer = false ∧ s.openExports f.val < Config.maxExports :=
  ⟨inFlight 5 (cmdOf [(0, 49), (2, 3), (24, 1), (56, 1), (40, 65536)]) (part3 fun x => { x with cuts := [oneRange] }), 5, 7, cmdOf [(0, 49), (2, 3), (24, 1), (56, 1), (40, 65536)], oneRange, 1,
    ⟨by decide +kernel, by decide +kernel, by decide +kernel, by decide +kernel⟩, by decide +kernel⟩
theorem wit_ExportsAct_1 : ∃ (s : State) (f : Fn) (tag : W32) (c : Cmd) (o : Nat) (n : Nat),
    Waits s f.val tag 0x32 c ∧ (started f.val tag s).unitCheck f.val { c with started := true } = none ∧ c.unitFirst / 4096 < 8 ∧ s.inReach (c.unitFirst / 4096, c.unitFirst % 4096, false, c.unitFirst) = true ∧ (o, n) ∈ chunksOf (s.memLength c) 4092 :=
  ⟨inFlight 5 (cmdOf [(0, 50), (2, 3), (16, 8192), (18, 1), (40, 65536), (48, 4)]) (portUp), 5, 7, cmdOf [(0, 50), (2, 3), (16, 8192), (18, 1), (40, 65536), (48, 4)], 0, 4,
    ⟨by decide +kernel, by decide +kernel, by decide +kernel, by decide +kernel⟩, by decide +kernel,
    by decide +kernel, by decide +kernel, by decide +kernel⟩
theorem wit_ExportsAct_2 : ∃ (s : State) (v : SplintEcc) (e : Export) (u : State),
    s.slath.exports.any s.exportReady = true ∧ findTurn 130 s = some (e, u) :=
  ⟨(inFlight 5 (cmdOf [(0, 49), (2, 3)]) { ready with slath := { ready.slath with turn := 5, deficits := [(5, 1)], exports := [{ anExport with dest := 0 }] } }), { corrected := 0, bad := 0 }, { anExport with dest := 0 }, (inFlight 5 (cmdOf [(0, 49), (2, 3)]) { ready with slath := { ready.slath with turn := 5, deficits := [(5, 1)], exports := [{ anExport with dest := 0 }] } }),
    by decide +kernel, by decide +kernel⟩
theorem wit_ExportsAct_3 : ∃ (s : State) (f : Fn) (tag : W32) (c : Cmd) (e : Export),
    s.cmd f.val tag = some c ∧ s.fires = [] ∧ (s.slath.exports.find? (fun e => e.fn == f.val && e.tag == tag) = some e) ∧ e.dest = 2 ∧ s.wale.portUp = false ∧ s.after (max e.since s.wale.downAt) 100000 = true :=
  ⟨inFlight 5 (cmdOf [(0, 49), (2, 3)]) ({ owned with slath := { owned.slath with exports := [anExport] } }), 5, 7, cmdOf [(0, 49), (2, 3)], anExport,
    by decide +kernel⟩
theorem wit_TraceCommandsAct_0 : ∃ (s : State) (f : Fn) (tag : W32) (c : Cmd),
    Waits s f.val tag 0x40 c ∧ s.owns f.val c.partition = true ∧ c.partition < 64 ∧ (started f.val tag s).barred { c with started := true } = false ∧ c.f 52 1 = 2 :=
  ⟨inFlight 5 (cmdOf [(0, 64), (2, 3), (52, 2)]) (owned), 5, 7, cmdOf [(0, 64), (2, 3), (52, 2)], ⟨by decide +kernel,
    by decide +kernel, by decide +kernel, by decide +kernel⟩, by decide +kernel, by decide +kernel, by decide +kernel,
    by decide +kernel⟩
theorem wit_TraceCommandsAct_1 : ∃ (s : State) (f : Fn) (tag : W32) (c : Cmd) (v : Bool),
    Waits s f.val tag 0x41 c ∧ s.reads f.val c.partition = true ∧ c.f 52 1 = 0 :=
  ⟨inFlight 5 (cmdOf [(0, 65), (2, 3)]) (owned), 5, 7, cmdOf [(0, 65), (2, 3)], true, ⟨by decide +kernel,
    by decide +kernel, by decide +kernel, by decide +kernel⟩, by decide +kernel, by decide +kernel⟩
theorem wit_TraceCommandsAct_2 : ∃ (s : State) (f : Fn) (tag : W32) (c : Cmd) (v : Bool),
    Waits s f.val tag 0x41 c ∧ s.owns f.val c.partition = true ∧ c.f 52 1 = 2 ∧ c.partition < 64 :=
  ⟨inFlight 5 (cmdOf [(0, 65), (2, 3), (52, 2)]) (owned), 5, 7, cmdOf [(0, 65), (2, 3), (52, 2)], true, ⟨by decide +kernel,
    by decide +kernel, by decide +kernel, by decide +kernel⟩, by decide +kernel, by decide +kernel, by decide +kernel⟩
theorem wit_TraceCommandsAct_3 : ∃ (s : State) (f : Fn) (tag : W32) (c : Cmd),
    s.cmd f.val tag = some c ∧ c.op = 0x41 ∧ c.started = true ∧ c.work.stage = 1 ∧ (s.part c.partition).drained c.work.r1 = true ∧ (commitBlock c.partition (shedQueue c.partition s)).isSome = true :=
  ⟨inFlight 5 (cmdWith [(0, 65), (2, 3)] true { Work.init with stage := 1 }) (owned), 5, 7, cmdWith [(0, 65), (2, 3)] true { Work.init with stage := 1 },
    by decide +kernel⟩
theorem wit_TracePortActs_0 : ∃ (s : State) (p : Part) (fr : Frame),
    (s.part p.val).frame = some fr ∧ s.wale.portUp = true ∧ s.after fr.since 10 = true :=
  ⟨modPart 3 (fun x => { x with frame := some { coded := false, recs := 0, body := [], since := 0, spilled := false, firstTs := 0, spanOff := none, spansEnded := 0 } }) { ready with wale := { ready.wale with portUp := true } }, 3, { coded := false, recs := 0, body := [], since := 0, spilled := false, firstTs := 0, spanOff := none, spansEnded := 0 },
    by decide +kernel, by decide +kernel, by decide +kernel⟩
theorem wit_TracePortActs_1 : ∃ (s : State),
    s.wale.portUp = true ∧ s.after s.wale.lastFrame 1000 = true ∧ s.fires = [] ∧ s.boot.phase = .ready :=
  ⟨{ ready with wale := { ready.wale with portUp := true } },
    by decide +kernel, by decide +kernel, by decide +kernel, by decide +kernel⟩
theorem wit_TracePortActs_2 : ∃ (s : State) (v : Ecc) (q : Nat) (b : List Byte) (rest : List (Nat × List Byte)),
    s.wale.portUp = true ∧ s.wale.dumpQueue = (q, b) :: rest ∧ (List.range 64).any s.hasFrame = false ∧ s.fires = [] :=
  ⟨{ ready with wale := { ready.wale with portUp := true, dumpQueue := [(5, [])] } }, .good, 5, [], [],
    by decide +kernel, by decide +kernel, by decide +kernel, by decide +kernel⟩
theorem wit_TracePortActs_3 : ∃ (s : State),
    s.wale.portUp = true ∧ s.wale.dumpQueue = [] :=
  ⟨{ ready with wale := { ready.wale with portUp := true } }, by decide +kernel, by decide +kernel⟩
theorem wit_TracePortActs_4 : ∃ (s : State) (p : Part),
    s.wale.portUp = false :=
  ⟨ready, 3,
    by decide +kernel⟩
theorem wit_TracePortActs_5 : ∃ (s : State) (p : Part) (g : Gap),
    (s.part p.val).gapPort = some g ∧ s.portRoom p.val = true :=
  ⟨part3 fun x => { x with gapPort := some { count := 0, bytes := 0, firstTs := 0, lastTs := 0, cause := 1 } }, 3, { count := 0, bytes := 0, firstTs := 0, lastTs := 0, cause := 1 },
    by decide +kernel, by decide +kernel⟩
theorem wit_TracePortActs_6 : ∃ (s : State) (p : Part) (b : Block) (rest : List Block),
    (s.part p.val).spill = b :: rest ∧ s.tierRoom p.val b.used = true :=
  ⟨part3 fun x => { x with spill := [{ seq := 0, bkind := 1, partition := 3, lossOpen := false, committed := 0, recs := [] }] }, 3, { seq := 0, bkind := 1, partition := 3, lossOpen := false, committed := 0, recs := [] }, [],
    by decide +kernel, by decide +kernel⟩
theorem wit_TracePortActs_7 : ∃ (s : State) (l : LinkNo),
    (s.lnk l.val).link = .active ∧ (l.val = 8 → s.plait.pair = .paired ∧ (s.lnk l.val).recResumed = false) ∧ s.after (s.lnk l.val).recAt 10000 = true :=
  ⟨linkAt 2 .active, 2,
    by decide +kernel, by decide +kernel, by decide +kernel⟩
theorem wit_TracePortActs_7twin : ∃ (s : State) (l : LinkNo),
    (s.lnk l.val).link = .active ∧ (l.val = 8 → s.plait.pair = .paired ∧ (s.lnk l.val).recResumed = false) ∧ s.after (s.lnk l.val).recAt 10000 = true :=
  ⟨paired, 8,
    by decide +kernel, by decide +kernel, by decide +kernel⟩
theorem wit_TracePortActs_8 : ∃ (s : State),
    s.wale.portUp = false ∧ s.clk.wale = true ∧ s.fires = [] ∧ s.waleStarts = true :=
  ⟨ready,
    by decide +kernel, by decide +kernel, by decide +kernel, by decide +kernel⟩
theorem wit_TracePortActs_9 : ∃ (s : State),
    s.wale.portUp = true :=
  ⟨{ ready with wale := { ready.wale with portUp := true } }, by decide +kernel⟩
theorem wit_CountersAct_0 : ∃ (s : State) (f : Fn) (tag : W32) (data : List Byte) (c : Cmd),
    Waits s f.val tag 0x50 c ∧ s.owns f.val c.partition = true ∧ c.partition < 64 ∧ (started f.val tag s).barred { c with started := true } = false ∧ (s.part c.partition).cfg = none ∧ ((bit (c.f 52 1) 1 = true ∨ (s.newSels c data).any (fun e => badSel e.2) = false)) ∧ bit (c.f 52 1) 0 = false :=
  ⟨inFlight 5 (cmdOf [(0, 80), (2, 3), (52, 2)]) (owned), 5, 7, [], cmdOf [(0, 80), (2, 3), (52, 2)], ⟨by decide +kernel,
    by decide +kernel, by decide +kernel, by decide +kernel⟩, by decide +kernel⟩
theorem wit_CountersAct_1 : ∃ (s : State) (p : Part) (c : PendingCfg),
    (s.part p.val).cfg = some c ∧ c.latchNow = false ∧ c.deadline ≤ s.t ∧ s.fires = [] ∧ (((s.part p.val).deferred.any fun d => d.forConfig) = false) ∧ s.latchAllowed p.val = false :=
  ⟨part3 fun x => { x with cfg := some { fn := 5, tag := 7, sels := [], latchNow := false, deadline := 0 }, lastLatch := some 1000000000 }, 3, { fn := 5, tag := 7, sels := [], latchNow := false, deadline := 0 },
    by decide +kernel⟩
theorem wit_CountersAct_2 : ∃ (s : State) (p : Part) (c : PendingCfg),
    (s.part p.val).cfg = some c ∧ c.latchNow = false ∧ c.deadline ≤ s.t ∧ (s.part p.val).deferred = [] ∧ s.latchAllowed p.val = true :=
  ⟨part3 fun x => { x with cfg := some { fn := 5, tag := 7, sels := [], latchNow := false, deadline := 0 } }, 3, { fn := 5, tag := 7, sels := [], latchNow := false, deadline := 0 },
    by decide +kernel⟩
theorem wit_CountersAct_3 : ∃ (s : State) (p : Part) (d : DeferredLatch) (rest : List DeferredLatch),
    (s.part p.val).deferred = d :: rest ∧ d.due ≤ s.t ∧ s.latchAllowed p.val = true :=
  ⟨part3 fun x => { x with deferred := [{ due := 0, lkind := 2, fn := 5, tag := 7, mask := 0, record := false, forConfig := false }] }, 3, { due := 0, lkind := 2, fn := 5, tag := 7, mask := 0, record := false, forConfig := false }, [],
    by decide +kernel, by decide +kernel, by decide +kernel⟩
theorem wit_CountersAct_4 : ∃ (s : State) (f : Fn) (tag : W32) (c : Cmd),
    Waits s f.val tag 0x51 c ∧ c.f 52 1 = 1 ∧ s.readsAlways f.val = true ∧ c.work.dmaError = false :=
  ⟨inFlight 64 (cmdOf [(0, 81), (52, 1)]) (owned), 64, 7, cmdOf [(0, 81), (52, 1)],
    ⟨by decide +kernel, by decide +kernel, by decide +kernel, by decide +kernel⟩, by decide +kernel,
    by decide +kernel, by decide +kernel⟩
theorem wit_CountersAct_5 : ∃ (s : State) (f : Fn) (tag : W32) (c : Cmd),
    Waits s f.val tag 0x51 c ∧ c.f 52 1 ≠ 1 ∧ s.readsCounters f.val c.partition = true ∧ c.partition < 64 ∧ s.latchAllowed c.partition = false :=
  ⟨inFlight 5 (cmdOf [(0, 81), (2, 3)]) (part3 fun x => { x with lastLatch := some 1000000000 }), 5, 7, cmdOf [(0, 81), (2, 3)], ⟨by decide +kernel,
    by decide +kernel, by decide +kernel, by decide +kernel⟩, by decide +kernel, by decide +kernel, by decide +kernel,
    by decide +kernel⟩
theorem wit_ClaimObserveReleaseAct_0 : ∃ (s : State) (f : Fn) (tag : W32) (c : Cmd),
    Waits s f.val tag 0x02 c ∧ c.partition < 64 ∧ s.notAllowed f.val c.partition = false ∧ s.twinHolds c.partition = false ∧ (s.part c.partition).owner = none ∧ Settled s c.partition ∧ s.revoking c.partition = false ∧ s.rivals 0x02 f.val c = 0 :=
  ⟨inFlight 5 (cmdOf [(0, 2), (2, 3)]) (modSess 5 (fun x => { x with allow := 8 }) ready), 5, 7, cmdOf [(0, 2), (2, 3)],
    ⟨by decide +kernel, by decide +kernel, by decide +kernel, by decide +kernel⟩, by decide +kernel,
    by decide +kernel, by decide +kernel, by decide +kernel, ⟨by decide +kernel, by decide +kernel⟩,
    by decide +kernel, by decide +kernel⟩
theorem wit_ClaimObserveReleaseAct_1 : ∃ (s : State) (f : Fn) (tag : W32) (c : Cmd),
    Waits s f.val tag 0x04 c ∧ c.partition < 64 ∧ s.notAllowed f.val c.partition = false ∧ s.twinHolds c.partition = false ∧ s.reads f.val c.partition = false ∧ (s.part c.partition).observers.length + s.rivals 0x04 f.val c < Config.maxObservers :=
  ⟨inFlight 5 (cmdOf [(0, 4), (2, 3)]) (modSess 5 (fun x => { x with allow := 8 }) ready), 5, 7, cmdOf [(0, 4), (2, 3)],
    ⟨by decide +kernel, by decide +kernel, by decide +kernel, by decide +kernel⟩, by decide +kernel⟩
theorem wit_ClaimObserveReleaseAct_2 : ∃ (s : State) (f : Fn) (tag : W32) (c : Cmd),
    Waits s f.val tag 0x03 c ∧ c.f 52 1 ≠ 1 ∧ s.owns f.val c.partition = true :=
  ⟨inFlight 5 (cmdOf [(0, 3), (2, 3)]) (owned), 5, 7, cmdOf [(0, 3), (2, 3)], ⟨by decide +kernel,
    by decide +kernel, by decide +kernel, by decide +kernel⟩, by decide +kernel, by decide +kernel⟩
theorem wit_ClaimObserveReleaseAct_3 : ∃ (s : State) (f : Fn) (tag : W32) (c : Cmd),
    s.cmd f.val tag = some c ∧ c.op = 0x03 ∧ c.work.stage = 1 ∧ s.fires = [] ∧ c.partition < 64 ∧ (((earlier (s.fn f.val).inflight tag).any fun x => !x.heldDup && x.usesPartition && x.partition == c.partition) = false) ∧ s.owns f.val c.partition = true ∧ Settled s c.partition ∧ s.osier.runs = [] :=
  ⟨inFlight 5 (cmdWith [(0, 3), (2, 3)] true { Work.init with stage := 1 }) (owned), 5, 7, cmdWith [(0, 3), (2, 3)] true { Work.init with stage := 1 },
    by decide +kernel, by decide +kernel, by decide +kernel, by decide +kernel, by decide +kernel, by decide +kernel,
    by decide +kernel, ⟨by decide +kernel, by decide +kernel⟩, by decide +kernel⟩
theorem wit_GrantsAndEpochsAct_0act5 : ∃ (s : State) (f : Fn) (tag : W32) (c : Cmd),
    Waits s f.val tag 0x05 c ∧ s.grantWaits (afterReset f.val) tag = false ∧ s.grantCheck f.val c = none ∧ s.grantAlready c = false ∧ c.f 53 1 < 64 ∧ c.f 52 1 = 5 :=
  ⟨inFlight 64 (cmdOf [(0, 5), (2, 3), (52, 5), (53, 5)]) (owned), 64, 7, cmdOf [(0, 5), (2, 3), (52, 5), (53, 5)],
    ⟨by decide +kernel, by decide +kernel, by decide +kernel, by decide +kernel⟩, by decide +kernel⟩
theorem wit_GrantsAndEpochsAct_0act6 : ∃ (s : State) (f : Fn) (tag : W32) (c : Cmd),
    Waits s f.val tag 0x05 c ∧ s.grantWaits (afterReset f.val) tag = false ∧ s.grantCheck f.val c = none ∧ s.grantAlready c = false ∧ c.f 53 1 < 64 ∧ c.f 52 1 = 6 :=
  ⟨inFlight 64 (cmdOf [(0, 5), (2, 3), (52, 6), (53, 5)]) (owned), 64, 7, cmdOf [(0, 5), (2, 3), (52, 6), (53, 5)],
    ⟨by decide +kernel, by decide +kernel, by decide +kernel, by decide +kernel⟩, by decide +kernel⟩
theorem wit_GrantsAndEpochsAct_0act7 : ∃ (s : State) (f : Fn) (tag : W32) (c : Cmd),
    Waits s f.val tag 0x05 c ∧ s.grantWaits (afterReset f.val) tag = false ∧ s.grantCheck f.val c = none ∧ s.grantAlready c = false ∧ c.f 53 1 < 64 ∧ c.f 52 1 = 7 :=
  ⟨inFlight 64 (cmdOf [(0, 5), (2, 3), (52, 7), (53, 5)]) (owned), 64, 7, cmdOf [(0, 5), (2, 3), (52, 7), (53, 5)],
    ⟨by decide +kernel, by decide +kernel, by decide +kernel, by decide +kernel⟩, by decide +kernel⟩
theorem wit_GrantsAndEpochsAct_1 : ∃ (s : State) (f : Fn) (tag : W32) (c : Cmd),
    Waits s f.val tag 0x05 c ∧ s.grantWaits (afterReset f.val) tag = false ∧ s.grantCheck f.val c = none ∧ s.grantAlready c = false ∧ c.f 52 1 = 3 ∧ c.partition < 64 ∧ s.revoking c.partition = false :=
  ⟨inFlight 64 (cmdOf [(0, 5), (2, 3), (52, 3), (53, 6)]) (owned), 64, 7, cmdOf [(0, 5), (2, 3), (52, 3), (53, 6)],
    ⟨by decide +kernel, by decide +kernel, by decide +kernel, by decide +kernel⟩, by decide +kernel⟩
theorem wit_GrantsAndEpochsAct_2 : ∃ (s : State) (f : Fn) (tag : W32) (c : Cmd),
    Waits s f.val tag 0x90 c ∧ s.err.stopped = false ∧ c.f 52 1 = 0 ∧ c.f 53 1 ≠ 0xFE ∧ s.seesMeters f.val (c.f 53 1) = true :=
  ⟨inFlight 5 (cmdOf [(0, 144), (53, 5)]) (owned), 5, 7, cmdOf [(0, 144), (53, 5)], ⟨by decide +kernel,
    by decide +kernel, by decide +kernel, by decide +kernel⟩, by decide +kernel, by decide +kernel, by decide +kernel,
    by decide +kernel⟩
theorem wit_GrantsAndEpochsAct_3 : ∃ (s : State) (f : Fn) (tag : W32) (c : Cmd),
    Waits s f.val tag 0x91 c ∧ s.err.stopped = false ∧ s.isArbiterPm f.val = true ∧ s.billing.epoch ≠ 0xFFFFFFFF ∧ s.closedNow 1 = none :=
  ⟨inFlight 64 (cmdOf [(0, 145)]) (owned), 64, 7, cmdOf [(0, 145)],
    ⟨by decide +kernel, by decide +kernel, by decide +kernel, by decide +kernel⟩, by decide +kernel,
    by decide +kernel, by decide +kernel, by decide +kernel⟩
theorem wit_GrantsAndEpochsAct_4 : ∃ (s : State) (f : Fn) (tag : W32) (c : Cmd) (e : LogEntry),
    Waits s f.val tag 0x91 c ∧ s.err.stopped = false ∧ s.isArbiterPm f.val = true ∧ s.closedNow 1 = some e ∧ e.epoch ≠ 0xFFFFFFFF :=
  ⟨inFlight 64 (cmdOf [(0, 145)]) (closedBy 1), 64, 7, cmdOf [(0, 145)], closeLog 1,
    ⟨by decide +kernel, by decide +kernel, by decide +kernel, by decide +kernel⟩, by decide +kernel,
    by decide +kernel, by decide +kernel, by decide +kernel⟩
theorem wit_GrantsAndEpochsAct_5 : ∃ (s : State) (f : Fn) (tag : W32) (c : Cmd),
    Waits s f.val tag 0x92 c ∧ s.err.stopped = false ∧ s.isArbiterPm f.val = true ∧ bit (c.f 52 1) 0 = false ∧ bit (c.f 52 1) 1 = true :=
  ⟨inFlight 64 (cmdOf [(0, 146), (52, 2)]) (owned), 64, 7, cmdOf [(0, 146), (52, 2)], ⟨by decide +kernel,
    by decide +kernel, by decide +kernel, by decide +kernel⟩, by decide +kernel, by decide +kernel, by decide +kernel,
    by decide +kernel⟩
theorem wit_GrantsAndEpochsAct_6 : ∃ (s : State) (f : Fn) (tag : W32) (c : Cmd),
    Waits s f.val tag 0x92 c ∧ s.err.stopped = false ∧ s.isArbiterPm f.val = true ∧ bit (c.f 52 1) 0 = true :=
  ⟨inFlight 64 (cmdOf [(0, 146), (52, 1)]) (owned), 64, 7, cmdOf [(0, 146), (52, 1)], ⟨by decide +kernel,
    by decide +kernel, by decide +kernel, by decide +kernel⟩, by decide +kernel, by decide +kernel, by decide +kernel⟩
theorem wit_GrantsAndEpochsAct_7 : ∃ (s : State),
    s.boundaryDue = true ∧ s.billing.epoch ≠ 0xFFFFFFFF ∧ s.fires = [] ∧ s.closedNow 0 = none :=
  ⟨{ ready with billing := { ready.billing with wallSet := true, wall := 100000000000000, periodS := 1 } },
    by decide +kernel, by decide +kernel, by decide +kernel, by decide +kernel⟩
theorem wit_GrantsAndEpochsAct_8 : ∃ (s : State),
    s.boundaryDue = true ∧ (s.closedNow 0).isSome = true ∧ s.fires = [] :=
  ⟨{ closedBy 0 with billing := { (closedBy 0).billing with wallSet := true, wall := 100000000000000, periodS := 1 } },
    by decide +kernel, by decide +kernel, by decide +kernel⟩
theorem wit_RunControlActs_0 : ∃ (s : State) (f : Fn) (tag : W32) (c : Cmd),
    Starts s f.val tag 0x10 c ∧ c.partition < 64 ∧ (s.part c.partition).held = false :=
  ⟨inFlight 5 (cmdOf [(0, 16), (2, 3)]) (owned), 5, 7, cmdOf [(0, 16), (2, 3)], ⟨⟨by decide +kernel,
    by decide +kernel, by decide +kernel, by decide +kernel⟩, by decide +kernel⟩, by decide +kernel,
    by decide +kernel⟩
theorem wit_RunControlActs_1 : ∃ (s : State) (f : Fn) (tag : W32) (c : Cmd) (x : Nat × Nat × Bool × Nat) (k : Nat),
    Starts s f.val tag 0x11 c ∧ s.runBlocked f.val tag = false ∧ c.f 52 1 ≠ 1 ∧ (x, k) ∈ (s.targets c true).zipIdx ∧ x.1 < 8 ∧ s.inReach x = true :=
  ⟨inFlight 5 (cmdOf [(0, 17), (2, 3), (16, 8192), (18, 1)]) (portUp), 5, 7, cmdOf [(0, 17), (2, 3), (16, 8192), (18, 1)], (2, 0, false, 8192), 0,
    ⟨⟨by decide +kernel, by decide +kernel, by decide +kernel, by decide +kernel⟩, by decide +kernel⟩,
    by decide +kernel⟩
theorem wit_RunControlActs_2 : ∃ (s : State) (f : Fn) (tag : W32) (c : Cmd) (x : Nat × Nat × Bool × Nat) (k : Nat),
    Starts s f.val tag 0x12 c ∧ s.runBlocked f.val tag = false ∧ (x, k) ∈ (s.targets c true).zipIdx ∧ x.1 < 8 ∧ s.inReach x = true :=
  ⟨inFlight 5 (cmdOf [(0, 18), (2, 3), (16, 8192), (18, 1), (53, 1)]) (halted0 fun x => { x with view := .halted }), 5, 7, cmdOf [(0, 18), (2, 3), (16, 8192), (18, 1), (53, 1)], (2, 0, false, 8192), 0,
    ⟨⟨by decide +kernel, by decide +kernel, by decide +kernel, by decide +kernel⟩, by decide +kernel⟩,
    by decide +kernel, by decide +kernel, by decide +kernel, by decide +kernel⟩
theorem wit_BreakAndWatchAct_0 : ∃ (s : State) (f : Fn) (tag : W32) (c : Cmd) (x : Nat × Nat × Bool × Nat) (m : CmdMsg),
    Starts s f.val tag 0x13 c ∧ x ∈ s.targets c false ∧ x.1 < 8 ∧ s.inReach x = true ∧ m ∈ breakParts x (c.f 52 1) (c.f 56 8) (c.f 53 1) :=
  ⟨inFlight 5 (cmdOf [(0, 19), (2, 3), (16, 8192), (18, 1)]) (portUp), 5, 7, cmdOf [(0, 19), (2, 3), (16, 8192), (18, 1)], (2, 0, false, 8192), (breakParts (2, 0, false, 8192) 0 0 0).headD (regWrite (2, 0, false, 8192) 0 []),
    ⟨⟨by decide +kernel, by decide +kernel, by decide +kernel, by decide +kernel⟩, by decide +kernel⟩,
    by decide +kernel, by decide +kernel, by decide +kernel, by decide +kernel⟩
theorem wit_BreakAndWatchAct_1 : ∃ (s : State) (f : Fn) (tag : W32) (c : Cmd) (x : Nat × Nat × Bool × Nat),
    Starts s f.val tag 0x14 c ∧ x ∈ s.targets c false ∧ x.1 < 8 ∧ s.inReach x = true :=
  ⟨inFlight 5 (cmdOf [(0, 20), (2, 3), (16, 8192), (18, 1)]) (portUp), 5, 7, cmdOf [(0, 20), (2, 3), (16, 8192), (18, 1)], (2, 0, false, 8192),
    ⟨⟨by decide +kernel, by decide +kernel, by decide +kernel, by decide +kernel⟩, by decide +kernel⟩,
    by decide +kernel, by decide +kernel, by decide +kernel⟩
theorem wit_BreakAndWatchAct_2 : ∃ (s : State) (f : Fn) (tag : W32) (data : List Byte) (c : Cmd) (x : Nat × Nat × Bool × Nat) (m : CmdMsg),
    Starts s f.val tag 0x15 c ∧ x ∈ s.targets c false ∧ x.1 < 8 ∧ s.inReach x = true ∧ m ∈ watchParts x (c.f 52 1) (slice data 0 40) :=
  ⟨inFlight 5 (cmdOf [(0, 21), (2, 3), (16, 8192), (18, 1)]) (portUp), 5, 7, [], cmdOf [(0, 21), (2, 3), (16, 8192), (18, 1)], (2, 0, false, 8192), (watchParts (2, 0, false, 8192) 0 []).headD (regWrite (2, 0, false, 8192) 0 []),
    ⟨⟨by decide +kernel, by decide +kernel, by decide +kernel, by decide +kernel⟩, by decide +kernel⟩,
    by decide +kernel, by decide +kernel, by decide +kernel, by decide +kernel⟩
theorem wit_BreakAndWatchAct_3 : ∃ (s : State) (f : Fn) (tag : W32) (c : Cmd) (x : Nat × Nat × Bool × Nat),
    Starts s f.val tag 0x16 c ∧ x ∈ s.targets c false ∧ x.1 < 8 ∧ s.inReach x = true :=
  ⟨inFlight 5 (cmdOf [(0, 22), (2, 3), (16, 8192), (18, 1)]) (portUp), 5, 7, cmdOf [(0, 22), (2, 3), (16, 8192), (18, 1)], (2, 0, false, 8192),
    ⟨⟨by decide +kernel, by decide +kernel, by decide +kernel, by decide +kernel⟩, by decide +kernel⟩,
    by decide +kernel, by decide +kernel, by decide +kernel⟩
theorem wit_UnitAccessActs_0 : ∃ (s : State) (f : Fn) (tag : W32) (c : Cmd) (x : Nat × Nat × Bool × Nat) (o : Nat) (n : Nat),
    Starts s f.val tag 0x20 c ∧ x ∈ s.targets c false ∧ x.1 < 8 ∧ s.inReach x = true ∧ (o, n) ∈ chunksOf c.length 4092 :=
  ⟨inFlight 5 (cmdOf [(0, 32), (2, 3), (16, 8192), (18, 1), (48, 4)]) (portUp), 5, 7, cmdOf [(0, 32), (2, 3), (16, 8192), (18, 1), (48, 4)], (2, 0, false, 8192), 0, 4,
    ⟨⟨by decide +kernel, by decide +kernel, by decide +kernel, by decide +kernel⟩, by decide +kernel⟩,
    by decide +kernel, by decide +kernel, by decide +kernel, by decide +kernel⟩
theorem wit_UnitAccessActs_1 : ∃ (s : State) (f : Fn) (tag : W32) (data : List Byte) (c : Cmd) (x : Nat × Nat × Bool × Nat) (o : Nat) (n : Nat),
    Starts s f.val tag 0x21 c ∧ x ∈ s.targets c true ∧ x.1 < 8 ∧ s.inReach x = true ∧ (o, n) ∈ chunksOf c.length 4088 :=
  ⟨inFlight 5 (cmdOf [(0, 33), (2, 3), (16, 8192), (18, 1), (48, 4)]) (portUp), 5, 7, [], cmdOf [(0, 33), (2, 3), (16, 8192), (18, 1), (48, 4)], (2, 0, false, 8192), 0, 4,
    ⟨⟨by decide +kernel, by decide +kernel, by decide +kernel, by decide +kernel⟩, by decide +kernel⟩,
    by decide +kernel, by decide +kernel, by decide +kernel, by decide +kernel⟩
theorem wit_UnitAccessActs_2 : ∃ (s : State) (f : Fn) (tag : W32) (c : Cmd) (x : Nat × Nat × Bool × Nat) (o : Nat) (n : Nat),
    Starts s f.val tag 0x22 c ∧ x ∈ s.targets c false ∧ x.1 < 8 ∧ s.inReach x = true ∧ (o, n) ∈ chunksOf (s.memLength c) 4092 :=
  ⟨inFlight 5 (cmdOf [(0, 34), (2, 3), (16, 8192), (18, 1), (48, 4)]) (portUp), 5, 7, cmdOf [(0, 34), (2, 3), (16, 8192), (18, 1), (48, 4)], (2, 0, false, 8192), 0, 4,
    ⟨⟨by decide +kernel, by decide +kernel, by decide +kernel, by decide +kernel⟩, by decide +kernel⟩,
    by decide +kernel, by decide +kernel, by decide +kernel, by decide +kernel⟩
theorem wit_UnitAccessActs_3 : ∃ (s : State) (f : Fn) (tag : W32) (data : List Byte) (c : Cmd) (x : Nat × Nat × Bool × Nat) (o : Nat) (n : Nat),
    Starts s f.val tag 0x23 c ∧ x ∈ s.targets c false ∧ x.1 < 8 ∧ s.inReach x = true ∧ (o, n) ∈ chunksOf c.length 4080 :=
  ⟨inFlight 5 (cmdOf [(0, 35), (2, 3), (16, 8192), (18, 1), (48, 4)]) (portUp), 5, 7, [], cmdOf [(0, 35), (2, 3), (16, 8192), (18, 1), (48, 4)], (2, 0, false, 8192), 0, 4,
    ⟨⟨by decide +kernel, by decide +kernel, by decide +kernel, by decide +kernel⟩, by decide +kernel⟩,
    by decide +kernel, by decide +kernel, by decide +kernel, by decide +kernel⟩
theorem wit_UnitTimeoutsAndRecordsAct_0 : ∃ (s : State) (u : UnitNo) (d : Nat),
    (s.unit u.toNat).haltDeadline = some d ∧ d ≤ s.t :=
  ⟨halted0 fun x => { x with haltDeadline := some 0 }, 8192, 0, by decide +kernel, by decide +kernel⟩
theorem wit_UnitTimeoutsAndRecordsAct_1 : ∃ (s : State) (u : UnitNo) (d : Nat),
    s.stepDue u.toNat = some d ∧ d ≤ s.t :=
  ⟨halted0 fun x => { x with stepDeadline := some 0 }, 8192, 0,
    by decide +kernel, by decide +kernel⟩
theorem wit_UnitTimeoutsAndRecordsAct_2 : ∃ (s : State) (n : Port) (m : Msg),
    s.takesVc3 n.val m = true ∧ 40 ≤ m.data.length :=
  ⟨portUp, 2, aMsg, by decide +kernel, by decide +kernel⟩
theorem wit_LibraryAndRunsAct_0 : ∃ (s : State) (f : Fn) (tag : W32) (data : List Byte) (c : Cmd),
    Waits s f.val tag 0x60 c ∧ s.owns f.val c.partition = true ∧ c.f 52 1 = 0 :=
  ⟨inFlight 5 (cmdOf [(0, 96), (2, 3)]) (owned), 5, 7, [], cmdOf [(0, 96), (2, 3)], ⟨by decide +kernel,
    by decide +kernel, by decide +kernel, by decide +kernel⟩, by decide +kernel, by decide +kernel⟩
theorem wit_LibraryAndRunsAct_1 : ∃ (s : State) (f : Fn) (tag : W32) (data : List Byte) (c : Cmd) (e : LibEntry),
    Waits s f.val tag 0x60 c ∧ s.owns f.val c.partition = true ∧ c.f 52 1 ≠ 0 ∧ s.lib (c.f 53 1) = some e ∧ e.fromImage = false ∧ e.addedBy = some c.partition ∧ s.libInUse (c.f 53 1) = false :=
  ⟨inFlight 5 (cmdOf [(0, 96), (2, 3), (52, 1), (53, 4)]) (osier (fun x => { x with lib := [entry4] }) owned), 5, 7, [], cmdOf [(0, 96), (2, 3), (52, 1), (53, 4)], entry4, ⟨by decide +kernel,
    by decide +kernel, by decide +kernel, by decide +kernel⟩, by decide +kernel⟩
theorem wit_LibraryAndRunsAct_2 : ∃ (s : State) (f : Fn) (tag : W32) (c : Cmd),
    Waits s f.val tag 0x61 c ∧ s.runCheck f.val c = none ∧ s.osier.nextRun < 2 ^ 32 :=
  ⟨inFlight 5 (cmdOf [(0, 97), (2, 3), (52, 4)]) (osier (fun x => { x with lib := [entry4] }) owned), 5, 7, cmdOf [(0, 97), (2, 3), (52, 4)], ⟨by decide +kernel,
    by decide +kernel, by decide +kernel, by decide +kernel⟩, by decide +kernel, by decide +kernel⟩
theorem wit_LibraryAndRunsAct_3 : ∃ (s : State) (f : Fn) (tag : W32) (c : Cmd) (q : Run),
    Waits s f.val tag 0x62 c ∧ c.f 52 1 = 0 ∧ s.run (BitVec.ofNat 32 (c.f 56 4)) = some q ∧ q.role = roleProgram ∧ ((q.session = some f.val ∨ s.owns f.val q.partition = true)) :=
  ⟨inFlight 5 (cmdOf [(0, 98), (2, 3), (56, 9)]) (osier (fun x => { x with runs := [aRun], lib := [entry4] }) owned), 5, 7, cmdOf [(0, 98), (2, 3), (56, 9)], aRun, ⟨by decide +kernel,
    by decide +kernel, by decide +kernel, by decide +kernel⟩, by decide +kernel, by decide +kernel, by decide +kernel,
    by decide +kernel⟩
theorem wit_LibraryAndRunsAct_4 : ∃ (s : State) (f : Fn) (tag : W32) (c : Cmd) (q : Run),
    Waits s f.val tag 0x62 c ∧ 2 ≤ c.f 52 1 ∧ s.run (BitVec.ofNat 32 (c.f 56 4)) = some q ∧ ((q.session = some f.val ∨ s.reads f.val q.partition = true)) :=
  ⟨inFlight 5 (cmdOf [(0, 98), (2, 3), (52, 2), (56, 9)]) (osier (fun x => { x with runs := [aRun], lib := [entry4] }) owned), 5, 7, cmdOf [(0, 98), (2, 3), (52, 2), (56, 9)], aRun, ⟨by decide +kernel,
    by decide +kernel, by decide +kernel, by decide +kernel⟩, by decide +kernel, by decide +kernel, by decide +kernel⟩
theorem wit_OsierStepsAct_0 : ∃ (s : State) (core : CoreNo) (cycles : Nat) (poison : Fin 4) (tdo : List Bool) (r : Run) (q : Run) (e : LibEntry),
    core.val < 16 ∧ s.running core.val = some r ∧ (takeCore core.val r.id s).run r.id = some q ∧ (takeCore core.val r.id s).lib r.index = some e :=
  ⟨osier (fun x => { x with runs := [aRun], lib := [entry4] }) owned, 1, 1, 0, [], aRun, { aRun with heldFor := 0 }, entry4,
    by decide +kernel, by decide +kernel, by decide +kernel, by decide +kernel⟩
theorem wit_OsierStepsAct_1 : ∃ (s : State) (core : CoreNo) (q : Run) (r : Run),
    (Tab.get? s.osier.holders core.val).bind s.run = some q ∧ q.ready = true ∧ sliceCycles ≤ q.heldFor ∧ s.fires = [] ∧ s.nextRun q.core ((s.placedOn q.core).filter fun r => r.ready && r.id != q.id && decide (r.rank ≤ q.rank)) = some r :=
  ⟨osier (fun x => { x with runs := [aRun, { aRun with id := 10 }], holders := [(1, 9)] }) owned, 1, aRun, { aRun with id := 10 },
    by decide +kernel⟩
theorem wit_OsierStepsAct_2 : ∃ (s : State) (run : W32) (q : Run) (t0 : W64),
    s.run run = some q ∧ q.wait = .sleep t0 ∧ t0.toNat ≤ s.t ∧ s.fires = [] :=
  ⟨osier (fun x => { x with runs := [{ aRun with wait := .sleep 5 }] }) owned, 9, { aRun with wait := .sleep 5 }, 5,
    by decide +kernel, by decide +kernel, by decide +kernel, by decide +kernel⟩
theorem wit_OsierStepsAct_3 : ∃ (s : State) (run : W32) (q : Run),
    s.run run = some q ∧ q.hostOut = true :=
  ⟨osier (fun x => { x with runs := [aRun], lib := [entry4] }) owned, 9, aRun,
    by decide +kernel, by decide +kernel⟩
theorem wit_CoderAndAdaptorAct_0 : ∃ (s : State) (p : Part) (n : Nat) (q : Run) (r : TraceRec) (l : List TraceRec),
    (s.part p.val).coder.posted = some n ∧ (s.part p.val).coder.run.bind s.run = some q ∧ (s.part p.val).tier = r :: l ∧ (s.part p.val).coder.coded = true ∧ (s.part p.val).coder.exch.toNat ≤ q.inTail.toNat :=
  ⟨modPart 3 (fun x => { x with tier := [aRec], coder := { x.coder with posted := some 0, run := some 9, coded := true } }) (osier (fun x => { x with runs := [coderRun] }) owned), 3, 0, coderRun, aRec, [],
    by decide +kernel⟩
theorem wit_CoderAndAdaptorAct_0known : ∃ (s : State) (p : Part) (n : Nat) (q : Run) (r : TraceRec) (l : List TraceRec),
    (s.part p.val).coder.posted = some n ∧ (s.part p.val).coder.run.bind s.run = some q ∧ (s.part p.val).tier = r :: l ∧ (s.part p.val).coder.coded = true ∧ (s.part p.val).coder.exch.toNat ≤ q.inTail.toNat ∧ (s.part p.val).coder.bad = true :=
  ⟨modPart 3 (fun x => { x with tier := [aRec], coder := { x.coder with posted := some 0, run := some 9, coded := true, bad := true } }) (osier (fun x => { x with runs := [coderRun] }) owned), 3, 0, coderRun, aRec, [],
    by decide +kernel⟩
theorem wit_CoderAndAdaptorAct_1 : ∃ (s : State) (p : Part) (n : Nat) (q : Run) (r : TraceRec) (l : List TraceRec) (te : List Nat) (td : List Nat),
    (s.part p.val).coder.posted = some n ∧ (s.part p.val).coder.run.bind s.run = some q ∧ (s.part p.val).tier = r :: l ∧ (s.part p.val).coder.coded = true ∧ (s.part p.val).coder.exch.toNat ≤ q.inTail.toNat ∧ (s.part p.val).coder.bad = false ∧ answerTables q (s.part p.val).coder.exch.toNat = some (te, td) ∧ ((spendCreel (spoilCoder s.injectHit p.val (codeRecord p.val te td r s))).part p.val).coder.frames < periodicFrames :=
  ⟨modPart 3 (fun x => { x with tier := [aRec], coder := { x.coder with posted := some 0, run := some 9, coded := true } }) (osier (fun x => { x with runs := [coderRun] }) owned), 3, 0, coderRun, aRec, [], List.replicate 32 128, List.replicate 32 128,
    by decide +kernel⟩
theorem wit_CoderAndAdaptorAct_2 : ∃ (s : State) (p : Part) (n : Nat),
    (s.part p.val).coder.posted = some n :=
  ⟨modPart 3 (fun x => { x with tier := [aRec], coder := { x.coder with posted := some 0, run := some 9, coded := true } }) (osier (fun x => { x with runs := [coderRun] }) owned), 3, 0,
    by decide +kernel⟩
theorem wit_CoderAndAdaptorAct_3 : ∃ (s : State) (p : Part) (n : Nat) (q : Run),
    (s.part p.val).coder.posted = some n ∧ (s.part p.val).coder.run.bind s.run = some q ∧ (s.part p.val).coder.coded = true ∧ s.after n 1000 = true ∧ q.inTail.toNat < (s.part p.val).coder.exch.toNat :=
  ⟨modPart 3 (fun x => { x with tier := [aRec], coder := { x.coder with posted := some 0, run := some 9, coded := true } }) (osier (fun x => { x with runs := [{ coderRun with inTail := 0 }] }) owned), 3, 0, { coderRun with inTail := 0 },
    by decide +kernel⟩
theorem wit_CoderAndAdaptorAct_4 : ∃ (s : State) (c : AdaptorCall) (p : Nat),
    s.osier.call = some c ∧ s.unitPart c.unit = some p ∧ c.op ≠ 6 ∧ c.startedAt + s.haltTimeout p ≤ s.t :=
  ⟨osier (fun x => { x with call := some { op := 1, unit := 8192, region := 0, offset := 0, len := 4, abrupt := false, cmd := none, startedAt := 0, data := [] } }) portUp, { op := 1, unit := 8192, region := 0, offset := 0, len := 4, abrupt := false, cmd := none, startedAt := 0, data := [] }, 3,
    by decide +kernel, by decide +kernel, by decide +kernel, by decide +kernel⟩
theorem wit_CoderAndAdaptorAct_5 : ∃ (s : State) (by_ : HostPort) (value : W32),
    s.barOpen (64 + by_.val) = true ∧ s.isArbiterPm (64 + by_.val) = true ∧ value.getLsbD 16 = false :=
  ⟨ready, 0, 0x10,
    by decide +kernel, by decide +kernel, by decide +kernel⟩
theorem wit_CoderAndAdaptorComplete_0 : ∃ (s : State) (p : Part) (n : Nat) (q : Run) (r : TraceRec) (l : List TraceRec),
    (s.part p.val).coder.posted = some n ∧ (s.part p.val).coder.run.bind s.run = some q ∧ (s.part p.val).tier = r :: l ∧ (s.part p.val).coder.coded = true ∧ (s.part p.val).coder.exch.toNat ≤ q.inTail.toNat ∧ (s.part p.val).coder.bad = false :=
  ⟨modPart 3 (fun x => { x with tier := [aRec], coder := { x.coder with posted := some 0, run := some 9, coded := true } }) (osier (fun x => { x with runs := [coderRun] }) owned), 3, 0, coderRun, aRec, [],
    by decide +kernel⟩
theorem wit_CoderAndAdaptorComplete_1 : ∃ (s : State) (p : Part) (n : Nat) (q : Run),
    (s.part p.val).coder.posted = some n ∧ (s.part p.val).coder.run.bind s.run = some q ∧ (s.part p.val).coder.coded = true ∧ s.after n 1000 = true ∧ q.inTail.toNat < (s.part p.val).coder.exch.toNat :=
  ⟨modPart 3 (fun x => { x with tier := [aRec], coder := { x.coder with posted := some 0, run := some 9, coded := true } }) (osier (fun x => { x with runs := [{ coderRun with inTail := 0 }] }) owned), 3, 0, { coderRun with inTail := 0 },
    by decide +kernel⟩
theorem wit_CoderAndAdaptorComplete_2 : ∃ (s : State) (c : AdaptorCall) (p : Nat),
    s.osier.call = some c ∧ s.unitPart c.unit = some p ∧ c.op ≠ 6 ∧ c.startedAt + s.haltTimeout p ≤ s.t :=
  ⟨osier (fun x => { x with call := some { op := 1, unit := 8192, region := 0, offset := 0, len := 4, abrupt := false, cmd := none, startedAt := 0, data := [] } }) portUp, { op := 1, unit := 8192, region := 0, offset := 0, len := 4, abrupt := false, cmd := none, startedAt := 0, data := [] }, 3,
    by decide +kernel, by decide +kernel, by decide +kernel, by decide +kernel⟩
theorem wit_CoderAndAdaptorComplete_3 : ∃ (s : State) (by_ : HostPort) (value : W32),
    s.barOpen (64 + by_.val) = true ∧ s.isArbiterPm (64 + by_.val) = true ∧ value.getLsbD 16 = false ∧ s.osier.call = none ∧ s.osier.calls = [] ∧ s.fires = [] :=
  ⟨ready, 0, 0x10,
    by decide +kernel⟩
theorem wit_CoderAndAdaptorComplete_4 : ∃ (s : State) (by_ : HostPort) (value : W32),
    s.barOpen (64 + by_.val) = true ∧ s.isArbiterPm (64 + by_.val) = true ∧ value.getLsbD 16 = true ∧ s.osier.scanCtrl.getLsbD 16 = true ∧ value.toNat / 256 % 256 = s.adaptorIndex ∧ s.fires = [] :=
  ⟨osier (fun x => { x with scanCtrl := 0x10410 }) ready, 0, 0x10420,
    by decide +kernel⟩
theorem wit_ImageLoadActs_0 : ∃ (s : State) (n : HostPort),
    s.barOpen (64 + n.val) = true ∧ s.enabledPort n.val = true ∧ (List.range 4).any s.loading = false ∧ s.boot.phase = .awaitWeave ∧ s.imageFromTwin = false ∧ 64 ≤ (s.host n.val).wea.len.toNat ∧ (s.host n.val).wea.len.toNat ≤ imageMax 0 ∧ s.fires = [] :=
  ⟨modHost 0 (fun x => { x with wea := { x.wea with state := 0, len := 64 } }) (phased .awaitWeave), 0,
    by decide +kernel⟩
theorem wit_ImageLoadActs_1 : ∃ (s : State) (n : HostPort),
    s.barOpen (64 + n.val) = true ∧ s.enabledPort n.val = true ∧ s.loading n.val = false ∧ ((s.boot.phase ≠ .awaitWeave ∨ s.imageFromTwin = true)) ∧ s.fires = [] :=
  ⟨modHost 0 (fun x => { x with wea := { x.wea with state := 0, len := 64 } }) (phased .ready), 0,
    by decide +kernel⟩
theorem wit_ImageLoadActs_2 : ∃ (s : State) (n : HostPort),
    s.barOpen (64 + n.val) = true ∧ s.loading n.val = true ∧ s.fires = [] :=
  ⟨modHost 0 (fun x => { x with wea := { x.wea with state := 2, len := 64 } }) (phased .awaitWeave), 0,
    by decide +kernel, by decide +kernel, by decide +kernel⟩
theorem wit_ImageLoadActs_3 : ∃ (s : State) (n : HostPort) (bytes : List Byte),
    (s.host n.val).wea.state = 1 ∧ s.fires = [] :=
  ⟨modHost 0 (fun x => { x with wea := { x.wea with state := 1, len := 64 } }) (phased .awaitWeave), 0, [],
    by decide +kernel, by decide +kernel⟩
theorem wit_ImageLoadActs_4 : ∃ (s : State) (n : HostPort) (bytes : List Byte),
    (s.host n.val).wea.state = 1 ∧ headerReject (slice bytes 0 (s.host n.val).wea.len.toNat) (s.host n.val).wea.len.toNat s.id.stepping.toNat = none ∧ field (slice bytes 0 (s.host n.val).wea.len.toNat) 6 2 = 0 ∧ s.fires = [] :=
  ⟨modHost 0 (fun x => { x with wea := { x.wea with state := 1, len := 64 } }) (phased .awaitWeave), 0, header,
    by decide +kernel, by decide +kernel, by decide +kernel, by decide +kernel⟩
theorem wit_ImageLoadActs_5 : ∃ (s : State) (by_ : Option Nat) (img : List Byte),
    s.weave.checking = some (by_, img) :=
  ⟨{ ready with weave := { ready.weave with checking := some (some 0, header) } }, some 0, header,
    by decide +kernel⟩
theorem wit_ReweaveActs_0 : ∃ (s : State) (f : Fn) (tag : W32) (data : List Byte) (c : Cmd),
    Waits s f.val tag 0x70 c ∧ s.reweaveCheck f.val c true = none :=
  ⟨inFlight 5 (cmdOf [(0, 112), (2, 3), (52, 1), (40, 64), (48, 64)]) (owned), 5, 7, [], cmdOf [(0, 112), (2, 3), (52, 1), (40, 64), (48, 64)], ⟨by decide +kernel,
    by decide +kernel, by decide +kernel, by decide +kernel⟩, by decide +kernel⟩
theorem wit_ReweaveActs_1 : ∃ (s : State) (f : Fn) (tag : W32) (c : Cmd),
    s.cmd f.val tag = some c ∧ c.op = 0x70 ∧ c.started = true ∧ c.work.stage = 1 ∧ c.scope = 1 ∧ c.partition < 64 ∧ (s.part c.partition).resetPending = false ∧ s.err.stopped = false ∧ s.fires = [] :=
  ⟨inFlight 5 (cmdWith [(0, 112), (2, 3), (52, 1)] true { Work.init with stage := 1 }) (owned), 5, 7, cmdWith [(0, 112), (2, 3), (52, 1)] true { Work.init with stage := 1 },
    by decide +kernel⟩
theorem wit_ReweaveActs_2 : ∃ (s : State) (f : Fn) (tag : W32) (c : Cmd),
    s.cmd f.val tag = some c ∧ c.scope = 1 ∧ (s.part c.partition).resetPending = true ∧ s.fires = [] :=
  ⟨inFlight 5 (cmdWith [(0, 112), (2, 3), (52, 1)] true { Work.init with stage := 1 }) (part3 fun x => { x with resetPending := true }), 5, 7, cmdWith [(0, 112), (2, 3), (52, 1)] true { Work.init with stage := 1 },
    by decide +kernel, by decide +kernel, by decide +kernel, by decide +kernel⟩
theorem wit_ReweaveActs_3 : ∃ (s : State) (f : Fn) (tag : W32) (c : Cmd),
    s.cmd f.val tag = some c ∧ c.op = 0x70 ∧ c.started = true ∧ c.work.stage = 1 ∧ (c.scope = 1 → (s.part c.partition).resetPending = false) ∧ s.err.stopped = true ∧ s.fires = [] :=
  ⟨inFlight 5 (cmdWith [(0, 112), (2, 3), (52, 1)] true { Work.init with stage := 1 }) { owned with err := { owned.err with stopped := true } }, 5, 7, cmdWith [(0, 112), (2, 3), (52, 1)] true { Work.init with stage := 1 },
    by decide +kernel⟩
theorem wit_ReweaveActs_4 : ∃ (s : State) (f : Fn) (tag : W32) (c : Cmd),
    Waits s f.val tag 0x71 c ∧ s.reweaveCheck f.val c false = none ∧ c.scope = 1 ∧ c.partition < 64 ∧ s.warpOut c = false ∧ s.noPlane c = false ∧ (s.genDiffers c = false) :=
  ⟨inFlight 5 (cmdOf [(0, 113), (2, 3), (52, 1), (56, 2)]) (part3 fun x => { x with inactive := some { weft := [], gen := 2, imageId := 0 } }), 5, 7, cmdOf [(0, 113), (2, 3), (52, 1), (56, 2)],
    ⟨by decide +kernel, by decide +kernel, by decide +kernel, by decide +kernel⟩, by decide +kernel⟩
theorem wit_ReweaveActs_5 : ∃ (s : State) (f : Fn) (tag : W32) (c : Cmd),
    Waits s f.val tag 0x71 c ∧ s.reweaveCheck f.val c false = none ∧ c.scope = 2 ∧ s.weftOut (s.newCommit f.val { c with started := true }) c = false ∧ s.noPlane c = false ∧ (s.genDiffers c = false) :=
  ⟨inFlight 64 (cmdOf [(0, 113), (52, 2), (53, 4), (56, 2)]) ({ ready with weave := { ready.weave with staged := [(2, { entry := WarpPort.none, gen := 2, imageId := 0 })] } }), 64, 7, cmdOf [(0, 113), (52, 2), (53, 4), (56, 2)],
    ⟨by decide +kernel, by decide +kernel, by decide +kernel, by decide +kernel⟩, by decide +kernel⟩
theorem wit_ReweaveActs_6 : ∃ (s : State) (f : Fn) (tag : W32) (c : Cmd),
    Waits s f.val tag 0x71 c ∧ s.reweaveCheck f.val c false = none ∧ c.scope = 1 ∧ s.warpOut c = false ∧ s.noPlane c = true :=
  ⟨inFlight 5 (cmdOf [(0, 113), (2, 3), (52, 1), (56, 2)]) (owned), 5, 7, cmdOf [(0, 113), (2, 3), (52, 1), (56, 2)],
    ⟨by decide +kernel, by decide +kernel, by decide +kernel, by decide +kernel⟩, by decide +kernel,
    by decide +kernel, by decide +kernel, by decide +kernel⟩
theorem wit_WeftCommitsAct_0 : ∃ (s : State) (p : Part) (c : Commit),
    (s.part p.val).commit = some c ∧ c.switched = false ∧ c.settled = none ∧ s.t ≤ c.deadline ∧ s.settledFor p.val c.fetched = true ∧ s.ctlEdge = false ∧ s.fires = [] :=
  ⟨{ (part3 fun x => { x with commit := some { aCommit with deadline := 1000000001 } }) with now := 1000000001 }, 3, { aCommit with deadline := 1000000001 },
    by decide +kernel⟩
theorem wit_WeftCommitsAct_1 : ∃ (s : State) (p : Part) (c : Commit) (x : Nat) (new : Plane),
    (s.part p.val).commit = some c ∧ (s.part p.val).inactive = some new ∧ c.settled = some x ∧ s.maySwitch p.val c = true :=
  ⟨part3 fun x => { x with inactive := some { weft := [], gen := 2, imageId := 0 }, commit := some { aCommit with settled := some 5 } }, 3, { aCommit with settled := some 5 }, 5, { weft := [], gen := 2, imageId := 0 },
    by decide +kernel, by decide +kernel, by decide +kernel, by decide +kernel⟩
theorem wit_WeftCommitsAct_2 : ∃ (s : State) (p : Part) (c : Commit) (x : Nat) (new : Plane),
    (s.part p.val).commit = some c ∧ (s.part p.val).inactive = some new ∧ c.settled = some x ∧ s.maySwitch p.val c = true :=
  ⟨part3 fun x => { x with inactive := some { weft := [], gen := 2, imageId := 0 }, commit := some { aCommit with settled := some 5 } }, 3, { aCommit with settled := some 5 }, 5, { weft := [], gen := 2, imageId := 0 },
    by decide +kernel, by decide +kernel, by decide +kernel, by decide +kernel⟩
theorem wit_WeftCommitsAct_3 : ∃ (s : State) (p : Part) (c : Commit) (k : Cmd),
    (s.part p.val).commit = some c ∧ c.switched = true ∧ c.unitsLeft = [] ∧ s.fires = [] ∧ s.cmd c.fn c.tag = some k ∧ c.fn < 68 :=
  ⟨inFlight 5 (cmdWith [(0, 0x71), (2, 3)] true Work.init) (part3 fun x => { x with commit := some { aCommit with switched := true } }), 3, { aCommit with switched := true }, cmdWith [(0, 0x71), (2, 3)] true Work.init,
    by decide +kernel⟩
theorem wit_WeftCommitsAct_4 : ∃ (s : State) (p : Part) (c : Commit) (k : Cmd),
    (s.part p.val).commit = some c ∧ c.switched = true ∧ (s.part p.val).switchTs.toNat + s.haltTimeout p.val ≤ s.t ∧ s.fires = [] ∧ s.cmd c.fn c.tag = some k ∧ c.fn < 68 :=
  ⟨inFlight 5 (cmdWith [(0, 0x71), (2, 3)] true Work.init) (part3 fun x => { x with commit := some { aCommit with switched := true, unitsLeft := [8192] } }), 3, { aCommit with switched := true, unitsLeft := [8192] }, cmdWith [(0, 0x71), (2, 3)] true Work.init,
    by decide +kernel⟩
theorem wit_WarpCommitsAct_0 : ∃ (s : State) (c : Commit) (x : Nat),
    s.weave.warpCommit = some c ∧ c.switched = false ∧ c.settled = some x :=
  ⟨{ portUp with weave := { portUp.weave with warpCommit := some { aCommit with settled := some 5 } } }, { aCommit with settled := some 5 }, 5,
    by decide +kernel, by decide +kernel, by decide +kernel⟩
theorem wit_WarpCommitsAct_1 : ∃ (s : State) (c : Commit),
    s.weave.warpCommit = some c ∧ c.switched = false ∧ c.settled = none ∧ c.deadline < s.t ∧ s.fires = [] :=
  ⟨{ portUp with weave := { portUp.weave with warpCommit := some aCommit } }, aCommit,
    by decide +kernel⟩
theorem wit_WarpCommitsAct_2 : ∃ (s : State) (c : Commit) (k : Cmd),
    s.weave.warpCommit = some c ∧ c.switched = true ∧ ((((List.range 8).filter fun n => c.portMask.getLsbD n).all (s.warpPortDone c)) = true) ∧ s.cmd c.fn c.tag = some k ∧ c.fn < 68 :=
  ⟨inFlight 5 (cmdWith [(0, 0x71), (2, 3)] true Work.init) { portUp with weave := { portUp.weave with warpCommit := some { aCommit with switched := true, portMask := 4 } } }, { aCommit with switched := true, portMask := 4 }, cmdWith [(0, 0x71), (2, 3)] true Work.init,
    by decide +kernel⟩
theorem wit_WarpCommitsAct_3 : ∃ (s : State) (f : Fn) (tag : W32) (c : Commit) (k : Cmd),
    s.weave.warpCommit = some c ∧ c.fn = f.val ∧ c.tag = tag ∧ c.switched = false ∧ c.deadline ≤ s.t ∧ (((s.warpParts c).all fun p => s.settledFor p c.fetched) = false) ∧ s.cmd f.val tag = some k ∧ c.settled = none ∧ (∀ p < 64, ∀ x, (s.part p).commit = some x → ¬ (x.fn = f.val ∧ x.tag = tag)) :=
  ⟨inFlight 5 (cmdWith [(0, 0x71), (2, 3)] true Work.init) (modPart 3 (fun x => { x with gather := some aGather }) { portUp with weave := { portUp.weave with warpCommit := some { aCommit with portMask := 4 } } }), 5, 7, { aCommit with portMask := 4 }, cmdWith [(0, 0x71), (2, 3)] true Work.init,
    by decide +kernel, by decide +kernel, by decide +kernel, by decide +kernel, by decide +kernel, by decide +kernel,
    by decide +kernel, by decide +kernel, by
      intro p hp x hx
      have h : ∀ p < 64,
    (State.part (inFlight 5 (cmdWith [(0, 0x71), (2,
    3)] true Work.init) (modPart 3 (fun x => { x with gather := some aGather }) { portUp with weave := { portUp.weave with warpCommit := some { aCommit with portMask := 4 } } })) p).commit = none := by decide +kernel
      rw [h p hp] at hx; cases hx⟩
theorem wit_WarpCommitsAct_4 : ∃ (s : State) (f : Fn) (tag : W32) (p : Part) (c : Commit) (k : Cmd),
    s.weave.warpCommit = none ∧ (s.part p.val).commit = some c ∧ c.fn = f.val ∧ c.tag = tag ∧ c.switched = false ∧ c.deadline ≤ s.t ∧ s.settledFor p.val c.fetched = false ∧ s.cmd f.val tag = some k ∧ c.settled = none :=
  ⟨inFlight 5 (cmdWith [(0, 0x71), (2, 3)] true Work.init) (part3 fun x => { x with commit := some aCommit, gather := some aGather }), 5, 7, 3, aCommit, cmdWith [(0, 0x71), (2, 3)] true Work.init,
    by decide +kernel⟩
theorem wit_HangDetectorActs_0 : ∃ (s : State) (f : Fn) (tag : W32) (c : Cmd) (r : HangReport),
    Waits s f.val tag 0x80 c ∧ s.err.stopped = false ∧ s.reads f.val c.partition = true ∧ 64 ≤ c.length ∧ c.f 52 1 = 0 ∧ c.work.dmaError = false ∧ ((if c.param0 = 0 then (s.part c.partition).reports.getLast? else (s.part c.partition).reports.find? fun x => x.id.toNat == c.param0) = some r) :=
  ⟨inFlight 5 (cmdOf [(0, 128), (2, 3), (48, 64)]) (part3 fun x => { x with reports := [aReport] }), 5, 7, cmdOf [(0, 128), (2, 3), (48, 64)], aReport,
    ⟨by decide +kernel, by decide +kernel, by decide +kernel, by decide +kernel⟩, by decide +kernel⟩
theorem wit_HangDetectorActs_0poisoned : ∃ (s : State) (f : Fn) (tag : W32) (c : Cmd) (r : HangReport),
    Waits s f.val tag 0x80 c ∧ s.err.stopped = false ∧ s.reads f.val c.partition = true ∧ 64 ≤ c.length ∧ c.f 52 1 = 0 ∧ c.work.dmaError = false ∧ ((if c.param0 = 0 then (s.part c.partition).reports.getLast? else (s.part c.partition).reports.find? fun x => x.id.toNat == c.param0) = some r) ∧ r.bad = true :=
  ⟨inFlight 5 (cmdOf [(0, 128), (2, 3), (48, 64)]) (part3 fun x => { x with reports := [{ aReport with bad := true }] }), 5, 7, cmdOf [(0, 128), (2, 3), (48, 64)], { aReport with bad := true },
    ⟨by decide +kernel, by decide +kernel, by decide +kernel, by decide +kernel⟩, by decide +kernel⟩
theorem wit_HangDetectorActs_1 : ∃ (s : State) (e : HangEv) (rest : List HangEv),
    s.hang.queue = e :: rest ∧ s.fires = [] :=
  ⟨{ ready with hang := { ready.hang with queue := [{ kind := 1, unit := 8192, partition := 3, chan := 1, count := 1, ts := 0 }] } }, { kind := 1, unit := 8192, partition := 3, chan := 1, count := 1, ts := 0 }, [],
    by decide +kernel, by decide +kernel⟩
theorem wit_HangDetectorActs_2 : ∃ (s : State) (e : HangEv) (rest : List HangEv),
    s.hang.queue = e :: rest ∧ e.kind = 1 ∧ s.fires = [] ∧ s.err.armed = false :=
  ⟨{ ready with hang := { ready.hang with queue := [{ kind := 1, unit := 8192, partition := 3, chan := 1, count := 1, ts := 0 }] } }, { kind := 1, unit := 8192, partition := 3, chan := 1, count := 1, ts := 0 }, [],
    by decide +kernel, by decide +kernel, by decide +kernel, by decide +kernel⟩
theorem wit_HangDetectorActs_3 : ∃ (s : State) (p : Part) (k : Nat),
    (let x := s.part p.val; let due := x.lastScan + k * (s.hangScanUs p.val * Config.ticksPerUs); x.graphOn = true ∧ x.held = false ∧ s.err.stopped = false ∧ 0 < k ∧ x.holdEnd ≤ due ∧ due ≤ s.t ∧ s.t < due + s.hangScanUs p.val * Config.ticksPerUs ∧ s.fires = [] ∧ x.scanning = none) :=
  ⟨part3 fun x => { x with graphOn := true }, 3, (part3 fun x => { x with graphOn := true }).t / ((part3 fun x => { x with graphOn := true }).hangScanUs 3 * Config.ticksPerUs),
    by decide +kernel⟩
theorem wit_HangDetectorActs_3running : ∃ (s : State) (p : Part) (k : Nat) (b : Scan),
    (let x := s.part p.val; let due := x.lastScan + k * (s.hangScanUs p.val * Config.ticksPerUs); x.graphOn = true ∧ x.held = false ∧ s.err.stopped = false ∧ 0 < k ∧ x.holdEnd ≤ due ∧ due ≤ s.t ∧ s.t < due + s.hangScanUs p.val * Config.ticksPerUs ∧ s.fires = [] ∧ x.scanning = some b) :=
  ⟨part3 fun x => { x with graphOn := true, scanning := some aScan }, 3, (part3 fun x => { x with graphOn := true }).t / ((part3 fun x => { x with graphOn := true }).hangScanUs 3 * Config.ticksPerUs), aScan,
    by decide +kernel⟩
theorem wit_HangDetectorActs_4 : ∃ (s : State) (p : Part) (b : Scan),
    (s.part p.val).scanning = some b ∧ s.err.stopped = false ∧ (s.part p.val).held = false ∧ (s.part p.val).scanWaits = false ∧ (∀ u ∈ s.unitsOf p.val, (s.unit u).waits = []) ∧ hangFlag (s.part p.val).active.weft 1 = false ∧ s.fires = [] ∧ (s.part p.val).graphBad = false :=
  ⟨modPart 3 (fun x => { x with scanning := some aScan }) portUp, 3, aScan,
    by decide +kernel⟩
theorem wit_HangDetectorActs_5 : ∃ (s : State) (p : Part) (b : Scan),
    (s.part p.val).scanning = some b ∧ s.err.stopped = false ∧ (s.part p.val).held = true ∧ s.actedNow p.val = none ∧ s.fires = [] :=
  ⟨modPart 3 (fun x => { x with scanning := some aScan, held := true }) portUp, 3, aScan,
    by decide +kernel⟩
theorem wit_HangDetectorActs_6 : ∃ (s : State) (p : Part) (b : Scan),
    (s.part p.val).scanning = some b ∧ s.err.stopped = false ∧ (s.part p.val).held = false :=
  ⟨modPart 3 (fun x => { x with scanning := some aScan }) portUp, 3, aScan,
    by decide +kernel, by decide +kernel, by decide +kernel⟩
theorem wit_HangDetectorActs_6known : ∃ (s : State) (p : Part) (b : Scan),
    (s.part p.val).scanning = some b ∧ s.err.stopped = false ∧ (s.part p.val).held = false ∧ (s.part p.val).graphBad = true :=
  ⟨modPart 3 (fun x => { x with scanning := some aScan, graphBad := true }) portUp, 3, aScan,
    by decide +kernel, by decide +kernel, by decide +kernel, by decide +kernel⟩
theorem wit_TwinAndLifecycleCommandsAct_0 : ∃ (s : State) (f : Fn) (tag : W32) (c : Cmd),
    Waits s f.val tag 0xA0 c ∧ s.twinCheck f.val c = none ∧ c.f 52 1 = 0 ∧ s.plait.pair = .paired :=
  ⟨inFlight 64 (cmdOf [(0, 160)]) (paired), 64, 7, cmdOf [(0, 160)], ⟨by decide +kernel,
    by decide +kernel, by decide +kernel, by decide +kernel⟩, by decide +kernel, by decide +kernel, by decide +kernel⟩
theorem wit_TwinAndLifecycleCommandsAct_1 : ∃ (s : State) (f : Fn) (tag : W32) (c : Cmd),
    Waits s f.val tag 0xA0 c ∧ s.twinCheck f.val c = none ∧ c.f 52 1 = 1 :=
  ⟨inFlight 64 (cmdOf [(0, 160), (52, 1), (20, 8)]) (modPort 2 (fun x => { x with stakes := [(3, { StakeView.init with held := true })] }) (modPart 3 (fun x => { x with owner := none }) paired)), 64, 7, cmdOf [(0, 160), (52, 1), (20, 8)], ⟨by decide +kernel,
    by decide +kernel, by decide +kernel, by decide +kernel⟩, by decide +kernel, by decide +kernel⟩
theorem wit_TwinAndLifecycleCommandsAct_2 : ∃ (s : State) (f : Fn) (tag : W32) (c : Cmd),
    Waits s f.val tag 0xA0 c ∧ s.twinCheck f.val c = none ∧ 2 ≤ c.f 52 1 :=
  ⟨inFlight 64 (cmdOf [(0, 160), (52, 2), (20, 8)]) (plait (fun x => { x with pair := .twinLost }) paired), 64, 7, cmdOf [(0, 160), (52, 2), (20, 8)], ⟨by decide +kernel,
    by decide +kernel, by decide +kernel, by decide +kernel⟩, by decide +kernel, by decide +kernel⟩
theorem wit_TwinAndLifecycleCommandsAct_3 : ∃ (s : State) (f : Fn) (tag : W32) (c : Cmd) (st : Byte),
    Waits s f.val tag 0xA0 c ∧ (started f.val tag s).twinCheck f.val c = some st :=
  ⟨inFlight 64 (cmdOf [(0, 160), (52, 1)]) (paired), 64, 7, cmdOf [(0, 160), (52, 1)], stBadLen,
    ⟨by decide +kernel, by decide +kernel, by decide +kernel, by decide +kernel⟩, by decide +kernel⟩
theorem wit_TwinAndLifecycleCommandsAct_4 : ∃ (s : State) (f : Fn) (tag : W32) (c : Cmd),
    Waits s f.val tag 0xA0 c ∧ s.twinCheck f.val c = none ∧ c.f 52 1 = 0 ∧ s.plait.pair ≠ .paired :=
  ⟨inFlight 64 (cmdOf [(0, 160)]) (plait (fun x => { x with pair := .unpaired }) paired), 64, 7, cmdOf [(0, 160)],
    ⟨by decide +kernel, by decide +kernel, by decide +kernel, by decide +kernel⟩, by decide +kernel,
    by decide +kernel, by decide +kernel⟩
theorem wit_TwinAndLifecycleCommandsAct_5 : ∃ (s : State) (h : Hello) (f : Nat) (c : Cmd),
    s.plaitUp = true ∧ s.twinRoled = true ∧ s.boot.phase = .ready ∧ h.ready = true ∧ h.request = false ∧ s.plait.pair = .unpaired ∧ s.pairCmds = [(f, c)] ∧ f < 68 ∧ s.cmd f c.tag = some c ∧ s.mismatchCode h ≠ 0 :=
  ⟨inFlight 64 (cmdWith [(0, 160)] true Work.init) (plait (fun x => { x with pair := .unpaired }) paired), { aHello with lcy := 9, ready := true, request := false }, 64, cmdWith [(0, 160)] true Work.init,
    by decide +kernel⟩
theorem wit_TwinAndLifecycleCommandsAct_6 : ∃ (s : State) (f : Fn) (tag : W32) (c : Cmd) (d : Nat),
    s.cmd f.val tag = some c ∧ c.op = 0xA0 ∧ c.started = true ∧ c.f 52 1 = 2 ∧ c.work.deadline = some d ∧ d ≤ s.t ∧ s.fires = [] :=
  ⟨inFlight 64 (cmdWith [(0, 160), (52, 2), (20, 8)] true { Work.init with deadline := some 0 }) (paired), 64, 7, cmdWith [(0, 160), (52, 2), (20, 8)] true { Work.init with deadline := some 0 }, 0,
    by decide +kernel⟩
theorem wit_TwinAndLifecycleCommandsAct_7 : ∃ (s : State) (f : Fn) (tag : W32) (c : Cmd),
    Waits s f.val tag 0xA1 c ∧ s.twinCheck f.val c = none ∧ s.plait.pair ≠ .unpaired :=
  ⟨inFlight 64 (cmdOf [(0, 161)]) (paired), 64, 7, cmdOf [(0, 161)], ⟨by decide +kernel,
    by decide +kernel, by decide +kernel, by decide +kernel⟩, by decide +kernel, by decide +kernel⟩
theorem wit_TwinAndLifecycleCommandsAct_8 : ∃ (s : State) (f : Fn) (tag : W32) (c : Cmd),
    Waits s f.val tag 0xA1 c ∧ s.twinCheck f.val c = none ∧ s.plait.pair = .unpaired :=
  ⟨inFlight 64 (cmdOf [(0, 161)]) (plait (fun x => { x with pair := .unpaired }) paired), 64, 7, cmdOf [(0, 161)], ⟨by decide +kernel,
    by decide +kernel, by decide +kernel, by decide +kernel⟩, by decide +kernel, by decide +kernel⟩
theorem wit_TwinAndLifecycleCommandsAct_9 : ∃ (s : State) (f : Fn) (tag : W32) (c : Cmd) (l : Lifecycle),
    Waits s f.val tag 0xB0 c ∧ s.err.stopped = false ∧ s.lcyFirst f.val c = none ∧ targetOf (c.f 52 1) = some l ∧ s.targetCheck l = none ∧ l ≠ s.voted ∧ s.lcy.burn = none :=
  ⟨inFlight 64 (cmdOf [(0, 176), (52, 3), (56, lcyConfirm)]) ({ ready with lcy := { ready.lcy with fuses := { Fuses.blank with a := 0xFF, b := 0xFF, c := 0xFF } } }), 64, 7, cmdOf [(0, 176), (52, 3), (56, lcyConfirm)], .endOfLife,
    ⟨by decide +kernel, by decide +kernel, by decide +kernel, by decide +kernel⟩, by decide +kernel⟩
theorem wit_TwinAndLifecycleCommandsAct_10 : ∃ (s : State) (f : Fn) (tag : W32) (c : Cmd) (l : Lifecycle),
    Waits s f.val tag 0xB0 c ∧ s.err.stopped = false ∧ s.lcyFirst f.val c = none ∧ targetOf (c.f 52 1) = some l ∧ s.targetCheck l = none ∧ l = s.voted :=
  ⟨inFlight 64 (cmdOf [(0, 176), (52, 1), (56, lcyConfirm)]) ({ ready with lcy := { ready.lcy with fuses := { Fuses.blank with a := 0xFF, b := 0xFF, c := 0xFF } } }), 64, 7, cmdOf [(0, 176), (52, 1), (56, lcyConfirm)], .test, ⟨by decide +kernel,
    by decide +kernel, by decide +kernel, by decide +kernel⟩, by decide +kernel⟩
theorem wit_PartitionResetActs_0 : ∃ (s : State) (f : Fn) (p : Part),
    s.barOpen f.val = true ∧ s.owns f.val p.val = true ∧ s.fires = [] :=
  ⟨owned, 5, 3, by decide +kernel, by decide +kernel, by decide +kernel⟩
theorem wit_PartitionResetActs_1 : ∃ (s : State) (p : Part),
    (s.part p.val).resetPending = true ∧ (s.part p.val).gather = none :=
  ⟨part3 fun x => { x with resetPending := true }, 3, by decide +kernel, by decide +kernel⟩
theorem wit_LinkStatesAct_0 : ∃ (s : State) (n : HostPort) (p : Port),
    s.barOpen (64 + n.val) = true ∧ s.isArbiterPm (64 + n.val) = true ∧ (s.lnk p.val).link = .active ∧ s.fires = [] :=
  ⟨portUp, 0, 2, by decide +kernel, by decide +kernel, by decide +kernel, by decide +kernel⟩
theorem wit_LinkStatesAct_1 : ∃ (s : State) (n : HostPort) (p : Port),
    s.barOpen (64 + n.val) = true ∧ s.isArbiterPm (64 + n.val) = true ∧ (s.port p.val).lk.link.live = true :=
  ⟨portUp, 0, 2, by decide +kernel, by decide +kernel, by decide +kernel⟩
theorem wit_LinkStatesAct_2 : ∃ (s : State) (l : LinkNo) (us : Nat),
    (s.lnk l.val).link.limitUs = some us ∧ s.after (s.lnk l.val).since us = true :=
  ⟨linkAt 2 .sync, 2, 100, by decide +kernel, by decide +kernel⟩
theorem wit_LinkStatesAct_3 : ∃ (s : State),
    s.plait.lk.link = .down ∧ s.after s.plait.lk.since 1000 = true ∧ s.pllLocked 8 = true :=
  ⟨linkAt 8 .down, by decide +kernel, by decide +kernel, by decide +kernel⟩
theorem wit_LinkStatesAct_4 : ∃ (s : State) (p : Port),
    (s.port p.val).lk.link = .down ∧ s.after (s.port p.val).lk.since 1000 = true ∧ s.pllLocked p.val = true ∧ s.portDisabled p.val = false ∧ s.wantsScan p.val = false :=
  ⟨modPort 2 (fun x => { x with lk := { x.lk with link := .down } }) portUp, 2,
    by decide +kernel⟩
theorem wit_LinkStatesAct_5 : ∃ (s : State) (l : LinkNo) (lanes : BitVec 2),
    (s.lnk l.val).link = .detect ∧ ((s.lnk l.val).lock ||| lanes) &&& lanesOf (s.laneMode l.val) = lanesOf (s.laneMode l.val) ∧ s.fires = [] :=
  ⟨linkAt 2 .detect, 2, 3, by decide +kernel, by decide +kernel, by decide +kernel⟩
theorem wit_LinkStatesAct_6 : ∃ (s : State) (l : LinkNo) (lane : Fin 2) (role : Byte) (no : Byte) (mode : Byte),
    (s.lnk l.val).link = .sync ∧ (lanesOf (s.laneMode l.val)).getLsbD lane.val = true ∧ ((role.toNat ≠ s.peerRole l.val ∨ no.toNat ≠ lane.val ∨ mode.toNat ≠ s.laneMode l.val)) ∧ s.fires = [] :=
  ⟨linkAt 2 .sync, 2, 0, 9, 0, 0, by decide +kernel, by decide +kernel, by decide +kernel, by decide +kernel⟩
theorem wit_LinkStatesAct_7 : ∃ (s : State) (l : LinkNo) (lane : Fin 2) (role : Byte) (no : Byte),
    (s.lnk l.val).link = .sync ∧ s.laneMode l.val = 0 ∧ role.toNat = s.peerRole l.val ∧ no.toNat = lane.val ∧ (s.lnk l.val).tsSeen ||| (1#2 <<< lane.val) = lanesOf (s.laneMode l.val) ∧ s.fires = [] :=
  ⟨link 2 (fun x => { x with link := .sync, tsSeen := 2 }) ready, 2, 0, 0, 0,
    by decide +kernel⟩
theorem wit_LinkStatesAct_8 : ∃ (s : State) (l : LinkNo) (lane : Fin 2),
    (s.lnk l.val).link = .align ∧ (s.lnk l.val).alignSeen ||| (1#2 <<< lane.val) ≠ 3 ∧ s.fires = [] :=
  ⟨linkAt 2 .align, 2, 0, by decide +kernel, by decide +kernel, by decide +kernel⟩
theorem wit_LinkStatesAct_9 : ∃ (s : State) (l : LinkNo) (lane : Fin 2),
    (s.lnk l.val).link = .retrain ∧ s.laneMode l.val = 0 ∧ (s.lnk l.val).resumed = false ∧ (s.lnk l.val).tsSeen = 3 ∧ (s.lnk l.val).alignSeen ||| (1#2 <<< lane.val) = 3 ∧ s.fires = [] :=
  ⟨link 2 (fun x => { x with link := .retrain, resumed := false, tsSeen := 3, alignSeen := 2 }) ready, 2, 0,
    by decide +kernel⟩
theorem wit_LinkStatesAct_10 : ∃ (s : State) (l : LinkNo) (lane : Fin 2),
    (s.lnk l.val).link = .active ∧ (lanesOf (s.laneMode l.val)).getLsbD lane.val = true ∧ s.fires = [] :=
  ⟨linkAt 2 .active, 2, 0, by decide +kernel, by decide +kernel, by decide +kernel⟩
theorem wit_RegisterAccessesAct_0 : ∃ (s : State) (f : Fn) (off : W16) (v : Nat),
    s.answers f.val = true ∧ s.shows off.toNat = true ∧ ¬(off.toNat = 0x04C ∧ isPf f.val = true) ∧ Tab.get? (s.latchesOf false f.val) off.toNat = none ∧ v = regValue s f.val off.toNat ∧ s.fires = [] ∧ off.toNat = 0xC08 ∧ s.seesGlobal f.val = true :=
  ⟨ready, 64, 0xC08, regValue ready 64 0xC08,
    by decide +kernel⟩
theorem wit_RegisterAccessesAct_0evict : ∃ (s : State) (f : Fn) (off : W16) (v : Nat),
    s.answers f.val = true ∧ s.shows off.toNat = true ∧ ¬(off.toNat = 0x04C ∧ isPf f.val = true) ∧ Tab.get? (s.latchesOf false f.val) off.toNat = none ∧ v = regValue s f.val off.toNat ∧ s.fires = [] ∧ off.toNat = 0xC0C ∧ s.seesGlobal f.val = true :=
  ⟨ready, 64, 0xC0C, regValue ready 64 0xC0C,
    by decide +kernel⟩
theorem wit_RegisterAccessesAct_1 : ∃ (s : State) (f : Fn) (off : W16) (p : Part),
    s.answers f.val = true ∧ s.shows off.toNat = true ∧ off.toNat = 0x2000 + 0x80 * p.val + 0x28 ∧ Tab.get? (s.latchesOf false f.val) off.toNat = none ∧ s.opensPart f.val p.val = true ∧ s.fires = [] :=
  ⟨owned, 5, 0x21A8, 3,
    by decide +kernel⟩
theorem wit_RegisterAccessesAct_2 : ∃ (s : State) (f : Fn) (off : W16),
    s.fires = [] :=
  ⟨ready, 0, 0, by decide +kernel⟩
theorem wit_RegisterAccessesAct_4 : ∃ (s : State) (f : Fn) (off : W16) (v : W32),
    s.answers f.val = true ∧ s.shows off.toNat = true ∧ ¬(off.toNat = 0x04C ∧ isPf f.val = true) ∧ Tab.get? (s.latchesOf false f.val) off.toNat = some v ∧ s.fires = [] :=
  ⟨modFn 64 (fun x => { x with latches := [(0x24, 9)] }) ready, 64, 0x24, 9,
    by decide +kernel⟩
theorem wit_RegisterAccessesAct_5 : ∃ (s : State) (f : Fn) (off : W16),
    s.answers f.val = true ∧ s.shows off.toNat = false ∧ s.fires = [] :=
  ⟨phased .fuse, 64, 0x1000, by decide +kernel, by decide +kernel, by decide +kernel⟩
theorem wit_RegisterAccessesAct_6 : ∃ (s : State) (n : HostPort),
    s.answers (64 + n.val) = true ∧ s.shows 0x04C = true ∧ s.inTest = false ∧ s.fires = [] :=
  ⟨{ ready with lcy := { ready.lcy with state := .production } }, 0,
    by decide +kernel, by decide +kernel, by decide +kernel, by decide +kernel⟩
theorem wit_RegisterAccessesAct_7 : ∃ (s : State) (n : HostPort),
    s.answers (64 + n.val) = true ∧ s.shows 0x04C = true ∧ s.inTest = true ∧ (s.host n.val).memSel.toNat % 8 = 0 ∧ (s.host n.val).memAddr.toNat / 8 < 2 ^ 23 ∧ s.mem.known.contains (0, 0, (s.host n.val).memAddr.toNat / 8) = true ∧ s.mem.ue.contains (0, 0, (s.host n.val).memAddr.toNat / 8) = false ∧ s.mem.ce.contains (0, 0, (s.host n.val).memAddr.toNat / 8) = false ∧ s.fires = [] :=
  ⟨{ ready with mem := { ready.mem with known := [(0, 0, 0)] } }, 0,
    by decide +kernel⟩
theorem wit_RegisterAccessesAct_8 : ∃ (s : State) (n : HostPort) (value : W32),
    s.barOpen (64 + n.val) = true ∧ s.inTest = true ∧ s.enabledPort n.val = true ∧ s.fires = [] :=
  ⟨ready, 0, 5, by decide +kernel, by decide +kernel, by decide +kernel, by decide +kernel⟩
theorem wit_RegisterAccessesAct_9 : ∃ (s : State) (n : HostPort) (value : W32),
    s.inTest = false ∧ s.fires = [] :=
  ⟨{ ready with lcy := { ready.lcy with state := .production } }, 0, 5, by decide +kernel, by decide +kernel⟩
theorem wit_RegisterAccessesAct_10 : ∃ (s : State) (f : Fn) (off : W16) (value : W32) (en : BitVec 4),
    s.barOpen f.val = true :=
  ⟨ready, 64, 0, 0, 0xF, by decide +kernel⟩
theorem wit_RegisterAccessesAct_11 : ∃ (s : State) (f : Fn) (off : W16) (value : W32) (en : BitVec 4) (more : List (W32 × BitVec 4)),
    s.barOpen f.val = true :=
  ⟨ready, 64, 0, 0, 0, [],
    by decide +kernel⟩
theorem wit_RegisterAccessesAct_12 : ∃ (s : State) (f : Fn) (value : W32),
    s.barOpen f.val = true ∧ (s.fn f.val).enable = false ∧ s.fires = [] :=
  ⟨ready, 64, 0x404, by decide +kernel, by decide +kernel, by decide +kernel⟩
theorem wit_RegisterAccessesAct_13 : ∃ (s : State) (f : Fn) (value : W32),
    s.barOpen f.val = true ∧ (s.fn f.val).enable = true ∧ s.fires = [] :=
  ⟨modFn 64 (fun x => { x with enable := true, fetching := true }) ready, 64, 0x404,
    by decide +kernel, by decide +kernel, by decide +kernel⟩
theorem wit_TapPublicInstructionsAct_0 : ∃ (s : State),
    s.fires = [] :=
  ⟨ready, by decide +kernel⟩
theorem wit_TapPublicInstructionsAct_1 : ∃ (s : State) (cells : List Bool),
    s.fires = [] :=
  ⟨ready, [], by decide +kernel⟩
theorem wit_TapPublicInstructionsAct_2 : ∃ (s : State) (pins : List Bool) (cells : List Bool),
    s.fires = [] :=
  ⟨ready, [], [], by decide +kernel⟩
theorem wit_TapPublicInstructionsAct_3 : ∃ (s : State) (tdi : List Bool),
    s.fires = [] :=
  ⟨ready, [true], by decide +kernel⟩
theorem wit_TapPublicInstructionsAct_4 : ∃ (s : State) (code : Byte) (tdi : List Bool),
    s.tapHas code.toNat = false ∧ s.fires = [] :=
  ⟨ready, 0x99, [true], by decide +kernel, by decide +kernel⟩
theorem wit_TapPublicInstructionsAct_5 : ∃ (s : State),
    s.fires = [] :=
  ⟨ready, by decide +kernel⟩
theorem wit_TapGuardedInstructionsAct_0 : ∃ (s : State) (target : Byte) (l : Lifecycle),
    s.tapHas 0x11 = true ∧ targetOf target.toNat = some l ∧ s.targetCheck l = none ∧ l ≠ s.voted ∧ s.fires = [] ∧ s.lcy.burn = none :=
  ⟨{ ready with lcy := { ready.lcy with fuses := { Fuses.blank with a := 0xFF, b := 0xFF, c := 0xFF } } }, 3, .endOfLife,
    by decide +kernel⟩
theorem wit_TapGuardedInstructionsAct_1 : ∃ (s : State) (target : Byte) (confirm : W32),
    s.tapHas 0x11 = true ∧ confirm.toNat ≠ lcyConfirm ∧ s.fires = [] :=
  ⟨ready, 1, 0, by decide +kernel, by decide +kernel, by decide +kernel⟩
theorem wit_TapGuardedInstructionsAct_2 : ∃ (s : State) (k : Bool) (v : BitVec 384),
    s.tapHas 0x12 = true ∧ s.keyRefused k v = false ∧ s.fires = [] ∧ s.lcy.burn = none :=
  ⟨ready, true, 1,
    by decide +kernel, by decide +kernel, by decide +kernel, by decide +kernel⟩
theorem wit_TapGuardedInstructionsAct_3 : ∃ (s : State) (k : Bool) (v : BitVec 384),
    s.tapHas 0x12 = true ∧ s.keyRefused k v = true ∧ s.fires = [] :=
  ⟨{ ready with lcy := { ready.lcy with fuses := { Fuses.blank with tapLocked := true } } }, true, 1,
    by decide +kernel, by decide +kernel, by decide +kernel⟩
theorem wit_TapGuardedInstructionsAct_4 : ∃ (s : State) (dr : BitVec 128),
    s.tapHas 0x20 = true ∧ s.tap.accessBy ≤ s.t ∧ s.err.armed = false ∧ dr.toNat / 2 ^ 37 % 8 = 0 ∧ bit dr.toNat 44 = true ∧ dr.toNat % 2 ^ 37 < 2 ^ 23 ∧ s.fires = [] :=
  ⟨ready, BitVec.ofNat 128 (2 ^ 44),
    by decide +kernel⟩
theorem wit_TapGuardedInstructionsAct_5 : ∃ (s : State) (dr : BitVec 128),
    s.tapHas 0x20 = true ∧ s.t < s.tap.accessBy ∧ s.tap.ir = 0x20 ∧ s.fires = [] :=
  ⟨{ ready with tap := { ready.tap with ir := 0x20, accessBy := ready.t + 1 } }, 0,
    by decide +kernel, by decide +kernel, by decide +kernel, by decide +kernel⟩
theorem wit_TapGuardedInstructionsAct_6 : ∃ (s : State) (dr : BitVec 64),
    s.tapHas 0x21 = true ∧ s.tap.accessBy ≤ s.t :=
  ⟨ready, 0,
    by decide +kernel, by decide +kernel⟩
theorem wit_TapGuardedInstructionsAct_6during : ∃ (s : State) (dr : BitVec 64),
    s.tapHas 0x21 = true ∧ s.t < s.tap.accessBy :=
  ⟨{ ready with tap := { ready.tap with ir := 0x20, accessBy := ready.t + 1 } }, 0,
    by decide +kernel, by decide +kernel⟩
theorem wit_TapGuardedInstructionsAct_7 : ∃ (s : State),
    s.tapHas 0x30 = true ∧ s.fires = [] :=
  ⟨{ ready with lcy := { ready.lcy with state := .production } }, by decide +kernel, by decide +kernel⟩
theorem wit_TapGuardedInstructionsAct_8 : ∃ (s : State) (dr : List Byte),
    s.tapHas 0x31 = true ∧ s.tap.response = none ∧ s.lcy.lockout = false ∧ s.fires = [] :=
  ⟨{ ready with lcy := { ready.lcy with state := .production } }, zeros 193,
    by decide +kernel, by decide +kernel, by decide +kernel, by decide +kernel⟩
theorem wit_TapGuardedInstructionsAct_9 : ∃ (s : State) (key : List Byte) (sig : List Byte) (nonce : Option (BitVec 384)),
    s.tap.response = some (key, sig, nonce) ∧ s.fires = [] :=
  ⟨{ ready with tap := { ready.tap with response := some ([], [], none) } }, [], [], none,
    by decide +kernel, by decide +kernel⟩
theorem wit_TapGuardedInstructionsAct_10 : ∃ (s : State) (n : BitVec 384) (at_ : Nat),
    s.tap.nonce = some (n, at_) ∧ s.agedS at_ 60 = true ∧ s.fires = [] :=
  ⟨{ ready with tap := { ready.tap with nonce := some (5, 0) }, now := 2 ^ 60 }, 5, 0,
    by decide +kernel, by decide +kernel, by decide +kernel⟩
theorem wit_TapGuardedInstructionsAct_11at0x11 : ∃ (s : State) (code : Nat),
    s.tapHas code = false ∧ s.fires = [] ∧ code = 0x11 :=
  ⟨{ ready with lcy := { ready.lcy with state := .endOfLife } }, 0x11,
    by decide +kernel, by decide +kernel, by decide +kernel⟩
theorem wit_TapGuardedInstructionsAct_11at0x20 : ∃ (s : State) (code : Nat),
    s.tapHas code = false ∧ s.fires = [] ∧ code = 0x20 :=
  ⟨{ ready with lcy := { ready.lcy with state := .endOfLife } }, 0x20,
    by decide +kernel, by decide +kernel, by decide +kernel⟩
theorem wit_TapGuardedInstructionsAct_11at0x30 : ∃ (s : State) (code : Nat),
    s.tapHas code = false ∧ s.fires = [] ∧ code = 0x30 :=
  ⟨{ ready with lcy := { ready.lcy with state := .endOfLife } }, 0x30,
    by decide +kernel, by decide +kernel, by decide +kernel⟩
theorem wit_FlitsAndReplaysAct_0 : ∃ (s : State) (l : LinkNo) (flit : BitVec 288),
    ((s.lnk l.val).link = .active ∨ (s.lnk l.val).link = .timesync) ∧ flitGood (flitByteList flit) = false :=
  ⟨linkAt 2 .active, 2, 1, by decide +kernel, by decide +kernel⟩
theorem wit_FlitsAndReplaysAct_1 : ∃ (s : State) (l : LinkNo) (flit : BitVec 288),
    (s.lnk l.val).link.takesFlits = false ∧ s.fires = [] :=
  ⟨linkAt 2 .down, 2, 0, by decide +kernel, by decide +kernel⟩
theorem wit_FlitsAndReplaysAct_2 : ∃ (s : State) (l : LinkNo) (flit : BitVec 288),
    (s.lnk l.val).sequenced = true ∧ flitGood (flitByteList flit) = true ∧ field (flitByteList flit) 0 1 % 8 ≠ 4 ∧ (s.lnk l.val).discarding = false ∧ (s.lnk l.val).rxSeq ≠ (s.lnk l.val).lastAccepted + 1 ∧ ((s.lnk l.val).lastAccepted - (s.lnk l.val).rxSeq).toNat < 256 ∧ s.fires = [] :=
  ⟨link 2 (fun x => { x with link := .active, rxSeq := 0xFFF }) ready, 2, aFlit,
    by decide +kernel⟩
theorem wit_FlitsAndReplaysAct_3 : ∃ (s : State) (l : LinkNo) (flit : BitVec 288),
    (s.lnk l.val).sequenced = true ∧ flitGood (flitByteList flit) = true ∧ field (flitByteList flit) 0 1 % 8 ≠ 4 ∧ (s.lnk l.val).discarding = true ∧ s.fires = [] :=
  ⟨link 2 (fun x => { x with link := .timesync, discarding := true }) ready, 2, aFlit,
    by decide +kernel⟩
theorem wit_FlitsAndReplaysAct_4 : ∃ (s : State) (l : LinkNo) (flit : BitVec 288),
    (s.lnk l.val).sequenced = true ∧ flitGood (flitByteList flit) = true ∧ field (flitByteList flit) 0 1 % 8 ≠ 4 ∧ (s.lnk l.val).discarding = false ∧ (s.lnk l.val).rxSeq = (s.lnk l.val).lastAccepted + 1 :=
  ⟨linkAt 2 .active, 2, aFlit,
    by decide +kernel⟩
theorem wit_FlitsAndReplaysAct_5 : ∃ (s : State) (l : LinkNo) (hdr : CtlHdr) (seq : BitVec 12),
    (s.lnk l.val).sequenced = true :=
  ⟨linkAt 2 .active, 2, hdr0, 0,
    by decide +kernel⟩
theorem wit_FlitsAndReplaysAct_7 : ∃ (s : State) (l : LinkNo) (e : BitVec 12 × Flit) (rest : List (BitVec 12 × Flit)),
    (s.lnk l.val).unacked = e :: rest ∧ (s.lnk l.val).link = .active ∧ s.after (s.lnk l.val).ackAt 2 = true :=
  ⟨link 2 (fun x => { x with link := .active, unacked := [(0, { ch := 0, som := true, eom := true, payload := [] })] }) ready, 2, (0, { ch := 0, som := true, eom := true, payload := [] }), [],
    by decide +kernel, by decide +kernel, by decide +kernel⟩
theorem wit_FlitsAndReplaysAct_8 : ∃ (s : State) (l : LinkNo) (hdr : CtlHdr),
    (s.lnk l.val).link = .timesync ∧ s.fires = [] :=
  ⟨linkAt 2 .timesync, 2, hdr0, by decide +kernel, by decide +kernel⟩
theorem wit_FlitsAndReplaysAct_9 : ∃ (s : State) (l : LinkNo) (hdr : CtlHdr) (next : BitVec 12),
    (s.lnk l.val).link = .retrain ∧ (s.lnk l.val).resumed = true :=
  ⟨link 2 (fun x => { x with link := .retrain, resumed := true }) ready, 2, hdr0, 0,
    by decide +kernel, by decide +kernel⟩
theorem wit_ConfigAndTimesyncAct_0 : ∃ (s : State) (p : Port) (hdr : CtlHdr) (seen : Bool) (b : ConfigBody),
    (s.port p.val).lk.link = .config ∧ badConfig b = true :=
  ⟨linkAt 2 .config, 2, hdr0, false, badBody, by decide +kernel, by decide +kernel⟩
theorem wit_ConfigAndTimesyncAct_1 : ∃ (s : State) (p : Port) (hdr : CtlHdr) (b : ConfigBody),
    (s.port p.val).lk.link = .config ∧ badConfig b = false :=
  ⟨linkAt 2 .config, 2, hdr0, goodBody, by decide +kernel, by decide +kernel⟩
theorem wit_ConfigAndTimesyncAct_2 : ∃ (s : State) (p : Port) (hdr : CtlHdr) (b : ConfigBody),
    (s.port p.val).lk.link = .config ∧ badConfig b = false :=
  ⟨linkAt 2 .config, 2, hdr0, goodBody, by decide +kernel, by decide +kernel⟩
theorem wit_ConfigAndTimesyncAct_3 : ∃ (s : State) (l : LinkNo),
    s.exchanges l.val = true ∧ s.after (s.lnk l.val).lastExchange 100 = true ∧ s.fires = [] :=
  ⟨linkAt 2 .active, 2, by decide +kernel, by decide +kernel, by decide +kernel⟩
theorem wit_ConfigAndTimesyncAct_4 : ∃ (s : State) (l : LinkNo) (hdr : CtlHdr) (no : Byte) (t1 : W64) (t2 : W64) (t3 : W64),
    (s.lnk l.val).link = .active ∧ (s.lnk l.val).exchOut = some (no, t1) :=
  ⟨link 2 (fun x => { x with link := .active, exchOut := some (1, 5) }) ready, 2, hdr0, 1, 5, 6, 7,
    by decide +kernel, by decide +kernel⟩
theorem wit_ConfigAndTimesyncAct_5 : ∃ (s : State) (l : LinkNo) (hdr : CtlHdr) (no : Byte) (t1 : W64) (t2 : W64) (t3 : W64),
    (s.lnk l.val).exchOut = none :=
  ⟨linkAt 2 .active, 2, hdr0, 1, 5, 6, 7, by decide +kernel⟩
theorem wit_ConfigAndTimesyncAct_6 : ∃ (s : State) (l : LinkNo),
    (s.lnk l.val).exchOut.isSome = true ∧ s.after (s.lnk l.val).lastExchange 4 = true ∧ (s.lnk l.val).link = .active ∧ s.fires = [] :=
  ⟨link 2 (fun x => { x with link := .active, exchOut := some (1, 5) }) ready, 2,
    by decide +kernel, by decide +kernel, by decide +kernel, by decide +kernel⟩
theorem wit_ConfigAndTimesyncAct_7 : ∃ (s : State) (l : LinkNo),
    (s.lnk l.val).exchOut.isSome = true ∧ s.after (s.lnk l.val).lastExchange 4 = true ∧ (s.lnk l.val).link = .timesync ∧ s.fires = [] :=
  ⟨link 2 (fun x => { x with link := .timesync, exchOut := some (1, 5) }) ready, 2,
    by decide +kernel, by decide +kernel, by decide +kernel, by decide +kernel⟩
theorem wit_ConfigAndTimesyncAct_8 : ∃ (s : State) (hdr : CtlHdr) (exch : Byte) (t1 : W64),
    s.plait.lk.link = .active :=
  ⟨paired, hdr0, 1, 5, by decide +kernel⟩
theorem wit_DetachAndPlaitDownAct_0 : ∃ (s : State) (p : Port) (hdr : CtlHdr),
    (s.port p.val).lk.link = .active :=
  ⟨portUp, 2, hdr0, by decide +kernel⟩
theorem wit_DetachAndPlaitDownAct_1 : ∃ (s : State) (p : Port) (t0 : Nat),
    (s.port p.val).detachAt = some t0 ∧ (((s.port p.val).lk.quiet = true ∨ s.after t0 1000 = true)) :=
  ⟨modPort 2 (fun x => { x with detachAt := some 0 }) portUp, 2, 0, by decide +kernel, by decide +kernel⟩
theorem wit_DetachAndPlaitDownAct_2paired : ∃ (s : State),
    ((s.plait.lk.link = .active ∨ s.plait.lk.link = .retrain)) ∧ s.plait.pair = .paired ∧ s.plait.hbPresent = false :=
  ⟨paired, by decide +kernel, by decide +kernel, by decide +kernel⟩
theorem wit_DetachAndPlaitDownAct_2split : ∃ (s : State),
    s.plait.lk.link = .active ∧ s.plait.pair = .split ∧ s.plait.hbPresent = false :=
  ⟨plait (fun x => { x with pair := .split }) paired,
    by decide +kernel, by decide +kernel, by decide +kernel⟩
theorem wit_DetachAndPlaitDownAct_2present : ∃ (s : State),
    ((s.plait.lk.link = .active ∨ s.plait.lk.link = .retrain)) ∧ s.plait.pair = .paired ∧ s.plait.hbPresent = true :=
  ⟨plait (fun x => { x with hbPresent := true }) paired,
    by decide +kernel, by decide +kernel, by decide +kernel⟩
theorem wit_DetachAndPlaitDownAct_2pairing : ∃ (s : State),
    ((s.plait.lk.link = .active ∨ s.plait.lk.link = .retrain)) ∧ s.plait.pair = .pairing ∧ s.plait.everPaired = false :=
  ⟨plait (fun x => { x with pair := .pairing }) paired, by decide +kernel, by decide +kernel, by decide +kernel⟩
theorem wit_DieMessagesAct_0 : ∃ (s : State) (n : Port) (m : Msg) (r : OutReq) (rest : List OutReq),
    (s.port n.val).lk.sequenced = true ∧ m.ch < 3 ∧ ((s.lnk n.val).tx m.ch).outst = r :: rest ∧ m.response = true ∧ m.op = r.msg.op ∧ m.target = r.msg.target ∧ m.tag = r.msg.tag ∧ field m.data 0 1 = 0 :=
  ⟨link 2 (fun x => { x with tx0 := { x.tx0 with outst := [aReq (.renew 3)] } }) portUp, 2, aMsg, aReq (.renew 3), [],
    by decide +kernel⟩
theorem wit_DieMessagesAct_1 : ∃ (s : State) (n : Port) (m : Msg) (r : OutReq) (rest : List OutReq),
    (s.port n.val).lk.sequenced = true ∧ m.ch < 3 ∧ ((s.lnk n.val).tx m.ch).outst = r :: rest ∧ ((m.response = false ∨ m.op ≠ r.msg.op ∨ m.target ≠ r.msg.target ∨ m.tag ≠ r.msg.tag)) :=
  ⟨link 2 (fun x => { x with tx0 := { x.tx0 with outst := [aReq (.renew 3)] } }) portUp, 2, { aMsg with op := 2 }, aReq (.renew 3), [],
    by decide +kernel, by decide +kernel, by decide +kernel, by decide +kernel⟩
theorem wit_DieMessagesAct_2 : ∃ (s : State) (n : Port) (ch : Fin 3) (r : OutReq) (rest : List OutReq) (f : Nat) (tag : W32) (u : Nat) (k : Nat) (c : Cmd) (v : Nat),
    ((s.lnk n.val).tx ch.val).outst = r :: rest ∧ r.at_ + s.answerWait ch.val r ≤ s.t ∧ r.who = .cmd f tag u k ∧ s.cmd f tag = some c ∧ c.op ≠ 0x32 ∧ v ∈ s.servedBy c.partition u (r.msg.target.getLsbD 15) ∧ ¬ (r.msg.ch = 0 ∧ r.msg.op = 1 ∧ (s.unit v).view = .halted) :=
  ⟨inFlight 5 (cmdWith [(0, 0x20), (2, 3)] true Work.init) (link 2 (fun x => { x with tx0 := { x.tx0 with outst := [aReq (.cmd 5 7 8192 0)] } }) portUp), 2, 0, aReq (.cmd 5 7 8192 0), [], 5, 7, 8192, 0, cmdWith [(0, 0x20), (2, 3)] true Work.init, 8192,
    by decide +kernel⟩
theorem wit_DieMessagesAct_3 : ∃ (s : State) (n : Port) (ch : Fin 3) (r : OutReq) (rest : List OutReq) (p : Nat),
    ((s.lnk n.val).tx ch.val).outst = r :: rest ∧ r.at_ + s.answerWait ch.val r ≤ s.t ∧ r.who = .claim p :=
  ⟨link 2 (fun x => { x with tx0 := { x.tx0 with outst := [aReq (.claim 3)] } }) portUp, 2, 0, aReq (.claim 3), [], 3,
    by decide +kernel, by decide +kernel, by decide +kernel⟩
theorem wit_DieMessagesAct_4 : ∃ (s : State) (n : Port) (m : Msg),
    (s.port n.val).lk.sequenced = true :=
  ⟨portUp, 2, aMsg,
    by decide +kernel⟩
theorem wit_DieMessagesAct_5 : ∃ (s : State) (n : Port) (m : Msg),
    (s.port n.val).lk.sequenced = false ∧ s.fires = [] :=
  ⟨ready, 2, aMsg,
    by decide +kernel, by decide +kernel⟩
theorem wit_DieMessagesAct_6 : ∃ (s : State) (n : Port) (m : Msg),
    s.takesVc3 n.val m = true ∧ 24 ≤ m.data.length :=
  ⟨portUp, 2, aMsg, by decide +kernel, by decide +kernel⟩
theorem wit_DieMessagesAct_7 : ∃ (s : State) (n : Port) (m : Msg),
    s.takesVc3 n.val m = true ∧ 24 ≤ m.data.length :=
  ⟨portUp, 2, aMsg, by decide +kernel, by decide +kernel⟩
theorem wit_DieMessagesAct_8 : ∃ (s : State) (n : Port) (e : EnumSt),
    (s.port n.val).enum = some e ∧ e.stage = 4 ∧ (s.port n.val).lk.open_.any enumWaits = false ∧ s.fires = [] :=
  ⟨modPort 2 (fun x => { x with enum := some { stage := 4, outst := 0, startedAt := 0 } }) portUp, 2, { stage := 4, outst := 0, startedAt := 0 },
    by decide +kernel, by decide +kernel, by decide +kernel, by decide +kernel⟩
theorem wit_LatticeSourcesAct_0 : ∃ (s : State) (n : Port) (ns : Nat),
    (s.port n.val).hoopInUntil ≤ s.t ∧ 4 ≤ ns :=
  ⟨ready, 2, 4, by decide +kernel, by decide +kernel⟩
theorem wit_LatticeSourcesAct_1 : ∃ (s : State) (n : Port),
    s.fires = [] :=
  ⟨ready, 2, by decide +kernel⟩
theorem wit_LatticeSourcesAct_3 : ∃ (s : State) (pin : Fin 8) (up : Bool) (ns : Nat),
    bit s.xtrigDir pin.val = false ∧ 4 ≤ ns :=
  ⟨ready, 7, true, 4, by decide +kernel, by decide +kernel⟩
theorem wit_LatticeSourcesAct_4 : ∃ (s : State) (p : Part),
    (s.part p.val).stage ≠ 0 ∧ (s.part p.val).held = false ∧ (stageTerm (s.part p.val).active.weft (s.part p.val).stage).timeoutUs ≠ 0 ∧ s.after (s.part p.val).stageAt (stageTerm (s.part p.val).active.weft (s.part p.val).stage).timeoutUs = true ∧ ¬ ((s.part p.val).occStage ≠ 0 ∧ (s.part p.val).occAt = s.t) :=
  ⟨late <| part3 fun x => { x with stage := 1, active := { weft := ones, gen := 1, imageId := 0 } }, 3,
    by decide +kernel⟩
theorem wit_LatticeSourcesAct_5 : ∃ (s : State) (p : Part),
    (s.part p.val).occStage ≠ 0 ∧ (s.part p.val).occAt = s.t ∧ s.fires = [] :=
  ⟨part3 fun x => { x with occStage := 1, occAt := 1000000000 }, 3,
    by decide +kernel, by decide +kernel, by decide +kernel⟩
theorem wit_LatticeSourcesAct_6 : ∃ (s : State) (p : Part),
    s.boot.phase = .ready ∧ watchdogUs (s.atEdge p.val).active.weft ≠ 0 ∧ ((s.atEdge p.val).held = false ∨ (s.actedNow p.val).isSome = true) ∧ s.after (s.atEdge p.val).watchdogAt (watchdogUs (s.atEdge p.val).active.weft) = true :=
  ⟨late <| part3 fun x => { x with active := { weft := ones, gen := 1, imageId := 0 } }, 3,
    by decide +kernel, by decide +kernel, by decide +kernel, by decide +kernel⟩
theorem wit_LatticeSourcesAct_7 : ∃ (s : State) (p : Part),
    ((watchdogUs (s.atEdge p.val).active.weft = 0 ∨ ((s.atEdge p.val).held = true ∧ s.actedNow p.val = none))) ∧ s.fires = [] :=
  ⟨ready, 3,
    by decide +kernel, by decide +kernel⟩
theorem wit_LatticeSourcesAct_7held : ∃ (s : State) (p : Part),
    (s.atEdge p.val).held = true ∧ s.actedNow p.val = none ∧ s.fires = [] :=
  ⟨(part3 fun x => { x with held := true }), 3,
    by decide +kernel, by decide +kernel, by decide +kernel⟩
theorem wit_PulseTimersAct_0 : ∃ (s : State) (n : Port) (t0 : Nat),
    (s.port n.val).hoopOut = .on t0 ∧ t0 + nsTicks 64 ≤ s.t ∧ s.fires = [] :=
  ⟨modPort 2 (fun x => { x with hoopOut := .on 0 }) ready, 2, 0,
    by decide +kernel, by decide +kernel, by decide +kernel⟩
theorem wit_PulseTimersAct_1 : ∃ (s : State) (n : Port) (t0 : Nat),
    (s.port n.val).hoopOut = .on t0 ∧ s.t < t0 + nsTicks 64 ∧ s.fires = [] :=
  ⟨modPort 2 (fun x => { x with hoopOut := .on 1000000000 }) ready, 2, 1000000000,
    by decide +kernel, by decide +kernel, by decide +kernel⟩
theorem wit_PulseTimersAct_2 : ∃ (s : State) (n : Port) (t0 : Nat),
    (s.port n.val).hoopOut = .gap t0 false ∧ t0 + nsTicks 32 ≤ s.t ∧ s.fires = [] :=
  ⟨modPort 2 (fun x => { x with hoopOut := .gap 0 false }) ready, 2, 0,
    by decide +kernel, by decide +kernel, by decide +kernel⟩
theorem wit_PulseTimersAct_3 : ∃ (s : State) (n : Port) (t0 : Nat),
    (s.port n.val).hoopOut = .gap t0 true ∧ t0 + nsTicks 32 ≤ s.t ∧ s.fires = [] :=
  ⟨modPort 2 (fun x => { x with hoopOut := .gap 0 true }) ready, 2, 0,
    by decide +kernel, by decide +kernel, by decide +kernel⟩
theorem wit_PulseTimersAct_4 : ∃ (s : State) (j : Fin 8) (t0 : Nat),
    s.xtrig j.val = .on t0 ∧ t0 + 32 ≤ s.t ∧ s.fires = [] :=
  ⟨setXtrig 7 (.on 0) ready, 7, 0, by decide +kernel, by decide +kernel, by decide +kernel⟩
theorem wit_PulseTimersAct_5 : ∃ (s : State) (j : Fin 8) (t0 : Nat),
    s.xtrig j.val = .gap t0 false ∧ t0 + 32 ≤ s.t ∧ s.fires = [] :=
  ⟨setXtrig 7 (.gap 0 false) ready, 7, 0, by decide +kernel, by decide +kernel, by decide +kernel⟩
theorem wit_PulseTimersAct_6 : ∃ (s : State) (j : Fin 8) (t0 : Nat),
    s.xtrig j.val = .gap t0 true ∧ t0 + 32 ≤ s.t ∧ s.fires = [] :=
  ⟨setXtrig 7 (.gap 0 true) ready, 7, 0, by decide +kernel, by decide +kernel, by decide +kernel⟩
theorem wit_TwinMessagesAct_0 : ∃ (s : State) (p : Part) (a : Byte) (b : Bool) (ts : W64),
    s.plaitUp = true :=
  ⟨paired, 3, 2, false, 0, by decide +kernel⟩
theorem wit_TwinMessagesAct_1 : ∃ (s : State) (p : Part) (a : Byte) (b : Bool) (ts : W64),
    s.plaitUp = false ∧ s.fires = [] :=
  ⟨ready, 3, 2, false, 0, by decide +kernel, by decide +kernel⟩
theorem wit_TwinMessagesAct_2 : ∃ (s : State) (p : Part) (ports : Byte) (v : Bool),
    s.plaitUp = true :=
  ⟨paired, 3, 4, true, by decide +kernel⟩
theorem wit_TwinMessagesAct_3 : ∃ (s : State) (p : Part) (ports : Byte),
    s.plaitUp = true ∧ s.fires = [] :=
  ⟨paired, 3, 4, by decide +kernel, by decide +kernel⟩
theorem wit_TwinMessagesAct_4 : ∃ (s : State) (p : Part) (ports : Byte),
    s.plaitUp = true :=
  ⟨paired, 3, 4, by decide +kernel⟩
theorem wit_TwinMessagesAct_5 : ∃ (s : State) (p : Part) (ports : Byte) (event : Byte) (g : W16),
    s.plaitUp = true ∧ s.fires = [] :=
  ⟨paired, 3, 4, 0, 0, by decide +kernel, by decide +kernel⟩
theorem wit_TwinMessagesAct_6 : ∃ (s : State) (p : Part) (ports : Byte) (g : W16) (c : Commit) (k : Cmd),
    s.plaitUp = true ∧ s.fires = [] ∧ ports ≠ 0 ∧ (s.part p.val).commit = some c ∧ c.switched = false ∧ c.fn < 68 ∧ s.cmd c.fn c.tag = some k :=
  ⟨inFlight 5 (cmdWith [(0, 0x71), (2, 3)] true Work.init) (modPart 3 (fun x => { x with commit := some aCommit }) paired), 3, 4, 0, aCommit, cmdWith [(0, 0x71), (2, 3)] true Work.init,
    by decide +kernel⟩
theorem wit_TwinMessagesAct_7 : ∃ (s : State) (h : Hello),
    s.plaitUp = true :=
  ⟨paired, aHello, by decide +kernel⟩
theorem wit_TwinMessagesAct_8 : ∃ (s : State) (view : List Byte),
    s.plaitUp = true :=
  ⟨paired, zeros 64, by decide +kernel⟩
theorem wit_TwinMessagesAct_9 : ∃ (s : State) (view : List Byte),
    s.plaitUp = true :=
  ⟨paired, zeros 64, by decide +kernel⟩
theorem wit_TwinMessagesAct_10 : ∃ (s : State),
    s.plaitUp = true ∧ s.twinned = true :=
  ⟨paired, by decide +kernel, by decide +kernel⟩
theorem wit_TwinMessagesAct_11 : ∃ (s : State),
    s.plaitUp = true ∧ s.twinned = false ∧ s.fires = [] :=
  ⟨plait (fun x => { x with pair := .unpaired }) paired,
    by decide +kernel, by decide +kernel, by decide +kernel⟩
theorem wit_StakesAct_0 : ∃ (s : State) (mask : W64),
    s.plaitUp = true :=
  ⟨paired, 8, by decide +kernel⟩
theorem wit_StakesAct_1 : ∃ (s : State) (mask : W64) (n : Nat) (p : Nat),
    s.plaitUp = true ∧ (n, p) ∈ s.maskPairs mask.toNat ∧ n < 8 ∧ (∀ m < 8, ∀ q < 64, s.claiming m q = false) :=
  ⟨paired, 8, 2, 3, by decide +kernel, by decide +kernel, by decide +kernel, by decide +kernel⟩
theorem wit_StakesAct_2 : ∃ (s : State) (h : Handoff) (c : Cmd) (claimed : W64) (refused : W64),
    s.plaitUp = true ∧ s.plait.handoff = [h] ∧ s.cmd h.fn h.tag = some c ∧ s.fires = [] ∧ h.fn < 68 :=
  ⟨inFlight 64 (cmdWith [(0, 0xA0)] true Work.init) (plait (fun x => { x with handoff := [{ fn := 64, tag := 7, mask := 8, sent := true }] }) paired), { fn := 64, tag := 7, mask := 8, sent := true }, cmdWith [(0, 0xA0)] true Work.init, 8, 0,
    by decide +kernel⟩
theorem wit_StakesAct_3 : ∃ (s : State) (n : Nat) (p : Nat),
    s.boot.phase = .ready ∧ s.err.stopped = false ∧ s.after s.plait.lastRenew (s.leaseMs * 250) = true ∧ (n, p) ∈ s.heldSet ∧ s.takesReq n = true ∧ n < 8 :=
  ⟨modPort 2 (fun x => { x with stakes := [(3, { StakeView.init with held := true })] }) paired, 2, 3,
    by decide +kernel⟩
theorem wit_StakesAct_3retrain : ∃ (s : State) (n : Nat) (p : Nat),
    s.boot.phase = .ready ∧ s.err.stopped = false ∧ s.after s.plait.lastRenew (s.leaseMs * 250) = true ∧ (n, p) ∈ s.heldSet ∧ s.takesReq n = true ∧ n < 8 :=
  ⟨modPort 2 (fun x => { x with stakes := [(3, { StakeView.init with held := true })] }) (link 2 (fun x => { x with link := .retrain }) paired), 2, 3,
    by decide +kernel⟩
theorem wit_StakesAct_4 : ∃ (s : State) (n : Port) (p : Part) (t0 : Nat),
    (s.stake n.val p.val).retryAt = some t0 ∧ t0 ≤ s.t ∧ s.retries p.val = true ∧ s.takesReq n.val = true ∧ s.claiming n.val p.val = false :=
  ⟨plait (fun x => { x with pair := .twinLost }) (modPort 2 (fun x => { x with stakes := [(3, { StakeView.init with retryAt := some 0 })] }) paired), 2, 3, 0,
    by decide +kernel⟩
theorem wit_StakesAct_5 : ∃ (s : State) (n : Port) (p : Part) (t0 : Nat),
    (s.stake n.val p.val).retryAt = some t0 ∧ t0 ≤ s.t ∧ s.retries p.val = false ∧ s.fires = [] :=
  ⟨modPort 2 (fun x => { x with stakes := [(3, { StakeView.init with retryAt := some 0 })] }) paired, 2, 3, 0,
    by decide +kernel, by decide +kernel, by decide +kernel, by decide +kernel⟩
theorem wit_StakesAct_6 : ∃ (s : State) (n : Port) (p : Part) (t0 : Nat),
    (s.stake n.val p.val).retryAt = some t0 ∧ t0 ≤ s.t ∧ s.retries p.val = true ∧ s.takesReq n.val = false ∧ s.fires = [] :=
  ⟨plait (fun x => { x with pair := .twinLost }) (modPort 2 (fun x => { x with stakes := [(3, { StakeView.init with retryAt := some 0 })], lk := { x.lk with link := .down } }) paired), 2, 3, 0,
    by decide +kernel⟩
theorem wit_TwinImageAndHeartbeatAct_0 : ∃ (s : State),
    s.wantsImage = true ∧ s.plaitUp = true ∧ s.after s.plait.lastReq 10000 = true ∧ s.plait.retryAt ≤ s.t :=
  ⟨plait (fun x => { x with lk := { x.lk with link := .active }, role := 3 }) { phased .awaitWeave with straps := { ready.straps with bootSrc := true, pairRank := false } },
    by decide +kernel, by decide +kernel, by decide +kernel, by decide +kernel⟩
theorem wit_TwinImageAndHeartbeatAct_1 : ∃ (s : State) (found : Ecc),
    s.plaitUp = true ∧ s.plait.role = 2 ∧ s.plait.retained = none :=
  ⟨paired, .good,
    by decide +kernel, by decide +kernel, by decide +kernel⟩
theorem wit_TwinImageAndHeartbeatAct_2 : ∃ (s : State) (img : List Byte),
    s.plaitUp = true ∧ s.plait.role = 2 ∧ s.plait.retained = some img ∧ (s.inlineEcc = false ∨ s.plait.retainedBad = false) :=
  ⟨plait (fun x => { x with retained := some header }) paired, header,
    by decide +kernel, by decide +kernel, by decide +kernel, by decide +kernel⟩
theorem wit_TwinImageAndHeartbeatAct_3 : ∃ (s : State) (total : W32) (bytes : List Byte),
    s.plaitUp = true ∧ s.wantsImage = true ∧ total.toNat ≤ bytes.length ∧ s.fires = [] :=
  ⟨plait (fun x => { x with lk := { x.lk with link := .active }, role := 3 }) { phased .awaitWeave with straps := { ready.straps with bootSrc := true, pairRank := false } }, 1, [7],
    by decide +kernel, by decide +kernel, by decide +kernel, by decide +kernel⟩
theorem wit_TwinImageAndHeartbeatAct_4 : ∃ (s : State) (offset : W32) (total : W32) (bytes : List Byte),
    s.plaitUp = true ∧ s.wantsImage = true ∧ offset ≠ 0 ∧ s.plait.imageBuf.length = offset.toNat ∧ offset.toNat + bytes.length < total.toNat ∧ s.fires = [] :=
  ⟨plait (fun x => { x with imageBuf := [7] }) (plait (fun x => { x with lk := { x.lk with link := .active }, role := 3 }) { phased .awaitWeave with straps := { ready.straps with bootSrc := true, pairRank := false } }), 1, 9, [7],
    by decide +kernel⟩
theorem wit_TwinImageAndHeartbeatAct_5 : ∃ (s : State),
    s.fires = [] :=
  ⟨ready, by decide +kernel⟩
theorem wit_TwinImageAndHeartbeatAct_6 : ∃ (s : State),
    s.pulses = true ∧ s.plait.hbOut = .idle ∧ s.after s.plait.lastPulse 200 = true ∧ s.fires = [] :=
  ⟨paired, by decide +kernel, by decide +kernel, by decide +kernel, by decide +kernel⟩
theorem wit_TwinImageAndHeartbeatAct_7 : ∃ (s : State) (t0 : Nat),
    s.plait.hbOut = .on t0 ∧ s.after t0 1 = true ∧ s.fires = [] :=
  ⟨plait (fun x => { x with hbOut := .on 0 }) paired, 0,
    by decide +kernel, by decide +kernel, by decide +kernel⟩
theorem wit_TwinImageAndHeartbeatAct_8 : ∃ (s : State),
    s.twinRoled = true ∧ s.fires = [] :=
  ⟨paired, by decide +kernel, by decide +kernel⟩
theorem wit_TwinImageAndHeartbeatAct_9 : ∃ (s : State),
    s.plait.hbPresent = true ∧ s.after s.plait.lastHb 1000 = true ∧ s.plaitUp = true :=
  ⟨plait (fun x => { x with hbPresent := true }) paired,
    by decide +kernel, by decide +kernel, by decide +kernel⟩
theorem wit_TwinImageAndHeartbeatAct_10 : ∃ (s : State),
    s.plait.hbPresent = true ∧ s.after s.plait.lastHb 1000 = true ∧ s.plaitUp = false ∧ ((s.plait.pair = .paired ∨ s.plait.pair = .split)) :=
  ⟨plait (fun x => { x with hbPresent := true, pair := .split, lk := { x.lk with link := .down } }) paired,
    by decide +kernel, by decide +kernel, by decide +kernel, by decide +kernel⟩
theorem wit_TwinImageAndHeartbeatAct_11 : ∃ (s : State),
    s.plait.pair = .unpaired ∧ s.boot.phase = .ready ∧ s.after s.plait.readyAt 100000 = true ∧ s.plait.everPaired = false ∧ s.plait.everReleased = false ∧ s.plait.everActive = false ∧ s.plait.hbEver = false :=
  ⟨plait (fun x => { x with pair := .unpaired }) ready,
    by decide +kernel⟩
theorem wit_FaultEventsAct_0 : ∃ (s : State) (word : Nat),
    s.fires = [] :=
  ⟨ready, 8388607, by decide +kernel⟩
theorem wit_FaultEventsAct_1 : ∃ (s : State) (word : Nat) (place : CreelPlace),
    s.fires = [] :=
  ⟨ready, 8388607, .library 4 64,
    by decide +kernel⟩
theorem wit_FaultEventsAct_2 : ∃ (s : State) (word : Nat) (p : Part) (i : Nat) (r : TraceRec),
    s.fires = [] ∧ (s.part p.val).tier[i]? = some r :=
  ⟨part3 fun x => { x with tier := [aRec] }, 8388607, 3, 0, aRec,
    by decide +kernel, by decide +kernel⟩
theorem wit_FaultEventsAct_3 : ∃ (s : State) (word : Nat),
    s.fires = [] ∧ s.mem.ue.contains (0, 0, word) = false :=
  ⟨{ ready with mem := { ready.mem with ce := [(0, 0, 5)] } }, 5, by decide +kernel, by decide +kernel⟩
theorem wit_FaultEventsAct_4 : ∃ (s : State) (word : Nat),
    s.fires = [] ∧ s.mem.ue.contains (0, 0, word) = false ∧ s.mem.ce.contains (0, 0, word) = false :=
  ⟨ready, 0, by decide +kernel, by decide +kernel, by decide +kernel⟩
theorem wit_FaultEventsAct_5 : ∃ (s : State),
    s.err.thermalArmed = true ∧ s.fires = [] :=
  ⟨ready, by decide +kernel, by decide +kernel⟩
theorem wit_FaultEventsAct_6 : ∃ (s : State),
    s.err.thermalArmed = false ∧ s.fires = [] :=
  ⟨{ ready with err := { ready.err with thermalArmed := false } }, by decide +kernel, by decide +kernel⟩
theorem wit_FaultEventsAct_7 : ∃ (s : State),
    s.fires = [] :=
  ⟨ready, by decide +kernel⟩
theorem wit_FaultEventsAct_8 : ∃ (s : State),
    s.fires = [] :=
  ⟨ready, by decide +kernel⟩

end Sys2Proof.Tests
end

/-!
SUPPORT. Every command's meaning ends with `done`: the inversion of `exec` from which the completion of every command
follows.
-/

namespace Sys2Proof.Laws
open Sys2Proof Sys2Proof.Machine

/-! ### The outcomes that a meaning is built from -/

/-- The outcome is a next state in which every lattice source that fired has been evaluated. -/
def EndsSettled (o : Host.Outcome State Fault Refusal) : Prop := ∃ u, o = done u

theorem EndsSettled.done (u : State) : EndsSettled (Machine.done u) := ⟨u, rfl⟩

theorem EndsSettled.ite {c : Prop} {_ : Decidable c} {a b : Host.Outcome State Fault Refusal} (ha : EndsSettled a)
    (hb : EndsSettled b) : EndsSettled (if c then a else b) := by
  split
  · exact ha
  · exact hb

/-- The shape of most events of the table: they act under a condition, and otherwise do nothing. -/
theorem EndsSettled.guard {c : Prop} {_ : Decidable c} (u v : State) :
    EndsSettled (if c then Machine.done u else Machine.done v) :=
  .ite (.done u) (.done v)

theorem EndsSettled.continues {o : Host.Outcome State Fault Refusal} (h : EndsSettled o) : Continues o := by
  obtain ⟨u, rfl⟩ := h
  exact ⟨settle u, rfl⟩

/-! ### Meanings that look more than one thing up, or branch on what they find -/

theorem execHangEventProcess_endsSettled (s : State) : EndsSettled (execHangEventProcess s) := by
  unfold execHangEventProcess
  split
  · exact .done _
  · exact .done _

theorem execHangScanEnd_endsSettled (part : Part) (found : Ecc) (s : State) :
    EndsSettled (execHangScanEnd part found s) := by
  dsimp only [execHangScanEnd]
  split
  · exact .done _
  · refine .ite (.done _) (.ite (.done _) (.ite (.done _) (.ite (.guard _ _) ?_)))
    split
    · exact .guard _ _
    · exact .done _

theorem execAdaptorOperationTimeout_endsSettled (s : State) : EndsSettled (execAdaptorOperationTimeout s) := by
  unfold execAdaptorOperationTimeout
  split
  · split
    · exact .guard _ _
    · exact .done _
  · exact .done _

theorem execCutFreed_endsSettled (part : Part) (cut : W32) (s : State) : EndsSettled (execCutFreed part cut s) := by
  dsimp only [execCutFreed]
  split
  · exact .done _
  · refine .ite (.done _) ?_
    split
    · exact .done _
    · split
      · exact .done _
      · exact .done _

theorem execSplintEmit_endsSettled (found : SplintEcc) (s : State) : EndsSettled (execSplintEmit found s) := by
  unfold execSplintEmit
  refine .ite (.done _) ?_
  split
  · exact .done _
  · exact .done _

theorem execResponseTimeout_endsSettled (port : Port) (ch : Fin 3) (s : State) :
    EndsSettled (execResponseTimeout port ch s) := by
  dsimp only [execResponseTimeout]
  split
  · exact .done _
  · refine .ite (.done _) ?_
    split
    · split
      · exact .guard _ _
      · exact .done _
    · exact .done _

theorem execCoderAnswerRead_endsSettled (part : Part) (found : Ecc) (s : State) :
    EndsSettled (execCoderAnswerRead part found s) := by
  dsimp only [execCoderAnswerRead]
  split
  · exact .ite (.done _) (.ite (.done _) (.guard _ _))
  · exact .done _

theorem execImageFetchEnd_endsSettled (port : HostPort) (bytes : List Byte) (error : Bool) (s : State) :
    EndsSettled (execImageFetchEnd port bytes error s) := by
  dsimp only [execImageFetchEnd]
  refine .ite (.done _) (.ite (.done _) ?_)
  split
  · exact .done _
  · exact .guard _ _

theorem execImageCheckDone_endsSettled (s : State) : EndsSettled (execImageCheckDone s) := by
  dsimp only [execImageCheckDone]
  split
  · exact .done _
  · split
    · exact .done _
    · split
      · exact .done _
      · exact .done _

theorem execReweaveCheckEnd_endsSettled (fn : Fn) (tag : W32) (s : State) :
    EndsSettled (execReweaveCheckEnd fn tag s) := by
  dsimp only [execReweaveCheckEnd]
  split
  · exact .done _
  · refine .ite (.done _) (.ite (.done _) ?_)
    split
    · exact .done _
    · exact .done _

theorem execWeftSwitch_endsSettled (part : Part) (s : State) : EndsSettled (execWeftSwitch part s) := by
  dsimp only [execWeftSwitch]
  split
  · exact .guard _ _
  · exact .done _

theorem execTraceFlushDrained_endsSettled (fn : Fn) (tag : W32) (s : State) :
    EndsSettled (execTraceFlushDrained fn tag s) := by
  unfold execTraceFlushDrained
  split
  · exact .done _
  · refine .ite ?_ (.done _)
    split
    · exact .done _
    · exact .done _

theorem execGapEnd_endsSettled (part : Part) (dram : Bool) (s : State) : EndsSettled (execGapEnd part dram s) := by
  dsimp only [execGapEnd]
  refine .ite ?_ ?_
  · split
    · exact .guard _ _
    · exact .done _
  · split
    · exact .guard _ _
    · exact .done _

theorem execHostDmaError_endsSettled (fn : Fn) (tag : W32) (s : State) : EndsSettled (execHostDmaError fn tag s) := by
  dsimp only [execHostDmaError]
  split
  · exact .done _
  · exact .ite (.done _) (.ite (.done _) (.guard _ _))

theorem execReleaseTakesEffect_endsSettled (fn : Fn) (tag : W32) (s : State) :
    EndsSettled (execReleaseTakesEffect fn tag s) := by
  dsimp only [execReleaseTakesEffect]
  split
  · exact .done _
  · exact .ite (.done _) (.guard _ _)

theorem execHeartbeatPulseEnd_endsSettled (s : State) : EndsSettled (execHeartbeatPulseEnd s) := by
  unfold execHeartbeatPulseEnd
  split
  · exact .guard _ _
  · exact .done _
  · exact .done _

theorem execFuseBitAttemptEnd_endsSettled (took : Bool) (s : State) : EndsSettled (execFuseBitAttemptEnd took s) := by
  dsimp only [execFuseBitAttemptEnd]
  split
  · exact .done _
  · split
    · exact .done _
    · exact .done _

theorem execXtrigPulseEnd_endsSettled (pin : Fin 8) (s : State) : EndsSettled (execXtrigPulseEnd pin s) := by
  dsimp only [execXtrigPulseEnd]
  split
  · exact .guard _ _
  · exact .guard _ _
  · exact .done _

/-! ### Every command -/

/-- What a command can do: whatever its operands, it settles some state. -/
theorem exec_endsSettled (i : Instr) (s : State) : EndsSettled (exec i s) := by
  cases i with
  | hangEventProcess => exact execHangEventProcess_endsSettled s
  | hangScanEnd part found => exact execHangScanEnd_endsSettled part found s
  | adaptorOperationTimeout => exact execAdaptorOperationTimeout_endsSettled s
  | cutFreed part cut => exact execCutFreed_endsSettled part cut s
  | splintEmit found => exact execSplintEmit_endsSettled found s
  | responseTimeout port ch => exact execResponseTimeout_endsSettled port ch s
  | coderAnswerRead part found => exact execCoderAnswerRead_endsSettled part found s
  | imageFetchEnd port bytes error => exact execImageFetchEnd_endsSettled port bytes error s
  | imageCheckDone => exact execImageCheckDone_endsSettled s
  | reweaveCheckEnd fn tag => exact execReweaveCheckEnd_endsSettled fn tag s
  | weftSwitch part => exact execWeftSwitch_endsSettled part s
  | traceFlushDrained fn tag => exact execTraceFlushDrained_endsSettled fn tag s
  | gapEnd part dram => exact execGapEnd_endsSettled part dram s
  | hostDmaError fn tag => exact execHostDmaError_endsSettled fn tag s
  | releaseTakesEffect fn tag => exact execReleaseTakesEffect_endsSettled fn tag s
  | heartbeatPulseEnd => exact execHeartbeatPulseEnd_endsSettled s
  | fuseBitAttemptEnd took => exact execFuseBitAttemptEnd_endsSettled took s
  | xtrigPulseEnd pin => exact execXtrigPulseEnd_endsSettled pin s
  -- What the event is about is looked up; where nothing is found, nothing happens.
  | haltTimeoutExpiry | stepTimeoutExpiry | trainTimeout | ackTimeoutReplay | detachAckSend | counterConfigWaitExpiry
  | deferredLatchPoint | sliceLimit | hostWriteError | codingStall | watchApplyEnd | traceFrameTimeout | spillReturn
  | coalesceTimeout | stakeClaimRetry | hoopOutPulseEnd | hoopReleaseGapEnd =>
    dsimp only [exec, execHaltTimeoutExpiry, execStepTimeoutExpiry, execTrainTimeout, execAckTimeoutReplay,
      execDetachAckSend, execCounterConfigWaitExpiry, execDeferredLatchPoint, execSliceLimit, execHostWriteError,
      execCodingStall, execWatchApplyEnd, execTraceFrameTimeout, execSpillReturn, execCoalesceTimeout,
      execStakeClaimRetry, execHoopOutPulseEnd, execHoopReleaseGapEnd]
    split
    · exact .guard _ _
    · exact .done _
  | exportPortTimeout | enumerationDone | warpCommitDone | takeoverTimeout | warpSettle =>
    dsimp only [exec, execExportPortTimeout, execEnumerationDone, execWarpCommitDone, execTakeoverTimeout, execWarpSettle]
    split
    · exact .done _
    · exact .guard _ _
  -- Conditions alone decide.
  | flitReceive => exact .ite (.done _) (.ite (.done _) (.guard _ _))
  | heartbeatLost => exact .ite (.ite (.done _) (.guard _ _)) (.done _)
  | hangScan | blockLock | osierWord | traceFrameSend | descriptorFetch | hostPortReset | grant =>
    exact .ite (.done _) (.guard _ _)
  | resume | step | proofDone | downPeriodEnd | timesyncTimer | timesyncExchangeTimeout | plaitTimesyncReq
  | plaitLinkDown | dramTrainingDone | keepaliveTimer | timesyncRecordTimer | waleLinkUp | d3hotEntry | d0Return
  | sessionReset | sessionResetDrainEnd | pfFunctionReset | claim | haltFwd | hoopEn | hoopEnAck | stakeNote
  | stakeRenewTimer | hello | stakeView | fastView | handoff | handoffDone | unpair | imageReqTimer | imageReq
  | imageData | heartbeatPulse | heartbeatAssert | twinAbsentTimeout | powerOnReset | supplyDrop | clockFault
  | porstNRise | stakeWatchdogExpiry | rootPllLock | fusePhaseEnd | journalPhaseEnd | scrubPhaseEnd | bootFail
  | readyEntry | borderLinkUp | serdesPllRelock | partitionResetComplete | bypass | stageTimeout
  | partitionWatchdogExpiry => exact .guard _ _
  -- Every other meaning is one `done`.
  | _ => exact .done _

/-- Settles O3: what `exec` answers is always a settled next state. -/
theorem everyCommandCompletes : Obligations.EveryCommandCompletes := by
  unfold Obligations.EveryCommandCompletes
  intro i s
  exact (exec_endsSettled i s).continues

end Sys2Proof.Laws

/-!
SUPPORT. The tables of the state right after a power-on reset, and the statements about that state alone.
-/

namespace Sys2Proof.Laws
open Sys2Proof Sys2Proof.Machine

/-! ### The numbered pieces of State.reset -/

theorem part_reset (p : Nat) : State.reset.part p = PartSt.init := by
  unfold State.part
  split
  · exact Vector.getElem_replicate _
  · rfl

theorem port_reset (n : Nat) : State.reset.port n = PortSt.init := by
  unfold State.port
  split
  · exact Vector.getElem_replicate _
  · rfl

theorem lnk_reset (l : Nat) : State.reset.lnk l = Lnk.init := by
  unfold State.lnk
  split
  · rfl
  · rw [port_reset]; rfl

/-- A VF has two vectors, a PF three, and what a function's reset left on a die none. -/
theorem fn_reset (f : Nat) : ∃ v, State.reset.fn f = FnSt.init v := by
  unfold State.fn
  split
  · dsimp only [State.reset]
    rw [Vector.getElem_append]
    split
    · rw [Vector.getElem_append]
      split
      · exact ⟨2, Vector.getElem_replicate _⟩
      · exact ⟨3, Vector.getElem_replicate _⟩
    · exact ⟨0, Vector.getElem_replicate _⟩
  · exact ⟨2, rfl⟩

/-- Settles O13: every partition is as PartSt.init has it. -/
theorem resetRolesApart : Obligations.ResetRolesApart := by
  unfold Obligations.ResetRolesApart
  refine ⟨⟨fun p f h => ?_, fun p => ?_⟩, fun p => ?_⟩
  · rw [part_reset] at h; cases h
  · rw [part_reset]; exact Nat.zero_le _
  · rw [part_reset]; rfl

/-- Settles O16: the scalars are read off State.reset, the rest off what every link, partition and function starts as. -/
theorem resetValues : Obligations.ResetValues := by
  unfold Obligations.ResetValues
  refine ⟨rfl, rfl, rfl, rfl, rfl, rfl, rfl, fun n _ => ?_, fun p _ => ?_, fun f _ => ?_⟩
  · rw [lnk_reset]; exact ⟨rfl, rfl⟩
  · rw [part_reset]; exact ⟨rfl, rfl, rfl, rfl⟩
  · obtain ⟨v, hv⟩ := fn_reset f
    rw [hv]; exact ⟨rfl, rfl, rfl⟩

/-! ### An idle step -/

theorem tick_unlocked {s : State} (h : s.clk.rootLock = false) : tick s = s := by
  unfold tick; rw [h]; rfl

theorem tick_now {s : State} (h : s.clk.rootLock = true) : (tick s).now = s.now + 1 := by
  unfold tick
  rw [if_pos h]
  dsimp only
  split
  · exact Only.now (updateMeters_only _) rfl
  · rfl

theorem step_idle {s : State} (h : s.pending = []) : step s = .next (tick s) := by
  unfold step; rw [h]

/-- Settles O2: an idle step is `tick`, whose frame `tick_only` gives. -/
theorem emptyQueueTicks : Obligations.EmptyQueueTicks := by
  unfold Obligations.EmptyQueueTicks
  refine ⟨fun s hq hl => ?_, fun s hq hl => ⟨tick s, step_idle hq, tick_now hl, tick_only s⟩⟩
  rw [step_idle hq, tick_unlocked hl]

end Sys2Proof.Laws

/-!
SUPPORT. Power-on, supply and clock resets.
-/

namespace Sys2Proof.Laws
open Sys2Proof Sys2Proof.Machine

/-! ### What `powerReset` leaves -/

theorem cutFuses_of_no_burn {s : State} (h : s.lcy.burn = none) : s.cutFuses = s.lcy.fuses := by
  unfold State.cutFuses; rw [h]; rfl

theorem powerReset_fires (cause : BitVec 6) (s : State) : (powerReset cause s).fires = [] := rfl

theorem powerReset_straps (cause : BitVec 6) (s : State) : (powerReset cause s).straps = s.straps := rfl

/-- The pins, the straps and the clocks are what the three resets settle each in its own way; the rest is cold. -/
theorem coldStart_of_powerReset {cause : BitVec 6} {s t : State} (h : Only [.pins, .clk, .straps, .free] (powerReset cause s) t)
    (hp : t.pins.perst = s.pins.perst) (hx : t.pins.xtrig = s.pins.xtrig) : ColdStart cause s t where
  kept := ⟨h.same .pending (by decide), h.same .id (by decide), hp, hx⟩
  boot := h.same .boot (by decide)
  fuses hb := (congrArg LcyCtl.fuses (h.same .lcy (by decide))).trans (cutFuses_of_no_burn hb)
  hub := ⟨h.same .now (by decide), h.same .weave (by decide), h.same .billing (by decide), h.same .units (by decide),
    h.same .slath (by decide), h.same .hang (by decide), h.same .always (by decide), h.same .osier (by decide),
    h.same .plait (by decide), h.same .err (by decide), h.same .mem (by decide)⟩
  each := ⟨h.same .hosts (by decide), h.same .fns (by decide), h.same .sess (by decide), h.same .ports (by decide),
    h.same .parts (by decide)⟩

/-! ### How long a pulse has to be -/

theorem pulseResets_of_long {short long ns : Nat} (free : Bool) (h : long ≤ ns) : pulseResets short long ns free = true :=
  if_pos h

theorem pulseResets_of_short {short long ns : Nat} (free : Bool) (hl : short ≤ long) (h : ns < short) :
    pulseResets short long ns free = false := by
  unfold pulseResets
  rw [if_neg (by omega), if_pos h]

/-! ### The three resets -/

theorem execPowerOnReset_long {s : State} {n : Nat} (h : 10000 ≤ n) : exec (.powerOnReset n) s =
    done (nextFree { powerReset causePowerOn s with pins := { s.pins with porst := false, ddrReset := 0 } }) :=
  if_pos (pulseResets_of_long _ h)

theorem execPowerOnReset_short {s : State} {n : Nat} (h : n < 1000) : exec (.powerOnReset n) s = done (nextFree s) :=
  if_neg (by rw [pulseResets_of_short _ (by decide) h]; decide)

theorem execSupplyDrop_long {s : State} {d : SupplyDip} (h : 2000 ≤ d.belowNs) : exec (.supplyDrop d) s =
    done (nextFree { powerReset causeSupply s with
      pins := { s.pins with supplyGood := false, ddrReset := 0 },
      straps := if s.pins.porst then Straps.sample d.pairRank d.bootSrc d.mask else s.straps }) :=
  if_pos (pulseResets_of_long _ h)

theorem execSupplyDrop_short {s : State} {d : SupplyDip} (h : d.belowNs < 500) :
    exec (.supplyDrop d) s = done (nextFree s) :=
  if_neg (by rw [pulseResets_of_short _ (by decide) h]; decide)

theorem execClockFault_running {s : State} {a : ClockLoss} (hp : s.pins.porst = true) (hg : s.pins.supplyGood = true) :
    exec (.clockFault a) s =
      done { powerReset causeClock s with
        clk := { (powerReset causeClock s).clk with refPresent := !a.refAbsent },
        straps := Straps.sample a.pairRank a.bootSrc a.mask } :=
  if_pos (by rw [hp, hg]; rfl)

/-- A pulse too short for a reset takes one of the model's free values. -/
theorem done_nextFree {s : State} (h : s.fires = []) : done (nextFree s) = .next { s with free := s.free + 1 } :=
  congrArg Host.Outcome.next (settle_of_nil (s := nextFree s) h)

/-- Settles O17: each reset is `powerReset` but for pins, straps and clocks. -/
theorem powerResetsAct : Obligations.PowerResetsAct := by
  unfold Obligations.PowerResetsAct
  refine ⟨fun s n hn => ?_, fun s n hn hq => ?_, fun s d hd => ?_, fun s d hd hq => ?_, fun s a hp hg => ?_⟩
  · refine Runs.quiet (execPowerOnReset_long hn) rfl ⟨coldStart_of_powerReset ?_ rfl rfl, rfl, rfl⟩
    exact (upd_pins (.refl _ _) rfl).step (nextFree_only _) rfl
  · rw [execPowerOnReset_short hn, done_nextFree hq]
  · refine Runs.quiet (execSupplyDrop_long hd) rfl ⟨coldStart_of_powerReset ?_ rfl rfl, rfl, rfl⟩
    exact (upd_pins_straps (.refl _ _) rfl).step (nextFree_only _) rfl
  · rw [execSupplyDrop_short hd, done_nextFree hq]
  · refine Runs.quiet (execClockFault_running hp hg) rfl ⟨coldStart_of_powerReset ?_ rfl rfl, rfl, hp, rfl⟩
    exact upd_clk_straps (.refl _ _) rfl

end Sys2Proof.Laws

/-!
SUPPORT. Warm resets: what one keeps, and which commands start one.
-/

namespace Sys2Proof.Laws
open Sys2Proof Sys2Proof.Machine

/-! ### The state with which a warm reset enters FUSE -/

theorem ses_warmed (s : State) (cause : BitVec 6) {n : Nat} (h : n < 64) :
    (s.warmed cause).ses n = (s.ses n).warm := by
  unfold State.ses
  rw [dif_pos h, dif_pos h]
  exact Vector.getElem_map ..

theorem part_warmed (s : State) (cause : BitVec 6) {p : Nat} (h : p < 64) :
    (s.warmed cause).part p = (s.part p).warm := by
  unfold State.part
  rw [dif_pos h, dif_pos h]
  exact Vector.getElem_map ..

theorem warmed_warmStart (s : State) (cause : BitVec 6) : WarmStart cause s (s.warmed cause) where
  boot := ⟨rfl, rfl, rfl, rfl, rfl⟩
  kept := ⟨rfl, rfl, rfl, rfl, rfl, rfl, rfl, rfl, rfl, rfl⟩
  meters n h := by rw [ses_warmed s cause h]; rfl
  parts p h := part_warmed s cause h
  hub := ⟨rfl, rfl, rfl, rfl, rfl, rfl, rfl, rfl, rfl⟩

/-- Of the state before it a warm reset reads neither the rings nor the TAP, the outputs and the fuses' values. -/
theorem warmStart_of_only {cause : BitVec 6} {s u t : State} (h : WarmStart cause u t)
    (k : Only [.lcy, .tap, .fns, .always, .err, .out] s u) (hf : u.lcy.fails = s.lcy.fails)
    (hl : u.lcy.lockout = s.lcy.lockout) : WarmStart cause s t := by
  obtain ⟨boot, kept, meters, parts, hub⟩ := h
  rw [k.same .boot (by decide)] at boot
  rw [k.same .pending (by decide), k.same .now (by decide), k.same .id (by decide), k.same .pins (by decide),
    k.same .clk (by decide), k.same .straps (by decide), k.same .mem (by decide), k.same .weave (by decide), hf, hl] at kept
  rw [k.same .slath (by decide)] at hub
  refine ⟨boot, kept, fun n hn => ?_, fun p hp => ?_, hub⟩
  · rw [meters n hn, Only.ses k rfl]
  · rw [parts p hp, Only.part k rfl]

/-- What a reset that acts at once goes through before and after `State.warmed`. -/
theorem warmStart_billed {cause : BitVec 6} {s u t : State} (h : WarmStart cause s u) (k : Only [.billing] u t) :
    WarmStart cause s t := by
  obtain ⟨boot, kept, meters, parts, hub⟩ := h
  refine ⟨?_, ?_, fun n hn => ?_, fun p hp => ?_, ?_⟩
  · rwa [k.same .boot (by decide)]
  · rwa [k.same .pending (by decide), k.same .now (by decide), k.same .id (by decide), k.same .pins (by decide),
      k.same .clk (by decide), k.same .straps (by decide), k.same .mem (by decide), k.same .lcy (by decide)]
  · rw [Only.ses k rfl, meters n hn]
  · rw [Only.part k rfl, parts p hp]
  · rwa [k.same .weave (by decide), k.same .units (by decide), k.same .osier (by decide), k.same .plait (by decide),
      k.same .fns (by decide), k.same .slath (by decide), k.same .hang (by decide)]

/-- Every command ends and the outputs are released. -/
theorem beforeWarmed_only (s : State) : Only [.fns, .always, .out] s (releaseOutputs (abortAll s)) :=
  (abortAll_only s).step (releaseOutputs_only _) rfl

theorem warmNow_warmStart (cause : BitVec 6) (s : State) : WarmStart cause s (warmNow cause s) := by
  have k := beforeWarmed_only s
  have hl := k.same .lcy (by decide)
  exact warmStart_billed (warmStart_of_only (warmed_warmStart _ cause) (k.weaken rfl) (congrArg LcyCtl.fails hl)
    (congrArg LcyCtl.lockout hl)) (noteOpenLab_only _)

theorem warmNow_fires (cause : BitVec 6) (s : State) : (warmNow cause s).fires = [] :=
  Only.fires (noteOpenLab_only _) rfl

theorem warmNow_fuses (cause : BitVec 6) (s : State) : (warmNow cause s).lcy.fuses = s.lcy.fuses := by
  have before := congrArg LcyCtl.fuses ((beforeWarmed_only s).same .lcy (by decide))
  exact (congrArg LcyCtl.fuses ((noteOpenLab_only _).same .lcy (by decide))).trans before

theorem warmNow_ir (cause : BitVec 6) (s : State) : (warmNow cause s).tap.ir = s.tap.ir := by
  have before := congrArg TapCtl.ir ((beforeWarmed_only s).same .tap (by decide))
  exact (congrArg TapCtl.ir ((noteOpenLab_only _).same .tap (by decide))).trans before

/-- The error log stands, and the firmware runs again. -/
theorem warmNow_err (cause : BitVec 6) (s : State) :
    (warmNow cause s).err.log = s.err.log ∧ (warmNow cause s).err.stopped = false := by
  have before := congrArg ErrCtl.log ((beforeWarmed_only s).same .err (by decide))
  have k := (noteOpenLab_only ((releaseOutputs (abortAll s)).warmed cause)).same .err (by decide)
  exact ⟨(congrArg ErrCtl.log k).trans before, congrArg ErrCtl.stopped k⟩

theorem warmReset_of_no_burn {cause : BitVec 6} {s : State} (h : s.lcy.burn = none) : warmReset cause s = warmNow cause s :=
  if_neg (by rw [h]; decide)

theorem warmReset_of_burn {cause : BitVec 6} {s : State} (h : s.lcy.burn.isSome = true) : warmReset cause s =
    { s with boot := { s.boot with warmWaiting := some ((s.boot.warmWaiting.getD 0) ||| cause) } } := if_pos h

/-! ### The commands that start one -/

theorem hostPut_of_open {f : Nat} {g : State → State} {s : State} (h : s.barOpen f = true) :
    hostPut f g s = g (bumpAlways (44 + fnPort f) 4 s) := if_pos h

theorem fnPort_pf (n : Nat) : fnPort (64 + n) = n := by
  unfold fnPort
  rw [if_neg (by omega)]
  omega

theorem execHubCtrlWarmReset_resets {s : State} {port : HostPort} {value : W32} (ho : s.barOpen (64 + port.val) = true)
    (ha : s.isArbiterPm (64 + port.val) = true) (hv : value.toNat % 256 = 0xA5) :
    exec (.hubCtrlWarmReset port value) s = done (warmReset causeHost (bumpAlways (44 + port.val) 4 s)) := by
  show done (hostPut _ _ s) = _
  have hput : ((bumpAlways (44 + port.val) 4 s).isArbiterPm (64 + port.val) && value.toNat % 256 == 0xA5) = true := by
    rw [show (bumpAlways (44 + port.val) 4 s).isArbiterPm (64 + port.val) = true from ha, hv]; rfl
  rw [hostPut_of_open ho, fnPort_pf, if_pos hput]

theorem tapRun_of_has {code : Nat} {g : State → State} {s : State} (h : s.tapHas code = true) : tapRun code g s = g s :=
  if_pos h

theorem execWarmReset_has {s : State} (h : s.tapHas 0x40 = true) :
    exec .warmReset s = done (warmReset causeTap (selectIr 0x40 s)) :=
  congrArg done (tapRun_of_has h)

theorem execStakeWatchdogExpiry_stopped {s : State} (h : s.err.stopped = true) :
    exec .stakeWatchdogExpiry s = done (warmReset causeWatchdog (raiseErr 0x0D 4 0xFFFF 0 0 4 s)) := if_pos h

/-- The fuses after a program pulse that did or did not take. -/
def pulsed (b : Burn) (took : Bool) (f : Fuses) : Fuses := if took then b.todo.head?.elim f f.burn else f

theorem execFuseBitAttemptEnd_waited {s : State} {took : Bool} {b : Burn} {cause : BitVec 6} (hb : s.lcy.burn = some b)
    (hw : s.boot.warmWaiting = some cause) : exec (.fuseBitAttemptEnd took) s =
      done (warmNow cause { s with lcy := { s.lcy with
        fuses := pulsed b took s.lcy.fuses, sensed := pulsed b took s.lcy.fuses,
        burn := some { b with burned := b.burned + b2n took } } }) := by
  show execFuseBitAttemptEnd took s = _
  unfold execFuseBitAttemptEnd
  rw [hb]
  dsimp only
  rw [hw]
  rfl

/-- The log entry of a fault comes first in the log. -/
theorem raiseErr_log_head (cls scope inst addr detail action : Nat) (s : State) :
    (raiseErr cls scope inst addr detail action s).err.log.head? = some (errEntry s cls scope inst addr detail action) :=
  congrArg (List.head? ∘ ErrCtl.log) ((raiseErr_does cls scope inst addr detail action s).same .err (by decide))

/-- Settles O18: each command that acts at once ends in `warmNow` on a state with the same start-up, memories and tables. -/
theorem warmResetsAct : Obligations.WarmResetsAct := by
  unfold Obligations.WarmResetsAct
  refine ⟨fun s port value ho ha hv hb => ?_, fun s port value ho ha hv hb hq => ?_, fun s hh hb => ?_, fun s hs hb => ?_,
    fun s took b cause hb hw => ?_⟩
  · have he := execHubCtrlWarmReset_resets ho ha hv
    rw [warmReset_of_no_burn (s := bumpAlways _ _ s) hb] at he
    refine Runs.quiet he (warmNow_fires ..)
      ⟨warmStart_of_only (warmNow_warmStart _ _) ((bumpAlways_only ..).weaken rfl) rfl rfl, ?_⟩
    exact warmNow_fuses ..
  · rw [execHubCtrlWarmReset_resets ho ha hv, warmReset_of_burn (s := bumpAlways _ _ s) hb]
    exact done_quiet hq
  · have he := execWarmReset_has hh
    rw [warmReset_of_no_burn (s := selectIr _ s) hb] at he
    refine Runs.quiet he (warmNow_fires ..)
      ⟨warmStart_of_only (warmNow_warmStart _ _) ((selectIr_only ..).weaken rfl) rfl rfl, ?_, ?_⟩
    · exact warmNow_fuses ..
    · exact warmNow_ir ..
  · have he := execStakeWatchdogExpiry_stopped hs
    have hl := (raiseErr_only 0x0D 4 0xFFFF 0 0 4 s).same .lcy (by decide)
    rw [warmReset_of_no_burn ((congrArg LcyCtl.burn hl).trans hb)] at he
    refine Runs.quiet he (warmNow_fires ..)
      ⟨warmStart_of_only (warmNow_warmStart _ _) ((raiseErr_only ..).weaken rfl) ?_ ?_, ?_, ?_, ?_⟩
    · exact congrArg LcyCtl.fails hl
    · exact congrArg LcyCtl.lockout hl
    · exact (warmNow_fuses ..).trans (congrArg LcyCtl.fuses hl)
    · exact (warmNow_err ..).2
    · rw [(warmNow_err ..).1, raiseErr_log_head]; rfl
  · refine Runs.quiet (execFuseBitAttemptEnd_waited hb hw) (warmNow_fires ..) ⟨?_, warmNow_fuses ..⟩
    exact warmStart_of_only (warmNow_warmStart _ _) (upd_lcy (.refl _ _) rfl) rfl rfl

end Sys2Proof.Laws

/-!
SUPPORT. The start-up up to the end of SCRUB: what each phase's event does where its phase is under way.
-/

namespace Sys2Proof.Laws
open Sys2Proof Sys2Proof.Machine

/-! ### Reset pins, supply and clock -/

theorem sample_eq (pairRank bootSrc : Bool) (mask : BitVec 4) : Straps.sample pairRank bootSrc mask =
    { pairRank := pairRank, bootSrc := bootSrc, mask := if mask = 0 then 1 else mask, maskZero := mask == 0,
      bootSrcIgnored := pairRank && bootSrc } := by
  unfold Straps.sample
  simp only [beq_iff_eq]

theorem execPorstNRise_low {s : State} {pr bs : Bool} {m : BitVec 4} (h : s.pins.porst = false) (hq : s.fires = []) :
    exec (.porstNRise pr bs m) s =
      .next { s with pins := { s.pins with porst := true }, straps := Straps.sample pr bs m } := by
  show execPorstNRise pr bs m s = _
  unfold execPorstNRise
  rw [if_neg (by rw [h]; decide)]
  exact done_quiet hq

theorem execRootPllLock_locks {s : State} (hp : s.inPhase .clock = true) (hr : s.pins.porst = true)
    (hg : s.pins.supplyGood = true) (hl : s.clk.rootLock = false) : exec .rootPllLock s = done
      { s with now := 0, boot := { s.boot with phase := .fuse },
               clk := { rootLock := true, refPresent := true, border := s.straps.mask, nsl := 0xFF, wale := true,
                        plait := true } } := by
  refine if_pos ?_
  rw [hp, hr, hg, hl]; rfl

theorem execRootPllLock_clock {s : State} (hp : s.inPhase .clock = true) (hr : s.pins.porst = true)
    (hg : s.pins.supplyGood = true) (hl : s.clk.rootLock = false) (hq : s.fires = []) : exec .rootPllLock s = .next
      { s with now := 0, boot := { s.boot with phase := .fuse },
               clk := { rootLock := true, refPresent := true, border := s.straps.mask, nsl := 0xFF, wale := true,
                        plait := true } } :=
  (execRootPllLock_locks hp hr hg hl).trans (done_quiet hq)

/-! ### Sensing the fuses -/

theorem execJournalPhaseEnd_journal {s : State} {stuck : List FuseBit} (h : s.inPhase .journal = true) :
    exec (.journalPhaseEnd stuck) s = done (enterPhase .scrub (drawKey { s with
      lcy := { s.lcy with fuses := s.lcy.fuses.resume stuck, sensed := s.lcy.fuses.resume stuck,
                          state := (s.lcy.fuses.stateAtStart stuck).1, fallback := (s.lcy.fuses.stateAtStart stuck).2 },
      boot := { s.boot with journalResumed := s.lcy.fuses.resumes } })) := if_pos h

/-- Of the lifecycle the drawing of the key changes the key alone, and that in Production. -/
theorem drawKey_lcy (s : State) : (drawKey s).lcy =
    { s.lcy with xtsKey := if s.lcy.state = .production then some (Config.freeXtsKey s.free) else s.lcy.xtsKey } := by
  unfold drawKey
  simp only [beq_iff_eq]
  split <;> rfl

/-! ### SCRUB -/

/-- Where SCRUB leads from the state in force. -/
def phaseAfterScrub : Lifecycle → Phase
  | .blank => .blank
  | .endOfLife => .eol
  | .test => .awaitWeave
  | .production => .awaitWeave

/-- After a cold start SCRUB clears the memories, and the trace region with them. -/
theorem scrub_of_cold {s : State} (h : s.boot.warm = false) :
    (scrub s).mem = State.reset.mem ∧ ∀ p, p < 64 → ((scrub s).part p).blocks = [] := by
  unfold scrub
  rw [if_neg (by rw [h]; exact Bool.false_ne_true)]
  refine ⟨each_eq State.mem (fun _ _ => modPart_mem ..) _ _, fun p hp => ?_⟩
  rw [each_range_part _ p hp]

/-- What ends the SCRUB phase once the memories are scrubbed. -/
def afterScrub (l : Lifecycle) (s : State) : State :=
  match l with
  | .blank => enterPhase .blank s
  | .endOfLife => enterPhase .eol { s with hosts := s.hosts.map fun x => { x with vfEnable := false, numVfs := 0 } }
  | .test => s |> enterPhase .awaitWeave |> startJunior
  | .production => s |> enterPhase .awaitWeave |> startJunior

theorem execScrubPhaseEnd_scrub {s : State} (h : s.inPhase .scrub = true) :
    exec .scrubPhaseEnd s = done (afterScrub s.lcy.state (scrub s)) := by
  refine (if_pos h).trans ?_
  cases s.lcy.state <;> rfl

theorem afterScrub_phase (l : Lifecycle) (s : State) : (afterScrub l s).boot.phase = phaseAfterScrub l := by
  have junior := congrArg Boot.phase ((startJunior_only (enterPhase .awaitWeave s)).same .boot (by decide))
  cases l with
  | blank => rfl
  | endOfLife => rfl
  | test => exact junior
  | production => exact junior

theorem afterScrub_only (l : Lifecycle) (s : State) : Only [.boot, .hosts, .ports, .plait] s (afterScrub l s) := by
  have junior : Only [.boot, .hosts, .ports, .plait] s (startJunior (enterPhase .awaitWeave s)) :=
    ((enterPhase_only .awaitWeave s).weaken rfl).step (startJunior_only _) rfl
  cases l with
  | blank => exact (enterPhase_only ..).weaken rfl
  | endOfLife => exact (upd_hosts (.refl _ _) rfl).step (enterPhase_only ..) rfl
  | test => exact junior
  | production => exact junior

/-! ### A failed start-up -/

theorem execBootFail_running {s : State} (h : s.boot.fail = false) : exec .bootFail s =
    done (match s.boot.phase with
      | .fuse => { s with boot := { s.boot with fail := true, failCode := 1 } }
      | .journal => { s with boot := { s.boot with fail := true, failCode := 2 } }
      | .scrub => { s with boot := { s.boot with fail := true, failCode := 3 } }
      | .clock => if s.pins.porst then
          nextFree { s with boot := { s.boot with fail := true, failCode := (Config.freeBits s.free).setWidth 8 } } else s
      | .awaitWeave | .linkTrain | .enumerate | .ready | .blank | .eol => s) := by
  refine (if_neg (by rw [h]; decide)).trans ?_
  cases s.boot.phase <;> rfl

/-- Settles O19: each event meets its guard, and `drawKey`, `scrub` and `startJunior` leave what the clause reads. -/
theorem startUpPhasesAct : Obligations.StartUpPhasesAct := by
  unfold Obligations.StartUpPhasesAct
  refine ⟨fun s pr bs m hr hq => ?_, fun s hq => ?_, fun s hp hr hg hl hq => ?_, fun s hp hq => ?_, fun s stuck hp hq => ?_,
    fun s hp hq => ?_, fun s hf hq => ⟨fun hp => ?_, fun hp => ?_, fun hp => ?_, fun hp hr => ?_⟩⟩
  · rw [execPorstNRise_low hr hq, sample_eq]
  · exact done_quiet hq
  · exact execRootPllLock_clock hp hr hg hl hq
  · exact exec_if rfl hp hq
  · refine Runs.quiet (execJournalPhaseEnd_journal hp) ((Only.fires (drawKey_only _) rfl).trans hq) ⟨rfl, ?_⟩
    rw [enterPhase_lcy, drawKey_lcy]
    exact ⟨rfl, rfl, rfl, fun hl => if_pos hl⟩
  · refine Runs.quiet (execScrubPhaseEnd_scrub hp) ?_ ⟨?_, fun hw => ⟨?_, fun p hp => ?_⟩⟩
    · exact (Only.fires (afterScrub_only ..) rfl).trans ((Only.fires (scrub_only s) rfl).trans hq)
    · rw [afterScrub_phase]
      cases s.lcy.state <;> rfl
    · rw [(afterScrub_only ..).same .mem (by decide), (scrub_of_cold hw).1]
    · rw [Only.part (afterScrub_only ..) rfl, (scrub_of_cold hw).2 p hp]
  · rw [execBootFail_running hf, hp]; exact done_quiet hq
  · rw [execBootFail_running hf, hp]; exact done_quiet hq
  · rw [execBootFail_running hf, hp]; exact done_quiet hq
  · have he := execBootFail_running hf
    rw [hp] at he
    dsimp only at he
    rw [if_pos hr] at he
    exact Runs.quiet he hq ⟨rfl, hp, (upd_boot (.refl _ _) rfl).step (nextFree_only _) rfl⟩

end Sys2Proof.Laws

/-!
SUPPORT. The settling of the trigger lattice moves the DRAM write queue and leaves everything else of the Wale: the trace
port and the training of external memory stand as they were.
-/

namespace Sys2Proof.Laws
open Sys2Proof Sys2Proof.Machine
set_option Elab.async false -- a thread per proof would not fit beside the model in the check's memory

/-- Of the Wale at most the filling of the DRAM write queue, and when it was noted, differs. -/
def Queues (s t : State) : Prop := ∃ n at_, t.wale = { s.wale with queued := n, queuedAt := at_ }

theorem Queues.refl (s : State) : Queues s s := ⟨s.wale.queued, s.wale.queuedAt, rfl⟩

theorem Queues.trans {s t u : State} (h : Queues s t) (k : Queues t u) : Queues s u := by
  obtain ⟨n, a, h⟩ := h
  obtain ⟨m, b, k⟩ := k
  exact ⟨m, b, by rw [k, h]⟩

theorem Queues.of_only {l : List Fld} {s t : State} (h : Only l s t) (e : (!l.contains .wale) = true := by rfl) : Queues s t := by
  have k : t.wale = s.wale := h.same .wale (by simpa using e)
  exact ⟨s.wale.queued, s.wale.queuedAt, k⟩

/-- One more operation that leaves the Wale. -/
theorem Queues.step {l : List Fld} {s t u : State} (h : Queues s t) (k : Only l t u) (e : (!l.contains .wale) = true := by rfl) :
    Queues s u := h.trans (.of_only k e)

theorem Queues.ite {c : Prop} [Decidable c] {s t u : State} (h : Queues s t) (k : Queues s u) :
    Queues s (if c then t else u) := by
  split <;> assumption

theorem Queues.each {α : Type} {l : List α} {g : α → State → State} {s t : State} (h : Queues s t)
    (k : ∀ a u, Queues u (g a u)) : Queues s (each l g t) := by
  refine h.trans ?_
  clear h
  unfold Machine.each
  induction l generalizing t with
  | nil => exact .refl _
  | cons a l ih => exact (k a t).trans ih

theorem Queues.dramReady {s t : State} (h : Queues s t) : t.wale.dramReady = s.wale.dramReady := by
  obtain ⟨_, _, h⟩ := h; rw [h]
theorem Queues.dramFail {s t : State} (h : Queues s t) : t.wale.dramFail = s.wale.dramFail := by
  obtain ⟨_, _, h⟩ := h; rw [h]
theorem Queues.portUp {s t : State} (h : Queues s t) : t.wale.portUp = s.wale.portUp := by
  obtain ⟨_, _, h⟩ := h; rw [h]

/-! ### Records -/

theorem queueBlock_queues (s : State) : Queues s (queueBlock s) := ⟨_, _, rfl⟩

theorem putOpen_queues (p : Nat) (s : State) : Queues s (putOpen p s) := by
  unfold putOpen
  split
  · exact .refl _
  · exact ((Queues.of_only (spendDram_only s)).trans (queueBlock_queues _)).step (modPart_only ..)

theorem commitBlock_queues {p : Nat} {s t : State} (h : commitBlock p s = some t) : Queues s t := by
  unfold commitBlock at h
  split at h
  · cases h; exact .refl _
  · split at h
    · obtain ⟨u, hu, rfl⟩ := Option.map_eq_some_iff.mp h
      exact (Queues.of_only (takeBlock_only hu)).trans (putOpen_queues p u)
    · cases h

theorem storeDram_queues {r : TraceRec} {s t : State} (h : storeDram r s = some t) : Queues s t := by
  unfold storeDram at h
  split at h
  · cases h
  · split at h
    · split at h
      · cases h; exact .of_only (intoBlock_only ..)
      · obtain ⟨u, hu, rfl⟩ := Option.map_eq_some_iff.mp h
        exact (commitBlock_queues hu).step (intoBlock_only r u)
    · cases h; exact .of_only (intoBlock_only ..)

theorem dramArrive_queues (r : TraceRec) (s : State) : Queues s (dramArrive r s) := by
  have shed : Queues s (shedQueue r.partition s) := .of_only (shedQueue_only ..)
  unfold dramArrive
  dsimp only
  split
  · exact shed.step (dropDram_only ..)
  · split
    · exact ((shed.step (spendCreel_only _)).step (dropDram_only ..)).step (uncorrectableItem_only ..)
    · split
      · rename_i hs
        exact (shed.trans (storeDram_queues hs)).step (spendCreel_only _)
      · exact shed.step (dropDram_only ..)

theorem dramOnly_queues (r : TraceRec) (s : State) : Queues s (dramOnly r s) :=
  .ite (((dramArrive_queues r s).step (modMeters_only ..)).step (hubEvent_only ..)) (dramArrive_queues r s)

theorem placeRec_queues (dest : Nat) (r : TraceRec) (s : State) : Queues s (placeRec dest r s) := by
  unfold placeRec
  dsimp only
  generalize s.marked dest r = m
  have port : Queues s (if bit dest 0 then portArrive m s else s) := .ite (.of_only (portArrive_only ..)) (.refl _)
  have event : ∀ c : Bool, Queues s (if c then hubEvent m.partition 5 1 (if bit dest 0 then portArrive m s else s)
      else if bit dest 0 then portArrive m s else s) := fun _ => .ite (port.step (hubEvent_only ..)) port
  exact .ite (event _) (.ite ((event _).step (holdDram_only ..))
    (.ite ((event _).trans (dramArrive_queues ..)) ((event _).trans (dramOnly_queues ..))))

theorem traceWrite_queues (r : TraceRec) (s : State) : Queues s (traceWrite r s) :=
  (Queues.of_only (deliverInput_only r s)).trans (placeRec_queues ..)

theorem writeRec_queues (cls p : Nat) (payload : List Byte) (s : State) : Queues s (writeRec cls p payload s) :=
  traceWrite_queues ..

theorem cutRec_queues (event : Nat) (c : Cut) (s : State) : Queues s (cutRec event c s) := writeRec_queues ..

theorem hangRec_queues (p event : Nat) (r : HangReport) (s : State) : Queues s (hangRec p event r s) := writeRec_queues ..

theorem triggerRec_queues (p serial sources term action : Nat) (abrupt : Bool) (hoop vc0 fwd hostTag suppressed : Nat)
    (s : State) : Queues s (triggerRec p serial sources term action abrupt hoop vc0 fwd hostTag suppressed s) :=
  writeRec_queues ..

/-! ### Cuts -/

theorem refuseCut_queues (p : Nat) (c : Cut) (s : State) : Queues s (refuseCut p c s) :=
  ((((Queues.of_only (modPart_only ..)).trans (cutRec_queues ..)).step (bumpAlways_only ..)).step
    (reportRefused_only ..)).step (finishOwners_only ..)

theorem bindReports_queues (p : Nat) (cut : W32) (s : State) : Queues s (bindReports p cut s) :=
  (Queues.of_only (modPart_only ..)).each fun _ _ => hangRec_queues ..

theorem assignCut_queues (p : Nat) (s : State) : Queues s (assignCut p s) := by
  unfold assignCut
  split
  · exact .refl _
  · refine .ite (refuseCut_queues ..) ?_
    have begun : Queues s { s with slath := { s.slath with nextId := s.slath.nextId + 1 } } :=
      .of_only (upd_slath (l := [.slath]) (.refl _ _) rfl)
    exact ((((((begun.step (modPart_only ..)).trans (cutRec_queues ..)).step (bumpAlways_only ..)).step
      (hubEvent_only ..)).trans (bindReports_queues ..)).step (finishOwners_only ..))

theorem endProof_queues (p : Nat) (s : State) : Queues s (endProof p s) := by
  unfold endProof
  split
  · exact .refl _
  · have logged := fun c => Queues.of_only (logPoisoned_only c s)
    dsimp only
    split
    · exact (Queues.ite ((logged _).step (spendDram_only _)) ((logged _).step (spendCreel_only _))).step (modBuild_only ..)
    · exact (logged _).trans (refuseCut_queues ..)

theorem captured_queues (p : Nat) (c : Cut) (s : State) : Queues s (captured p c s) :=
  have full : Queues s (modCut p c.id (fun x => { x with stage := 4 }) s) := .of_only (modCut_only ..)
  .ite full (full.trans (cutRec_queues ..))

theorem assignEmpty_queues (p : Nat) (s : State) : Queues s (assignEmpty p s) := by
  have assigned := (endProof_queues p s).trans (assignCut_queues p _)
  refine .ite ?_ (endProof_queues p s)
  split
  · exact assigned.trans (captured_queues ..)
  · exact assigned

/-! ### Halts and edges -/

theorem cutGathered_queues (p : Nat) (s : State) : Queues s (cutGathered p s) :=
  have next : Queues s (modPart p (PartSt.mapNewest fun c => { c with stage := 1 }) s) := .of_only (modPart_only ..)
  .ite (.ite (next.trans (assignEmpty_queues ..)) (next.each fun _ _ => .of_only (askSynth_only ..))) (.refl _)

theorem checkGather_queues (p : Nat) (s : State) : Queues s (checkGather p s) :=
  .ite (((Queues.of_only (modPart_only ..)).each fun _ _ => .of_only (completeHalt_only ..)).trans (cutGathered_queues ..))
    (.refl _)

theorem checkGathering_queues (p : Nat) (s : State) : Queues s (checkGathering p s) :=
  .ite (checkGather_queues p s) (.refl _)

theorem joinAction_queues (p mask : Nat) (h : AtHalt) (s : State) : Queues s (joinAction p mask h s) := by
  unfold joinAction
  dsimp only
  split
  · exact (Queues.of_only (raiseAction_only ..)).trans (checkGathering_queues ..)
  · exact .of_only (modPart_only ..)

theorem edgeEffect_queues (p mask : Nat) (s : State) : Queues s (edgeEffect p mask s) := by
  unfold edgeEffect
  refine .ite ?_ ?_
  · split
    · exact joinAction_queues ..
    · exact .of_only (modPart_only ..)
  · have spent := fun g => Queues.of_only (modPart_only p g s)
    exact .ite (((spent _).step (modPart_only ..)).trans (triggerRec_queues ..)) (spent _)

theorem haltAction_queues (r : HaltReq) (fast : List Nat) (suppressed : Nat) (s : State) :
    Queues s (haltAction r fast suppressed s) := by
  unfold haltAction
  dsimp only
  refine Queues.trans (Queues.step (Queues.step (Queues.step ?_ (noteAction_only ..)) (bumpAlways_only ..))
    (hubEvent_only ..)) (triggerRec_queues ..)
  refine .ite (Queues.step ?_ (modPart_only ..)) ?_
  all_goals
    refine Queues.step (Queues.each (Queues.each (.ite ?_ ?_) fun _ _ => .of_only (pulseXtrig_only ..)) fun _ _ =>
      .of_only (haltUnit_only ..)) (modPart_only ..)
    · exact ((Queues.of_only (sendHalts_only ..)).step (fallbackHalts_only ..)).step (plaitSend_only ..)
    · exact (Queues.of_only (sendHalts_only ..)).step (fallbackHalts_only ..)

theorem performHalts_queues (l : List HaltReq) (s : State) : Queues s (performHalts l s) :=
  (((Queues.refl s).each fun _ _ => (Queues.of_only (freezeGraph_only ..)).step (enterHold_only ..)).each fun _ _ =>
    .of_only (assertHoop_only ..)).each fun _ _ => haltAction_queues ..

theorem edgeOnce_queues (host : List HaltReq) (s : State) : Queues s (edgeOnce host s) := by
  have spent : Queues s { s with fires := [] } := .of_only (upd_fires (l := [.fires]) (.refl _ _) rfl)
  exact ((spent.each fun _ _ => edgeEffect_queues ..).trans (performHalts_queues ..)).each fun _ _ => checkGather_queues ..

theorem latticeEdge_queues (host : List HaltReq) (s : State) : Queues s (latticeEdge host s) :=
  ((((Queues.refl s).each fun _ _ => .of_only (modPart_only ..)).trans (edgeOnce_queues host _)).each fun _ _ =>
    .of_only (modPart_only ..))

theorem settleLoop_queues (k : Nat) (s : State) : Queues s (settleLoop k s) := by
  induction k generalizing s with
  | zero => exact .refl _
  | succ k ih => exact .ite (.refl _) ((latticeEdge_queues [] s).trans (ih _))

theorem settle_queues (s : State) : Queues s (settle s) :=
  (settleLoop_queues 512 s).step (upd_fires (l := [.fires]) (.refl _ _) rfl)

end Sys2Proof.Laws

/-!
SUPPORT. READY, the host ports and the serial PLLs.
-/

namespace Sys2Proof.Laws
open Sys2Proof Sys2Proof.Machine
set_option Elab.async false -- a thread per proof would not fit beside the model in the check's memory

/-! ### Fields that the settling of the lattice leaves -/

theorem settle_boot (s : State) : (settle s).boot = s.boot := (settle_only s).same .boot (by decide)
theorem settle_clk (s : State) : (settle s).clk = s.clk := (settle_only s).same .clk (by decide)
theorem settle_pins (s : State) : (settle s).pins = s.pins := (settle_only s).same .pins (by decide)
theorem settle_mem (s : State) : (settle s).mem = s.mem := (settle_only s).same .mem (by decide)
theorem settle_now (s : State) : (settle s).now = s.now := Only.now (settle_only s) rfl
theorem settle_host (s : State) (n : Nat) : (settle s).host n = s.host n := Only.host (settle_only s) rfl n

/-! ### READY -/

/-- The work of READY behind the entry into the phase: graphs, bound runs, reset points, signals and HELLO. -/
def atReady (s : State) : State :=
  let there := s.pfs ++ (List.range 64).filter fun n => s.enabledPort (fnPort n) && s.vfExists n
  ({ s with plait := { s.plait with readyAt := s.t, lastRenew := s.t } } |> enterPhase .ready
    |> each (List.range 68) (fun f => modFn f (fun x => { x with window := [] }))
    |> each (List.range 64) partReady |> signalPfs 0
    |> (fun t => if s.boot.warm then each there (fun f => setEvent f 3) t else t) |> readyHello)

theorem execReadyEntry_enumerated {s : State} (hp : s.inPhase .enumerate = true) (he : s.enumEnded = true) :
    exec .readyEntry s = done (atReady s) := if_pos (by rw [hp, he]; rfl)

/-- What READY does behind the entry into its phase. -/
theorem atReady_only (s : State) : Only [.fns, .sess, .billing, .ports, .units, .parts, .hang, .wale, .always, .osier, .plait,
    .err, .out, .fires, .free]
    (enterPhase .ready { s with plait := { s.plait with readyAt := s.t, lastRenew := s.t } }) (atReady s) := by
  refine Only.step ?_ (readyHello_only _) rfl
  refine ite_only (each_only ?_ fun _ _ => (setEvent_only ..).weaken rfl) ?_
  all_goals
    refine Only.step (each_only (each_only (.refl _ _) fun _ _ => (modFn_only ..).weaken rfl) fun _ _ =>
      (partReady_only ..).weaken rfl) (signalPfs_only ..) rfl

/-! ### Border ports -/

theorem execBorderLinkUp_released {s : State} {n : HostPort} (hs : s.serving = true) (he : s.enabledPort n = true)
    (hp : s.pins.perst.getLsbD n = true) (hc : s.clk.border.getLsbD n = true) (hq : s.fires = []) :
    exec (.borderLinkUp n) s = .next { s with boot := { s.boot with borderUp := s.boot.borderUp ||| (1#4 <<< n.val) } } :=
  exec_if rfl (by rw [hs, he, hp, hc]; rfl) hq

/-- PERST_N of a port low. -/
def lowerPerst (n : Nat) (s : State) : State :=
  { s with pins := { s.pins with perst := s.pins.perst &&& ~~~(1#4 <<< n) } }

theorem execHostPortReset_up {s : State} {n : HostPort} {c : PortResetCause} (he : s.enabledPort n = true)
    (hu : s.boot.borderUp.getLsbD n = true) :
    exec (.hostPortReset n c) s = done (resetPort n.val (if c = .perst then lowerPerst n.val s else s)) :=
  if_pos (by rw [he, hu]; rfl)

/-- VF Enable and NumVFs of the port after a reset of its PF; NumVFs is log entry 65 (PRESUMED), with what else the reset of
a host port clears log entry 42 (DEDUCED). -/
theorem host_resetPf {port : Nat} (cause : Nat) (s : State) (h : port < 4) :
    ((resetPf port cause s).host port).vfEnable = false ∧ ((resetPf port cause s).host port).numVfs = 0 := by
  unfold resetPf
  dsimp only
  rw [Only.host (noteOpenLab_only _) rfl, Only.host (clearFn_only ..) rfl, host_modHost _ _ _ h]
  exact ⟨rfl, rfl⟩

theorem host_resetPort (port : Nat) (s : State) (n : Nat) : (resetPort port s).host n = (resetPf port 0x21 s).host n :=
  Only.host (raiseErr_only ..) rfl n

theorem resetPort_boot (port : Nat) (s : State) :
    (resetPort port s).boot = { s.boot with borderUp := s.boot.borderUp &&& ~~~(1#4 <<< port) } := by
  have before : (resetPf port 0x21 s).boot = s.boot := (resetPf_only ..).same .boot (by decide)
  refine Eq.trans ((raiseErr_only ..).same .boot (by decide)) ?_
  dsimp only
  rw [before]

/-- VF_ENABLE of an open port with a number of VFs that there are. -/
def setVfs (n k : Nat) (s : State) : State :=
  s |> each ((s.sessionsOf n).filter fun q => decide (k ≤ q % 16)) (fun q => resetSession q 0x20)
    |> modHost n (fun x => { x with vfEnable := decide (0 < k), numVfs := k })

theorem execVfEnable_open {s : State} {n : HostPort} {k : Nat} (ho : s.barOpen (64 + n.val) = true) (hk : k ≤ 16) :
    exec (.vfEnable n k) s = done (setVfs n.val k (bumpAlways (44 + fnPort (64 + n.val)) 4 s)) := by
  refine congrArg done ((if_pos ho).trans (if_neg ?_))
  omega

theorem host_setVfs {n : Nat} (k : Nat) (s : State) (h : n < 4) :
    ((setVfs n k s).host n).vfEnable = decide (0 < k) ∧ ((setVfs n k s).host n).numVfs = k := by
  unfold setVfs
  rw [host_modHost _ _ _ h]
  exact ⟨rfl, rfl⟩

theorem setVfs_boot (n k : Nat) (s : State) : (setVfs n k s).boot = s.boot :=
  (modHost_boot ..).trans (each_eq State.boot (fun _ _ => (resetSession_only ..).same .boot (by decide)) _ _)

/-! ### External memory -/

/-- What the end of the training of external memory notes. -/
def noteTraining (ok : Bool) (s : State) : State :=
  { s with boot := { s.boot with dramTrained := true },
           wale := { s.wale with dramReady := ok, dramFail := !ok },
           plait := { s.plait with retained := if ok then s.plait.retained else none } }

theorem execDramTrainingDone_training {s : State} {ok : Bool} (hp : s.boot.phase = .linkTrain)
    (ht : s.boot.dramTrained = false) : exec (.dramTrainingDone ok) s =
      done (bootAdvance ((if ok then releaseDdr else raiseErr 7 4 0xFFFF 0 0 0) (noteTraining ok s))) :=
  if_pos (by rw [hp, ht]; rfl)

theorem afterTraining_only (ok : Bool) (s : State) :
    Only [.fns, .pins, .always, .err, .out] s ((if ok then releaseDdr else raiseErr 7 4 0xFFFF 0 0 0) s) := by
  cases ok with
  | true => exact (releaseDdr_only s).weaken rfl
  | false => exact (raiseErr_only ..).weaken rfl

theorem bootAdvance_dramTrained (s : State) : (bootAdvance s).boot.dramTrained = s.boot.dramTrained := by
  unfold bootAdvance
  dsimp only
  split
  · rw [each_eq State.boot fun _ _ => (enumStart_only ..).same .boot (by decide)]
  · rfl

/-- Settles O20: the settling of the lattice leaves start-up, clocks, pins, host ports and the training of external memory. -/
theorem bootEventsAct : Obligations.BootEventsAct := by
  unfold Obligations.BootEventsAct
  refine ⟨fun s hp he => ?_, fun s n hq => ?_, fun s n hs he hp hc hq => ?_, fun s n c he hu => ?_, fun s n k ho hk => ?_,
    fun s ok hp ht => ?_⟩
  · refine Runs.of_done (execReadyEntry_enumerated hp he) ⟨?_, ?_, ?_⟩
    · rw [settle_boot]; exact (atReady_only s).same .boot (by decide)
    · rw [settle_clk]; exact (atReady_only s).same .clk (by decide)
    · rw [settle_mem]; exact (atReady_only s).same .mem (by decide)
  · exact done_quiet hq
  · exact execBorderLinkUp_released hs he hp hc hq
  · refine Runs.of_done (execHostPortReset_up he hu) ?_
    rw [settle_boot, settle_host, settle_pins, resetPort_boot, host_resetPort]
    obtain ⟨hv, hn⟩ := host_resetPf 0x21 (if c = .perst then lowerPerst n.val s else s) n.isLt
    refine ⟨?_, hv, hn, ?_⟩
    · split <;> rfl
    · refine Eq.trans ((resetPort_only ..).same .pins (by decide)) ?_
      split <;> rfl
  · refine Runs.of_done (execVfEnable_open ho hk) ?_
    rw [settle_boot, settle_host]
    obtain ⟨hv, hn⟩ := host_setVfs k (bumpAlways (44 + fnPort (64 + n.val)) 4 s) n.isLt
    exact ⟨hv, hn, setVfs_boot ..⟩
  · have advanced := bootAdvance_only ((if ok then releaseDdr else raiseErr 7 4 0xFFFF 0 0 0) (noteTraining ok s))
    have reported := afterTraining_only ok (noteTraining ok s)
    have wale := (Queues.of_only reported).step advanced |>.trans (settle_queues _)
    refine Runs.of_done (execDramTrainingDone_training hp ht) ⟨?_, wale.dramReady, wale.dramFail, ?_⟩
    · rw [settle_boot, bootAdvance_dramTrained, reported.same .boot (by decide)]; rfl
    · rw [settle_clk, advanced.same .clk (by decide), reported.same .clk (by decide)]; rfl

/-! ### Serial PLLs -/

theorem waleDown_portUp (s : State) : (waleDown s).wale.portUp = false := by
  unfold waleDown
  split
  · exact congrArg WaleCtl.portUp ((raiseErr_only ..).same .wale (by decide))
  · rename_i h
    simpa using h

/-- The bit of a PLL in CLK_STATUS as `on` has it. -/
def setPll (p : Pll) (on : Bool) (c : ClkStatus) : ClkStatus :=
  match p with
  | .border n => { c with border := if on then c.border ||| (1#4 <<< n.val) else c.border &&& ~~~(1#4 <<< n.val) }
  | .nsl n => { c with nsl := if on then c.nsl ||| (1#8 <<< n.val) else c.nsl &&& ~~~(1#8 <<< n.val) }
  | .wale => { c with wale := on }
  | .plait => { c with plait := on }

/-- The state with the PLL's bit set so: R96 and R97 change no other clock. -/
def withPll (p : Pll) (on : Bool) (s : State) : State := { s with clk := setPll p on s.clk }

/-- What the loss of a PLL does to the link it serves, the bit being clear. -/
def pllLinkDown (s : State) : Pll → State → State
  | .border n, t =>
    let t1 := raiseErr 9 3 n.val 0 0 0 t
    if s.boot.borderUp.getLsbD n.val then resetPort n.val t1 else t1
  | .nsl n, t =>
    let t1 := raiseErr 9 2 n.val 0 0 0 t
    if (s.port n.val).lk.link.live then portDown n.val 6 false t1 else t1
  | .wale, t => t |> raiseErr 9 4 0xFFFF 0 0 0 |> waleDown
  | .plait, t =>
    let t1 := raiseErr 9 4 0xFFFF 0 0 0 t
    if s.plait.lk.link.live then plaitDown 6 false t1 else t1

theorem execSerdesPllLoss_eq (p : Pll) (s : State) :
    exec (.serdesPllLoss p) s = done (pllLinkDown s p (withPll p false s)) := by
  cases p <;> rfl

/-- The link's way down touches no clock. -/
theorem pllLinkDown_clk (s : State) (p : Pll) (t : State) : (pllLinkDown s p t).clk = t.clk := by
  have raised := fun a b c d e f => (raiseErr_only a b c d e f t).same .clk (by decide)
  unfold pllLinkDown
  cases p with
  | border n =>
    dsimp only
    split
    · exact ((resetPort_only ..).same .clk (by decide)).trans (raised ..)
    · exact raised ..
  | nsl n =>
    dsimp only
    split
    · exact ((portDown_only ..).same .clk (by decide)).trans (raised ..)
    · exact raised ..
  | wale => exact ((waleDown_only _).same .clk (by decide)).trans (raised ..)
  | plait =>
    dsimp only
    split
    · exact ((plaitDown_only ..).same .clk (by decide)).trans (raised ..)
    · exact raised ..

theorem pllLinkDown_border_boot {s : State} {n : HostPort} (t : State) (h : s.boot.borderUp.getLsbD n.val = true) :
    (pllLinkDown s (.border n) t).boot = { t.boot with borderUp := t.boot.borderUp &&& ~~~(1#4 <<< n.val) } := by
  unfold pllLinkDown
  dsimp only
  rw [if_pos h, resetPort_boot, (raiseErr_only ..).same .boot (by decide)]

/-- A link that starts again as its PLL is back, and what follows for the start-up. -/
def pllLinkBack : Pll → State → State
  | .border _, t => t
  | .nsl n, t => restartLink n.val t
  | .wale, t => t
  | .plait, t => restartLink 8 t

theorem execSerdesPllRelock_refPresent {p : Pll} {s : State} (h : s.clk.refPresent = true) :
    exec (.serdesPllRelock p) s = done (pllLinkBack p (withPll p true s)) := by
  refine (if_neg (by rw [h]; decide)).trans ?_
  cases p <;> rfl

theorem execSerdesPllRelock_refAbsent {p : Pll} {s : State} (h : s.clk.refPresent = false) (hq : s.fires = []) :
    exec (.serdesPllRelock p) s = .next s :=
  (if_pos (by rw [h]; rfl)).trans (done_quiet hq)

theorem pllLinkBack_only (p : Pll) (t : State) : Only [.boot, .ports, .units, .always, .plait, .out] t (pllLinkBack p t) := by
  cases p with
  | border n => exact .refl _ _
  | nsl n => exact restartLink_only ..
  | wale => exact .refl _ _
  | plait => exact restartLink_only ..

/-- Settles O21: the settling of the lattice leaves clocks, pins, start-up and the trace port's link. -/
theorem serdesPllsAct : Obligations.SerdesPllsAct := by
  unfold Obligations.SerdesPllsAct
  refine ⟨fun s p => ?_, fun s p hr => ?_, fun s p hr hq => execSerdesPllRelock_refAbsent hr hq⟩
  · refine Runs.of_done (execSerdesPllLoss_eq p s) ⟨?_, fun hp => ?_, fun n hp hu => ?_⟩
    · rw [settle_clk, pllLinkDown_clk]
      cases p <;> rfl
    · subst hp
      exact (settle_queues _).portUp.trans (waleDown_portUp _)
    · subst hp
      rw [settle_boot, pllLinkDown_border_boot _ hu]; rfl
  · have back := pllLinkBack_only p (withPll p true s)
    refine Runs.of_done (execSerdesPllRelock_refPresent hr) ⟨?_, ?_⟩
    · rw [settle_clk, back.same .clk (by decide)]
      cases p <;> rfl
    · rw [settle_pins, back.same .pins (by decide)]; rfl

end Sys2Proof.Laws

/-!
SUPPORT. A partition reset keeps the roles of a partition and the last generation of its weave: so do the six parts it
consists of, each with the operations it uses.
-/

namespace Sys2Proof.Laws
open Sys2Proof Sys2Proof.Machine
set_option Elab.async false -- a thread per proof would not fit beside the model in the check's memory

/-- What a partition reset leaves of a partition's state: the owner, the observers and the last generation of its weave. -/
def roles (x : PartSt) : Option Nat × List Nat × W32 := (x.owner, x.observers, x.lastGen)

/-- Every partition keeps its roles. -/
structure KeepsRoles (s t : State) : Prop where
  part : ∀ q, roles (t.part q) = roles (s.part q)

theorem KeepsRoles.refl (s : State) : KeepsRoles s s := ⟨fun _ => rfl⟩

theorem KeepsRoles.trans {s t u : State} (h : KeepsRoles s t) (k : KeepsRoles t u) : KeepsRoles s u :=
  ⟨fun q => (k.part q).trans (h.part q)⟩

theorem KeepsRoles.of_only {l : List Fld} {s t : State} (h : Only l s t) (e : (!l.contains .parts) = true := by rfl) :
    KeepsRoles s t := by
  have k : t.parts = s.parts := h.same .parts (by simpa using e)
  exact ⟨fun q => by unfold State.part; rw [k]⟩

theorem roles_of_partStill {x y : PartSt} (h : partStill x = partStill y) : roles x = roles y := by
  obtain ⟨ho, hb, _, _, _, _, hg, _⟩ := PartStill.mk.inj h
  unfold roles
  rw [ho, hb, hg]

theorem KeepsRoles.of_still {s t : State} (h : Still s t) : KeepsRoles s t :=
  ⟨fun q => roles_of_partStill (h.part q)⟩

theorem modPart_keepsRoles (p : Nat) (g : PartSt → PartSt) (s : State) (h : ∀ x, roles (g x) = roles x := by intro; rfl) :
    KeepsRoles s (modPart p g s) := by
  refine ⟨fun q => ?_⟩
  by_cases e : q = p
  · subst e
    by_cases b : q < 64
    · rw [part_modPart _ _ _ b, h]
    · rw [show modPart q g s = s from dif_neg b]
  · rw [part_modPart_ne _ _ _ _ e]

/-- One more operation that leaves the partitions. -/
theorem KeepsRoles.step {l : List Fld} {s t u : State} (h : KeepsRoles s t) (k : Only l t u)
    (e : (!l.contains .parts) = true := by rfl) : KeepsRoles s u := h.trans (.of_only k e)

/-- One more change of a partition that keeps its roles. -/
theorem KeepsRoles.change {p : Nat} {g : PartSt → PartSt} {s t : State} (h : KeepsRoles s t)
    (e : ∀ x, roles (g x) = roles x := by intro; rfl) : KeepsRoles s (modPart p g t) := h.trans (modPart_keepsRoles p g t e)

theorem KeepsRoles.ite {c : Prop} [Decidable c] {s t u : State} (h : KeepsRoles s t) (k : KeepsRoles s u) :
    KeepsRoles s (if c then t else u) := by
  split <;> assumption

theorem KeepsRoles.each {α : Type} {l : List α} {g : α → State → State} {s t : State} (h : KeepsRoles s t)
    (k : ∀ a u, KeepsRoles u (g a u)) : KeepsRoles s (each l g t) := by
  refine h.trans ?_
  clear h
  unfold Machine.each
  induction l generalizing t with
  | nil => exact .refl _
  | cons a l ih => exact (k a t).trans ih

/-! ### The weave -/

theorem finishCommit_keepsRoles (p : Nat) (c : Commit) (s : State) : KeepsRoles s (finishCommit p c s) := by
  have ended : KeepsRoles s (modPart p (fun x => { x with commit := none }) s) := modPart_keepsRoles ..
  exact (ended.ite (c := c.unitsLeft.isEmpty = true) (ended.step (endWatchApply_only ..))).step (complete_only ..)

theorem failCommit_keepsRoles (p : Nat) (status : Byte) (s : State) : KeepsRoles s (failCommit p status s) := by
  unfold failCommit
  split
  · exact .refl _
  · have ended := modPart_keepsRoles p (fun x => { x with commit := none }) s
    exact .ite (.refl _) ((ended.trans (.of_still (writeRec_still ..))).step (complete_only ..))

theorem dropReweave_keepsRoles (p : Nat) (st : Byte) (s : State) : KeepsRoles s (dropReweave p st s) := by
  have dropped := modPart_keepsRoles p (fun x => { x with inactive := none }) s
  exact (dropped.trans (failCommit_keepsRoles ..)).each fun _ _ => .of_only (complete_only ..)

theorem resetWeave_keepsRoles (p : Nat) (s : State) : KeepsRoles s (resetWeave p s) := by
  have begun : KeepsRoles s (match (s.part p).commit with
      | some c => if c.switched then finishCommit p c s else s
      | none => s) := by
    split
    · exact .ite (finishCommit_keepsRoles ..) (.refl _)
    · exact .refl _
  exact (begun.trans (dropReweave_keepsRoles ..)).each fun _ _ => .of_only (fail_only ..)

/-! ### The lattice -/

theorem endHold_keepsRoles (p : Nat) (s : State) : KeepsRoles s (endHold p s) := by
  unfold endHold
  exact modPart_keepsRoles _ _ _ fun _ => by split <;> rfl

theorem resetLattice_keepsRoles (p : Nat) (s : State) : KeepsRoles s (resetLattice p s) := by
  have spent : KeepsRoles s { s with fires := s.fires.filter fun e => e.1 != p } :=
    .of_only (upd_fires (l := [.fires]) (.refl _ _) rfl)
  exact (spent.trans (endHold_keepsRoles ..)).change

/-! ### The cuts -/

theorem capturePort_keepsRoles (p : Nat) (id : W32) (n k : Nat) (s : State) : KeepsRoles s (capturePort p id n k s) := by
  induction k generalizing s with
  | zero => exact .refl _
  | succ k ih =>
    unfold capturePort
    split
    · exact .refl _
    · split
      · exact .refl _
      · split
        · exact .refl _
        · exact .ite (.refl _) (.ite ((KeepsRoles.of_still (modCut_still ..)).trans (ih _)) (.of_only (readRange_only ..)))

theorem readPort_keepsRoles (p n k : Nat) (s : State) : KeepsRoles s (readPort p n k s) := by
  induction k generalizing s with
  | zero => exact .refl _
  | succ k ih =>
    unfold readPort
    split
    · exact .refl _
    · dsimp only
      split
      · exact .refl _
      · refine .ite (.refl _) (.ite (.of_still (modBuild_still ..))
          (.ite ((KeepsRoles.of_still (modBuild_still ..)).trans (ih _)) ?_))
        split
        · exact .refl _
        · exact .of_still (ask_still ..)

theorem slathRun_keepsRoles (p k : Nat) (s : State) : KeepsRoles s (slathRun p k s) := by
  induction k generalizing s with
  | zero => exact .refl _
  | succ k ih =>
    unfold slathRun
    split
    · rename_i c _
      have asked : KeepsRoles s (if c.releasing then s
          else each (List.range 8) (fun n => capturePort p c.id n (c.ranges.length + 1)) s) :=
        .ite (.refl _) ((KeepsRoles.refl s).each fun _ _ => capturePort_keepsRoles ..)
      dsimp only
      split
      · exact asked
      · exact .ite asked (.ite ((asked.trans (.of_still (modCut_still ..))).trans (ih _))
          ((asked.trans (.of_still (captured_still ..))).trans (ih _)))
    · split
      · rename_i c _
        have asked : KeepsRoles s (each (List.range 8) (fun n => readPort p n (c.msgs.length + 1)) s) :=
          (KeepsRoles.refl s).each fun _ _ => readPort_keepsRoles ..
        exact .ite (.ite asked ((asked.trans (.of_still (assignCut_still ..))).trans (ih _))) (.refl _)
      · exact .refl _

theorem releaseCut_keepsRoles (p : Nat) (by_ : Option (Nat × W32)) (id : W32) (s : State) :
    KeepsRoles s (releaseCut p by_ id s) :=
  (KeepsRoles.of_still (modCut_still ..)).trans (slathRun_keepsRoles ..)

theorem resetCuts_keepsRoles (p : Nat) (s : State) : KeepsRoles s (resetCuts p s) :=
  (modPart_keepsRoles p (PartSt.mapBegun fun c => { c with releasing := true }) s).each fun _ _ => releaseCut_keepsRoles ..

/-! ### The hang analysis and the counters -/

theorem resetHang_keepsRoles (p : Nat) (s : State) : KeepsRoles s (resetHang p s) := by
  have closed : KeepsRoles s (closeBinding p s) := .of_still (endBinding_still ..)
  have stopped : ∀ t, KeepsRoles t (stopGraph p t) := fun t =>
    (modPart_keepsRoles p _ t).each fun _ _ => .of_only (modUnit_only ..)
  have started : ∀ t, KeepsRoles t (startGraph p t) := fun t =>
    (modPart_keepsRoles p _ t).each fun _ _ => .of_only (uncertain_only ..)
  have off := closed.change (p := p) (g := fun x => { x with reports := [], lastCycle := [], lastStall := none })
  exact .ite ((off.trans (stopped _)).trans (started _)) (off.trans (stopped _))

theorem resetCounters_keepsRoles (p : Nat) (s : State) : KeepsRoles s (resetCounters p s) := by
  have dropped : KeepsRoles s (dropConfig p stAbortedByReset s) := by
    unfold dropConfig
    split
    · exact (modPart_keepsRoles ..).step (fail_only ..)
    · exact .refl _
  exact dropped.change

/-! ### The runs and the coder -/

theorem programRec_keepsRoles (q : Run) (event : Nat) (data : List Byte) (s : State) : KeepsRoles s (programRec q event data s) :=
  .of_still (writeRec_still ..)

theorem takeRun_keepsRoles (q : Run) (status cause : Nat) (s : State) : KeepsRoles s (takeRun q status cause s) := by
  unfold takeRun
  extract_lets x o holders s1 s2 s2' s3 s4
  have e1 : KeepsRoles s s1 := .of_only (upd_osier (l := [.osier]) (.refl _ _) rfl)
  have e2 : KeepsRoles s s2 := e1.trans (programRec_keepsRoles ..)
  have e2' : KeepsRoles s s2' := .ite (e2.step (handOver_only ..)) e2
  have e3 : KeepsRoles s s3 := .ite e2'.change e2'
  have e4 : KeepsRoles s s4 := .ite e3 (e3.step (markBinding_only ..))
  exact e4.step (completeWaits_only ..)

theorem startRun_keepsRoles {a : RunReq} {s t : State} {q : Run} (h : startRun a s = some (q, t)) : KeepsRoles s t := by
  unfold startRun at h
  split at h
  · cases h
  · split at h
    · cases h
    · split at h
      · cases h
      · obtain ⟨rfl, rfl⟩ := Prod.mk.inj (Option.some.inj h)
        exact (KeepsRoles.of_only (upd_osier (l := [.osier]) (.refl _ _) rfl)).trans (programRec_keepsRoles ..)

theorem startBound_keepsRoles (p role index : Nat) (s : State) : KeepsRoles s (startBound p role index s) := by
  unfold startBound
  split
  · rename_i h
    have marked := (startRun_keepsRoles h).step (markBinding_only p role false false _)
    exact .ite marked.change marked
  · exact .of_only (markBinding_only ..)

theorem bindAtReady_keepsRoles (p : Nat) (s : State) : KeepsRoles s (bindAtReady p s) := by
  have one : ∀ role t, KeepsRoles t (match weftBinding (t.part p).active.weft role with
      | some i => startBound p role i t
      | none => t) := fun role t => by
    split
    · exact startBound_keepsRoles ..
    · exact .refl _
  exact ((modPart_keepsRoles p _ s).trans (one roleCoding _)).trans (one rolePred _)

theorem modCoded_keepsRoles (p : Nat) (g : Frame → Frame) (s : State) : KeepsRoles s (modCoded p g s) :=
  .ite (modPart_keepsRoles ..) (modPart_keepsRoles ..)

theorem putCoded_keepsRoles (p : Nat) (ends : Bool) (l : List Byte) (s : State) : KeepsRoles s (putCoded p ends l s) := by
  induction l generalizing s with
  | nil => exact .refl _
  | cons b l ih =>
    cases l with
    | nil => exact modCoded_keepsRoles ..
    | cons c l => exact (modCoded_keepsRoles p _ s).trans (ih _)

theorem endSpan_keepsRoles (p : Nat) (s : State) : KeepsRoles s (endSpan p s) := by
  unfold endSpan
  extract_lets c e bytes
  clear_value e bytes
  have ended := modPart_keepsRoles p (fun x => { x with coder := { x.coder.keep e with inSpan := false } }) s
  exact .ite (.refl _) ((ended.trans (putCoded_keepsRoles ..)).step (modMeters_only ..))

theorem closeCoded_keepsRoles (p : Nat) (s : State) : KeepsRoles s (closeCoded p s) := by
  unfold closeCoded
  split
  · exact modPart_keepsRoles ..
  · exact .refl _

theorem putSwitch_keepsRoles (p : Nat) (payload : List Byte) (ofSwitch : Option Bool) (s : State) :
    KeepsRoles s (putSwitch p payload ofSwitch s) := by
  unfold putSwitch
  extract_lets r dram waits kept f s1 s2 s3 s4
  have e1 : KeepsRoles s s1 := .of_only (deliverInput_only ..)
  have e2 : KeepsRoles s s2 := .ite e1.change e1
  have e3 : KeepsRoles s s3 := .ite (e2.trans (.of_still (dramArrive_still ..))) e2
  have e4 : KeepsRoles s s4 := .ite (e3.step (modMeters_only ..)) e3
  exact .ite (e2.trans (.of_still (holdDram_still ..))) (.ite (e4.trans (.of_still (hubEvent_still ..))) e4)

theorem resetCoder_keepsRoles (p reason : Nat) (newEnc : Bool) (newIndex : Nat) (ofSwitch : Option Bool) (s : State) :
    KeepsRoles s (resetCoder p reason newEnc newIndex ofSwitch s) := by
  have closed := (endSpan_keepsRoles p s).trans (closeCoded_keepsRoles p _)
  unfold resetCoder
  dsimp only
  split
  · exact ((closed.trans (putSwitch_keepsRoles ..)).change).step (restartRun_only ..)
  · exact (closed.trans (putSwitch_keepsRoles ..)).change

theorem resetPoint_keepsRoles (p reason : Nat) (newEnc : Bool) (newIndex : Nat) (s : State) :
    KeepsRoles s (resetPoint p reason newEnc newIndex s) :=
  (resetCoder_keepsRoles ..).trans (.of_still (pumpPort_still ..))

theorem syncCoder_keepsRoles (p reason : Nat) (s : State) : KeepsRoles s (syncCoder p reason s) :=
  .ite (.refl _) (resetPoint_keepsRoles ..)

theorem forceReset_keepsRoles (p reason : Nat) (s : State) : KeepsRoles s (forceReset p reason s) := resetPoint_keepsRoles ..

theorem retryBound_keepsRoles (p role : Nat) (s : State) : KeepsRoles s (retryBound p role s) := by
  unfold retryBound
  split
  · have started := fun i => startBound_keepsRoles p role i s
    exact .ite (.ite ((started _).trans (syncCoder_keepsRoles ..)) (started _)) (.refl _)
  · exact .refl _

theorem retryAll_keepsRoles (s : State) : KeepsRoles s (retryAll s) :=
  (KeepsRoles.refl s).each fun _ _ => (retryBound_keepsRoles ..).trans (retryBound_keepsRoles ..)

theorem markLost_keepsRoles (r : TraceRec) (s : State) : KeepsRoles s (markLost r s) := by
  unfold markLost
  exact modPart_keepsRoles ..

theorem flushDram_keepsRoles (l : List (TraceRec × Bool)) (s : State) : KeepsRoles s (flushDram l s) := by
  have arrived : ∀ r t, KeepsRoles t (dramArrive r t) := fun _ _ => .of_still (dramArrive_still ..)
  exact (KeepsRoles.refl s).each fun _ _ => .ite (.of_still (dramOnly_still ..)) (.ite (arrived ..)
    ((arrived _ _).trans (markLost_keepsRoles ..)))

theorem resetRuns_keepsRoles (p : Nat) (s : State) : KeepsRoles s (resetRuns p s) := by
  unfold resetRuns
  extract_lets was mine s1 held s2
  have e1 : KeepsRoles s s1 := (KeepsRoles.refl s).each fun _ _ => by
    split
    · exact takeRun_keepsRoles ..
    · exact .refl _
  have unbound : KeepsRoles s (markBinding p rolePred false false (markBinding p roleCoding false false
      (modPart p (fun x => { x with coder := { x.coder with pendSwitch := [] } }) s1))) :=
    (e1.change.step (markBinding_only ..)).step (markBinding_only ..)
  have e2 : KeepsRoles s s2 := (unbound.trans (bindAtReady_keepsRoles ..)).trans (retryAll_keepsRoles _)
  exact (KeepsRoles.ite (e2.trans (forceReset_keepsRoles ..)) e2).trans (flushDram_keepsRoles ..)

/-! ### The reset of a partition -/

/-- A partition's reset, as its completion makes it. -/
def resetPartition (p : Nat) (s : State) : State :=
  modPart p (fun x => { x with resetPending := false })
    (resetRuns p (resetCounters p (resetHang p (resetCuts p (resetLattice p (resetWeave p s))))))

theorem resetPartition_keepsRoles (p : Nat) (s : State) : KeepsRoles s (resetPartition p s) :=
  ((((((resetWeave_keepsRoles p s).trans (resetLattice_keepsRoles ..)).trans (resetCuts_keepsRoles ..)).trans
    (resetHang_keepsRoles ..)).trans (resetCounters_keepsRoles ..)).trans (resetRuns_keepsRoles ..)).change

theorem resetPartition_resetPending {p : Nat} (s : State) (h : p < 64) : ((resetPartition p s).part p).resetPending = false := by
  unfold resetPartition
  rw [part_modPart _ _ _ h]

theorem execPartitionReset_owner {f : Fn} {p : Part} {s : State} (hb : s.barOpen f.val = true)
    (ho : s.owns f.val p.val = true) :
    exec (.partitionReset f p) s =
      done (modPart p.val (fun x => { x with resetPending := true }) (bumpAlways (44 + fnPort f.val) 4 s)) := by
  refine congrArg done ((hostPut_of_open hb).trans (if_pos ?_))
  unfold State.owns
  rw [Only.part (bumpAlways_only ..) rfl]
  exact ho

theorem execPartitionResetComplete_pending {p : Part} {s : State} (hp : (s.part p.val).resetPending = true)
    (hg : (s.part p.val).gather = none) : exec (.partitionResetComplete p) s = done (resetPartition p.val s) :=
  if_pos (by rw [hp, hg]; rfl)

/-- Settles O45: the six parts of the reset keep the roles, and the settling of the lattice leaves them. -/
theorem partitionResetActs : Obligations.PartitionResetActs := by
  unfold Obligations.PartitionResetActs
  refine ⟨fun s f p hb ho hq => ?_, fun s p hp hg => ⟨execPartitionResetComplete_pending hp hg, ?_⟩⟩
  · have bumped : Only [.always] s (bumpAlways (44 + fnPort f.val) 4 s) := bumpAlways_only ..
    refine Runs.quiet (execPartitionReset_owner hb ho) ?_ ⟨?_, ?_, fun q hne => ?_⟩
    · rw [modPart_fires, Only.fires bumped rfl]; exact hq
    · rw [part_modPart _ _ _ p.isLt]
    · exact (bumped.weaken rfl).step (modPart_only ..) rfl
    · rw [part_modPart_ne _ _ _ _ hne, Only.part bumped rfl]
  · have still := settle_still (resetPartition p.val s)
    have kept : roles _ = roles _ := ((resetPartition_keepsRoles p.val s).trans (.of_still still)).part p.val
    obtain ⟨ho, hbg⟩ := Prod.mk.inj kept
    obtain ⟨hb, hl⟩ := Prod.mk.inj hbg
    have pending := congrArg PartStill.resetPending (still.part p.val)
    exact Runs.of_done (execPartitionResetComplete_pending hp hg)
      ⟨pending.trans (resetPartition_resetPending s p.isLt), ho, hb, hl⟩

end Sys2Proof.Laws

/-!
SUPPORT. What each command can change before the lattice settles: the fields that `touches` names for it. Every other
field, the timebase among them, is then left by the whole command.
-/

namespace Sys2Proof.Machine

/-- One more operation, whose own fields are among those allowed. -/
theorem Only.andThen {l m : List Fld} {s t u : State} (h : Only l s t) (k : Only m t u)
    (e : m.all l.contains = true := by rfl) : Only l s u := h.step k e

/-- An operation whose fields are among those allowed. -/
theorem Only.within {l m : List Fld} {s t : State} (h : Only m s t) (e : m.all l.contains = true := by rfl) : Only l s t :=
  h.weaken e

end Sys2Proof.Machine

namespace Sys2Proof.Laws
open Sys2Proof Sys2Proof.Machine
set_option Elab.async false -- a thread per proof would not fit beside the model in the check's memory

/-! ### The outcomes that a meaning is built from -/

/-- The outcome settles a state that differs from `s` at most in the fields of `l`. -/
def SettlesOnly (l : List Fld) (s : State) (o : Host.Outcome State Fault Refusal) : Prop := ∃ u, o = done u ∧ Only l s u

section
variable {l m : List Fld} {s u : State} {a b : Host.Outcome State Fault Refusal} {c : Prop} {dec : Decidable c}

theorem SettlesOnly.of_only (h : Only l s u) : SettlesOnly l s (done u) := ⟨u, rfl, h⟩

theorem SettlesOnly.law (h : Only m s u) (e : m.all l.contains = true := by rfl) : SettlesOnly l s (done u) :=
  .of_only (h.within e)

theorem SettlesOnly.quiet : SettlesOnly l s (done s) := .of_only (.refl l s)

theorem SettlesOnly.ite (ha : SettlesOnly l s a) (hb : SettlesOnly l s b) : SettlesOnly l s (if c then a else b) := by
  split
  · exact ha
  · exact hb

/-- The shape of most events of the table: they act under a condition, and otherwise do nothing. -/
theorem SettlesOnly.guard (h : Only l s u) : SettlesOnly l s (if c then done u else done s) := .ite (.of_only h) .quiet

theorem SettlesOnly.unless (h : Only l s u) : SettlesOnly l s (if c then done s else done u) := .ite .quiet (.of_only h)

/-- A host's write to a register. -/
theorem SettlesOnly.host {f : Nat} {g : State → State} (h : ∀ t, Only l t (g t))
    (e : ([.always] : List Fld).all l.contains = true := by rfl) : SettlesOnly l s (done (hostPut f g s)) :=
  .of_only (hostPut_only _ _ _ e h)

/-- A command of a ring, as its turn comes. -/
theorem SettlesOnly.command {op f : Nat} {tag : W32} {k : Cmd → State → State} (h : ∀ c t, Only l t (k c t))
    (e : ([.fns] : List Fld).all l.contains = true := by rfl) : SettlesOnly l s (done (startCmd op f tag k s)) :=
  .of_only (startCmd_only _ _ _ _ _ e h)

/-- A command of a ring behind the checks that the commands of a partition's units share. -/
theorem SettlesOnly.checkedCommand {op f : Nat} {tag : W32} {k : Cmd → State → State} (h : ∀ c t, Only l t (k c t))
    (e : ([.fns, .always, .out] : List Fld).all l.contains = true := by rfl)
    (e' : ([.fns] : List Fld).all l.contains = true := by rfl) :
    SettlesOnly l s (done (startCmd op f tag (checked f tag k) s)) :=
  .command (fun _ _ => checked_only _ _ _ _ _ e h) e'

/-- An instruction of the test access port. -/
theorem SettlesOnly.tap {code : Nat} {g : State → State} (h : ∀ t, Only l t (g t))
    (e : ([.tap, .out] : List Fld).all l.contains = true := by rfl) : SettlesOnly l s (done (tapRun code g s)) :=
  .of_only (tapRun_only _ _ _ e h)

end

/-! ### The hang analysis -/

theorem execHangEventProcess_touches (s : State) : SettlesOnly (touches .hangEventProcess) s (execHangEventProcess s) := by
  unfold execHangEventProcess
  split
  · exact .quiet
  · have taken : ∀ e rest, Only (touches .hangEventProcess) s (hangEvent e { s with hang := { s.hang with queue := rest } }) :=
      fun e rest => (upd_hang (.refl _ _) rfl).andThen (hangEvent_only ..)
    exact .of_only ((ite_only ((taken ..).andThen (modPart_only ..)) (taken ..)).andThen (spendCreel_only _))

theorem execHangScanEnd_touches (part : Part) (found : Ecc) (s : State) :
    SettlesOnly (touches (.hangScanEnd part found)) s (execHangScanEnd part found s) := by
  unfold execHangScanEnd
  extract_lets p x t next t1 w running t2
  have ht : Only (touches (.hangScanEnd part found)) s t := ite_only (correctedWord_only ..).within (.refl _ _)
  split
  · exact .of_only ht
  · extract_lets es comps units
    have hnext : ∀ u, Only (touches (.hangScanEnd part found)) u (next u) := fun _ =>
      ite_only (startScan_only ..).within (.refl _ _)
    have h1 : Only (touches (.hangScanEnd part found)) s t1 := ht.andThen (modPart_only ..)
    have h2 : Only (touches (.hangScanEnd part found)) s t2 := (h1.trans (hnext _)).andThen (modPart_only ..)
    refine .ite (.of_only ht) (.ite (.of_only h1) (.ite ?_ (.ite (.ite ?_ ?_) ?_)))
    · exact .of_only (((ht.andThen (uncorrectableItem_only ..)).andThen (stopGraph_only ..)).andThen (startGraph_only ..))
    · exact .of_only (h1.trans (hnext _))
    · exact .of_only (((h1.trans (hnext _)).andThen (modPart_only ..)).andThen (declareHang_only ..))
    · split
      · exact .ite (.of_only h2) (.of_only ((h2.andThen (modPart_only ..)).andThen (declareHang_only ..)))
      · exact .of_only h2

theorem execHangScan_touches (part : Part) (s : State) : SettlesOnly (touches (.hangScan part)) s (execHangScan part s) :=
  .ite .quiet (.ite (.law (modPart_only ..)) (.of_only ((modPart_only ..).within.andThen (startScan_only ..))))

theorem execHangReport_touches (fn : Fn) (tag : W32) (found : Ecc) (s : State) :
    SettlesOnly (touches (.hangReport fn tag found)) s (execHangReport fn tag found s) := by
  refine .command fun c t => ?_
  extract_lets p mode held asked t1
  split
  · exact (fail_only ..).within
  · have h1 : Only (touches (.hangReport fn tag found)) t t1 := ite_only (addReport_only ..).within (.refl _ _)
    split
    · exact (fail_only ..).within
    · extract_lets out poison t2
      have h2 : Only (touches (.hangReport fn tag found)) t t2 :=
        ite_only (h1.andThen (uncorrectableItem_only ..)) (ite_only (h1.andThen (correctedWord_only ..)) h1)
      exact ite_only (h2.andThen (complete_only ..)) ((h2.andThen (bufWrite_only ..)).andThen (complete_only ..))

/-! ### Run control -/

theorem execHalt_touches (fn : Fn) (tag : W32) (s : State) : SettlesOnly (touches (.halt fn tag)) s (execHalt fn tag s) :=
  .checkedCommand fun _ _ => enterHost_only _ _ _ rfl fun _ => (haltHeld_only ..).within

theorem execResume_touches (fn : Fn) (tag : W32) (s : State) : SettlesOnly (touches (.resume fn tag)) s (execResume fn tag s) :=
  .ite .quiet (.checkedCommand fun _ _ =>
    (ite_only (modWork_only ..).within ((modWork_only ..).within.andThen (sendRun_only ..))).andThen (advanceCmd_only ..))

theorem execStep_touches (fn : Fn) (tag : W32) (s : State) : SettlesOnly (touches (.step fn tag)) s (execStep fn tag s) :=
  .ite .quiet (.checkedCommand fun _ _ =>
    ((modWork_only ..).within.andThen (sendRun_only ..)).andThen (advanceCmd_only ..))

/-- The commands that note whom they skip and then send their messages to the dies of a partition. -/
theorem sent_only {f : Nat} {tag : W32} {c : Cmd} {g : Work → Work} {ms : List CmdMsg} {t : State} :
    Only latticeFields t (advanceCmd f tag (sendAll f c ms (modWork f tag g t))) :=
  ((modWork_only ..).within.andThen (sendAll_only ..)).andThen (advanceCmd_only ..)

/-- The commands on the memory of units: the fallback units among them go to the adaptor. -/
theorem sentAll_only {f op : Nat} {tag : W32} {c : Cmd} {ms : List CmdMsg} {data : List Byte} {t : State} :
    Only latticeFields t (advanceCmd f tag (fallbackCalls f c op data (sendAll f c ms t))) :=
  ((sendAll_only ..).within.andThen (fallbackCalls_only ..)).andThen (advanceCmd_only ..)

theorem execHaltTimeoutExpiry_touches (unit : UnitNo) (s : State) :
    SettlesOnly (touches (.haltTimeoutExpiry unit)) s (execHaltTimeoutExpiry unit s) := by
  unfold execHaltTimeoutExpiry
  split
  · exact .guard (declareUnit_only ..).within
  · exact .quiet

theorem execStepTimeoutExpiry_touches (unit : UnitNo) (s : State) :
    SettlesOnly (touches (.stepTimeoutExpiry unit)) s (execStepTimeoutExpiry unit s) := by
  unfold execStepTimeoutExpiry
  split
  · exact .guard (declareUnit_only ..).within
  · exact .quiet

theorem execAdaptorOperationTimeout_touches (s : State) :
    SettlesOnly (touches .adaptorOperationTimeout) s (execAdaptorOperationTimeout s) := by
  unfold execAdaptorOperationTimeout
  split
  · split
    · exact .guard (callEnds_only ..).within
    · exact .quiet
  · exact .quiet

/-! ### Cuts -/

theorem execCut_touches (fn : Fn) (tag : W32) (s : State) : SettlesOnly (touches (.cut fn tag)) s (execCut fn tag s) :=
  .command fun _ _ => ite_only (fail_only ..).within (enterHost_only _ _ _ rfl fun _ => (cutHeld_only ..).within)

theorem execProofDone_touches (proof : ProofEnd) (s : State) :
    SettlesOnly (touches (.proofDone proof)) s (execProofDone proof s) :=
  .guard ((((each_only (.refl _ _) fun _ _ => (correctedWord_only ..).within).andThen (poisonHeld_only ..)).andThen
    (endProof_only ..)).andThen (slath_only ..))

theorem execReleaseCut_touches (fn : Fn) (tag : W32) (s : State) :
    SettlesOnly (touches (.releaseCut fn tag)) s (execReleaseCut fn tag s) := by
  refine .command fun c t => ?_
  extract_lets p id named fresh
  split
  · exact (fail_only ..).within
  · exact ite_only
      ((each_only (.refl _ _) fun _ _ => (modCut_only ..).within).andThen (complete_only ..))
      (each_only (modWork_only ..).within fun _ _ => (modCut_only ..).within.andThen (releaseCut_only ..))

theorem execCutFreed_touches (part : Part) (cut : W32) (s : State) :
    SettlesOnly (touches (.cutFreed part cut)) s (execCutFreed part cut s) := by
  unfold execCutFreed
  extract_lets p held
  split
  · exact .quiet
  · extract_lets s1
    have h1 : Only (touches (.cutFreed part cut)) s s1 :=
      ((freeDump_only ..).within.andThen (modPart_only ..)).andThen (cutRec_only ..)
    refine .ite .quiet ?_
    split
    · exact .of_only h1
    · have h2 : ∀ f tag g, Only (touches (.cutFreed part cut)) s (modWork f tag g s1) := fun _ _ _ =>
        h1.andThen (modWork_only ..)
      dsimp only
      split
      · exact .of_only (ite_only ((h2 ..).andThen (complete_only ..)) (h2 ..))
      · exact .of_only (h2 ..)

theorem execSplintEmit_touches (found : SplintEcc) (s : State) :
    SettlesOnly (touches (.splintEmit found)) s (execSplintEmit found s) := by
  unfold execSplintEmit
  refine .ite .quiet ?_
  split
  · exact .quiet
  · rename_i e t h
    have turn : Only (touches (.splintEmit found)) s (noteServed e (setDeficit e.fn (t.deficit e.fn - 1) t)) :=
      ((findTurn_only h).within.andThen (setDeficit_only ..)).andThen (noteServed_only ..)
    exact .of_only ((ite_only (turn.andThen (sendManifest_only ..)) (turn.andThen (sendData_only ..))).andThen
      (clearDeficits_only _))

theorem execDumpCut_touches (fn : Fn) (tag : W32) (s : State) :
    SettlesOnly (touches (.dumpCut fn tag)) s (execDumpCut fn tag s) := by
  refine .command fun c t => ?_
  extract_lets p part dest cut total count m fit
  split
  · exact (fail_only ..).within
  · exact (ite_only (upd_slath (.refl _ _) rfl) (.refl _ _)).andThen (putExport_only ..)

theorem execDumpRegion_touches (fn : Fn) (tag : W32) (s : State) :
    SettlesOnly (touches (.dumpRegion fn tag)) s (execDumpRegion fn tag s) := by
  refine .command fun c t => ?_
  extract_lets len total
  split
  · exact (fail_only ..).within
  · exact (putExport_only ..).within.andThen (regionReads_only ..)

theorem execExportPortTimeout_touches (fn : Fn) (tag : W32) (s : State) :
    SettlesOnly (touches (.exportPortTimeout fn tag)) s (execExportPortTimeout fn tag s) := by
  unfold execExportPortTimeout
  split
  · exact .quiet
  · exact .guard (((dropExport_only ..).within.andThen (clearDeficits_only _)).andThen (complete_only ..))

end Sys2Proof.Laws

/-! SUPPORT. What the events of dies and links can change. -/

namespace Sys2Proof.Laws
open Sys2Proof Sys2Proof.Machine
set_option Elab.async false -- a thread per proof would not fit beside the model in the check's memory

theorem execEnumerationDone_touches (port : Port) (s : State) :
    SettlesOnly (touches (.enumerationDone port)) s (execEnumerationDone port s) := by
  unfold execEnumerationDone
  extract_lets n
  split
  · exact .quiet
  · exact .guard (modPort_only ..).within

theorem execDieResponse_touches (port : Port) (m : Msg) (s : State) :
    SettlesOnly (touches (.dieResponse port m)) s (execDieResponse port m s) :=
  .of_only (ite_only (takeResponse_only ..).within (.refl _ _))

theorem execResponseTimeout_touches (port : Port) (ch : Fin 3) (s : State) :
    SettlesOnly (touches (.responseTimeout port ch)) s (execResponseTimeout port ch s) := by
  unfold execResponseTimeout
  extract_lets n c
  split
  · exact .quiet
  · extract_lets s1
    have h1 : Only (touches (.responseTimeout port ch)) s s1 := (modLnk_only ..).within
    refine .ite .quiet ?_
    split
    · split
      · refine .ite (.of_only (h1.andThen (regionAnswer_only ..))) (.of_only ?_)
        exact (each_only (each_only (h1.andThen (cmdNoAnswer_only ..)) fun _ _ => (stepEnds_only ..).within) fun _ _ =>
          (modUnit_only ..).within).andThen (checkGather_only ..)
      · exact .of_only h1
    · exact .of_only (h1.andThen (unanswered_only ..))

/-! ### Training and timing of links -/

theorem execBlockLock_touches (link : LinkNo) (lanes : BitVec 2) (s : State) :
    SettlesOnly (touches (.blockLock link lanes)) s (execBlockLock link lanes s) :=
  .ite (.law (modLnk_only ..)) (.guard (modLnk_only ..).within)

theorem execLockLoss_touches (link : LinkNo) (lane : Fin 2) (s : State) :
    SettlesOnly (touches (.lockLoss link lane)) s (execLockLoss link lane s) :=
  .of_only (ite_only ((modLnk_only ..).within.andThen (startRetrain_only ..)) (modLnk_only ..).within)

theorem execTrainTimeout_touches (link : LinkNo) (s : State) :
    SettlesOnly (touches (.trainTimeout link)) s (execTrainTimeout link s) := by
  unfold execTrainTimeout
  extract_lets x
  split
  · exact .guard (linkDown_only ..).within
  · exact .quiet

theorem execDownPeriodEnd_touches (link : LinkNo) (s : State) :
    SettlesOnly (touches (.downPeriodEnd link)) s (execDownPeriodEnd link s) :=
  .guard (ite_only (enterDetect_only ..).within ((startLink_only ..).within.andThen (bootAdvance_only _)))

theorem execTimesyncExchangeTimeout_touches (link : LinkNo) (s : State) :
    SettlesOnly (touches (.timesyncExchangeTimeout link)) s (execTimesyncExchangeTimeout link s) :=
  .guard (ite_only ((modLnk_only ..).within.andThen (startExchange_only ..)) (modLnk_only ..).within)

theorem execPlaitTimesyncReq_touches (hdr : CtlHdr) (exch : Byte) (t1 : W64) (s : State) :
    SettlesOnly (touches (.plaitTimesyncReq hdr exch t1)) s (execPlaitTimesyncReq hdr exch t1 s) :=
  .ite (.of_only ((takeHdr_only ..).within.andThen (sendCtl_only ..))) (.law (takeHdr_only ..))

theorem execNak_touches (link : LinkNo) (hdr : CtlHdr) (seq : BitVec 12) (s : State) :
    SettlesOnly (touches (.nak link hdr seq)) s (execNak link hdr seq s) :=
  .of_only ((((readHdr_only ..).within.andThen (takeNak_only ..)).andThen (pump_only ..)).andThen (noteRuns_only _))

theorem execAckTimeoutReplay_touches (link : LinkNo) (s : State) :
    SettlesOnly (touches (.ackTimeoutReplay link)) s (execAckTimeoutReplay link s) := by
  unfold execAckTimeoutReplay
  extract_lets l x
  split
  · exact .guard (replay_only ..).within
  · exact .quiet

theorem execDetachAckSend_touches (port : Port) (s : State) :
    SettlesOnly (touches (.detachAckSend port)) s (execDetachAckSend port s) := by
  unfold execDetachAckSend
  extract_lets n
  split
  · exact .guard ((sendCtl_only ..).within.andThen (portDown_only ..))
  · exact .quiet

/-! ### Counters -/

theorem execCounterConfig_touches (fn : Fn) (tag : W32) (data : List Byte) (s : State) :
    SettlesOnly (touches (.counterConfig fn tag data)) s (execCounterConfig fn tag data s) := by
  refine .command fun c t => ?_
  extract_lets p sels restore u wait cfg v
  split
  · exact (fail_only ..).within
  · have hu : Only (touches (.counterConfig fn tag data)) t u := ite_only (.refl _ _) (bumpAlways_only ..).within
    have hv : Only (touches (.counterConfig fn tag data)) t v := hu.andThen (modPart_only ..)
    exact ite_only (hu.andThen (fail_only ..)) (ite_only (hv.andThen (requestLatch_only ..)) hv)

theorem execCounterConfigWaitExpiry_touches (part : Part) (s : State) :
    SettlesOnly (touches (.counterConfigWaitExpiry part)) s (execCounterConfigWaitExpiry part s) := by
  unfold execCounterConfigWaitExpiry
  extract_lets p
  split
  · exact .guard (requestLatch_only ..).within
  · exact .quiet

theorem execDeferredLatchPoint_touches (part : Part) (s : State) :
    SettlesOnly (touches (.deferredLatchPoint part)) s (execDeferredLatchPoint part s) := by
  unfold execDeferredLatchPoint
  extract_lets p
  split
  · exact .guard ((modPart_only ..).within.andThen (deferredTake_only ..))
  · exact .quiet

theorem execCounterLatch_touches (fn : Fn) (tag : W32) (s : State) :
    SettlesOnly (touches (.counterLatch fn tag)) s (execCounterLatch fn tag s) :=
  .command fun _ _ => ite_only
    (ite_only (fail_only ..).within (ite_only (fail_only ..).within ((bufWrite_only ..).within.andThen (complete_only ..))))
    (ite_only (fail_only ..).within (requestLatch_only ..).within)

theorem execLifecycleAdvance_touches (fn : Fn) (tag : W32) (s : State) :
    SettlesOnly (touches (.lifecycleAdvance fn tag)) s (execLifecycleAdvance fn tag s) := by
  refine .command fun c t => ?_
  split
  · exact (fail_only ..).within
  · extract_lets l
    split
    · exact (fail_only ..).within
    · exact ite_only (complete_only ..).within (askBurn_only ..).within

/-! ### The programs of the Osier -/

theorem execOsierWord_touches (core : CoreNo) (cycles : Nat) (poison : Fin 5) (tdo : List Bool) (s : State) :
    SettlesOnly (touches (.osierWord core cycles poison tdo)) s (execOsierWord core cycles poison tdo s) :=
  .ite (.law (coreWord_only ..))
    (.guard (adaptorWord_only _ _ _ _ _ rfl fun _ => (stopFirmware_only _).within))

theorem execSliceLimit_touches (core : CoreNo) (s : State) :
    SettlesOnly (touches (.sliceLimit core)) s (execSliceLimit core s) := by
  unfold execSliceLimit
  split
  · exact .guard (switchFrom_only ..).within
  · exact .quiet

theorem execHostWriteError_touches (run : W32) (s : State) :
    SettlesOnly (touches (.hostWriteError run)) s (execHostWriteError run s) := by
  unfold execHostWriteError
  split
  · exact .guard (endRun_only ..).within
  · exact .quiet

theorem execRunProgram_touches (fn : Fn) (tag : W32) (s : State) :
    SettlesOnly (touches (.runProgram fn tag)) s (execRunProgram fn tag s) := by
  refine .command fun c t => ?_
  split
  · exact (fail_only ..).within
  · extract_lets a
    split
    · rename_i h
      exact (startRun_only h).within.andThen (complete_only ..)
    · exact (fail_only ..).within

theorem execStopProgram_touches (fn : Fn) (tag : W32) (s : State) :
    SettlesOnly (touches (.stopProgram fn tag)) s (execStopProgram fn tag s) := by
  refine .command fun c t => ?_
  extract_lets id mode live past who p bound started
  clear_value bound live past
  split
  · exact (fail_only ..).within
  · split
    · exact ite_only ((endRun_only ..).within.andThen (complete_only ..)) (ite_only (.refl _ _) (complete_only ..).within)
    · exact (complete_only ..).within
    · exact .refl _ _

theorem execCoderAnswerRead_touches (part : Part) (found : Ecc) (s : State) :
    SettlesOnly (touches (.coderAnswerRead part found)) s (execCoderAnswerRead part found s) := by
  unfold execCoderAnswerRead
  extract_lets p c t
  have ht : Only (touches (.coderAnswerRead part found)) s t := ite_only (correctedWord_only ..).within (.refl _ _)
  split
  · rename_i r _ _ _ _
    extract_lets tables t1
    have h1 : Only (touches (.coderAnswerRead part found)) s t1 := ite_only (ht.andThen (modPart_only ..)) ht
    have h2 : ∀ te td, Only (touches (.coderAnswerRead part found)) s
        (spendCreel (spoilCoder t.injectHit p (codeRecord p te td r t1))) := fun _ _ =>
      ((h1.andThen (codeRecord_only ..)).andThen (spoilCoder_only ..)).andThen (spendCreel_only _)
    exact .ite (.of_only ht) (.ite (.of_only ((ht.andThen (uncorrectableItem_only ..)).andThen (endRun_only ..)))
      (.ite (.of_only (((h2 ..).andThen (forceReset_only ..)).andThen (checkSwitch_only ..)))
        (.of_only (((h2 ..).andThen (pumpPort_only ..)).andThen (checkSwitch_only ..)))))
  · exact .of_only ht

theorem execCodingStall_touches (part : Part) (s : State) :
    SettlesOnly (touches (.codingStall part)) s (execCodingStall part s) := by
  unfold execCodingStall
  extract_lets p c answered
  split
  · exact .guard (((modPart_only ..).within.andThen (syncCoder_only ..)).andThen (checkSwitch_only ..))
  · exact .quiet

end Sys2Proof.Laws

/-! SUPPORT. What the commands and events of images, commits, traces and sessions can change. -/

namespace Sys2Proof.Laws
open Sys2Proof Sys2Proof.Machine
set_option Elab.async false -- a thread per proof would not fit beside the model in the check's memory

/-! ### Images and commits -/

theorem execImageFetchEnd_touches (port : HostPort) (bytes : List Byte) (error : Bool) (s : State) :
    SettlesOnly (touches (.imageFetchEnd port bytes error)) s (execImageFetchEnd port bytes error s) := by
  unfold execImageFetchEnd
  extract_lets n w img
  have rejected : ∀ reason offset, Only (touches (.imageFetchEnd port bytes error)) s
      (rejectLoad n reason offset (bumpAlways (44 + n) 64 s)) := fun _ _ =>
    (bumpAlways_only ..).within.andThen (rejectLoad_only ..)
  refine .ite .quiet (.ite (.law (rejectLoad_only ..)) ?_)
  split
  · exact .of_only (rejected ..)
  · refine .ite (.of_only (rejected ..)) (.of_only ?_)
    exact (((upd_weave (.refl _ _) rfl).andThen (bumpAlways_only ..)).andThen (emit_only ..)).andThen (modWea_only ..)

theorem execImageCheckDone_touches (s : State) : SettlesOnly (touches .imageCheckDone) s (execImageCheckDone s) := by
  unfold execImageCheckDone
  split
  · exact .quiet
  · extract_lets c s1
    have h1 : Only (touches .imageCheckDone) s s1 := (nextFree_only _).within.andThen (applyPatch_only ..)
    split
    · exact .of_only (h1.andThen (imageRejected_only ..))
    · extract_lets s2
      have h2 : Only (touches .imageCheckDone) s s2 := h1.andThen (acceptImage_only ..)
      split
      · exact .of_only ((h2.andThen (modWea_only ..)).andThen (signal_only ..))
      · exact .of_only ((each_only h2 fun _ _ => (modWea_only ..).within).andThen (signalPfs_only ..))

theorem execDramTrainingDone_touches (ok : Bool) (s : State) :
    SettlesOnly (touches (.dramTrainingDone ok)) s (execDramTrainingDone ok s) := by
  refine .guard (.andThen ?_ (bootAdvance_only _))
  have noted : ∀ b w p, Only (touches (.dramTrainingDone ok)) s { s with boot := b, wale := w, plait := p } :=
    fun _ _ _ => upd_boot_wale_plait (.refl _ _) rfl
  cases ok with
  | true => exact (noted ..).andThen (releaseDdr_only _)
  | false => exact (noted ..).andThen (raiseErr_only ..)

theorem execReweave_touches (fn : Fn) (tag : W32) (data : List Byte) (s : State) :
    SettlesOnly (touches (.reweave fn tag data)) s (execReweave fn tag data s) := by
  refine .command fun c t => ?_
  split
  · exact (complete_only ..).within
  · exact (bumpAlways_only ..).within.andThen (modWork_only ..)

theorem execReweaveCheckEnd_touches (fn : Fn) (tag : W32) (s : State) :
    SettlesOnly (touches (.reweaveCheckEnd fn tag)) s (execReweaveCheckEnd fn tag s) := by
  unfold execReweaveCheckEnd
  extract_lets f s1
  split
  · exact .quiet
  · extract_lets img a r
    have h1 : Only (touches (.reweaveCheckEnd fn tag)) s s1 := (nextFree_only _).within
    refine .ite .quiet (.ite (.law (fail_only ..)) ?_)
    split
    · exact .of_only (h1.andThen (complete_only ..))
    · exact .of_only ((ite_only (h1.andThen (acceptWeft_only ..)) (h1.andThen (acceptWarp_only ..))).andThen
        (complete_only ..))

theorem execReweaveCommit_touches (fn : Fn) (tag : W32) (s : State) :
    SettlesOnly (touches (.reweaveCommit fn tag)) s (execReweaveCommit fn tag s) := by
  refine .command fun c t => ?_
  extract_lets f k no
  have failed : ∀ st, Only (touches (.reweaveCommit fn tag)) t (fail f tag st t) := fun _ => (fail_only ..).within
  have rejected : ∀ r, Only (touches (.reweaveCommit fn tag)) t (no r) := fun _ => (complete_only ..).within
  split
  · exact failed _
  · exact ite_only (failed _) (ite_only (failed _) (ite_only (rejected _) (ite_only (rejected _)
      (ite_only (modPart_only ..).within (upd_weave (.refl _ _) rfl)))))

theorem execWeftSwitch_touches (part : Part) (s : State) :
    SettlesOnly (touches (.weftSwitch part)) s (execWeftSwitch part s) := by
  unfold execWeftSwitch
  extract_lets p s1
  have h1 : Only (touches (.weftSwitch part)) s s1 := (noteWeft_only ..).within
  split
  · exact .ite (.of_only (h1.andThen (switchWeft_only ..))) (.of_only h1)
  · exact .of_only h1

theorem execWatchApplyEnd_touches (part : Part) (s : State) :
    SettlesOnly (touches (.watchApplyEnd part)) s (execWatchApplyEnd part s) := by
  unfold execWatchApplyEnd
  extract_lets p
  split
  · exact .guard (finishCommit_only ..).within
  · exact .quiet

theorem execWarpSettle_touches (s : State) : SettlesOnly (touches .warpSettle) s (execWarpSettle s) := by
  unfold execWarpSettle
  extract_lets s1
  have h1 : Only (touches .warpSettle) s s1 := (noteWarp_only _).within
  split
  · exact .of_only h1
  · refine .ite (.of_only h1) (.of_only (.andThen ?_ (setPortsLeft_only ..)))
    exact each_only (upd_weave h1 rfl) fun _ _ => (installPort_only ..).within

theorem execWarpCommitDone_touches (s : State) : SettlesOnly (touches .warpCommitDone) s (execWarpCommitDone s) := by
  unfold execWarpCommitDone
  split
  · exact .quiet
  · refine .unless (.andThen (.andThen ?_ (warpRecords_only ..)) (complete_only ..))
    exact each_only (upd_weave (.refl _ _) rfl) fun _ _ => (giveUpStakes_only ..).within

theorem execCommitSettleTimeout_touches (fn : Fn) (tag : W32) (s : State) :
    SettlesOnly (touches (.commitSettleTimeout fn tag)) s (execCommitSettleTimeout fn tag s) := by
  refine .of_only (Only.trans (t := each (List.range 64) _ (noteSettled s)) ?_ (ite_only (failWarp_only ..).within (.refl _ _)))
  exact each_only (noteSettled_only s).within fun _ _ => ite_only (failCommit_only ..).within (.refl _ _)

/-! ### Traces -/

theorem execLoadModel_touches (fn : Fn) (tag : W32) (data : List Byte) (s : State) :
    SettlesOnly (touches (.loadModel fn tag data)) s (execLoadModel fn tag data s) :=
  .command fun _ _ => ite_only (fail_only ..).within (ite_only (loadModel_only ..).within (unloadModel_only ..).within)

theorem execTraceConfig_touches (fn : Fn) (tag : W32) (s : State) :
    SettlesOnly (touches (.traceConfig fn tag)) s (execTraceConfig fn tag s) := by
  refine .command fun c t => ?_
  extract_lets p fl held t1 t2
  split
  · exact (fail_only ..).within
  · have h1 : Only (touches (.traceConfig fn tag)) t t1 := ite_only (setRoute_only ..).within (.refl _ _)
    have h2 : Only (touches (.traceConfig fn tag)) t t2 := ite_only (h1.andThen (setEncoding_only ..)) h1
    exact ite_only ((h2.andThen (modWork_only ..)).andThen (setEvt_only ..)) (h2.andThen (complete_only ..))

theorem execTraceFlush_touches (fn : Fn) (tag : W32) (found : Ecc) (s : State) :
    SettlesOnly (touches (.traceFlush fn tag found)) s (execTraceFlush fn tag found s) := by
  refine .command fun c t => ?_
  extract_lets p mode role badLen
  split
  · exact (fail_only ..).within
  · exact ite_only (modWork_only ..).within (ite_only (flushRead_only ..).within (flushDiscard_only ..).within)

theorem execTraceFlushDrained_touches (fn : Fn) (tag : W32) (s : State) :
    SettlesOnly (touches (.traceFlushDrained fn tag)) s (execTraceFlushDrained fn tag s) := by
  unfold execTraceFlushDrained
  split
  · exact .quiet
  · refine .ite ?_ .quiet
    split
    · rename_i h
      exact .of_only (((shedQueue_only ..).within.andThen (commitBlock_only h)).andThen (complete_only ..))
    · exact .quiet

theorem execTraceFrameSend_touches (found : TraceEcc) (s : State) :
    SettlesOnly (touches (.traceFrameSend found)) s (execTraceFrameSend found s) := by
  cases found with
  | queue p =>
    have spoiled : Only latticeFields s (shedQueue p.val (spoilQueue p.val s)) :=
      (spoilQueue_only ..).within.andThen (shedQueue_only ..)
    exact .ite (.of_only spoiled) (.ite (.of_only (spoiled.andThen (sendDump_only _)))
      (.of_only (spoiled.andThen (sendTurn_only _))))
  | tier e =>
    exact .ite .quiet (.ite (.law (sendDump_only _)) (.of_only ((readTier_only ..).within.andThen (sendTurn_only _))))

theorem execTraceFrameTimeout_touches (part : Part) (s : State) :
    SettlesOnly (touches (.traceFrameTimeout part)) s (execTraceFrameTimeout part s) := by
  unfold execTraceFrameTimeout
  extract_lets p
  split
  · exact .guard (((((ite_only (endSpan_only ..).within (.refl _ _)).andThen (closeCoded_only ..)).andThen
      (sendWaiting_only ..)).andThen (periodicReset_only ..)).andThen (checkSwitch_only ..))
  · exact .quiet

theorem execGapEnd_touches (part : Part) (dram : Bool) (s : State) :
    SettlesOnly (touches (.gapEnd part dram)) s (execGapEnd part dram s) := by
  unfold execGapEnd
  extract_lets p
  refine .ite ?_ ?_
  · split
    · exact .guard (endDramGap_only ..).within
    · exact .quiet
  · split
    · exact .guard (endPortGap_only ..).within
    · exact .quiet

theorem execSpillReturn_touches (part : Part) (s : State) :
    SettlesOnly (touches (.spillReturn part)) s (execSpillReturn part s) := by
  unfold execSpillReturn
  extract_lets p
  split
  · exact .guard (((modPart_only ..).within.andThen (pumpPort_only ..)).andThen (checkSwitch_only ..))
  · exact .quiet

/-! ### Rings, sessions and tenants -/

theorem execDescriptorFetch_touches (fn : Fn) (desc : BitVec 512) (error : Bool) (s : State) :
    SettlesOnly (touches (.descriptorFetch fn desc error)) s (execDescriptorFetch fn desc error s) :=
  .ite .quiet (.ite (.of_only ((takeTurn_only ..).within.andThen (ringErr_only ..)))
    (.of_only ((((takeTurn_only ..).within.andThen (modFn_only ..)).andThen (bumpAlways_only ..)).andThen
      (takeDescriptor_only ..))))

theorem execCoalesceTimeout_touches (fn : Fn) (s : State) :
    SettlesOnly (touches (.coalesceTimeout fn)) s (execCoalesceTimeout fn s) := by
  unfold execCoalesceTimeout
  extract_lets x us
  split
  · exact .guard ((modFn_only ..).within.andThen (signal_only ..))
  · exact .quiet

theorem execHostDmaError_touches (fn : Fn) (tag : W32) (s : State) :
    SettlesOnly (touches (.hostDmaError fn tag)) s (execHostDmaError fn tag s) := by
  unfold execHostDmaError
  extract_lets f
  split
  · exact .quiet
  · exact .ite .quiet (.ite (.law (modWork_only ..)) (.ite
      (.of_only ((nextFree_only _).within.andThen (complete_only ..)))
      (.of_only (((purgeCmd_only ..).within.andThen (purgeHub_only ..)).andThen (complete_only ..)))))

theorem execD0Return_touches (fn : Fn) (s : State) : SettlesOnly (touches (.d0Return fn)) s (execD0Return fn s) :=
  .unless (each_only (modFn_only ..).within fun _ _ => (writeCpl_only ..).within)

theorem execClaim_touches (fn : Fn) (tag : W32) (s : State) : SettlesOnly (touches (.claim fn tag)) s (execClaim fn tag s) := by
  refine .ite .quiet (.command fun c t => ?_)
  extract_lets p cuts
  split
  · exact (fail_only ..).within
  · exact ite_only (complete_only ..).within (ite_only (fail_only ..).within
      ((setOwner_only ..).within.andThen (complete_only ..)))

theorem execObserve_touches (fn : Fn) (tag : W32) (s : State) :
    SettlesOnly (touches (.observe fn tag)) s (execObserve fn tag s) := by
  refine .command fun c t => ?_
  extract_lets p
  split
  · exact (fail_only ..).within
  · exact ite_only (complete_only ..).within (ite_only (fail_only ..).within
      ((modPart_only ..).within.andThen (complete_only ..)))

theorem execRelease_touches (fn : Fn) (tag : W32) (s : State) :
    SettlesOnly (touches (.release fn tag)) s (execRelease fn tag s) :=
  .command fun _ _ => ite_only
    (ite_only ((dropObserver_only ..).within.andThen (complete_only ..)) (fail_only ..).within)
    (ite_only (modWork_only ..).within (fail_only ..).within)

theorem execReleaseTakesEffect_touches (fn : Fn) (tag : W32) (s : State) :
    SettlesOnly (touches (.releaseTakesEffect fn tag)) s (execReleaseTakesEffect fn tag s) := by
  unfold execReleaseTakesEffect
  extract_lets f
  split
  · exact .quiet
  · exact .ite .quiet (.ite (.of_only ((dropOwner_only ..).within.andThen (complete_only ..))) (.law (fail_only ..)))

theorem execGrant_touches (fn : Fn) (tag : W32) (s : State) : SettlesOnly (touches (.grant fn tag)) s (execGrant fn tag s) := by
  unfold execGrant
  extract_lets g t
  have ht : Only (touches (.grant fn tag)) s t := ite_only (revokeNext_only ..).within (.refl _ _)
  refine .ite (.of_only (ht.andThen (revokeNext_only ..))) (.ite (.of_only ht) (.of_only (ht.trans ?_)))
  refine startCmd_only _ _ _ _ _ rfl fun c u => ?_
  extract_lets owner prev
  split
  · exact (fail_only ..).within
  · exact ite_only (complete_only ..).within (grantEffect_only ..).within

theorem execMeterRead_touches (fn : Fn) (tag : W32) (s : State) :
    SettlesOnly (touches (.meterRead fn tag)) s (execMeterRead fn tag s) :=
  .command fun _ _ => ite_only (fail_only ..).within (ite_only
    (ite_only ((bufWrite_only ..).within.andThen (complete_only ..)) (fail_only ..).within)
    ((bufWrite_only ..).within.andThen (complete_only ..)))

theorem execEpochClose_touches (fn : Fn) (tag : W32) (s : State) :
    SettlesOnly (touches (.epochClose fn tag)) s (execEpochClose fn tag s) := by
  refine .command fun c t => ?_
  extract_lets joined e
  clear_value joined
  split
  · exact (fail_only ..).within
  · refine .andThen ?_ (complete_only ..)
    split
    · exact (joinClose_only ..).within
    · exact ite_only ((closeEpoch_only ..).within.andThen (setBoundary_only _)) (closeEpoch_only ..).within

theorem execSetWallclock_touches (fn : Fn) (tag : W32) (s : State) :
    SettlesOnly (touches (.setWallclock fn tag)) s (execSetWallclock fn tag s) := by
  refine .command fun c t => ?_
  split
  · exact (fail_only ..).within
  · extract_lets fl _ t1 t2
    have h1 : Only (touches (.setWallclock fn tag)) t t1 := ite_only (upd_billing (.refl _ _) rfl) (.refl _ _)
    have h2 : Only (touches (.setWallclock fn tag)) t t2 :=
      ite_only (h1.andThen (setTime_only ..)) (h1.andThen (setBoundary_only _))
    exact h2.andThen (complete_only ..)

end Sys2Proof.Laws

/-! SUPPORT. What the commands and events of twins, resets, the start-up, registers, faults and the lattice can change. -/

namespace Sys2Proof.Laws
open Sys2Proof Sys2Proof.Machine
set_option Elab.async false -- a thread per proof would not fit beside the model in the check's memory

/-! ### Twins -/

theorem execStakeRenewTimer_touches (s : State) : SettlesOnly (touches .stakeRenewTimer) s (execStakeRenewTimer s) :=
  .guard (each_only (upd_plait (.refl _ _) rfl) fun _ _ => (askRenew_only ..).within)

theorem execStakeClaimRetry_touches (port : Port) (part : Part) (s : State) :
    SettlesOnly (touches (.stakeClaimRetry port part)) s (execStakeClaimRetry port part s) := by
  unfold execStakeClaimRetry
  have noted : ∀ g, Only (touches (.stakeClaimRetry port part)) s (modStake port part g s) := fun _ =>
    (modStake_only ..).within
  split
  · exact .guard (ite_only (noted _) (ite_only ((noted _).andThen (claim_only ..)) (.refl _ _)))
  · exact .quiet

theorem execTwinPair_touches (fn : Fn) (tag : W32) (s : State) :
    SettlesOnly (touches (.twinPair fn tag)) s (execTwinPair fn tag s) := by
  refine .command fun c t => ?_
  extract_lets a
  split
  · exact (fail_only ..).within
  · exact ite_only (pairCmd_only ..).within (ite_only (handoffCmd_only ..).within (takeoverCmd_only ..).within)

theorem execTakeoverTimeout_touches (fn : Fn) (tag : W32) (s : State) :
    SettlesOnly (touches (.takeoverTimeout fn tag)) s (execTakeoverTimeout fn tag s) := by
  unfold execTakeoverTimeout
  split
  · exact .quiet
  · exact .guard (complete_only ..).within

theorem execTwinRelease_touches (fn : Fn) (tag : W32) (s : State) :
    SettlesOnly (touches (.twinRelease fn tag)) s (execTwinRelease fn tag s) := by
  refine .command fun c t => ?_
  split
  · exact (fail_only ..).within
  · extract_lets _ t1
    have h1 : Only (touches (.twinRelease fn tag)) t t1 := upd_plait (.refl _ _) rfl
    exact ite_only (h1.andThen (complete_only ..))
      (((h1.andThen (plaitSend_only ..)).andThen (unpair_only _)).andThen (complete_only ..))

theorem execImageReqTimer_touches (s : State) : SettlesOnly (touches .imageReqTimer) s (execImageReqTimer s) :=
  .guard ((upd_plait (.refl _ _) rfl).andThen (plaitSend_only ..))

theorem execHeartbeatPulse_touches (s : State) : SettlesOnly (touches .heartbeatPulse) s (execHeartbeatPulse s) :=
  .guard ((upd_plait (.refl _ _) rfl).andThen (emit_only ..))

theorem execHeartbeatPulseEnd_touches (s : State) : SettlesOnly (touches .heartbeatPulseEnd) s (execHeartbeatPulseEnd s) := by
  unfold execHeartbeatPulseEnd
  split
  · exact .guard ((upd_plait (.refl _ _) rfl).andThen (emit_only ..))
  · exact .quiet
  · exact .quiet

theorem execHeartbeatLost_touches (s : State) : SettlesOnly (touches .heartbeatLost) s (execHeartbeatLost s) := by
  have gone : ∀ v, Only (touches .heartbeatLost) s { s with plait := v } := fun _ => upd_plait (.refl _ _) rfl
  exact .ite (.ite (.of_only ((gone _).andThen (plaitEvent_only ..)))
    (.ite (.of_only ((gone _).andThen (enterTwinLost_only _))) (.of_only (gone _)))) .quiet

/-! ### Resets and the start-up -/

theorem execPowerOnReset_touches (lowNs : Nat) (s : State) :
    SettlesOnly (touches (.powerOnReset lowNs)) s (execPowerOnReset lowNs s) :=
  .ite (.of_only ((upd_pins (powerReset_only ..).within rfl).andThen (nextFree_only _))) (.law (nextFree_only _))

theorem execSupplyDrop_touches (dip : SupplyDip) (s : State) :
    SettlesOnly (touches (.supplyDrop dip)) s (execSupplyDrop dip s) :=
  .ite (.of_only ((upd_pins_straps (powerReset_only ..).within rfl).andThen (nextFree_only _))) (.law (nextFree_only _))

theorem execFuseBitAttemptEnd_touches (took : Bool) (s : State) :
    SettlesOnly (touches (.fuseBitAttemptEnd took)) s (execFuseBitAttemptEnd took s) := by
  unfold execFuseBitAttemptEnd
  split
  · exact .quiet
  · split
    · exact .of_only ((upd_lcy (.refl _ _) rfl).andThen (warmNow_only ..))
    · exact .law (burnAttempt_only ..)

theorem execRootPllLock_touches (s : State) : SettlesOnly (touches .rootPllLock) s (execRootPllLock s) :=
  .guard ((upd_now_clk (.refl _ _) rfl).andThen (enterPhase_only ..))

theorem execJournalPhaseEnd_touches (stuck : List FuseBit) (s : State) :
    SettlesOnly (touches (.journalPhaseEnd stuck)) s (execJournalPhaseEnd stuck s) :=
  .guard (((upd_boot_lcy (.refl _ _) rfl).andThen (drawKey_only _)).andThen (enterPhase_only ..))

theorem execScrubPhaseEnd_touches (s : State) : SettlesOnly (touches .scrubPhaseEnd) s (execScrubPhaseEnd s) := by
  have scrubbed : Only (touches .scrubPhaseEnd) s (scrub s) := (scrub_only _).within
  refine .guard ?_
  split
  · exact scrubbed.andThen (enterPhase_only ..)
  · exact (upd_hosts scrubbed rfl).andThen (enterPhase_only ..)
  · exact (scrubbed.andThen (enterPhase_only ..)).andThen (startJunior_only _)
  · exact (scrubbed.andThen (enterPhase_only ..)).andThen (startJunior_only _)

theorem execBootFail_touches (s : State) : SettlesOnly (touches .bootFail) s (execBootFail s) := by
  have frozen : ∀ b, Only (touches .bootFail) s { s with boot := b } := fun _ => upd_boot (.refl _ _) rfl
  refine .unless ?_
  split
  · exact frozen _
  · exact frozen _
  · exact frozen _
  · exact ite_only ((frozen _).andThen (nextFree_only _)) (.refl _ _)
  all_goals exact .refl _ _

theorem execReadyEntry_touches (s : State) : SettlesOnly (touches .readyEntry) s (execReadyEntry s) := by
  have served : ∀ v, Only (touches .readyEntry) s (signalPfs 0 (each (List.range 64) partReady
      (each (List.range 68) (fun f => modFn f fun x => { x with window := [] }) (enterPhase .ready { s with plait := v })))) :=
    fun _ => (each_only (each_only ((upd_plait (.refl _ _) rfl).andThen (enterPhase_only ..)) fun _ _ =>
      (modFn_only ..).within) fun _ _ => (partReady_only ..).within).andThen (signalPfs_only ..)
  exact .guard ((ite_only (each_only (served _) fun _ _ => (setEvent_only ..).within) (served _)).andThen (readyHello_only _))

theorem execHostPortReset_touches (port : HostPort) (cause : PortResetCause) (s : State) :
    SettlesOnly (touches (.hostPortReset port cause)) s (execHostPortReset port cause s) := by
  unfold execHostPortReset
  extract_lets n _ t
  have ht : Only (touches (.hostPortReset port cause)) s t := ite_only (upd_pins (.refl _ _) rfl) (.refl _ _)
  exact .ite (.of_only (ht.andThen (resetPort_only ..))) (.ite (.of_only (ht.andThen (resetPort_only ..))) (.of_only ht))

theorem execVfEnable_touches (port : HostPort) (numVfs : Nat) (s : State) :
    SettlesOnly (touches (.vfEnable port numVfs)) s (execVfEnable port numVfs s) :=
  .host fun _ => ite_only (.refl _ _)
    ((each_only (.refl _ _) fun _ _ => (resetSession_only ..).within).andThen (modHost_only ..))

theorem execSerdesPllLoss_touches (pll : Pll) (s : State) :
    SettlesOnly (touches (.serdesPllLoss pll)) s (execSerdesPllLoss pll s) := by
  have lost : ∀ v c scope inst, Only (touches (.serdesPllLoss pll)) s (raiseErr c scope inst 0 0 0 { s with clk := v }) :=
    fun _ _ _ _ => (upd_clk (.refl _ _) rfl).andThen (raiseErr_only ..)
  cases pll with
  | border n => exact .of_only (ite_only ((lost ..).andThen (resetPort_only ..)) (lost ..))
  | nsl n => exact .of_only (ite_only ((lost ..).andThen (portDown_only ..)) (lost ..))
  | wale => exact .of_only ((lost ..).andThen (waleDown_only _))
  | plait => exact .of_only (ite_only ((lost ..).andThen (plaitDown_only ..)) (lost ..))

theorem execSerdesPllRelock_touches (pll : Pll) (s : State) :
    SettlesOnly (touches (.serdesPllRelock pll)) s (execSerdesPllRelock pll s) := by
  have back : ∀ v, Only (touches (.serdesPllRelock pll)) s { s with clk := v } := fun _ => upd_clk (.refl _ _) rfl
  cases pll with
  | border n => exact .unless (back _)
  | nsl n => exact .unless ((back _).andThen (restartLink_only ..))
  | wale => exact .unless (back _)
  | plait => exact .unless ((back _).andThen (restartLink_only ..))

theorem execPartitionResetComplete_touches (part : Part) (s : State) :
    SettlesOnly (touches (.partitionResetComplete part)) s (execPartitionResetComplete part s) :=
  .guard (((((((resetWeave_only ..).within.andThen (resetLattice_only ..)).andThen (resetCuts_only ..)).andThen
    (resetHang_only ..)).andThen (resetCounters_only ..)).andThen (resetRuns_only ..)).andThen (modPart_only ..))

/-! ### Registers and the test access port -/

theorem execRegisterWrite_touches (fn : Fn) (offset : RegAt) (value : W32) (enables : BitVec 4) (s : State) :
    SettlesOnly (touches (.registerWrite fn offset value enables)) s (execRegisterWrite fn offset value enables s) :=
  .host fun _ => by
    split
    · exact (writeReg_only ..).within
    · exact (writeReg_only ..).within.andThen (writeSpan_only ..)
    · exact (writeMsixControl_only ..).within

theorem execMemAccess_touches (dr : BitVec 128) (s : State) :
    SettlesOnly (touches (.memAccess dr)) s (execMemAccess dr s) :=
  .tap fun _ => ((selectIr_only ..).within.andThen (shiftOut_only ..)).trans
    (updateDr_only _ _ _ _ rfl (fun _ => (memBusy_only _).within) fun _ => (memAccess_only ..).within)

theorem execRegAccess_touches (dr : BitVec 64) (s : State) :
    SettlesOnly (touches (.regAccess dr)) s (execRegAccess dr s) :=
  .tap fun _ => ((selectIr_only ..).within.andThen (shiftOut_only ..)).trans
    (updateDr_only _ _ _ _ rfl (fun _ => (regBusy_only _).within) fun _ => (regAccess_only ..).within)

theorem execUnlockChallenge_touches (s : State) : SettlesOnly (touches .unlockChallenge) s (execUnlockChallenge s) :=
  .tap fun _ => ((upd_tap (selectIr_only ..).within rfl).andThen (nextFree_only _)).andThen (shiftOut_only ..)

theorem execUnlockResponse_touches (dr : List Byte) (s : State) :
    SettlesOnly (touches (.unlockResponse dr)) s (execUnlockResponse dr s) :=
  .tap fun t =>
    have voted : Only (touches (.unlockResponse dr)) t (unlockVerdict (selectIr 0x31 t)) :=
      (selectIr_only ..).within.andThen (unlockVerdict_only _)
    ite_only voted ((upd_tap voted rfl).andThen (nextFree_only _))

theorem execNonceExpiry_touches (s : State) : SettlesOnly (touches .nonceExpiry) s (execNonceExpiry s) := by
  refine .of_only ?_
  split
  · exact ite_only (upd_tap (.refl _ _) rfl) (.refl _ _)
  · exact .refl _ _

/-! ### Faults -/

theorem execPatrolScrub_touches (word : Nat) (found : ScrubFind) (s : State) :
    SettlesOnly (touches (.patrolScrub word found)) s (execPatrolScrub word found s) := by
  unfold execPatrolScrub
  extract_lets at_ find
  clear_value find
  refine .of_only ?_
  split
  · exact (spoilItem_only ..).within.andThen (uncorrectableWord_only ..)
  · exact (upd_mem (.refl _ _) rfl).andThen (correctedWord_only ..)
  · exact .refl _ _

theorem execThermalTrip_touches (s : State) : SettlesOnly (touches .thermalTrip) s (execThermalTrip s) :=
  .of_only (ite_only ((upd_err (.refl _ _) rfl).andThen (raiseErr_only ..)) (.refl _ _))

/-! ### The lattice -/

theorem execHoopInAssert_touches (port : Port) (heldNs : Nat) (s : State) :
    SettlesOnly (touches (.hoopInAssert port heldNs)) s (execHoopInAssert port heldNs s) := by
  unfold execHoopInAssert
  extract_lets n already t
  have ht : Only (touches (.hoopInAssert port heldNs)) s t := (modPort_only ..).within.andThen (takeInput_only ..)
  exact .of_only (ite_only (ht.andThen (fireAll_only ..)) ht)

theorem execXtrigEdge_touches (pin : Fin 8) (rising : Bool) (heldNs : Nat) (s : State) :
    SettlesOnly (touches (.xtrigEdge pin rising heldNs)) s (execXtrigEdge pin rising heldNs s) := by
  unfold execXtrigEdge
  extract_lets j lvl _ t hit
  have ht : Only (touches (.xtrigEdge pin rising heldNs)) s t := (upd_pins (.refl _ _) rfl).andThen (takeInput_only ..)
  exact .of_only (ite_only (each_only ht fun _ _ => (fire_only ..).within) ht)

theorem execStageTimeout_touches (part : Part) (s : State) :
    SettlesOnly (touches (.stageTimeout part)) s (execStageTimeout part s) :=
  .guard ((modPart_only ..).within.andThen (triggerRec_only ..))

theorem execPartitionWatchdogExpiry_touches (part : Part) (s : State) :
    SettlesOnly (touches (.partitionWatchdogExpiry part)) s (execPartitionWatchdogExpiry part s) :=
  .guard ((((modPart_only ..).within.andThen (hubEvent_only ..)).andThen (firedReport_only ..)).andThen (fire_only ..))

theorem execHoopOutPulseEnd_touches (port : Port) (s : State) :
    SettlesOnly (touches (.hoopOutPulseEnd port)) s (execHoopOutPulseEnd port s) := by
  unfold execHoopOutPulseEnd
  split
  · exact .guard ((modPort_only ..).within.andThen (emit_only ..))
  · exact .quiet

theorem execHoopReleaseGapEnd_touches (port : Port) (s : State) :
    SettlesOnly (touches (.hoopReleaseGapEnd port)) s (execHoopReleaseGapEnd port s) := by
  unfold execHoopReleaseGapEnd
  split
  · exact .guard (ite_only ((modPort_only ..).within.andThen (assertHoop_only ..)) (modPort_only ..).within)
  · exact .quiet

theorem execXtrigPulseEnd_touches (pin : Fin 8) (s : State) :
    SettlesOnly (touches (.xtrigPulseEnd pin)) s (execXtrigPulseEnd pin s) := by
  unfold execXtrigPulseEnd
  extract_lets j
  split
  · exact .guard ((setXtrig_only ..).within.andThen (driveXtrig_only ..))
  · exact .guard (ite_only (startXtrig_only ..).within (setXtrig_only ..).within)
  · exact .quiet

end Sys2Proof.Laws

/-! SUPPORT. Every command changes at most the fields that `touches` names for it, until the lattice settles. -/

namespace Sys2Proof.Laws
open Sys2Proof Sys2Proof.Machine
set_option Elab.async false -- a thread per proof would not fit beside the model in the check's memory

/-- What a command can do before the lattice settles: change the fields that `touches` names for it. -/
theorem exec_touches (i : Instr) (s : State) : SettlesOnly (touches i) s (exec i s) := by
  cases i with
  -- Meanings that branch on what they find, or are made of several parts.
  | powerOnReset lowNs => exact execPowerOnReset_touches lowNs s
  | supplyDrop dip => exact execSupplyDrop_touches dip s
  | hostPortReset port cause => exact execHostPortReset_touches port cause s
  | d0Return fn => exact execD0Return_touches fn s
  | rootPllLock => exact execRootPllLock_touches s
  | journalPhaseEnd stuck => exact execJournalPhaseEnd_touches stuck s
  | scrubPhaseEnd => exact execScrubPhaseEnd_touches s
  | bootFail => exact execBootFail_touches s
  | imageCheckDone => exact execImageCheckDone_touches s
  | dramTrainingDone ok => exact execDramTrainingDone_touches ok s
  | enumerationDone port => exact execEnumerationDone_touches port s
  | readyEntry => exact execReadyEntry_touches s
  | serdesPllLoss pll => exact execSerdesPllLoss_touches pll s
  | serdesPllRelock pll => exact execSerdesPllRelock_touches pll s
  | descriptorFetch fn desc error => exact execDescriptorFetch_touches fn desc error s
  | coalesceTimeout fn => exact execCoalesceTimeout_touches fn s
  | hostDmaError fn tag => exact execHostDmaError_touches fn tag s
  | claim fn tag => exact execClaim_touches fn tag s
  | release fn tag => exact execRelease_touches fn tag s
  | releaseTakesEffect fn tag => exact execReleaseTakesEffect_touches fn tag s
  | observe fn tag => exact execObserve_touches fn tag s
  | grant fn tag => exact execGrant_touches fn tag s
  | halt fn tag => exact execHalt_touches fn tag s
  | resume fn tag => exact execResume_touches fn tag s
  | step fn tag => exact execStep_touches fn tag s
  | cut fn tag => exact execCut_touches fn tag s
  | dumpCut fn tag => exact execDumpCut_touches fn tag s
  | dumpRegion fn tag => exact execDumpRegion_touches fn tag s
  | releaseCut fn tag => exact execReleaseCut_touches fn tag s
  | cutFreed part cut => exact execCutFreed_touches part cut s
  | traceConfig fn tag => exact execTraceConfig_touches fn tag s
  | traceFlush fn tag poison => exact execTraceFlush_touches fn tag poison s
  | traceFlushDrained fn tag => exact execTraceFlushDrained_touches fn tag s
  | counterConfig fn tag data => exact execCounterConfig_touches fn tag data s
  | counterLatch fn tag => exact execCounterLatch_touches fn tag s
  | loadModel fn tag data => exact execLoadModel_touches fn tag data s
  | runProgram fn tag => exact execRunProgram_touches fn tag s
  | stopProgram fn tag => exact execStopProgram_touches fn tag s
  | reweave fn tag data => exact execReweave_touches fn tag data s
  | reweaveCommit fn tag => exact execReweaveCommit_touches fn tag s
  | weftSwitch part => exact execWeftSwitch_touches part s
  | commitSettleTimeout fn tag => exact execCommitSettleTimeout_touches fn tag s
  | watchApplyEnd part => exact execWatchApplyEnd_touches part s
  | warpSettle => exact execWarpSettle_touches s
  | warpCommitDone => exact execWarpCommitDone_touches s
  | hangReport fn tag poison => exact execHangReport_touches fn tag poison s
  | meterRead fn tag => exact execMeterRead_touches fn tag s
  | epochClose fn tag => exact execEpochClose_touches fn tag s
  | setWallclock fn tag => exact execSetWallclock_touches fn tag s
  | twinPair fn tag => exact execTwinPair_touches fn tag s
  | takeoverTimeout fn tag => exact execTakeoverTimeout_touches fn tag s
  | twinRelease fn tag => exact execTwinRelease_touches fn tag s
  | lifecycleAdvance fn tag => exact execLifecycleAdvance_touches fn tag s
  | fuseBitAttemptEnd took => exact execFuseBitAttemptEnd_touches took s
  | partitionResetComplete part => exact execPartitionResetComplete_touches part s
  | registerWrite fn offset value enables => exact execRegisterWrite_touches fn offset value enables s
  | memAccess dr => exact execMemAccess_touches dr s
  | regAccess dr => exact execRegAccess_touches dr s
  | unlockChallenge => exact execUnlockChallenge_touches s
  | unlockResponse dr => exact execUnlockResponse_touches dr s
  | nonceExpiry => exact execNonceExpiry_touches s
  | blockLock link lanes => exact execBlockLock_touches link lanes s
  | lockLoss link lane => exact execLockLoss_touches link lane s
  | trainTimeout link => exact execTrainTimeout_touches link s
  | downPeriodEnd link => exact execDownPeriodEnd_touches link s
  | nak link hdr seq => exact execNak_touches link hdr seq s
  | ackTimeoutReplay link => exact execAckTimeoutReplay_touches link s
  | timesyncExchangeTimeout link => exact execTimesyncExchangeTimeout_touches link s
  | detachAckSend port => exact execDetachAckSend_touches port s
  | dieResponse port m => exact execDieResponse_touches port m s
  | responseTimeout port ch => exact execResponseTimeout_touches port ch s
  | hoopInAssert port heldNs => exact execHoopInAssert_touches port heldNs s
  | xtrigEdge pin rising heldNs => exact execXtrigEdge_touches pin rising heldNs s
  | stageTimeout part => exact execStageTimeout_touches part s
  | partitionWatchdogExpiry part => exact execPartitionWatchdogExpiry_touches part s
  | hoopOutPulseEnd port => exact execHoopOutPulseEnd_touches port s
  | hoopReleaseGapEnd port => exact execHoopReleaseGapEnd_touches port s
  | xtrigPulseEnd pin => exact execXtrigPulseEnd_touches pin s
  | haltTimeoutExpiry unit => exact execHaltTimeoutExpiry_touches unit s
  | stepTimeoutExpiry unit => exact execStepTimeoutExpiry_touches unit s
  | proofDone proof => exact execProofDone_touches proof s
  | splintEmit poison => exact execSplintEmit_touches poison s
  | exportPortTimeout fn tag => exact execExportPortTimeout_touches fn tag s
  | hangEventProcess => exact execHangEventProcess_touches s
  | hangScan part => exact execHangScan_touches part s
  | hangScanEnd part poison => exact execHangScanEnd_touches part poison s
  | traceFrameTimeout part => exact execTraceFrameTimeout_touches part s
  | traceFrameSend poison => exact execTraceFrameSend_touches poison s
  | gapEnd part dram => exact execGapEnd_touches part dram s
  | spillReturn part => exact execSpillReturn_touches part s
  | deferredLatchPoint part => exact execDeferredLatchPoint_touches part s
  | counterConfigWaitExpiry part => exact execCounterConfigWaitExpiry_touches part s
  | osierWord core cycles poison tdo => exact execOsierWord_touches core cycles poison tdo s
  | sliceLimit core => exact execSliceLimit_touches core s
  | hostWriteError run => exact execHostWriteError_touches run s
  | coderAnswerRead part poison => exact execCoderAnswerRead_touches part poison s
  | codingStall part => exact execCodingStall_touches part s
  | imageReqTimer => exact execImageReqTimer_touches s
  | plaitTimesyncReq hdr exch t1 => exact execPlaitTimesyncReq_touches hdr exch t1 s
  | heartbeatPulse => exact execHeartbeatPulse_touches s
  | heartbeatLost => exact execHeartbeatLost_touches s
  | stakeRenewTimer => exact execStakeRenewTimer_touches s
  | stakeClaimRetry port part => exact execStakeClaimRetry_touches port part s
  | patrolScrub word found => exact execPatrolScrub_touches word found s
  | thermalTrip => exact execThermalTrip_touches s
  | vfEnable port numVfs => exact execVfEnable_touches port numVfs s
  | imageFetchEnd port bytes error => exact execImageFetchEnd_touches port bytes error s
  | reweaveCheckEnd fn tag => exact execReweaveCheckEnd_touches fn tag s
  | heartbeatPulseEnd => exact execHeartbeatPulseEnd_touches s
  | adaptorOperationTimeout => exact execAdaptorOperationTimeout_touches s
  -- The rest is one operation or a few in a row, under a condition, a host's write or an instruction of the TAP.
  | porstNRise => exact .unless (upd_pins_straps (.refl _ _) rfl)
  | clockFault => exact .guard (upd_clk_straps (powerReset_only ..).within rfl)
  | stakeWatchdogExpiry => exact .guard ((raiseErr_only ..).within.andThen (warmReset_only ..))
  | sessionReset => exact .guard (resetSession_only ..).within
  | pfFunctionReset => exact .guard (resetPf_only ..).within
  | sessionResetDrainEnd | d3hotEntry => exact .guard (modFn_only ..).within
  | fusePhaseEnd => exact .guard ((upd_lcy (.refl _ _) rfl).andThen (enterPhase_only ..))
  | weaLoadStart => exact .host fun _ => (loadStart_only ..).within
  | weaLoadAbort => exact .host fun _ => (loadAbort_only ..).within
  | doorbell => exact .host fun _ => (doorbell_only ..).within
  | cplHeadWrite => exact .host fun _ => (cplHeadWrite_only ..).within
  | ringEnable => exact .host fun _ => (ringEnable_only ..).within
  | ringDisable => exact .host fun _ => (ringDisable_only ..).within
  | nop => exact .command fun _ _ => (complete_only ..).within
  | setBreak | clearBreak | clearWatch | readUnitRegs => exact .checkedCommand fun _ _ => sent_only
  | setWatch | writeUnitRegs => exact .checkedCommand fun _ _ => (bumpAlways_only ..).within.trans sent_only
  | readUnitMem => exact .checkedCommand fun _ _ => sentAll_only
  | writeUnitMem => exact .checkedCommand fun _ _ => (bumpAlways_only ..).within.trans sentAll_only
  | epochAutoClose => exact .law (autoClose_only ..)
  | hubCtrlWarmReset => exact .host fun _ => ite_only (warmReset_only ..).within (.refl _ _)
  | partitionReset => exact .host fun _ => ite_only (modPart_only ..).within (.refl _ _)
  | retrain => exact .host fun _ => ite_only (startRetrain_only ..).within (.refl _ _)
  | forceDown => exact .host fun _ => ite_only (forceDown_only ..).within (.refl _ _)
  | scanCtrlWrite => exact .host fun _ => ite_only (scanWrite_only ..).within (.refl _ _)
  | errInject => exact .host fun _ => (injectWrite_only ..).within
  | registerReadClear => exact .of_only (each_only (.refl _ _) fun _ _ => (barRead_only ..).within)
  | latchingRead | memWindowRead => exact .law (barRead_only ..)
  | idcode => exact .of_only ((selectIr_only ..).within.andThen (shiftOut_only ..))
  | extest | samplePreload => exact .of_only ((upd_tap (selectIr_only ..).within rfl).andThen (tapOut_only ..))
  | bypass => exact .guard ((selectIr_only ..).within.andThen (shiftBypass_only ..))
  | lcyQuery => exact .of_only (((selectIr_only ..).within.andThen (shiftOut_only ..)).andThen (shiftOut_only ..))
  | lcyAdvance => exact .tap fun _ => (selectIr_only ..).within.andThen (tapAdvance_only ..)
  | fuseKeyProg =>
    exact .tap fun _ => ite_only (selectIr_only ..).within ((selectIr_only ..).within.andThen (askBurn_only ..))
  | warmReset => exact .tap fun _ => (selectIr_only ..).within.andThen (warmReset_only ..)
  | unlockVerdict => exact .law (unlockVerdict_only ..)
  | tsBlockReceive => exact .law (takeTs_only ..)
  | flitReceive =>
    exact .ite .quiet (.ite (.law (badFlit_only ..)) (.ite (.law (takeCtl_only ..)) (.law (takeSeq_only ..))))
  | replayStart => exact .of_only ((takeHdr_only ..).within.andThen (takeReplayStart_only ..))
  | linkControlIdle => exact .law (takeHdr_only ..)
  | config => exact .of_only ((takeHdr_only ..).within.andThen (takeConfig_only ..))
  | timesyncTimer => exact .guard (startExchange_only ..).within
  | timesyncRsp => exact .of_only ((takeHdr_only ..).within.andThen (takeTimesyncRsp_only ..))
  | linkResumeFlit => exact .of_only ((takeHdr_only ..).within.andThen (takeResume_only ..))
  | detachReq => exact .of_only ((takeHdr_only ..).within.andThen (takeDetach_only ..))
  | haltRecord => exact .law (takeHaltRecord_only ..)
  | eventBatch => exact .law (takeEventBatch_only ..)
  | counterDelta => exact .law (takeDelta_only ..)
  | dieLoss => exact .law (takeDieLoss_only ..)
  | keepaliveTimer => exact .guard (sendEther_only ..).within
  | timesyncRecordTimer => exact .guard (timesyncRec_only ..).within
  | waleLinkUp => exact .unless (upd_wale (.refl _ _) rfl)
  | waleLinkDown => exact .law (waleDown_only ..)
  | sleepWake => exact .law (modRun_only ..)
  | plaitLinkDown => exact .guard (plaitDown_only ..).within
  | haltFwd => exact .guard (takeHaltFwd_only ..).within
  | hoopEn => exact .guard (takeHoopEn_only ..).within
  | hoopEnAck => exact .guard (takeHoopEnAck_only ..).within
  | stakeNote => exact .guard (takeStakeNote_only ..).within
  | hello => exact .guard (takeHello_only ..).within
  | stakeView => exact .guard (takeStakeView_only ..).within
  | fastView => exact .guard (takeFastView_only ..).within
  | handoff => exact .guard (takeHandoff_only ..).within
  | handoffDone => exact .guard (takeHandoffDone_only ..).within
  | unpair => exact .guard (takeUnpair_only ..).within
  | imageReq => exact .guard (takeImageReq_only ..).within
  | imageData => exact .guard (takeImageData_only ..).within
  | imageNone => exact .quiet
  | heartbeatAssert => exact .guard (upd_plait (.refl _ _) rfl)
  | twinAbsentTimeout => exact .guard (enterTwinLost_only ..).within
  | firmwareStop => exact .law (stopFirmware_only ..)
  | perstNRelease | supplyMonitorRelease => exact .of_only (upd_pins (.refl _ _) rfl)
  | borderLinkUp => exact .guard (upd_boot (.refl _ _) rfl)
  | alignBlockReceive => exact .law (takeAlign_only ..)
  | thermalRearm => exact .of_only (upd_err (.refl _ _) rfl)

/-- The timebase is the tick of ROOT: besides the lock of ROOT only the resets that start from nothing name it. -/
theorem now_untouched (i : Instr) (hl : i ≠ .rootPllLock) (hp : powersOn i = false) : (touches i).contains .now = false := by
  cases i with
  | rootPllLock => exact absurd rfl hl
  | powerOnReset | supplyDrop | clockFault => cases hp
  | _ => rfl

theorem exec_now {i : Instr} {s t : State} (h : exec i s = .next t) (hl : i ≠ .rootPllLock) (hp : powersOn i = false) :
    t.now = s.now := by
  obtain ⟨u, hu, k⟩ := exec_touches i s
  obtain rfl : settle u = t := Host.Outcome.next.inj (hu.symm.trans h)
  rw [settle_now]
  exact k.same .now (by simpa using now_untouched i hl hp)

/-- Settles O8: the lock of ROOT sets the timebase to zero, a tick counts one, and no other command names the timebase. -/
theorem timebaseCounts : Obligations.TimebaseCounts := by
  unfold Obligations.TimebaseCounts
  refine ⟨fun s hp hr hg hl => ?_, fun i s t h hi hp => exec_now h hi hp, fun s t hq hl h => ?_⟩
  · refine Runs.of_done (execRootPllLock_locks hp hr hg hl) ⟨?_, ?_⟩
    · rw [settle_now]
    · rw [settle_clk]
  · rw [step_idle hq] at h
    cases h
    exact tick_now hl

end Sys2Proof.Laws

/-!
SUPPORT. What of the lifecycle lasts: the fuses, what was sensed of them, and the count of rejected unlock responses with
its lockout. Only program pulses, the phases that sense, unlock verdicts and the resets that start from nothing change it;
a fuse then only burns, and but for those resets the count only rises and the lockout stays.
-/

namespace Sys2Proof.Laws
open Sys2Proof Sys2Proof.Machine
set_option Elab.async false -- a thread per proof would not fit beside the model in the check's memory

/-! ### Fuses only burn (R139) -/

theorem burnsTo_refl (f : Fuses) : f.BurnsTo f where
  a := BitVec.and_self
  b := BitVec.and_self
  c := BitVec.and_self
  journal := BitVec.and_self
  imgKey := BitVec.and_self
  tapKey := BitVec.and_self
  imgLocked := id
  tapLocked := id

/-- The bits of `u` that `v` has, `w` has too. -/
theorem and_eq_left_trans {n : Nat} {u v w : BitVec n} (h : u &&& v = u) (k : v &&& w = v) : u &&& w = u := by
  rw [← h, BitVec.and_assoc, k]

theorem burnsTo_trans {f g h : Fuses} (x : f.BurnsTo g) (y : g.BurnsTo h) : f.BurnsTo h where
  a := and_eq_left_trans x.a y.a
  b := and_eq_left_trans x.b y.b
  c := and_eq_left_trans x.c y.c
  journal := and_eq_left_trans x.journal y.journal
  imgKey := and_eq_left_trans x.imgKey y.imgKey
  tapKey := and_eq_left_trans x.tapKey y.tapKey
  imgLocked := y.imgLocked ∘ x.imgLocked
  tapLocked := y.tapLocked ∘ x.tapLocked

theorem and_or_eq_left {n : Nat} (u v : BitVec n) : u &&& (u ||| v) = u := by
  ext i hi
  simp only [BitVec.getElem_and, BitVec.getElem_or]
  cases u[i] <;> rfl

/-- A pulse sets one bit of one word, or one lock. -/
theorem burnsTo_burn (f : Fuses) (x : FuseBit) : f.BurnsTo (f.burn x) := by
  have stay := burnsTo_refl f
  cases x with
  | a n => exact { stay with a := and_or_eq_left .. }
  | b n => exact { stay with b := and_or_eq_left .. }
  | c n => exact { stay with c := and_or_eq_left .. }
  | journal n => exact { stay with journal := and_or_eq_left .. }
  | imgKey n => exact { stay with imgKey := and_or_eq_left .. }
  | tapKey n => exact { stay with tapKey := and_or_eq_left .. }
  | imgLocked => exact { stay with imgLocked := fun _ => rfl }
  | tapLocked => exact { stay with tapLocked := fun _ => rfl }

theorem burnsTo_foldl {α : Type} {g : Fuses → α → Fuses} (k : ∀ (f : Fuses) x, f.BurnsTo (g f x)) (l : List α)
    (f : Fuses) : f.BurnsTo (l.foldl g f) := by
  induction l generalizing f with
  | nil => exact burnsTo_refl f
  | cons x l ih => exact burnsTo_trans (k f x) (ih (g f x))

theorem burnsTo_burnAll (f : Fuses) (stuck l : List FuseBit) : f.BurnsTo (f.burnAll stuck l) := by
  refine burnsTo_foldl (fun g x => ?_) l f
  split
  · exact burnsTo_refl g
  · exact burnsTo_burn g x

theorem burnsTo_transition (f : Fuses) (stuck : List FuseBit) (t : Lifecycle) : f.BurnsTo (f.transition stuck t) := by
  have first := burnsTo_burnAll f stuck (f.burnList t)
  dsimp only [Fuses.transition]
  split
  · exact burnsTo_trans first (burnsTo_burnAll ..)
  · exact first

theorem burnsTo_resume (f : Fuses) (stuck : List FuseBit) : f.BurnsTo (f.resume stuck) := by
  unfold Fuses.resume
  split
  · exact burnsTo_refl f
  · refine burnsTo_foldl (fun g t => ?_) targets f
    split
    · exact burnsTo_transition g stuck t
    · exact burnsTo_refl g

/-- A reset that cuts a pulse leaves its bit burned or not. -/
theorem burnsTo_cutFuses (s : State) : s.lcy.fuses.BurnsTo s.cutFuses := by
  unfold State.cutFuses
  split
  · split
    · exact burnsTo_burn ..
    · exact burnsTo_refl _
  · exact burnsTo_refl _

theorem burnsTo_pulsed (b : Burn) (took : Bool) (f : Fuses) : f.BurnsTo (pulsed b took f) := by
  unfold pulsed
  split
  · cases b.todo.head? with
    | none => exact burnsTo_refl f
    | some x => exact burnsTo_burn f x
  · exact burnsTo_refl f

/-! ### What lasts -/

/-- The fuses, what was sensed of them, the count of rejected responses and the lockout. -/
structure Lasting where
  fuses : Fuses
  sensed : Fuses
  fails : BitVec 2
  lockout : Bool

/-- What of a state's lifecycle lasts. -/
def lasting (s : State) : Lasting :=
  { fuses := s.lcy.fuses, sensed := s.lcy.sensed, fails := s.lcy.fails, lockout := s.lcy.lockout }

theorem lasting_of_only {l : List Fld} {s t : State} (h : Only l s t) (k : (!l.contains .lcy) = true := by rfl) :
    lasting t = lasting s := by
  have same : t.lcy = s.lcy := h.same .lcy (by simpa using k)
  unfold lasting
  rw [same]

theorem settle_lcy (s : State) : (settle s).lcy = s.lcy := (settle_only s).same .lcy (by decide)
theorem settle_tap (s : State) : (settle s).tap = s.tap := (settle_only s).same .tap (by decide)
theorem settle_lasting (s : State) : lasting (settle s) = lasting s := lasting_of_only (settle_only s)

theorem ite_lasting {c : Prop} [Decidable c] {s t u : State} (ht : lasting t = lasting s) (hu : lasting u = lasting s) :
    lasting (if c then t else u) = lasting s := by
  split
  · exact ht
  · exact hu

/-! ### Burns -/

theorem startBurn_lasting (b : Burn) (s : State) : lasting (startBurn b s) = lasting s := rfl

theorem askBurn_lasting (b : Burn) (s : State) : lasting (askBurn b s) = lasting s := by
  unfold askBurn
  split
  · rfl
  · split
    · rfl
    · exact ite_lasting rfl rfl
    · rfl

theorem burnResult_lasting (b : Burn) (s : State) : lasting (burnResult b s) = lasting s := by
  unfold burnResult
  dsimp only
  split
  · exact (lasting_of_only (complete_only ..) :)
  · rfl
  · rfl

/-- The burn that ended makes room for those that waited. -/
theorem burnDone_lasting (b : Burn) (s : State) : lasting (burnDone b s) = lasting s :=
  (each_eq lasting askBurn_lasting ..).trans (burnResult_lasting b s)

theorem nextBit_lasting (b : Burn) (left : Bool) (s : State) : lasting (nextBit b left s) = lasting s := by
  unfold nextBit
  split
  · rfl
  · exact ite_lasting (burnDone_lasting ..) (startBurn_lasting ..)

/-- The state in which a pulse that took has been verified. -/
def afterPulse (f : Fuses) (s : State) : State := { s with lcy := { s.lcy with fuses := f, sensed := f } }

theorem burnAttempt_of_nil {b : Burn} {took : Bool} {s : State} (h : b.todo = []) : burnAttempt b took s = burnDone b s := by
  unfold burnAttempt
  rw [h]

theorem burnAttempt_took {b : Burn} {x : FuseBit} {rest : List FuseBit} {s : State} (h : b.todo = x :: rest) :
    burnAttempt b true s = nextBit b false (afterPulse (s.lcy.fuses.burn x) s) := by
  unfold burnAttempt
  rw [h]
  rfl

theorem burnAttempt_again {b : Burn} {x : FuseBit} {rest : List FuseBit} {s : State} (h : b.todo = x :: rest)
    (k : b.attempts < 2) : burnAttempt b false s = startBurn { b with attempts := b.attempts + 1 } s := by
  unfold burnAttempt
  rw [h]
  exact if_pos (show b.attempts + 1 < 3 by omega)

theorem burnAttempt_left {b : Burn} {x : FuseBit} {rest : List FuseBit} {s : State} (h : b.todo = x :: rest)
    (k : 2 ≤ b.attempts) : burnAttempt b false s = nextBit b true s := by
  unfold burnAttempt
  rw [h]
  exact if_neg (show ¬ b.attempts + 1 < 3 by omega)

/-! ### Operations that resets and registers share -/

theorem modFn_lasting (f : Nat) (g : FnSt → FnSt) (s : State) : lasting (modFn f g s) = lasting s :=
  lasting_of_only (modFn_only ..)

theorem modPart_lasting (p : Nat) (g : PartSt → PartSt) (s : State) : lasting (modPart p g s) = lasting s :=
  lasting_of_only (modPart_only ..)

theorem modPort_lasting (n : Nat) (g : PortSt → PortSt) (s : State) : lasting (modPort n g s) = lasting s :=
  lasting_of_only (modPort_only ..)

theorem modHost_lasting (n : Nat) (g : HostSt → HostSt) (s : State) : lasting (modHost n g s) = lasting s :=
  lasting_of_only (modHost_only ..)

theorem noteOpenLab_lasting (s : State) : lasting (noteOpenLab s) = lasting s := lasting_of_only (noteOpenLab_only s)

theorem raiseErr_lasting (cls scope inst addr detail action : Nat) (s : State) :
    lasting (raiseErr cls scope inst addr detail action s) = lasting s := lasting_of_only (raiseErr_only ..)

/-! ### Resets of sessions, functions and ports -/

theorem fenceFn_lasting (f : Nat) (s : State) : lasting (fenceFn f s) = lasting s := by
  unfold fenceFn
  extract_lets rest keep halts o
  refine (modFn_lasting ..).trans ((modFn_lasting ..).trans ?_)
  refine (each_eq lasting (fun _ _ => modFn_lasting ..) ..).trans ?_
  refine (each_eq lasting (fun _ _ => modPart_lasting ..) ..).trans ?_
  exact each_eq lasting (fun _ _ => modPort_lasting ..) ..

theorem resetSession_lasting (n cause : Nat) (s : State) : lasting (resetSession n cause s) = lasting s := by
  have fenced : Only latticeFields (fenceFn n s) (resetSession n cause s) :=
    ((((upd_slath (endRoles_only ..).within rfl).andThen (clearDeficits_only _)).andThen (releaseOwned_only ..)).andThen
      (endRuns_only ..)).andThen (clearFn_only ..)
  exact (lasting_of_only fenced).trans (fenceFn_lasting n s)

theorem resetPf_lasting (port cause : Nat) (s : State) : lasting (resetPf port cause s) = lasting s := by
  unfold resetPf
  rw [noteOpenLab_lasting, lasting_of_only (clearFn_only ..), modHost_lasting,
    lasting_of_only (resetLoad_only ..), each_eq lasting fun n t => resetSession_lasting n cause t, fenceFn_lasting]

theorem resetPort_lasting (port : Nat) (s : State) : lasting (resetPort port s) = lasting s :=
  (raiseErr_lasting ..).trans (resetPf_lasting port 0x21 s)

/-! ### Warm resets (R113) -/

theorem warmNow_lasting (cause : BitVec 6) (s : State) : lasting (warmNow cause s) = lasting s :=
  calc lasting (warmNow cause s)
    _ = lasting (releaseOutputs (abortAll s)) := noteOpenLab_lasting _
    _ = lasting s := lasting_of_only (beforeWarmed_only s)

theorem warmReset_lasting (cause : BitVec 6) (s : State) : lasting (warmReset cause s) = lasting s :=
  ite_lasting rfl (warmNow_lasting cause s)

/-! ### Register writes -/

theorem hostPut_lasting {f : Nat} {g : State → State} (s : State) (h : ∀ t, lasting (g t) = lasting t) :
    lasting (hostPut f g s) = lasting s :=
  ite_lasting (h _) rfl

theorem writeHub_lasting (tap : Bool) (f off : Nat) (w : Wr) (s : State) : lasting (writeHub tap f off w s) = lasting s :=
  ite_lasting (ite_lasting (warmReset_lasting ..) rfl) <|
    ite_lasting rfl <| ite_lasting (modHost_lasting ..) <|
      ite_lasting (modHost_lasting ..) <| ite_lasting (modHost_lasting ..) rfl

/-- Only a write to HUB_CTRL reaches the lifecycle, through the warm reset that it starts. -/
theorem writeReg_lasting (tap : Bool) (f off : Nat) (value : W32) (en : BitVec 4) (s : State) :
    lasting (writeReg tap f off value en s) = lasting s :=
  ite_lasting rfl <| ite_lasting (ite_lasting (writeHub_lasting ..) rfl) <|
    ite_lasting (ite_lasting (lasting_of_only (writeWea_only ..)) rfl) <|
      ite_lasting (lasting_of_only (writeSes_only ..)) <| ite_lasting rfl <|
        ite_lasting (ite_lasting (lasting_of_only (writeNsl_only ..)) rfl) <|
          ite_lasting (lasting_of_only (writeSel_only ..)) <| ite_lasting (lasting_of_only (writeMsix_only ..)) <|
            ite_lasting (lasting_of_only (writePart_only ..)) rfl

theorem writeSpan_lasting (f off : Nat) (more : List (W32 × BitVec 4)) (s : State) :
    lasting (writeSpan f off more s) = lasting s :=
  each_eq lasting (fun _ t => hostPut_lasting t fun u => writeReg_lasting false f _ _ _ u) _ s

/-! ### The test access port -/

theorem tapRun_lasting {code : Nat} {g : State → State} (s : State) (h : ∀ t, lasting (g t) = lasting t) :
    lasting (tapRun code g s) = lasting s :=
  ite_lasting (h s) rfl

theorem shiftOut_lasting (n v : Nat) (s : State) : lasting (shiftOut n v s) = lasting s := rfl

theorem tapAdvance_lasting (target confirm : Nat) (s : State) : lasting (tapAdvance target confirm s) = lasting s := by
  unfold tapAdvance
  split
  · rfl
  · refine ite_lasting rfl ?_
    split
    · rfl
    · exact ite_lasting rfl (askBurn_lasting ..)

theorem updateDr_lasting {us : Nat} {busy access : State → State} (s : State) (hb : ∀ t, lasting (busy t) = lasting t)
    (ha : ∀ t, lasting (access t) = lasting t) : lasting (updateDr us busy access s) = lasting s :=
  ite_lasting (ha _) (ite_lasting (hb _) (ha _))

theorem regAccess_lasting (dr : Nat) (s : State) : lasting (regAccess dr s) = lasting s := by
  unfold regAccess
  extract_lets off port vf isVf f load
  have loads : ∀ d v t, lasting (load d v t) = lasting t :=
    fun _ _ t => lasting_of_only (upd_tap (.refl [.tap] t) rfl)
  refine ite_lasting (loads ..) (ite_lasting ?_ ?_)
  · exact ite_lasting (writeReg_lasting ..) ((loads ..).trans (writeReg_lasting ..))
  · have read := lasting_of_only (readReg_only true f off s)
    generalize readReg true f off s = r at read ⊢
    obtain ⟨_ | v, t⟩ := r
    · exact (loads _ _ (nextFree t)).trans ((lasting_of_only (nextFree_only t)).trans read)
    · exact (loads _ _ t).trans read

end Sys2Proof.Laws

/-!
SUPPORT. What each command does to what lasts of the lifecycle: no command returns a fuse, and none but the resets that start
the hub from nothing lowers the count of rejected responses or lifts the lockout.
-/

namespace Sys2Proof.Laws
open Sys2Proof Sys2Proof.Machine
set_option Elab.async false -- a thread per proof would not fit beside the model in the check's memory

/-! ### Commands that leave it as it is -/

/-- The outcome settles a state in which what lasts is as it was. -/
def KeepsLasting (s : State) (o : Host.Outcome State Fault Refusal) : Prop := ∃ u, o = done u ∧ lasting u = lasting s

section
variable {s u : State} {a b : Host.Outcome State Fault Refusal} {c : Prop} {dec : Decidable c}

theorem KeepsLasting.of_eq (h : lasting u = lasting s) : KeepsLasting s (done u) := ⟨u, rfl, h⟩

theorem KeepsLasting.ite (ha : KeepsLasting s a) (hb : KeepsLasting s b) : KeepsLasting s (if c then a else b) := by
  split
  · exact ha
  · exact hb

/-- The shape of most events of the table: they act under a condition, and otherwise do nothing. -/
theorem KeepsLasting.guard (h : lasting u = lasting s) : KeepsLasting s (if c then done u else done s) :=
  .ite (.of_eq h) (.of_eq rfl)

end

theorem execHostPortReset_keepsLasting (port : HostPort) (cause : PortResetCause) (s : State) :
    KeepsLasting s (execHostPortReset port cause s) := by
  unfold execHostPortReset
  extract_lets n pins s1
  have pin : lasting s1 = lasting s := ite_lasting rfl rfl
  have resets : lasting (resetPort n s1) = lasting s := (resetPort_lasting n s1).trans pin
  exact .ite (.of_eq resets) (.ite (.of_eq resets) (.of_eq pin))

theorem execVfEnable_keepsLasting (port : HostPort) (numVfs : Nat) (s : State) :
    KeepsLasting s (execVfEnable port numVfs s) := by
  refine .of_eq (hostPut_lasting s fun t => ite_lasting rfl ?_)
  exact (modHost_lasting ..).trans (each_eq lasting (fun q u => resetSession_lasting q 0x20 u) _ t)

theorem execSerdesPllLoss_keepsLasting (pll : Pll) (s : State) : KeepsLasting s (execSerdesPllLoss pll s) := by
  have raised : ∀ (c : ClkStatus) (k d n : Nat), lasting (raiseErr 9 k n d 0 0 { s with clk := c }) = lasting s :=
    fun _ _ _ _ => raiseErr_lasting ..
  refine .of_eq ?_
  cases pll with
  | border n => exact ite_lasting ((resetPort_lasting ..).trans (raised ..)) (raised ..)
  | nsl n => exact ite_lasting ((lasting_of_only (portDown_only ..)).trans (raised ..)) (raised ..)
  | wale => exact (lasting_of_only (waleDown_only _)).trans (raised ..)
  | plait => exact ite_lasting ((lasting_of_only (plaitDown_only ..)).trans (raised ..)) (raised ..)

theorem startCmd_lasting {op f : Nat} {tag : W32} {k : Cmd → State → State} (s : State)
    (h : ∀ c t, lasting (k c t) = lasting t) : lasting (startCmd op f tag k s) = lasting s := by
  unfold startCmd
  split
  · rfl
  · exact ite_lasting ((h ..).trans (lasting_of_only (modCmd_only ..))) rfl

theorem fail_lasting (f : Nat) (tag : W32) (st : Byte) (s : State) : lasting (fail f tag st s) = lasting s :=
  lasting_of_only (fail_only ..)

theorem execLifecycleAdvance_keepsLasting (fn : Fn) (tag : W32) (s : State) :
    KeepsLasting s (execLifecycleAdvance fn tag s) := by
  refine .of_eq (startCmd_lasting s fun c t => ?_)
  dsimp only
  split
  · exact fail_lasting ..
  · split
    · exact fail_lasting ..
    · exact ite_lasting (lasting_of_only (complete_only ..)) (askBurn_lasting ..)

theorem execRegisterWrite_keepsLasting (fn : Fn) (offset : RegAt) (value : W32) (enables : BitVec 4) (s : State) :
    KeepsLasting s (execRegisterWrite fn offset value enables s) := by
  refine .of_eq (hostPut_lasting s fun t => ?_)
  cases offset with
  | bar offset => exact writeReg_lasting ..
  | span offset more => exact (writeSpan_lasting ..).trans (writeReg_lasting ..)
  | msixControl => exact lasting_of_only (writeMsixControl_only ..)

theorem execLcyAdvance_keepsLasting (target : Byte) (confirm : W32) (s : State) :
    KeepsLasting s (execLcyAdvance target confirm s) :=
  .of_eq (tapRun_lasting s fun t => tapAdvance_lasting _ _ (selectIr 0x11 t))

theorem execFuseKeyProg_keepsLasting (tapKey : Bool) (value : BitVec 384) (s : State) :
    KeepsLasting s (execFuseKeyProg tapKey value s) :=
  .of_eq (tapRun_lasting s fun t => ite_lasting rfl (askBurn_lasting _ (selectIr 0x12 t)))

theorem execRegAccess_keepsLasting (dr : BitVec 64) (s : State) : KeepsLasting s (execRegAccess dr s) :=
  .of_eq (tapRun_lasting s fun t =>
    (updateDr_lasting _ (fun u => lasting_of_only (regBusy_only u)) fun u => regAccess_lasting dr.toNat u).trans
      (shiftOut_lasting 64 _ (selectIr 0x21 t)))

/-- The commands that change what lasts: the resets from nothing, the phases that sense the fuses, the end of a program
pulse, and those that judge a response. -/
def rewritesLasting : Instr → Bool
  | .fusePhaseEnd | .journalPhaseEnd _ | .fuseBitAttemptEnd _ | .unlockResponse _ | .unlockVerdict => true
  | i => powersOn i

/-- Besides the commands shown above none names the lifecycle among the fields that it may change. -/
theorem exec_keepsLasting (i : Instr) (s : State) (h : rewritesLasting i = false) : KeepsLasting s (exec i s) := by
  have unnamed (k : (!(touches i).contains .lcy) = true) : KeepsLasting s (exec i s) := by
    obtain ⟨u, hu, only⟩ := exec_touches i s
    exact ⟨u, hu, lasting_of_only only k⟩
  cases i with
  | powerOnReset | supplyDrop | clockFault | fusePhaseEnd | journalPhaseEnd | fuseBitAttemptEnd | unlockResponse
  | unlockVerdict => cases h
  | stakeWatchdogExpiry => exact .guard ((warmReset_lasting ..).trans (raiseErr_lasting ..))
  | hostPortReset port cause => exact execHostPortReset_keepsLasting port cause s
  | sessionReset ses => exact .guard (resetSession_lasting ..)
  | pfFunctionReset port => exact .guard (resetPf_lasting ..)
  | serdesPllLoss pll => exact execSerdesPllLoss_keepsLasting pll s
  | vfEnable port numVfs => exact execVfEnable_keepsLasting port numVfs s
  | lifecycleAdvance fn tag => exact execLifecycleAdvance_keepsLasting fn tag s
  | hubCtrlWarmReset port value =>
    exact .of_eq (hostPut_lasting s fun t => ite_lasting (warmReset_lasting causeHost t) rfl)
  | registerWrite fn offset value enables => exact execRegisterWrite_keepsLasting fn offset value enables s
  | lcyAdvance target confirm => exact execLcyAdvance_keepsLasting target confirm s
  | fuseKeyProg tapKey value => exact execFuseKeyProg_keepsLasting tapKey value s
  | regAccess dr => exact execRegAccess_keepsLasting dr s
  | warmReset => exact .of_eq (tapRun_lasting s fun t => warmReset_lasting causeTap (selectIr 0x40 t))
  | _ => exact unnamed rfl

/-! ### Commands that change it -/

/-- Fuses only burn, the count of rejected responses does not fall, and the lockout stays. -/
structure LcyGrows (s t : State) : Prop where
  burns : s.lcy.fuses.BurnsTo t.lcy.fuses
  fails : s.lcy.fails.toNat ≤ t.lcy.fails.toNat
  lockout : s.lcy.lockout = true → t.lcy.lockout = true

theorem lcyGrows_of_lasting {s t : State} (h : lasting t = lasting s) : LcyGrows s t where
  burns := by
    rw [show t.lcy.fuses = s.lcy.fuses from congrArg Lasting.fuses h]
    exact burnsTo_refl _
  fails := (congrArg (·.fails.toNat) h).ge
  lockout := (congrArg Lasting.lockout h : t.lcy.lockout = _).trans

theorem lcyGrows_trans {s t u : State} (h : LcyGrows s t) (k : LcyGrows t u) : LcyGrows s u where
  burns := burnsTo_trans h.burns k.burns
  fails := h.fails.trans k.fails
  lockout := k.lockout ∘ h.lockout

theorem lcyGrows_afterPulse {f : Fuses} {s : State} (h : s.lcy.fuses.BurnsTo f) : LcyGrows s (afterPulse f s) :=
  ⟨h, le_rfl, id⟩

theorem burnAttempt_lcyGrows (b : Burn) (took : Bool) (s : State) : LcyGrows s (burnAttempt b took s) := by
  cases h : b.todo with
  | nil =>
    rw [burnAttempt_of_nil h]
    exact lcyGrows_of_lasting (burnDone_lasting b s)
  | cons x rest =>
    cases took with
    | true =>
      rw [burnAttempt_took h]
      exact lcyGrows_trans (lcyGrows_afterPulse (burnsTo_burn _ x)) (lcyGrows_of_lasting (nextBit_lasting ..))
    | false =>
      obtain again | left := Nat.lt_or_ge b.attempts 2
      · rw [burnAttempt_again h again]
        exact lcyGrows_of_lasting (startBurn_lasting ..)
      · rw [burnAttempt_left h left]
        exact lcyGrows_of_lasting (nextBit_lasting ..)

theorem execFuseBitAttemptEnd_idle {s : State} {took : Bool} (hb : s.lcy.burn = none) :
    exec (.fuseBitAttemptEnd took) s = done s := by
  show execFuseBitAttemptEnd took s = _
  unfold execFuseBitAttemptEnd
  rw [hb]

theorem execFuseBitAttemptEnd_burning {s : State} {took : Bool} {b : Burn} (hb : s.lcy.burn = some b)
    (hw : s.boot.warmWaiting = none) : exec (.fuseBitAttemptEnd took) s = done (burnAttempt b took s) := by
  show execFuseBitAttemptEnd took s = _
  unfold execFuseBitAttemptEnd
  rw [hb]
  dsimp only
  rw [hw]

/-- A warm reset that waited for the pulse comes after it. -/
theorem execFuseBitAttemptEnd_lcyGrows (took : Bool) (s : State) :
    ∃ u, exec (.fuseBitAttemptEnd took) s = done u ∧ LcyGrows s u := by
  cases hb : s.lcy.burn with
  | none => exact ⟨s, execFuseBitAttemptEnd_idle hb, lcyGrows_of_lasting rfl⟩
  | some b =>
    cases hw : s.boot.warmWaiting with
    | none => exact ⟨_, execFuseBitAttemptEnd_burning hb hw, burnAttempt_lcyGrows b took s⟩
    | some cause =>
      refine ⟨_, execFuseBitAttemptEnd_waited hb hw, lcyGrows_trans ?_ (lcyGrows_of_lasting (warmNow_lasting ..))⟩
      exact ⟨burnsTo_pulsed b took s.lcy.fuses, le_rfl, id⟩

theorem execFusePhaseEnd_lcyGrows (s : State) : ∃ u, execFusePhaseEnd s = done u ∧ LcyGrows s u := by
  unfold execFusePhaseEnd
  split
  · exact ⟨_, rfl, burnsTo_refl _, le_rfl, id⟩
  · exact ⟨s, rfl, lcyGrows_of_lasting rfl⟩

theorem drawKey_lasting (s : State) : lasting (drawKey s) = lasting s := by
  unfold lasting
  rw [drawKey_lcy]

theorem execJournalPhaseEnd_lcyGrows (stuck : List FuseBit) (s : State) :
    ∃ u, execJournalPhaseEnd stuck s = done u ∧ LcyGrows s u := by
  unfold execJournalPhaseEnd
  split
  · refine ⟨_, rfl, lcyGrows_trans ?_ (lcyGrows_of_lasting (drawKey_lasting _))⟩
    exact ⟨burnsTo_resume s.lcy.fuses stuck, le_rfl, id⟩
  · exact ⟨s, rfl, lcyGrows_of_lasting rfl⟩

/-- The state after a response is rejected. -/
def rejected (s : State) : State :=
  { s with tap := { s.tap with response := none }
           lcy := { s.lcy with fails := BitVec.ofNat 2 (sat 3 (s.lcy.fails.toNat + 1))
                               lockout := s.lcy.lockout || sat 3 (s.lcy.fails.toNat + 1) == 3 } }

/-- The state after a response is granted. -/
def granted (s : State) : State :=
  { s with tap := { s.tap with response := none }, lcy := { s.lcy with unlocked := true } }

/-- What a verdict can do. -/
theorem unlockVerdict_of_response {s : State} {key sig : List Byte} {nonce : Option (BitVec 384)}
    (h : s.tap.response = some (key, sig, nonce)) :
    unlockVerdict s = if s.unlockGranted key sig nonce then granted s else rejected s := by
  unfold unlockVerdict
  rw [h]
  rfl

theorem unlockVerdict_of_no_response {s : State} (h : s.tap.response = none) : unlockVerdict s = s := by
  unfold unlockVerdict
  rw [h]

/-- After a verdict none is outstanding. -/
theorem unlockVerdict_response (s : State) : (unlockVerdict s).tap.response = none := by
  cases h : s.tap.response with
  | none => rw [unlockVerdict_of_no_response h, h]
  | some r =>
    rw [unlockVerdict_of_response h]
    split <;> rfl

/-- The count stops at three. -/
theorem fails_le_counted (n : BitVec 2) : n.toNat ≤ (BitVec.ofNat 2 (sat 3 (n.toNat + 1))).toNat := by
  revert n
  decide

theorem unlockVerdict_lcyGrows (s : State) : LcyGrows s (unlockVerdict s) := by
  cases h : s.tap.response with
  | none =>
    rw [unlockVerdict_of_no_response h]
    exact lcyGrows_of_lasting rfl
  | some r =>
    rw [unlockVerdict_of_response h]
    split
    · exact lcyGrows_of_lasting rfl
    · exact ⟨burnsTo_refl _, fails_le_counted _, fun locked => by rw [rejected, locked]; rfl⟩

theorem execUnlockResponse_lcyGrows (dr : List Byte) (s : State) :
    ∃ u, execUnlockResponse dr s = done u ∧ LcyGrows s u := by
  have voted : LcyGrows s (unlockVerdict (selectIr 0x31 s)) :=
    lcyGrows_trans (t := selectIr 0x31 s) (lcyGrows_of_lasting rfl) (unlockVerdict_lcyGrows _)
  refine ⟨_, rfl, ?_⟩
  unfold tapRun
  dsimp only
  split
  · split
    · exact voted
    · exact lcyGrows_trans voted (lcyGrows_of_lasting rfl)
  · exact lcyGrows_of_lasting rfl

/-- What a command does to what lasts, but for the resets that start the hub from nothing. -/
theorem exec_lcyGrows {i : Instr} {s t : State} (h : exec i s = .next t) (hp : powersOn i = false) : LcyGrows s t := by
  have of_done (k : ∃ u, exec i s = done u ∧ LcyGrows s u) : LcyGrows s t := by
    obtain ⟨u, hu, grows⟩ := k
    obtain rfl : settle u = t := Host.Outcome.next.inj (hu.symm.trans h)
    exact lcyGrows_trans grows (lcyGrows_of_lasting (settle_lasting u))
  by_cases hr : rewritesLasting i = false
  · obtain ⟨u, hu, kept⟩ := exec_keepsLasting i s hr
    exact of_done ⟨u, hu, lcyGrows_of_lasting kept⟩
  · refine of_done ?_
    cases i with
    | fusePhaseEnd => exact execFusePhaseEnd_lcyGrows s
    | journalPhaseEnd stuck => exact execJournalPhaseEnd_lcyGrows stuck s
    | fuseBitAttemptEnd took => exact execFuseBitAttemptEnd_lcyGrows took s
    | unlockResponse dr => exact execUnlockResponse_lcyGrows dr s
    | unlockVerdict => exact ⟨_, rfl, unlockVerdict_lcyGrows s⟩
    | _ => exact absurd hp hr

end Sys2Proof.Laws

/-!
SUPPORT. Fuses, the lockout and the end of a program pulse.
-/

namespace Sys2Proof.Laws
open Sys2Proof Sys2Proof.Machine

/-! ### No fuse returns (R139) -/

/-- A reset that starts the hub from nothing, or what the command does where it starts none. -/
theorem exec_burns_of_powersOn {i : Instr} {s t : State} (h : exec i s = .next t) (hp : powersOn i = true) :
    s.lcy.fuses.BurnsTo t.lcy.fuses := by
  have of_done {u : State} (hu : exec i s = done u) (k : u.lcy.fuses = s.cutFuses ∨ u.lcy.fuses = s.lcy.fuses) :
      s.lcy.fuses.BurnsTo t.lcy.fuses := by
    obtain rfl : settle u = t := Host.Outcome.next.inj (hu.symm.trans h)
    rw [show (settle u).lcy.fuses = u.lcy.fuses from congrArg Lasting.fuses (settle_lasting u)]
    obtain k | k := k <;> rw [k]
    · exact burnsTo_cutFuses s
    · exact burnsTo_refl _
  cases i with
  | powerOnReset n =>
    by_cases c : pulseResets 1000 10000 n (Config.freePorst s.free) = true
    · exact of_done (if_pos c) (.inl rfl)
    · exact of_done (if_neg c) (.inr rfl)
  | supplyDrop d =>
    by_cases c : pulseResets 500 2000 d.belowNs (Config.freeDip s.free) = true
    · exact of_done (if_pos c) (.inl rfl)
    · exact of_done (if_neg c) (.inr rfl)
  | clockFault a =>
    by_cases c : (s.pins.porst && s.pins.supplyGood) = true
    · exact of_done (if_pos c) (.inl rfl)
    · exact of_done (if_neg c) (.inr rfl)
  | _ => cases hp

/-- A reset from nothing burns at most the bit whose pulse it cuts; any other command lets the lifecycle only grow. -/
theorem exec_burns {i : Instr} {s t : State} (h : exec i s = .next t) : s.lcy.fuses.BurnsTo t.lcy.fuses := by
  cases hp : powersOn i with
  | true => exact exec_burns_of_powersOn h hp
  | false => exact (exec_lcyGrows h hp).burns

/-- Settles O9: an idle step leaves the lifecycle, and no command returns a fuse. -/
theorem fusesOnlyBurn : Obligations.FusesOnlyBurn := by
  unfold Obligations.FusesOnlyBurn
  intro s t h
  unfold step at h
  split at h
  · cases h
    exact (lcyGrows_of_lasting (lasting_of_only (tick_only s))).burns
  next i rest _ =>
    have burns := exec_burns h -- taken from the queue, the command leaves the same lifecycle
    exact burns

/-! ### The lockout (R184) -/

/-- The third rejection sets the lockout. -/
theorem counted_eq_three_iff (n : BitVec 2) : (sat 3 (n.toNat + 1) == 3) = decide (2 ≤ n.toNat) := by
  revert n
  decide

theorem execUnlockResponse_has {s : State} {dr : List Byte} (h : s.tapHas 0x31 = true) : exec (.unlockResponse dr) s =
    done (
      let t := unlockVerdict (selectIr 0x31 s)
      if t.lcy.lockout then t
      else
        nextFree { t with tap := { t.tap with
          response := some (slice dr 0 97, slice dr 97 96, t.liveNonce), nonce := none } }) :=
  congrArg done (tapRun_of_has h)

theorem powerReset_unlocks (cause : BitVec 6) (s : State) :
    (powerReset cause s).lcy.fails = 0 ∧ (powerReset cause s).lcy.lockout = false := ⟨rfl, rfl⟩

/-- Settles O11: the verdict counts, the lifecycle only grows under every command but the resets from nothing, and those
clear the count. -/
theorem lockoutHolds : Obligations.LockoutHolds := by
  unfold Obligations.LockoutHolds
  refine ⟨fun s key sig nonce hr hg => ?_, fun _ _ _ => rfl, fun s dr hh hl => ?_,
    fun i s t h hp => (exec_lcyGrows h hp).lockout, fun i s t h hp => (exec_lcyGrows h hp).fails,
    fun s n hn => ?_, fun s d hd => ?_, fun s a hp hg => ?_⟩
  · have he : unlockVerdict s = rejected s := by
      rw [unlockVerdict_of_response hr, hg]; rfl
    refine Runs.of_done (congrArg done he) ?_
    rw [settle_lcy]
    exact ⟨rfl, rfl, congrArg (s.lcy.lockout || ·) (counted_eq_three_iff s.lcy.fails)⟩
  · have locked : (unlockVerdict (selectIr 0x31 s)).lcy.lockout = true :=
      (unlockVerdict_lcyGrows (selectIr 0x31 s)).lockout hl
    refine Runs.of_done ((execUnlockResponse_has hh).trans (congrArg done (if_pos locked))) ?_
    rw [settle_tap]
    exact unlockVerdict_response _
  · exact Runs.quiet (execPowerOnReset_long hn) rfl (powerReset_unlocks causePowerOn s)
  · exact Runs.quiet (execSupplyDrop_long hd) rfl (powerReset_unlocks causeSupply s)
  · exact Runs.quiet (execClockFault_running hp hg) rfl (powerReset_unlocks causeClock s)

/-! ### Program pulses (R153 to R157) -/

/-- Further bits than the next follow: the copies are not yet verified. -/
theorem nextBit_left_copyA {b : Burn} {n : Fin 24} {y : FuseBit} {rest : List FuseBit} (s : State)
    (h : b.todo = .a n :: y :: rest) (hr : rest ≠ []) :
    nextBit b true s = startBurn { b with todo := y :: rest, attempts := 0 } s := by
  obtain ⟨z, rest, rfl⟩ := List.exists_cons_of_ne_nil hr
  unfold nextBit
  rw [h]
  simp [b2n]

/-- Settles O10: the fuses that a pulse burned are left by what follows it, and a pulse that did not take is counted or
given up. -/
theorem fuseAttemptsAct : Obligations.FuseAttemptsAct := by
  unfold Obligations.FuseAttemptsAct
  refine ⟨fun s b x rest hb hw ht hq => ?_, fun s b x rest hb hw ht ha hq => ?_,
    fun s b n y rest hb hw ht hr ha hq => ?_⟩
  · refine Runs.of_done (execFuseBitAttemptEnd_burning hb hw) ?_
    have kept := (settle_lasting _).trans (nextBit_lasting b false (afterPulse (s.lcy.fuses.burn x) s))
    rw [burnAttempt_took ht]
    exact ⟨congrArg Lasting.fuses kept, congrArg Lasting.sensed kept⟩
  · rw [execFuseBitAttemptEnd_burning hb hw, burnAttempt_again ht ha]
    exact done_quiet hq
  · rw [execFuseBitAttemptEnd_burning hb hw, burnAttempt_left ht ha, nextBit_left_copyA s ht hr]
    exact done_quiet hq

end Sys2Proof.Laws

/-!
SUPPORT. The instructions of the test access port.
-/

namespace Sys2Proof.Laws
open Sys2Proof Sys2Proof.Machine

/-! ### The instructions of every lifecycle state -/

/-- The state after an instruction that selects the bypass register. -/
def bypassed (code : Byte) (tdi : List Bool) (s : State) : State :=
  { s with tap := { s.tap with ir := code, extest := false, bypass := tdi.getLastD false }
           out := s.out ++ if s.pins.porst then [.tdo ((false :: tdi).take tdi.length)] else [] }

theorem shiftBypass_selectIr (code : Byte) (tdi : List Bool) (s : State) :
    shiftBypass tdi (selectIr code.toNat s) = bypassed code tdi s := by
  unfold selectIr
  rw [BitVec.ofNat_toNat, BitVec.setWidth_eq]
  rfl

theorem execBypass_bypasses {code : Byte} {tdi : List Bool} {s : State} (h : code = 0xFF ∨ s.tapHas code.toNat = false)
    (hq : s.fires = []) : exec (.bypass code tdi) s = .next (bypassed code tdi s) := by
  show execBypass code tdi s = _
  unfold execBypass
  rw [if_pos h, shiftBypass_selectIr]
  exact done_quiet hq

theorem shiftOut_shiftOut (m v n w : Nat) (s : State) : shiftOut n w (shiftOut m v s) =
    { s with out := s.out ++ if s.pins.porst then [.tdo (toBits m v), .tdo (toBits n w)] else [] } := by
  unfold shiftOut tapOut
  dsimp only
  cases s.pins.porst <;> simp

/-- Settles O48: each instruction selects its register and shifts it out, and no lattice source fires. -/
theorem tapPublicInstructionsAct : Obligations.TapPublicInstructionsAct := by
  unfold Obligations.TapPublicInstructionsAct
  refine ⟨fun s hq => done_quiet hq, fun s cells hq => done_quiet hq, fun s pins cells hq => done_quiet hq,
    fun s tdi hq => execBypass_bypasses (.inl rfl) hq, fun s code tdi hc hq => execBypass_bypasses (.inr hc) hq,
    fun s hq => ?_⟩
  show done (shiftOut _ _ (shiftOut _ _ (selectIr 0x10 s))) = _
  rw [shiftOut_shiftOut]
  exact done_quiet hq

/-! ### An instruction that is available, and one that is not -/

/-- The lifecycle withholds it: its code selects the bypass register. -/
def withheld (code : Nat) (s : State) : State := s |> selectIr code |> shiftBypass []

theorem tapRun_of_not_has {code : Nat} {g : State → State} {s : State} (h : s.tapHas code = false) :
    tapRun code g s = withheld code s := if_neg (by rw [h]; decide)

theorem withheld_only (code : Nat) (s : State) : Only [.tap, .out] s (withheld code s) :=
  (selectIr_only ..).within.andThen (shiftBypass_only ..)

theorem withheld_bypass (code : Nat) (s : State) : (withheld code s).tap.bypass = false := rfl

theorem Runs.withheld {i : Instr} {code : Nat} {g : State → State} {s : State} {P : State → Prop}
    (h : exec i s = done (tapRun code g s)) (hc : s.tapHas code = false) (hq : s.fires = []) (p : P (withheld code s)) :
    Runs i s P :=
  Runs.quiet (h.trans (congrArg done (tapRun_of_not_has hc))) hq p

/-! ### Burns asked for through the port -/

theorem askBurn_transition {l : Lifecycle} {by_ : BurnFor} {s : State} (h : s.lcy.burn = none) :
    askBurn (Burn.ask (some l) none by_) s =
      startBurn { Burn.ask (some l) none by_ with todo := s.lcy.fuses.burnList l } s :=
  if_neg (by rw [h]; decide)

theorem askBurn_key {k : Bool} {v : BitVec 384} {by_ : BurnFor} {s : State} (h : s.lcy.burn = none)
    (hr : s.lcy.fuses.keyRefused k v = false) : askBurn (Burn.ask none (some (k, v)) by_) s =
      startBurn { Burn.ask none (some (k, v)) by_ with todo := s.lcy.fuses.keyBurn k v } s :=
  (if_neg (by rw [h]; decide)).trans (if_neg (by rw [hr]; decide))

/-- The checks on a target read the lifecycle alone. -/
theorem targetCheck_of_lcy {s t : State} (h : t.lcy = s.lcy) (l : Lifecycle) : t.targetCheck l = s.targetCheck l := by
  unfold State.targetCheck State.transiting State.voted
  rw [h]

theorem voted_of_lcy {s t : State} (h : t.lcy = s.lcy) : t.voted = s.voted := by
  unfold State.voted
  rw [h]

theorem tapAdvance_burns {target : Nat} {l : Lifecycle} {s : State} (ht : targetOf target = some l)
    (hc : s.targetCheck l = none) (hv : l ≠ s.voted) :
    tapAdvance target lcyConfirm s = askBurn (Burn.ask (some l) none .tap) (lcyResult stOk 0 0 s) := by
  unfold tapAdvance
  rw [ht]
  dsimp only
  rw [hc, if_neg (by decide)]
  exact if_neg (by simpa using hv)

/-- Without the confirmation word no burn is asked for. -/
theorem tapAdvance_unconfirmed {target confirm : Nat} (s : State) (h : confirm ≠ lcyConfirm) :
    Only [.tap] s (tapAdvance target confirm s) := by
  unfold tapAdvance
  split
  · exact lcyResult_only ..
  · rw [if_pos (by simpa using h)]
    exact lcyResult_only ..

/-! ### Accesses -/

/-- The state in which an access starts. -/
def accessing (us : Nat) (s : State) : State :=
  { s with tap := { s.tap with accessBy := s.t + us * Config.ticksPerUs } }

theorem updateDr_idle {us : Nat} {busy access : State → State} {s : State} (h : s.tap.accessBy ≤ s.t) :
    updateDr us busy access s = access (accessing us s) := if_pos h

theorem updateDr_during {us : Nat} {busy access : State → State} {s : State} (h : s.t < s.tap.accessBy) :
    updateDr us busy access s =
      if Config.freeAccessBusy s.free then busy (nextFree s) else access (accessing us (nextFree s)) :=
  if_neg (by omega)

/-- A write of a Creel word with no injection armed: the word has fresh ECC. -/
theorem memPut_creel {index w value : Nat} {s : State} (h : s.err.armed = false) : memPut 0 index w value s =
    { s with mem := { s.mem with
        creel := Mem.writeN s.mem.creel (8 * w) (leBytes 8 value)
        ce := s.mem.ce.filter (· != (0, 0, w)), ue := s.mem.ue.filter (· != (0, 0, w))
        known := if s.mem.known.contains (0, 0, w) then s.mem.known else s.mem.known ++ [(0, 0, w)] } } := by
  unfold memPut
  simp only [h, Bool.and_false, Bool.false_and, Bool.false_eq_true, if_false, if_true]

/-- What MEM_ACCESS loads as it has written a word is its own register. -/
theorem memAccess_writesCreel {dr : Nat} (s : State) (hsp : dr / 2 ^ 37 % 8 = 0) (hwr : bit dr 44 = true)
    (hw : dr % 2 ^ 37 < 2 ^ 23) :
    Only [.tap] (memPut 0 (dr / 2 ^ 40 % 16) (dr % 2 ^ 37) (dr / 2 ^ 64 % 2 ^ 64) s) (memAccess dr s) := by
  have opens : s.memClosed 0 true = false := rfl
  have within : ¬ s.spaceWords 0 (dr / 2 ^ 40 % 16) ≤ dr % 2 ^ 37 := Nat.not_le.mpr hw
  unfold memAccess
  rw [hsp, hwr]
  dsimp only
  rw [opens, if_neg Bool.false_ne_true, if_neg within, if_pos rfl]
  exact upd_tap (.refl _ _) rfl

/-- The captured register has shifted out. -/
def shifted (code n v : Nat) (s : State) : State := shiftOut n v (selectIr code s)

theorem shifted_only (code n v : Nat) (s : State) : Only [.tap, .out] s (shifted code n v s) :=
  (selectIr_only ..).within.andThen (shiftOut_only ..)

/-- An instruction that is selected already stays selected. -/
theorem selectIr_tap_of_ir {code : Nat} {s : State} (h : s.tap.ir = BitVec.ofNat 8 code) :
    (selectIr code s).tap = { s.tap with extest := false } := by
  unfold selectIr
  dsimp only
  rw [← h]

/-- What MEM_ACCESS and REG_ACCESS capture: DONE stays only with the instruction itself. -/
def memHeld (s : State) : Nat := if s.tap.ir == 0x20 then s.tap.memDr.toNat else s.tap.memDr.toNat / 2 * 2
def regHeld (s : State) : Nat :=
  if s.tap.ir == 0x21 then s.tap.regDr.toNat else s.tap.regDr.toNat - 2 ^ 16 * b2n (bit s.tap.regDr.toNat 16)

/-- How long an access of MEM_ACCESS takes at most, in microseconds. -/
def memUs (dr : Nat) : Nat := if dr / 2 ^ 37 % 8 = 3 then 4 else 2

theorem execMemAccess_has {s : State} {dr : BitVec 128} (h : s.tapHas 0x20 = true) : exec (.memAccess dr) s =
    done (updateDr (memUs dr.toNat) memBusy (memAccess dr.toNat) (shifted 0x20 128 (memHeld s) s)) :=
  congrArg done (tapRun_of_has h)

theorem execRegAccess_has {s : State} {dr : BitVec 64} (h : s.tapHas 0x21 = true) : exec (.regAccess dr) s =
    done (updateDr 2 regBusy (regAccess dr.toNat) (shifted 0x21 64 (regHeld s) s)) :=
  congrArg done (tapRun_of_has h)

/-! ### Instructions that a lifecycle state may withhold, where they are available -/

theorem lcyAdvance_burns {s : State} {target : Byte} {l : Lifecycle} (hh : s.tapHas 0x11 = true)
    (ht : targetOf target.toNat = some l) (hc : s.targetCheck l = none) (hv : l ≠ s.voted) (hb : s.lcy.burn = none) :
    exec (.lcyAdvance target (BitVec.ofNat 32 lcyConfirm)) s =
      done (startBurn { Burn.ask (some l) none .tap with todo := s.lcy.fuses.burnList l }
        (lcyResult stOk 0 0 (selectIr 0x11 s))) := by
  have checked : (selectIr 0x11 s).targetCheck l = none := (targetCheck_of_lcy (selectIr_lcy ..) l).trans hc
  have moves : l ≠ (selectIr 0x11 s).voted := by rwa [voted_of_lcy (selectIr_lcy ..)]
  calc exec (.lcyAdvance target (BitVec.ofNat 32 lcyConfirm)) s
    _ = done (tapAdvance target.toNat lcyConfirm (selectIr 0x11 s)) := congrArg done (tapRun_of_has hh)
    _ = done (askBurn (Burn.ask (some l) none .tap) (lcyResult stOk 0 0 (selectIr 0x11 s))) :=
      congrArg done (tapAdvance_burns ht checked moves)
    _ = _ := congrArg done (askBurn_transition (s := lcyResult stOk 0 0 (selectIr 0x11 s)) hb)

theorem execFuseKeyProg_has {s : State} {k : Bool} {v : BitVec 384} (h : s.tapHas 0x12 = true) :
    exec (.fuseKeyProg k v) s = done (if s.keyRefused k v then selectIr 0x12 s
      else askBurn (Burn.ask none (some (k, v)) .tap) (selectIr 0x12 s)) :=
  congrArg done (tapRun_of_has h)

/-- With no access under way and no injection armed a write to the Creel reaches its word. -/
theorem execMemAccess_writes {s : State} {dr : BitVec 128} (hh : s.tapHas 0x20 = true) (ha : s.tap.accessBy ≤ s.t)
    (he : s.err.armed = false) (hsp : dr.toNat / 2 ^ 37 % 8 = 0) (hwr : bit dr.toNat 44 = true)
    (hw : dr.toNat % 2 ^ 37 < 2 ^ 23) :
    ∃ u, exec (.memAccess dr) s = done u ∧
      (u.mem.creel = Mem.writeN s.mem.creel (8 * (dr.toNat % 2 ^ 37)) (leBytes 8 (dr.toNat / 2 ^ 64 % 2 ^ 64)) ∧
        u.mem.osier = s.mem.osier ∧ u.mem.stake = s.mem.stake) ∧ Only [.tap, .mem, .out] s u := by
  let start := accessing (memUs dr.toNat) (shifted 0x20 128 (memHeld s) s)
  have starts : Only [.tap, .out] s start := upd_tap (shifted_only ..) rfl
  have loaded := memAccess_writesCreel start hsp hwr hw
  rw [memPut_creel (s := start) he] at loaded
  refine ⟨memAccess dr.toNat start, (execMemAccess_has hh).trans (congrArg done (updateDr_idle ha)), ?_, ?_⟩
  · rw [loaded.same .mem (by decide)]
    exact ⟨rfl, rfl, rfl⟩
  · exact (upd_mem starts.within rfl).andThen loaded

/-- During an access another is ignored, and BUSY captured, or it starts behind the end of the one before. -/
theorem execMemAccess_during {s : State} {dr : BitVec 128} (hh : s.tapHas 0x20 = true) (ha : s.t < s.tap.accessBy) :
    let u := shifted 0x20 128 (memHeld s) s
    exec (.memAccess dr) s = done (if Config.freeAccessBusy s.free then memBusy (nextFree u)
      else memAccess dr.toNat (accessing (memUs dr.toNat) (nextFree u))) :=
  (execMemAccess_has hh).trans (congrArg done (updateDr_during ha))

theorem execUnlockVerdict_judges {s : State} {key sig : List Byte} {nonce : Option (BitVec 384)}
    (h : s.tap.response = some (key, sig, nonce)) :
    exec .unlockVerdict s = done (if s.unlockGranted key sig nonce then granted s else rejected s) :=
  congrArg done (unlockVerdict_of_response h)

theorem execNonceExpiry_aged {s : State} {n : BitVec 384} {at_ : Nat} (hn : s.tap.nonce = some (n, at_))
    (ha : s.agedS at_ 60 = true) : exec .nonceExpiry s = done { s with tap := { s.tap with nonce := none } } := by
  show execNonceExpiry s = _
  unfold execNonceExpiry
  rw [hn]
  exact congrArg done (if_pos ha)

/-- Settles O49: where the instruction is available the clause follows its equation; elsewhere its code selects the bypass
register. -/
theorem tapGuardedInstructionsAct : Obligations.TapGuardedInstructionsAct := by
  unfold Obligations.TapGuardedInstructionsAct
  refine ⟨fun s target l hh ht hc hv hb hq => ?_, fun s target confirm hh hc hq => ?_, fun s k v hh hr hb hq => ?_,
    fun s k v hh hr hq => ?_, fun s dr hh ha he hsp hwr hw hq => ?_, fun s dr hh ha hir hq => ?_, fun s dr hh => ?_,
    fun s hh hq => ?_, fun s dr hh hr hl hq => ?_, fun s key sig nonce hr hq => ?_, fun s n at_ hn ha hq => ?_,
    fun s code hc hq => ?_⟩
  · exact Runs.quiet (lcyAdvance_burns hh ht hc hv hb) hq ⟨rfl, rfl⟩
  · refine Runs.of_done (congrArg done (tapRun_of_has hh)) ?_
    rw [settle_lcy]
    exact (tapAdvance_unconfirmed (selectIr 0x11 s) hc).same .lcy (by decide)
  · have he := execFuseKeyProg_has (v := v) (k := k) hh
    rw [hr, if_neg Bool.false_ne_true, askBurn_key (s := selectIr 0x12 s) hb hr] at he
    exact Runs.quiet he hq rfl
  · rw [execFuseKeyProg_has hh, hr, if_pos rfl]
    exact done_quiet hq
  · obtain ⟨u, hu, ⟨creel, osier, stake⟩, only⟩ := execMemAccess_writes hh ha he hsp hwr hw
    exact Runs.quiet hu ((Only.fires only rfl).trans hq) ⟨creel, osier, stake, only⟩
  · refine Runs.of_done (execMemAccess_during hh ha) fun hbusy => ?_
    rw [if_pos hbusy, settle_mem, settle_tap]
    refine ⟨rfl, ?_⟩
    show { (selectIr 0x20 s).tap with memDr := s.tap.memDr ||| 2 } = _
    rw [selectIr_tap_of_ir hir]
  · intro u access
    refine ⟨fun ha => (execRegAccess_has hh).trans (congrArg done (updateDr_idle ha)), fun ha => ?_⟩
    have during := (execRegAccess_has (dr := dr) hh).trans (congrArg done (updateDr_during (s := u) ha))
    exact during.trans (congrArg Host.Outcome.next (apply_ite settle ..))
  · exact (congrArg done (tapRun_of_has hh)).trans (done_quiet hq)
  · have silent : unlockVerdict (selectIr 0x31 s) = selectIr 0x31 s := unlockVerdict_of_no_response hr
    rw [execUnlockResponse_has hh, silent]
    dsimp only
    rw [if_neg (by rw [selectIr_lcy, hl]; decide)]
    exact done_quiet hq
  · refine Runs.quiet (execUnlockVerdict_judges hr) ?_ ?_
    · split <;> exact hq
    · cases s.unlockGranted key sig nonce with
      | true => exact ⟨rfl, (Bool.or_true _).symm, rfl, fun _ => rfl⟩
      | false => exact ⟨rfl, (Bool.or_false _).symm, rfl, fun h => absurd h Bool.false_ne_true⟩
  · rw [execNonceExpiry_aged hn ha]
    exact done_quiet hq
  · have only := withheld_only code s
    refine ⟨?_, ?_, ?_⟩
    · rintro rfl a b
      exact Runs.withheld rfl hc hq ⟨only.same .lcy (by decide), withheld_bypass ..⟩
    · rintro rfl dr
      exact Runs.withheld rfl hc hq ⟨only.same .mem (by decide), withheld_bypass ..⟩
    · rintro rfl
      exact Runs.withheld rfl hc hq ⟨rfl, withheld_bypass ..⟩

end Sys2Proof.Laws

/-!
SUPPORT. The load of a weave image: the write engine's registers, its header checks and the check of the whole image.
-/

namespace Sys2Proof.Laws
open Sys2Proof Sys2Proof.Machine
set_option Elab.async false -- a thread per proof would not fit beside the model in the check's memory

/-! ### What the parts of a load leave -/

theorem host_modWea {n : Nat} (g : WeaPf → WeaPf) (s : State) (h : n < 4) :
    ((modWea n g s).host n).wea = g (s.host n).wea :=
  congrArg HostSt.wea (host_modHost n _ s h)

/-- A rejected load: its state, its reason and its offset; the interrupt leaves them. -/
theorem host_rejectLoad {n : Nat} (reason offset : Nat) (s : State) (h : n < 4) :
    ((rejectLoad n reason offset s).host n).wea =
      { (s.host n).wea with state := 4, reason := BitVec.ofNat 8 reason, errOffset := BitVec.ofNat 32 offset } := by
  unfold rejectLoad
  rw [Only.host (signal_only ..) rfl, host_modWea _ _ h]

theorem weave_rejectLoad (n reason offset : Nat) (s : State) : (rejectLoad n reason offset s).weave = s.weave :=
  (rejectLoad_only ..).same .weave (by decide)

theorem applyPatch_checking (l : List Section_) (s : State) : (applyPatch l s).weave.checking = s.weave.checking := by
  unfold applyPatch
  split <;> rfl

/-- A stopped load is no longer checked (R217). -/
theorem stopLoad_checking (n : Nat) (s : State) (img : List Byte) :
    (stopLoad n s).weave.checking ≠ some (some n, img) := by
  unfold stopLoad
  split
  · rename_i m img' hc
    split
    · have ended : ∀ c : Prop, ∀ _ : Decidable c, ∀ l u, u.weave.checking = none →
          (if c then applyPatch l u else u).weave.checking ≠ some (some n, img) := fun c _ l u hu => by
        split
        · rw [applyPatch_checking, hu]; nofun
        · rw [hu]; nofun
      exact ended _ _ _ _ rfl
    · rename_i hm
      rw [hc]
      rintro ⟨⟩
      exact hm rfl
  · rename_i hno
    exact hno n img

/-! ### What the events of a load do -/

theorem loadStart_starts {n : Nat} {s : State} (he : s.enabledPort n = true) (hl : (List.range 4).any s.loading = false)
    (hn : n < 4) (hp : s.boot.phase = .awaitWeave) (ht : s.imageFromTwin = false) (hmin : 64 ≤ (s.host n).wea.len.toNat)
    (hmax : (s.host n).wea.len.toNat ≤ imageMax 0) :
    loadStart false n s = emit (.imageRead n (s.host n).wea.addr 64) (modWea n (fun x => { x with state := 1 }) s) := by
  have idle : s.loading n = false := by
    simpa using List.any_eq_false.mp hl n (List.mem_range.mpr hn)
  unfold loadStart
  rw [he, idle, hl, hp, ht]
  refine (if_neg (by decide)).trans ((if_neg (by decide)).trans ((if_neg (by decide)).trans (if_neg ?_)))
  omega

theorem loadStart_not_awaiting {n : Nat} {s : State} (he : s.enabledPort n = true) (hl : s.loading n = false)
    (h : s.boot.phase ≠ .awaitWeave ∨ s.imageFromTwin = true) :
    loadStart false n s = rejectLoad n rsNotAwaiting 0 s := by
  unfold loadStart
  rw [he, hl]
  refine (if_neg (by decide)).trans (if_pos ?_)
  rw [Bool.or_eq_true, bne_iff_ne]
  exact h

theorem loadAbort_loading {n : Nat} {s : State} (h : s.loading n = true) :
    loadAbort n s = rejectLoad n rsAborted 0 (stopLoad n s) := if_pos h

theorem execImageFetchEnd_error {n : HostPort} {bytes : List Byte} {s : State} (h : (s.host n.val).wea.state = 1) :
    exec (.imageFetchEnd n bytes true) s = done (rejectLoad n.val rsFetchError 0 s) := by
  show execImageFetchEnd n bytes true s = _
  unfold execImageFetchEnd
  dsimp only
  rw [h]
  rfl

/-- The state in which a full image of good header is checked (R218). -/
def checkingImage (n : Nat) (img : List Byte) (s : State) : State :=
  let w := (s.host n).wea
  { s with weave := { s.weave with checking := some (some n, img) } } |> bumpAlways (44 + n) w.len.toNat
    |> emit (.imageRead n (w.addr + 64) (w.len.toNat - 64)) |> modWea n (fun x => { x with state := 2 })

theorem execImageFetchEnd_good {n : HostPort} {bytes : List Byte} {s : State} (h : (s.host n.val).wea.state = 1)
    (hh : headerReject (slice bytes 0 (s.host n.val).wea.len.toNat) (s.host n.val).wea.len.toNat s.id.stepping.toNat = none)
    (hk : field (slice bytes 0 (s.host n.val).wea.len.toNat) 6 2 = 0) :
    exec (.imageFetchEnd n bytes false) s =
      done (checkingImage n.val (slice bytes 0 (s.host n.val).wea.len.toNat) s) := by
  show execImageFetchEnd n bytes false s = _
  unfold execImageFetchEnd
  dsimp only
  rw [h, hh]
  dsimp only
  rw [if_neg (not_not_intro hk)]
  rfl

theorem checkingImage_only (n : Nat) (img : List Byte) (s : State) :
    Only [.weave, .hosts, .always, .out] s (checkingImage n img s) := by
  unfold checkingImage
  exact (((upd_weave (.refl _ _) rfl).andThen (bumpAlways_only ..)).andThen (emit_only ..)).andThen (modWea_only ..)

theorem execImageCheckDone_rejected {s : State} {by_ : Option Nat} {img : List Byte} {r : Reject}
    (h : s.weave.checking = some (by_, img))
    (hr : (s.fullCheck img ((Config.freeBits s.free).toNat % 2 ^ 32)).result = .error r) :
    exec .imageCheckDone s = done (imageRejected by_ r
      (applyPatch (s.fullCheck img ((Config.freeBits s.free).toNat % 2 ^ 32)).patched (nextFree s))) := by
  show execImageCheckDone s = _
  unfold execImageCheckDone
  rw [h]
  dsimp only
  rw [hr]

theorem execImageCheckDone_accepted {s : State} {n : Nat} {img : List Byte} {l : List Section_} {lib : List LibEntry}
    (h : s.weave.checking = some (some n, img))
    (hr : (s.fullCheck img ((Config.freeBits s.free).toNat % 2 ^ 32)).result = .ok (l, lib)) :
    exec .imageCheckDone s = done (signal (64 + n) 2 (modWea n (fun w => { w with state := 3 })
      (acceptImage (some n) (s.fullCheck img ((Config.freeBits s.free).toNat % 2 ^ 32)) l lib img
        (applyPatch (s.fullCheck img ((Config.freeBits s.free).toNat % 2 ^ 32)).patched (nextFree s))))) := by
  show execImageCheckDone s = _
  unfold execImageCheckDone
  rw [h]
  dsimp only
  rw [hr]

/-- Settles O39: the write engine's events change the load's registers, and the check ends as its result says. -/
theorem imageLoadActs : Obligations.ImageLoadActs := by
  unfold Obligations.ImageLoadActs
  refine ⟨fun s n hb he hl hp ht hmin hmax hq => ?_, fun s n hb he hl hw hq => ?_, fun s n hb hl hq => ?_,
    fun s n bytes hw hq => ?_, fun s n bytes hw hh hk hq => ?_, fun s by_ img hc => ?_⟩
  · have starts := loadStart_starts (s := bumpAlways (44 + fnPort (64 + n.val)) 4 s) he hl n.isLt hp ht hmin hmax
    have only : Only [.hosts, .out, .always] s _ :=
      ((bumpAlways_only (44 + fnPort (64 + n.val)) 4 s).within.andThen (modWea_only n.val (fun x => { x with state := 1 }) _))
        |>.andThen (emit_only (.imageRead n.val (s.host n.val).wea.addr 64) _)
    refine Runs.quiet (congrArg done ((hostPut_of_open hb).trans starts)) ((Only.fires only rfl).trans hq) ⟨?_, ?_, only⟩
    · exact host_modWea _ _ n.isLt
    · exact congrArg (· ++ [_]) (modHost_out ..)
  · have rejects := loadStart_not_awaiting (s := bumpAlways (44 + fnPort (64 + n.val)) 4 s) he hl hw
    refine Runs.quiet (congrArg done ((hostPut_of_open hb).trans rejects)) ?_ ⟨host_rejectLoad _ _ _ n.isLt, ?_⟩
    · exact (Only.fires (rejectLoad_only ..) rfl).trans hq
    · exact weave_rejectLoad ..
  · have aborts := loadAbort_loading (s := bumpAlways (44 + fnPort (64 + n.val)) 4 s) hl
    refine Runs.quiet (congrArg done ((hostPut_of_open hb).trans aborts)) ?_ ⟨?_, fun img => ?_⟩
    · rw [Only.fires (rejectLoad_only ..) rfl, Only.fires (stopLoad_only ..) rfl]
      exact hq
    · rw [host_rejectLoad _ _ _ n.isLt, Only.host (stopLoad_only ..) rfl]
      rfl
    · rw [weave_rejectLoad]
      exact stopLoad_checking _ _ _
  · exact Runs.quiet (execImageFetchEnd_error hw) ((Only.fires (rejectLoad_only ..) rfl).trans hq)
      (host_rejectLoad _ _ _ n.isLt)
  · have only := checkingImage_only n.val (slice bytes 0 (s.host n.val).wea.len.toNat) s
    refine Runs.quiet (execImageFetchEnd_good hw hh hk) ((Only.fires only rfl).trans hq) ⟨?_, ?_, ?_, only⟩
    · exact host_modWea _ _ n.isLt
    · exact (modWea_only ..).same .weave (by decide)
    · exact modHost_out ..
  · intro c u
    split
    · rename_i r hr
      exact execImageCheckDone_rejected hc hr
    · rename_i l lib hr
      rintro n rfl
      exact execImageCheckDone_accepted hc hr

end Sys2Proof.Laws

/-!
SUPPORT. REWEAVE and REWEAVE_COMMIT: their checks as the command starts, and what an accepted weft image leaves.
-/

namespace Sys2Proof.Laws
open Sys2Proof Sys2Proof.Machine
set_option Elab.async false -- a thread per proof would not fit beside the model in the check's memory

/-! ### The commands of the rings once one of them is marked started -/

/-- A change of elements that a filter drops before and after it is not seen through the filter. -/
theorem filter_map_dropped {α : Type} {q : α → Bool} {g : α → α} {l : List α}
    (h : ∀ a ∈ l, g a = a ∨ (q a = false ∧ q (g a) = false)) : (l.map g).filter q = l.filter q := by
  induction l with
  | nil => rfl
  | cons a l ih =>
    have rest := ih fun b hb => h b (.tail _ hb)
    rw [List.map_cons, List.filter_cons, List.filter_cons, rest]
    rcases h a (.head _) with e | ⟨e, e'⟩
    · rw [e]
    · rw [e, e']
      rfl

/-- The other commands of a scope do not see a command start. -/
theorem sameScope_started {s : State} {f : Nat} {tag : W32} {c : Cmd} (ht : c.tag = tag) :
    (started f tag s).sameScope f { c with started := true } = s.sameScope f c := by
  unfold State.sameScope started modCmd
  rw [cmdsWhere_modFn]
  · rfl
  · refine filter_map_dropped fun x _ => ?_
    by_cases hx : (x.tag == tag && !x.heldDup) = true
    · obtain ⟨htag, -⟩ := Bool.and_eq_true_iff.mp hx
      have own : ∀ a b : Bool, (a && !(f == f && x.tag == c.tag) && b) = false := fun a b => by
        rw [ht, htag, beq_self_eq_true]
        cases a <;> rfl
      right
      rw [if_pos hx]
      exact ⟨own _ _, own _ _⟩
    · exact .inl (if_neg hx)

theorem reweaveCheck_started {s : State} {f : Nat} {tag : W32} {c : Cmd} (len : Bool) (ht : c.tag = tag) :
    (started f tag s).reweaveCheck f { c with started := true } len = s.reweaveCheck f c len := by
  unfold State.reweaveCheck
  rw [sameScope_started ht]
  obtain ⟨v, hv⟩ := started_frame f tag s
  rw [hv]
  rfl

/-- A start adds no command to those that wait for their start. -/
theorem no_waiting_started {s : State} {f : Nat} {tag : W32} {sel : Nat → Cmd → Bool}
    (hs : ∀ k c, sel k c = true → c.started = false) (h : s.cmdsWhere sel = []) :
    (started f tag s).cmdsWhere sel = [] := by
  rw [cmdsWhere_nil] at h ⊢
  intro k hk c hc
  by_cases e : k = f
  · subst e
    unfold started modCmd at hc
    rw [fn_modFn _ _ _ hk] at hc
    obtain ⟨x, hx, rfl⟩ := List.mem_map.mp hc
    split
    · rw [Bool.and_eq_false_iff]
      left
      by_contra hsel
      exact Bool.noConfusion (hs k _ (Bool.of_not_eq_false hsel))
    · exact h k hk x hx
  · unfold started modCmd at hc
    rw [fn_modFn_ne _ _ _ _ e] at hc
    exact h k hk c hc

theorem warpOut_started {s : State} {f : Nat} {tag : W32} {c : Cmd} (h : s.warpOut c = false) :
    (started f tag s).warpOut { c with started := true } = false := by
  unfold State.warpOut at h ⊢
  rw [Bool.or_eq_false_iff, Bool.not_eq_false', List.isEmpty_iff] at h ⊢
  obtain ⟨hcommit, hwait⟩ := h
  have none := no_waiting_started (f := f) (tag := tag) (fun k x hx => ?_) hwait
  · obtain ⟨v, hv⟩ := started_frame f tag s
    rw [hv] at none ⊢
    exact ⟨hcommit, none⟩
  · unfold State.waitingWarp at hx
    simp only [Bool.and_eq_true, Bool.not_eq_true'] at hx
    exact hx.1.1.1.2

theorem weftOut_started {s : State} {f : Nat} {tag : W32} {c : Cmd} {k : Commit} (h : s.weftOut k c = false) :
    (started f tag s).weftOut k { c with started := true } = false := by
  unfold State.weftOut at h ⊢
  rw [List.any_eq_false] at h ⊢
  intro p hp hout
  refine h p hp ?_
  rw [Bool.and_eq_true, Bool.or_eq_true, Bool.not_eq_true', List.isEmpty_eq_false_iff] at hout ⊢
  obtain ⟨v, hv⟩ := started_frame f tag s
  have none := no_waiting_started (s := s) (f := f) (tag := tag)
    (sel := fun _ x => x.waitingWeft p && decide (x.fetched < c.fetched)) fun _ x hx => by
      unfold Cmd.waitingWeft at hx
      simp only [Bool.and_eq_true, Bool.not_eq_true'] at hx
      exact hx.1.1.1.2
  rw [hv] at hout none
  obtain ⟨affects, commit | waits⟩ := hout
  · exact ⟨affects, .inl commit⟩
  · exact ⟨affects, .inr fun e => waits (none e)⟩

/-! ### REWEAVE -/

theorem execReweave_accepted {s : State} {f : Fn} {tag : W32} {data : List Byte} {c : Cmd} (w : Waits s f.val tag 0x70 c)
    (h : s.reweaveCheck f.val c true = none) :
    exec (.reweave f tag data) s = done (modWork f.val tag (fun x => { x with stage := 1, data := slice data 0 c.length })
      (bumpAlways (44 + fnPort f.val) c.length (started f.val tag s))) := by
  refine congrArg done ((startCmd_eq _ w).trans ?_)
  rw [reweaveCheck_started true (cmd_tag w.here), h]
  rfl

/-! ### REWEAVE_CHECK_END -/

section
variable {s : State} {f : Fn} {tag : W32} {c : Cmd}

theorem execReweaveCheckEnd_pending (h : s.cmd f.val tag = some c) (hs : c.scope = 1)
    (hr : (s.part c.partition).resetPending = true) : exec (.reweaveCheckEnd f tag) s = done s := by
  show execReweaveCheckEnd f tag s = _
  unfold execReweaveCheckEnd
  dsimp only
  rw [h]
  refine if_pos ?_
  rw [hs, hr]
  exact Bool.or_true _

/-- What the check's end asks of a command before it looks at the image. -/
theorem checkEnd_unguarded (ho : c.op = 0x70) (hs : c.started = true) (hw : c.work.stage = 1)
    (hr : c.scope = 1 → (s.part c.partition).resetPending = false) :
    ¬ (c.op != 0x70 || !c.started || c.work.stage != 1 || (c.scope == 1 && (s.part c.partition).resetPending)) = true := by
  rw [ho, hs, hw]
  by_cases e : c.scope = 1
  · rw [hr e, Bool.and_false]
    decide
  · rw [beq_false_of_ne e]
    exact Bool.false_ne_true

/-- The result of the check of a REWEAVE's image. -/
def reweaveResult (s : State) (c : Cmd) : Except Reject (List Section_ × List LibEntry) :=
  (s.checkImage { kind := c.scope, p := c.partition, ports := c.ports } c.length (some c.partition)
    ((Config.freeBits s.free).toNat % 2 ^ 32) c.work.data).result

variable (h : s.cmd f.val tag = some c) (ho : c.op = 0x70) (hs : c.started = true) (hw : c.work.stage = 1)
  (hr : c.scope = 1 → (s.part c.partition).resetPending = false)
include h ho hs hw hr

theorem execReweaveCheckEnd_stopped (hst : s.err.stopped = true) :
    exec (.reweaveCheckEnd f tag) s = done (fail f.val tag stBusy s) := by
  show execReweaveCheckEnd f tag s = _
  unfold execReweaveCheckEnd
  dsimp only
  rw [h]
  exact (if_neg (checkEnd_unguarded ho hs hw hr)).trans (if_pos hst)

theorem execReweaveCheckEnd_rejected (hst : s.err.stopped = false) {e : Reject} (he : reweaveResult s c = .error e) :
    exec (.reweaveCheckEnd f tag) s = done (complete f.val tag
      { status := rejectStatus e.reason, r0 := s.heldGen c, r1 := c.work.data.length, r2 := e.reason, r3 := e.offset }
      (nextFree s)) := by
  show execReweaveCheckEnd f tag s = _
  unfold execReweaveCheckEnd
  dsimp only
  rw [h]
  refine (if_neg (checkEnd_unguarded ho hs hw hr)).trans ((if_neg (by rw [hst]; decide)).trans ?_)
  unfold reweaveResult at he
  rw [he]
  rfl

theorem execReweaveCheckEnd_weft (hst : s.err.stopped = false) (h1 : c.scope = 1) {l : List Section_} {lib : List LibEntry}
    (he : reweaveResult s c = .ok (l, lib)) :
    exec (.reweaveCheckEnd f tag) s = done (complete f.val tag
      { r0 := (acceptWeft c.partition l lib (imageIdOf c.work.data) (nextFree s)).heldGen c, r1 := c.work.data.length }
      (acceptWeft c.partition l lib (imageIdOf c.work.data) (nextFree s))) := by
  show execReweaveCheckEnd f tag s = _
  unfold execReweaveCheckEnd
  dsimp only
  rw [h]
  refine (if_neg (checkEnd_unguarded ho hs hw hr)).trans ((if_neg (by rw [hst]; decide)).trans ?_)
  unfold reweaveResult at he
  rw [he]
  dsimp only
  rw [if_pos h1]

end

/-! ### A weft image that is accepted -/

theorem acceptWeft_osier (p : Nat) (l : List Section_) (lib : List LibEntry) (id : W64) (s : State) :
    (acceptWeft p l lib id s).osier = (putLib lib s).osier := modPart_osier ..

/-- The plane that an accepted weft image becomes, with the next generation (R224). -/
def acceptedPlane (p : Nat) (l : List Section_) (id : W64) (s : State) : Plane :=
  { weft := ((payloadOf l 0x20 p).map Mem.ofBytes).getD [], gen := nextGen (s.part p).lastGen, imageId := id }

theorem acceptWeft_part {p : Nat} (l : List Section_) (lib : List LibEntry) (id : W64) (s : State) (hp : p < 64) :
    (acceptWeft p l lib id s).part p =
      { s.part p with inactive := some (acceptedPlane p l id s), lastGen := nextGen (s.part p).lastGen } := by
  unfold acceptWeft
  rw [part_modPart _ _ _ hp, Only.part (putLib_only ..) rfl]
  rfl

/-- Once its command is complete, an accepted weft image has changed the library and the partition's inactive plane. -/
theorem complete_acceptWeft {s : State} {f : Fn} {tag : W32} {c : Cmd} {p : Nat} (r : Res) (l : List Section_)
    (lib : List LibEntry) (id : W64) (h : s.cmd f.val tag = some c) (hp : p < 64) :
    let t := complete f.val tag r (acceptWeft p l lib id (nextFree s))
    t.osier = (putLib lib (nextFree s)).osier ∧ (t.part p).inactive = some (acceptedPlane p l id s) ∧
      (t.part p).active = (s.part p).active ∧ (t.part p).lastGen = nextGen (s.part p).lastGen ∧
      t.cmd f.val tag = none := by
  intro t
  have rings : Rings s (acceptWeft p l lib id (nextFree s)) :=
    (Rings.of_only (nextFree_only s) rfl).trans (acceptWeft_rings ..)
  have gone := (complete_answers r f.isLt ((cmd_of_rings rings f.val tag).trans h)).gone
  have part : t.part p = _ := (Only.part (complete_only ..) rfl p).trans (acceptWeft_part l lib id (nextFree s) hp)
  rw [cmd_tag h] at gone
  rw [part]
  exact ⟨((complete_only ..).same .osier (by decide)).trans (acceptWeft_osier ..), rfl, rfl, rfl, gone⟩

/-! ### REWEAVE_COMMIT -/

section
variable {s : State} {f : Fn} {tag : W32} {c : Cmd} (w : Waits s f.val tag 0x71 c) (h : s.reweaveCheck f.val c false = none)
include w h

/-- A commit of a weft that no warp commit hinders looks at the inactive plane: is there one, and of the generation named? -/
theorem execReweaveCommit_weftScope (h1 : c.scope = 1) (hw : s.warpOut c = false) :
    exec (.reweaveCommit f tag) s = done (
      if s.noPlane c then
        complete f.val tag { status := stImageRejected, r0 := s.activeGen c, r2 := rsNoPlane } (started f.val tag s)
      else if s.genDiffers c then
        complete f.val tag { status := stImageRejected, r0 := s.activeGen c, r2 := rsGenerationMismatch }
          (started f.val tag s)
      else modPart c.partition (fun x => { x with commit := some (s.newCommit f.val { c with started := true }) })
        (started f.val tag s)) := by
  refine congrArg done ((startCmd_eq _ w).trans ?_)
  have out := warpOut_started (f := f.val) (tag := tag) hw
  have weft : (Cmd.scope { c with started := true } == 2) = false := beq_false_of_ne (h1.trans_ne (by decide))
  dsimp only
  rw [reweaveCheck_started false (cmd_tag w.here), h, out, Bool.and_false]
  obtain ⟨v, hv⟩ := started_frame f.val tag s
  rw [hv]
  dsimp only
  rw [weft, Bool.false_and, if_neg Bool.false_ne_true, if_neg Bool.false_ne_true,
    if_pos (show Cmd.scope { c with started := true } = 1 from h1)]
  rfl

theorem execReweaveCommit_weft (h1 : c.scope = 1) (hw : s.warpOut c = false) (hn : s.noPlane c = false)
    (hg : s.genDiffers c = false) :
    exec (.reweaveCommit f tag) s = done (modPart c.partition
      (fun x => { x with commit := some (s.newCommit f.val { c with started := true }) }) (started f.val tag s)) := by
  rw [execReweaveCommit_weftScope w h h1 hw, hn, hg]
  rfl

theorem execReweaveCommit_noPlane (h1 : c.scope = 1) (hw : s.warpOut c = false) (hn : s.noPlane c = true) :
    exec (.reweaveCommit f tag) s =
      done (complete f.val tag { status := stImageRejected, r0 := s.activeGen c, r2 := rsNoPlane } (started f.val tag s)) := by
  rw [execReweaveCommit_weftScope w h h1 hw, hn]
  rfl

theorem execReweaveCommit_warp (h2 : c.scope = 2) (hw : s.weftOut (s.newCommit f.val { c with started := true }) c = false)
    (hn : s.noPlane c = false) (hg : s.genDiffers c = false) :
    exec (.reweaveCommit f tag) s = done { started f.val tag s with
      weave := { s.weave with warpCommit := some (s.newCommit f.val { c with started := true }) } } := by
  refine congrArg done ((startCmd_eq _ w).trans ?_)
  have out := weftOut_started (f := f.val) (tag := tag) hw
  dsimp only
  rw [reweaveCheck_started false (cmd_tag w.here), h]
  obtain ⟨v, hv⟩ := started_frame f.val tag s
  rw [hv] at out ⊢
  have hk : State.newCommit { s with fns := v } f.val { c with started := true } =
      s.newCommit f.val { c with started := true } := rfl
  dsimp only
  rw [hk, out, Bool.and_false]
  have hs : ¬ (Cmd.scope { c with started := true } = 1) := h2.trans_ne (by decide)
  rw [beq_false_of_ne hs]
  refine (if_neg Bool.false_ne_true).trans ((if_neg Bool.false_ne_true).trans
    ((if_neg ?_).trans ((if_neg ?_).trans (if_neg hs))))
  · exact Bool.eq_false_iff.mp hn
  · exact Bool.eq_false_iff.mp hg

end

/-- Settles O40: each event meets its checks, and what completes leaves the weave beyond its own part. -/
theorem reweaveActs : Obligations.ReweaveActs := by
  unfold Obligations.ReweaveActs
  refine ⟨fun s f tag data c w h => ?_, fun s f tag c h ho hs hw h1 hp hr hst hq => ?_, fun s f tag c h h1 hr hq => ?_,
    fun s f tag c h ho hs hw hr hst hq => ?_, fun s f tag c w h h1 hp hw hn hg => ?_, fun s f tag c w h h2 hw hn hg => ?_,
    fun s f tag c w h h1 hw hn => ?_⟩
  · have only : Only [.fns, .always] s _ := ((started_only f.val tag s).within.andThen
      (bumpAlways_only (44 + fnPort f.val) c.length _)).andThen
        (modWork_only f.val tag (fun x => { x with stage := 1, data := slice data 0 c.length }) _)
    have fetched : (bumpAlways (44 + fnPort f.val) c.length (started f.val tag s)).cmd f.val tag = _ :=
      (cmd_of_rings (.of_only (bumpAlways_only ..) rfl) ..).trans (cmd_started w.here)
    exact Runs.quiet (execReweave_accepted w h) ((Only.fires only rfl).trans w.quiet) ⟨only, cmd_modWork _ fetched⟩
  · split
    · rename_i e he
      have freed : Only [.fns, .out, .always, .free] s (nextFree s) := (nextFree_only s).within
      have only := freed.andThen (complete_only f.val tag
        { status := rejectStatus e.reason, r0 := s.heldGen c, r1 := c.work.data.length, r2 := e.reason, r3 := e.offset } _)
      exact Runs.quiet (execReweaveCheckEnd_rejected h ho hs hw (fun _ => hr) hst he) ((Only.fires only rfl).trans hq)
        ⟨answers_later _ f.isLt h (.of_only (nextFree_only s) rfl) (Grows.refl _).out rfl, only⟩
    · exact Runs.quiet (execReweaveCheckEnd_weft h ho hs hw (fun _ => hr) hst h1 ‹_›)
        ((Only.fires (complete_only ..) rfl).trans ((Only.fires (acceptWeft_only ..) rfl).trans hq))
        (complete_acceptWeft _ _ _ _ h hp)
  · rw [execReweaveCheckEnd_pending h h1 hr]
    exact done_quiet hq
  · have failed : fail f.val tag stBusy s = complete f.val tag (s.refusal c stBusy) s := by
      unfold fail
      rw [h]
    have only := complete_only f.val tag (s.refusal c stBusy) s
    refine Runs.quiet ((execReweaveCheckEnd_stopped h ho hs hw hr hst).trans (congrArg done failed))
      ((Only.fires only rfl).trans hq) ⟨complete_answers _ f.isLt h, only.same .weave (by decide)⟩
  · have only : Only [.fns, .parts] s _ := (started_only f.val tag s).within.andThen (modPart_only c.partition
      (fun x => { x with commit := some (s.newCommit f.val { c with started := true }) }) _)
    refine Runs.quiet (execReweaveCommit_weft w h h1 hw hn hg) ((Only.fires only rfl).trans w.quiet) ⟨?_, only⟩
    rw [part_modPart _ _ _ hp]
  · exact Runs.quiet (execReweaveCommit_warp w h h2 hw hn hg) ((Only.fires (started_only ..) rfl).trans w.quiet) rfl
  · have only : Only [.fns, .always, .out] s _ := (started_only f.val tag s).within.andThen (complete_only f.val tag
      { status := stImageRejected, r0 := s.activeGen c, r2 := rsNoPlane } _)
    exact Runs.quiet (execReweaveCommit_noPlane w h h1 hw hn) ((Only.fires only rfl).trans w.quiet)
      ⟨answers_started _ f.isLt w.here, only.same .parts (by decide)⟩

end Sys2Proof.Laws

/-!
SUPPORT. What the operations behind a weft switch leave of the partitions: planes, commits, routes and owners, all that
`partStill` reads, and so more than the roles that a partition reset keeps. The laws of the settling of the lattice say so
of its own operations; here are the runs, the coder and the latch points, which it does not reach.
-/

namespace Sys2Proof.Laws
open Sys2Proof Sys2Proof.Machine
set_option Elab.async false -- a thread per proof would not fit beside the model in the check's memory

/-- Every partition is as it was in what `partStill` reads. -/
structure PartsStill (s t : State) : Prop where
  part : ∀ q, partStill (t.part q) = partStill (s.part q)

theorem PartsStill.refl (s : State) : PartsStill s s := ⟨fun _ => rfl⟩

theorem PartsStill.trans {s t u : State} (h : PartsStill s t) (k : PartsStill t u) : PartsStill s u :=
  ⟨fun q => (k.part q).trans (h.part q)⟩

theorem PartsStill.of_still {s t : State} (h : Still s t) : PartsStill s t := ⟨h.part⟩

theorem PartsStill.of_only {l : List Fld} {s t : State} (h : Only l s t) (e : (!l.contains .parts) = true := by rfl) :
    PartsStill s t := ⟨fun q => congrArg partStill (Only.part h e q)⟩

/-- One more operation that leaves the partitions. -/
theorem PartsStill.step {l : List Fld} {s t u : State} (h : PartsStill s t) (k : Only l t u)
    (e : (!l.contains .parts) = true := by rfl) : PartsStill s u := h.trans (.of_only k e)

/-- One more change of a partition beyond what `partStill` reads. -/
theorem PartsStill.change {p : Nat} {g : PartSt → PartSt} {s t : State} (h : PartsStill s t)
    (e : ∀ x, partStill (g x) = partStill x := by intro; rfl) : PartsStill s (modPart p g t) :=
  h.trans (.of_still (modPart_still p g t (e _)))

theorem PartsStill.ite {c : Prop} [Decidable c] {s t u : State} (h : PartsStill s t) (k : PartsStill s u) :
    PartsStill s (if c then t else u) := by
  split <;> assumption

theorem PartsStill.each {α : Type} {l : List α} {g : α → State → State} {s t : State} (h : PartsStill s t)
    (k : ∀ a u, PartsStill u (g a u)) : PartsStill s (each l g t) := by
  refine h.trans ?_
  clear h
  unfold Machine.each
  induction l generalizing t with
  | nil => exact .refl _
  | cons a l ih => exact (k a t).trans ih

/-! ### The coder -/

theorem modCoded_partsStill (p : Nat) (g : Frame → Frame) (s : State) : PartsStill s (modCoded p g s) :=
  .ite (.change (.refl s)) (.change (.refl s))

theorem putCoded_partsStill (p : Nat) (ends : Bool) (l : List Byte) (s : State) : PartsStill s (putCoded p ends l s) := by
  induction l generalizing s with
  | nil => exact .refl _
  | cons b l ih =>
    cases l with
    | nil => exact modCoded_partsStill ..
    | cons c l => exact (modCoded_partsStill p _ s).trans (ih _)

theorem endSpan_partsStill (p : Nat) (s : State) : PartsStill s (endSpan p s) := by
  unfold endSpan
  extract_lets c e bytes
  clear_value e bytes
  exact .ite (.refl _) (((PartsStill.refl s).change.trans (putCoded_partsStill ..)).step (modMeters_only ..))

theorem closeCoded_partsStill (p : Nat) (s : State) : PartsStill s (closeCoded p s) := by
  unfold closeCoded
  split
  · exact (PartsStill.refl s).change
  · exact .refl _

theorem putSwitch_partsStill (p : Nat) (payload : List Byte) (ofSwitch : Option Bool) (s : State) :
    PartsStill s (putSwitch p payload ofSwitch s) := by
  unfold putSwitch
  extract_lets r dram waits kept f s1 s2 s3 s4
  have e1 : PartsStill s s1 := .of_still (deliverInput_still ..)
  have e2 : PartsStill s s2 := .ite e1.change e1
  have e3 : PartsStill s s3 := .ite (e2.trans (.of_still (dramArrive_still ..))) e2
  have e4 : PartsStill s s4 := .ite (e3.step (modMeters_only ..)) e3
  exact .ite (e2.trans (.of_still (holdDram_still ..))) (.ite (e4.trans (.of_still (hubEvent_still ..))) e4)

theorem resetCoder_partsStill (p reason : Nat) (newEnc : Bool) (newIndex : Nat) (ofSwitch : Option Bool) (s : State) :
    PartsStill s (resetCoder p reason newEnc newIndex ofSwitch s) := by
  have closed := (endSpan_partsStill p s).trans (closeCoded_partsStill p _)
  unfold resetCoder
  dsimp only
  split
  · exact ((closed.trans (putSwitch_partsStill ..)).change).step (restartRun_only ..)
  · exact (closed.trans (putSwitch_partsStill ..)).change

theorem syncCoder_partsStill (p reason : Nat) (s : State) : PartsStill s (syncCoder p reason s) :=
  .ite (.refl _) ((resetCoder_partsStill ..).trans (.of_still (pumpPort_still ..)))

theorem markLost_partsStill (r : TraceRec) (s : State) : PartsStill s (markLost r s) := by
  unfold markLost
  exact (PartsStill.refl s).change

theorem flushDram_partsStill (l : List (TraceRec × Bool)) (s : State) : PartsStill s (flushDram l s) :=
  (PartsStill.refl s).each fun _ _ => .ite (.of_still (dramOnly_still ..)) (.ite (.of_still (dramArrive_still ..))
    ((PartsStill.of_still (dramArrive_still ..)).trans (markLost_partsStill ..)))

/-! ### The runs that a weft binds -/

theorem takeRun_partsStill (q : Run) (status cause : Nat) (s : State) : PartsStill s (takeRun q status cause s) := by
  unfold takeRun
  extract_lets x o holders s1 s2 s2' s3 s4
  have e1 : PartsStill s s1 := .of_only (upd_osier (l := [.osier]) (.refl _ _) rfl)
  have e2 : PartsStill s s2 := e1.trans (.of_still (writeRec_still ..))
  have e2' : PartsStill s s2' := .ite (e2.step (handOver_only ..)) e2
  have e3 : PartsStill s s3 := .ite e2'.change e2'
  have e4 : PartsStill s s4 := .ite e3 (e3.step (markBinding_only ..))
  exact e4.step (completeWaits_only ..)

theorem startRun_partsStill {a : RunReq} {s t : State} {q : Run} (h : startRun a s = some (q, t)) : PartsStill s t := by
  unfold startRun at h
  split at h
  · cases h
  · split at h
    · cases h
    · split at h
      · cases h
      · obtain ⟨rfl, rfl⟩ := Prod.mk.inj (Option.some.inj h)
        exact (PartsStill.of_only (upd_osier (l := [.osier]) (.refl _ _) rfl)).trans (.of_still (writeRec_still ..))

theorem startBound_partsStill (p role index : Nat) (s : State) : PartsStill s (startBound p role index s) := by
  unfold startBound
  split
  · rename_i h
    have marked := (startRun_partsStill h).step (markBinding_only p role false false _)
    exact .ite marked.change marked
  · exact .of_only (markBinding_only ..)

theorem retryBound_partsStill (p role : Nat) (s : State) : PartsStill s (retryBound p role s) := by
  unfold retryBound
  split
  · have started := fun i => startBound_partsStill p role i s
    exact .ite (.ite ((started _).trans (syncCoder_partsStill ..)) (started _)) (.refl _)
  · exact .refl _

theorem retryAll_partsStill (s : State) : PartsStill s (retryAll s) :=
  (PartsStill.refl s).each fun _ _ => (retryBound_partsStill ..).trans (retryBound_partsStill ..)

theorem rebindPred_partsStill (p : Nat) (old new : Mem) (s : State) : PartsStill s (rebindPred p old new s) := by
  unfold rebindPred
  extract_lets s1 s2
  have e1 : PartsStill s s1 := by
    dsimp only [s1]
    split
    · exact takeRun_partsStill ..
    · exact .refl _
  have e2 : PartsStill s s2 := e1.step (markBinding_only ..)
  refine .ite (.refl _) (PartsStill.trans ?_ (retryAll_partsStill _))
  split
  · exact e2.trans (startBound_partsStill ..)
  · exact e2

theorem rebindCoding_partsStill (p : Nat) (want : Option Nat) (s : State) : PartsStill s (rebindCoding p want s) := by
  unfold rebindCoding
  extract_lets s1 s2
  have e1 : PartsStill s s1 := by
    dsimp only [s1]
    split
    · exact takeRun_partsStill ..
    · exact .refl _
  have e2 : PartsStill s s2 := e1.change.step (markBinding_only ..)
  refine .ite (.refl _) ?_
  split
  · exact e2.trans (startBound_partsStill ..)
  · exact e2

theorem switchPoint_partsStill (p : Nat) (s : State) : PartsStill s (switchPoint p s) := by
  unfold switchPoint
  extract_lets x
  split
  · exact .refl _
  · extract_lets s1 held s2 want c s3
    have e2 : PartsStill s s2 := (rebindCoding_partsStill ..).change
    have e3 : PartsStill s s3 := .ite (e2.trans (resetCoder_partsStill ..)) e2
    exact .ite (((e3.trans (flushDram_partsStill ..)).trans (.of_still (pumpPort_still ..))).trans (retryAll_partsStill _))
      (.refl _)

theorem checkSwitch_partsStill (p : Nat) (s : State) : PartsStill s (checkSwitch p s) :=
  (PartsStill.refl s).each fun _ _ => switchPoint_partsStill ..

/-! ### The counters -/

theorem dropConfig_partsStill (p : Nat) (st : Byte) (s : State) : PartsStill s (dropConfig p st s) := by
  unfold dropConfig
  split
  · exact (PartsStill.refl s).change.step (fail_only ..)
  · exact .refl _

theorem closeCounters_partsStill (p : Nat) (new : List (Nat × W64)) (s : State) : PartsStill s (closeCounters p new s) :=
  (PartsStill.refl s).each fun _ u => .ite (.refl _) (PartsStill.refl u).change

theorem takeLatch_partsStill (p : Nat) (q : LatchReq) (s : State) : PartsStill s (takeLatch p q s) := by
  unfold takeLatch
  extract_lets x included words cfg new reprogram closed closeWords s1 s2 latch close s3 s4
  have e1 : PartsStill s s1 := (PartsStill.refl s).change
  have e2 : PartsStill s s2 := .ite (e1.trans (closeCounters_partsStill ..)).change e1
  have latched : PartsStill s (if q.record then writeRec 6 p latch s2 else s2) :=
    .ite (e2.trans (.of_still (writeRec_still ..))) e2
  have closedAt := PartsStill.ite (c := reprogram = true) (latched.trans (.of_still (writeRec_still 6 p close _))) latched
  have e3 : PartsStill s s3 := .ite closedAt.change closedAt
  have e4 : PartsStill s s4 := by
    dsimp only [s4]
    clear_value cfg s3
    split
    · exact e3.step (complete_only ..)
    · exact e3
  exact e4.trans (.of_still (hubEvent_still ..))

/-! ### What follows the exchange of the planes -/

theorem weaveAtSwitch_partsStill (p : Nat) (payload : List Byte) (s : State) : PartsStill s (weaveAtSwitch p payload s) :=
  (PartsStill.of_still (deliverInput_still ..)).trans (.of_still (placeRec_still ..))

theorem switchCoding_partsStill (p : Nat) (old new : Mem) (forced : Bool) (s : State) :
    PartsStill s (switchCoding p old new forced s) :=
  .ite (.refl _) ((PartsStill.refl s).change.trans (checkSwitch_partsStill ..))

theorem startGraph_partsStill (p : Nat) (s : State) : PartsStill s (startGraph p s) :=
  (PartsStill.refl s).change.each fun _ _ => .of_only (uncertain_only ..)

theorem stopGraph_partsStill (p : Nat) (s : State) : PartsStill s (stopGraph p s) :=
  (PartsStill.refl s).change.each fun _ _ => .of_only (modUnit_only ..)

theorem switchGraph_partsStill (p : Nat) (on : Bool) (s : State) : PartsStill s (switchGraph p on s) :=
  .ite ((startGraph_partsStill p s).each fun _ _ => .of_only (keepEvtEn_only ..)) (.ite (stopGraph_partsStill ..) (.refl _))

end Sys2Proof.Laws

/-!
SUPPORT. A commit of a weft: its settle point, the exchange of its planes, and its end.
-/

namespace Sys2Proof.Laws
open Sys2Proof Sys2Proof.Machine
set_option Elab.async false -- a thread per proof would not fit beside the model in the check's memory

/-! ### The settle point of a weft commit -/

theorem noteWeft_settles {p : Nat} {s : State} {c : Commit} (hc : (s.part p).commit = some c) (hw : c.waits s.t = true)
    (hs : s.settledFor p c.fetched = true) :
    noteWeft p s = modPart p (fun x => { x with commit := x.commit.map fun c => { c with settled := some s.t } }) s := by
  unfold noteWeft
  rw [hc]
  exact if_pos (Bool.and_eq_true_iff.mpr ⟨hw, hs⟩)

theorem noteWeft_unsettled {p : Nat} {s : State}
    (h : ∀ c, (s.part p).commit = some c → (c.waits s.t && s.settledFor p c.fetched) = false) : noteWeft p s = s := by
  unfold noteWeft
  cases hc : (s.part p).commit with
  | none => rfl
  | some c => exact if_neg (Bool.eq_false_iff.mp (h c hc))

theorem waits_of_settled {c : Commit} {x now : Nat} (h : c.settled = some x) : c.waits now = false := by
  unfold Commit.waits
  rw [h]
  simp

theorem noteWeft_of_settled {p : Nat} {s : State} {c : Commit} {x : Nat} (hc : (s.part p).commit = some c)
    (h : c.settled = some x) : noteWeft p s = s :=
  noteWeft_unsettled fun c' hc' => by
    rw [← Option.some.inj (hc.symm.trans hc'), waits_of_settled h]
    rfl

/-! ### WEFT_SWITCH -/

theorem execWeftSwitch_between_edges {p : Part} {s : State} (h : s.ctlEdge = false) :
    exec (.weftSwitch p) s = done (noteWeft p.val s) := by
  have edge : (noteWeft p.val s).ctlEdge = false := by
    unfold State.ctlEdge
    rw [Only.now (noteWeft_only ..) rfl]
    exact h
  show execWeftSwitch p s = _
  unfold execWeftSwitch
  dsimp only
  split
  · refine if_neg ?_
    unfold State.maySwitch
    rw [edge]
    simp
  · rfl

theorem execWeftSwitch_switches {p : Part} {s : State} {c : Commit} {x : Nat} {new : Plane}
    (hc : (s.part p.val).commit = some c) (hn : (s.part p.val).inactive = some new) (hx : c.settled = some x)
    (hm : s.maySwitch p.val c = true) : exec (.weftSwitch p) s = done (switchWeft p.val c new s) := by
  show execWeftSwitch p s = _
  unfold execWeftSwitch
  dsimp only
  rw [noteWeft_of_settled hc hx, hc, hn]
  exact if_pos hm

/-! ### The planes and the routing behind the exchange -/

/-- What a weft switch exchanges of a partition: its planes, and the routing with its timestamp. -/
def planes (x : PartSt) : Plane × Option Plane × List Byte × List Byte × W64 :=
  (x.active, x.inactive, x.routes, x.oldRoutes, x.switchTs)

theorem planes_of_partStill {x y : PartSt} (h : partStill x = partStill y) : planes x = planes y := by
  obtain ⟨-, -, ha, -, -, hi, -, -, -, hr, ho, ht, -⟩ := PartStill.mk.inj h
  unfold planes
  rw [ha, hi, hr, ho, ht]

/-- The outstanding commit is none of a partition's planes. -/
theorem planes_modCommit (p : Nat) (g : PartSt → Option Commit) (s : State) :
    planes ((modPart p (fun x => { x with commit := g x }) s).part p) = planes (s.part p) := by
  by_cases hp : p < 64
  · rw [part_modPart _ _ _ hp]
    rfl
  · rw [show modPart p _ s = s from dif_neg hp]

theorem finishCommit_part {p : Nat} (c : Commit) (s : State) (hp : p < 64) :
    (finishCommit p c s).part p = { s.part p with commit := none } := by
  unfold finishCommit
  rw [Only.part (complete_only ..) rfl, ← part_modPart p (fun x => { x with commit := none }) s hp]
  dsimp only
  split
  · rfl
  · exact Only.part (endWatchApply_only ..) rfl p

/-- The state in which the planes have changed places and all that follows from it has been done, but for the commit. -/
def exchanged (p : Nat) (new : Plane) (s : State) : State :=
  let old := (s.part p).active
  let sels := (List.range 64).map fun k => (k, weftSel new.weft k)
  s |> dropConfig p stBusy |> swapPlanes p new |> takeLatch p { lkind := 5, switch := some sels }
    |> weaveAtSwitch p (weavePayload old.gen new.gen new.imageId 0 1 0 0)
    |> switchCoding p old.weft new.weft (s.part p).forcedRaw |> rebindPred p old.weft new.weft
    |> switchHoop p old.weft new.weft |> switchGraph p (hangFlag new.weft 0)

theorem exchanged_partsStill (p : Nat) (new : Plane) (s : State) :
    PartsStill (swapPlanes p new (dropConfig p stBusy s)) (exchanged p new s) :=
  (((((takeLatch_partsStill ..).trans (weaveAtSwitch_partsStill ..)).trans (switchCoding_partsStill ..)).trans
    (rebindPred_partsStill ..)).trans (.of_only (switchHoop_only ..))).trans (switchGraph_partsStill ..)

theorem exchanged_planes {p : Nat} (new : Plane) (s : State) (hp : p < 64) :
    planes ((exchanged p new s).part p) =
      (new, some (s.part p).active, weftRoutes new.weft, (s.part p).routes, s.now) := by
  have dropped := planes_of_partStill ((dropConfig_partsStill p stBusy s).part p)
  obtain ⟨ha, -, hr, -⟩ := by simpa only [planes, Prod.mk.injEq] using dropped
  rw [planes_of_partStill ((exchanged_partsStill p new s).part p)]
  unfold swapPlanes
  rw [part_modPart _ _ _ hp]
  show (new, some _, _, _, _) = _
  rw [ha, hr, Only.now (dropConfig_only ..) rfl]

/-- After the exchange the switch only goes on with the commit: it ends, or the watchpoint defaults are written. -/
theorem switchWeft_planes {p : Nat} (c : Commit) (new : Plane) (s : State) (hp : p < 64) :
    planes ((switchWeft p c new s).part p) = planes ((exchanged p new s).part p) := by
  unfold switchWeft
  extract_lets old sels s1 units skipped c1 s2
  have committed : planes (s2.part p) = planes (s1.part p) := planes_modCommit ..
  split
  · rw [finishCommit_part _ _ hp]
    exact committed
  · have written : Only [.ports, .always, .plait, .out] s2 (each units (fun u => writeDefaults u p (.watchApply p u)) s2) :=
      each_only (.refl _ _) fun _ _ => writeDefaults_only ..
    rw [Only.part written rfl]
    exact committed

/-! ### WATCH_APPLY_END -/

theorem execWatchApplyEnd_ends {p : Part} {s : State} {c : Commit} (hc : (s.part p.val).commit = some c)
    (hs : c.switched = true) (h : c.unitsLeft = [] ∨ (s.part p.val).switchTs.toNat + s.haltTimeout p.val ≤ s.t) :
    exec (.watchApplyEnd p) s = done (finishCommit p.val c s) := by
  show execWatchApplyEnd p s = _
  unfold execWatchApplyEnd
  dsimp only
  rw [hc]
  refine if_pos ?_
  rw [hs, Bool.true_and, Bool.or_eq_true, List.isEmpty_iff, decide_eq_true_iff]
  exact h

/-- The commit of a partition is outstanding no more, nor are the writes of defaults that no die has been sent. -/
def commitDropped (p : Nat) (c : Commit) (s : State) : State :=
  let t := modPart p (fun x => { x with commit := none }) s
  if c.unitsLeft.isEmpty then t else endWatchApply p t

theorem commitDropped_only (p : Nat) (c : Commit) (s : State) : Only [.ports, .parts] s (commitDropped p c s) :=
  ite_only (modPart_only ..).within ((modPart_only ..).within.andThen (endWatchApply_only ..))

theorem finishCommit_eq (p : Nat) (c : Commit) (s : State) : finishCommit p c s = complete c.fn c.tag
    { r0 := c.gen.toNat, r1 := c.skipped + c.unitsLeft.length, r3 := c.settleUs } (commitDropped p c s) := rfl

/-- The command of a finished commit completes with the units that it skipped. -/
theorem finishCommit_answers {p : Nat} {s : State} {c : Commit} {k : Cmd} (hf : c.fn < 68) (hk : s.cmd c.fn c.tag = some k) :
    Answers s (finishCommit p c s) c.fn k
      { r0 := c.gen.toNat, r1 := c.skipped + c.unitsLeft.length, r3 := c.settleUs } := by
  have dropped := commitDropped_only p c s
  have out : s.out <+: (commitDropped p c s).out := by rw [Only.out dropped rfl]
  rw [finishCommit_eq]
  exact answers_later _ hf hk (.of_only dropped rfl) out (Only.now dropped rfl)

/-- Settles O41: the settle point is noted alone, and what follows the exchange of the planes, the settling of the lattice
among it, leaves them. -/
theorem weftCommitsAct : Obligations.WeftCommitsAct := by
  unfold Obligations.WeftCommitsAct
  refine ⟨fun s p c hc hs hn hd hset he hq => ?_, fun s p c x new hc hn hx hm => ?_, fun s p c x new hc hn hx hm => ?_,
    fun s p c k hc hs hu hq hf hk => ?_, fun s p c k hc hs ht hq hf hk => ?_⟩
  · have waits : c.waits s.t = true := by
      unfold Commit.waits
      rw [hs, hn, decide_eq_true hd]
      rfl
    refine Runs.quiet (execWeftSwitch_between_edges he) ((Only.fires (noteWeft_only ..) rfl).trans hq)
      ⟨?_, noteWeft_only .., fun q hne => ?_⟩
    · rw [noteWeft_settles hc waits hset, part_modPart _ _ _ p.isLt, hc]
      rfl
    · rw [noteWeft_settles hc waits hset, part_modPart_ne _ _ _ _ hne]
  · rw [execWeftSwitch_switches hc hn hx hm]
    rfl
  · have settled := planes_of_partStill ((settle_still (switchWeft p.val c new s)).part p.val)
    rw [switchWeft_planes c new s p.isLt, exchanged_planes new s p.isLt] at settled
    refine Runs.of_done (execWeftSwitch_switches hc hn hx hm) ?_
    simpa only [planes, Prod.mk.injEq] using settled
  · refine Runs.quiet (execWatchApplyEnd_ends hc hs (.inl hu)) ((Only.fires (finishCommit_only ..) rfl).trans hq) ⟨?_, ?_⟩
    · rw [finishCommit_part _ _ p.isLt]
    · have answers := finishCommit_answers (p := p.val) hf hk
      rw [hu] at answers
      exact answers
  · refine Runs.quiet (execWatchApplyEnd_ends hc hs (.inr ht)) ((Only.fires (finishCommit_only ..) rfl).trans hq) ⟨?_, ?_⟩
    · rw [finishCommit_part _ _ p.isLt]
    · exact finishCommit_answers hf hk

end Sys2Proof.Laws

/-!
SUPPORT. A commit of the warp, and a settle time that runs out: what the settle points noted at its end leave.
-/

namespace Sys2Proof.Laws
open Sys2Proof Sys2Proof.Machine
set_option Elab.async false -- a thread per proof would not fit beside the model in the check's memory

/-! ### The settle points of the weft commits -/

/-- A partition's commit is as it was, or its settle point is noted. -/
def SettlesPart (s t : State) (p : Nat) : Prop :=
  t.part p = s.part p ∨ ∃ c, (s.part p).commit = some c ∧ s.settledFor p c.fetched = true ∧
    t.part p = { s.part p with commit := some { c with settled := some s.t } }

/-- Nothing but the settle points of weft commits is noted between the states. -/
structure Notes (s t : State) : Prop where
  only : Only [.parts] s t
  part : ∀ p, SettlesPart s t p

theorem Notes.refl (s : State) : Notes s s := ⟨.refl _ _, fun _ => .inl rfl⟩

/-- What makes a partition settled is no part of its commit. -/
theorem Notes.settledFor {s t : State} (h : Notes s t) (p fetched : Nat) :
    t.settledFor p fetched = s.settledFor p fetched := by
  have commands : ∀ sel, t.cmdsWhere sel = s.cmdsWhere sel := fun sel => cmdsWhere_rings (.of_only h.only rfl) sel
  have slath : t.slath = s.slath := h.only.same .slath (by decide)
  unfold State.settledFor State.capturing
  rw [commands, slath]
  rcases h.part p with e | ⟨c, -, -, e⟩ <;> rw [e]

theorem Notes.trans {s t u : State} (h : Notes s t) (k : Notes t u) : Notes s u := by
  refine ⟨h.only.trans k.only, fun p => ?_⟩
  have time : t.t = s.t := congrArg BitVec.toNat (Only.now h.only rfl)
  rcases k.part p with e | ⟨c, hc, hs, e⟩
  · rcases h.part p with e' | ⟨c, hc, hs, e'⟩
    · exact .inl (e.trans e')
    · exact .inr ⟨c, hc, hs, e.trans e'⟩
  · rw [h.settledFor] at hs
    right
    rcases h.part p with e' | ⟨c', hc', hs', e'⟩
    · rw [e'] at hc e
      exact ⟨c, hc, hs, time ▸ e⟩
    · rw [e'] at hc e
      obtain rfl := Option.some.inj hc
      exact ⟨c', hc', hs', time ▸ e⟩

theorem noteWeft_notes (p : Nat) (s : State) : Notes s (noteWeft p s) := by
  refine ⟨noteWeft_only .., fun q => ?_⟩
  by_cases h : ∃ c, (s.part p).commit = some c ∧ (c.waits s.t && s.settledFor p c.fetched) = true
  · obtain ⟨c, hc, hw⟩ := h
    obtain ⟨hw, hs⟩ := Bool.and_eq_true_iff.mp hw
    rw [noteWeft_settles hc hw hs]
    by_cases hq : q = p
    · subst hq
      by_cases hb : q < 64
      · refine .inr ⟨c, hc, hs, ?_⟩
        rw [part_modPart _ _ _ hb, hc]
        rfl
      · rw [show modPart q _ s = s from dif_neg hb]
        exact .inl rfl
    · exact .inl (part_modPart_ne _ _ _ _ hq)
  · rw [noteWeft_unsettled fun c hc => Bool.eq_false_iff.mpr fun e => h ⟨c, hc, e⟩]
    exact .inl rfl

/-- Every weft commit has looked at its settle point. -/
def weftsNoted (s : State) : State := each (List.range 64) noteWeft s

theorem weftsNoted_notes (s : State) : Notes s (weftsNoted s) := by
  unfold weftsNoted each
  generalize List.range 64 = l
  induction l generalizing s with
  | nil => exact .refl _
  | cons p l ih => exact (noteWeft_notes p s).trans (ih _)

theorem weftsNoted_weave (s : State) : (weftsNoted s).weave = s.weave := (weftsNoted_notes s).only.same .weave (by decide)

/-! ### The settle point of the warp commit -/

theorem Notes.warpParts {s t : State} (h : Notes s t) (c : Commit) : t.warpParts c = s.warpParts c := by
  have weave : t.weave = s.weave := h.only.same .weave (by decide)
  have carries : ∀ n p, t.carries n p = s.carries n p := fun n p => by
    unfold State.carries
    rw [Only.port h.only rfl]
  unfold State.warpParts State.warpAffects State.warpTouches
  simp only [carries, weave]

theorem noteWarp_unsettled {s : State}
    (h : ∀ c, s.weave.warpCommit = some c →
      (c.waits s.t && (s.warpParts c).all fun p => s.settledFor p c.fetched) = false) : noteWarp s = s := by
  unfold noteWarp
  cases hc : s.weave.warpCommit with
  | none => rfl
  | some c => exact if_neg (Bool.eq_false_iff.mp (h c hc))

/-- A warp commit of which a partition is not settled notes no settle point, whatever the weft commits note. -/
theorem noteSettled_of_unsettled {s : State}
    (h : ∀ c, s.weave.warpCommit = some c → ((s.warpParts c).all fun p => s.settledFor p c.fetched) = false) :
    noteSettled s = weftsNoted s := by
  have noted := weftsNoted_notes s
  refine noteWarp_unsettled (s := weftsNoted s) fun c hc => ?_
  rw [noted.warpParts, funext fun p => noted.settledFor p c.fetched,
    h c (weftsNoted_weave s ▸ hc), Bool.and_false]

/-! ### WARP_SETTLE -/

theorem execWarpSettle_installs {s : State} {c : Commit} {x : Nat} (hc : s.weave.warpCommit = some c)
    (hs : c.switched = false) (hx : c.settled = some x) :
    exec .warpSettle s = done (setPortsLeft
      (((s.weave.staged.filter fun e => c.portMask.getLsbD e.1).filter
        fun e => e.2.entry.enable && (s.port e.1).warp.retrains e.2.entry).map (·.1))
      (each (s.weave.staged.filter fun e => c.portMask.getLsbD e.1) (fun e => installPort e.1 e.2.entry)
        { s with weave := { s.weave with
            warpCommit := some { c with
              switched := true,
              previous := (s.weave.staged.filter fun e => c.portMask.getLsbD e.1).map fun e => (e.1, (s.port e.1).warp),
              affected := s.warpParts c },
            staged := s.weave.staged.filter fun e => !c.portMask.getLsbD e.1 } })) := by
  have noted : noteWarp s = s := noteWarp_unsettled fun c' hc' => by
    rw [← Option.some.inj (hc.symm.trans hc'), waits_of_settled hx]
    rfl
  show execWarpSettle s = _
  unfold execWarpSettle
  dsimp only
  rw [noted, hc]
  refine if_neg ?_
  rw [hs, hx]
  exact Bool.false_ne_true

theorem execWarpSettle_late {s : State} {c : Commit} (hc : s.weave.warpCommit = some c) (hx : c.settled = none)
    (hd : c.deadline < s.t) : exec .warpSettle s = done s := by
  have noted : noteWarp s = s := noteWarp_unsettled fun c' hc' => by
    obtain rfl := Option.some.inj (hc.symm.trans hc')
    have late : c.waits s.t = false := by
      unfold Commit.waits
      rw [decide_eq_false (by omega), Bool.and_false]
    rw [late]
    rfl
  show execWarpSettle s = _
  unfold execWarpSettle
  dsimp only
  rw [noted, hc]
  refine if_pos ?_
  rw [hx]
  exact Bool.or_true _

/-! ### WARP_COMMIT_DONE -/

theorem warpRecords_grows (ps : List Nat) (c : Commit) (outcome : Nat) (new : W32) (status : Byte) (s : State) :
    Grows s (warpRecords ps c outcome new status s) := each_grows (.refl _) fun _ _ => writeRec_grows ..

theorem giveUpStakes_grows (n : Nat) (s : State) : Grows s (giveUpStakes n s) :=
  ite_grows _ (each_grows (.refl _) fun _ _ => ask_grows ..) (.refl _)

/-- The state in which the outstanding warp commit has ended, but for its records and its completion. -/
def warpEnded (gen : W32) (ports : List Nat) (s : State) : State :=
  each ports giveUpStakes { s with weave := { s.weave with warpCommit := none, warpActive := gen } }

theorem warpEnded_only (gen : W32) (ports : List Nat) (s : State) :
    Only [.weave, .ports, .always, .plait, .out] s (warpEnded gen ports s) :=
  each_only (upd_weave (.refl _ _) rfl) fun _ _ => (giveUpStakes_only ..).within

theorem warpEnded_weave (gen : W32) (ports : List Nat) (s : State) :
    (warpEnded gen ports s).weave = { s.weave with warpCommit := none, warpActive := gen } :=
  (each_only (.refl [.ports, .always, .plait, .out] _) fun _ _ => giveUpStakes_only ..).same .weave (by decide)

theorem warpEnded_out (gen : W32) (ports : List Nat) (s : State) : s.out <+: (warpEnded gen ports s).out :=
  (each_grows (.of_eq rfl rfl rfl rfl rfl) fun _ _ => giveUpStakes_grows .. : Grows s (warpEnded gen ports s)).out

theorem execWarpCommitDone_ends {s : State} {c : Commit} (hc : s.weave.warpCommit = some c) (hs : c.switched = true)
    (hd : (((List.range 8).filter fun n => c.portMask.getLsbD n).all (s.warpPortDone c)) = true) :
    exec .warpCommitDone s = done (complete c.fn c.tag
      { status := if c.failedPorts.isEmpty then stOk else stLinkDown, part := !c.failedPorts.isEmpty, r0 := c.gen.toNat,
        r3 := c.settleUs }
      (warpRecords (s.warpParts c) c 0 c.gen (if c.failedPorts.isEmpty then stOk else stLinkDown)
        (warpEnded c.gen ((List.range 8).filter fun n => c.portMask.getLsbD n) s))) := by
  show execWarpCommitDone s = _
  unfold execWarpCommitDone
  rw [hc]
  refine if_neg ?_
  rw [hs, hd]
  decide

/-- The command of a warp commit completes behind the commit's records, and the settling of the lattice leaves both. -/
theorem complete_warpRecords {s u : State} {c : Commit} {k : Cmd} (r : Res) (ps : List Nat) (outcome : Nat) (new : W32)
    (status : Byte) (hf : c.fn < 68) (hk : s.cmd c.fn c.tag = some k) (hr : Rings s u) (ho : s.out <+: u.out)
    (hn : u.now = s.now) :
    let t := settle (complete c.fn c.tag r (warpRecords ps c outcome new status u))
    t.weave = u.weave ∧ Answers s t c.fn k r := by
  have only : Only latticeFields u (settle (complete c.fn c.tag r (warpRecords ps c outcome new status u))) :=
    ((warpRecords_only ..).within.andThen (complete_only ..)).andThen (settle_only _)
  have answers := answers_later r hf hk (hr.trans (warpRecords_rings ps c outcome new status u))
    (ho.trans (warpRecords_grows ..).out) ((Only.now (warpRecords_only ..) rfl).trans hn)
  exact ⟨only.same .weave (by decide), answers_grow answers (settle_grows _)⟩

/-! ### COMMIT_SETTLE_TIMEOUT -/

/-- The commit of a command has found no settle point in its time (R240). -/
def overdue (f : Nat) (tag : W32) (now : Nat) (c : Commit) : Bool :=
  c.fn == f && c.tag == tag && !c.switched && c.settled.isNone && decide (c.deadline ≤ now)

theorem overdue_of {c : Commit} {f : Nat} {tag : W32} {now : Nat} (hf : c.fn = f) (ht : c.tag = tag)
    (hs : c.switched = false) (hx : c.settled = none) (hd : c.deadline ≤ now) : overdue f tag now c = true := by
  unfold overdue
  rw [hf, ht, hs, hx, decide_eq_true hd]
  simp

theorem command_of_overdue {c : Commit} {f : Nat} {tag : W32} {now : Nat} (h : overdue f tag now c = true) :
    c.fn = f ∧ c.tag = tag := by
  unfold overdue at h
  simp only [Bool.and_eq_true, beq_iff_eq] at h
  exact h.1.1.1

/-- A partition's commit fails with BUSY where `mine` selects it. -/
def failPart (mine : Commit → Bool) (p : Nat) (s : State) : State :=
  if (s.part p).commit.any mine then failCommit p stBusy s else s

/-- So do those of all partitions. -/
def failParts (mine : Commit → Bool) (s : State) : State := each (List.range 64) (failPart mine) s

theorem execCommitSettleTimeout_eq (f : Fn) (tag : W32) (s : State) :
    exec (.commitSettleTimeout f tag) s =
      done (if (failParts (overdue f.val tag s.t) (noteSettled s)).weave.warpCommit.any (overdue f.val tag s.t) then
        failWarp stBusy (failParts (overdue f.val tag s.t) (noteSettled s))
      else failParts (overdue f.val tag s.t) (noteSettled s)) := by
  show execCommitSettleTimeout f tag s = _
  unfold execCommitSettleTimeout failParts failPart overdue
  rfl

theorem failParts_only (mine : Commit → Bool) (s : State) : Only latticeFields s (failParts mine s) :=
  each_only (.refl _ _) fun _ _ => ite_only (failCommit_only ..).within (.refl _ _)

theorem each_eq_self {α : Type} {l : List α} {g : α → State → State} {s : State} (h : ∀ a ∈ l, g a s = s) :
    each l g s = s := by
  unfold each
  induction l with
  | nil => rfl
  | cons a l ih =>
    rw [List.foldl_cons, h a (.head _)]
    exact ih fun b hb => h b (.tail _ hb)

/-- A loop that comes to `a` leads from `I` to `J`, where every other turn keeps `I` and every turn keeps `J`. -/
theorem each_reaches {α : Type} {I J : State → Prop} {g : α → State → State} {a : α} {l : List α} {s : State} (ha : a ∈ l)
    (hI : ∀ b ≠ a, ∀ t, I t → I (g b t)) (hIJ : ∀ t, I t → J (g a t)) (hJ : ∀ b t, J t → J (g b t)) (h : I s) :
    J (each l g s) := by
  have keeps : ∀ (l : List α) t, J t → J (each l g t) := fun l => by
    unfold each
    induction l with
    | nil => exact fun _ h => h
    | cons b l ih => exact fun t h => ih _ (hJ b t h)
  induction l generalizing s with
  | nil => cases ha
  | cons b l ih =>
    by_cases e : b = a
    · exact keeps l _ (e ▸ hIJ s h)
    · exact ih ((List.mem_cons.mp ha).resolve_left (Ne.symm e)) (hI b e s h)

theorem Notes.commit {s t : State} (h : Notes s t) {p : Nat} {x : Commit} (hx : (t.part p).commit = some x) :
    ∃ y, (s.part p).commit = some y ∧ y.fn = x.fn ∧ y.tag = x.tag := by
  rcases h.part p with e | ⟨c, hc, -, e⟩
  · exact ⟨x, e ▸ hx, rfl, rfl⟩
  · rw [e] at hx
    obtain rfl := Option.some.inj hx
    exact ⟨c, hc, rfl, rfl⟩

theorem Notes.unsettled {s t : State} (h : Notes s t) {p : Nat} {c : Commit} (hc : (s.part p).commit = some c)
    (hs : s.settledFor p c.fetched = false) : t.part p = s.part p := by
  rcases h.part p with e | ⟨c', hc', hs', -⟩
  · exact e
  · obtain rfl := Option.some.inj (hc.symm.trans hc')
    exact absurd (hs.symm.trans hs') Bool.false_ne_true

/-- The warp commit is outstanding no more. -/
def warpDropped (s : State) : State := { s with weave := { s.weave with warpCommit := none } }

theorem failWarp_open {s : State} {c : Commit} (status : Byte) (hc : s.weave.warpCommit = some c) (hs : c.switched = false) :
    failWarp status s = complete c.fn c.tag { status := status, r0 := c.oldGen.toNat, r3 := c.settleUs }
      (warpRecords (s.warpParts c) c 1 c.oldGen status (warpDropped s)) := by
  unfold failWarp
  rw [hc]
  exact if_neg (by rw [hs]; decide)

/-- The warp commit of the command is the one that fails, where no weft commit is the command's. -/
theorem execCommitSettleTimeout_warp {s : State} {f : Fn} {tag : W32} {c : Commit} (hc : s.weave.warpCommit = some c)
    (ho : overdue f.val tag s.t c = true) (hs : ((s.warpParts c).all fun p => s.settledFor p c.fetched) = false)
    (hp : ∀ p < 64, ∀ x, (s.part p).commit = some x → ¬ (x.fn = f.val ∧ x.tag = tag)) :
    exec (.commitSettleTimeout f tag) s = done (failWarp stBusy (weftsNoted s)) := by
  have others : failParts (overdue f.val tag s.t) (weftsNoted s) = weftsNoted s := each_eq_self fun p hmem => by
    refine if_neg fun mine => ?_
    obtain ⟨x, hx, hm⟩ := (Option.any_eq_true ..).mp mine
    obtain ⟨y, hy, hfn, htag⟩ := (weftsNoted_notes s).commit hx
    exact hp p (List.mem_range.mp hmem) y hy (hfn ▸ htag ▸ command_of_overdue hm)
  rw [execCommitSettleTimeout_eq, noteSettled_of_unsettled fun c' hc' => Option.some.inj (hc.symm.trans hc') ▸ hs, others,
    weftsNoted_weave, hc]
  exact congrArg done (if_pos ho)

/-! ### A weft commit that fails -/

theorem failCommit_part_ne {p q : Nat} (status : Byte) (s : State) (h : q ≠ p) :
    partStill ((failCommit p status s).part q) = partStill (s.part q) := by
  unfold failCommit
  split
  · rfl
  · dsimp only
    split
    · rfl
    · rw [Only.part (complete_only ..) rfl, (writeRec_still ..).part, part_modPart_ne _ _ _ _ h]

theorem failCommit_grows (p : Nat) (status : Byte) (s : State) : Grows s (failCommit p status s) := by
  unfold failCommit
  split
  · exact .refl _
  · exact ite_grows _ (.refl _) (((modPart_grows _ _ _ fun h => h).trans (writeRec_grows ..)).trans (complete_grows ..))

/-- Whatever the state, a command that is completed is fetched no more. -/
theorem complete_gone {f : Nat} {tag : W32} (r : Res) (s : State) (hf : f < 68) : (complete f tag r s).cmd f tag = none := by
  cases h : s.cmd f tag with
  | none =>
    have same : complete f tag r s = s := by
      unfold complete completeOne
      rw [h]
    rw [same, h]
  | some c => exact cmd_tag h ▸ (complete_answers r hf h).gone

theorem failCommit_ends {p : Nat} {s : State} {c : Commit} (status : Byte) (hp : p < 64) (hc : (s.part p).commit = some c)
    (hs : c.switched = false) (hf : c.fn < 68) :
    ((failCommit p status s).part p).commit = none ∧ ((failCommit p status s).part p).active = (s.part p).active ∧
      (failCommit p status s).cmd c.fn c.tag = none := by
  unfold failCommit
  rw [hc]
  dsimp only
  rw [hs, if_neg Bool.false_ne_true]
  refine ⟨?_, ?_, complete_gone _ _ hf⟩
  all_goals rw [Only.part (complete_only ..) rfl]
  · refine (congrArg PartStill.commit ((writeRec_still ..).part p)).trans ?_
    show (State.part (modPart _ _ _) _).commit = _
    rw [part_modPart _ _ _ hp]
  · refine (congrArg PartStill.active ((writeRec_still ..).part p)).trans ?_
    show (State.part (modPart _ _ _) _).active = _
    rw [part_modPart _ _ _ hp]

/-- The commit of a partition is outstanding, under an active plane. -/
def CommitStands (p : Nat) (c : Commit) (active : Plane) (s : State) : Prop :=
  (s.part p).commit = some c ∧ (s.part p).active = active

/-- The commit of a partition has ended with its command, and has left the active plane. -/
def CommitEnded (p f : Nat) (tag : W32) (active : Plane) (s : State) : Prop :=
  (s.part p).commit = none ∧ (s.part p).active = active ∧ s.cmd f tag = none

theorem CommitEnded.kept {p f : Nat} {tag : W32} {active : Plane} {s t : State} (h : CommitEnded p f tag active s)
    (hs : partStill (t.part p) = partStill (s.part p)) (hg : Grows s t) : CommitEnded p f tag active t := by
  obtain ⟨hc, ha, hk⟩ := h
  exact ⟨(congrArg PartStill.commit hs).trans hc, (congrArg PartStill.active hs).trans ha, (hg.fns f).gone tag hk⟩

theorem failPart_part_ne {mine : Commit → Bool} {p q : Nat} (s : State) (h : q ≠ p) :
    partStill ((failPart mine p s).part q) = partStill (s.part q) := by
  unfold failPart
  split
  · exact failCommit_part_ne _ _ h
  · rfl

theorem failPart_grows (mine : Commit → Bool) (p : Nat) (s : State) : Grows s (failPart mine p s) :=
  ite_grows _ (failCommit_grows ..) (.refl _)

/-- The commits of all partitions that `mine` selects fail, that of `p` among them. -/
theorem failParts_end {mine : Commit → Bool} {p : Nat} {s : State} {c : Commit} (hp : p < 64) (hf : c.fn < 68)
    (hc : (s.part p).commit = some c) (hs : c.switched = false) (hm : mine c = true) :
    CommitEnded p c.fn c.tag (s.part p).active (failParts mine s) := by
  refine each_reaches (I := CommitStands p c (s.part p).active) (List.mem_range.mpr hp) (fun q hq t h => ?_)
    (fun t h => ?_) (fun q t h => ?_) ⟨hc, rfl⟩
  · obtain ⟨hc, ha⟩ := h
    have still := failPart_part_ne (mine := mine) t (Ne.symm hq)
    exact ⟨(congrArg PartStill.commit still).trans hc, (congrArg PartStill.active still).trans ha⟩
  · obtain ⟨hc, ha⟩ := h
    obtain ⟨ended, active, gone⟩ := failCommit_ends stBusy hp hc hs hf
    rw [show failPart mine p t = failCommit p stBusy t from if_pos (by rw [hc]; exact hm)]
    exact ⟨ended, active.trans ha, gone⟩
  · by_cases hq : p = q
    · subst hq
      rw [show failPart mine p t = t from if_neg (by rw [h.1]; exact Bool.false_ne_true)]
      exact h
    · exact h.kept (failPart_part_ne t hq) (failPart_grows ..)

/-- Where no warp commit is outstanding, the settle time ends the weft commits of its command alone. -/
theorem execCommitSettleTimeout_wefts {s : State} {f : Fn} {tag : W32} (h : s.weave.warpCommit = none) :
    exec (.commitSettleTimeout f tag) s = done (failParts (overdue f.val tag s.t) (weftsNoted s)) := by
  have weave : (failParts (overdue f.val tag s.t) (weftsNoted s)).weave = s.weave :=
    ((failParts_only ..).same .weave (by decide)).trans (weftsNoted_weave s)
  rw [execCommitSettleTimeout_eq, noteSettled_of_unsettled fun c hc => nomatch h.symm.trans hc]
  refine congrArg done (if_neg ?_)
  rw [weave, h]
  exact Bool.false_ne_true

theorem settleUs_of_unsettled {c : Commit} (h : c.settled = none) : c.settleUs = 0 := by
  unfold Commit.settleUs
  rw [h, Option.getD_none, Nat.sub_self, Nat.zero_div]

/-- Settles O42: the settle points that are noted at the end of the settle time leave the commits that it ends, and each
end is a completion behind the commit's records. -/
theorem warpCommitsAct : Obligations.WarpCommitsAct := by
  unfold Obligations.WarpCommitsAct
  refine ⟨fun s c x hc hs hx => ?_, fun s c hc _ hx hd hq => ?_, fun s c k hc hs hd hf hk => ?_,
    fun s f tag c k hc hfn htag hs hx hd hun hk hp => ?_, fun s f tag p c k hw hc hfn htag hs hx hd hun hk => ?_⟩
  · rw [execWarpSettle_installs hc hs hx]
    rfl
  · rw [execWarpSettle_late hc hx hd]
    exact done_quiet hq
  · obtain ⟨weave, answers⟩ := complete_warpRecords
      { status := if c.failedPorts.isEmpty then stOk else stLinkDown, part := !c.failedPorts.isEmpty, r0 := c.gen.toNat,
        r3 := c.settleUs }
      (s.warpParts c) 0 c.gen (if c.failedPorts.isEmpty then stOk else stLinkDown) hf hk
      (.of_only (warpEnded_only c.gen ((List.range 8).filter fun n => c.portMask.getLsbD n) s) rfl) (warpEnded_out ..)
      (Only.now (warpEnded_only ..) rfl)
    rw [warpEnded_weave] at weave
    exact Runs.of_done (execWarpCommitDone_ends hc hs hd) ⟨congrArg WeaveCtl.warpCommit weave,
      congrArg WeaveCtl.warpActive weave, answers⟩
  · have warp : (weftsNoted s).weave.warpCommit = some c := (congrArg WeaveCtl.warpCommit (weftsNoted_weave s)).trans hc
    have dropped : Only [.parts, .weave] s (warpDropped (weftsNoted s)) := upd_weave (weftsNoted_notes s).only.within rfl
    have out : s.out <+: (warpDropped (weftsNoted s)).out := by
      rw [Only.out dropped rfl]
    obtain ⟨weave, answers⟩ := complete_warpRecords { status := stBusy, r0 := c.oldGen.toNat, r3 := c.settleUs }
      ((weftsNoted s).warpParts c) 1 c.oldGen stBusy (hfn ▸ f.isLt) (hfn ▸ htag ▸ hk) (.of_only dropped rfl)
      out (Only.now dropped rfl)
    have fails := execCommitSettleTimeout_warp hc (overdue_of hfn htag hs hx hd) hun hp
    rw [failWarp_open stBusy warp hs] at fails
    rw [settleUs_of_unsettled hx, hfn] at answers
    rw [settleUs_of_unsettled hx, hfn] at fails weave
    exact Runs.of_done fails ⟨congrArg WeaveCtl.warpCommit weave, answers⟩
  · subst htag
    have same := (weftsNoted_notes s).unsettled hc hun
    obtain ⟨ended, active, gone⟩ := failParts_end p.isLt (hfn ▸ f.isLt) ((congrArg PartSt.commit same).trans hc) hs
      (overdue_of hfn rfl hs hx hd)
    rw [hfn] at gone
    have still := (settle_still (failParts (overdue f.val c.tag s.t) (weftsNoted s))).part p.val
    have grows := settle_grows (failParts (overdue f.val c.tag s.t) (weftsNoted s))
    refine Runs.of_done (execCommitSettleTimeout_wefts hw) ⟨?_, ?_, ?_⟩
    · exact (congrArg PartStill.commit still).trans ended
    · exact (grows.fns f.val).gone _ gone
    · exact (congrArg PartStill.active still).trans (active.trans (congrArg PartSt.active same))

end Sys2Proof.Laws

/-!
SUPPORT. The registers of a function's rings as its host writes them, and a ring error.
-/

namespace Sys2Proof.Laws
open Sys2Proof Sys2Proof.Machine
set_option Elab.async false -- a thread per proof would not fit beside the model in the check's memory

/-! ### A host's write -/

/-- A write that its port counts changes the function as one that is not counted. -/
theorem becomes_counted {s u t : State} {f : Nat} {x : FnSt} (k : Only [.always] s u) (h : FnBecomes u t f x) :
    FnBecomes s t f x :=
  ⟨h.here, fun n e => (h.others n e).trans (Only.fn k rfl n), k.within.trans h.rest⟩

/-- A host's write that changes only its function's rings. -/
theorem runs_hostPut_modFn {i : Instr} {s : State} {f : Fn} {g : State → State} {m : FnSt → FnSt}
    (h : exec i s = done (hostPut f.val g s)) (ho : s.barOpen f.val = true) (hq : s.fires = [])
    (hg : ∀ u, u.fn f.val = s.fn f.val → g u = modFn f.val m u) :
    Runs i s fun t => FnBecomes s t f.val (m (s.fn f.val)) := by
  have counts : Only [.always] s (bumpAlways (44 + fnPort f.val) 4 s) := bumpAlways_only ..
  have same := Only.fn counts rfl f.val
  refine Runs.quiet (h.trans (congrArg done ((hostPut_of_open ho).trans (hg _ same)))) ?_ ?_
  · rw [modFn_fires, Only.fires counts rfl, hq]
  · exact same ▸ becomes_counted counts (becomes (by omega))

/-! ### A ring error (R276) -/

theorem setEvent_still (f b : Nat) (s : State) : Still s (setEvent f b s) := (modFn_still _ _ _ rfl).trans (signal_still ..)

theorem ringErr_fires (f code : Nat) (s : State) : (ringErr f code s).fires = s.fires := Only.fires (ringErr_only ..) rfl

/-- A function after a ring error: fetching has ended, the code is noted, and the indices stand. -/
structure RingFails (x y : FnSt) (code : Nat) : Prop where
  error : y.ringError = true
  fetching : y.fetching = false
  code : y.errorCode = BitVec.ofNat 4 code
  tail : y.tail = x.tail
  head : y.head = x.head

theorem ringErr_fails {f : Nat} (code : Nat) (s : State) {t : State} (hf : f < 136) (h : Still (ringErr f code s) t) :
    RingFails (s.fn f) (t.fn f) code := by
  have still := ((setEvent_still f 0 _).trans h).fn f
  rw [fn_modFn _ _ _ hf] at still
  obtain ⟨_, _, _, ht, hh, _, _, hf, hr, hc, _⟩ := FnStill.mk.inj still
  exact ⟨hr, hf, hc, ht, hh⟩

/-! ### DOORBELL -/

/-- Descriptors that a new tail puts behind the head. -/
def ahead (x : FnSt) (v : W32) : Nat := (v.toNat % 4096 + x.cmdSize - x.head.toNat % x.cmdSize) % x.cmdSize

theorem doorbell_enabled {f : Nat} {v : W32} {s : State} (he : (s.fn f).enable = true) : doorbell f v s =
    if (s.fn f).cmdSize ≤ v.toNat % 4096 then ringErr f 2 s
    else if 0 < ahead (s.fn f) v ∧ ahead (s.fn f) v < (s.fn f).asked then ringErr f 3 s
    else modFn f (fun y => { y with tail := v.setWidth 12, hwm := hwmCmd y.hwm (ahead (s.fn f) v) }) s := by
  have index : BitVec.ofNat 12 (v.toNat % 4096) = v.setWidth 12 := BitVec.eq_of_toNat_eq (by simp)
  rw [← index]
  exact if_neg (by rw [he]; decide)

theorem doorbell_ahead {f : Nat} {v : W32} {s : State} (he : (s.fn f).enable = true) (hv : v.toNat % 4096 < (s.fn f).cmdSize)
    (ha : ¬ (0 < ahead (s.fn f) v ∧ ahead (s.fn f) v < (s.fn f).asked)) :
    doorbell f v s = modFn f (fun y => { y with tail := v.setWidth 12, hwm := hwmCmd y.hwm (ahead (s.fn f) v) }) s :=
  (doorbell_enabled he).trans ((if_neg (Nat.not_le.mpr hv)).trans (if_neg ha))

theorem doorbell_behind {f : Nat} {v : W32} {s : State} (he : (s.fn f).enable = true)
    (hv : v.toNat % 4096 < (s.fn f).cmdSize) (h0 : 0 < ahead (s.fn f) v) (ha : ahead (s.fn f) v < (s.fn f).asked) :
    doorbell f v s = ringErr f 3 s :=
  (doorbell_enabled he).trans ((if_neg (Nat.not_le.mpr hv)).trans (if_pos ⟨h0, ha⟩))

theorem doorbell_beyond {f : Nat} {v : W32} {s : State} (he : (s.fn f).enable = true)
    (hv : (s.fn f).cmdSize ≤ v.toNat % 4096) : doorbell f v s = ringErr f 2 s :=
  (doorbell_enabled he).trans (if_pos hv)

/-- A doorbell that the ring refuses. -/
theorem runs_doorbell_fails {f : Fn} {v : W32} {s : State} {code : Nat} (ho : s.barOpen f.val = true) (hq : s.fires = [])
    (h : ∀ u, u.fn f.val = s.fn f.val → doorbell f.val v u = ringErr f.val code u) :
    Runs (.doorbell f v) s fun t => RingFails (s.fn f.val) (t.fn f.val) code := by
  have counts : Only [.always] s (bumpAlways (44 + fnPort f.val) 4 s) := bumpAlways_only ..
  have same := Only.fn counts rfl f.val
  refine Runs.quiet (congrArg done ((hostPut_of_open ho).trans (h _ same))) ?_ ?_
  · rw [ringErr_fires, Only.fires counts rfl, hq]
  · exact same ▸ ringErr_fails code _ (by omega) (.refl _)

/-! ### ENABLE -/

theorem ringEnable_good {f : Nat} {s : State} (h : (s.fn f).sizeOk = true) : ringEnable f s = modFn f FnSt.enabled s := if_pos h

theorem ringEnable_bad {f : Nat} {s : State} (h : (s.fn f).sizeOk = false) :
    ringEnable f s = modFn f (fun y => { y with errorCode := 1, hwm := 0 }) s := if_neg (by rw [h]; decide)

/-- Settles O23: each write is counted at its port and changes its function's rings, or is a ring error. -/
theorem ringRegistersAct : Obligations.RingRegistersAct := by
  unfold Obligations.RingRegistersAct
  refine ⟨fun s f v ho he hq hv => ⟨fun ha => ?_, fun h0 ha => ?_⟩, fun s f v ho he hq hv => ?_, fun s f v ho hq => ?_,
    fun s f ho hq hk => ?_, fun s f ho hq hk => ?_, fun s f ho hq => ?_⟩
  · refine runs_hostPut_modFn (g := doorbell f.val v) (m := fun y => { y with tail := _, hwm := hwmCmd y.hwm _ }) rfl ho hq
      fun u same => ?_
    rw [← same] at he hv ha ⊢
    exact doorbell_ahead he hv ha
  · obtain ⟨t, hx, fails⟩ := runs_doorbell_fails (code := 3) ho hq fun u same =>
      doorbell_behind (same ▸ he) (same ▸ hv) (same ▸ h0) (same ▸ ha)
    exact ⟨t, hx, fails.error, fails.fetching, fails.code, fails.tail⟩
  · obtain ⟨t, hx, fails⟩ := runs_doorbell_fails (code := 2) ho hq fun u same => doorbell_beyond (same ▸ he) (same ▸ hv)
    exact ⟨t, hx, fails.error, fails.fetching, fails.code, fails.tail⟩
  · exact runs_hostPut_modFn (g := cplHeadWrite f.val v) rfl ho hq fun _ _ => rfl
  · exact runs_hostPut_modFn (g := ringEnable f.val) rfl ho hq fun u same => ringEnable_good (same ▸ hk)
  · exact runs_hostPut_modFn (g := ringEnable f.val) rfl ho hq fun u same => ringEnable_bad (same ▸ hk)
  · exact runs_hostPut_modFn (g := ringDisable f.val) rfl ho hq fun _ _ => rfl

end Sys2Proof.Laws

/-!
SUPPORT. The commands of a session: NOP, the fetch of a descriptor, the end of coalescing, and errors of host memory.
-/

namespace Sys2Proof.Laws
open Sys2Proof Sys2Proof.Machine
set_option Elab.async false -- a thread per proof would not fit beside the model in the check's memory

/-! ### NOP -/

theorem execNop_starts {s : State} {f : Fn} {tag : W32} {c : Cmd} (w : Waits s f.val tag 0x01 c) :
    exec (.nop f tag) s = done (complete f.val tag {} (started f.val tag s)) :=
  congrArg done (startCmd_eq _ w)

/-! ### DESCRIPTOR_FETCH -/

/-- The head behind the next descriptor. -/
def nextHead (x : FnSt) : FnSt := { x with head := BitVec.ofNat 12 ((x.head.toNat + 1) % x.cmdSize) }

/-- A descriptor has left the host: its turn is taken, the head has moved, and its bytes are counted. -/
def descriptorRead (f : Nat) (s : State) : State :=
  s |> takeTurn f |> modFn f nextHead |> bumpAlways (44 + fnPort f) 64

theorem execDescriptorFetch_good {s : State} {f : Fn} (d : BitVec 512) (h : s.mayFetch f.val = true) :
    exec (.descriptorFetch f d false) s = done (takeDescriptor f.val d (descriptorRead f.val s)) :=
  (if_neg (by rw [h]; decide)).trans (if_neg (by decide))

theorem execDescriptorFetch_error {s : State} {f : Fn} (d : BitVec 512) (h : s.mayFetch f.val = true) :
    exec (.descriptorFetch f d true) s = done (ringErr f.val 4 (takeTurn f.val s)) :=
  (if_neg (by rw [h]; decide)).trans (if_pos rfl)

theorem takeTurn_fn (f : Nat) (s : State) (h : f < 136) : ∃ n, (takeTurn f s).fn f = { s.fn f with asked := n } := by
  unfold takeTurn
  rw [fn_modFn _ _ _ h, Only.fn (modHost_only ..) rfl]
  exact ⟨_, rfl⟩

theorem descriptorRead_fn (f : Nat) (s : State) (h : f < 136) : ∃ n, (descriptorRead f s).fn f =
    { s.fn f with asked := n, head := BitVec.ofNat 12 (((s.fn f).head.toNat + 1) % (s.fn f).cmdSize) } := by
  obtain ⟨n, hn⟩ := takeTurn_fn f s h
  refine ⟨n, (Only.fn (bumpAlways_only ..) rfl f).trans ?_⟩
  rw [fn_modFn _ _ _ h, hn]
  rfl

theorem descriptorRead_only (f : Nat) (s : State) : Only [.hosts, .fns, .always] s (descriptorRead f s) :=
  ((takeTurn_only ..).within.andThen (modFn_only ..)).andThen (bumpAlways_only ..)

theorem modHost_frame (n : Nat) (g : HostSt → HostSt) (s : State) : ∃ v, modHost n g s = { s with hosts := v } := by
  unfold modHost
  split
  · exact ⟨_, rfl⟩
  · exact ⟨s.hosts, rfl⟩

theorem takeTurn_frame (f : Nat) (s : State) : ∃ H F, takeTurn f s = { s with hosts := H, fns := F } := by
  obtain ⟨H, hH⟩ := modHost_frame (fnPort f) (fun h => { h with turn := turnOf f }) s
  unfold takeTurn
  rw [hH]
  exact ⟨H, modFn_frame ..⟩

theorem descriptorRead_frame (f : Nat) (s : State) :
    ∃ H F A, descriptorRead f s = { s with hosts := H, fns := F, always := A } := by
  obtain ⟨H, _, ht⟩ := takeTurn_frame f s
  obtain ⟨F, hF⟩ := modFn_frame f nextHead (takeTurn f s)
  unfold descriptorRead
  rw [hF, ht]
  exact ⟨H, F, _, rfl⟩

/-- The checks of a descriptor do not read what its fetch changes. -/
theorem descriptorRead_check (f : Nat) (c : Cmd) (s : State) :
    (descriptorRead f s).descriptorCheck f c = s.descriptorCheck f c := by
  obtain ⟨H, F, A, h⟩ := descriptorRead_frame f s
  rw [h]
  rfl

theorem descriptorRead_noteBacklog (f : Nat) (d : BitVec 512) (s : State) :
    (descriptorRead f s).noteBacklog (newCmd d (descriptorRead f s).t) = s.noteBacklog (newCmd d s.t) := by
  obtain ⟨H, F, A, h⟩ := descriptorRead_frame f s
  rw [h]
  rfl

theorem noteBacklog_tag (s : State) (c : Cmd) : (s.noteBacklog c).tag = c.tag := by
  unfold State.noteBacklog
  split <;> rfl

theorem afterRelease_of_fn {s t : State} {f : Nat} (c : Cmd) (hf : (t.fn f).inflight = (s.fn f).inflight)
    (hp : ∀ p, t.part p = s.part p) : t.afterRelease f c = s.afterRelease f c := by
  unfold State.afterRelease State.owns
  rw [hf, hp]

/-- A new descriptor that passes its checks is put in flight. -/
theorem takeDescriptor_new {f : Nat} {d : BitVec 512} {s : State} {c : Cmd} (hc : s.noteBacklog (newCmd d s.t) = c)
    (hw : (s.fn f).window.find? (fun e => e.tag == c.tag) = none) (hn : s.cmd f c.tag = none)
    (hk : s.descriptorCheck f c = none) (hr : s.afterRelease f c = false) :
    takeDescriptor f d s = modFn f (fun y => { y with inflight := y.inflight ++ [c] }) s := by
  subst hc
  unfold takeDescriptor
  dsimp only
  rw [hw, hn, hk, hr]
  rfl

/-- The fetch of a good new descriptor. -/
theorem takeDescriptor_descriptorRead {f : Nat} {d : BitVec 512} {s : State} {c : Cmd} (hf : f < 136)
    (hc : s.noteBacklog (newCmd d s.t) = c) (hw : (s.fn f).window.find? (fun e => e.tag == c.tag) = none)
    (hn : s.cmd f c.tag = none) (hk : s.descriptorCheck f c = none) (hr : s.afterRelease f c = false) :
    takeDescriptor f d (descriptorRead f s) =
      modFn f (fun y => { y with inflight := y.inflight ++ [c] }) (descriptorRead f s) := by
  obtain ⟨n, hfn⟩ := descriptorRead_fn f s hf
  refine takeDescriptor_new ((descriptorRead_noteBacklog ..).trans hc) ?_ ?_ ((descriptorRead_check ..).trans hk)
    ((afterRelease_of_fn c ?_ (Only.part (descriptorRead_only f s) rfl)).trans hr)
  · rw [hfn]
    exact hw
  · unfold State.cmd
    rw [hfn]
    exact hn
  · rw [hfn]

/-! ### COALESCE_TIMEOUT -/

theorem signal_sends {f v : Nat} {s : State} {e : Msix} (hv : (s.fn f).vectors[v]? = some e)
    (hm : (s.fn f).mayInterrupt e = true) : signal f v s = bumpAlways (40 + fnPort f) 4 (emit (.msix f v) s) := by
  unfold signal
  rw [hv]
  exact if_neg (by rw [hm]; decide)

/-- No completion waits to be signalled. -/
def signalled (x : FnSt) : FnSt := { x with coalCount := 0, coalSince := none }

theorem execCoalesceTimeout_due {s : State} {f : Fn} {t0 : Nat} (hc : (s.fn f.val).coalSince = some t0)
    (h0 : 0 < (s.fn f.val).coal.toNat / 65536 % 1024) (ha : s.after t0 ((s.fn f.val).coal.toNat / 65536 % 1024) = true) :
    exec (.coalesceTimeout f) s = done (signal f.val (cplVector f.val) (modFn f.val signalled s)) := by
  show execCoalesceTimeout f s = _
  unfold execCoalesceTimeout
  dsimp only
  rw [hc]
  exact if_pos (by rw [decide_eq_true h0, ha]; rfl)

/-! ### HOST_DMA_ERROR -/

theorem execHostDmaError_last {s : State} {f : Fn} {tag : W32} {c : Cmd} (h : s.cmd f.val tag = some c)
    (hb : s.usesBuffer c = true) (hl : c.writesLast = true) :
    exec (.hostDmaError f tag) s = done (modWork f.val tag (fun w => { w with dmaError := true }) s) := by
  show execHostDmaError f tag s = _
  unfold execHostDmaError
  dsimp only
  rw [h]
  exact (if_neg (by rw [hb]; decide)).trans (if_pos hl)

/-- How an error of its buffer ends a command that none of the open exports belongs to. -/
def dmaErrorRes (s : State) (f : Nat) (c : Cmd) : Res :=
  { status := stBadAddress, part := s.acted f c, r0 := c.work.r0, r1 := c.work.r1, r2 := c.work.r2,
    r3 := c.work.dieCode.toNat }

theorem execHostDmaError_ends {s : State} {f : Fn} {tag : W32} {c : Cmd} (h : s.cmd f.val tag = some c)
    (hb : s.usesBuffer c = true) (ho : c.op ≠ 0x70) (hl : c.writesLast = false)
    (he : ∀ e ∈ s.slath.exports, e.fn = f.val → e.tag ≠ tag) :
    exec (.hostDmaError f tag) s = done (complete f.val tag (dmaErrorRes s f.val c)
      (purgeHub f.val tag (purgeCmd f.val tag s))) := by
  have none_open : s.slath.exports.find? (fun e => e.fn == f.val && e.tag == tag) = none := by
    rw [List.find?_eq_none]
    intro e hm hs
    rw [Bool.and_eq_true, beq_iff_eq, beq_iff_eq] at hs
    exact he e hm hs.1 hs.2
  show execHostDmaError f tag s = _
  unfold execHostDmaError
  dsimp only
  rw [h]
  refine (if_neg (by rw [hb]; decide)).trans ((if_neg (by rw [hl]; decide)).trans ((if_neg ho).trans ?_))
  rw [none_open]
  rfl

/-- The purge of a command changes only its work, beside its requests and operations. -/
theorem purgeCmd_modWork (f : Nat) (tag : W32) (s : State) :
    ∃ u g, Only [.ports, .osier] s u ∧ purgeCmd f tag s = modWork f tag g u := by
  unfold purgeCmd
  extract_lets drop reqs calls steps count
  refine ⟨_, _, ?_, rfl⟩
  exact each_only (upd_osier (.refl _ _) rfl) fun _ _ => (modPort_only ..).within

/-- A command that is taken out of every queue before it ends answers with its result. -/
theorem answers_purged {s : State} {f : Nat} {tag : W32} {c : Cmd} (r : Res) (hf : f < 68) (h : s.cmd f tag = some c) :
    Answers s (complete f tag r (purgeHub f tag (purgeCmd f tag s))) f c r := by
  obtain ⟨u, g, hu, hp⟩ := purgeCmd_modWork f tag s
  have purged := purgeHub_only f tag (purgeCmd f tag s)
  have only := ((purgeCmd_only f tag s).within (l := [.fns, .ports, .osier, .parts, .slath])).andThen purged
  have here : (purgeCmd f tag s).cmd f tag = some { c with work := g c.work } := by
    rw [hp]
    exact cmd_modWork g ((cmd_of_rings (.of_only hu rfl) f tag).trans h)
  have ring : Ring (s.fn f) ((purgeCmd f tag s).fn f) := by
    rw [hp, ← Only.fn hu rfl f]
    unfold modWork modCmd
    rw [fn_modFn _ _ _ (by omega)]
    exact ⟨rfl, rfl, rfl, rfl, rfl⟩
  refine answers_of_eq (complete_answers r hf ((cmd_of_rings (.of_only purged rfl) f tag).trans here)) ?_
    (Only.now only rfl) (ring.trans (ring_of_rings (.of_only purged rfl) f)) rfl rfl
  rw [Only.out only rfl]

/-- Settles O24: NOP and the errors of host memory are completions, the fetch and the timer change their function. -/
theorem sessionCommandsAct : Obligations.SessionCommandsAct := by
  unfold Obligations.SessionCommandsAct
  refine ⟨fun s f tag c w => ?_, fun s f d hm hq hw hn => ?_, fun s f d hm => ?_, fun s f t0 e hc h0 ha hv hi hq => ?_,
    fun s f tag c h hb ho hl he => ?_, fun s f tag c h hb hl hq => ?_⟩
  · have only : Only [.fns, .out, .always] s (complete f.val tag {} (started f.val tag s)) :=
      (started_only ..).within.andThen (complete_only ..)
    exact Runs.quiet (execNop_starts w) ((Only.fires only rfl).trans w.quiet) ⟨answers_started _ f.isLt w.here, only⟩
  · intro c hk hr
    have hf : f.val < 136 := by omega
    have tag : c.tag = (newCmd d s.t).tag := noteBacklog_tag ..
    have fetched := takeDescriptor_descriptorRead hf rfl (tag ▸ hw) (tag ▸ hn) hk hr
    have only := (descriptorRead_only f.val s).andThen
      (modFn_only f.val (fun y => { y with inflight := y.inflight ++ [c] }) (descriptorRead f.val s))
    obtain ⟨n, hfn⟩ := descriptorRead_fn f.val s hf
    refine Runs.quiet ((execDescriptorFetch_good d hm).trans (congrArg done fetched)) ((Only.fires only rfl).trans hq)
      ⟨?_, ?_, only⟩
    · rw [fn_modFn _ _ _ hf, hfn]
    · rw [fn_modFn _ _ _ hf, hfn]
  · obtain ⟨n, hfn⟩ := takeTurn_fn f.val s (by omega)
    have fails := ringErr_fails 4 (takeTurn f.val s) (by omega) (settle_still (ringErr f.val 4 (takeTurn f.val s)))
    rw [hfn] at fails
    exact Runs.of_done (execDescriptorFetch_error d hm) ⟨fails.error, fails.fetching, fails.code, fails.head⟩
  · have hf : f.val < 136 := by omega
    have fn := fn_modFn f.val signalled s hf
    have sends : signal f.val (cplVector f.val) (modFn f.val signalled s) = _ :=
      signal_sends (e := e) (by rw [fn]; exact hv) (by rw [fn]; exact hi)
    have only : Only [.fns, .out, .always] s (signal f.val (cplVector f.val) (modFn f.val signalled s)) :=
      (modFn_only ..).within.andThen (signal_only ..)
    refine Runs.quiet (execCoalesceTimeout_due hc h0 ha) ((Only.fires only rfl).trans hq) ⟨?_, ?_, ?_, only⟩
    all_goals rw [sends]
    · exact congrArg FnSt.coalSince fn
    · exact congrArg FnSt.coalCount fn
    · exact congrArg (· ++ [Out.msix f.val (cplVector f.val)]) (modFn_out ..)
  · exact Runs.of_done (execHostDmaError_ends h hb ho hl he)
      (answers_grow (answers_purged _ f.isLt h) (settle_grows _))
  · exact Runs.quiet (execHostDmaError_last h hb hl) ((Only.fires (modWork_only ..) rfl).trans hq)
      ⟨cmd_modWork _ h, modWork_only ..⟩

end Sys2Proof.Laws

/-!
SUPPORT. The end of runs and the release of cuts leave what the settling of the lattice leaves: the roles on partitions and
the access of the sessions among it.
-/

namespace Sys2Proof.Laws
open Sys2Proof Sys2Proof.Machine
set_option Elab.async false -- a thread per proof would not fit beside the model in the check's memory

theorem Still.ite {c : Prop} [Decidable c] {s t u : State} (h : Still s t) (k : Still s u) : Still s (if c then t else u) := by
  split <;> assumption

/-! ### The coder -/

theorem modCoded_still (p : Nat) (g : Frame → Frame) (s : State) : Still s (modCoded p g s) :=
  .ite (modPart_still _ _ _ rfl) (modPart_still _ _ _ rfl)

theorem putCoded_still (p : Nat) (ends : Bool) (l : List Byte) (s : State) : Still s (putCoded p ends l s) := by
  induction l generalizing s with
  | nil => exact .refl _
  | cons b l ih =>
    cases l with
    | nil => exact modCoded_still ..
    | cons c l => exact (modCoded_still p _ s).trans (ih _)

theorem endSpan_still (p : Nat) (s : State) : Still s (endSpan p s) := by
  unfold endSpan
  extract_lets c e bytes
  clear_value e bytes
  exact .ite (.refl _) (((modPart_still _ _ _ rfl).trans (putCoded_still ..)).trans (modMeters_still ..))

theorem closeCoded_still (p : Nat) (s : State) : Still s (closeCoded p s) := by
  unfold closeCoded
  split
  · exact modPart_still _ _ _ rfl
  · exact .refl _

theorem putSwitch_still (p : Nat) (payload : List Byte) (ofSwitch : Option Bool) (s : State) :
    Still s (putSwitch p payload ofSwitch s) := by
  unfold putSwitch
  extract_lets r dram waits kept f s1 s2 s3 s4
  have e1 : Still s s1 := deliverInput_still ..
  have e2 : Still s s2 := .ite (e1.trans (modPart_still _ _ _ rfl)) e1
  have e3 : Still s s3 := .ite (e2.trans (dramArrive_still ..)) e2
  have e4 : Still s s4 := .ite (e3.trans (modMeters_still ..)) e3
  exact .ite (e2.trans (holdDram_still ..)) (.ite (e4.trans (hubEvent_still ..)) e4)

theorem resetCoder_still (p reason : Nat) (newEnc : Bool) (newIndex : Nat) (ofSwitch : Option Bool) (s : State) :
    Still s (resetCoder p reason newEnc newIndex ofSwitch s) := by
  have closed := (endSpan_still p s).trans (closeCoded_still p _)
  unfold resetCoder
  dsimp only
  split
  · exact ((closed.trans (putSwitch_still ..)).trans (modPart_still _ _ _ rfl)).trans (modRun_still ..)
  · exact (closed.trans (putSwitch_still ..)).trans (modPart_still _ _ _ rfl)

theorem syncCoder_still (p reason : Nat) (s : State) : Still s (syncCoder p reason s) :=
  .ite (.refl _) ((resetCoder_still ..).trans (pumpPort_still ..))

/-! ### The runs -/

theorem takeCore_still (c : Nat) (id : W32) (s : State) : Still s (takeCore c id s) := by
  unfold takeCore
  extract_lets rank
  refine .ite (.refl _) (Still.trans ?_ (modRun_still ..))
  exact Still_upd_osier (.refl _) rfl

theorem handOver_still (c : Nat) (s : State) : Still s (handOver c s) := by
  unfold handOver
  split
  · exact takeCore_still ..
  · exact .refl _

theorem markBinding_still (p role : Nat) (unplaced failed : Bool) (s : State) : Still s (markBinding p role unplaced failed s) :=
  .ite (Still_upd_osier (.refl _) rfl) (Still_upd_osier (.refl _) rfl)

theorem programRec_still (q : Run) (event : Nat) (data : List Byte) (s : State) : Still s (programRec q event data s) :=
  writeRec_still ..

theorem takeRun_still (q : Run) (status cause : Nat) (s : State) : Still s (takeRun q status cause s) := by
  unfold takeRun
  extract_lets x o holders s1 s2 s2' s3 s4
  have e1 : Still s s1 := Still_upd_osier (.refl _) rfl
  have e2 : Still s s2 := e1.trans (programRec_still ..)
  have e2' : Still s s2' := .ite (e2.trans (handOver_still ..)) e2
  have e3 : Still s s3 := .ite (e2'.trans (modPart_still _ _ _ rfl)) e2'
  have e4 : Still s s4 := .ite e3 (e3.trans (markBinding_still ..))
  exact each_still e4 fun _ _ => complete_still ..

theorem startRun_still {a : RunReq} {s t : State} {q : Run} (h : startRun a s = some (q, t)) : Still s t := by
  unfold startRun at h
  split at h
  · cases h
  · split at h
    · cases h
    · split at h
      · cases h
      · obtain ⟨rfl, rfl⟩ := Prod.mk.inj (Option.some.inj h)
        refine Still.trans ?_ (programRec_still ..)
        exact Still_upd_osier (.refl _) rfl

theorem startBound_still (p role index : Nat) (s : State) : Still s (startBound p role index s) := by
  unfold startBound
  split
  · rename_i h
    have marked := (startRun_still h).trans (markBinding_still p role false false _)
    exact .ite (marked.trans (modPart_still _ _ _ rfl)) marked
  · exact markBinding_still ..

theorem retryBound_still (p role : Nat) (s : State) : Still s (retryBound p role s) := by
  unfold retryBound
  split
  · have started := fun i => startBound_still p role i s
    exact .ite (.ite ((started _).trans (syncCoder_still ..)) (started _)) (.refl _)
  · exact .refl _

theorem retryAll_still (s : State) : Still s (retryAll s) :=
  each_still (.refl s) fun _ _ => (retryBound_still ..).trans (retryBound_still ..)

theorem endRun_still (q : Run) (status cause : Nat) (s : State) : Still s (endRun q status cause s) := by
  have taken := takeRun_still q status cause s
  exact (Still.ite (taken.trans (syncCoder_still ..)) taken).trans (retryAll_still _)

theorem endRuns_still (sel : Run → Bool) (status cause : Nat) (s : State) : Still s (endRuns sel status cause s) :=
  each_still (.refl s) fun _ _ => by
    split
    · exact endRun_still ..
    · exact .refl _

/-! ### The cuts -/

theorem readRange_still (p : Nat) (who : ReqFor) (r : CapRange) (s : State) : Still s (readRange p who r s) :=
  .ite (askRegRead_still ..) (ask_still ..)

theorem capturePort_still (p : Nat) (id : W32) (n k : Nat) (s : State) : Still s (capturePort p id n k s) := by
  induction k generalizing s with
  | zero => exact .refl _
  | succ k ih =>
    unfold capturePort
    split
    · exact .refl _
    · split
      · exact .refl _
      · split
        · exact .refl _
        · exact .ite (.refl _) (.ite ((modCut_still ..).trans (ih _)) (readRange_still ..))

theorem readPort_still (p n k : Nat) (s : State) : Still s (readPort p n k s) := by
  induction k generalizing s with
  | zero => exact .refl _
  | succ k ih =>
    unfold readPort
    split
    · exact .refl _
    · dsimp only
      split
      · exact .refl _
      · refine .ite (.refl _) (.ite (modBuild_still ..) (.ite ((modBuild_still ..).trans (ih _)) ?_))
        split
        · exact .refl _
        · exact ask_still ..

theorem slathRun_still (p k : Nat) (s : State) : Still s (slathRun p k s) := by
  induction k generalizing s with
  | zero => exact .refl _
  | succ k ih =>
    unfold slathRun
    split
    · rename_i c _
      have asked : Still s (if c.releasing then s
          else each (List.range 8) (fun n => capturePort p c.id n (c.ranges.length + 1)) s) :=
        .ite (.refl _) (each_still (.refl s) fun _ _ => capturePort_still ..)
      dsimp only
      split
      · exact asked
      · exact .ite asked (.ite ((asked.trans (modCut_still ..)).trans (ih _)) ((asked.trans (captured_still ..)).trans (ih _)))
    · split
      · rename_i c _
        have asked : Still s (each (List.range 8) (fun n => readPort p n (c.msgs.length + 1)) s) :=
          each_still (.refl s) fun _ _ => readPort_still ..
        exact .ite (.ite asked ((asked.trans (assignCut_still ..)).trans (ih _))) (.refl _)
      · exact .refl _

theorem releaseCut_still (p : Nat) (by_ : Option (Nat × W32)) (id : W32) (s : State) : Still s (releaseCut p by_ id s) :=
  (modCut_still ..).trans (slathRun_still ..)

end Sys2Proof.Laws

/-!
SUPPORT. Resets of sessions and of PFs, and the power states of a function.
-/

namespace Sys2Proof.Laws
open Sys2Proof Sys2Proof.Machine
set_option Elab.async false -- a thread per proof would not fit beside the model in the check's memory

/-! ### The rights that a session has lost (R317 step 5) -/

/-- The session has the claim-allow mask of reset, no global view, and no role on any partition. -/
structure NoRights (n : Nat) (s : State) : Prop where
  access : sessStill (s.ses n) = ⟨BitVec.allOnes 64, false⟩
  owner : ∀ p, (s.part p).owner ≠ some n
  observer : ∀ p, n ∉ (s.part p).observers

theorem NoRights.of_still {n : Nat} {s t : State} (h : NoRights n s) (k : Still s t) : NoRights n t := by
  have owner : ∀ p, (t.part p).owner = (s.part p).owner := fun p => congrArg PartStill.owner (k.part p)
  have observers : ∀ p, (t.part p).observers = (s.part p).observers := fun p => congrArg PartStill.observers (k.part p)
  exact ⟨(k.ses n).trans h.access, fun p => owner p ▸ h.owner p, fun p => observers p ▸ h.observer p⟩

theorem NoRights.of_only {l : List Fld} {n : Nat} {s t : State} (h : NoRights n s) (k : Only l s t)
    (es : (!l.contains .sess) = true := by rfl) (ep : (!l.contains .parts) = true := by rfl) : NoRights n t :=
  ⟨Only.ses k es n ▸ h.access, fun p => Only.part k ep p ▸ h.owner p, fun p => Only.part k ep p ▸ h.observer p⟩

/-- A partition loses its owner. -/
def disown (p : Nat) (s : State) : State := s |> modPart p (fun x => { x with owner := none }) |> ownerChanged p

theorem owner_disown_same {p : Nat} (s : State) (hp : p < 64) : ((disown p s).part p).owner = none := by
  have kept := (dropReweave_keepsRoles p stNotOwner (modPart p (fun x => { x with owner := none }) s)).part p
  rw [part_modPart _ _ _ hp] at kept
  exact (Prod.mk.inj kept).1

theorem owner_disown_ne {p q : Nat} (s : State) (h : q ≠ p) : ((disown p s).part q).owner = (s.part q).owner := by
  have kept := (dropReweave_keepsRoles p stNotOwner (modPart p (fun x => { x with owner := none }) s)).part q
  rw [part_modPart_ne _ _ _ _ h] at kept
  exact (Prod.mk.inj kept).1

/-- Once partitions have lost their owner, the session owns none of them, and no other one that it did not own before. -/
theorem owner_each_disown {n p : Nat} {l : List Nat} {s : State} (hp : p < 64) (h : p ∈ l ∨ (s.part p).owner ≠ some n) :
    ((each l disown s).part p).owner ≠ some n := by
  induction l generalizing s with
  | nil => exact h.resolve_left List.not_mem_nil
  | cons q l ih =>
    refine ih (s := disown q s) ?_
    by_cases e : p = q
    · subst e
      exact .inr (owner_disown_same s hp ▸ nofun)
    · rw [owner_disown_ne s e]
      exact h.imp_left fun hm => (List.mem_cons.mp hm).resolve_left e

theorem part_of_not_lt (s : State) {p : Nat} (h : ¬ p < 64) : s.part p = PartSt.init := dif_neg h

/-- A partition that the session does not observe any more. -/
def unobserved (n : Nat) (x : PartSt) : PartSt := { x with observers := x.observers.filter (· != n) }

theorem endRoles_part {n p : Nat} (s : State) (hp : p < 64) : (endRoles n s).part p =
    unobserved n ((each ((List.range 64).filter fun q => s.owns n q) disown s).part p) := by
  unfold endRoles
  dsimp only
  rw [Only.part (mlog_only ..) rfl, Only.part (modSess_only ..) rfl]
  exact each_range_part (g := unobserved n) _ p hp

theorem endRoles_access {n : Nat} (s : State) (hn : n < 64) :
    sessStill ((endRoles n s).ses n) = ⟨BitVec.allOnes 64, false⟩ := by
  unfold endRoles
  dsimp only
  rw [Only.ses (mlog_only ..) rfl, ses_modSess _ _ _ hn]
  rfl

theorem endRoles_owner (n p : Nat) (s : State) : ((endRoles n s).part p).owner ≠ some n := by
  by_cases hp : p < 64
  · rw [endRoles_part s hp]
    refine owner_each_disown hp ?_
    rw [List.mem_filter, List.mem_range, State.owns, beq_iff_eq]
    exact or_iff_not_imp_right.mpr fun h => ⟨hp, not_not.mp h⟩
  · rw [part_of_not_lt _ hp]
    exact nofun

theorem endRoles_observer (n p : Nat) (s : State) : n ∉ ((endRoles n s).part p).observers := by
  by_cases hp : p < 64
  · rw [endRoles_part s hp]
    exact fun h => absurd (List.mem_filter.mp h).2 (by rw [bne_self_eq_false]; decide)
  · rw [part_of_not_lt _ hp]
    exact List.not_mem_nil

theorem endRoles_noRights {n : Nat} (s : State) (hn : n < 64) : NoRights n (endRoles n s) :=
  ⟨endRoles_access s hn, fun p => endRoles_owner n p s, fun p => endRoles_observer n p s⟩

theorem releaseOwned_still (n : Nat) (owned : List Nat) (s : State) : Still s (releaseOwned n owned s) :=
  each_still (.refl s) fun _ u => each_still (.refl u) fun _ _ => releaseCut_still ..

theorem resetSession_noRights {n : Nat} (cause : Nat) (s : State) (hn : n < 64) : NoRights n (resetSession n cause s) := by
  unfold resetSession
  extract_lets owned
  have closed : ∀ t, Only [.slath] t
      (clearDeficits { t with slath := { t.slath with exports := t.slath.exports.filter fun e => e.fn != n } }) := fun t =>
    (upd_slath (.refl _ _) rfl).andThen (clearDeficits_only _)
  exact (((endRoles_noRights (fenceFn n s) hn).of_only (closed _)).of_still
    ((releaseOwned_still n owned _).trans (endRuns_still ..))).of_only (clearFn_only ..)

/-! ### The rings of a function that is reset (R317 step 9) -/

/-- A function's rings after its reset. -/
structure RingsClear (x : FnSt) : Prop where
  enable : x.enable = false
  size : x.ringSize = 0
  head : x.head = 0
  tail : x.tail = 0

theorem ringsClear_of_clearFn {f : Nat} (s : State) {x : FnSt} (hf : f < 136)
    (h : fnStill x = fnStill ((clearFn f s).fn f)) : RingsClear x := by
  unfold clearFn at h
  rw [fn_modFn _ _ _ hf] at h
  obtain ⟨_, _, hs, ht, hh, _, he, _⟩ := FnStill.mk.inj h
  exact ⟨he, hs, hh, ht⟩

theorem resetSession_ringsClear {n : Nat} (cause : Nat) (s : State) {t : State} (hn : n < 136)
    (h : Still (resetSession n cause s) t) : RingsClear (t.fn n) := ringsClear_of_clearFn _ hn (h.fn n)

theorem resetPf_ringsClear {n : Nat} (cause : Nat) (s : State) {t : State} (hn : 64 + n < 136)
    (h : Still (resetPf n cause s) t) : RingsClear (t.fn (64 + n)) :=
  ringsClear_of_clearFn _ hn ((h.fn _).trans (congrArg fnStill (Only.fn (noteOpenLab_only _) rfl _)))

theorem execSessionReset_open {s : State} {n : Sess} (hc : s.configOpen = true) (he : s.enabledPort (fnPort n.val) = true)
    (hv : s.vfExists n.val = true) : exec (.sessionReset n) s = done (resetSession n.val 0x20 s) :=
  if_pos (by rw [hc, he, hv]; rfl)

theorem execPfFunctionReset_open {s : State} {n : HostPort} (hc : s.configOpen = true) (he : s.enabledPort n.val = true) :
    exec (.pfFunctionReset n) s = done (resetPf n.val 0x20 s) := if_pos (by rw [hc, he]; rfl)

theorem execSessionResetDrainEnd_drained {s : State} {n : Sess} (hr : (s.fn n.val).resetDrain = true)
    (hd : s.draining n.val = false) :
    exec (.sessionResetDrainEnd n) s = done (modFn n.val (fun x => { x with resetDrain := false }) s) :=
  if_pos (by rw [hr, hd]; rfl)

theorem execD3hotEntry_open {s : State} {f : Fn} (hc : s.configOpen = true) (he : s.fnExists f.val = true) :
    exec (.d3hotEntry f) s = done (modFn f.val (fun x => { x with d3hot := true }) s) := if_pos (by rw [hc, he]; rfl)

/-! ### The return to D0 (R257) -/

/-- A function in D0 that holds no completion. -/
def awake (x : FnSt) : FnSt := { x with d3hot := false, held := [] }

/-- The completions that a function held are written. -/
def writeHeld (f : Nat) (l : List (Cpl × Bool)) (s : State) : State := each l (fun e => writeCpl f e.1 e.2) s

theorem execD0Return_hot {s : State} {f : Fn} (h : (s.fn f.val).d3hot = true) :
    exec (.d0Return f) s = done (writeHeld f.val (s.fn f.val).held (modFn f.val awake s)) :=
  if_neg (by rw [h]; decide)

theorem writeCpl_held {f : Nat} (c : Cpl) (q : Bool) (s : State) (hf : f < 136) :
    ((writeCpl f c q s).fn f).held = (s.fn f).held := by
  unfold writeCpl
  dsimp only
  rw [(ring_of_rings (coalesce_rings ..) f).held, fn_modFn _ _ _ hf]
  dsimp only
  rw [Only.fn (hostWrite_only ..) rfl]

theorem writeCpl_d3hot (f : Nat) (c : Cpl) (q : Bool) (s : State) : ((writeCpl f c q s).fn f).d3hot = (s.fn f).d3hot :=
  congrArg FnStill.d3hot ((writeCpl_still f c q s).fn f)

/-- A completion that a function in D0 writes. -/
theorem writeCpl_entry {f : Nat} (c : Cpl) (q : Bool) {s : State} (hf : f < 136) (h : (s.fn f).d3hot = false) :
    Out.hostWrite (fnPort f) (BitVec.ofNat 64 ((s.fn f).cplBase.toNat + 32 * (s.fn f).cplTail.toNat))
      (cplBytes c (s.fn f).phase) ∈ (writeCpl f c q s).out := by
  have entry := deliverCpl_entry f c q s hf
  rw [h, if_neg Bool.false_ne_true] at entry
  unfold deliverCpl at entry
  rw [h, if_neg Bool.false_ne_true] at entry
  exact entry.subset (List.mem_append_right _ (List.mem_singleton_self _))

theorem writeHeld_awake {f : Nat} (l : List (Cpl × Bool)) (s : State) (hf : f < 136) :
    ((writeHeld f l (modFn f awake s)).fn f).d3hot = false ∧ ((writeHeld f l (modFn f awake s)).fn f).held = [] := by
  have fn := fn_modFn f awake s hf
  exact ⟨(each_eq (fun t => (t.fn f).d3hot) (fun _ _ => writeCpl_d3hot ..) l _).trans (congrArg FnSt.d3hot fn),
    (each_eq (fun t => (t.fn f).held) (fun _ _ => writeCpl_held _ _ _ hf) l _).trans (congrArg FnSt.held fn)⟩

theorem writeHeld_only (f : Nat) (l : List (Cpl × Bool)) (s : State) : Only [.fns, .always, .out] s (writeHeld f l s) :=
  each_only (.refl _ _) fun _ _ => writeCpl_only ..

theorem writeHeld_first {f : Nat} {c : Cpl} {q : Bool} {l : List (Cpl × Bool)} (s : State) (hf : f < 136) :
    Out.hostWrite (fnPort f) (BitVec.ofNat 64 ((s.fn f).cplBase.toNat + 32 * (s.fn f).cplTail.toNat))
      (cplBytes c (s.fn f).phase) ∈ (writeHeld f ((c, q) :: l) (modFn f awake s)).out := by
  have fn := fn_modFn f awake s hf
  have entry := writeCpl_entry c q hf (congrArg FnSt.d3hot fn)
  rw [fn] at entry
  exact (each_grows (l := l) (.refl _) fun _ _ => writeCpl_grows ..).out.subset entry

/-- Settles O22: a reset ends with the function's rings cleared, and what follows the end of a session's roles keeps them
ended; the held completions are written in order behind the return to D0. -/
theorem functionResetsAct : Obligations.FunctionResetsAct := by
  unfold Obligations.FunctionResetsAct
  refine ⟨fun s n hc he hv => ?_, fun s n hc he => ?_, fun s n hr hd hq => ?_, fun s f hc he hq => ?_, fun s f hh hq => ?_⟩
  · have still := settle_still (resetSession n.val 0x20 s)
    have clear := resetSession_ringsClear 0x20 s (by omega) still
    have lost := (resetSession_noRights 0x20 s n.isLt).of_still still
    obtain ⟨ha, hg⟩ := SessStill.mk.inj lost.access
    exact Runs.of_done (execSessionReset_open hc he hv)
      ⟨clear.enable, clear.size, clear.head, clear.tail, ha, hg, fun p => ⟨lost.owner p, lost.observer p⟩⟩
  · have clear := resetPf_ringsClear 0x20 s (by omega) (settle_still (resetPf n.val 0x20 s))
    obtain ⟨hv, hn⟩ := host_resetPf 0x20 s n.isLt
    refine Runs.of_done (execPfFunctionReset_open hc he) ⟨clear.enable, clear.size, ?_, ?_, ?_⟩
    · rw [settle_host, hv]
    · rw [settle_host, hn]
    · exact (settle_boot _).trans ((resetPf_only ..).same .boot (by decide))
  · exact Runs.quiet (execSessionResetDrainEnd_drained hr hd) ((modFn_fires ..).trans hq)
      ⟨becomes (by omega), modFn_only ..⟩
  · exact Runs.quiet (execD3hotEntry_open hc he) ((modFn_fires ..).trans hq) ⟨becomes (by omega), modFn_only ..⟩
  · have hf : f.val < 136 := by omega
    obtain ⟨hot, held⟩ := writeHeld_awake (s.fn f.val).held s hf
    have only : Only [.fns, .out, .always] s (writeHeld f.val (s.fn f.val).held (modFn f.val awake s)) :=
      (modFn_only ..).within.andThen (writeHeld_only ..)
    refine Runs.quiet (execD0Return_hot hh) ((Only.fires only rfl).trans hq) ⟨hot, held, only, fun c q l hl => ?_⟩
    rw [hl]
    exact writeHeld_first s hf

end Sys2Proof.Laws

/-!
SUPPORT. The roles on a partition: a session that owns it does not observe it, and its observers are within their slots. Here
is what it means to keep that, from which operations it follows at once, and how the operations that give and end roles keep
it. Most operations leave the roles as they were; the laws of the settling of the lattice, of a weft switch and of a
partition reset say so of many.
-/

namespace Sys2Proof.Laws
open Sys2Proof Sys2Proof.Machine
set_option Elab.async false -- a thread per proof would not fit beside the model in the check's memory

/-- The roles of one partition are apart. -/
structure PartApart (x : PartSt) : Prop where
  owner : ∀ f, x.owner = some f → f ∉ x.observers
  slots : x.observers.length ≤ Config.maxObservers

theorem rolesApart_iff (s : State) : s.RolesApart ↔ ∀ p, PartApart (s.part p) :=
  ⟨fun h p => ⟨h.apart p, h.slots p⟩, fun h => ⟨fun p => (h p).owner, fun p => (h p).slots⟩⟩

/-- A partition without roles. -/
theorem PartApart.of_none {x : PartSt} (ho : x.owner = none) (hb : x.observers = []) : PartApart x :=
  ⟨fun _ e => (nomatch ho.symm.trans e), by rw [hb]; exact Nat.zero_le _⟩

theorem PartApart.of_roles {x y : PartSt} (h : PartApart x) (e : roles y = roles x) : PartApart y := by
  obtain ⟨ho, hbg⟩ := Prod.mk.inj e
  obtain ⟨hb, _⟩ := Prod.mk.inj hbg
  exact ⟨fun f => by rw [ho, hb]; exact h.owner f, by rw [hb]; exact h.slots⟩

/-- If the roles are apart in the first state, so they are in the second. -/
structure KeepsApart (s t : State) : Prop where
  apart : s.RolesApart → t.RolesApart

section
variable {s t u : State}

theorem KeepsApart.refl (s : State) : KeepsApart s s := ⟨id⟩

theorem KeepsApart.trans (h : KeepsApart s t) (k : KeepsApart t u) : KeepsApart s u := ⟨k.apart ∘ h.apart⟩

theorem KeepsApart.of_part (h : ∀ p, PartApart (s.part p) → PartApart (t.part p)) : KeepsApart s t :=
  ⟨fun k => (rolesApart_iff t).mpr fun p => h p ((rolesApart_iff s).mp k p)⟩

theorem KeepsApart.of_roles (h : KeepsRoles s t) : KeepsApart s t := .of_part fun p k => k.of_roles (h.part p)

theorem KeepsApart.of_still (h : Still s t) : KeepsApart s t := .of_roles (.of_still h)

theorem KeepsApart.of_parts (h : PartsStill s t) : KeepsApart s t :=
  .of_part fun p k => k.of_roles (roles_of_partStill (h.part p))

theorem KeepsApart.of_eq (h : t.parts = s.parts) : KeepsApart s t :=
  .of_part fun p k => (show t.part p = s.part p by unfold State.part; rw [h]) ▸ k

theorem KeepsApart.of_only {l : List Fld} (h : Only l s t) (e : (!l.contains .parts) = true := by rfl) : KeepsApart s t :=
  .of_roles (.of_only h e)

/-- One more operation that leaves the partitions. -/
theorem KeepsApart.step {l : List Fld} (h : KeepsApart s t) (k : Only l t u) (e : (!l.contains .parts) = true := by rfl) :
    KeepsApart s u := h.trans (.of_only k e)

/-- One more operation that leaves what the settling of the lattice leaves. -/
theorem KeepsApart.still (h : KeepsApart s t) (k : Still t u) : KeepsApart s u := h.trans (.of_still k)

theorem modPart_keepsApart (p : Nat) (g : PartSt → PartSt) (s : State) (h : PartApart (s.part p) → PartApart (g (s.part p))) :
    KeepsApart s (modPart p g s) := by
  refine .of_part fun q k => ?_
  by_cases e : q = p
  · subst e
    by_cases b : q < 64
    · rw [part_modPart _ _ _ b]
      exact h k
    · rw [show modPart q g s = s from dif_neg b]
      exact k
  · rw [part_modPart_ne _ _ _ _ e]
    exact k

/-- One more change of a partition beyond its roles. -/
theorem KeepsApart.change {p : Nat} {g : PartSt → PartSt} (h : KeepsApart s t)
    (e : ∀ x, (g x).owner = x.owner ∧ (g x).observers = x.observers := by exact fun _ => ⟨rfl, rfl⟩) :
    KeepsApart s (modPart p g t) :=
  h.trans (modPart_keepsApart p g t fun k =>
    ⟨fun f => by rw [(e _).1, (e _).2]; exact k.owner f, by rw [(e _).2]; exact k.slots⟩)

theorem KeepsApart.ite {c : Prop} [Decidable c] (h : KeepsApart s t) (k : KeepsApart s u) : KeepsApart s (if c then t else u) := by
  split <;> assumption

theorem KeepsApart.each {α : Type} {l : List α} {g : α → State → State} (h : KeepsApart s t)
    (k : ∀ a u, KeepsApart u (g a u)) : KeepsApart s (each l g t) := by
  refine h.trans ?_
  clear h
  unfold Machine.each
  induction l generalizing t with
  | nil => exact .refl _
  | cons a l ih => exact (k a t).trans ih

/-- A change of the partitions of a list beyond their roles. -/
theorem KeepsApart.changes {l : List Nat} {g : Nat → PartSt → PartSt} (h : KeepsApart s t)
    (e : ∀ p x, (g p x).owner = x.owner ∧ (g p x).observers = x.observers := by exact fun _ _ => ⟨rfl, rfl⟩) :
    KeepsApart s (Machine.each l (fun p => modPart p (g p)) t) := h.each fun p _ => KeepsApart.change (.refl _) (e p)

end

/-! ### Roles that end -/

/-- Nobody owns the partition any more. -/
theorem modPart_owner_none_keepsApart (p : Nat) (s : State) : KeepsApart s (modPart p (fun x => { x with owner := none }) s) :=
  modPart_keepsApart p _ s fun k => ⟨fun _ e => (nomatch e), k.slots⟩

/-- A session observes the partition no more. -/
theorem modPart_unobserved_keepsApart (f p : Nat) (s : State) :
    KeepsApart s (modPart p (fun x => { x with observers := x.observers.filter (· != f) }) s) :=
  modPart_keepsApart p _ s fun k =>
    ⟨fun g e m => k.owner g e (List.mem_filter.mp m).1, (List.length_filter_le ..).trans k.slots⟩

theorem ownerChanged_keepsApart (p : Nat) (s : State) : KeepsApart s (ownerChanged p s) := .of_roles (dropReweave_keepsRoles ..)

theorem endRoleRuns_keepsApart (n p : Nat) (s : State) : KeepsApart s (endRoleRuns n p s) :=
  .ite (.refl _) (.of_still (endRuns_still ..))

theorem endExports_keepsApart (f p : Nat) (s : State) : KeepsApart s (endExports f p s) := .of_only (endExports_only ..)

theorem dropOwner_keepsApart (f p : Nat) (s : State) : KeepsApart s (dropOwner f p s) :=
  (((modPart_owner_none_keepsApart p s).trans (endExports_keepsApart ..)).trans (ownerChanged_keepsApart ..)).trans
    (endRoleRuns_keepsApart ..)

theorem dropObserver_keepsApart (f p : Nat) (s : State) : KeepsApart s (dropObserver f p s) :=
  ((modPart_unobserved_keepsApart f p s).trans (endExports_keepsApart ..)).trans (endRoleRuns_keepsApart ..)

theorem endRoles_keepsApart (n : Nat) (s : State) : KeepsApart s (endRoles n s) := by
  have disowned : ∀ p t, KeepsApart t (ownerChanged p (modPart p (fun x => { x with owner := none }) t)) := fun p t =>
    (modPart_owner_none_keepsApart p t).trans (ownerChanged_keepsApart ..)
  exact ((((KeepsApart.refl s).each disowned).each fun p t => modPart_unobserved_keepsApart n p t).step (modSess_only ..)).step
    (mlog_only ..)

/-! ### Roles that begin -/

/-- An owner's own observation ends. -/
theorem setOwner_keepsApart (f p : Nat) (s : State) : KeepsApart s (setOwner f p s) := by
  refine .trans (modPart_keepsApart p _ s fun k => ⟨fun g e m => ?_, (List.length_filter_le ..).trans k.slots⟩)
    (ownerChanged_keepsApart ..)
  cases e
  simpa using (List.mem_filter.mp m).2

/-- A session that has no role on the partition takes a free slot. -/
theorem modPart_observed_keepsApart {f p : Nat} {s : State} (hr : s.reads f p = false)
    (hs : (s.part p).observers.length < Config.maxObservers) :
    KeepsApart s (modPart p (fun x => { x with observers := x.observers ++ [f] }) s) := by
  refine modPart_keepsApart p _ s fun k => ⟨fun g e m => ?_, ?_⟩
  · have other : (s.part p).owner ≠ some f := by simpa [State.owns] using (Bool.or_eq_false_iff.mp hr).1
    rcases List.mem_append.mp m with old | new
    · exact k.owner g e old
    · obtain rfl := List.mem_singleton.mp new
      exact other e
  · rw [List.length_append]
    exact hs

end Sys2Proof.Laws

/-!
SUPPORT. The operations of the trace, the counters, the hang analysis and the commands of units keep the roles on a partition
apart: none of them gives or ends one.
-/

namespace Sys2Proof.Laws
open Sys2Proof Sys2Proof.Machine
set_option Elab.async false -- a thread per proof would not fit beside the model in the check's memory

/-! ### What the meaning of a command is built from -/

theorem startCmd_keepsApart {op f : Nat} {tag : W32} {k : Cmd → State → State} (s : State) (h : ∀ c t, KeepsApart t (k c t)) :
    KeepsApart s (startCmd op f tag k s) := by
  unfold startCmd
  split
  · exact .refl _
  · exact .ite ((KeepsApart.of_only (modCmd_only ..)).trans (h ..)) (.refl _)

theorem checked_keepsApart {f : Nat} {tag : W32} {k : Cmd → State → State} (c : Cmd) (s : State)
    (h : ∀ t, KeepsApart t (k c t)) : KeepsApart s (checked f tag k c s) := by
  unfold checked
  split
  · exact .of_only (fail_only ..)
  · exact h s

theorem hostPut_keepsApart {f : Nat} {g : State → State} (s : State) (h : ∀ t, KeepsApart t (g t)) :
    KeepsApart s (hostPut f g s) :=
  .ite ((KeepsApart.of_only (bumpAlways_only ..)).trans (h _)) (.refl _)

theorem tapRun_keepsApart {code : Nat} {g : State → State} (s : State) (h : ∀ t, KeepsApart t (g t)) :
    KeepsApart s (tapRun code g s) :=
  .ite (h s) ((KeepsApart.of_only (selectIr_only ..)).step (shiftBypass_only ..))

theorem updateDr_keepsApart {us : Nat} {busy access : State → State} (s : State) (hb : ∀ t, KeepsApart t (busy t))
    (ha : ∀ t, KeepsApart t (access t)) : KeepsApart s (updateDr us busy access s) := by
  have go : ∀ t, KeepsApart t (access { t with tap := { t.tap with accessBy := s.t + us * Config.ticksPerUs } }) := fun t =>
    (KeepsApart.of_only (upd_tap (l := [.tap]) (.refl _ _) rfl)).trans (ha _)
  have drawn : KeepsApart s (nextFree s) := .of_only (nextFree_only _)
  exact .ite (go s) (.ite (drawn.trans (hb _)) (drawn.trans (go _)))

theorem atEdge_keepsApart {p : Nat} {g : State → State} (s : State) (h : KeepsApart s (g s)) : KeepsApart s (atEdge p g s) :=
  h.each fun _ _ => .of_only (fire_only ..)

theorem hubEvent_keepsApart (p code n : Nat) (s : State) : KeepsApart s (hubEvent p code n s) := .of_still (hubEvent_still ..)

/-! ### Records that are lost, and the trace port -/

theorem lossPlaced_keepsApart (p n : Nat) (s : State) : KeepsApart s (lossPlaced p n s) :=
  (hubEvent_keepsApart p 5 1 s).trans (hubEvent_keepsApart ..)

theorem lossToPort_keepsApart (p count : Nat) (mk : Nat → State → TraceRec) (s : State) :
    KeepsApart s (lossToPort p count mk s) := by
  unfold lossToPort
  extract_lets n
  split
  next h => exact (((KeepsApart.of_still (storePort_still h)).change).still (pumpPort_still ..)).trans (lossPlaced_keepsApart ..)
  next => exact (KeepsApart.refl s).change

theorem dramLossToPort_keepsApart (p count : Nat) (mk : Nat → State → TraceRec) (s : State) :
    KeepsApart s (dramLossToPort p count mk s) := by
  unfold dramLossToPort
  extract_lets n
  split
  next h => exact (((KeepsApart.of_still (storePort_still h)).change).still (pumpPort_still ..)).trans (lossPlaced_keepsApart ..)
  next => exact (KeepsApart.refl s).change

theorem placeLoss_keepsApart {r : TraceRec} {s t : State} (h : placeLoss r s = some t) : KeepsApart s t := by
  unfold placeLoss at h
  split at h
  · split at h
    · obtain rfl := Option.some.inj h
      exact (KeepsApart.refl s).change
    · cases h
  · exact .of_still (storeDram_still h)

theorem putDramLoss_keepsApart (p count : Nat) (mk : Nat → State → TraceRec) (s : State) :
    KeepsApart s (putDramLoss p count mk s) := by
  unfold putDramLoss
  extract_lets n r
  split
  next h => exact (((placeLoss_keepsApart h).change).step (modMeters_only ..)).trans (lossPlaced_keepsApart ..)
  next => exact (KeepsApart.refl s).change

theorem lossToDram_keepsApart (p count : Nat) (mk : Nat → State → TraceRec) (s : State) :
    KeepsApart s (lossToDram p count mk s) := .ite ((KeepsApart.refl s).change) (putDramLoss_keepsApart ..)

theorem lossBoth_keepsApart (p dest count cause port : Nat) (first last : W64) (unit : Nat) (s : State) :
    KeepsApart s (lossBoth p dest count cause port first last unit s) := by
  unfold lossBoth
  extract_lets s1
  have port : KeepsApart s s1 :=
    .ite ((KeepsApart.of_only (bumpAlways_only ..)).trans (lossToPort_keepsApart ..)) (.refl _)
  exact .ite ((port.step (bumpAlways_only ..)).trans (lossToDram_keepsApart ..)) port

theorem sendTrace_keepsApart (p : Nat) (s : State) : KeepsApart s (sendTrace p s) := by
  unfold sendTrace
  split
  · exact .refl _
  · exact ((KeepsApart.of_only (sendEther_only ..)).change).still (pumpPort_still ..)

theorem sendTurn_keepsApart (s : State) : KeepsApart s (sendTurn s) := by
  unfold sendTurn
  split
  · exact .refl _
  · exact (((KeepsApart.of_only (upd_wale (l := [.wale]) (.refl _ _) rfl)).trans (sendTrace_keepsApart ..)).change).trans
      (.of_parts (checkSwitch_partsStill ..))

theorem sendUntil_keepsApart (p : Nat) (last : W32) (n : Nat) (s : State) : KeepsApart s (sendUntil p last n s) := by
  induction n generalizing s with
  | zero => exact .refl _
  | succ n ih => exact .ite (.refl _) ((KeepsApart.ite (.of_only (sendDump_only _)) (sendTurn_keepsApart s)).trans (ih _))

theorem sendWaiting_keepsApart (p : Nat) (s : State) : KeepsApart s (sendWaiting p s) := sendUntil_keepsApart ..

theorem readTier_keepsApart (found : Ecc) (s : State) : KeepsApart s (readTier found s) := by
  unfold readTier
  split
  · exact .refl _
  · dsimp only
    split
    · exact .of_still (correctedWord_still ..)
    · exact ((KeepsApart.refl s).change).still (shedTier_still ..)
    · exact .refl _

theorem spoilQueue_keepsApart (p : Nat) (s : State) : KeepsApart s (spoilQueue p s) := (KeepsApart.refl s).change

theorem endDramGap_keepsApart (p : Nat) (g : Gap) (s : State) : KeepsApart s (endDramGap p g s) := by
  have ended := (KeepsApart.refl s).change (p := p) (g := fun x => { x with gapDram := none })
  exact .ite (ended.trans (putDramLoss_keepsApart ..)) (.ite (ended.trans (dramLossToPort_keepsApart ..)) ended.change)

theorem endPortGap_keepsApart (p : Nat) (g : Gap) (s : State) : KeepsApart s (endPortGap p g s) :=
  ((KeepsApart.refl s).change).trans (lossToPort_keepsApart ..)

theorem closeReserve_keepsApart (p : Nat) (s : State) : KeepsApart s (closeReserve p s) := by
  unfold closeReserve
  split
  · refine .ite (.refl _) ?_
    extract_lets s1
    have put : KeepsApart s s1 := .of_still (putOpen_still ..)
    split
    · exact ((((put.step (spendDram_only _)).step (queueBlock_only ..)).change).step (modMeters_only ..)).trans
        (lossPlaced_keepsApart ..)
    · exact put.trans (endDramGap_keepsApart ..)
  · exact .refl _

theorem flushDiscard_keepsApart (f : Nat) (c : Cmd) (s : State) : KeepsApart s (flushDiscard f c s) := by
  have dropped := (KeepsApart.refl s).change (p := c.partition)
    (g := fun x => { x with blocks := x.blocks.filter fun b => !decide (b.seq.toNat ≤ c.param0) })
  exact (KeepsApart.ite dropped (dropped.each fun _ _ => closeReserve_keepsApart ..)).step (complete_only ..)

theorem setRoute_keepsApart (p mask dest : Nat) (s : State) : KeepsApart s (setRoute p mask dest s) := (KeepsApart.refl s).change

theorem syncCoder_keepsApart (p reason : Nat) (s : State) : KeepsApart s (syncCoder p reason s) :=
  .of_parts (syncCoder_partsStill ..)

theorem setEncoding_keepsApart (p : Nat) (raw : Bool) (s : State) : KeepsApart s (setEncoding p raw s) :=
  ((KeepsApart.refl s).change).trans (syncCoder_keepsApart ..)

theorem checkSwitch_keepsApart (p : Nat) (s : State) : KeepsApart s (checkSwitch p s) := .of_parts (checkSwitch_partsStill ..)

theorem forceReset_keepsApart (p reason : Nat) (s : State) : KeepsApart s (forceReset p reason s) :=
  .of_roles (forceReset_keepsRoles ..)

theorem periodicReset_keepsApart (p : Nat) (s : State) : KeepsApart s (periodicReset p s) :=
  .ite (forceReset_keepsApart ..) (.refl _)

theorem timesyncRec_keepsApart (l : Nat) (resumed : Bool) (s : State) : KeepsApart s (timesyncRec l resumed s) :=
  (KeepsApart.of_only (modLnk_only ..)).each fun _ _ => .of_still (writeRec_still ..)

theorem linkRec_keepsApart (n event : Nat) (s : State) : KeepsApart s (linkRec n event s) :=
  (KeepsApart.refl s).each fun _ _ => .of_still (writeRec_still ..)

/-! ### The coder -/

theorem spoilCoder_keepsApart (hit : Bool) (p : Nat) (s : State) : KeepsApart s (spoilCoder hit p s) :=
  .ite ((KeepsApart.refl s).change) (.refl _)

theorem codeRecord_keepsApart (p : Nat) (te td : List Nat) (r : TraceRec) (s : State) : KeepsApart s (codeRecord p te td r s) := by
  unfold codeRecord
  extract_lets c starts e d begins next
  clear_value e d begins next
  exact (((KeepsApart.of_still (modCoded_still ..)).change).trans (.of_parts (putCoded_partsStill ..))).step (modMeters_only ..)

theorem checkStall_keepsApart (p : Nat) (s : State) : KeepsApart s (checkStall p s) := by
  unfold checkStall
  extract_lets c
  split
  · exact .ite (((KeepsApart.refl s).change).trans (syncCoder_keepsApart ..)) (.refl _)
  · exact .refl _

/-! ### Latch points -/

theorem takeLatch_keepsApart (p : Nat) (q : LatchReq) (s : State) : KeepsApart s (takeLatch p q s) :=
  .of_parts (takeLatch_partsStill ..)

theorem markerLatch_keepsApart (p : Nat) (q : LatchReq) (s : State) : KeepsApart s (markerLatch p q s) :=
  .ite (takeLatch_keepsApart ..) (((KeepsApart.refl s).change.step (bumpAlways_only ..)).trans (hubEvent_keepsApart ..))

theorem hostLatch_keepsApart (f : Nat) (tag : W32) (p mask : Nat) (record : Bool) (s : State) :
    KeepsApart s (hostLatch f tag p mask record s) := by
  unfold hostLatch
  extract_lets n block s1
  have latched : KeepsApart s s1 := takeLatch_keepsApart ..
  exact .ite (latched.step (complete_only ..)) ((latched.step (bufWrite_only ..)).step (complete_only ..))

theorem deferredTake_keepsApart (p : Nat) (d : DeferredLatch) (s : State) : KeepsApart s (deferredTake p d s) :=
  .ite (.ite (takeLatch_keepsApart ..) (.refl _)) (hostLatch_keepsApart ..)

theorem requestLatch_keepsApart (p : Nat) (d : DeferredLatch) (s : State) : KeepsApart s (requestLatch p d s) :=
  .ite (deferredTake_keepsApart ..) ((KeepsApart.refl s).change)

theorem deltaEvent_keepsApart (p unit layer type fmt n : Nat) (s : State) : KeepsApart s (deltaEvent p unit layer type fmt n s) :=
  (KeepsApart.refl s).each fun _ _ => .of_still (addCounter_still ..)

theorem endLatch_keepsApart (p u : Nat) (e : AwaitEnd) (noDelta : Bool) (s : State) : KeepsApart s (endLatch p u e noDelta s) :=
  markerLatch_keepsApart ..

theorem endsWithoutDelta_keepsApart (p u : Nat) (sel : AwaitEnd → Bool) (s : State) :
    KeepsApart s (endsWithoutDelta p u sel s) :=
  (KeepsApart.of_only (modUnit_only ..)).each fun _ _ => endLatch_keepsApart ..

theorem endsAtDown_keepsApart (n : Nat) (s : State) : KeepsApart s (endsAtDown n s) := by
  refine (KeepsApart.refl s).each fun u t => ?_
  split
  · exact endsWithoutDelta_keepsApart ..
  · exact .refl _

/-! ### The hang analysis -/

theorem addReport_keepsApart (p : Nat) (q : ReportReq) (s : State) : KeepsApart s (addReport p q s) := by
  unfold addReport
  extract_lets _ r s1 _ s2
  have added : KeepsApart s s1 := (KeepsApart.refl s).change
  have h2 : KeepsApart s s2 :=
    ((added.step (upd_hang (l := [.hang]) (.refl _ _) rfl)).still (spendCreel_still _)).trans (hubEvent_keepsApart ..)
  exact .ite h2 (h2.still (hangRec_still ..))

theorem firedReport_keepsApart (p kind model score : Nat) (s : State) : KeepsApart s (firedReport p kind model score s) :=
  .ite (addReport_keepsApart ..) (.refl _)

theorem startScan_keepsApart (p : Nat) (s : State) : KeepsApart s (startScan p s) := by
  unfold startScan
  exact (KeepsApart.refl s).change

theorem enterHalts_keepsApart (l : List HaltReq) (s : State) : KeepsApart s (enterHalts l s) :=
  (KeepsApart.of_still (latticeEdge_still ..)).still (settle_still _)

theorem mapNewest_roles (g : Cut → Cut) (x : PartSt) :
    (x.mapNewest g).owner = x.owner ∧ (x.mapNewest g).observers = x.observers := by
  have h := partStill_mapNewest g x
  exact ⟨congrArg PartStill.owner h, congrArg PartStill.observers h⟩

theorem declareHang_keepsApart (p kind action minAge : Nat) (comps : List Comp) (s : State) :
    KeepsApart s (declareHang p kind action minAge comps s) := by
  unfold declareHang
  extract_lets joins acts s1 id r mine
  have added : KeepsApart s s1 := addReport_keepsApart ..
  refine .ite added ?_
  split
  · exact .ite (((added.still (raiseAction_still ..)).change fun x => mapNewest_roles ..).still (checkGather_still ..)) added
  · refine (added.trans (enterHalts_keepsApart ..)).change fun x => ?_
    split
    · exact mapNewest_roles ..
    · exact ⟨rfl, rfl⟩

/-! ### HALT and CUT of a held partition -/

theorem checkGather_keepsApart (p : Nat) (s : State) : KeepsApart s (checkGather p s) := .of_still (checkGather_still ..)

theorem enterHost_keepsApart (r : HaltReq) {held : State → State} (s : State) (h : ∀ t, KeepsApart t (held t)) :
    KeepsApart s (enterHost r held s) := by
  refine .ite (enterHalts_keepsApart ..) ?_
  split
  · exact .ite (h s) ((KeepsApart.of_still (raiseAction_still ..)).trans (checkGather_keepsApart ..))
  · exact h s

/-- The halt requests of a command of a held partition. -/
theorem heldHalts_keepsApart (p : Nat) (abrupt : Bool) (host : Option (Nat × W32)) (ports : List Nat) (s : State) :
    KeepsApart s (fallbackHalts p abrupt host (sendHalts p abrupt host ports s)) :=
  (KeepsApart.of_still (sendHalts_still ..)).still (fallbackHalts_still ..)

theorem haltHeld_keepsApart (f : Nat) (c : Cmd) (s : State) : KeepsApart s (haltHeld f c s) :=
  (((heldHalts_keepsApart ..).each fun _ _ => .of_only (freshTimeout_only ..)).change).trans (checkGather_keepsApart ..)

theorem cutHeld_keepsApart (f : Nat) (c : Cmd) (s : State) : KeepsApart s (cutHeld f c s) := by
  unfold cutHeld
  extract_lets p abrupt ports s1
  have asked : KeepsApart s s1 := heldHalts_keepsApart ..
  refine .ite (asked.change fun x => mapNewest_roles ..) ?_
  refine ((asked.each fun _ _ => .of_only (freshTimeout_only ..)).change fun x => ?_).trans (checkGather_keepsApart ..)
  have h := partStill_addCut (newCut s p 1 (some (f, c.tag)) false 0) x
  exact ⟨congrArg PartStill.owner h, congrArg PartStill.observers h⟩

/-! ### Commands that wait for dies -/

theorem closeBinding_keepsApart (p : Nat) (s : State) : KeepsApart s (closeBinding p s) := .of_still (endBinding_still ..)

theorem runSent_keepsApart (p : Nat) (toDie : Bool) (s : State) : KeepsApart s (runSent p toDie s) := by
  have ended : KeepsApart s (endHold p s) := .of_roles (endHold_keepsRoles ..)
  exact .ite (ended.trans (closeBinding_keepsApart ..)) ended

theorem noteRuns_keepsApart (s : State) : KeepsApart s (noteRuns s) :=
  (KeepsApart.refl s).each fun _ _ => (KeepsApart.of_only (modWork_only ..)).trans (runSent_keepsApart ..)

theorem sendRun_keepsApart (f : Nat) (c : Cmd) (op : Nat) (body : List Byte) (sel : Nat → Bool) (s : State) :
    KeepsApart s (sendRun f c op body sel s) := by
  have sent : ∀ l, KeepsApart s (sendParts f c.tag c.partition sel l s) := fun l => .of_only (sendParts_only ..)
  exact (KeepsApart.ite ((sent _).step (fallbackCalls_only ..)) (sent _)).trans (noteRuns_keepsApart _)

theorem advanceLoop_keepsApart (f : Nat) (tag : W32) (k : Nat) (s : State) : KeepsApart s (advanceLoop f tag k s) := by
  induction k generalizing s with
  | zero => exact .refl _
  | succ k ih =>
    have completed : ∀ r, KeepsApart s (complete f tag r s) := fun r => .of_only (complete_only ..)
    unfold advanceLoop
    split
    · exact .refl _
    · refine .ite (completed _) (.ite (.refl _) (.ite ?_ (.ite (.refl _) (completed _))))
      split
      · exact .ite ((KeepsApart.of_only (modWork_only ..)).trans (ih _))
          (((KeepsApart.of_only (modWork_only ..)).trans (sendRun_keepsApart ..)).trans (ih _))
      · exact completed _

theorem advanceCmd_keepsApart (f : Nat) (tag : W32) (s : State) : KeepsApart s (advanceCmd f tag s) := advanceLoop_keepsApart ..

theorem requestFails_keepsApart (f : Nat) (tag : W32) (served : List Nat) (silent : Bool) (st : Byte) (s : State) :
    KeepsApart s (requestFails f tag served silent st s) := by
  unfold requestFails
  split
  · exact .refl _
  · exact ((KeepsApart.of_only (modWork_only ..)).step (failCmd_only ..)).trans (advanceCmd_keepsApart ..)

theorem cmdAnswer_keepsApart (f : Nat) (tag : W32) (r : OutReq) (n unit k code : Nat) (replayed : Bool) (d : List Byte)
    (s : State) : KeepsApart s (cmdAnswer f tag r n unit k code replayed d s) := by
  have worked : ∀ g, KeepsApart s (modWork f tag g s) := fun g => .of_only (modWork_only ..)
  unfold cmdAnswer
  split
  · exact .refl _
  · refine .ite ?_ (.ite (((worked _).step (modPort_only ..)).step (claim_only ..))
      ((worked _).trans (requestFails_keepsApart ..)))
    exact (((worked _).each fun _ _ => .of_only (modUnit_only ..)).step (okResult_only ..)).trans (advanceCmd_keepsApart ..)

theorem cmdNoAnswer_keepsApart (f : Nat) (tag : W32) (r : OutReq) (unit : Nat) (s : State) :
    KeepsApart s (cmdNoAnswer f tag r unit s) := requestFails_keepsApart ..

theorem cmdLinkLost_keepsApart (f : Nat) (tag : W32) (served : List Nat) (s : State) :
    KeepsApart s (cmdLinkLost f tag served s) := requestFails_keepsApart ..

theorem endResend_keepsApart (f : Nat) (tag : W32) (unit : Nat) (r : OutReq) (st : Byte) (s : State) :
    KeepsApart s (endResend f tag unit r st s) := requestFails_keepsApart ..

theorem stepEnds_keepsApart (u : Nat) (ack : Bool) (s : State) : KeepsApart s (stepEnds u ack s) :=
  (KeepsApart.refl s).each fun _ _ => (KeepsApart.of_only (modWork_only ..)).trans (advanceCmd_keepsApart ..)

theorem declareUnit_keepsApart (u : Nat) (s : State) : KeepsApart s (declareUnit u s) := by
  have declared : KeepsApart s (modUnit u (UnitSt.declare s.t) (stepEnds u false s)) :=
    (stepEnds_keepsApart ..).step (modUnit_only ..)
  unfold declareUnit
  dsimp only
  split
  · exact declared.trans (checkGather_keepsApart ..)
  · exact declared

theorem setEvt_keepsApart (f : Nat) (c : Cmd) (s : State) : KeepsApart s (setEvt f c s) :=
  ((KeepsApart.of_only (modWork_only ..)).step (sendAll_only ..)).trans (advanceCmd_keepsApart ..)

theorem checkGathering_keepsApart (p : Nat) (s : State) : KeepsApart s (checkGathering p s) := .of_still (checkGathering_still ..)

theorem sawWords_keepsApart (n p unit off : Nat) (words : List Byte) (read : Bool) (s : State) :
    KeepsApart s (sawWords n p unit off words read s) := by
  unfold sawWords
  extract_lets at_ s1 s2
  have h1 : KeepsApart s s1 := by
    unfold s1
    split
    · exact .ite ((KeepsApart.of_only (modUnit_only ..)).trans (checkGathering_keepsApart ..)) (.refl _)
    · exact .refl _
  have h2 : KeepsApart s s2 := by
    unfold s2
    split
    · exact h1.step (modUnit_only ..)
    · exact h1
  clear_value s2
  split
  · exact h2.step (modStake_only ..)
  · exact h2

theorem answerEffect_keepsApart (n : Nat) (m : Msg) (replayed : Bool) (d : List Byte) (s : State) :
    KeepsApart s (answerEffect n m replayed d s) :=
  .ite ((KeepsApart.refl s).each fun _ _ => .of_only (modUnit_only ..)) (.ite
    ((KeepsApart.refl s).each fun _ _ => sawWords_keepsApart ..) (.ite
    ((KeepsApart.refl s).each fun _ _ => sawWords_keepsApart ..) (.refl _)))

theorem refusalEffect_keepsApart (n : Nat) (m : Msg) (s : State) : KeepsApart s (refusalEffect n m s) :=
  .ite (((KeepsApart.refl s).each fun _ _ => .of_only (modUnit_only ..)).trans (checkGathering_keepsApart ..)) (.refl _)

end Sys2Proof.Laws

/-!
SUPPORT. The adaptor, the exports, the stakes, the links and the runs keep the roles on a partition apart.
-/

namespace Sys2Proof.Laws
open Sys2Proof Sys2Proof.Machine
set_option Elab.async false -- a thread per proof would not fit beside the model in the check's memory

/-! ### The adaptor -/

theorem unitGathering_keepsApart (u : Nat) (s : State) : KeepsApart s (unitGathering u s) := by
  unfold unitGathering
  split
  · exact checkGather_keepsApart ..
  · exact .refl _

theorem callEffect_keepsApart (c : AdaptorCall) (s : State) : KeepsApart s (callEffect c s) :=
  .ite ((KeepsApart.of_only (modUnit_only ..)).trans (unitGathering_keepsApart ..)) (.ite (.of_only (modUnit_only ..))
    (.ite (((stepEnds_keepsApart ..).step (modUnit_only ..)).trans (unitGathering_keepsApart ..)) (.refl _)))

theorem callFailed_keepsApart (c : AdaptorCall) (result : Option Nat) (s : State) : KeepsApart s (callFailed c result s) := by
  unfold callFailed
  extract_lets st
  split
  · exact .refl _
  · exact .ite (.refl _) ((((KeepsApart.of_only (upd_osier (l := [.osier]) (.refl _ _) rfl)).step (modWork_only ..)).step
      (failCmd_only ..)).trans (advanceCmd_keepsApart ..))

theorem callAdvance_keepsApart (c : AdaptorCall) (s : State) : KeepsApart s (callAdvance c s) := by
  unfold callAdvance
  split
  · exact advanceCmd_keepsApart ..
  · exact .refl _

theorem callEnds_keepsApart (result : Option Nat) (s : State) : KeepsApart s (callEnds result s) := by
  unfold callEnds
  split
  · exact .refl _
  · extract_lets data _ s1 ok _ more s2
    have h1 : KeepsApart s s1 := .of_eq rfl
    have h2 : KeepsApart s s2 := .ite (h1.step (upd_osier (l := [.osier]) (.refl _ _) rfl)) (.ite
      (((h1.step (callOk_only ..)).trans (callEffect_keepsApart ..)).trans (callAdvance_keepsApart ..))
      (h1.trans (callFailed_keepsApart ..)))
    exact (h2.still (pumpAdaptor_still _)).trans (noteRuns_keepsApart _)

theorem callsDropped_keepsApart (l : List AdaptorCall) (s : State) : KeepsApart s (callsDropped l s) :=
  ((KeepsApart.refl s).each fun _ _ => declareUnit_keepsApart ..).each fun _ _ => cmdLinkLost_keepsApart ..

theorem scanWrite_keepsApart (value : W32) (s : State) : KeepsApart s (scanWrite value s) := by
  unfold scanWrite
  extract_lets o same base s1
  have dropped : KeepsApart s s1 :=
    (KeepsApart.of_only (upd_osier (l := [.osier]) (.refl _ _) rfl)).trans (callsDropped_keepsApart ..)
  exact .ite (.of_eq rfl) (.ite (dropped.still (pushCall_still ..)) dropped)

theorem adaptorWord_keepsApart (cycles poison : Nat) (tdo : List Bool) (s : State) :
    KeepsApart s (adaptorWord stopFirmware cycles poison tdo s) := by
  have ran : ∀ q e hit o t, KeepsApart t (adaptorRan stopFirmware cycles q e hit o t) := by
    intro q e hit o t
    refine .ite ((KeepsApart.of_only (stopFirmware_only _)).trans (callEnds_keepsApart ..)) ?_
    split
    · exact (KeepsApart.ite (.of_only (uncorrectableItem_only ..)) (.refl t)).trans (callEnds_keepsApart ..)
    · extract_lets r1 _ s1
      have acted : KeepsApart t s1 := (KeepsApart.of_only (upd_osier (l := [.osier]) (.refl _ _) rfl)).step (scanAct_only ..)
      split
      · exact acted.trans (callEnds_keepsApart ..)
      · exact acted
  unfold adaptorWord
  split
  · exact (KeepsApart.ite (.of_only (correctedWord_only ..)) (.refl s)).trans (ran ..)
  · exact .refl _

/-! ### Cuts and exports -/

theorem stageWrite_keepsApart (dram : Bool) {spoil : State → State} (s : State) (h : ∀ t, KeepsApart t (spoil t)) :
    KeepsApart s (stageWrite dram spoil s) := by
  have spent : KeepsApart s (if dram then spendDram s else spendCreel s) :=
    .ite (.of_only (spendDram_only _)) (.of_still (spendCreel_still _))
  exact .ite (spent.trans (h _)) spent

theorem slath_keepsApart (p : Nat) (s : State) : KeepsApart s (slath p s) := .of_roles (slathRun_keepsRoles ..)

theorem modBuild_keepsApart (p : Nat) (g : Cut → Cut) (s : State) : KeepsApart s (modBuild p g s) := .of_still (modBuild_still ..)

theorem modCut_keepsApart (p : Nat) (id : W32) (g : Cut → Cut) (s : State) : KeepsApart s (modCut p id g s) :=
  .of_still (modCut_still ..)

theorem takeInFlight_keepsApart (p i total : Nat) (d : List Byte) (s : State) : KeepsApart s (takeInFlight p i total d s) := by
  unfold takeInFlight
  split
  · exact .refl _
  · extract_lets room put c1 held block
    clear_value c1 block
    split
    · have built : ∀ g, KeepsApart s (modBuild p g s) := fun g => modBuild_keepsApart p g s
      exact .ite (built _) ((built _).trans (stageWrite_keepsApart _ _ fun _ => modBuild_keepsApart ..))
    · exact modBuild_keepsApart ..

theorem inflightAnswer_keepsApart (p i code : Nat) (d : List Byte) (s : State) : KeepsApart s (inflightAnswer p i code d s) :=
  (KeepsApart.ite (takeInFlight_keepsApart ..) (modBuild_keepsApart ..)).trans (slath_keepsApart ..)

theorem captureAnswer_keepsApart (p id i code : Nat) (d : List Byte) (s : State) :
    KeepsApart s (captureAnswer p id i code d s) := by
  unfold captureAnswer
  extract_lets put writes next
  clear_value put next
  split
  · have changed := modCut_keepsApart p (BitVec.ofNat 32 id) put s
    exact (KeepsApart.ite (changed.trans (stageWrite_keepsApart _ _ fun _ => modCut_keepsApart ..)) changed).trans
      (slath_keepsApart ..)
  · exact slath_keepsApart ..

theorem poisonHeld_keepsApart (p : Nat) (l : List Nat) (s : State) : KeepsApart s (poisonHeld p l s) :=
  ((KeepsApart.refl s).each fun _ _ => .of_only (modUnit_only ..)).trans (modBuild_keepsApart ..)

theorem writeSplint_keepsApart (e : Export) (bytes : List Byte) (s : State) : KeepsApart s (writeSplint e bytes s) := by
  unfold writeSplint
  extract_lets k _ s1
  have sent : KeepsApart s s1 := .ite (.of_only (hostWrite_only ..)) (.ite
    (.of_eq rfl) (.of_only (storeDump_only ..)))
  exact ((sent.step (bumpAlways_only ..)).trans (hubEvent_keepsApart ..)).step (modMeters_only ..)

theorem sendData_keepsApart (e : Export) (ecc : SplintEcc) (s : State) : KeepsApart s (sendData e ecc s) := by
  unfold sendData
  extract_lets i
  split
  · exact .refl _
  · exact ((((KeepsApart.refl s).each fun _ _ => .of_still (correctedWord_still ..)).each fun _ _ =>
      (KeepsApart.of_only (uncorrectableItem_only ..)).trans (modCut_keepsApart ..)).trans (writeSplint_keepsApart ..)).step
        (putExport_only ..)

theorem storePart_keepsApart (e : Export) (s : State) : KeepsApart s (storePart e s) := .ite (modCut_keepsApart ..) (.refl _)

theorem sendManifest_keepsApart (e : Export) (s : State) : KeepsApart s (sendManifest e s) := by
  unfold sendManifest
  extract_lets l k n b e1 s1
  have written : KeepsApart s s1 := writeSplint_keepsApart ..
  exact .ite (((written.trans (storePart_keepsApart ..)).step (dropExport_only ..)).step (complete_only ..))
    (written.step (putExport_only ..))

theorem findTurn_keepsApart {k : Nat} {s t : State} {e : Export} (h : findTurn k s = some (e, t)) : KeepsApart s t := by
  have passed : ∀ u, KeepsApart u (passTurn u) := fun u => .of_only (passTurn_only _)
  induction k generalizing s with
  | zero => cases h
  | succ k ih =>
    unfold findTurn at h
    split at h
    · split at h
      · obtain ⟨_, rfl⟩ := Prod.mk.inj (Option.some.inj h)
        exact .refl _
      · exact (passed s).trans (ih h)
    · exact (passed s).trans (ih h)

/-! ### Stakes and the commits that fail with them -/

theorem warpRecords_keepsApart (ps : List Nat) (c : Commit) (outcome : Nat) (new : W32) (status : Byte) (s : State) :
    KeepsApart s (warpRecords ps c outcome new status s) :=
  (KeepsApart.refl s).each fun _ _ => .of_still (writeRec_still ..)

theorem failWarp_keepsApart (status : Byte) (s : State) : KeepsApart s (failWarp status s) := by
  unfold failWarp
  split
  · exact .refl _
  · exact .ite (.refl _) (((KeepsApart.of_only (upd_weave (l := [.weave]) (.refl _ _) rfl)).trans
      (warpRecords_keepsApart ..)).step (complete_only ..))

theorem failCommit_keepsApart (p : Nat) (status : Byte) (s : State) : KeepsApart s (failCommit p status s) :=
  .of_roles (failCommit_keepsRoles ..)

theorem stakeTaken_keepsApart (p : Nat) (s : State) : KeepsApart s (stakeTaken p s) := by
  have failed := failCommit_keepsApart p stStakeHeldByTwin s
  exact .ite (failed.trans (failWarp_keepsApart ..)) failed

theorem stakeRefused_keepsApart (n p remain : Nat) (claimed : Bool) (s : State) :
    KeepsApart s (stakeRefused n p remain claimed s) := by
  unfold stakeRefused
  extract_lets waiting at_
  have ended : KeepsApart s (each waiting (fun r t => match r.who with
      | .cmd f tag u _ => endResend f tag u r (t.refusedAgain f tag) t
      | _ => t) (clearResends n p (stakeLost n p s))) := by
    refine ((KeepsApart.of_only (stakeLost_only ..)).step (clearResends_only ..)).each fun r t => ?_
    split
    · exact endResend_keepsApart ..
    · exact .refl _
  exact (KeepsApart.ite (ended.step (modStake_only ..)) (.ite (ended.step (claim_only ..)) ended)).trans
    (stakeTaken_keepsApart ..)

theorem claimAnswer_keepsApart (n p code : Nat) (d : List Byte) (s : State) : KeepsApart s (claimAnswer n p code d s) :=
  (KeepsApart.ite (.of_only (stakeGained_only ..)) (.ite (stakeRefused_keepsApart ..) (.of_only (clearResends_only ..)))).step
    (twinChecks_only _)

theorem renewAnswer_keepsApart (n p code : Nat) (d : List Byte) (s : State) : KeepsApart s (renewAnswer n p code d s) :=
  (KeepsApart.ite (.of_only (modStake_only ..)) (.ite ((KeepsApart.of_only (modStake_only ..)).step (claim_only ..))
    (.ite (stakeRefused_keepsApart ..) (.refl _)))).step (twinChecks_only _)

theorem sawHolder_keepsApart (n p : Nat) (d : List Byte) (s : State) : KeepsApart s (sawHolder n p d s) :=
  .ite ((KeepsApart.of_only (modStake_only ..)).trans (stakeTaken_keepsApart ..)) (.refl _)

theorem failResends_keepsApart (n p : Nat) (st : Byte) (s : State) : KeepsApart s (failResends n p st s) := by
  refine (KeepsApart.of_only (clearResends_only ..)).each fun r t => ?_
  split
  · exact endResend_keepsApart ..
  · exact .refl _

/-! ### Answers of a die, and requests that get none -/

theorem runStateAnswer_keepsApart (n u code : Nat) (d : List Byte) (s : State) :
    KeepsApart s (runStateAnswer n u code d s) := by
  unfold runStateAnswer
  extract_lets v
  refine (KeepsApart.ite ?_ (.refl s)).step (enumAnswered_only ..)
  dsimp only
  split
  · exact (KeepsApart.of_only (modUnit_only ..)).trans (checkGathering_keepsApart ..)
  · exact .of_only (modUnit_only ..)

theorem modCommit_keepsApart (p : Nat) (g : Commit → Commit) (s : State) : KeepsApart s (modCommit p g s) :=
  (KeepsApart.refl s).change

theorem watchApplyAnswer_keepsApart (p u : Nat) (last ok : Bool) (s : State) : KeepsApart s (watchApplyAnswer p u last ok s) :=
  modCommit_keepsApart ..

theorem answered_keepsApart (n : Nat) (r : OutReq) (code : Nat) (replayed : Bool) (d : List Byte) (s : State) :
    KeepsApart s (answered n r code replayed d s) := by
  unfold answered
  split
  · split
    · exact .ite (.of_only (regionAnswer_only ..)) (cmdAnswer_keepsApart ..)
    · exact .refl _
  · extract_lets s1
    have claimed : KeepsApart s s1 := (sawHolder_keepsApart ..).trans (claimAnswer_keepsApart ..)
    exact .ite (claimed.step (enumClaimed_only ..)) claimed
  · exact (sawHolder_keepsApart ..).trans (renewAnswer_keepsApart ..)
  · exact (sawHolder_keepsApart ..).step (releaseAnswer_only ..)
  · exact .of_only (enumReadAnswer_only ..)
  · exact .of_only (classReadAnswer_only ..)
  · exact .of_only (enumAnswered_only ..)
  · exact runStateAnswer_keepsApart ..
  · exact watchApplyAnswer_keepsApart ..
  · exact .of_only (synthAnswer_only ..)
  · exact inflightAnswer_keepsApart ..
  · exact captureAnswer_keepsApart ..
  all_goals exact .refl _

theorem takeResponse_keepsApart (n : Nat) (m : Msg) (s : State) : KeepsApart s (takeResponse n m s) := by
  unfold takeResponse
  refine .ite (.refl _) ?_
  extract_lets c code replayed d
  split
  · exact .of_only (protocolError_only ..)
  · refine .ite (.of_only (protocolError_only ..)) ?_
    extract_lets s1 s2
    have h1 : KeepsApart s s1 := .of_only (modLnk_only ..)
    have h2 : KeepsApart s s2 :=
      .ite (h1.trans (answerEffect_keepsApart ..)) (h1.trans (refusalEffect_keepsApart ..))
    exact h2.trans (answered_keepsApart ..)

theorem unanswered_keepsApart (n : Nat) (r : OutReq) (st : Byte) (s : State) : KeepsApart s (unanswered n r st s) := by
  unfold unanswered
  split
  · exact (failResends_keepsApart ..).step (twinChecks_only _)
  · exact .of_only (twinChecks_only _)
  · exact .of_only (twinChecks_only _)
  · exact .of_only (enumAnswered_only ..)
  · exact .of_only (enumAnswered_only ..)
  · exact .of_only (enumAnswered_only ..)
  · exact .of_only (enumAnswered_only ..)
  · exact watchApplyAnswer_keepsApart ..
  · exact .of_only (synthAnswer_only ..)
  · exact inflightAnswer_keepsApart ..
  · exact captureAnswer_keepsApart ..
  · exact .refl _

theorem requestLost_keepsApart (n : Nat) (r : OutReq) (s : State) : KeepsApart s (requestLost n r s) := by
  unfold requestLost
  split
  · split
    · exact .ite (.of_only (regionAnswer_only ..)) (.ite (.of_only (modWork_only ..)) (cmdLinkLost_keepsApart ..))
    · exact .refl _
  · exact unanswered_keepsApart ..

/-! ### Links -/

theorem linkLoss_keepsApart (n : Nat) (s : State) : KeepsApart s (linkLoss n s) :=
  .ite (.refl _) ((KeepsApart.refl s).each fun _ _ => lossBoth_keepsApart ..)

theorem portDown_keepsApart (n cause : Nat) (count : Bool) (s : State) : KeepsApart s (portDown n cause count s) := by
  unfold portDown
  extract_lets x fails lost units waiting parts
  have lostAll := (((KeepsApart.of_only (modPort_only n
      (fun y => { y with lk := y.lk.toDown cause s.t fails, enum := none, enumerated := false, detachAt := none }) s)).each
        (l := lost) fun r t => requestLost_keepsApart n r t).step (linkDownCmds_only n _)).each (l := waiting) declareUnit_keepsApart
  have ended := (lostAll.each (l := units) fun u t => .of_only (uncertain_only u t)).trans (endsAtDown_keepsApart n _)
  have told := (ended.trans (linkRec_keepsApart n 0 _)).step (raiseErr_only 8 2 n 0 cause 0 _)
  have cut := (told.each (l := parts) checkGather_keepsApart).each (l := parts) slath_keepsApart
  exact ((KeepsApart.ite (cut.step (reinstall_only ..)) cut).step (twinChecks_only _)).step (bootAdvance_only _)

theorem linkDown_keepsApart (l cause : Nat) (count : Bool) (s : State) : KeepsApart s (linkDown l cause count s) :=
  .ite (.of_only (plaitDown_only ..)) (portDown_keepsApart ..)

theorem forceDown_keepsApart (n : Nat) (s : State) : KeepsApart s (forceDown n s) := .ite (portDown_keepsApart ..) (.refl _)

theorem replay_keepsApart (l : Nat) (first : BitVec 12) (s : State) : KeepsApart s (replay l first s) := by
  unfold replay
  extract_lets x k s1
  have noted : ∀ g, KeepsApart s (modLnk l g s) := fun g => .of_only (modLnk_only ..)
  have h1 : KeepsApart s s1 :=
    ((KeepsApart.ite ((noted _).step (bumpAlways_only ..)) (noted _)).step (sendCtl_only ..)).step (resend_only ..)
  exact .ite (.ite (((KeepsApart.of_only (sendCtl_only ..)).step (pump_only ..)).trans (noteRuns_keepsApart _)) (.refl _))
    (.ite ((h1.step (modLnk_only ..)).step (startRetrain_only ..)) ((h1.step (pump_only ..)).trans (noteRuns_keepsApart _)))

theorem takeHdr_keepsApart (l : Nat) (h : CtlHdr) (s : State) : KeepsApart s (takeHdr l h s) :=
  ((KeepsApart.of_only (readHdr_only ..)).step (pump_only ..)).trans (noteRuns_keepsApart _)

theorem takeNak_keepsApart (l : Nat) (seq : BitVec 12) (s : State) : KeepsApart s (takeNak l seq s) :=
  .ite ((KeepsApart.of_only (modLnk_only ..)).trans (replay_keepsApart ..)) (.refl _)

theorem takeResume_keepsApart (l : Nat) (next : BitVec 12) (s : State) : KeepsApart s (takeResume l next s) := by
  unfold takeResume
  extract_lets x back rec_
  have active : KeepsApart s (modLnk l back s) := .of_only (modLnk_only ..)
  exact .ite ((((KeepsApart.ite (active.trans (timesyncRec_keepsApart ..)) active).step (resend_only ..)).step
    (pump_only ..)).trans (noteRuns_keepsApart _)) (.refl _)

theorem enterActive_keepsApart (l : Nat) (s : State) : KeepsApart s (enterActive l s) := by
  unfold enterActive
  extract_lets s1 again
  have h1 : KeepsApart s s1 := .of_only (modLnk_only ..)
  have trained := ((h1.step (warpTrained_only l _)).trans (linkRec_keepsApart l 1 _)).step
    (modPort_only l (fun x => { x with uidNew := false }) _)
  have told := (trained.trans (linkLoss_keepsApart l _)).trans (timesyncRec_keepsApart l true _)
  exact .ite ((((h1.step (upd_plait (l := [.plait]) (.refl _ _) rfl)).step (pump_only ..)).step (sendHello_only ..)).step
      (tryPairing_only _))
    ((KeepsApart.ite told (told.step (enumStart_only ..))).step (bootAdvance_only _))

theorem exchangeDone_keepsApart (l : Nat) (e : Exchange) (s : State) : KeepsApart s (exchangeDone l e s) := by
  unfold exchangeDone
  extract_lets x ex b n enters inForce s1 y moved may
  have noted : ∀ g, KeepsApart s (modLnk l g s) := fun g => .of_only (modLnk_only ..)
  have h1 : KeepsApart s s1 := .ite ((noted _).step (modLnk_only ..)) (noted _)
  exact .ite (.ite (h1.trans (enterActive_keepsApart ..)) (h1.step (startExchange_only ..)))
    (.ite ((h1.trans (timesyncRec_keepsApart ..)).step (modLnk_only ..)) h1)

theorem takeConfig_keepsApart (l : Nat) (peerSeen : Bool) (b : ConfigBody) (s : State) :
    KeepsApart s (takeConfig l peerSeen b s) := by
  unfold takeConfig
  refine .ite (.refl _) (.ite ((KeepsApart.of_only (noteUid_only ..)).trans (linkDown_keepsApart ..)) ?_)
  extract_lets s1 s2
  have h1 : KeepsApart s s1 := .ite ((KeepsApart.of_only (noteUid_only ..)).step (notePeer_only ..)) (.refl _)
  have h2 : KeepsApart s s2 := (h1.step (modLnk_only ..)).step (sendConfig_only ..)
  exact .ite (h2.step (enterTimesync_only ..)) h2

theorem takeTimesyncRsp_keepsApart (l : Nat) (exch : Byte) (t1 t2 t3 : W64) (s : State) :
    KeepsApart s (takeTimesyncRsp l exch t1 t2 t3 s) := by
  unfold takeTimesyncRsp
  extract_lets x
  split
  · exact .ite (exchangeDone_keepsApart ..) (.refl _)
  · exact .refl _

/-! ### Messages of a die and of the twin -/

theorem heard_keepsApart (p bytes : Nat) (s : State) : KeepsApart s (heard p bytes s) :=
  ((KeepsApart.refl s).change).trans (hubEvent_keepsApart ..)

theorem takeHaltRecord_keepsApart (n : Nat) (m : Msg) (s : State) : KeepsApart s (takeHaltRecord n m s) := by
  unfold takeHaltRecord
  extract_lets u p stop halted r s1 s2
  have h1 : KeepsApart s s1 := (heard_keepsApart ..).step (holdRecord_only ..)
  have h2 : KeepsApart s s2 := .ite (h1.trans (stepEnds_keepsApart ..)) h1
  exact .ite (.refl _) (((h2.trans (hubEvent_keepsApart ..)).still (traceWrite_still ..)).trans (checkGather_keepsApart ..))

theorem eventEffect_keepsApart (e : Event) (ts : W64) (s : State) : KeepsApart s (eventEffect e ts s) :=
  .ite ((hubEvent_keepsApart ..).step (ingest_only ..)) (.ite
    ((endsWithoutDelta_keepsApart ..).trans (markerLatch_keepsApart ..)) (.ite
    (.ite (.of_only (modUnit_only ..)) (endLatch_keepsApart ..)) (.of_only (fire_only ..))))

theorem takeEvent_keepsApart (n : Nat) (e0 : Event) (s : State) : KeepsApart s (takeEvent n e0 s) := by
  unfold takeEvent
  extract_lets e ts r s1
  have h1 : KeepsApart s s1 := heard_keepsApart ..
  exact .ite (.refl _) (.ite ((h1.trans (eventEffect_keepsApart ..)).still (traceWrite_still ..))
    ((h1.still (traceWrite_still ..)).trans (eventEffect_keepsApart ..)))

theorem takeEventBatch_keepsApart (n : Nat) (m : Msg) (s : State) : KeepsApart s (takeEventBatch n m s) :=
  .ite ((KeepsApart.refl s).each fun _ _ => (takeEvent_keepsApart ..).still (settle_still _)) (.refl _)

theorem takeDelta_keepsApart (n : Nat) (m : Msg) (s : State) : KeepsApart s (takeDelta n m s) := by
  unfold takeDelta
  extract_lets u p d mine due
  have counted := (heard_keepsApart p (d.length + 16) s).trans (atEdge_keepsApart (p := p) _
    ((KeepsApart.refl _).each (l := deltas d) fun a t => deltaEvent_keepsApart p u (field d 4 2) a.1 a.2.1 a.2.2 t))
  exact .ite (.refl _) (((counted.still (traceWrite_still ..)).step (modUnit_only ..)).each fun _ _ => endLatch_keepsApart ..)

theorem takeDieLoss_keepsApart (n : Nat) (m : Msg) (s : State) : KeepsApart s (takeDieLoss n m s) :=
  .ite (.refl _) ((((heard_keepsApart ..).step (uncertain_only ..)).trans (lossBoth_keepsApart ..)).trans
    (endsWithoutDelta_keepsApart ..))

theorem takeVc3_keepsApart (n : Nat) (m : Msg) (s : State) : KeepsApart s (takeVc3 n m s) :=
  .ite (takeHaltRecord_keepsApart ..) (.ite (takeEventBatch_keepsApart ..) (.ite (takeDelta_keepsApart ..)
    (.ite (takeDieLoss_keepsApart ..) (.refl _))))

theorem takeHaltFwd_keepsApart (p action : Nat) (abrupt : Bool) (s : State) : KeepsApart s (takeHaltFwd p action abrupt s) :=
  .ite (.refl _) ((KeepsApart.of_only (fireAll_only ..)).trans (enterHalts_keepsApart ..))

theorem takeStakeNote_keepsApart (p : Nat) (ports event : Byte) (s : State) :
    KeepsApart s (takeStakeNote p ports event s) := by
  have noted : ∀ g, KeepsApart s (each (portsIn ports) (fun n => modStake n p g) s) := fun g =>
    (KeepsApart.refl s).each fun _ _ => .of_only (modStake_only ..)
  exact .ite ((noted _).trans (stakeTaken_keepsApart ..)) (noted _)

theorem takeStakeView_keepsApart (view : List Byte) (s : State) : KeepsApart s (takeStakeView view s) := by
  have seen : ∀ g : Nat → Nat → StakeView → StakeView, KeepsApart s (each (List.range 64) (fun p =>
      each (portsIn (view.getD p 0)) (fun n => modStake n p (g p n))) s) := fun g =>
    (KeepsApart.refl s).each fun _ _ => (KeepsApart.refl _).each fun _ _ => .of_only (modStake_only ..)
  have taken := (seen fun _ _ x => { x with twin := true }).each
    (l := (List.range 64).filter fun p => view.getD p 0 != 0) stakeTaken_keepsApart
  exact (KeepsApart.ite (taken.step (upd_plait (l := [.plait]) (.refl _ _) rfl)) taken).step (settlePairing_only _)

theorem takePlait_keepsApart (m : Msg) (s : State) : KeepsApart s (takePlait m s) := by
  unfold takePlait
  extract_lets d p b w
  split
  · exact .ite (takeHaltFwd_keepsApart ..) (.refl _)
  · exact .ite (.of_only (takeHoopEn_only ..)) (.refl _)
  · exact .ite (.of_only (takeHoopEnAck_only ..)) (.refl _)
  · exact .ite (takeStakeNote_keepsApart ..) (.refl _)
  · exact .of_only (takeHello_only ..)
  · exact takeStakeView_keepsApart ..
  · exact .of_only (takeFastView_only ..)
  · exact .of_only (takeHandoff_only ..)
  · exact .of_only (takeHandoffDone_only ..)
  · exact .of_only (takeUnpair_only _)
  · exact .ite (.of_only (takeImageReq_only ..)) (.refl _)
  · exact .of_only (takeImageData_only ..)
  · exact .refl _

theorem ctlEffectOf_keepsApart (l type : Nat) (sub : Byte) (b : List Byte) (s : State) :
    KeepsApart s (ctlEffectOf l type sub b s) :=
  .ite (takeNak_keepsApart ..) (.ite (.of_only (takeReplayStart_only ..)) (.ite (takeConfig_keepsApart ..)
    (.ite (.of_only (answerTimesync_only ..)) (.ite (takeTimesyncRsp_keepsApart ..) (.ite (takeResume_keepsApart ..)
      (.ite (.of_only (takeDetach_only ..)) (.refl _)))))))

theorem takeCtl_keepsApart (l : Nat) (b : List Byte) (s : State) : KeepsApart s (takeCtl l b s) :=
  .ite (.of_only (protocolError_only ..)) ((((KeepsApart.of_only (readHdr_only ..)).trans (ctlEffectOf_keepsApart ..)).step
    (pump_only ..)).trans (noteRuns_keepsApart _))

theorem takeMsg_keepsApart (l : Nat) (m : Msg) (s : State) : KeepsApart s (takeMsg l m s) :=
  .ite (.ite (.of_only (protocolError_only ..)) (takePlait_keepsApart ..))
    (.ite (takeVc3_keepsApart ..) (takeResponse_keepsApart ..))

theorem assemble_keepsApart (l ch : Nat) (som eom : Bool) (payload : List Byte) (s : State) :
    KeepsApart s (assemble l ch som eom payload s) := by
  unfold assemble
  extract_lets c put s1 whole
  have set_ : ∀ a t, KeepsApart t (put a t) := fun _ _ => .of_only (modLnk_only ..)
  have h1 : KeepsApart s s1 := .ite (.refl _) (.of_only (protocolError_only ..))
  clear_value whole
  cases whole with
  | none => exact h1
  | some all =>
    have h2 : KeepsApart s (put none s1) := h1.trans (set_ ..)
    refine .ite ?_ (h1.trans (set_ ..))
    split
    · exact h2.trans (takeMsg_keepsApart ..)
    · exact h2.step (protocolError_only ..)

theorem deliverFlit_keepsApart (l : Nat) (b : List Byte) (s : State) : KeepsApart s (deliverFlit l b s) := by
  unfold deliverFlit
  extract_lets h ch s1 s2 s3
  have h1 : KeepsApart s s1 := .ite (.of_only (bumpAlways_only ..)) (.refl _)
  have h2 : KeepsApart s s2 := .ite (h1.step (returnCredit_only ..)) h1
  have h3 : KeepsApart s s3 := .ite (h2.step (protocolError_only ..)) (h2.trans (assemble_keepsApart ..))
  exact .ite (h3.step (sendCtl_only ..)) h3

theorem takeSeq_keepsApart (l : Nat) (b : List Byte) (s : State) : KeepsApart s (takeSeq l b s) := by
  unfold takeSeq
  extract_lets x next
  have next_ : KeepsApart s (next s) := .of_only (modLnk_only ..)
  exact .ite (.refl _) (.ite ((next_.step (modLnk_only ..)).trans (deliverFlit_keepsApart ..))
    (.ite next_ (.of_only (sendNak_only ..))))

/-! ### Runs -/

theorem endRun_keepsApart (q : Run) (status cause : Nat) (s : State) : KeepsApart s (endRun q status cause s) :=
  .of_still (endRun_still ..)

theorem countCycles_keepsApart (q : Run) (n : Nat) (s : State) : KeepsApart s (countCycles q n s) := by
  have paid : ∀ w g, KeepsApart s (modMeters w g s) := fun w g => .of_only (modMeters_only ..)
  exact .ite ((paid _ _).trans (hubEvent_keepsApart ..)) (paid _ _)

theorem ctlEffect_keepsApart (q : Run) (e : LibEntry) (act : CtlAct) (s : State) : KeepsApart s (ctlEffect q e act s) := by
  unfold ctlEffect
  split
  · exact .of_only (yieldRun_only ..)
  · exact .of_only (yieldRun_only ..)
  · exact .of_only (yieldRun_only ..)
  · exact endRun_keepsApart ..
  · exact .of_still (programRec_still ..)
  · exact .ite ((firedReport_keepsApart ..).step (fire_only ..)) (.refl _)
  · exact .refl _

theorem checkLimit_keepsApart (id : W32) (s : State) : KeepsApart s (checkLimit id s) := by
  unfold checkLimit
  split
  · exact .ite (endRun_keepsApart ..) (.refl _)
  · exact .refl _

theorem coreRan_keepsApart (core cycles : Nat) (q : Run) (e : LibEntry) (hit : Bool) (o : WordEff) (s : State) :
    KeepsApart s (coreRan core cycles q e hit o s) := by
  unfold coreRan
  extract_lets count s2
  have h2 : KeepsApart s s2 := countCycles_keepsApart ..
  split
  · exact (KeepsApart.ite h2 (.ite (h2.step (raiseErr_only ..)) (h2.step (uncorrectableItem_only ..)))).trans
      (endRun_keepsApart ..)
  · exact ((((h2.step (putRun_only ..)).step (hostStores_only ..)).trans (ctlEffect_keepsApart ..)).trans
      (checkLimit_keepsApart ..)).trans (checkStall_keepsApart ..)

theorem runStep_keepsApart (core cycles poison : Nat) (q : Run) (e : LibEntry) (s : State) :
    KeepsApart s (runStep core cycles poison q e s) := by
  unfold runStep
  extract_lets hit o
  clear_value hit o
  have written : KeepsApart s (creelWritten o q e s) := .of_only (creelWritten_only ..)
  exact (KeepsApart.ite (written.still (correctedWord_still ..)) written).trans (coreRan_keepsApart ..)

theorem coreWord_keepsApart (core cycles poison : Nat) (s : State) : KeepsApart s (coreWord core cycles poison s) := by
  unfold coreWord
  split
  · exact .refl _
  · extract_lets s1
    have taken : KeepsApart s s1 := .of_still (takeCore_still ..)
    split
    · exact taken.trans (runStep_keepsApart ..)
    · exact taken

end Sys2Proof.Laws

/-!
SUPPORT. The weave, the resets, the registers and the commands of tenancy keep the roles on a partition apart.
-/

namespace Sys2Proof.Laws
open Sys2Proof Sys2Proof.Machine
set_option Elab.async false -- a thread per proof would not fit beside the model in the check's memory

/-! ### The weave -/

theorem noteWeft_keepsApart (p : Nat) (s : State) : KeepsApart s (noteWeft p s) := .ite ((KeepsApart.refl s).change) (.refl _)

theorem noteSettled_keepsApart (s : State) : KeepsApart s (noteSettled s) :=
  ((KeepsApart.refl s).each noteWeft_keepsApart).step (noteWarp_only _)

theorem acceptImage_keepsApart (by_ : Option Nat) (c : Checked) (l : List Section_) (lib : List LibEntry) (img : List Byte)
    (s : State) : KeepsApart s (acceptImage by_ c l lib img s) := by
  unfold acceptImage
  extract_lets id plane warp
  have loaded : KeepsApart s (keepCopy img (takeRole (noteImage by_ c.signed warp id (putLib lib s)))) :=
    (((KeepsApart.of_only (putLib_only ..)).step (noteImage_only ..)).step (takeRole_only _)).step (keepCopy_only ..)
  have started := ((loaded.changes (l := List.range 64) (g := fun p x =>
      { x with active := plane p, inactive := some (plane p), activeB := false, lastGen := 1 })).each
    (l := List.range 8) fun n t => .of_only (modPort_only n (fun x =>
      { x with warp := ((payloadOf l 0x11 n).map warpPortOf).getD WarpPort.none }) t)).each
    (l := List.range 8) fun n t => .of_only (startLink_only n t)
  exact ((KeepsApart.ite (started.step (enterDetect_only ..)) started).step (noteOpenLab_only _)).step (bootAdvance_only _)

theorem acceptWeft_keepsApart (p : Nat) (l : List Section_) (lib : List LibEntry) (id : W64) (s : State) :
    KeepsApart s (acceptWeft p l lib id s) := by
  unfold acceptWeft
  extract_lets gen plane
  exact (KeepsApart.of_only (putLib_only ..)).change

theorem swapPlanes_keepsApart (p : Nat) (new : Plane) (s : State) : KeepsApart s (swapPlanes p new s) :=
  (KeepsApart.refl s).change

theorem finishCommit_keepsApart (p : Nat) (c : Commit) (s : State) : KeepsApart s (finishCommit p c s) :=
  .of_roles (finishCommit_keepsRoles ..)

theorem switchWeft_keepsApart (p : Nat) (c : Commit) (new : Plane) (s : State) : KeepsApart s (switchWeft p c new s) := by
  unfold switchWeft
  extract_lets old sels s1 units skipped c1 s2
  have swapped := (KeepsApart.of_parts (dropConfig_partsStill p stBusy s)).trans (swapPlanes_keepsApart p new _)
  have h1 : KeepsApart s s1 := ((((((swapped.trans (takeLatch_keepsApart ..)).trans (.of_parts (weaveAtSwitch_partsStill ..))).trans
    (.of_parts (switchCoding_partsStill ..))).trans (.of_parts (rebindPred_partsStill ..))).step (switchHoop_only ..)).trans
      (.of_parts (switchGraph_partsStill ..)))
  have h2 : KeepsApart s s2 := h1.change
  exact .ite (h2.trans (finishCommit_keepsApart ..)) (h2.each fun _ _ => .of_only (writeDefaults_only ..))

theorem installPort_keepsApart (n : Nat) (w : WarpPort) (s : State) : KeepsApart s (installPort n w s) := by
  unfold installPort
  extract_lets down moved s1
  have ended : KeepsApart s (if down then endsAtDown n s else s) := .ite (endsAtDown_keepsApart ..) (.refl _)
  have h1 : KeepsApart s s1 := (ended.step (modPort_only n (fun x => { x with warp := w }) _)).each fun _ _ =>
    .of_only (uncertain_only ..)
  exact .ite (.ite ((h1.step (nextFree_only _)).trans (portDown_keepsApart ..)) (.ite h1 (h1.step (startLink_only ..))))
    (.ite (h1.step (enumStart_only ..)) h1)

/-! ### Resets of sessions, functions and ports -/

theorem purgeHub_keepsApart (f : Nat) (tag : W32) (s : State) : KeepsApart s (purgeHub f tag s) := by
  unfold purgeHub
  exact (((KeepsApart.of_only (upd_osier (l := [.osier]) (.refl _ _) rfl)).step (dropExport_only ..)).step
    (clearDeficits_only _)).changes

theorem fenceFn_keepsApart (f : Nat) (s : State) : KeepsApart s (fenceFn f s) := by
  unfold fenceFn
  extract_lets rest keep halts o
  have fenced : ∀ (o : OsierCtl) (l : LcyCtl) (w : WeaveCtl) (p : PlaitCtl),
      KeepsApart s { s with osier := o, lcy := l, weave := w, plait := p } := fun _ _ _ _ => .of_eq rfl
  exact ((((((fenced _ _ _ _).each fun _ _ => .of_only (modPort_only ..)).changes).each fun _ _ =>
    .of_only (modFn_only ..)).step (modFn_only ..)).step (modFn_only ..))

theorem resetSession_keepsApart (n cause : Nat) (s : State) : KeepsApart s (resetSession n cause s) :=
  ((((((fenceFn_keepsApart n s).trans (endRoles_keepsApart n _)).step (upd_slath (l := [.slath]) (.refl _ _) rfl)).step
    (clearDeficits_only _)).still (releaseOwned_still ..)).still (endRuns_still ..)).step (clearFn_only ..)

theorem resetPf_keepsApart (port cause : Nat) (s : State) : KeepsApart s (resetPf port cause s) :=
  (((((fenceFn_keepsApart ..).each fun _ _ => resetSession_keepsApart ..).step (resetLoad_only ..)).step
    (modHost_only ..)).step (clearFn_only ..)).step (noteOpenLab_only _)

theorem resetPort_keepsApart (port : Nat) (s : State) : KeepsApart s (resetPort port s) :=
  ((resetPf_keepsApart ..).step (upd_boot (l := [.boot]) (.refl _ _) rfl)).step (raiseErr_only ..)

/-! ### Resets of the hub -/

/-- A reset from nothing ends every role. -/
theorem powerReset_keepsApart (cause : BitVec 6) (s : State) : KeepsApart s (powerReset cause s) := by
  have reset : State.reset.RolesApart := resetRolesApart.1
  exact ⟨fun _ => ⟨reset.apart, reset.slots⟩⟩

/-- A warm reset ends every role. -/
theorem warmed_keepsApart (s : State) (cause : BitVec 6) : KeepsApart s (s.warmed cause) := by
  refine .of_part fun p _ => ?_
  by_cases h : p < 64
  · rw [part_warmed s cause h]
    exact .of_none rfl rfl
  · rw [part_of_not_lt _ h]
    exact .of_none rfl rfl

theorem warmNow_keepsApart (cause : BitVec 6) (s : State) : KeepsApart s (warmNow cause s) :=
  (((KeepsApart.of_only (abortAll_only s)).step (releaseOutputs_only _)).trans (warmed_keepsApart ..)).step (noteOpenLab_only _)

theorem warmReset_keepsApart (cause : BitVec 6) (s : State) : KeepsApart s (warmReset cause s) :=
  .ite (.of_eq rfl) (warmNow_keepsApart ..)

theorem scrub_keepsApart (s : State) : KeepsApart s (scrub s) := by
  unfold scrub
  have emptied : ∀ (m : MemCtl) (x : SlathCtl), KeepsApart s { s with mem := m, slath := x } := fun _ _ => .of_eq rfl
  exact .ite (.of_eq rfl) ((emptied _ _).changes)

theorem partReady_keepsApart (p : Nat) (s : State) : KeepsApart s (partReady p s) := by
  unfold partReady
  extract_lets w sels
  have routed := (KeepsApart.refl s).change (p := p) (g := fun x =>
    { x with routes := weftRoutes w, oldRoutes := weftRoutes w, switchTs := s.now, sels := sels, watchdogAt := s.t,
             stageAt := s.t })
  have bound := (KeepsApart.ite (c := hangFlag w 0 = true) (routed.trans (.of_parts (startGraph_partsStill p _))) routed).trans
    (.of_roles (bindAtReady_keepsRoles p _))
  exact .ite (bound.trans (forceReset_keepsApart ..)) bound

/-! ### Registers -/

theorem readClear_keepsApart (f off : Nat) (s : State) : KeepsApart s (readClear f off s) :=
  .ite (.of_eq rfl) (.ite (.of_eq rfl)
    (.ite (.ite ((KeepsApart.refl s).change) (.ite ((KeepsApart.refl s).change) (.ite ((KeepsApart.refl s).change) (.refl _))))
      (.refl _)))

theorem readReg_keepsApart (tap : Bool) (f off : Nat) (s : State) : KeepsApart s (readReg tap f off s).2 := by
  unfold readReg
  split
  · exact .of_only (windowRead_only ..)
  · extract_lets l
    split
    · exact .refl _
    · have latched : ∀ l, KeepsApart s (if groupSize off = 0 then s else setLatches tap f l s) := fun l =>
        .ite (.refl _) (.of_only (setLatches_only ..))
      exact (latched _).trans (readClear_keepsApart ..)

theorem barRead_keepsApart (f off : Nat) (s : State) : KeepsApart s (barRead f off s) := by
  have read := readReg_keepsApart false f off s
  unfold barRead
  refine .ite (.refl _) (.ite (.of_only (readDone_only ..)) ?_)
  split
  next h => rw [h] at read; exact read.step (readDone_only ..)
  next h => rw [h] at read; exact read.step (emit_only ..)

theorem writeHub_keepsApart (tap : Bool) (f off : Nat) (w : Wr) (s : State) : KeepsApart s (writeHub tap f off w s) :=
  .ite (.ite (warmReset_keepsApart ..) (.refl _)) (.ite (.of_eq rfl)
    (.ite (.of_only (modHost_only ..)) (.ite (.of_only (modHost_only ..)) (.ite (.of_only (modHost_only ..)) (.refl _)))))

theorem writeNsl_keepsApart (tap : Bool) (f off : Nat) (w : Wr) (s : State) : KeepsApart s (writeNsl tap f off w s) := by
  unfold writeNsl
  extract_lets n k ok
  have retrained : KeepsApart s (if w.ones.getLsbD 0 then startRetrain n s else s) :=
    .ite (.of_only (startRetrain_only ..)) (.refl _)
  exact .ite (.ite (scanWrite_keepsApart ..) (.refl _)) (.ite (.of_only (modPort_only ..)) (.ite
    (.ite (.ite (retrained.trans (forceDown_keepsApart ..)) retrained) (.refl _)) (.ite (.of_only (modLnk_only ..)) (.refl _))))

theorem requestReset_keepsApart (f p : Nat) (s : State) : KeepsApart s (requestReset f p s) :=
  .ite ((KeepsApart.refl s).change) (.refl _)

theorem writePart_keepsApart (f p off : Nat) (w : Wr) (s : State) : KeepsApart s (writePart f p off w s) :=
  .ite (.ite (requestReset_keepsApart ..) (.refl _)) (.ite (.of_only (modFn_only ..)) (.refl _))

theorem writeReg_keepsApart (tap : Bool) (f off : Nat) (value : W32) (en : BitVec 4) (s : State) :
    KeepsApart s (writeReg tap f off value en s) :=
  .ite (.refl _) <| .ite (.ite (writeHub_keepsApart ..) (.refl _)) <|
    .ite (.ite (.of_only (writeWea_only ..)) (.refl _)) <| .ite (.of_only (writeSes_only ..)) <| .ite (.refl _) <|
      .ite (.ite (writeNsl_keepsApart ..) (.refl _)) <| .ite (.of_only (writeSel_only ..)) <|
        .ite (.of_only (writeMsix_only ..)) <| .ite (writePart_keepsApart ..) (.refl _)

theorem writeSpan_keepsApart (f off : Nat) (more : List (W32 × BitVec 4)) (s : State) : KeepsApart s (writeSpan f off more s) :=
  (KeepsApart.refl s).each fun _ t => hostPut_keepsApart t fun u => writeReg_keepsApart false f _ _ _ u

theorem regAccess_keepsApart (dr : Nat) (s : State) : KeepsApart s (regAccess dr s) := by
  unfold regAccess
  extract_lets off port vf isVf f load
  have loads : ∀ d v t, KeepsApart t (load d v t) := fun _ _ t => .of_only (upd_tap (.refl [.tap] t) rfl)
  refine .ite (loads ..) (.ite ?_ ?_)
  · exact .ite (writeReg_keepsApart ..) ((writeReg_keepsApart ..).trans (loads ..))
  · have read := readReg_keepsApart true f off s
    generalize readReg true f off s = r at read ⊢
    obtain ⟨_ | v, t⟩ := r
    · exact (read.step (nextFree_only _)).trans (loads ..)
    · exact read.trans (loads ..)

/-! ### Claims, observations and grants -/

theorem fail_keepsApart (f : Nat) (tag : W32) (st : Byte) (s : State) : KeepsApart s (fail f tag st s) := .of_only (fail_only ..)

theorem complete_keepsApart (f : Nat) (tag : W32) (r : Res) (s : State) : KeepsApart s (complete f tag r s) :=
  .of_only (complete_only ..)

theorem revoke_keepsApart (f p : Nat) (owner : Bool) (s : State) : KeepsApart s (revoke f p owner s) := by
  unfold revoke
  extract_lets unsent
  have ended : KeepsApart s (modPart p (fun x => if owner then { x with owner := none }
      else { x with observers := x.observers.filter (· != f) }) s) := by
    cases owner with
    | true => exact modPart_owner_none_keepsApart p s
    | false => exact modPart_unobserved_keepsApart f p s
  exact (ended.trans (endRoleRuns_keepsApart ..)).each fun _ _ =>
    ((KeepsApart.of_only (purgeCmd_only ..)).trans (purgeHub_keepsApart ..)).trans (fail_keepsApart ..)

theorem endCommits_keepsApart (f p : Nat) (s : State) : KeepsApart s (endCommits f p s) :=
  (ownerChanged_keepsApart p s).each fun _ _ => fail_keepsApart ..

theorem revoked_keepsApart (g : Nat) (c : Cmd) (s : State) : KeepsApart s (revoked g c s) := by
  unfold revoked
  extract_lets p owner
  have ended : KeepsApart s (if owner then endCommits c.work.r1 p s else s) := .ite (endCommits_keepsApart ..) (.refl _)
  have told := KeepsApart.ite (c := c.work.r2 < 4) (ended.step (setEvent_only c.work.r1 c.work.r2 _)) ended
  exact (KeepsApart.ite (told.trans (setOwner_keepsApart ..)) told).trans (complete_keepsApart ..)

theorem revokeNext_keepsApart (g : Nat) (tag : W32) (s : State) : KeepsApart s (revokeNext g tag s) := by
  unfold revokeNext
  split
  · exact .refl _
  · exact .ite (.refl _) (.ite (.ite ((endExports_keepsApart ..).step (modWork_only ..)) (.refl _)) (revoked_keepsApart ..))

theorem revoking_keepsApart (g : Nat) (tag : W32) (f p : Nat) (owner : Bool) (prev : Nat) (s : State) :
    KeepsApart s (revoking g tag f p owner prev s) :=
  ((revoke_keepsApart ..).step (modWork_only ..)).trans (revokeNext_keepsApart ..)

theorem firstFail_eq_none {l : List (Bool × Byte)} : firstFail l = none ↔ ∀ x ∈ l, x.1 = false := by
  simp [firstFail]

/-- A GRANT_OBSERVE that passed its checks finds a free slot, and the session without a role. -/
theorem grantObserve_keepsApart {g : Nat} {c : Cmd} {s : State} (hc : s.grantCheck g c = none) (ha : s.grantAlready c = false)
    (h : c.f 52 1 = 3) :
    KeepsApart s (modPart c.partition (fun x => { x with observers := x.observers ++ [c.f 53 1] }) s) := by
  refine modPart_observed_keepsApart ?_ ?_
  · simpa [State.grantAlready, h] using ha
  · have full := firstFail_eq_none.mp hc
      (c.f 52 1 == 3 && decide (Config.maxObservers ≤ (s.part c.partition).observers.length), stBusy) (by simp)
    simpa [h] using full

theorem grantEffect_keepsApart {g : Nat} {c : Cmd} (prev : Nat) {s : State} (hc : s.grantCheck g c = none)
    (ha : s.grantAlready c = false) : KeepsApart s (grantEffect g c prev s) := by
  have answers : ∀ {u : State}, KeepsApart s u → KeepsApart s (complete g c.tag { r0 := prev } u) := fun h =>
    h.trans (complete_keepsApart ..)
  unfold grantEffect
  extract_lets a t p ok
  split
  · split
    · exact revoking_keepsApart ..
    · exact answers (setOwner_keepsApart ..)
  · refine .ite ?_ ?_
    · split
      · exact revoking_keepsApart ..
      · exact answers (.refl s)
    · split
      next h => exact answers (grantObserve_keepsApart hc ha h)
      next => exact .ite (revoking_keepsApart ..) (.ite (answers (.of_only (modSess_only ..))) (.ite
          (answers (.of_only (modSess_only ..))) (.ite (answers (.of_only (modSess_only ..)))
            (answers ((KeepsApart.of_only (modHost_only ..)).step (noteOpenLab_only _))))))

end Sys2Proof.Laws

/-!
SUPPORT. Every command keeps the roles on a partition apart. Most name no partition among what they change, or are made of
operations of which the laws above say it; those that give a role check first that the other is not held.
-/

namespace Sys2Proof.Laws
open Sys2Proof Sys2Proof.Machine
set_option Elab.async false -- a thread per proof would not fit beside the model in the check's memory

/-! ### The outcomes that a meaning is built from -/

/-- The outcome settles a state in which the roles are apart, if they were so before. -/
def SettlesApart (s : State) (o : Host.Outcome State Fault Refusal) : Prop := ∃ u, o = done u ∧ KeepsApart s u

section
variable {s u : State} {a b : Host.Outcome State Fault Refusal} {c : Prop} {dec : Decidable c}

theorem SettlesApart.of_keeps (h : KeepsApart s u) : SettlesApart s (done u) := ⟨u, rfl, h⟩

theorem SettlesApart.quiet : SettlesApart s (done s) := .of_keeps (.refl s)

theorem SettlesApart.law {l : List Fld} (h : Only l s u) (e : (!l.contains .parts) = true := by rfl) :
    SettlesApart s (done u) := .of_keeps (.of_only h e)

theorem SettlesApart.ite (ha : SettlesApart s a) (hb : SettlesApart s b) : SettlesApart s (if c then a else b) := by
  split
  · exact ha
  · exact hb

/-- The shape of most events of the table: they act under a condition, and otherwise do nothing. -/
theorem SettlesApart.guard (h : KeepsApart s u) : SettlesApart s (if c then done u else done s) := .ite (.of_keeps h) .quiet

theorem SettlesApart.unless (h : KeepsApart s u) : SettlesApart s (if c then done s else done u) := .ite .quiet (.of_keeps h)

/-- A host's write to a register. -/
theorem SettlesApart.host {f : Nat} {g : State → State} (h : ∀ t, KeepsApart t (g t)) : SettlesApart s (done (hostPut f g s)) :=
  .of_keeps (hostPut_keepsApart s h)

/-- A command of a ring, as its turn comes. -/
theorem SettlesApart.command {op f : Nat} {tag : W32} {k : Cmd → State → State} (h : ∀ c t, KeepsApart t (k c t)) :
    SettlesApart s (done (startCmd op f tag k s)) := .of_keeps (startCmd_keepsApart s h)

/-- A command of a ring behind the checks that the commands of a partition's units share. -/
theorem SettlesApart.checkedCommand {op f : Nat} {tag : W32} {k : Cmd → State → State} (h : ∀ c t, KeepsApart t (k c t)) :
    SettlesApart s (done (startCmd op f tag (checked f tag k) s)) := .command fun c t => checked_keepsApart c t (h c)

/-- An instruction of the test access port. -/
theorem SettlesApart.tap {code : Nat} {g : State → State} (h : ∀ t, KeepsApart t (g t)) :
    SettlesApart s (done (tapRun code g s)) := .of_keeps (tapRun_keepsApart s h)

/-- A command that names no partition among what it changes. -/
theorem SettlesApart.of_touches {i : Instr} (e : (!(touches i).contains .parts) = true) : SettlesApart s (exec i s) := by
  obtain ⟨u, hu, only⟩ := exec_touches i s
  exact ⟨u, hu, .of_only only e⟩

end

/-! ### Tenancy -/

theorem execClaim_keepsApart (fn : Fn) (tag : W32) (s : State) : SettlesApart s (execClaim fn tag s) := by
  refine .ite .quiet (.command fun c t => ?_)
  extract_lets p cuts
  split
  · exact fail_keepsApart ..
  · exact .ite (complete_keepsApart ..) (.ite (fail_keepsApart ..) ((setOwner_keepsApart ..).trans (complete_keepsApart ..)))

/-- OBSERVE adds an observer that has no role yet, where a slot is free after the rivals before it. -/
theorem execObserve_keepsApart (fn : Fn) (tag : W32) (s : State) : SettlesApart s (execObserve fn tag s) := by
  refine .command fun c t => ?_
  extract_lets p
  split
  · exact fail_keepsApart ..
  · split
    · exact complete_keepsApart ..
    next noRole =>
      split
      · exact fail_keepsApart ..
      next free =>
        refine (modPart_observed_keepsApart (by simpa using noRole) ?_).trans (complete_keepsApart ..)
        omega

theorem execRelease_keepsApart (fn : Fn) (tag : W32) (s : State) : SettlesApart s (execRelease fn tag s) :=
  .command fun _ _ => .ite (.ite ((dropObserver_keepsApart ..).trans (complete_keepsApart ..)) (fail_keepsApart ..))
    (.ite (.of_only (modWork_only ..)) (fail_keepsApart ..))

theorem execReleaseTakesEffect_keepsApart (fn : Fn) (tag : W32) (s : State) :
    SettlesApart s (execReleaseTakesEffect fn tag s) := by
  unfold execReleaseTakesEffect
  extract_lets f
  split
  · exact .quiet
  · exact .ite .quiet (.ite (.of_keeps ((dropOwner_keepsApart ..).trans (complete_keepsApart ..))) (.law (fail_only ..)))

theorem execGrant_keepsApart (fn : Fn) (tag : W32) (s : State) : SettlesApart s (execGrant fn tag s) := by
  unfold execGrant
  extract_lets g t
  have ht : KeepsApart s t := .ite (revokeNext_keepsApart ..) (.refl _)
  refine .ite (.of_keeps (ht.trans (revokeNext_keepsApart ..))) (.ite (.of_keeps ht) (.of_keeps (ht.trans ?_)))
  refine startCmd_keepsApart _ fun c u => ?_
  extract_lets owner prev
  split
  · exact fail_keepsApart ..
  next allowed =>
    split
    · exact complete_keepsApart ..
    next new => exact grantEffect_keepsApart _ allowed (by simpa using new)

theorem setTime_keepsApart (port v : Nat) (newPeriod : Bool) (s : State) : KeepsApart s (setTime port v newPeriod s) := by
  unfold setTime
  extract_lets before was _ s1 closes back body s2
  have h1 : KeepsApart s s1 := .of_eq rfl
  have h2 : KeepsApart s s2 := (h1.step (mlog_only ..)).each fun _ _ => .of_still (writeRec_still ..)
  exact .ite (h2.step (setBoundary_only _)) (.ite (h2.step (closeByClock_only _)) h2)

theorem execSetWallclock_keepsApart (fn : Fn) (tag : W32) (s : State) : SettlesApart s (execSetWallclock fn tag s) := by
  refine .command fun c t => ?_
  split
  · exact fail_keepsApart ..
  · extract_lets fl _ t1 t2
    have h1 : KeepsApart t t1 := .ite (.of_eq rfl) (.refl _)
    have h2 : KeepsApart t t2 := .ite (h1.trans (setTime_keepsApart ..)) (h1.step (setBoundary_only _))
    exact h2.trans (complete_keepsApart ..)

/-! ### Run control and the units -/

theorem execHalt_keepsApart (fn : Fn) (tag : W32) (s : State) : SettlesApart s (execHalt fn tag s) :=
  .checkedCommand fun _ _ => enterHost_keepsApart _ _ fun _ => haltHeld_keepsApart ..

theorem execResume_keepsApart (fn : Fn) (tag : W32) (s : State) : SettlesApart s (execResume fn tag s) :=
  .ite .quiet (.checkedCommand fun _ _ =>
    (KeepsApart.ite (.of_only (modWork_only ..)) ((KeepsApart.of_only (modWork_only ..)).trans (sendRun_keepsApart ..))).trans
      (advanceCmd_keepsApart ..))

theorem execStep_keepsApart (fn : Fn) (tag : W32) (s : State) : SettlesApart s (execStep fn tag s) :=
  .ite .quiet (.checkedCommand fun _ _ =>
    ((KeepsApart.of_only (modWork_only ..)).trans (sendRun_keepsApart ..)).trans (advanceCmd_keepsApart ..))

/-- The commands that note whom they skip and then send their messages to the dies of a partition. -/
theorem sent_keepsApart {f : Nat} {tag : W32} {c : Cmd} {g : Work → Work} {ms : List CmdMsg} {t : State} :
    KeepsApart t (advanceCmd f tag (sendAll f c ms (modWork f tag g t))) :=
  ((KeepsApart.of_only (modWork_only ..)).step (sendAll_only ..)).trans (advanceCmd_keepsApart ..)

/-- The commands on the memory of units: the fallback units among them go to the adaptor. -/
theorem sentAll_keepsApart {f op : Nat} {tag : W32} {c : Cmd} {ms : List CmdMsg} {data : List Byte} {t : State} :
    KeepsApart t (advanceCmd f tag (fallbackCalls f c op data (sendAll f c ms t))) :=
  ((KeepsApart.of_only (sendAll_only ..)).step (fallbackCalls_only ..)).trans (advanceCmd_keepsApart ..)

theorem execHaltTimeoutExpiry_keepsApart (unit : UnitNo) (s : State) : SettlesApart s (execHaltTimeoutExpiry unit s) := by
  unfold execHaltTimeoutExpiry
  split
  · exact .guard (declareUnit_keepsApart ..)
  · exact .quiet

theorem execStepTimeoutExpiry_keepsApart (unit : UnitNo) (s : State) : SettlesApart s (execStepTimeoutExpiry unit s) := by
  unfold execStepTimeoutExpiry
  split
  · exact .guard (declareUnit_keepsApart ..)
  · exact .quiet

theorem execAdaptorOperationTimeout_keepsApart (s : State) : SettlesApart s (execAdaptorOperationTimeout s) := by
  unfold execAdaptorOperationTimeout
  split
  · split
    · exact .guard (callEnds_keepsApart ..)
    · exact .quiet
  · exact .quiet

/-! ### Cuts and exports -/

theorem execCut_keepsApart (fn : Fn) (tag : W32) (s : State) : SettlesApart s (execCut fn tag s) :=
  .command fun _ _ => .ite (fail_keepsApart ..) (enterHost_keepsApart _ _ fun _ => cutHeld_keepsApart ..)

theorem execProofDone_keepsApart (proof : ProofEnd) (s : State) : SettlesApart s (execProofDone proof s) :=
  .guard (((((KeepsApart.refl s).each fun _ _ => .of_only (correctedWord_only ..)).trans (poisonHeld_keepsApart ..)).still
    (endProof_still ..)).trans (slath_keepsApart ..))

theorem execReleaseCut_keepsApart (fn : Fn) (tag : W32) (s : State) : SettlesApart s (execReleaseCut fn tag s) := by
  refine .command fun c t => ?_
  extract_lets p id named fresh
  split
  · exact fail_keepsApart ..
  · exact .ite (((KeepsApart.refl t).each fun _ _ => modCut_keepsApart ..).trans (complete_keepsApart ..))
      ((KeepsApart.of_only (modWork_only ..)).each fun _ _ => (modCut_keepsApart ..).still (releaseCut_still ..))

theorem execCutFreed_keepsApart (part : Part) (cut : W32) (s : State) : SettlesApart s (execCutFreed part cut s) := by
  unfold execCutFreed
  extract_lets p held
  split
  · exact .quiet
  · extract_lets s1
    have h1 : KeepsApart s s1 := ((KeepsApart.of_only (freeDump_only ..)).change).still (cutRec_still ..)
    refine .ite .quiet ?_
    split
    · exact .of_keeps h1
    · dsimp only
      split
      · exact .of_keeps (.ite ((h1.step (modWork_only ..)).trans (complete_keepsApart ..)) (h1.step (modWork_only ..)))
      · exact .of_keeps (h1.step (modWork_only ..))

theorem execSplintEmit_keepsApart (found : SplintEcc) (s : State) : SettlesApart s (execSplintEmit found s) := by
  unfold execSplintEmit
  refine .ite .quiet ?_
  split
  · exact .quiet
  next e t h =>
    have turn : KeepsApart s (noteServed e (setDeficit e.fn (t.deficit e.fn - 1) t)) :=
      ((findTurn_keepsApart h).step (setDeficit_only ..)).step (noteServed_only ..)
    exact .of_keeps ((KeepsApart.ite (turn.trans (sendManifest_keepsApart ..)) (turn.trans (sendData_keepsApart ..))).step
      (clearDeficits_only _))

/-! ### The hang analysis -/

theorem execHangEventProcess_keepsApart (s : State) : SettlesApart s (execHangEventProcess s) := by
  unfold execHangEventProcess
  split
  · exact .quiet
  next e rest _ =>
    have dequeued : KeepsApart s { s with hang := { s.hang with queue := rest } } := .of_eq rfl
    have taken := dequeued.step (hangEvent_only e _)
    exact .of_keeps ((KeepsApart.ite taken.change taken).step (spendCreel_only _))

theorem execHangScan_keepsApart (part : Part) (s : State) : SettlesApart s (execHangScan part s) :=
  .ite .quiet (.ite (.of_keeps (KeepsApart.refl s).change) (.of_keeps ((KeepsApart.refl s).change.trans (startScan_keepsApart ..))))

theorem execHangScanEnd_keepsApart (part : Part) (found : Ecc) (s : State) : SettlesApart s (execHangScanEnd part found s) := by
  unfold execHangScanEnd
  extract_lets p x t next t1 w running t2
  have ht : KeepsApart s t := .ite (.of_only (correctedWord_only ..)) (.refl _)
  split
  · exact .of_keeps ht
  · extract_lets es comps units
    have hnext : ∀ u, KeepsApart u (next u) := fun u => .ite (startScan_keepsApart ..) (.refl u)
    have h1 : KeepsApart s t1 := ht.change
    have h2 : KeepsApart s t2 := (h1.trans (hnext _)).change
    refine .ite (.of_keeps ht) (.ite (.of_keeps h1) (.ite ?_ (.ite (.ite ?_ ?_) ?_)))
    · exact .of_keeps (((ht.step (uncorrectableItem_only ..)).trans (.of_parts (stopGraph_partsStill ..))).trans
        (.of_parts (startGraph_partsStill ..)))
    · exact .of_keeps (h1.trans (hnext _))
    · exact .of_keeps ((h1.trans (hnext _)).change.trans (declareHang_keepsApart ..))
    · split
      · exact .ite (.of_keeps h2) (.of_keeps (h2.change.trans (declareHang_keepsApart ..)))
      · exact .of_keeps h2

theorem execHangReport_keepsApart (fn : Fn) (tag : W32) (found : Ecc) (s : State) :
    SettlesApart s (execHangReport fn tag found s) := by
  refine .command fun c t => ?_
  extract_lets p mode held asked t1
  split
  · exact fail_keepsApart ..
  · have h1 : KeepsApart t t1 := .ite (addReport_keepsApart ..) (.refl _)
    split
    · exact fail_keepsApart ..
    · extract_lets out poison t2
      have h2 : KeepsApart t t2 := .ite (h1.step (uncorrectableItem_only ..)) (.ite (h1.step (correctedWord_only ..)) h1)
      exact .ite (h2.trans (complete_keepsApart ..)) ((h2.step (bufWrite_only ..)).trans (complete_keepsApart ..))

/-! ### Traces -/

theorem execTraceConfig_keepsApart (fn : Fn) (tag : W32) (s : State) : SettlesApart s (execTraceConfig fn tag s) := by
  refine .command fun c t => ?_
  extract_lets p fl held t1 t2
  split
  · exact fail_keepsApart ..
  · have h1 : KeepsApart t t1 := .ite (setRoute_keepsApart ..) (.refl _)
    have h2 : KeepsApart t t2 := .ite (h1.trans (setEncoding_keepsApart ..)) h1
    exact .ite ((h2.step (modWork_only ..)).trans (setEvt_keepsApart ..)) (h2.trans (complete_keepsApart ..))

theorem execTraceFlush_keepsApart (fn : Fn) (tag : W32) (found : Ecc) (s : State) :
    SettlesApart s (execTraceFlush fn tag found s) := by
  refine .command fun c t => ?_
  extract_lets p mode role badLen
  split
  · exact fail_keepsApart ..
  · exact .ite (.of_only (modWork_only ..)) (.ite (.of_only (flushRead_only ..)) (flushDiscard_keepsApart ..))

theorem execTraceFlushDrained_keepsApart (fn : Fn) (tag : W32) (s : State) :
    SettlesApart s (execTraceFlushDrained fn tag s) := by
  unfold execTraceFlushDrained
  split
  · exact .quiet
  · refine .ite ?_ .quiet
    split
    next h => exact .of_keeps (((KeepsApart.of_still (shedQueue_still ..)).still (commitBlock_still h)).trans
        (complete_keepsApart ..))
    · exact .quiet

theorem execTraceFrameSend_keepsApart (found : TraceEcc) (s : State) : SettlesApart s (execTraceFrameSend found s) := by
  cases found with
  | queue p =>
    have spoiled : KeepsApart s (shedQueue p.val (spoilQueue p.val s)) := (spoilQueue_keepsApart ..).still (shedQueue_still ..)
    exact .ite (.of_keeps spoiled) (.ite (.of_keeps (spoiled.step (sendDump_only _)))
      (.of_keeps (spoiled.trans (sendTurn_keepsApart _))))
  | tier e =>
    exact .ite .quiet (.ite (.law (sendDump_only _)) (.of_keeps ((readTier_keepsApart ..).trans (sendTurn_keepsApart _))))

theorem execTraceFrameTimeout_keepsApart (part : Part) (s : State) : SettlesApart s (execTraceFrameTimeout part s) := by
  unfold execTraceFrameTimeout
  extract_lets p
  split
  · exact .guard (((((KeepsApart.ite (.of_parts (endSpan_partsStill ..)) (.refl _)).trans
      (.of_parts (closeCoded_partsStill ..))).trans (sendWaiting_keepsApart ..)).trans (periodicReset_keepsApart ..)).trans
        (checkSwitch_keepsApart ..))
  · exact .quiet

theorem execGapEnd_keepsApart (part : Part) (dram : Bool) (s : State) : SettlesApart s (execGapEnd part dram s) := by
  unfold execGapEnd
  extract_lets p
  refine .ite ?_ ?_
  · split
    · exact .guard (endDramGap_keepsApart ..)
    · exact .quiet
  · split
    · exact .guard (endPortGap_keepsApart ..)
    · exact .quiet

theorem execSpillReturn_keepsApart (part : Part) (s : State) : SettlesApart s (execSpillReturn part s) := by
  unfold execSpillReturn
  extract_lets p
  split
  · exact .guard ((((KeepsApart.refl s).change).still (pumpPort_still ..)).trans (checkSwitch_keepsApart ..))
  · exact .quiet

theorem execCoderAnswerRead_keepsApart (part : Part) (found : Ecc) (s : State) :
    SettlesApart s (execCoderAnswerRead part found s) := by
  unfold execCoderAnswerRead
  extract_lets p c t
  have ht : KeepsApart s t := .ite (.of_only (correctedWord_only ..)) (.refl _)
  split
  next r _ _ _ _ =>
    extract_lets tables t1
    have h1 : KeepsApart s t1 := .ite ht.change ht
    have h2 : ∀ te td, KeepsApart s (spendCreel (spoilCoder t.injectHit p (codeRecord p te td r t1))) := fun _ _ =>
      ((h1.trans (codeRecord_keepsApart ..)).trans (spoilCoder_keepsApart ..)).step (spendCreel_only _)
    exact .ite (.of_keeps ht) (.ite (.of_keeps ((ht.step (uncorrectableItem_only ..)).trans (endRun_keepsApart ..)))
      (.ite (.of_keeps (((h2 ..).trans (forceReset_keepsApart ..)).trans (checkSwitch_keepsApart ..)))
        (.of_keeps (((h2 ..).still (pumpPort_still ..)).trans (checkSwitch_keepsApart ..)))))
  · exact .of_keeps ht

theorem execCodingStall_keepsApart (part : Part) (s : State) : SettlesApart s (execCodingStall part s) := by
  unfold execCodingStall
  extract_lets p c answered
  split
  · exact .guard ((((KeepsApart.refl s).change).trans (syncCoder_keepsApart ..)).trans (checkSwitch_keepsApart ..))
  · exact .quiet

/-! ### Counters -/

theorem execCounterConfig_keepsApart (fn : Fn) (tag : W32) (data : List Byte) (s : State) :
    SettlesApart s (execCounterConfig fn tag data s) := by
  refine .command fun c t => ?_
  extract_lets p sels restore u wait cfg v
  split
  · exact fail_keepsApart ..
  · have hu : KeepsApart t u := .ite (.refl _) (.of_only (bumpAlways_only ..))
    have hv : KeepsApart t v := hu.change
    exact .ite (hu.trans (fail_keepsApart ..)) (.ite (hv.trans (requestLatch_keepsApart ..)) hv)

theorem execCounterConfigWaitExpiry_keepsApart (part : Part) (s : State) :
    SettlesApart s (execCounterConfigWaitExpiry part s) := by
  unfold execCounterConfigWaitExpiry
  extract_lets p
  split
  · exact .guard (requestLatch_keepsApart ..)
  · exact .quiet

theorem execDeferredLatchPoint_keepsApart (part : Part) (s : State) : SettlesApart s (execDeferredLatchPoint part s) := by
  unfold execDeferredLatchPoint
  extract_lets p
  split
  · exact .guard ((KeepsApart.refl s).change.trans (deferredTake_keepsApart ..))
  · exact .quiet

theorem execCounterLatch_keepsApart (fn : Fn) (tag : W32) (s : State) : SettlesApart s (execCounterLatch fn tag s) :=
  .command fun _ _ => .ite
    (.ite (fail_keepsApart ..) (.ite (fail_keepsApart ..) ((KeepsApart.of_only (bufWrite_only ..)).trans (complete_keepsApart ..))))
    (.ite (fail_keepsApart ..) (requestLatch_keepsApart ..))

/-! ### Programs of the Osier -/

theorem execRunProgram_keepsApart (fn : Fn) (tag : W32) (s : State) : SettlesApart s (execRunProgram fn tag s) := by
  refine .command fun c t => ?_
  split
  · exact fail_keepsApart ..
  · extract_lets a
    split
    next h => exact (KeepsApart.of_roles (startRun_keepsRoles h)).trans (complete_keepsApart ..)
    · exact fail_keepsApart ..

theorem execStopProgram_keepsApart (fn : Fn) (tag : W32) (s : State) : SettlesApart s (execStopProgram fn tag s) := by
  refine .command fun c t => ?_
  extract_lets id mode live past who p bound started
  clear_value bound live past
  split
  · exact fail_keepsApart ..
  · split
    · exact .ite ((endRun_keepsApart ..).trans (complete_keepsApart ..)) (.ite (.refl _) (complete_keepsApart ..))
    · exact complete_keepsApart ..
    · exact .refl _

theorem execHostWriteError_keepsApart (run : W32) (s : State) : SettlesApart s (execHostWriteError run s) := by
  unfold execHostWriteError
  split
  · exact .guard (endRun_keepsApart ..)
  · exact .quiet

theorem execOsierWord_keepsApart (core : CoreNo) (cycles : Nat) (poison : Fin 5) (tdo : List Bool) (s : State) :
    SettlesApart s (execOsierWord core cycles poison tdo s) :=
  .ite (.of_keeps (coreWord_keepsApart ..)) (.guard (adaptorWord_keepsApart ..))

/-! ### Images and commits -/

theorem execImageCheckDone_keepsApart (s : State) : SettlesApart s (execImageCheckDone s) := by
  unfold execImageCheckDone
  split
  · exact .quiet
  · extract_lets c s1
    have h1 : KeepsApart s s1 := (KeepsApart.of_only (nextFree_only _)).step (applyPatch_only ..)
    split
    · exact .of_keeps (h1.step (imageRejected_only ..))
    · extract_lets s2
      have h2 : KeepsApart s s2 := h1.trans (acceptImage_keepsApart ..)
      split
      · exact .of_keeps ((h2.step (modWea_only ..)).step (signal_only ..))
      · exact .of_keeps ((h2.each fun _ _ => .of_only (modWea_only ..)).step (signalPfs_only ..))

theorem execReweaveCheckEnd_keepsApart (fn : Fn) (tag : W32) (s : State) : SettlesApart s (execReweaveCheckEnd fn tag s) := by
  unfold execReweaveCheckEnd
  extract_lets f s1
  split
  · exact .quiet
  · extract_lets img a r
    have h1 : KeepsApart s s1 := .of_only (nextFree_only _)
    refine .ite .quiet (.ite (.law (fail_only ..)) ?_)
    split
    · exact .of_keeps (h1.trans (complete_keepsApart ..))
    · exact .of_keeps ((KeepsApart.ite (h1.trans (acceptWeft_keepsApart ..)) (h1.step (acceptWarp_only ..))).trans
        (complete_keepsApart ..))

theorem execReweaveCommit_keepsApart (fn : Fn) (tag : W32) (s : State) : SettlesApart s (execReweaveCommit fn tag s) := by
  refine .command fun c t => ?_
  extract_lets f k no
  have failed : ∀ st, KeepsApart t (fail f tag st t) := fun _ => fail_keepsApart ..
  have rejected : ∀ r, KeepsApart t (no r) := fun _ => complete_keepsApart ..
  split
  · exact failed _
  · exact .ite (failed _) (.ite (failed _) (.ite (rejected _) (.ite (rejected _)
      (.ite (KeepsApart.refl t).change (.of_eq rfl)))))

theorem execWeftSwitch_keepsApart (part : Part) (s : State) : SettlesApart s (execWeftSwitch part s) := by
  unfold execWeftSwitch
  extract_lets p s1
  have h1 : KeepsApart s s1 := noteWeft_keepsApart ..
  split
  · exact .ite (.of_keeps (h1.trans (switchWeft_keepsApart ..))) (.of_keeps h1)
  · exact .of_keeps h1

theorem execWatchApplyEnd_keepsApart (part : Part) (s : State) : SettlesApart s (execWatchApplyEnd part s) := by
  unfold execWatchApplyEnd
  extract_lets p
  split
  · exact .guard (finishCommit_keepsApart ..)
  · exact .quiet

theorem execWarpSettle_keepsApart (s : State) : SettlesApart s (execWarpSettle s) := by
  unfold execWarpSettle
  extract_lets s1
  have h1 : KeepsApart s s1 := .of_only (noteWarp_only _)
  split
  · exact .of_keeps h1
  · extract_lets
    have switched : ∀ w, KeepsApart s { s1 with weave := w } := fun _ => h1.trans (.of_eq rfl)
    exact .ite (.of_keeps h1) (.of_keeps (((switched _).each fun _ _ => installPort_keepsApart ..).step (setPortsLeft_only ..)))

theorem execWarpCommitDone_keepsApart (s : State) : SettlesApart s (execWarpCommitDone s) := by
  unfold execWarpCommitDone
  split
  · exact .quiet
  · have ended : ∀ w, KeepsApart s { s with weave := w } := fun _ => .of_eq rfl
    exact .unless ((((ended _).each fun _ _ => .of_only (giveUpStakes_only ..)).trans (warpRecords_keepsApart ..)).trans
      (complete_keepsApart ..))

theorem execCommitSettleTimeout_keepsApart (fn : Fn) (tag : W32) (s : State) :
    SettlesApart s (execCommitSettleTimeout fn tag s) := by
  refine .of_keeps (KeepsApart.trans (t := each (List.range 64) _ (noteSettled s)) ?_ (.ite (failWarp_keepsApart ..) (.refl _)))
  exact (noteSettled_keepsApart s).each fun _ _ => .ite (failCommit_keepsApart ..) (.refl _)

/-! ### Dies and links -/

theorem execDieResponse_keepsApart (port : Port) (m : Msg) (s : State) : SettlesApart s (execDieResponse port m s) :=
  .of_keeps (.ite (takeResponse_keepsApart ..) (.refl _))

theorem execResponseTimeout_keepsApart (port : Port) (ch : Fin 3) (s : State) :
    SettlesApart s (execResponseTimeout port ch s) := by
  unfold execResponseTimeout
  extract_lets n c
  split
  · exact .quiet
  · extract_lets s1
    have h1 : KeepsApart s s1 := .of_only (modLnk_only ..)
    refine .ite .quiet ?_
    split
    · split
      · refine .ite (.of_keeps (h1.step (regionAnswer_only ..))) (.of_keeps ?_)
        exact (((h1.trans (cmdNoAnswer_keepsApart ..)).each fun _ _ => stepEnds_keepsApart ..).each fun _ _ =>
          .of_only (modUnit_only ..)).trans (checkGather_keepsApart ..)
      · exact .of_keeps h1
    · exact .of_keeps (h1.trans (unanswered_keepsApart ..))

theorem execTrainTimeout_keepsApart (link : LinkNo) (s : State) : SettlesApart s (execTrainTimeout link s) := by
  unfold execTrainTimeout
  extract_lets x
  split
  · exact .guard (linkDown_keepsApart ..)
  · exact .quiet

theorem execFlitReceive_keepsApart (link : LinkNo) (flit : BitVec 288) (s : State) : SettlesApart s (execFlitReceive link flit s) :=
  .ite .quiet (.ite (.law (badFlit_only ..)) (.ite (.of_keeps (takeCtl_keepsApart ..)) (.of_keeps (takeSeq_keepsApart ..))))

theorem execNak_keepsApart (link : LinkNo) (hdr : CtlHdr) (seq : BitVec 12) (s : State) :
    SettlesApart s (execNak link hdr seq s) :=
  .of_keeps ((((KeepsApart.of_only (readHdr_only ..)).trans (takeNak_keepsApart ..)).step (pump_only ..)).trans
    (noteRuns_keepsApart _))

theorem execAckTimeoutReplay_keepsApart (link : LinkNo) (s : State) : SettlesApart s (execAckTimeoutReplay link s) := by
  unfold execAckTimeoutReplay
  extract_lets l x
  split
  · exact .guard (replay_keepsApart ..)
  · exact .quiet

theorem execDetachAckSend_keepsApart (port : Port) (s : State) : SettlesApart s (execDetachAckSend port s) := by
  unfold execDetachAckSend
  extract_lets n
  split
  · exact .guard ((KeepsApart.of_only (sendCtl_only ..)).trans (portDown_keepsApart ..))
  · exact .quiet

theorem execPlaitTimesyncReq_keepsApart (hdr : CtlHdr) (exch : Byte) (t1 : W64) (s : State) :
    SettlesApart s (execPlaitTimesyncReq hdr exch t1 s) :=
  .ite (.of_keeps ((takeHdr_keepsApart ..).step (sendCtl_only ..))) (.of_keeps (takeHdr_keepsApart ..))

theorem execHostDmaError_keepsApart (fn : Fn) (tag : W32) (s : State) : SettlesApart s (execHostDmaError fn tag s) := by
  unfold execHostDmaError
  extract_lets f
  split
  · exact .quiet
  · exact .ite .quiet (.ite (.law (modWork_only ..)) (.ite
      (.of_keeps ((KeepsApart.of_only (nextFree_only _)).trans (complete_keepsApart ..)))
      (.of_keeps (((KeepsApart.of_only (purgeCmd_only ..)).trans (purgeHub_keepsApart ..)).trans (complete_keepsApart ..)))))

/-! ### Resets and the start-up -/

theorem execPowerOnReset_keepsApart (lowNs : Nat) (s : State) : SettlesApart s (execPowerOnReset lowNs s) := by
  have pinned : ∀ v, KeepsApart s { powerReset causePowerOn s with pins := v } := fun _ =>
    (powerReset_keepsApart causePowerOn s).trans (.of_eq rfl)
  exact .ite (.of_keeps ((pinned _).step (nextFree_only _))) (.law (nextFree_only _))

theorem execSupplyDrop_keepsApart (dip : SupplyDip) (s : State) : SettlesApart s (execSupplyDrop dip s) := by
  have reset : ∀ v w, KeepsApart s { powerReset causeSupply s with pins := v, straps := w } := fun _ _ =>
    (powerReset_keepsApart causeSupply s).trans (.of_eq rfl)
  exact .ite (.of_keeps ((reset _ _).step (nextFree_only _))) (.law (nextFree_only _))

theorem execClockFault_keepsApart (fault : ClockLoss) (s : State) : SettlesApart s (execClockFault fault s) := by
  have reset : ∀ v w, KeepsApart s { powerReset causeClock s with clk := v, straps := w } := fun _ _ =>
    (powerReset_keepsApart causeClock s).trans (.of_eq rfl)
  exact .guard (reset _ _)

theorem execFuseBitAttemptEnd_keepsApart (took : Bool) (s : State) : SettlesApart s (execFuseBitAttemptEnd took s) := by
  unfold execFuseBitAttemptEnd
  split
  · exact .quiet
  · split
    · have waited : ∀ v, KeepsApart s { s with lcy := v } := fun _ => .of_eq rfl
      exact .of_keeps ((waited _).trans (warmNow_keepsApart ..))
    · exact .law (burnAttempt_only ..)

theorem execScrubPhaseEnd_keepsApart (s : State) : SettlesApart s (execScrubPhaseEnd s) := by
  have scrubbed : KeepsApart s (scrub s) := scrub_keepsApart s
  have hosted : ∀ v, KeepsApart s { scrub s with hosts := v } := fun _ => scrubbed.trans (.of_eq rfl)
  refine .guard ?_
  split
  · exact scrubbed.step (enterPhase_only ..)
  · exact (hosted _).step (enterPhase_only ..)
  · exact (scrubbed.step (enterPhase_only ..)).step (startJunior_only _)
  · exact (scrubbed.step (enterPhase_only ..)).step (startJunior_only _)

theorem execReadyEntry_keepsApart (s : State) : SettlesApart s (execReadyEntry s) := by
  have entered : ∀ v, KeepsApart s { s with plait := v } := fun _ => .of_eq rfl
  have served : ∀ v, KeepsApart s (signalPfs 0 (each (List.range 64) partReady
      (each (List.range 68) (fun f => modFn f fun x => { x with window := [] }) (enterPhase .ready { s with plait := v })))) :=
    fun v => (((((entered v).step (enterPhase_only ..)).each fun _ _ => .of_only (modFn_only ..)).each
      partReady_keepsApart).step (signalPfs_only ..))
  exact .guard ((KeepsApart.ite ((served _).each fun _ _ => .of_only (setEvent_only ..)) (served _)).step (readyHello_only _))

theorem execHostPortReset_keepsApart (port : HostPort) (cause : PortResetCause) (s : State) :
    SettlesApart s (execHostPortReset port cause s) := by
  unfold execHostPortReset
  extract_lets n _ t
  have ht : KeepsApart s t := .ite (.of_eq rfl) (.refl _)
  exact .ite (.of_keeps (ht.trans (resetPort_keepsApart ..))) (.ite (.of_keeps (ht.trans (resetPort_keepsApart ..)))
    (.of_keeps ht))

theorem execVfEnable_keepsApart (port : HostPort) (numVfs : Nat) (s : State) : SettlesApart s (execVfEnable port numVfs s) :=
  .host fun t => .ite (.refl _) (((KeepsApart.refl t).each fun _ _ => resetSession_keepsApart ..).step (modHost_only ..))

theorem execSerdesPllLoss_keepsApart (pll : Pll) (s : State) : SettlesApart s (execSerdesPllLoss pll s) := by
  have clocked : ∀ v, KeepsApart s { s with clk := v } := fun _ => .of_eq rfl
  have lost : ∀ v c scope inst, KeepsApart s (raiseErr c scope inst 0 0 0 { s with clk := v }) :=
    fun _ _ _ _ => (clocked _).step (raiseErr_only ..)
  cases pll with
  | border n => exact .of_keeps (.ite ((lost ..).trans (resetPort_keepsApart ..)) (lost ..))
  | nsl n => exact .of_keeps (.ite ((lost ..).trans (portDown_keepsApart ..)) (lost ..))
  | wale => exact .of_keeps ((lost ..).step (waleDown_only _))
  | plait => exact .of_keeps (.ite ((lost ..).step (plaitDown_only ..)) (lost ..))

theorem execPartitionResetComplete_keepsApart (part : Part) (s : State) :
    SettlesApart s (execPartitionResetComplete part s) := .guard (.of_roles (resetPartition_keepsRoles part.val s))

/-! ### Registers, faults and the lattice -/

theorem execRegisterWrite_keepsApart (fn : Fn) (offset : RegAt) (value : W32) (enables : BitVec 4) (s : State) :
    SettlesApart s (execRegisterWrite fn offset value enables s) :=
  .host fun t => by
    cases offset with
    | bar offset => exact writeReg_keepsApart ..
    | span offset more => exact (writeReg_keepsApart ..).trans (writeSpan_keepsApart ..)
    | msixControl => exact .of_only (writeMsixControl_only ..)

theorem execRegAccess_keepsApart (dr : BitVec 64) (s : State) : SettlesApart s (execRegAccess dr s) :=
  .tap fun _ => ((KeepsApart.of_only (selectIr_only ..)).step (shiftOut_only ..)).trans
    (updateDr_keepsApart _ (fun _ => .of_only (regBusy_only _)) fun _ => regAccess_keepsApart ..)

theorem spoilItem_keepsApart (word : Nat) (place : CreelPlace) (s : State) : KeepsApart s (spoilItem word place s) := by
  unfold spoilItem
  cases place with
  | nothing => exact .of_eq rfl
  | record u => exact .of_only (modUnit_only ..)
  | staged p id state b => exact modCut_keepsApart ..
  | tier p i => exact (KeepsApart.refl s).change
  | queue p => exact spoilQueue_keepsApart ..
  | graph p => exact (KeepsApart.refl s).change
  | report p id => exact (KeepsApart.refl s).change
  | run id a => exact .ite (.of_only (modRun_only ..)) (.refl _)
  | library i o => exact .of_eq rfl
  | coder p => exact spoilCoder_keepsApart ..

theorem execPatrolScrub_keepsApart (word : Nat) (found : ScrubFind) (s : State) : SettlesApart s (execPatrolScrub word found s) := by
  unfold execPatrolScrub
  extract_lets at_ find
  clear_value find
  have rewritten : ∀ m, KeepsApart s { s with mem := m } := fun _ => .of_eq rfl
  have corrected : ∀ m, KeepsApart s (correctedWord false { s with mem := m }) := fun m =>
    (rewritten m).step (correctedWord_only ..)
  refine .of_keeps ?_
  cases find with
  | bad place => exact (spoilItem_keepsApart ..).step (uncorrectableWord_only ..)
  | corrected => exact corrected _
  | good => exact .refl _

theorem execHoopInAssert_keepsApart (port : Port) (heldNs : Nat) (s : State) :
    SettlesApart s (execHoopInAssert port heldNs s) := by
  unfold execHoopInAssert
  extract_lets n already t
  have ht : KeepsApart s t := (KeepsApart.of_only (modPort_only ..)).step (takeInput_only ..)
  exact .of_keeps (.ite (ht.step (fireAll_only ..)) ht)

theorem execXtrigEdge_keepsApart (pin : Fin 8) (rising : Bool) (heldNs : Nat) (s : State) :
    SettlesApart s (execXtrigEdge pin rising heldNs s) := by
  unfold execXtrigEdge
  extract_lets j lvl _ t hit
  have moved : KeepsApart s { s with pins := { s.pins with xtrig := lvl } } := .of_eq rfl
  have ht : KeepsApart s t := moved.step (takeInput_only ..)
  exact .of_keeps (.ite (ht.each fun _ _ => .of_only (fire_only ..)) ht)

theorem execStageTimeout_keepsApart (part : Part) (s : State) : SettlesApart s (execStageTimeout part s) :=
  .guard ((KeepsApart.refl s).change.still (triggerRec_still ..))

theorem execPartitionWatchdogExpiry_keepsApart (part : Part) (s : State) :
    SettlesApart s (execPartitionWatchdogExpiry part s) :=
  .guard ((((KeepsApart.refl s).change.trans (hubEvent_keepsApart ..)).trans (firedReport_keepsApart ..)).step (fire_only ..))

/-! ### Every command, and the step -/

/-- Besides the commands named here none names the partitions among what it may change. -/
theorem exec_keepsApart (i : Instr) (s : State) : SettlesApart s (exec i s) := by
  cases i with
  | powerOnReset lowNs => exact execPowerOnReset_keepsApart lowNs s
  | supplyDrop dip => exact execSupplyDrop_keepsApart dip s
  | clockFault fault => exact execClockFault_keepsApart fault s
  | stakeWatchdogExpiry => exact .guard ((KeepsApart.of_only (raiseErr_only ..)).trans (warmReset_keepsApart ..))
  | hostPortReset port cause => exact execHostPortReset_keepsApart port cause s
  | sessionReset => exact .guard (resetSession_keepsApart ..)
  | pfFunctionReset => exact .guard (resetPf_keepsApart ..)
  | scrubPhaseEnd => exact execScrubPhaseEnd_keepsApart s
  | imageCheckDone => exact execImageCheckDone_keepsApart s
  | readyEntry => exact execReadyEntry_keepsApart s
  | serdesPllLoss pll => exact execSerdesPllLoss_keepsApart pll s
  | vfEnable port numVfs => exact execVfEnable_keepsApart port numVfs s
  | hostDmaError fn tag => exact execHostDmaError_keepsApart fn tag s
  | claim fn tag => exact execClaim_keepsApart fn tag s
  | release fn tag => exact execRelease_keepsApart fn tag s
  | releaseTakesEffect fn tag => exact execReleaseTakesEffect_keepsApart fn tag s
  | observe fn tag => exact execObserve_keepsApart fn tag s
  | grant fn tag => exact execGrant_keepsApart fn tag s
  | setWallclock fn tag => exact execSetWallclock_keepsApart fn tag s
  | halt fn tag => exact execHalt_keepsApart fn tag s
  | resume fn tag => exact execResume_keepsApart fn tag s
  | step fn tag => exact execStep_keepsApart fn tag s
  | setBreak | clearBreak | clearWatch | readUnitRegs => exact .checkedCommand fun _ _ => sent_keepsApart
  | setWatch | writeUnitRegs => exact .checkedCommand fun _ _ => (KeepsApart.of_only (bumpAlways_only ..)).trans sent_keepsApart
  | readUnitMem => exact .checkedCommand fun _ _ => sentAll_keepsApart
  | writeUnitMem => exact .checkedCommand fun _ _ => (KeepsApart.of_only (bumpAlways_only ..)).trans sentAll_keepsApart
  | haltTimeoutExpiry unit => exact execHaltTimeoutExpiry_keepsApart unit s
  | stepTimeoutExpiry unit => exact execStepTimeoutExpiry_keepsApart unit s
  | adaptorOperationTimeout => exact execAdaptorOperationTimeout_keepsApart s
  | cut fn tag => exact execCut_keepsApart fn tag s
  | releaseCut fn tag => exact execReleaseCut_keepsApart fn tag s
  | cutFreed part cut => exact execCutFreed_keepsApart part cut s
  | proofDone proof => exact execProofDone_keepsApart proof s
  | splintEmit found => exact execSplintEmit_keepsApart found s
  | hangEventProcess => exact execHangEventProcess_keepsApart s
  | hangScan part => exact execHangScan_keepsApart part s
  | hangScanEnd part found => exact execHangScanEnd_keepsApart part found s
  | hangReport fn tag found => exact execHangReport_keepsApart fn tag found s
  | traceConfig fn tag => exact execTraceConfig_keepsApart fn tag s
  | traceFlush fn tag found => exact execTraceFlush_keepsApart fn tag found s
  | traceFlushDrained fn tag => exact execTraceFlushDrained_keepsApart fn tag s
  | traceFrameSend found => exact execTraceFrameSend_keepsApart found s
  | traceFrameTimeout part => exact execTraceFrameTimeout_keepsApart part s
  | gapEnd part dram => exact execGapEnd_keepsApart part dram s
  | spillReturn part => exact execSpillReturn_keepsApart part s
  | timesyncRecordTimer => exact .guard (timesyncRec_keepsApart ..)
  | coderAnswerRead part found => exact execCoderAnswerRead_keepsApart part found s
  | codingStall part => exact execCodingStall_keepsApart part s
  | counterConfig fn tag data => exact execCounterConfig_keepsApart fn tag data s
  | counterConfigWaitExpiry part => exact execCounterConfigWaitExpiry_keepsApart part s
  | deferredLatchPoint part => exact execDeferredLatchPoint_keepsApart part s
  | counterLatch fn tag => exact execCounterLatch_keepsApart fn tag s
  | runProgram fn tag => exact execRunProgram_keepsApart fn tag s
  | stopProgram fn tag => exact execStopProgram_keepsApart fn tag s
  | hostWriteError run => exact execHostWriteError_keepsApart run s
  | osierWord core cycles poison tdo => exact execOsierWord_keepsApart core cycles poison tdo s
  | reweaveCheckEnd fn tag => exact execReweaveCheckEnd_keepsApart fn tag s
  | reweaveCommit fn tag => exact execReweaveCommit_keepsApart fn tag s
  | weftSwitch part => exact execWeftSwitch_keepsApart part s
  | watchApplyEnd part => exact execWatchApplyEnd_keepsApart part s
  | warpSettle => exact execWarpSettle_keepsApart s
  | warpCommitDone => exact execWarpCommitDone_keepsApart s
  | commitSettleTimeout fn tag => exact execCommitSettleTimeout_keepsApart fn tag s
  | fuseBitAttemptEnd took => exact execFuseBitAttemptEnd_keepsApart took s
  | hubCtrlWarmReset => exact .host fun _ => .ite (warmReset_keepsApart ..) (.refl _)
  | partitionReset => exact .host fun t => .ite (KeepsApart.refl t).change (.refl _)
  | partitionResetComplete part => exact execPartitionResetComplete_keepsApart part s
  | forceDown => exact .host fun _ => .ite (forceDown_keepsApart ..) (.refl _)
  | scanCtrlWrite => exact .host fun _ => .ite (scanWrite_keepsApart ..) (.refl _)
  | registerWrite fn offset value enables => exact execRegisterWrite_keepsApart fn offset value enables s
  | registerReadClear => exact .of_keeps ((KeepsApart.refl s).each fun _ _ => barRead_keepsApart ..)
  | latchingRead | memWindowRead => exact .of_keeps (barRead_keepsApart ..)
  | regAccess dr => exact execRegAccess_keepsApart dr s
  | warmReset => exact .tap fun _ => (KeepsApart.of_only (selectIr_only ..)).trans (warmReset_keepsApart ..)
  | trainTimeout link => exact execTrainTimeout_keepsApart link s
  | flitReceive link flit => exact execFlitReceive_keepsApart link flit s
  | nak link hdr seq => exact execNak_keepsApart link hdr seq s
  | ackTimeoutReplay link => exact execAckTimeoutReplay_keepsApart link s
  | replayStart => exact .of_keeps ((takeHdr_keepsApart ..).step (takeReplayStart_only ..))
  | linkControlIdle => exact .of_keeps (takeHdr_keepsApart ..)
  | config => exact .of_keeps ((takeHdr_keepsApart ..).trans (takeConfig_keepsApart ..))
  | timesyncRsp => exact .of_keeps ((takeHdr_keepsApart ..).trans (takeTimesyncRsp_keepsApart ..))
  | linkResumeFlit => exact .of_keeps ((takeHdr_keepsApart ..).trans (takeResume_keepsApart ..))
  | detachReq => exact .of_keeps ((takeHdr_keepsApart ..).step (takeDetach_only ..))
  | detachAckSend port => exact execDetachAckSend_keepsApart port s
  | plaitTimesyncReq hdr exch t1 => exact execPlaitTimesyncReq_keepsApart hdr exch t1 s
  | haltRecord => exact .of_keeps (takeHaltRecord_keepsApart ..)
  | eventBatch => exact .of_keeps (takeEventBatch_keepsApart ..)
  | counterDelta => exact .of_keeps (takeDelta_keepsApart ..)
  | dieLoss => exact .of_keeps (takeDieLoss_keepsApart ..)
  | dieResponse port m => exact execDieResponse_keepsApart port m s
  | responseTimeout port ch => exact execResponseTimeout_keepsApart port ch s
  | haltFwd => exact .guard (takeHaltFwd_keepsApart ..)
  | stakeNote => exact .guard (takeStakeNote_keepsApart ..)
  | stakeView => exact .guard (takeStakeView_keepsApart ..)
  | hoopInAssert port heldNs => exact execHoopInAssert_keepsApart port heldNs s
  | xtrigEdge pin rising heldNs => exact execXtrigEdge_keepsApart pin rising heldNs s
  | stageTimeout part => exact execStageTimeout_keepsApart part s
  | partitionWatchdogExpiry part => exact execPartitionWatchdogExpiry_keepsApart part s
  | patrolScrub word found => exact execPatrolScrub_keepsApart word found s
  | _ => exact .of_touches rfl

theorem next_keepsApart {i : Instr} {s t : State} (h : exec i s = .next t) : KeepsApart s t := by
  obtain ⟨u, hu, kept⟩ := exec_keepsApart i s
  obtain rfl : settle u = t := Host.Outcome.next.inj (hu.symm.trans h)
  exact kept.still (settle_still u)

theorem tick_keepsApart (s : State) : KeepsApart s (tick s) := by
  have later : ∀ u : State, KeepsApart u { u with now := s.now + 1 } := fun _ => .of_eq rfl
  have ticked : KeepsApart s { accrue (noteSettled s) with now := s.now + 1 } :=
    ((noteSettled_keepsApart s).step (accrue_only _)).trans (later _)
  exact .ite (.ite (ticked.step (updateMeters_only _)) ticked) (.refl _)

/-- Settles O12: every command and the idle step keep the roles apart, and so does the settling of the lattice. -/
theorem rolesStayApart : Obligations.RolesStayApart := by
  unfold Obligations.RolesStayApart
  intro s t apart h
  unfold step at h
  split at h
  · cases h
    exact (tick_keepsApart s).apart apart
  next i rest _ =>
    exact (next_keepsApart h).apart ⟨apart.apart, apart.slots⟩ -- taken from the queue, the command leaves the same roles

end Sys2Proof.Laws

/-!
SUPPORT. How a command that passed its checks ends: it completes in a state of which the settling of the lattice leaves
ownership, sessions and billing. Then what its start leaves, and a change of owner where nothing is being rewoven.
-/

namespace Sys2Proof.Laws
open Sys2Proof Sys2Proof.Machine
set_option Elab.async false -- a thread per proof would not fit beside the model in the check's memory

/-! ### The end of a command -/

/-- A command that completes in the state `u`: what the settling of the lattice leaves of `u`, what was driven, and the
answer. -/
theorem exec_completes {i : Instr} {s u : State} {f : Nat} {tag : W32} {c : Cmd} {r : Res}
    (h : exec i s = done (complete f tag r u)) (a : Answers s (complete f tag r u) f c r) :
    ∃ t, exec i s = .next t ∧ Still u t ∧ Grows u t ∧ Answers s t f c r :=
  ⟨_, h, (complete_still ..).trans (settle_still _), (complete_grows ..).trans (settle_grows _), answers_grow a (settle_grows _)⟩

/-- A command that changes, before it ends, neither a function nor the time, nor drives anything. -/
theorem answers_of_only {s u : State} {f : Nat} {tag : W32} {c : Cmd} {l : List Fld} (r : Res) (hf : f < 68)
    (h : s.cmd f tag = some c) (only : Only l (started f tag s) u)
    (e : ([.fns, .out, .now] : List Fld).all (fun x => !l.contains x) = true := by rfl) :
    Answers s (complete f tag r u) f c r := by
  obtain ⟨fns, out, now⟩ : (!l.contains .fns) = true ∧ (!l.contains .out) = true ∧ (!l.contains .now) = true := by
    simpa using e
  have begun := started_only f tag s
  have sameOut : u.out = s.out := (Only.out only out).trans (Only.out begun rfl)
  exact answers_after r hf h (.of_only only fns) (sameOut ▸ List.prefix_rfl) ((Only.now only now).trans (Only.now begun rfl))

/-! ### The start of a command -/

theorem started_eq_false_of_mayStart {s : State} {f : Nat} {c : Cmd} (h : s.mayStart f c = true) : c.started = false := by
  simpa using and_left_of (and_left_of h)

theorem fn_started_ne {s : State} {f k : Nat} {tag : W32} (h : k ≠ f) : (started f tag s).fn k = s.fn k := fn_modFn_ne _ _ _ _ h

theorem partition_start (c : Cmd) : ({ c with started := true } : Cmd).partition = c.partition := rfl

/-- The rivals are commands of other functions, which the start of a command leaves. -/
theorem rivals_started (s : State) (op f : Nat) (tag : W32) (c : Cmd) :
    (started f tag s).rivals op f { c with started := true } = s.rivals op f c := by
  unfold State.rivals
  refine congrArg List.length (List.filter_congr fun g hg => ?_)
  have other : (started f tag s).fn g = s.fn g := fn_started_ne (Nat.ne_of_lt (List.mem_range.mp hg))
  obtain ⟨v, hv⟩ := started_frame f tag s
  rw [hv] at other ⊢
  unfold State.mayStart
  rw [other]
  rfl

/-! ### A change of owner where nothing is being rewoven -/

theorem failCommit_of_none {p : Nat} {s : State} (status : Byte) (h : (s.part p).commit = none) : failCommit p status s = s := by
  unfold failCommit
  rw [h]

theorem commit_modPart_inactive (p : Nat) (s : State) :
    ((modPart p (fun x => { x with inactive := none }) s).part p).commit = (s.part p).commit := by
  by_cases hp : p < 64
  · rw [part_modPart _ _ _ hp]
  · rw [part_of_not_lt _ hp, part_of_not_lt _ hp]

/-- The inactive plane is emptied; there is no REWEAVE and no commit to end. -/
theorem ownerChanged_of_settled {p : Nat} {s : State} (hs : Settled s p) :
    ownerChanged p s = modPart p (fun x => { x with inactive := none }) s := by
  unfold ownerChanged dropReweave
  have same : Rings s (modPart p (fun x => { x with inactive := none }) s) := .of_only (modPart_only ..) rfl
  have commit := (commit_modPart_inactive p s).trans hs.commit
  generalize modPart p (fun x => { x with inactive := none }) s = u at same commit
  have idle : (u.cmdsWhere fun _ c => c.op == 0x70 && c.started && c.scope == 1 && c.partition == p) = [] := by
    rw [cmdsWhere_rings same, cmdsWhere_nil]
    intro f hf c hc
    have none := cmdsWhere_nil.mp hs.reweave f hf c hc
    unfold Cmd.op Cmd.partition Cmd.f
    grind
  rw [failCommit_of_none _ commit]
  dsimp only
  rw [idle]
  rfl

theorem settled_modPart {p : Nat} {s : State} (hs : Settled s p) (g : PartSt → PartSt)
    (hg : (g (s.part p)).commit = (s.part p).commit) (hp : p < 64) : Settled (modPart p g s) p := by
  have same : Rings s (modPart p g s) := .of_only (modPart_only ..) rfl
  exact ⟨by rw [part_modPart _ _ _ hp, hg, hs.commit], by rw [cmdsWhere_rings same, hs.reweave]⟩

theorem settled_started {p : Nat} {s : State} (hs : Settled s p) (f : Nat) (tag : W32) : Settled (started f tag s) p :=
  ⟨by rw [Only.part (started_only ..) rfl, hs.commit],
   no_cmds_started (fun _ d => dfield d 0 1 == 0x70 && dfield d 2 1 == p) (fun _ _ h => h) hs.reweave⟩

theorem endRoleRuns_of_no_runs {n p : Nat} {s : State} (h : s.osier.runs = []) : endRoleRuns n p s = s := by
  unfold endRoleRuns endRuns
  rw [h]
  exact ite_self _

end Sys2Proof.Laws

/-!
SUPPORT. CLAIM, OBSERVE and RELEASE: what each does where its checks pass.
-/

namespace Sys2Proof.Laws
open Sys2Proof Sys2Proof.Machine
set_option Elab.async false -- a thread per proof would not fit beside the model in the check's memory

/-- The checks that CLAIM and OBSERVE share. -/
theorem roleChecks_pass {s : State} {f p : Nat} (tag : W32) (allowed : s.notAllowed f p = false) (twin : s.twinHolds p = false) :
    firstFail [((started f tag s).notAllowed f p, stNotPermitted), ((started f tag s).twinHolds p, stStakeHeldByTwin)] =
      none := by
  obtain ⟨v, hv⟩ := started_frame f tag s
  rw [hv]
  exact firstFail_eq_none.mpr (by simpa using ⟨allowed, twin⟩)

theorem execClaim_claims {s : State} {f : Fn} {tag : W32} {c : Cmd} (w : Waits s f.val tag 0x02 c)
    (allowed : s.notAllowed f.val c.partition = false) (twin : s.twinHolds c.partition = false)
    (free : (s.part c.partition).owner = none) (calm : s.revoking c.partition = false) (first : s.rivals 0x02 f.val c = 0) :
    exec (.claim f tag) s = done (complete f.val tag { r0 := (s.part c.partition).cuts.length }
      (setOwner f.val c.partition (started f.val tag s))) := by
  have idle : ((s.cmd f.val tag).map fun c => s.revoking c.partition).getD false = false := by rw [w.here]; exact calm
  refine (if_neg (by rw [idle]; decide)).trans (congrArg done ((startCmd_eq _ w).trans ?_))
  have alone := (rivals_started s 0x02 f.val tag c).trans first
  have begun := started_only f.val tag s
  have part : (started f.val tag s).part c.partition = s.part c.partition := Only.part begun rfl _
  have passes := roleChecks_pass tag allowed twin
  have unowned : (started f.val tag s).owns f.val c.partition = false := by
    unfold State.owns
    rw [part, free]
    rfl
  generalize started f.val tag s = t at *
  simp only [partition_start, passes, unowned, part, free, alone]
  rfl

/-- The new owner does not observe any more; the inactive plane is emptied. -/
theorem setOwner_of_settled {f p : Nat} {s : State} (hs : Settled s p) (hp : p < 64) :
    Only [.parts] s (setOwner f p s) ∧ ((setOwner f p s).part p).owner = some f ∧
      ((setOwner f p s).part p).observers = (s.part p).observers.filter (· != f) := by
  unfold setOwner
  rw [ownerChanged_of_settled (settled_modPart hs _ rfl hp)]
  refine ⟨(modPart_only ..).trans (modPart_only ..), ?_⟩
  rw [part_modPart _ _ _ hp, part_modPart _ _ _ hp]
  exact ⟨rfl, rfl⟩

theorem execObserve_observes {s : State} {f : Fn} {tag : W32} {c : Cmd} (w : Waits s f.val tag 0x04 c)
    (allowed : s.notAllowed f.val c.partition = false) (twin : s.twinHolds c.partition = false)
    (noRole : s.reads f.val c.partition = false)
    (slot : (s.part c.partition).observers.length + s.rivals 0x04 f.val c < Config.maxObservers) :
    exec (.observe f tag) s = done (complete f.val tag {}
      (modPart c.partition (fun x => { x with observers := x.observers ++ [f.val] }) (started f.val tag s))) := by
  refine congrArg done ((startCmd_eq _ w).trans ?_)
  have rivals := rivals_started s 0x04 f.val tag c
  have part : (started f.val tag s).part c.partition = s.part c.partition := Only.part (started_only ..) rfl _
  have passes := roleChecks_pass tag allowed twin
  have other : (started f.val tag s).reads f.val c.partition = false := by
    unfold State.reads State.owns State.observes at *
    rw [part, noRole]
  generalize started f.val tag s = t at *
  simp only [partition_start, passes, other, part, rivals, if_neg (Nat.not_le.mpr slot)]
  rfl

theorem execRelease_waits {s : State} {f : Fn} {tag : W32} {c : Cmd} (w : Waits s f.val tag 0x03 c) (role : c.f 52 1 ≠ 1)
    (owner : s.owns f.val c.partition = true) :
    exec (.release f tag) s = done (modWork f.val tag (fun w => { w with stage := 1 }) (started f.val tag s)) := by
  refine congrArg done ((startCmd_eq _ w).trans ((if_neg role).trans (if_pos ?_)))
  unfold State.owns at *
  rw [Only.part (started_only ..) rfl]
  exact owner

theorem execReleaseTakesEffect_releases {s : State} {f : Fn} {tag : W32} {c : Cmd} (h : s.cmd f.val tag = some c)
    (op : c.op = 0x03) (stage : c.work.stage = 1)
    (last : ((earlier (s.fn f).inflight tag).any fun x =>
      !x.heldDup && x.usesPartition && x.partition == c.partition) = false)
    (owner : s.owns f.val c.partition = true) :
    exec (.releaseTakesEffect f tag) s = done (complete f.val tag {} (dropOwner f.val c.partition s)) := by
  show execReleaseTakesEffect f tag s = _
  unfold execReleaseTakesEffect
  simp only [h, op, stage, last, owner]
  rfl

/-- The partition has no owner and no inactive plane. -/
theorem dropOwner_of_settled {f p : Nat} {s : State} (hs : Settled s p) (hr : s.osier.runs = []) (hp : p < 64) :
    Only [.parts, .slath] s (dropOwner f p s) ∧ ((dropOwner f p s).part p).owner = none ∧
      ((dropOwner f p s).part p).inactive = none := by
  have ended : Only [.parts, .slath] s (endExports f p (modPart p (fun x => { x with owner := none }) s)) :=
    (modPart_only ..).within.andThen (endExports_only ..)
  have part : (endExports f p (modPart p (fun x => { x with owner := none }) s)).part p = { s.part p with owner := none } :=
    (Only.part (endExports_only ..) rfl p).trans (part_modPart _ _ _ hp)
  have settled : Settled (endExports f p (modPart p (fun x => { x with owner := none }) s)) p :=
    ⟨by rw [part]; exact hs.commit, by rw [cmdsWhere_rings (.of_only ended rfl)]; exact hs.reweave⟩
  unfold dropOwner
  rw [ownerChanged_of_settled settled]
  generalize endExports f p (modPart p (fun x => { x with owner := none }) s) = u at ended part
  have changed : Only [.parts, .slath] s (modPart p (fun x => { x with inactive := none }) u) := ended.andThen (modPart_only ..)
  rw [endRoleRuns_of_no_runs ((congrArg OsierCtl.runs (changed.same .osier (by decide))).trans hr), part_modPart _ _ _ hp, part]
  exact ⟨changed, rfl, rfl⟩

/-- Settles O30: each command, its checks passed, changes the table and completes; the settling of the lattice leaves the
table. -/
theorem claimObserveReleaseAct : Obligations.ClaimObserveReleaseAct := by
  unfold Obligations.ClaimObserveReleaseAct
  refine ⟨fun s f tag c w hp allowed twin free settled calm first => ?_, fun s f tag c w hp allowed twin noRole slot => ?_,
    fun s f tag c w role owner => ?_, fun s f tag c h op stage quiet hp last owner settled runs => ?_⟩
  · obtain ⟨only, owned, observers⟩ := setOwner_of_settled (f := f.val) (settled_started settled f.val tag) hp
    rw [Only.part (started_only ..) rfl] at observers
    obtain ⟨t, ht, still, _, answers⟩ := exec_completes (execClaim_claims w allowed twin free calm first)
      (answers_of_only _ f.isLt w.here only)
    exact ⟨t, ht, (congrArg PartStill.owner (still.part _)).trans owned,
      (congrArg PartStill.observers (still.part _)).trans observers, answers⟩
  · obtain ⟨t, ht, still, _, answers⟩ := exec_completes (execObserve_observes w allowed twin noRole slot)
      (answers_of_only _ f.isLt w.here (modPart_only ..))
    refine ⟨t, ht, (congrArg PartStill.observers (still.part _)).trans ?_, answers⟩
    show ((modPart _ _ _).part _).observers = _
    rw [part_modPart _ _ _ hp, Only.part (started_only ..) rfl]
  · have fires : (modWork f.val tag (fun w => { w with stage := 1 }) (started f.val tag s)).fires = [] :=
      (Only.fires (modWork_only ..) rfl).trans ((Only.fires (started_only ..) rfl).trans w.quiet)
    exact Runs.quiet (execRelease_waits w role owner) fires (cmd_modWork _ (cmd_started w.here))
  · obtain ⟨only, disowned, emptied⟩ := dropOwner_of_settled (f := f.val) settled runs hp
    have completes := answers_later {} f.isLt h (.of_only only rfl) ((Only.out only rfl).symm ▸ List.prefix_rfl) (Only.now only rfl)
    obtain ⟨t, ht, still, _, answers⟩ := exec_completes (execReleaseTakesEffect_releases h op stage last owner) completes
    exact ⟨t, ht, (congrArg PartStill.owner (still.part _)).trans disowned,
      (congrArg PartStill.inactive (still.part _)).trans emptied, answers⟩

end Sys2Proof.Laws

/-!
SUPPORT. GRANT of what ends no role: its checks passed, it changes the session or the partition and completes.
-/

namespace Sys2Proof.Laws
open Sys2Proof Sys2Proof.Machine
set_option Elab.async false -- a thread per proof would not fit beside the model in the check's memory

theorem field_start (c : Cmd) (off n : Nat) : ({ c with started := true } : Cmd).f off n = c.f off n := rfl

theorem grantWaits_of_mayStart {s : State} {g : Nat} {tag : W32} {op : Nat} {c : Cmd} (w : Waits s g tag op c) :
    s.grantWaits g tag = false := by
  unfold State.grantWaits
  rw [w.here]
  simp [started_eq_false_of_mayStart w.turn]

/-- RESULT0 of a GRANT: the owner before it, for the actions that name a partition (R344). DEDUCED, log entry 17. -/
def ownerBefore (s : State) (c : Cmd) : Nat :=
  (if grantPartition (c.f 52 1) then (s.part c.partition).owner else none).getD 0xFF

theorem execGrant_grants {s : State} {f : Fn} {tag : W32} {c : Cmd} (w : Waits s f.val tag 0x05 c)
    (idle : s.grantWaits (afterReset f.val) tag = false) (allowed : s.grantCheck f.val c = none)
    (new : s.grantAlready c = false) (calm : grantPartition (c.f 52 1) = true → s.revoking c.partition = false) :
    exec (.grant f tag) s =
      done (grantEffect f.val { c with started := true } (ownerBefore s c) (started f.val tag s)) := by
  have free : ((s.cmd f.val tag).map fun c => grantPartition (c.f 52 1) && s.revoking c.partition).getD false = false := by
    rw [w.here]
    cases h : grantPartition (c.f 52 1) with
    | false => simp [h]
    | true => simp [calm h]
  have part : (started f.val tag s).part c.partition = s.part c.partition := Only.part (started_only ..) rfl _
  have check : (started f.val tag s).grantCheck f.val { c with started := true } = none := by
    obtain ⟨v, hv⟩ := started_frame f.val tag s
    rw [hv]
    exact allowed
  have missing : (started f.val tag s).grantAlready { c with started := true } = false := by
    obtain ⟨v, hv⟩ := started_frame f.val tag s
    rw [hv]
    exact new
  show execGrant f tag s = _
  unfold execGrant ownerBefore
  simp only [idle, Bool.false_eq_true, if_false, grantWaits_of_mayStart w, free, startCmd_eq _ w, check, missing,
    partition_start, part]
  rfl

/-! ### The effects -/

section
variable {g : Nat} {c : Cmd} {prev : Nat} {s : State}

theorem grantEffect_observer (h : c.f 52 1 = 3) : grantEffect g c prev s = complete g c.tag { r0 := prev }
    (modPart c.partition (fun x => { x with observers := x.observers ++ [c.f 53 1] }) s) := by
  unfold grantEffect
  rw [h]
  rfl

theorem grantEffect_allow (h : c.f 52 1 = 5) : grantEffect g c prev s = complete g c.tag { r0 := prev }
    (modSess (c.f 53 1) (fun x => { x with allow := BitVec.ofNat 64 (c.param0 + 2 ^ 32 * c.param1) }) s) := by
  unfold grantEffect
  rw [h]
  rfl

theorem grantEffect_view (h : c.f 52 1 = 6) : grantEffect g c prev s = complete g c.tag { r0 := prev }
    (modSess (c.f 53 1) (fun x => { x with globalView := true }) s) := by
  unfold grantEffect
  rw [h]
  rfl

theorem grantEffect_noView (h : c.f 52 1 = 7) : grantEffect g c prev s = complete g c.tag { r0 := prev }
    (modSess (c.f 53 1) (fun x => { x with globalView := false }) s) := by
  unfold grantEffect
  rw [h]
  rfl

end

/-- A GRANT that changes the session of its TARGET and names no partition. -/
theorem grant_changes_session {s : State} {f : Fn} {tag : W32} {c : Cmd} {g : SessSt → SessSt} (w : Waits s f.val tag 0x05 c)
    (idle : s.grantWaits (afterReset f.val) tag = false) (allowed : s.grantCheck f.val c = none) (new : s.grantAlready c = false)
    (target : c.f 53 1 < 64) (alone : grantPartition (c.f 52 1) = false)
    (effect : ∀ prev u, grantEffect f.val { c with started := true } prev u =
      complete f.val c.tag { r0 := prev } (modSess (c.f 53 1) g u)) :
    ∃ t, exec (.grant f tag) s = .next t ∧ sessStill (t.ses (c.f 53 1)) = sessStill (g (s.ses (c.f 53 1))) ∧
      Answers s t f.val c { r0 := 0xFF } := by
  have prev : ownerBefore s c = 0xFF := by unfold ownerBefore; rw [alone]; rfl
  have grants := execGrant_grants w idle allowed new (by rw [alone]; exact fun h => nomatch h)
  rw [prev, effect] at grants
  obtain rfl := cmd_tag w.here
  obtain ⟨t, ht, still, _, answers⟩ := exec_completes grants (answers_of_only _ f.isLt w.here (modSess_only ..))
  refine ⟨t, ht, (still.ses _).trans ?_, answers⟩
  rw [ses_modSess _ _ _ target, Only.ses (started_only ..) rfl]

end Sys2Proof.Laws

/-!
SUPPORT. METER_READ, the epochs and the wall clock: what each does where its checks pass.
-/

namespace Sys2Proof.Laws
open Sys2Proof Sys2Proof.Machine
set_option Elab.async false -- a thread per proof would not fit beside the model in the check's memory

/-! ### METER_READ -/

theorem bufWrite_of_cmd {f : Nat} {tag : W32} {c : Cmd} {off : Nat} {data : List Byte} {s : State} (hf : f < 68)
    (h : s.cmd f tag = some c) :
    bufWrite f tag off data s = hostWrite (fnPort f) (c.bufAddr + off) (data.take (c.bufWindow - off)) s := by
  unfold bufWrite
  rw [h]
  exact if_neg (by simp [discards, hf])

theorem execMeterRead_reads {s : State} {f : Fn} {tag : W32} {c : Cmd} (w : Waits s f.val tag 0x90 c)
    (runs : s.err.stopped = false) (mode : c.f 52 1 = 0) (subject : c.f 53 1 ≠ 0xFE)
    (sees : s.seesMeters f.val (c.f 53 1) = true) :
    exec (.meterRead f tag) s = done (complete f.val tag { r0 := s.billing.epoch.toNat, r1 := 1 }
      (hostWrite (fnPort f.val) c.bufAddr ((s.meterBlock (c.f 53 1)).take c.bufWindow) (started f.val tag s))) := by
  refine congrArg done ((startCmd_eq _ w).trans ?_)
  have written : bufWrite f.val tag 0 (s.meterBlock (c.f 53 1)) (started f.val tag s) =
      hostWrite (fnPort f.val) c.bufAddr ((s.meterBlock (c.f 53 1)).take c.bufWindow) (started f.val tag s) :=
    (bufWrite_of_cmd (off := 0) (data := s.meterBlock (c.f 53 1)) f.isLt (cmd_started w.here) :)
  obtain ⟨v, hv⟩ := started_frame f.val tag s
  have stopped : (started f.val tag s).err.stopped = false := by rw [hv]; exact runs
  have seen : (started f.val tag s).seesMeters f.val (c.f 53 1) = true := by rw [hv]; exact sees
  have block : (started f.val tag s).meterBlock (c.f 53 1) = s.meterBlock (c.f 53 1) := by rw [hv]; rfl
  have billing : (started f.val tag s).billing = s.billing := by rw [hv]
  have first : ({ c with started := true } : Cmd).f 52 1 = 0 := mode
  have named : (if (({ c with started := true } : Cmd).f 53 1 = 0xFE && !isPf f.val) = true then f.val
      else ({ c with started := true } : Cmd).f 53 1) = c.f 53 1 := if_neg (by simp [field_start, subject])
  simp only [stopped, first, Bool.false_eq_true, if_false, if_true, named, seen, bne_iff_ne.mpr subject, Bool.and_self, block,
    billing, written]

/-- The write of the block changes no function, and is driven before the completion. -/
theorem answers_hostWrite {s : State} {f : Nat} {tag : W32} {c : Cmd} {port addr : Nat} {data : List Byte} (r : Res) (hf : f < 68)
    (h : s.cmd f tag = some c) :
    Answers s (complete f tag r (hostWrite port addr data (started f tag s))) f c r := by
  have begun := started_only f tag s
  have grows : (started f tag s).out <+: (hostWrite port addr data (started f tag s)).out := (hostWrite_grows ..).out
  rw [Only.out begun rfl] at grows
  exact answers_after r hf h (.of_only (hostWrite_only ..) rfl) grows
    ((Only.now (hostWrite_only ..) rfl).trans (Only.now begun rfl))

theorem mem_out_hostWrite (port addr : Nat) (data : List Byte) (s : State) :
    Out.hostWrite port (BitVec.ofNat 64 addr) data ∈ (hostWrite port addr data s).out :=
  List.mem_append_right _ (List.mem_singleton.mpr rfl)

/-! ### The epochs -/

/-- A close opens the next epoch. -/
theorem epoch_closeEpoch (cause : Nat) (s : State) : (closeEpoch cause s).billing.epoch = s.billing.epoch + 1 := rfl

/-- LAST_BOUNDARY is apart from the open epoch, whatever it becomes. -/
theorem epoch_withBoundary (b : Billing) (x : Option Nat) : ({ b with lastBoundary := x } : Billing).epoch = b.epoch := rfl

theorem epoch_setBoundary (s : State) : (setBoundary s).billing.epoch = s.billing.epoch :=
  epoch_withBoundary s.billing s.boundary

theorem epoch_joinClose (e : LogEntry) (s : State) : (joinClose e s).billing.epoch = s.billing.epoch := rfl

theorem toNat_ne_lastEpoch {e : W32} (h : e ≠ 0xFFFFFFFF) : (e.toNat == 0xFFFFFFFF) = false :=
  beq_false_of_ne fun k => h (BitVec.eq_of_toNat_eq k)

theorem closeChecks_pass {s : State} {f : Nat} {e : W32} (tag : W32) (runs : s.err.stopped = false)
    (pm : s.isArbiterPm f = true) (more : e ≠ 0xFFFFFFFF) :
    firstFail [((started f tag s).err.stopped, stBusy), (!(started f tag s).isArbiterPm f, stNotPermitted),
      (e.toNat == 0xFFFFFFFF, stBusy)] = none := by
  obtain ⟨v, hv⟩ := started_frame f tag s
  rw [hv]
  exact firstFail_eq_none.mpr (by simpa [toNat_ne_lastEpoch more] using ⟨runs, pm⟩)

theorem execEpochClose_closes {s : State} {f : Fn} {tag : W32} {c : Cmd} (w : Waits s f.val tag 0x91 c)
    (runs : s.err.stopped = false) (pm : s.isArbiterPm f.val = true) (more : s.billing.epoch ≠ 0xFFFFFFFF)
    (first : s.closedNow 1 = none) :
    ∃ u, exec (.epochClose f tag) s = done (complete f.val tag
        { r0 := s.billing.epoch.toNat, r1 := s.billing.epoch.toNat + 1 } u) ∧
      Only [.sess, .billing] (started f.val tag s) u ∧ u.billing.epoch = s.billing.epoch + 1 := by
  obtain ⟨v, hv⟩ := started_frame f.val tag s
  have billing : (started f.val tag s).billing = s.billing := by rw [hv]
  have new : (started f.val tag s).closedNow 1 = none := by rw [hv]; exact first
  have passes := closeChecks_pass tag runs pm more
  refine ⟨if (started f.val tag s).boundaryDue then setBoundary (closeEpoch 0 (started f.val tag s))
    else closeEpoch 0 (started f.val tag s), congrArg done ((startCmd_eq _ w).trans ?_), ?_, ?_⟩
  · simp only [new, Option.map_none, Option.getD_none, billing, passes]
  · exact ite_only ((closeEpoch_only ..).andThen (setBoundary_only _)) (closeEpoch_only ..)
  · rw [← billing]
    split
    · exact epoch_setBoundary _
    · rfl

theorem execEpochClose_joins {s : State} {f : Fn} {tag : W32} {c : Cmd} {e : LogEntry} (w : Waits s f.val tag 0x91 c)
    (runs : s.err.stopped = false) (pm : s.isArbiterPm f.val = true) (made : s.closedNow 1 = some e)
    (more : e.epoch ≠ 0xFFFFFFFF) :
    exec (.epochClose f tag) s = done (complete f.val tag { r0 := e.epoch.toNat, r1 := e.epoch.toNat + 1 }
      (joinClose e (started f.val tag s))) := by
  obtain ⟨v, hv⟩ := started_frame f.val tag s
  have joined : (started f.val tag s).closedNow 1 = some e := by rw [hv]; exact made
  have passes := closeChecks_pass tag runs pm more
  refine congrArg done ((startCmd_eq _ w).trans ?_)
  simp only [joined, Option.map_some, Option.getD_some, passes]

theorem autoClose_of_due {s : State} (due : s.boundaryDue = true)
    (more : s.billing.epoch ≠ 0xFFFFFFFF ∨ (s.closedNow 0).isSome = true) :
    autoClose s = closeByClock s := by
  refine (if_pos due).trans (if_neg ?_)
  intro last
  obtain ⟨full, unmade⟩ := Bool.and_eq_true_iff.mp last
  rcases more with k | k
  · exact k (beq_iff_eq.mp full)
  · rw [Option.isNone_iff_eq_none.mp unmade] at k
    cases k

theorem closeByClock_closes {s : State} (first : s.closedNow 0 = none) : closeByClock s = setBoundary (closeEpoch 1 s) :=
  if_neg (by rw [first]; decide)

theorem closeByClock_joins {s : State} (made : (s.closedNow 0).isSome = true) : closeByClock s = setBoundary s := if_pos made

/-- The automatic close changes only sessions and billing. -/
theorem runs_epochAutoClose {s : State} {e : W32} (quiet : s.fires = []) (h : (autoClose s).billing.epoch = e) :
    Runs .epochAutoClose s fun t => t.billing.epoch = e ∧ t.now = s.now :=
  Runs.quiet rfl ((Only.fires (autoClose_only s) rfl).trans quiet) ⟨h, Only.now (autoClose_only s) rfl⟩

/-! ### The wall clock -/

/-- What SET_TIME sets: whether the wall clock is set, to what, and when. -/
def clockOf (b : Billing) : Bool × W64 × W64 := (b.wallSet, b.wall, b.wallAt)

theorem clockOf_withBoundary (b : Billing) (x : Option Nat) : clockOf { b with lastBoundary := x } = clockOf b := rfl

theorem clockOf_withLog (b : Billing) (l : List LogEntry) (n : W32) : clockOf { b with log := l, nextSeq := n } = clockOf b := rfl

theorem clockOf_still {s t : State} (h : Still s t) : clockOf t.billing = clockOf s.billing :=
  congrArg (fun b : BillStill => (b.wallSet, b.wall, b.wallAt)) h.bill

theorem clockOf_setBoundary (s : State) : clockOf (setBoundary s).billing = clockOf s.billing :=
  clockOf_withBoundary s.billing s.boundary

theorem clockOf_mlog (kind subject : Nat) (epoch : W32) (body : List Byte) (s : State) :
    clockOf (mlog kind subject epoch body s).billing = clockOf s.billing := clockOf_withLog s.billing _ _

theorem clockOf_closeEpoch (cause : Nat) (s : State) : clockOf (closeEpoch cause s).billing = clockOf s.billing := by
  unfold closeEpoch
  extract_lets b e body s1 s2 s3
  have h1 : clockOf s1.billing = clockOf s.billing :=
    (each_eq (fun t => clockOf t.billing) (fun _ _ => clockOf_mlog ..) _ _).trans (clockOf_mlog ..)
  have h2 : clockOf s2.billing = clockOf s.billing := by
    show clockOf (if _ then _ else _ : State).billing = _
    split
    · exact (clockOf_mlog ..).trans h1
    · exact h1
  exact h2

theorem clockOf_closeByClock (s : State) : clockOf (closeByClock s).billing = clockOf s.billing := by
  unfold closeByClock
  split
  · exact clockOf_setBoundary s
  · exact (clockOf_setBoundary _).trans (clockOf_closeEpoch 1 s)

/-- What follows the setting of the clock: its log entry and records, and the close at a boundary. -/
theorem setTime_does (port v : Nat) (newPeriod : Bool) (s : State) :
    clockOf (setTime port v newPeriod s).billing = (true, BitVec.ofNat 64 v, s.now) ∧ Rings s (setTime port v newPeriod s) ∧
      Grows s (setTime port v newPeriod s) := by
  unfold setTime
  extract_lets before was b s1 closes back body s2
  have clock : clockOf s2.billing = clockOf s1.billing :=
    (each_eq (fun t => clockOf t.billing) (fun _ _ => clockOf_still (writeRec_still ..)) _ _).trans (clockOf_mlog ..)
  have logged : Only [.billing] s (mlog 3 0xFF s.billing.epoch body s1) := (upd_billing (.refl _ _) rfl).andThen (mlog_only ..)
  have rings : Rings s s2 := each_rings (.of_only logged rfl) fun _ _ => writeRec_rings ..
  have grows : Grows s s2 := each_grows (.of_only logged rfl) fun _ _ => writeRec_grows ..
  split
  · exact ⟨(clockOf_setBoundary _).trans clock, rings.trans (.of_only (setBoundary_only _) rfl),
      grows.trans (.of_only (setBoundary_only _) rfl)⟩
  · split
    · exact ⟨(clockOf_closeByClock _).trans clock, rings.trans (.of_only (closeByClock_only _) rfl),
        grows.trans (.of_only (closeByClock_only _) rfl)⟩
    · exact ⟨clock, rings, grows⟩

/-- The checks of the commands that only the port manager of an arbiter port may give. -/
theorem arbiterPm_passes {s : State} {f : Nat} (tag : W32) (runs : s.err.stopped = false) (pm : s.isArbiterPm f = true) :
    firstFail [((started f tag s).err.stopped, stBusy), (!(started f tag s).isArbiterPm f, stNotPermitted)] = none := by
  obtain ⟨v, hv⟩ := started_frame f tag s
  rw [hv]
  exact firstFail_eq_none.mpr (by simpa using ⟨runs, pm⟩)

/-- SET_PERIOD: the period and the origin of the boundaries (R360, R361). -/
def withPeriod (c : Cmd) (s : State) : State :=
  { s with billing := { s.billing with periodS := BitVec.ofNat 32 (c.f 56 4), originS := BitVec.ofNat 32 c.param2 } }

theorem withPeriod_only (c : Cmd) (s : State) : Only [.billing] s (withPeriod c s) := upd_billing (.refl _ _) rfl

theorem execSetWallclock_period {s : State} {f : Fn} {tag : W32} {c : Cmd} (w : Waits s f.val tag 0x92 c)
    (runs : s.err.stopped = false) (pm : s.isArbiterPm f.val = true) (noTime : bit (c.f 52 1) 0 = false)
    (period : bit (c.f 52 1) 1 = true) :
    exec (.setWallclock f tag) s =
      done (complete f.val tag {} (setBoundary (withPeriod c (started f.val tag s)))) := by
  refine congrArg done ((startCmd_eq _ w).trans ?_)
  simp only [arbiterPm_passes tag runs pm, field_start, noTime, period, if_true, Bool.false_eq_true, if_false]
  rfl

theorem execSetWallclock_time {s : State} {f : Fn} {tag : W32} {c : Cmd} (w : Waits s f.val tag 0x92 c)
    (runs : s.err.stopped = false) (pm : s.isArbiterPm f.val = true) (time : bit (c.f 52 1) 0 = true) :
    exec (.setWallclock f tag) s =
      done (complete f.val tag {} (setTime (fnPort f.val) (c.f 20 8) (bit (c.f 52 1) 1)
        (if bit (c.f 52 1) 1 then withPeriod c (started f.val tag s) else started f.val tag s))) := by
  refine congrArg done ((startCmd_eq _ w).trans ?_)
  simp only [arbiterPm_passes tag runs pm, field_start, time, if_true]
  rfl

/-- The clock takes the time of the command as it starts; what follows leaves the rings. -/
theorem setTime_after {s : State} {f : Nat} {tag : W32} {c : Cmd} {l : List Fld} {u : State} (port v : Nat) (newPeriod : Bool)
    (hf : f < 68) (h : s.cmd f tag = some c) (only : Only l (started f tag s) u)
    (e : ([.fns, .out, .now] : List Fld).all (fun x => !l.contains x) = true := by rfl) :
    clockOf (setTime port v newPeriod u).billing = (true, BitVec.ofNat 64 v, s.now) ∧
      Answers s (complete f tag {} (setTime port v newPeriod u)) f c {} := by
  obtain ⟨fns, out, now⟩ : (!l.contains .fns) = true ∧ (!l.contains .out) = true ∧ (!l.contains .now) = true := by
    simpa using e
  have begun := started_only f tag s
  have sameNow : u.now = s.now := (Only.now only now).trans (Only.now begun rfl)
  have sameOut : u.out = s.out := (Only.out only out).trans (Only.out begun rfl)
  obtain ⟨clock, rings, grows⟩ := setTime_does port v newPeriod u
  exact ⟨sameNow ▸ clock, answers_after {} hf h ((Rings.of_only only fns).trans rings) (sameOut ▸ grows.out)
    ((Only.now (setTime_only ..) rfl).trans sameNow)⟩

/-- Settles O31: each command, its checks passed, changes the table, the epoch or the clock and completes; the settling of the
lattice leaves them. -/
theorem grantsAndEpochsAct : Obligations.GrantsAndEpochsAct := by
  unfold Obligations.GrantsAndEpochsAct
  refine ⟨fun s f tag c w idle allowed new target => ⟨fun a => ?_, fun a => ?_, fun a => ?_⟩,
    fun s f tag c w idle allowed new a hp calm => ?_, fun s f tag c w runs mode subject sees => ?_,
    fun s f tag c w runs pm more first => ?_, fun s f tag c e w runs pm made more => ?_,
    fun s f tag c w runs pm noTime period => ?_, fun s f tag c w runs pm time => ?_, fun s due more first quiet => ?_,
    fun s due made quiet => ?_⟩
  · obtain ⟨t, ht, session, answers⟩ := grant_changes_session w idle allowed new target (by rw [a]; rfl) fun _ _ =>
      grantEffect_allow a
    exact ⟨t, ht, congrArg SessStill.allow session, answers⟩
  · obtain ⟨t, ht, session, answers⟩ := grant_changes_session w idle allowed new target (by rw [a]; rfl) fun _ _ =>
      grantEffect_view a
    exact ⟨t, ht, congrArg SessStill.globalView session, answers⟩
  · obtain ⟨t, ht, session, answers⟩ := grant_changes_session w idle allowed new target (by rw [a]; rfl) fun _ _ =>
      grantEffect_noView a
    exact ⟨t, ht, congrArg SessStill.globalView session, answers⟩
  · have effect := (execGrant_grants w idle allowed new fun _ => calm).trans (congrArg done (grantEffect_observer a))
    have prev : ownerBefore s c = (s.part c.partition).owner.getD 0xFF := by unfold ownerBefore; rw [a]; rfl
    obtain rfl := cmd_tag w.here
    obtain ⟨t, ht, still, _, answers⟩ := exec_completes effect (answers_of_only _ f.isLt w.here (modPart_only ..))
    refine ⟨t, ht, (congrArg PartStill.observers (still.part _)).trans ?_, prev ▸ answers⟩
    show ((modPart c.partition _ _).part _).observers = _
    rw [part_modPart _ _ _ hp, Only.part (started_only ..) rfl]
    rfl
  · obtain ⟨t, ht, _, grows, answers⟩ := exec_completes (execMeterRead_reads w runs mode subject sees)
      (answers_hostWrite _ f.isLt w.here)
    exact ⟨t, ht, answers, grows.out.subset (mem_out_hostWrite ..)⟩
  · obtain ⟨u, closes, only, epoch⟩ := execEpochClose_closes w runs pm more first
    obtain ⟨t, ht, still, _, answers⟩ := exec_completes closes (answers_of_only _ f.isLt w.here only)
    exact ⟨t, ht, (congrArg BillStill.epoch still.bill).trans epoch, answers⟩
  · obtain ⟨t, ht, still, _, answers⟩ := exec_completes (execEpochClose_joins w runs pm made more)
      (answers_of_only _ f.isLt w.here (joinClose_only ..))
    have billing : (started f.val tag s).billing = s.billing := (started_only ..).same .billing (by decide)
    exact ⟨t, ht, (congrArg BillStill.epoch still.bill).trans ((epoch_joinClose e (started f.val tag s)).trans
      (congrArg Billing.epoch billing)), answers⟩
  · have only : Only [.billing] (started f.val tag s) (setBoundary (withPeriod c (started f.val tag s))) :=
      (withPeriod_only ..).andThen (setBoundary_only _)
    obtain ⟨t, ht, still, _, answers⟩ := exec_completes (execSetWallclock_period w runs pm noTime period)
      (answers_of_only {} f.isLt w.here only)
    have billing : (started f.val tag s).billing = s.billing := (started_only ..).same .billing (by decide)
    refine ⟨t, ht, congrArg BillStill.periodS still.bill, congrArg BillStill.originS still.bill,
      (congrArg BillStill.epoch still.bill).trans ((epoch_setBoundary _).trans ?_), answers⟩
    show (started f.val tag s).billing.epoch = _
    rw [billing]
  · obtain ⟨clock, completes⟩ := setTime_after (fnPort f.val) (c.f 20 8) (bit (c.f 52 1) 1) f.isLt w.here
      (ite_only (c := bit (c.f 52 1) 1 = true) (withPeriod_only c _) (.refl [.billing] (started f.val tag s)))
    obtain ⟨t, ht, still, _, answers⟩ := exec_completes (execSetWallclock_time w runs pm time) completes
    obtain ⟨set, value⟩ := Prod.mk.inj ((clockOf_still still).trans clock)
    obtain ⟨wall, wallAt⟩ := Prod.mk.inj value
    exact ⟨t, ht, set, wall, wallAt, answers⟩
  · exact runs_epochAutoClose quiet (by
      rw [autoClose_of_due due (.inl more), closeByClock_closes first, epoch_setBoundary, epoch_closeEpoch])
  · exact runs_epochAutoClose quiet (by rw [autoClose_of_due due (.inr made), closeByClock_joins made, epoch_setBoundary])

end Sys2Proof.Laws

/-!
SUPPORT. What the loss of a link, and what a command does behind a change of one, leaves of every link: its state, what it
knows of its die, and what the hub has driven.
-/

namespace Sys2Proof.Laws
open Sys2Proof Sys2Proof.Machine
set_option Elab.async false -- a thread per proof would not fit beside the model in the check's memory

/-! ### The links kept -/

/-- What only a row of its own changes of a port: the states of its link and what its CONFIG said. The enumeration reads the
classes afresh and a failing warp commit puts the previous entry back, so that both are left out (R249, R429). -/
def linkView (x : PortSt) : PortStill :=
  { portStill x with enumerated := false, warp := WarpPort.none, classes := [] }

/-- Every link keeps its view, no port becomes enumerated, and what was driven stays driven. -/
structure KeepsLinks (s t : State) : Prop where
  port : ∀ n, linkView (t.port n) = linkView (s.port n)
  plait : lnkStill t.plait.lk = lnkStill s.plait.lk
  enumerated : ∀ n, (s.port n).enumerated = false → (t.port n).enumerated = false
  out : s.out <+: t.out

theorem KeepsLinks.refl (s : State) : KeepsLinks s s := ⟨fun _ => rfl, rfl, fun _ h => h, List.prefix_rfl⟩

theorem KeepsLinks.trans {s t u : State} (h : KeepsLinks s t) (k : KeepsLinks t u) : KeepsLinks s u :=
  ⟨fun n => (k.port n).trans (h.port n), k.plait.trans h.plait, fun n e => k.enumerated n (h.enumerated n e), h.out.trans k.out⟩

theorem linkView_of_portStill {x y : PortSt} (h : portStill y = portStill x) : linkView y = linkView x := by
  unfold linkView
  rw [h]

theorem KeepsLinks.of_still {s t : State} (h : Still s t) (g : s.out <+: t.out) : KeepsLinks s t :=
  ⟨fun n => linkView_of_portStill (h.port n), h.plk, fun n e => (congrArg PortStill.enumerated (h.port n)).trans e, g⟩

/-- An operation that leaves ports and pair, whatever it drives. -/
theorem KeepsLinks.of_out {l : List Fld} {s t : State} (h : Only l s t) (g : s.out <+: t.out)
    (e : ([.ports, .plait].all fun f => !l.contains f) = true := by rfl) : KeepsLinks s t := by
  have ports : t.ports = s.ports := h.same .ports fun i => by simp [i] at e
  have plait : t.plait = s.plait := h.same .plait fun i => by simp [i] at e
  have port : ∀ n, t.port n = s.port n := fun n => by unfold State.port; rw [ports]
  exact ⟨fun n => by rw [port], by rw [plait], fun n => by rw [port]; exact id, g⟩

theorem KeepsLinks.of_only {l : List Fld} {s t : State} (h : Only l s t)
    (e : ([.ports, .plait, .out].all fun f => !l.contains f) = true := by rfl) : KeepsLinks s t := by
  have out : t.out = s.out := h.same .out fun i => by simp [i] at e
  exact .of_out h (out ▸ List.prefix_rfl) (by simp only [List.all_cons, Bool.and_eq_true] at e ⊢; exact ⟨e.1, e.2.1, rfl⟩)

/-- One more operation that leaves ports, pair and outputs. -/
theorem KeepsLinks.step {l : List Fld} {s t u : State} (h : KeepsLinks s t) (k : Only l t u)
    (e : ([.ports, .plait, .out].all fun f => !l.contains f) = true := by rfl) : KeepsLinks s u := h.trans (.of_only k e)

theorem modPort_keepsLinks (n : Nat) (g : PortSt → PortSt) (s : State)
    (h : ∀ x, linkView (g x) = linkView x := by intro; rfl)
    (e : ∀ x, x.enumerated = false → (g x).enumerated = false := by intro _ h; exact h) : KeepsLinks s (modPort n g s) := by
  have port : ∀ m, (modPort n g s).port m = s.port m ∨ (modPort n g s).port m = g (s.port m) := fun m => by
    by_cases b : m = n
    · subst b
      by_cases l : m < 8
      · exact .inr (port_modPort _ _ _ l)
      · exact .inl (by rw [show modPort m g s = s from dif_neg l])
    · exact .inl (port_modPort_ne _ _ _ _ b)
  refine ⟨fun m => ?_, by rw [modPort_plait], fun m k => ?_, by rw [modPort_out]⟩
  · rcases port m with p | p <;> rw [p]
    exact h _
  · rcases port m with p | p <;> rw [p]
    · exact k
    · exact e _ k

/-- One more change of a port that keeps its view. -/
theorem KeepsLinks.change {n : Nat} {g : PortSt → PortSt} {s t : State} (h : KeepsLinks s t)
    (k : ∀ x, linkView (g x) = linkView x := by intro; rfl)
    (e : ∀ x, x.enumerated = false → (g x).enumerated = false := by intro _ h; exact h) : KeepsLinks s (modPort n g t) :=
  h.trans (modPort_keepsLinks n g t k e)

theorem KeepsLinks.ite {c : Prop} [Decidable c] {s t u : State} (h : KeepsLinks s t) (k : KeepsLinks s u) :
    KeepsLinks s (if c then t else u) := by
  split <;> assumption

theorem KeepsLinks.eachOf {α : Type} {l : List α} {g : α → State → State} {s t : State} (h : KeepsLinks s t)
    (k : ∀ a ∈ l, ∀ u, KeepsLinks u (g a u)) : KeepsLinks s (each l g t) := by
  refine h.trans ?_
  clear h
  unfold Machine.each
  induction l generalizing t with
  | nil => exact .refl _
  | cons a l ih => exact (k a (.head _) t).trans (ih fun b hb => k b (.tail _ hb))

theorem KeepsLinks.each {α : Type} {l : List α} {g : α → State → State} {s t : State} (h : KeepsLinks s t)
    (k : ∀ a u, KeepsLinks u (g a u)) : KeepsLinks s (each l g t) := h.eachOf fun a _ => k a

/-- A change of the pair that leaves the Plait link, and what follows it. -/
theorem KeepsLinks.onPlait {s t : State} {y : PlaitCtl} (h : KeepsLinks { s with plait := y } t)
    (e : lnkStill y.lk = lnkStill s.plait.lk := by rfl) : KeepsLinks s t :=
  ⟨h.port, h.plait.trans e, h.enumerated, h.out⟩

theorem settle_keepsLinks (s : State) : KeepsLinks s (settle s) := .of_still (settle_still s) (settle_grows s).out

/-- What a view says of any link. -/
theorem KeepsLinks.lnk {s t : State} (h : KeepsLinks s t) (l : Nat) : lnkStill (t.lnk l) = lnkStill (s.lnk l) := by
  unfold State.lnk
  split
  · exact h.plait
  · exact congrArg PortStill.lk (h.port l)

/-! ### Requests and records -/

theorem sendReq_keepsLinks (l : Nat) (r : OutReq) (s : State) : KeepsLinks s (sendReq l r s) :=
  .of_still (sendReq_still ..) (sendReq_grows ..).out

theorem ask_keepsLinks (n ch op target : Nat) (wide : Bool) (p : Nat) (tag : W32) (who : ReqFor) (data : List Byte)
    (s : State) : KeepsLinks s (ask n ch op target wide p tag who data s) := sendReq_keepsLinks ..

theorem claim_keepsLinks (n p : Nat) (s : State) : KeepsLinks s (claim n p s) := .ite (.refl _) (ask_keepsLinks ..)

theorem plaitSend_keepsLinks (ch op part : Nat) (data : List Byte) (s : State) : KeepsLinks s (plaitSend ch op part data s) :=
  .of_still (plaitSend_still ..) (plaitSend_grows ..).out

theorem complete_keepsLinks (f : Nat) (tag : W32) (r : Res) (s : State) : KeepsLinks s (complete f tag r s) :=
  .of_out (complete_only ..) (complete_grows ..).out

theorem writeRec_keepsLinks (cls p : Nat) (payload : List Byte) (s : State) : KeepsLinks s (writeRec cls p payload s) :=
  .of_out (writeRec_only ..) (writeRec_grows ..).out

theorem raiseErr_keepsLinks (cls scope inst addr detail action : Nat) (s : State) :
    KeepsLinks s (raiseErr cls scope inst addr detail action s) := .of_out (raiseErr_only ..) (raiseErr_grows ..).out

theorem checkGather_keepsLinks (p : Nat) (s : State) : KeepsLinks s (checkGather p s) :=
  .of_still (checkGather_still ..) (checkGather_grows ..).out

/-! ### Commands that wait for dies -/

theorem runSent_keepsLinks (p : Nat) (toDie : Bool) (s : State) : KeepsLinks s (runSent p toDie s) := by
  have ended : KeepsLinks s (endHold p s) := .of_only (endHold_only ..)
  exact .ite (ended.trans (.of_still (endBinding_still ..) (endBinding_grows ..).out)) ended

theorem noteRuns_keepsLinks (s : State) : KeepsLinks s (noteRuns s) :=
  (KeepsLinks.refl s).each fun _ _ => (KeepsLinks.of_only (modWork_only ..)).trans (runSent_keepsLinks ..)

theorem sendParts_keepsLinks (f : Nat) (tag : W32) (p : Nat) (sel : Nat → Bool) (l : List CmdMsg) (s : State) :
    KeepsLinks s (sendParts f tag p sel l s) := (KeepsLinks.of_only (modWork_only ..)).each fun _ _ => ask_keepsLinks ..

theorem sendRun_keepsLinks (f : Nat) (c : Cmd) (op : Nat) (body : List Byte) (sel : Nat → Bool) (s : State) :
    KeepsLinks s (sendRun f c op body sel s) := by
  have sent : ∀ l, KeepsLinks s (sendParts f c.tag c.partition sel l s) := fun l => sendParts_keepsLinks ..
  exact (KeepsLinks.ite ((sent _).step (fallbackCalls_only ..)) (sent _)).trans (noteRuns_keepsLinks _)

theorem advanceLoop_keepsLinks (f : Nat) (tag : W32) (k : Nat) (s : State) : KeepsLinks s (advanceLoop f tag k s) := by
  induction k generalizing s with
  | zero => exact .refl _
  | succ k ih =>
    have completed : ∀ r, KeepsLinks s (complete f tag r s) := fun r => complete_keepsLinks ..
    unfold advanceLoop
    split
    · exact .refl _
    · refine .ite (completed _) (.ite (.refl _) (.ite ?_ (.ite (.refl _) (completed _))))
      split
      · exact .ite ((KeepsLinks.of_only (modWork_only ..)).trans (ih _))
          (((KeepsLinks.of_only (modWork_only ..)).trans (sendRun_keepsLinks ..)).trans (ih _))
      · exact completed _

theorem purgeCmd_keepsLinks (f : Nat) (tag : W32) (s : State) : KeepsLinks s (purgeCmd f tag s) := by
  unfold purgeCmd
  extract_lets drop reqs calls steps count
  refine KeepsLinks.step (KeepsLinks.each ?_ fun n t => ?_) (modWork_only ..)
  · exact .of_only (l := [.osier]) (upd_osier (.refl _ _) rfl)
  · exact modPort_keepsLinks n _ t

theorem requestFails_keepsLinks (f : Nat) (tag : W32) (served : List Nat) (silent : Bool) (st : Byte) (s : State) :
    KeepsLinks s (requestFails f tag served silent st s) := by
  unfold requestFails
  split
  · exact .refl _
  · refine KeepsLinks.trans (KeepsLinks.trans ?_ (purgeCmd_keepsLinks ..)) (advanceLoop_keepsLinks ..)
    exact (KeepsLinks.of_only (modWork_only ..)).step (modWork_only ..)

theorem regionAnswer_keepsLinks (f : Nat) (tag : W32) (code : Nat) (d : List Byte) (s : State) :
    KeepsLinks s (regionAnswer f tag code d s) := by
  have s1 := (KeepsLinks.of_only (modWork_only f tag (fun w => { w with outst := w.outst - 1 }) s)).step
    (modRegion_only f tag (fun r => if r.ended then r else if code == 0 && !d.isEmpty then r.take d else r.miss) _)
  exact .ite s1 ((s1.step (modRegion_only ..)).trans (purgeCmd_keepsLinks ..))

theorem failResends_keepsLinks (n p : Nat) (st : Byte) (s : State) : KeepsLinks s (failResends n p st s) := by
  refine (modPort_keepsLinks ..).each fun r t => ?_
  split
  · exact requestFails_keepsLinks ..
  · exact .refl _

theorem stepEnds_keepsLinks (u : Nat) (ack : Bool) (s : State) : KeepsLinks s (stepEnds u ack s) :=
  (KeepsLinks.refl s).each fun _ _ => (KeepsLinks.of_only (modWork_only ..)).trans (advanceLoop_keepsLinks ..)

theorem declareUnit_keepsLinks (u : Nat) (s : State) : KeepsLinks s (declareUnit u s) := by
  have declared : KeepsLinks s (modUnit u (UnitSt.declare s.t) (stepEnds u false s)) :=
    (stepEnds_keepsLinks ..).step (modUnit_only ..)
  unfold declareUnit
  dsimp only
  split
  · exact declared.trans (checkGather_keepsLinks ..)
  · exact declared

/-! ### The pair -/

theorem writeHoopCtrl_keepsLinks (n p : Nat) (s : State) : KeepsLinks s (writeHoopCtrl n p s) := by
  unfold writeHoopCtrl
  extract_lets w want rises s1 m _ s2
  have h1 : KeepsLinks s s1 := ask_keepsLinks ..
  have h2 : KeepsLinks s s2 := .ite (plaitSend_keepsLinks ..) (.refl _)
  exact .ite (.refl _) (.ite (.ite (h1.trans (.onPlait (plaitSend_keepsLinks ..))) h1) (h2.trans (ask_keepsLinks ..)))

theorem plaitEvent_keepsLinks (bit : Nat) (s : State) : KeepsLinks s (plaitEvent bit s) :=
  .onPlait (.of_still (signalPfs_still ..) (signalPfs_grows ..).out)

theorem checkTakeover_keepsLinks (s : State) : KeepsLinks s (checkTakeover s) :=
  (KeepsLinks.refl s).each fun _ _ => .ite (complete_keepsLinks ..) (.refl _)

theorem checkHandoffIn_keepsLinks (s : State) : KeepsLinks s (checkHandoffIn s) :=
  (KeepsLinks.refl s).each fun _ _ => .ite (.refl _) (.onPlait (plaitSend_keepsLinks ..))

theorem checkHandoff_keepsLinks (s : State) : KeepsLinks s (checkHandoff s) :=
  (KeepsLinks.refl s).each fun _ _ => .ite (.refl _) (.onPlait (plaitSend_keepsLinks ..))

theorem checkPairing_keepsLinks (s : State) : KeepsLinks s (checkPairing s) := by
  refine .ite ?_ (.refl _)
  unfold enterPaired
  refine .onPlait (.each (.each (plaitEvent_keepsLinks ..) fun _ _ => ?_) fun _ _ => complete_keepsLinks ..)
  exact .ite (writeHoopCtrl_keepsLinks ..) (.refl _)

theorem twinChecks_keepsLinks (s : State) : KeepsLinks s (twinChecks s) :=
  (((checkTakeover_keepsLinks s).trans (checkHandoffIn_keepsLinks _)).trans (checkHandoff_keepsLinks _)).trans
    (checkPairing_keepsLinks _)

/-! ### Enumeration -/

theorem modEnum_keepsLinks (n : Nat) (g : EnumSt → EnumSt) (s : State) : KeepsLinks s (modEnum n g s) := modPort_keepsLinks ..

theorem enumSend_keepsLinks (n stage : Nat) (l : List (State → State)) (s : State) (h : ∀ g ∈ l, ∀ t, KeepsLinks t (g t)) :
    KeepsLinks s (enumSend n stage l s) := (modEnum_keepsLinks ..).eachOf h

theorem enumLoop_keepsLinks (n k : Nat) (s : State) : KeepsLinks s (enumLoop n k s) := by
  induction k generalizing s with
  | zero => exact .refl _
  | succ k ih =>
    have sent : ∀ stage l, (∀ g ∈ l, ∀ t, KeepsLinks t (g t)) → KeepsLinks s (enumLoop n k (enumSend n stage l s)) :=
      fun stage l h => (enumSend_keepsLinks n stage l s h).trans (ih _)
    unfold enumLoop
    split
    · exact .refl _
    · refine .ite (.refl _) ?_
      split
      · refine sent _ _ fun g hg t => ?_
        obtain ⟨c, -, rfl⟩ := List.mem_map.mp hg
        exact ask_keepsLinks ..
      · refine sent _ _ fun g hg t => ?_
        obtain ⟨c, -, rfl⟩ := List.mem_map.mp hg
        exact ask_keepsLinks ..
      · refine sent _ _ fun g hg t => ?_
        obtain ⟨u, -, hu⟩ := List.mem_filterMap.mp hg
        obtain ⟨p, -, rfl⟩ := Option.map_eq_some_iff.mp hu
        exact ask_keepsLinks ..
      · exact (modEnum_keepsLinks ..).each fun _ _ => claim_keepsLinks ..
      · exact .refl _

theorem enumAnswered_keepsLinks (n : Nat) (s : State) : KeepsLinks s (enumAnswered n s) :=
  (modEnum_keepsLinks ..).trans (enumLoop_keepsLinks ..)

theorem enumStart_keepsLinks (n : Nat) (s : State) : KeepsLinks s (enumStart n s) := by
  unfold enumStart
  extract_lets forget
  refine KeepsLinks.trans (KeepsLinks.trans ?_ (enumSend_keepsLinks _ _ _ _ fun g hg t => ?_)) (enumLoop_keepsLinks ..)
  · exact (KeepsLinks.each (.refl s) fun u t => .of_only (modUnit_only u _ t)).change (fun _ => rfl) fun _ _ => rfl
  · obtain ⟨c, -, rfl⟩ := List.mem_map.mp hg
    exact ask_keepsLinks ..

theorem bootAdvance_keepsLinks (s : State) : KeepsLinks s (bootAdvance s) :=
  .ite ((KeepsLinks.of_only (upd_boot (l := [.boot]) (.refl _ _) rfl)).each enumStart_keepsLinks) (.refl _)

/-! ### The Slath -/

theorem readRange_keepsLinks (p : Nat) (who : ReqFor) (r : CapRange) (s : State) : KeepsLinks s (readRange p who r s) :=
  .ite (ask_keepsLinks ..) (ask_keepsLinks ..)

theorem modCut_keepsLinks (p : Nat) (id : W32) (g : Cut → Cut) (s : State) : KeepsLinks s (modCut p id g s) :=
  .of_only (modCut_only ..)

theorem modBuild_keepsLinks (p : Nat) (g : Cut → Cut) (s : State) : KeepsLinks s (modBuild p g s) :=
  .of_only (modBuild_only ..)

theorem capturePort_keepsLinks (p : Nat) (id : W32) (n k : Nat) (s : State) : KeepsLinks s (capturePort p id n k s) := by
  induction k generalizing s with
  | zero => exact .refl _
  | succ k ih =>
    unfold capturePort
    split
    · exact .refl _
    · split
      · exact .refl _
      · split
        · exact .refl _
        · exact .ite (.refl _) (.ite ((modCut_keepsLinks ..).trans (ih _)) (readRange_keepsLinks ..))

theorem readPort_keepsLinks (p n k : Nat) (s : State) : KeepsLinks s (readPort p n k s) := by
  induction k generalizing s with
  | zero => exact .refl _
  | succ k ih =>
    unfold readPort
    split
    · exact .refl _
    · dsimp only
      split
      · exact .refl _
      · refine .ite (.refl _) (.ite (modBuild_keepsLinks ..) (.ite ((modBuild_keepsLinks ..).trans (ih _)) ?_))
        split
        · exact .refl _
        · exact ask_keepsLinks ..

theorem slathRun_keepsLinks (p k : Nat) (s : State) : KeepsLinks s (slathRun p k s) := by
  induction k generalizing s with
  | zero => exact .refl _
  | succ k ih =>
    unfold slathRun
    split
    · rename_i c _
      have asked : KeepsLinks s (if c.releasing then s
          else each (List.range 8) (fun n => capturePort p c.id n (c.ranges.length + 1)) s) :=
        .ite (.refl _) ((KeepsLinks.refl s).each fun _ _ => capturePort_keepsLinks ..)
      have caught : ∀ x t, KeepsLinks t (captured p x t) := fun x t => .of_still (captured_still ..) (captured_grows ..).out
      dsimp only
      split
      · exact asked
      · exact .ite asked (.ite ((asked.trans (modCut_keepsLinks ..)).trans (ih _)) ((asked.trans (caught ..)).trans (ih _)))
    · split
      · rename_i c _
        have asked : KeepsLinks s (each (List.range 8) (fun n => readPort p n (c.msgs.length + 1)) s) :=
          (KeepsLinks.refl s).each fun _ _ => readPort_keepsLinks ..
        have assigned : ∀ t, KeepsLinks t (assignCut p t) := fun t => .of_still (assignCut_still ..) (assignCut_grows ..).out
        exact .ite (.ite asked ((asked.trans (assigned _)).trans (ih _))) (.refl _)
      · exact .refl _

/-- A capture read that gets no answer ends its range. -/
theorem captureAnswer_fails_keepsLinks (p id i : Nat) (s : State) : KeepsLinks s (captureAnswer p id i 0xFF [] s) := by
  unfold captureAnswer
  extract_lets put writes next
  clear_value put next
  split
  · exact (modCut_keepsLinks ..).trans (slathRun_keepsLinks ..)
  · exact slathRun_keepsLinks ..

/-! ### A port that enters DOWN -/

theorem unanswered_keepsLinks (n : Nat) (r : OutReq) (st : Byte) (s : State) : KeepsLinks s (unanswered n r st s) := by
  unfold unanswered
  split
  · exact (failResends_keepsLinks ..).trans (twinChecks_keepsLinks _)
  · exact twinChecks_keepsLinks _
  · exact twinChecks_keepsLinks _
  · exact enumAnswered_keepsLinks ..
  · exact enumAnswered_keepsLinks ..
  · exact enumAnswered_keepsLinks ..
  · exact enumAnswered_keepsLinks ..
  · exact .of_only (watchApplyAnswer_only ..)
  · exact .of_only (synthAnswer_only ..)
  · exact (modBuild_keepsLinks ..).trans (slathRun_keepsLinks ..)
  · exact captureAnswer_fails_keepsLinks ..
  · exact .refl _

theorem requestLost_keepsLinks (n : Nat) (r : OutReq) (s : State) : KeepsLinks s (requestLost n r s) := by
  unfold requestLost
  split
  · split
    · exact .ite (regionAnswer_keepsLinks ..) (.ite (.of_only (modWork_only ..)) (requestFails_keepsLinks ..))
    · exact .refl _
  · exact unanswered_keepsLinks ..

/-! ### END latch points of a port that enters DOWN -/

theorem takeLatch_keepsLinks (p : Nat) (q : LatchReq) (s : State) : KeepsLinks s (takeLatch p q s) := by
  unfold takeLatch
  extract_lets x included words cfg new reprogram closed closeWords s1 s2 latch close s3 s4
  have written : ∀ (c : Bool) payload t, KeepsLinks t (if c then writeRec 6 p payload t else t) := fun _ _ _ =>
    .ite (writeRec_keepsLinks ..) (.refl _)
  have h1 : KeepsLinks s s1 := .of_only (modPart_only ..)
  have h2 : KeepsLinks s s2 := .ite ((h1.step (closeCounters_only ..)).step (modPart_only ..)) h1
  have records := (h2.trans (written q.record latch s2)).trans (written reprogram close _)
  have h3 : KeepsLinks s s3 := .ite (records.step (modPart_only ..)) records
  have h4 : KeepsLinks s3 s4 := by
    clear_value cfg s3
    cases cfg with
    | some c => exact complete_keepsLinks ..
    | none => exact .refl _
  exact (h3.trans h4).step (hubEvent_only ..)

theorem markerLatch_keepsLinks (p : Nat) (q : LatchReq) (s : State) : KeepsLinks s (markerLatch p q s) :=
  .ite (takeLatch_keepsLinks ..) (((KeepsLinks.of_only (modPart_only ..)).step (bumpAlways_only ..)).step (hubEvent_only ..))

theorem endsAtDown_keepsLinks (n : Nat) (s : State) : KeepsLinks s (endsAtDown n s) := by
  refine (KeepsLinks.refl s).each fun u t => ?_
  split
  · exact (KeepsLinks.of_only (modUnit_only ..)).each fun _ _ => markerLatch_keepsLinks ..
  · exact .refl _

theorem reinstall_keepsLinks (n : Nat) (s : State) : KeepsLinks s (reinstall n s) := by
  unfold reinstall
  split
  · exact .refl _
  · extract_lets _ put
    have putOnly : ∀ c, KeepsLinks s (put c) := fun c => .of_only (l := [.weave]) (upd_weave (.refl _ _) rfl)
    split
    · exact .ite ((putOnly _).change) (.ite (putOnly _) (.refl _))
    · exact .refl _

theorem linkRec_keepsLinks (n event : Nat) (s : State) : KeepsLinks s (linkRec n event s) :=
  (KeepsLinks.refl s).each fun _ _ => writeRec_keepsLinks ..

/-! ### DOWN -/

/-- A port as its link enters DOWN, before what the hub makes of it (R425). -/
def portLost (n cause : Nat) (fails : Bool) (s : State) : State :=
  modPort n (fun y => { y with lk := y.lk.toDown cause s.t fails, enum := none, enumerated := false, detachAt := none }) s

/-- Whatever follows the loss of a port's link leaves every link. -/
theorem portDown_keepsLinks (n cause : Nat) (count : Bool) (s : State) :
    KeepsLinks (portLost n cause (count && (s.port n).lk.link.trains) s) (portDown n cause count s) := by
  unfold portDown
  extract_lets x fails lost units waiting parts
  have lostAll := ((KeepsLinks.refl (portLost n cause fails s)).each (l := lost) fun r t => requestLost_keepsLinks n r t).step
    (linkDownCmds_only n _)
  have declared := lostAll.each (l := waiting) declareUnit_keepsLinks
  have ended := (declared.each (l := units) fun u t => .of_only (uncertain_only u t)).trans (endsAtDown_keepsLinks n _)
  have told := (ended.trans (linkRec_keepsLinks n 0 _)).trans (raiseErr_keepsLinks 8 2 n 0 cause 0 _)
  have cut := (told.each (l := parts) checkGather_keepsLinks).each (l := parts) fun p t => slathRun_keepsLinks p 64 t
  exact ((KeepsLinks.ite (cut.trans (reinstall_keepsLinks ..)) cut).trans (twinChecks_keepsLinks _)).trans
    (bootAdvance_keepsLinks _)

end Sys2Proof.Laws

/-!
SUPPORT. What a change of one link does and leaves, link control flits, and the entry of a link into DOWN.
-/

namespace Sys2Proof.Laws
open Sys2Proof Sys2Proof.Machine
set_option Elab.async false -- a thread per proof would not fit beside the model in the check's memory

/-! ### A change of one link -/

@[simp] theorem modLnk_fires (l : Nat) (g : Lnk → Lnk) (s : State) : (modLnk l g s).fires = s.fires :=
  Only.fires (modLnk_only ..) rfl
@[simp] theorem modLnk_out (l : Nat) (g : Lnk → Lnk) (s : State) : (modLnk l g s).out = s.out := Only.out (modLnk_only ..) rfl
@[simp] theorem modLnk_now (l : Nat) (g : Lnk → Lnk) (s : State) : (modLnk l g s).now = s.now := Only.now (modLnk_only ..) rfl
@[simp] theorem bumpAlways_lnk (i n : Nat) (s : State) (l : Nat) : (bumpAlways i n s).lnk l = s.lnk l := rfl

/-- The time is the timebase's. -/
theorem t_of_now {s u : State} (h : u.now = s.now) : u.t = s.t := congrArg BitVec.toNat h

@[simp] theorem modLnk_t (l : Nat) (g : Lnk → Lnk) (s : State) : (modLnk l g s).t = s.t := t_of_now (modLnk_now ..)

theorem lnk_of_port {n : Nat} (s : State) (h : n < 8) : s.lnk n = (s.port n).lk := if_neg (by omega)

theorem modLnk_port {n : Nat} (g : Lnk → Lnk) (s : State) (h : n < 8) :
    (modLnk n g s).port n = { s.port n with lk := g (s.port n).lk } := by
  rw [show modLnk n g s = modPort n (fun p => { p with lk := g p.lk }) s from if_neg (by omega), port_modPort _ _ _ h]

theorem modLnk_port_only {n : Nat} (g : Lnk → Lnk) (s : State) (h : n < 8) : Only [.ports] s (modLnk n g s) := by
  rw [show modLnk n g s = modPort n (fun p => { p with lk := g p.lk }) s from if_neg (by omega)]
  exact modPort_only ..

/-- The lane mode of a link, and the role that its peer must send, do not depend on the link layer. -/
theorem laneMode_modLnk (l : Nat) (g : Lnk → Lnk) (s : State) (k : Nat) : (modLnk l g s).laneMode k = s.laneMode k := by
  unfold modLnk
  split
  · rfl
  · have role : (modPort l (fun p => { p with lk := g p.lk }) s).roleCode = s.roleCode := by
      unfold State.roleCode
      rw [modPort_plait]
    have map : ((modPort l (fun p => { p with lk := g p.lk }) s).port k).warp = (s.port k).warp := by
      by_cases e : k = l
      · subst e
        by_cases b : k < 8
        · rw [port_modPort _ _ _ b]
        · rw [show modPort k _ s = s from dif_neg b]
      · rw [port_modPort_ne _ _ _ _ e]
    unfold State.laneMode
    rw [role, map]

/-! ### Link control flits -/

theorem sendCtl_lnk {l : Nat} (type sub : Nat) (body : List Byte) (s : State) (h : l < 9) :
    (sendCtl l type sub body s).lnk l = { s.lnk l with sinceCtl := 0 } := lnk_modLnk _ _ _ h

theorem sendCtl_port {n : Nat} (type sub : Nat) (body : List Byte) (s : State) (h : n < 8) :
    (sendCtl n type sub body s).port n = { s.port n with lk := { (s.port n).lk with sinceCtl := 0 } } := modLnk_port _ _ h

theorem sendCtl_out (l type sub : Nat) (body : List Byte) (s : State) : (sendCtl l type sub body s).out =
    s.out ++ [.control l (BitVec.ofNat 8 type) (BitVec.ofNat 8 sub) ((s.lnk l).ctlPayload type sub body)] := modLnk_out ..

theorem sendCtl_fires (l type sub : Nat) (body : List Byte) (s : State) : (sendCtl l type sub body s).fires = s.fires :=
  Only.fires (sendCtl_only ..) rfl

/-- A link control flit that was sent before the lattice settles has been driven. -/
theorem control_driven {l type sub : Nat} {body : List Byte} {s t : State} (h : (sendCtl l type sub body s).out <+: t.out) :
    ∃ b, Out.control l (BitVec.ofNat 8 type) (BitVec.ofNat 8 sub) b ∈ t.out :=
  ⟨_, h.subset (by rw [sendCtl_out]; exact List.mem_append_right _ (.head _))⟩

/-! ### DOWN of the Plait link (R980, R983) -/

/-- Where the pair stands once the Plait link is lost. -/
def pairAfterDown (x : PlaitCtl) : PairState :=
  if x.pair == .paired || (x.pair == .pairing && x.everPaired) then (if x.hbPresent then .split else .twinLost)
  else if x.pair == .split && !x.hbPresent then .twinLost
  else if x.pair == .pairing then .unpaired else x.pair

/-- The pair and its link as the Plait link is lost, with where the pair stands then. -/
def plaitLost (cause : Nat) (count : Bool) (pair : PairState) (s : State) : PlaitCtl :=
  { s.plait with lk := s.plait.lk.toDown cause s.t (count && s.plait.lk.link.trains), pair := pair, hello := none,
                 sentView := false, gotView := none, gotFast := false, settling := 0, enWait := [], imageBuf := [],
                 handoffIn := [] }

/-- A change of the pair, and what follows it. -/
theorem Still.onPlait {s t : State} {y : PlaitCtl} (h : Still { s with plait := y } t)
    (e : plaitStill y = plaitStill s.plait := by rfl) (k : lnkStill y.lk = lnkStill s.plait.lk := by rfl) : Still s t :=
  { h with plk := h.plk.trans k, plait := h.plait.trans e }

theorem plaitEvent_still (bit : Nat) (s : State) : Still s (plaitEvent bit s) := .onPlait (signalPfs_still ..)

theorem claimAll_still (s : State) : Still s (claimAll s) :=
  each_still (.refl s) fun _ _ => .ite (each_still (.refl _) fun _ _ => .ite (.refl _) (ask_still ..)) (.refl _)

theorem enterTwinLost_still (s : State) :
    Still { s with plait := { s.plait with pair := .twinLost } } (enterTwinLost s) :=
  (plaitEvent_still ..).trans (claimAll_still _)

theorem handoffLost_still (s : State) : Still s (handoffLost s) :=
  .onPlait (each_still (.refl _) fun _ _ => complete_still ..)

theorem pairEnds_still (st : Byte) (s : State) : Still s (pairEnds st s) := each_still (.refl s) fun _ _ => complete_still ..

/-- A hub whose Plait link is lost enters TWIN_LOST. -/
theorem enterTwinLost_lost {cause : Nat} {count : Bool} {pair : PairState} {s t : State}
    (h : Still { s with plait := plaitLost cause count pair s } t) :
    Still { s with plait := plaitLost cause count .twinLost s } (enterTwinLost t) := by
  have lost : Still { s with plait := plaitLost cause count .twinLost s } { t with plait := { t.plait with pair := .twinLost } } :=
    { h with plait := congrArg (fun x : PlaitStill => { x with pair := .twinLost }) h.plait }
  exact lost.trans (enterTwinLost_still t)

/-- What follows the loss of the Plait link leaves the link, and where the pair stands then. -/
theorem plaitDown_still (cause : Nat) (count : Bool) (s : State) :
    Still { s with plait := plaitLost cause count (pairAfterDown s.plait) s } (plaitDown cause count s) := by
  unfold plaitDown
  extract_lets x split pair y s1
  have told : Still { s with plait := plaitLost cause count pair s } s1 :=
    ((raiseErr_still ..).trans (handoffLost_still _)).trans (pairEnds_still ..)
  have after : pairAfterDown s.plait = if split then (if x.hbPresent then .split else .twinLost)
      else if x.pair == .split && !x.hbPresent then .twinLost else if x.pair == .pairing then .unpaired else x.pair := rfl
  by_cases c : split = true
  · rw [show pair = .split from if_pos c] at told
    rw [after, if_pos c, if_pos c]
    by_cases hb : x.hbPresent = true
    · rw [if_pos hb, if_pos hb]
      exact told.trans (plaitEvent_still ..)
    · rw [if_neg hb, if_neg hb]
      exact enterTwinLost_lost told
  · rw [after, if_neg c, if_neg c]
    by_cases lone : (x.pair == .split && !x.hbPresent) = true
    · rw [if_pos lone, if_pos lone]
      exact enterTwinLost_lost told
    · rw [if_neg lone, if_neg lone]
      rwa [show pair = if x.pair == .pairing then .unpaired else x.pair from if_neg c] at told

/-! ### DOWN of any link -/

theorem portLost_port {n : Nat} (cause : Nat) (fails : Bool) (s : State) (h : n < 8) : (portLost n cause fails s).port n =
    { s.port n with lk := (s.port n).lk.toDown cause s.t fails, enum := none, enumerated := false, detachAt := none } :=
  port_modPort _ _ _ h

theorem lnkStill_toDown_of_linkDown {l : Nat} (cause : Nat) (count : Bool) (s : State) (h : l < 9) :
    lnkStill ((linkDown l cause count s).lnk l) = lnkStill ((s.lnk l).toDown cause s.t (count && (s.lnk l).link.trains)) := by
  unfold linkDown
  split
  · next e =>
    subst e
    exact (plaitDown_still cause count s).plk
  · next e =>
    have b : l < 8 := by omega
    refine ((portDown_keepsLinks l cause count s).lnk l).trans ?_
    rw [lnk_of_port _ b, portLost_port _ _ _ b, lnk_of_port s b]

/-- Where a link stands once it has entered DOWN and the lattice has settled. -/
structure Downed (l cause since : Nat) (t : State) : Prop where
  link : (t.lnk l).link = .down
  downCause : (t.lnk l).downCause = BitVec.ofNat 4 cause
  since : (t.lnk l).since = since

theorem linkDown_downed {l : Nat} (cause : Nat) (count : Bool) (s : State) (h : l < 9) :
    Downed l cause s.t (settle (linkDown l cause count s)) := by
  have kept := ((settle_keepsLinks _).lnk l).trans (lnkStill_toDown_of_linkDown cause count s h)
  exact ⟨congrArg LnkStill.link kept, congrArg LnkStill.downCause kept, congrArg LnkStill.since kept⟩

theorem portDown_downed {n : Nat} (cause : Nat) (count : Bool) (s : State) (h : n < 8) :
    Downed n cause s.t (settle (portDown n cause count s)) := by
  have down := linkDown_downed cause count s (show n < 9 by omega)
  rwa [show linkDown n cause count s = portDown n cause count s from if_neg (by omega)] at down

/-- What a port that has entered DOWN knows, the lattice settled. -/
theorem portDown_view {n : Nat} (cause : Nat) (count : Bool) (s : State) (h : n < 8) :
    linkView ((settle (portDown n cause count s)).port n) =
      { linkView (s.port n) with lk := lnkStill ((s.port n).lk.toDown cause s.t (count && (s.port n).lk.link.trains)),
                                 detachAt := none } := by
  rw [((portDown_keepsLinks n cause count s).trans (settle_keepsLinks _)).port n, portLost_port _ _ _ h]
  rfl

theorem portDown_enumerated {n : Nat} (cause : Nat) (count : Bool) (s : State) (h : n < 8) :
    ((settle (portDown n cause count s)).port n).enumerated = false := by
  refine ((portDown_keepsLinks n cause count s).trans (settle_keepsLinks _)).enumerated n ?_
  rw [portLost_port _ _ _ h]

/-- What was driven before the port's link is lost stays driven. -/
theorem portDown_out (n cause : Nat) (count : Bool) (s : State) : s.out <+: (settle (portDown n cause count s)).out := by
  have kept := ((portDown_keepsLinks n cause count s).trans (settle_keepsLinks _)).out
  rwa [show (portLost n cause (count && (s.port n).lk.link.trains) s).out = s.out from modPort_out ..] at kept

end Sys2Proof.Laws

/-!
SUPPORT. The rows of the link's state table.
-/

namespace Sys2Proof.Laws
open Sys2Proof Sys2Proof.Machine
set_option Elab.async false -- a thread per proof would not fit beside the model in the check's memory

/-! ### Retrain -/

/-- The link layer as a retrain starts (R424). -/
def lnkRetraining (now : Nat) (x : Lnk) : Lnk :=
  { x with link := .retrain, since := now, tsSeen := 0, tsBad := 0, alignSeen := 0, resumed := false, exchOut := none }

theorem startRetrain_of_active {l : Nat} {s : State} (h : (s.lnk l).link = .active) : startRetrain l s =
    if l < 8 then bumpAlways (32 + l) 1 (modLnk l (lnkRetraining s.t) s) else modLnk l (lnkRetraining s.t) s :=
  if_pos (by rw [h]; rfl)

theorem startRetrain_lnk {l : Nat} {s : State} (b : l < 9) (h : (s.lnk l).link = .active) :
    (startRetrain l s).lnk l = lnkRetraining s.t (s.lnk l) := by
  rw [startRetrain_of_active h, apply_ite (State.lnk · l), bumpAlways_lnk, ite_self, lnk_modLnk _ _ _ b]

theorem startRetrain_fires (l : Nat) (s : State) : (startRetrain l s).fires = s.fires := Only.fires (startRetrain_only ..) rfl

theorem startRetrain_port_only {n : Nat} (s : State) (b : n < 8) : Only [.ports, .always] s (startRetrain n s) := by
  have counted : ∀ t, Only [.always] t (if n < 8 then bumpAlways (32 + n) 1 t else t) := fun t =>
    ite_only (bumpAlways_only ..) (.refl _ _)
  have only : Only [.ports, .always] s (modLnk n (lnkRetraining s.t) s) := (modLnk_port_only _ s b).within
  exact ite_only (only.andThen (counted _)) (.refl _ _)

/-- A port manager's write that only an arbiter's port manager may make. -/
theorem hostPut_of_pm {f : Nat} {g : State → State} {s : State} (opened : s.barOpen f = true) (pm : s.isArbiterPm f = true) :
    hostPut f (fun t => if t.isArbiterPm f then g t else t) s = g (bumpAlways (44 + fnPort f) 4 s) :=
  (hostPut_of_open opened).trans (if_pos pm)

/-- The lattice settled, a port in ACTIVE that a port manager retrains is in RETRAIN (R424, R437). -/
theorem retrain_runs {s : State} {n : HostPort} {p : Port} (opened : s.barOpen (64 + n.val) = true)
    (pm : s.isArbiterPm (64 + n.val) = true) (active : (s.lnk p.val).link = .active) (quiet : s.fires = []) :
    Runs (.retrain n p) s fun t => (t.lnk p.val).link = .retrain ∧ (t.lnk p.val).since = s.t ∧ (t.lnk p.val).exchOut = none ∧
      Only [.ports, .always] s t := by
  have b : p.val < 8 := p.isLt
  have starts : exec (.retrain n p) s = done (startRetrain p.val (bumpAlways (44 + fnPort (64 + n.val)) 4 s)) :=
    congrArg done (hostPut_of_pm opened pm)
  have lnk := startRetrain_lnk (s := bumpAlways (44 + fnPort (64 + n.val)) 4 s) (by omega) active
  exact Runs.quiet starts ((startRetrain_fires ..).trans quiet) ⟨congrArg Lnk.link lnk, congrArg Lnk.since lnk,
    congrArg Lnk.exchOut lnk, (bumpAlways_only ..).within.trans (startRetrain_port_only _ b)⟩

/-- A port manager takes a port down (R413, R437). -/
theorem forceDown_runs {s : State} {n : HostPort} {p : Port} (opened : s.barOpen (64 + n.val) = true)
    (pm : s.isArbiterPm (64 + n.val) = true) (live : (s.port p.val).lk.link.live = true) :
    Runs (.forceDown n p) s fun t => (t.lnk p.val).link = .down ∧ (t.lnk p.val).downCause = 7 ∧ (t.lnk p.val).since = s.t ∧
      (t.port p.val).enumerated = false := by
  have b : p.val < 8 := p.isLt
  have goesDown : exec (.forceDown n p) s = done (portDown p.val 7 false (bumpAlways (44 + fnPort (64 + n.val)) 4 s)) :=
    congrArg done ((hostPut_of_pm opened pm).trans (if_pos live))
  have down := portDown_downed 7 false (bumpAlways (44 + fnPort (64 + n.val)) 4 s) b
  exact Runs.of_done goesDown ⟨down.link, down.downCause, down.since, portDown_enumerated _ _ _ b⟩

/-- A training state that has exceeded its time limit ends in DOWN (R414). -/
theorem trainTimeout_runs {s : State} {l : LinkNo} {us : Nat} (limit : (s.lnk l.val).link.limitUs = some us)
    (late : s.after (s.lnk l.val).since us = true) :
    Runs (.trainTimeout l) s fun t => (t.lnk l.val).link = .down ∧
      (t.lnk l.val).downCause = BitVec.ofNat 4 (s.lnk l.val).timeoutCause ∧ (t.lnk l.val).since = s.t := by
  have goesDown : exec (.trainTimeout l) s = done (linkDown l.val (s.lnk l.val).timeoutCause true s) := by
    show execTrainTimeout l s = _
    unfold execTrainTimeout
    dsimp only
    rw [limit]
    exact if_pos late
  have down := linkDown_downed (s.lnk l.val).timeoutCause true s l.isLt
  exact Runs.of_done goesDown ⟨down.link, down.downCause, down.since⟩

/-! ### DETECT -/

/-- The Plait link's DOWN ends 1 ms later, its PLL locked (R413). -/
theorem downPeriodEnd_plait_runs {s : State} (down : s.plait.lk.link = .down) (late : s.after s.plait.lk.since 1000 = true)
    (locked : s.pllLocked 8 = true) :
    Runs (.downPeriodEnd 8) s fun t => t.plait.lk.link = .detect ∧ t.plait.lk.since = s.t ∧ t.plait.lk.lock = 0 := by
  have starts : exec (.downPeriodEnd 8) s = done (enterDetect 8 s) :=
    if_pos (by
      show ((s.plait.lk.link == .down) && s.after s.plait.lk.since 1000 && s.pllLocked 8) = true
      rw [down, late, locked]
      rfl)
  have kept := (settle_still (enterDetect 8 s)).plk
  exact Runs.of_done starts ⟨congrArg LnkStill.link kept, congrArg LnkStill.since kept, congrArg LnkStill.lock kept⟩

theorem startLink_detects {n : Nat} {s : State} (enabled : s.portDisabled n = false) (noScan : s.wantsScan n = false) :
    startLink n s = enterDetect n s := by
  unfold startLink
  extract_lets rest
  rw [if_neg (by rw [enabled]; decide), if_neg (by rw [noScan]; decide)]

/-- What a port that enters DETECT knows: its link starts afresh, its lanes follow its warp entry (R405, R437). -/
theorem enterDetect_port {n : Nat} (s : State) (b : n < 8) :
    ((enterDetect n s).port n).lk.link = .detect ∧ ((enterDetect n s).port n).lk.since = s.t ∧
      ((enterDetect n s).port n).lanes = lanesOf (s.laneMode n) := by
  unfold enterDetect
  extract_lets _ _ fresh s1
  rw [if_neg (show ¬ n = 8 by omega), port_modPort _ _ _ b, show s1.port n = _ from modLnk_port _ _ b]
  exact ⟨rfl, rfl, rfl⟩

/-- A port's DOWN ends 1 ms later, its PLL locked (R96, R413). -/
theorem downPeriodEnd_port_runs {s : State} {p : Port} (down : (s.port p.val).lk.link = .down)
    (late : s.after (s.port p.val).lk.since 1000 = true) (locked : s.pllLocked p.val = true)
    (enabled : s.portDisabled p.val = false) (noScan : s.wantsScan p.val = false) :
    Runs (.downPeriodEnd (p.castLE (by decide))) s fun t => (t.lnk p.val).link = .detect ∧ (t.lnk p.val).since = s.t ∧
      (t.port p.val).lanes = lanesOf (s.laneMode p.val) := by
  have b : p.val < 8 := p.isLt
  have starts : exec (.downPeriodEnd (p.castLE (by decide))) s = done (bootAdvance (enterDetect p.val s)) := by
    have due : ((s.lnk p.val).link == .down && s.after (s.lnk p.val).since 1000 && s.pllLocked p.val) = true := by
      rw [lnk_of_port s b, down, late, locked]
      rfl
    refine (if_pos due).trans (congrArg done ?_)
    rw [← startLink_detects enabled noScan]
    exact if_neg (show ¬ p.val = 8 by omega)
  have kept := ((bootAdvance_keepsLinks (enterDetect p.val s)).trans (settle_keepsLinks _)).port p.val
  obtain ⟨link, since, lanes⟩ := enterDetect_port s b
  refine Runs.of_done starts ?_
  rw [lnk_of_port _ b]
  exact ⟨(congrArg (·.lk.link) kept).trans link, (congrArg (·.lk.since) kept).trans since, (congrArg (·.lanes) kept).trans lanes⟩

/-! ### SYNC and ALIGN -/

/-- Block lock on every lane of the mode ends DETECT (R1091). -/
theorem blockLock_runs {s : State} {l : LinkNo} {lanes : BitVec 2} (detect : (s.lnk l.val).link = .detect)
    (all : ((s.lnk l.val).lock ||| lanes) &&& lanesOf (s.laneMode l.val) = lanesOf (s.laneMode l.val)) (quiet : s.fires = []) :
    Runs (.blockLock l lanes) s fun t => (t.lnk l.val).link = .sync ∧ (t.lnk l.val).since = s.t ∧
      (t.lnk l.val).lock = (s.lnk l.val).lock ||| lanes ∧ Only [.ports, .plait] s t := by
  have b := l.isLt
  refine Runs.quiet (if_pos ?_) (quiet ▸ modLnk_fires ..) ?_
  · rw [detect, all]
    exact Bool.and_eq_true_iff.mpr ⟨rfl, beq_self_eq_true _⟩
  · rw [lnk_modLnk _ _ _ b]
    exact ⟨rfl, rfl, rfl, modLnk_only ..⟩

/-- A TS that a link in SYNC takes on a lane in use. -/
theorem takeTs_in_sync {l lane : Nat} {role laneNo mode : Byte} {s : State} (sync : (s.lnk l).link = .sync)
    (used : (lanesOf (s.laneMode l)).getLsbD lane = true) : takeTs l lane true role laneNo mode 1 s =
      if role.toNat = s.peerRole l ∧ laneNo.toNat = lane ∧ mode.toNat = s.laneMode l then
        if (s.lnk l).tsSeen ||| (1#2 <<< lane) == lanesOf (s.laneMode l) then
          synced l (modLnk l (fun y => { y with tsSeen := (s.lnk l).tsSeen ||| (1#2 <<< lane) }) s)
        else modLnk l (fun y => { y with tsSeen := (s.lnk l).tsSeen ||| (1#2 <<< lane) }) s
      else modLnk l (fun y => { y with tsBad := y.tsBad ||| (1#2 <<< lane) }) s := by
  unfold takeTs
  extract_lets x use seen s1
  have taken : (!(x.link == .sync || (x.link == .retrain && !x.resumed && x.tsSeen != use)) || (1 : Byte) != 1 ||
      !use.getLsbD lane) = false := by
    rw [show x.link = .sync from sync, show use.getLsbD lane = true from used]
    rfl
  rw [if_neg (by rw [taken]; decide)]
  rfl

theorem tsBlockReceive_bad_runs {s : State} {l : LinkNo} {lane : Fin 2} {role no mode : Byte}
    (sync : (s.lnk l.val).link = .sync) (used : (lanesOf (s.laneMode l.val)).getLsbD lane.val = true)
    (bad : role.toNat ≠ s.peerRole l.val ∨ no.toNat ≠ lane.val ∨ mode.toNat ≠ s.laneMode l.val) (quiet : s.fires = []) :
    Runs (.tsBlockReceive l lane true role no mode 1) s fun t => (t.lnk l.val).link = .sync ∧
      (t.lnk l.val).tsBad = (s.lnk l.val).tsBad ||| (1#2 <<< lane.val) ∧ (t.lnk l.val).tsSeen = (s.lnk l.val).tsSeen := by
  have disagrees : ¬ (role.toNat = s.peerRole l.val ∧ no.toNat = lane.val ∧ mode.toNat = s.laneMode l.val) := by
    rintro ⟨hr, hn, hm⟩
    rcases bad with h | h | h
    · exact h hr
    · exact h hn
    · exact h hm
  have noted := congrArg done ((takeTs_in_sync sync used).trans (if_neg disagrees))
  refine Runs.quiet noted (quiet ▸ modLnk_fires ..) ?_
  rw [lnk_modLnk _ _ _ l.isLt]
  exact ⟨sync, rfl, rfl⟩

/-- A training link with both lanes in use aligns them next (R413). -/
theorem synced_aligns {l : Nat} {s : State} (both : s.laneMode l = 0) (training : (s.lnk l).link ≠ .retrain) :
    synced l s = modLnk l (fun x => { x with link := .align, since := s.t, alignSeen := 0 }) s :=
  (if_pos both).trans (if_neg (by simpa using training))

/-- Both lanes have answered TS2: they are aligned next (R413). -/
theorem tsBlockReceive_last_runs {s : State} {l : LinkNo} {lane : Fin 2} {role no : Byte}
    (sync : (s.lnk l.val).link = .sync) (both : s.laneMode l.val = 0) (hr : role.toNat = s.peerRole l.val)
    (hn : no.toNat = lane.val) (all : (s.lnk l.val).tsSeen ||| (1#2 <<< lane.val) = lanesOf (s.laneMode l.val))
    (quiet : s.fires = []) :
    Runs (.tsBlockReceive l lane true role no 0 1) s fun t => (t.lnk l.val).link = .align ∧ (t.lnk l.val).since = s.t ∧
      (t.lnk l.val).alignSeen = 0 := by
  have b := l.isLt
  have used : (lanesOf (s.laneMode l.val)).getLsbD lane.val = true := by
    have either : ∀ k : Fin 2, (lanesOf 0).getLsbD k.val = true := by decide
    rw [both]
    exact either lane
  have agrees : role.toNat = s.peerRole l.val ∧ no.toNat = lane.val ∧ (0 : Byte).toNat = s.laneMode l.val := ⟨hr, hn, both.symm⟩
  have goes := congrArg done (((takeTs_in_sync (mode := 0) sync used).trans (if_pos agrees)).trans
    ((if_pos (beq_iff_eq.mpr all)).trans (synced_aligns ((laneMode_modLnk ..).trans both) ?_)))
  · refine Runs.quiet goes (by simpa using quiet) ?_
    rw [lnk_modLnk _ _ _ b, modLnk_t]
    exact ⟨rfl, rfl, rfl⟩
  · rw [lnk_modLnk _ _ _ b, sync]
    decide

/-- An ALIGN block of a link in ALIGN that has not come on the other lane yet. -/
theorem alignBlockReceive_first_runs {s : State} {l : LinkNo} {lane : Fin 2} (align : (s.lnk l.val).link = .align)
    (more : (s.lnk l.val).alignSeen ||| (1#2 <<< lane.val) ≠ 3) (quiet : s.fires = []) :
    Runs (.alignBlockReceive l lane) s fun t =>
      (t.lnk l.val).alignSeen = (s.lnk l.val).alignSeen ||| (1#2 <<< lane.val) ∧ (t.lnk l.val).link = .align := by
  have notes : exec (.alignBlockReceive l lane) s =
      done (modLnk l.val (fun y => { y with alignSeen := (s.lnk l.val).alignSeen ||| (1#2 <<< lane.val) }) s) :=
    congrArg done ((if_pos (by rw [align]; rfl)).trans (if_neg (by simpa using more)))
  refine Runs.quiet notes (by simpa using quiet) ?_
  rw [lnk_modLnk _ _ _ l.isLt]
  exact ⟨rfl, align⟩

/-- The lanes of a link in RETRAIN are aligned: RESUME, with the number after the last accepted flit (R424). -/
theorem aligned_of_retrain {l : Nat} {s : State} (h : (s.lnk l).link = .retrain) : aligned l s =
    sendCtl l 6 0 (leBytes 2 ((s.lnk l).lastAccepted + 1).toNat)
      (modLnk l (fun x => { x with resumed := true, rxSeq := x.lastAccepted + 1, discarding := false }) s) :=
  if_pos (by rw [h]; rfl)

/-- The ALIGN block that ends a retrain's alignment (R424). -/
theorem alignBlockReceive_retrain_runs {s : State} {l : LinkNo} {lane : Fin 2} (retrain : (s.lnk l.val).link = .retrain)
    (both : s.laneMode l.val = 0) (waits : (s.lnk l.val).resumed = false) (ts : (s.lnk l.val).tsSeen = 3)
    (all : (s.lnk l.val).alignSeen ||| (1#2 <<< lane.val) = 3) (quiet : s.fires = []) :
    Runs (.alignBlockReceive l lane) s fun t => (t.lnk l.val).resumed = true ∧ (t.lnk l.val).link = .retrain ∧
      (t.lnk l.val).rxSeq = (s.lnk l.val).lastAccepted + 1 ∧ (t.lnk l.val).discarding = false ∧
      t.out = s.out ++ [.control l.val 6 0
        ((s.lnk l.val).ctlPayload 6 0 (leBytes 2 ((s.lnk l.val).lastAccepted + 1).toNat))] := by
  have b := l.isLt
  have aligns : exec (.alignBlockReceive l lane) s =
      done (aligned l.val (modLnk l.val (fun y => { y with alignSeen := (s.lnk l.val).alignSeen ||| (1#2 <<< lane.val) }) s)) :=
    congrArg done ((if_pos (by rw [retrain, both, waits, ts]; rfl)).trans (if_pos (by rw [all]; rfl)))
  have still : ∀ g : Lnk → Lnk, (g (s.lnk l.val)).link = .retrain → ((modLnk l.val g s).lnk l.val).link = .retrain :=
    fun g h => by rwa [lnk_modLnk _ _ _ b]
  rw [aligned_of_retrain (still _ retrain), lnk_modLnk _ _ _ b] at aligns
  refine Runs.quiet aligns (by rw [sendCtl_fires]; simpa using quiet) ?_
  rw [sendCtl_lnk _ _ _ _ b, sendCtl_out, lnk_modLnk _ _ _ b, lnk_modLnk _ _ _ b, modLnk_out, modLnk_out]
  exact ⟨rfl, retrain, rfl, rfl, rfl⟩

/-- A lane in use loses block lock in ACTIVE (R424). -/
theorem lockLoss_runs {s : State} {l : LinkNo} {lane : Fin 2} (active : (s.lnk l.val).link = .active)
    (used : (lanesOf (s.laneMode l.val)).getLsbD lane.val = true) (quiet : s.fires = []) :
    Runs (.lockLoss l lane) s fun t => (t.lnk l.val).link = .retrain ∧
      (t.lnk l.val).lock = (s.lnk l.val).lock &&& ~~~(1#2 <<< lane.val) := by
  have lost := lnk_modLnk l.val (fun x => { x with lock := x.lock &&& ~~~(1#2 <<< lane.val) }) s l.isLt
  have retrains := startRetrain_lnk l.isLt ((congrArg Lnk.link lost).trans active)
  refine Runs.quiet (congrArg done (if_pos used)) ((startRetrain_fires ..).trans (by simpa using quiet)) ?_
  rw [retrains, lost]
  exact ⟨rfl, rfl⟩

/-- Settles O46: each row moves its own link as the state table has it; what follows a link's loss leaves the link. -/
theorem linkStatesAct : Obligations.LinkStatesAct :=
  ⟨fun _ _ _ => retrain_runs, fun _ _ _ => forceDown_runs, fun _ _ _ => trainTimeout_runs, fun _ => downPeriodEnd_plait_runs,
    fun _ _ => downPeriodEnd_port_runs, fun _ _ _ => blockLock_runs, fun _ _ _ _ _ _ => tsBlockReceive_bad_runs,
    fun _ _ _ _ _ => tsBlockReceive_last_runs, fun _ _ _ => alignBlockReceive_first_runs,
    fun _ _ _ => alignBlockReceive_retrain_runs, fun _ _ _ => lockLoss_runs⟩

end Sys2Proof.Laws

/-!
SUPPORT. What a flit does as it arrives: its acknowledgement and credits, its number, the NAK, the replay and the resume.
-/

namespace Sys2Proof.Laws
open Sys2Proof Sys2Proof.Machine
set_option Elab.async false -- a thread per proof would not fit beside the model in the check's memory

/-! ### The header of a link control flit (R402, R404) -/

/-- A link layer with the acknowledgement and the credits of a link control flit taken (R404). -/
def lnkWithHdr (x : Lnk) (h : CtlHdr) (now : Nat) : Lnk :=
  let y := if h.ackValid then x.acked h.ack now else x
  { y with tx0 := y.tx0.credit (h.credits.extractLsb' 0 8), tx1 := y.tx1.credit (h.credits.extractLsb' 8 8),
           tx2 := y.tx2.credit (h.credits.extractLsb' 16 8) }

theorem lnkStill_acked (x : Lnk) (ack : BitVec 12) (now : Nat) : lnkStill (x.acked ack now) = lnkStill x := by
  unfold Lnk.acked
  split <;> rfl

theorem resumed_acked (x : Lnk) (ack : BitVec 12) (now : Nat) : (x.acked ack now).resumed = x.resumed := by
  unfold Lnk.acked
  split <;> rfl

theorem lnkStill_withHdr (x : Lnk) (h : CtlHdr) (now : Nat) : lnkStill (lnkWithHdr x h now) = lnkStill x := by
  have acked : lnkStill (if h.ackValid then x.acked h.ack now else x) = lnkStill x := by
    split
    · exact lnkStill_acked ..
    · rfl
  exact acked

theorem resumed_withHdr (x : Lnk) (h : CtlHdr) (now : Nat) : (lnkWithHdr x h now).resumed = x.resumed := by
  show (if h.ackValid then x.acked h.ack now else x).resumed = x.resumed
  split
  · exact resumed_acked ..
  · rfl

/-- The states in which a link takes the header of a link control flit. -/
def takesHdr (x : LinkState) : Bool := x == .timesync || x == .active || x == .retrain

theorem readHdr_eq (l : Nat) (h : CtlHdr) (s : State) : readHdr l h s =
    if takesHdr (s.lnk l).link = true then modLnk l (fun _ => lnkWithHdr (s.lnk l) h s.t) s else s := rfl

theorem readHdr_t (l : Nat) (h : CtlHdr) (s : State) : (readHdr l h s).t = s.t := t_of_now (Only.now (readHdr_only ..) rfl)

/-- A header leaves what the link's state table keeps, and whether a retrain has sent RESUME. -/
theorem readHdr_lnk (l : Nat) (h : CtlHdr) (s : State) (b : l < 9) :
    lnkStill ((readHdr l h s).lnk l) = lnkStill (s.lnk l) ∧ ((readHdr l h s).lnk l).resumed = (s.lnk l).resumed := by
  rw [readHdr_eq]
  split
  · rw [lnk_modLnk _ _ _ b]
    exact ⟨lnkStill_withHdr .., resumed_withHdr ..⟩
  · exact ⟨rfl, rfl⟩

theorem readHdr_keepsLinks (l : Nat) (h : CtlHdr) (s : State) : KeepsLinks s (readHdr l h s) := by
  rw [readHdr_eq]
  refine .ite ?_ (.refl _)
  exact .of_still (modLnk_still _ _ _ (lnkStill_withHdr ..)) (by rw [modLnk_out])

theorem pump_keepsLinks (l : Nat) (s : State) : KeepsLinks s (pump l s) := .of_still (pump_still ..) (pump_grows ..).out

/-- No flit goes out of a link that is not in ACTIVE. -/
theorem pump_of_idle {l : Nat} {s : State} (h : (s.lnk l).link ≠ .active) : pump l s = s := by
  unfold pump pumpLoop
  exact if_neg (by simp [h])

theorem takeHdr_keepsLinks (l : Nat) (h : CtlHdr) (s : State) : KeepsLinks s (takeHdr l h s) :=
  ((readHdr_keepsLinks l h s).trans (pump_keepsLinks ..)).trans (noteRuns_keepsLinks _)

theorem takeHdr_t (l : Nat) (h : CtlHdr) (s : State) : (takeHdr l h s).t = s.t := t_of_now (Only.now (takeHdr_only ..) rfl)

theorem noteRuns_lnk (s : State) (l : Nat) : (noteRuns s).lnk l = s.lnk l := by
  unfold State.lnk
  rw [Only.port (noteRuns_only s) rfl, (noteRuns_only s).same .plait (by decide)]

/-- A link that sends no flits takes a header, and nothing goes out. -/
theorem takeHdr_of_idle {l : Nat} {s : State} (h : CtlHdr) (b : l < 9) (idle : (s.lnk l).link ≠ .active) :
    takeHdr l h s = noteRuns (readHdr l h s) := by
  refine congrArg noteRuns (pump_of_idle ?_)
  rwa [show ((readHdr l h s).lnk l).link = _ from congrArg LnkStill.link (readHdr_lnk l h s b).1]

/-! ### A flit that arrives (R407) -/

theorem lnk_sequenced_of {x : Lnk} (h : x.link = .active ∨ x.link = .timesync) : x.sequenced = true := by
  unfold Lnk.sequenced
  rcases h with h | h <;> rw [h] <;> rfl

theorem takesFlits_of_sequenced {x : Lnk} (h : x.sequenced = true) : x.link.takesFlits = true := by
  unfold Lnk.sequenced at h
  cases e : x.link <;> simp [e] at h ⊢ <;> rfl

/-- A flit with a bad CRC in a link that takes flits. -/
theorem execFlitReceive_bad {s : State} {l : LinkNo} {flit : BitVec 288} (takes : (s.lnk l.val).link.takesFlits = true)
    (bad : flitGood (flitByteList flit) = false) : exec (.flitReceive l flit) s = done (badFlit l.val s) := by
  show execFlitReceive l flit s = _
  unfold execFlitReceive
  dsimp only
  rw [takes, bad]
  rfl

/-- A good sequenced flit in a link where they flow. -/
theorem execFlitReceive_seq {s : State} {l : LinkNo} {flit : BitVec 288} (flows : (s.lnk l.val).sequenced = true)
    (good : flitGood (flitByteList flit) = true) (notCtl : field (flitByteList flit) 0 1 % 8 ≠ 4) :
    exec (.flitReceive l flit) s = done (takeSeq l.val (flitByteList flit) s) := by
  show execFlitReceive l flit s = _
  unfold execFlitReceive
  dsimp only
  rw [takesFlits_of_sequenced flows, good, if_neg notCtl]
  rfl

/-- An error bit of a link leaves the rest of its state. -/
theorem setLinkErr_lnk {l : Nat} (bits : BitVec 3) (s : State) (b : l < 9) :
    lnkStill ((setLinkErr l bits s).lnk l) = { lnkStill (s.lnk l) with err := (s.lnk l).err ||| bits } := by
  unfold setLinkErr
  rw [lnk_modLnk _ _ _ b]
  rfl

theorem badFlit_runs {s : State} {l : LinkNo} {flit : BitVec 288}
    (up : (s.lnk l.val).link = .active ∨ (s.lnk l.val).link = .timesync) (bad : flitGood (flitByteList flit) = false) :
    Runs (.flitReceive l flit) s fun t => (t.lnk l.val).discarding = true ∧ (t.lnk l.val).err = (s.lnk l.val).err ||| 1 ∧
      (t.lnk l.val).lastAccepted = (s.lnk l.val).lastAccepted ∧ ∃ b, Out.control l.val 1 0 b ∈ t.out := by
  have flows := lnk_sequenced_of up
  let u := if l.val < 8 then bumpAlways (16 + l.val) 1 (setLinkErr l.val 1 s) else setLinkErr l.val 1 s
  have nak : badFlit l.val s = sendNak l.val u := if_pos flows
  have noted : lnkStill (u.lnk l.val) = { lnkStill (s.lnk l.val) with err := (s.lnk l.val).err ||| 1 } := by
    rw [show u.lnk l.val = _ from apply_ite (State.lnk · l.val) .., bumpAlways_lnk, ite_self]
    exact setLinkErr_lnk 1 s l.isLt
  have kept := settle_keepsLinks (sendNak l.val u)
  have link := kept.lnk l.val
  rw [show (sendNak l.val u).lnk l.val = _ from sendCtl_lnk _ _ _ _ l.isLt, lnk_modLnk _ _ _ l.isLt] at link
  have view := link.trans (congrArg (fun x : LnkStill => { x with discarding := true }) noted)
  refine Runs.of_done (execFlitReceive_bad (takesFlits_of_sequenced flows) bad) ?_
  rw [nak]
  exact ⟨congrArg LnkStill.discarding view, congrArg LnkStill.err view, congrArg LnkStill.lastAccepted view,
    control_driven kept.out⟩

/-- A number that has been accepted is dropped (R407). -/
theorem repeatedFlit_runs {s : State} {l : LinkNo} {flit : BitVec 288} (flows : (s.lnk l.val).sequenced = true)
    (good : flitGood (flitByteList flit) = true) (notCtl : field (flitByteList flit) 0 1 % 8 ≠ 4)
    (takes : (s.lnk l.val).discarding = false) (other : (s.lnk l.val).rxSeq ≠ (s.lnk l.val).lastAccepted + 1)
    (old : ((s.lnk l.val).lastAccepted - (s.lnk l.val).rxSeq).toNat < 256) (quiet : s.fires = []) :
    Runs (.flitReceive l flit) s fun t => (t.lnk l.val).rxSeq = (s.lnk l.val).rxSeq + 1 ∧
      (t.lnk l.val).lastAccepted = (s.lnk l.val).lastAccepted ∧ t.out = s.out ∧ Only [.ports, .plait] s t := by
  have drops : takeSeq l.val (flitByteList flit) s = modLnk l.val (fun y => { y with rxSeq := y.rxSeq + 1 }) s :=
    (if_neg (by rw [flows, takes]; decide)).trans ((if_neg (by simpa using other)).trans (if_pos old))
  refine Runs.quiet ((execFlitReceive_seq flows good notCtl).trans (congrArg done drops)) (by simpa using quiet) ?_
  rw [lnk_modLnk _ _ _ l.isLt]
  exact ⟨rfl, rfl, modLnk_out .., modLnk_only ..⟩

/-- The next number is delivered (R407). -/
theorem takeSeq_next {l : Nat} {b : List Byte} {s : State} (flows : (s.lnk l).sequenced = true)
    (takes : (s.lnk l).discarding = false) (next : (s.lnk l).rxSeq = (s.lnk l).lastAccepted + 1) : takeSeq l b s =
      deliverFlit l b (modLnk l (fun x => { x with lastAccepted := (s.lnk l).rxSeq })
        (modLnk l (fun x => { x with rxSeq := x.rxSeq + 1 }) s)) :=
  (if_neg (by rw [flows, takes]; decide)).trans (if_pos (beq_iff_eq.mpr next))

/-! ### NAK, replay and resume (R407, R409, R410, R424) -/

theorem takeNak_of_sequenced {l : Nat} {seq : BitVec 12} {s : State} (flows : (s.lnk l).sequenced = true) :
    takeNak l seq s = replay l (seq + 1) (modLnk l (fun x => x.acked seq s.t) s) := if_pos flows

theorem sequenced_readHdr (l : Nat) (h : CtlHdr) (s : State) (b : l < 9) :
    ((readHdr l h s).lnk l).sequenced = (s.lnk l).sequenced := by
  obtain ⟨still, resumed⟩ := readHdr_lnk l h s b
  unfold Lnk.sequenced
  rw [show ((readHdr l h s).lnk l).link = _ from congrArg LnkStill.link still, resumed]
  rfl

theorem execNak_replays {s : State} {l : LinkNo} (hdr : CtlHdr) (seq : BitVec 12) (flows : (s.lnk l.val).sequenced = true) :
    exec (.nak l hdr seq) s = .next (settle (noteRuns (pump l.val (replay l.val (seq + 1)
      (modLnk l.val (fun x => x.acked seq s.t) (readHdr l.val hdr s)))))) := by
  have takes := takeNak_of_sequenced (seq := seq) ((sequenced_readHdr l.val hdr s l.isLt).trans flows)
  rw [readHdr_t] at takes
  exact congrArg (fun u => done (noteRuns (pump l.val u))) takes

/-- REPLAY_START names the number that comes next (R407). -/
theorem replayStart_runs (s : State) (l : LinkNo) (hdr : CtlHdr) (first : BitVec 12) : Runs (.replayStart l hdr first) s fun t =>
    (t.lnk l.val).discarding = false ∧ (t.lnk l.val).rxSeq = first ∧ (t.lnk l.val).lastAccepted = (s.lnk l.val).lastAccepted := by
  have hdrKept := (takeHdr_keepsLinks l.val hdr s).lnk l.val
  have link := (settle_keepsLinks (takeReplayStart l.val first (takeHdr l.val hdr s))).lnk l.val
  rw [show (takeReplayStart l.val first _).lnk l.val = _ from lnk_modLnk _ _ _ l.isLt] at link
  exact Runs.of_done rfl ⟨congrArg LnkStill.discarding link, congrArg LnkStill.rxSeq link,
    (congrArg LnkStill.lastAccepted link).trans (congrArg LnkStill.lastAccepted hdrKept)⟩

/-- Flits that have stood unacknowledged for 2 µs are sent again (R410). -/
theorem execAckTimeoutReplay_replays {s : State} {l : LinkNo} {e : BitVec 12 × Flit} {rest : List (BitVec 12 × Flit)}
    (window : (s.lnk l.val).unacked = e :: rest) (active : (s.lnk l.val).link = .active)
    (late : s.after (s.lnk l.val).ackAt 2 = true) :
    exec (.ackTimeoutReplay l) s = .next (settle (replay l.val e.1 s)) := by
  show execAckTimeoutReplay l s = _
  unfold execAckTimeoutReplay
  dsimp only
  rw [window]
  exact if_pos (by rw [active, late]; rfl)

/-- In TIMESYNC a link control flit's acknowledgement and credits are taken, and no flit goes out (R404). -/
theorem execLinkControlIdle_in_timesync {s : State} {l : LinkNo} (hdr : CtlHdr) (h : (s.lnk l.val).link = .timesync) :
    exec (.linkControlIdle l hdr) s =
      .next (settle (noteRuns (modLnk l.val (fun _ => lnkWithHdr (s.lnk l.val) hdr s.t) s))) := by
  have takes := takeHdr_of_idle hdr l.isLt (by rw [h]; decide : (s.lnk l.val).link ≠ .active)
  rw [readHdr_eq, if_pos (by rw [h]; rfl)] at takes
  exact congrArg done takes

/-- What a resend and the records of a resume leave of a link: its state and its receiver's numbers. -/
def rxView (x : Lnk) : LnkStill := { lnkStill x with err := 0 }

theorem sendAgain_keepsLinks (l : Nat) (f : Flit) (s : State) : KeepsLinks s (sendAgain l f s) := by
  have counted : KeepsLinks s (modLnk l (fun x => { x with sinceCtl := x.sinceCtl + 1 }) s) :=
    .of_still (modLnk_still _ _ _ rfl) (by rw [modLnk_out])
  have put : ∀ t, KeepsLinks t (putFlit l f t) := fun t => .of_out (putFlit_only ..) (putFlit_grows ..).out
  have slot : ∀ t, KeepsLinks t (controlSlot l t) := fun t => .of_still (controlSlot_still ..) (controlSlot_grows ..).out
  exact (counted.trans (put _)).trans (slot _)

theorem resend_rxView (l : Nat) (first : BitVec 12) (s : State) (b : l < 9) :
    rxView ((resend l first s).lnk l) = rxView (s.lnk l) := by
  unfold resend
  extract_lets again
  have kept : KeepsLinks s (each again (fun e => sendAgain l e.2) s) :=
    (KeepsLinks.refl s).each fun e t => sendAgain_keepsLinks l e.2 t
  have sent : rxView ((each again (fun e => sendAgain l e.2) s).lnk l) = rxView (s.lnk l) :=
    congrArg (fun x : LnkStill => { x with err := 0 }) (kept.lnk l)
  by_cases none : again.isEmpty = true
  · exact (congrArg (fun t : State => rxView (t.lnk l)) (if_pos none)).trans sent
  · refine (congrArg (fun t : State => rxView (t.lnk l)) (if_neg none)).trans (Eq.trans ?_ sent)
    exact congrArg (fun x : LnkStill => { x with err := 0 }) (setLinkErr_lnk 2 _ b)

theorem timesyncRec_keepsLinks (l : Nat) (resumed : Bool) (s : State) : KeepsLinks s (timesyncRec l resumed s) := by
  have noted : KeepsLinks s (modLnk l (fun x => { x with recOffset := x.offset, recAt := s.t }) s) :=
    .of_still (modLnk_still _ _ _ rfl) (by rw [modLnk_out])
  exact noted.each fun _ _ => writeRec_keepsLinks ..

/-- The peer's RESUME in a retrain that has sent its own (R424). -/
theorem takeResume_lnk {l : Nat} {s : State} (next : BitVec 12) (b : l < 9) (retrain : (s.lnk l).link = .retrain)
    (sent : (s.lnk l).resumed = true) :
    rxView ((takeResume l next s).lnk l) = { rxView (s.lnk l) with link := .active, since := s.t } := by
  unfold takeResume
  extract_lets x back rec_
  have taken : (x.link == .retrain && x.resumed) = true := by
    rw [show x.link = .retrain from retrain, show x.resumed = true from sent]
    rfl
  rw [if_pos taken]
  have record : ∀ t, KeepsLinks t (if rec_ then timesyncRec l true t else t) := fun t => .ite (timesyncRec_keepsLinks ..) (.refl _)
  have after : ∀ t, KeepsLinks t (noteRuns (pump l t)) := fun t => (pump_keepsLinks l t).trans (noteRuns_keepsLinks _)
  have view : ∀ {t u : State}, KeepsLinks t u → rxView (u.lnk l) = rxView (t.lnk l) := fun k =>
    congrArg (fun x : LnkStill => { x with err := 0 }) (k.lnk l)
  refine (view (after _)).trans ((resend_rxView l next _ b).trans ((view (record _)).trans ?_))
  rw [lnk_modLnk _ _ _ b]
  exact congrArg (fun x : LnkStill => { x with err := 0, link := .active, since := s.t }) (lnkStill_acked x (next - 1) s.t)

theorem linkResumeFlit_runs {s : State} {l : LinkNo} (hdr : CtlHdr) (next : BitVec 12) (retrain : (s.lnk l.val).link = .retrain)
    (sent : (s.lnk l.val).resumed = true) :
    Runs (.linkResumeFlit l hdr next) s fun t => (t.lnk l.val).link = .active ∧ (t.lnk l.val).since = s.t ∧
      (t.lnk l.val).discarding = (s.lnk l.val).discarding ∧ (t.lnk l.val).rxSeq = (s.lnk l.val).rxSeq ∧
      (t.lnk l.val).lastAccepted = (s.lnk l.val).lastAccepted := by
  have b := l.isLt
  have hdrKept := (takeHdr_keepsLinks l.val hdr s).lnk l.val
  have sent' : ((takeHdr l.val hdr s).lnk l.val).resumed = true := by
    rw [takeHdr_of_idle hdr b (by rw [retrain]; decide), noteRuns_lnk, (readHdr_lnk l.val hdr s b).2, sent]
  have resumed := takeResume_lnk next b ((congrArg LnkStill.link hdrKept).trans retrain) sent'
  have settled := congrArg (fun x : LnkStill => { x with err := 0 })
    ((settle_keepsLinks (takeResume l.val next (takeHdr l.val hdr s))).lnk l.val)
  have view := settled.trans resumed
  have discarding := congrArg LnkStill.discarding hdrKept
  have rxSeq := congrArg LnkStill.rxSeq hdrKept
  have lastAccepted := congrArg LnkStill.lastAccepted hdrKept
  rw [takeHdr_t] at view
  refine Runs.of_done rfl ⟨congrArg LnkStill.link view, congrArg LnkStill.since view,
    (congrArg LnkStill.discarding view).trans discarding, (congrArg LnkStill.rxSeq view).trans rxSeq,
    (congrArg LnkStill.lastAccepted view).trans lastAccepted⟩

/-- Settles O50: each row changes its own link's numbers; the flits, the records and the lattice behind it leave them. -/
theorem flitsAndReplaysAct : Obligations.FlitsAndReplaysAct := by
  unfold Obligations.FlitsAndReplaysAct
  refine ⟨fun _ _ _ => badFlit_runs, fun s l flit idle quiet => ?_, fun _ _ _ => repeatedFlit_runs,
    fun s l flit flows good notCtl drops quiet => ?_, fun s l flit flows good notCtl takes next => ?_,
    fun _ _ hdr seq => execNak_replays hdr seq, replayStart_runs, fun _ _ _ _ => execAckTimeoutReplay_replays,
    fun _ _ hdr timesync _ => execLinkControlIdle_in_timesync hdr timesync, fun _ _ hdr next => linkResumeFlit_runs hdr next⟩
  · exact (if_pos (by rw [idle]; rfl)).trans (done_quiet quiet)
  · have dropped : takeSeq l.val (flitByteList flit) s = s := if_pos (by rw [drops, Bool.or_true])
    rw [execFlitReceive_seq flows good notCtl, dropped]
    exact done_quiet quiet
  · rw [execFlitReceive_seq flows good notCtl, takeSeq_next flows takes next]
    rfl

end Sys2Proof.Laws

/-!
SUPPORT. CONFIG and the time exchange of a link.
-/

namespace Sys2Proof.Laws
open Sys2Proof Sys2Proof.Machine
set_option Elab.async false -- a thread per proof would not fit beside the model in the check's memory

/-! ### Exchanges (R418 to R420) -/

/-- The exchange that a link starts, its number and T1, and when. -/
theorem startExchange_lnk {l : Nat} (s : State) (b : l < 9) :
    ((startExchange l s).lnk l).exchOut = some ((s.lnk l).exchNo + 1, s.now) ∧
      ((startExchange l s).lnk l).exchNo = (s.lnk l).exchNo + 1 ∧ ((startExchange l s).lnk l).lastExchange = s.t ∧
      ((startExchange l s).lnk l).link = (s.lnk l).link ∧ ((startExchange l s).lnk l).since = (s.lnk l).since := by
  unfold startExchange
  extract_lets grow no
  rw [sendCtl_lnk _ _ _ _ b, lnk_modLnk _ _ _ b]
  exact ⟨rfl, rfl, rfl, rfl, rfl⟩

theorem startExchange_fires (l : Nat) (s : State) : (startExchange l s).fires = s.fires := Only.fires (startExchange_only ..) rfl

/-- TIMESYNC_REQ carries the exchange's number. -/
theorem startExchange_out (l : Nat) (s : State) : ∃ b, (startExchange l s).out =
    s.out ++ [.control l 4 (BitVec.ofNat 8 ((s.lnk l).exchNo + 1).toNat) b] :=
  ⟨_, (sendCtl_out ..).trans (congrArg (· ++ _) (modLnk_out ..))⟩

/-- Outside TIMESYNC the end of an exchange adds it to the last 16, whatever it records (R419). -/
theorem exchangeDone_lnk {l : Nat} {s : State} (e : Exchange) (b : l < 9) (up : (s.lnk l).link ≠ .timesync) :
    ((exchangeDone l e s).lnk l).exchOut = none ∧ ((exchangeDone l e s).lnk l).exchDone = (s.lnk l).exchDone + 1 ∧
      ((exchangeDone l e s).lnk l).exchanges = ((s.lnk l).exchanges ++ [e]).drop ((s.lnk l).exchanges.length + 1 - 16) := by
  unfold exchangeDone
  extract_lets x ex best n enters inForce s1 y moved may
  have ended : (s1.lnk l).exchOut = none ∧ (s1.lnk l).exchDone = n ∧ (s1.lnk l).exchanges = ex := by
    have inner := lnk_modLnk l (fun y => { y with exchanges := ex, exchOut := none, exchDone := n }) s b
    by_cases f : inForce = true
    · rw [show s1 = _ from if_pos f, lnk_modLnk _ _ _ b, inner]
      exact ⟨rfl, rfl, rfl⟩
    · rw [show s1 = _ from if_neg f, inner]
      exact ⟨rfl, rfl, rfl⟩
  have recorded : KeepsLinks s1 (modLnk l (fun z => { z with recResumed := false }) (timesyncRec l y.recResumed s1)) :=
    (timesyncRec_keepsLinks ..).trans (.of_still (modLnk_still _ _ _ rfl) (by rw [modLnk_out]))
  rw [if_neg (show ¬ (x.link == .timesync) = true by simpa using up)]
  have link := (KeepsLinks.ite (c := (may && (moved || y.recResumed)) = true) recorded (.refl _)).lnk l
  exact ⟨(congrArg LnkStill.exchOut link).trans ended.1, (congrArg LnkStill.exchDone link).trans ended.2.1,
    (congrArg LnkStill.exchanges link).trans ended.2.2⟩

/-! ### CONFIG (R416, R417, R430) -/

/-- A link in CONFIG takes nothing of a header. -/
theorem takeHdr_in_config {n : Nat} {s : State} (hdr : CtlHdr) (b : n < 8) (config : (s.port n).lk.link = .config) :
    takeHdr n hdr s = noteRuns s := by
  have link : (s.lnk n).link = .config := by rw [lnk_of_port s b, config]
  rw [takeHdr_of_idle hdr (by omega) (by rw [link]; decide), readHdr_eq, if_neg (by rw [link]; decide)]

theorem noteRuns_port (s : State) (n : Nat) : (noteRuns s).port n = s.port n := Only.port (noteRuns_only s) rfl n

/-- The UID of any CONFIG is noted. -/
theorem noteUid_port {n : Nat} (uid : W64) (s : State) (b : n < 8) :
    ((noteUid n uid s).port n).lk = (s.port n).lk ∧ ((noteUid n uid s).port n).lastUid = some uid ∧
      ((s.port n).lastUid ≠ some uid → ((noteUid n uid s).port n).newDie = true) := by
  unfold noteUid
  rw [port_modPort _ _ _ b]
  split
  · next same => exact ⟨rfl, beq_iff_eq.mp same, fun other => absurd (beq_iff_eq.mp same) other⟩
  · exact ⟨rfl, rfl, fun _ => rfl⟩

/-- A port's CONFIG while its link is in CONFIG. -/
theorem execConfig_in_config {s : State} {p : Port} (hdr : CtlHdr) (seen : Bool) (b : ConfigBody)
    (config : (s.port p.val).lk.link = .config) :
    exec (.config (p.castLE (by decide)) hdr seen b) s = done (takeConfig p.val seen b (noteRuns s)) :=
  congrArg (fun t => done (takeConfig p.val seen b t)) (takeHdr_in_config hdr p.isLt config)

theorem config_bad_runs {s : State} {p : Port} (hdr : CtlHdr) (seen : Bool) {b : ConfigBody}
    (config : (s.port p.val).lk.link = .config) (bad : badConfig b = true) :
    Runs (.config (p.castLE (by decide)) hdr seen b) s fun t => (t.lnk p.val).link = .down ∧ (t.lnk p.val).downCause = 3 ∧
      (t.port p.val).lastUid = some b.uid ∧ ((s.port p.val).lastUid ≠ some b.uid → (t.port p.val).newDie = true) := by
  have h : p.val < 8 := p.isLt
  have inConfig : (noteRuns s).lnk p.val = (s.port p.val).lk := (noteRuns_lnk ..).trans (lnk_of_port s h)
  have rejects : takeConfig p.val seen b (noteRuns s) = portDown p.val 3 true (noteUid p.val b.uid (noteRuns s)) := by
    refine (if_neg (by rw [inConfig, config]; decide)).trans ((if_pos ?_).trans (if_neg (by omega)))
    rw [bad, decide_eq_true h]
    rfl
  have down := portDown_downed 3 true (noteUid p.val b.uid (noteRuns s)) h
  have view := portDown_view 3 true (noteUid p.val b.uid (noteRuns s)) h
  obtain ⟨_, uid, newDie⟩ := noteUid_port b.uid (noteRuns s) h
  rw [noteRuns_port] at newDie
  refine Runs.of_done (execConfig_in_config hdr seen b config) ?_
  rw [rejects]
  exact ⟨down.link, down.downCause, (congrArg PortStill.lastUid view).trans uid,
    fun other => (congrArg PortStill.newDie view).trans (newDie other)⟩

/-- A port as a good CONFIG is noted and answered. -/
def configTaken (n : Nat) (seen : Bool) (b : ConfigBody) (s : State) : State :=
  sendConfig n (modLnk n (fun x => { x with cfgSeen := true, cfgPeerSeen := x.cfgPeerSeen || seen })
    (notePeer n b (noteUid n b.uid s)))

/-- What a good CONFIG leaves of a port (R437). -/
theorem configTaken_port {n : Nat} (seen : Bool) (b : ConfigBody) (s : State) (h : n < 8) :
    (configTaken n seen b s).port n = { (noteUid n b.uid s).port n with
      lk := { ((noteUid n b.uid s).port n).lk with
                cfgSeen := true, cfgPeerSeen := ((noteUid n b.uid s).port n).lk.cfgPeerSeen || seen, sinceCtl := 0 },
      peerUnits := BitVec.ofNat 13 (min 4096 b.unitCount.toNat), peerCaps := b.caps.setWidth 3, uid := b.uid,
      tickFs := b.tickFs, lostEvents := b.lostEvents } := by
  unfold configTaken sendConfig notePeer
  rw [sendCtl_port _ _ _ _ h, modLnk_port _ _ h, port_modPort _ _ _ h]

theorem configTaken_now (n : Nat) (seen : Bool) (b : ConfigBody) (s : State) : (configTaken n seen b s).now = s.now :=
  (Only.now (sendConfig_only ..) rfl).trans ((modLnk_now ..).trans
    ((Only.now (notePeer_only ..) rfl).trans (Only.now (noteUid_only ..) rfl)))

/-- The answer to a CONFIG that has been seen says so. -/
theorem sendConfig_driven {l : Nat} {s t : State} (seen : (s.lnk l).cfgSeen = true) (h : (sendConfig l s).out <+: t.out) :
    ∃ d, Out.control l 3 1 d ∈ t.out := by
  unfold sendConfig at h
  rw [seen] at h
  exact control_driven (type := 3) (sub := 1) h

theorem configTaken_sends {n : Nat} (seen : Bool) (b : ConfigBody) (s : State) (h : n < 8) :
    ∃ d, Out.control n 3 1 d ∈ (settle (configTaken n seen b s)).out := by
  refine sendConfig_driven ?_ (settle_keepsLinks (configTaken n seen b s)).out
  rw [lnk_modLnk _ _ _ (by omega)]

theorem takeConfig_good {n : Nat} {seen : Bool} {b : ConfigBody} {s : State} (h : n < 8)
    (config : (s.lnk n).link = .config) (good : badConfig b = false) : takeConfig n seen b s =
      if seen then enterTimesync n b (configTaken n seen b s) else configTaken n seen b s := by
  refine (if_neg (by rw [config]; decide)).trans ((if_neg (by rw [good, Bool.and_false]; decide)).trans ?_)
  rw [if_pos h]
  rfl

theorem config_first_runs {s : State} {p : Port} (hdr : CtlHdr) {b : ConfigBody} (config : (s.port p.val).lk.link = .config)
    (good : badConfig b = false) :
    Runs (.config (p.castLE (by decide)) hdr false b) s fun t => (t.lnk p.val).link = .config ∧ (t.lnk p.val).cfgSeen = true ∧
      (∃ d, Out.control p.val 3 1 d ∈ t.out) ∧ (t.port p.val).uid = b.uid ∧ (t.port p.val).tickFs = b.tickFs ∧
      (t.port p.val).peerCaps = b.caps.setWidth 3 ∧
      (t.port p.val).peerUnits = BitVec.ofNat 13 (min 4096 b.unitCount.toNat) := by
  have h : p.val < 8 := p.isLt
  have taken := takeConfig_good (seen := false) h
    ((congrArg Lnk.link ((noteRuns_lnk s p.val).trans (lnk_of_port s h))).trans config) good
  have view := (settle_keepsLinks (configTaken p.val false b (noteRuns s))).port p.val
  rw [configTaken_port false b _ h] at view
  obtain ⟨lk, _, _⟩ := noteUid_port b.uid (noteRuns s) h
  rw [noteRuns_port] at lk
  refine Runs.of_done (execConfig_in_config hdr false b config) ?_
  rw [taken, if_neg (by decide), lnk_of_port _ h]
  exact ⟨(congrArg (·.lk.link) view).trans ((congrArg Lnk.link lk).trans config), congrArg (·.lk.cfgSeen) view,
    configTaken_sends false b (noteRuns s) h, congrArg PortStill.uid view, congrArg PortStill.tickFs view,
    congrArg PortStill.peerCaps view, congrArg PortStill.peerUnits view⟩

/-- A link that enters TIMESYNC starts its first exchange (R395, R418). -/
theorem enterTimesync_lnk {l : Nat} (b : ConfigBody) (s : State) (h : l < 9) :
    ((enterTimesync l b s).lnk l).link = .timesync ∧ ((enterTimesync l b s).lnk l).since = s.t ∧
      ((enterTimesync l b s).lnk l).exchOut = some ((s.lnk l).exchNo + 1, s.now) := by
  unfold enterTimesync
  extract_lets tx _ rx
  obtain ⟨out, -, -, link, since⟩ := startExchange_lnk (modLnk l (fun x =>
    { x with link := .timesync, since := s.t, exchDone := 0, exchanges := [], tx0 := tx x.tx0 0, tx1 := tx x.tx1 1,
             tx2 := tx x.tx2 2, rx0 := rx 0, rx1 := rx 0, rx2 := rx 256, rx3 := rx (if l = 8 then 0 else 768) }) s) h
  rw [lnk_modLnk _ _ _ h] at out link since
  exact ⟨link, since, out.trans (by rw [modLnk_now])⟩

theorem enterTimesync_uid {n : Nat} (b : ConfigBody) (s : State) (h : n < 8) :
    ((enterTimesync n b s).port n).uid = (s.port n).uid := by
  unfold enterTimesync startExchange
  rw [sendCtl_port _ _ _ _ h, modLnk_port _ _ h, modLnk_port _ _ h]

theorem config_last_runs {s : State} {p : Port} (hdr : CtlHdr) {b : ConfigBody} (config : (s.port p.val).lk.link = .config)
    (good : badConfig b = false) :
    Runs (.config (p.castLE (by decide)) hdr true b) s fun t => (t.lnk p.val).link = .timesync ∧ (t.lnk p.val).since = s.t ∧
      (t.lnk p.val).exchOut = some ((s.lnk p.val).exchNo + 1, s.now) ∧ (t.port p.val).uid = b.uid := by
  have h : p.val < 8 := p.isLt
  have taken := takeConfig_good (seen := true) h
    ((congrArg Lnk.link ((noteRuns_lnk s p.val).trans (lnk_of_port s h))).trans config) good
  have u := configTaken_port true b (noteRuns s) h
  obtain ⟨lk, _, _⟩ := noteUid_port b.uid (noteRuns s) h
  obtain ⟨link, since, out⟩ := enterTimesync_lnk b (configTaken p.val true b (noteRuns s)) (show p.val < 9 by omega)
  have kept := settle_keepsLinks (enterTimesync p.val b (configTaken p.val true b (noteRuns s)))
  have now := (configTaken_now p.val true b (noteRuns s)).trans (Only.now (noteRuns_only s) rfl)
  have exchNo : ((configTaken p.val true b (noteRuns s)).lnk p.val).exchNo = (s.lnk p.val).exchNo := by
    rw [lnk_of_port _ h, u, lk, noteRuns_port, lnk_of_port _ h]
  rw [exchNo, now] at out
  refine Runs.of_done (execConfig_in_config hdr true b config) ?_
  rw [taken, if_pos rfl]
  exact ⟨(congrArg LnkStill.link (kept.lnk p.val)).trans link,
    (congrArg LnkStill.since (kept.lnk p.val)).trans (since.trans (t_of_now now)),
    (congrArg LnkStill.exchOut (kept.lnk p.val)).trans out,
    (congrArg PortStill.uid (kept.port p.val)).trans ((enterTimesync_uid b _ h).trans (congrArg PortSt.uid u))⟩

/-! ### The time exchange -/

theorem timesyncTimer_runs {s : State} {l : LinkNo} (on : s.exchanges l.val = true)
    (due : s.after (s.lnk l.val).lastExchange 100 = true) (quiet : s.fires = []) :
    Runs (.timesyncTimer l) s fun t => (t.lnk l.val).exchOut = some ((s.lnk l.val).exchNo + 1, s.now) ∧
      (t.lnk l.val).exchNo = (s.lnk l.val).exchNo + 1 ∧ (t.lnk l.val).lastExchange = s.t ∧
      (∃ b, t.out = s.out ++ [.control l.val 4 (BitVec.ofNat 8 ((s.lnk l.val).exchNo + 1).toNat) b]) ∧
      Only [.ports, .plait, .out] s t := by
  obtain ⟨out, no, last, -, -⟩ := startExchange_lnk s l.isLt
  exact Runs.quiet (if_pos (by rw [on, due]; rfl)) ((startExchange_fires ..).trans quiet)
    ⟨out, no, last, startExchange_out .., startExchange_only ..⟩

/-- The answer to the exchange outstanding ends it (R419). -/
theorem takeTimesyncRsp_ends {l : Nat} {s : State} {no : Byte} {t1 : W64} (t2 t3 : W64) (active : (s.lnk l).link = .active)
    (waits : (s.lnk l).exchOut = some (no, t1)) : takeTimesyncRsp l no t1 t2 t3 s = exchangeDone l
      (mkExchange (if l = 8 then 625000 else (s.port l).tickFs.toNat) t1.toNat t2.toNat t3.toNat s.t) s := by
  unfold takeTimesyncRsp
  dsimp only
  rw [waits]
  exact if_pos (by simp [active])

theorem takeTimesyncRsp_of_none {l : Nat} {s : State} (no : Byte) (t1 t2 t3 : W64) (none : (s.lnk l).exchOut = none) :
    takeTimesyncRsp l no t1 t2 t3 s = s := by
  unfold takeTimesyncRsp
  dsimp only
  rw [none]

theorem timesyncRsp_active_runs {s : State} {l : LinkNo} (hdr : CtlHdr) {no : Byte} {t1 : W64} (t2 t3 : W64)
    (active : (s.lnk l.val).link = .active) (waits : (s.lnk l.val).exchOut = some (no, t1)) :
    Runs (.timesyncRsp l hdr no t1 t2 t3) s fun t => (t.lnk l.val).exchOut = none ∧
      (t.lnk l.val).exchDone = (s.lnk l.val).exchDone + 1 ∧
      (t.lnk l.val).exchanges = ((s.lnk l.val).exchanges ++ [mkExchange (if l.val = 8 then 625000 else (s.port l.val).tickFs.toNat)
        t1.toNat t2.toNat t3.toNat s.t]).drop ((s.lnk l.val).exchanges.length + 1 - 16) := by
  have hdrKept := takeHdr_keepsLinks l.val hdr s
  have lnk := hdrKept.lnk l.val
  have active' := (congrArg LnkStill.link lnk).trans active
  have ends := takeTimesyncRsp_ends t2 t3 active' ((congrArg LnkStill.exchOut lnk).trans waits)
  have tick : ((takeHdr l.val hdr s).port l.val).tickFs = (s.port l.val).tickFs :=
    congrArg PortStill.tickFs (hdrKept.port l.val)
  have before : ((takeHdr l.val hdr s).lnk l.val).exchanges = (s.lnk l.val).exchanges := congrArg LnkStill.exchanges lnk
  have count : ((takeHdr l.val hdr s).lnk l.val).exchDone = (s.lnk l.val).exchDone := congrArg LnkStill.exchDone lnk
  rw [tick, takeHdr_t] at ends
  obtain ⟨out, done, list⟩ := exchangeDone_lnk (mkExchange (if l.val = 8 then 625000 else (s.port l.val).tickFs.toNat)
    t1.toNat t2.toNat t3.toNat s.t) l.isLt (show ((takeHdr l.val hdr s).lnk l.val).link ≠ .timesync by
      rw [show ((takeHdr l.val hdr s).lnk l.val).link = .active from active']; decide)
  rw [before] at list
  rw [count] at done
  rw [← ends] at out done list
  have settled := (settle_keepsLinks (takeTimesyncRsp l.val no t1 t2 t3 (takeHdr l.val hdr s))).lnk l.val
  exact Runs.of_done rfl ⟨(congrArg LnkStill.exchOut settled).trans out, (congrArg LnkStill.exchDone settled).trans done,
    (congrArg LnkStill.exchanges settled).trans list⟩

/-- A response that no exchange waits for is dropped (R419). -/
theorem timesyncRsp_unasked_runs {s : State} {l : LinkNo} (hdr : CtlHdr) (no : Byte) (t1 t2 t3 : W64)
    (none : (s.lnk l.val).exchOut = none) :
    Runs (.timesyncRsp l hdr no t1 t2 t3) s fun t => (t.lnk l.val).exchanges = (s.lnk l.val).exchanges ∧
      (t.lnk l.val).offset = (s.lnk l.val).offset := by
  have lnk := (takeHdr_keepsLinks l.val hdr s).lnk l.val
  have drops := takeTimesyncRsp_of_none no t1 t2 t3 ((congrArg LnkStill.exchOut lnk).trans none)
  have settled := ((settle_keepsLinks (takeHdr l.val hdr s)).lnk l.val).trans lnk
  exact Runs.of_done (congrArg done drops) ⟨congrArg LnkStill.exchanges settled, congrArg LnkStill.offset settled⟩

/-- An exchange without an answer is dropped; TIMESYNC starts another (R420). -/
theorem execTimesyncExchangeTimeout_late {s : State} {l : LinkNo} (waits : (s.lnk l.val).exchOut.isSome = true)
    (late : s.after (s.lnk l.val).lastExchange 4 = true) : exec (.timesyncExchangeTimeout l) s =
      done (if (s.lnk l.val).link == .timesync then startExchange l.val (modLnk l.val (fun y => { y with exchOut := none }) s)
        else modLnk l.val (fun y => { y with exchOut := none }) s) :=
  if_pos (by rw [waits, late]; rfl)

theorem exchangeTimeout_active_runs {s : State} {l : LinkNo} (waits : (s.lnk l.val).exchOut.isSome = true)
    (late : s.after (s.lnk l.val).lastExchange 4 = true) (active : (s.lnk l.val).link = .active) (quiet : s.fires = []) :
    Runs (.timesyncExchangeTimeout l) s fun t => (t.lnk l.val).exchOut = none ∧
      (t.lnk l.val).exchanges = (s.lnk l.val).exchanges ∧ Only [.ports, .plait] s t := by
  have drops := (execTimesyncExchangeTimeout_late waits late).trans (congrArg done (if_neg (by rw [active]; decide)))
  refine Runs.quiet drops (by simpa using quiet) ?_
  rw [lnk_modLnk _ _ _ l.isLt]
  exact ⟨rfl, rfl, modLnk_only ..⟩

theorem exchangeTimeout_timesync_runs {s : State} {l : LinkNo} (waits : (s.lnk l.val).exchOut.isSome = true)
    (late : s.after (s.lnk l.val).lastExchange 4 = true) (timesync : (s.lnk l.val).link = .timesync) (quiet : s.fires = []) :
    Runs (.timesyncExchangeTimeout l) s fun t => (t.lnk l.val).exchOut = some ((s.lnk l.val).exchNo + 1, s.now) ∧
      (t.lnk l.val).lastExchange = s.t := by
  have again := (execTimesyncExchangeTimeout_late waits late).trans (congrArg done (if_pos (by rw [timesync]; rfl)))
  obtain ⟨out, -, last, -, -⟩ := startExchange_lnk (modLnk l.val (fun y => { y with exchOut := none }) s) l.isLt
  rw [lnk_modLnk _ _ _ l.isLt, modLnk_now] at out
  exact Runs.quiet again ((startExchange_fires ..).trans (by simpa using quiet)) ⟨out, last.trans (modLnk_t ..)⟩

/-- The twin's TIMESYNC_REQ is answered (R959). -/
theorem plaitTimesyncReq_runs {s : State} (hdr : CtlHdr) (exch : Byte) (t1 : W64) (active : s.plait.lk.link = .active) :
    Runs (.plaitTimesyncReq hdr exch t1) s fun t => ∃ b, Out.control 8 5 exch b ∈ t.out := by
  have active' : (takeHdr 8 hdr s).plait.lk.link = .active :=
    (congrArg LnkStill.link (takeHdr_keepsLinks 8 hdr s).plait).trans active
  have answers : exec (.plaitTimesyncReq hdr exch t1) s =
      done (sendCtl 8 5 exch.toNat (leBytes 8 t1.toNat ++ leBytes 8 s.t ++ leBytes 8 s.t) (takeHdr 8 hdr s)) :=
    if_pos (by rw [active']; rfl)
  refine Runs.of_done answers ?_
  have driven := control_driven (settle_keepsLinks
    (sendCtl 8 5 exch.toNat (leBytes 8 t1.toNat ++ leBytes 8 s.t ++ leBytes 8 s.t) (takeHdr 8 hdr s))).out
  rwa [BitVec.ofNat_toNat, BitVec.setWidth_eq] at driven

/-- Settles O51: each row changes what its own link knows of the peer and of the time; what follows leaves it. -/
theorem configAndTimesyncAct : Obligations.ConfigAndTimesyncAct :=
  ⟨fun _ _ hdr seen _ => config_bad_runs hdr seen, fun _ _ hdr _ => config_first_runs hdr, fun _ _ hdr _ => config_last_runs hdr,
    fun _ _ => timesyncTimer_runs, fun _ _ hdr _ _ t2 t3 => timesyncRsp_active_runs hdr t2 t3,
    fun _ _ hdr no t1 t2 t3 => timesyncRsp_unasked_runs hdr no t1 t2 t3, fun _ _ => exchangeTimeout_active_runs,
    fun _ _ => exchangeTimeout_timesync_runs, fun _ hdr exch t1 => plaitTimesyncReq_runs hdr exch t1⟩

end Sys2Proof.Laws

/-!
SUPPORT. A port's detach and the loss of the Plait link.
-/

namespace Sys2Proof.Laws
open Sys2Proof Sys2Proof.Machine
set_option Elab.async false -- a thread per proof would not fit beside the model in the check's memory

/-- The first DETACH_REQ of a port in ACTIVE is noted, behind its header (R431). -/
theorem detachReq_runs {s : State} {p : Port} (hdr : CtlHdr) (active : (s.port p.val).lk.link = .active) :
    Runs (.detachReq p hdr) s fun t => (t.port p.val).detachAt = ((s.port p.val).detachAt <|> some s.t) ∧
      (t.lnk p.val).link = .active := by
  have h : p.val < 8 := p.isLt
  have hdrKept := (takeHdr_keepsLinks p.val hdr s).port p.val
  have active' : ((takeHdr p.val hdr s).port p.val).lk.link = .active := (congrArg (·.lk.link) hdrKept).trans active
  have before : ((takeHdr p.val hdr s).port p.val).detachAt = (s.port p.val).detachAt := congrArg PortStill.detachAt hdrKept
  have notes : takeDetach p.val (takeHdr p.val hdr s) = modPort p.val
      (fun x => { x with detachAt := x.detachAt <|> some s.t }) (takeHdr p.val hdr s) := by
    refine (if_pos (by rw [active']; rfl)).trans ?_
    rw [takeHdr_t]
  have kept := (settle_keepsLinks (takeDetach p.val (takeHdr p.val hdr s))).port p.val
  rw [notes, port_modPort _ _ _ h] at kept
  refine Runs.of_done rfl ?_
  rw [notes, lnk_of_port _ h]
  exact ⟨(congrArg PortStill.detachAt kept).trans (congrArg (· <|> some s.t) before),
    (congrArg (·.lk.link) kept).trans active'⟩

/-- DETACH_ACK goes out, and the port with it (R431). -/
theorem detachAckSend_runs {s : State} {p : Port} {t0 : Nat} (asked : (s.port p.val).detachAt = some t0)
    (due : (s.port p.val).lk.quiet = true ∨ s.after t0 1000 = true) :
    Runs (.detachAckSend p) s fun t => (t.lnk p.val).link = .down ∧ (t.lnk p.val).downCause = 5 ∧
      (t.port p.val).detachAt = none ∧ ∃ b, Out.control p.val 8 0 b ∈ t.out := by
  have h : p.val < 8 := p.isLt
  have acks : exec (.detachAckSend p) s = done (portDown p.val 5 false (sendCtl p.val 8 0 [] s)) := by
    show execDetachAckSend p s = _
    unfold execDetachAckSend
    dsimp only
    rw [asked]
    exact if_pos (Bool.or_eq_true_iff.mpr due)
  have down := portDown_downed 5 false (sendCtl p.val 8 0 [] s) h
  have view := portDown_view 5 false (sendCtl p.val 8 0 [] s) h
  exact Runs.of_done acks ⟨down.link, down.downCause, congrArg PortStill.detachAt view, control_driven (portDown_out ..)⟩

/-- The Plait link is lost, and the pair with it by the heartbeat (R961, R968, R980, R983). -/
theorem plaitLinkDown_runs {s : State} (up : s.plait.lk.link = .active ∨ s.plait.lk.link = .retrain) :
    Runs .plaitLinkDown s fun t => t.plait.lk.link = .down ∧ t.plait.lk.downCause = 1 ∧ t.plait.hello = none ∧
      t.plait.pair = pairAfterDown s.plait := by
  have goesDown : exec .plaitLinkDown s = done (plaitDown 1 true s) :=
    if_pos (by rcases up with h | h <;> rw [h] <;> rfl)
  have still := (plaitDown_still 1 true s).trans (settle_still _)
  exact Runs.of_done goesDown ⟨congrArg LnkStill.link still.plk, congrArg LnkStill.downCause still.plk,
    congrArg PlaitStill.hello still.plait, congrArg PlaitStill.pair still.plait⟩

theorem pairAfterDown_of_paired {x : PlaitCtl} (h : x.pair = .paired) :
    pairAfterDown x = if x.hbPresent then .split else .twinLost := if_pos (by rw [h]; rfl)

theorem pairAfterDown_of_silent_split {x : PlaitCtl} (h : x.pair = .split) (silent : x.hbPresent = false) :
    pairAfterDown x = .twinLost := by
  unfold pairAfterDown
  rw [h, silent]
  rfl

theorem pairAfterDown_of_first_pairing {x : PlaitCtl} (h : x.pair = .pairing) (first : x.everPaired = false) :
    pairAfterDown x = .unpaired := by
  unfold pairAfterDown
  rw [h, first]
  rfl

/-- Settles O52: what follows a link's loss leaves the link, and where the pair stands. -/
theorem detachAndPlaitDownAct : Obligations.DetachAndPlaitDownAct := by
  unfold Obligations.DetachAndPlaitDownAct
  refine ⟨fun _ _ hdr => detachReq_runs hdr, fun _ _ _ => detachAckSend_runs, fun s up => ?_⟩
  obtain ⟨t, ran, link, cause, hello, pair⟩ := plaitLinkDown_runs up
  refine ⟨t, ran, link, cause, hello, fun paired beats => ?_, fun paired silent => ?_, fun split silent => ?_,
    fun pairing first => ?_⟩
  · rw [pair, pairAfterDown_of_paired paired, beats]
    rfl
  · rw [pair, pairAfterDown_of_paired paired, silent]
    rfl
  · rw [pair, pairAfterDown_of_silent_split split silent]
  · rw [pair, pairAfterDown_of_first_pairing pairing first]

end Sys2Proof.Laws

/-!
SUPPORT. The messages of the dies: responses, requests that get none, and what a die sends on its own account.
-/

namespace Sys2Proof.Laws
open Sys2Proof Sys2Proof.Machine
set_option Elab.async false -- a thread per proof would not fit beside the model in the check's memory

/-! ### Responses (R1093) -/

theorem execDieResponse_takes {s : State} (n : Port) {m : Msg} (ch : m.ch < 3) :
    exec (.dieResponse n m) s = done (takeResponse n.val m s) := congrArg done (if_pos ch)

/-- A channel of a port without its oldest request. -/
def dropOldest (n ch : Nat) (rest : List OutReq) (s : State) : State :=
  modLnk n (fun x => x.setTx ch { (s.lnk n).tx ch with outst := rest }) s

/-- A response matches the oldest request of its channel. -/
def matchesReq (m : Msg) (r : OutReq) : Bool :=
  m.response && m.op == r.msg.op && m.target == r.msg.target && m.tag == r.msg.tag

/-- What a message does on the channel of an outstanding request. -/
theorem takeResponse_to {n : Nat} {m : Msg} {r : OutReq} {rest : List OutReq} {s : State}
    (flows : (s.port n).lk.sequenced = true) (oldest : ((s.lnk n).tx m.ch).outst = r :: rest) : takeResponse n m s =
      if !matchesReq m r then protocolError n s
      else answered n r (field m.data 0 1) (bit (field m.data 0 4) 8) (m.data.drop 4)
        (if field m.data 0 1 = 0 then
          answerEffect n r.msg (bit (field m.data 0 4) 8) (m.data.drop 4) (dropOldest n m.ch rest s)
        else refusalEffect n r.msg (dropOldest n m.ch rest s)) := by
  have other : (!m.response || m.op != r.msg.op || m.target != r.msg.target || m.tag != r.msg.tag) = !matchesReq m r := by
    simp only [matchesReq, bne, Bool.not_and]
  unfold takeResponse
  dsimp only
  rw [if_neg (by rw [flows]; decide), oldest]
  dsimp only
  rw [other]
  rfl

/-- A good answer of the oldest request. -/
theorem takeResponse_answers {n : Nat} {m : Msg} {r : OutReq} {rest : List OutReq} {s : State}
    (flows : (s.port n).lk.sequenced = true) (oldest : ((s.lnk n).tx m.ch).outst = r :: rest) (response : m.response = true)
    (op : m.op = r.msg.op) (target : m.target = r.msg.target) (tag : m.tag = r.msg.tag) (ok : field m.data 0 1 = 0) :
    takeResponse n m s = answered n r 0 (bit (field m.data 0 4) 8) (m.data.drop 4)
      (answerEffect n r.msg (bit (field m.data 0 4) 8) (m.data.drop 4) (dropOldest n m.ch rest s)) := by
  have pairs : matchesReq m r = true := by
    unfold matchesReq
    rw [response, op, target, tag]
    simp
  rw [takeResponse_to flows oldest, if_neg (by rw [pairs]; decide), if_pos ok, ok]

/-- A response that does not match the oldest request is a protocol error. -/
theorem dieResponse_mismatch_runs {s : State} {n : Port} {m : Msg} {r : OutReq} {rest : List OutReq}
    (flows : (s.port n.val).lk.sequenced = true) (ch : m.ch < 3) (oldest : ((s.lnk n.val).tx m.ch).outst = r :: rest)
    (other : m.response = false ∨ m.op ≠ r.msg.op ∨ m.target ≠ r.msg.target ∨ m.tag ≠ r.msg.tag) :
    Runs (.dieResponse n m) s fun t => (t.lnk n.val).err = (s.lnk n.val).err ||| 4 ∧ (t.lnk n.val).link = (s.lnk n.val).link := by
  have h : n.val < 9 := by have : n.val < 8 := n.isLt; omega
  have differs : matchesReq m r = false := by
    unfold matchesReq
    rcases other with e | e | e | e
    · rw [e]
      rfl
    · simp [e]
    · simp [e]
    · simp [e]
  have refuses := (execDieResponse_takes n ch).trans (congrArg done ((takeResponse_to flows oldest).trans (if_pos (by rw [differs]; rfl))))
  have kept := ((settle_keepsLinks (protocolError n.val s)).lnk n.val).trans (setLinkErr_lnk 4 s h)
  exact Runs.of_done refuses ⟨congrArg LnkStill.err kept, congrArg LnkStill.link kept⟩

/-! ### Requests without an answer (R553) -/

theorem declare_reaches {v now : Nat} {l : List Nat} {s : State} (h : v ∈ l) :
    ((each l (fun u => modUnit u (UnitSt.declare now)) s).unit v).view = .unresponsive := by
  refine each_reaches (I := fun _ => True) (J := fun t => (t.unit v).view = .unresponsive) h (fun _ _ _ _ => trivial)
    (fun t _ => ?_) (fun u t down => ?_) trivial
  · rw [unit_modUnit]
    rfl
  · by_cases e : v = u
    · rw [e, unit_modUnit]
      rfl
    · rw [unit_modUnit_ne _ _ _ _ e]
      exact down

/-- The units of a request without an answer that become UNRESPONSIVE: of a HALT those that have not halted. -/
def unheard (s : State) (p unit : Nat) (r : OutReq) : List Nat :=
  (s.servedBy p unit (r.msg.target.getLsbD 15)).filter fun u => !(r.msg.ch == 0 && r.msg.op == 1) || (s.unit u).view != .halted

theorem execResponseTimeout_of_cmd {s : State} {n : Port} {ch : Fin 3} {r : OutReq} {rest : List OutReq} {f u k : Nat}
    {tag : W32} {c : Cmd} (oldest : ((s.lnk n.val).tx ch.val).outst = r :: rest) (late : r.at_ + s.answerWait ch.val r ≤ s.t)
    (who : r.who = .cmd f tag u k) (here : s.cmd f tag = some c) (op : c.op ≠ 0x32) :
    exec (.responseTimeout n ch) s = done (checkGather c.partition
      (each (unheard s c.partition u r) (fun v => modUnit v (UnitSt.declare s.t))
        (each (unheard s c.partition u r) (fun v => stepEnds v false)
          (cmdNoAnswer f tag r u (dropOldest n.val ch.val rest s))))) := by
  show execResponseTimeout n ch s = _
  unfold execResponseTimeout
  dsimp only
  rw [oldest]
  dsimp only
  rw [if_neg (Nat.not_lt.mpr late), who]
  dsimp only
  rw [here]
  exact if_neg (by simpa using op)

theorem execResponseTimeout_of_claim {s : State} {n : Port} {ch : Fin 3} {r : OutReq} {rest : List OutReq} {p : Nat}
    (oldest : ((s.lnk n.val).tx ch.val).outst = r :: rest) (late : r.at_ + s.answerWait ch.val r ≤ s.t)
    (who : r.who = .claim p) :
    exec (.responseTimeout n ch) s = done (twinChecks (failResends n.val p stUnitUnresponsive (dropOldest n.val ch.val rest s))) := by
  show execResponseTimeout n ch s = _
  unfold execResponseTimeout unanswered
  dsimp only
  rw [oldest]
  dsimp only
  rw [if_neg (Nat.not_lt.mpr late), who]
  rfl

/-- Whatever follows the declaration leaves the units of the request UNRESPONSIVE (log entry 14). -/
theorem responseTimeout_declares {s : State} {n : Port} {ch : Fin 3} {r : OutReq} {rest : List OutReq} {f u k : Nat}
    {tag : W32} {c : Cmd} (oldest : ((s.lnk n.val).tx ch.val).outst = r :: rest) (late : r.at_ + s.answerWait ch.val r ≤ s.t)
    (who : r.who = .cmd f tag u k) (here : s.cmd f tag = some c) (op : c.op ≠ 0x32) :
    Runs (.responseTimeout n ch) s fun t => ∀ v ∈ s.servedBy c.partition u (r.msg.target.getLsbD 15),
      ¬ (r.msg.ch = 0 ∧ r.msg.op = 1 ∧ (s.unit v).view = .halted) → (t.unit v).view = .unresponsive := by
  refine Runs.of_done (execResponseTimeout_of_cmd oldest late who here op) fun v served notHalted => ?_
  have silent : v ∈ unheard s c.partition u r := by
    refine List.mem_filter.mpr ⟨served, ?_⟩
    by_contra no
    refine notHalted ?_
    simpa [and_assoc] using no
  exact (((checkGather_grows ..).trans (settle_grows _)).units v).down (declare_reaches silent)

/-! ### Messages on VC3 -/

theorem takeEventBatch_of_sequenced {n : Nat} {m : Msg} {s : State} (flows : (s.port n).lk.sequenced = true) :
    takeEventBatch n m s = each (events n m.data) (fun e t => settle (takeEvent n e t)) s := if_pos flows

/-- A whole DIE_LOSS on a link that takes it. -/
theorem takeDieLoss_of_takes {n : Nat} {m : Msg} {s : State} (takes : s.takesVc3 n m = true) (whole : 24 ≤ m.data.length) :
    takeDieLoss n m s = endsWithoutDelta (s.msgPart n (msgUnit n m) m.partition.toNat) (msgUnit n m)
      (fun e => decide (field m.data 8 8 ≤ e.dieTs.toNat) && decide (e.dieTs.toNat ≤ field m.data 16 8))
      (lossBoth (s.msgPart n (msgUnit n m) m.partition.toNat) (s.dieDests (s.msgPart n (msgUnit n m) m.partition.toNat))
        (field m.data 0 4) 4 n (s.hubTime n (field m.data 8 8)) (s.hubTime n (field m.data 16 8)) (msgUnit n m)
        (uncertain (msgUnit n m) (heard (s.msgPart n (msgUnit n m) m.partition.toNat) (m.data.length + 16) s))) :=
  if_neg (by rw [takes, decide_eq_false (Nat.not_lt.mpr whole)]; decide)

/-- Every request of the enumeration is answered: the port is enumerated (R429). -/
theorem enumerationDone_runs {s : State} {n : Port} {e : EnumSt} (enum : (s.port n.val).enum = some e) (last : e.stage = 4)
    (answered : (s.port n.val).lk.open_.any enumWaits = false) (quiet : s.fires = []) :
    Runs (.enumerationDone n) s fun t => (t.port n.val).enum = none ∧ (t.port n.val).enumerated = true ∧ Only [.ports] s t := by
  have ends : exec (.enumerationDone n) s = done (modPort n.val (fun x => { x with enum := none, enumerated := true }) s) := by
    show execEnumerationDone n s = _
    unfold execEnumerationDone
    dsimp only
    rw [enum]
    exact if_pos (by rw [last, answered]; rfl)
  refine Runs.quiet ends (by simpa using quiet) ?_
  rw [port_modPort _ _ _ n.isLt]
  exact ⟨rfl, rfl, modPort_only ..⟩

/-- Settles O53: each message has the effect of its row; the units that are declared stay UNRESPONSIVE behind it. -/
theorem dieMessagesAct : Obligations.DieMessagesAct := by
  unfold Obligations.DieMessagesAct
  refine ⟨fun s n m r rest flows ch oldest response op target tag ok => ?_, fun _ _ _ _ _ => dieResponse_mismatch_runs,
    fun _ _ _ _ _ _ _ _ _ _ => responseTimeout_declares, fun s n ch r rest p oldest late who => ?_,
    fun s n m flows => ?_, fun s n m stopped quiet => ?_, fun s n m takes whole => ?_, fun _ _ _ _ _ => rfl,
    fun _ _ _ => enumerationDone_runs⟩
  · rw [execDieResponse_takes n ch, takeResponse_answers flows oldest response op target tag ok]
    rfl
  · exact execResponseTimeout_of_claim oldest late who
  · exact congrArg done (takeEventBatch_of_sequenced flows)
  · exact (congrArg done (if_neg (by rw [stopped]; decide))).trans (done_quiet quiet)
  · exact congrArg done (takeDieLoss_of_takes takes whole)

end Sys2Proof.Laws

/-!
SUPPORT. The trigger lattice: what its settling leaves, and the events and timers that feed it.
-/

namespace Sys2Proof.Laws
open Sys2Proof Sys2Proof.Machine
set_option Elab.async false -- a thread per proof would not fit beside the model in the check's memory

/-! ### What the settling of the lattice leaves -/

theorem settle_weave (s : State) : (settle s).weave = s.weave := (settle_only s).same .weave (by decide)

theorem settle_tenancy (s : State) (p : Nat) :
    ((settle s).part p).owner = (s.part p).owner ∧ ((settle s).part p).observers = (s.part p).observers ∧
      ((settle s).part p).active = (s.part p).active ∧ ((settle s).part p).inactive = (s.part p).inactive ∧
      ((settle s).part p).commit = (s.part p).commit ∧ ((settle s).part p).routes = (s.part p).routes :=
  have kept : partStill ((settle s).part p) = partStill (s.part p) := (settle_still s).part p
  ⟨congrArg PartStill.owner kept, congrArg PartStill.observers kept, congrArg PartStill.active kept,
    congrArg PartStill.inactive kept, congrArg PartStill.commit kept, congrArg PartStill.routes kept⟩

theorem settle_link (s : State) (l : Nat) :
    ((settle s).lnk l).link = (s.lnk l).link ∧ ((settle s).lnk l).lastAccepted = (s.lnk l).lastAccepted :=
  have kept : lnkStill ((settle s).lnk l) = lnkStill (s.lnk l) := (settle_keepsLinks s).lnk l
  ⟨congrArg LnkStill.link kept, congrArg LnkStill.lastAccepted kept⟩

/-- Settles O7: lifecycle, start-up, weave and memories are outside the fields that the lattice changes; of partitions and
links it leaves the parts named, also where an edge acts under the plane before a switch. -/
theorem latticeKeepsTenancyAndLinks : Obligations.LatticeKeepsTenancyAndLinks := by
  unfold Obligations.LatticeKeepsTenancyAndLinks
  exact fun s => ⟨settle_tenancy s, settle_link s, settle_lcy s, settle_boot s, settle_weave s, settle_mem s⟩

/-! ### Inputs (R502, R507, R531) -/

theorem firesInput_of_long {s : State} {ns : Nat} (long : 4 ≤ ns) : firesInput s ns = true := if_pos long

/-- An assertion of at least 4 ns takes no free value. -/
theorem takeInput_of_long {s : State} {ns : Nat} (long : 4 ≤ ns) : takeInput ns s = s :=
  if_neg fun short => Nat.not_lt.mpr long short.2

/-- HOOP_IN of a port stays asserted for so long. -/
def holdHoopIn (n : Port) (ns : Nat) (s : State) : State :=
  modPort n.val (fun x => { x with hoopInUntil := max x.hoopInUntil (s.t + nsTicks ns) }) s

/-- A new assertion of at least 4 ns fires the port's source in every partition. -/
theorem execHoopInAssert_of_long {s : State} {n : Port} {ns : Nat} (released : (s.port n.val).hoopInUntil ≤ s.t)
    (long : 4 ≤ ns) : exec (.hoopInAssert n ns) s = done (fireAll n.val (holdHoopIn n ns s)) := by
  have new : (!decide (s.t < (s.port n.val).hoopInUntil) && firesInput s ns) = true := by
    rw [decide_eq_false (Nat.not_lt.mpr released), firesInput_of_long long]
    rfl
  exact congrArg done ((if_pos new).trans (congrArg (fireAll n.val) (takeInput_of_long long)))

/-- An assertion of no length fires nothing. -/
theorem execHoopInAssert_zero (n : Port) (s : State) : exec (.hoopInAssert n 0) s = done (holdHoopIn n 0 s) :=
  congrArg done (if_neg (by rw [show firesInput s 0 = false from rfl, Bool.and_false]; decide))

/-- The levels of the XTRIG pins after an edge of one. -/
def levelXtrig (pin : Fin 8) (up : Bool) (s : State) : State :=
  { s with pins := { s.pins with
      xtrig := if up then s.pins.xtrig ||| (1#8 <<< pin.val) else s.pins.xtrig &&& ~~~(1#8 <<< pin.val) } }

/-- The partitions whose weft, as the edge sees it, takes that edge of the pin. -/
def xtrigHit (pin : Fin 8) (up : Bool) (s : State) : List Nat :=
  (List.range 64).filter fun p => up != bit (xtrigPol (s.atEdge p).active.weft) pin.val

/-- Every edge sets the level of its pin, whether or not it fires. -/
theorem execXtrigEdge_levels (pin : Fin 8) (up : Bool) (ns : Nat) (s : State) :
    ∃ u, exec (.xtrigEdge pin up ns) s = done u ∧ Only [.free, .fires] (levelXtrig pin up s) u := by
  have looked : Only [.free, .fires] (levelXtrig pin up s) (takeInput ns (levelXtrig pin up s)) := (takeInput_only ..).within
  exact ⟨_, rfl, ite_only (each_only looked fun _ _ => (fire_only ..).within) looked⟩

theorem xtrigEdge_pins_runs (pin : Fin 8) (up : Bool) (ns : Nat) (s : State) :
    Runs (.xtrigEdge pin up ns) s fun t => t.pins = (levelXtrig pin up s).pins := by
  obtain ⟨u, ends, only⟩ := execXtrigEdge_levels pin up ns s
  exact Runs.of_done ends ((settle_pins u).trans (only.same .pins (by decide)))

/-- An edge of an input that lasts at least 4 ns fires its source where the weft takes it. -/
theorem execXtrigEdge_of_long {s : State} {pin : Fin 8} {up : Bool} {ns : Nat} (input : bit s.xtrigDir pin.val = false)
    (long : 4 ≤ ns) :
    exec (.xtrigEdge pin up ns) s = done (each (xtrigHit pin up s) (fun p => fire p (8 + pin.val)) (levelXtrig pin up s)) := by
  have counts : (!bit s.xtrigDir pin.val && firesInput s ns) = true := by
    rw [input, firesInput_of_long long]
    rfl
  exact congrArg done ((if_pos counts).trans (congrArg (each _ _) (takeInput_of_long long)))

/-! ### Stage timeouts (R513, R537) -/

/-- A partition's stage has counted an occurrence at the edge of now. -/
def countedNow (p : Nat) (s : State) : Bool := (s.part p).occStage != 0 && (s.part p).occAt == s.t

theorem countedNow_iff {p : Nat} {s : State} : countedNow p s = true ↔ (s.part p).occStage ≠ 0 ∧ (s.part p).occAt = s.t := by
  simp [countedNow]

/-- The armed stage of a partition has run out. -/
def stageLate (p : Nat) (s : State) : Bool :=
  let g := stageTerm (s.part p).active.weft (s.part p).stage
  (s.part p).stage != 0 && !(s.part p).held && g.timeoutUs != 0 && s.after (s.part p).stageAt g.timeoutUs

theorem stageLate_of {p : Nat} {s : State} (armed : (s.part p).stage ≠ 0) (free : (s.part p).held = false)
    (timed : (stageTerm (s.part p).active.weft (s.part p).stage).timeoutUs ≠ 0)
    (late : s.after (s.part p).stageAt (stageTerm (s.part p).active.weft (s.part p).stage).timeoutUs = true) :
    stageLate p s = true := by
  simp [stageLate, armed, free, timed, late]

/-- The sequence returns to stage 0 with its record. -/
def disarm (p : Nat) (s : State) : State :=
  triggerRec p 0 0 (0x10 + (s.part p).stage) 4 false 0 0 0 0 (s.part p).holdCount.toNat
    (modPart p (fun y => { y with stage := 0, stageAt := s.t, occStage := 0, firesStage := [] }) s)

theorem execStageTimeout_eq (p : Part) (s : State) :
    exec (.stageTimeout p) s = if (stageLate p.val s && !countedNow p.val s) = true then done (disarm p.val s) else done s := rfl

theorem execStageTimeout_of_late {s : State} {p : Part} (late : stageLate p.val s = true)
    (alone : ¬ ((s.part p.val).occStage ≠ 0 ∧ (s.part p.val).occAt = s.t)) :
    exec (.stageTimeout p) s = done (disarm p.val s) := by
  have uncounted : countedNow p.val s = false := Bool.eq_false_iff.mpr (mt countedNow_iff.mp alone)
  exact (execStageTimeout_eq p s).trans (if_pos (by rw [late, uncounted]; rfl))

/-- The occurrence at the tick of the timeout goes before it. -/
theorem execStageTimeout_of_counted {s : State} {p : Part} (counted : (s.part p.val).occStage ≠ 0)
    (now : (s.part p.val).occAt = s.t) : exec (.stageTimeout p) s = done s := by
  rw [execStageTimeout_eq, countedNow_iff.mpr ⟨counted, now⟩, Bool.not_true, Bool.and_false]
  rfl

/-! ### The partition watchdog (R505, R537) -/

/-- The watchdog of a partition counts at the edge of now: it has a period, and the partition is not held from before. That it
counts at the edge of a halt action too is log entry 85. -/
def watchdogCounts (p : Nat) (s : State) : Bool :=
  watchdogUs (s.atEdge p).active.weft != 0 && (!(s.atEdge p).held || (s.actedNow p).isSome)

theorem watchdogCounts_of {p : Nat} {s : State} (on : watchdogUs (s.atEdge p).active.weft ≠ 0)
    (free : (s.atEdge p).held = false ∨ (s.actedNow p).isSome = true) : watchdogCounts p s = true := by
  rcases free with free | free <;> simp [watchdogCounts, on, free]

theorem not_watchdogCounts_of {p : Nat} {s : State}
    (idle : watchdogUs (s.atEdge p).active.weft = 0 ∨ ((s.atEdge p).held = true ∧ s.actedNow p = none)) :
    watchdogCounts p s = false := by
  rcases idle with off | ⟨held, before⟩
  · simp [watchdogCounts, off]
  · simp [watchdogCounts, held, before]

/-- The watchdog expires and restarts: source 25 fires, with the expiry's event and report. -/
def watchdogFires (p : Nat) (s : State) : State :=
  fire p 25 (firedReport p 2 0xFF 0 (hubEvent p 0x0C 1 (modPart p (fun y => { y with watchdogAt := s.t }) s)))

theorem execPartitionWatchdogExpiry_of_counting {s : State} {p : Part} (ready : s.boot.phase = .ready)
    (counts : watchdogCounts p.val s = true)
    (late : s.after (s.atEdge p.val).watchdogAt (watchdogUs (s.atEdge p.val).active.weft) = true) :
    exec (.partitionWatchdogExpiry p) s = done (watchdogFires p.val s) := by
  obtain ⟨on, free⟩ := Bool.and_eq_true_iff.mp counts
  exact if_pos (by rw [ready, on, free, late]; rfl)

theorem execPartitionWatchdogExpiry_of_idle {s : State} {p : Part} (idle : watchdogCounts p.val s = false) :
    exec (.partitionWatchdogExpiry p) s = done s := by
  refine if_neg fun expires => ?_
  obtain ⟨⟨⟨-, on⟩, free⟩, -⟩ : ((_ ∧ _) ∧ _) ∧ _ := by simpa only [Bool.and_eq_true] using expires
  exact Bool.false_ne_true (idle.symm.trans (Bool.and_eq_true_iff.mpr ⟨on, free⟩))

/-- Settles O54: each source and timer acts under its row's condition, and what fires is left to the settling of the
lattice. -/
theorem latticeSourcesAct : Obligations.LatticeSourcesAct := by
  unfold Obligations.LatticeSourcesAct
  refine ⟨fun _ _ _ => execHoopInAssert_of_long, fun s n quiet => ?_, fun s pin up ns => xtrigEdge_pins_runs pin up ns s,
    fun _ _ _ _ => execXtrigEdge_of_long, fun s p armed free timed late => ?_, fun s p counted now quiet => ?_,
    fun s p ready on free late => ?_, fun s p idle quiet => ?_⟩
  · exact Runs.quiet (execHoopInAssert_zero n s) ((modPort_fires ..).trans quiet) (modPort_only ..)
  · exact execStageTimeout_of_late (stageLate_of armed free timed late)
  · exact (execStageTimeout_of_counted counted now).trans (done_quiet quiet)
  · exact execPartitionWatchdogExpiry_of_counting ready (watchdogCounts_of on free) late
  · exact (execPartitionWatchdogExpiry_of_idle (not_watchdogCounts_of idle)).trans (done_quiet quiet)

end Sys2Proof.Laws

/-!
SUPPORT. What every command leaves of the queue, and the lattice that it leaves evaluated.
-/

namespace Sys2Proof.Laws
open Sys2Proof Sys2Proof.Machine
set_option Elab.async false -- a thread per proof would not fit beside the model in the check's memory

/-- No command names the queue: only `step` takes from it, and only the outside puts into it (log entry 1). -/
theorem pending_untouched (i : Instr) : (touches i).contains .pending = false := by
  cases i <;> rfl

theorem settle_pending (s : State) : (settle s).pending = s.pending := (settle_only s).same .pending (by decide)

/-- The settling leaves no source that has fired and is not yet evaluated (log entry 52). -/
theorem settle_fires (s : State) : (settle s).fires = [] := rfl

/-- Settles O5: what a command changes before the lattice settles names no queue, and its end is the settling, which leaves
the queue and no fired source. -/
theorem queueAndLatticeSettled : Obligations.QueueAndLatticeSettled := by
  unfold Obligations.QueueAndLatticeSettled
  intro i s t h
  obtain ⟨u, ends, only⟩ := exec_touches i s
  obtain rfl : settle u = t := Host.Outcome.next.inj (ends.symm.trans h)
  have queue : u.pending = s.pending := only.same .pending (by simpa using pending_untouched i)
  exact ⟨(settle_pending u).trans queue, settle_fires u⟩

end Sys2Proof.Laws

/-!
SUPPORT. The pulses on HOOP_OUT and XTRIG: how one ends, and what follows its gap.
-/

namespace Sys2Proof.Laws
open Sys2Proof Sys2Proof.Machine
set_option Elab.async false -- a thread per proof would not fit beside the model in the check's memory

/-- A command that fires no source does what it does before the lattice settles. -/
theorem Runs.of_only {i : Instr} {l : List Fld} {s u : State} {P : State → Prop} (quiet : s.fires = [])
    (ends : exec i s = done u) (only : Only l s u) (p : P u) (e : (!l.contains .fires) = true := by rfl) : Runs i s P :=
  Runs.quiet ends ((Only.fires only e).trans quiet) p

/-! ### HOOP_OUT (R529) -/

/-- Change the pulse of a HOOP_OUT line. -/
def setHoopOut (n : Port) (v : Pulse) (s : State) : State := modPort n.val (fun x => { x with hoopOut := v }) s

theorem setHoopOut_hoopOut (n : Port) (v : Pulse) (s : State) : ((setHoopOut n v s).port n.val).hoopOut = v := by
  rw [setHoopOut, port_modPort _ _ _ n.isLt]

theorem setHoopOut_only (n : Port) (v : Pulse) (s : State) : Only [.ports] s (setHoopOut n v s) := modPort_only ..

/-- Change the pulse of a HOOP_OUT line and drive the line. -/
def turnHoop (n : Port) (v : Pulse) (active : Bool) (s : State) : State :=
  emit (.hoop n.val active) (setHoopOut n v s)

theorem turnHoop_hoopOut (n : Port) (v : Pulse) (active : Bool) (s : State) :
    ((turnHoop n v active s).port n.val).hoopOut = v := setHoopOut_hoopOut n v s

theorem turnHoop_out (n : Port) (v : Pulse) (active : Bool) (s : State) :
    (turnHoop n v active s).out = s.out ++ [.hoop n.val active] :=
  congrArg (· ++ [Out.hoop n.val active]) (Only.out (setHoopOut_only n v s) rfl)

theorem turnHoop_only (n : Port) (v : Pulse) (active : Bool) (s : State) : Only [.ports, .out] s (turnHoop n v active s) :=
  (setHoopOut_only n v s).within.andThen (emit_only ..)

/-- A line at rest is asserted at once. -/
theorem assertHoop_of_idle {n : Port} {s : State} (rest : (s.port n.val).hoopOut = .idle) :
    assertHoop n.val s = turnHoop n (.on s.t) true s := by
  unfold assertHoop
  rw [rest]
  rfl

section HoopOut
variable {n : Port} {s : State} {t0 : Nat}

theorem execHoopOutPulseEnd_of_on (on : (s.port n.val).hoopOut = .on t0) :
    exec (.hoopOutPulseEnd n) s =
      if t0 + nsTicks 64 ≤ s.t then done (turnHoop n (.gap s.t false) false s) else done s := by
  dsimp only [exec, execHoopOutPulseEnd]
  rw [on]
  rfl

/-- After the gap the line is at rest, and an assertion that the gap has delayed finds it so. -/
theorem execHoopReleaseGapEnd_of_gap {again : Bool} (gap : (s.port n.val).hoopOut = .gap t0 again)
    (due : t0 + nsTicks 32 ≤ s.t) :
    exec (.hoopReleaseGapEnd n) s =
      done (if again then assertHoop n.val (setHoopOut n .idle s) else setHoopOut n .idle s) := by
  dsimp only [exec, execHoopReleaseGapEnd]
  rw [gap]
  exact if_pos due

theorem hoopReleaseGapEnd_runs_again (gap : (s.port n.val).hoopOut = .gap t0 true) (due : t0 + nsTicks 32 ≤ s.t)
    (quiet : s.fires = []) :
    Runs (.hoopReleaseGapEnd n) s fun t => (t.port n.val).hoopOut = .on s.t ∧ t.out = s.out ++ [.hoop n.val true] ∧
      Only [.ports, .out] s t := by
  have rested : Only [.ports] s (setHoopOut n .idle s) := setHoopOut_only n .idle s
  have now : (setHoopOut n .idle s).t = s.t := t_of_now (Only.now rested rfl)
  have out : (setHoopOut n .idle s).out = s.out := Only.out rested rfl
  have begins : exec (.hoopReleaseGapEnd n) s = done (turnHoop n (.on s.t) true (setHoopOut n .idle s)) := by
    rw [execHoopReleaseGapEnd_of_gap gap due, if_pos rfl, assertHoop_of_idle (setHoopOut_hoopOut ..), now]
  have only := rested.within.trans (turnHoop_only n (.on s.t) true (setHoopOut n .idle s))
  exact Runs.of_only quiet begins only ⟨turnHoop_hoopOut .., by rw [turnHoop_out, out], only⟩

end HoopOut

/-! ### XTRIG (R530) -/

theorem setXtrig_xtrig (j : Fin 8) (v : Pulse) (s : State) : (setXtrig j.val v s).xtrig j.val = v := by
  simp [setXtrig, State.xtrig]

/-- A change of the pulse leaves the level that the acting weft gave the pin (log entry 40). -/
theorem setXtrig_xtrigLow (j : Fin 8) (v : Pulse) (s : State) : (setXtrig j.val v s).xtrigLow j.val = s.xtrigLow j.val := by
  simp [setXtrig, State.xtrigLow]

/-- Change the pulse of an XTRIG output and drive the pin. -/
def turnXtrig (j : Fin 8) (v : Pulse) (active : Bool) (s : State) : State := driveXtrig j.val active (setXtrig j.val v s)

theorem turnXtrig_xtrig (j : Fin 8) (v : Pulse) (active : Bool) (s : State) :
    (turnXtrig j v active s).xtrig j.val = v := setXtrig_xtrig j v s

/-- The pin is driven to the level that its own polarity gives. -/
theorem turnXtrig_out (j : Fin 8) (v : Pulse) (active : Bool) (s : State) :
    (turnXtrig j v active s).out = s.out ++ [.xtrig j.val active (active != s.xtrigLow j.val)] := by
  rw [turnXtrig, driveXtrig, emit_out, setXtrig_xtrigLow, Only.out (setXtrig_only ..) rfl]

theorem turnXtrig_only (j : Fin 8) (v : Pulse) (active : Bool) (s : State) :
    Only [.xtrigOut, .out] s (turnXtrig j v active s) :=
  (setXtrig_only ..).within.andThen (driveXtrig_only ..)

section Xtrig
variable {j : Fin 8} {s : State} {t0 : Nat}

theorem execXtrigPulseEnd_of_on (on : s.xtrig j.val = .on t0) (due : t0 + 32 ≤ s.t) :
    exec (.xtrigPulseEnd j) s = done (turnXtrig j (.gap s.t false) false s) := by
  dsimp only [exec, execXtrigPulseEnd]
  rw [on]
  exact if_pos due

/-- The gap ends at rest, or in the pulse that it has delayed. -/
theorem execXtrigPulseEnd_of_gap {again : Bool} (gap : s.xtrig j.val = .gap t0 again) (due : t0 + 32 ≤ s.t) :
    exec (.xtrigPulseEnd j) s = done (if again then turnXtrig j (.on s.t) true s else setXtrig j.val .idle s) := by
  dsimp only [exec, execXtrigPulseEnd]
  rw [gap]
  exact if_pos due

end Xtrig

/-- Settles O55: a pulse that has lasted its time is released into its gap, and the gap ends at rest or in the delayed
assertion. -/
theorem pulseTimersAct : Obligations.PulseTimersAct := by
  unfold Obligations.PulseTimersAct
  refine ⟨fun s n t0 on due quiet => ?_, fun s n t0 on early quiet => ?_, fun s n t0 gap due quiet => ?_,
    fun _ _ _ => hoopReleaseGapEnd_runs_again, fun s j t0 on due quiet => ?_, fun s j t0 gap due quiet => ?_,
    fun s j t0 gap due quiet => ?_⟩
  · have only := turnHoop_only n (.gap s.t false) false s
    exact Runs.of_only quiet ((execHoopOutPulseEnd_of_on on).trans (if_pos due)) only
      ⟨turnHoop_hoopOut .., turnHoop_out .., only⟩
  · exact ((execHoopOutPulseEnd_of_on on).trans (if_neg (Nat.not_le.mpr early))).trans (done_quiet quiet)
  · have only := setHoopOut_only n .idle s
    exact Runs.of_only quiet (execHoopReleaseGapEnd_of_gap gap due) only ⟨setHoopOut_hoopOut .., only⟩
  · have only := turnXtrig_only j (.gap s.t false) false s
    exact Runs.of_only quiet (execXtrigPulseEnd_of_on on due) only ⟨turnXtrig_xtrig .., turnXtrig_out .., only⟩
  · have only := setXtrig_only j.val .idle s
    exact Runs.of_only quiet (execXtrigPulseEnd_of_gap gap due) only ⟨setXtrig_xtrig .., only⟩
  · have only := turnXtrig_only j (.on s.t) true s
    exact Runs.of_only quiet (execXtrigPulseEnd_of_gap gap due) only ⟨turnXtrig_xtrig .., turnXtrig_out .., only⟩

end Sys2Proof.Laws

/-!
SUPPORT. The requests that a command puts with the ports, and what follows them.
-/

namespace Sys2Proof.Laws
open Sys2Proof Sys2Proof.Machine
set_option Elab.async false -- a thread per proof would not fit beside the model in the check's memory

/-! ### Requests that stay open -/

/-- Every request that a port has open stays open with its message and its purpose, also where a partition's hold ends. -/
structure KeepsAsks (s t : State) : Prop where
  asks : ∀ n, n < 8 → Asks (s.lnk n) (t.lnk n)

theorem KeepsAsks.refl (s : State) : KeepsAsks s s := ⟨fun _ _ => .refl _⟩

theorem KeepsAsks.trans {s t u : State} (h : KeepsAsks s t) (k : KeepsAsks t u) : KeepsAsks s u :=
  ⟨fun n port => (h.asks n port).trans (k.asks n port)⟩

theorem KeepsAsks.of_grows {s t : State} (h : Grows s t) : KeepsAsks s t := ⟨h.asks⟩

theorem KeepsAsks.of_only {l : List Fld} {s t : State} (h : Only l s t) (e : (!l.contains .ports) = true := by rfl) :
    KeepsAsks s t := ⟨fun n port => by
  rw [lnk_of_port t port, lnk_of_port s port, Only.port h e]
  exact .refl _⟩

theorem KeepsAsks.ite {c : Prop} [Decidable c] {s t u : State} (h : KeepsAsks s t) (k : KeepsAsks s u) :
    KeepsAsks s (if c then t else u) := by
  split
  · exact h
  · exact k

theorem sent_keep {s t : State} {n ch op target : Nat} {wide : Bool} {p : Nat} {tag : W32} {data : List Byte} {who : ReqFor}
    (h : Sent s n ch op target wide p tag data who) (k : KeepsAsks s t) (port : n < 8) :
    Sent t n ch op target wide p tag data who := by
  obtain ⟨r, isOpen, isFor, carries⟩ := h
  obtain ⟨r', isOpen', msg, isFor'⟩ := k.asks n port r isOpen
  exact ⟨r', isOpen', isFor'.trans isFor, by rw [msg]; exact carries⟩

theorem sentFor_keep {s t : State} {f : Nat} {tag : W32} {p : Nat} {m : CmdMsg} (h : SentFor s f tag p m) (k : KeepsAsks s t)
    (port : m.n < 8) : SentFor t f tag p m := by
  obtain ⟨subseq, sent⟩ := h
  exact ⟨subseq, sent_keep sent k port⟩

/-! ### What follows the requests of a command -/

theorem settle_keepsAsks (s : State) : KeepsAsks s (settle s) := .of_grows (settle_grows s)

theorem complete_keepsAsks (f : Nat) (tag : W32) (r : Res) (s : State) : KeepsAsks s (complete f tag r s) :=
  .of_only (complete_only ..)

theorem fallbackCalls_keepsAsks (f : Nat) (c : Cmd) (op : Nat) (data : List Byte) (s : State) :
    KeepsAsks s (fallbackCalls f c op data s) := .of_only (fallbackCalls_only ..)

/-- The requests of a RESUME or STEP. -/
def runRequests (f : Nat) (c : Cmd) (op : Nat) (body : List Byte) (sel : Nat → Bool) (s : State) : State :=
  sendParts f c.tag c.partition sel ((s.targets c true).map fun x => runMsg x op body) s

/-- What follows them is the adaptor's, and the end of the partition's hold (R435, R573). -/
theorem sendRun_after_requests (f : Nat) (c : Cmd) (op : Nat) (body : List Byte) (sel : Nat → Bool) (s : State) :
    KeepsAsks (runRequests f c op body sel s) (sendRun f c op body sel s) :=
  (KeepsAsks.ite (fallbackCalls_keepsAsks ..) (.refl _)).trans (.of_only (noteRuns_only _))

theorem sendRun_keepsAsks (f : Nat) (c : Cmd) (op : Nat) (body : List Byte) (sel : Nat → Bool) (s : State) :
    KeepsAsks s (sendRun f c op body sel s) :=
  (KeepsAsks.of_grows (sendParts_grows ..)).trans (sendRun_after_requests ..)

/-- Going on with a command sends further requests or ends it. -/
theorem advanceLoop_keepsAsks (f : Nat) (tag : W32) (k : Nat) (s : State) : KeepsAsks s (advanceLoop f tag k s) := by
  induction k generalizing s with
  | zero => exact .refl _
  | succ k ih =>
    have worked : ∀ g, KeepsAsks s (modWork f tag g s) := fun _ => .of_only (modWork_only ..)
    unfold advanceLoop
    split
    · exact .refl _
    · refine .ite (complete_keepsAsks ..) (.ite (.refl _) (.ite ?staged (.ite (.refl _) (complete_keepsAsks ..))))
      case staged =>
        split
        · exact .ite ((worked _).trans (ih _)) (((worked _).trans (sendRun_keepsAsks ..)).trans (ih _))
        · exact complete_keepsAsks ..

theorem advanceCmd_keepsAsks (f : Nat) (tag : W32) (s : State) : KeepsAsks s (advanceCmd f tag s) := advanceLoop_keepsAsks ..

/-! ### Reach -/

section Reach
variable {l : List Fld} {s t : State} (h : Only l s t) (ports : (!l.contains .ports) = true)
  (units : (!l.contains .units) = true) (osier : (!l.contains .osier) = true)
include h ports

theorem Only.fallback (n : Nat) : t.fallback n = s.fallback n := by
  unfold State.fallback
  rw [Only.port h ports]

theorem Only.up (n : Nat) : t.up n = s.up n := by
  unfold State.up
  rw [Only.port h ports]

include units osier

theorem Only.unitDown (u : Nat) : t.unitDown u = s.unitDown u := by
  have adaptor : t.osier = s.osier := h.same .osier (by simpa using osier)
  unfold State.unitDown
  dsimp only
  rw [Only.fallback h ports, Only.up h ports, Only.unit h units, adaptor]

theorem Only.reachable (m : CmdMsg) : t.reachable m = s.reachable m := by
  unfold State.reachable
  rw [Only.fallback h ports, Only.up h ports, Only.unitDown h ports units osier]

end Reach

/-- A message for a target of a command goes to its port, and serves its unit. -/
structure Serves (x : Nat × Nat × Bool × Nat) (m : CmdMsg) : Prop where
  port : m.n = x.1
  wide : m.wide = x.2.2.1
  unit : m.unit = x.2.2.2
  ch : m.ch < 3

theorem Serves.reachable {x : Nat × Nat × Bool × Nat} {m : CmdMsg} (h : Serves x m) (s : State) :
    s.reachable m = s.inReach x := by
  unfold State.reachable State.inReach
  rw [h.port, h.wide, h.unit]

theorem Serves.ite {x : Nat × Nat × Bool × Nat} {m k : CmdMsg} {p : Prop} [Decidable p] (h : Serves x m) (h' : Serves x k) :
    Serves x (if p then m else k) := by
  split
  · exact h
  · exact h'

/-- A command whose requests do not go wide names units one by one (R551). -/
theorem targets_narrow {s : State} {c : Cmd} {x : Nat × Nat × Bool × Nat} (h : x ∈ s.targets c false) : x.2.2.1 = false := by
  unfold State.targets at h
  rw [Bool.and_false, if_neg Bool.false_ne_true] at h
  obtain ⟨u, _, rfl⟩ := List.mem_map.mp h
  rfl

theorem regWrite_serves (x : Nat × Nat × Bool × Nat) (off : Nat) (words : List Byte) : Serves x (regWrite x off words) :=
  ⟨rfl, rfl, rfl, Nat.one_lt_succ_succ 1⟩

theorem regRead_serves {x : Nat × Nat × Bool × Nat} (narrow : x.2.2.1 = false) (off count : Nat) :
    Serves x (regRead x off count) := ⟨rfl, narrow.symm, rfl, Nat.one_lt_succ_succ 1⟩

theorem runMsg_serves (x : Nat × Nat × Bool × Nat) (op : Nat) (body : List Byte) : Serves x (runMsg x op body) :=
  ⟨rfl, rfl, rfl, Nat.succ_pos 2⟩

/-! ### The messages of a command that starts -/

theorem targets_modWork (f : Nat) (tag : W32) (g : Work → Work) (s : State) (c : Cmd) (wide : Bool) :
    (modWork f tag g s).targets c wide = s.targets c wide := by
  obtain ⟨v, fns⟩ : ∃ v, modWork f tag g s = { s with fns := v } := by
    unfold modWork modCmd
    exact modFn_frame ..
  rw [fns]
  rfl

section Messages
variable {s t u : State} {f op : Nat} {tag : W32} {c : Cmd} {x : Nat × Nat × Bool × Nat}

/-- A message of a command that starts is with its port when the command has run. -/
theorem starts_sentFor {m : CmdMsg} {ms : List CmdMsg} (start : Starts s f tag op c)
    (before : Only [.fns, .always] (started f tag s) t) (after : KeepsAsks (sendAll f { c with started := true } ms t) u)
    (mem : m ∈ ms) (serves : Serves x m) (port : x.1 < 8) (reach : s.inReach x = true) :
    SentFor (settle u) f tag c.partition m := by
  obtain rfl := cmd_tag start.here
  have port' : m.n < 8 := serves.port ▸ port
  have reach' : t.reachable m = true :=
    (Only.reachable ((started_only ..).within.trans before) rfl rfl rfl m).trans ((serves.reachable s).trans reach)
  have sent : SentFor (sendAll f { c with started := true } ms t) f c.tag c.partition m :=
    sendParts_for mem rfl reach' port' serves.ch
  exact sentFor_keep sent (after.trans (settle_keepsAsks u)) port'

/-- A request of a RESUME or STEP that starts is with its port when the command has run; SUBSEQ is its target's place among
those of the descriptor (R443, R552). -/
theorem starts_runSent {g : Work → Work} {o k : Nat} {body : List Byte} (start : Starts s f tag op c)
    (after : KeepsAsks (sendRun f { c with started := true } o body (fun _ => true) (modWork f tag g (started f tag s))) u)
    (mem : (x, k) ∈ (s.targets c true).zipIdx) (port : x.1 < 8) (reach : s.inReach x = true) :
    Sent (settle u) x.1 0 o x.2.1 x.2.2.1 c.partition tag (leBytes 4 k ++ body) (.cmd f tag x.2.2.2 k) := by
  obtain rfl := cmd_tag start.here
  have mem' : (runMsg x o body, k) ∈ (((modWork f c.tag g (started f c.tag s)).targets { c with started := true } true).map
      fun y => runMsg y o body).zipIdx := by
    rw [targets_modWork, targets_started, List.zipIdx_map]
    exact List.mem_map.mpr ⟨(x, k), mem, rfl⟩
  have reach' : (modWork f c.tag g (started f c.tag s)).reachable (runMsg x o body) = true :=
    (Only.reachable ((started_only ..).trans (modWork_only ..)) rfl rfl rfl _).trans
      (((runMsg_serves x o body).reachable s).trans reach)
  have sent := sendParts_sent f c.tag c.partition (fun _ => true) _ _ mem' rfl reach' port (Nat.succ_pos 2)
  exact sent_keep sent (((sendRun_after_requests ..).trans after).trans (settle_keepsAsks u)) port

end Messages

/-- A command that may not write the hub's memory leaves it, whatever the lattice does behind it. -/
theorem exec_mem {i : Instr} {s t : State} (ran : exec i s = .next t) (keeps : (!(touches i).contains .mem) = true) :
    t.mem = s.mem := by
  obtain ⟨u, ends, only⟩ := exec_touches i s
  obtain rfl : settle u = t := Host.Outcome.next.inj (ends.symm.trans ran)
  exact (settle_mem u).trans (only.same .mem (by simpa using keeps))

theorem runs_withMem {i : Instr} {s : State} {P : State → Prop} (h : Runs i s P)
    (keeps : (!(touches i).contains .mem) = true := by rfl) : Runs i s fun t => P t ∧ t.mem = s.mem := by
  obtain ⟨t, ran, p⟩ := h
  exact ⟨t, ran, p, exec_mem ran keeps⟩

end Sys2Proof.Laws

/-!
SUPPORT. A halt that enters the lattice holds its partition; RESUME and STEP.
-/

namespace Sys2Proof.Laws
open Sys2Proof Sys2Proof.Machine
set_option Elab.async false -- a thread per proof would not fit beside the model in the check's memory

/-! ### The halt set (R516) -/

theorem mem_haltSet {s : State} {p : Nat} {set : List Nat} (h : p ∈ set) (k : Nat) : p ∈ s.haltSet k set := by
  induction k generalizing set with
  | zero => exact h
  | succ k ih =>
    unfold State.haltSet
    extract_lets more
    split
    · exact h
    · exact ih (List.mem_append_left _ h)

theorem termHalt_partition {s : State} {p mask : Nat} {r : HaltReq} (h : s.termHalt p mask = some r) : r.p = p := by
  unfold State.termHalt at h
  extract_lets x e d g hd hs at h
  split at h
  · exact nomatch h
  · exact (Option.some.inj h) ▸ rfl

theorem member_partition (s : State) (host : List HaltReq) (set : List Nat) (q : Nat) : (s.member host set q).p = q := by
  unfold State.member
  dsimp only
  split
  · next r found => simpa using List.find?_some found
  · split
    · next r acts =>
      have own : r.p = q := termHalt_partition acts
      split
      · exact own
      · exact own
    · rfl

/-! ### The hold (R515, R517) -/

theorem enterHold_held {p : Nat} (s : State) (h : p < 64) : ((enterHold p s).part p).held = true := by
  unfold enterHold
  rw [part_modPart _ _ _ h]

/-- Every member of a halt set is held when all have taken their action. -/
theorem performHalts_held {l : List HaltReq} {r : HaltReq} (s : State) (mem : r ∈ l) (h : r.p < 64) :
    ((performHalts l s).part r.p).held = true := by
  unfold performHalts
  extract_lets fast sup
  have held : ∀ t, ((each l (fun r t => t |> freezeGraph r.p |> enterHold r.p) t).part r.p).held = true :=
    each_mem_sent (fun a t => (freezeGraph_grows ..).trans (enterHold_grows ..)) mem (fun _ _ g => g.hold r.p)
      fun t => enterHold_held _ h
  have asserted : ∀ t, Grows t (each fast assertHoop t) := fun t => each_grows (.refl t) assertHoop_grows
  have acted : ∀ t, Grows t (each l (fun r => haltAction r fast (sup r.p)) t) := fun t =>
    each_grows (.refl t) fun r => haltAction_grows r fast (sup r.p)
  exact ((asserted _).trans (acted _)).hold r.p (held s)

theorem edgeOnce_held {host : List HaltReq} {r : HaltReq} {s : State} (mem : r ∈ host) (h : r.p < 64)
    (free : (s.part r.p).held = false) : ((edgeOnce host s).part r.p).held = true := by
  unfold edgeOnce
  extract_lets entering set masks s1
  have enters : r ∈ entering := List.mem_filter.mpr ⟨mem, by rw [free]; rfl⟩
  have inSet : r.p ∈ set := mem_haltSet (List.mem_map_of_mem enters) 65
  have asMember : s.member entering set r.p ∈ set.map (s.member entering set) := List.mem_map_of_mem inSet
  have held := fun t => performHalts_held t asMember ((member_partition ..).symm ▸ h)
  rw [member_partition] at held
  exact (each_grows (.refl _) fun p t => checkGather_grows p t).hold r.p (held _)

/-- That a switch at the edge shows the lattice the old plane leaves the holds (R237). -/
theorem trades_held (l : List Nat) {p : Nat} (s : State) (h : p < 64) :
    ((each l (fun q => modPart q PartSt.trade) s).part p).held = (s.part p).held := by
  refine each_eq (fun t => (t.part p).held) (fun q t => ?_) l s
  by_cases e : p = q
  · rw [← e, part_modPart _ _ _ h, held_trade]
  · rw [part_modPart_ne _ _ _ _ e]

theorem latticeEdge_held {host : List HaltReq} {r : HaltReq} {s : State} (mem : r ∈ host) (h : r.p < 64)
    (free : (s.part r.p).held = false) : ((latticeEdge host s).part r.p).held = true := by
  unfold latticeEdge
  extract_lets old
  rw [trades_held old _ h]
  exact edgeOnce_held mem h ((trades_held old s h).trans free)

/-- A host's halt of a partition that is not held holds it (R557). -/
theorem enterHost_held {r : HaltReq} {held : State → State} {s : State} (h : r.p < 64) (free : (s.part r.p).held = false) :
    ((enterHost r held s).part r.p).held = true := by
  have enters : enterHost r held s = settle (latticeEdge [r] s) := if_pos (by rw [free]; rfl)
  rw [enters]
  exact (settle_grows _).hold r.p (latticeEdge_held (.head _) h free)

/-! ### HALT, RESUME and STEP -/

section
variable {s : State} {f : Fn} {tag : W32} {c : Cmd}

theorem halt_runs (start : Starts s f.val tag 0x10 c) (part : c.partition < 64) (free : (s.part c.partition).held = false) :
    Runs (.halt f tag) s fun t => (t.part c.partition).held = true := by
  have free' : ((started f.val tag s).part c.partition).held = false := by
    rw [Only.part (started_only ..) rfl]
    exact free
  refine Runs.of_done (congrArg done (starts_eq _ start)) ((settle_grows _).hold _ ?_)
  exact enterHost_held part free'

theorem resume_runs (start : Starts s f.val tag 0x11 c) (turn : s.runBlocked f.val tag = false) (together : c.f 52 1 ≠ 1) :
    Runs (.resume f tag) s fun t => ∀ x k, (x, k) ∈ (s.targets c true).zipIdx → x.1 < 8 → s.inReach x = true →
      Sent t x.1 0 2 x.2.1 x.2.2.1 c.partition tag (leBytes 4 k) (.cmd f.val tag x.2.2.2 k) := by
  refine Runs.of_done ((if_neg (by rw [turn]; decide)).trans (congrArg done (starts_eq _ start))) fun x k mem port reach => ?_
  dsimp only
  rw [if_neg (show Cmd.f { c with started := true } 52 1 ≠ 1 from together),
    ← List.append_nil (leBytes 4 k)]
  exact starts_runSent start (advanceCmd_keepsAsks ..) mem port reach

theorem step_runs (start : Starts s f.val tag 0x12 c) (turn : s.runBlocked f.val tag = false) :
    Runs (.step f tag) s fun t => ∀ x k, (x, k) ∈ (s.targets c true).zipIdx → x.1 < 8 → s.inReach x = true →
      Sent t x.1 0 3 x.2.1 x.2.2.1 c.partition tag
        (leBytes 4 k ++ [BitVec.ofNat 8 (c.f 52 1), BitVec.ofNat 8 (c.f 53 1)]) (.cmd f.val tag x.2.2.2 k) :=
  Runs.of_done ((if_neg (by rw [turn]; decide)).trans (congrArg done (starts_eq _ start))) fun _ _ =>
    starts_runSent start (advanceCmd_keepsAsks ..)

end

/-- Settles O32: a halt that enters the lattice holds its partition, and the requests of a RESUME or STEP stay with their
ports behind what follows them. The ENGINE byte of a STEP in either MODE is log entry 91. -/
theorem runControlActs : Obligations.RunControlActs := by
  unfold Obligations.RunControlActs
  refine ⟨fun s f tag c start part free => runs_withMem (halt_runs start part free),
    fun s f tag c start turn together => ?_, fun s f tag c start turn => ?_⟩
  · obtain ⟨t, ran, sent, mem⟩ := runs_withMem (resume_runs start turn together)
    exact ⟨t, ran, mem, sent⟩
  · obtain ⟨t, ran, sent, mem⟩ := runs_withMem (step_runs start turn)
    exact ⟨t, ran, mem, sent⟩

end Sys2Proof.Laws

/-!
SUPPORT. Breakpoints, watch comparators, and the registers and memory of units: the messages of each command.
-/

namespace Sys2Proof.Laws
open Sys2Proof Sys2Proof.Machine
set_option Elab.async false -- a thread per proof would not fit beside the model in the check's memory

/-! ### The messages that set a breakpoint or a comparator -/

theorem breakParts_serve {x : Nat × Nat × Bool × Nat} {n addr flags : Nat} {m : CmdMsg} (narrow : x.2.2.1 = false)
    (mem : m ∈ breakParts x n addr flags) : Serves x m := by
  simp only [breakParts, List.mem_cons, List.not_mem_nil, or_false] at mem
  obtain rfl | rfl | rfl := mem
  · exact regWrite_serves ..
  · exact regWrite_serves ..
  · exact regRead_serves narrow ..

theorem watchParts_serve {x : Nat × Nat × Bool × Nat} {n : Nat} {spec : List Byte} {m : CmdMsg}
    (mem : m ∈ watchParts x n spec) : Serves x m := by
  simp only [watchParts, List.mem_cons, List.not_mem_nil, or_false] at mem
  obtain rfl | rfl | rfl := mem
  · exact regWrite_serves ..
  · exact regWrite_serves ..
  · exact regWrite_serves ..

/-! ### The messages of a list for each target -/

section
variable {s t u : State} {f op : Nat} {tag : W32} {c : Cmd} {x : Nat × Nat × Bool × Nat}

theorem target_started {wide : Bool} (mem : x ∈ s.targets c wide) :
    x ∈ (started f tag s).targets { c with started := true } wide := (targets_started ..).symm ▸ mem

/-- The commands that send each target the messages of a list of its own. -/
theorem sentFor_of_list {list : Nat × Nat × Bool × Nat → List CmdMsg} {wide : Bool} {m : CmdMsg}
    (start : Starts s f tag op c) (before : Only [.fns, .always] (started f tag s) t)
    (after : KeepsAsks (sendAll f { c with started := true }
      (((started f tag s).targets { c with started := true } wide).flatMap list) t) u)
    (mem : x ∈ s.targets c wide) (port : x.1 < 8) (reach : s.inReach x = true) (listed : m ∈ list x) (serves : Serves x m) :
    SentFor (settle u) f tag c.partition m :=
  starts_sentFor start before after (List.mem_flatMap.mpr ⟨x, target_started mem, listed⟩) serves port reach

end

/-! ### Breakpoints and watch comparators -/

section
variable {s : State} {f : Fn} {tag : W32} {c : Cmd}

theorem setBreak_runs (start : Starts s f.val tag 0x13 c) :
    Runs (.setBreak f tag) s fun t => ∀ x ∈ s.targets c false, x.1 < 8 → s.inReach x = true →
      ∀ m ∈ breakParts x (c.f 52 1) (c.f 56 8) (c.f 53 1), SentFor t f.val tag c.partition m :=
  Runs.of_done (congrArg done (starts_eq _ start)) fun _ mem port reach _ part =>
    sentFor_of_list start (modWork_only ..).within (advanceCmd_keepsAsks ..) mem port reach part
      (breakParts_serve (targets_narrow mem) part)

theorem clearBreak_runs (start : Starts s f.val tag 0x14 c) :
    Runs (.clearBreak f tag) s fun t => ∀ x ∈ s.targets c false, x.1 < 8 → s.inReach x = true →
      SentFor t f.val tag c.partition (if c.f 52 1 = 0xFF then regWrite x 0x0108 (zeros (4 * 29))
        else regWrite x (0x0108 + 0x10 * c.f 52 1) (zeros 4)) :=
  Runs.of_done (congrArg done (starts_eq _ start)) fun _ mem port reach =>
    starts_sentFor start (modWork_only ..).within (advanceCmd_keepsAsks ..) (List.mem_map.mpr ⟨_, target_started mem, rfl⟩)
      (.ite (regWrite_serves ..) (regWrite_serves ..)) port reach

theorem setWatch_runs (data : List Byte) (start : Starts s f.val tag 0x15 c) :
    Runs (.setWatch f tag data) s fun t => ∀ x ∈ s.targets c false, x.1 < 8 → s.inReach x = true →
      ∀ m ∈ watchParts x (c.f 52 1) (slice data 0 40), SentFor t f.val tag c.partition m :=
  Runs.of_done (congrArg done (starts_eq _ start)) fun _ mem port reach _ part =>
    sentFor_of_list start ((bumpAlways_only ..).within.andThen (modWork_only ..)) (advanceCmd_keepsAsks ..) mem port reach
      part (watchParts_serve part)

theorem clearWatch_runs (start : Starts s f.val tag 0x16 c) :
    Runs (.clearWatch f tag) s fun t => ∀ x ∈ s.targets c false, x.1 < 8 → s.inReach x = true →
      SentFor t f.val tag c.partition (if c.f 52 1 = 0xFF then regWrite x 0x0210 (zeros (4 * 49))
        else regWrite x (0x0210 + 0x40 * c.f 52 1) (zeros 4)) :=
  Runs.of_done (congrArg done (starts_eq _ start)) fun _ mem port reach =>
    starts_sentFor start (modWork_only ..).within (advanceCmd_keepsAsks ..) (List.mem_map.mpr ⟨_, target_started mem, rfl⟩)
      (.ite (regWrite_serves ..) (regWrite_serves ..)) port reach

end

/-- Settles O33: every message is one of those that the command has for each of its targets. What INDEX 0xFF writes between
the control words is log entry 91. -/
theorem breakAndWatchAct : Obligations.BreakAndWatchAct :=
  ⟨fun _ _ _ _ => setBreak_runs, fun _ _ _ _ => clearBreak_runs, fun _ _ _ data _ => setWatch_runs data,
    fun _ _ _ _ => clearWatch_runs⟩

/-! ### Registers and memory of units -/

section
variable {s : State} {f : Fn} {tag : W32} {c : Cmd}

theorem readUnitRegs_runs (start : Starts s f.val tag 0x20 c) :
    Runs (.readUnitRegs f tag) s fun t => ∀ x ∈ s.targets c false, x.1 < 8 → s.inReach x = true →
      ∀ o n, (o, n) ∈ chunksOf c.length 4092 →
        SentFor t f.val tag c.partition (regRead x (c.param0 % 65536 + o) (n / 4)) :=
  Runs.of_done (congrArg done (starts_eq _ start)) fun _ mem port reach _ _ piece =>
    sentFor_of_list start (modWork_only ..).within (advanceCmd_keepsAsks ..) mem port reach (List.mem_map.mpr ⟨_, piece, rfl⟩)
      (regRead_serves (targets_narrow mem) ..)

theorem writeUnitRegs_runs (data : List Byte) (start : Starts s f.val tag 0x21 c) :
    Runs (.writeUnitRegs f tag data) s fun t => ∀ x ∈ s.targets c true, x.1 < 8 → s.inReach x = true →
      ∀ o n, (o, n) ∈ chunksOf c.length 4088 →
        SentFor t f.val tag c.partition (regWrite x (c.param0 % 65536 + o) (slice data o n)) :=
  Runs.of_done (congrArg done (starts_eq _ start)) fun _ mem port reach _ _ piece =>
    sentFor_of_list start ((bumpAlways_only ..).within.andThen (modWork_only ..)) (advanceCmd_keepsAsks ..) mem port reach
      (List.mem_map.mpr ⟨_, piece, rfl⟩) (regWrite_serves ..)

/-- MEM_READ to one unit (R447). -/
def memRead (x : Nat × Nat × Bool × Nat) (region off len : Nat) : CmdMsg :=
  { n := x.1, ch := 2, op := 1, target := x.2.1, wide := false, unit := x.2.2.2, body := memReadBody region off len,
    changes := false }

/-- MEM_WRITE to one unit (R447). -/
def memWrite (x : Nat × Nat × Bool × Nat) (region off : Nat) (bytes : List Byte) : CmdMsg :=
  { n := x.1, ch := 2, op := 2, target := x.2.1, wide := false, unit := x.2.2.2,
    body := [BitVec.ofNat 8 region, 0, 0, 0] ++ leBytes 8 off ++ bytes, changes := true }

theorem memRead_serves {x : Nat × Nat × Bool × Nat} (narrow : x.2.2.1 = false) (region off len : Nat) :
    Serves x (memRead x region off len) := ⟨rfl, narrow.symm, rfl, Nat.lt_succ_self 2⟩

theorem memWrite_serves {x : Nat × Nat × Bool × Nat} (narrow : x.2.2.1 = false) (region off : Nat) (bytes : List Byte) :
    Serves x (memWrite x region off bytes) := ⟨rfl, narrow.symm, rfl, Nat.lt_succ_self 2⟩

theorem readUnitMem_runs (start : Starts s f.val tag 0x22 c) :
    Runs (.readUnitMem f tag) s fun t => ∀ x ∈ s.targets c false, x.1 < 8 → s.inReach x = true →
      ∀ o n, (o, n) ∈ chunksOf (s.memLength c) 4092 →
        SentFor t f.val tag c.partition (memRead x c.region (c.memOffset + o) n) := by
  refine Runs.of_done (congrArg done (starts_eq _ start)) fun x mem port reach o n piece => ?_
  have piece' : (o, n) ∈ chunksOf ((started f.val tag s).memLength { c with started := true }) 4092 :=
    (memLength_started ..).symm ▸ piece
  exact sentFor_of_list start (.refl _ _) ((fallbackCalls_keepsAsks ..).trans (advanceCmd_keepsAsks ..)) mem port reach
    (List.mem_map.mpr ⟨_, piece', rfl⟩) (memRead_serves (targets_narrow mem) ..)

theorem writeUnitMem_runs (data : List Byte) (start : Starts s f.val tag 0x23 c) :
    Runs (.writeUnitMem f tag data) s fun t => ∀ x ∈ s.targets c false, x.1 < 8 → s.inReach x = true →
      ∀ o n, (o, n) ∈ chunksOf c.length 4080 →
        SentFor t f.val tag c.partition (memWrite x c.region (c.memOffset + o) (slice data o n)) :=
  Runs.of_done (congrArg done (starts_eq _ start)) fun _ mem port reach _ _ piece =>
    sentFor_of_list start (bumpAlways_only ..).within ((fallbackCalls_keepsAsks ..).trans (advanceCmd_keepsAsks ..)) mem port
      reach (List.mem_map.mpr ⟨_, piece, rfl⟩) (memWrite_serves (targets_narrow mem) ..)

end

/-- Settles O34: the messages are those of the pieces, for each target. -/
theorem unitAccessActs : Obligations.UnitAccessActs :=
  ⟨fun _ _ _ _ => readUnitRegs_runs, fun _ _ _ data _ => writeUnitRegs_runs data, fun _ _ _ _ => readUnitMem_runs,
    fun _ _ _ data _ => writeUnitMem_runs data⟩

end Sys2Proof.Laws

/-!
SUPPORT. The timeouts of halts and steps, and halt records.
-/

namespace Sys2Proof.Laws
open Sys2Proof Sys2Proof.Machine
set_option Elab.async false -- a thread per proof would not fit beside the model in the check's memory

/-! ### Declarations (R562, R567) -/

/-- The gathering that a declaration may end leaves the unit UNRESPONSIVE. -/
theorem declareUnit_view (u : Nat) (s : State) : ((declareUnit u s).unit u).view = .unresponsive := by
  have declared : ((modUnit u (UnitSt.declare s.t) (stepEnds u false s)).unit u).view = .unresponsive := by
    rw [unit_modUnit]
    rfl
  unfold declareUnit
  dsimp only
  split
  · exact ((checkGather_grows ..).units u).down declared
  · exact declared

theorem settle_declareUnit_view (u : Nat) (s : State) : ((settle (declareUnit u s)).unit u).view = .unresponsive :=
  ((settle_grows _).units u).down (declareUnit_view u s)

theorem haltTimeoutExpiry_runs {s : State} {u : UnitNo} {d : Nat} (waits : (s.unit u.toNat).haltDeadline = some d)
    (late : d ≤ s.t) : Runs (.haltTimeoutExpiry u) s fun t => (t.unit u.toNat).view = .unresponsive := by
  have declares : exec (.haltTimeoutExpiry u) s = done (declareUnit u.toNat s) := by
    show execHaltTimeoutExpiry u s = _
    unfold execHaltTimeoutExpiry
    rw [waits]
    exact if_pos late
  exact Runs.of_done declares (settle_declareUnit_view ..)

theorem stepTimeoutExpiry_runs {s : State} {u : UnitNo} {d : Nat} (waits : s.stepDue u.toNat = some d) (late : d ≤ s.t) :
    Runs (.stepTimeoutExpiry u) s fun t => (t.unit u.toNat).view = .unresponsive := by
  have declares : exec (.stepTimeoutExpiry u) s = done (declareUnit u.toNat s) := by
    show execStepTimeoutExpiry u s = _
    unfold execStepTimeoutExpiry
    rw [waits]
    exact if_pos late
  exact Runs.of_done declares (settle_declareUnit_view ..)

/-! ### Halt records (R541 to R543) -/

theorem heard_injectHit (p bytes : Nat) (s : State) : (heard p bytes s).injectHit = s.injectHit := by
  have free : (heard p bytes s).free = s.free := (heard_only ..).same .free (by decide)
  unfold State.injectHit State.bankHit
  rw [Only.err (heard_only ..) rfl, free]

theorem holdRecord_record (u : Nat) (r : HaltRec) (s : State) :
    ((holdRecord u r s).unit u).record = some { r with poisoned := s.injectHit } := by
  unfold holdRecord
  rw [unit_modUnit]

/-- The record of a HALT_RECORD: the die's times in hub time, and poisoned as the state it meets says (log entry 22). -/
def heldRecord (n : Nat) (m : Msg) (s : State) : HaltRec :=
  { data := m.data, synthesized := false, poisoned := s.injectHit, stopHub := s.hubTime n (field m.data 8 8),
    haltedHub := s.hubTime n (field m.data 16 8) }

/-- A record that is held stays behind the steps that it acknowledges, its trace record and the gathering that it may end. -/
theorem takeHaltRecord_record {n : Nat} {m : Msg} {s : State} (takes : s.takesVc3 n m = true) (whole : 40 ≤ m.data.length) :
    ((takeHaltRecord n m s).unit (msgUnit n m)).record = some (heldRecord n m s) := by
  unfold takeHaltRecord
  extract_lets u p stop halted r s1 s2
  rw [if_neg (by rw [takes, decide_eq_false (Nat.not_lt.mpr whole)]; decide)]
  have held : (s1.unit u).record = some (heldRecord n m s) :=
    (holdRecord_record ..).trans (congrArg (fun b => some { heldRecord n m s with poisoned := b }) (heard_injectHit ..))
  have acknowledged : s2.unit u = s1.unit u := Only.unit (ite_only (stepEnds_only u true s1) (.refl _ _)) rfl u
  have followed := ((hubEvent_grows p 2 1 s2).trans (traceWrite_grows
    (dieRec 5 p halted (leBytes 2 u ++ zeros 6 ++ m.data)) _)).trans (checkGather_grows p _)
  exact (followed.units u).record.trans ((congrArg UnitSt.record acknowledged).trans held)

theorem haltRecord_runs {s : State} {n : Port} {m : Msg} (takes : s.takesVc3 n.val m = true) (whole : 40 ≤ m.data.length) :
    Runs (.haltRecord n m) s fun t => (t.unit (msgUnit n.val m)).record = some (heldRecord n.val m s) :=
  Runs.of_done rfl (((settle_grows _).units _).record.trans (takeHaltRecord_record takes whole))

/-- Settles O35: a declaration and a held record stay behind whatever follows them in the same command. -/
theorem unitTimeoutsAndRecordsAct : Obligations.UnitTimeoutsAndRecordsAct := by
  unfold Obligations.UnitTimeoutsAndRecordsAct
  refine ⟨fun s u d waits late => ?_, fun s u d waits late => ?_, fun s n m takes whole => ?_⟩
  · exact runs_withMem (haltTimeoutExpiry_runs waits late)
  · exact runs_withMem (stepTimeoutExpiry_runs waits late)
  · exact runs_withMem (haltRecord_runs takes whole)

end Sys2Proof.Laws

/-!
SUPPORT. CUT, the end of a proof, RELEASE_CUT and CUT_FREED: what each does where its checks pass.
-/

namespace Sys2Proof.Laws
open Sys2Proof Sys2Proof.Machine
set_option Elab.async false -- a thread per proof would not fit beside the model in the check's memory

/-! ### CUT (R592) -/

theorem owns_started (f : Nat) (tag : W32) (s : State) (g p : Nat) : (started f tag s).owns g p = s.owns g p := by
  unfold State.owns
  rw [Only.part (started_only ..) rfl]

theorem cut_runs {s : State} {f : Fn} {tag : W32} {c : Cmd} (w : Waits s f.val tag 0x30 c)
    (owner : s.owns f.val c.partition = true) (part : c.partition < 64) (free : (s.part c.partition).held = false) :
    Runs (.cut f tag) s fun t => (t.part c.partition).held = true := by
  have owner' : (started f.val tag s).owns f.val c.partition = true := (owns_started ..).trans owner
  have free' : ((started f.val tag s).part c.partition).held = false := by
    rw [Only.part (started_only ..) rfl]
    exact free
  refine Runs.of_done (congrArg done ((startCmd_eq _ w).trans (if_neg (by rw [partition_start, owner']; decide)))) ?_
  exact (settle_grows _).hold _ (enterHost_held part free')

/-! ### PROOF_DONE (R602, R610) -/

theorem execProofDone_ends {s : State} {p : Part} {l : List UnitNo} {c : Cut} (build : (s.part p.val).build = some c)
    (stage : c.stage = 1) (synth : s.synthOpen p.val = false) :
    exec (.proofDone { part := p, poisoned := l }) s =
      done (slath p.val (endProof p.val (poisonHeld p.val (l.map fun x => x.toNat) s))) :=
  if_pos (by simp [build, stage, synth])

/-- The cut behind its proof, with the pages that it reserves: `a` of the Creel and `b` of the overflow area, of which the
region part takes `pages` (R609, R610). -/
def stagedCut (d : Cut) (pages a b : Nat) : Cut :=
  { d with stage := 2, regionPages := (min a pages, pages - min a pages),
           statePages := (a - min a pages, b - (pages - min a pages)) }

theorem endProof_reserves {s : State} {p : Nat} {c : Cut} {a b : Nat} (build : (s.part p).build = some c)
    (hub : s.stagedCuts < Config.maxCuts) (part : (s.part p).cuts.length < Config.maxPartCuts)
    (ids : s.slath.nextId ≤ 0xFFFFFFFF) :
    let d := s.proven p c
    let pages := ceilDiv (d.regionSplints * 4096) 65536
    s.reserve (pages + ceilDiv d.streamLen 65536) = some (a, b) →
    let v := logPoisoned d s
    let e := stagedCut d pages a b
    endProof p s =
      if a = min a pages then modBuild p (fun _ => if v.dramHit then e.spoil true 0 else e) (spendDram v)
      else modBuild p (fun _ => if v.injectHit then e.spoil true 0 else e) (spendCreel v) := by
  intro d pages reserved v e
  have room : (decide (Config.maxCuts ≤ s.stagedCuts) || decide (Config.maxPartCuts ≤ (s.part p).cuts.length) ||
      decide (0xFFFFFFFF < s.slath.nextId)) = false := by
    simpa using ⟨⟨hub, part⟩, ids⟩
  unfold endProof
  rw [build]
  dsimp only
  rw [room, reserved]
  dsimp only
  split <;> rfl

theorem endProof_refuses {s : State} {p : Nat} {c : Cut} (build : (s.part p).build = some c)
    (ids : 0xFFFFFFFF < s.slath.nextId) :
    endProof p s = refuseCut p (s.proven p c) (logPoisoned (s.proven p c) s) := by
  unfold endProof
  rw [build]
  dsimp only
  rw [decide_eq_true ids, Bool.or_true]

/-! ### RELEASE_CUT and CUT_FREED (R641 to R646) -/

theorem execReleaseCut_releases {s : State} {f : Fn} {tag : W32} {c : Cmd} (w : Waits s f.val tag 0x33 c)
    (owner : s.owns f.val c.partition = true) :
    let id := BitVec.ofNat 32 (c.f 56 4)
    let named := (s.part c.partition).cuts.filter fun x => id == 0xFFFFFFFF || x.id == id
    let fresh := (named.filter fun x => !x.releasing).map (·.id)
    fresh ≠ [] →
    exec (.releaseCut f tag) s = done (each fresh
      (fun x v => v |> modCut c.partition x (fun y => { y with asked := true })
        |> Machine.releaseCut c.partition (some (f.val, tag)) x)
      (modWork f.val tag (fun w => { w with units := fresh.map (·.toNat), r0 := fresh.length })
        (started f.val tag s))) := by
  intro id named fresh some_
  have names : named ≠ [] := fun none => some_ (by simp [fresh, none])
  refine congrArg done ((startCmd_eq _ w).trans ?_)
  extract_lets p id' named' fresh'
  have sameNamed : named' = named := congrArg (fun x => List.filter _ x.cuts) (Only.part (started_only ..) rfl _)
  have sameFresh : fresh' = fresh := by
    simp only [fresh', fresh, sameNamed]
  have passes : firstFail [(!(started f.val tag s).owns f.val p, stNotOwner),
      (id' != 0xFFFFFFFF && named'.isEmpty, stBadUnit)] = none := by
    have owner' : s.owns f.val p = true := owner
    rw [owns_started, sameNamed, owner']
    exact firstFail_eq_none.mpr (by simp [names])
  rw [passes, sameFresh]
  exact if_neg (mt List.isEmpty_iff.mp some_)

theorem execCutFreed_frees {s : State} {p : Part} {id : W32} {c : Cut} (staged : s.cut p id = some c)
    (releasing : c.releasing = true) (stage : c.stage = 4) (unasked : c.releasedBy = none)
    (idle : (s.slath.exports.any fun e => e.partition == p.val && e.cut == id) = false) :
    exec (.cutFreed p id) s = done (cutRec 3 c
      (modPart p.val (fun x => { x with cuts := x.cuts.filter fun y => y.id != id }) (freeDump id s))) := by
  show execCutFreed p id s = _
  unfold execCutFreed
  dsimp only
  rw [staged]
  dsimp only
  rw [idle, releasing, stage, unasked]
  rfl

/-- Settles O25: a CUT enters the lattice, whose halt action holds the partition; the end of a proof reserves pages or
refuses the cut as its limits say, and what a release does follows from its checks. -/
theorem cutsAct : Obligations.CutsAct := by
  unfold Obligations.CutsAct
  refine ⟨fun s f tag c w owner part free => runs_withMem (cut_runs w owner part free), ?staged, ?refused,
    fun s f tag c w owner => execReleaseCut_releases w owner,
    fun s p id c staged releasing stage unasked idle => execCutFreed_frees staged releasing stage unasked idle⟩
  case staged =>
    intro s p l c0 c a b build0 stage synth u build hub part ids d pages reserved v e
    refine (execProofDone_ends build0 stage synth).trans (congrArg (fun x => done (slath p.val x)) ?_)
    exact endProof_reserves build hub part ids reserved
  case refused =>
    intro s p l c build0 stage synth u build ids
    exact (execProofDone_ends build0 stage synth).trans
      (congrArg (fun x => done (slath p.val x)) (endProof_refuses build ids))

end Sys2Proof.Laws

/-!
SUPPORT. DUMP_CUT to host memory in a hub whose dump region is in use: the place that the model notes.
-/

namespace Sys2Proof.Laws
open Sys2Proof Sys2Proof.Machine
set_option Elab.async false -- a thread per proof would not fit beside the model in the check's memory

/-- DUMP_CUT with DEST 0, of the one splint of the state part of cut 2 of partition 3 (R627): opcode, PARTITION, tag,
SPLINT_COUNT 1, a buffer of 64 KiB, PART 1 and CUT_ID. -/
def hostDump : Cmd :=
  { desc := BitVec.ofNat 512 (0x31 + 3 * 256 ^ 2 + 7 * 256 ^ 4 + 256 ^ 24 + 65536 * 256 ^ 40 + 256 ^ 52 + 2 * 256 ^ 56),
    tag := 7, fetched := 0, heldDup := false, started := false, work := .init }

/-- A captured cut of partition 3, which has no region part. -/
def capturedCut : Cut := { newCut State.reset 3 1 none false 0 with id := 2, stage := 4 }

/-- Session 5 owns partition 3 and has the DUMP_CUT in flight; external memory is trained, with a dump region of
1 GiB, and the region's first three pages hold one splint and the manifest of cut 1 (R632). -/
def storedDump : State :=
  let r := modFn 5 (fun x => { x with inflight := [hostDump] })
    (modPart 3 (fun x => { x with owner := some 5, cuts := [capturedCut] }) State.reset)
  { r with weave := { r.weave with warp := Mem.ofBytes (zeros 9 ++ [1]) }, wale := { r.wale with dramReady := true },
           slath := { r.slath with dumpUsed := [(0, 3, 1)] } }

/-- The places in the dump region of the exports that are open when a command has run. -/
def exportPlaces : Host.Outcome State Fault Refusal → List Nat
  | .next t => t.slath.exports.map (·.dumpOff)
  | _ => []

theorem storedDump_waits : Waits storedDump (5 : Fn).val 7 0x31 hostDump :=
  ⟨by decide +kernel, by decide +kernel, by decide +kernel, by decide +kernel⟩

theorem exportPlaces_storedDump : exportPlaces (exec (.dumpCut 5 7) storedDump) = [3] := by decide +kernel

/-- Refutes O26: the model notes the first free place of the dump region in whatever DUMP_CUT opens, for every DEST.
In `storedDump` that is page 3, behind what is stored there, where the statement's first clause says 0. -/
theorem not_exportsAct : ¬ Obligations.ExportsAct := by
  unfold Obligations.ExportsAct
  rintro ⟨opens, -⟩
  have atZero : exportPlaces (exec (.dumpCut 5 7) storedDump) = [0] := by
    rw [opens storedDump 5 7 hostDump capturedCut 1 storedDump_waits] <;> decide +kernel
  exact absurd (exportPlaces_storedDump.symm.trans atZero) (by decide)

end Sys2Proof.Laws

/-!
SUPPORT. The outcome of a command as a property of the state that it settles, the frame of every command, and the step that
takes one from the queue.
-/

namespace Sys2Proof.Laws
open Sys2Proof Sys2Proof.Machine
set_option Elab.async false -- a thread per proof would not fit beside the model in the check's memory

/-- Settles O1: the queue's front decides the step. -/
theorem stepRunsFront : Obligations.StepRunsFront := by
  unfold Obligations.StepRunsFront
  intro c rest s front
  unfold step
  rw [front]

/-! ### Frames behind the settling -/

/-- A command that names the lattice's sources names all that the lattice may change. -/
theorem latticeFields_touched (i : Instr) : (!(touches i).contains .fires || latticeFields.all (touches i).contains) = true := by
  cases i <;> rfl

/-- Settles O4: before the lattice settles a command changes what `touches` names; the settling changes nothing where no
source fired, and else only what the command names beside the sources. -/
theorem commandsKeepOtherState : Obligations.CommandsKeepOtherState := by
  unfold Obligations.CommandsKeepOtherState
  intro i s t quiet ran
  obtain ⟨u, hu, kept⟩ := exec_touches i s
  obtain rfl : settle u = t := Host.Outcome.next.inj (hu.symm.trans ran)
  have named := latticeFields_touched i
  by_cases fires : (touches i).contains .fires = true
  · exact kept.step (settle_only u) (by simpa only [fires, Bool.not_true, Bool.false_or] using named)
  · have still : u.fires = [] := (kept.same .fires (by simpa using fires)).trans quiet
    rw [settle_of_nil still]
    exact kept

/-! ### Outcomes -/

/-- The outcome settles a state that has the property. -/
def Settles (P : State → Prop) (o : Host.Outcome State Fault Refusal) : Prop := ∃ u, o = done u ∧ P u

section
variable {P : State → Prop} {s u v : State} {a b : Host.Outcome State Fault Refusal} {c : Prop} {dec : Decidable c}

theorem Settles.of (h : P u) : Settles P (done u) := ⟨u, rfl, h⟩

theorem Settles.ite (ha : Settles P a) (hb : Settles P b) : Settles P (if c then a else b) := by
  split
  · exact ha
  · exact hb

theorem Settles.either (hu : P u) (hv : P v) : Settles P (if c then done u else done v) := .ite (.of hu) (.of hv)

/-- A frame of the whole command is a property of the state that it settles. -/
theorem Settles.of_touches {i : Instr} (h : ∀ u, Only (touches i) s u → P u) : Settles P (exec i s) := by
  obtain ⟨u, hu, kept⟩ := exec_touches i s
  exact ⟨u, hu, h u kept⟩

end

end Sys2Proof.Laws

/-!
SUPPORT. The canonical form of the byte memories: what rewrites them keeps it, and nothing else names them.
-/

namespace Sys2Proof.Laws
open Sys2Proof Sys2Proof.Machine
set_option Elab.async false -- a thread per proof would not fit beside the model in the check's memory

/-! ### The relation of one state to the next -/

/-- If the byte memories were in canonical form they still are. -/
structure KeepsCanonical (s t : State) : Prop where
  canonical : s.MemoriesCanonical → t.MemoriesCanonical

section
variable {s t u : State} {l : List Fld}

theorem KeepsCanonical.refl (s : State) : KeepsCanonical s s := ⟨id⟩

theorem KeepsCanonical.trans (h : KeepsCanonical s t) (k : KeepsCanonical t u) : KeepsCanonical s u :=
  ⟨k.canonical ∘ h.canonical⟩

/-- The bytes themselves are the same; what is known of the words around them may change. -/
theorem KeepsCanonical.of_bytes (creel : t.mem.creel = s.mem.creel) (osier : t.mem.osier = s.mem.osier)
    (stake : t.mem.stake = s.mem.stake) : KeepsCanonical s t :=
  ⟨fun h => ⟨creel ▸ h.creel, osier ▸ h.osier, stake ▸ h.stake⟩⟩

theorem KeepsCanonical.of_only (h : Only l s t) (e : (!l.contains .mem) = true := by rfl) : KeepsCanonical s t := by
  have same : t.mem = s.mem := h.same .mem (by simpa using e)
  exact .of_bytes (by rw [same]) (by rw [same]) (by rw [same])

theorem KeepsCanonical.step (h : KeepsCanonical s t) (k : Only l t u) (e : (!l.contains .mem) = true := by rfl) :
    KeepsCanonical s u :=
  h.trans (.of_only k e)

theorem KeepsCanonical.ite {c : Prop} [Decidable c] (h : KeepsCanonical s t) (k : KeepsCanonical s u) :
    KeepsCanonical s (if c then t else u) := by
  split
  · exact h
  · exact k

theorem KeepsCanonical.each {α : Type} {xs : List α} {g : α → State → State} (h : KeepsCanonical s t)
    (k : ∀ a v, KeepsCanonical v (g a v)) : KeepsCanonical s (Machine.each xs g t) := by
  refine h.trans ?_
  unfold Machine.each
  clear h
  induction xs generalizing t with
  | nil => exact .refl _
  | cons a xs ih => exact (k a t).trans ih

theorem KeepsCanonical.host {f : Nat} {g : State → State} (s : State) (h : ∀ t, KeepsCanonical t (g t)) :
    KeepsCanonical s (hostPut f g s) :=
  .ite ((KeepsCanonical.of_only (bumpAlways_only ..)).trans (h _)) (.refl _)

theorem KeepsCanonical.tap {code : Nat} {g : State → State} (s : State) (h : ∀ t, KeepsCanonical t (g t)) :
    KeepsCanonical s (tapRun code g s) :=
  .ite (h s) ((KeepsCanonical.of_only (selectIr_only ..)).step (shiftBypass_only ..))

end

/-! ### Writing a word -/

/-- The entries of a table after one was put: those before it, and the one. -/
theorem mem_tabSet {α : Type} {t : List (Nat × α)} {x : Nat} {v : α} {e : Nat × α} (h : e ∈ Tab.set t x v) : e ∈ t ∨ e.2 = v := by
  induction t with
  | nil => exact .inr (by rw [List.mem_singleton.mp h])
  | cons a t ih =>
    obtain ⟨k, w⟩ := a
    unfold Tab.set at h
    split at h
    · obtain rfl | h := List.mem_cons.mp h
      · exact .inr rfl
      · exact .inl h
    · split at h
      · obtain rfl | h := List.mem_cons.mp h
        · exact .inr rfl
        · exact .inl (.tail _ h)
      · obtain rfl | h := List.mem_cons.mp h
        · exact .inl (.head _)
        · exact (ih h).imp_left (.tail _)

/-- What a table answers for a key is an entry's value, or the default. -/
theorem tabGetD_mem {α : Type} (t : List (Nat × α)) (x : Nat) (d : α) : Tab.getD t x d = d ∨ ∃ e ∈ t, Tab.getD t x d = e.2 := by
  induction t with
  | nil => exact .inl rfl
  | cons a t ih =>
    obtain ⟨k, w⟩ := a
    unfold Tab.getD Tab.get?
    split
    · exact .inr ⟨(k, w), .head _, rfl⟩
    · split
      · exact .inl rfl
      · exact ih.imp_right fun ⟨e, he, h⟩ => ⟨e, .tail _ he, h⟩

/-- A write into one of several memories keeps each in canonical form. -/
theorem wf_of_mem_set_writeN {t : List (Nat × Mem)} (h : ∀ e ∈ t, Mem.wf e.2 = true) (i a : Nat) (bytes : List Byte) :
    ∀ e ∈ Tab.set t i (Mem.writeN (Tab.getD t i []) a bytes), Mem.wf e.2 = true := by
  intro e he
  obtain old | rfl' := mem_tabSet he
  · exact h e old
  · rw [rfl']
    refine writeN_wf _ _ ?_
    obtain none | ⟨k, hk, some⟩ := tabGetD_mem t i []
    · rw [none]; rfl
    · rw [some]; exact h k hk

theorem memPut_keepsCanonical (space index w value : Nat) (s : State) : KeepsCanonical s (memPut space index w value s) := by
  unfold memPut
  extract_lets put at_ old m m1 armed
  have written : KeepsCanonical s { s with mem := m1 } := by
    refine ⟨fun h => ?_⟩
    unfold m1
    split
    · exact ⟨writeN_wf _ _ h.creel, h.osier, h.stake⟩
    · split
      · exact ⟨h.creel, wf_of_mem_set_writeN h.osier _ _ _, h.stake⟩
      · exact ⟨h.creel, h.osier, wf_of_mem_set_writeN h.stake _ _ _⟩
  exact .ite (written.trans (.of_bytes rfl rfl rfl)) (.ite (written.trans (.of_bytes rfl rfl rfl)) written)

/-! ### Reading a word -/

theorem memWord_keepsCanonical (space index w : Nat) (s : State) : KeepsCanonical s (memWord space index w s).2 := by
  have advanced : ∀ c : Prop, ∀ _ : Decidable c, KeepsCanonical s (if c then nextFree s else s) := fun _ _ =>
    .ite (.of_only (nextFree_only s)) (.refl s)
  unfold memWord
  split
  · exact .refl s
  · extract_lets at_ free v s1
    split
    · exact advanced ..
    · split
      · exact (advanced (free = true) _).trans (.of_bytes rfl rfl rfl)
      · exact advanced ..

theorem windowRead_keepsCanonical (tap : Bool) (f : Nat) (s : State) : KeepsCanonical s (windowRead tap f s).2 := by
  unfold windowRead
  extract_lets n h space
  have read : KeepsCanonical s (if s.inTest then memWord space (h.memSel.toNat / 16 % 16) (h.memAddr.toNat / 8) s
      else ({ denied := true }, s)).2 := by
    split
    · exact memWord_keepsCanonical ..
    · exact .refl s
  generalize (if s.inTest then memWord space (h.memSel.toNat / 16 % 16) (h.memAddr.toNat / 8) s
    else ({ denied := true }, s)) = w at read ⊢
  obtain ⟨r, s1⟩ := w
  dsimp -zeta only
  extract_lets stop s2
  have counted : KeepsCanonical s s2 := (read.step (countBad_only ..)).step (modHost_only ..)
  split
  · exact counted.step (setLatches_only ..)
  · split
    · exact counted
    · exact counted.step (setLatches_only ..)

theorem readReg_keepsCanonical (tap : Bool) (f off : Nat) (s : State) : KeepsCanonical s (readReg tap f off s).2 := by
  unfold readReg
  split
  · exact windowRead_keepsCanonical ..
  · extract_lets l
    split
    · exact .refl _
    · have latched : ∀ l, KeepsCanonical s (if groupSize off = 0 then s else setLatches tap f l s) := fun _ =>
        .ite (.refl _) (.of_only (setLatches_only ..))
      exact (latched _).step (readClear_only ..)

theorem barRead_keepsCanonical (f off : Nat) (s : State) : KeepsCanonical s (barRead f off s) := by
  have read := readReg_keepsCanonical false f off s
  unfold barRead
  refine .ite (.refl _) (.ite (.of_only (readDone_only ..)) ?_)
  split
  next h => rw [h] at read; exact read.step (readDone_only ..)
  next h => rw [h] at read; exact read.step (emit_only ..)

/-! ### What the hub itself puts into the memories, and the resets -/

/-- External memory is none of the byte memories. -/
theorem storeExternal_keepsCanonical (a : Nat) (bytes : List Byte) (s : State) : KeepsCanonical s (storeExternal a bytes s) :=
  .of_bytes rfl rfl rfl

theorem keepCopy_keepsCanonical (img : List Byte) (s : State) : KeepsCanonical s (keepCopy img s) := by
  have retained : ∀ x, KeepsCanonical s { s with plait := x } := fun _ => .of_bytes rfl rfl rfl
  exact .ite ((retained _).trans (storeExternal_keepsCanonical ..)) (retained _)

theorem writeSplint_keepsCanonical (e : Export) (bytes : List Byte) (s : State) : KeepsCanonical s (writeSplint e bytes s) := by
  unfold writeSplint
  extract_lets k _ s1
  have sent : KeepsCanonical s s1 := .ite (.of_only (hostWrite_only ..)) (.ite
    (.of_bytes rfl rfl rfl) (storeExternal_keepsCanonical ..))
  exact ((sent.step (bumpAlways_only ..)).step (hubEvent_only ..)).step (modMeters_only ..)

theorem sendData_keepsCanonical (e : Export) (ecc : SplintEcc) (s : State) : KeepsCanonical s (sendData e ecc s) := by
  unfold sendData
  extract_lets i
  split
  · exact .refl _
  · exact ((((KeepsCanonical.refl s).each fun _ _ => .of_only (correctedWord_only ..)).each fun _ _ =>
      (KeepsCanonical.of_only (uncorrectableItem_only ..)).step (modCut_only ..)).trans (writeSplint_keepsCanonical ..)).step
        (putExport_only ..)

theorem sendManifest_keepsCanonical (e : Export) (s : State) : KeepsCanonical s (sendManifest e s) := by
  unfold sendManifest
  extract_lets l k n b e1 s1
  have written : KeepsCanonical s s1 := writeSplint_keepsCanonical ..
  exact .ite (((written.step (storePart_only ..)).step (dropExport_only ..)).step (complete_only ..))
    (written.step (putExport_only ..))

theorem acceptImage_keepsCanonical (by_ : Option Nat) (c : Checked) (l : List Section_) (lib : List LibEntry)
    (img : List Byte) (s : State) : KeepsCanonical s (acceptImage by_ c l lib img s) := by
  unfold acceptImage
  extract_lets id plane warp
  have loaded : KeepsCanonical s (keepCopy img (takeRole (noteImage by_ c.signed warp id (putLib lib s)))) :=
    (((KeepsCanonical.of_only (putLib_only ..)).step (noteImage_only ..)).step (takeRole_only _)).trans (keepCopy_keepsCanonical ..)
  have started := ((loaded.each (xs := List.range 64) fun p t => .of_only (modPart_only p (fun x =>
      { x with active := plane p, inactive := some (plane p), activeB := false, lastGen := 1 }) t)).each
    (xs := List.range 8) fun n t => .of_only (modPort_only n (fun x =>
      { x with warp := ((payloadOf l 0x11 n).map warpPortOf).getD WarpPort.none }) t)).each
    (xs := List.range 8) fun n t => .of_only (startLink_only n t)
  exact ((KeepsCanonical.ite (started.step (enterDetect_only ..)) started).step (noteOpenLab_only _)).step (bootAdvance_only _)

/-- Settles O15: State.reset lists no byte of any memory. -/
theorem resetMemoriesCanonical : Obligations.ResetMemoriesCanonical := by
  unfold Obligations.ResetMemoriesCanonical
  exact ⟨⟨reset_mem_wf, List.forall_mem_nil _, List.forall_mem_nil _⟩, rfl⟩

theorem powerReset_keepsCanonical (cause : BitVec 6) (s : State) : KeepsCanonical s (powerReset cause s) := by
  obtain ⟨creel, osier, stake⟩ := resetMemoriesCanonical.1
  exact ⟨fun _ => ⟨creel, osier, stake⟩⟩

theorem warmed_keepsCanonical (s : State) (cause : BitVec 6) : KeepsCanonical s (s.warmed cause) := .of_bytes rfl rfl rfl

theorem warmNow_keepsCanonical (cause : BitVec 6) (s : State) : KeepsCanonical s (warmNow cause s) :=
  (((KeepsCanonical.of_only (abortAll_only s)).step (releaseOutputs_only _)).trans (warmed_keepsCanonical ..)).step
    (noteOpenLab_only _)

theorem warmReset_keepsCanonical (cause : BitVec 6) (s : State) : KeepsCanonical s (warmReset cause s) :=
  .ite (.of_bytes rfl rfl rfl) (warmNow_keepsCanonical ..)

/-- SCRUB empties the Osier and Stake memories, and the Creel but for a warm reset in Test. -/
theorem scrub_keepsCanonical (s : State) : KeepsCanonical s (scrub s) := by
  obtain ⟨creel, osier, stake⟩ := resetMemoriesCanonical.1
  have emptied : ∀ x, KeepsCanonical s { s with mem := State.reset.mem, slath := x } := fun _ => ⟨fun _ => ⟨creel, osier, stake⟩⟩
  exact .ite ⟨fun h => ⟨h.creel, osier, stake⟩⟩ ((emptied _).each fun _ _ => .of_only (modPart_only ..))

/-! ### Register writes and the test access port -/

theorem writeHub_keepsCanonical (tap : Bool) (f off : Nat) (w : Wr) (s : State) : KeepsCanonical s (writeHub tap f off w s) :=
  .ite (.ite (warmReset_keepsCanonical ..) (.refl _)) (.ite (.of_bytes rfl rfl rfl)
    (.ite (.of_only (modHost_only ..)) (.ite (.of_only (modHost_only ..)) (.ite (.of_only (modHost_only ..)) (.refl _)))))

theorem writeReg_keepsCanonical (tap : Bool) (f off : Nat) (value : W32) (en : BitVec 4) (s : State) :
    KeepsCanonical s (writeReg tap f off value en s) :=
  .ite (.refl _) <| .ite (.ite (writeHub_keepsCanonical ..) (.refl _)) <|
    .ite (.ite (.of_only (writeWea_only ..)) (.refl _)) <| .ite (.of_only (writeSes_only ..)) <| .ite (.refl _) <|
      .ite (.ite (.of_only (writeNsl_only ..)) (.refl _)) <| .ite (.of_only (writeSel_only ..)) <|
        .ite (.of_only (writeMsix_only ..)) <| .ite (.of_only (writePart_only ..)) (.refl _)

theorem writeSpan_keepsCanonical (f off : Nat) (more : List (W32 × BitVec 4)) (s : State) :
    KeepsCanonical s (writeSpan f off more s) :=
  (KeepsCanonical.refl s).each fun _ t => .host t fun u => writeReg_keepsCanonical false f _ _ _ u

theorem regAccess_keepsCanonical (dr : Nat) (s : State) : KeepsCanonical s (regAccess dr s) := by
  unfold regAccess
  extract_lets off port vf isVf f load
  have loads : ∀ d v t, KeepsCanonical t (load d v t) := fun _ _ _ => .of_bytes rfl rfl rfl
  refine .ite (loads ..) (.ite ?_ ?_)
  · exact .ite (writeReg_keepsCanonical ..) ((writeReg_keepsCanonical ..).trans (loads ..))
  · have read := readReg_keepsCanonical true f off s
    generalize readReg true f off s = r at read ⊢
    obtain ⟨_ | v, t⟩ := r
    · exact (read.step (nextFree_only _)).trans (loads ..)
    · exact read.trans (loads ..)

theorem memAccess_keepsCanonical (dr : Nat) (s : State) : KeepsCanonical s (memAccess dr s) := by
  unfold memAccess
  extract_lets w space index write load
  have loads : ∀ r t, KeepsCanonical t (load r t) := fun _ _ => .of_bytes rfl rfl rfl
  refine .ite (loads ..) (.ite (loads ..) (.ite ((memPut_keepsCanonical ..).trans (loads ..)) ?_))
  exact ((memWord_keepsCanonical ..).step (countBad_only ..)).trans (loads ..)

theorem updateDr_keepsCanonical {us : Nat} {busy access : State → State} (s : State) (hb : ∀ t, KeepsCanonical t (busy t))
    (ha : ∀ t, KeepsCanonical t (access t)) : KeepsCanonical s (updateDr us busy access s) := by
  unfold updateDr
  extract_lets go
  have noted : ∀ t v, KeepsCanonical t { t with tap := v } := fun _ _ => .of_bytes rfl rfl rfl
  have goes : ∀ t, KeepsCanonical t (go t) := fun t => (noted t _).trans (ha _)
  exact .ite (goes s) (.ite ((KeepsCanonical.of_only (nextFree_only s)).trans (hb _))
    ((KeepsCanonical.of_only (nextFree_only s)).trans (goes _)))

/-! ### The commands that name the memories -/

theorem execScrubPhaseEnd_keepsCanonical (s : State) : Settles (KeepsCanonical s) (execScrubPhaseEnd s) := by
  have scrubbed : KeepsCanonical s (scrub s) := scrub_keepsCanonical s
  have hosted : ∀ v, KeepsCanonical s { scrub s with hosts := v } := fun _ => scrubbed.trans (.of_bytes rfl rfl rfl)
  refine .either ?_ (.refl s)
  split
  · exact scrubbed.step (enterPhase_only ..)
  · exact (hosted _).step (enterPhase_only ..)
  · exact (scrubbed.step (enterPhase_only ..)).step (startJunior_only _)
  · exact (scrubbed.step (enterPhase_only ..)).step (startJunior_only _)

theorem execImageCheckDone_keepsCanonical (s : State) : Settles (KeepsCanonical s) (execImageCheckDone s) := by
  unfold execImageCheckDone
  split
  · exact .of (.refl s)
  · extract_lets c s1
    have h1 : KeepsCanonical s s1 := (KeepsCanonical.of_only (nextFree_only _)).step (applyPatch_only ..)
    split
    · exact .of (h1.step (imageRejected_only ..))
    · extract_lets s2
      have h2 : KeepsCanonical s s2 := h1.trans (acceptImage_keepsCanonical ..)
      split
      · exact .of ((h2.step (modWea_only ..)).step (signal_only ..))
      · exact .of ((h2.each fun _ _ => .of_only (modWea_only ..)).step (signalPfs_only ..))

theorem execCutFreed_keepsCanonical (part : Part) (cut : W32) (s : State) :
    Settles (KeepsCanonical s) (execCutFreed part cut s) := by
  have freed : KeepsCanonical s (freeDump cut s) := .of_bytes rfl rfl rfl
  unfold execCutFreed
  extract_lets p held
  split
  · exact .of (.refl s)
  · extract_lets s1
    have h1 : KeepsCanonical s s1 := (freed.step (modPart_only ..)).step (cutRec_only ..)
    refine .ite (.of (.refl s)) ?_
    split
    · exact .of h1
    · dsimp only
      split
      · exact .of (.ite ((h1.step (modWork_only ..)).step (complete_only ..)) (h1.step (modWork_only ..)))
      · exact .of (h1.step (modWork_only ..))

theorem execSplintEmit_keepsCanonical (found : SplintEcc) (s : State) : Settles (KeepsCanonical s) (execSplintEmit found s) := by
  unfold execSplintEmit
  refine .ite (.of (.refl s)) ?_
  split
  · exact .of (.refl s)
  next e t h =>
    have turn : KeepsCanonical s (noteServed e (setDeficit e.fn (t.deficit e.fn - 1) t)) :=
      ((KeepsCanonical.of_only (findTurn_only h)).step (setDeficit_only ..)).step (noteServed_only ..)
    exact .of ((KeepsCanonical.ite (turn.trans (sendManifest_keepsCanonical ..)) (turn.trans (sendData_keepsCanonical ..))).step
      (clearDeficits_only _))

theorem execFuseBitAttemptEnd_keepsCanonical (took : Bool) (s : State) :
    Settles (KeepsCanonical s) (execFuseBitAttemptEnd took s) := by
  unfold execFuseBitAttemptEnd
  split
  · exact .of (.refl s)
  · split
    · have waited : ∀ v, KeepsCanonical s { s with lcy := v } := fun _ => .of_bytes rfl rfl rfl
      exact .of ((waited _).trans (warmNow_keepsCanonical ..))
    · exact .of (.of_only (burnAttempt_only ..))

theorem spoilItem_keepsCanonical (word : Nat) (place : CreelPlace) (s : State) : KeepsCanonical s (spoilItem word place s) := by
  unfold spoilItem
  cases place with
  | record => exact .of_only (modUnit_only ..)
  | staged => exact .of_only (modCut_only ..)
  | tier | graph | report => exact .of_only (modPart_only ..)
  | queue => exact .of_only (spoilQueue_only ..)
  | coder => exact .of_only (spoilCoder_only ..)
  | nothing | library => exact .of_bytes rfl rfl rfl
  | run => exact .ite (.of_only (modRun_only ..)) (.refl _)

theorem execPatrolScrub_keepsCanonical (word : Nat) (found : ScrubFind) (s : State) :
    Settles (KeepsCanonical s) (execPatrolScrub word found s) := by
  unfold execPatrolScrub
  extract_lets at_ find
  clear_value find
  have rewritten : ∀ m, m.creel = s.mem.creel → m.osier = s.mem.osier → m.stake = s.mem.stake →
      KeepsCanonical s (correctedWord false { s with mem := m }) := fun m hc ho hs =>
    (KeepsCanonical.of_bytes (t := { s with mem := m }) hc ho hs).step (correctedWord_only ..)
  refine .of ?_
  cases find with
  | bad place => exact (spoilItem_keepsCanonical ..).step (uncorrectableWord_only ..)
  | corrected => exact rewritten _ rfl rfl rfl
  | good => exact .refl _

theorem exec_keepsCanonical (i : Instr) (s : State) : Settles (KeepsCanonical s) (exec i s) := by
  have started : ∀ cause v c w, KeepsCanonical s { powerReset cause s with pins := v, clk := c, straps := w } :=
    fun cause _ _ _ => (powerReset_keepsCanonical cause s).trans (.of_bytes rfl rfl rfl)
  cases i with
  | powerOnReset | supplyDrop => exact .either ((started ..).step (nextFree_only _)) (.of_only (nextFree_only s))
  | clockFault => exact .either (started ..) (.refl s)
  | stakeWatchdogExpiry =>
    exact .either ((KeepsCanonical.of_only (raiseErr_only ..)).trans (warmReset_keepsCanonical ..)) (.refl s)
  | scrubPhaseEnd => exact execScrubPhaseEnd_keepsCanonical s
  | imageCheckDone => exact execImageCheckDone_keepsCanonical s
  | cutFreed part cut => exact execCutFreed_keepsCanonical part cut s
  | splintEmit found => exact execSplintEmit_keepsCanonical found s
  | fuseBitAttemptEnd took => exact execFuseBitAttemptEnd_keepsCanonical took s
  | hubCtrlWarmReset => exact .of (.host s fun _ => .ite (warmReset_keepsCanonical ..) (.refl _))
  | registerWrite fn offset =>
    refine .of (.host s fun t => ?_)
    cases offset with
    | bar => exact writeReg_keepsCanonical ..
    | span => exact (writeReg_keepsCanonical ..).trans (writeSpan_keepsCanonical ..)
    | msixControl => exact .of_only (writeMsixControl_only ..)
  | registerReadClear => exact .of ((KeepsCanonical.refl s).each fun _ _ => barRead_keepsCanonical ..)
  | latchingRead | memWindowRead => exact .of (barRead_keepsCanonical ..)
  | memAccess =>
    exact .of (.tap s fun _ => ((KeepsCanonical.of_only (selectIr_only ..)).step (shiftOut_only ..)).trans
      (updateDr_keepsCanonical _ (fun _ => .of_only (memBusy_only _)) fun _ => memAccess_keepsCanonical ..))
  | regAccess =>
    exact .of (.tap s fun _ => ((KeepsCanonical.of_only (selectIr_only ..)).step (shiftOut_only ..)).trans
      (updateDr_keepsCanonical _ (fun _ => .of_only (regBusy_only _)) fun _ => regAccess_keepsCanonical ..))
  | warmReset => exact .of (.tap s fun _ => (KeepsCanonical.of_only (selectIr_only ..)).trans (warmReset_keepsCanonical ..))
  | patrolScrub word found => exact execPatrolScrub_keepsCanonical word found s
  | _ => exact .of_touches fun _ h => .of_only h rfl

/-- Settles O14: the settling of the lattice and the idle step name no memory, and what a command writes keeps the form. -/
theorem memoriesStayCanonical : Obligations.MemoriesStayCanonical := by
  unfold Obligations.MemoriesStayCanonical
  intro s t before h
  unfold step at h
  split at h
  · obtain rfl : tick s = t := Host.Outcome.next.inj h
    exact (KeepsCanonical.of_only (tick_only s)).canonical before
  next i rest _ =>
    obtain ⟨u, hu, kept⟩ := exec_keepsCanonical i { s with pending := rest }
    obtain rfl : settle u = t := Host.Outcome.next.inj (hu.symm.trans h)
    exact (kept.step (settle_only u)).canonical ⟨before.creel, before.osier, before.stake⟩

end Sys2Proof.Laws

/-!
SUPPORT. Faults that are events of their own: what each notes in the error log and its class bit.
-/

namespace Sys2Proof.Laws
open Sys2Proof Sys2Proof.Machine
set_option Elab.async false -- a thread per proof would not fit beside the model in the check's memory

/-- The error registers behind a fault: its class bit, and its entry as the newest of the log. -/
structure Logged (s t : State) (cls scope inst addr detail action : Nat) : Prop where
  bit : t.err.status.getLsbD (cls - 1) = true
  log : t.err.log = (errEntry s cls scope inst addr detail action :: s.err.log).take 64

theorem getLsbD_or_one_shiftLeft {w : Nat} (x : BitVec w) {k : Nat} (h : k < w) : (x ||| (1#w <<< k)).getLsbD k = true := by
  simp [h]

theorem raiseErr_logged {cls : Nat} (scope inst addr detail action : Nat) (s : State) (h : cls - 1 < 14) :
    Logged s (raiseErr cls scope inst addr detail action s) cls scope inst addr detail action := by
  have err := (raiseErr_does cls scope inst addr detail action s).same .err (by decide)
  exact ⟨(congrArg (·.status.getLsbD (cls - 1)) err).trans (getLsbD_or_one_shiftLeft _ h), congrArg (·.log) err⟩

theorem Logged.of_only {l : List Fld} {s u t : State} {cls scope inst addr detail action : Nat}
    (h : Logged u t cls scope inst addr detail action) (k : Only l s u)
    (e : ([.now, .err] : List Fld).all (fun x => !l.contains x) = true := by rfl) :
    Logged s t cls scope inst addr detail action := by
  obtain ⟨now, err⟩ : (!l.contains .now) = true ∧ (!l.contains .err) = true := by simpa using e
  obtain ⟨bit, log⟩ := h
  refine ⟨bit, log.trans ?_⟩
  unfold errEntry
  rw [Only.now k now, Only.err k err]

/-! ### The patrol scrubber -/

/-- What a word that the scrubber finds bad leaves. -/
def patrolled (word : Nat) (place : CreelPlace) (s : State) : State :=
  spoilItem word place s |> uncorrectableWord false 6 0xFFFF (8 * word) 0 0

theorem execPatrolScrub_bad (word : Nat) (place : CreelPlace) (s : State) :
    exec (.patrolScrub word (.bad place)) s = done (patrolled word place s) := rfl

theorem patrolled_only (word : Nat) (place : CreelPlace) (s : State) :
    Only [.fns, .always, .err, .out] (spoilItem word place s) (patrolled word place s) := uncorrectableWord_only ..

theorem patrolled_logged (word : Nat) (place : CreelPlace) (s : State) :
    Logged s (patrolled word place s) 2 6 0xFFFF (8 * word) 0 0 :=
  ((raiseErr_logged _ _ _ _ _ _ (by decide)).of_only (bumpAlways_only ..)).of_only (spoilItem_only word place s)

theorem runs_patrolled {word : Nat} {place : CreelPlace} {s : State} {P : State → Prop} (quiet : s.fires = [])
    (p : P (patrolled word place s)) : Runs (.patrolScrub word (.bad place)) s P :=
  Runs.quiet (execPatrolScrub_bad word place s)
    ((Only.fires (patrolled_only ..) rfl).trans ((Only.fires (spoilItem_only ..) rfl).trans quiet)) p

theorem getElem?_modAt {α : Type} {l : List α} {i : Nat} {g : α → α} {x : α} (h : l[i]? = some x) :
    (modAt l i g)[i]? = some (g x) := by
  obtain ⟨lt, -⟩ := List.getElem?_eq_some_iff.mp h
  unfold modAt
  rw [h]
  exact List.getElem?_set_self lt

theorem execPatrolScrub_corrected {word : Nat} {s : State} (good : s.mem.ue.contains (0, 0, word) = false) :
    exec (.patrolScrub word .corrected) s =
      done (correctedWord false { s with mem := { s.mem with ce := s.mem.ce.filter (· != (0, 0, word)) } }) := by
  refine congrArg done ?_
  simp only [good, Bool.false_eq_true, if_false, ite_self]

/-- A class bit without an entry in the log. -/
theorem errBit_err (cls : Nat) (s : State) : (errBit cls s).err =
    { s.err with status := s.err.status ||| (1#14 <<< (cls - 1)),
                 statusSet := s.err.statusSet.add s.ctlCycle (1#32 <<< (cls - 1)) } :=
  (signalPfs_only 2 { s with err := _ }).same .err (by decide)

theorem execPatrolScrub_good {word : Nat} {s : State} (noUe : s.mem.ue.contains (0, 0, word) = false)
    (noCe : s.mem.ce.contains (0, 0, word) = false) : exec (.patrolScrub word .good) s = done s := by
  refine congrArg done ?_
  simp only [noUe, noCe, Bool.false_eq_true, if_false]

/-! ### The thermal sensor and the firmware -/

theorem execThermalTrip_armed {s : State} (armed : s.err.thermalArmed = true) :
    exec .thermalTrip s = done (raiseErr 0x0E 6 0xFFFF 0 0 0 { s with err := { s.err with thermalArmed := false } }) :=
  congrArg done (if_pos armed)

theorem execThermalTrip_disarmed {s : State} (disarmed : s.err.thermalArmed = false) : exec .thermalTrip s = done s :=
  congrArg done (if_neg (by simp [disarmed]))

/-- The registers that a fault leaves of the error log. -/
theorem raiseErr_keeps (cls scope inst addr detail action : Nat) (s : State) :
    (raiseErr cls scope inst addr detail action s).err.thermalArmed = s.err.thermalArmed ∧
      (raiseErr cls scope inst addr detail action s).err.stopped = s.err.stopped := by
  have err := (raiseErr_does cls scope inst addr detail action s).same .err (by decide)
  exact ⟨congrArg (·.thermalArmed) err, congrArg (·.stopped) err⟩

/-- Settles O59: a bad word is an entry of class 2 behind what is spoilt, and the sensor and the firmware make one of their
own class. -/
theorem faultEventsAct : Obligations.FaultEventsAct := by
  unfold Obligations.FaultEventsAct
  have logged := patrolled_logged
  have spoilt := patrolled_only
  refine ⟨fun s word quiet => runs_patrolled quiet ?nothing, fun s word place quiet => runs_patrolled quiet ?place,
    fun s word p i r quiet tier => runs_patrolled quiet ?tier, fun s word quiet good => ?corrected,
    fun s word quiet noUe noCe => (execPatrolScrub_good noUe noCe).trans (done_quiet quiet), fun s armed quiet => ?trip,
    fun s disarmed quiet => (execThermalTrip_disarmed disarmed).trans (done_quiet quiet),
    fun s quiet => done_quiet (u := { s with err := _ }) quiet, fun s quiet => ?stop⟩
  case nothing =>
    have mem := (spoilt word .nothing s).same .mem (by decide)
    refine ⟨?_, (logged ..).bit, (logged ..).log, congrArg (·.creel) mem⟩
    rw [mem]
    show _ ∈ if s.mem.ue.contains (0, 0, word) then s.mem.ue else s.mem.ue ++ [(0, 0, word)]
    split
    next known => simpa using known
    next => simp
  case place =>
    have same := (spoilt word place s).same
    exact ⟨(logged ..).bit, (logged ..).log, same .units (by decide), same .parts (by decide), same .osier (by decide),
      same .mem (by decide)⟩
  case tier =>
    have spoil := spoilt word (.tier p i) s
    refine ⟨?_, (spoil.same .mem (by decide)).trans ((modPart_only ..).same .mem (by decide))⟩
    rw [Only.part spoil rfl]
    show ((modPart _ _ s).part p.val).tier[i]? = _
    rw [part_modPart _ _ _ p.isLt]
    exact getElem?_modAt tier
  case corrected =>
    have counted := correctedWord_only false { s with mem := { s.mem with ce := s.mem.ce.filter (· != (0, 0, word)) } }
    have err := errBit_err 1 (bumpAlways 53 1 { s with mem := { s.mem with ce := s.mem.ce.filter (· != (0, 0, word)) } })
    exact Runs.quiet (execPatrolScrub_corrected good) ((Only.fires counted rfl).trans quiet)
      ⟨counted.same .mem (by decide), congrArg (·.status) err, congrArg (·.log) err⟩
  case trip =>
    obtain ⟨bit, log⟩ := raiseErr_logged (cls := 0x0E) 6 0xFFFF 0 0 0 { s with err := { s.err with thermalArmed := false } } (by decide)
    obtain ⟨disarmed, stopped⟩ := raiseErr_keeps 0x0E 6 0xFFFF 0 0 0 { s with err := { s.err with thermalArmed := false } }
    exact Runs.quiet (execThermalTrip_armed armed) ((Only.fires (raiseErr_only ..) rfl).trans quiet) ⟨disarmed, bit, log, stopped⟩
  case stop =>
    obtain ⟨bit, log⟩ := raiseErr_logged (cls := 4) 4 0xFFFF 0 0 4 { s with err := { s.err with stopped := true } } (by decide)
    obtain ⟨-, stopped⟩ := raiseErr_keeps 4 4 0xFFFF 0 0 4 { s with err := { s.err with stopped := true } }
    exact Runs.quiet (i := .firmwareStop) rfl ((Only.fires (raiseErr_only ..) rfl).trans quiet) ⟨stopped, bit, log⟩

end Sys2Proof.Laws

/-!
SUPPORT. The image over the Plait link and the heartbeat: what each does where its condition holds.
-/

namespace Sys2Proof.Laws
open Sys2Proof Sys2Proof.Machine
set_option Elab.async false -- a thread per proof would not fit beside the model in the check's memory

/-! ### The image -/

theorem execImageReqTimer_asks {s : State} (wants : s.wantsImage = true) (up : s.plaitUp = true)
    (spaced : s.after s.plait.lastReq 10000 = true) (due : s.plait.retryAt ≤ s.t) :
    exec .imageReqTimer s = done (plaitSend 2 0x20 0xFF [] { s with plait := { s.plait with lastReq := s.t } }) :=
  if_pos (by simp [wants, up, spaced, due])

theorem execImageReq_senior {s : State} (found : Ecc) (up : s.plaitUp = true) (role : s.plait.role = 2) :
    exec (.imageReq found) s = done (takeImageReq found s) := if_pos (by simp [up, role])

theorem takeImageReq_of_none {s : State} (found : Ecc) (none : s.plait.retained = none) :
    takeImageReq found s = plaitSend 2 0x22 0xFF [] s := by
  unfold takeImageReq
  rw [none]

/-- A copy without a bad word is sent in its parts. -/
theorem takeImageReq_of_some {s : State} {img : List Byte} (some : s.plait.retained = some img)
    (sound : s.inlineEcc = false ∨ s.plait.retainedBad = false) :
    takeImageReq .good s = each (imageParts (img.length / 4088 + 1) 0 img)
      (fun (off, b) => plaitSend 2 0x21 0xFF (leBytes 4 off ++ leBytes 4 img.length ++ b)) s := by
  unfold takeImageReq
  rw [some]
  obtain plain | whole := sound
  · simp [plain]
  · simp [whole]

theorem execImageData_up {s : State} {offset total : W32} {bytes : List Byte} (up : s.plaitUp = true) :
    exec (.imageData offset total bytes) s = done (takeImageData offset.toNat total.toNat bytes s) := if_pos up

theorem takeImageData_last {s : State} {total : Nat} {bytes : List Byte} (wants : s.wantsImage = true)
    (whole : total ≤ bytes.length) : takeImageData 0 total bytes s =
      { s with plait := { s.plait with imageBuf := [] }, weave := { s.weave with checking := some (none, bytes.take total) } } := by
  simp [takeImageData, wants, whole]

theorem takeImageData_more {s : State} {offset total : Nat} {bytes : List Byte} (wants : s.wantsImage = true)
    (later : offset ≠ 0) (follows : s.plait.imageBuf.length = offset) (more : offset + bytes.length < total) :
    takeImageData offset total bytes s = { s with plait := { s.plait with imageBuf := s.plait.imageBuf ++ bytes } } := by
  simp [takeImageData, wants, later, follows, Nat.not_le.mpr more]

/-! ### The heartbeat -/

theorem execHeartbeatPulse_begins {s : State} (on : s.pulses = true) (idle : s.plait.hbOut = .idle)
    (spaced : s.after s.plait.lastPulse 200 = true) : exec .heartbeatPulse s =
      done (emit (.heartbeat true) { s with plait := { s.plait with hbOut := .on s.t, lastPulse := s.t } }) :=
  if_pos (by simp [on, idle, spaced])

theorem execHeartbeatPulseEnd_ends {s : State} {t0 : Nat} (on : s.plait.hbOut = .on t0) (lasted : s.after t0 1 = true) :
    exec .heartbeatPulseEnd s = done (emit (.heartbeat false) { s with plait := { s.plait with hbOut := .idle } }) := by
  show execHeartbeatPulseEnd s = _
  unfold execHeartbeatPulseEnd
  rw [on]
  exact if_pos lasted

/-- The twin's heartbeat is no longer there. -/
def silent (s : State) : State := { s with plait := { s.plait with hbPresent := false } }

theorem execHeartbeatLost_up {s : State} (present : s.plait.hbPresent = true) (late : s.after s.plait.lastHb 1000 = true)
    (up : s.plaitUp = true) : exec .heartbeatLost s = done (plaitEvent 7 (silent s)) :=
  (if_pos (by simp [present, late])).trans (if_pos up)

theorem execHeartbeatLost_down {s : State} (present : s.plait.hbPresent = true) (late : s.after s.plait.lastHb 1000 = true)
    (down : s.plaitUp = false) (paired : s.plait.pair = .paired ∨ s.plait.pair = .split) :
    exec .heartbeatLost s = done (enterTwinLost (silent s)) :=
  (if_pos (by simp [present, late])).trans
    ((if_neg (by simp [down])).trans (if_pos (by obtain h | h := paired <;> simp [h])))

theorem execTwinAbsentTimeout_alone {s : State} (unpaired : s.plait.pair = .unpaired) (ready : s.boot.phase = .ready)
    (late : s.after s.plait.readyAt 100000 = true) (neverPaired : s.plait.everPaired = false)
    (neverReleased : s.plait.everReleased = false) (neverActive : s.plait.everActive = false)
    (neverHeard : s.plait.hbEver = false) : exec .twinAbsentTimeout s = done (enterTwinLost s) :=
  if_pos (by simp [unpaired, ready, late, neverPaired, neverReleased, neverActive, neverHeard])

/-- What follows the loss of the twin, and the settling of the lattice, leave what stands of the pair. -/
theorem settle_enterTwinLost_plait (s : State) :
    plaitStill (settle (enterTwinLost s)).plait = plaitStill { s.plait with pair := .twinLost } :=
  ((enterTwinLost_still s).trans (settle_still _)).plait

theorem pair_of_still {x y : PlaitCtl} (h : plaitStill x = plaitStill y) : x.pair = y.pair ∧ x.hbPresent = y.hbPresent :=
  ⟨congrArg PlaitStill.pair h, congrArg PlaitStill.hbPresent h⟩

/-- Settles O58: each event meets its condition, and what stands of the pair is left by what follows. -/
theorem twinImageAndHeartbeatAct : Obligations.TwinImageAndHeartbeatAct := by
  unfold Obligations.TwinImageAndHeartbeatAct
  refine ⟨fun s wants up spaced due => execImageReqTimer_asks wants up spaced due, fun s found up role none => ?noCopy,
    fun s img up role some sound => ?copy, fun s total bytes up wants whole quiet => ?last,
    fun s offset total bytes up wants later follows more quiet => ?more, fun s quiet => done_quiet quiet,
    fun s on idle spaced quiet => (execHeartbeatPulse_begins on idle spaced).trans (done_quiet quiet),
    fun s t0 on lasted quiet => (execHeartbeatPulseEnd_ends on lasted).trans (done_quiet quiet),
    fun s roled quiet => (if_pos roled).trans (done_quiet quiet), fun s present late up => ?silentUp,
    fun s present late down paired => ?silentDown,
    fun s unpaired ready late paired released active heard => ?absent⟩
  case noCopy => exact (execImageReq_senior found up role).trans (congrArg done (takeImageReq_of_none found none))
  case copy => exact (execImageReq_senior .good up role).trans (congrArg done (takeImageReq_of_some some sound))
  case last => exact (execImageData_up up).trans ((congrArg done (takeImageData_last wants whole)).trans (done_quiet quiet))
  case more =>
    have notFirst : offset.toNat ≠ 0 := fun h => later (BitVec.eq_of_toNat_eq h)
    exact (execImageData_up up).trans
      ((congrArg done (takeImageData_more wants notFirst follows more)).trans (done_quiet quiet))
  case silentUp =>
    have kept := ((plaitEvent_still 7 (silent s)).trans (settle_still _)).plait
    obtain ⟨pair, hbPresent⟩ := pair_of_still kept
    exact Runs.of_done (execHeartbeatLost_up present late up) ⟨hbPresent, pair⟩
  case silentDown =>
    have kept := settle_enterTwinLost_plait (silent s)
    obtain ⟨pair, hbPresent⟩ := pair_of_still kept
    exact Runs.of_done (execHeartbeatLost_down present late down paired) ⟨hbPresent, pair⟩
  case absent =>
    exact Runs.of_done (execTwinAbsentTimeout_alone unpaired ready late paired released active heard)
      (pair_of_still (settle_enterTwinLost_plait s)).1

end Sys2Proof.Laws

/-!
SUPPORT. What the lattice and the requests to a port leave of the Plait link's control: everything but its link layer; and
which requests a port has open behind one that was put with it.
-/

namespace Sys2Proof.Laws
open Sys2Proof Sys2Proof.Machine
set_option Elab.async false -- a thread per proof would not fit beside the model in the check's memory

/-! ### The Plait link's control -/

/-- Of what stands of the Plait link only the link layer may have changed. -/
def KeepsPlait (s t : State) : Prop := ∃ lk, t.plait = { s.plait with lk := lk }

section
variable {s t u : State} {l : List Fld}

theorem KeepsPlait.refl (s : State) : KeepsPlait s s := ⟨s.plait.lk, rfl⟩

theorem KeepsPlait.trans (h : KeepsPlait s t) (k : KeepsPlait t u) : KeepsPlait s u := by
  obtain ⟨x, hx⟩ := h
  obtain ⟨y, hy⟩ := k
  exact ⟨y, by rw [hy, hx]⟩

theorem KeepsPlait.of_only (h : Only l s t) (e : (!l.contains .plait) = true := by rfl) : KeepsPlait s t :=
  ⟨s.plait.lk, h.same .plait (by simpa using e)⟩

theorem KeepsPlait.step (h : KeepsPlait s t) (k : Only l t u) (e : (!l.contains .plait) = true := by rfl) : KeepsPlait s u :=
  h.trans (.of_only k e)

theorem KeepsPlait.ite {c : Prop} [Decidable c] (h : KeepsPlait s t) (k : KeepsPlait s u) :
    KeepsPlait s (if c then t else u) := by
  split
  · exact h
  · exact k

theorem KeepsPlait.each {α : Type} {xs : List α} {g : α → State → State} (h : KeepsPlait s t)
    (k : ∀ a v, KeepsPlait v (g a v)) : KeepsPlait s (Machine.each xs g t) := by
  refine h.trans ?_
  clear h
  unfold Machine.each
  induction xs generalizing t with
  | nil => exact .refl _
  | cons a xs ih => exact (k a t).trans ih

end

theorem modLnk_keepsPlait (l : Nat) (g : Lnk → Lnk) (s : State) : KeepsPlait s (modLnk l g s) := by
  unfold modLnk
  split
  · exact ⟨_, rfl⟩
  · exact .of_only (modPort_only ..)

theorem sendCtl_keepsPlait (l type sub : Nat) (body : List Byte) (s : State) : KeepsPlait s (sendCtl l type sub body s) :=
  (KeepsPlait.of_only (emit_only ..)).trans (modLnk_keepsPlait ..)

theorem sendFlit_keepsPlait (l : Nat) (f : Flit) (s : State) : KeepsPlait s (sendFlit l f s) :=
  ((modLnk_keepsPlait ..).step (putFlit_only ..)).trans (.ite (sendCtl_keepsPlait ..) (.refl _))

theorem pumpLoop_keepsPlait (l k : Nat) (s : State) : KeepsPlait s (pumpLoop l k s) := by
  induction k generalizing s with
  | zero => exact .refl s
  | succ k ih =>
    unfold pumpLoop
    dsimp only
    split
    · split
      · exact .refl s
      · split
        · exact .refl s
        · exact ((modLnk_keepsPlait ..).trans (sendFlit_keepsPlait ..)).trans (ih _)
    · exact .refl s

theorem sendReq_keepsPlait (l : Nat) (r : OutReq) (s : State) : KeepsPlait s (sendReq l r s) :=
  (modLnk_keepsPlait ..).trans (pumpLoop_keepsPlait ..)

theorem ask_keepsPlait (n ch op target : Nat) (wide : Bool) (p : Nat) (tag : W32) (who : ReqFor) (data : List Byte)
    (s : State) : KeepsPlait s (ask n ch op target wide p tag who data s) := sendReq_keepsPlait ..

theorem plaitSend_keepsPlait (ch op part : Nat) (data : List Byte) (s : State) : KeepsPlait s (plaitSend ch op part data s) :=
  .ite (sendReq_keepsPlait ..) (.refl _)

/-! ### The lattice -/

theorem sendHalts_keepsPlait (p : Nat) (abrupt : Bool) (host : Option (Nat × W32)) (ports : List Nat) (s : State) :
    KeepsPlait s (sendHalts p abrupt host ports s) := by
  unfold sendHalts
  split
  · exact (KeepsPlait.of_only (modWork_only ..)).each fun _ _ => ask_keepsPlait ..
  · exact (KeepsPlait.refl s).each fun _ _ => (KeepsPlait.of_only (modPart_only ..)).trans (ask_keepsPlait ..)

theorem cutGathered_keepsPlait (p : Nat) (s : State) : KeepsPlait s (cutGathered p s) :=
  have next : KeepsPlait s (modPart p (PartSt.mapNewest fun c => { c with stage := 1 }) s) := .of_only (modPart_only ..)
  .ite (.ite (next.step (assignEmpty_only ..))
    (next.each fun _ t => (KeepsPlait.refl t).each fun _ _ => ask_keepsPlait ..)) (.refl _)

theorem checkGather_keepsPlait (p : Nat) (s : State) : KeepsPlait s (checkGather p s) :=
  .ite (((KeepsPlait.of_only (modPart_only ..)).each fun _ _ => .of_only (completeHalt_only ..)).trans
    (cutGathered_keepsPlait ..)) (.refl _)

theorem raiseAction_keepsPlait (r : HaltReq) (h : AtHalt) (s : State) : KeepsPlait s (raiseAction r h s) := by
  unfold raiseAction
  extract_lets p cut abrupt h1 c joins own
  have halts (t : State) : KeepsPlait t (if (abrupt || r.host.isSome) = true then
      fallbackHalts p h1.abrupt r.host (sendHalts p h1.abrupt r.host ((List.range 8).filter (t.vc0Port p)) t) else t) :=
    .ite ((sendHalts_keepsPlait ..).step (fallbackHalts_only ..)) (.refl _)
  have cuts (g h : PartSt → PartSt) (t : State) :
      KeepsPlait t (if cut = true then modPart p g t else if joins = true then modPart p h t else t) :=
    .ite (.of_only (modPart_only ..)) (.ite (.of_only (modPart_only ..)) (.refl _))
  have forwards (body : List Byte) (t : State) :
      KeepsPlait t (if ((cut || abrupt) && h.forward) = true then plaitSend 0 1 p body t else t) :=
    .ite (plaitSend_keepsPlait ..) (.refl _)
  exact (((KeepsPlait.of_only (modPart_only ..)).trans (halts _)).trans (cuts ..)).trans (forwards ..)

theorem joinAction_keepsPlait (p mask : Nat) (h : AtHalt) (s : State) : KeepsPlait s (joinAction p mask h s) := by
  unfold joinAction
  dsimp only
  split
  · exact (raiseAction_keepsPlait ..).trans (.ite (checkGather_keepsPlait ..) (.refl _))
  · exact .of_only (modPart_only ..)

theorem edgeEffect_keepsPlait (p mask : Nat) (s : State) : KeepsPlait s (edgeEffect p mask s) := by
  unfold edgeEffect
  refine .ite ?_ ?_
  · split
    · exact joinAction_keepsPlait ..
    · exact .of_only (modPart_only ..)
  · have spent := fun g => KeepsPlait.of_only (modPart_only p g s)
    exact .ite (((spent _).step (modPart_only ..)).step (triggerRec_only ..)) (spent _)

theorem haltAction_keepsPlait (r : HaltReq) (fast : List Nat) (suppressed : Nat) (s : State) :
    KeepsPlait s (haltAction r fast suppressed s) := by
  unfold haltAction
  dsimp only
  refine (((KeepsPlait.step ?_ (noteAction_only ..)).step (bumpAlways_only ..)).step (hubEvent_only ..)).step (triggerRec_only ..)
  refine .ite (KeepsPlait.step ?_ (modPart_only ..)) ?_
  all_goals
    refine (KeepsPlait.each (KeepsPlait.each (.ite ?_ ?_) fun _ _ => .of_only (pulseXtrig_only ..)) fun _ _ =>
      .of_only (haltUnit_only ..)).step (modPart_only ..)
    · exact ((sendHalts_keepsPlait ..).step (fallbackHalts_only ..)).trans (plaitSend_keepsPlait ..)
    · exact (sendHalts_keepsPlait ..).step (fallbackHalts_only ..)

theorem performHalts_keepsPlait (l : List HaltReq) (s : State) : KeepsPlait s (performHalts l s) :=
  (((KeepsPlait.refl s).each fun _ _ => (KeepsPlait.of_only (freezeGraph_only ..)).step (enterHold_only ..)).each fun _ _ =>
    .of_only (assertHoop_only ..)).each fun _ _ => haltAction_keepsPlait ..

theorem edgeOnce_keepsPlait (host : List HaltReq) (s : State) : KeepsPlait s (edgeOnce host s) := by
  have spent : KeepsPlait s { s with fires := [] } := ⟨_, rfl⟩
  exact ((spent.each fun _ _ => edgeEffect_keepsPlait ..).trans (performHalts_keepsPlait ..)).each fun _ _ =>
    checkGather_keepsPlait ..

theorem latticeEdge_keepsPlait (host : List HaltReq) (s : State) : KeepsPlait s (latticeEdge host s) :=
  ((((KeepsPlait.refl s).each fun _ _ => .of_only (modPart_only ..)).trans (edgeOnce_keepsPlait host _)).each fun _ _ =>
    .of_only (modPart_only ..))

theorem settleLoop_keepsPlait (k : Nat) (s : State) : KeepsPlait s (settleLoop k s) := by
  induction k generalizing s with
  | zero => exact .refl _
  | succ k ih => exact .ite (.refl _) ((latticeEdge_keepsPlait [] s).trans (ih _))

theorem settle_keepsPlait (s : State) : KeepsPlait s (settle s) :=
  (settleLoop_keepsPlait 512 s).trans ⟨_, rfl⟩

/-! ### The requests that a port has open -/

/-- Every request that a port has open was open before, with its message and its purpose. -/
structure NoNewAsks (s t : State) : Prop where
  asked : ∀ n, n < 8 → Asks (t.lnk n) (s.lnk n)

theorem NoNewAsks.refl (s : State) : NoNewAsks s s := ⟨fun _ _ => .refl _⟩

theorem NoNewAsks.trans {s t u : State} (h : NoNewAsks s t) (k : NoNewAsks t u) : NoNewAsks s u :=
  ⟨fun n b => (k.asked n b).trans (h.asked n b)⟩

theorem NoNewAsks.of_only {l : List Fld} {s t : State} (h : Only l s t) (e : (!l.contains .ports) = true := by rfl) :
    NoNewAsks s t := by
  refine ⟨fun n b => ?_⟩
  rw [lnk_of_port _ b, lnk_of_port _ b, Only.port h e]
  exact .refl _

theorem lnk_modLnk_ne (l n : Nat) (g : Lnk → Lnk) (s : State) (b : n < 8) (other : n ≠ l) :
    (modLnk l g s).lnk n = s.lnk n := by
  unfold modLnk
  split
  · rw [lnk_of_port _ b, lnk_of_port s b]; rfl
  · rw [lnk_of_port _ b, lnk_of_port _ b, port_modPort_ne _ _ _ _ other]

theorem modLnk_noNewAsks {l : Nat} {g : Lnk → Lnk} {s : State} (h : l < 8 → Asks (g (s.lnk l)) (s.lnk l)) :
    NoNewAsks s (modLnk l g s) := by
  refine ⟨fun n b => ?_⟩
  by_cases same : n = l
  · subst same
    rw [lnk_modLnk _ _ _ (by omega)]
    exact h b
  · rw [lnk_modLnk_ne _ _ _ _ b same]
    exact .refl _

theorem setTx_tx (x : Lnk) (ch : Nat) (c : TxChan) : (x.setTx ch c).tx ch = c := by
  unfold Lnk.setTx Lnk.tx
  split
  · rfl
  · split <;> rfl

theorem setTx_back (x : Lnk) (ch : Nat) (c : TxChan) : (x.setTx ch c).setTx ch (x.tx ch) = x := by
  unfold Lnk.setTx Lnk.tx
  split
  · rfl
  · split <;> rfl

/-- Putting the old channel back shows what the new one had open. -/
theorem setTx_asks {x : Lnk} {ch : Nat} {c : TxChan} (h : AsksCh c (x.tx ch)) : Asks (x.setTx ch c) x := by
  have back := asks_setTx (x.setTx ch c) ch (x.tx ch) ((setTx_tx x ch c).symm ▸ h)
  rwa [setTx_back] at back

theorem beginMsg_asks (answered : Bool) (now : Nat) (c : TxChan) : AsksCh (beginMsg answered now c) c := by
  intro r hr
  unfold beginMsg at hr
  dsimp only at hr
  split at hr
  next q _ next =>
    obtain out | waits := hr
    · split at out
      · obtain old | new := List.mem_append.mp out
        · exact ⟨r, .inl old, rfl, rfl⟩
        · rw [List.mem_singleton.mp new]
          exact ⟨q, .inr (List.mem_of_getElem? next), rfl, rfl⟩
      · exact ⟨r, .inl out, rfl, rfl⟩
    · exact ⟨r, .inr (List.mem_of_mem_eraseIdx waits), rfl, rfl⟩
  next => exact ⟨r, hr, rfl, rfl⟩

theorem sent_asks (x : Lnk) (f : Flit) (now : Nat) : Asks (x.sent f now) x := by
  unfold Lnk.sent
  refine Asks.trans (setTx_asks (c := _) fun r hr => ⟨r, hr, rfl, rfl⟩) (asks_of_tx rfl rfl rfl)

theorem sendCtl_noNewAsks (l type sub : Nat) (body : List Byte) (s : State) : NoNewAsks s (sendCtl l type sub body s) :=
  (NoNewAsks.of_only (emit_only ..)).trans (modLnk_noNewAsks fun _ => asks_of_tx rfl rfl rfl)

theorem controlSlot_noNewAsks (l : Nat) (s : State) : NoNewAsks s (controlSlot l s) := by
  unfold controlSlot
  split
  · exact sendCtl_noNewAsks ..
  · exact .refl _

theorem sendFlit_noNewAsks (l : Nat) (f : Flit) (s : State) : NoNewAsks s (sendFlit l f s) := by
  have put : NoNewAsks s (modLnk l (fun _ => (s.lnk l).sent f s.t) s) := modLnk_noNewAsks fun _ => sent_asks _ _ _
  exact (put.trans (.of_only (putFlit_only ..))).trans (controlSlot_noNewAsks ..)

theorem pumpLoop_noNewAsks (l k : Nat) (s : State) : NoNewAsks s (pumpLoop l k s) := by
  induction k generalizing s with
  | zero => exact .refl s
  | succ k ih =>
    unfold pumpLoop
    dsimp only
    split
    · split
      · exact .refl s
      · split
        · exact .refl s
        · refine ((modLnk_noNewAsks fun _ => ?_).trans (sendFlit_noNewAsks ..)).trans (ih _)
          exact (asks_of_tx rfl rfl rfl).trans (setTx_asks (beginMsg_asks _ _ _))
    · exact .refl s

/-- What a link has open with a channel set is in that channel or was open before. -/
theorem mem_open_setTx {x : Lnk} {ch : Nat} {c : TxChan} {r : OutReq} (h : r ∈ (x.setTx ch c).open_) :
    r ∈ x.open_ ∨ r ∈ c.outst ∨ r ∈ c.waiting := by
  rw [mem_open] at h ⊢
  unfold Lnk.setTx at h
  split at h
  · tauto
  · split at h <;> tauto

theorem mem_open_of_tx {x : Lnk} {ch : Nat} {r : OutReq} (h : r ∈ (x.tx ch).outst ∨ r ∈ (x.tx ch).waiting) :
    r ∈ x.open_ := by
  rw [mem_open]
  unfold Lnk.tx at h
  split at h
  · exact .inl (.inl h)
  · split at h
    · exact .inl (.inr h)
    · exact .inr h

/-- Behind a request that was put with a port, what a port has open is that request or was open before. -/
theorem ask_newest {n ch op target : Nat} {wide : Bool} {p : Nat} {tag : W32} {who : ReqFor} {data : List Byte} {s : State}
    {m : Nat} {r : OutReq} (b : m < 8) (h : r ∈ ((ask n ch op target wide p tag who data s).lnk m).open_) :
    (∃ r' ∈ (s.lnk m).open_, r'.msg = r.msg ∧ r'.who = r.who) ∨ (m = n ∧ r.who = who) := by
  obtain ⟨q, hq, hmsg, hwho⟩ := (pumpLoop_noNewAsks ..).asked m b r h
  by_cases same : m = n
  · subst same
    rw [lnk_modLnk _ _ _ (by omega)] at hq
    have old (h : q ∈ (s.lnk m).open_) : ∃ r' ∈ (s.lnk m).open_, r'.msg = r.msg ∧ r'.who = r.who := ⟨q, h, hmsg, hwho⟩
    obtain was | out | waits := mem_open_setTx hq
    · exact .inl (old was)
    · exact .inl (old (mem_open_of_tx (.inl out)))
    · obtain was | new := List.mem_append.mp waits
      · exact .inl (old (mem_open_of_tx (.inr was)))
      · rw [List.mem_singleton.mp new] at hwho
        exact .inr ⟨rfl, hwho.symm⟩
  · rw [lnk_modLnk_ne _ _ _ _ b same] at hq
    exact .inl ⟨q, hq, hmsg, hwho⟩
end Sys2Proof.Laws

/-!
SUPPORT. The stakes: a claim behind others, a hand-over's end, a renewal and a claim that is due again.
-/

namespace Sys2Proof.Laws
open Sys2Proof Sys2Proof.Machine
set_option Elab.async false -- a thread per proof would not fit beside the model in the check's memory

theorem leaseMs_of_only {l : List Fld} {s t : State} (h : Only l s t) (e : (!l.contains .weave) = true := by rfl) :
    t.leaseMs = s.leaseMs := by
  have kept : t.weave = s.weave := h.same .weave (by simpa using e)
  unfold State.leaseMs State.warpField
  rw [kept]

theorem modStake_noNewAsks (n p : Nat) (g : StakeView → StakeView) (s : State) : NoNewAsks s (modStake n p g s) := by
  refine ⟨fun m b => ?_⟩
  rw [lnk_of_port _ b, lnk_of_port _ b]
  by_cases same : m = n
  · subst same
    unfold modStake
    rw [port_modPort _ _ _ b]
    exact .refl _
  · unfold modStake
    rw [port_modPort_ne _ _ _ _ same]
    exact .refl _

theorem NoNewAsks.each {α : Type} {l : List α} {g : α → State → State} {s t : State} (h : NoNewAsks s t)
    (k : ∀ a v, NoNewAsks v (g a v)) : NoNewAsks s (Machine.each l g t) := by
  refine h.trans ?_
  clear h
  unfold Machine.each
  induction l generalizing t with
  | nil => exact .refl _
  | cons a l ih => exact (k a t).trans ih

/-- No claim of this stake is open, and a lease lasts as it did. -/
structure Unclaimed (n p lease : Nat) (t : State) : Prop where
  lease : t.leaseMs = lease
  free : ∀ r ∈ (t.lnk n).open_, r.who ≠ .claim p

section
variable {n p lease : Nat} {s t : State}

theorem claiming_eq_false (b : n < 8) : s.claiming n p = false ↔ ∀ r ∈ (s.lnk n).open_, r.who ≠ .claim p := by
  simp [State.claiming, lnk_of_port _ b]

theorem Unclaimed.keep (b : n < 8) (h : Unclaimed n p lease s) (asks : NoNewAsks s t) (same : t.leaseMs = s.leaseMs) :
    Unclaimed n p lease t := by
  refine ⟨same.trans h.lease, fun r hr => ?_⟩
  obtain ⟨r', hr', -, who⟩ := asks.asked n b r hr
  exact who ▸ h.free r' hr'

theorem Unclaimed.claim (b : n < 8) (h : Unclaimed n p lease s) {m q : Nat} (other : (m, q) ≠ (n, p)) :
    Unclaimed n p lease (Machine.claim m q s) := by
  refine ⟨(leaseMs_of_only (claim_only m q s)).trans h.lease, fun r hr => ?_⟩
  unfold Machine.claim at hr
  split at hr
  · exact h.free r hr
  · obtain ⟨r', was, -, who⟩ | ⟨rfl, who⟩ := ask_newest b hr
    · exact who ▸ h.free r' was
    · rintro claims
      exact other (by rw [who] at claims; cases claims; rfl)

theorem claim_sent (b : n < 8) (free : s.claiming n p = false) :
    Sent (claim n p s) n 0 0x10 0 false p 0 (leBytes 2 s.leaseMs) (.claim p) := by
  unfold claim
  rw [free]
  exact ask_sent n 0 0x10 0 false p 0 (.claim p) (leBytes 2 s.leaseMs) s b (by omega)

theorem claim_grows (n p : Nat) (s : State) : Grows s (claim n p s) := ite_grows _ (.refl _) (ask_grows ..)

theorem checkHandoffIn_grows (s : State) : Grows s (checkHandoffIn s) :=
  each_grows (.refl _) fun h t =>
    have struck : Grows t { t with plait := { t.plait with handoffIn := t.plait.handoffIn.erase h } } :=
      .of_eq rfl rfl rfl rfl rfl
    ite_grows _ (.refl _) (struck.trans (plaitSend_grows ..))

end

theorem KeepsPlait.lastRenew {s t : State} (h : KeepsPlait s t) : t.plait.lastRenew = s.plait.lastRenew := by
  obtain ⟨lk, e⟩ := h
  rw [e]

@[simp] theorem getD_set {α : Type} (t : List (Nat × α)) (x : Nat) (v d : α) : Tab.getD (Tab.set t x v) x d = v := by
  simp [Tab.getD, get?_set]

theorem execHandoff_up {s : State} {mask : W64} (up : s.plaitUp = true) : exec (.handoff mask) s = done (takeHandoff mask s) :=
  if_pos up

theorem takeHandoff_sent {s : State} {mask : W64} {n p : Nat} (named : (n, p) ∈ s.maskPairs mask.toNat) (b : n < 8)
    (free : s.claiming n p = false) :
    Sent (takeHandoff mask s) n 0 0x10 0 false p 0 (leBytes 2 s.leaseMs) (.claim p) := by
  unfold takeHandoff
  refine sent_grow ?_ (checkHandoffIn_grows _) b
  refine each_reaches (I := Unclaimed n p s.leaseMs)
    (J := fun t => Sent t n 0 0x10 0 false p 0 (leBytes 2 s.leaseMs) (.claim p)) named (fun (m, q) other t h => h.claim b other)
    (fun t h => ?_) (fun _ _ h => sent_grow h (claim_grows ..) b) ?_
  · rw [← h.lease]
    exact claim_sent b ((claiming_eq_false b).mpr h.free)
  · have start : Unclaimed n p s.leaseMs s := ⟨rfl, (claiming_eq_false b).mp free⟩
    have heard : NoNewAsks s { s with plait := { s.plait with handoffIn := s.plait.handoffIn ++ [{ mask := mask }] } } :=
      ⟨fun m b => by rw [lnk_of_port _ b, lnk_of_port _ b]; exact .refl _⟩
    refine start.keep b (heard.each fun _ _ => NoNewAsks.each (.refl _) fun _ _ => modStake_noNewAsks ..) ?_
    refine (each_eq State.leaseMs (fun _ t => ?_) _ _)
    exact leaseMs_of_only (each_only (.refl [.ports] t) fun _ _ => modStake_only ..)

theorem execHandoffDone_up {s : State} {claimed refused : W64} (up : s.plaitUp = true) :
    exec (.handoffDone claimed refused) s = done (takeHandoffDone claimed refused s) := if_pos up

/-- With one hand-over under way, the twin's answer ends it. -/
theorem takeHandoffDone_of_one {s : State} {h : Handoff} {claimed refused : W64} (one : s.plait.handoff = [h]) :
    takeHandoffDone claimed refused s = complete h.fn h.tag
      { status := if refused != 0 then stStakeHeldByTwin else stOk, part := refused != 0, r0 := (partsIn claimed.toNat).length,
        r1 := (partsIn refused.toNat).length } { s with plait := { s.plait with handoff := [] } } := by
  have found : s.handoffOf (claimed ||| refused) = some h := by
    unfold State.handoffOf
    rw [one]
    cases e : (h.sent && h.mask == (claimed ||| refused)) <;> simp [e]
  unfold takeHandoffDone
  simp [found, one]

theorem execStakeRenewTimer_renews {s : State} (ready : s.boot.phase = .ready) (runs : s.err.stopped = false)
    (due : s.after s.plait.lastRenew (s.leaseMs * 250) = true) : exec .stakeRenewTimer s =
      done (each (s.heldSet.filter fun (n, _) => s.takesReq n) (fun (n, p) => askRenew n p)
        { s with plait := { s.plait with lastRenew := s.t } }) := if_pos (by simp [ready, runs, due])

/-- What STAKE_CLAIM_RETRY does at a retry that has come due. -/
theorem execStakeClaimRetry_due {s : State} {n : Port} {p : Part} {t0 : Nat} (at_ : (s.stake n.val p.val).retryAt = some t0)
    (due : t0 ≤ s.t) : exec (.stakeClaimRetry n p) s =
      done (if !s.retries p.val then modStake n.val p.val (fun x => { x with retryAt := none }) s
        else if s.takesReq n.val then claim n.val p.val (modStake n.val p.val (fun x => { x with retryAt := none }) s) else s) := by
  show execStakeClaimRetry n p s = _
  unfold execStakeClaimRetry
  rw [at_]
  exact if_pos due

theorem modStake_retryAt (n : Port) (p : Nat) (s : State) :
    ((modStake n.val p (fun x => { x with retryAt := none }) s).stake n.val p).retryAt = none := by
  unfold State.stake modStake
  rw [port_modPort _ _ _ n.isLt]
  simp

theorem askRenew_sent {n : Nat} (p : Nat) (s : State) (b : n < 8) :
    Sent (askRenew n p s) n 0 0x11 0 false p 0 (leBytes 4 0) (.renew p) := ask_sent n 0 0x11 0 false p 0 _ _ s b (by omega)

theorem askRenew_grows (n p : Nat) (s : State) : Grows s (askRenew n p s) := ask_grows ..

/-- Each stake held over a link that takes requests is renewed. -/
theorem renewAll_sent {s : State} {n p : Nat} {l : List (Nat × Nat)} (held : (n, p) ∈ l) (b : n < 8) :
    Sent (each l (fun (n, p) => askRenew n p) s) n 0 0x11 0 false p 0 (leBytes 4 0) (.renew p) := by
  have grows : ∀ (e : Nat × Nat) t, Grows t ((fun (n, p) => askRenew n p : Nat × Nat → State → State) e t) :=
    fun e t => askRenew_grows e.1 e.2 t
  have asked : ∀ t, Sent ((fun (n, p) => askRenew n p : Nat × Nat → State → State) (n, p) t) n 0 0x11 0 false p 0
    (leBytes 4 0) (.renew p) := fun t => askRenew_sent p t b
  exact each_mem_sent (P := fun t => Sent t n 0 0x11 0 false p 0 (leBytes 4 0) (.renew p)) grows held
    (fun _ _ g h => sent_grow h g b) asked s

theorem renewAll_keepsPlait (l : List (Nat × Nat)) (s : State) : KeepsPlait s (each l (fun (n, p) => askRenew n p) s) :=
  (KeepsPlait.refl s).each fun _ _ => ask_keepsPlait ..

/-- Settles O57. A claim of a hand-over goes out behind the others of its mask, since no other names its stake. -/
theorem stakesAct : Obligations.StakesAct := by
  refine ⟨?handoff, ?claims, ?ends, ?renews, ?again, ?givesUp, ?waits⟩
  case handoff =>
    intro s mask up
    exact execHandoff_up up
  case claims =>
    intro s mask n p up named b free
    have hp : p < 64 := by
      simp only [State.maskPairs, List.mem_flatMap, List.mem_range] at named
      obtain ⟨m, -, hm⟩ := named
      split at hm
      · simp only [List.mem_map, List.mem_filter, List.mem_range, Prod.mk.injEq] at hm
        obtain ⟨q, ⟨hq, -⟩, -, rfl⟩ := hm
        exact hq
      · cases hm
    exact Runs.of_done (execHandoff_up up) (sent_grow (takeHandoff_sent named b (free n b p hp)) (settle_grows _) b)
  case ends =>
    intro s h c claimed refused up one hf hc quiet
    have ends := (execHandoffDone_up (claimed := claimed) (refused := refused) up).trans (congrArg done (takeHandoffDone_of_one one))
    have only := complete_only h.fn h.tag
      { status := if refused != 0 then stStakeHeldByTwin else stOk, part := refused != 0, r0 := (partsIn claimed.toNat).length,
        r1 := (partsIn refused.toNat).length } { s with plait := { s.plait with handoff := [] } }
    refine Runs.quiet ends ((only.same .fires (by simp)).trans quiet) ⟨?_, answers_later _ hf hc ⟨rfl⟩ (List.prefix_refl _) rfl⟩
    exact congrArg PlaitCtl.handoff (only.same .plait (by simp))
  case renews =>
    intro s n p ready runs due held takes b
    exact Runs.of_done (execStakeRenewTimer_renews ready runs due)
      ⟨((renewAll_keepsPlait ..).trans (settle_keepsPlait _)).lastRenew,
        sent_grow (renewAll_sent (List.mem_filter.mpr ⟨held, takes⟩) b) (settle_grows _) b⟩
  case again =>
    intro s n p t0 at_ due retries takes free
    have claims : exec (.stakeClaimRetry n p) s =
        done (claim n.val p.val (modStake n.val p.val (fun x => { x with retryAt := none }) s)) := by
      rw [execStakeClaimRetry_due at_ due, retries, takes]
      rfl
    refine Runs.of_done claims (sent_grow ?_ (settle_grows _) n.isLt)
    have lease := leaseMs_of_only (modStake_only n.val p.val (fun x => { x with retryAt := none }) s)
    have start : Unclaimed n.val p.val s.leaseMs s := ⟨rfl, (claiming_eq_false n.isLt).mp free⟩
    have still := start.keep n.isLt (modStake_noNewAsks n.val p.val (fun x => { x with retryAt := none }) s) lease
    rw [← lease]
    exact claim_sent n.isLt ((claiming_eq_false n.isLt).mpr still.free)
  case givesUp =>
    intro s n p t0 at_ due spent quiet
    have ends : exec (.stakeClaimRetry n p) s = done (modStake n.val p.val (fun x => { x with retryAt := none }) s) := by
      rw [execStakeClaimRetry_due at_ due, spent]
      rfl
    exact Runs.of_only quiet ends (modStake_only ..) ⟨modStake_retryAt .., modStake_only ..⟩
  case waits =>
    intro s n p t0 at_ due retries down quiet
    rw [execStakeClaimRetry_due at_ due, retries, down]
    exact done_quiet quiet

end Sys2Proof.Laws

/-!
SUPPORT. A STAKE_NOTE that takes the stake of a partition whose commit and whose reset are both under way.
-/

namespace Sys2Proof.Laws
open Sys2Proof Sys2Proof.Machine
set_option Elab.async false -- a thread per proof would not fit beside the model in the check's memory

/-- COMMIT_WEFT of partition 3. -/
def resetCommitCmd : Cmd :=
  { desc := BitVec.ofNat 512 (0x71 + 3 * 256 ^ 2 + 7 * 256 ^ 4), tag := 7, fetched := 0, heldDup := false, started := true,
    work := .init }

/-- Its commit, which waits for the settle point. -/
def resetCommit : Commit :=
  { fn := 5, tag := 7, fetched := 0, deadline := 0, gen := 1, watchApply := false, portMask := 0, switched := false,
    settled := none, oldGen := 0, imageId := 0, unitsLeft := [], skipped := 0, portsLeft := [], previous := [],
    failedPorts := [], failedAgain := [], affected := [] }

/-- The Plait link is up; session 5's commit of partition 3 waits, and the partition's reset has been asked for. -/
def committingInReset : State :=
  let r := modFn 5 (fun x => { x with inflight := [resetCommitCmd] })
    (modPart 3 (fun x => { x with owner := some 5, commit := some resetCommit, resetPending := true }) State.reset)
  { r with plait := { r.plait with lk := { r.plait.lk with link := .active } } }

/-- The statuses of the completion entries among what a command drives. -/
def statuses (l : List Out) : List Byte :=
  l.filterMap fun
    | .hostWrite _ _ b => b[4]?
    | _ => none

/-- What a command has driven behind it. -/
def drivenBy : Host.Outcome State Fault Refusal → List Out
  | .next t => t.out
  | _ => []

theorem statuses_committingInReset :
    statuses (drivenBy (exec (.stakeNote 3 4 0 0) committingInReset)) = [stAbortedByReset] := by decide +kernel

theorem status_mem_statuses {l : List Out} {port : Nat} {a : W64} {c : Cpl} {phase : Bool}
    (h : Out.hostWrite port a (cplBytes c phase) ∈ l) : c.status ∈ statuses l :=
  List.mem_filterMap.mpr ⟨_, h, by simp [cplBytes, leBytes]⟩

/-- Refutes O56: a commit that ends while its partition's reset is pending ends with ABORTED_BY_RESET, whatever ends it
(R117). The clause of STAKE_NOTE says STAKE_HELD_BY_TWIN for it too. -/
theorem not_twinMessagesAct : ¬ Obligations.TwinMessagesAct := by
  unfold Obligations.TwinMessagesAct
  rintro ⟨-, -, -, -, -, -, taken, -⟩
  obtain ⟨t, ends, -, answered⟩ := taken committingInReset 3 4 0 resetCommit resetCommitCmd (by decide +kernel)
    (by decide +kernel) (by decide) (by decide +kernel) rfl (by decide) (by decide +kernel)
  have cold : (committingInReset.fn resetCommit.fn).d3hot = false := by decide +kernel
  have entry := answered.entry
  rw [cold] at entry
  obtain ⟨l, driven, written⟩ := entry
  have seen : stStakeHeldByTwin ∈ statuses (drivenBy (exec (.stakeNote 3 4 0 0) committingInReset)) := by
    rw [ends]
    exact status_mem_statuses (driven ▸ List.mem_append_right _ written)
  rw [statuses_committingInReset] at seen
  exact absurd seen (by decide)

end Sys2Proof.Laws

/-!
SUPPORT. TWIN_PAIR and TWIN_RELEASE behind their checks, the judgement of a HELLO, and LIFECYCLE_ADVANCE.
-/

namespace Sys2Proof.Laws
open Sys2Proof Sys2Proof.Machine
set_option Elab.async false -- a thread per proof would not fit beside the model in the check's memory

/-! ### The check of TWIN_PAIR once the command has started -/

/-- A start adds no command that a selection takes which marks of a start do not enter. -/
theorem no_cmds_started_of {s : State} {f : Nat} {tag : W32} {sel : Nat → Cmd → Bool}
    (hs : ∀ k c w, sel k { c with started := true, work := w } = true → sel k c = true) (h : s.cmdsWhere sel = []) :
    (started f tag s).cmdsWhere sel = [] := by
  rw [cmdsWhere_nil] at h ⊢
  intro k hk c hc
  unfold started modCmd at hc
  by_cases e : k = f
  · subst e
    rw [fn_modFn _ _ _ hk] at hc
    obtain ⟨x, hx, rfl⟩ := List.mem_map.mp hc
    have unselected := h k hk x hx
    split
    · by_contra selected
      simp only [Bool.not_eq_false, Bool.and_eq_true, Bool.not_eq_true'] at selected
      obtain ⟨chosen, held⟩ := selected
      simp [hs k x _ chosen, held] at unselected
    · exact unselected
  · rw [fn_modFn_ne _ _ _ _ e] at hc
    exact h k hk c hc

theorem handoffBusy_started {s : State} {f : Nat} {tag : W32} {p : Nat} (h : s.handoffBusy p = false) :
    (started f tag s).handoffBusy p = false := by
  unfold State.handoffBusy at h ⊢
  rw [Bool.or_eq_false_iff, Bool.not_eq_false', List.isEmpty_iff] at h ⊢
  obtain ⟨free, none⟩ := h
  have still := no_cmds_started_of (f := f) (tag := tag) (fun _ c w chosen => ?_) none
  · refine ⟨?_, still⟩
    rw [Only.part (started_only f tag s) rfl]
    exact free
  · unfold Cmd.waitingWeft at chosen
    simp only [Bool.not_true, Bool.and_false, Bool.false_and, Bool.false_or] at chosen
    rw [Bool.or_eq_true]
    exact .inr chosen

theorem twinCheck_started {s : State} {f g : Nat} {tag : W32} {c : Cmd} (h : s.twinCheck g c = none) :
    (started f tag s).twinCheck g { c with started := true } = none := by
  unfold State.twinCheck at h ⊢
  rw [firstFail_eq_none] at h ⊢
  simp only [List.forall_mem_cons, List.not_mem_nil, false_imp_iff, implies_true, and_true] at h ⊢
  obtain ⟨stopped, role, mask, link, pairing, held, busy, takeover⟩ := h
  have idle : (c.op == 0xA0 && c.f 52 1 == 1 && (partsIn c.partMask).any (started f tag s).handoffBusy) = false := by
    rw [Bool.and_eq_false_iff] at busy ⊢
    refine busy.imp_right fun none => List.any_eq_false.mpr fun p hp => ?_
    rw [handoffBusy_started (Bool.eq_false_iff.mpr (List.any_eq_false.mp none p hp))]
    decide
  obtain ⟨v, hv⟩ := started_frame f tag s
  rw [hv] at idle ⊢
  exact ⟨stopped, role, mask, link, pairing, held, idle, takeover⟩

/-! ### TWIN_PAIR -/

section
variable {s : State} {f : Fn} {tag : W32} {c : Cmd}

theorem execTwinPair_checked (w : Waits s f.val tag 0xA0 c) (passes : s.twinCheck f.val c = none) :
    exec (.twinPair f tag) s = done (if c.f 52 1 = 0 then pairCmd f.val tag (started f.val tag s)
      else if c.f 52 1 = 1 then handoffCmd f.val tag c.partMask (started f.val tag s)
      else takeoverCmd f.val tag c.partMask c.fetched (started f.val tag s)) := by
  refine congrArg done ((startCmd_eq _ w).trans ?_)
  dsimp only
  rw [twinCheck_started passes]
  rfl

theorem execTwinPair_refused {st : Byte} (w : Waits s f.val tag 0xA0 c)
    (refused : (started f.val tag s).twinCheck f.val c = some st) :
    exec (.twinPair f tag) s = done (fail f.val tag st (started f.val tag s)) := by
  refine congrArg done ((startCmd_eq _ w).trans ?_)
  have same : (started f.val tag s).twinCheck f.val { c with started := true } = some st := refused
  dsimp only
  rw [same]

theorem pairCmd_paired (paired : s.plait.pair = .paired) : pairCmd f.val tag s =
    complete f.val tag { already := true, r0 := s.heldSet.length, r1 := s.twinSet.length } s := if_pos (by simp [paired])

theorem pairCmd_asks (apart : s.plait.pair ≠ .paired) : pairCmd f.val tag s =
    sendHello true { s with plait := { s.plait with hello := none } } := if_neg (by simpa using apart)

end

theorem refusal_plain {s : State} {c : Cmd} (st : Byte) (h0 : c.op ≠ 0x70) (h1 : c.op ≠ 0x71) :
    s.refusal c st = { status := st } := by
  simp [State.refusal, h0, h1]

/-- A refusal of a command that has no other words than its status. -/
theorem fail_started {s : State} {f : Nat} {tag : W32} {c : Cmd} {op : Nat} (st : Byte) (w : Waits s f tag op c)
    (h0 : op ≠ 0x70) (h1 : op ≠ 0x71) :
    fail f tag st (started f tag s) = complete f tag { status := st } (started f tag s) := by
  unfold fail
  rw [cmd_started w.here]
  have notReweave : c.op ≠ 0x70 := w.op ▸ h0
  have notCommit : c.op ≠ 0x71 := w.op ▸ h1
  exact congrArg (complete f tag · _) (refusal_plain st notReweave notCommit)

/-- A command that ends as it starts: its answer, and what a completion leaves. -/
theorem Runs.ends {i : Instr} {s : State} {f op : Nat} {tag : W32} {c : Cmd} {P : State → Prop} {r : Res} (hf : f < 68)
    (w : Waits s f tag op c) (h : exec i s = done (complete f tag r (started f tag s)))
    (p : ∀ t, Answers s t f c r → Only [.fns, .always, .out] s t → P t) : Runs i s P := by
  have only : Only [.fns, .always, .out] s (complete f tag r (started f tag s)) :=
    (started_only ..).within.andThen (complete_only ..)
  exact Runs.quiet h ((only.same .fires (by decide)).trans w.quiet) (p _ (answers_started r hf w.here) only)

/-! ### The judgement of the twin's HELLO -/

theorem writeHoopCtrl_still (n p : Nat) (s : State) : Still s (writeHoopCtrl n p s) := by
  unfold writeHoopCtrl
  extract_lets w want rises s1 m _ s2
  have asked : Still s s1 := ask_still ..
  have sent : Still s s2 := .ite (plaitSend_still ..) (.refl _)
  exact .ite (.refl _) (.ite (.ite (asked.trans (.onPlait (plaitSend_still ..))) asked) (sent.trans (ask_still ..)))

theorem sendWithheld_still (s : State) : Still s (sendWithheld s) :=
  each_still (.refl s) fun _ _ => .ite (writeHoopCtrl_still ..) (.refl _)

theorem sendWithheld_out (s : State) : s.out <+: (sendWithheld s).out :=
  ((KeepsLinks.refl s).each fun _ _ => .ite (writeHoopCtrl_keepsLinks ..) (.refl _)).out

/-- The state in which a hub stands whose pairing the twin's values refuse, before what follows from it. -/
def mismatched (code : Nat) (s : State) : State :=
  { s with plait := { s.plait with pair := .unpaired, mismatch := BitVec.ofNat 4 code, gotView := none, gotFast := false,
                                   enWait := [] } }

/-- What follows a failed pairing, before its commands end. -/
def mismatchTold (code : Nat) (s : State) : State := sendWithheld (plaitEvent 6 (mismatched code s))

theorem mismatchTold_still (code : Nat) (s : State) : Still (mismatched code s) (mismatchTold code s) :=
  (plaitEvent_still ..).trans (sendWithheld_still _)

theorem mismatchTold_rings (code : Nat) (s : State) : Rings s (mismatchTold code s) := by
  have marked : Rings s (mismatched code s) := ⟨rfl⟩
  exact (marked.trans (plaitEvent_rings ..)).trans (.of_only (sendWithheld_only _) rfl)

theorem mismatchTold_out (code : Nat) (s : State) : s.out <+: (mismatchTold code s).out :=
  (plaitEvent_keepsLinks 6 (mismatched code s)).out.trans (sendWithheld_out _)

theorem mismatchTold_now (code : Nat) (s : State) : (mismatchTold code s).now = s.now :=
  ((sendWithheld_only _).same .now (by decide)).trans ((plaitEvent_only 6 (mismatched code s)).same .now (by decide))

theorem pairCmds_of_rings {s t : State} (h : Rings s t) : t.pairCmds = s.pairCmds := cmdsWhere_rings h _

theorem pairFails_of_one {s : State} {f : Nat} {c : Cmd} (code : Nat) (one : s.pairCmds = [(f, c)]) :
    pairFails code s = complete f c.tag { status := stBusy, r2 := code } (mismatchTold code s) := by
  have asked : (mismatchTold code s).pairCmds = [(f, c)] := (pairCmds_of_rings (mismatchTold_rings code s)).trans one
  show each (mismatchTold code s).pairCmds _ _ = _
  rw [asked]
  rfl

/-- The twin's HELLO as the hub notes it. -/
def helloNoted (h : Hello) (s : State) : State := { s with plait := { s.plait with hello := some h } }

theorem execHello_judged {s : State} {h : Hello} (up : s.plaitUp = true) (roled : s.twinRoled = true)
    (ready : s.boot.phase = .ready) (twinReady : h.ready = true) (answers : h.request = false) (apart : s.plait.pair = .unpaired)
    (asked : s.pairCmds ≠ []) (differs : s.mismatchCode h ≠ 0) :
    exec (.hello h) s = done (pairFails (s.mismatchCode h) (helloNoted h s)) := by
  refine (if_pos up).trans (congrArg done ?_)
  have noted : takeHello h s = tryPairing (helloNoted h s) := by
    unfold takeHello
    rw [answers]
    rfl
  have kept : (helloNoted h s).pairCmds = s.pairCmds := pairCmds_of_rings ⟨rfl⟩
  have judged : ((helloNoted h s).twinRoled && (helloNoted h s).plaitUp && (helloNoted h s).boot.phase == .ready && h.ready &&
      ((helloNoted h s).pairPolicy == 2 || h.request || (helloNoted h s).plait.pair == .split ||
        (helloNoted h s).plait.pair == .twinLost || !(helloNoted h s).pairCmds.isEmpty) &&
      ((helloNoted h s).plait.pair == .unpaired || (helloNoted h s).plait.pair == .split ||
        (helloNoted h s).plait.pair == .twinLost)) = true := by
    have roled' : (helloNoted h s).twinRoled = true := roled
    have up' : (helloNoted h s).plaitUp = true := up
    have ready' : (helloNoted h s).boot.phase = .ready := ready
    have apart' : (helloNoted h s).plait.pair = .unpaired := apart
    simp [roled', up', ready', twinReady, apart', kept, asked]
  rw [noted]
  exact (if_pos judged).trans (if_neg differs)

/-! ### TWIN_RELEASE -/

section
variable {s : State} {f : Fn} {tag : W32} {c : Cmd}

/-- The release as it is noted. -/
def releaseNoted (s : State) : State := { s with plait := { s.plait with everReleased := true } }

theorem execTwinRelease_checked (w : Waits s f.val tag 0xA1 c) (passes : s.twinCheck f.val c = none) :
    exec (.twinRelease f tag) s = done (if s.plait.pair == .unpaired then
        complete f.val tag { already := true } (releaseNoted (started f.val tag s))
      else complete f.val tag {} (unpair (plaitSend 1 0x15 0xFF [] (releaseNoted (started f.val tag s))))) := by
  refine congrArg done ((startCmd_eq _ w).trans ?_)
  have same : (started f.val tag s).plait.pair = s.plait.pair := congrArg PlaitCtl.pair ((started_only ..).same .plait (by decide))
  have passed := twinCheck_started (f := f.val) (tag := tag) passes
  generalize started f.val tag s = u at same passed ⊢
  dsimp only
  rw [passed, ← same]
  rfl

end

/-- Where the pair stands as it is dissolved, before what follows from it. -/
def dissolved (s : State) : State :=
  { s with plait := { s.plait with pair := .unpaired, settling := 0, gotView := none, gotFast := false, enWait := [],
                                   keepsTime := s.plait.everPaired } }

theorem unpair_still (s : State) : Still (dissolved s) (unpair s) :=
  ((plaitEvent_still ..).trans (sendWithheld_still _)).trans (pairEnds_still ..)

/-! ### LIFECYCLE_ADVANCE -/

section
variable {s : State} {f : Fn} {tag : W32} {c : Cmd} {l : Lifecycle}

theorem execLifecycleAdvance_checked (w : Waits s f.val tag 0xB0 c) (runs : s.err.stopped = false)
    (first : s.lcyFirst f.val c = none) (target : targetOf (c.f 52 1) = some l) (passes : s.targetCheck l = none) :
    exec (.lifecycleAdvance f tag) s = done (if l == s.voted then
        complete f.val tag { already := true, r0 := s.lcyWord l false true } (started f.val tag s)
      else askBurn (Burn.ask (some l) none (.command f.val tag)) (started f.val tag s)) := by
  refine congrArg done ((startCmd_eq _ w).trans ?_)
  have frame : ∃ v, started f.val tag s = { s with fns := v } := started_frame ..
  obtain ⟨runs', first', passes', voted, word⟩ : (started f.val tag s).err.stopped = false ∧
      (started f.val tag s).lcyFirst f.val { c with started := true } = none ∧ (started f.val tag s).targetCheck l = none ∧
      (started f.val tag s).voted = s.voted ∧ (started f.val tag s).lcyWord l false true = s.lcyWord l false true := by
    obtain ⟨v, hv⟩ := frame
    rw [hv]
    exact ⟨runs, first, passes, rfl, rfl⟩
  have target' : targetOf (({ c with started := true } : Cmd).f 52 1) = some l := target
  dsimp only
  rw [runs', first', target']
  dsimp only [Option.getD]
  rw [passes', voted, word]
  rfl

theorem askBurn_starts {s : State} (idle : s.lcy.burn = none) (by_ : BurnFor) :
    askBurn (Burn.ask (some l) none by_) s =
      { s with lcy := { s.lcy with burn := some { target := some l, key := none, todo := s.lcy.fuses.burnList l, attempts := 0, burned := 0, escalated := false, by_ := by_ } } } := by
  unfold askBurn
  rw [idle]
  rfl

end

/-! ### The statement -/

theorem execTakeoverTimeout_ends {s : State} {f : Fn} {tag : W32} {c : Cmd} {d : Nat} (here : s.cmd f.val tag = some c)
    (op : c.op = 0xA0) (begun : c.started = true) (mode : c.f 52 1 = 2) (limit : c.work.deadline = some d) (due : d ≤ s.t) :
    exec (.takeoverTimeout f tag) s = done (complete f.val tag
      { status := stStakeHeldByTwin, part := true, r0 := (s.takeover c).1, r1 := (s.takeover c).2 } s) := by
  show execTakeoverTimeout f tag s = _
  unfold execTakeoverTimeout
  rw [here]
  exact if_pos (by simp [op, begun, mode, limit, due])

/-- A PAIR whose HELLO meets other values: the hub stays apart, with the code, and the command ends. -/
theorem hello_mismatched {s : State} {h : Hello} {f : Nat} {c : Cmd} (up : s.plaitUp = true) (roled : s.twinRoled = true)
    (ready : s.boot.phase = .ready) (twinReady : h.ready = true) (answers : h.request = false) (apart : s.plait.pair = .unpaired)
    (one : s.pairCmds = [(f, c)]) (hf : f < 68) (here : s.cmd f c.tag = some c) (differs : s.mismatchCode h ≠ 0) :
    Runs (.hello h) s fun t => t.plait.pair = .unpaired ∧ t.plait.mismatch = BitVec.ofNat 4 (s.mismatchCode h) ∧
      Answers s t f c { status := stBusy, r2 := s.mismatchCode h } := by
  have asked : (helloNoted h s).pairCmds = [(f, c)] := (pairCmds_of_rings ⟨rfl⟩).trans one
  have noted : Rings s (helloNoted h s) := ⟨rfl⟩
  have ends := (execHello_judged up roled ready twinReady answers apart (by simp [one]) differs).trans
    (congrArg done (pairFails_of_one (s.mismatchCode h) asked))
  obtain ⟨t, runs, still, -, answered⟩ := exec_completes ends (answers_later _ hf here
    (noted.trans (mismatchTold_rings ..)) (mismatchTold_out _ (helloNoted h s)) (mismatchTold_now ..))
  have kept := ((mismatchTold_still _ (helloNoted h s)).trans still).plait
  exact ⟨t, runs, congrArg PlaitStill.pair kept, congrArg PlaitStill.mismatch kept, answered⟩

/-- A release of a pair: the hub stands apart, and has released. -/
theorem twinRelease_dissolves {s : State} {f : Fn} {tag : W32} {c : Cmd} (w : Waits s f.val tag 0xA1 c)
    (passes : s.twinCheck f.val c = none) (pair : s.plait.pair ≠ .unpaired) :
    Runs (.twinRelease f tag) s fun t =>
      t.plait.pair = .unpaired ∧ t.plait.everReleased = true ∧ t.cmd f.val tag = none := by
  have ends := (execTwinRelease_checked w passes).trans (congrArg done (if_neg (by simpa using pair)))
  have sent : Still (releaseNoted (started f.val tag s)) (plaitSend 1 0x15 0xFF [] (releaseNoted (started f.val tag s))) :=
    plaitSend_still ..
  have left := (unpair_still (plaitSend 1 0x15 0xFF [] (releaseNoted (started f.val tag s)))).trans
    ((complete_still f.val tag {} _).trans (settle_still _))
  have released : (plaitSend 1 0x15 0xFF [] (releaseNoted (started f.val tag s))).plait.everReleased = true :=
    congrArg PlaitStill.everReleased sent.plait
  have gone := ((settle_grows _).fns f.val).gone tag (complete_gone {} (unpair (plaitSend 1 0x15 0xFF [] (releaseNoted (started f.val tag s)))) f.isLt)
  exact Runs.of_done ends ⟨congrArg PlaitStill.pair left.plait, (congrArg PlaitStill.everReleased left.plait).trans released, gone⟩

theorem plait_started (f : Nat) (tag : W32) (s : State) : (started f tag s).plait = s.plait :=
  (started_only ..).same .plait (by decide)

theorem sets_started (f : Nat) (tag : W32) (s : State) :
    (started f tag s).heldSet = s.heldSet ∧ (started f tag s).twinSet = s.twinSet := by
  obtain ⟨v, hv⟩ := started_frame f tag s
  rw [hv]
  exact ⟨rfl, rfl⟩

section
variable {s : State} {f : Fn} {tag : W32} {c : Cmd} {l : Lifecycle}

theorem execTwinPair_already (w : Waits s f.val tag 0xA0 c) (passes : s.twinCheck f.val c = none) (mode : c.f 52 1 = 0)
    (paired : s.plait.pair = .paired) : exec (.twinPair f tag) s = done (complete f.val tag
      { already := true, r0 := s.heldSet.length, r1 := s.twinSet.length } (started f.val tag s)) := by
  obtain ⟨held, twin⟩ := sets_started f.val tag s
  rw [execTwinPair_checked w passes, if_pos mode, pairCmd_paired ((plait_started ..).symm ▸ paired), held, twin]

theorem execTwinPair_asks (w : Waits s f.val tag 0xA0 c) (passes : s.twinCheck f.val c = none) (mode : c.f 52 1 = 0)
    (apart : s.plait.pair ≠ .paired) : exec (.twinPair f tag) s = done (sendHello true
      { started f.val tag s with plait := { s.plait with hello := none } }) := by
  rw [execTwinPair_checked w passes, if_pos mode, pairCmd_asks ((plait_started ..).symm ▸ apart), plait_started]

/-- A release that finds the hub apart is noted all the same. -/
theorem twinRelease_apart (w : Waits s f.val tag 0xA1 c) (passes : s.twinCheck f.val c = none)
    (apart : s.plait.pair = .unpaired) :
    Runs (.twinRelease f tag) s fun t => Answers s t f.val c { already := true } ∧
      t.plait = { s.plait with everReleased := true } := by
  have ends := (execTwinRelease_checked w passes).trans (congrArg done (if_pos (by simp [apart])))
  have noted : Only [.plait] (started f.val tag s) (releaseNoted (started f.val tag s)) :=
    upd_plait (.refl ..) rfl
  have only := complete_only f.val tag { already := true } (releaseNoted (started f.val tag s))
  have quiet : (releaseNoted (started f.val tag s)).fires = [] := ((started_only ..).same .fires (by decide)).trans w.quiet
  refine Runs.quiet ends ((only.same .fires (by decide)).trans quiet) ⟨answers_of_only _ f.isLt w.here noted, ?_⟩
  have kept : (releaseNoted (started f.val tag s)).plait = { s.plait with everReleased := true } := by
    rw [← plait_started f.val tag s]
    rfl
  exact (only.same .plait (by decide)).trans kept

/-- A transition begins to burn. -/
theorem lifecycleAdvance_burns (w : Waits s f.val tag 0xB0 c) (runs : s.err.stopped = false)
    (first : s.lcyFirst f.val c = none) (target : targetOf (c.f 52 1) = some l) (passes : s.targetCheck l = none)
    (new : l ≠ s.voted) (idle : s.lcy.burn = none) :
    Runs (.lifecycleAdvance f tag) s fun t => t.lcy = { s.lcy with burn := some { target := some l, key := none, todo := s.lcy.fuses.burnList l, attempts := 0, burned := 0, escalated := false, by_ := .command f.val tag } } ∧ Only [.fns, .lcy] s t := by
  obtain ⟨v, hv⟩ := started_frame f.val tag s
  have idle' : (started f.val tag s).lcy.burn = none := by
    rw [hv]
    exact idle
  have ends := (execLifecycleAdvance_checked w runs first target passes).trans
    (congrArg done ((if_neg (by simpa using new)).trans (askBurn_starts idle' (.command f.val tag))))
  rw [hv] at ends
  have only : Only [.fns] s { s with fns := v } := hv ▸ started_only f.val tag s
  refine Runs.quiet ends w.quiet ⟨rfl, ?_⟩
  exact upd_lcy only.within rfl

end

/-- Settles O44: each command is judged by its check as it starts; what follows a change of the pair leaves where the pair
stands. -/
theorem twinAndLifecycleCommandsAct : Obligations.TwinAndLifecycleCommandsAct := by
  unfold Obligations.TwinAndLifecycleCommandsAct
  refine ⟨?already, ?handoff, ?takeover, ?refused, ?asks, ?judged, ?timeout, ?dissolves, ?apart, ?burns, ?there⟩
  case already =>
    intro s f tag c w passes mode paired
    exact Runs.ends f.isLt w (execTwinPair_already w passes mode paired) fun t answered only =>
      ⟨answered, only.same .plait (by decide)⟩
  case handoff =>
    intro s f tag c w passes mode
    exact (execTwinPair_checked w passes).trans (congrArg done ((if_neg (by omega)).trans (if_pos mode)))
  case takeover =>
    intro s f tag c w passes mode
    exact (execTwinPair_checked w passes).trans (congrArg done ((if_neg (by omega)).trans (if_neg (by omega))))
  case refused =>
    intro s f tag c st w refused
    have ends := (execTwinPair_refused w refused).trans (congrArg done (fail_started st w (by decide) (by decide)))
    exact Runs.ends f.isLt w ends fun t answered only => ⟨answered, only.same .plait (by decide)⟩
  case asks => exact fun s f tag c w passes mode apart => execTwinPair_asks w passes mode apart
  case judged => exact fun s h f c up roled ready twinReady answers apart one hf here differs =>
    hello_mismatched up roled ready twinReady answers apart one hf here differs
  case timeout =>
    intro s f tag c d here op begun mode limit due quiet
    have ends := execTakeoverTimeout_ends here op begun mode limit due
    exact Runs.of_only quiet ends (complete_only ..) (complete_answers _ f.isLt here)
  case dissolves => exact fun s f tag c w passes pair => twinRelease_dissolves w passes pair
  case apart => exact fun s f tag c w passes apart => twinRelease_apart w passes apart
  case burns => exact fun s f tag c l w runs first target passes new idle =>
    lifecycleAdvance_burns w runs first target passes new idle
  case there =>
    intro s f tag c l w runs first target passes there
    have ends := (execLifecycleAdvance_checked w runs first target passes).trans (congrArg done (if_pos (by simp [there])))
    exact Runs.ends f.isLt w ends fun t answered only => ⟨answered, only.same .lcy (by decide)⟩

end Sys2Proof.Laws

/-!
SUPPORT. The coder's answer and its stall, the adaptor's timer and NSL7_SCAN_CTRL: what each command does where its
condition holds.
-/

namespace Sys2Proof.Laws
open Sys2Proof Sys2Proof.Machine
set_option Elab.async false -- a thread per proof would not fit beside the model in the check's memory

/-! ### The coder -/

/-- The coder of a partition waits for an answer which its run has given, with a record to code. -/
structure Answered (p : Nat) (s : State) (q : Run) (r : TraceRec) (l : List TraceRec) : Prop where
  posted : (s.part p).coder.posted.isSome = true
  run : (s.part p).coder.run.bind s.run = some q
  tier : (s.part p).tier = r :: l
  coded : (s.part p).coder.coded = true
  given : (s.part p).coder.exch.toNat ≤ q.inTail.toNat

/-- A record coded with the tables of an answer, or with uniform ones where it is no table, which is counted. -/
def codedRecord (p : Nat) (q : Run) (r : TraceRec) (s : State) : State :=
  let tables := answerTables q (s.part p).coder.exch.toNat
  let counted := if tables.isNone then modPart p (fun x => { x with coder := { x.coder with codeBad := satInc x.coder.codeBad } }) s
    else s
  spendCreel (spoilCoder s.injectHit p
    (codeRecord p (tables.getD (uniformTable, uniformTable)).1 (tables.getD (uniformTable, uniformTable)).2 r counted))

/-- What follows a coded record: the periodic reset, or the next frame of the port. -/
def codedOn (p : Nat) (u : State) : State :=
  checkSwitch p (if periodicFrames ≤ (u.part p).coder.frames then forceReset p 9 u else pumpPort p u)

section
variable {s : State} {p : Part} {q : Run} {r : TraceRec} {l : List TraceRec}

/-- The read of an answer which meets a word that is not to be corrected. -/
theorem execCoderAnswerRead_eq (found : Ecc) (h : Answered p.val s q r l) (plain : found ≠ .corrected) :
    exec (.coderAnswerRead p found) s = if (found == .bad || (s.part p.val).coder.bad) = true then
        done (endRun q runException exPoison (uncorrectableItem false 5 q.core q.id.toNat 2 s))
      else done (codedOn p.val (codedRecord p.val q r s)) := by
  obtain ⟨n, posted⟩ := Option.isSome_iff_exists.mp h.posted
  show execCoderAnswerRead p found s = _
  unfold execCoderAnswerRead
  have uncorrected : (found == .corrected && (s.part p.val).coder.posted.isSome) = false := by simp [plain]
  have due : (!(s.part p.val).coder.coded || decide (q.inTail.toNat < (s.part p.val).coder.exch.toNat)) = false := by
    simp [h.coded, h.given]
  dsimp only
  rw [uncorrected, if_neg Bool.false_ne_true, posted, h.run, h.tier]
  dsimp only
  rw [due, if_neg Bool.false_ne_true]
  split
  · rfl
  · unfold codedOn codedRecord
    rw [apply_ite (checkSwitch _), apply_ite done]

/-- The coder's condition for coding a record with uniform tables for want of an answer. -/
theorem execCodingStall_stalls {n : Nat} (posted : (s.part p.val).coder.posted = some n)
    (run : (s.part p.val).coder.run.bind s.run = some q) (coded : (s.part p.val).coder.coded = true)
    (late : s.after n 1000 = true) (owed : q.inTail.toNat < (s.part p.val).coder.exch.toNat) :
    exec (.codingStall p) s = done (checkSwitch p.val (syncCoder p.val 6
      (modPart p.val (fun x => { x with coder := { x.coder with stalled := true } }) s))) := by
  show execCodingStall p s = _
  unfold execCodingStall
  dsimp only
  rw [posted, run]
  exact if_pos (by simp [coded, late, owed])

theorem answered_of_read {n : Nat} (posted : (s.part p.val).coder.posted = some n)
    (run : (s.part p.val).coder.run.bind s.run = some q) (tier : (s.part p.val).tier = r :: l)
    (coded : (s.part p.val).coder.coded = true) (given : (s.part p.val).coder.exch.toNat ≤ q.inTail.toNat) :
    Answered p.val s q r l := ⟨by simp [posted], run, tier, coded, given⟩

end

/-- A corrected word of the answer is counted first, and the read goes on. -/
theorem execCoderAnswerRead_corrected {s : State} {p : Part} {n : Nat} (posted : (s.part p.val).coder.posted = some n) :
    exec (.coderAnswerRead p .corrected) s = exec (.coderAnswerRead p .good) (correctedWord false s) := by
  have same : (correctedWord false s).part p.val = s.part p.val := Only.part (correctedWord_only ..) rfl _
  show execCoderAnswerRead p .corrected s = execCoderAnswerRead p .good (correctedWord false s)
  unfold execCoderAnswerRead
  have met : (Ecc.corrected == Ecc.corrected && (s.part p.val).coder.posted.isSome) = true := by simp [posted]
  have unmet : ∀ posted : Bool, (Ecc.good == Ecc.corrected && posted) = false := fun _ => rfl
  dsimp only
  rw [met, if_pos rfl, unmet, if_neg Bool.false_ne_true, same]
  rfl

/-! ### The adaptor -/

theorem execAdaptorOperationTimeout_ends {s : State} {c : AdaptorCall} {p : Nat} (call : s.osier.call = some c)
    (part : s.unitPart c.unit = some p) (op : c.op ≠ 6) (late : c.startedAt + s.haltTimeout p ≤ s.t) :
    exec .adaptorOperationTimeout s = done (callEnds none s) := by
  show execAdaptorOperationTimeout s = _
  unfold execAdaptorOperationTimeout
  rw [call]
  dsimp only
  rw [part]
  exact if_pos ⟨op, late⟩

/-- A call that ends without an answer fails, and the next one begins. -/
theorem callEnds_none {s : State} {c : AdaptorCall} (call : s.osier.call = some c) (op : c.op ≠ 6) :
    callEnds none s = noteRuns (pumpAdaptor (callFailed c none { s with osier := { s.osier with call := none } })) := by
  unfold callEnds
  rw [call]
  dsimp only
  rw [if_neg op]
  rfl

section
variable {s : State} {by_ : HostPort} {value : W32}

theorem execScanCtrlWrite_pm (opened : s.barOpen (64 + by_.val) = true) (pm : s.isArbiterPm (64 + by_.val) = true) :
    exec (.scanCtrlWrite by_ value) s = done (scanWrite value (bumpAlways (44 + by_.val) 4 s)) := by
  have port : fnPort (64 + by_.val) = by_.val := by simp [fnPort]
  exact congrArg done ((hostPut_of_pm opened pm).trans (by rw [port]))

/-- NSL7_SCAN_CTRL with ADAPTOR_VALID 0, with the calls that end. -/
theorem scanWrite_off (off : value.getLsbD 16 = false) : scanWrite value s =
    callsDropped (s.osier.call.toList ++ s.osier.calls) { s with osier := { s.osier with scanCtrl := value &&& 0xFFFF, adaptorReady := false, calls := [], call := none, adaptor := none } } := by
  unfold scanWrite
  dsimp only
  rw [off]
  rfl

/-- With no call under way nothing ends. -/
theorem scanWrite_idle (off : value.getLsbD 16 = false) (call : s.osier.call = none) (calls : s.osier.calls = []) :
    scanWrite value s =
      { s with osier := { s.osier with scanCtrl := value &&& 0xFFFF, adaptorReady := false, adaptor := none } } := by
  have same : ({ s.osier with scanCtrl := value &&& 0xFFFF, adaptorReady := false, calls := [], call := none, adaptor := none }
      : OsierCtl) = { s.osier with scanCtrl := value &&& 0xFFFF, adaptorReady := false, adaptor := none } := by
    dsimp only
    congr
    · exact call.symm
    · exact calls.symm
  rw [scanWrite_off off, call, calls, same]
  rfl

theorem scanWrite_same (on : value.getLsbD 16 = true) (was : s.osier.scanCtrl.getLsbD 16 = true)
    (index : value.toNat / 256 % 256 = s.adaptorIndex) :
    scanWrite value s = { s with osier := { s.osier with scanCtrl := (value &&& 0xFFFF) ||| 0x10000 } } := by
  unfold scanWrite
  dsimp only
  rw [on, was, index, beq_self_eq_true]
  rfl

end

/-! ### The statements -/

/-- Settles O38: each command in its condition is the model's operation; ADAPTOR_VALID 0 drops the calls under way. -/
theorem coderAndAdaptorAct : Obligations.CoderAndAdaptorAct := by
  unfold Obligations.CoderAndAdaptorAct
  refine ⟨?bad, ?codes, fun s p n posted => execCoderAnswerRead_corrected posted,
    fun s p n q posted run coded late owed => execCodingStall_stalls posted run coded late owed,
    fun s c p call part op late => execAdaptorOperationTimeout_ends call part op late, ?off⟩
  case bad =>
    intro s p n q r l posted run tier coded given
    have h := answered_of_read posted run tier coded given
    refine ⟨fun bad => ?_, execCoderAnswerRead_eq .bad h (by decide)⟩
    rw [execCoderAnswerRead_eq .good h (by decide), execCoderAnswerRead_eq .bad h (by decide), bad]
    rfl
  case codes =>
    intro s p n q r l te td posted run tier coded given good tables u early
    have h := answered_of_read posted run tier coded given
    have same : codedRecord p.val q r s = u := by
      unfold codedRecord
      rw [tables]
      rfl
    refine (execCoderAnswerRead_eq .good h (by decide)).trans ((if_neg (by simp [good])).trans ?_)
    rw [same]
    unfold codedOn
    rw [if_neg (Nat.not_le.mpr early)]
    rfl
  case off =>
    intro s by_ value opened pm off
    exact (execScanCtrlWrite_pm opened pm).trans (congrArg done (scanWrite_off off))

/-- Settles O60: in each command's condition on the state and the operands, the next state is the model's operation. -/
theorem coderAndAdaptorComplete : Obligations.CoderAndAdaptorComplete := by
  unfold Obligations.CoderAndAdaptorComplete
  refine ⟨?codes, ?stalls, ?fails, ?off, ?same⟩
  case codes =>
    intro s p n q r l posted run tier coded given good
    have h := answered_of_read posted run tier coded given
    exact ⟨_, (execCoderAnswerRead_eq .good h (by decide)).trans (if_neg (by simp [good])), rfl⟩
  case stalls =>
    intro s p n q posted run coded late owed
    exact ⟨_, execCodingStall_stalls posted run coded late owed, rfl⟩
  case fails =>
    intro s c p call part op late
    exact ⟨_, (execAdaptorOperationTimeout_ends call part op late).trans (congrArg done (callEnds_none call op)), rfl⟩
  case off =>
    intro s by_ value opened pm off none_ empty quiet
    have drops := scanWrite_idle (s := bumpAlways (44 + by_.val) 4 s) off none_ empty
    exact ⟨_, (execScanCtrlWrite_pm opened pm).trans ((congrArg done drops).trans (done_quiet quiet)), rfl⟩
  case same =>
    intro s by_ value opened pm on was index quiet
    have kept := scanWrite_same (s := bumpAlways (44 + by_.val) 4 s) on was index
    exact ⟨_, (execScanCtrlWrite_pm opened pm).trans ((congrArg done kept).trans (done_quiet quiet)), rfl⟩

end Sys2Proof.Laws

/-!
SUPPORT. A core's turns, the library and the runs: what each command does where its checks pass.
-/

namespace Sys2Proof.Laws
open Sys2Proof Sys2Proof.Machine
set_option Elab.async false -- a thread per proof would not fit beside the model in the check's memory

/-! ### Words, slices and wakes -/

theorem execOsierWord_core {s : State} {core : CoreNo} {cycles : Nat} {poison : Fin 5} {tdo : List Bool}
    (hub : core.val < 16) : exec (.osierWord core cycles poison tdo) s = done (coreWord core.val cycles poison.val s) := if_pos hub

theorem coreWord_runs {s : State} {core cycles poison : Nat} {r q : Run} {e : LibEntry} (runs : s.running core = some r)
    (run : (takeCore core r.id s).run r.id = some q) (entry : (takeCore core r.id s).lib r.index = some e) :
    coreWord core cycles poison s = runStep core cycles poison q e (takeCore core r.id s) := by
  unfold coreWord
  rw [runs]
  dsimp only
  rw [run, entry]

theorem takeCore_lib (c : Nat) (id : W32) (s : State) : (takeCore c id s).osier.lib = s.osier.lib := by
  unfold takeCore
  split <;> rfl

theorem takeCore_holder (c : Nat) (id : W32) (s : State) : Tab.get? (takeCore c id s).osier.holders c = some id := by
  unfold takeCore
  split
  · next holds => simpa using holds
  · exact (get?_set ..).trans (if_pos rfl)

/-- The end of a slice passes the core to the next ready run of the same or a higher class. -/
theorem execSliceLimit_switches {s : State} {core : CoreNo} {q r : Run}
    (holder : (Tab.get? s.osier.holders core.val).bind s.run = some q) (ready : q.ready = true) (spent : sliceCycles ≤ q.heldFor)
    (next : s.nextRun q.core ((s.placedOn q.core).filter fun r => r.ready && r.id != q.id && decide (r.rank ≤ q.rank)) = some r) :
    exec (.sliceLimit core) s = done (takeCore q.core r.id s) := by
  show execSliceLimit core s = _
  unfold execSliceLimit
  rw [holder]
  refine (if_pos (by simp [ready, spent])).trans (congrArg done ?_)
  unfold switchFrom
  simp only [Bool.not_true, Bool.false_or]
  rw [next]

theorem run_modRun {s : State} {id : W32} {g : Run → Run} {q : Run} (here : s.run id = some q) (same : ∀ r, (g r).id = r.id) :
    (modRun id g s).run id = some (g q) := by
  unfold State.run modRun at *
  dsimp only
  rw [List.find?_map]
  have sel : ((fun r : Run => r.id == id) ∘ fun r => if (r.id == id) = true then g r else r) = fun r => r.id == id := by
    funext r
    simp only [Function.comp]
    split
    · rw [same]
    · rfl
  rw [sel, here]
  have named := List.find?_some here
  simp only [Option.map_some, named, if_true]

/-- The wake of a run, as SLEEP_WAKE tries it. -/
def woken (now : Nat) (q : Run) : Run :=
  match q.wait with
  | .sleep t => if t.toNat ≤ now then q.wake now else q
  | _ => q

theorem execSleepWake_eq (s : State) (run : W32) : exec (.sleepWake run) s = done (modRun run (woken s.t) s) := rfl

theorem woken_id (now : Nat) (q : Run) : (woken now q).id = q.id := by
  unfold woken
  split
  · split <;> rfl
  · rfl

theorem woken_due {now : Nat} {q : Run} {t0 : W64} (sleeps : q.wait = .sleep t0) (due : t0.toNat ≤ now) :
    woken now q = { q with wait := .none, readyAt := now } := by
  unfold woken
  rw [sleeps]
  exact if_pos due

theorem execHostWriteError_ends {s : State} {run : W32} {q : Run} (here : s.run run = some q) (out : q.hostOut = true) :
    exec (.hostWriteError run) s = done (endRun q runException exHostWrite s) := by
  show execHostWriteError run s = _
  unfold execHostWriteError
  rw [here]
  exact if_pos out

/-- Settles O37: a word runs on the run that holds the core; a slice's end and a wake change what stands of the runs. -/
theorem osierStepsAct : Obligations.OsierStepsAct := by
  unfold Obligations.OsierStepsAct
  refine ⟨?word, ?slice, ?wake, fun s run q here out => execHostWriteError_ends here out⟩
  case word =>
    intro s core cycles poison tdo r q e hub runs run entry
    exact (execOsierWord_core hub).trans (congrArg done (coreWord_runs runs run entry))
  case slice =>
    intro s core q r holder ready spent quiet next
    exact Runs.of_only quiet (execSliceLimit_switches holder ready spent next) (takeCore_only ..)
      ⟨takeCore_only .., takeCore_lib .., takeCore_holder ..⟩
  case wake =>
    intro s run q t0 here sleeps due quiet
    refine Runs.of_only quiet (execSleepWake_eq s run) (modRun_only ..) ⟨?_, modRun_only ..⟩
    rw [run_modRun here (woken_id s.t), woken_due sleeps due]

end Sys2Proof.Laws

/-!
SUPPORT. The library and the runs: what the writing of a record leaves of the next run's number, and what each command does
where its checks pass.
-/

namespace Sys2Proof.Laws
open Sys2Proof Sys2Proof.Machine
set_option Elab.async false -- a thread per proof would not fit beside the model in the check's memory

/-! ### The number of the next run -/

/-- The number of the next run is as it was. -/
def KeepsNextRun (s t : State) : Prop := t.osier.nextRun = s.osier.nextRun

section
variable {s t u : State} {l : List Fld}

theorem KeepsNextRun.refl (s : State) : KeepsNextRun s s := rfl

theorem KeepsNextRun.trans (h : KeepsNextRun s t) (k : KeepsNextRun t u) : KeepsNextRun s u := Eq.trans k h

theorem KeepsNextRun.of_only (h : Only l s t) (e : (!l.contains .osier) = true := by rfl) : KeepsNextRun s t :=
  congrArg OsierCtl.nextRun (h.same .osier (by simpa using e))

theorem KeepsNextRun.step (h : KeepsNextRun s t) (k : Only l t u) (e : (!l.contains .osier) = true := by rfl) :
    KeepsNextRun s u := h.trans (.of_only k e)

theorem KeepsNextRun.ite {c : Prop} [Decidable c] (h : KeepsNextRun s t) (k : KeepsNextRun s u) :
    KeepsNextRun s (if c then t else u) := by
  split
  · exact h
  · exact k

end

theorem modRun_keepsNextRun (id : W32) (g : Run → Run) (s : State) : KeepsNextRun s (modRun id g s) := rfl

theorem postExchange_keepsNextRun (p : Nat) (s : State) : KeepsNextRun s (postExchange p s) := by
  unfold postExchange
  dsimp only
  refine .ite (.refl _) ?_
  split
  · have spent : KeepsNextRun s (spendCreel s) := .of_only (spendCreel_only s)
    exact ((spent.trans (modRun_keepsNextRun ..)).trans (modRun_keepsNextRun ..)).step (modPart_only ..)
  · exact .refl _

theorem pumpPort_keepsNextRun (p : Nat) (s : State) : KeepsNextRun s (pumpPort p s) := by
  have shed : KeepsNextRun s (shedTier p s) := .of_only (shedTier_only p s)
  exact .ite (.refl _) (.ite (shed.trans (postExchange_keepsNextRun ..)) ((shed.step (modPart_only ..)).step (modMeters_only ..)))

theorem portArrive_keepsNextRun (r : TraceRec) (s : State) : KeepsNextRun s (portArrive r s) := by
  have dropped : KeepsNextRun s (dropPort 0 r s) := .of_only (dropPort_only ..)
  refine .ite dropped ?_
  split
  · next stored => exact (KeepsNextRun.of_only (storePort_only stored)).trans (pumpPort_keepsNextRun ..)
  · exact dropped

theorem placeRec_keepsNextRun (dest : Nat) (r : TraceRec) (s : State) : KeepsNextRun s (placeRec dest r s) := by
  unfold placeRec
  extract_lets r' toPort s1 s2
  have arrived : KeepsNextRun s s1 := .ite (portArrive_keepsNextRun ..) (.refl _)
  have counted : KeepsNextRun s s2 := .ite (arrived.step (hubEvent_only ..)) arrived
  exact .ite counted (.ite (counted.step (holdDram_only ..)) (.ite (counted.step (dramArrive_only ..))
    (counted.step (dramOnly_only ..))))

theorem deliverInput_keepsNextRun (r : TraceRec) (s : State) : KeepsNextRun s (deliverInput r s) := by
  unfold deliverInput
  dsimp only
  exact KeepsNextRun.trans (.ite (.of_only (spendCreel_only s)) (.refl _)) rfl

theorem programRec_keepsNextRun (q : Run) (event : Nat) (data : List Byte) (s : State) :
    KeepsNextRun s (programRec q event data s) :=
  (deliverInput_keepsNextRun ..).trans (placeRec_keepsNextRun ..)

/-! ### RUN_PROGRAM -/

theorem setX_keeps (k v : Nat) (q : Run) :
    (q.setX k v).id = q.id ∧ (q.setX k v).session = q.session ∧ (q.setX k v).index = q.index := by
  unfold Run.setX
  split <;> exact ⟨rfl, rfl, rfl⟩

theorem begin_keeps (q : Run) (e : LibEntry) (params : List Nat) :
    (q.begin_ e params).id = q.id ∧ (q.begin_ e params).session = q.session ∧ (q.begin_ e params).index = q.index := by
  unfold Run.begin_
  simp only [setX_keeps, and_self]

/-- A run starts with the next number where there is an entry, a core and room for it. -/
theorem startRun_starts {a : RunReq} {s : State} {e : LibEntry} {k : Nat} (entry : s.lib a.index = some e)
    (core : s.pickCore e.localKib = some k) (room : e.runSpace a.role ≤ s.creelFree) (profile : e.profile = 0) :
    ∃ q u, startRun a s = some (q, u) ∧ q.id = BitVec.ofNat 32 s.osier.nextRun ∧ q.session = a.session ∧ q.index = a.index ∧
      u.osier.nextRun = s.osier.nextRun + 1 := by
  unfold startRun
  rw [entry]
  dsimp only
  rw [core]
  dsimp only
  rw [if_neg (by simp [room, profile])]
  refine ⟨_, _, rfl, (begin_keeps ..).1, (begin_keeps ..).2.1, (begin_keeps ..).2.2, ?_⟩
  exact programRec_keepsNextRun ..

theorem runCheck_started {s : State} {f g : Nat} {tag : W32} {c : Cmd} (h : s.runCheck g c = none) :
    (started f tag s).runCheck g { c with started := true } = none := by
  obtain ⟨v, hv⟩ := started_frame f tag s
  rw [hv]
  exact h

/-- What a run passes as it is asked for: its entry, a core and the room. -/
theorem run_fits {s : State} {f : Nat} {c : Cmd} (h : s.runCheck f c = none) :
    ∃ e k, s.lib (c.f 52 1) = some e ∧ e.profile = 0 ∧ s.pickCore e.localKib = some k ∧ e.runSpace roleProgram ≤ s.creelFree := by
  unfold State.runCheck at h
  rw [firstFail_eq_none] at h
  simp only [List.forall_mem_cons, List.not_mem_nil, false_imp_iff, implies_true, and_true] at h
  obtain ⟨-, kind, -, core, room⟩ := h
  cases entry : s.lib (c.f 52 1) with
  | none => simp [entry] at kind
  | some e =>
    rw [entry] at kind core room
    simp only [Bool.or_eq_false_iff, bne_eq_false_iff_eq] at kind
    obtain ⟨k, hk⟩ := Option.isSome_iff_exists.mp (by simpa using core)
    exact ⟨e, k, rfl, kind.2, hk, by simpa using room⟩

section
variable {s : State} {f : Fn} {tag : W32} {c : Cmd}

/-- The run that RUN_PROGRAM asks for. -/
def runAsked (f : Nat) (c : Cmd) : RunReq :=
  { index := c.f 52 1, role := roleProgram, p := c.partition, session := some f, hostOut := bit (c.f 53 1) 0, pred := bit (c.f 53 1) 1, limit := c.f 56 8, bufAddr := c.bufAddr, bufWindow := c.bufWindow, params := [c.param0, c.param1, c.param2] }

theorem execRunProgram_starts {q : Run} {u : State} (w : Waits s f.val tag 0x61 c) (passes : s.runCheck f.val c = none)
    (starts : startRun (runAsked f.val c) (started f.val tag s) = some (q, u)) :
    exec (.runProgram f tag) s = done (complete f.val tag { r0 := q.id.toNat, r1 := q.core } u) := by
  refine congrArg done ((startCmd_eq _ w).trans ?_)
  have asked : startRun (runAsked f.val { c with started := true }) (started f.val tag s) = some (q, u) := starts
  have passed := runCheck_started (f := f.val) (tag := tag) passes
  dsimp only
  rw [passed]
  dsimp only
  unfold runAsked at asked
  rw [asked]

/-! ### STOP_PROGRAM -/

theorem run_started (f : Nat) (tag : W32) (s : State) (id : W32) : (started f tag s).run id = s.run id := by
  obtain ⟨v, hv⟩ := started_frame f tag s
  rw [hv]
  rfl

theorem reads_started (f : Nat) (tag : W32) (s : State) (g p : Nat) : (started f tag s).reads g p = s.reads g p := by
  obtain ⟨v, hv⟩ := started_frame f tag s
  rw [hv]
  rfl

theorem liveRes_started (f : Nat) (tag : W32) (s : State) (q : Run) : (started f tag s).liveRes q = s.liveRes q := by
  obtain ⟨v, hv⟩ := started_frame f tag s
  rw [hv]
  rfl

theorem execStopProgram_stops {q : Run} (w : Waits s f.val tag 0x62 c) (mode : c.f 52 1 = 0)
    (live : s.run (BitVec.ofNat 32 (c.f 56 4)) = some q) (role : q.role = roleProgram)
    (may : q.session = some f.val ∨ s.owns f.val q.partition = true) :
    exec (.stopProgram f tag) s = done (complete f.val tag ((started f.val tag s).ending q runStopped 0x10).res
      (endRun q runStopped 0x10 (started f.val tag s))) := by
  refine congrArg done ((startCmd_eq _ w).trans ?_)
  have here : (started f.val tag s).run (BitVec.ofNat 32 (({ c with started := true } : Cmd).f 56 4)) = some q :=
    (run_started ..).trans live
  have mode' : ({ c with started := true } : Cmd).f 52 1 = 0 := mode
  have owns := owns_started f.val tag s f.val q.partition
  dsimp only
  rw [here, mode']
  split
  · next st refused =>
    refine absurd refused ?_
    rw [firstFail_eq_none.mpr]
    · exact nofun
    · obtain mine | owner := may <;> simp_all
  · rfl

theorem execStopProgram_reports {q : Run} (w : Waits s f.val tag 0x62 c) (mode : 2 ≤ c.f 52 1)
    (live : s.run (BitVec.ofNat 32 (c.f 56 4)) = some q)
    (may : q.session = some f.val ∨ s.reads f.val q.partition = true) :
    exec (.stopProgram f tag) s = done (complete f.val tag (s.liveRes q) (started f.val tag s)) := by
  refine congrArg done ((startCmd_eq _ w).trans ?_)
  have here : (started f.val tag s).run (BitVec.ofNat 32 (({ c with started := true } : Cmd).f 56 4)) = some q :=
    (run_started ..).trans live
  have mode' : 2 ≤ ({ c with started := true } : Cmd).f 52 1 := mode
  have reads := reads_started f.val tag s f.val q.partition
  have told := liveRes_started f.val tag s q
  generalize ({ c with started := true } : Cmd).f 52 1 = m at mode' ⊢
  dsimp only
  rw [here]
  split
  · next st refused =>
    refine absurd refused ?_
    rw [firstFail_eq_none.mpr]
    · exact nofun
    · have live : m ≠ 0 := by omega
      obtain mine | reader := may <;> simp_all
  · exact (if_neg (by omega)).trans ((if_neg (by omega)).trans (by rw [told]))

/-! ### LOAD_MODEL -/

theorem execLoadModel_loads {data : List Byte} (w : Waits s f.val tag 0x60 c) (owner : s.owns f.val c.partition = true)
    (mode : c.f 52 1 = 0) : exec (.loadModel f tag data) s =
      done (loadModel f.val { c with started := true } data (started f.val tag s)) := by
  refine congrArg done ((startCmd_eq _ w).trans ?_)
  have owns : (started f.val tag s).owns f.val c.partition = true := (owns_started ..).trans owner
  refine (if_neg ?_).trans (if_pos mode)
  show ¬ (!(started f.val tag s).owns f.val c.partition) = true
  rw [owns]
  decide

theorem execLoadModel_unloads {data : List Byte} (w : Waits s f.val tag 0x60 c) (owner : s.owns f.val c.partition = true)
    (mode : c.f 52 1 ≠ 0) : exec (.loadModel f tag data) s =
      done (unloadModel f.val { c with started := true } (started f.val tag s)) := by
  refine congrArg done ((startCmd_eq _ w).trans ?_)
  have owns : (started f.val tag s).owns f.val c.partition = true := (owns_started ..).trans owner
  refine (if_neg ?_).trans (if_neg mode)
  show ¬ (!(started f.val tag s).owns f.val c.partition) = true
  rw [owns]
  decide

/-- The state once a section has been read for LOAD_MODEL, its bytes counted. -/
def sectionRead (f : Nat) (tag : W32) (n : Nat) (s : State) : State :=
  nextFree (bumpAlways (44 + fnPort f) n (started f tag s))

theorem sectionRead_only (f : Nat) (tag : W32) (n : Nat) (s : State) :
    Only [.always, .free] (started f tag s) (sectionRead f tag n s) := by
  have counted : Only [.always, .free] (started f tag s) (bumpAlways (44 + fnPort f) n (started f tag s)) :=
    (bumpAlways_only ..).within
  exact upd_free counted rfl

end

theorem putLib_osier (lib : List LibEntry) (s : State) : (putLib lib s).osier = { s.osier with
    lib := if lib.length ≤ s.osier.lib.length then lib
      else if s.injectHit then modAt lib s.osier.lib.length fun e =>
        { e with bad := [8 * ((Config.freeBits (s.free + 1)).toNat % (e.payload.length / 8))] }
      else lib } := by
  have spent : (spendCreel s).osier = s.osier := (spendCreel_only s).same .osier (by decide)
  have kept : (if s.injectHit then nextFree (spendCreel s) else spendCreel s).osier = s.osier := by
    split
    · exact spent
    · exact spent
  unfold putLib
  dsimp only
  split
  · rfl
  · dsimp only
    rw [kept]

theorem putLib_out (lib : List LibEntry) (s : State) : s.out <+: (putLib lib s).out := by
  have spent : s.out <+: (spendCreel s).out := (spendCreel_grows s).out
  have kept : s.out <+: (if s.injectHit then nextFree (spendCreel s) else spendCreel s).out := by
    split
    · exact spent
    · exact spent
  unfold putLib
  dsimp only
  split
  · exact List.prefix_refl _
  · exact kept

theorem libFreeKib_of_only {l : List Fld} {s t : State} (h : Only l s t)
    (e : ([.osier, .parts] : List Fld).all (fun x => !l.contains x) = true := by rfl) : t.libFreeKib = s.libFreeKib := by
  obtain ⟨osier, parts⟩ : (!l.contains .osier) = true ∧ (!l.contains .parts) = true := by simpa using e
  have sameOsier : t.osier = s.osier := h.same .osier (by simpa using osier)
  have sameParts : t.parts = s.parts := h.same .parts (by simpa using parts)
  unfold State.libFreeKib State.libRoom State.creelFree State.libBytes State.runBytes State.creelPages State.staged State.lib
    State.part
  rw [sameOsier, sameParts]

section
variable {s : State} {f : Fn} {tag : W32} {c : Cmd} {data : List Byte}

/-- The bytes of a LOAD_MODEL, and the offset that an unsigned image's refusal names. -/
def modelImage (c : Cmd) (data : List Byte) : List Byte := slice data 0 c.length

/-- The result of the check of LOAD_MODEL's bytes. -/
def sectionOf60 (c : Cmd) (data : List Byte) (s : State) : Except Reject Section_ :=
  s.loadSection (modelImage c data) ((Config.freeBits s.free).toNat % 2 ^ 32)

/-- The entry of a section which a partition's owner loads. -/
def entryOf60 (c : Cmd) (x : Section_) : LibEntry := { x.entry with fromImage := false, addedBy := some c.partition }

/-- LOAD_MODEL as the command starts, its checks read in the state before. -/
theorem loadModel_started (w : Waits s f.val tag 0x60 c) :
    loadModel f.val { c with started := true } data (started f.val tag s) =
      match sectionOf60 c data s with
      | .error r => complete f.val tag
          { status := stModelRejected, r1 := (modelImage c data).length, r2 := r.reason, r3 := s.libFreeKib }
          (sectionRead f.val tag c.length s)
      | .ok x =>
        match addEntry s.osier.lib s.libRoom (x.type == 0x30) (entryOf60 c x) with
        | .error r => complete f.val tag
            { status := rejectStatus r, r0 := x.inst, r1 := (modelImage c data).length, r2 := r, r3 := s.libFreeKib }
            (sectionRead f.val tag c.length s)
        | .ok lib => complete f.val tag
            { already := (s.lib x.inst).isSome, r0 := x.inst, r1 := (modelImage c data).length,
              r3 := (putLib lib (sectionRead f.val tag c.length s)).libFreeKib }
            (putLib lib (sectionRead f.val tag c.length s)) := by
  obtain rfl : c.tag = tag := cmd_tag w.here
  unfold loadModel sectionOf60 modelImage sectionRead
  obtain ⟨v, hv⟩ := started_frame f.val c.tag s
  rw [hv]
  rfl

end

section
variable {s : State} {f : Fn} {tag : W32} {c : Cmd} {data : List Byte}

/-- A LOAD_MODEL that ends with the bytes read and nothing added. -/
theorem loadModel_refuses {r : Res} (w : Waits s f.val tag 0x60 c)
    (ends : exec (.loadModel f tag data) s = done (complete f.val tag r (sectionRead f.val tag c.length s))) :
    Runs (.loadModel f tag data) s fun t => t.osier = s.osier ∧ Answers s t f.val c r := by
  have only : Only [.fns, .always, .out, .free] s (complete f.val tag r (sectionRead f.val tag c.length s)) :=
    ((started_only ..).within.andThen (sectionRead_only ..)).andThen (complete_only ..)
  exact Runs.quiet ends ((only.same .fires (by decide)).trans w.quiet)
    ⟨only.same .osier (by decide), answers_of_only r f.isLt w.here (sectionRead_only ..)⟩

theorem putLib_sectionRead (lib : List LibEntry) (n : Nat) :
    (putLib lib (sectionRead f.val tag n s)).osier = (putLib lib (nextFree s)).osier := by
  rw [putLib_osier, putLib_osier]
  unfold sectionRead
  obtain ⟨v, hv⟩ := started_frame f.val tag s
  rw [hv]
  rfl

theorem putLib_unarmed {s : State} (lib : List LibEntry) (unarmed : s.err.armed = false) :
    (putLib lib (nextFree s)).osier = { s.osier with lib := lib } := by
  have miss : (nextFree s).injectHit = false := by
    unfold State.injectHit
    have same : (nextFree s).err.armed = false := unarmed
    rw [same]
    rfl
  rw [putLib_osier, miss]
  simp only [Bool.false_eq_true, if_false, ite_self]
  rfl

/-- A LOAD_MODEL that adds its entry. -/
theorem loadModel_adds {lib : List LibEntry} {inst len : Nat} {already : Bool} (w : Waits s f.val tag 0x60 c)
    (ends : exec (.loadModel f tag data) s = done (complete f.val tag
      { already := already, r0 := inst, r1 := len, r3 := (putLib lib (sectionRead f.val tag c.length s)).libFreeKib }
      (putLib lib (sectionRead f.val tag c.length s)))) :
    Runs (.loadModel f tag data) s fun t => t.osier = (putLib lib (nextFree s)).osier ∧
      (s.err.armed = false → t.osier = { s.osier with lib := lib }) ∧
      Answers s t f.val c { already := already, r0 := inst, r1 := len, r3 := t.libFreeKib } := by
  have read := sectionRead_only f.val tag c.length s
  have put := putLib_only lib (sectionRead f.val tag c.length s)
  have last := fun r : Res => complete_only f.val tag r (putLib lib (sectionRead f.val tag c.length s))
  have rings : Rings (started f.val tag s) (putLib lib (sectionRead f.val tag c.length s)) :=
    (Rings.of_only read rfl).trans (putLib_rings ..)
  have sameOut : (sectionRead f.val tag c.length s).out = s.out :=
    (read.same .out (by decide)).trans ((started_only ..).same .out (by decide))
  have sameNow : (putLib lib (sectionRead f.val tag c.length s)).now = s.now :=
    (put.same .now (by decide)).trans ((read.same .now (by decide)).trans ((started_only ..).same .now (by decide)))
  have quiet : (putLib lib (sectionRead f.val tag c.length s)).fires = [] :=
    (put.same .fires (by decide)).trans ((read.same .fires (by decide)).trans
      (((started_only ..).same .fires (by decide)).trans w.quiet))
  have kept := fun r => ((last r).same .osier (by decide)).trans (putLib_sectionRead lib c.length)
  refine Runs.quiet ends (((last _).same .fires (by decide)).trans quiet)
    ⟨kept _, fun unarmed => (kept _).trans (putLib_unarmed lib unarmed), ?_⟩
  rw [libFreeKib_of_only (last _)]
  exact answers_after _ f.isLt w.here rings (sameOut ▸ putLib_out ..) sameNow

/-- The library without an entry. -/
def unloaded (i : Nat) (s : State) : State :=
  { s with osier := { s.osier with lib := s.osier.lib.filter fun x => x.index != i } }

theorem unloadModel_unloads {e : LibEntry} (w : Waits s f.val tag 0x60 c) (entry : s.lib (c.f 53 1) = some e)
    (loaded : e.fromImage = false) (added : e.addedBy = some c.partition) (unused : s.libInUse (c.f 53 1) = false) :
    unloadModel f.val { c with started := true } (started f.val tag s) = complete f.val tag
      { r0 := c.f 53 1, r3 := (unloaded (c.f 53 1) s).libFreeKib } (unloaded (c.f 53 1) (started f.val tag s)) := by
  obtain rfl : c.tag = tag := cmd_tag w.here
  unfold unloadModel
  obtain ⟨v, hv⟩ := started_frame f.val c.tag s
  rw [hv]
  have here : ({ s with fns := v } : State).lib (({ c with started := true } : Cmd).f 53 1) = some e := entry
  have idle : ({ s with fns := v } : State).libInUse (({ c with started := true } : Cmd).f 53 1) = false := unused
  have mine : (e.addedBy == some ({ c with started := true } : Cmd).partition) = true := by
    rw [added]
    exact beq_self_eq_true _
  dsimp only
  rw [here, idle]
  dsimp only
  rw [loaded, mine]
  rfl

end

/-- Settles O36: LOAD_MODEL adds or refuses as its checks say; a run takes the next number, which the writing of its record
leaves; STOP_PROGRAM ends or reports a live run. -/
theorem libraryAndRunsAct : Obligations.LibraryAndRunsAct := by
  unfold Obligations.LibraryAndRunsAct
  refine ⟨?loads, ?unloads, ?starts, ?stops, ?reports⟩
  case loads =>
    intro s f tag data c w owner mode
    have ends := (execLoadModel_loads (data := data) w owner mode).trans (congrArg done (loadModel_started w))
    show match sectionOf60 c data s with | .error r => _ | .ok x => _
    cases checked : sectionOf60 c data s with
    | error r =>
      rw [checked] at ends
      exact loadModel_refuses w ends
    | ok x =>
      rw [checked] at ends
      dsimp only at ends ⊢
      show match addEntry s.osier.lib s.libRoom (x.type == 0x30) (entryOf60 c x) with | .error r => _ | .ok lib => _
      cases added : addEntry s.osier.lib s.libRoom (x.type == 0x30) (entryOf60 c x) with
      | error r =>
        rw [added] at ends
        exact loadModel_refuses w ends
      | ok lib =>
        rw [added] at ends
        exact loadModel_adds w ends
  case unloads =>
    intro s f tag data c e w owner mode entry loaded added unused
    have ends := (execLoadModel_unloads (data := data) w owner mode).trans
      (congrArg done (unloadModel_unloads w entry loaded added unused))
    have struck : Only [.osier] (started f.val tag s) (unloaded (c.f 53 1) (started f.val tag s)) := upd_osier (.refl ..) rfl
    have last := fun r => complete_only f.val tag r (unloaded (c.f 53 1) (started f.val tag s))
    have quiet : (unloaded (c.f 53 1) (started f.val tag s)).fires = [] :=
      ((started_only ..).same .fires (by decide)).trans w.quiet
    have begun : (started f.val tag s).osier = s.osier := (started_only ..).same .osier (by decide)
    refine Runs.quiet ends (((last _).same .fires (by decide)).trans quiet) ⟨?_, _, answers_of_only _ f.isLt w.here struck⟩
    refine (congrArg OsierCtl.lib ((last _).same .osier (by decide))).trans ?_
    unfold unloaded
    rw [begun]
  case starts =>
    intro s f tag c w passes _
    obtain ⟨e, k, entry, profile, core, room⟩ := run_fits (runCheck_started (f := f.val) (tag := tag) passes)
    obtain ⟨q, u, starts, id, session, index, next⟩ := startRun_starts (a := runAsked f.val c) entry core room profile
    have number : (started f.val tag s).osier.nextRun = s.osier.nextRun :=
      congrArg OsierCtl.nextRun ((started_only ..).same .osier (by decide))
    rw [number] at id next
    exact ⟨q, u, starts, id, session, index, next, execRunProgram_starts w passes starts⟩
  case stops =>
    intro s f tag c q w mode live role may
    exact execStopProgram_stops w mode live role may
  case reports =>
    intro s f tag c q w mode live may
    exact Runs.ends f.isLt w (execStopProgram_reports w mode live may) fun t answered only =>
      ⟨answered, only.same .osier (by decide)⟩

end Sys2Proof.Laws

/-!
SUPPORT. The counters' configuration and latch points: what each command does where its checks pass.
-/

namespace Sys2Proof.Laws
open Sys2Proof Sys2Proof.Machine
set_option Elab.async false -- a thread per proof would not fit beside the model in the check's memory

/-! ### A latch point that is asked for -/

/-- Where the spacing forbids it, a latch point waits for its edge. -/
theorem requestLatch_defers {p : Nat} {d : DeferredLatch} {s : State} (spaced : s.latchAllowed p = false) :
    requestLatch p d s = modPart p (fun x => { x with deferred := x.deferred ++ [{ d with due := s.latchDue p }] }) s := by
  unfold requestLatch
  rw [spaced]
  rfl

theorem requestLatch_takes {p : Nat} {d : DeferredLatch} {s : State} (allowed : s.latchAllowed p = true)
    (first : (s.part p).deferred = []) : requestLatch p d s = deferredTake p d s := by
  unfold requestLatch
  rw [allowed, first]
  rfl

/-! ### COUNTER_CONFIG -/

section
variable {s : State} {f : Fn} {tag : W32} {c : Cmd} {data : List Byte}

/-- The selections that COUNTER_CONFIG asks for, as they wait. -/
def configAsked (f : Nat) (tag : W32) (c : Cmd) (data : List Byte) (s : State) : PendingCfg :=
  { fn := f, tag := tag, sels := s.newSels c data, latchNow := false, deadline := c.fetched + orDefault (c.f 54 2) 100 * Config.ticksPerMs }

/-- The state in which the selections are judged: the bytes of a command that brings them are counted. -/
def configRead (f : Nat) (tag : W32) (c : Cmd) (s : State) : State :=
  if bit (c.f 52 1) 1 then started f tag s else bumpAlways (44 + fnPort f) c.length (started f tag s)

theorem configRead_only (f : Nat) (tag : W32) (c : Cmd) (s : State) : Only [.fns, .always] s (configRead f tag c s) :=
  ite_only (started_only ..).within ((started_only ..).within.andThen (bumpAlways_only ..))

theorem execCounterConfig_waits (w : Waits s f.val tag 0x50 c) (owner : s.owns f.val c.partition = true)
    (free : (started f.val tag s).barred { c with started := true } = false) (none_ : (s.part c.partition).cfg = none)
    (sound : bit (c.f 52 1) 1 = true ∨ (s.newSels c data).any (fun e => badSel e.2) = false) (later : bit (c.f 52 1) 0 = false) :
    exec (.counterConfig f tag data) s =
      done (modPart c.partition (fun x => { x with cfg := some (configAsked f.val tag c data s) }) (configRead f.val tag c s)) := by
  refine congrArg done ((startCmd_eq _ w).trans ?_)
  have part : (started f.val tag s).part c.partition = s.part c.partition := Only.part (started_only ..) rfl _
  have sels : (started f.val tag s).newSels { c with started := true } data = s.newSels c data := by
    obtain ⟨v, hv⟩ := started_frame f.val tag s
    rw [hv]
    rfl
  have owns : (started f.val tag s).owns f.val c.partition = true := (owns_started ..).trans owner
  have later' : bit (({ c with started := true } : Cmd).f 52 1) 0 = false := later
  have same : ({ c with started := true } : Cmd).partition = c.partition := rfl
  have passes : firstFail [(!(started f.val tag s).owns f.val c.partition, stNotOwner),
      ((started f.val tag s).barred { c with started := true }, stPartitionReweaving),
      (((started f.val tag s).part c.partition).cfg.isSome, stBusy)] = none := by
    rw [owns, free, part, none_]
    rfl
  have good : (!bit (c.f 52 1) 1 && (s.newSels c data).any fun e => badSel e.2) = false := by
    obtain restores | clean := sound
    · rw [restores]
      rfl
    · rw [clean, Bool.and_false]
  have good' : (!bit (({ c with started := true } : Cmd).f 52 1) 1 && (s.newSels c data).any fun e => badSel e.2) = false := good
  dsimp only
  rw [same, passes, sels, later']
  dsimp only
  rw [good', if_neg Bool.false_ne_true, if_neg Bool.false_ne_true]
  rfl

end

/-- At the deadline of a configuration that nothing has asked for, its forced latch point is asked for. -/
theorem execCounterConfigWaitExpiry_asks {s : State} {p : Part} {c : PendingCfg} (cfg : (s.part p.val).cfg = some c)
    (later : c.latchNow = false) (due : c.deadline ≤ s.t) (unasked : ((s.part p.val).deferred.any fun d => d.forConfig) = false) :
    exec (.counterConfigWaitExpiry p) s = done (requestLatch p.val
      { due := 0, lkind := 4, fn := c.fn, tag := c.tag, mask := 0, record := true, forConfig := true } s) := by
  show execCounterConfigWaitExpiry p s = _
  unfold execCounterConfigWaitExpiry
  dsimp only
  rw [cfg]
  exact if_pos (by simp [later, due, unasked])

theorem deferredTake_config {s : State} {p : Nat} {c : PendingCfg} {d : DeferredLatch} (cfg : (s.part p).cfg = some c)
    (own : d.forConfig = true) (kind : d.lkind ≠ 2) :
    deferredTake p d s = takeLatch p { lkind := d.lkind, hostTag := 0, own := true } s := by
  unfold deferredTake
  rw [own, cfg, if_neg kind]
  rfl

theorem execDeferredLatchPoint_takes {s : State} {p : Part} {d : DeferredLatch} {rest : List DeferredLatch}
    (first : (s.part p.val).deferred = d :: rest) (due : d.due ≤ s.t) (allowed : s.latchAllowed p.val = true) :
    exec (.deferredLatchPoint p) s =
      done (deferredTake p.val d (modPart p.val (fun x => { x with deferred := rest }) s)) := by
  show execDeferredLatchPoint p s = _
  unfold execDeferredLatchPoint
  dsimp only
  rw [first]
  exact if_pos (by simp [due, allowed])

/-! ### COUNTER_LATCH -/

section
variable {s : State} {f : Fn} {tag : W32} {c : Cmd}

theorem hwm_started (f : Nat) (tag : W32) (s : State) (g : Nat) : ((started f tag s).fn g).hwm = (s.fn g).hwm := by
  by_cases same : g = f
  · subst same
    by_cases b : g < 136
    · unfold started modCmd
      rw [fn_modFn _ _ _ b]
    · unfold State.fn
      rw [dif_neg b, dif_neg b]
  · rw [fn_started_ne same]

theorem alwaysBlock_started (f : Nat) (tag : W32) (s : State) (g : Nat) : (started f tag s).alwaysBlock g = s.alwaysBlock g := by
  have marks := hwm_started f tag s
  unfold State.alwaysBlock
  simp only [marks]
  obtain ⟨v, hv⟩ := started_frame f tag s
  rw [hv]
  rfl

/-- The always-on block goes to the buffer, to its end at most. -/
theorem execCounterLatch_always (w : Waits s f.val tag 0x51 c) (mode : c.f 52 1 = 1) (reads : s.readsAlways f.val = true)
    (sound : c.work.dmaError = false) : exec (.counterLatch f tag) s = done (complete f.val tag { r0 := 132, r1 := s.t % 2 ^ 32 }
      (hostWrite (fnPort f.val) c.bufAddr ((s.alwaysBlock f.val).take c.bufWindow) (started f.val tag s))) := by
  refine congrArg done ((startCmd_eq _ w).trans ((if_pos mode).trans ?_))
  have written : bufWrite f.val tag 0 (s.alwaysBlock f.val) (started f.val tag s) =
      hostWrite (fnPort f.val) c.bufAddr ((s.alwaysBlock f.val).take c.bufWindow) (started f.val tag s) :=
    (bufWrite_of_cmd (off := 0) (data := s.alwaysBlock f.val) f.isLt (cmd_started w.here) :)
  have block := alwaysBlock_started f.val tag s f.val
  have reads' : (started f.val tag s).readsAlways f.val = true := by
    obtain ⟨v, hv⟩ := started_frame f.val tag s
    rw [hv]
    exact reads
  have time : (started f.val tag s).t = s.t := by
    obtain ⟨v, hv⟩ := started_frame f.val tag s
    rw [hv]
    rfl
  have sound' : ({ c with started := true } : Cmd).work.dmaError = false := sound
  rw [reads', sound', block, written, time]
  rfl

theorem latch_started (f : Nat) (tag : W32) (s : State) (p : Nat) :
    (started f tag s).latchAllowed p = s.latchAllowed p ∧ (started f tag s).latchDue p = s.latchDue p := by
  obtain ⟨v, hv⟩ := started_frame f tag s
  rw [hv]
  exact ⟨rfl, rfl⟩

/-- The request that COUNTER_LATCH puts for a partition. -/
def latchAsked (f : Nat) (tag : W32) (c : Cmd) (due : Nat) : DeferredLatch :=
  { due := due, lkind := 2, fn := f, tag := tag, mask := BitVec.ofNat 64 (c.f 20 8), record := bit (c.f 53 1) 0, forConfig := false }

theorem execCounterLatch_defers (w : Waits s f.val tag 0x51 c) (mode : c.f 52 1 ≠ 1)
    (reads : s.readsCounters f.val c.partition = true) (spaced : s.latchAllowed c.partition = false) :
    exec (.counterLatch f tag) s = done (modPart c.partition
      (fun x => { x with deferred := x.deferred ++ [latchAsked f.val tag c (s.latchDue c.partition)] }) (started f.val tag s)) := by
  refine congrArg done ((startCmd_eq _ w).trans ((if_neg mode).trans ((if_neg ?_).trans ?_)))
  · have reads' : (started f.val tag s).readsCounters f.val c.partition = true := by
      obtain ⟨v, hv⟩ := started_frame f.val tag s
      rw [hv]
      exact reads
    show ¬ (!(started f.val tag s).readsCounters f.val c.partition) = true
    rw [reads']
    decide
  · obtain ⟨allowed, due⟩ := latch_started f.val tag s c.partition
    refine (requestLatch_defers (allowed.trans spaced)).trans ?_
    rw [due]
    rfl

end

/-- Settles O29: a configuration waits, a latch point is taken or waits as the spacing says, and the always-on block is
written before its command ends. -/
theorem countersAct : Obligations.CountersAct := by
  unfold Obligations.CountersAct
  refine ⟨?config, ?defers, ?takes, fun s p d rest first due allowed => execDeferredLatchPoint_takes first due allowed,
    ?always, ?latch⟩
  case config =>
    intro s f tag data c w owner b free none_ sound later
    have read := configRead_only f.val tag c s
    have kept := modPart_only c.partition (fun x => { x with cfg := some (configAsked f.val tag c data s) })
      (configRead f.val tag c s)
    refine Runs.quiet (execCounterConfig_waits w owner free none_ sound later)
      ((kept.same .fires (by decide)).trans ((read.same .fires (by decide)).trans w.quiet)) ⟨?_, read.within.andThen kept⟩
    rw [part_modPart _ _ _ b]
    rfl
  case defers =>
    intro s p c cfg later due quiet unasked spaced
    have ends := (execCounterConfigWaitExpiry_asks cfg later due unasked).trans (congrArg done (requestLatch_defers spaced))
    refine Runs.of_only quiet ends (modPart_only ..) ⟨?_, modPart_only ..⟩
    rw [part_modPart _ _ _ p.isLt]
  case takes =>
    intro s p c cfg later due none_ allowed
    refine (execCounterConfigWaitExpiry_asks cfg later due (by simp [none_])).trans (congrArg done ?_)
    exact (requestLatch_takes allowed none_).trans (deferredTake_config cfg rfl (show (4 : Nat) ≠ 2 by decide))
  case always =>
    intro s f tag c w mode reads sound
    obtain ⟨t, runs, -, grows, answered⟩ := exec_completes (execCounterLatch_always w mode reads sound)
      (answers_hostWrite _ f.isLt w.here)
    exact ⟨t, runs, answered, grows.out.subset (mem_out_hostWrite ..)⟩
  case latch =>
    intro s f tag c w mode reads b spaced
    have begun := started_only f.val tag s
    have kept := modPart_only c.partition
      (fun x => { x with deferred := x.deferred ++ [latchAsked f.val tag c (s.latchDue c.partition)] }) (started f.val tag s)
    refine Runs.quiet (execCounterLatch_defers w mode reads spaced)
      ((kept.same .fires (by decide)).trans ((begun.same .fires (by decide)).trans w.quiet)) ⟨?_, begun.within.andThen kept⟩
    rw [part_modPart _ _ _ b, Only.part begun rfl]
    rfl

end Sys2Proof.Laws

/-!
SUPPORT. The loss of the trace port's link in a hub that has a trigger to settle: what the trigger's record does to the
write queue of external memory.
-/

namespace Sys2Proof.Laws
open Sys2Proof Sys2Proof.Machine
set_option Elab.async false -- a thread per proof would not fit beside the model in the check's memory

/-- A weft whose stage 0 ARMs at source 8 (R508). -/
def armingPlane : Plane := { weft := Mem.ofBytes (zeros 321 ++ [1] ++ zeros 12 ++ [1]), gen := 1, imageId := 0 }

/-- A record of 1,016 bytes. -/
def longRecord : TraceRec :=
  { cls := 1, dieTime := false, partition := 3, ts := 0, payload := zeros 1000, spilled := false }

/-- The open block of partition 3, which no record fits in any more. -/
def fullBlock : Block :=
  { seq := 0, bkind := 0, partition := 3, lossOpen := false, committed := 0, recs := List.replicate 65 longRecord }

/-- Partition 3 routes its records to external memory, where its open block is full; its source 8 has fired and is not
settled. The trace port's link is up. -/
def triggerBehindPort : State :=
  let r := modPart 3 (fun x => { x with
    active := armingPlane, routes := List.replicate 16 2, oldRoutes := List.replicate 16 2, openBlock := some fullBlock })
    State.reset
  { r with weave := { r.weave with warp := Mem.ofBytes (zeros 8 ++ [1]) }, fires := [(3, 8)],
           wale := { r.wale with portUp := true, dramReady := true } }

/-- The bytes in the write queue of external memory behind a command. -/
def queuedBy : Host.Outcome State Fault Refusal → Nat
  | .next t => t.wale.queued
  | _ => 0

theorem queuedBy_triggerBehindPort : queuedBy (exec .waleLinkDown triggerBehindPort) = 65536 := by decide +kernel

/-- Refutes O28: its last clause says that WALE_LINK_DOWN changes two fields of the trace port in every state. In
`triggerBehindPort` the lattice, which settles at the command's end, writes the TRIGGER record of the stage that advances,
and the full block goes to the write queue (R716, R717). -/
theorem not_tracePortActs : ¬ Obligations.TracePortActs := by
  unfold Obligations.TracePortActs
  rintro ⟨-, -, -, -, -, -, -, -, -, down⟩
  obtain ⟨t, ends, kept⟩ := down triggerBehindPort rfl
  have queued := queuedBy_triggerBehindPort
  rw [ends] at queued
  have none_ : t.wale.queued = 0 := by
    rw [kept]
    rfl
  exact absurd (none_.symm.trans queued) (by decide)

end Sys2Proof.Laws

/-!
SUPPORT. The hang detector: the report that is asked for, the events of the wait graph and its scans.
-/

namespace Sys2Proof.Laws
open Sys2Proof Sys2Proof.Machine
set_option Elab.async false -- a thread per proof would not fit beside the model in the check's memory

/-! ### HANG_REPORT -/

section
variable {s : State} {f : Fn} {tag : W32} {c : Cmd} {r : HangReport}

/-- The report that a HANG_REPORT of MODE 0 asks for. -/
def asksReport (c : Cmd) (s : State) : Option HangReport :=
  if c.param0 = 0 then (s.part c.partition).reports.getLast?
  else (s.part c.partition).reports.find? fun x => x.id.toNat == c.param0

/-- What the hub notes when a report that is known to hold a bad word is read. -/
def reportRead (p : Nat) (r : HangReport) (s : State) : State := if r.bad then uncorrectableItem false 1 p r.id.toNat 3 s else s

theorem reportRead_only (p : Nat) (r : HangReport) (s : State) : Only [.fns, .always, .err, .out, .free] s (reportRead p r s) :=
  ite_only (uncorrectableItem_only ..) (.refl ..)

theorem reportRead_rings (p : Nat) (r : HangReport) (s : State) : Rings s (reportRead p r s) := by
  unfold reportRead
  split
  · exact uncorrectableItem_rings ..
  · exact .refl _

theorem reportRead_out (p : Nat) (r : HangReport) (s : State) : s.out <+: (reportRead p r s).out := by
  unfold reportRead
  split
  · exact (uncorrectableItem_grows ..).out
  · exact List.prefix_refl _

/-- The answer of a HANG_REPORT that reads a stored report. -/
def reportAnswer (c : Cmd) (r : HangReport) : Res where
  status := if r.bad then stPoisoned else stOk
  part := r.bad
  r0 := r.id.toNat
  r1 := (r.stream.take c.length).length
  r2 := r.cutId.toNat
  r3 := r.bytes.length

/-- The stored report goes to the buffer, as far as LENGTH and the buffer reach. -/
def reportPut (f : Nat) (tag : W32) (c : Cmd) (r : HangReport) (s : State) : State :=
  hostWrite (fnPort f) c.bufAddr ((r.stream.take c.length).take c.bufWindow) (reportRead c.partition r (started f tag s))

theorem reportPut_only (f : Nat) (tag : W32) (c : Cmd) (r : HangReport) (s : State) :
    Only [.fns, .always, .err, .out, .free] s (reportPut f tag c r s) := by
  have begun : Only [.fns, .always, .err, .out, .free] s (started f tag s) := (started_only ..).within
  exact (begun.andThen (reportRead_only ..)).andThen (hostWrite_only ..)

theorem reportPut_rings (f : Nat) (tag : W32) (c : Cmd) (r : HangReport) (s : State) :
    Rings (started f tag s) (reportPut f tag c r s) :=
  (reportRead_rings ..).trans (.of_only (hostWrite_only ..) rfl)

theorem reportPut_out (f : Nat) (tag : W32) (c : Cmd) (r : HangReport) (s : State) : s.out <+: (reportPut f tag c r s).out := by
  have begun : (started f tag s).out = s.out := (started_only f tag s).same .out (by decide)
  exact (begun ▸ reportRead_out c.partition r (started f tag s)).trans (hostWrite_grows ..).out

/-- The stored report that is asked for goes to the buffer, with POISONED and PARTIAL where it is known to hold a bad word. -/
theorem execHangReport_stored (w : Waits s f.val tag 0x80 c) (runs : s.err.stopped = false) (reads : s.reads f.val c.partition = true)
    (long : 64 ≤ c.length) (mode : c.f 52 1 = 0) (sound : c.work.dmaError = false) (asked : asksReport c s = some r) :
    exec (.hangReport f tag .good) s = done (complete f.val tag (reportAnswer c r)
      (reportPut f.val tag c r s)) := by
  refine congrArg done ((startCmd_eq _ w).trans ?_)
  have part : (started f.val tag s).part c.partition = s.part c.partition := Only.part (started_only ..) rfl _
  have reads' : (started f.val tag s).reads f.val c.partition = true := (reads_started ..).trans reads
  have runs' : (started f.val tag s).err.stopped = false :=
    (congrArg ErrCtl.stopped ((started_only f.val tag s).same .err (by decide))).trans runs
  have mode' : ({ c with started := true } : Cmd).f 52 1 = 0 := mode
  have begun := (cmd_of_rings (reportRead_rings c.partition r (started f.val tag s)) f.val tag).trans (cmd_started w.here)
  have written := bufWrite_of_cmd (off := 0) (data := r.stream.take c.length) f.isLt begun
  have asked' : (if ({ c with started := true } : Cmd).param0 = 0 then (s.part c.partition).reports.getLast? else
      (s.part c.partition).reports.find? fun x => x.id.toNat == ({ c with started := true } : Cmd).param0) = some r := asked
  have same : ({ c with started := true } : Cmd).partition = c.partition := rfl
  have passes : firstFail [((started f.val tag s).err.stopped, stBusy), (!(started f.val tag s).reads f.val c.partition, stNotOwner),
      (decide (({ c with started := true } : Cmd).length < 64), stBadLen), ((0 : Nat) == 0 && (some r).isNone, stBadUnit),
      ((0 : Nat) == 1 && !hangFlag (s.part c.partition).active.weft 0, stBusy)] = none := by
    rw [reads', runs', decide_eq_false (show ¬ ({ c with started := true } : Cmd).length < 64 from Nat.not_lt.mpr long)]
    rfl
  have fails : (started f.val tag s).writeFails f.val tag = false := by
    unfold State.writeFails
    rw [cmd_started w.here]
    exact sound
  dsimp only
  rw [same, part, asked', mode', passes]
  dsimp only
  rw [if_neg (by decide), if_neg (by decide)]
  dsimp only
  rw [show (Ecc.good == Ecc.bad || r.bad) = r.bad from rfl,
    if_neg (show ¬ (Ecc.good == Ecc.corrected) = true by decide), fails]
  refine (if_neg Bool.false_ne_true).trans ?_
  exact congrArg (complete f.val tag _) written

end

/-! ### The events of the graph -/

theorem execHangEventProcess_oldest {s : State} {e : HangEv} {rest : List HangEv} (queue : s.hang.queue = e :: rest) :
    exec .hangEventProcess s = done (spendCreel (if s.injectHit then
      modPart e.partition (fun x => { x with graphBad := true }) (hangEvent e { s with hang := { s.hang with queue := rest } })
      else hangEvent e { s with hang := { s.hang with queue := rest } })) := by
  show execHangEventProcess s = _
  unfold execHangEventProcess
  rw [queue]

/-- Taking an event off the queue writes the graph, and what an injection that hits it leaves. -/
theorem eventTaken_only (e : HangEv) (rest : List HangEv) (s : State) :
    Only [.units, .hang, .parts, .fns, .always, .err, .out, .free] s (spendCreel (if s.injectHit then
      modPart e.partition (fun x => { x with graphBad := true }) (hangEvent e { s with hang := { s.hang with queue := rest } })
      else hangEvent e { s with hang := { s.hang with queue := rest } })) := by
  have taken : Only [.hang] s { s with hang := { s.hang with queue := rest } } := upd_hang (.refl ..) rfl
  have noted : Only [.units, .hang, .parts] s (hangEvent e { s with hang := { s.hang with queue := rest } }) :=
    taken.within.andThen (hangEvent_only e _)
  have hit : Only [.units, .hang, .parts] s (if s.injectHit then
      modPart e.partition (fun x => { x with graphBad := true }) (hangEvent e { s with hang := { s.hang with queue := rest } })
      else hangEvent e { s with hang := { s.hang with queue := rest } }) := ite_only (noted.andThen (modPart_only ..)) noted
  exact hit.within.andThen (spendCreel_only _)

theorem spendCreel_of_unarmed {s : State} (unarmed : s.err.armed = false) : spendCreel s = s := if_pos (by simp [unarmed])

/-- A message that was sent is put to its channel's entry. -/
theorem hangEvent_sent {e : HangEv} (kind : e.kind = 1) (s : State) :
    hangEvent e s = modChan e.chan (fun x => (x.sent e.unit e.count).aged e.old) s := if_pos (by simp [kind])

/-! ### The scans -/

theorem latestMultiple {from_ period k now : Nat} (reached : from_ + k * period ≤ now) (last : now < from_ + k * period + period) :
    (now - from_) / period = k :=
  Nat.div_eq_of_lt_le (by omega) (by rw [Nat.succ_mul]; omega)

section
variable {s : State} {p : Part} {k : Nat} {b : Scan}

/-- The scan that is due. -/
def scanDue (s : State) (p k : Nat) : Nat := (s.part p).lastScan + k * (s.hangScanUs p * Config.ticksPerUs)

theorem execHangScan_due (on : (s.part p.val).graphOn = true) (free : (s.part p.val).held = false) (runs : s.err.stopped = false)
    (some_ : 0 < k) (after : (s.part p.val).holdEnd ≤ scanDue s p.val k) (reached : scanDue s p.val k ≤ s.t)
    (last : s.t < scanDue s p.val k + s.hangScanUs p.val * Config.ticksPerUs) :
    exec (.hangScan p) s = if (s.part p.val).scanning.isSome then
      done (modPart p.val (fun y => { y with overrun := satInc y.overrun, lastScan := scanDue s p.val k, scanWaits := true }) s)
      else done (startScan p.val (modPart p.val (fun y => { y with lastScan := scanDue s p.val k }) s)) := by
  show execHangScan p s = _
  unfold execHangScan
  dsimp only
  rw [latestMultiple reached last]
  have later : (s.part p.val).lastScan < scanDue s p.val k :=
    Nat.lt_add_of_pos_right (Nat.mul_pos some_ (by omega))
  refine if_neg ?_
  have : (s.part p.val).lastScan + k * (s.hangScanUs p.val * Config.ticksPerUs) = scanDue s p.val k := rfl
  rw [this]
  simp [on, free, runs, later, after]

theorem part_startScan (p : Part) (s : State) : (startScan p.val s).part p.val = { s.part p.val with
    scanWaits := false
    scanning := some { start := s.t, minAge := minAgeUs (s.part p.val).active.weft, stall := stallUs (s.part p.val).active.weft } } :=
  part_modPart _ _ _ p.isLt

theorem components_nil (units : List Nat) : components [] units = [] := by
  unfold components
  simp [reach, reachLoop]

theorem blockedEdges_of_no_waits {keep : Nat → OpenWait → Bool} {p : Nat} (none_ : ∀ u ∈ s.unitsOf p, (s.unit u).waits = []) :
    s.blockedEdges p keep = [] := by
  have empty : s.openWaits p = [] := by
    unfold State.openWaits
    rw [List.flatMap_eq_nil_iff]
    intro u hu
    rw [none_ u hu, List.map_nil]
  unfold State.blockedEdges
  rw [empty, List.filterMap_nil]

/-- What the end of a scan leaves: no scan is under way, and none waits. -/
def scanEnded (p : Nat) (s : State) : State := modPart p (fun y => { y with scanning := none, scanWaits := false }) s

/-- A scan that finds no wait of a unit ends with no cycle held. -/
theorem execHangScanEnd_clear (scan : (s.part p.val).scanning = some b) (runs : s.err.stopped = false)
    (free : (s.part p.val).held = false) (alone : (s.part p.val).scanWaits = false)
    (none_ : ∀ u ∈ s.unitsOf p.val, (s.unit u).waits = []) (sound : (s.part p.val).graphBad = false)
    (unstalled : hangFlag (s.part p.val).active.weft 1 = false) :
    exec (.hangScanEnd p .good) s = done (modPart p.val (fun y => { y with lastCycle := [] }) (scanEnded p.val s)) := by
  show execHangScanEnd p .good s = _
  unfold execHangScanEnd
  simp only [show (Ecc.good == Ecc.corrected) = false from rfl, Bool.false_and, Bool.false_eq_true, if_false, scan, runs, free, alone, sound, unstalled, blockedEdges_of_no_waits none_, List.filter_nil, components_nil]
  rfl

theorem execHangScanEnd_held (scan : (s.part p.val).scanning = some b) (runs : s.err.stopped = false)
    (held : (s.part p.val).held = true) (unacted : s.actedNow p.val = none) :
    exec (.hangScanEnd p .good) s = done (scanEnded p.val s) := by
  show execHangScanEnd p .good s = _
  unfold execHangScanEnd
  simp only [show (Ecc.good == Ecc.corrected) = false from rfl, Bool.false_and, Bool.false_eq_true, if_false, scan, runs, held, unacted]
  rfl

theorem execHangScanEnd_bad (scan : (s.part p.val).scanning = some b) (runs : s.err.stopped = false)
    (free : (s.part p.val).held = false) : exec (.hangScanEnd p .bad) s =
      done (startGraph p.val (stopGraph p.val (uncorrectableItem false 1 p.val 0 3 s))) := by
  show execHangScanEnd p .bad s = _
  unfold execHangScanEnd
  simp only [show (Ecc.bad == Ecc.corrected) = false from rfl, Bool.false_and, Bool.false_eq_true, if_false, scan, runs, free]
  rfl

theorem execHangScanEnd_graphBad (scan : (s.part p.val).scanning = some b) (runs : s.err.stopped = false)
    (free : (s.part p.val).held = false) (bad : (s.part p.val).graphBad = true) : exec (.hangScanEnd p .good) s =
      done (startGraph p.val (stopGraph p.val (uncorrectableItem false 1 p.val 0 3 s))) := by
  show execHangScanEnd p .good s = _
  unfold execHangScanEnd
  simp only [show (Ecc.good == Ecc.corrected) = false from rfl, Bool.false_and, Bool.false_eq_true, if_false, scan, runs, free, bad]
  rfl

end

/-- Settles O43: what each command of the hang detector leaves, where its condition has come. -/
theorem hangDetectorActs : Obligations.HangDetectorActs := by
  unfold Obligations.HangDetectorActs
  refine ⟨?report, ?event, ?sent, ?scan, ?clear, ?held, ?bad⟩
  case report =>
    intro s f tag c r w runs reads long mode sound asked
    have written := reportPut_only f.val tag c r s
    have all := written.andThen (complete_only f.val tag (reportAnswer c r) _)
    refine Runs.of_only w.quiet (execHangReport_stored w runs reads long mode sound asked) all
      ⟨answers_after _ f.isLt w.here (reportPut_rings ..) (reportPut_out ..) (Only.now written rfl), ?_, all.same .hang (by decide)⟩
    exact (complete_grows ..).out.subset (mem_out_hostWrite ..)
  case event =>
    intro s e rest queue quiet
    exact (execHangEventProcess_oldest queue).trans
      (done_quiet (((eventTaken_only e rest s).same .fires (by decide)).trans quiet))
  case sent =>
    intro s e rest queue kind unarmed quiet
    have missed : s.injectHit = false := by simp [State.injectHit, unarmed]
    have taken : Only [.hang] s { s with hang := { s.hang with queue := rest } } := upd_hang (.refl ..) rfl
    have all := taken.andThen (modChan_only e.chan (fun x => (x.sent e.unit e.count).aged e.old) _)
    have ends := execHangEventProcess_oldest queue
    rw [missed, if_neg Bool.false_ne_true, hangEvent_sent kind] at ends
    rw [spendCreel_of_unarmed ((congrArg ErrCtl.armed (all.same .err (by decide))).trans unarmed)] at ends
    exact Runs.of_only quiet ends all ⟨rfl, all⟩
  case scan =>
    intro s p k x due on free runs some_ after reached last quiet
    have ends := execHangScan_due on free runs some_ after reached last
    by_cases under : x.scanning.isSome
    · rw [if_pos under] at ends
      refine Runs.of_only quiet ends (modPart_only ..) ?_
      rw [part_modPart _ _ _ p.isLt]
      refine ⟨rfl, modPart_only .., fun none_ => ?_, fun b here => ⟨rfl, here, rfl⟩⟩
      rw [none_] at under
      exact absurd under (by decide)
    · rw [if_neg under] at ends
      have all := (modPart_only p.val (fun y => { y with lastScan := scanDue s p.val k }) s).andThen (startScan_only p.val _)
      refine Runs.of_only quiet ends all ?_
      rw [part_startScan, part_modPart _ _ _ p.isLt]
      have time : (modPart p.val (fun y => { y with lastScan := scanDue s p.val k }) s).t = s.t :=
        congrArg BitVec.toNat (Only.now (modPart_only ..) rfl)
      rw [time]
      exact ⟨rfl, all, fun _ => ⟨rfl, rfl⟩, fun b here => absurd (congrArg Option.isSome here) under⟩
  case clear =>
    intro s p b scan runs free alone none_ sound unstalled quiet
    have all := (modPart_only p.val (fun y => { y with scanning := none, scanWaits := false }) s).andThen
      (modPart_only p.val (fun y => { y with lastCycle := [] }) _)
    refine Runs.of_only quiet (execHangScanEnd_clear scan runs free alone none_ sound unstalled) all ?_
    unfold scanEnded
    rw [part_modPart _ _ _ p.isLt, part_modPart _ _ _ p.isLt]
    exact ⟨rfl, rfl, all⟩
  case held =>
    intro s p b scan runs held unacted quiet
    refine Runs.of_only quiet (execHangScanEnd_held scan runs held unacted) (modPart_only ..) ?_
    unfold scanEnded
    rw [part_modPart _ _ _ p.isLt]
    exact ⟨rfl, rfl, modPart_only ..⟩
  case bad =>
    intro s p b scan runs free
    have ends := execHangScanEnd_bad scan runs free
    exact ⟨fun bad => (execHangScanEnd_graphBad scan runs free bad).trans ends.symm, ends⟩

end Sys2Proof.Laws

/-!
SUPPORT. A host's register accesses: what a read returns and clears, the memory window and the injection of errors.
-/

namespace Sys2Proof.Laws
open Sys2Proof Sys2Proof.Machine
set_option Elab.async false -- a thread per proof would not fit beside the model in the check's memory

/-! ### A read of a register -/

section
variable {s t : State} {f off v : Nat} {w : W32}

theorem barRead_shown (answers : s.answers f = true) (shows_ : s.shows off = true) (value : readReg false f off s = (some v, t)) :
    barRead f off s = readDone f v t := by
  unfold barRead
  rw [answers, shows_, value]
  rfl

theorem barRead_hidden (answers : s.answers f = true) (hidden : s.shows off = false) : barRead f off s = readDone f 0 s := by
  unfold barRead
  rw [answers, hidden]
  rfl

theorem readReg_latched (plain : ¬(off = 0x04C ∧ isPf f = true)) (held : Tab.get? (s.latchesOf false f) off = some w) :
    readReg false f off s = (some (if s.closesTo f off then 0 else w.toNat), s) := by
  unfold readReg
  rw [if_neg plain]
  dsimp only
  rw [held]

/-- A read of the first word of a group holds the group's other words for the function. -/
def regKept (f off : Nat) (s : State) : State :=
  if groupSize off = 0 then s else setLatches false f (latchGroup s f off (s.latchesOf false f)) s

theorem readReg_fresh (plain : ¬(off = 0x04C ∧ isPf f = true)) (free : Tab.get? (s.latchesOf false f) off = none) :
    readReg false f off s = (some (regValue s f off), readClear f off (regKept f off s)) := by
  unfold readReg
  rw [if_neg plain]
  dsimp only
  rw [free]
  rfl

theorem setLatches_frame (f : Nat) (l : List (Nat × W32)) (s : State) : ∃ x, setLatches false f l s = { s with fns := x } := by
  unfold setLatches
  rw [if_neg Bool.false_ne_true]
  exact modFn_frame ..

theorem regKept_frame (f off : Nat) (s : State) : ∃ x, regKept f off s = { s with fns := x } := by
  unfold regKept
  split
  · exact ⟨_, rfl⟩
  · exact setLatches_frame ..

theorem seesGlobal_regKept (f off g : Nat) (s : State) : (regKept f off s).seesGlobal g = s.seesGlobal g := by
  obtain ⟨x, hx⟩ := regKept_frame f off s
  rw [hx]
  rfl

theorem opensPart_regKept (f off g p : Nat) (s : State) : (regKept f off s).opensPart g p = s.opensPart g p := by
  obtain ⟨x, hx⟩ := regKept_frame f off s
  rw [hx]
  rfl

theorem readDone_out (f v : Nat) (s : State) : (readDone f v s).out = s.out ++ [.readData f (BitVec.ofNat 32 v)] := rfl

end

/-- A read of one word is the read of its register. -/
theorem execRegisterReadClear_word (s : State) (f : Fn) (off : W16) :
    exec (.registerReadClear f off 1) s = done (barRead f.val off.toNat s) := rfl

/-- What a read whose register nothing holds leaves. -/
theorem execRegisterReadClear_fresh {s : State} {f : Fn} {off : W16} (answers : s.answers f.val = true)
    (shows_ : s.shows off.toNat = true) (plain : ¬(off.toNat = 0x04C ∧ isPf f.val = true))
    (free : Tab.get? (s.latchesOf false f.val) off.toNat = none) : exec (.registerReadClear f off 1) s =
      done (readDone f.val (regValue s f.val off.toNat) (readClear f.val off.toNat (regKept f.val off.toNat s))) :=
  (execRegisterReadClear_word s f off).trans (congrArg done (barRead_shown answers shows_ (readReg_fresh plain free)))

theorem readFresh_quiet {s : State} {f off v : Nat} (quiet : s.fires = []) :
    (readDone f v (readClear f off (regKept f off s))).fires = [] := by
  obtain ⟨x, hx⟩ := regKept_frame f off s
  rw [hx]
  have cleared := (readClear_only f off { s with fns := x }).same .fires (by decide)
  exact ((readDone_only f v _).same .fires (by decide)).trans (cleared.trans quiet)

theorem readClear_drops {f : Nat} {s : State} (sees : s.seesGlobal f = true) : (readClear f 0xC08 s).hang.drops = 0 := by
  unfold readClear
  rw [if_pos ⟨rfl, sees⟩]

theorem readClear_evict {f : Nat} {s : State} (sees : s.seesGlobal f = true) : (readClear f 0xC0C s).hang.evict = 0 := by
  unfold readClear
  rw [if_neg (by simp), if_pos ⟨rfl, sees⟩]

theorem readClear_suppressed {f : Nat} {p : Part} {s : State} (opens : s.opensPart f p.val = true) :
    ((readClear f (0x2000 + 0x80 * p.val + 0x28) s).part p.val).suppressed = 0 := by
  have index : (0x2000 + 0x80 * p.val + 0x28 - 0x2000) / 0x80 = p.val := by omega
  have word : (0x2000 + 0x80 * p.val + 0x28) % 0x80 = 0x28 := by omega
  unfold readClear
  rw [if_neg (by omega), if_neg (by omega), index, if_pos ⟨by omega, by omega, opens⟩, word]
  dsimp only
  rw [if_neg (by decide), if_pos rfl]
  exact congrArg PartSt.suppressed (part_modPart _ _ _ p.isLt)

theorem execLatchingRead_hidden {s : State} {f : Fn} {off : W16} (answers : s.answers f.val = true)
    (hidden : s.shows off.toNat = false) : exec (.latchingRead f off) s =
      done (bumpAlways (40 + fnPort f.val) 4 { s with out := s.out ++ [.readData f.val 0] }) :=
  congrArg done (barRead_hidden answers hidden)

/-- A read of a high word that was held returns it, or 0 where the word is closed to the function by now. -/
theorem execLatchingRead_held {s : State} {f : Fn} {off : W16} {v : W32} (answers : s.answers f.val = true)
    (shows_ : s.shows off.toNat = true) (plain : ¬(off.toNat = 0x04C ∧ isPf f.val = true))
    (held : Tab.get? (s.latchesOf false f.val) off.toNat = some v) : exec (.latchingRead f off) s =
      done (bumpAlways (40 + fnPort f.val) 4
        { s with out := s.out ++ [.readData f.val (if s.closesTo f.val off.toNat then 0 else v)] }) := by
  have word : BitVec.ofNat 32 (if s.closesTo f.val off.toNat then 0 else v.toNat) = if s.closesTo f.val off.toNat then 0 else v := by
    split
    · rfl
    · exact BitVec.ofNat_toNat ..
  rw [← word]
  exact congrArg done (barRead_shown answers shows_ (readReg_latched plain held))

/-! ### The memory window -/

theorem countBad_sound {space : Nat} {r : MemRead} (s : State) (ce : r.ce = false) (ue : r.ue = false) : countBad space r s = s := by
  unfold countBad
  simp [ce, ue]

/-- The window's read holds the word's upper half for the function. -/
def windowHeld (f : Nat) (upper : W32) (s : State) : State :=
  setLatches false f (Tab.set (s.latchesOf false f) 0x050 upper) s

theorem windowHeld_frame (f : Nat) (upper : W32) (s : State) : ∃ x, windowHeld f upper s = { s with fns := x } :=
  setLatches_frame ..

/-- What a read of the window writes of its port: the word's status, and the address that the next read takes. -/
def windowTurn (r : MemRead) (x : HostSt) : HostSt :=
  { x with
    memStatus := BitVec.ofNat 32 r.word
    memAddr := if r.denied || r.range || r.ue then x.memAddr else x.memAddr + 8 }

section
variable {s : State} {n : HostPort}

/-- Outside Test a read of the window reads 0. -/
theorem windowRead_denied (shut : s.inTest = false) (n : HostPort) : windowRead false (64 + n.val) s =
    (some 0, windowHeld (64 + n.val) 0 (modHost n.val (windowTurn { denied := true }) s)) := by
  unfold windowRead
  rw [shut, fnPort_pf]
  dsimp only
  rw [if_neg Bool.false_ne_true]
  dsimp only
  rw [countBad_sound s rfl rfl]
  rfl

/-- The word of the Creel that the window reads. -/
def creelWord (s : State) (n : Nat) : Nat := Mem.val s.mem.creel (8 * ((s.host n).memAddr.toNat / 8)) 8

theorem memWord_creel {index w : Nat} (inside : w < 2 ^ 23) (known : s.mem.known.contains (0, 0, w) = true)
    (sound : s.mem.ue.contains (0, 0, w) = false) (clean : s.mem.ce.contains (0, 0, w) = false) :
    memWord 0 index w s = ({ value := Mem.val s.mem.creel (8 * w) 8 }, s) := by
  unfold memWord
  rw [if_neg (show ¬ s.spaceWords 0 index ≤ w from Nat.not_le.mpr inside)]
  dsimp only
  rw [if_pos (Or.inl rfl), known, sound, clean]
  rfl

/-- In Test a read of the window reads the word at its address, and steps the address. -/
theorem windowRead_word (open_ : s.inTest = true) (space : (s.host n.val).memSel.toNat % 8 = 0)
    (inside : (s.host n.val).memAddr.toNat / 8 < 2 ^ 23)
    (known : s.mem.known.contains (0, 0, (s.host n.val).memAddr.toNat / 8) = true)
    (sound : s.mem.ue.contains (0, 0, (s.host n.val).memAddr.toNat / 8) = false)
    (clean : s.mem.ce.contains (0, 0, (s.host n.val).memAddr.toNat / 8) = false) : windowRead false (64 + n.val) s =
      (some (word32 (creelWord s n.val) 0), windowHeld (64 + n.val) (BitVec.ofNat 32 (word32 (creelWord s n.val) 1))
        (modHost n.val (windowTurn { value := creelWord s n.val }) s)) := by
  unfold windowRead
  rw [open_, fnPort_pf]
  dsimp only
  rw [if_pos rfl, space, memWord_creel inside known sound clean]
  dsimp only
  rw [countBad_sound s rfl rfl]
  rfl

theorem execMemWindowRead_shown {v : Nat} {t : State} (answers : s.answers (64 + n.val) = true) (shows_ : s.shows 0x04C = true)
    (value : windowRead false (64 + n.val) s = (some v, t)) : exec (.memWindowRead n) s = done (readDone (64 + n.val) v t) := by
  refine congrArg done (barRead_shown answers shows_ ?_)
  unfold readReg
  rw [if_pos ⟨rfl, decide_eq_true (by omega)⟩, value]

/-- What a read of the window leaves, where it has read a value. -/
theorem execMemWindowRead_reads {v : Nat} {upper : W32} {r : MemRead} (answers : s.answers (64 + n.val) = true)
    (shows_ : s.shows 0x04C = true) (quiet : s.fires = [])
    (value : windowRead false (64 + n.val) s = (some v, windowHeld (64 + n.val) upper (modHost n.val (windowTurn r) s))) :
    ∃ t, exec (.memWindowRead n) s = .next t ∧ t.out = s.out ++ [.readData (64 + n.val) (BitVec.ofNat 32 v)] ∧ t.mem = s.mem ∧
      t.host n.val = windowTurn r (s.host n.val) := by
  have ends := execMemWindowRead_shown answers shows_ value
  obtain ⟨y, hy⟩ := modHost_frame n.val (windowTurn r) s
  have turned := host_modHost n.val (windowTurn r) s n.isLt
  obtain ⟨x, hx⟩ := windowHeld_frame (64 + n.val) upper (modHost n.val (windowTurn r) s)
  rw [hx, hy] at ends
  rw [hy] at turned
  exact ⟨_, ends.trans (done_quiet quiet), rfl, rfl, turned⟩

end

/-! ### The injection of errors, and the ring size -/

theorem wholeMask : enableMask 0xF = 0xFFFFFFFF := by decide

theorem injectWrite_shut {f : Nat} {w : Wr} {s : State} (shut : s.inTest = false) : injectWrite false f w s = s := by
  unfold injectWrite
  rw [shut, Bool.and_false, Bool.false_and]
  rfl

/-- What a write of every byte puts in the bits that it may change. -/
theorem rw_whole (value bits old : W32) :
    ({ value := value, mask := 0xFFFFFFFF } : Wr).rw bits old = (old &&& ~~~bits) ||| (value &&& bits) := by
  unfold Wr.rw
  dsimp only
  rw [show (0xFFFFFFFF : W32) = BitVec.allOnes 32 from by decide, BitVec.allOnes_and]

theorem lowByte_mode (value old : W32) : ((old &&& ~~~0xFF) ||| (value &&& 0xFF)).setWidth 2 = value.setWidth 2 := by
  ext i hi
  interval_cases i <;> simp

theorem lowByte_bank (value old : W32) :
    ((old &&& ~~~0xFF) ||| (value &&& 0xFF)).extractLsb' 2 6 = value.extractLsb' 2 6 := by
  ext i hi
  interval_cases i <;> simp

/-- In Test a write of an enabled port's physical function arms the injection that it names. -/
theorem injectWrite_arms {n : HostPort} {value : W32} {s : State} (open_ : s.inTest = true) (on : s.enabledPort n.val = true) :
    injectWrite false (64 + n.val) { value := value, mask := 0xFFFFFFFF } s = { s with err := { s.err with
      injMode := value.setWidth 2, injBank := value.extractLsb' 2 6, armed := value.setWidth 2 != 0#2 } } := by
  unfold injectWrite
  dsimp only
  rw [rw_whole, lowByte_mode, lowByte_bank, open_, fnPort_pf, on, show isPf (64 + n.val) = true from decide_eq_true (by omega)]
  rfl

/-- The state of errors in which a write has armed an injection. -/
def injectArmed (value : W32) (e : ErrCtl) : ErrCtl :=
  { e with injMode := value.setWidth 2, injBank := value.extractLsb' 2 6, armed := value.setWidth 2 != 0#2 }

theorem execErrInject_arms {n : HostPort} {value : W32} {s : State} (opened : s.barOpen (64 + n.val) = true)
    (open_ : s.inTest = true) (on : s.enabledPort n.val = true) : exec (.errInject n value) s =
      done { bumpAlways (44 + fnPort (64 + n.val)) 4 s with err := injectArmed value s.err } :=
  congrArg done ((hostPut_of_open opened).trans (injectWrite_arms open_ on))

theorem execErrInject_shut {n : HostPort} {value : W32} {s : State} (shut : s.inTest = false) :
    exec (.errInject n value) s = done (if s.barOpen (64 + n.val) then bumpAlways (44 + n.val) 4 s else s) := by
  refine congrArg done ?_
  unfold hostPut
  rw [fnPort_pf]
  split
  · exact injectWrite_shut shut
  · rfl

/-- The ring size is written while the rings are disabled. -/
theorem writeReg_ringSize {f : Nat} {value : W32} {s : State} (off : (s.fn f).enable = false) :
    writeReg false f 0x410 value 0xF s =
      modFn f (fun x => { x with ringSize := (x.ringSize &&& ~~~0xF0F) ||| (value &&& 0xF0F) }) s := by
  show writeSes f 0x410 { value := value, mask := enableMask 0xF } s = _
  unfold writeSes
  dsimp only
  rw [off, wholeMask, if_neg (by decide), if_neg (by decide), if_neg (by decide), if_neg (by decide), if_pos rfl]
  refine (if_neg Bool.false_ne_true).trans (congrArg (modFn f · s) ?_)
  funext x
  exact congrArg (fun r => { x with ringSize := r }) (rw_whole ..)

theorem writeReg_ringSize_enabled {f : Nat} {value : W32} {s : State} (on : (s.fn f).enable = true) :
    writeReg false f 0x410 value 0xF s = s := by
  show writeSes f 0x410 { value := value, mask := enableMask 0xF } s = _
  unfold writeSes
  dsimp only
  rw [on, if_neg (by decide), if_neg (by decide), if_neg (by decide), if_neg (by decide), if_pos rfl, if_pos rfl]

/-- Settles O47: a read returns its register and clears what it clears; the window, the injection and a write act as the
lifecycle state lets them. -/
theorem registerAccessesAct : Obligations.RegisterAccessesAct := by
  unfold Obligations.RegisterAccessesAct
  refine ⟨?read, ?suppressed, fun s f off quiet => done_quiet quiet, fun _ _ _ _ => rfl, ?latched, ?hidden, ?denied, ?word, ?arms, ?shut,
    ?bar, ?span, ?size, ?enabled⟩
  case read =>
    intro s f off v answers shows_ plain free value quiet
    refine Runs.quiet (execRegisterReadClear_fresh answers shows_ plain free) (readFresh_quiet quiet) ⟨?_, ?drops, ?evict⟩
    · rw [← value, readDone_out]
      exact List.mem_append_right _ (List.mem_singleton.mpr rfl)
    case drops =>
      intro at_ sees
      rw [at_]
      exact readClear_drops ((seesGlobal_regKept ..).trans sees)
    case evict =>
      intro at_ sees
      rw [at_]
      exact readClear_evict ((seesGlobal_regKept ..).trans sees)
  case suppressed =>
    intro s f off p answers shows_ at_ free opens quiet
    refine Runs.quiet (execRegisterReadClear_fresh answers shows_ (by omega) free) (readFresh_quiet quiet) ?_
    rw [Only.part (readDone_only ..) rfl, at_]
    exact readClear_suppressed ((opensPart_regKept ..).trans opens)
  case latched =>
    intro s f off v answers shows_ plain held quiet
    exact (execLatchingRead_held answers shows_ plain held).trans (done_quiet quiet)
  case hidden =>
    intro s f off answers hidden quiet
    exact (execLatchingRead_hidden answers hidden).trans (done_quiet quiet)
  case denied =>
    intro s n answers shows_ shut quiet
    obtain ⟨t, ends, out, mem, host⟩ := execMemWindowRead_reads answers shows_ quiet (windowRead_denied shut n)
    exact ⟨t, ends, out, mem, (congrArg HostSt.memAddr host).trans rfl⟩
  case word =>
    intro s n answers shows_ open_ space inside known sound clean quiet
    obtain ⟨t, ends, out, mem, host⟩ :=
      execMemWindowRead_reads answers shows_ quiet (windowRead_word open_ space inside known sound clean)
    exact ⟨t, ends, out, (congrArg HostSt.memAddr host).trans rfl, mem⟩
  case arms =>
    intro s n value opened open_ on quiet
    have counted : Only [.err, .always] s (bumpAlways (44 + fnPort (64 + n.val)) 4 s) := (bumpAlways_only ..).within
    exact Runs.of_only quiet (execErrInject_arms opened open_ on) (upd_err counted rfl) ⟨rfl, rfl, rfl, upd_err counted rfl⟩
  case shut =>
    intro s n value shut quiet
    refine (execErrInject_shut shut).trans (done_quiet ?_)
    split
    · exact quiet
    · exact quiet
  case bar =>
    intro s f off value en opened
    exact congrArg done (hostPut_of_open opened)
  case span =>
    intro s f off value en more opened
    exact congrArg done (hostPut_of_open opened)
  case size =>
    intro s f value opened off quiet
    exact runs_hostPut_modFn (g := writeReg false f.val 0x410 value 0xF) rfl opened quiet
      fun u same => writeReg_ringSize (same ▸ off)
  case enabled =>
    intro s f value opened on quiet
    have kept : writeReg false f.val 0x410 value 0xF (bumpAlways (44 + fnPort f.val) 4 s) = bumpAlways (44 + fnPort f.val) 4 s :=
      writeReg_ringSize_enabled on
    exact (congrArg done ((hostPut_of_open opened).trans kept)).trans (done_quiet quiet)

end Sys2Proof.Laws

/-!
SUPPORT. What the hub has driven on its outputs stays driven: no operation of the state takes an entry back.
-/

namespace Sys2Proof.Laws
open Sys2Proof Sys2Proof.Machine
set_option Elab.async false -- a thread per proof would not fit beside the model in the check's memory

/-! ### The relation of one state to the next -/

/-- What has been driven before is the beginning of what has been driven after. -/
structure Drives (s t : State) : Prop where
  out : s.out <+: t.out

section
variable {s t u : State} {l : List Fld}

theorem Drives.refl (s : State) : Drives s s := ⟨List.prefix_rfl⟩

theorem Drives.trans (h : Drives s t) (k : Drives t u) : Drives s u := ⟨h.out.trans k.out⟩

theorem Drives.of_eq (e : t.out = s.out := by rfl) : Drives s t := ⟨e ▸ List.prefix_rfl⟩

theorem Drives.of_only (h : Only l s t) (e : (!l.contains .out) = true := by rfl) : Drives s t :=
  .of_eq (h.same .out (by simpa using e))

theorem Drives.of_links (h : KeepsLinks s t) : Drives s t := ⟨h.out⟩

theorem Drives.of_grows (h : Grows s t) : Drives s t := ⟨h.out⟩

/-- One more operation that drives nothing. -/
theorem Drives.step (h : Drives s t) (k : Only l t u) (e : (!l.contains .out) = true := by rfl) : Drives s u :=
  h.trans (.of_only k e)

theorem Drives.grows (h : Drives s t) (k : Grows t u) : Drives s u := h.trans (.of_grows k)

/-- A change beside the outputs. -/
theorem Drives.same (h : Drives s t) (e : u.out = t.out := by rfl) : Drives s u := h.trans (.of_eq e)

/-- More is driven, behind what has been. -/
theorem Drives.puts {new : List Out} (h : Drives s t) (e : u.out = t.out ++ new := by rfl) : Drives s u :=
  h.trans ⟨e ▸ List.prefix_append _ _⟩

theorem Drives.ite {c : Prop} {dec : Decidable c} (h : Drives s t) (k : Drives s u) : Drives s (if c then t else u) := by
  split
  · exact h
  · exact k

theorem Drives.each {α : Type} {xs : List α} {g : α → State → State} (h : Drives s t) (k : ∀ a v, Drives v (g a v)) :
    Drives s (Machine.each xs g t) := by
  refine h.trans ?_
  unfold Machine.each
  clear h
  induction xs generalizing t with
  | nil => exact .refl _
  | cons a xs ih => exact (k a t).trans ih

end

/-! ### What the meaning of a command is built from -/

theorem fail_drives (f : Nat) (tag : W32) (st : Byte) (s : State) : Drives s (fail f tag st s) := by
  unfold fail
  split
  · exact .refl _
  · exact .of_grows (complete_grows ..)

theorem startCmd_drives {op f : Nat} {tag : W32} {k : Cmd → State → State} {s : State} (h : ∀ c t, Drives t (k c t)) :
    Drives s (startCmd op f tag k s) := by
  unfold startCmd
  split
  · exact .refl _
  · exact .ite ((Drives.of_only (modCmd_only ..)).trans (h ..)) (.refl _)

theorem checked_drives {f : Nat} {tag : W32} {k : Cmd → State → State} {c : Cmd} {s : State} (h : ∀ t, Drives t (k c t)) :
    Drives s (checked f tag k c s) := by
  unfold checked
  split
  · exact fail_drives ..
  · exact h s

theorem hostPut_drives {f : Nat} {g : State → State} {s : State} (h : ∀ t, Drives t (g t)) : Drives s (hostPut f g s) :=
  .ite ((Drives.of_only (bumpAlways_only ..)).trans (h _)) (.refl _)

theorem tapOut_drives (o : Out) (s : State) : Drives s (tapOut o s) := (Drives.refl s).puts

theorem shiftBypass_drives (bits : List Bool) (s : State) : Drives s (shiftBypass bits s) :=
  (Drives.of_eq).trans (tapOut_drives ..)

theorem tapRun_drives {code : Nat} {g : State → State} {s : State} (h : ∀ t, Drives t (g t)) : Drives s (tapRun code g s) :=
  .ite (h s) ((Drives.of_only (selectIr_only ..)).trans (shiftBypass_drives ..))

section
variable {s u : State} {c : Prop} {dec : Decidable c}

theorem Settles.quiet : Settles (Drives s) (done s) := .of (.refl s)

/-- The shape of most events of the table: they act under a condition, and otherwise do nothing. -/
theorem Settles.guard (h : Drives s u) : Settles (Drives s) (if c then done u else done s) := .ite (.of h) .quiet

theorem Settles.unless (h : Drives s u) : Settles (Drives s) (if c then done s else done u) := .ite .quiet (.of h)

/-- A command of a ring, as its turn comes. -/
theorem Settles.command {op f : Nat} {tag : W32} {k : Cmd → State → State} (h : ∀ c t, Drives t (k c t)) :
    Settles (Drives s) (done (startCmd op f tag k s)) := .of (startCmd_drives h)

/-- A host's write to a register. -/
theorem Settles.host {f : Nat} {g : State → State} (h : ∀ t, Drives t (g t)) : Settles (Drives s) (done (hostPut f g s)) :=
  .of (hostPut_drives h)

/-- An instruction of the test access port. -/
theorem Settles.tap {code : Nat} {g : State → State} (h : ∀ t, Drives t (g t)) : Settles (Drives s) (done (tapRun code g s)) :=
  .of (tapRun_drives h)

end

end Sys2Proof.Laws

/-!
SUPPORT. The outputs through every operation of the state: a lemma for each, along the branches of its definition.
-/

namespace Sys2Proof.Laws
open Sys2Proof Sys2Proof.Machine
set_option Elab.async false -- a thread per proof would not fit beside the model in the check's memory

/-! ### Resets and the runs that they end -/

theorem portDown_drives (n cause : Nat) (count : Bool) (s : State) : Drives s (portDown n cause count s) := by
  have lost : Drives s (portLost n cause (count && (s.port n).lk.link.trains) s) := .of_only (modPort_only ..)
  exact lost.trans (.of_links (portDown_keepsLinks ..))

theorem releaseOutputs_drives (s : State) : Drives s (releaseOutputs s) := by
  unfold releaseOutputs
  extract_lets hoops xtrigs hb
  exact .ite ((((Drives.refl _).each fun _ _ => .of_grows (emit_grows ..)).each fun _ _ => .of_grows
    (driveXtrig_grows ..)).grows (emit_grows ..)) (((Drives.refl _).each fun _ _ => .of_grows (emit_grows ..)).each fun _ _ =>
    .of_grows (driveXtrig_grows ..))

/-- Nothing that is driven is taken back by a reset. -/
theorem powerReset_drives (cause : BitVec 6) (s : State) : Drives s (powerReset cause s) :=
  Drives.same (.ite (releaseOutputs_drives s) ((releaseOutputs_drives s).grows (emit_grows ..))) rfl

theorem abortAll_drives (s : State) : Drives s (abortAll s) :=
  (Drives.refl _).each fun ⟨_, _⟩ _ => .of_grows (completeOne_grows ..)

theorem warmed_drives (cause : BitVec 6) (s : State) : Drives s (s.warmed cause) := .of_eq

theorem warmNow_drives (cause : BitVec 6) (s : State) : Drives s (warmNow cause s) :=
  (((abortAll_drives s).trans (releaseOutputs_drives _)).trans (warmed_drives ..)).step (noteOpenLab_only _)

theorem warmReset_drives (cause : BitVec 6) (s : State) : Drives s (warmReset cause s) :=
  .ite .of_eq (warmNow_drives ..)

theorem programRec_drives (q : Run) (event : Nat) (data : List Byte) (s : State) : Drives s (programRec q event data s) :=
  .of_grows (writeRec_grows ..)

theorem completeWaits_drives (x : EndedRun) (s : State) : Drives s (completeWaits x s) :=
  (Drives.refl _).each fun ⟨_, _⟩ _ => .of_grows (complete_grows ..)

theorem takeRun_drives (q : Run) (status cause : Nat) (s : State) : Drives s (takeRun q status cause s) := by
  unfold takeRun
  extract_lets x o holders s1 s2 s2' s3 s4
  have recorded : Drives s s2 := (Drives.of_eq : Drives s s1).trans (programRec_drives ..)
  have handed : Drives s s2' := .ite (recorded.step (handOver_only ..)) recorded
  have freed : Drives s s3 := .ite (handed.step (modPart_only ..)) handed
  have marked : Drives s s4 := .ite freed (freed.step (markBinding_only ..))
  exact marked.trans (completeWaits_drives ..)

theorem startRun_drives {a : RunReq} {s t : State} {q : Run} (h : startRun a s = some (q, t)) : Drives s t := by
  unfold startRun at h
  split at h
  · cases h
  · split at h
    · cases h
    · split at h
      · cases h
      · obtain ⟨rfl, rfl⟩ := Prod.mk.inj (Option.some.inj h)
        exact (Drives.of_eq).trans (programRec_drives ..)

theorem startBound_drives (p role index : Nat) (s : State) : Drives s (startBound p role index s) := by
  unfold startBound
  split
  next h =>
    have marked := (startRun_drives h).step (markBinding_only p role false false _)
    exact .ite (marked.step (modPart_only ..)) marked
  next => exact .of_only (markBinding_only ..)

theorem putSwitch_drives (p : Nat) (payload : List Byte) (ofSwitch : Option Bool) (s : State) :
    Drives s (putSwitch p payload ofSwitch s) := by
  unfold putSwitch
  extract_lets r dram waits kept f s1 s2
  have to_s1 : Drives s s1 := .of_grows (deliverInput_grows ..)
  have to_s2 : Drives s s2 := .ite (to_s1.step (modPart_only ..)) to_s1
  exact .ite (to_s2.step (holdDram_only ..)) (.ite ((Drives.ite
    ((Drives.ite (to_s2.grows (dramArrive_grows ..)) to_s2).step (modMeters_only ..))
    (.ite (to_s2.grows (dramArrive_grows ..)) to_s2)).step (hubEvent_only ..))
    (.ite ((Drives.ite (to_s2.grows (dramArrive_grows ..)) to_s2).step (modMeters_only ..))
    (.ite (to_s2.grows (dramArrive_grows ..)) to_s2)))

theorem resetCoder_drives (p reason : Nat) (newEnc : Bool) (newIndex : Nat) (ofSwitch : Option Bool) (s : State) :
    Drives s (resetCoder p reason newEnc newIndex ofSwitch s) := by
  unfold resetCoder
  extract_lets s1 c next s2 s3
  have to_s1 : Drives s s1 := (Drives.of_only (endSpan_only ..)).step (closeCoded_only ..)
  have to_s2 : Drives s s2 := to_s1.trans (putSwitch_drives ..)
  have to_s3 : Drives s s3 := to_s2.step (modPart_only ..)
  split
  · exact to_s3.step (restartRun_only ..)
  · exact to_s3

theorem resetPoint_drives (p reason : Nat) (newEnc : Bool) (newIndex : Nat) (s : State) :
    Drives s (resetPoint p reason newEnc newIndex s) :=
  (resetCoder_drives ..).grows (pumpPort_grows ..)

theorem syncCoder_drives (p reason : Nat) (s : State) : Drives s (syncCoder p reason s) :=
  .ite (.refl _) (resetPoint_drives ..)

theorem retryBound_drives (p role : Nat) (s : State) : Drives s (retryBound p role s) := by
  unfold retryBound
  split
  · exact .ite (.ite ((startBound_drives ..).trans (syncCoder_drives ..)) (startBound_drives ..)) (.refl _)
  · exact .refl _

theorem retryAll_drives (s : State) : Drives s (retryAll s) :=
  (Drives.refl _).each fun _ _ => (retryBound_drives ..).trans (retryBound_drives ..)

theorem endRun_drives (q : Run) (status cause : Nat) (s : State) : Drives s (endRun q status cause s) := by
  unfold endRun
  extract_lets s1
  have to_s1 : Drives s s1 := takeRun_drives ..
  exact (Drives.ite (to_s1.trans (syncCoder_drives ..)) to_s1).trans (retryAll_drives ..)

theorem endRuns_drives (sel : Run → Bool) (status cause : Nat) (s : State) : Drives s (endRuns sel status cause s) := by
  refine Drives.each (.refl _) fun a v => ?_
  split
  · exact endRun_drives ..
  · exact .refl _

theorem slath_drives (p : Nat) (s : State) : Drives s (slath p s) :=
  .of_links (slathRun_keepsLinks ..)

theorem releaseCut_drives (p : Nat) (by_ : Option (Nat × W32)) (id : W32) (s : State) : Drives s (releaseCut p by_ id s) :=
  (Drives.of_only (modCut_only ..)).trans (slath_drives ..)

theorem releaseOwned_drives (n : Nat) (owned : List Nat) (s : State) : Drives s (releaseOwned n owned s) :=
  (Drives.refl _).each fun _ _ => (Drives.refl _).each fun _ _ => releaseCut_drives ..

theorem dropReweave_drives (p : Nat) (st : Byte) (s : State) : Drives s (dropReweave p st s) :=
  ((Drives.of_only (modPart_only ..)).grows (failCommit_grows ..)).each fun ⟨_, _⟩ _ => .of_grows (complete_grows ..)

theorem ownerChanged_drives (p : Nat) (s : State) : Drives s (ownerChanged p s) :=
  dropReweave_drives ..

theorem endRoles_drives (n : Nat) (s : State) : Drives s (endRoles n s) :=
  ((((Drives.refl _).each fun _ _ => (Drives.of_only (modPart_only ..)).trans (ownerChanged_drives ..)).each fun _ _ => .of_only
    (modPart_only ..)).step (modSess_only ..)).step (mlog_only ..)

/-! ### Sessions, the loading of an image and the pairing -/

theorem resetSession_drives (n cause : Nat) (s : State) : Drives s (resetSession n cause s) := by
  have unexported : ∀ t x, Drives t { t with slath := x } := fun _ _ => .of_eq
  have fenced : Drives s (endRoles n (fenceFn n s)) := (Drives.of_only (fenceFn_only ..)).trans (endRoles_drives ..)
  exact ((((fenced.trans (unexported ..)).step (clearDeficits_only _)).trans (releaseOwned_drives ..)).trans
    (endRuns_drives ..)).step (clearFn_only ..)

theorem resetPf_drives (port cause : Nat) (s : State) : Drives s (resetPf port cause s) :=
  (((((Drives.of_only (fenceFn_only ..)).each fun _ _ => resetSession_drives ..).step (resetLoad_only ..)).step
    (modHost_only ..)).step (clearFn_only ..)).step (noteOpenLab_only ..)

theorem resetPort_drives (port : Nat) (s : State) : Drives s (resetPort port s) :=
  ((resetPf_drives ..).same).grows (raiseErr_grows ..)

theorem rejectLoad_drives (n reason offset : Nat) (s : State) : Drives s (rejectLoad n reason offset s) :=
  (Drives.of_only (modWea_only ..)).grows (signal_grows ..)

theorem loadStart_drives (tap : Bool) (n : Nat) (s : State) : Drives s (loadStart tap n s) :=
  .ite (.refl _) (.ite (rejectLoad_drives ..) (.ite (rejectLoad_drives ..)
    (.ite (rejectLoad_drives ..) ((Drives.of_only (modWea_only ..)).grows (emit_grows ..)))))

theorem loadAbort_drives (n : Nat) (s : State) : Drives s (loadAbort n s) :=
  .ite ((Drives.of_only (stopLoad_only ..)).trans (rejectLoad_drives ..)) (.refl _)

theorem imageRejected_drives (by_ : Option Nat) (r : Reject) (s : State) : Drives s (imageRejected by_ r s) := by
  unfold imageRejected
  extract_lets _ s1
  have to_s1 : Drives s s1 := .of_eq
  split
  · exact to_s1.trans (rejectLoad_drives ..)
  · exact ((to_s1.same).each fun _ _ => .of_only (modWea_only ..)).grows (signalPfs_grows ..)

theorem putLib_drives (lib : List LibEntry) (s : State) : Drives s (putLib lib s) :=
  .ite .of_eq ((Drives.ite ((Drives.of_grows (spendCreel_grows ..)).step (nextFree_only ..))
    (.of_grows (spendCreel_grows ..))).same)

theorem acceptImage_drives (by_ : Option Nat) (c : Checked) (l : List Section_) (lib : List LibEntry) (img : List Byte)
    (s : State) :
    Drives s (acceptImage by_ c l lib img s) :=
  ((Drives.ite ((((((((putLib_drives ..).step (noteImage_only ..)).step (takeRole_only ..)).step (keepCopy_only ..)).each
    fun _ _ => .of_only (modPart_only ..)).each fun _ _ => .of_only (modPort_only ..)).each fun _ _ => .of_only
    (startLink_only ..)).step (enterDetect_only ..)) (((((((putLib_drives ..).step (noteImage_only ..)).step
    (takeRole_only ..)).step (keepCopy_only ..)).each fun _ _ => .of_only (modPart_only ..)).each fun _ _ => .of_only
    (modPort_only ..)).each fun _ _ => .of_only (startLink_only ..))).step (noteOpenLab_only ..)).trans
    (.of_links (bootAdvance_keepsLinks ..))

theorem releaseDdr_drives (s : State) : Drives s (releaseDdr s) :=
  .ite (.refl _) ((Drives.of_eq).grows (emit_grows ..))

theorem settlePairing_drives (s : State) : Drives s (settlePairing s) := by
  unfold settlePairing
  split
  · exact .refl _
  · exact .ite ((((Drives.of_eq).each fun ⟨_, _⟩ _ => .of_grows (askRenew_grows ..)).each fun ⟨_, _⟩ _ => .of_grows
      (claim_grows ..)).trans (.of_links (checkPairing_keepsLinks ..))) (.refl _)

theorem startPairing_drives (s : State) : Drives s (startPairing s) :=
  (((Drives.of_eq).grows (plaitSend_grows ..)).grows (plaitSend_grows ..)).trans (settlePairing_drives ..)

theorem sendWithheld_drives (s : State) : Drives s (sendWithheld s) :=
  (Drives.refl _).each fun ⟨_, _⟩ _ => .ite (.of_links (writeHoopCtrl_keepsLinks ..)) (.refl _)

theorem pairFails_drives (code : Nat) (s : State) : Drives s (pairFails code s) :=
  (((Drives.of_eq).trans (.of_links (plaitEvent_keepsLinks ..))).trans (sendWithheld_drives ..)).each fun ⟨_, _⟩ _ => .of_grows
    (complete_grows ..)

theorem tryPairing_drives (s : State) : Drives s (tryPairing s) := by
  unfold tryPairing
  split
  · exact .refl _
  · exact .ite (.ite (startPairing_drives ..) (pairFails_drives ..)) (.refl _)

theorem sendHello_drives (request : Bool) (s : State) : Drives s (sendHello request s) :=
  .of_grows (plaitSend_grows ..)

theorem readyHello_drives (s : State) : Drives s (readyHello s) :=
  .ite ((sendHello_drives ..).trans (tryPairing_drives ..)) (.refl _)

theorem forceReset_drives (p reason : Nat) (s : State) : Drives s (forceReset p reason s) :=
  resetPoint_drives ..

theorem bindAtReady_drives (p : Nat) (s : State) : Drives s (bindAtReady p s) := by
  unfold bindAtReady
  extract_lets one
  have bound : ∀ role t, Drives t (one role t) := by
    intro role t
    dsimp only [one]
    split
    · exact startBound_drives ..
    · exact .refl _
  exact ((Drives.of_only (modPart_only ..)).trans (bound ..)).trans (bound ..)

theorem partReady_drives (p : Nat) (s : State) : Drives s (partReady p s) :=
  .ite (((Drives.ite ((Drives.of_only (modPart_only ..)).step (startGraph_only ..)) (.of_only (modPart_only ..))).trans
    (bindAtReady_drives ..)).trans (forceReset_drives ..)) ((Drives.ite
    ((Drives.of_only (modPart_only ..)).step (startGraph_only ..)) (.of_only (modPart_only ..))).trans (bindAtReady_drives ..))

theorem waleDown_drives (s : State) : Drives s (waleDown s) :=
  .ite ((Drives.of_eq).grows (raiseErr_grows ..)) (.refl _)

theorem pairEnds_drives (st : Byte) (s : State) : Drives s (pairEnds st s) :=
  (Drives.refl _).each fun ⟨_, _⟩ _ => .of_grows (complete_grows ..)

theorem handoffLost_drives (s : State) : Drives s (handoffLost s) :=
  (Drives.of_eq).each fun _ _ => .of_grows (complete_grows ..)

theorem claimAll_drives (s : State) : Drives s (claimAll s) :=
  (Drives.refl _).each fun _ _ => .ite ((Drives.refl _).each fun _ _ => .of_grows (claim_grows ..)) (.refl _)

theorem enterTwinLost_drives (s : State) : Drives s (enterTwinLost s) :=
  ((Drives.of_eq).trans (.of_links (plaitEvent_keepsLinks ..))).trans (claimAll_drives ..)

theorem plaitDown_drives (cause : Nat) (count : Bool) (s : State) : Drives s (plaitDown cause count s) := by
  unfold plaitDown
  extract_lets x split pair y s1
  have to_s1 : Drives s s1 := (((Drives.of_eq).grows (raiseErr_grows ..)).trans (handoffLost_drives ..)).trans (pairEnds_drives ..)
  exact .ite (.ite (to_s1.trans (.of_links (plaitEvent_keepsLinks ..))) (to_s1.trans (enterTwinLost_drives ..)))
    (.ite (to_s1.trans (enterTwinLost_drives ..)) to_s1)

theorem restartLink_drives (l : Nat) (s : State) : Drives s (restartLink l s) :=
  .ite (.ite (.of_only (enterDetect_only ..)) ((Drives.of_only (startLink_only ..)).trans
    (.of_links (bootAdvance_keepsLinks ..)))) (.refl _)

/-! ### Rings and tenancy -/

theorem ringErr_drives (f code : Nat) (s : State) : Drives s (ringErr f code s) :=
  (Drives.of_only (modFn_only ..)).grows (setEvent_grows ..)

theorem doorbell_drives (f : Nat) (value : W32) (s : State) : Drives s (doorbell f value s) :=
  .ite (.refl _) (.ite (ringErr_drives ..) (.ite (ringErr_drives ..) (.of_only (modFn_only ..))))

theorem takeDescriptor_drives (f : Nat) (desc : BitVec 512) (s : State) : Drives s (takeDescriptor f desc s) := by
  unfold takeDescriptor
  extract_lets c add
  have added : ∀ x, Drives s (add x s) := fun _ => .of_only (modFn_only ..)
  split
  · exact .of_grows (deliverCpl_grows ..)
  · refine .ite (added _) ?_
    split
    · exact (added c).trans (fail_drives ..)
    · exact .ite ((added c).trans (fail_drives ..)) (added c)

theorem setOwner_drives (f p : Nat) (s : State) : Drives s (setOwner f p s) :=
  (Drives.of_only (modPart_only ..)).trans (ownerChanged_drives ..)

theorem endRoleRuns_drives (n p : Nat) (s : State) : Drives s (endRoleRuns n p s) :=
  .ite (.refl _) (endRuns_drives ..)

theorem dropObserver_drives (f p : Nat) (s : State) : Drives s (dropObserver f p s) :=
  ((Drives.of_only (modPart_only ..)).step (endExports_only ..)).trans (endRoleRuns_drives ..)

theorem dropOwner_drives (f p : Nat) (s : State) : Drives s (dropOwner f p s) :=
  (((Drives.of_only (modPart_only ..)).step (endExports_only ..)).trans (ownerChanged_drives ..)).trans (endRoleRuns_drives ..)

theorem endCommits_drives (f p : Nat) (s : State) : Drives s (endCommits f p s) :=
  (ownerChanged_drives ..).each fun _ _ => fail_drives ..

theorem revoked_drives (g : Nat) (c : Cmd) (s : State) : Drives s (revoked g c s) :=
  (Drives.ite ((Drives.ite ((Drives.ite (endCommits_drives ..) (.refl _)).grows (setEvent_grows ..))
    (.ite (endCommits_drives ..) (.refl _))).trans (setOwner_drives ..))
    (.ite ((Drives.ite (endCommits_drives ..) (.refl _)).grows (setEvent_grows ..))
    (.ite (endCommits_drives ..) (.refl _)))).grows (complete_grows ..)

theorem revokeNext_drives (g : Nat) (tag : W32) (s : State) : Drives s (revokeNext g tag s) := by
  unfold revokeNext
  split
  · exact .refl _
  · exact .ite (.refl _) (.ite (.ite ((Drives.of_only (endExports_only ..)).step (modWork_only ..)) (.refl _))
      (revoked_drives ..))

theorem revoke_drives (f p : Nat) (owner : Bool) (s : State) : Drives s (revoke f p owner s) :=
  ((Drives.of_only (modPart_only ..)).trans (endRoleRuns_drives ..)).each fun _ _ =>
    ((Drives.of_only (purgeCmd_only ..)).step (purgeHub_only ..)).trans (fail_drives ..)

theorem revoking_drives (g : Nat) (tag : W32) (f p : Nat) (owner : Bool) (prev : Nat) (s : State) :
    Drives s (revoking g tag f p owner prev s) :=
  ((revoke_drives ..).step (modWork_only ..)).trans (revokeNext_drives ..)

theorem grantEffect_drives (g : Nat) (c : Cmd) (prev : Nat) (s : State) : Drives s (grantEffect g c prev s) := by
  unfold grantEffect
  extract_lets a t p ok
  have answers : ∀ u, Drives u (ok u) := fun _ => .of_grows (complete_grows ..)
  refine .ite ?take (.ite ?free (.ite ?observe (.ite (revoking_drives ..) (.ite ?allow (.ite ?view (.ite ?noView ?consent))))))
  case take =>
    split
    · exact revoking_drives ..
    · exact (setOwner_drives ..).trans (answers _)
  case free =>
    split
    · exact revoking_drives ..
    · exact answers _
  case observe => exact (Drives.of_only (modPart_only ..)).trans (answers _)
  case allow => exact (Drives.of_only (modSess_only ..)).trans (answers _)
  case view => exact (Drives.of_only (modSess_only ..)).trans (answers _)
  case noView => exact (Drives.of_only (modSess_only ..)).trans (answers _)
  case consent => exact ((Drives.of_only (modHost_only ..)).step (noteOpenLab_only _)).trans (answers _)

/-! ### The commands of a partition -/

theorem haltHeld_drives (f : Nat) (c : Cmd) (s : State) : Drives s (haltHeld f c s) :=
  ((((Drives.of_grows (sendHalts_grows ..)).step (fallbackHalts_only ..)).each fun _ _ => .of_only (freshTimeout_only ..)).step
    (modPart_only ..)).grows (checkGather_grows ..)

theorem advanceCmd_drives (f : Nat) (tag : W32) (s : State) : Drives s (advanceCmd f tag s) :=
  .of_links (advanceLoop_keepsLinks ..)

theorem cutHeld_drives (f : Nat) (c : Cmd) (s : State) : Drives s (cutHeld f c s) := by
  unfold cutHeld
  extract_lets p abrupt ports s1
  have to_s1 : Drives s s1 := (Drives.of_grows (sendHalts_grows ..)).step (fallbackHalts_only ..)
  exact .ite (to_s1.step (modPart_only ..)) (((to_s1.each fun _ _ => .of_only (freshTimeout_only ..)).step
    (modPart_only ..)).grows (checkGather_grows ..))

theorem regionReads_drives (f : Nat) (c : Cmd) (r : CapRange) (s : State) : Drives s (regionReads f c r s) :=
  .ite (.of_grows (sendAll_grows ..)) (.of_only (modRegion_only ..))

theorem setEncoding_drives (p : Nat) (raw : Bool) (s : State) : Drives s (setEncoding p raw s) :=
  (Drives.of_only (modPart_only ..)).trans (syncCoder_drives ..)

theorem setEvt_drives (f : Nat) (c : Cmd) (s : State) : Drives s (setEvt f c s) :=
  ((Drives.of_only (modWork_only ..)).grows (sendAll_grows ..)).trans (advanceCmd_drives ..)

theorem bufWrite_drives (f : Nat) (tag : W32) (off : Nat) (data : List Byte) (s : State) :
    Drives s (bufWrite f tag off data s) := by
  unfold bufWrite
  split
  · exact .ite (.refl _) (.of_grows (hostWrite_grows ..))
  · exact .refl _

theorem flushRead_drives (f : Nat) (c : Cmd) (found : Ecc) (s : State) : Drives s (flushRead f c found s) := by
  unfold flushRead
  extract_lets p asked held out first next checked bads bad s1
  have to_s1 : Drives s s1 := (Drives.ite (.of_grows (correctedWord_grows ..)) (.refl _)).each fun _ _ => .of_grows
    (uncorrectableItem_grows ..)
  exact .ite (((to_s1.step (nextFree_only ..)).each fun ⟨_, _⟩ _ => bufWrite_drives ..).grows (complete_grows ..))
    ((to_s1.each fun ⟨_, _⟩ _ => bufWrite_drives ..).grows (complete_grows ..))

theorem dramLossToPort_drives (p count : Nat) (mk : Nat → State → TraceRec) (s : State) :
    Drives s (dramLossToPort p count mk s) := by
  unfold dramLossToPort
  extract_lets n
  split
  next stored =>
    exact (((Drives.of_grows (storePort_grows stored)).step (modPart_only ..)).grows (pumpPort_grows ..)).step (lossPlaced_only ..)
  next => exact .of_only (modPart_only ..)

theorem endDramGap_drives (p : Nat) (g : Gap) (s : State) : Drives s (endDramGap p g s) := by
  unfold endDramGap
  extract_lets mk s1
  have to_s1 : Drives s s1 := .of_only (modPart_only ..)
  exact .ite (to_s1.step (putDramLoss_only ..)) (.ite (to_s1.trans (dramLossToPort_drives ..)) (to_s1.step (modPart_only ..)))

theorem closeReserve_drives (p : Nat) (s : State) : Drives s (closeReserve p s) := by
  unfold closeReserve
  split
  · refine .ite (.refl _) ?_
    extract_lets s1
    have to_s1 : Drives s s1 := .of_only (putOpen_only ..)
    split
    · exact ((((to_s1.step (spendDram_only ..)).step (queueBlock_only ..)).step (modPart_only ..)).step (modMeters_only ..)).step
        (lossPlaced_only ..)
    · exact to_s1.trans (endDramGap_drives ..)
  · exact .refl _

theorem flushDiscard_drives (f : Nat) (c : Cmd) (s : State) : Drives s (flushDiscard f c s) := by
  unfold flushDiscard
  extract_lets p gone s1 s2
  have to_s1 : Drives s s1 := .of_only (modPart_only ..)
  have to_s2 : Drives s s2 := .ite to_s1 (to_s1.each fun _ _ => closeReserve_drives ..)
  exact to_s2.grows (complete_grows ..)

theorem hostLatch_drives (f : Nat) (tag : W32) (p mask : Nat) (record : Bool) (s : State) :
    Drives s (hostLatch f tag p mask record s) := by
  unfold hostLatch
  extract_lets n block s1
  have to_s1 : Drives s s1 := .of_links (takeLatch_keepsLinks ..)
  exact .ite (to_s1.grows (complete_grows ..)) ((to_s1.trans (bufWrite_drives ..)).grows (complete_grows ..))

theorem deferredTake_drives (p : Nat) (d : DeferredLatch) (s : State) : Drives s (deferredTake p d s) :=
  .ite (.ite (.of_links (takeLatch_keepsLinks ..)) (.refl _)) (hostLatch_drives ..)

theorem requestLatch_drives (p : Nat) (d : DeferredLatch) (s : State) : Drives s (requestLatch p d s) :=
  .ite (deferredTake_drives ..) (.of_only (modPart_only ..))

theorem loadModel_drives (f : Nat) (c : Cmd) (data : List Byte) (s : State) : Drives s (loadModel f c data s) := by
  unfold loadModel
  extract_lets img s1
  have to_s1 : Drives s s1 := (Drives.of_only (bumpAlways_only ..)).step (nextFree_only ..)
  split
  · exact to_s1.grows (complete_grows ..)
  · split
    · exact to_s1.grows (complete_grows ..)
    · extract_lets s2
      have to_s2 : Drives s s2 := to_s1.trans (putLib_drives ..)
      exact to_s2.grows (complete_grows ..)

theorem unloadModel_drives (f : Nat) (c : Cmd) (s : State) : Drives s (unloadModel f c s) := by
  unfold unloadModel
  extract_lets i own
  split
  · exact fail_drives ..
  · have removed : ∀ lib, Drives s { s with osier := { s.osier with lib := lib } } := fun _ => .of_eq
    exact (removed _).grows (complete_grows ..)

/-! ### The switch of a weave -/

theorem askRegWrite_drives (n target : Nat) (wide : Bool) (p : Nat) (tag : W32) (subseq : Nat) (who : ReqFor) (off : Nat)
    (words : List Byte) (s : State) :
    Drives s (askRegWrite n target wide p tag subseq who off words s) :=
  .of_grows (ask_grows ..)

theorem keepEvtEn_drives (n p : Nat) (s : State) : Drives s (keepEvtEn n p s) :=
  .ite ((Drives.refl _).each fun _ _ => askRegWrite_drives ..) (.refl _)

theorem switchGraph_drives (p : Nat) (on : Bool) (s : State) : Drives s (switchGraph p on s) :=
  .ite ((Drives.of_only (startGraph_only ..)).each fun _ _ => keepEvtEn_drives ..) (.ite (.of_only (stopGraph_only ..)) (.refl _))

theorem switchHoop_drives (p : Nat) (old new : Mem) (s : State) : Drives s (switchHoop p old new s) :=
  .ite (.refl _) ((Drives.refl _).each fun _ _ => .of_links (writeHoopCtrl_keepsLinks ..))

theorem rebindPred_drives (p : Nat) (old new : Mem) (s : State) : Drives s (rebindPred p old new s) := by
  refine .ite (.refl _) ?_
  extract_lets s1 s2
  have to_s1 : Drives s s1 := by
    dsimp only [s1]
    split
    · exact takeRun_drives ..
    · exact .refl _
  have to_s2 : Drives s s2 := to_s1.step (markBinding_only ..)
  refine Drives.trans ?_ (retryAll_drives ..)
  split
  · exact to_s2.trans (startBound_drives ..)
  · exact to_s2

theorem rebindCoding_drives (p : Nat) (want : Option Nat) (s : State) : Drives s (rebindCoding p want s) := by
  refine .ite (.refl _) ?_
  extract_lets s1 s2
  have to_s1 : Drives s s1 := by
    dsimp only [s1]
    split
    · exact takeRun_drives ..
    · exact .refl _
  have to_s2 : Drives s s2 := (to_s1.step (modPart_only ..)).step (markBinding_only ..)
  split
  · exact to_s2.trans (startBound_drives ..)
  · exact to_s2

theorem flushDram_drives (l : List (TraceRec × Bool)) (s : State) : Drives s (flushDram l s) :=
  (Drives.refl _).each fun ⟨_, _⟩ _ => .ite (.of_grows (dramOnly_grows ..))
    (.ite (.of_grows (dramArrive_grows ..)) ((Drives.of_grows (dramArrive_grows ..)).step (markLost_only ..)))

theorem switchPoint_drives (p : Nat) (s : State) : Drives s (switchPoint p s) := by
  unfold switchPoint
  extract_lets x
  split
  · exact .refl _
  · exact .ite ((((Drives.ite (((rebindCoding_drives ..).step (modPart_only ..)).trans (resetCoder_drives ..))
      ((rebindCoding_drives ..).step (modPart_only ..))).trans (flushDram_drives ..)).grows (pumpPort_grows ..)).trans
      (retryAll_drives ..)) (.refl _)

theorem checkSwitch_drives (p : Nat) (s : State) : Drives s (checkSwitch p s) :=
  (Drives.refl _).each fun _ _ => switchPoint_drives ..

theorem switchCoding_drives (p : Nat) (old new : Mem) (forced : Bool) (s : State) : Drives s (switchCoding p old new forced s) :=
  .ite (.refl _) ((Drives.of_only (modPart_only ..)).trans (checkSwitch_drives ..))

theorem weaveAtSwitch_drives (p : Nat) (payload : List Byte) (s : State) : Drives s (weaveAtSwitch p payload s) :=
  (Drives.of_grows (deliverInput_grows ..)).grows (placeRec_grows ..)

theorem dropConfig_drives (p : Nat) (st : Byte) (s : State) : Drives s (dropConfig p st s) := by
  unfold dropConfig
  split
  · exact (Drives.of_only (modPart_only ..)).trans (fail_drives ..)
  · exact .refl _

theorem finishCommit_drives (p : Nat) (c : Commit) (s : State) : Drives s (finishCommit p c s) :=
  (Drives.ite (.of_only (modPart_only ..)) ((Drives.of_only (modPart_only ..)).step (endWatchApply_only ..))).grows
    (complete_grows ..)

theorem writeDefaults_drives (u p : Nat) (who : Bool → ReqFor) (s : State) : Drives s (writeDefaults u p who s) :=
  (Drives.refl _).each fun ⟨_, _⟩ _ => .of_grows (ask_grows ..)

theorem switchWeft_drives (p : Nat) (c : Commit) (new : Plane) (s : State) : Drives s (switchWeft p c new s) := by
  unfold switchWeft
  extract_lets old sels s1 units skipped c1 s2
  have to_s1 : Drives s s1 := (((((((dropConfig_drives ..).step (swapPlanes_only ..)).trans
    (.of_links (takeLatch_keepsLinks ..))).trans (weaveAtSwitch_drives ..)).trans (switchCoding_drives ..)).trans
    (rebindPred_drives ..)).trans (switchHoop_drives ..)).trans (switchGraph_drives ..)
  have to_s2 : Drives s s2 := to_s1.step (modPart_only ..)
  exact .ite (to_s2.trans (finishCommit_drives ..)) (to_s2.each fun _ _ => writeDefaults_drives ..)

theorem failWarp_drives (status : Byte) (s : State) : Drives s (failWarp status s) := by
  unfold failWarp
  split
  · exact .refl _
  · exact .ite (.refl _) (((Drives.of_eq).grows (warpRecords_grows ..)).grows (complete_grows ..))

theorem installPort_drives (n : Nat) (w : WarpPort) (s : State) : Drives s (installPort n w s) := by
  unfold installPort
  extract_lets down moved s1
  have to_s1 : Drives s s1 := ((Drives.ite (.of_links (endsAtDown_keepsLinks ..)) (.refl _)).step (modPort_only ..)).each
    fun _ _ => .of_only (uncertain_only ..)
  exact .ite (.ite ((to_s1.step (nextFree_only ..)).trans (portDown_drives ..)) (.ite to_s1 (to_s1.step (startLink_only ..))))
    (.ite (to_s1.trans (.of_links (enumStart_keepsLinks ..))) to_s1)

/-! ### Reports, time and the commands of a pair -/

theorem addReport_drives (p : Nat) (q : ReportReq) (s : State) : Drives s (addReport p q s) := by
  unfold addReport
  extract_lets _ r s1 _ s2
  have to_s1 : Drives s s1 := .of_only (modPart_only ..)
  have to_s2 : Drives s s2 := ((to_s1.same).grows (spendCreel_grows ..)).step (hubEvent_only ..)
  exact .ite to_s2 (to_s2.grows (hangRec_grows ..))

theorem setTime_drives (port v : Nat) (newPeriod : Bool) (s : State) : Drives s (setTime port v newPeriod s) := by
  unfold setTime
  extract_lets before was _ s1 closes back body s2
  have to_s1 : Drives s s1 := .of_eq
  have to_s2 : Drives s s2 := (to_s1.step (mlog_only ..)).each fun _ _ => .of_grows (writeRec_grows ..)
  exact .ite (to_s2.step (setBoundary_only ..)) (.ite (to_s2.step (closeByClock_only ..)) to_s2)

theorem pairCmd_drives (f : Nat) (tag : W32) (s : State) : Drives s (pairCmd f tag s) :=
  .ite (.of_grows (complete_grows ..)) ((Drives.of_eq).trans (sendHello_drives ..))

theorem askRelease_drives (n p : Nat) (s : State) : Drives s (askRelease n p s) :=
  .of_grows (ask_grows ..)

theorem handoffCmd_drives (f : Nat) (tag : W32) (mask : Nat) (s : State) : Drives s (handoffCmd f tag mask s) :=
  ((Drives.of_eq).each fun _ _ => (Drives.refl _).each fun _ _ => askRelease_drives ..).trans
    (.of_links (checkHandoff_keepsLinks ..))

theorem takeoverCmd_drives (f : Nat) (tag : W32) (mask fetched : Nat) (s : State) : Drives s (takeoverCmd f tag mask fetched s) :=
  ((Drives.of_only (modWork_only ..)).each fun ⟨_, _⟩ _ => .of_grows (claim_grows ..)).trans
    (.of_links (checkTakeover_keepsLinks ..))

theorem unpair_drives (s : State) : Drives s (unpair s) :=
  (((Drives.of_eq).trans (.of_links (plaitEvent_keepsLinks ..))).trans (sendWithheld_drives ..)).trans (pairEnds_drives ..)

/-! ### The burning of fuses, a partition that is reset and a port that is forced down -/

theorem burnResult_drives (b : Burn) (s : State) : Drives s (burnResult b s) := by
  unfold burnResult
  extract_lets _ s1
  have to_s1 : Drives s s1 := .of_eq
  split
  · exact to_s1.grows (complete_grows ..)
  · exact to_s1.same
  · exact to_s1

theorem burnDone_drives (b : Burn) (s : State) : Drives s (burnDone b s) := by
  unfold burnDone
  extract_lets s1
  have to_s1 : Drives s s1 := burnResult_drives ..
  exact (to_s1.same).each fun _ _ => .of_only (askBurn_only ..)

theorem nextBit_drives (b : Burn) (left : Bool) (s : State) : Drives s (nextBit b left s) := by
  unfold nextBit
  split
  · exact .refl _
  · exact .ite (burnDone_drives ..) (.of_only (startBurn_only ..))

theorem burnAttempt_drives (b : Burn) (took : Bool) (s : State) : Drives s (burnAttempt b took s) := by
  unfold burnAttempt
  split
  · exact burnDone_drives ..
  · exact .ite ((Drives.of_eq).trans (nextBit_drives ..)) (.ite (.of_only (startBurn_only ..)) (nextBit_drives ..))

theorem resetRuns_drives (p : Nat) (s : State) : Drives s (resetRuns p s) := by
  unfold resetRuns
  extract_lets was mine s1 held s2
  have to_s1 : Drives s s1 := by
    refine Drives.each (.refl _) fun a v => ?_
    split
    · exact takeRun_drives ..
    · exact .refl _
  have to_s2 : Drives s s2 := ((((to_s1.step (modPart_only ..)).step (markBinding_only ..)).step (markBinding_only ..)).trans
    (bindAtReady_drives ..)).trans (retryAll_drives ..)
  exact (Drives.ite (to_s2.trans (forceReset_drives ..)) to_s2).trans (flushDram_drives ..)

theorem resetCounters_drives (p : Nat) (s : State) : Drives s (resetCounters p s) :=
  (dropConfig_drives ..).step (modPart_only ..)

theorem closeBinding_drives (p : Nat) (s : State) : Drives s (closeBinding p s) :=
  .of_grows (endBinding_grows ..)

theorem resetHang_drives (p : Nat) (s : State) : Drives s (resetHang p s) :=
  .ite ((((closeBinding_drives ..).step (modPart_only ..)).step (stopGraph_only ..)).step (startGraph_only ..))
    (((closeBinding_drives ..).step (modPart_only ..)).step (stopGraph_only ..))

theorem resetCuts_drives (p : Nat) (s : State) : Drives s (resetCuts p s) :=
  (Drives.of_only (modPart_only ..)).each fun _ _ => releaseCut_drives ..

theorem resetWeave_drives (p : Nat) (s : State) : Drives s (resetWeave p s) := by
  unfold resetWeave
  extract_lets s1 waiting
  have to_s1 : Drives s s1 := by
    dsimp only [s1]
    split
    · exact .ite (finishCommit_drives ..) (.refl _)
    · exact .refl _
  exact (to_s1.trans (dropReweave_drives ..)).each fun ⟨_, _⟩ _ => fail_drives ..

theorem forceDown_drives (n : Nat) (s : State) : Drives s (forceDown n s) :=
  .ite (portDown_drives ..) (.refl _)

theorem cmdLinkLost_drives (f : Nat) (tag : W32) (served : List Nat) (s : State) : Drives s (cmdLinkLost f tag served s) :=
  .of_links (requestFails_keepsLinks ..)

theorem callsDropped_drives (l : List AdaptorCall) (s : State) : Drives s (callsDropped l s) :=
  ((Drives.refl _).each fun _ _ => .of_links (declareUnit_keepsLinks ..)).each fun ⟨⟨_, _⟩, _⟩ _ => cmdLinkLost_drives ..

theorem scanWrite_drives (value : W32) (s : State) : Drives s (scanWrite value s) :=
  .ite .of_eq (.ite (((Drives.of_eq).trans (callsDropped_drives ..)).step (pushCall_only ..))
    ((Drives.of_eq).trans (callsDropped_drives ..)))

/-! ### Register accesses -/

theorem writeHub_drives (tap : Bool) (f off : Nat) (w : Wr) (s : State) : Drives s (writeHub tap f off w s) :=
  .ite (.ite (warmReset_drives ..) (.refl _)) (.ite .of_eq (.ite (.of_only (modHost_only ..))
    (.ite (.of_only (modHost_only ..)) (.ite (.of_only (modHost_only ..)) (.refl _)))))

theorem writeWea_drives (tap : Bool) (f off : Nat) (w : Wr) (s : State) : Drives s (writeWea tap f off w s) :=
  .ite (.of_only (modWea_only ..)) (.ite (.of_only (modWea_only ..))
    (.ite (.of_only (modWea_only ..)) (.ite (.ite ((Drives.ite (loadStart_drives ..) (.refl _)).trans (loadAbort_drives ..))
    (.ite (loadStart_drives ..) (.refl _))) (.refl _))))

theorem writeSes_drives (f off : Nat) (w : Wr) (s : State) : Drives s (writeSes f off w s) :=
  .ite (.ite (.refl _) (.of_only (modFn_only ..))) (.ite (.ite (.refl _) (.of_only (modFn_only ..)))
    (.ite (.ite (.refl _) (.of_only (modFn_only ..))) (.ite (.ite (.refl _) (.of_only (modFn_only ..)))
    (.ite (.ite (.refl _) (.of_only (modFn_only ..))) (.ite (.ite (.refl _)
    (.ite (.of_only (ringEnable_only ..)) (.of_only (ringDisable_only ..))))
    (.ite (.ite (doorbell_drives ..) (.refl _)) (.ite (.ite (.of_only (cplHeadWrite_only ..)) (.refl _))
    (.ite (.of_only (modFn_only ..)) (.ite (.of_only (modFn_only ..)) (.refl _))))))))))

theorem writeNsl_drives (tap : Bool) (f off : Nat) (w : Wr) (s : State) : Drives s (writeNsl tap f off w s) :=
  .ite (.ite (scanWrite_drives ..) (.refl _)) (.ite (.of_only (modPort_only ..))
    (.ite (.ite (.ite ((Drives.ite (.of_only (startRetrain_only ..)) (.refl _)).trans (forceDown_drives ..))
    (.ite (.of_only (startRetrain_only ..)) (.refl _))) (.refl _)) (.ite (.of_only (modLnk_only ..)) (.refl _))))

theorem sendPending_drives (f v : Nat) (s : State) : Drives s (sendPending f v s) := by
  unfold sendPending
  split
  · exact .ite ((Drives.of_only (modFn_only ..)).grows (signal_grows ..)) (.refl _)
  · exact .refl _

theorem writeMsix_drives (f off : Nat) (w : Wr) (s : State) : Drives s (writeMsix f off w s) := by
  unfold writeMsix
  extract_lets v k
  split
  · exact .refl _
  · exact .ite (.refl _) (.ite (.of_only (modFn_only ..)) (.ite (.of_only (modFn_only ..))
      (.ite (.of_only (modFn_only ..)) ((Drives.of_only (modFn_only ..)).trans (sendPending_drives ..)))))

theorem writeReg_drives (tap : Bool) (f off : Nat) (value : W32) (en : BitVec 4) (s : State) :
    Drives s (writeReg tap f off value en s) :=
  .ite (.refl _) (.ite (.ite (writeHub_drives ..) (.refl _)) (.ite (.ite (writeWea_drives ..) (.refl _))
    (.ite (writeSes_drives ..) (.ite (.refl _) (.ite (.ite (writeNsl_drives ..) (.refl _))
    (.ite (.of_only (writeSel_only ..)) (.ite (writeMsix_drives ..) (.ite (.of_only (writePart_only ..)) (.refl _)))))))))

theorem writeSpan_drives (f off : Nat) (more : List (W32 × BitVec 4)) (s : State) : Drives s (writeSpan f off more s) :=
  (Drives.refl _).each fun ⟨_, _⟩ _ => hostPut_drives fun _ => writeReg_drives ..

theorem writeMsixControl_drives (f : Nat) (w : Wr) (s : State) : Drives s (writeMsixControl f w s) :=
  (Drives.of_only (modFn_only ..)).each fun _ _ => sendPending_drives ..

theorem readDone_drives (f v : Nat) (s : State) : Drives s (readDone f v s) :=
  (Drives.of_grows (emit_grows ..)).step (bumpAlways_only ..)

theorem countBad_drives (space : Nat) (r : MemRead) (s : State) : Drives s (countBad space r s) :=
  .ite (.ite (.of_grows (correctedWord_grows ..)) (.ite ((Drives.of_only (bumpAlways_only ..)).grows (errBit_grows ..))
    (.refl _))) (.refl _)

theorem windowRead_drives (tap : Bool) (f : Nat) (s : State) : Drives s (windowRead tap f s).2 := by
  unfold windowRead
  extract_lets n h space
  split
  next r s1 found =>
    have read : Drives s s1 := by
      have same := congrArg Prod.snd found
      split at same
      · exact (show _ = s1 from same) ▸ .of_only (memWord_only ..)
      · exact (show s = s1 from same) ▸ .refl s
    extract_lets stop s2
    have counted : Drives s s2 := (read.trans (countBad_drives ..)).step (modHost_only ..)
    split
    · exact counted.step (setLatches_only ..)
    · split
      · exact counted
      · exact counted.step (setLatches_only ..)

theorem readReg_drives (tap : Bool) (f off : Nat) (s : State) : Drives s (readReg tap f off s).2 := by
  unfold readReg
  split
  · exact windowRead_drives ..
  · extract_lets l
    split
    · exact .refl _
    · exact Drives.step (.ite (.refl s) (.of_only (setLatches_only ..))) (readClear_only ..)

theorem barRead_drives (f off : Nat) (s : State) : Drives s (barRead f off s) := by
  have read := readReg_drives false f off s
  unfold barRead
  refine .ite (.refl _) (.ite (readDone_drives ..) ?_)
  split
  next h => rw [h] at read; exact read.trans (readDone_drives ..)
  next h => rw [h] at read; exact read.grows (emit_grows ..)

/-! ### The test access port -/

theorem shiftOut_drives (n v : Nat) (s : State) : Drives s (shiftOut n v s) :=
  tapOut_drives ..

theorem memAccess_drives (dr : Nat) (s : State) : Drives s (memAccess dr s) := by
  unfold memAccess
  extract_lets w space index write load
  have loaded : ∀ r t, Drives t (load r t) := fun _ _ => .of_eq
  refine .ite (loaded ..) (.ite (loaded ..) (.ite ((Drives.of_only (memPut_only ..)).trans (loaded ..)) ?_))
  split
  next r s1 found =>
    have same : (memWord space index w s).2 = s1 := congrArg Prod.snd found
    have read : Drives s s1 := same ▸ .of_only (memWord_only ..)
    exact (read.trans (countBad_drives ..)).trans (loaded ..)

theorem regAccess_drives (dr : Nat) (s : State) : Drives s (regAccess dr s) := by
  unfold regAccess
  extract_lets off port vf isVf f load t
  have loaded : ∀ d v u, Drives u (load d v u) := fun _ _ _ => .of_eq
  have written : Drives s t := writeReg_drives ..
  have read := readReg_drives true f off s
  refine .ite (loaded ..) (.ite (.ite written (written.trans (loaded ..))) ?_)
  split
  next h => rw [h] at read; exact read.trans (loaded ..)
  next h => rw [h] at read; exact (read.step (nextFree_only _)).trans (loaded ..)

/-! ### The links -/

theorem sendConfig_drives (l : Nat) (s : State) : Drives s (sendConfig l s) :=
  .of_grows (sendCtl_grows ..)

theorem enterConfig_drives (l : Nat) (s : State) : Drives s (enterConfig l s) :=
  (Drives.of_only (modLnk_only ..)).trans (sendConfig_drives ..)

theorem aligned_drives (l : Nat) (s : State) : Drives s (aligned l s) :=
  .ite ((Drives.of_only (modLnk_only ..)).grows (sendCtl_grows ..)) (enterConfig_drives ..)

theorem synced_drives (l : Nat) (s : State) : Drives s (synced l s) :=
  .ite (.ite (.refl _) (.of_only (modLnk_only ..))) (aligned_drives ..)

theorem takeTs_drives (l lane : Nat) (ts2 : Bool) (role laneNo mode version : Byte) (s : State) :
    Drives s (takeTs l lane ts2 role laneNo mode version s) :=
  .ite (.refl _) (.ite (.ite (.ite ((Drives.of_only (modLnk_only ..)).trans (synced_drives ..)) (.of_only (modLnk_only ..)))
    (.refl _)) (.of_only (modLnk_only ..)))

theorem linkDown_drives (l cause : Nat) (count : Bool) (s : State) : Drives s (linkDown l cause count s) :=
  .ite (plaitDown_drives ..) (portDown_drives ..)

theorem sendNak_drives (l : Nat) (s : State) : Drives s (sendNak l s) :=
  (Drives.of_only (modLnk_only ..)).grows (sendCtl_grows ..)

theorem badFlit_drives (l : Nat) (s : State) : Drives s (badFlit l s) := by
  unfold badFlit
  extract_lets s1
  have to_s1 : Drives s s1 := .ite ((Drives.of_only (setLinkErr_only ..)).step (bumpAlways_only ..))
    (.of_only (setLinkErr_only ..))
  exact .ite (to_s1.trans (sendNak_drives ..)) to_s1

theorem resend_drives (l : Nat) (first : BitVec 12) (s : State) : Drives s (resend l first s) :=
  .ite ((Drives.refl _).each fun _ _ => .of_links (sendAgain_keepsLinks ..))
    (((Drives.refl _).each fun _ _ => .of_links (sendAgain_keepsLinks ..)).step (setLinkErr_only ..))

theorem replay_drives (l : Nat) (first : BitVec 12) (s : State) : Drives s (replay l first s) :=
  .ite (.ite (((Drives.of_grows (sendCtl_grows ..)).grows (pump_grows ..)).trans (.of_links (noteRuns_keepsLinks ..)))
    (.refl _)) (.ite (((((Drives.ite ((Drives.of_only (modLnk_only ..)).step (bumpAlways_only ..))
    (.of_only (modLnk_only ..))).grows (sendCtl_grows ..)).trans (resend_drives ..)).step (modLnk_only ..)).step
    (startRetrain_only ..)) (((((Drives.ite ((Drives.of_only (modLnk_only ..)).step (bumpAlways_only ..))
    (.of_only (modLnk_only ..))).grows (sendCtl_grows ..)).trans (resend_drives ..)).grows (pump_grows ..)).trans
    (.of_links (noteRuns_keepsLinks ..))))

theorem takeNak_drives (l : Nat) (seq : BitVec 12) (s : State) : Drives s (takeNak l seq s) :=
  .ite ((Drives.of_only (modLnk_only ..)).trans (replay_drives ..)) (.refl _)

theorem startExchange_drives (l : Nat) (s : State) : Drives s (startExchange l s) :=
  (Drives.of_only (modLnk_only ..)).grows (sendCtl_grows ..)

theorem enterTimesync_drives (l : Nat) (body : ConfigBody) (s : State) : Drives s (enterTimesync l body s) :=
  (Drives.of_only (modLnk_only ..)).trans (startExchange_drives ..)

theorem takeConfig_drives (l : Nat) (peerSeen : Bool) (b : ConfigBody) (s : State) : Drives s (takeConfig l peerSeen b s) :=
  .ite (.refl _) (.ite ((Drives.of_only (noteUid_only ..)).trans (linkDown_drives ..))
    (.ite ((((Drives.ite ((Drives.of_only (noteUid_only ..)).step (notePeer_only ..)) (.refl _)).step (modLnk_only ..)).trans
    (sendConfig_drives ..)).trans (enterTimesync_drives ..)) (((Drives.ite
    ((Drives.of_only (noteUid_only ..)).step (notePeer_only ..)) (.refl _)).step (modLnk_only ..)).trans (sendConfig_drives ..))))

theorem answerTimesync_drives (exch : Byte) (t1 : Nat) (s : State) : Drives s (answerTimesync exch t1 s) :=
  .ite (.of_grows (sendCtl_grows ..)) (.refl _)

theorem lossToPort_drives (p count : Nat) (mk : Nat → State → TraceRec) (s : State) : Drives s (lossToPort p count mk s) := by
  unfold lossToPort
  extract_lets n
  split
  next stored =>
    exact (((Drives.of_grows (storePort_grows stored)).step (modPart_only ..)).grows (pumpPort_grows ..)).step (lossPlaced_only ..)
  next => exact .of_only (modPart_only ..)

theorem lossBoth_drives (p dest count cause port : Nat) (first last : W64) (unit : Nat) (s : State) :
    Drives s (lossBoth p dest count cause port first last unit s) := by
  unfold lossBoth
  extract_lets s1
  have to_s1 : Drives s s1 := .ite ((Drives.of_only (bumpAlways_only ..)).trans (lossToPort_drives ..)) (.refl _)
  exact .ite ((to_s1.step (bumpAlways_only ..)).step (lossToDram_only ..)) to_s1

theorem linkLoss_drives (n : Nat) (s : State) : Drives s (linkLoss n s) :=
  .ite (.refl _) ((Drives.refl _).each fun _ _ => lossBoth_drives ..)

theorem enterActive_drives (l : Nat) (s : State) : Drives s (enterActive l s) := by
  unfold enterActive
  extract_lets s1
  have to_s1 : Drives s s1 := .of_only (modLnk_only ..)
  exact .ite ((((to_s1.same).grows (pump_grows ..)).trans (sendHello_drives ..)).trans (tryPairing_drives ..))
    ((Drives.ite (((((to_s1.step (warpTrained_only ..)).trans (.of_links (linkRec_keepsLinks ..))).step (modPort_only ..)).trans
    (linkLoss_drives ..)).trans (.of_links (timesyncRec_keepsLinks ..)))
    ((((((to_s1.step (warpTrained_only ..)).trans (.of_links (linkRec_keepsLinks ..))).step (modPort_only ..)).trans
    (linkLoss_drives ..)).trans (.of_links (timesyncRec_keepsLinks ..))).trans (.of_links (enumStart_keepsLinks ..)))).trans
    (.of_links (bootAdvance_keepsLinks ..)))

theorem exchangeDone_drives (l : Nat) (e : Exchange) (s : State) : Drives s (exchangeDone l e s) := by
  unfold exchangeDone
  extract_lets x ex b n enters inForce s1
  have to_s1 : Drives s s1 := .ite ((Drives.of_only (modLnk_only ..)).step (modLnk_only ..)) (.of_only (modLnk_only ..))
  exact .ite (.ite (to_s1.trans (enterActive_drives ..)) (to_s1.trans (startExchange_drives ..)))
    (.ite ((to_s1.trans (.of_links (timesyncRec_keepsLinks ..))).step (modLnk_only ..)) to_s1)

theorem takeTimesyncRsp_drives (l : Nat) (exch : Byte) (t1 t2 t3 : W64) (s : State) :
    Drives s (takeTimesyncRsp l exch t1 t2 t3 s) := by
  unfold takeTimesyncRsp
  extract_lets x
  split
  · exact .ite (exchangeDone_drives ..) (.refl _)
  · exact .refl _

theorem takeResume_drives (l : Nat) (next : BitVec 12) (s : State) : Drives s (takeResume l next s) :=
  .ite ((((Drives.ite ((Drives.of_only (modLnk_only ..)).trans (.of_links (timesyncRec_keepsLinks ..)))
    (.of_only (modLnk_only ..))).trans (resend_drives ..)).grows (pump_grows ..)).trans (.of_links (noteRuns_keepsLinks ..)))
    (.refl _)

theorem ctlEffectOf_drives (l type : Nat) (sub : Byte) (b : List Byte) (s : State) : Drives s (ctlEffectOf l type sub b s) :=
  .ite (takeNak_drives ..) (.ite (.of_only (takeReplayStart_only ..))
    (.ite (takeConfig_drives ..) (.ite (answerTimesync_drives ..)
    (.ite (takeTimesyncRsp_drives ..) (.ite (takeResume_drives ..) (.ite (.of_only (takeDetach_only ..)) (.refl _)))))))

theorem takeCtl_drives (l : Nat) (b : List Byte) (s : State) : Drives s (takeCtl l b s) :=
  .ite (.of_only (protocolError_only ..)) ((((Drives.of_only (readHdr_only ..)).trans (ctlEffectOf_drives ..)).grows
    (pump_grows ..)).trans (.of_links (noteRuns_keepsLinks ..)))

/-! ### The twin's messages -/

theorem enterHalts_drives (l : List HaltReq) (s : State) : Drives s (enterHalts l s) :=
  (Drives.of_grows (latticeEdge_grows ..)).grows (settle_grows ..)

theorem takeHaltFwd_drives (p action : Nat) (abrupt : Bool) (s : State) : Drives s (takeHaltFwd p action abrupt s) :=
  .ite (.refl _) ((Drives.of_only (fireAll_only ..)).trans (enterHalts_drives ..))

theorem takeHoopEn_drives (p : Nat) (ports : Byte) (v : Bool) (s : State) : Drives s (takeHoopEn p ports v s) :=
  ((Drives.refl _).each fun _ _ => .of_only (modStake_only ..)).grows (plaitSend_grows ..)

theorem askHoopCtrl_drives (n p : Nat) (en abrupt : Bool) (s : State) : Drives s (askHoopCtrl n p en abrupt s) :=
  askRegWrite_drives ..

theorem takeHoopEnAck_drives (p : Nat) (ports : Byte) (v : Bool) (s : State) : Drives s (takeHoopEnAck p ports v s) :=
  .ite (.refl _) ((Drives.of_eq).each fun _ _ => .ite (askHoopCtrl_drives ..) (.refl _))

theorem stakeTaken_drives (p : Nat) (s : State) : Drives s (stakeTaken p s) :=
  .ite ((Drives.of_grows (failCommit_grows ..)).trans (failWarp_drives ..)) (.of_grows (failCommit_grows ..))

theorem takeStakeNote_drives (p : Nat) (ports event : Byte) (s : State) : Drives s (takeStakeNote p ports event s) :=
  .ite (((Drives.refl _).each fun _ _ => .of_only (modStake_only ..)).trans (stakeTaken_drives ..))
    ((Drives.refl _).each fun _ _ => .of_only (modStake_only ..))

theorem takeHello_drives (h : Hello) (s : State) : Drives s (takeHello h s) :=
  (Drives.ite ((Drives.of_eq).trans (sendHello_drives ..)) .of_eq).trans (tryPairing_drives ..)

theorem takeStakeView_drives (view : List Byte) (s : State) : Drives s (takeStakeView view s) :=
  (Drives.ite ((((Drives.refl _).each fun _ _ => (Drives.refl _).each fun _ _ => .of_only (modStake_only ..)).each fun _ _ =>
    stakeTaken_drives ..).same) (((Drives.refl _).each fun _ _ => (Drives.refl _).each fun _ _ => .of_only
    (modStake_only ..)).each fun _ _ => stakeTaken_drives ..)).trans (settlePairing_drives ..)

theorem takeFastView_drives (view : List Byte) (s : State) : Drives s (takeFastView view s) := by
  have seen : ∀ p n v t, Drives t (modStake n p (fun x => if !x.held && (v || x.twin) then { x with hoopEn := some v } else x) t) :=
    fun _ _ _ _ => .of_only (modStake_only ..)
  have got : ∀ t, Drives t (if t.plait.pair == .pairing then { t with plait := { t.plait with gotFast := true } } else t) :=
    fun t => .ite .of_eq (.refl t)
  exact (((Drives.refl s).each fun _ u => (Drives.refl u).each fun _ _ => seen ..).trans (got _)).trans (settlePairing_drives _)

theorem takeHandoff_drives (mask : W64) (s : State) : Drives s (takeHandoff mask s) :=
  (((Drives.of_eq).each fun _ _ => (Drives.refl _).each fun _ _ => .of_only (modStake_only ..)).each fun ⟨_, _⟩ _ => .of_grows
    (claim_grows ..)).grows (checkHandoffIn_grows ..)

theorem takeHandoffDone_drives (claimed refused : W64) (s : State) : Drives s (takeHandoffDone claimed refused s) := by
  unfold takeHandoffDone
  split
  · exact .refl _
  · exact (Drives.of_eq).grows (complete_grows ..)

theorem takeUnpair_drives (s : State) : Drives s (takeUnpair s) :=
  .ite (unpair_drives ..) (.refl _)

theorem takeImageReq_drives (found : Ecc) (s : State) : Drives s (takeImageReq found s) := by
  unfold takeImageReq
  split
  · exact (Drives.ite (.refl _) (.ite (.of_grows (uncorrectableItem_grows ..))
      (.ite (.of_grows (correctedWord_grows ..)) (.refl _)))).each fun ⟨_, _⟩ _ => .of_grows (plaitSend_grows ..)
  · exact .of_grows (plaitSend_grows ..)

theorem takePlait_drives (m : Msg) (s : State) : Drives s (takePlait m s) := by
  unfold takePlait
  extract_lets d p b w
  split
  · exact .ite (takeHaltFwd_drives ..) (.refl _)
  · exact .ite (takeHoopEn_drives ..) (.refl _)
  · exact .ite (takeHoopEnAck_drives ..) (.refl _)
  · exact .ite (takeStakeNote_drives ..) (.refl _)
  · exact takeHello_drives ..
  · exact takeStakeView_drives ..
  · exact takeFastView_drives ..
  · exact takeHandoff_drives ..
  · exact takeHandoffDone_drives ..
  · exact takeUnpair_drives ..
  · exact .ite (takeImageReq_drives ..) (.refl _)
  · exact .of_only (takeImageData_only ..)
  · exact .refl _

/-! ### What dies send and answer -/

theorem holdRecord_drives (u : Nat) (r : HaltRec) (s : State) : Drives s (holdRecord u r s) := by
  unfold holdRecord
  extract_lets r1
  exact (Drives.of_grows (spendCreel_grows s)).step (modUnit_only ..)

theorem takeHaltRecord_drives (n : Nat) (m : Msg) (s : State) : Drives s (takeHaltRecord n m s) :=
  .ite (.refl _) ((((Drives.ite (((Drives.of_only (heard_only ..)).trans (holdRecord_drives ..)).trans
    (.of_links (stepEnds_keepsLinks ..))) ((Drives.of_only (heard_only ..)).trans (holdRecord_drives ..))).step
    (hubEvent_only ..)).grows (traceWrite_grows ..)).grows (checkGather_grows ..))

theorem endLatch_drives (p u : Nat) (e : AwaitEnd) (noDelta : Bool) (s : State) : Drives s (endLatch p u e noDelta s) :=
  .of_links (markerLatch_keepsLinks ..)

theorem endsWithoutDelta_drives (p u : Nat) (sel : AwaitEnd → Bool) (s : State) : Drives s (endsWithoutDelta p u sel s) :=
  (Drives.of_only (modUnit_only ..)).each fun _ _ => endLatch_drives ..

theorem eventEffect_drives (e : Event) (ts : W64) (s : State) : Drives s (eventEffect e ts s) :=
  .ite ((Drives.of_only (hubEvent_only ..)).step (ingest_only ..))
    (.ite ((endsWithoutDelta_drives ..).trans (.of_links (markerLatch_keepsLinks ..)))
    (.ite (.ite (.of_only (modUnit_only ..)) (endLatch_drives ..)) (.of_only (fire_only ..))))

theorem takeEvent_drives (n : Nat) (e0 : Event) (s : State) : Drives s (takeEvent n e0 s) :=
  .ite (.refl _) (.ite (((Drives.of_only (heard_only ..)).trans (eventEffect_drives ..)).grows (traceWrite_grows ..))
    (((Drives.of_only (heard_only ..)).grows (traceWrite_grows ..)).trans (eventEffect_drives ..)))

theorem takeEventBatch_drives (n : Nat) (m : Msg) (s : State) : Drives s (takeEventBatch n m s) :=
  .ite ((Drives.refl _).each fun _ _ => (takeEvent_drives ..).grows (settle_grows ..)) (.refl _)

theorem takeDelta_drives (n : Nat) (m : Msg) (s : State) : Drives s (takeDelta n m s) :=
  .ite (.refl _) ((((((Drives.of_only (heard_only ..)).each fun ⟨_, _, _⟩ _ => .of_only (deltaEvent_only ..)).each fun _ _ =>
    .of_only (fire_only ..)).grows (traceWrite_grows ..)).step (modUnit_only ..)).each fun _ _ => endLatch_drives ..)

theorem takeDieLoss_drives (n : Nat) (m : Msg) (s : State) : Drives s (takeDieLoss n m s) :=
  .ite (.refl _) ((((Drives.of_only (heard_only ..)).step (uncertain_only ..)).trans (lossBoth_drives ..)).trans
    (endsWithoutDelta_drives ..))

theorem takeVc3_drives (n : Nat) (m : Msg) (s : State) : Drives s (takeVc3 n m s) :=
  .ite (takeHaltRecord_drives ..) (.ite (takeEventBatch_drives ..)
    (.ite (takeDelta_drives ..) (.ite (takeDieLoss_drives ..) (.refl _))))

theorem sawWords_drives (n p unit off : Nat) (words : List Byte) (read : Bool) (s : State) :
    Drives s (sawWords n p unit off words read s) := by
  unfold sawWords
  extract_lets at_ s1 s2
  have to_s1 : Drives s s1 := by
    dsimp only [s1]
    split
    · exact .ite ((Drives.of_only (modUnit_only ..)).grows (checkGathering_grows ..)) (.refl _)
    · exact .refl _
  have to_s2 : Drives s s2 := by
    dsimp only [s2]
    split
    · exact to_s1.step (modUnit_only ..)
    · exact to_s1
  split
  · exact to_s2.step (modStake_only ..)
  · exact to_s2

theorem answerEffect_drives (n : Nat) (m : Msg) (replayed : Bool) (d : List Byte) (s : State) :
    Drives s (answerEffect n m replayed d s) :=
  .ite ((Drives.refl _).each fun _ _ => .of_only (modUnit_only ..))
    (.ite ((Drives.refl _).each fun _ _ => sawWords_drives ..)
    (.ite ((Drives.refl _).each fun _ _ => sawWords_drives ..) (.refl _)))

theorem refusalEffect_drives (n : Nat) (m : Msg) (s : State) : Drives s (refusalEffect n m s) :=
  .ite (((Drives.refl _).each fun _ _ => .of_only (modUnit_only ..)).grows (checkGathering_grows ..)) (.refl _)

theorem okResult_drives (f : Nat) (tag : W32) (c : Cmd) (k units : Nat) (served : List Nat) (d : List Byte) (s : State) :
    Drives s (okResult f tag c k units served d s) :=
  .ite (.of_only (modWork_only ..)) (.ite (.ite (.of_only (modWork_only ..)) (.refl _))
    (.ite (.ite ((bufWrite_drives ..).step (modWork_only ..)) (.of_only (modWork_only ..)))
    (.ite (.of_only (modWork_only ..)) (.ite ((bufWrite_drives ..).step (modWork_only ..))
    (.ite (.of_only (modWork_only ..)) (.ite (.of_only (modWork_only ..)) (.refl _)))))))

theorem cmdAnswer_drives (f : Nat) (tag : W32) (r : OutReq) (n unit k code : Nat) (replayed : Bool) (d : List Byte) (s : State) :
    Drives s (cmdAnswer f tag r n unit k code replayed d s) := by
  unfold cmdAnswer
  split
  · exact .refl _
  · exact .ite ((((Drives.of_only (modWork_only ..)).each fun _ _ => .of_only (modUnit_only ..)).trans
      (okResult_drives ..)).trans (advanceCmd_drives ..)) (.ite
      (((Drives.of_only (modWork_only ..)).step (modPort_only ..)).grows (claim_grows ..))
      ((Drives.of_only (modWork_only ..)).trans (.of_links (requestFails_keepsLinks ..))))

theorem flushResends_drives (n p : Nat) (s : State) : Drives s (flushResends n p s) :=
  (Drives.of_only (clearResends_only ..)).each fun _ _ => .of_grows (sendReq_grows ..)

theorem stakeNote_drives (n p event : Nat) (s : State) : Drives s (stakeNote n p event s) :=
  .ite (.of_grows (plaitSend_grows ..)) (.refl _)

theorem stakeGained_drives (n p gen : Nat) (s : State) : Drives s (stakeGained n p gen s) :=
  ((((Drives.ite (((Drives.ite (.of_links (plaitEvent_keepsLinks ..)) (.refl _)).step (modStake_only ..)).each fun ⟨_, _⟩ _ =>
    .of_only (modWork_only ..)) ((Drives.ite (.of_links (plaitEvent_keepsLinks ..)) (.refl _)).step (modStake_only ..))).trans
    (stakeNote_drives ..)).trans (.of_links (writeHoopCtrl_keepsLinks ..))).trans (keepEvtEn_drives ..)).trans
    (flushResends_drives ..)

theorem endResend_drives (f : Nat) (tag : W32) (unit : Nat) (r : OutReq) (st : Byte) (s : State) :
    Drives s (endResend f tag unit r st s) :=
  .of_links (requestFails_keepsLinks ..)

theorem stakeLost_drives (n p : Nat) (s : State) : Drives s (stakeLost n p s) :=
  ((Drives.of_only (modStake_only ..)).trans (stakeNote_drives ..)).trans (.of_links (plaitEvent_keepsLinks ..))

theorem stakeRefused_drives (n p remain : Nat) (claimed : Bool) (s : State) : Drives s (stakeRefused n p remain claimed s) := by
  unfold stakeRefused
  extract_lets waiting at_
  have ended : ∀ (r : OutReq) t, Drives t (match r.who with
      | .cmd f tag u _ => endResend f tag u r (t.refusedAgain f tag) t
      | _ => t) := by
    intro r t
    split
    · exact endResend_drives ..
    · exact .refl _
  have again : ∀ t, Drives t (if claimed && t.retries p then modStake n p (fun x => { x with retryAt := some at_ }) t
      else if t.plait.pair == .twinLost then claim n p t else t) := fun t =>
    .ite (.of_only (modStake_only ..)) (.ite (.of_grows (claim_grows ..)) (.refl t))
  exact ((((stakeLost_drives ..).step (clearResends_only ..)).each ended).trans (again _)).trans (stakeTaken_drives ..)

theorem claimAnswer_drives (n p code : Nat) (d : List Byte) (s : State) : Drives s (claimAnswer n p code d s) :=
  (Drives.ite (stakeGained_drives ..) (.ite (stakeRefused_drives ..) (.of_only (clearResends_only ..)))).trans
    (.of_links (twinChecks_keepsLinks ..))

theorem sawHolder_drives (n p : Nat) (d : List Byte) (s : State) : Drives s (sawHolder n p d s) :=
  .ite ((Drives.of_only (modStake_only ..)).trans (stakeTaken_drives ..)) (.refl _)

theorem enumClaimed_drives (n p : Nat) (s : State) : Drives s (enumClaimed n p s) :=
  .ite ((Drives.refl _).each fun _ _ => writeDefaults_drives ..) (.refl _)

theorem renewAnswer_drives (n p code : Nat) (d : List Byte) (s : State) : Drives s (renewAnswer n p code d s) :=
  (Drives.ite (.of_only (modStake_only ..)) (.ite ((Drives.of_only (modStake_only ..)).grows (claim_grows ..))
    (.ite (stakeRefused_drives ..) (.refl _)))).trans (.of_links (twinChecks_keepsLinks ..))

theorem releaseAnswer_drives (n p code : Nat) (s : State) : Drives s (releaseAnswer n p code s) :=
  (Drives.ite ((Drives.of_only (modStake_only ..)).trans (stakeNote_drives ..)) (.refl _)).trans
    (.of_links (twinChecks_keepsLinks ..))

theorem enumReadAnswer_drives (n first code : Nat) (d : List Byte) (s : State) : Drives s (enumReadAnswer n first code d s) :=
  ((Drives.refl _).each fun _ _ => .of_only (modUnit_only ..)).trans (.of_links (enumAnswered_keepsLinks ..))

theorem classReadAnswer_drives (n cls code : Nat) (d : List Byte) (s : State) : Drives s (classReadAnswer n cls code d s) :=
  (Drives.ite (.of_only (modPort_only ..)) (.refl _)).trans (.of_links (enumAnswered_keepsLinks ..))

theorem runStateAnswer_drives (n u code : Nat) (d : List Byte) (s : State) : Drives s (runStateAnswer n u code d s) := by
  unfold runStateAnswer
  extract_lets v
  refine Drives.trans (.ite ?_ (.refl s)) (.of_links (enumAnswered_keepsLinks ..))
  dsimp only
  split
  · exact (Drives.of_only (modUnit_only ..)).grows (checkGathering_grows ..)
  · exact .of_only (modUnit_only ..)

/-! ### Cuts and their answers -/

theorem takeInFlight_drives (p i total : Nat) (d : List Byte) (s : State) : Drives s (takeInFlight p i total d s) := by
  unfold takeInFlight
  split
  · exact .refl _
  · extract_lets room put c1
    split
    · exact .ite (.of_only (modBuild_only ..)) (.ite ((Drives.ite ((Drives.of_only (modBuild_only ..)).step (spendDram_only ..))
        ((Drives.of_only (modBuild_only ..)).grows (spendCreel_grows ..))).step (modBuild_only ..))
        (.ite ((Drives.of_only (modBuild_only ..)).step (spendDram_only ..))
        ((Drives.of_only (modBuild_only ..)).grows (spendCreel_grows ..))))
    · exact .of_only (modBuild_only ..)

theorem inflightAnswer_drives (p i code : Nat) (d : List Byte) (s : State) : Drives s (inflightAnswer p i code d s) :=
  (Drives.ite (takeInFlight_drives ..) (.of_only (modBuild_only ..))).trans (slath_drives ..)

theorem captureAnswer_drives (p id i code : Nat) (d : List Byte) (s : State) : Drives s (captureAnswer p id i code d s) := by
  unfold captureAnswer
  extract_lets put writes next
  split
  · exact (Drives.ite (.ite ((Drives.ite ((Drives.of_only (modCut_only ..)).step (spendDram_only ..))
      ((Drives.of_only (modCut_only ..)).grows (spendCreel_grows ..))).step (modCut_only ..))
      (.ite ((Drives.of_only (modCut_only ..)).step (spendDram_only ..))
      ((Drives.of_only (modCut_only ..)).grows (spendCreel_grows ..)))) (.of_only (modCut_only ..))).trans (slath_drives ..)
  · exact slath_drives ..

theorem answered_drives (n : Nat) (r : OutReq) (code : Nat) (replayed : Bool) (d : List Byte) (s : State) :
    Drives s (answered n r code replayed d s) := by
  unfold answered
  split
  · split
    · exact .ite (.of_only (regionAnswer_only ..)) (cmdAnswer_drives ..)
    · exact .refl _
  · extract_lets s1
    have to_s1 : Drives s s1 := (sawHolder_drives ..).trans (claimAnswer_drives ..)
    exact .ite (to_s1.trans (enumClaimed_drives ..)) to_s1
  · exact (sawHolder_drives ..).trans (renewAnswer_drives ..)
  · exact (sawHolder_drives ..).trans (releaseAnswer_drives ..)
  · exact enumReadAnswer_drives ..
  · exact classReadAnswer_drives ..
  · exact .of_links (enumAnswered_keepsLinks ..)
  · exact runStateAnswer_drives ..
  · exact .of_only (watchApplyAnswer_only ..)
  · exact .of_only (synthAnswer_only ..)
  · exact inflightAnswer_drives ..
  · exact captureAnswer_drives ..
  · exact .refl _
  · exact .refl _
  · exact .refl _
  · exact .refl _
  · exact .refl _
  · exact .refl _

theorem takeResponse_drives (n : Nat) (m : Msg) (s : State) : Drives s (takeResponse n m s) := by
  refine .ite (.refl _) ?_
  extract_lets c
  split
  · exact .of_only (protocolError_only ..)
  · exact .ite (.of_only (protocolError_only ..)) ((Drives.ite
      ((Drives.of_only (modLnk_only ..)).trans (answerEffect_drives ..))
      ((Drives.of_only (modLnk_only ..)).trans (refusalEffect_drives ..))).trans (answered_drives ..))

theorem takeMsg_drives (l : Nat) (m : Msg) (s : State) : Drives s (takeMsg l m s) :=
  .ite (.ite (.of_only (protocolError_only ..)) (takePlait_drives ..)) (.ite (takeVc3_drives ..) (takeResponse_drives ..))

theorem assemble_drives (l ch : Nat) (som eom : Bool) (payload : List Byte) (s : State) :
    Drives s (assemble l ch som eom payload s) := by
  unfold assemble
  extract_lets c put s1 whole
  have put_ : ∀ a t, Drives t (put a t) := fun _ _ => .of_only (modLnk_only ..)
  have h1 : Drives s s1 := .ite (.refl _) (.of_only (protocolError_only ..))
  clear_value whole
  cases whole with
  | none => exact h1
  | some all =>
    have h2 : Drives s (put none s1) := h1.trans (put_ ..)
    refine .ite ?_ (h1.trans (put_ ..))
    split
    · exact h2.trans (takeMsg_drives ..)
    · exact h2.step (protocolError_only ..)

theorem deliverFlit_drives (l : Nat) (b : List Byte) (s : State) : Drives s (deliverFlit l b s) := by
  unfold deliverFlit
  extract_lets h ch s1 s2 s3
  have to_s1 : Drives s s1 := .ite (.of_only (bumpAlways_only ..)) (.refl _)
  have to_s2 : Drives s s2 := .ite (to_s1.step (returnCredit_only ..)) to_s1
  have to_s3 : Drives s s3 := .ite (to_s2.step (protocolError_only ..)) (to_s2.trans (assemble_drives ..))
  exact .ite (to_s3.grows (sendCtl_grows ..)) to_s3

theorem takeSeq_drives (l : Nat) (b : List Byte) (s : State) : Drives s (takeSeq l b s) :=
  .ite (.refl _) (.ite (((Drives.of_only (modLnk_only ..)).step (modLnk_only ..)).trans (deliverFlit_drives ..))
    (.ite (.of_only (modLnk_only ..)) (sendNak_drives ..)))

theorem cmdNoAnswer_drives (f : Nat) (tag : W32) (r : OutReq) (unit : Nat) (s : State) : Drives s (cmdNoAnswer f tag r unit s) :=
  .of_links (requestFails_keepsLinks ..)

/-! ### Exports and hangs -/

theorem firedReport_drives (p kind model score : Nat) (s : State) : Drives s (firedReport p kind model score s) :=
  .ite (addReport_drives ..) (.refl _)

theorem writeSplint_drives (e : Export) (bytes : List Byte) (s : State) : Drives s (writeSplint e bytes s) := by
  unfold writeSplint
  extract_lets k _ s1
  have put : Drives s s1 := .ite (.of_grows (hostWrite_grows ..)) (.ite .of_eq (.of_only (storeDump_only ..)))
  exact ((put.step (bumpAlways_only ..)).step (hubEvent_only ..)).step (modMeters_only ..)

theorem sendManifest_drives (e : Export) (s : State) : Drives s (sendManifest e s) := by
  unfold sendManifest
  extract_lets l k n b e1 s1
  have to_s1 : Drives s s1 := writeSplint_drives ..
  exact .ite (((to_s1.step (storePart_only ..)).step (dropExport_only ..)).grows (complete_grows ..))
    (to_s1.step (putExport_only ..))

theorem sendData_drives (e : Export) (ecc : SplintEcc) (s : State) : Drives s (sendData e ecc s) := by
  unfold sendData
  extract_lets i
  split
  · exact .refl _
  · exact ((((Drives.refl _).each fun _ _ => .of_grows (correctedWord_grows ..)).each fun _ _ =>
      (Drives.of_grows (uncorrectableItem_grows ..)).step (modCut_only ..)).trans (writeSplint_drives ..)).step
      (putExport_only ..)

theorem declareHang_drives (p kind action minAge : Nat) (comps : List Comp) (s : State) :
    Drives s (declareHang p kind action minAge comps s) := by
  unfold declareHang
  extract_lets joins acts s1 id r mine
  have to_s1 : Drives s s1 := addReport_drives ..
  refine .ite to_s1 ?_
  split
  · exact .ite (((to_s1.grows (raiseAction_grows ..)).step (modPart_only ..)).grows (checkGather_grows ..)) to_s1
  · exact (to_s1.trans (enterHalts_drives ..)).step (modPart_only ..)

/-! ### The trace port -/

theorem periodicReset_drives (p : Nat) (s : State) : Drives s (periodicReset p s) :=
  .ite (forceReset_drives ..) (.refl _)

theorem sendEther_drives (kind part : Nat) (spilled : Bool) (partSeq recs first : Nat) (body : List Byte) (s : State) :
    Drives s (sendEther kind part spilled partSeq recs first body s) :=
  ((Drives.of_eq).grows (emit_grows ..)).step (bumpAlways_only ..)

theorem sendDump_drives (s : State) : Drives s (sendDump s) := by
  unfold sendDump
  split
  · exact (Drives.of_eq).trans (sendEther_drives ..)
  · exact .refl _

theorem sendTrace_drives (p : Nat) (s : State) : Drives s (sendTrace p s) := by
  unfold sendTrace
  split
  · exact .refl _
  · exact ((sendEther_drives ..).step (modPart_only ..)).grows (pumpPort_grows ..)

theorem sendTurn_drives (s : State) : Drives s (sendTurn s) := by
  unfold sendTurn
  split
  · exact .refl _
  · exact (((Drives.of_eq).trans (sendTrace_drives ..)).step (modPart_only ..)).trans (checkSwitch_drives ..)

theorem sendUntil_drives (p : Nat) (last : W32) (n : Nat) (s : State) : Drives s (sendUntil p last n s) := by
  induction n generalizing s with
  | zero => exact .refl _
  | succ n ih => exact .ite (.refl _) ((Drives.ite (sendDump_drives _) (sendTurn_drives s)).trans (ih _))

theorem sendWaiting_drives (p : Nat) (s : State) : Drives s (sendWaiting p s) :=
  sendUntil_drives ..

theorem readTier_drives (found : Ecc) (s : State) : Drives s (readTier found s) := by
  unfold readTier
  split
  · exact .refl _
  · extract_lets x
    split
    · exact .of_grows (correctedWord_grows ..)
    · exact (Drives.of_only (modPart_only ..)).grows (shedTier_grows ..)
    · exact .refl _

theorem endPortGap_drives (p : Nat) (g : Gap) (s : State) : Drives s (endPortGap p g s) :=
  (Drives.of_only (modPart_only ..)).trans (lossToPort_drives ..)

/-! ### Words of a program -/

theorem checkStall_drives (p : Nat) (s : State) : Drives s (checkStall p s) := by
  unfold checkStall
  extract_lets c
  split
  · exact .ite ((Drives.of_only (modPart_only ..)).trans (syncCoder_drives ..)) (.refl _)
  · exact .refl _

theorem checkLimit_drives (id : W32) (s : State) : Drives s (checkLimit id s) := by
  unfold checkLimit
  split
  · exact .ite (endRun_drives ..) (.refl _)
  · exact .refl _

theorem ctlEffect_drives (q : Run) (e : LibEntry) (act : CtlAct) (s : State) : Drives s (ctlEffect q e act s) := by
  unfold ctlEffect
  split
  · exact .of_only (yieldRun_only ..)
  · exact .of_only (yieldRun_only ..)
  · exact .of_only (yieldRun_only ..)
  · exact endRun_drives ..
  · exact programRec_drives ..
  · exact .ite ((firedReport_drives ..).step (fire_only ..)) (.refl _)
  · exact .refl _

theorem hostStores_drives (q : Run) (l : List (Nat × List Byte)) (s : State) : Drives s (hostStores q l s) :=
  (Drives.refl _).each fun _ _ => .of_grows (hostWrite_grows ..)

theorem coreRan_drives (core cycles : Nat) (q : Run) (e : LibEntry) (hit : Bool) (o : WordEff) (s : State) :
    Drives s (coreRan core cycles q e hit o s) := by
  unfold coreRan
  extract_lets count s2
  have to_s2 : Drives s s2 := .of_only (countCycles_only ..)
  split
  · exact (Drives.ite to_s2 (.ite (to_s2.grows (raiseErr_grows ..)) (to_s2.grows (uncorrectableItem_grows ..)))).trans
      (endRun_drives ..)
  · exact ((((to_s2.step (putRun_only ..)).trans (hostStores_drives ..)).trans (ctlEffect_drives ..)).trans
      (checkLimit_drives ..)).trans (checkStall_drives ..)

theorem creelWritten_drives (o : WordEff) (q : Run) (e : LibEntry) (s : State) : Drives s (creelWritten o q e s) := by
  unfold creelWritten
  split
  · exact .ite (.refl _) (.of_grows (spendCreel_grows ..))
  · exact .refl _

theorem runStep_drives (core cycles poison : Nat) (q : Run) (e : LibEntry) (s : State) :
    Drives s (runStep core cycles poison q e s) :=
  (Drives.ite ((creelWritten_drives ..).grows (correctedWord_grows ..)) (creelWritten_drives ..)).trans (coreRan_drives ..)

theorem coreWord_drives (core cycles poison : Nat) (s : State) : Drives s (coreWord core cycles poison s) := by
  unfold coreWord
  split
  · exact .refl _
  · extract_lets s1
    have to_s1 : Drives s s1 := .of_only (takeCore_only ..)
    split
    · exact to_s1.trans (runStep_drives ..)
    · exact to_s1

/-! ### The images that are accepted, and the adaptor -/

theorem stopFirmware_drives (s : State) : Drives s (stopFirmware s) :=
  (Drives.of_eq).grows (raiseErr_grows ..)

theorem acceptWeft_drives (p : Nat) (l : List Section_) (lib : List LibEntry) (id : W64) (s : State) :
    Drives s (acceptWeft p l lib id s) := by
  unfold acceptWeft
  extract_lets gen plane
  exact (putLib_drives ..).step (modPart_only ..)

theorem takeAlign_drives (l lane : Nat) (s : State) : Drives s (takeAlign l lane s) :=
  .ite (.ite ((Drives.of_only (modLnk_only ..)).trans (aligned_drives ..)) (.of_only (modLnk_only ..))) (.refl _)

theorem callAdvance_drives (c : AdaptorCall) (s : State) : Drives s (callAdvance c s) := by
  unfold callAdvance
  split
  · exact advanceCmd_drives ..
  · exact .refl _

theorem unitGathering_drives (u : Nat) (s : State) : Drives s (unitGathering u s) := by
  unfold unitGathering
  split
  · exact .of_grows (checkGather_grows ..)
  · exact .refl _

theorem callEffect_drives (c : AdaptorCall) (s : State) : Drives s (callEffect c s) :=
  .ite ((Drives.of_only (modUnit_only ..)).trans (unitGathering_drives ..))
    (.ite (.of_only (modUnit_only ..)) (.ite (((Drives.of_links (stepEnds_keepsLinks ..)).step (modUnit_only ..)).trans
    (unitGathering_drives ..)) (.refl _)))

theorem callOk_drives (c : AdaptorCall) (last : Bool) (data : List Byte) (s : State) : Drives s (callOk c last data s) := by
  unfold callOk
  split
  · exact .refl _
  · exact (Drives.ite (bufWrite_drives ..) (.refl _)).step (modWork_only ..)

theorem callFailed_drives (c : AdaptorCall) (result : Option Nat) (s : State) : Drives s (callFailed c result s) := by
  unfold callFailed
  extract_lets st
  split
  · exact .refl _
  · exact .ite (.refl _) ((((Drives.of_eq).step (modWork_only ..)).step (failCmd_only ..)).trans (advanceCmd_drives ..))

theorem callEnds_drives (result : Option Nat) (s : State) : Drives s (callEnds result s) := by
  unfold callEnds
  split
  · exact .refl _
  · extract_lets data _ s1 _ _ _ s2
    have to_s1 : Drives s s1 := .of_eq
    have to_s2 : Drives s s2 := .ite (to_s1.same) (.ite (((to_s1.trans (callOk_drives ..)).trans (callEffect_drives ..)).trans
      (callAdvance_drives ..)) (to_s1.trans (callFailed_drives ..)))
    exact (to_s2.step (pumpAdaptor_only ..)).trans (.of_links (noteRuns_keepsLinks ..))

theorem scanOut_drives (op : Nat) (bits : List Bool) (s : State) : Drives s (scanOut op bits s) :=
  .ite (.of_grows (emit_grows ..)) (.refl _)

theorem scanAct_drives (q : Run) (e : LibEntry) (act : CtlAct) (s : State) : Drives s (scanAct q e act s) := by
  unfold scanAct
  extract_lets idle
  have idled : Drives s (idle s) := .of_eq
  split
  · exact (Drives.of_eq).trans (scanOut_drives ..)
  · exact idled.trans (scanOut_drives ..)
  · exact idled.trans (scanOut_drives ..)
  · exact .refl _

theorem adaptorRan_drives (cycles : Nat) (q : Run) (e : LibEntry) (hit : Bool) (o : WordEff) (s : State) :
    Drives s (adaptorRan stopFirmware cycles q e hit o s) := by
  refine .ite ((stopFirmware_drives _).trans (callEnds_drives ..)) ?_
  split
  · exact (Drives.ite (.of_grows (uncorrectableItem_grows ..)) (.refl s)).trans (callEnds_drives ..)
  · extract_lets r1 _ s1
    have acted : Drives s s1 := (Drives.of_eq).trans (scanAct_drives ..)
    split
    · exact acted.trans (callEnds_drives ..)
    · exact acted

theorem adaptorWord_drives (cycles poison : Nat) (tdo : List Bool) (s : State) :
    Drives s (adaptorWord stopFirmware cycles poison tdo s) := by
  unfold adaptorWord
  split
  · exact (Drives.ite (.of_grows (correctedWord_grows ..)) (.refl s)).trans (adaptorRan_drives ..)
  · exact .refl _

end Sys2Proof.Laws

/-!
SUPPORT. The outputs through every command.
-/

namespace Sys2Proof.Laws
open Sys2Proof Sys2Proof.Machine
set_option Elab.async false -- a thread per proof would not fit beside the model in the check's memory

theorem execPowerOnReset_drives (lowNs : Nat) (s : State) : Settles (Drives s) (execPowerOnReset lowNs s) :=
  .ite (.of ((powerReset_drives causePowerOn s).same.step (nextFree_only _))) (.of (.of_only (nextFree_only ..)))

theorem execSupplyDrop_drives (dip : SupplyDip) (s : State) : Settles (Drives s) (execSupplyDrop dip s) :=
  .ite (.of ((powerReset_drives causeSupply s).same.step (nextFree_only _))) (.of (.of_only (nextFree_only ..)))

theorem execClockFault_drives (fault : ClockLoss) (s : State) : Settles (Drives s) (execClockFault fault s) := by
  unfold execClockFault
  extract_lets t
  have to_t : Drives s t := powerReset_drives ..
  exact .guard (to_t.same)

theorem execHostPortReset_drives (port : HostPort) (cause : PortResetCause) (s : State) :
    Settles (Drives s) (execHostPortReset port cause s) := by
  unfold execHostPortReset
  extract_lets n _ s1
  have to_s1 : Drives s s1 := .ite .of_eq (.refl _)
  exact .ite (.of (to_s1.trans (resetPort_drives ..))) (.ite (.of (to_s1.trans (resetPort_drives ..))) (.of to_s1))

theorem execImageCheckDone_drives (s : State) : Settles (Drives s) (execImageCheckDone s) := by
  unfold execImageCheckDone
  split
  · exact .quiet
  · extract_lets c s1
    have to_s1 : Drives s s1 := (Drives.of_only (nextFree_only ..)).step (applyPatch_only ..)
    split
    · exact .of (to_s1.trans (imageRejected_drives ..))
    · extract_lets s2
      have to_s2 : Drives s s2 := to_s1.trans (acceptImage_drives ..)
      split
      · exact .of ((to_s2.step (modWea_only ..)).grows (signal_grows ..))
      · exact .of ((to_s2.each fun _ _ => .of_only (modWea_only ..)).grows (signalPfs_grows ..))

theorem execDramTrainingDone_drives (ok : Bool) (s : State) : Settles (Drives s) (execDramTrainingDone ok s) := by
  refine .guard (Drives.trans ?_ (.of_links (bootAdvance_keepsLinks _)))
  split
  · exact (Drives.of_eq).trans (releaseDdr_drives ..)
  · exact (Drives.of_eq).grows (raiseErr_grows ..)

theorem execReadyEntry_drives (s : State) : Settles (Drives s) (execReadyEntry s) :=
  .guard ((Drives.ite ((((((Drives.of_eq).step (enterPhase_only ..)).each fun _ _ => .of_only (modFn_only ..)).each fun _ _ =>
    partReady_drives ..).grows (signalPfs_grows ..)).each fun _ _ => .of_grows (setEvent_grows ..))
    (((((Drives.of_eq).step (enterPhase_only ..)).each fun _ _ => .of_only (modFn_only ..)).each fun _ _ =>
    partReady_drives ..).grows (signalPfs_grows ..))).trans (readyHello_drives ..))

theorem execSerdesPllLoss_drives (pll : Pll) (s : State) : Settles (Drives s) (execSerdesPllLoss pll s) := by
  refine .of ?_
  split
  · extract_lets _ s1
    have to_s1 : Drives s s1 := (Drives.of_eq).grows (raiseErr_grows ..)
    exact .ite (to_s1.trans (resetPort_drives ..)) to_s1
  · extract_lets _ s1
    have to_s1 : Drives s s1 := (Drives.of_eq).grows (raiseErr_grows ..)
    exact .ite (to_s1.trans (portDown_drives ..)) to_s1
  · exact ((Drives.of_eq).grows (raiseErr_grows ..)).trans (waleDown_drives ..)
  · extract_lets _ s1
    have to_s1 : Drives s s1 := (Drives.of_eq).grows (raiseErr_grows ..)
    exact .ite (to_s1.trans (plaitDown_drives ..)) to_s1

theorem execSerdesPllRelock_drives (pll : Pll) (s : State) : Settles (Drives s) (execSerdesPllRelock pll s) := by
  refine .ite .quiet ?_
  refine .of ?_
  split
  · exact .of_eq
  · exact (Drives.of_eq).trans (restartLink_drives ..)
  · exact .of_eq
  · exact (Drives.of_eq).trans (restartLink_drives ..)

theorem execCoalesceTimeout_drives (fn : Fn) (s : State) : Settles (Drives s) (execCoalesceTimeout fn s) := by
  unfold execCoalesceTimeout
  extract_lets x us
  split
  · exact .guard ((Drives.of_only (modFn_only ..)).grows (signal_grows ..))
  · exact .quiet

theorem execHostDmaError_drives (fn : Fn) (tag : W32) (s : State) : Settles (Drives s) (execHostDmaError fn tag s) := by
  unfold execHostDmaError
  extract_lets f
  split
  · exact .quiet
  · exact .ite .quiet (.ite (.of (.of_only (modWork_only ..)))
      (.ite (.of ((Drives.of_only (nextFree_only ..)).grows (complete_grows ..)))
      (.of (((Drives.of_only (purgeCmd_only ..)).step (purgeHub_only ..)).grows (complete_grows ..)))))

theorem execClaim_drives (fn : Fn) (tag : W32) (s : State) : Settles (Drives s) (execClaim fn tag s) := by
  unfold execClaim
  extract_lets f
  refine .ite .quiet ?_
  refine .command fun c t => ?_
  extract_lets p cuts
  split
  · exact fail_drives ..
  · exact .ite (.of_grows (complete_grows ..)) (.ite (fail_drives ..) ((setOwner_drives ..).grows (complete_grows ..)))

theorem execReleaseTakesEffect_drives (fn : Fn) (tag : W32) (s : State) :
    Settles (Drives s) (execReleaseTakesEffect fn tag s) := by
  unfold execReleaseTakesEffect
  extract_lets f
  split
  · exact .quiet
  · exact .ite .quiet (.ite (.of ((dropOwner_drives ..).grows (complete_grows ..))) (.of (fail_drives ..)))

theorem execObserve_drives (fn : Fn) (tag : W32) (s : State) : Settles (Drives s) (execObserve fn tag s) := by
  unfold execObserve
  extract_lets f
  refine .command fun c t => ?_
  extract_lets p
  split
  · exact fail_drives ..
  · exact .ite (.of_grows (complete_grows ..)) (.ite (fail_drives ..)
      ((Drives.of_only (modPart_only ..)).grows (complete_grows ..)))

theorem execGrant_drives (fn : Fn) (tag : W32) (s0 : State) : Settles (Drives s0) (execGrant fn tag s0) := by
  unfold execGrant
  extract_lets g s
  have revoked : Drives s0 s := .ite (revokeNext_drives ..) (.refl _)
  refine .ite (.of (revoked.trans (revokeNext_drives ..))) (.ite (.of revoked) (.of (revoked.trans (startCmd_drives fun c t => ?_))))
  extract_lets owner prev
  split
  · exact fail_drives ..
  · exact .ite (.of_grows (complete_grows ..)) (grantEffect_drives ..)

theorem execHalt_drives (fn : Fn) (tag : W32) (s : State) : Settles (Drives s) (execHalt fn tag s) := by
  refine .command fun c t => ?_
  refine checked_drives fun t => ?_
  refine .ite (enterHalts_drives ..) ?_
  split
  · exact .ite (haltHeld_drives ..) ((Drives.of_grows (raiseAction_grows ..)).grows (checkGather_grows ..))
  · exact haltHeld_drives ..

theorem execCut_drives (fn : Fn) (tag : W32) (s : State) : Settles (Drives s) (execCut fn tag s) := by
  refine .command fun c t => ?_
  refine .ite (fail_drives ..) ?_
  refine .ite (enterHalts_drives ..) ?_
  split
  · exact .ite (cutHeld_drives ..) ((Drives.of_grows (raiseAction_grows ..)).grows (checkGather_grows ..))
  · exact cutHeld_drives ..

theorem execDumpCut_drives (fn : Fn) (tag : W32) (s : State) : Settles (Drives s) (execDumpCut fn tag s) := by
  refine .command fun c t => ?_
  extract_lets p part dest cut total count m fit
  split
  · exact fail_drives ..
  · exact (Drives.ite .of_eq (.refl _)).step (putExport_only ..)

theorem execDumpRegion_drives (fn : Fn) (tag : W32) (s : State) : Settles (Drives s) (execDumpRegion fn tag s) := by
  refine .command fun c t => ?_
  extract_lets len total
  split
  · exact fail_drives ..
  · exact (Drives.of_only (putExport_only ..)).trans (regionReads_drives ..)

theorem execReleaseCut_drives (fn : Fn) (tag : W32) (s : State) : Settles (Drives s) (execReleaseCut fn tag s) := by
  refine .command fun c t => ?_
  extract_lets p id named fresh
  split
  · exact fail_drives ..
  · exact .ite (((Drives.refl _).each fun _ _ => .of_only (modCut_only ..)).grows (complete_grows ..))
      ((Drives.of_only (modWork_only ..)).each fun _ _ => (Drives.of_only (modCut_only ..)).trans (releaseCut_drives ..))

theorem execCutFreed_drives (part : Part) (cut : W32) (s : State) : Settles (Drives s) (execCutFreed part cut s) := by
  unfold execCutFreed
  extract_lets p exporting
  split
  · exact .quiet
  · extract_lets s1
    have freed : Drives s s1 := ((Drives.of_only (freeDump_only ..)).step (modPart_only ..)).grows (cutRec_grows ..)
    refine .ite .quiet ?_
    split
    · exact .of freed
    · extract_lets s2
      have noted : Drives s s2 := freed.step (modWork_only ..)
      split
      · exact .of (.ite (noted.grows (complete_grows ..)) noted)
      · exact .of noted

theorem execTraceConfig_drives (fn : Fn) (tag : W32) (s : State) : Settles (Drives s) (execTraceConfig fn tag s) := by
  refine .command fun c t => ?_
  extract_lets p fl held t1 t2
  have routed : Drives t t1 := .ite (.of_only (setRoute_only ..)) (.refl _)
  have encoded : Drives t t2 := .ite (routed.trans (setEncoding_drives ..)) routed
  split
  · exact fail_drives ..
  · exact .ite ((encoded.step (modWork_only ..)).trans (setEvt_drives ..)) (encoded.grows (complete_grows ..))

theorem execTraceFlush_drives (fn : Fn) (tag : W32) (found : Ecc) (s : State) :
    Settles (Drives s) (execTraceFlush fn tag found s) := by
  refine .command fun c t => ?_
  extract_lets p mode role badLen
  split
  · exact fail_drives ..
  · exact .ite (.of_only (modWork_only ..)) (.ite (flushRead_drives ..) (flushDiscard_drives ..))

theorem execTraceFlushDrained_drives (fn : Fn) (tag : W32) (s : State) : Settles (Drives s) (execTraceFlushDrained fn tag s) := by
  unfold execTraceFlushDrained
  split
  · exact .quiet
  · refine .ite ?_ .quiet
    split
    next committed =>
      exact .of (((Drives.of_grows (shedQueue_grows ..)).grows (commitBlock_grows committed)).grows (complete_grows ..))
    next => exact .quiet

theorem execCounterConfig_drives (fn : Fn) (tag : W32) (data : List Byte) (s : State) :
    Settles (Drives s) (execCounterConfig fn tag data s) := by
  refine .command fun c t => ?_
  extract_lets p sels restore t' wait cfg t1
  have counted : Drives t t' := .ite (.refl _) (.of_only (bumpAlways_only ..))
  have waits : Drives t t1 := counted.step (modPart_only ..)
  split
  · exact fail_drives ..
  · exact .ite (counted.trans (fail_drives ..)) (.ite (waits.trans (requestLatch_drives ..)) waits)

theorem execRunProgram_drives (fn : Fn) (tag : W32) (s : State) : Settles (Drives s) (execRunProgram fn tag s) := by
  refine .command fun c t => ?_
  split
  · exact fail_drives ..
  · extract_lets a
    split
    next started => exact (startRun_drives started).grows (complete_grows ..)
    next => exact fail_drives ..

theorem execStopProgram_drives (fn : Fn) (tag : W32) (s : State) : Settles (Drives s) (execStopProgram fn tag s) := by
  refine .command fun c t => ?_
  extract_lets id mode live past who p bound started
  clear_value live past
  split
  · exact fail_drives ..
  · split
    · exact .ite ((endRun_drives ..).grows (complete_grows ..)) (.ite (.refl _) (.of_grows (complete_grows ..)))
    · exact .of_grows (complete_grows ..)
    · exact .refl _

theorem execReweave_drives (fn : Fn) (tag : W32) (data : List Byte) (s : State) :
    Settles (Drives s) (execReweave fn tag data s) := by
  refine .command fun c t => ?_
  split
  · exact .of_grows (complete_grows ..)
  · exact (Drives.of_only (bumpAlways_only ..)).step (modWork_only ..)

theorem execReweaveCommit_drives (fn : Fn) (tag : W32) (s : State) : Settles (Drives s) (execReweaveCommit fn tag s) := by
  refine .command fun c t => ?_
  extract_lets f k no
  have refused : ∀ r, Drives t (no r) := fun _ => .of_grows (complete_grows ..)
  split
  · exact fail_drives ..
  · exact .ite (fail_drives ..) (.ite (fail_drives ..) (.ite (refused _) (.ite (refused _) (.ite (.of_only (modPart_only ..))
      .of_eq))))

theorem execWeftSwitch_drives (part : Part) (s : State) : Settles (Drives s) (execWeftSwitch part s) := by
  unfold execWeftSwitch
  extract_lets p s1
  have to_s1 : Drives s s1 := .of_only (noteWeft_only ..)
  split
  · exact .ite (.of (to_s1.trans (switchWeft_drives ..))) (.of to_s1)
  · exact .of to_s1

theorem execCommitSettleTimeout_drives (fn : Fn) (tag : W32) (s : State) :
    Settles (Drives s) (execCommitSettleTimeout fn tag s) := by
  unfold execCommitSettleTimeout
  extract_lets mine
  refine .of ?_
  exact .ite (((Drives.of_only (noteSettled_only ..)).each fun _ _ => .ite (.of_grows (failCommit_grows ..)) (.refl _)).trans
    (failWarp_drives ..)) ((Drives.of_only (noteSettled_only ..)).each fun _ _ => .ite (.of_grows (failCommit_grows ..))
    (.refl _))

theorem execWatchApplyEnd_drives (part : Part) (s : State) : Settles (Drives s) (execWatchApplyEnd part s) := by
  unfold execWatchApplyEnd
  extract_lets p
  split
  · exact .guard (finishCommit_drives ..)
  · exact .quiet

theorem execWarpSettle_drives (s : State) : Settles (Drives s) (execWarpSettle s) := by
  unfold execWarpSettle
  extract_lets s1
  have to_s1 : Drives s s1 := .of_only (noteWarp_only ..)
  split
  · exact .of to_s1
  · exact .ite (.of to_s1) (.of (((to_s1.same).each fun _ _ => installPort_drives ..).step (setPortsLeft_only ..)))

theorem execWarpCommitDone_drives (s : State) : Settles (Drives s) (execWarpCommitDone s) := by
  unfold execWarpCommitDone
  split
  · exact .quiet
  · exact .unless ((((Drives.of_eq).each fun _ _ => .of_grows (giveUpStakes_grows ..)).grows (warpRecords_grows ..)).grows
      (complete_grows ..))

theorem execHangReport_drives (fn : Fn) (tag : W32) (found : Ecc) (s : State) :
    Settles (Drives s) (execHangReport fn tag found s) := by
  refine .command fun c t => ?_
  extract_lets p mode held asked t1
  have added : Drives t t1 := .ite (addReport_drives ..) (.refl _)
  split
  · exact fail_drives ..
  · split
    · exact fail_drives ..
    · extract_lets out poison t2
      have read : Drives t t2 := .ite (added.grows (uncorrectableItem_grows ..)) (.ite (added.grows (correctedWord_grows ..)) added)
      exact .ite (read.grows (complete_grows ..)) ((read.trans (bufWrite_drives ..)).grows (complete_grows ..))

theorem execEpochClose_drives (fn : Fn) (tag : W32) (s : State) : Settles (Drives s) (execEpochClose fn tag s) := by
  refine .command fun c t => ?_
  extract_lets joined e
  clear_value joined
  split
  · exact fail_drives ..
  · refine Drives.grows ?_ (complete_grows ..)
    split
    · exact .of_only (joinClose_only ..)
    · exact .ite ((Drives.of_only (closeEpoch_only ..)).step (setBoundary_only ..)) (.of_only (closeEpoch_only ..))

theorem execSetWallclock_drives (fn : Fn) (tag : W32) (s : State) : Settles (Drives s) (execSetWallclock fn tag s) := by
  unfold execSetWallclock
  extract_lets f
  refine .command fun c t => ?_
  split
  · exact fail_drives ..
  · extract_lets fl _ t1 t2
    have to_t1 : Drives t t1 := .ite .of_eq (.refl _)
    have to_t2 : Drives t t2 := .ite (to_t1.trans (setTime_drives ..)) (to_t1.step (setBoundary_only ..))
    exact to_t2.grows (complete_grows ..)

theorem execTwinPair_drives (fn : Fn) (tag : W32) (s : State) : Settles (Drives s) (execTwinPair fn tag s) := by
  refine .command fun c t => ?_
  extract_lets a
  split
  · exact fail_drives ..
  · exact .ite (pairCmd_drives ..) (.ite (handoffCmd_drives ..) (takeoverCmd_drives ..))

theorem execTakeoverTimeout_drives (fn : Fn) (tag : W32) (s : State) : Settles (Drives s) (execTakeoverTimeout fn tag s) := by
  unfold execTakeoverTimeout
  split
  · exact .quiet
  · exact .guard (.of_grows (complete_grows ..))

theorem execTwinRelease_drives (fn : Fn) (tag : W32) (s : State) : Settles (Drives s) (execTwinRelease fn tag s) := by
  refine .command fun c t => ?_
  split
  · exact fail_drives ..
  · extract_lets _ t1
    have to_t1 : Drives t t1 := .of_eq
    exact .ite (to_t1.grows (complete_grows ..)) (((to_t1.grows (plaitSend_grows ..)).trans (unpair_drives ..)).grows
      (complete_grows ..))

theorem execLifecycleAdvance_drives (fn : Fn) (tag : W32) (s : State) : Settles (Drives s) (execLifecycleAdvance fn tag s) := by
  refine .command fun c t => ?_
  split
  · exact fail_drives ..
  · extract_lets l
    split
    · exact fail_drives ..
    · exact .ite (.of_grows (complete_grows ..)) (.of_only (askBurn_only ..))

theorem execFuseBitAttemptEnd_drives (took : Bool) (s : State) : Settles (Drives s) (execFuseBitAttemptEnd took s) := by
  unfold execFuseBitAttemptEnd
  split
  · exact .quiet
  · split
    · exact .of ((Drives.of_eq).trans (warmNow_drives ..))
    · exact .of (burnAttempt_drives ..)

theorem execRegisterWrite_drives (fn : Fn) (offset : RegAt) (value : W32) (enables : BitVec 4) (s : State) :
    Settles (Drives s) (execRegisterWrite fn offset value enables s) := by
  refine .host fun t => ?_
  split
  · exact writeReg_drives ..
  · exact (writeReg_drives ..).trans (writeSpan_drives ..)
  · exact writeMsixControl_drives ..

theorem execExtest_drives (cells : List Bool) (s : State) : Settles (Drives s) (execExtest cells s) := by
  unfold execExtest
  extract_lets t
  have to_t : Drives s t := .of_only (selectIr_only ..)
  exact .of ((to_t.same).trans (tapOut_drives ..))

theorem execSamplePreload_drives (pins cells : List Bool) (s : State) : Settles (Drives s) (execSamplePreload pins cells s) := by
  unfold execSamplePreload
  extract_lets t
  have to_t : Drives s t := .of_only (selectIr_only ..)
  exact .of ((to_t.same).trans (tapOut_drives ..))

theorem execMemAccess_drives (dr : BitVec 128) (s : State) : Settles (Drives s) (execMemAccess dr s) :=
  .tap (fun _ => .ite ((((Drives.of_only (selectIr_only ..)).trans (shiftOut_drives ..)).same).trans (memAccess_drives ..))
    (.ite ((((Drives.of_only (selectIr_only ..)).trans (shiftOut_drives ..)).step (nextFree_only ..)).step (memBusy_only ..))
    (((((Drives.of_only (selectIr_only ..)).trans (shiftOut_drives ..)).step (nextFree_only ..)).same).trans
    (memAccess_drives ..))))

theorem execRegAccess_drives (dr : BitVec 64) (s : State) : Settles (Drives s) (execRegAccess dr s) :=
  .tap (fun _ => .ite ((((Drives.of_only (selectIr_only ..)).trans (shiftOut_drives ..)).same).trans (regAccess_drives ..))
    (.ite ((((Drives.of_only (selectIr_only ..)).trans (shiftOut_drives ..)).step (nextFree_only ..)).step (regBusy_only ..))
    (((((Drives.of_only (selectIr_only ..)).trans (shiftOut_drives ..)).step (nextFree_only ..)).same).trans
    (regAccess_drives ..))))

theorem execUnlockChallenge_drives (s : State) : Settles (Drives s) (execUnlockChallenge s) := by
  refine .tap fun t => ?_
  have selected : Drives t (selectIr 0x30 t) := .of_only (selectIr_only ..)
  exact (selected.same.step (nextFree_only _)).trans (shiftOut_drives ..)

theorem execTrainTimeout_drives (link : LinkNo) (s : State) : Settles (Drives s) (execTrainTimeout link s) := by
  unfold execTrainTimeout
  extract_lets x
  split
  · exact .guard (linkDown_drives ..)
  · exact .quiet

theorem execAckTimeoutReplay_drives (link : LinkNo) (s : State) : Settles (Drives s) (execAckTimeoutReplay link s) := by
  unfold execAckTimeoutReplay
  extract_lets l x
  split
  · exact .guard (replay_drives ..)
  · exact .quiet

theorem execDetachAckSend_drives (port : Port) (s : State) : Settles (Drives s) (execDetachAckSend port s) := by
  unfold execDetachAckSend
  extract_lets n
  split
  · exact .guard ((Drives.of_grows (sendCtl_grows ..)).trans (portDown_drives ..))
  · exact .quiet

theorem execResponseTimeout_drives (port : Port) (ch : Fin 3) (s : State) :
    Settles (Drives s) (execResponseTimeout port ch s) := by
  unfold execResponseTimeout
  extract_lets n c
  split
  · exact .quiet
  · refine .ite .quiet ?_
    extract_lets s1
    have to_s1 : Drives s s1 := .of_only (modLnk_only ..)
    split
    · split
      · exact .ite (.of (to_s1.step (regionAnswer_only ..))) (.of
          ((((to_s1.trans (cmdNoAnswer_drives ..)).each fun _ _ => .of_links (stepEnds_keepsLinks ..)).each fun _ _ => .of_only
          (modUnit_only ..)).grows (checkGather_grows ..)))
      · exact .of to_s1
    · exact .of (to_s1.trans (.of_links (unanswered_keepsLinks ..)))

theorem execHoopInAssert_drives (port : Port) (heldNs : Nat) (s : State) :
    Settles (Drives s) (execHoopInAssert port heldNs s) := by
  unfold execHoopInAssert
  extract_lets n already s1
  have to_s1 : Drives s s1 := (Drives.of_only (modPort_only ..)).step (takeInput_only ..)
  exact .of (.ite (to_s1.step (fireAll_only ..)) to_s1)

theorem execXtrigEdge_drives (pin : Fin 8) (rising : Bool) (heldNs : Nat) (s : State) :
    Settles (Drives s) (execXtrigEdge pin rising heldNs s) := by
  unfold execXtrigEdge
  extract_lets j lvl _ s1 hit
  have to_s1 : Drives s s1 := (Drives.of_eq).step (takeInput_only ..)
  exact .of (.ite (to_s1.each fun _ _ => .of_only (fire_only ..)) to_s1)

theorem execHoopOutPulseEnd_drives (port : Port) (s : State) : Settles (Drives s) (execHoopOutPulseEnd port s) := by
  unfold execHoopOutPulseEnd
  split
  · exact .guard ((Drives.of_only (modPort_only ..)).grows (emit_grows ..))
  · exact .quiet

theorem execHoopReleaseGapEnd_drives (port : Port) (s : State) : Settles (Drives s) (execHoopReleaseGapEnd port s) := by
  unfold execHoopReleaseGapEnd
  split
  · exact .guard (.ite ((Drives.of_only (modPort_only ..)).grows (assertHoop_grows ..)) (.of_only (modPort_only ..)))
  · exact .quiet

theorem execXtrigPulseEnd_drives (pin : Fin 8) (s : State) : Settles (Drives s) (execXtrigPulseEnd pin s) := by
  unfold execXtrigPulseEnd
  extract_lets j
  split
  · exact .guard ((Drives.of_only (setXtrig_only ..)).grows (driveXtrig_grows ..))
  · exact .guard (.ite (.of_grows (startXtrig_grows ..)) (.of_only (setXtrig_only ..)))
  · exact .quiet

theorem execHaltTimeoutExpiry_drives (unit : UnitNo) (s : State) : Settles (Drives s) (execHaltTimeoutExpiry unit s) := by
  unfold execHaltTimeoutExpiry
  split
  · exact .guard (.of_links (declareUnit_keepsLinks ..))
  · exact .quiet

theorem execStepTimeoutExpiry_drives (unit : UnitNo) (s : State) : Settles (Drives s) (execStepTimeoutExpiry unit s) := by
  unfold execStepTimeoutExpiry
  split
  · exact .guard (.of_links (declareUnit_keepsLinks ..))
  · exact .quiet

theorem execSplintEmit_drives (found : SplintEcc) (s : State) : Settles (Drives s) (execSplintEmit found s) := by
  refine .ite .quiet ?_
  split
  · exact .quiet
  next e s1 turn =>
    have served : Drives s (noteServed e (setDeficit e.fn (s1.deficit e.fn - 1) s1)) :=
      ((Drives.of_only (findTurn_only turn)).step (setDeficit_only ..)).step (noteServed_only ..)
    exact .of (Drives.step (.ite (served.trans (sendManifest_drives ..)) (served.trans (sendData_drives ..))) (clearDeficits_only _))

theorem execExportPortTimeout_drives (fn : Fn) (tag : W32) (s : State) : Settles (Drives s) (execExportPortTimeout fn tag s) := by
  unfold execExportPortTimeout
  split
  · exact .quiet
  · exact .guard (((Drives.of_only (dropExport_only ..)).step (clearDeficits_only ..)).grows (complete_grows ..))

theorem execHangEventProcess_drives (s : State) : Settles (Drives s) (execHangEventProcess s) := by
  unfold execHangEventProcess
  split
  · exact .quiet
  · extract_lets _ s1
    have to_s1 : Drives s s1 := (Drives.of_eq).step (hangEvent_only ..)
    exact .of ((Drives.ite (to_s1.step (modPart_only ..)) to_s1).grows (spendCreel_grows ..))

theorem execHangScanEnd_drives (part : Part) (found : Ecc) (s : State) : Settles (Drives s) (execHangScanEnd part found s) := by
  unfold execHangScanEnd
  extract_lets p x s' next s1 w running s2
  have read : Drives s s' := .ite (.of_grows (correctedWord_grows ..)) (.refl _)
  split
  · exact .of read
  · extract_lets es comps units
    have again : ∀ t, Drives t (next t) := fun t => .ite (.of_only (startScan_only ..)) (.refl t)
    have ended : Drives s s1 := read.step (modPart_only ..)
    have looked : Drives s s2 := (ended.trans (again _)).step (modPart_only ..)
    have item := read.grows (uncorrectableItem_grows false 1 p 0 3 s')
    refine .ite (.of read) (.ite (.of ended) (.ite (.of ((item.step (stopGraph_only ..)).step (startGraph_only ..))) (.ite
      (.ite (.of (ended.trans (again _))) (.of (((ended.trans (again _)).step (modPart_only ..)).trans (declareHang_drives ..))))
      ?_)))
    split
    · exact .ite (.of looked) (.of ((looked.step (modPart_only ..)).trans (declareHang_drives ..)))
    · exact .of looked

theorem execTraceFrameTimeout_drives (part : Part) (s : State) : Settles (Drives s) (execTraceFrameTimeout part s) := by
  unfold execTraceFrameTimeout
  extract_lets p
  split
  · exact .guard (((((Drives.ite (.of_only (endSpan_only ..)) (.refl _)).step (closeCoded_only ..)).trans
      (sendWaiting_drives ..)).trans (periodicReset_drives ..)).trans (checkSwitch_drives ..))
  · exact .quiet

theorem execTraceFrameSend_drives (found : TraceEcc) (s0 : State) : Settles (Drives s0) (execTraceFrameSend found s0) := by
  unfold execTraceFrameSend
  extract_lets s
  have to_s : Drives s0 s := by
    dsimp only [s]
    split
    · exact (Drives.of_only (spoilQueue_only ..)).grows (shedQueue_grows ..)
    · exact .refl _
  refine .ite (.of to_s) ?_
  refine .ite (.of (to_s.trans (sendDump_drives ..))) ?_
  refine .of ?_
  refine Drives.trans ?_ (sendTurn_drives ..)
  split
  · exact to_s.trans (readTier_drives ..)
  · exact to_s

theorem execGapEnd_drives (part : Part) (dram : Bool) (s : State) : Settles (Drives s) (execGapEnd part dram s) := by
  unfold execGapEnd
  extract_lets p
  split
  · split
    · exact .guard (endDramGap_drives ..)
    · exact .quiet
  · split
    · exact .guard (endPortGap_drives ..)
    · exact .quiet

theorem execSpillReturn_drives (part : Part) (s : State) : Settles (Drives s) (execSpillReturn part s) := by
  unfold execSpillReturn
  extract_lets p
  split
  · exact .guard (((Drives.of_only (modPart_only ..)).grows (pumpPort_grows ..)).trans (checkSwitch_drives ..))
  · exact .quiet

theorem execDeferredLatchPoint_drives (part : Part) (s : State) : Settles (Drives s) (execDeferredLatchPoint part s) := by
  unfold execDeferredLatchPoint
  extract_lets p
  split
  · exact .guard ((Drives.of_only (modPart_only ..)).trans (deferredTake_drives ..))
  · exact .quiet

theorem execCounterConfigWaitExpiry_drives (part : Part) (s : State) :
    Settles (Drives s) (execCounterConfigWaitExpiry part s) := by
  unfold execCounterConfigWaitExpiry
  extract_lets p
  split
  · exact .guard (requestLatch_drives ..)
  · exact .quiet

theorem execOsierWord_drives (core : CoreNo) (cycles : Nat) (poison : Fin 5) (tdo : List Bool) (s : State) :
    Settles (Drives s) (execOsierWord core cycles poison tdo s) :=
  .ite (.of (coreWord_drives ..)) (.ite (.of (adaptorWord_drives ..)) .quiet)

theorem execHostWriteError_drives (run : W32) (s : State) : Settles (Drives s) (execHostWriteError run s) := by
  unfold execHostWriteError
  split
  · exact .guard (endRun_drives ..)
  · exact .quiet

theorem execCoderAnswerRead_drives (part : Part) (found : Ecc) (s0 : State) :
    Settles (Drives s0) (execCoderAnswerRead part found s0) := by
  unfold execCoderAnswerRead
  extract_lets p c s
  have to_s : Drives s0 s := .ite (.of_grows (correctedWord_grows ..)) (.refl _)
  split
  · refine .ite (.of to_s) ?_
    refine .ite (.of ((to_s.grows (uncorrectableItem_grows ..)).trans (endRun_drives ..))) ?_
    extract_lets tables s1
    have to_s1 : Drives s0 s1 := .ite (to_s.step (modPart_only ..)) to_s
    split
    · extract_lets s2
      have to_s2 : Drives s0 s2 := ((to_s1.step (codeRecord_only ..)).step (spoilCoder_only ..)).grows (spendCreel_grows ..)
      exact .ite (.of ((to_s2.trans (forceReset_drives ..)).trans (checkSwitch_drives ..)))
        (.of ((to_s2.grows (pumpPort_grows ..)).trans (checkSwitch_drives ..)))
  · exact .of to_s

theorem execCodingStall_drives (part : Part) (s : State) : Settles (Drives s) (execCodingStall part s) := by
  unfold execCodingStall
  extract_lets p c answered
  split
  · exact .guard (((Drives.of_only (modPart_only ..)).trans (syncCoder_drives ..)).trans (checkSwitch_drives ..))
  · exact .quiet

theorem execPlaitTimesyncReq_drives (hdr : CtlHdr) (exch : Byte) (t1 : W64) (s : State) :
    Settles (Drives s) (execPlaitTimesyncReq hdr exch t1 s) := by
  unfold execPlaitTimesyncReq
  extract_lets s1 x
  have to_s1 : Drives s s1 := .of_links (takeHdr_keepsLinks ..)
  exact .ite (.of (to_s1.grows (sendCtl_grows ..))) (.of to_s1)

theorem execStakeClaimRetry_drives (port : Port) (part : Part) (s : State) :
    Settles (Drives s) (execStakeClaimRetry port part s) := by
  unfold execStakeClaimRetry
  split
  · exact .guard (.ite (.of_only (modStake_only ..)) (.ite ((Drives.of_only (modStake_only ..)).grows (claim_grows ..))
      (.refl _)))
  · exact .quiet

theorem execPatrolScrub_drives (word : Nat) (found : ScrubFind) (s : State) :
    Settles (Drives s) (execPatrolScrub word found s) := by
  unfold execPatrolScrub
  extract_lets at_ find
  clear_value find
  refine .of ?_
  split
  · exact (Drives.of_only (spoilItem_only ..)).grows (uncorrectableWord_grows ..)
  · exact (Drives.of_eq).grows (correctedWord_grows ..)
  · exact .refl _

theorem execImageFetchEnd_drives (port : HostPort) (bytes : List Byte) (error : Bool) (s : State) :
    Settles (Drives s) (execImageFetchEnd port bytes error s) := by
  have counted : Drives s (bumpAlways (44 + port.val) 64 s) := .of_only (bumpAlways_only ..)
  refine .ite .quiet (.ite (.of (rejectLoad_drives ..)) ?_)
  extract_lets img
  split
  · exact .of (counted.trans (rejectLoad_drives ..))
  · exact .ite (.of (counted.trans (rejectLoad_drives ..)))
      (.of ((((Drives.of_eq).step (bumpAlways_only ..)).grows (emit_grows ..)).step (modWea_only ..)))

theorem execReweaveCheckEnd_drives (fn : Fn) (tag : W32) (s : State) : Settles (Drives s) (execReweaveCheckEnd fn tag s) := by
  unfold execReweaveCheckEnd
  extract_lets f s1
  split
  · exact .quiet
  · extract_lets img a r
    have drawn : Drives s s1 := .of_only (nextFree_only ..)
    refine .ite .quiet (.ite (.of (fail_drives ..)) ?_)
    split
    · exact .of (drawn.grows (complete_grows ..))
    · extract_lets s2
      have accepted : Drives s s2 := .ite (drawn.trans (acceptWeft_drives ..)) (drawn.step (acceptWarp_only ..))
      exact .of (accepted.grows (complete_grows ..))

theorem execHeartbeatPulseEnd_drives (s : State) : Settles (Drives s) (execHeartbeatPulseEnd s) := by
  unfold execHeartbeatPulseEnd
  split
  · exact .guard ((Drives.of_eq).grows (emit_grows ..))
  · exact .quiet
  · exact .quiet

theorem execAdaptorOperationTimeout_drives (s : State) : Settles (Drives s) (execAdaptorOperationTimeout s) := by
  unfold execAdaptorOperationTimeout
  split
  · split
    · exact .guard (callEnds_drives ..)
    · exact .quiet
  · exact .quiet

/-! ### Every command -/

/-- Besides the commands named here none names the outputs among what it may change. -/
theorem exec_drives (i : Instr) (s : State) : Settles (Drives s) (exec i s) := by
  cases i with
  | powerOnReset lowNs => exact execPowerOnReset_drives lowNs s
  | supplyDrop dip => exact execSupplyDrop_drives dip s
  | clockFault fault => exact execClockFault_drives fault s
  | stakeWatchdogExpiry => exact .guard ((Drives.of_grows (raiseErr_grows ..)).trans (warmReset_drives ..))
  | hostPortReset port cause => exact execHostPortReset_drives port cause s
  | sessionReset => exact .guard (resetSession_drives ..)
  | pfFunctionReset => exact .guard (resetPf_drives ..)
  | d0Return => exact .unless ((Drives.of_only (modFn_only ..)).each fun ⟨_, _⟩ _ => .of_grows (writeCpl_grows ..))
  | weaLoadStart => exact .host (fun _ => loadStart_drives ..)
  | weaLoadAbort => exact .host (fun _ => loadAbort_drives ..)
  | imageCheckDone => exact execImageCheckDone_drives s
  | dramTrainingDone ok => exact execDramTrainingDone_drives ok s
  | readyEntry => exact execReadyEntry_drives s
  | serdesPllLoss pll => exact execSerdesPllLoss_drives pll s
  | serdesPllRelock pll => exact execSerdesPllRelock_drives pll s
  | doorbell => exact .host (fun _ => doorbell_drives ..)
  | descriptorFetch =>
    exact .ite .quiet (.ite (.of ((Drives.of_only (takeTurn_only ..)).trans (ringErr_drives ..)))
      (.of ((((Drives.of_only (takeTurn_only ..)).step (modFn_only ..)).step (bumpAlways_only ..)).trans
      (takeDescriptor_drives ..))))
  | coalesceTimeout fn => exact execCoalesceTimeout_drives fn s
  | hostDmaError fn tag => exact execHostDmaError_drives fn tag s
  | nop => exact .command (fun _ _ => .of_grows (complete_grows ..))
  | claim fn tag => exact execClaim_drives fn tag s
  | release =>
    exact .command (fun _ _ => .ite (.ite ((dropObserver_drives ..).grows (complete_grows ..)) (fail_drives ..))
      (.ite (.of_only (modWork_only ..)) (fail_drives ..)))
  | releaseTakesEffect fn tag => exact execReleaseTakesEffect_drives fn tag s
  | observe fn tag => exact execObserve_drives fn tag s
  | grant fn tag => exact execGrant_drives fn tag s
  | halt fn tag => exact execHalt_drives fn tag s
  | resume =>
    exact .ite .quiet (.command (fun _ _ => checked_drives fun _ =>
      (Drives.ite (.of_only (modWork_only ..)) ((Drives.of_only (modWork_only ..)).trans
      (.of_links (sendRun_keepsLinks ..)))).trans (advanceCmd_drives ..)))
  | step =>
    exact .ite .quiet (.command (fun _ _ => checked_drives fun _ =>
      ((Drives.of_only (modWork_only ..)).trans (.of_links (sendRun_keepsLinks ..))).trans (advanceCmd_drives ..)))
  | setBreak | clearBreak | clearWatch | readUnitRegs =>
    exact .command (fun _ _ => checked_drives fun _ => ((Drives.of_only (modWork_only ..)).grows (sendAll_grows ..)).trans
      (advanceCmd_drives ..))
  | setWatch | writeUnitRegs =>
    exact .command (fun _ _ => checked_drives fun _ => (((Drives.of_only (bumpAlways_only ..)).step (modWork_only ..)).grows
      (sendAll_grows ..)).trans (advanceCmd_drives ..))
  | readUnitMem =>
    exact .command (fun _ _ => checked_drives fun _ => ((Drives.of_grows (sendAll_grows ..)).step (fallbackCalls_only ..)).trans
      (advanceCmd_drives ..))
  | writeUnitMem =>
    exact .command (fun _ _ => checked_drives fun _ => (((Drives.of_only (bumpAlways_only ..)).grows (sendAll_grows ..)).step
      (fallbackCalls_only ..)).trans (advanceCmd_drives ..))
  | cut fn tag => exact execCut_drives fn tag s
  | dumpCut fn tag => exact execDumpCut_drives fn tag s
  | dumpRegion fn tag => exact execDumpRegion_drives fn tag s
  | releaseCut fn tag => exact execReleaseCut_drives fn tag s
  | cutFreed part cut => exact execCutFreed_drives part cut s
  | traceConfig fn tag => exact execTraceConfig_drives fn tag s
  | traceFlush fn tag poison => exact execTraceFlush_drives fn tag poison s
  | traceFlushDrained fn tag => exact execTraceFlushDrained_drives fn tag s
  | counterConfig fn tag data => exact execCounterConfig_drives fn tag data s
  | counterLatch =>
    exact .command (fun _ _ => .ite (.ite (fail_drives ..) (.ite (fail_drives ..)
      ((bufWrite_drives ..).grows (complete_grows ..)))) (.ite (fail_drives ..) (requestLatch_drives ..)))
  | loadModel => exact .command (fun _ _ => .ite (fail_drives ..) (.ite (loadModel_drives ..) (unloadModel_drives ..)))
  | runProgram fn tag => exact execRunProgram_drives fn tag s
  | stopProgram fn tag => exact execStopProgram_drives fn tag s
  | reweave fn tag data => exact execReweave_drives fn tag data s
  | reweaveCommit fn tag => exact execReweaveCommit_drives fn tag s
  | weftSwitch part => exact execWeftSwitch_drives part s
  | commitSettleTimeout fn tag => exact execCommitSettleTimeout_drives fn tag s
  | watchApplyEnd part => exact execWatchApplyEnd_drives part s
  | warpSettle => exact execWarpSettle_drives s
  | warpCommitDone => exact execWarpCommitDone_drives s
  | hangReport fn tag poison => exact execHangReport_drives fn tag poison s
  | meterRead =>
    exact .command (fun _ _ => .ite (fail_drives ..) (.ite (.ite ((bufWrite_drives ..).grows (complete_grows ..))
      (fail_drives ..)) ((bufWrite_drives ..).grows (complete_grows ..))))
  | epochClose fn tag => exact execEpochClose_drives fn tag s
  | setWallclock fn tag => exact execSetWallclock_drives fn tag s
  | twinPair fn tag => exact execTwinPair_drives fn tag s
  | takeoverTimeout fn tag => exact execTakeoverTimeout_drives fn tag s
  | twinRelease fn tag => exact execTwinRelease_drives fn tag s
  | lifecycleAdvance fn tag => exact execLifecycleAdvance_drives fn tag s
  | fuseBitAttemptEnd took => exact execFuseBitAttemptEnd_drives took s
  | hubCtrlWarmReset => exact .host (fun _ => .ite (warmReset_drives ..) (.refl _))
  | partitionResetComplete =>
    exact .guard (((((((resetWeave_drives ..).step (resetLattice_only ..)).trans (resetCuts_drives ..)).trans
      (resetHang_drives ..)).trans (resetCounters_drives ..)).trans (resetRuns_drives ..)).step (modPart_only ..))
  | forceDown => exact .host (fun _ => .ite (forceDown_drives ..) (.refl _))
  | scanCtrlWrite => exact .host (fun _ => .ite (scanWrite_drives ..) (.refl _))
  | registerWrite fn offset value enables => exact execRegisterWrite_drives fn offset value enables s
  | registerReadClear => exact .of ((Drives.refl _).each fun _ _ => barRead_drives ..)
  | latchingRead | memWindowRead => exact .of (barRead_drives ..)
  | idcode => exact .of ((Drives.of_only (selectIr_only ..)).trans (shiftOut_drives ..))
  | extest cells => exact execExtest_drives cells s
  | samplePreload pins cells => exact execSamplePreload_drives pins cells s
  | bypass => exact .guard ((Drives.of_only (selectIr_only ..)).trans (shiftBypass_drives ..))
  | lcyQuery => exact .of (((Drives.of_only (selectIr_only ..)).trans (shiftOut_drives ..)).trans (shiftOut_drives ..))
  | lcyAdvance => exact .tap (fun _ => (Drives.of_only (selectIr_only ..)).step (tapAdvance_only ..))
  | fuseKeyProg =>
    exact .tap (fun _ => .ite (.of_only (selectIr_only ..)) ((Drives.of_only (selectIr_only ..)).step (askBurn_only ..)))
  | memAccess dr => exact execMemAccess_drives dr s
  | regAccess dr => exact execRegAccess_drives dr s
  | warmReset => exact .tap (fun _ => (Drives.of_only (selectIr_only ..)).trans (warmReset_drives ..))
  | unlockChallenge => exact execUnlockChallenge_drives s
  | unlockResponse =>
    exact .tap (fun _ => .ite ((Drives.of_only (selectIr_only ..)).step (unlockVerdict_only ..))
      ((((Drives.of_only (selectIr_only ..)).step (unlockVerdict_only ..)).same).step (nextFree_only ..)))
  | tsBlockReceive => exact .of (takeTs_drives ..)
  | trainTimeout link => exact execTrainTimeout_drives link s
  | downPeriodEnd =>
    exact .guard (.ite (.of_only (enterDetect_only ..)) ((Drives.of_only (startLink_only ..)).trans
      (.of_links (bootAdvance_keepsLinks ..))))
  | flitReceive => exact .ite .quiet (.ite (.of (badFlit_drives ..)) (.ite (.of (takeCtl_drives ..)) (.of (takeSeq_drives ..))))
  | nak =>
    exact .of ((((Drives.of_only (readHdr_only ..)).trans (takeNak_drives ..)).grows (pump_grows ..)).trans
      (.of_links (noteRuns_keepsLinks ..)))
  | replayStart => exact .of ((Drives.of_links (takeHdr_keepsLinks ..)).step (takeReplayStart_only ..))
  | ackTimeoutReplay link => exact execAckTimeoutReplay_drives link s
  | linkControlIdle => exact .of (.of_links (takeHdr_keepsLinks ..))
  | config => exact .of ((Drives.of_links (takeHdr_keepsLinks ..)).trans (takeConfig_drives ..))
  | timesyncTimer => exact .guard (startExchange_drives ..)
  | timesyncRsp => exact .of ((Drives.of_links (takeHdr_keepsLinks ..)).trans (takeTimesyncRsp_drives ..))
  | timesyncExchangeTimeout =>
    exact .guard (.ite ((Drives.of_only (modLnk_only ..)).trans (startExchange_drives ..)) (.of_only (modLnk_only ..)))
  | linkResumeFlit => exact .of ((Drives.of_links (takeHdr_keepsLinks ..)).trans (takeResume_drives ..))
  | detachReq => exact .of ((Drives.of_links (takeHdr_keepsLinks ..)).step (takeDetach_only ..))
  | detachAckSend port => exact execDetachAckSend_drives port s
  | haltRecord => exact .of (takeHaltRecord_drives ..)
  | eventBatch => exact .of (takeEventBatch_drives ..)
  | counterDelta => exact .of (takeDelta_drives ..)
  | dieLoss => exact .of (takeDieLoss_drives ..)
  | dieResponse => exact .of (.ite (takeResponse_drives ..) (.refl _))
  | responseTimeout port ch => exact execResponseTimeout_drives port ch s
  | hoopInAssert port heldNs => exact execHoopInAssert_drives port heldNs s
  | xtrigEdge pin rising heldNs => exact execXtrigEdge_drives pin rising heldNs s
  | stageTimeout => exact .guard ((Drives.of_only (modPart_only ..)).grows (triggerRec_grows ..))
  | partitionWatchdogExpiry =>
    exact .guard ((((Drives.of_only (modPart_only ..)).step (hubEvent_only ..)).trans (firedReport_drives ..)).step
      (fire_only ..))
  | hoopOutPulseEnd port => exact execHoopOutPulseEnd_drives port s
  | hoopReleaseGapEnd port => exact execHoopReleaseGapEnd_drives port s
  | xtrigPulseEnd pin => exact execXtrigPulseEnd_drives pin s
  | haltTimeoutExpiry unit => exact execHaltTimeoutExpiry_drives unit s
  | stepTimeoutExpiry unit => exact execStepTimeoutExpiry_drives unit s
  | proofDone =>
    exact .guard (((((Drives.refl _).each fun _ _ => .of_grows (correctedWord_grows ..)).step (poisonHeld_only ..)).grows
      (endProof_grows ..)).trans (slath_drives ..))
  | splintEmit poison => exact execSplintEmit_drives poison s
  | exportPortTimeout fn tag => exact execExportPortTimeout_drives fn tag s
  | hangEventProcess => exact execHangEventProcess_drives s
  | hangScanEnd part poison => exact execHangScanEnd_drives part poison s
  | traceFrameTimeout part => exact execTraceFrameTimeout_drives part s
  | keepaliveTimer => exact .guard (sendEther_drives ..)
  | traceFrameSend poison => exact execTraceFrameSend_drives poison s
  | gapEnd part dram => exact execGapEnd_drives part dram s
  | spillReturn part => exact execSpillReturn_drives part s
  | timesyncRecordTimer => exact .guard (.of_links (timesyncRec_keepsLinks ..))
  | waleLinkDown => exact .of (waleDown_drives ..)
  | deferredLatchPoint part => exact execDeferredLatchPoint_drives part s
  | counterConfigWaitExpiry part => exact execCounterConfigWaitExpiry_drives part s
  | osierWord core cycles poison tdo => exact execOsierWord_drives core cycles poison tdo s
  | hostWriteError run => exact execHostWriteError_drives run s
  | coderAnswerRead part poison => exact execCoderAnswerRead_drives part poison s
  | codingStall part => exact execCodingStall_drives part s
  | plaitLinkDown => exact .guard (plaitDown_drives ..)
  | haltFwd => exact .guard (takeHaltFwd_drives ..)
  | hoopEn => exact .guard (takeHoopEn_drives ..)
  | hoopEnAck => exact .guard (takeHoopEnAck_drives ..)
  | stakeNote => exact .guard (takeStakeNote_drives ..)
  | hello => exact .guard (takeHello_drives ..)
  | stakeView => exact .guard (takeStakeView_drives ..)
  | fastView => exact .guard (takeFastView_drives ..)
  | handoff => exact .guard (takeHandoff_drives ..)
  | handoffDone => exact .guard (takeHandoffDone_drives ..)
  | unpair => exact .guard (takeUnpair_drives ..)
  | imageReqTimer => exact .guard ((Drives.of_eq).grows (plaitSend_grows ..))
  | imageReq => exact .guard (takeImageReq_drives ..)
  | plaitTimesyncReq hdr exch t1 => exact execPlaitTimesyncReq_drives hdr exch t1 s
  | heartbeatPulse => exact .guard ((Drives.of_eq).grows (emit_grows ..))
  | heartbeatLost =>
    exact .ite (.ite (.of ((Drives.of_eq).trans (.of_links (plaitEvent_keepsLinks ..))))
      (.ite (.of ((Drives.of_eq).trans (enterTwinLost_drives ..))) (.of .of_eq))) .quiet
  | twinAbsentTimeout => exact .guard (enterTwinLost_drives ..)
  | stakeRenewTimer => exact .guard ((Drives.of_eq).each fun ⟨_, _⟩ _ => .of_grows (askRenew_grows ..))
  | stakeClaimRetry port part => exact execStakeClaimRetry_drives port part s
  | patrolScrub word found => exact execPatrolScrub_drives word found s
  | thermalTrip => exact .of (.ite ((Drives.of_eq).grows (raiseErr_grows ..)) (.refl _))
  | firmwareStop => exact .of (stopFirmware_drives ..)
  | vfEnable =>
    exact .host (fun _ => .ite (.refl _) (((Drives.refl _).each fun _ _ => resetSession_drives ..).step (modHost_only ..)))
  | imageFetchEnd port bytes error => exact execImageFetchEnd_drives port bytes error s
  | reweaveCheckEnd fn tag => exact execReweaveCheckEnd_drives fn tag s
  | alignBlockReceive => exact .of (takeAlign_drives ..)
  | heartbeatPulseEnd => exact execHeartbeatPulseEnd_drives s
  | adaptorOperationTimeout => exact execAdaptorOperationTimeout_drives s
  | _ => exact .of_touches fun _ only => .of_only only rfl

/-- Settles O6: every command drives behind what has been driven, and so does the settling of the lattice. -/
theorem outputsOnlyGrow : Obligations.OutputsOnlyGrow := by
  unfold Obligations.OutputsOnlyGrow
  intro i s t ran
  obtain ⟨u, hu, driven⟩ := exec_drives i s
  obtain rfl : settle u = t := Host.Outcome.next.inj (hu.symm.trans ran)
  exact (driven.grows (settle_grows u)).out

end Sys2Proof.Laws

/-!
SUPPORT. TRACE_CONFIG and TRACE_FLUSH: what each does where its checks pass.
-/

namespace Sys2Proof.Laws
open Sys2Proof Sys2Proof.Machine
set_option Elab.async false -- a thread per proof would not fit beside the model in the check's memory

section
variable {s : State} {f : Fn} {tag : W32} {c : Cmd}

/-- TRACE_CONFIG with FLAGS 2 sets the routing alone. -/
theorem execTraceConfig_routes (w : Waits s f.val tag 0x40 c) (owner : s.owns f.val c.partition = true)
    (free : (started f.val tag s).barred { c with started := true } = false) (flags : c.f 52 1 = 2) :
    exec (.traceConfig f tag) s = done (complete f.val tag {}
      (setRoute c.partition c.param0 (c.f 54 1) (started f.val tag s))) := by
  refine congrArg done ((startCmd_eq _ w).trans ?_)
  have owns : (started f.val tag s).owns f.val c.partition = true := (owns_started ..).trans owner
  have flags' : ({ c with started := true } : Cmd).f 52 1 = 2 := flags
  have alone : bit 2 0 = false := by decide
  have routes : bit 2 1 = true := by decide
  have plain : (bit 2 2 || bit 2 3) = false := by decide
  dsimp only
  rw [flags', alone, routes, plain, partition_start, owns, free]
  rfl

theorem setRoute_part {p mask dest : Nat} (b : p < 64) :
    ((setRoute p mask dest s).part p).oldRoutes = (s.part p).routes ∧ ((setRoute p mask dest s).part p).switchTs = s.nextEdge ∧
      ((setRoute p mask dest s).part p).routes = (List.range 16).map fun k =>
        if bit mask (k + 1) then BitVec.ofNat 8 dest else (s.part p).routes.getD k 0 := by
  unfold setRoute
  rw [part_modPart _ _ _ b]
  exact ⟨rfl, rfl, rfl⟩

/-! ### TRACE_FLUSH -/

/-- MODE 0 waits, with the backlog noted at its fetch. -/
theorem execTraceFlush_waits {v : Ecc} (w : Waits s f.val tag 0x41 c) (reads : s.reads f.val c.partition = true)
    (mode : c.f 52 1 = 0) :
    exec (.traceFlush f tag v) s = done (modWork f.val tag (fun w => { w with stage := 1 }) (started f.val tag s)) := by
  refine congrArg done ((startCmd_eq _ w).trans ?_)
  have mode' : ({ c with started := true } : Cmd).f 52 1 = 0 := mode
  have reads' : (started f.val tag s).reads f.val c.partition = true := (reads_started ..).trans reads
  dsimp only
  rw [mode', partition_start, reads']
  rfl

theorem execTraceFlush_discards {v : Ecc} (w : Waits s f.val tag 0x41 c) (owner : s.owns f.val c.partition = true)
    (mode : c.f 52 1 = 2) :
    exec (.traceFlush f tag v) s = done (flushDiscard f.val { c with started := true } (started f.val tag s)) := by
  refine congrArg done ((startCmd_eq _ w).trans ?_)
  have mode' : ({ c with started := true } : Cmd).f 52 1 = 2 := mode
  have owns : (started f.val tag s).owns f.val c.partition = true := (owns_started ..).trans owner
  dsimp only
  rw [mode', partition_start, owns]
  rfl

/-- The blocks that MODE 2 frees. -/
def freed (c : Cmd) (s : State) : List Block := (s.part c.partition).blocks.filter fun b => decide (b.seq.toNat ≤ c.param0)

/-- The state once they are free, and what waited for room has been written. -/
def blocksFreed (c : Cmd) (s : State) : State :=
  let kept := modPart c.partition (fun x => { x with blocks := x.blocks.filter fun b => !decide (b.seq.toNat ≤ c.param0) }) s
  if (freed c s).isEmpty then kept else each (c.partition :: (List.range 64).erase c.partition) closeReserve kept

theorem flushDiscard_eq {u : State} (f : Nat) (c : Cmd) :
    flushDiscard f c u = complete f c.tag { r0 := (freed c u).length } (blocksFreed c u) := rfl

theorem blocksFreed_rings (c : Cmd) (s : State) : Rings s (blocksFreed c s) := by
  have kept : Rings s (modPart c.partition
    (fun x => { x with blocks := x.blocks.filter fun b => !decide (b.seq.toNat ≤ c.param0) }) s) := .of_only (modPart_only ..) rfl
  unfold blocksFreed
  dsimp only
  split
  · exact kept
  · exact each_rings kept closeReserve_rings

theorem blocksFreed_drives (c : Cmd) (s : State) : Drives s (blocksFreed c s) := by
  have kept : Drives s (modPart c.partition (fun x => { x with blocks := x.blocks.filter fun b => !decide (b.seq.toNat ≤ c.param0) }) s) :=
    .of_only (modPart_only ..)
  exact .ite kept (kept.each fun _ _ => closeReserve_drives ..)

theorem blocksFreed_now (c : Cmd) (s : State) : (blocksFreed c s).now = s.now := by
  have kept : (modPart c.partition
    (fun x => { x with blocks := x.blocks.filter fun b => !decide (b.seq.toNat ≤ c.param0) }) s).now = s.now :=
      (modPart_only ..).same .now (by decide)
  unfold blocksFreed
  dsimp only
  split
  · exact kept
  · exact (each_eq State.now (fun p t => (closeReserve_only p t).same .now (by decide)) _ _).trans kept

theorem execTraceFlushDrained_ends {u : State} (here : s.cmd f.val tag = some c) (op : c.op = 0x41) (begun : c.started = true)
    (stage : c.work.stage = 1) (drained : (s.part c.partition).drained c.work.r1 = true)
    (taken : commitBlock c.partition (shedQueue c.partition s) = some u) :
    exec (.traceFlushDrained f tag) s = done (complete f.val tag { r0 := sat 0xFFFFFFFF c.work.r0 } u) := by
  show execTraceFlushDrained f tag s = _
  unfold execTraceFlushDrained
  rw [here]
  refine (if_pos (by simp [op, begun, stage, drained])).trans ?_
  rw [taken]

end

/-- Settles O27: a routing of its own, a flush that waits, and two that end with their count. -/
theorem traceCommandsAct : Obligations.TraceCommandsAct := by
  unfold Obligations.TraceCommandsAct
  refine ⟨?routes, ?waits, ?discards, ?drained⟩
  case routes =>
    intro s f tag c w owner b free flags
    have set := setRoute_only c.partition c.param0 (c.f 54 1) (started f.val tag s)
    have last := complete_only f.val tag {} (setRoute c.partition c.param0 (c.f 54 1) (started f.val tag s))
    have quiet : (setRoute c.partition c.param0 (c.f 54 1) (started f.val tag s)).fires = [] :=
      (set.same .fires (by decide)).trans (((started_only ..).same .fires (by decide)).trans w.quiet)
    obtain ⟨old, switch, routes⟩ := setRoute_part (s := started f.val tag s) (mask := c.param0) (dest := c.f 54 1) b
    have part : (started f.val tag s).part c.partition = s.part c.partition := Only.part (started_only ..) rfl _
    have edge : (started f.val tag s).nextEdge = s.nextEdge := by
      obtain ⟨v, hv⟩ := started_frame f.val tag s
      rw [hv]
      rfl
    refine Runs.quiet (execTraceConfig_routes w owner free flags) ((last.same .fires (by decide)).trans quiet)
      ⟨answers_of_only _ f.isLt w.here set, ?_⟩
    rw [Only.part last rfl, old, switch, routes, part, edge]
    exact ⟨rfl, rfl, rfl⟩
  case waits =>
    intro s f tag c v w reads mode
    have kept := modWork_only f.val tag (fun w => { w with stage := 1 }) (started f.val tag s)
    have begun := started_only f.val tag s
    exact Runs.quiet (execTraceFlush_waits w reads mode)
      ((kept.same .fires (by decide)).trans ((begun.same .fires (by decide)).trans w.quiet))
      ⟨cmd_modWork _ (cmd_started w.here), begun.andThen kept⟩
  case discards =>
    intro s f tag c v w owner mode b
    obtain rfl : c.tag = tag := cmd_tag w.here
    have ends : exec (.traceFlush f c.tag v) s = done (complete f.val c.tag
        { r0 := (freed { c with started := true } (started f.val c.tag s)).length }
        (blocksFreed { c with started := true } (started f.val c.tag s))) := execTraceFlush_discards w owner mode
    have count : (freed { c with started := true } (started f.val c.tag s)).length =
        ((s.part c.partition).blocks.filter fun b => decide (b.seq.toNat ≤ c.param0)).length := by
      unfold freed
      rw [partition_start, Only.part (started_only ..) rfl]
      rfl
    rw [count] at ends
    have answered := answers_after { r0 := ((s.part c.partition).blocks.filter fun b => decide (b.seq.toNat ≤ c.param0)).length }
      f.isLt w.here (blocksFreed_rings { c with started := true } (started f.val c.tag s))
      (((started_only ..).same .out (by decide) : (started f.val c.tag s).out = s.out) ▸ (blocksFreed_drives ..).out)
      ((blocksFreed_now ..).trans ((started_only ..).same .now (by decide)))
    obtain ⟨t, runs, -, -, told⟩ := exec_completes ends answered
    exact ⟨t, runs, told⟩
  case drained =>
    intro s f tag c here op begun stage drained some_
    obtain ⟨u, taken⟩ := Option.isSome_iff_exists.mp some_
    have shed := shedQueue_only c.partition s
    have put := commitBlock_only taken
    obtain ⟨t, runs, -, -, told⟩ := exec_completes (execTraceFlushDrained_ends here op begun stage drained taken)
      (answers_later _ f.isLt here ((shedQueue_rings ..).trans (.of_only put rfl))
        ((shedQueue_grows ..).trans (commitBlock_grows taken)).out
        ((put.same .now (by decide)).trans (shed.same .now (by decide))))
    exact ⟨t, runs, told⟩

end Sys2Proof.Laws
